-- ==== Sys2Proof/Word.lean ====
section
/-! DEFINITION. The word types of the model. -/

namespace Sys2Proof

/-- One byte (R6: multi-byte fields are little-endian). -/
abbrev Byte := BitVec 8

/-- One 8-byte dictionary slot or sequencer register (R30, R193). -/
abbrev Word := BitVec 64

/-- A row or polynomial as its list of coefficients, each meant below 2^36 (R84).
A lane beyond the list reads as zero. -/
abbrev Row := List Nat

end Sys2Proof
end

