-- ==== Sys2Proof/Syntax.lean ====
section
/-! DEFINITION. The commands of the block: one constructor of `Instr` per row of spec/opcode_table.json, with the row's operands. -/

namespace Sys2Proof

/-- The two ends of the crossing gate (R12, R13). -/
inductive GateEnd where
  | host
  | field
deriving DecidableEq, Repr, Inhabited

/-- What the error code found on a read of a scratchpad row or a stack granule (R260, R292), or that one of the three copies of the
row's tag disagreed and was rewritten (R260). The outcome is physical, so the command that reads carries it. -/
inductive Ecc where
  | clean
  | corrected (word : Nat)
  | uncorrectable (word : Nat)
  | tagCopy
deriving DecidableEq, Repr, Inhabited

/-- The engines that run long operations (Table 10-2). -/
inductive Engine where
  | ntt
  | exchange
  | baseConv
  | fetch
deriving DecidableEq, Repr, Inhabited

/-- One event-log entry, Table 18-6. -/
structure LogEntry where
  event : Nat
  job : Nat
  code : Nat
  seq : Nat
  time : Nat
  detail0 : Nat
  detail1 : Nat
deriving DecidableEq, Repr, Inhabited

/-- One operation frame of the fabric: the header of Table 14-4, its payload, and whether the end-to-end CRC-64 holds (R315). -/
structure Frame where
  version : Nat
  opcode : Nat
  vl : Nat
  hops : Nat
  mcastGroup : Nat
  seq : Nat
  operand : Nat
  tag : Nat
  length : Nat
  source : Nat
  target : Nat
  address : Nat
  payload : List Byte
  crcOk : Bool
deriving DecidableEq, Repr, Inhabited

/-- One request at a memory controller (R283, R285): a read, or a write of the given bytes; one of a tile carries the tile's lease epoch (R393). -/
structure MemReq where
  source : Nat
  address : Nat
  length : Nat
  write : Option (List Byte)
  epoch : Nat := 0
deriving DecidableEq, Repr, Inhabited

/-- The outcome a host-link completion carries (R333). -/
inductive HostStatus where
  | ok
  | ur
  | ca
  | ep
deriving DecidableEq, Repr, Inhabited

/-- A configuration-space access at the host link (R325, R340, Table 15-8). -/
inductive ConfigOp where
  | readVendorId
  | read (register : Nat)
  | writeCommand (busMaster : Bool) (atomicRequester : Bool) (rrsVisible : Bool)
  | msixControl (enabled : Bool) (masked : Bool)
  | deviceControl (maxPayload maxRead : Nat)
  | write (register : Nat)
deriving DecidableEq, Repr, Inhabited

/-- A received host request that the device does not support (R337). -/
inductive Unsupported where
  | atomicOp
  | outsideBarPosted
  | outsideBarNonPosted
deriving DecidableEq, Repr, Inhabited

/-- The request kinds of a DTP GROUP message and of GroupControl (Table 2-5, Table 2-6). -/
inductive GroupOp where
  | openGroup
  | commit
  | abort
deriving DecidableEq, Repr, Inhabited

/-- The readings of one 10 ms sensor update (Table 21-8): the temperatures are in degrees C times 16. -/
structure SensorReadings where
  coolantInlet : Int
  coolantOutlet : Int
  fieldSide : Int
  boardMax : Int
  stackTemps : List Int
  engineTemps : List Int
  junctionTemps : List Int
deriving DecidableEq, Repr, Inhabited

/-- What a DICT_REQUEST asks for (Table 1-2: entry address, operation, value or segment). An entry address is the offset of R10.
How Table 1-2's payload divides into fields is the model's choice (log entry 61). -/
inductive GateAccess where
  /-- Entries one after another: each read, or written with a value. -/
  | entries (list : List (Nat × Option Word))
  /-- A segment of an entry's content, from a byte of the content on. -/
  | segmentRead (offset start length : Nat)
  /-- A segment of an entry's new content; the last one ends the transfer. -/
  | segmentWrite (offset start : Nat) (data : List Byte) (last : Bool)
  /-- New values of persistent entries, for one record of the persistent store (R33). -/
  | store (values : List (Nat × Word))
  /-- A segment of a persistent entry's new content, which is `total` bytes long (R33). -/
  | storeSegment (offset start total : Nat) (data : List Byte)
deriving DecidableEq, Repr, Inhabited

/-- The commands. An access context `ctx` is numbered by `Sys2Proof.Machine.Ctx`: 0 BAR0, 1 the supervisor,
16 + i DTP session i, 0x10000 + n fabric node n (R36). A dictionary offset is the byte offset of R10. -/
inductive Instr where
  -- Crossing gate
  | dictRequest (e : GateEnd) (seq ctx : Nat) (access : GateAccess)
  | dictResponse (e : GateEnd) (seq : Nat) (items : List (Nat × Word)) (data : List Byte)
  | eventNotice (entry : LogEntry)
  | snapshotTrigger (target : Nat)
  | powerDomainCmd (seq mask : Nat) (on : Bool)
  | resetCmd (seq kind cause : Nat)
  | firmwareBlock (seq offset : Nat) (data : List Byte)
  | keepalive (e : GateEnd)
  | gateMessageDiscarded (e : GateEnd) (type length : Nat) (crcOk : Bool)
  | keepaliveSend (e : GateEnd)
  | gateResendTimeout (e : GateEnd) (seq : Nat)
  | gateMessageGivenUp (e : GateEnd) (seq : Nat)
  | gateDown (e : GateEnd)
  -- Dictionary, transaction groups, segmented transfers, parameter sets
  | dictWrite (ctx offset size : Nat) (value : Word)
  | groupOpen (ctx : Nat)
  | groupCommit (ctx : Nat)
  | groupAbort (ctx : Nat)
  | groupEpochTimeout (ctx : Nat)
  | groupIdleTimeout (ctx : Nat)
  | contextRelease (ctx : Nat)
  | transferIdleTimeout (ctx : Nat)
  | persistRecordWrite
  | startRead (ctx : Nat)
  | startWrite (ctx : Nat)
  | commitSegment (ctx : Nat)
  | segmentFinish (ctx : Nat)
  | segmentCancel (ctx : Nat)
  | restoreDefaults (ctx : Nat) (value : Word)
  | setUnload (ctx id : Nat)
  -- Management port
  | dtpHello (port offered : Nat) (certificate ephemeral : List Byte)
  | dtpRead (session seq : Nat) (addrs : List Nat)
  | dtpWrite (session seq : Nat) (pairs : List (Nat × Word))
  | dtpSegmentRead (session seq addr offset length : Nat)
  | dtpSegmentWrite (session seq addr offset : Nat) (data : List Byte) (last : Bool)
  | dtpClose (session seq : Nat)
  | dtpDatagramRejected (session seq : Nat) (authentic : Bool)
  | dtpSessionIdleTimeout (session : Nat)
  -- Jobs
  | jobLoad (ctx job : Nat)
  | admissionCheck
  | jobStart (ctx job : Nat)
  | descriptorBind (job : Nat)
  | jobAbort (ctx job : Nat)
  | jobAbortCleanup (job : Nat)
  | jobRelease (ctx job : Nat)
  | jobRearm (ctx job : Nat)
  | jobCommit (job : Nat)
  | descriptorValidWrite (job handle : Nat)
  | completionSignal (job : Nat)
  | jobStopComplete (job : Nat)
  | stopSettleTimeout (job : Nat)
  -- Bundle slots of a tile
  | cnop (t : Nat)
  | loop (t index : Nat)
  | waitr (t row count : Nat) (anyAccess : Bool)
  | waitall (t : Nat)
  | bar (t barrier : Nat)
  | halt (t : Nat)
  | wnop (t : Nat)
  | vadd (t vd va vb qm : Nat)
  | vsub (t vd va vb qm : Nat)
  | vneg (t vd va qm : Nat)
  | vred (t vd va qm : Nat)
  | vaddk (t vd va sk qm : Nat)
  | vmul (t vd va vb qm : Nat)
  | vmulk (t vd va sk qm : Nat)
  | vmad (t vd va vb vc qm : Nat)
  | vmsb (t vd va vb vc qm : Nat)
  | wResultWrite (t vd : Nat)
  | mnop (t : Nat)
  | mld (t v sb row : Nat) (consume : Bool) (ecc : Ecc)
  | mst (t v sb row : Nat) (waitEmpty : Bool)
  | mstWriteLand (t row : Nat)
  | mrel (t sb row : Nat)
  | xnop (t : Nat)
  | xli (t sd : Nat) (imm : BitVec 16)
  | xlui (t sd : Nat) (imm : BitVec 16)
  | xaddi (t sd sa : Nat) (imm : BitVec 16)
  | xadd (t sd sa sb : Nat)
  | xsub (t sd sa sb : Nat)
  | xmul (t sd sa sb : Nat)
  | xand (t sd sa sb : Nat)
  | xor (t sd sa sb : Nat)
  | xxor (t sd sa sb : Nat)
  | xshl (t sd sa : Nat) (imm : BitVec 6)
  | xshr (t sd sa : Nat) (imm : BitVec 6)
  | xidx (t sd : Nat) (level : BitVec 3)
  | xldn (t sd sa : Nat) (imm : BitVec 16) (ecc : Ecc)
  | xstn (t sd sa : Nat) (imm : BitVec 16) (ecc : Ecc)
  | qload (t qd setId limb : Nat)
  | icacheLineFill (t line : Nat)
  | eccFreezeEnd (t : Nat)
  -- Long operations: tile, index of the long-operation table, sequencer register SA
  | ntt (t index sa : Nat)
  | automorph (t index sa : Nat)
  | transpose (t index sa : Nat)
  | bconv (t index sa : Nat)
  | rescale (t index sa : Nat)
  | ksip (t index sa : Nat)
  | moddown (t index sa : Nat)
  | ledger (t index sa : Nat)
  | xferIn (t index sa : Nat)
  | xferOut (t index sa : Nat)
  | keystreamOpen (t index sa : Nat)
  | batchBootstrap (t index sa : Nat)
  | extract (t index sa : Nat)
  | pack (t index sa : Nat)
  | modraise (t index sa : Nat)
  | lopSignal (t index sa : Nat)
  | lopFence (t index sa : Nat)
  | longOpDispatch (t : Nat) (engine : Engine)
  | longOpFinish (t opId : Nat) (ecc : Ecc)
  | constantLineFill (t line : Nat)
  | fetchRowWrite (t opId : Nat) (data : List Byte) (ecc : Ecc)
  | xferVerifyMatch (t opId : Nat)
  | signalCompletion (t opId status : Nat)
  | waitTimeout (t unit row : Nat)
  | barrierArrive (t : Nat)
  | barrierRelease (job : Nat)
  | barrierTimeout (barrier : Nat)
  -- Direct conversion
  | convStart (ctx : Nat)
  | convCancel (ctx : Nat)
  | convComplete (status : Nat) (remote : List Byte)
  -- Geyser
  | streamSlotBind
  | rateWindow
  | keyHeaderCheck (slot : Nat) (granule : List Byte)
  | keyRowWrite (slot : Nat) (data : List Byte)
  | uniformRowWrite (slot t : Nat)
  | keyTrailerCheck (slot : Nat) (trailer : Word)
  | streamReadFail (slot error : Nat)
  | mcastWindowSend (slot : Nat)
  | mcastCreditTimeout (slot : Nat)
  | mcastIdleTimeout (slot : Nat)
  -- Scratchpad
  | narrowRead (ctx : Nat) (ecc : Ecc)
  | narrowWrite (ctx : Nat) (value : Word) (ecc : Ecc)
  | rowTagClear (ctx : Nat) (value : Word)
  | rowVerifyRead (t row : Nat) (pass : Bool)
  | rowEccWriteBack (t row word : Nat)
  | scrubRowRead (t : Nat) (ecc : Ecc)
  | windowPutLand (t : Nat)
  | windowGetServe (t : Nat) (ecc : Ecc)
  -- Memory stacks
  | memRequest (controller : Nat) (req : MemReq)
  | bankService (controller channel bank : Nat) (ecc : Ecc)
  | bankRefresh (controller channel bank : Nat)
  | stackEccWriteBack
  | poisonRetire
  | poisonClear (ctx : Nat) (value : Word)
  | poisonClearWalkEnd
  | patrolScrub (stack channel : Nat) (ecc : Ecc)
  | selfRefreshEntry (stack : Nat)
  | stackModeWrite (ctx : Nat) (value : Word)
  | bar2Read (offset length : Nat) (secure : Bool) (ecc : Ecc)
  | bar2Write (offset : Nat) (data : List Byte) (secure : Bool)
  -- Fabric
  | trainExchange (port node versions : Nat) (timeParent : Bool)
  | portRetrain (port : Nat)
  | frameReceive (port lane linkSeq : Nat) (linkOk : Bool) (frame : Frame)
  | frameAck (port lane linkSeq : Nat)
  | frameRetransmit (port lane : Nat)
  | frameForward (port : Nat) (frame : Frame)
  | fabricPut (frame : Frame)
  | fabricGet (frame : Frame) (ecc : Ecc)
  | addmod (frame : Frame) (ecc : Ecc)
  | fetchadd (frame : Frame) (ecc : Ecc)
  | fabricSignal (frame : Frame)
  | signalPerform (source lane : Nat)
  | mcastPut (port : Nat) (frame : Frame)
  | fabricCompletion (frame : Frame)
  | completionTimeout (tag : Nat)
  | issuerFence (issuer : Nat)
  | arriveFrame (barrier epoch child : Nat)
  | releaseFrame (barrier epoch : Nat)
  | snapFrame (port source ident target : Nat)
  | timeIdle (port time delay : Nat)
  | timeLockLost
  | portEnableWrite (ctx : Nat) (value : Word)
  -- Host link
  | perstAssert
  | perstRelease
  | hotReset
  | functionLevelReset
  | configAccess (op : ConfigOp)
  | hostPutAck (tag : Nat)
  | hostCompletion (tag part : Nat) (status : HostStatus) (data : List Byte)
  | pcieCompletionTimeout (tag part : Nat)
  | interruptHoldoffEnd (vector : Nat)
  | ideCheckFailed (selective : Bool)
  | doeDiscovery (index : Nat)
  | getVersion
  | getCapabilities
  | negotiateAlgorithms (p384 sha384 secp384r1 aes256gcm : Bool)
  | getDigests
  | getCertificate (slot offset length : Nat)
  | challenge (slot : Nat) (nonce : List Byte)
  | getMeasurements (index : Nat) (signed : Bool) (nonce : List Byte)
  | keyExchange (sessionId : Nat)
  | spdmFinish (sessionId : Nat) (verified : Bool)
  | heartbeat (sessionId : Nat)
  | keyUpdate (sessionId : Nat)
  | endSession (sessionId : Nat)
  | vendorDefinedRequest (sessionId : Nat) (selective : Bool)
  -- Power
  | powerSample (inputMw voltageMv currentMa : Nat)
  | overBudgetStep
  | holdLimitExpiry
  | raiseCheck
  | pointChange (job : Nat)
  | thermalStep (t : Nat) (temp16 : Int)
  | thermalTrip (t : Nat) (temp16 : Int)
  | tileSleepEntry (t bundlesToBar : Nat)
  | tileWake (t : Nat)
  | deepIdleEnter (ctx : Nat)
  | deepIdleLeave (ctx : Nat)
  | deepIdleAuto
  -- Security and firmware
  | hssTreePrepare
  | activateHost (ctx : Nat)
  | activateFull (ctx : Nat)
  | commitSvn (ctx : Nat) (value : Word)
  | pkeClaim (ctx : Nat) (value : Word)
  | pkeFree (ctx : Nat)
  | pkeSlotWrite (ctx slot : Nat) (data : List Byte)
  | modAdd (ctx d a b m len : Nat)
  | modSub (ctx d a b m len : Nat)
  | modMul (ctx d a b m len : Nat)
  | modInv (ctx d a m len : Nat)
  | modExp (ctx d a b m len : Nat)
  | p384Add (ctx d a b : Nat)
  | p384Double (ctx d a : Nat)
  | p384Mul (ctx d a b : Nat)
  | p384Check (ctx a : Nat)
  | keyGenerate (ctx d handle : Nat) (persist : Bool)
  | keyLoad (ctx d handle : Nat)
  | keyErase (ctx handle : Nat)
  | pkeCommandComplete
  -- Integrity and recovery
  | checkStart (ctx : Nat)
  | checkResume (ctx : Nat)
  | checkCancel (ctx : Nat)
  | checkRunComplete (status : Nat) (remote : List Byte)
  | contextWrite (ctx context sub : Nat) (value : Word)
  | leaseRenew (t : Nat)
  | leaseTimeout (t granter : Nat)
  | tileRecoveryTimeout (t : Nat)
  | watchdogKick
  | watchdogExpiry
  -- Snapshots
  | snapImmediate (ctx : Nat)
  | snapTimed (ctx : Nat)
  | snapBroadcast (ctx : Nat)
  | snapshotLatch
  | snapshotCopyComplete
  -- Start-up and module
  | coldStart
  | resetWarm (ctx : Nat)
  | resetHostOff (ctx : Nat)
  | resetHostPower (ctx : Nat)
  | resetFull (ctx : Nat)
  | inputOutOfRange (millivolts : Nat)
  | inputRecovery
  | fieldPowerLoss
  | sensorUpdate (readings : SensorReadings)
  -- Rows added at the end of the table
  | dtpGroup (session seq : Nat) (op : GroupOp)
  | dictRead (ctx offset size : Nat)
  | hostLinkUp (speed width : Nat) (flit : Bool) (tagLimit : Nat)
  | unsupportedRequest (kind : Unsupported)
  | selfRefreshPatrolWake (stack : Nat)
deriving DecidableEq, Repr, Inhabited

end Sys2Proof
end

