-- ==== Sys2Proof/Decode.lean ====
section
/-! DEFINITION. Reading a command from table bits: spec/opcode_table.json gives no row bits, so no word spells a command. -/

namespace Sys2Proof

/-- The command that a word spells by the table's bits. No row of the table has bits: the block takes commands, not instruction words. -/
def decodeTableWord (_nbits _w : Nat) : Option Instr := none

end Sys2Proof
end

