-- ==== Sys2Proof/Machine/Tab.lean ====
section
/-! DEFINITION. Finite tables in one canonical form: key and value pairs with strictly rising keys. -/

namespace Sys2Proof.Machine

/-- A table of values by number: registers of a file, slots, rows, bytes. -/
abbrev Tab (α : Type) := List (Nat × α)

/-- The value listed under a key. -/
def Tab.get? {α : Type} : Tab α → Nat → Option α
  | [], _ => none
  | (k', v) :: rest, k => if k' = k then some v else Tab.get? rest k

/-- The value under a key, or `d` where none is listed. -/
def Tab.get {α : Type} (m : Tab α) (d : α) (k : Nat) : α := (Tab.get? m k).getD d

/-- The table with one value replaced or added. -/
def Tab.put {α : Type} : Tab α → Nat → α → Tab α
  | [], k, v => [(k, v)]
  | (k', v') :: rest, k, v =>
    if k < k' then (k, v) :: (k', v') :: rest
    else if k = k' then (k, v) :: rest
    else (k', v') :: Tab.put rest k v

/-- The table with nothing listed under a key. -/
def Tab.erase {α : Type} (m : Tab α) (k : Nat) : Tab α := m.filter fun p => p.1 != k

/-- The canonical form: strictly rising keys. -/
def Tab.wf {α : Type} : Tab α → Bool
  | [] => true
  | [_] => true
  | (k, _) :: (k', v') :: rest => decide (k < k') && Tab.wf ((k', v') :: rest)

/-- Every listed value mapped, keys unchanged. -/
def Tab.mapVal {α β : Type} (m : Tab α) (f : Nat → α → β) : Tab β := m.map fun p => (p.1, f p.1 p.2)

end Sys2Proof.Machine
end

