-- ==== Sys2Proof/Machine/Bytes.lean ====
section
/-! DEFINITION. Byte order, bit fields and sign extension, each settled in one place (R6). -/

namespace Sys2Proof.Machine

/-- The number that a little-endian byte list spells (R6). -/
def leNat : List Byte → Nat
  | [] => 0
  | b :: bs => b.toNat + 256 * leNat bs

/-- The low `n` bytes of a number, little-endian (R6). -/
def leBytes : Nat → Nat → List Byte
  | 0, _ => []
  | n + 1, x => BitVec.ofNat 8 x :: leBytes n (x / 256)

/-- Bits `lo` to `lo + n - 1` of a number. -/
def bits (x lo n : Nat) : Nat := x / 2 ^ lo % 2 ^ n

/-- Bit `i` of a number. -/
def bit (x i : Nat) : Bool := x / 2 ^ i % 2 = 1

/-- A number of `n` bits read as two's complement. -/
def signed (n x : Nat) : Int :=
  if x % 2 ^ n < 2 ^ (n - 1) then (x % 2 ^ n : Nat) else (x % 2 ^ n : Nat) - (2 ^ n : Nat)

/-- An integer as the two's-complement number of `n` bits. -/
def unsigned (n : Nat) (x : Int) : Nat := (x % (2 ^ n : Nat)).toNat

/-- `⌈a / b⌉`. -/
def ceilDiv (a b : Nat) : Nat := (a + b - 1) / b

/-- A counter that saturates at its largest value. -/
def satAdd (max x n : Nat) : Nat := min max (x + n)

/-- Bytes of a list from an offset, zero-filled to the given length. -/
def sliceBytes (l : List Byte) (off len : Nat) : List Byte :=
  (List.range len).map fun i => (l[off + i]?).getD 0

/-- The 36-bit elements packed without gaps, little-endian (R123): 512 elements fill 2,304 bytes. -/
def packNat : List Nat → Nat
  | [] => 0
  | x :: xs => x % 2 ^ 36 + 2 ^ 36 * packNat xs

/-- `n` elements of `w` bits read from a packed number. -/
def unpackNat (w : Nat) : Nat → Nat → List Nat
  | 0, _ => []
  | n + 1, x => x % 2 ^ w :: unpackNat w n (x / 2 ^ w)

/-- A row's 4,608 data bytes (R123, R262). -/
def rowBytes (r : Row) : List Byte :=
  leBytes 4608 (packNat ((List.range 1024).map fun i => r.getD i 0))

/-- The 1,024 lanes that 4,608 bytes hold (R123). -/
def bytesRow (bs : List Byte) : Row := unpackNat 36 1024 (leNat bs)

end Sys2Proof.Machine
end

