-- ==== Sys2Proof/Machine/Crc.lean ====
section
/-! DEFINITION. The check values of R387: CRC-64 (ECMA-182) and CRC-32C, both reflected, initial value and final XOR all ones. -/

namespace Sys2Proof.Machine

/-- The ECMA-182 polynomial 0x42F0_E1EB_A9EA_3693 in reflected bit order. -/
def crc64Poly : Nat := 0xC96C5795D7870F42

/-- The CRC-32C polynomial 0x1EDC_6F41 in reflected bit order. -/
def crc32cPoly : Nat := 0x82F63B78

/-- One bit of a reflected shift register. -/
def crcBit (poly r : Nat) : Nat := if r % 2 = 1 then Nat.xor (r / 2) poly else r / 2

/-- One byte folded. -/
def crcByte (poly r : Nat) (b : Byte) : Nat :=
  crcBit poly (crcBit poly (crcBit poly (crcBit poly (crcBit poly (crcBit poly (crcBit poly (crcBit poly (Nat.xor r b.toNat))))))))

/-- Bytes folded into a shift register. -/
def crcFold (poly r : Nat) (bs : List Byte) : Nat := bs.foldl (crcByte poly) r

/-- A fresh RUNNING register of CRC-64. -/
def crc64Init : Nat := 2 ^ 64 - 1

/-- RUNNING of a CRC-64 context after more bytes. -/
def crc64Run (r : Nat) (bs : List Byte) : Nat := crcFold crc64Poly r bs

/-- The check value of RUNNING: XOR all ones (R387). -/
def crc64Value (r : Nat) : Nat := 2 ^ 64 - 1 - r % 2 ^ 64

/-- CRC-64 of a byte list. -/
def crc64 (bs : List Byte) : Nat := crc64Value (crc64Run crc64Init bs)

/-- RUNNING of a CRC-32C context after more bytes: the register is the low 32 bits. -/
def crc32cRun (r : Nat) (bs : List Byte) : Nat := crcFold crc32cPoly (r % 2 ^ 32) bs

/-- The check value of a CRC-32C RUNNING: low 32 bits inverted, bits [63:32] zero. -/
def crc32cValue (r : Nat) : Nat := 2 ^ 32 - 1 - r % 2 ^ 32

/-- CRC-32C of a byte list. -/
def crc32c (bs : List Byte) : Nat := crc32cValue (crc32cRun (2 ^ 32 - 1) bs)

end Sys2Proof.Machine
end

