-- ==== Sys2Proof/Config.lean ====
section
/-! DEFINITION. What an implementation fixes and what the spec leaves open: every constant here is a free value, with no body. -/

namespace Sys2Proof

/-- The unspecified contents of a scratchpad row after its bank was powered (R259): by power epoch, tile, row and lane.
Free value, DESIGN CHOICE, log entry 2. -/
opaque Config.rowContents : Nat → Nat → Nat → Nat → BitVec 36

/-- The undefined contents of a stack byte after a StackMode change (R281): by change number and address.
Free value, DESIGN CHOICE, log entry 2. -/
opaque Config.stackContents : Nat → Nat → Byte

/-- The undefined contents left by a cancelled or failed direct conversion (R120), by free count and offset.
Free value, DESIGN CHOICE, log entry 2. -/
opaque Config.undefinedByte : Nat → Nat → Byte

/-- The random number drawn by KEY_GENERATE (R383), by free count. Free value, DESIGN CHOICE, log entry 2. -/
opaque Config.random : Nat → BitVec 384

/-- A random or session-dependent byte string of the SPDM and DTP protocols, by free count and length index.
Free value, DESIGN CHOICE, log entry 7. -/
opaque Config.protocolByte : Nat → Nat → Byte

/-- SHA-384 of a byte string (R362, R368, R372), an external standard. Free value, DESIGN CHOICE, log entry 7. -/
opaque Config.sha384 : List Byte → BitVec 384

/-- The ECDSA P-384 signature byte i of the device identity key over a message (R362), by free count.
Free value, DESIGN CHOICE, log entry 7. -/
opaque Config.ecdsaByte : Nat → List Byte → Nat → Byte

/-- The HSS signature byte i by a leaf over a message (R362, R364). Free value, DESIGN CHOICE, log entry 7. -/
opaque Config.hssByte : Nat → List Byte → Nat → Byte

/-- Whether an ECDSA P-384 signature verifies: public key, message, signature (R372). Free value, DESIGN CHOICE, log entry 7. -/
opaque Config.ecdsaVerifies : List Byte → List Byte → List Byte → Bool

/-- Whether an LMS signature verifies: public key, message, signature (R372). Free value, DESIGN CHOICE, log entry 7. -/
opaque Config.lmsVerifies : List Byte → List Byte → List Byte → Bool

/-- Whether a client chain reaches an operator anchor, is valid at a time (none: time not locked) and signs the ephemeral key (R367).
Free value, DESIGN CHOICE, log entry 7. -/
opaque Config.chainValid : List Byte → Option Nat → List Byte → List Byte → Bool

/-- The bytes of a by-unit or by-firmware STRING or DOMAIN entry: entry address and byte index (R56, R385).
Free value, DESIGN CHOICE, log entry 4. -/
opaque Config.unitByte : Nat → Nat → Byte

/-- The lengths of the by-unit and by-firmware STRING and DOMAIN entries. Free value, DESIGN CHOICE, log entry 4. -/
opaque Config.unitLength : Nat → Nat

/-- A long operation as the duration bound sees it (R249): its place in the rank's issue order, its code, its busy cycles, the cycles from the last
of them to its finish, and the stream entries whose rows it takes. -/
structure BoundOp where
  at' : Nat
  code : Nat
  busy : Nat
  finish : Nat
  keys : List Nat
deriving DecidableEq, Repr, Inhabited

/-- A rank's part of the bound: the bundles that it issues, the places of its BARs, its line fetches and its long operations. -/
structure BoundRank where
  bundles : Nat
  bars : List Nat
  lines : Nat
  ops : List BoundOp
deriving DecidableEq, Repr, Inhabited

/-- What R249 computes the duration bound from: the clock at CERT_POINT in MHz, the ranks, the streams as they open (place on the lead tile, entry,
ns that its wire image takes at its RATE), the latency of a line in ns (R291), the replays (number, restore time in ns, bundles of the longest span),
the BANKS and FABRIC loads. -/
structure BoundTerms where
  clock : Nat
  ranks : List BoundRank
  keys : List (Nat × Nat × Nat)
  lineLatency : Nat
  replays : Nat × Nat × Nat
  banks : List Nat
  fabric : List Nat
deriving DecidableEq, Repr, Inhabited

/-- A guaranteed scratchpad region of a certificate as check 7 sees it (R247): rank, first row, rows, LEAD in cycles, the place of the first issue that
reads a row of it. -/
structure BoundLead where
  rank : Nat
  row : Nat
  rows : Nat
  lead : Nat
  due : Nat
deriving DecidableEq, Repr, Inhabited

/-- The computed duration bound of R249 in ns: how its terms combine in time, which the spec does not give.
Free value, DESIGN CHOICE, log entry 8. -/
opaque Config.computedBound : BoundTerms → Nat

/-- The bound of the work still to run of R256: the terms, and the schedule counts of the group's tiles.
Free value, DESIGN CHOICE, log entry 8. -/
opaque Config.remainingBound : BoundTerms → List Nat → Nat

/-- Whether the rows of a guaranteed region are FULL LEAD cycles before their first read is due (check 7 of R247).
Free value, DESIGN CHOICE, log entry 8. -/
opaque Config.leadHolds : BoundTerms → BoundLead → Bool

/-- Whether a tile passes its self-test at a start (R417 phase 5), by start number and tile. Free value, DESIGN CHOICE, log entry 2. -/
opaque Config.selfTest : Nat → Nat → Bool

/-- How long a host-side restart runs until READY, in ns, within the bound of Table 20-1, by restart number (R415).
Free value, DESIGN CHOICE, log entry 2. -/
opaque Config.restartDuration : Nat → Nat

/-- A byte that another device or the host holds at a moment the spec does not fix, by free count and index.
Free value, DESIGN CHOICE, log entry 2. -/
opaque Config.remoteByte : Nat → Nat → Byte

/-- A byte of a firmware package that no staging has written: the package of manufacture (R13, R373), by slot and offset.
Free value, DESIGN CHOICE, log entry 4. -/
opaque Config.packageByte : Nat → Nat → Byte

/-- The code with which the readback of a spent leaf index refuses a signature (R364), OK where it reads back, by free count.
Free value, DESIGN CHOICE, log entry 2. -/
opaque Config.leafReadback : Nat → Nat

/-- Whether the shadow of the host-side components passes its digests at a warm restart (R419), by start number.
Free value, DESIGN CHOICE, log entry 2. -/
opaque Config.shadowIntact : Nat → Bool

/-- The phase in progress of a restart (Table 20-6), by start number and the nanoseconds since it began.
Free value, DESIGN CHOICE, log entry 2. -/
opaque Config.restartPhase : Nat → Nat → Nat

/-- The offset of a bad record in the persistent dictionary store (R33, Table 18-7), by record number. Free value, DESIGN CHOICE, log entry 2. -/
opaque Config.recordOffset : Nat → Nat

/-- How far after the capture an island's clock edge latches a section (R404), by free count, and by kind and index packed.
Free value, DESIGN CHOICE, log entry 2. -/
opaque Config.latchSkew : Nat → Nat → Nat

/-- The length of a capture's section whose byte layout the spec does not give (Table 19-3), by free count, kind and index.
Free value, DESIGN CHOICE, log entry 2. -/
opaque Config.sectionLength : Nat → Nat → Nat → Nat

/-- A byte of such a section: free count, kind and index packed, and offset. Free value, DESIGN CHOICE, log entry 2. -/
opaque Config.sectionByte : Nat → Nat → Nat → Byte

/-- How many granules of a check run were folded when it was cancelled or failed (R390), by free count. Free value, DESIGN CHOICE, log entry 2. -/
opaque Config.foldedGranules : Nat → Nat

/-- A byte of the optical power readings (Table 21-8): fabric time, entry and offset. Free value, DESIGN CHOICE, log entry 2. -/
opaque Config.laneByte : Nat → Nat → Nat → Byte

/-- The global address of the completion counter that the members of a multicast group signal at the key's owner (R190), which the spec does
not give. Free value, DESIGN CHOICE, log entry 17. -/
opaque Config.mcastCounter : Nat → Nat

end Sys2Proof
end

