-- ==== Sys2Proof/Machine/State.lean ====
section
/-! DEFINITION. The state of the module: plain data, holding all the spec gives the machine, and its reset value. -/

namespace Sys2Proof.Machine

/-- Why a step stops without a next state. -/
inductive Fault where
  /-- Raised by a command that names a unit the module does not have at all, such as tile 64, port 16 or job slot 16
  (R3, R177, R251, R276, R300, R319): nothing in the spec could receive it. Safe: the hardware has no such command either. -/
  | noSuchUnit (kind : String)
deriving DecidableEq, Repr, Inhabited

/-- Why a command has no meaning in the model. -/
inductive Refusal where
  /-- Raised by an arm of exec whose command has no meaning yet. Safe: nothing is claimed of the command. -/
  | notModelled (mnemonic : String)
deriving DecidableEq, Repr, Inhabited

/-! ### Crossing gate (R13-R19) -/

/-- What a gate message carries (Table 1-2). The access context of a DICT_REQUEST goes with it, since R36 gives each context
its own instance of some entries (log entry 61). -/
inductive GatePayload where
  | request (ctx : Nat) (access : GateAccess)
  | response (items : List (Nat × Nat)) (data : List Byte)
  | notice (entry : LogEntry)
  | trigger (target : Nat)
  | power (mask : Nat) (on : Bool)
  | reset (kind cause : Nat)
  | block (offset : Nat) (data : List Byte)
  | keepalive
deriving DecidableEq, Repr, Inhabited

/-- An access to one dictionary entry through BAR0, the mirror or the supervisor's own context: its offset (R10) and size,
the value of a write, and the operation that brought it over the fabric. -/
structure EntryAccess where
  ctx : Nat
  offset : Nat
  size : Nat := 8
  value : Option Nat := none
  frame : Option Frame := none
deriving DecidableEq, Repr, Inhabited

/-- Whom the answer to a gate message concerns (R16). -/
inductive GateOrigin where
  /-- Fumarole itself: a power-domain command or a restart. -/
  | fumarole
  /-- An access that waits for Fumarole's answer. -/
  | access (a : EntryAccess)
  /-- A request of a DTP session. -/
  | dtp (session seq : Nat)
  /-- Persistent values on their way to the store: key, new value and old value. -/
  | values (ctx : Nat) (list : List (Nat × Nat × Nat))
  /-- Persistent content on its way to the store: its key, the start of the segment that the message carries, the content it replaces and the new one. -/
  | content (ctx key start : Nat) (old new : List Byte)
  /-- A segment of PendingImage. -/
  | block (ctx : Nat)
deriving DecidableEq, Repr, Inhabited

/-- A gate message that awaits an answer (R15, R16). -/
structure GateMsg where
  seq : Nat
  payload : GatePayload
  origin : GateOrigin
  sentAt : Nat := 0
  repeats : Nat := 0
deriving DecidableEq, Repr, Inhabited

/-- One end of the crossing gate (R14-R19): `answered` holds the numbered messages that took effect, with the answer to each. -/
structure GateSide where
  nextSeq : Nat := 0
  outstanding : List GateMsg := []
  answered : List (Nat × GatePayload) := []
  lastRx : Nat := 0
  lastTx : Nat := 0
  down : Bool := false
  downSince : Nat := 0
  quietUntil : Nat := 0
  discarded : Nat := 0
deriving DecidableEq, Repr, Inhabited

/-! ### Dictionary contexts, groups and transfers (R36-R55) -/

/-- A segmented transfer (R54, R55): a read's content, or the bytes of a write, by their place in the content:
those that the slots of the window were filled with, and those committed. -/
structure Transfer where
  addr : Nat
  write : Bool
  length : Nat
  content : List Byte := []
  filled : Tab Byte := []
  committed : Tab Byte := []
deriving DecidableEq, Repr, Inhabited

/-- An access context (R36): the instance of 0x1020, 0x1030, 0x1038 and LogReadFrom, its open group and its transfer;
`groupId` numbers the context's groups, the last of which GroupState and its fellows show. -/
structure Context where
  lastStatus : Nat := 0
  lastEntry : Nat := 0
  errorCount : Nat := 0
  groupState : Nat := 0
  groupId : Nat := 0
  groupOwner : Nat := 255
  staged : List (Nat × Nat) := []
  snapshot : Option (Tab Nat) := none
  commitTime : Nat := 0
  applyTime : Nat := 0
  lastAccess : Nat := 0
  target : Nat := 0
  offset : Nat := 0
  length : Nat := 0
  window : Tab Nat := []
  transfer : Option Transfer := none
  logReadFrom : Nat := 0
deriving DecidableEq, Repr, Inhabited

/-- A PENDING transaction group (R40, R42). -/
structure PendingGroup where
  ctx : Nat
  id : Nat
  job : Nat
  staged : List (Nat × Nat)
  deadline : Nat
deriving DecidableEq, Repr, Inhabited

/-- A record of the persistent dictionary store (R33): entry addresses and values, or DOMAIN contents. -/
structure PersistRecord where
  values : List (Nat × Nat)
  contents : List (Nat × List Byte)
  intact : Bool := true
deriving DecidableEq, Repr, Inhabited

/-- A DTP response (Table 2-5): message type, status, per-entry status and value, offset and bytes. -/
structure DtpReply where
  type : Nat
  status : Nat
  items : List (Nat × Nat) := []
  offset : Nat := 0
  data : List Byte := []
deriving DecidableEq, Repr, Inhabited

/-- The header of a DTP datagram but for its reserved Flags, which are zero (Table 2-4). -/
structure DtpHeader where
  version : Nat
  type : Nat
  session : Nat
  seq : Nat
  length : Nat
deriving DecidableEq, Repr, Inhabited

/-- A DTP request that waits for the gate's answer (R53): its number, the response's type and offset, the entries answered so far
(none for one that the gate answers), and the writes that follow. -/
structure DtpWait where
  seq : Nat
  type : Nat
  offset : Nat := 0
  done : List (Option (Nat × Nat)) := []
  todo : List (Nat × Nat) := []
deriving DecidableEq, Repr, Inhabited

/-- An open DTP session (R51-R53); it keeps the port that DtpUdpPort named when it opened. -/
structure Session where
  version : Nat
  port : Nat
  lastSeen : Nat
  highest : Option Nat := none
  kept : List (Nat × DtpReply) := []
  waiting : List DtpWait := []
deriving DecidableEq, Repr, Inhabited

/-! ### Parameter sets (R65) -/

/-- A parameter set as its record declares it (Table 3-3), with the roots derived at load (R95). -/
structure ParamSet where
  setId : Nat
  family : Nat
  encoding : Nat
  logN : Nat
  limbs : Nat
  special : Nat
  dnum : Nat
  glweK : Nat
  decompLogBase : Nat
  decompLevels : Nat
  lweModKind : Nat
  lweN : Nat
  lweModulus : Nat
  plainModulus : Nat
  expansion : Nat
  msgHeadroom : Nat
  encErr : Nat
  rescaleErr : Nat
  lweKsErr : Nat
  modswitchErr : Nat
  packErr : Nat
  bootOut : Nat
  bootOutLevel : Nat
  moduli : List Nat
  levels : List (Nat × Nat)
  roots : List Nat := []
  constants : List Nat := []
deriving DecidableEq, Repr, Inhabited

/-! ### Program images (R239-R245) -/

/-- The schedule certificate, Table 11-3. -/
structure Cert where
  version : Nat
  point : Nat
  streamsMax : Nat
  spanCount : Nat
  ashTraps : Nat
  devices : Nat
  tileMask : Nat
  maxDuration : Nat
  icacheLines : Nat
  geyserRate : Nat
  regionCount : Nat
  barrierMask : Nat
  completionAddr : Nat
  completionInc : Nat
  phaseCount : Nat
  fabric : List Nat
  banks : List Nat
deriving DecidableEq, Repr, Inhabited

/-- A region of the certificate, Table 11-4. -/
structure Region where
  space : Nat
  flags : Nat
  kind : Nat
  lead : Nat
  size : Nat
  base : Nat
deriving DecidableEq, Repr, Inhabited

/-- A guarded span, Table 11-6. -/
structure Span where
  opensAt : Nat
  refresh : List Nat
  guards : List Nat
deriving DecidableEq, Repr, Inhabited

/-- A handle entry of the image, Table 11-2. -/
structure HandleDecl where
  descAddr : Nat
  bodyAddr : Nat
  tag : Nat
  count : Nat
  layout : Nat
  level : Nat
  set : Nat
  flags : Nat
  kind : Nat
deriving DecidableEq, Repr, Inhabited

/-- A long-operation entry, Table 10-1. -/
structure LongOp where
  code : Nat
  limbs : Nat
  comps : Nat
  mode : Nat
  qm : Nat
  mods : Nat
  rgnA : Nat × Nat
  rgnB : Nat × Nat
  rgnC : Nat × Nat
  rgnD : Nat × Nat
  tab : Nat
  hina : Nat
  hinb : Nat
  hout : Nat
  opnd : Nat
  b64 : Nat
  a64 : Nat
deriving DecidableEq, Repr, Inhabited

/-- A layout descriptor, Table 6-1. -/
structure Layout where
  version : Nat
  ew : Nat
  stripe : Nat
  reduce : Nat
  dense : Bool
  windowRel : Bool
  c0 : Nat
  r0 : Nat
  c1 : Nat
  r1 : Nat
  c2 : Nat
  r2 : Nat
  validCols : Nat
  validRows : Nat
  s0c : Int
  s0r : Int
  s1c : Int
  s1r : Int
  s2c : Int
  s2r : Int
  boundLo : Int
  boundBytes : Nat
  reserved : Nat
  fill : Nat
deriving DecidableEq, Repr, Inhabited

/-- A stream entry, Table 8-4. -/
structure StreamEntry where
  version : Nat
  sourceKind : Nat
  destMap : Nat
  flags : Nat
  groupSize : Nat
  kind : Nat
  useLevel : Nat
  reserved : Nat
  rate : Nat
  ringKib : Nat
  mcastGroup : Nat
  destRows : Nat
  destRow : Nat
  galois : Nat
  wireLength : Nat
  source : Nat
  handles : List Nat
deriving DecidableEq, Repr, Inhabited

/-- A program image as admission reads it (Table 11-1). Bundles are 128-bit numbers, one list per rank. -/
structure Image where
  format : Nat
  groupSize : Nat
  length : Nat
  cert : Cert
  regions : List Region
  phases : List (Nat × Nat)
  spans : List Span
  handles : List HandleDecl
  loops : List (Nat × Nat)
  longOps : List LongOp
  layouts : List Layout
  streams : List StreamEntry
  code : List (List Nat)
  codeBase : List Nat
  sets : List Nat
deriving DecidableEq, Repr, Inhabited

/-! ### Jobs (R251-R257) and the ledger (R70-R80) -/

/-- A row of a job's handle table: the ledger's view and the bound descriptor's (R70, R439). -/
structure Handle where
  set : Nat
  family : Nat
  level : Nat
  comps : Nat
  scale : Int
  noise : Nat
  ash : Bool
  layout : Nat
  count : Nat
  tag : Nat
  nttForm : Bool
  crcPresent : Bool
  location : Nat
  bodyLength : Nat
  bodyCrc : Nat
deriving DecidableEq, Repr, Inhabited

/-- A key header, Table 8-1, with the prefix of Table 7-2 where the kind has one. -/
structure KeyHeader where
  magic : Nat
  format : Nat
  kind : Nat
  paramSet : Nat
  flags : Nat
  tag : Nat
  galois : Nat
  levelLo : Nat
  levelHi : Nat
  digits : Nat
  reserved : Nat
  bodyLength : Nat
  seed : Nat
  targetTag : Nat := 0
  targetSet : Nat := 0
  prefixReserved : Nat := 0
deriving DecidableEq, Repr, Inhabited

/-- The states of a job slot inside a device that is READY (Table 11-8). -/
inductive JobState where
  | ready
  | loaded
  | running
  | draining
  | halted
deriving DecidableEq, Repr, Inhabited

/-- Why a job drains (R254, R255). -/
inductive Draining where
  | none
  | commit
  | abort
deriving DecidableEq, Repr, Inhabited

/-- One loop level of a sequencer (R198): first and last bundle of the body, trip count, iteration index. -/
structure LoopFrame where
  first : Nat
  last : Nat
  trip : Nat
  index : Nat
deriving DecidableEq, Repr, Inhabited

/-- What a guarded span saves at its opening barrier (R80). -/
structure SpanSave where
  span : Nat
  handles : List Handle
  sregs : List (Nat × Tab Word)
  loops : List (Nat × List LoopFrame)
  bundles : List (Nat × Nat)
  groupOps : List (Nat × Nat)
  opens : Nat
  guardAsh : Bool
deriving DecidableEq, Repr, Inhabited

/-- An output descriptor on its way (R72): first write issued, or VALID write issued. -/
structure CommitItem where
  handle : Nat
  validWritten : Bool
deriving DecidableEq, Repr, Inhabited

/-- The batch that a job's tiles are finishing (Table 7-5): its place among the group operations, the tiles that have finished it,
and the most cycles and W-slot issues of one of them. -/
structure BatchRun where
  ordinal : Nat
  tiles : Nat := 0
  cycles : Nat := 0
  wides : Nat := 0
deriving DecidableEq, Repr, Inhabited

/-- A job slot. -/
structure Job where
  state : JobState := .ready
  checking : Bool := false
  image : Option Image := none
  imageBase : Nat := 0
  group : List Nat := []
  handles : List Handle := []
  bindNext : Option Nat := none
  startedAt : Nat := 0
  releases : Nat := 0
  phase : Nat := 0
  groupSteps : List (Nat × Nat × Nat) := []
  products : List (Nat × Nat) := []
  openOuts : List (Option Nat) := []
  terms : BoundTerms := default
  opens : Nat := 0
  batch : Option BatchRun := none
  exchanged : List (Nat × Nat × List Row) := []
  span : Option SpanSave := none
  armed : Bool := false
  trapPending : Option Nat := none
  replayed : Bool := false
  trapAt : Nat := 0
  propagated : Bool := false
  drain : Draining := .none
  commits : List CommitItem := []
  committed : List Nat := []
  commitFailed : Nat := 0
  opened : List Nat := []
  keyHeaders : Tab KeyHeader := []
  keysMatched : List Nat := []
  abortCode : Nat := 0
  abortTile : Nat := 255
  abortBundle : Nat := 0
  drainedAt : Nat := 0
  journal : Bool := false
  powerHeld : Option Nat := none
  cleaned : Bool := false
deriving DecidableEq, Repr, Inhabited

/-! ### Tiles (R193-R238, R259-R275) -/

/-- The 2-bit row tag (R226). -/
inductive Tag where
  | empty
  | full
  | poison
deriving DecidableEq, Repr, Inhabited

/-- A modulus register, Table 4-1. -/
structure ModReg where
  valid : Bool := false
  limb : Nat := 0
  setId : Nat := 0
  ninv : Nat := 0
  qval : Nat := 0
  word : Nat := 0
deriving DecidableEq, Repr, Inhabited

/-- A W-slot or MLD result in flight: register, schedule count of issue, ready count, value (R209). -/
structure VResult where
  reg : Nat
  issued : Nat
  ready : Nat
  value : Row
deriving DecidableEq, Repr, Inhabited

/-- An MST in flight (R210). -/
structure Store where
  row : Nat
  issued : Nat
  completes : Nat
  value : Row
  landed : Bool := false
deriving DecidableEq, Repr, Inhabited

/-- An effect of a slot of the presented bundle, applied when the bundle issues (R195, R202, R205, R206, R88):
a register write, a result or a store that enters its pipeline, a tag release, a narrow write,
a corrected word of a row read, an uncorrectable one found after issue (R211), a W slot used beside a batch (R161). -/
inductive Deferred where
  | sreg (r : Nat) (v : Word)
  | qreg (r : Nat) (v : ModReg)
  | vreg (r ready : Nat) (v : Row)
  | store (row completes : Nat) (v : Row)
  | release (row : Nat)
  | narrow (row lane : Nat) (v : Nat)
  | corrected (row word : Nat)
  | uncorrectable (row word slot : Nat)
  | tagCopy
  | wide
deriving DecidableEq, Repr, Inhabited

/-- A failing issue check of the current bundle (Table 9-11): its order, error, slot and target. -/
structure SlotFault where
  check : Nat
  code : Nat
  slot : Nat
  target : Nat
  targetKind : Nat
  ready : Nat
  poison : Nat × Nat := (0, 0)
deriving DecidableEq, Repr, Inhabited

/-- The slip or fault record, Table 19-6. -/
structure FaultRecord where
  ready : Nat := 0
  count : Nat := 0
  bundle : Nat := 0
  code : Nat := 0
  target : Nat := 0
  slot : Nat := 255
  targetKind : Nat := 0
deriving DecidableEq, Repr, Inhabited

/-- TileRun (Table 11-11). -/
inductive TileRun where
  | idle
  | issuing
  | held
  | halted
deriving DecidableEq, Repr, Inhabited

/-- A scoreboard entry's mode (R223). -/
inductive SbMode where
  | read
  | write
  | tagged
deriving DecidableEq, Repr, Inhabited

/-- A scoreboard entry (R223). -/
structure SbEntry where
  first : Nat
  count : Nat
  mode : SbMode
  owner : Nat
deriving DecidableEq, Repr, Inhabited

/-- A long operation issued into a tile's queue, with what it took at issue (R217, R218, R88). -/
structure LopInst where
  id : Nat
  index : Nat
  op : LongOp
  sa : Word
  qm : ModReg := {}
  rgnA : Nat × Nat := (0, 0)
  rgnB : Nat × Nat := (0, 0)
  rgnC : Nat × Nat := (0, 0)
  rgnD : Nat × Nat := (0, 0)
  opnd : Nat := 0
  level : Nat := 0
  comps : Nat := 0
  ordinal : Nat := 0
  bundle : Nat := 0
  count : Nat := 0
  rowsDone : Nat := 0
  keyRows : List Row := []
  keyRows2 : List Row := []
  waitAt : Nat := 0
  missRow : Option Nat := none
  sent : Bool := false
  standby : Bool := false
  share : Nat := 0
  groupsRead : Nat := 0
  waitRow : Option Nat := none
  taken : List Row := []
  fetched : Bool := false
  copy : List Byte := []
  check : Option Nat := none
  keysAt : Option Nat := none
  wides : Nat := 0
deriving DecidableEq, Repr, Inhabited

/-- Where a tile stands at a barrier (R236). -/
inductive BarWait where
  | none
  | issued (barrier : Nat)
  | arrived (barrier : Nat)
deriving DecidableEq, Repr, Inhabited

/-- A tile: sequencer, long-operation machinery and scratchpad. -/
structure Tile where
  run : TileRun := .idle
  sched : Nat := 0
  nextBundle : Nat := 0
  holdCause : Nat := 255
  vregs : Tab Row := []
  ready : Tab Nat := []
  flight : List VResult := []
  sregs : Tab Word := []
  qregs : Tab ModReg := []
  loops : List LoopFrame := []
  stores : List Store := []
  presented : List Nat := []
  holds : List Nat := []
  landNow : Option Nat := none
  deferred : List Deferred := []
  slotFault : Option SlotFault := none
  record : FaultRecord := {}
  icache : Tab (List Nat) := []
  lineWait : List Nat := []
  lineFetches : Nat := 0
  lastLine : Option Nat := none
  freeze : Nat := 0
  queue : List LopInst := []
  running : List LopInst := []
  scoreboard : List SbEntry := []
  nextOp : Nat := 0
  groupOps : Nat := 0
  signalsOut : List Nat := []
  barWait : BarWait := .none
  waitCause : Nat := 255
  waitAt : Nat := 0
  frozen : Nat := 0
  lastIssue : Nat := 0
  missRows : List Nat := []
  missAt : List Nat := []
  heldRows : Tab Nat := []
  missEventAt : Option Nat := none
  stopped : Bool := false
  rows : Tab Row := []
  tags : Tab Tag := []
  coverage : Tab (List Nat) := []
  banks : Nat := 0
  bankEpochs : Tab Nat := []
  windowPuts : List Frame := []
  windowLanded : List Frame := []
  windowGets : List Frame := []
  verifyDue : List Nat := []
  writeBacks : List (Nat × Nat) := []
  scrubRow : Nat := 0
  scrubbed : Tab Nat := []
  scrubStart : Nat := 0
  scrubPeriods : Nat × Nat := (64, 32)
  keyOuts : List (Nat × Nat × Nat) := []
  twiddles : List (Nat × Nat) := []
  constLines : List Nat := []
  quenched : Bool := false
  leaseEpoch : Nat := 0
  leaseAt : Nat := 0
  recoverBy : Option Nat := none
  sleepAt : Nat := 0
  wakeAt : Option Nat := none
deriving DecidableEq, Repr, Inhabited

/-! ### Direct conversion (R120) -/

/-- How far a direct conversion has come: its source is read; its result is written to another node; a zero-length read of the host
shows its body durable (Table 1-5); its header is written. -/
inductive ConvStage where
  | reading
  | writing
  | proving
  | heading
deriving DecidableEq, Repr, Inhabited

/-- The direct conversion running: its tile, the copied entries, its stage and the header that it still has to write. -/
structure Conversion where
  tile : Nat
  source : Nat
  destination : Nat
  count : Nat
  word : Nat
  stage : ConvStage := .reading
  header : List Byte := []
deriving DecidableEq, Repr, Inhabited

/-! ### Geyser (R171-R192) -/

/-- A stream slot (R177-R186). -/
structure Stream where
  state : Nat := 0
  bound : Bool := false
  job : Nat := 255
  entry : Nat := 65535
  header : Option KeyHeader := none
  bytesRead : Nat := 0
  crc : Nat := 2 ^ 64 - 1
  windowBytes : Nat := 0
  deferredWindow : Bool := false
  storedRow : Nat := 0
  uniform : Tab Nat := []
  creditTimeout : Nat := 0
  waitSince : Nat := 0
  windowsSent : Nat := 0
  signals : Nat := 0
  error : Nat := 0
  out : Option Nat := none
  asked : Bool := false
  slotHeader : List Byte := []
deriving DecidableEq, Repr, Inhabited

/-- A KEYSTREAM_OPEN that waits for a slot (R177). -/
structure OpenWait where
  job : Nat
  tile : Nat
  opId : Nat
  entry : Nat
  out : Option Nat
deriving DecidableEq, Repr, Inhabited

/-! ### Memory stacks (R276-R299) -/

/-- An entry of the poison table (R294): first granule, granule count, epoch. -/
structure PoisonEntry where
  first : Nat
  count : Nat
  epoch : Nat
deriving DecidableEq, Repr, Inhabited

/-- A sorter entry (R285): one granule access of a request, its arrival order and the younger entries that passed it.
A read holds what its words held when it arrived, which is what it returns (R288);
a write holds the addresses of the bytes it names, which merging extends. -/
structure SorterEntry where
  order : Nat
  request : Nat
  source : Nat
  channel : Nat
  bank : Nat
  page : Nat
  address : Nat
  length : Nat
  write : Option (List Nat)
  passed : Nat := 0
  data : List Byte := []
  poisoned : Bool := false
deriving DecidableEq, Repr, Inhabited

/-- A memory controller's sorter (R285-R288), keyed banks as 32 x channel + bank. -/
structure Sorter where
  entries : List SorterEntry := []
  inputQueue : List MemReq := []
  capped : List MemReq := []
  nextOrder : Nat := 0
  openPage : Tab Nat := []
  refreshed : Tab Nat := []
  lastRequest : Nat := 0
  patrol : Tab Nat := []
  patrolAt : Nat := 0
  patrolHours : Nat := 24
  passUntil : Nat := 0
deriving DecidableEq, Repr, Inhabited

/-- A PoisonClear walk (R296). -/
structure ClearWalk where
  base : Nat
  length : Nat
deriving DecidableEq, Repr, Inhabited

/-! ### Fabric (R300-R324) -/

/-- A frame sent on a lane and not acknowledged: its link sequence number, when it was last sent and how often it was resent (R301). -/
structure SentFrame where
  seq : Nat
  frame : Frame
  sentAt : Nat := 0
  fails : Nat := 0
deriving DecidableEq, Repr, Inhabited

/-- One virtual lane of a port, both directions (R301). -/
structure LinkLane where
  unacked : List SentFrame := []
  nextTx : Nat := 0
  nextRx : Nat := 0
deriving DecidableEq, Repr, Inhabited

/-- A fabric port. Its state, version and counters are dictionary entries. -/
structure Port where
  lanes : Tab LinkLane := []
  peerTimeParent : Bool := false
  lastTrain : Nat := 0
deriving DecidableEq, Repr, Inhabited

/-- An operation issued and not completed (R311, R316): its issuer is a tile's fetch engine 0 to 63, 64 Geyser, 65 the supervisor.
One that `waits` has not left yet: its triple has 4,096 unfinished operations. -/
structure RemoteOp where
  tag : Nat
  target : Nat
  vl : Nat
  opcode : Nat
  address : Nat
  length : Nat
  operand : Nat
  issuer : Nat
  job : Nat
  opId : Nat
  issuedAt : Nat
  timeout : Nat
  host : Bool
  stale : Bool := false
  waits : Bool := false
  data : List Byte := []
  pieces : List (Nat × Nat) := []
  arrived : Tab (List Byte) := []
deriving DecidableEq, Repr, Inhabited

/-- The barrier unit's slot of one ID (R319-R321). -/
structure Barrier where
  arrived : List Nat := []
  children : List Nat := []
  sent : Bool := false
  lastArrival : Nat := 0
  limit : Nat := 0
deriving DecidableEq, Repr, Inhabited

/-- An MCAST-PUT whose downstream completions are being combined (R318). -/
structure McastWait where
  source : Nat
  tag : Nat
  fromPort : Nat
  waiting : List Nat
  status : Nat
deriving DecidableEq, Repr, Inhabited

/-! ### Host link (R325-R341) -/

/-- An error that advanced error reporting has logged (Table 15-7). -/
inductive AerError where
  | completionTimeout
  | unexpectedCompletion
  | poisonedTlp
  | unsupportedRequest
  | advisoryNonFatal
  | ideCheckFailed
deriving DecidableEq, Repr, Inhabited

/-- An IDE stream (R338). -/
inductive IdeStream where
  | unkeyed
  | secure
  | insecure
deriving DecidableEq, Repr, Inhabited

/-- An SPDM session: opened by KEY_EXCHANGE, secured by FINISH (R339). -/
structure SpdmSession where
  id : Nat
  secured : Bool
  keyGeneration : Nat
deriving DecidableEq, Repr, Inhabited

/-- The host link's function state. Link state and counters are dictionary entries. A request is an operation's tag and its number among
the operation's requests (Table 15-5). -/
structure HostLink where
  busMaster : Bool := false
  atomicRequester : Bool := false
  rrsVisible : Bool := false
  perst : Bool := false
  readyReported : Bool := true
  maxPayload : Nat := 128
  maxRead : Nat := 512
  tags : List (Nat × Nat) := []
  lateTags : List (Nat × Nat) := []
  tagWaiters : List (Nat × Nat) := []
  txQueue : List (Nat × Nat) := []
  vectorPending : List Nat := []
  vectorMasked : List Nat := List.range 64
  msixTable : Tab Nat := []
  functionMasked : Bool := true
  holdoffEnd : Tab Nat := []
  aer : List AerError := []
  linkIde : IdeStream := .unkeyed
  selectiveIde : IdeStream := .unkeyed
  spdmVersion : Bool := false
  spdmCapabilities : Bool := false
  spdmAlgorithms : Bool := false
  transcript : List Byte := []
  sessions : List SpdmSession := []
deriving DecidableEq, Repr, Inhabited

/-! ### Power (R342-R360) -/

/-- A phase request to the heat ledger (R354). -/
structure PhaseReq where
  job : Nat
  phase : Nat
  point : Nat
  since : Nat
deriving DecidableEq, Repr, Inhabited

/-- A voltage ramp of a group toward a faster point (R345). -/
structure Ramp where
  job : Nat
  target : Nat
  startedAt : Nat
deriving DecidableEq, Repr, Inhabited

/-- The heat ledger. -/
structure Heat where
  samples : List Nat := []
  grants : List (Nat × Nat) := []
  held : List PhaseReq := []
  ramps : List Ramp := []
  lastOver : Option Nat := none
  overNoted : Bool := false
  lastRaise : Nat := 0
  thermalAt : Tab Nat := []
  idleSince : Nat := 0
  outSamples : Nat := 0
deriving DecidableEq, Repr, Inhabited

/-- The state of a power domain (R342). -/
inductive Domain where
  | off
  | retention
  | gated
  | on
deriving DecidableEq, Repr, Inhabited

/-! ### Security and firmware (R361-R385) -/

/-- The HSS state of the key store (R363-R365). -/
structure Hss where
  bottomNext : Nat := 0
  topNext : Nat := 1
  prepared : Bool := false
  recent : List Nat := []
deriving DecidableEq, Repr, Inhabited

/-- A command that runs on the public-key engine (R383): its end, its outcome, and what it will write. -/
structure PkeRun where
  endsAt : Nat
  status : Nat
  slots : List Nat
  dest : Option (Nat × Nat × Bool) := none
  key : Option (Nat × Option (Nat × Bool)) := none
deriving DecidableEq, Repr, Inhabited

/-- A user key: scalar and whether it persists (R383). -/
structure UserKey where
  scalar : Nat
  persistent : Bool
deriving DecidableEq, Repr, Inhabited

/-- The public-key engine and the key store. -/
structure Pke where
  slots : Tab Nat := []
  secret : List Nat := []
  claimContext : Option Nat := none
  running : Option PkeRun := none
  keys : Tab UserKey := []
deriving DecidableEq, Repr, Inhabited

/-! ### Integrity and snapshots -/

/-- A check run in progress (R390). -/
structure CheckRun where
  source : Nat
  length : Nat
  context : Nat
deriving DecidableEq, Repr, Inhabited

/-- A pending latch tick (R403). -/
structure LatchTick where
  time : Nat
  source : Nat
  timed : Bool
  job : Nat := 255
  ident : Nat := 0
  origin : Nat := 0
  accepted : Nat := 0
  late : Bool := false
  wasDeferred : Bool := false
deriving DecidableEq, Repr, Inhabited

/-- One tile's section of a capture (Table 19-4), as the fields it copies. -/
structure TileCapture where
  tile : Nat
  sched : Nat
  nextBundle : Nat
  run : TileRun
  power : Nat
  point : Nat
  holdCause : Nat
  loops : List LoopFrame
  sregs : Tab Word
  qregs : Tab ModReg
  ready : Tab Nat
  stores : List Store
  record : FaultRecord
  scoreboard : List SbEntry
  queue : List LopInst
  tags : Tab Tag
  stalls : List Nat
  vregs : Tab Row
  retained : Bool
deriving DecidableEq, Repr, Inhabited

/-- A capture (R402-R409): the header and what each block's section copies.
The entries of the other blocks are copied as the dictionary they are read through. -/
structure Capture where
  sources : List Nat
  seq : Nat
  target : Nat
  accepted : Nat
  origin : Nat
  ident : Nat
  job : Nat
  late : Bool
  wasDeferred : Bool
  unlocked : Bool
  logNewest : Nat
  tiles : List TileCapture
  entries : Tab Nat
  latched : Nat
  free : Nat
  sorters : Tab Sorter
  meanPower : Nat
  committed : Nat
  jobStates : List JobState
  openGroups : Tab Context
  contexts : List Nat
  streams : Tab Stream
  handleTables : List (Nat × List Handle)
  groups : List PendingGroup
  barriers : Tab Barrier
  ports : Tab Port
  seqNext : Tab Nat
  seqExpected : Tab Nat
  heldFrames : List Frame
  hostTags : List (Nat × Nat)
  hostQueue : List (Nat × Nat)
  heldRequests : List PhaseReq
  domains : Tab Domain
  pkeRunning : Option PkeRun
deriving DecidableEq, Repr, Inhabited

/-! ### Restarts (R415-R425) -/

/-- A journal record (R398): the job's output and in-place regions, and its descriptors' bytes 0 to 7 with POISON set. -/
structure JournalRecord where
  regions : List (Nat × Nat)
  descriptors : List (Nat × List Byte)
deriving DecidableEq, Repr, Inhabited

/-- A host-side restart in progress (R415): kind of Table 20-1, cause, the moment it began, the moment of READY,
whether it starts the pending package, the journal it replays, the duration that event 0xB041 reports,
and the domain masks that Fumarole has yet to see powered (phase 3 of Table 20-2). -/
structure Restart where
  kind : Nat
  cause : Nat
  began : Nat
  due : Nat
  pending : Bool := false
  replay : List JournalRecord := []
  downMs : Nat := 0
  powerLeft : List Nat := []
deriving DecidableEq, Repr, Inhabited

/-- An output of the module on one of its wires. -/
inductive Output where
  | gate (toField : Bool) (seq : Nat) (payload : GatePayload)
  | management (code detail : Nat)
  | dictRead (ctx : Nat) (value : Nat)
  | dtp (port : Nat) (header : DtpHeader) (reply : DtpReply)
  | dtpHelloAck (port version session status : Nat) (certificate data : List Byte)
  | fabric (port : Nat) (frame : Frame)
  | linkAck (port lane linkSeq : Nat)
  | train (port node versions : Nat) (timeParent : Bool)
  | hostRequest (tag part opcode address length operand : Nat) (data : List Byte)
  | bar2 (data : List Byte) (poisoned unsupported : Bool)
  | config (retry : Bool) (value : Nat)
  | msix (vector : Nat)
  | doe (response : String) (data : List Byte)
  | memory (source address : Nat) (status : Nat) (data : List Byte)
  | completionUr
  | hostReady (ready : Bool)
deriving DecidableEq, Repr, Inhabited

/-- The state of the module. -/
structure State where
  /-- The commands that wait, first in first out: the block form's queue. -/
  pending : List Instr := []
  /-- The model's own counter for the free values of Config. -/
  freeCount : Nat := 0
  /-- What the module has emitted, oldest first: the model's own field. -/
  out : List Output := []
  grade : Nat := 6400
  enabled : Nat := 2 ^ 64 - 1
  now : Nat := 0
  dict : Tab Nat := []
  blobs : Tab (List Byte) := []
  contexts : Tab Context := []
  pendingGroups : List PendingGroup := []
  sessions : Tab Session := []
  dtpDropped : Nat := 0
  restoreDefaults : Bool := false
  unstored : List PersistRecord := []
  journal : List PersistRecord := []
  hostGate : GateSide := {}
  fieldGate : GateSide := {}
  heldAccesses : List EntryAccess := []
  arriving : Tab (List Byte) := []
  notices : List LogEntry := []
  fieldLog : List LogEntry := []
  flash : Tab (Tab Byte) := []
  flashLength : Tab Nat := []
  sets : Tab ParamSet := []
  jobs : Tab Job := []
  admitQueue : List Nat := []
  tiles : Tab Tile := []
  conversion : Option Conversion := none
  streams : Tab Stream := []
  openWaits : List OpenWait := []
  lateStreams : List (Nat × Stream) := []
  mcastCredits : Tab (Tab Nat) := []
  mcastUsed : Tab Nat := []
  rateWindowAt : Nat := 0
  mem : List Host.Cell := []
  memUndefined : Tab Nat := []
  wordPoison : List Nat := []
  wordEpoch : Tab Nat := []
  poisonTable : List PoisonEntry := []
  poisonEpoch : Nat := 0
  poisonWaits : List (Nat × Nat) := []
  sorters : Tab Sorter := []
  stackWriteBacks : List Nat := []
  clearWalk : Option ClearWalk := none
  ports : Tab Port := []
  seqNext : Tab Nat := []
  seqExpected : Tab Nat := []
  failedTriples : List Nat := []
  heldFrames : List Frame := []
  behind : List (Frame × Ecc) := []
  remoteOps : List RemoteOp := []
  nextTag : Nat := 0
  mcastWaits : List McastWait := []
  barriers : Tab Barrier := []
  snapsSeen : List (Nat × Nat) := []
  lastTimeIdle : Nat := 0
  timeOffset : Int := 0
  everLocked : Bool := false
  slewLeft : Int := 0
  slewAt : Nat := 0
  hostLink : HostLink := {}
  heat : Heat := {}
  domains : Tab Domain := []
  hss : Hss := {}
  pke : Pke := {}
  recovery : Bool := false
  nonceFresh : Bool := false
  log : List LogEntry := []
  logNext : Nat := 0
  checkRun : Option CheckRun := none
  watchdogAt : Nat := 0
  watchdogLimit : Nat := 100000000
  ticks : List LatchTick := []
  copying : Option (Nat × Nat) := none
  captures : Tab Capture := []
  captureSeq : Nat := 0
  captureOrder : List Nat := []
  hostPowered : Bool := true
  fieldPowered : Bool := true
  thermalTripped : Bool := false
  starts : Nat := 1
  restart : Option Restart := none
  deferredRestart : Option (Nat × Nat) := none
  inputBackSince : Option Nat := none
  replayWrites : List (Nat × List Byte) := []
deriving DecidableEq, Repr, Inhabited

/-- The machine right after reset: a new module whose first COLD start has just reached READY (R416, R417, Table 20-2; log entry 1).
Dictionary entries not listed hold their table defaults (R32); the fabric ports train (phase 8 of Table 20-2),
Geyser and the public-key engine are GATED (R343), and the other switched domains are ON. -/
def State.reset : State where
  dict := (0x110001, 2) :: (List.range 16).map fun p => ((0x4040 + p) * 256 + 1, 1)
  domains := (List.range 32).map fun d => (64 + d, if d = 24 || d = 27 then Domain.gated else Domain.on)

end Sys2Proof.Machine
end

