-- ==== Sys2Proof/Machine/Encoding.lean ====
section
/-! DEFINITION. The encoding of bundles: slots, fields and opcodes, the command that each slot spells, and what the image alone fixes of a
sequencer register (Tables 9-2 to 9-9, R194-R205). -/

namespace Sys2Proof.Machine

/-! ### Fields (Tables 9-2 to 9-9) -/

/-- Bits of the C, W, M and X slots of a bundle. -/
def cField (w lo n : Nat) : Nat := bits w (96 + lo) n
def wField (w lo n : Nat) : Nat := bits w (64 + lo) n
def mField (w lo n : Nat) : Nat := bits w (32 + lo) n
def xField (w lo n : Nat) : Nat := bits w lo n

/-- The opcodes of the slots. -/
def cOp (w : Nat) : Nat := cField w 26 6
def wOp (w : Nat) : Nat := wField w 28 4
def mOp (w : Nat) : Nat := mField w 28 4
def xOp (w : Nat) : Nat := xField w 26 6

/-- The C-slot opcodes of Table 9-3. -/
abbrev copLoop : Nat := 0x01
abbrev copLop : Nat := 0x02
abbrev copWaitr : Nat := 0x03
abbrev copBar : Nat := 0x05
abbrev copHalt : Nat := 0x3F

/-- The long-operation index of a LOP bundle. -/
def lopIndexOf (w : Nat) : Option Nat := if cOp w = copLop then some (cField w 14 12) else none

/-- A QLOAD's register, set and limb (Table 9-8). -/
def qloadOf (w : Nat) : Option (Nat × Nat × Nat) := if xOp w = 0x20 then some (xField w 22 4, xField w 14 8, xField w 7 7) else none

/-! ### Commands -/

/-- The command of a LOP by the LOPCODE of its entry (Table 10-2). -/
def lopCommand (code t index sa : Nat) : Option Instr :=
  match code with
  | 0x01 => some (.ntt t index sa)
  | 0x02 => some (.automorph t index sa)
  | 0x03 => some (.transpose t index sa)
  | 0x04 => some (.bconv t index sa)
  | 0x05 => some (.rescale t index sa)
  | 0x06 => some (.ksip t index sa)
  | 0x07 => some (.moddown t index sa)
  | 0x08 => some (.ledger t index sa)
  | 0x09 => some (.xferIn t index sa)
  | 0x0A => some (.xferOut t index sa)
  | 0x0B => some (.keystreamOpen t index sa)
  | 0x0C => some (.batchBootstrap t index sa)
  | 0x0D => some (.extract t index sa)
  | 0x0E => some (.pack t index sa)
  | 0x0F => some (.modraise t index sa)
  | 0x10 => some (.lopSignal t index sa)
  | 0x11 => some (.lopFence t index sa)
  | _ => none

/-- The command of the C slot (Table 9-3); `code` gives the LOPCODE of a long-operation entry. -/
def decodeC (code : Nat → Nat) (t w : Nat) : Option Instr :=
  match cOp w with
  | 0x00 => some (.cnop t)
  | 0x01 => some (.loop t (cField w 16 10))
  | 0x02 => lopCommand (code (cField w 14 12)) t (cField w 14 12) (cField w 9 5)
  | 0x03 => some (.waitr t (cField w 14 12) (cField w 2 12) (cField w 1 1 = 1))
  | 0x04 => some (.waitall t)
  | 0x05 => some (.bar t (cField w 20 6))
  | 0x3F => some (.halt t)
  | _ => none

/-- The command of the W slot (Tables 9-5 and 9-6). -/
def decodeW (t w : Nat) : Option Instr :=
  let qm := wField w 24 4
  let vd := wField w 19 5
  let va := wField w 14 5
  let vb := wField w 9 5
  let vc := wField w 4 5
  match wOp w with
  | 0x0 => some (.wnop t)
  | 0x1 => some (.vadd t vd va vb qm)
  | 0x2 => some (.vsub t vd va vb qm)
  | 0x3 => some (.vneg t vd va qm)
  | 0x4 => some (.vred t vd va qm)
  | 0x5 => some (.vaddk t vd va vb qm)
  | 0x6 => some (.vmul t vd va vb qm)
  | 0x7 => some (.vmulk t vd va vb qm)
  | 0x8 => some (.vmad t vd va vb vc qm)
  | 0x9 => some (.vmsb t vd va vb vc qm)
  | _ => none

/-- The command of the M slot (Table 9-7), where the row read has no error. -/
def decodeM (t w : Nat) : Option Instr :=
  let v := mField w 23 5
  let sb := mField w 18 5
  let row := mField w 6 12
  let tagOp : Bool := mField w 5 1 = 1
  match mOp w with
  | 0x0 => some (.mnop t)
  | 0x1 => some (.mld t v sb row tagOp .clean)
  | 0x2 => some (.mst t v sb row tagOp)
  | 0x3 => some (.mrel t sb row)
  | _ => none

/-- The command of the X slot (Tables 9-8 and 9-9), where the row read has no error. -/
def decodeX (t w : Nat) : Option Instr :=
  let sd := xField w 21 5
  let sa := xField w 16 5
  let sb := xField w 11 5
  let imm := BitVec.ofNat 16 (xField w 0 16)
  match xOp w with
  | 0x00 => some (.xnop t)
  | 0x01 => some (.xli t sd imm)
  | 0x02 => some (.xlui t sd imm)
  | 0x03 => some (.xaddi t sd sa imm)
  | 0x04 => some (.xadd t sd sa sb)
  | 0x05 => some (.xsub t sd sa sb)
  | 0x06 => some (.xmul t sd sa sb)
  | 0x07 => some (.xand t sd sa sb)
  | 0x08 => some (.xor t sd sa sb)
  | 0x09 => some (.xxor t sd sa sb)
  | 0x0A => some (.xshl t sd sa (BitVec.ofNat 6 (xField w 0 6)))
  | 0x0B => some (.xshr t sd sa (BitVec.ofNat 6 (xField w 0 6)))
  | 0x0C => some (.xidx t sd (BitVec.ofNat 3 (xField w 0 3)))
  | 0x10 => some (.xldn t sd sa imm .clean)
  | 0x11 => some (.xstn t sd sa imm .clean)
  | 0x20 => some (.qload t (xField w 22 4) (xField w 14 8) (xField w 7 7))
  | _ => none

/-- The commands that present a bundle of tile `t`: its W, M and X slots, then the C slot that closes it (R195). -/
def decodeBundle (code : Nat → Nat) (t w : Nat) : Option (List Instr) :=
  match decodeW t w, decodeM t w, decodeX t w, decodeC code t w with
  | some a, some b, some c, some d => some [a, b, c, d]
  | _, _, _, _ => none

/-! ### Registers that the image fixes (R194, R198, R205) -/

/-- The sequencer registers as far as the image alone fixes them: an unlisted one is zero, one that an XLDN wrote is not known. -/
abbrev KnownRegs : Type := Tab (Option Word)

/-- A register; S0 reads zero (R193). -/
def KnownRegs.read (x : KnownRegs) (r : Nat) : Option Word := if r = 0 then some 0 else Tab.get x (some 0) r

/-- Both of two known values. -/
def both (f : Word → Word → Word) (a b : Option Word) : Option Word := a.bind fun a => b.map fun b => f a b

/-- The register that an X-slot command writes, and its value where it is known (Table 9-9); `loops` are the active loops, innermost first. -/
def KnownRegs.result (x : KnownRegs) (loops : List LoopFrame) : Instr → Option (Nat × Option Word)
  | .xli _ sd imm => some (sd, some (imm.signExtend 64))
  | .xlui _ sd imm => some (sd, (x.read sd).map fun (v : Word) => v <<< 16 ||| imm.zeroExtend 64)
  | .xaddi _ sd sa imm => some (sd, (x.read sa).map fun v => v + imm.signExtend 64)
  | .xadd _ sd sa sb => some (sd, both (fun a b => a + b) (x.read sa) (x.read sb))
  | .xsub _ sd sa sb => some (sd, both (fun a b => a - b) (x.read sa) (x.read sb))
  | .xmul _ sd sa sb => some (sd, both (fun a b => a * b) (x.read sa) (x.read sb))
  | .xand _ sd sa sb => some (sd, both (fun a b => a &&& b) (x.read sa) (x.read sb))
  | .xor _ sd sa sb => some (sd, both (fun a b => a ||| b) (x.read sa) (x.read sb))
  | .xxor _ sd sa sb => some (sd, both (fun a b => a ^^^ b) (x.read sa) (x.read sb))
  | .xshl _ sd sa n => some (sd, (x.read sa).map fun (v : Word) => v <<< n.toNat)
  | .xshr _ sd sa n => some (sd, (x.read sa).map fun (v : Word) => v >>> n.toNat)
  | .xidx _ sd level => some (sd, (loops.reverse[level.toNat]?).map fun f => BitVec.ofNat 64 f.index)
  | .xldn _ sd _ _ _ => some (sd, none)
  | _ => none

/-- The registers after an X-slot command; a write to S0 is discarded (R193). -/
def KnownRegs.step (x : KnownRegs) (loops : List LoopFrame) (i : Instr) : KnownRegs :=
  match x.result loops i with
  | some (sd, v) => if sd = 0 then x else Tab.put x sd v
  | none => x

/-- The registers of a rank at START: its rank, the group size and the job slot (R194). -/
def KnownRegs.start (rank size j : Nat) : KnownRegs :=
  [(1, BitVec.ofNat 64 rank), (2, BitVec.ofNat 64 size), (3, BitVec.ofNat 64 j)].foldl (fun (r : KnownRegs) p => Tab.put r p.1 (some p.2)) []

end Sys2Proof.Machine
end

