-- ==== Sys2Proof/Machine/Dict.lean ====
section
/-! DEFINITION. The parameter dictionary's entries: Tables 2-6, 3-8, 5-9, 7-5, 8-10, 11-11, 12-5, 13-5, 14-6, 15-10, 16-5, 17-10, 18-8, 19-8, 20-6 and 21-8. -/

namespace Sys2Proof.Machine

/-- The entry types of Table 2-1 that the dictionary uses. -/
inductive EntryType where
  | bool
  | u8
  | u16
  | u32
  | u64
  | i16
  | i32
  | string
  | domain
deriving DecidableEq, Repr

/-- The access rights (R31). -/
inductive Access where
  | ro
  | rw
  | wo
  | rws
deriving DecidableEq, Repr

/-- The apply classes (R35). -/
inductive ApplyClass where
  | immediate
  | epoch
  | stopped
deriving DecidableEq, Repr

/-- A row of an entry table: base index, number of instances, subindices, type, access right, default, persistence, apply class,
range of the value that a write may hold, and the LIVE flag. -/
structure EntryRow where
  index : Nat
  count : Nat
  lo : Nat
  hi : Nat
  ty : EntryType
  acc : Access
  dflt : Int
  persist : Bool
  cls : ApplyClass
  min : Nat
  max : Nat
  live : Bool
deriving DecidableEq, Repr

/-- A read-only row. -/
def ro (index count lo hi : Nat) (ty : EntryType) (dflt : Int) (live : Bool) : EntryRow :=
  ⟨index, count, lo, hi, ty, .ro, dflt, false, .immediate, 0, 0, live⟩

/-- A writable row. -/
def wr (index count lo hi : Nat) (ty : EntryType) (acc : Access) (dflt : Int) (persist : Bool) (cls : ApplyClass)
    (min max : Nat) (live : Bool) : EntryRow :=
  ⟨index, count, lo, hi, ty, acc, dflt, persist, cls, min, max, live⟩

/-- The entries of the indices 1xxx, in table order. -/
def entriesOf1 : List EntryRow := [
  ro 0x1000 1 1 1 .u32 0x20000 false, -- DictionaryVersion
  ro 0x1000 1 2 2 .u16 0 false, -- Grade
  ro 0x1000 1 3 3 .u64 0 false, -- EnabledTiles
  ro 0x1000 1 4 4 .u8 0 false, -- EnabledTileCount
  ro 0x1000 1 5 5 .u16 0 false, -- SteppingId
  ro 0x1000 1 6 6 .u8 2 false, -- ProgramFormatMax
  ro 0x1000 1 7 7 .u8 3 false, -- FabricProtocolMax
  ro 0x1000 1 8 8 .u8 2 false, -- DtpVersionMax
  ro 0x1000 1 9 9 .u8 2 false, -- KeyHeaderFormatMax
  ro 0x1000 1 10 10 .u16 512 false, -- BootstrapBatchLimit
  ro 0x1000 1 11 11 .string 0 false, -- SerialNumber
  ro 0x1000 1 12 12 .u64 0 false, -- SchemaDigest
  ro 0x1000 1 13 13 .domain 0 false, -- Catalogue
  wr 0x1010 1 1 1 .u8 .rw 2 true .immediate 1 2 false, -- BehaviourGeneration
  ro 0x1010 1 2 2 .u8 2 false, -- BehaviourGenerationActive
  wr 0x1020 1 1 1 .u8 .wo 0 false .immediate 1 3 false, -- GroupControl
  ro 0x1020 1 2 2 .u8 0 false, -- GroupState
  ro 0x1020 1 3 3 .u8 255 false, -- GroupOwner
  ro 0x1020 1 4 4 .u16 0 false, -- StagedCount
  ro 0x1020 1 5 5 .u64 0 true, -- CommitTime
  ro 0x1020 1 6 6 .u64 0 true, -- ApplyTime
  ro 0x1030 1 1 1 .u16 0 false, -- LastStatus
  ro 0x1030 1 2 2 .u32 0 false, -- LastEntry
  ro 0x1030 1 3 3 .u32 0 true, -- ErrorCount
  wr 0x1038 1 1 1 .u32 .rw 0 false .immediate 0 0xffffffff false, -- Target
  wr 0x1038 1 2 2 .u64 .rw 0 false .immediate 0 0xffffffffffffffff false, -- Offset
  wr 0x1038 1 3 3 .u32 .rw 0 false .immediate 0 0xffffffff false, -- Length
  wr 0x1038 1 4 4 .u8 .wo 0 false .immediate 1 5 false, -- Control
  wr 0x1038 1 16 47 .u64 .rw 0 false .immediate 0 0xffffffffffffffff false, -- Data
  wr 0x1040 1 1 1 .u32 .rw 50 true .immediate 1 0x2710 false, -- EpochTimeout
  wr 0x1040 1 2 2 .u32 .rw 1000 true .immediate 100 0xea60 false, -- GroupIdleTimeout
  wr 0x1050 1 1 1 .u16 .rw 0xc040 true .immediate 1024 0xffff false, -- DtpUdpPort
  wr 0x1050 1 2 2 .u8 .rw 2 true .immediate 1 2 false, -- DtpVersionLimit
  wr 0x1050 1 3 3 .u8 .rw 4 true .immediate 1 8 false, -- SessionLimit
  wr 0x1050 1 4 4 .u32 .rw 60 true .immediate 5 3600 false, -- SessionIdleTimeout
  wr 0x1060 1 1 1 .u8 .rw 1 true .immediate 0 2 false, -- MirrorAccess
  wr 0x1070 1 1 1 .u32 .wo 0 false .stopped 0x44454641 0x44454641 false, -- RestoreDefaults
  ro 0x1100 1 1 1 .u8 0 true, -- DeviceState
  ro 0x1100 1 2 2 .u8 0 true, -- BootPhase
  ro 0x1100 1 3 3 .u8 1 false, -- LastResetKind
  ro 0x1100 1 4 4 .u16 0 false, -- LastResetCause
  ro 0x1100 1 5 5 .u64 0 false, -- LastReadyTime
  ro 0x1100 1 6 6 .u32 0 false, -- LastStartDuration
  ro 0x1100 1 7 7 .u32 0 false, -- ColdStarts
  ro 0x1100 1 8 8 .u32 0 false, -- WarmRestarts
  ro 0x1100 1 9 9 .u32 0 true, -- RestartsAbsorbed
  wr 0x1110 1 1 1 .u32 .wo 0 false .immediate 0 0xffffffff false, -- ResetRequest
  wr 0x1120 1 1 1 .u8 .rw 0 true .immediate 0 1 false, -- PowerOnPolicy
  wr 0x1120 1 2 2 .bool .rw 1 true .immediate 0 1 false  -- InputAutoRecover
  ]

/-- The entries of the indices 2xxx, in table order. -/
def entriesOf2 : List EntryRow := [
  ro 0x2000 1 1 1 .u8 32 false, -- SetSlots
  ro 0x2000 1 2 2 .u8 0 false, -- SetsLoaded
  ro 0x2000 1 3 3 .u8 2 false, -- DescriptorFormatOut
  ro 0x2001 1 1 4 .u64 0 false, -- LoadedIdMap
  wr 0x2010 1 1 1 .domain .rw 0 false .immediate 0 0 false, -- SetLoad
  wr 0x2010 1 2 2 .u8 .wo 0 false .immediate 0 255 false, -- SetUnload
  ro 0x2010 1 3 3 .u16 0 false, -- LoadStatus
  ro 0x2010 1 4 4 .u32 0 false, -- LoadFailOffset
  ro 0x2100 32 1 1 .u8 255 false, -- SlotSetId
  ro 0x2100 32 2 2 .domain 0 false, -- SlotRecord
  ro 0x2100 32 3 3 .u8 0 false, -- SlotRefCount
  ro 0x2100 32 4 4 .u64 0 false, -- SlotDigest
  wr 0x2200 16 1 1 .u8 .rw 0 false .epoch 0 2 false, -- LedgerPolicy
  ro 0x2200 16 2 2 .u16 0 false, -- AshTrapsAllowed
  ro 0x2200 16 3 3 .u16 0 true, -- AshTrapsTaken
  ro 0x2200 16 4 4 .u32 0 true, -- AshMarked
  ro 0x2200 16 5 5 .u32 0 true, -- AshPropagated
  ro 0x2200 16 6 6 .u16 0 false, -- LastLedgerError
  ro 0x2200 16 7 7 .u16 0xffff false, -- LastLedgerHandle
  ro 0x2200 16 8 8 .u16 0 false, -- HandleCount
  ro 0x2200 16 9 9 .i16 0x7fff true, -- NoiseMarginMin
  ro 0x2200 16 10 10 .domain 0 false, -- LedgerTable
  ro 0x2300 1 1 1 .u64 0 true, -- AshMarkedTotal
  ro 0x2300 1 2 2 .u32 0 true, -- ParamMismatchTotal
  ro 0x2300 1 3 3 .u32 0 true, -- ModulusFormTotal
  ro 0x2300 1 4 4 .u32 0 true, -- LedgerAshTotal
  ro 0x2800 1 1 1 .u64 0x1b00bfe false, -- FormatMap
  ro 0x2800 1 2 2 .u8 15 false, -- BlockSizes
  ro 0x2800 1 3 3 .u16 256 false, -- ValuesPerCycle
  ro 0x2800 1 4 4 .u16 512 false, -- ResiduesPerCycle
  wr 0x2820 1 1 1 .u64 .rw 0 false .immediate 0 0xffffffffffffffff false, -- ConvSource
  wr 0x2820 1 2 2 .u64 .rw 0 false .immediate 0 0xffffffffffffffff false, -- ConvDestination
  wr 0x2820 1 3 3 .u32 .rw 0 false .immediate 0 0xffffffff false, -- ConvCount
  wr 0x2820 1 4 4 .u64 .rw 0 false .immediate 0 0xffffffffffffffff false, -- ConvWord
  wr 0x2820 1 5 5 .u8 .wo 0 false .immediate 1 2 false, -- ConvControl
  ro 0x2820 1 6 6 .u16 0 true, -- ConvStatus
  ro 0x2820 1 7 7 .u8 255 true, -- ConvTile
  ro 0x2820 1 8 8 .u16 0 true, -- ConvMeasuredBound
  ro 0x2820 1 9 9 .u64 0 true, -- ConvEndTime
  ro 0x2880 1 1 1 .u64 0 true, -- OverflowTotal
  ro 0x2880 1 2 2 .u64 0 true, -- NaNTotal
  ro 0x2880 1 3 3 .u64 0 true, -- UnderflowTotal
  ro 0x2880 1 4 4 .u64 0 true, -- BoundClampTotal
  ro 0x2880 1 5 5 .u64 0 true, -- ExponentClampTotal
  ro 0x2890 16 1 1 .u32 0 true, -- JobOverflow
  ro 0x2890 16 2 2 .u32 0 true, -- JobNaN
  ro 0x2890 16 3 3 .u32 0 true, -- JobUnderflow
  ro 0x2890 16 4 4 .u32 0 true, -- JobBoundClamp
  ro 0x2890 16 5 5 .u32 0 true  -- JobExponentClamp
  ]

/-- The entries of the indices 3xxx, in table order. -/
def entriesOf3 : List EntryRow := [
  ro 0x3400 1 1 1 .u16 3072 false, -- RowsPerTile
  ro 0x3400 1 2 2 .u8 24 false, -- BanksPerTile
  ro 0x3400 1 3 3 .u8 128 false, -- RowsPerBank
  ro 0x3400 1 4 4 .u32 0xd80000 false, -- WindowBytes
  wr 0x3410 1 1 1 .u32 .rw 64 true .immediate 16 1024 false, -- ScrubPeriod
  wr 0x3410 1 2 2 .u32 .rw 32 true .immediate 8 1024 false, -- ScrubPeriodProtected
  ro 0x3420 1 1 1 .u64 0 true, -- CorrectedTotal
  ro 0x3420 1 2 2 .u32 0 true, -- UncorrectableTotal
  ro 0x3420 1 3 3 .u64 0 true, -- ScrubCorrectedTotal
  ro 0x3420 1 4 4 .u32 0 true, -- ScrubPoisonedTotal
  ro 0x3420 1 5 5 .u32 0 true, -- VerifyFailTotal
  ro 0x3420 1 6 6 .u32 0 true, -- ScrubOverdueTotal
  ro 0x3420 1 7 7 .u32 0 true, -- TagVoteTotal
  ro 0x3420 1 8 8 .u32 0 true, -- WordWriteRefusals
  ro 0x3440 64 1 1 .u32 0 true, -- BankPower
  ro 0x3440 64 2 2 .u32 0 true, -- TileCorrected
  ro 0x3440 64 3 3 .u32 0 true, -- TileUncorrectable
  ro 0x3440 64 4 4 .u16 0xffff false, -- LastErrorRow
  ro 0x3440 64 5 5 .u8 0 false, -- LastErrorWord
  ro 0x3440 64 6 6 .u32 0 false, -- LastScrubPass
  wr 0x3480 1 1 1 .u64 .rw 0 false .immediate 0 0xffffffffffffffff false, -- NarrowAddress
  wr 0x3480 1 2 2 .u64 .rws 0 false .stopped 0 0xffffffffffffffff true, -- NarrowData
  ro 0x3480 1 3 3 .u8 0 false, -- NarrowTag
  ro 0x3480 1 4 4 .u16 0 false, -- NarrowStatus
  wr 0x3480 1 5 5 .u32 .wo 0 false .stopped 0 0xffffffff false, -- RowTagClear
  ro 0x3000 1 1 1 .u8 8 false, -- StackCount
  ro 0x3000 1 2 2 .u8 128 false, -- ChannelsPerStack
  ro 0x3000 1 3 3 .u64 0xb2d060000 false, -- VisibleBytesPerStack
  ro 0x3000 1 4 4 .u64 0x5968300000 false, -- VisibleTop
  ro 0x3000 1 5 5 .u8 32 false, -- BanksPerChannel
  ro 0x3000 1 6 6 .u16 720 false, -- BankBudget
  ro 0x3000 1 7 7 .u16 1600 false, -- WorstCaseReadLatency
  ro 0x3000 1 8 8 .u16 256 false, -- SorterEntries
  ro 0x3000 1 9 9 .u8 16 false, -- PerBankSourceCap
  wr 0x3010 1 1 1 .u8 .rws 0 true .stopped 0 255 false, -- StackMode
  wr 0x3010 1 2 2 .u32 .rw 100 true .immediate 10 0x2710 false, -- SelfRefreshIdle
  wr 0x3010 1 3 3 .u16 .rw 24 true .immediate 1 168 false, -- PatrolPeriod
  ro 0x3020 1 1 1 .u16 0 true, -- ChannelLoadMax
  wr 0x3030 1 1 1 .u64 .rw 0 false .immediate 0 0xffffffffffffffff false, -- PoisonClearBase
  wr 0x3030 1 2 2 .u64 .rw 0 false .immediate 0 0xffffffffffffffff false, -- PoisonClearLength
  wr 0x3030 1 3 3 .u8 .wo 0 false .stopped 1 1 false, -- PoisonClear
  ro 0x3030 1 4 4 .u16 0 true, -- PoisonClearStatus
  ro 0x3030 1 5 5 .u16 0 true, -- PoisonEntries
  ro 0x3030 1 6 6 .u32 0 true, -- PoisonTableWaits
  ro 0x3040 8 1 1 .u8 0 true, -- StackState
  ro 0x3040 8 2 2 .bool 0 true, -- RefreshHot
  ro 0x3040 8 3 3 .u64 0 true, -- BytesRead
  ro 0x3040 8 4 4 .u64 0 true, -- BytesWritten
  ro 0x3040 8 5 5 .u64 0 true, -- PartialWrites
  ro 0x3040 8 6 6 .u64 0 true, -- CapHolds
  ro 0x3040 8 7 7 .u16 0 true, -- SorterPeak
  ro 0x3040 8 8 8 .u64 0 true, -- StackCorrected
  ro 0x3040 8 9 9 .u32 0 true, -- StackUncorrectable
  ro 0x3040 8 10 10 .u64 0 false  -- LastUncorrectableAddress
  ]

/-- The entries of the indices 4xxx, in table order. -/
def entriesOf4 : List EntryRow := [
  ro 0x4000 1 1 1 .u8 16 false, -- PortCount
  ro 0x4000 1 2 2 .u16 0x4000 false, -- NodeLimit
  ro 0x4000 1 3 3 .u8 24 false, -- HopLimit
  ro 0x4000 1 4 4 .u8 64 false, -- BarrierIds
  ro 0x4000 1 5 5 .u16 256 false, -- McastGroups
  wr 0x4010 1 1 1 .u16 .rws 0 true .stopped 0 0x3fff false, -- NodeId
  wr 0x4010 1 2 2 .u32 .rw 20 true .immediate 5 500 false, -- CompletionTimeout
  wr 0x4010 1 3 3 .u32 .rw 200 true .immediate 20 0x186a0 false, -- BarrierTimeout
  wr 0x4010 1 4 4 .u16 .rw 0xffff true .immediate 0 0xffff false, -- PortEnable
  wr 0x4010 1 5 5 .u32 .rw 100 true .immediate 10 0xea60 false, -- RetrainInterval
  wr 0x4010 1 6 6 .bool .rw 0 true .immediate 0 1 false, -- TimeMaster
  wr 0x4010 1 7 7 .u8 .rw 255 true .immediate 0 255 false, -- TimeParentPort
  ro 0x4020 1 1 1 .u64 0 true, -- FabricTime
  ro 0x4020 1 2 2 .bool 0 true, -- TimeLocked
  ro 0x4020 1 3 3 .i32 0 false, -- TimeOffsetLast
  wr 0x4030 1 1 1 .domain .rw 0 true .immediate 0 0 false, -- RouteTable
  ro 0x4038 1 1 1 .u64 0 true, -- OpsIssued
  ro 0x4038 1 2 2 .u64 0 true, -- OpsServed
  ro 0x4038 1 3 3 .u32 0 true, -- TimeoutTotal
  ro 0x4038 1 4 4 .u32 0 true, -- CrcFailTotal
  ro 0x4038 1 5 5 .u32 0 true, -- UnreachableTotal
  ro 0x4038 1 6 6 .u32 0 true, -- ProtectTotal
  ro 0x4038 1 7 7 .u32 0 true, -- HopDrops
  ro 0x4038 1 8 8 .u32 0 true, -- LateCompletions
  ro 0x4040 16 1 1 .u8 0 true, -- PortState
  ro 0x4040 16 2 2 .u8 0 false, -- PortVersion
  ro 0x4040 16 3 3 .u16 0xffff false, -- PeerNode
  ro 0x4040 16 4 4 .u16 0 false, -- LastTrainError
  ro 0x4040 16 5 5 .u32 0 true, -- LinkDelay
  ro 0x4040 16 6 6 .u64 0 true, -- Retransmissions
  ro 0x4040 16 7 7 .u64 0 true, -- FecCorrected
  ro 0x4040 16 8 8 .u64 0 true, -- FecUncorrected
  ro 0x4040 16 9 9 .u32 0 true, -- LinkDownCount
  wr 0x4200 64 1 1 .u64 .rw 0 true .immediate 0 0xffffffffffffffff false, -- GrantBase
  wr 0x4200 64 2 2 .u64 .rw 0 true .immediate 0 0xffffffffffffffff false, -- GrantLength
  wr 0x4200 64 3 3 .u16 .rw 0 true .immediate 0 0xffff false, -- GrantNodeLo
  wr 0x4200 64 4 4 .u16 .rw 0 true .immediate 0 0xffff false, -- GrantNodeHi
  wr 0x4200 64 5 5 .u8 .rw 0 true .immediate 0 255 false, -- GrantRights
  wr 0x4300 256 1 1 .u16 .rw 0 true .immediate 0 0xffff false, -- GroupPorts
  wr 0x4300 256 2 2 .bool .rw 0 true .immediate 0 1 false, -- GroupLocal
  wr 0x4300 256 3 3 .u8 .rw 0 true .immediate 0 64 false, -- GroupMembers
  wr 0x4400 64 1 1 .u16 .rws 0xffff false .stopped 0 0xffff false, -- BarrierParent
  wr 0x4400 64 2 2 .u8 .rws 0 false .stopped 0 16 false, -- BarrierChildren
  wr 0x4400 64 3 3 .u16 .rws 0 false .stopped 0 0xffff false, -- BarrierEpoch
  ro 0x4400 64 4 4 .u8 255 true, -- BarrierOwner
  ro 0x4400 64 5 5 .u32 0 true  -- BarrierLateDrops
  ]

/-- The entries of the indices 5xxx, in table order. -/
def entriesOf5 : List EntryRow := [
  ro 0x5000 1 1 1 .u8 7 false, -- LinkSpeedMax
  ro 0x5000 1 2 2 .u8 16 false, -- LinkWidthMax
  ro 0x5000 1 3 3 .u8 64 false, -- MsixVectors
  ro 0x5000 1 4 4 .u16 0x1000 false, -- OutstandingReadsMax
  ro 0x5000 1 5 5 .u64 0x1000000000 false, -- Bar2Size
  wr 0x5010 1 1 1 .u8 .rw 7 true .immediate 1 7 false, -- LinkSpeedLimit
  wr 0x5010 1 2 2 .bool .rw 0 true .immediate 0 1 false, -- IdeRequired
  wr 0x5010 1 3 3 .u8 .rw 1 true .immediate 0 1 false, -- PerstAction
  wr 0x5020 1 1 1 .u64 .rw 0 false .immediate 0 0x4968300000 false, -- ApertureBase
  wr 0x5020 1 2 2 .u8 .rw 3 false .immediate 0 255 false, -- ApertureRights
  ro 0x5020 1 3 3 .u32 0 true, -- ApertureRefusals
  wr 0x5030 1 1 1 .domain .rw 0 true .immediate 0 0 false, -- VectorMap
  wr 0x5030 1 2 2 .u32 .rw 2 true .immediate 0 1000 false, -- InterruptHoldoff
  ro 0x5030 1 3 3 .u64 0 true, -- InterruptsSent
  ro 0x5040 1 1 1 .u8 0 true, -- LinkState
  ro 0x5040 1 2 2 .u8 0 true, -- LinkSpeed
  ro 0x5040 1 3 3 .u8 0 true, -- LinkWidth
  ro 0x5040 1 4 4 .bool 0 true, -- FlitMode
  ro 0x5040 1 5 5 .u16 0 true, -- TagLimit
  ro 0x5040 1 6 6 .bool 0 true, -- AtomicEnabled
  ro 0x5040 1 7 7 .u64 0 true, -- HostOpsIssued
  ro 0x5040 1 8 8 .u32 0 true, -- HostTimeouts
  ro 0x5040 1 9 9 .u32 0 true, -- HostCompletionErrors
  ro 0x5040 1 10 10 .u64 0 true, -- TagWaits
  ro 0x5040 1 11 11 .u8 0 true, -- IdeState
  ro 0x5040 1 12 12 .u32 0 true, -- IdeFailures
  ro 0x5040 1 13 13 .u8 0 true  -- SpdmSessions
  ]

/-- The entries of the indices 6xxx, in table order. -/
def entriesOf6 : List EntryRow := [
  ro 0x6000 1 1 1 .u8 16 false, -- JobSlots
  ro 0x6000 1 2 2 .u64 0 true, -- FreeTiles
  ro 0x6000 1 3 3 .u8 0 true, -- AdmittedJobs
  ro 0x6000 1 4 4 .u16 0 true, -- ReservedGeyserRate
  ro 0x6000 1 5 5 .u8 0 true, -- ReservedStreams
  ro 0x6000 1 6 6 .u32 0x10000000 false, -- ImageSizeMax
  wr 0x6010 1 1 1 .u64 .rw 0 false .immediate 0 0xffffffffffffffff false, -- TileReserveMask
  wr 0x6100 16 1 1 .u8 .wo 0 false .immediate 0 255 false, -- JobControl
  ro 0x6100 16 2 2 .u8 2 true, -- JobState
  wr 0x6100 16 3 3 .u64 .rws 0 false .stopped 0 0xffffffffffffffff false, -- ImageAddress
  wr 0x6100 16 4 4 .u32 .rws 0 false .stopped 0 0xffffffff false, -- ImageLength
  ro 0x6100 16 5 5 .u16 0 false, -- JobStatus
  ro 0x6100 16 6 6 .u64 0 false, -- AdmitDetail
  ro 0x6100 16 7 7 .u8 0 false, -- Completion
  ro 0x6100 16 8 8 .u64 0 false, -- GroupTiles
  ro 0x6100 16 9 9 .u64 0 false, -- StartTime
  ro 0x6100 16 10 10 .u64 0 false, -- EndTime
  ro 0x6100 16 11 11 .u64 0 true, -- DurationBound
  ro 0x6100 16 12 12 .bool 0 true, -- OverBound
  ro 0x6100 16 13 13 .u32 0 true, -- GuaranteeMisses
  ro 0x6100 16 14 14 .u32 0 true, -- LayoutDroppedWrites
  ro 0x6100 16 15 15 .u32 0 true, -- LayoutAliasWrites
  ro 0x6100 16 16 16 .u64 0 true, -- LayoutHalfSpeedRuns
  ro 0x6100 16 17 17 .u8 255 false, -- FaultTile
  ro 0x6100 16 18 18 .u32 0 false, -- FaultBundle
  wr 0x6120 16 1 1 .u64 .rws 0 false .stopped 0 0xffffffffffffffff false, -- StopAfterBundle
  wr 0x6120 16 2 2 .u32 .rws 100 false .stopped 10 0x186a0 false, -- StopSettle
  ro 0x6200 64 1 1 .u8 255 true, -- TileJob
  ro 0x6200 64 2 2 .u8 255 true, -- TileRank
  ro 0x6200 64 3 3 .u64 0 true, -- ScheduleCount
  ro 0x6200 64 4 4 .u8 0 true  -- TileRun
  ]

/-- The entries of the indices 7xxx, in table order. -/
def entriesOf7 : List EntryRow := [
  ro 0x7800 1 1 1 .u8 3 false, -- GroupWidth
  ro 0x7800 1 2 2 .u16 512 false, -- ButterfliesPerCycle
  ro 0x7800 1 3 3 .u16 2048 false, -- ProductsPerCycle
  ro 0x7800 1 4 4 .u16 3072 false, -- OccupancyDivisor
  ro 0x7800 1 5 5 .u8 8 false, -- LookupTableLimit
  ro 0x7800 1 6 6 .u16 512 false, -- BatchDrainCycles
  wr 0x7810 1 1 1 .bool .rw 1 true .stopped 0 1 false, -- RegenShare
  ro 0x7820 1 1 1 .u64 0 true, -- BootstrapsTotal
  ro 0x7820 1 2 2 .u64 0 true, -- BatchesTotal
  ro 0x7820 1 3 3 .u64 0 true, -- ExtractedTotal
  ro 0x7820 1 4 4 .u64 0 true, -- PackedTotal
  ro 0x7820 1 5 5 .u64 0 true, -- ModRaiseTotal
  ro 0x7820 1 6 6 .u32 0 true, -- SelectorFaults
  ro 0x7880 16 1 1 .u64 0 true, -- JobBootstraps
  ro 0x7880 16 2 2 .u32 0 true, -- JobBatches
  ro 0x7880 16 3 3 .u64 0 true, -- JobExtracted
  ro 0x7880 16 4 4 .u64 0 true, -- JobPacked
  ro 0x7880 16 5 5 .u64 0 false, -- LastBatchCycles
  ro 0x7880 16 6 6 .u16 0 false, -- LastBatchSamples
  ro 0x7880 16 7 7 .u32 0 false, -- LastBatchWslotCycles
  ro 0x7000 1 1 1 .u8 16 false, -- StreamSlots
  ro 0x7000 1 2 2 .u16 1600 false, -- StreamRateMax
  ro 0x7000 1 3 3 .u16 3200 false, -- AggregateRateMax
  ro 0x7000 1 4 4 .u8 4 false, -- CheckUnits
  ro 0x7000 1 5 5 .u8 28 false, -- RegenBytesPerCycle
  ro 0x7000 1 6 6 .u8 64 false, -- McastMembersMax
  ro 0x7000 1 7 7 .u16 1000 false, -- HeaderCheckBound
  wr 0x7010 1 1 1 .u32 .rw 500 true .immediate 10 0x186a0 false, -- McastCreditTimeout
  wr 0x7010 1 2 2 .u32 .rw 500 true .immediate 10 0x186a0 false, -- McastIdleTimeout
  ro 0x7020 1 1 1 .u64 0 true, -- StreamsOpened
  ro 0x7020 1 2 2 .u64 0 true, -- BytesRead
  ro 0x7020 1 3 3 .u64 0 true, -- BytesBroadcast
  ro 0x7020 1 4 4 .u64 0 true, -- BytesRegenerated
  ro 0x7020 1 5 5 .u32 0 true, -- KeyMismatchTotal
  ro 0x7020 1 6 6 .u32 0 true, -- KeyCrcTotal
  ro 0x7020 1 7 7 .u32 0 true, -- KeyFormatTotal
  ro 0x7020 1 8 8 .u32 0 true, -- StreamsCancelled
  ro 0x7040 16 1 1 .u8 0 true, -- SlotState
  ro 0x7040 16 2 2 .u8 255 true, -- SlotJob
  ro 0x7040 16 3 3 .u16 0xffff true, -- SlotEntry
  ro 0x7040 16 4 4 .u64 0 true, -- SlotBytes
  ro 0x7040 16 5 5 .domain 0 false, -- SlotHeader
  ro 0x7040 16 6 6 .u16 0 false, -- SlotError
  ro 0x7080 16 1 1 .u64 0 true, -- JobKeyBytes
  ro 0x7080 16 2 2 .u32 0 true, -- JobStreams
  ro 0x7080 16 3 3 .u16 0 false, -- LastKeyError
  ro 0x7080 16 4 4 .u16 0xffff false, -- LastKeyEntry
  ro 0x7080 16 5 5 .u32 0 true  -- RateDeferrals
  ]

/-- The entries of the indices 8xxx, in table order. -/
def entriesOf8 : List EntryRow := [
  ro 0x8000 1 1 1 .u8 8 false, -- SnapshotSlots
  ro 0x8000 1 2 2 .u32 0x1000000 false, -- CaptureBytesMax
  ro 0x8000 1 3 3 .u8 4 false, -- LatchSkewBound
  ro 0x8000 1 4 4 .u16 2000 false, -- CopyWindow
  wr 0x8010 1 1 1 .u8 .wo 0 false .immediate 1 3 false, -- SnapTrigger
  wr 0x8010 1 2 2 .u64 .rw 0 false .immediate 0 0xffffffffffffffff false, -- SnapTargetTime
  wr 0x8010 1 3 3 .u32 .rw 0 false .immediate 0 0xffffffff false, -- SnapIdent
  wr 0x8010 1 4 4 .bool .rw 1 true .immediate 0 1 false, -- FaultTriggerEnable
  wr 0x8010 1 5 5 .bool .rw 1 true .immediate 0 1 false, -- RemoteTriggerEnable
  ro 0x8010 1 6 6 .u8 0 true, -- PendingTicks
  ro 0x8010 1 7 7 .u32 0 true, -- SnapDropped
  ro 0x8010 1 8 8 .u32 0 true, -- SnapOverwritten
  ro 0x8010 1 9 9 .u32 0 true, -- LastSnapSeq
  ro 0x8020 1 1 1 .u32 0 true, -- GuaranteeMissSuppressed
  ro 0x8040 8 1 1 .u8 0 true, -- SlotState
  ro 0x8040 8 2 2 .u32 0 false, -- SlotSeq
  ro 0x8040 8 3 3 .u8 0 false, -- SlotSources
  ro 0x8040 8 4 4 .u64 0 false, -- SlotTime
  wr 0x8040 8 5 5 .bool .rw 0 false .immediate 0 1 false, -- SlotPin
  ro 0x8040 8 6 6 .u8 255 false, -- SlotJob
  ro 0x8040 8 7 7 .domain 0 false, -- Capture
  ro 0x8080 16 1 10 .u64 0 true, -- JobStall
  ro 0x8100 64 1 60 .u64 0 true, -- TileStall
  ro 0x8180 1 1 10 .u64 0 true  -- GeyserStall
  ]

/-- The entries of the indices 9xxx, in table order. -/
def entriesOf9 : List EntryRow := [
  ro 0x9000 1 1 1 .u8 0 false, -- SecurityVersionFused
  ro 0x9000 1 2 2 .domain 0 false, -- IdentityPublicKey
  ro 0x9000 1 3 3 .domain 0 false, -- HssPublicKey
  ro 0x9000 1 4 4 .domain 0 false, -- DeviceCertificate
  ro 0x9000 1 5 5 .domain 0 false, -- ManagementCertificate
  ro 0x9000 1 6 6 .u64 0x10000000000 true, -- SignaturesRemaining
  ro 0x9000 1 7 7 .u64 0 true, -- SignaturesReleased
  ro 0x9000 1 8 8 .u8 100 false, -- SignatureRateLimit
  ro 0x9000 1 9 9 .domain 0 false, -- FirmwareAnchorDigests
  ro 0x9000 1 10 10 .u32 0x100000 true, -- BottomLeavesLeft
  ro 0x9000 1 11 11 .bool 0 true, -- NextTreeReady
  ro 0x9000 1 12 12 .domain 0 false, -- CaChain
  wr 0x9010 1 1 1 .domain .rw 0 false .immediate 0 0 false, -- ReportNonce
  ro 0x9010 1 2 2 .domain 0 false, -- Report
  wr 0x9030 1 1 1 .domain .rw 0 true .immediate 0 0 false, -- OperatorAnchors
  wr 0x9030 1 2 2 .bool .rw 0 true .immediate 0 1 false, -- AnchorWriteViaDtp
  wr 0x9100 1 1 1 .domain .rw 0 true .immediate 0 0 false, -- PendingImage
  ro 0x9100 1 2 2 .u8 0 false, -- PendingState
  ro 0x9100 1 3 3 .u8 0 false, -- ActiveSlot
  ro 0x9100 1 4 4 .u32 0 false, -- ActiveRelease
  ro 0x9100 1 5 5 .u8 0 false, -- ActiveSvn
  ro 0x9100 1 6 6 .u32 0 false, -- PendingRelease
  ro 0x9100 1 7 7 .u16 0 false, -- LastActivateResult
  ro 0x9100 1 8 8 .u8 0 false, -- LastRejectReason
  ro 0x9100 1 9 9 .u32 0 false, -- ActivateCount
  ro 0x9100 1 10 10 .u32 0x1000000 false, -- HostComponentMax
  wr 0x9110 1 1 1 .u8 .wo 0 false .stopped 1 2 false, -- Activate
  wr 0x9110 1 2 2 .u8 .wo 0 false .stopped 1 1 false, -- CommitSvn
  wr 0x9200 1 1 1 .u8 .rw 255 false .immediate 0 255 false, -- PkeClaim
  wr 0x9200 1 2 2 .u64 .wo 0 false .immediate 0 0xffffffffffffffff false, -- PkeCommand
  ro 0x9200 1 3 3 .u16 0 true, -- PkeStatus
  ro 0x9200 1 4 4 .u16 0 true, -- PkeSecretMask
  ro 0x9200 1 5 5 .u64 0 true, -- PkeCommands
  wr 0x9210 1 1 16 .domain .rw 0 false .immediate 0 0 false, -- PkeSlot
  ro 0x9220 1 1 1 .u32 0 true, -- KeyHandleMap
  ro 0x9220 1 2 2 .u32 0 false  -- KeyPersistMap
  ]

/-- The entries of the indices Axxx, in table order. -/
def entriesOfA : List EntryRow := [
  ro 0xA000 1 1 1 .u8 96 false, -- DomainCount
  ro 0xA000 1 2 2 .u16 0x2710 false, -- SampleInterval
  wr 0xA010 1 1 1 .u16 .rw 1650 true .immediate 300 1650 false, -- PowerBudget
  wr 0xA010 1 2 2 .u16 .rw 30 true .immediate 0 200 false, -- GuardMargin
  wr 0xA010 1 3 3 .u8 .rw 3 true .immediate 0 3 false, -- FloorPoint
  wr 0xA010 1 4 4 .u32 .rw 0 true .immediate 0 0xf4240 false, -- HoldLimit
  wr 0xA010 1 5 5 .u32 .rw 1000 true .immediate 100 0x186a0 false, -- RaiseInterval
  wr 0xA020 1 1 16 .u16 .rw 0 true .immediate 0 0x9c40 false, -- ClassPower
  wr 0xA030 1 1 1 .u8 .rw 4 true .immediate 1 4 false, -- FreeTileState
  wr 0xA030 1 2 2 .bool .rw 1 true .immediate 0 1 false, -- SleepEnable
  wr 0xA030 1 3 3 .u8 .rw 2 true .immediate 1 2 false, -- HaltedTileState
  wr 0xA040 1 1 1 .u8 .rw 0 false .stopped 0 1 false, -- DeepIdle
  ro 0xA040 1 2 2 .u8 0 true, -- DeviceIdleState
  wr 0xA040 1 3 3 .u32 .rw 0 true .immediate 0 0x15180 false, -- DeepIdleAfter
  ro 0xA050 1 1 1 .domain 0 true, -- DomainStates
  ro 0xA060 1 1 1 .u32 0 true, -- InputPowerMean
  ro 0xA060 1 2 2 .u32 0 true, -- InputPowerPeak
  ro 0xA060 1 3 3 .u32 0 true, -- CommittedProjection
  ro 0xA060 1 4 4 .u64 0 true, -- OverBudgetTime
  ro 0xA060 1 5 5 .u32 0 true, -- PointSteps
  ro 0xA060 1 6 6 .u32 0 true, -- PhaseHolds
  wr 0xA070 1 1 1 .u8 .rw 105 true .immediate 85 110 false, -- ThermalLimit
  ro 0xA070 1 2 2 .u32 0 true, -- ThermalSteps
  wr 0xA080 16 1 1 .u8 .rw 0 false .epoch 0 1 false, -- PowerPolicy
  ro 0xA080 16 2 2 .u8 0 true, -- GroupPoint
  ro 0xA080 16 3 3 .u8 0 true, -- CurrentPhase
  ro 0xA080 16 4 4 .u32 0 true, -- ProjectedPower
  ro 0xA080 16 5 5 .u64 0 true, -- PowerHoldTime
  ro 0xA0C0 64 1 1 .u8 4 true, -- TileState
  ro 0xA0C0 64 2 2 .u8 0 true, -- TilePoint
  ro 0xA0C0 64 3 3 .u32 0 true, -- SleepEntries
  ro 0xA0C0 64 4 4 .u64 0 true, -- SleepTime
  ro 0xA0C0 64 5 5 .i16 0 true  -- JunctionTemp
  ]

/-- The entries of the indices Bxxx, in table order. -/
def entriesOfB : List EntryRow := [
  ro 0xB000 1 1 1 .u16 0x1000 false, -- EventLogEntries
  ro 0xB000 1 2 2 .u8 24 false, -- CheckUnitCount
  ro 0xB000 1 3 3 .u8 4 false, -- ContextsPerUnit
  ro 0xB001 1 1 1 .u32 0 true, -- LogOldest
  ro 0xB001 1 2 2 .u32 0 true, -- LogNewest
  ro 0xB001 1 3 3 .u64 0 true, -- LogOverwritten
  wr 0xB001 1 4 4 .u32 .rw 0 false .immediate 0 0xffffffff false, -- LogReadFrom
  ro 0xB001 1 5 5 .domain 0 false, -- LogWindow
  ro 0xB100 96 1 1 .u8 0 true, -- ContextState
  wr 0xB100 96 2 2 .u8 .rws 0 false .stopped 0 1 false, -- ContextPoly
  wr 0xB100 96 3 3 .u64 .rws 0xffffffffffffffff false .stopped 0 0xffffffffffffffff true, -- ContextRunning
  wr 0xB100 96 4 4 .u64 .rws 0 false .stopped 0 0xffffffffffffffff true, -- ContextLength
  ro 0xB100 96 5 5 .u8 255 true, -- ContextOwner
  wr 0xB180 1 1 1 .u64 .rw 0 false .immediate 0 0xffffffffffffffff false, -- CheckSource
  wr 0xB180 1 2 2 .u64 .rw 0 false .immediate 1 0x10000000000 false, -- CheckLength
  wr 0xB180 1 3 3 .u8 .rw 88 false .immediate 0 95 false, -- CheckContext
  wr 0xB180 1 4 4 .u8 .wo 0 false .immediate 1 3 false, -- CheckControl
  ro 0xB180 1 5 5 .u16 0 true, -- CheckStatus
  ro 0xB180 1 6 6 .u64 0 false, -- CheckResult
  wr 0xB190 1 1 1 .u32 .rw 100 true .immediate 10 0x2710 false, -- WatchdogPeriod
  ro 0xB190 1 2 2 .u64 0 true, -- FailedTiles
  ro 0xB190 1 3 3 .u32 0 true, -- QuenchTotal
  ro 0xB190 1 4 4 .u64 0 true, -- LeaseRevocations
  ro 0xB190 1 5 5 .u64 0 true, -- LeaseLateDrops
  ro 0xB190 1 6 6 .u32 0 true, -- RemotePoisonWrites
  ro 0xB190 1 7 7 .u32 0 true, -- RemotePoisonFailures
  ro 0xB190 1 8 8 .u32 0 false, -- WatchdogRestarts
  ro 0xB190 1 9 9 .u32 0 true  -- SimultaneousFaults
  ]

/-- The entries of the indices Cxxx, in table order. -/
def entriesOfC : List EntryRow := [
  ro 0xC000 1 1 1 .u32 0 true, -- InputVoltage
  ro 0xC000 1 2 2 .u32 0 true, -- InputCurrent
  ro 0xC000 1 3 3 .u8 0 true, -- InputState
  ro 0xC000 1 4 4 .u32 0 true, -- InputVoltageMin
  ro 0xC000 1 5 5 .u32 0 false, -- InputRangeEvents
  ro 0xC010 1 1 1 .i16 0 true, -- CoolantInletTemp
  ro 0xC010 1 2 2 .i16 0 true, -- CoolantOutletTemp
  ro 0xC010 1 3 3 .i16 0 true, -- FieldSideTemp
  ro 0xC010 1 4 4 .i16 0 true, -- BoardTempMax
  ro 0xC010 1 5 5 .u8 0 true, -- CoolantAlarm
  ro 0xC040 8 1 1 .i16 0 true, -- StackTemp
  ro 0xC060 18 1 1 .i16 0 true, -- EngineTemp
  ro 0xC060 18 2 2 .domain 0 true, -- LaneTxPower
  ro 0xC060 18 3 3 .domain 0 true  -- LaneRxPower
  ]

/-- The event indices of Table 18-7. -/
def eventIndices : List Nat :=
  [0xB010, 0xB020, 0xB021, 0xB030, 0xB031, 0xB040, 0xB041, 0xB042, 0xB090, 0xB091, 0xB092, 0xB093, 0xB0A0, 0xB0A1,
   0xB0B1, 0xB0B2, 0xB0C0, 0xB0C1, 0xB0C2, 0xB0C3, 0xB0D0, 0xB0D2, 0xB0E0, 0xB0E2, 0xB0E3, 0xB0F1]

/-- The three entries of every event index (R400). -/
def eventEntries : List EntryRow :=
  eventIndices.flatMap fun i => [ro i 1 1 1 .u32 0 true, ro i 1 2 2 .u64 0 true, ro i 1 3 3 .u64 0 true]

/-- The rows whose indices share the high hex digit of an index. -/
def entryPage (index : Nat) : List EntryRow :=
  match index / 4096 with
  | 1 => entriesOf1
  | 2 => entriesOf2
  | 3 => entriesOf3
  | 4 => entriesOf4
  | 5 => entriesOf5
  | 6 => entriesOf6
  | 7 => entriesOf7
  | 8 => entriesOf8
  | 9 => entriesOf9
  | 10 => entriesOfA
  | 11 => entriesOfB ++ eventEntries
  | 12 => entriesOfC
  | _ => []

/-- Whether a row holds an instance at an index. -/
def EntryRow.holds (r : EntryRow) (index : Nat) : Bool := r.index ≤ index && index < r.index + r.count

/-- The row of an entry, none where it is absent (R29). -/
def findEntry (index sub : Nat) : Option EntryRow :=
  (entryPage index).find? fun r => r.holds index && (r.lo ≤ sub && sub ≤ r.hi)

/-- HighestSubindex of an index: 0 where the index is absent (R29). -/
def highestSub (index : Nat) : Nat :=
  ((entryPage index).filter fun r => r.holds index).foldl (fun m r => max m r.hi) 0

/-- The row of HighestSubindex (R29): a read-only U8 entry. -/
def highestRow (index : Nat) : EntryRow := ro index 1 0 0 .u8 (highestSub index) false

/-- The row of any entry, subindex 0 included (R29). -/
def lookupEntry (index sub : Nat) : Option EntryRow :=
  if sub = 0 then if highestSub index = 0 then none else some (highestRow index) else findEntry index sub

/-- Bytes in which a value of the type is counted by the range check of R30: its largest slot value. -/
def EntryType.max : EntryType → Nat
  | .bool => 1
  | .u8 => 0xFF
  | .u16 => 0xFFFF
  | .u32 => 0xFFFFFFFF
  | .u64 => 0xFFFFFFFFFFFFFFFF
  | _ => 0

/-- STRING and DOMAIN entries move by segmented transfer (R30). -/
def EntryType.isContent : EntryType → Bool
  | .string => true
  | .domain => true
  | _ => false

/-- The default of an entry in slot encoding (R30, R32); ClassPower is 1,250 x (c + 1) (Table 16-5). -/
def EntryRow.slotDefault (r : EntryRow) (sub : Nat) : Nat :=
  if r.index = 0xA020 ∧ sub ≠ 0 then 1250 * sub else unsigned 64 r.dflt

/-- The default of an entry, 0 where it is absent. -/
def entryDefault (index sub : Nat) : Nat :=
  ((lookupEntry index sub).map fun r => r.slotDefault sub).getD 0

/-- The base indices of the job-scoped entries (R32). -/
def jobScopedBases : List Nat := [0x2200, 0x2890, 0x7880, 0x7080, 0x6100, 0x6120, 0x8080, 0xA080]

/-- The job slot that owns an entry, none for a device entry (R32). -/
def ownerJob (index : Nat) : Option Nat :=
  (jobScopedBases.find? fun b => b ≤ index && index < b + 16).map fun b => index - b

/-- The per-tile families (R258, R275, R360, R414). -/
def tileOf (index : Nat) : Option Nat :=
  ([0x6200, 0x3440, 0xA0C0, 0x8100].find? fun b => b ≤ index && index < b + 64).map fun b => index - b

/-- The context-local entries (R36, R401). -/
def isContextLocal (index sub : Nat) : Bool :=
  index = 0x1020 || index = 0x1030 || index = 0x1038 || (index = 0xB001 && sub = 4)

/-- The field-served entries (R56, R385, R425, R436). -/
def isFieldServed (index : Nat) : Bool :=
  index = 0x1050 || (0x1100 ≤ index && index ≤ 0x1FFF) || index = 0x9100 || index = 0xC000 || index = 0xC010 || index = 0xC071

/-- The maximum length that a STRING or DOMAIN entry's catalogue record gives (Table 2-7): what the entry's chapter fixes. The spec gives no bound
for the certificate entries, OperatorAnchors among them, nor for the catalogue and the report: theirs is the largest that a DOMAIN may have
(R30; DESIGN CHOICE, log entry 62). -/
def maxContent (index sub : Nat) : Nat :=
  if index = 0x1000 ∧ sub = 11 then 255
  else if index = 0x2010 ∨ (0x2100 ≤ index ∧ index < 0x2120) then 488
  else if 0x2200 ≤ index ∧ index < 0x2210 then 65536
  else if index = 0x4030 then 16384
  else if index = 0x5030 then 24
  else if 0x7040 ≤ index ∧ index < 0x7050 then 128
  else if 0x8040 ≤ index ∧ index < 0x8048 then 0x1000000
  else if index = 0x9000 ∧ sub = 2 then 97
  else if index = 0x9000 ∧ sub = 3 then 60
  else if index = 0x9000 ∧ sub = 9 then 96
  else if index = 0x9010 ∧ sub = 1 then 32
  else if index = 0x9100 then 0xE000000
  else if index = 0x9210 then 512
  else if index = 0xA050 then 96
  else if index = 0xB001 then 131072
  else if 0xC060 ≤ index ∧ index < 0xC072 then 32
  else 0xFFFFFFFF

/-- The flag bits of a catalogue record (Table 2-7). -/
def EntryRow.flags (r : EntryRow) (sub : Nat) : Nat :=
  (if r.persist then 1 else 0) + (if isContextLocal r.index sub then 2 else 0) + (if (ownerJob r.index).isSome then 4 else 0)
    + (if isFieldServed r.index then 8 else 0) + (if r.live then 16 else 0)

/-- The type codes of Table 2-1. -/
def EntryType.code : EntryType → Nat
  | .bool => 1
  | .u8 => 2
  | .u16 => 3
  | .u32 => 4
  | .u64 => 5
  | .i16 => 6
  | .i32 => 7
  | .string => 10
  | .domain => 11

/-- The access codes of Table 2-7. -/
def Access.code : Access → Nat
  | .ro => 0
  | .rw => 1
  | .wo => 2
  | .rws => 3

/-- The class codes of Table 2-2; 0 for read-only entries. -/
def ApplyClass.code : ApplyClass → Nat
  | .immediate => 0
  | .epoch => 1
  | .stopped => 2

/-- One catalogue record as its 128-bit value (Table 2-7). -/
def EntryRow.record (r : EntryRow) (sub : Nat) : Nat :=
  r.index + sub * 2 ^ 16 + r.ty.code * 2 ^ 24 + r.acc.code * 2 ^ 32 + r.cls.code * 2 ^ 40 + r.flags sub * 2 ^ 48
    + (if r.ty.isContent then maxContent r.index sub else r.slotDefault sub) * 2 ^ 64

/-- Every index that the catalogue lists, ascending: each family once, at its base index. -/
def catalogueIndices : List Nat :=
  (((List.range 12).flatMap fun d => (entryPage ((d + 1) * 4096)).map fun r => r.index).foldl
    (fun t i => Tab.put t i ()) ([] : Tab Unit)).map fun p => p.1

/-- The records of one index, ascending by subindex. -/
def indexRecords (index : Nat) : List Nat :=
  (highestRow index).record 0 ::
    ((List.range (highestSub index)).filterMap fun k => (findEntry index (k + 1)).map fun r => r.record (k + 1))

/-- The catalogue's bytes (R56, R58). -/
def catalogue : List Byte := (catalogueIndices.flatMap indexRecords).flatMap fun v => leBytes 16 v

end Sys2Proof.Machine
end

