-- ==== Sys2Proof/Machine/Ops.lean ====
section
/-! DEFINITION. The named operations over the state: units by number, dictionary entries, events and interrupts, access outcomes, free values. -/

namespace Sys2Proof.Machine

/-! ### Error codes (Table 18-3) -/

abbrev OK : Nat := 0x0000
abbrev BUSY : Nat := 0x0001
abbrev PENDING : Nat := 0x0002
abbrev STATE_CONFLICT : Nat := 0x0101
abbrev UNIT_ABSENT : Nat := 0x0102
abbrev ENTRY_ABSENT : Nat := 0x0103
abbrev ACCESS_RIGHT : Nat := 0x0104
abbrev VALUE_RANGE : Nat := 0x0105
abbrev GROUP_FULL : Nat := 0x0106
abbrev GROUP_DISCARDED : Nat := 0x0107
abbrev WATCHDOG_RESTART : Nat := 0x0108
abbrev GATE_LOST : Nat := 0x0109
abbrev ADMIT_RESOURCE : Nat := 0x0201
abbrev ADMIT_CERT_INVALID : Nat := 0x0202
abbrev ADMIT_TIMING : Nat := 0x0203
abbrev LEDGER_ASH : Nat := 0x0301
abbrev PARAM_MISMATCH : Nat := 0x0302
abbrev MODULUS_FORM : Nat := 0x0303
abbrev SET_TABLE_FULL : Nat := 0x0304
abbrev KEY_MISMATCH : Nat := 0x0401
abbrev KEY_CRC : Nat := 0x0402
abbrev KEY_FORMAT : Nat := 0x0403
abbrev MEM_UNCORRECTABLE : Nat := 0x0501
abbrev SLOT_POISON : Nat := 0x0502
abbrev ACCESS_PROTECT : Nat := 0x0503
abbrev DATA_CRC : Nat := 0x0504
abbrev FABRIC_TIMEOUT : Nat := 0x0601
abbrev FABRIC_CRC : Nat := 0x0602
abbrev FABRIC_VERSION : Nat := 0x0603
abbrev FABRIC_UNREACHABLE : Nat := 0x0604
abbrev HOST_LINK_DOWN : Nat := 0x0701
abbrev HOST_COMPLETION : Nat := 0x0702
abbrev HOST_ATOMIC_DISABLED : Nat := 0x0703
abbrev HOST_IDE_REQUIRED : Nat := 0x0704
abbrev PKE_RANGE : Nat := 0x0801
abbrev PKE_NO_INVERSE : Nat := 0x0802
abbrev PKE_POINT_INVALID : Nat := 0x0803
abbrev IMAGE_VERIFY : Nat := 0x0804
abbrev LMS_EXHAUSTED : Nat := 0x0805
abbrev THERMAL_TRIP : Nat := 0x0901
abbrev INPUT_RANGE : Nat := 0x0902
abbrev SCHEDULE_SLIP : Nat := 0x0A01
abbrev GUARANTEE_MISS : Nat := 0x0A02
abbrev WAIT_TIMEOUT : Nat := 0x0A03
abbrev TILE_UNRESPONSIVE : Nat := 0x0A04

/-! ### Units by number -/

def State.tile (s : State) (t : Nat) : Tile := Tab.get s.tiles {} t
def State.setTile (s : State) (t : Nat) (x : Tile) : State := { s with tiles := Tab.put s.tiles t x }
def State.updTile (s : State) (t : Nat) (f : Tile → Tile) : State := s.setTile t (f (s.tile t))

def State.job (s : State) (j : Nat) : Job := Tab.get s.jobs {} j
def State.setJob (s : State) (j : Nat) (x : Job) : State := { s with jobs := Tab.put s.jobs j x }
def State.updJob (s : State) (j : Nat) (f : Job → Job) : State := s.setJob j (f (s.job j))

def State.context (s : State) (c : Nat) : Context := Tab.get s.contexts {} c
def State.setContext (s : State) (c : Nat) (x : Context) : State := { s with contexts := Tab.put s.contexts c x }
def State.updContext (s : State) (c : Nat) (f : Context → Context) : State := s.setContext c (f (s.context c))

def State.stream (s : State) (k : Nat) : Stream := Tab.get s.streams {} k
def State.setStream (s : State) (k : Nat) (x : Stream) : State := { s with streams := Tab.put s.streams k x }
def State.updStream (s : State) (k : Nat) (f : Stream → Stream) : State := s.setStream k (f (s.stream k))

def State.port (s : State) (p : Nat) : Port := Tab.get s.ports {} p
def State.setPort (s : State) (p : Nat) (x : Port) : State := { s with ports := Tab.put s.ports p x }
def State.updPort (s : State) (p : Nat) (f : Port → Port) : State := s.setPort p (f (s.port p))

def State.sorter (s : State) (k : Nat) : Sorter := Tab.get s.sorters {} k
def State.setSorter (s : State) (k : Nat) (x : Sorter) : State := { s with sorters := Tab.put s.sorters k x }

def State.barrier (s : State) (b : Nat) : Barrier := Tab.get s.barriers {} b
def State.setBarrier (s : State) (b : Nat) (x : Barrier) : State := { s with barriers := Tab.put s.barriers b x }

/-- The job slots, in ascending order (R251). -/
def jobSlots : List Nat := List.range 16

/-- The tiles, in ascending order (R3). -/
def tileNumbers : List Nat := List.range 64

/-- Whether tile `t` is enabled (R3). -/
def State.tileEnabled (s : State) (t : Nat) : Bool := t < 64 && bit s.enabled t

/-- The job slots LOADED or later (R359, R376). -/
def State.jobsLoaded (s : State) : List Nat := jobSlots.filter fun j => (s.job j).state ≠ .ready

/-- RUNNING or DRAINING (R31). -/
def Job.active (j : Job) : Bool := j.state = .running || j.state = .draining

/-- The job slot whose group holds tile `t`. -/
def State.jobOfTile (s : State) (t : Nat) : Option Nat :=
  jobSlots.find? fun j => (s.job j).state ≠ .ready && t ∈ (s.job j).group

/-- The rank of tile `t` in a group: its position in ascending order (R241). -/
def rankOf (group : List Nat) (t : Nat) : Nat := (group.findIdx? fun x => x = t).getD 0xFF

/-! ### Dictionary entries -/

/-- The key of an entry: (index << 8) | subindex (R46). -/
def entryKey (index sub : Nat) : Nat := index * 256 + sub

/-- The stored value of an entry in slot encoding, its default where nothing was stored (R32). -/
def State.entry (s : State) (index sub : Nat) : Nat := Tab.get s.dict (entryDefault index sub) (entryKey index sub)

/-- An entry's stored value replaced. -/
def State.setEntry (s : State) (index sub v : Nat) : State := { s with dict := Tab.put s.dict (entryKey index sub) v }

/-- The largest value an entry can hold. -/
def entryMax (index sub : Nat) : Nat := ((lookupEntry index sub).map fun r => r.ty.max).getD 0

/-- A counter entry advanced; counters saturate (R258, R324, R401). -/
def State.bump (s : State) (index sub n : Nat) : State :=
  s.setEntry index sub (satAdd (entryMax index sub) (s.entry index sub) n)

/-- Entries returned to their defaults. -/
def State.resetEntries (s : State) (keys : List (Nat × Nat)) : State :=
  { s with dict := keys.foldl (fun d k => Tab.erase d (entryKey k.1 k.2)) s.dict }

/-- The content of a STRING or DOMAIN entry as stored; the defaults of RouteTable and VectorMap are those of Tables 14-6 and 15-6,
the others are the unit's (log entry 4). -/
def State.blob (s : State) (index sub : Nat) : List Byte :=
  match Tab.get? s.blobs (entryKey index sub) with
  | some c => c
  | none =>
    if index = 0x5030 then (List.range 24).map fun k => BitVec.ofNat 8 k
    else if index = 0x4030 then List.replicate 16384 0xFF
    else if (index = 0x9000 ∧ sub ≠ 1) ∨ (index = 0x1000 ∧ sub = 11) then
      (List.range (Config.unitLength (entryKey index sub))).map fun i => Config.unitByte (entryKey index sub) i
    else []

def State.setBlob (s : State) (index sub : Nat) (c : List Byte) : State :=
  { s with blobs := Tab.put s.blobs (entryKey index sub) c }

/-- DeviceState is READY (R416). -/
def State.ready (s : State) : Bool := s.entry 0x1100 1 = 2

/-- The host side restarts or is in an activation pause: DeviceState BOOT or UPDATING (R416). -/
def State.paused (s : State) : Bool := s.entry 0x1100 1 = 1 || s.entry 0x1100 1 = 7

/-- Generation 1 in force (R57). -/
def State.oldGeneration (s : State) : Bool := s.entry 0x1010 2 = 1

/-- The descriptor format written in force (0x2000:03): 1 in generation 1 (R57, R69). -/
def State.descriptorFormat (s : State) : Nat := if s.oldGeneration then 1 else 2

/-- Fabric time: the device's own count of nanoseconds, and what locking and slewing added (R322). -/
def State.fabricTime (s : State) : Nat := (s.now + s.timeOffset).toNat

/-- TimeLocked: the device took its time from its parent, or keeps the master's count (R322). -/
def State.timeLocked (s : State) : Bool := s.entry 0x4010 6 = 1 || s.entry 0x4020 2 = 1

/-! ### Outputs and free values -/

/-- The module emits something on one of its wires. -/
def State.emit (s : State) (o : Output) : State := { s with out := s.out ++ [o] }

/-- The next free value is another one (log entry 2). -/
def State.useFree (s : State) : State := { s with freeCount := s.freeCount + 1 }

/-! ### Gate messages (R13-R16) -/

/-- The message engine of an end. -/
def State.gateAt (s : State) (e : GateEnd) : GateSide :=
  match e with
  | .host => s.hostGate
  | .field => s.fieldGate

def State.setGate (s : State) (e : GateEnd) (g : GateSide) : State :=
  match e with
  | .host => { s with hostGate := g }
  | .field => { s with fieldGate := g }

/-- The type of a message (Table 1-2). -/
def GatePayload.type : GatePayload → Nat
  | .request .. => 1
  | .response .. => 2
  | .notice _ => 3
  | .trigger _ => 4
  | .power .. => 5
  | .reset .. => 6
  | .block .. => 7
  | .keepalive => 0xF

/-- Messages that are answered, and repeated until they are (R15). -/
def GatePayload.asks (p : GatePayload) : Bool := [1, 5, 6, 7].contains p.type

/-- A message leaves a gate end with the end's next sequence number (R13), and awaits its answer where its type has one.
An end that gave a message up sends nothing for 1 ms (R16): what it has to ask leaves with the first repeat after that. -/
def State.gateSend (s : State) (e : GateEnd) (p : GatePayload) (o : GateOrigin) : State :=
  let g := s.gateAt e
  let m : GateMsg := { seq := g.nextSeq, payload := p, origin := o, sentAt := s.now }
  let g := { g with nextSeq := (g.nextSeq + 1) % 65536, outstanding := if p.asks then g.outstanding ++ [m] else g.outstanding }
  if s.now < g.quietUntil then s.setGate e g
  else (s.setGate e { g with lastTx := s.now }).emit (.gate (e = .host) m.seq p)

/-- Fumarole's RESET_CMD, with the cause that the restart records (R14, R19, R397). -/
def State.sendReset (s : State) (kind cause : Nat) : State := s.gateSend .field (.reset kind cause) .fumarole

/-- Fumarole's POWER_DOMAIN_CMD for a mask of domains (R13, R342). -/
def State.sendPower (s : State) (mask : Nat) (on : Bool) : State := s.gateSend .field (.power mask on) .fumarole

/-- An event-log entry is copied to Fumarole; while the gate is down notices queue, the oldest overwritten (R19, R399). -/
def State.notice (s : State) (e : LogEntry) : State :=
  if s.hostGate.down then { s with notices := (s.notices ++ [e]).drop (s.notices.length + 1 - 4096) }
  else s.gateSend .host (.notice e) .fumarole

/-! ### Interrupts (R335, R336) -/

/-- The vector of an interrupt source: a byte of VectorMap (R335). -/
def State.vectorOf (s : State) (source : Nat) : Nat := ((s.blob 0x5030 1).getD source 0).toNat

/-- Whether a vector may send now: not masked, not in its holdoff, the link up and no activation pause (R336, R340). -/
def State.vectorOpen (s : State) (v : Nat) : Bool :=
  !(s.hostLink.functionMasked || v ∈ s.hostLink.vectorMasked || s.now < Tab.get s.hostLink.holdoffEnd 0 v || s.paused) && s.entry 0x5040 1 = 2

/-- A vector's one message, starting its holdoff; nothing more is pending. -/
def State.sendVector (s : State) (v : Nat) : State :=
  ({ s.bump 0x5030 3 1 with hostLink := { s.hostLink with
      holdoffEnd := Tab.put s.hostLink.holdoffEnd v (s.now + 1000 * s.entry 0x5030 2)
      vectorPending := s.hostLink.vectorPending.erase v } }).emit (.msix v)

/-- An interrupt source signals its vector, or sets its pending bit (R335, R336). -/
def State.interrupt (s : State) (source : Nat) : State :=
  let v := s.vectorOf source
  if s.vectorOpen v then s.sendVector v
  else if v ∈ s.hostLink.vectorPending then s
  else { s with hostLink := { s.hostLink with vectorPending := s.hostLink.vectorPending ++ [v] } }

/-- Pending vectors that may send again send their one message each (R336, R340). -/
def State.flushVectors (s : State) : State :=
  s.hostLink.vectorPending.foldl (fun s v => if s.vectorOpen v then s.sendVector v else s) s

/-! ### Events (R399, R400) -/

/-- The interrupt source of an event (Table 18-7). -/
def eventSource (event job : Nat) : Nat :=
  if event ∈ [0xB020, 0xB021, 0xB0B1, 0xB0B2] then (if job < 16 then job + 1 else 0)
  else if event ∈ [0xB090, 0xB091, 0xB092, 0xB093] then 21
  else if event ∈ [0xB0C0, 0xB0C1, 0xB0C2, 0xB0C3] then 20
  else if event ∈ [0xB0D0, 0xB0D2] then 23
  else if event ∈ [0xB0E0, 0xB0E2, 0xB0E3] then 18
  else if event = 0xB0F1 then 19
  else 0

/-- The three entries of an event index (R400). -/
def State.countEvent (s : State) (event d0 : Nat) : State :=
  ((s.bump event 1 1).setEntry event 2 s.fabricTime).setEntry event 3 (d0 % 2 ^ 64)

/-- An entry joins the event-log ring of 4,096 (R399). -/
def State.logEvent (s : State) (e : LogEntry) : State :=
  if s.log.length < 4096 then { s with log := s.log ++ [e], logNext := s.logNext + 1 }
  else ({ s with log := s.log.drop 1 ++ [e], logNext := s.logNext + 1 }).bump 0xB001 3 1

/-- An event occurs: counted; logged, copied to Fumarole and signalled, but for 0xB010 (R399, R400). -/
def State.raise (s : State) (event job code d0 d1 : Nat) : State :=
  let s := s.countEvent event d0
  if event = 0xB010 then s
  else
    let e : LogEntry := { event := event % 256, job := job, code := code, seq := s.logNext, time := s.fabricTime, detail0 := d0, detail1 := d1 }
    ((s.logEvent e).notice e).interrupt (eventSource event job)

/-! ### Access contexts and outcomes (R36, R46) -/

/-- A refusal, as opposed to OK, PENDING and GROUP_DISCARDED (R46). -/
def isRefusal (code : Nat) : Bool := code = BUSY || (0x0100 ≤ code && code ≠ GROUP_DISCARDED)

/-- The fabric nodes' contexts. -/
def isFabric (ctx : Nat) : Bool := 0x10000 ≤ ctx

/-- BAR0, the supervisor and DTP sessions always have context state; a fabric node has it once created (R45). -/
def State.hasContext (s : State) (ctx : Nat) : Bool := !isFabric ctx || (Tab.get? s.contexts ctx).isSome

/-- A fabric node's context neither exists nor can be created (R45). -/
def State.contextFull (s : State) (ctx : Nat) : Bool :=
  !s.hasContext ctx && 64 ≤ (s.contexts.filter fun p => isFabric p.1).length

/-- Whether an access through a context to an entry finds or creates the context's state: the first access to a context-local entry creates it,
whatever its outcome (R45). -/
def State.reachesContext (s : State) (ctx index sub : Nat) : Bool :=
  s.hasContext ctx || (isContextLocal index sub && !s.contextFull ctx)

/-- A STATE_CONFLICT refusal is counted in 0xB010 (R35). -/
def State.countConflict (s : State) (code detail : Nat) : State :=
  if code = STATE_CONFLICT then s.raise 0xB010 0xFF code detail 0 else s

/-- The outcome of an access that Fumarole has yet to give: the access waits for its DICT_RESPONSE (R16). It is no code of Table 2-3. -/
abbrev WAITING : Nat := 0x10000

/-- The outcome of an access is recorded in its context (R46). -/
def State.record (s : State) (ctx index sub code : Nat) : State :=
  if code = WAITING then s
  else
    let s := s.countConflict code (entryKey index sub)
    if s.reachesContext ctx index sub then
      s.updContext ctx fun c =>
        { c with lastStatus := code, lastEntry := entryKey index sub, lastAccess := s.now,
                 errorCount := if isRefusal code then satAdd 0xFFFFFFFF c.errorCount 1 else c.errorCount }
    else s

/-! ### Domains (R342) -/

/-- The state of a switched domain that has power (R343, log entry 9): a stack's follows self-refresh, a port's is OFF while it is DISABLED,
Geyser's is GATED while none of its slots is in use, the public-key engine's between commands. -/
def State.poweredDomain (s : State) (d : Nat) : Domain :=
  if d < 72 then (match s.entry (0x3040 + (d - 64)) 1 with | 0 => .on | 1 => .retention | _ => .off)
  else if d < 88 then (if s.entry (0x4040 + (d - 72)) 1 = 0 then .off else .on)
  else if d = 88 then (if s.lateStreams.isEmpty && !(List.range 16).any (fun k => (s.stream k).bound) then .gated else .on)
  else if d = 91 then (if s.pke.running.isNone then .gated else .on)
  else .on

/-- The state of a power domain; a tile's follows its TileState (Table 16-2, log entry 9). -/
def State.domain (s : State) (d : Nat) : Domain :=
  if d < 64 then
    if s.tileEnabled d then
      match s.entry (0xA0C0 + d) 1 with
      | 0 => .on
      | 1 => .gated
      | 2 => .retention
      | _ => .off
    else .off
  else if Tab.get s.domains .on d = .off then .off
  else s.poweredDomain d

def State.setDomain (s : State) (d : Nat) (x : Domain) : State := { s with domains := Tab.put s.domains d x }

/-- A tile's power state T0 to T4 (R347). -/
def State.tileState (s : State) (t : Nat) : Nat := s.entry (0xA0C0 + t) 1

end Sys2Proof.Machine
end

