-- ==== Sys2Proof/Machine/Mem.lean ====
section
/-! DEFINITION. Stack memory: address mapping, bytes, poison, error outcomes and the request sorter (R276-R298). -/

namespace Sys2Proof.Machine

/-! ### Address mapping (R277-R280) -/

/-- W, the visible bytes of each stack (R277). -/
def stackWindow : Nat := 48000008192

/-- The first local address above the visible range (R277). -/
def visibleTop : Nat := 0x5968300000

/-- Whether window j is stack-linear (R278). -/
def State.stackLinear (s : State) (j : Nat) : Bool := bit (s.entry 0x3010 1) j

/-- The hashed stacks in ascending order (R280). -/
def State.hashedStacks (s : State) : List Nat := (List.range 8).filter fun j => !s.stackLinear j

/-- Where a visible local address lies: stack, channel and channel-local granule index (R279, R280). -/
def State.mapAddress (s : State) (a : Nat) : Nat × Nat × Nat :=
  let j := a / stackWindow
  if s.stackLinear j then
    let g := (a - j * stackWindow) / 256
    (j, g % 128, g / 128)
  else
    let h := s.hashedStacks
    let c := 128 * h.length
    let rho := (h.findIdx? fun k => k = j).getD 0
    let g := (rho * stackWindow + (a - j * stackWindow)) / 256
    let i := g / c
    let t := i * 0x9E3779B1 % 2 ^ 32
    let k := (g % c + t / 65536) % c
    (h.getD (k / 128) 0, k % 128, i)

/-- The bank of a channel-local granule index (R276). -/
def bankOf (i : Nat) : Nat := i / 8 % 32

/-- The page row of a channel-local granule index (R276). -/
def pageOf (i : Nat) : Nat := i / 256

/-! ### Bytes -/

/-- What an address that nothing has written reads as: zero after phase 6 of Table 20-2 (R417),
undefined contents after a StackMode change (R281, log entry 2). -/
def State.unlistedByte (s : State) (a : Nat) : Byte :=
  match Tab.get? s.memUndefined (a / stackWindow) with
  | some n => Config.stackContents n a
  | none => 0

/-- The byte at a local stack address. -/
def State.memByte (s : State) (a : Nat) : Byte := Tab.get s.mem (s.unlistedByte a) a

/-- A byte stored; the list stays canonical. -/
def State.putByte (s : State) (a : Nat) (b : Byte) : State :=
  { s with mem := if b = s.unlistedByte a then Tab.erase s.mem a else Tab.put s.mem a b }

/-- The canonical form of memory: strictly rising addresses, and no entry equal to what an unlisted address reads as. -/
def Memory.wf (s : State) : Bool := Tab.wf s.mem && s.mem.all fun c => c.2 != s.unlistedByte c.1

/-- `n` bytes from an address. -/
def State.memBytes (s : State) (a n : Nat) : List Byte := (List.range n).map fun i => s.memByte (a + i)

/-- Bytes stored one by one. -/
def State.putBytes (s : State) (a : Nat) : List Byte → State
  | [] => s
  | b :: bs => State.putBytes (s.putByte a b) (a + 1) bs

/-! ### Poison (R292-R294) -/

/-- Whether epoch a precedes epoch b, compared modulo 2^15 (R294). -/
def epochPrecedes (a b : Nat) : Bool :=
  let d := (b + 2 ^ 15 - a % 2 ^ 15) % 2 ^ 15
  0 < d && d < 2 ^ 14

/-- Whether a word lies in a poison-table entry's range and precedes its epoch (R294). -/
def State.tablePoisons (s : State) (w : Nat) (e : PoisonEntry) : Bool :=
  e.first ≤ w / 8 && w / 8 < e.first + e.count && epochPrecedes (Tab.get s.wordEpoch 0 w) e.epoch

/-- Whether 32-byte word `w` reads as poisoned (R294). -/
def State.wordPoisoned (s : State) (w : Nat) : Bool := s.wordPoison.contains w || s.poisonTable.any (s.tablePoisons w)

/-- The words that `n` bytes from an address touch. -/
def wordsOf (a n : Nat) : List Nat := if n = 0 then [] else (List.range ((a + n - 1) / 32 - a / 32 + 1)).map fun i => a / 32 + i

/-- Whether a range holds a poisoned word. -/
def State.rangePoisoned (s : State) (a n : Nat) : Bool := (wordsOf a n).any s.wordPoisoned

/-- A word's POISON bit set. -/
def State.poisonWord (s : State) (w : Nat) : State :=
  if s.wordPoison.contains w then s else { s with wordPoison := w :: s.wordPoison }

/-- A written word takes the current epoch and loses its POISON bit (R292). -/
def State.stampWord (s : State) (w : Nat) : State :=
  { s with wordPoison := s.wordPoison.filter fun x => x ≠ w, wordEpoch := Tab.put s.wordEpoch w s.poisonEpoch }

/-- The other bytes of a poisoned word become zero when part of it is written (R294). -/
def State.zeroPoisoned (s : State) (w : Nat) : State :=
  if s.wordPoisoned w then s.putBytes (32 * w) (List.replicate 32 0) else s

/-- A write of bytes to visible stack memory: poisoned words lose their other bytes, every word written is stamped (R292, R294). -/
def State.memWrite (s : State) (a : Nat) (bs : List Byte) : State :=
  let ws := wordsOf a bs.length
  let s := ws.foldl State.zeroPoisoned s
  let s := s.putBytes a bs
  ws.foldl State.stampWord s

/-- A counter in local stack memory incremented; SIGNAL discards the old value (Table 14-3). -/
def State.addCounter (s : State) (a n : Nat) : State := s.memWrite a (leBytes 8 ((leNat (s.memBytes a 8) + n) % 2 ^ 64))

/-- What leaving a range of granules out leaves of a table entry: the parts before and after the range (R281, R296). -/
def PoisonEntry.trim (e : PoisonEntry) (first count : Nat) : List PoisonEntry :=
  let lo := max e.first first
  let hi := min (e.first + e.count) (first + count)
  if hi ≤ lo then [e]
  else (if e.first < lo then [{ e with count := lo - e.first }] else [])
    ++ (if hi < e.first + e.count then [{ e with first := hi, count := e.first + e.count - hi }] else [])

/-- The next free poison-table place, or a wait for a retirement (R294, R295). -/
def State.markPoison (s : State) (base len : Nat) : State :=
  if len = 0 then s
  else
    let e := (s.poisonEpoch + 1) % 2 ^ 15
    if s.poisonTable.length < 4096 then
      let s := { s with poisonEpoch := e, poisonTable := s.poisonTable ++ [PoisonEntry.mk (base / 256) (ceilDiv (base + len) 256 - base / 256) e] }
      s.setEntry 0x3030 5 s.poisonTable.length
    else ({ s with poisonWaits := s.poisonWaits ++ [(base, len)] }).bump 0x3030 6 1

/-! ### Error outcomes of a read (R293) -/

/-- An uncorrectable word is poisoned, counted, recorded and reported (R293). -/
def State.uncorrectableWord (s : State) (w : Nat) : State :=
  let m := s.mapAddress (32 * w)
  let s := s.poisonWord w
  let s := (s.bump (0x3040 + m.1) 9 1).setEntry (0x3040 + m.1) 0x0A (32 * w)
  s.raise 0xB0D2 0xFF MEM_UNCORRECTABLE (32 * w) (m.1 * 256 + m.2.1)

/-- A corrected word is counted and waits for its write-back (R293). -/
def State.correctedWord (s : State) (w : Nat) : State :=
  let m := s.mapAddress (32 * w)
  { s.bump (0x3040 + m.1) 8 1 with stackWriteBacks := s.stackWriteBacks ++ [w] }

/-- What the error code found on a read from an address: `word` counts the read's 32-byte words from its first. -/
def State.applyEcc (s : State) (a : Nat) : Ecc → State
  | .clean | .tagCopy => s
  | .corrected w => s.correctedWord (a / 32 + w)
  | .uncorrectable w => s.uncorrectableWord (a / 32 + w)

/-- The status of a read: an uncorrectable word outranks a poisoned one (R293). -/
def State.readStatus (s : State) (a n : Nat) (ecc : Ecc) : Nat :=
  match ecc with
  | .uncorrectable _ => MEM_UNCORRECTABLE
  | _ => if s.rangePoisoned a n then SLOT_POISON else OK

/-- Bytes read are counted against their stack (Table 13-5). -/
def State.countRead (s : State) (a n : Nat) : State := s.bump (0x3040 + (s.mapAddress a).1) 3 n

/-- Bytes written are counted against their stack (Table 13-5). -/
def State.countWrite (s : State) (a n : Nat) : State := s.bump (0x3040 + (s.mapAddress a).1) 4 n

/-! ### Local addresses and regions -/

/-- The node field of a global address (R10). -/
def nodeOf (g : Nat) : Nat := bits g 48 16

/-- The local part of a global address. -/
def localOf (g : Nat) : Nat := g % 2 ^ 48

/-- Whether a node number names this device (R10, R239). -/
def State.isSelf (s : State) (node : Nat) : Bool := node = 0xFFFF || node = s.entry 0x4010 1

/-- Whether `n` bytes at a local address lie in the visible stack range (R277). -/
def inStack (a n : Nat) : Bool := a + n ≤ visibleTop

/-- Whether two ranges share a byte. -/
def overlaps (a n b m : Nat) : Bool := a < b + m && b < a + n && 0 < n && 0 < m

/-- The memory regions of an image (R244). -/
def Image.memRegions (im : Image) : List Region := im.regions.filter fun r => r.space = 1

/-- Whether a byte range lies in the read-only image region of an admitted job (R215). -/
def State.inImage (s : State) (a n : Nat) : Bool :=
  jobSlots.any fun j =>
    let job := s.job j
    job.state ≠ .ready && (match job.image with | some im => overlaps a n job.imageBase im.length | none => false)

/-- Whether an admitted job holds a local memory region that overlaps a range (R296). -/
def State.regionHeld (s : State) (a n : Nat) : Bool :=
  jobSlots.any fun j =>
    let job := s.job j
    job.state ≠ .ready &&
      (match job.image with
       | some im => im.memRegions.any fun r => s.isSelf (nodeOf r.base) && overlaps a n (localOf r.base) r.size
       | none => false)

/-! ### Self-refresh (R297, R298) -/

/-- A request reaches a stack, which leaves self-refresh (R298). -/
def State.touchStack (s : State) (k : Nat) : State :=
  let s := s.setSorter k { s.sorter k with lastRequest := s.now }
  if s.entry (0x3040 + k) 1 = 1 then s.setEntry (0x3040 + k) 1 0 else s

/-- An access to stack memory reaches the stacks of its granules (R298). -/
def State.touchRange (s : State) (a n : Nat) : State :=
  if n = 0 then s
  else (((List.range ((a + n - 1) / 256 - a / 256 + 1)).map fun i => (s.mapAddress ((a / 256 + i) * 256)).1).eraseDups).foldl State.touchStack s

/-- An access of this device to a global address reaches the stacks where it names its own visible stack memory (R298). -/
def State.touchOwn (s : State) (g n : Nat) : State := if s.isSelf (nodeOf g) ∧ inStack (localOf g) n then s.touchRange (localOf g) n else s

/-- Every stack is out of self-refresh (R253, R291, R298). -/
def State.touchStacks (s : State) : State := (List.range 8).foldl State.touchStack s

/-! ### The request sorter (R283-R288) -/

/-- The granules that a request touches: address and length of each part (R283). -/
def granules (a n : Nat) : List (Nat × Nat) :=
  if n = 0 then []
  else (List.range ((a + n - 1) / 256 - a / 256 + 1)).map fun i =>
    let lo := max a ((a / 256 + i) * 256)
    (lo, min (a + n) ((a / 256 + i + 1) * 256) - lo)

/-- The entries that a source holds for a bank of a channel. -/
def Sorter.held (q : Sorter) (source channel bank : Nat) : Nat :=
  (q.entries.filter fun e => e.source = source && e.channel = channel && e.bank = bank).length

/-- The requests of a source in flight at a controller: those with entries and those in the input queue (R285). -/
def Sorter.inFlight (q : Sorter) (source : Nat) : Nat :=
  (((q.entries.filter fun e => e.source = source).map SorterEntry.request).eraseDups).length + (q.inputQueue.filter fun r => r.source = source).length

/-- The requests of a source in flight, counted at every controller (R285). -/
def State.inFlight (s : State) (source : Nat) : Nat := ((List.range 8).map fun k => (s.sorter k).inFlight source).foldl (fun a b => a + b) 0

/-- What a source may issue: 1 to 1,024 bytes within one aligned block of 1,024 (R283). -/
def requestInBlock (r : MemReq) : Bool :=
  decide (0 < r.length) && decide (r.length ≤ 1024) && decide (r.address / 1024 = (r.address + r.length - 1) / 1024)

/-- The parts of a request that lie in a controller's stack. -/
def State.partsAt (s : State) (k : Nat) (r : MemReq) : List (Nat × Nat) :=
  (granules r.address r.length).filter fun g => (s.mapAddress g.1).1 = k

/-- Whether the cap of R286 lets a request issue: every granule leaves the source at most 16 entries of its bank,
and no earlier request of the source that is held waits for one of its banks. -/
def State.capAllows (s : State) (k : Nat) (earlier : List MemReq) (r : MemReq) : Bool :=
  let q := s.sorter k
  (s.partsAt k r).all fun g =>
    let m := s.mapAddress g.1
    q.held r.source m.2.1 (bankOf m.2.2)
        + ((s.partsAt k r).filter fun g' => (s.mapAddress g'.1).2.1 = m.2.1 && bankOf (s.mapAddress g'.1).2.2 = bankOf m.2.2).length ≤ 16
    && !(earlier.any fun r' => r'.source = r.source &&
          (s.partsAt k r').any fun g' => (s.mapAddress g'.1).2.1 = m.2.1 && bankOf (s.mapAddress g'.1).2.2 = bankOf m.2.2)

/-- One granule access enters the sorter; a write merges with a pending write of its source to the same granule (R288).
A write is applied when accepted; a read holds what its words hold as it arrives. -/
def State.enterGranule (s : State) (k id : Nat) (r : MemReq) (g : Nat × Nat) : State :=
  let m := s.mapAddress g.1
  let q := s.sorter k
  let named : List Nat := (List.range g.2).map fun i => g.1 + i
  let pendingWrite := fun (e : SorterEntry) => e.source = r.source && e.write.isSome && e.address / 256 = g.1 / 256
  let merge (e : SorterEntry) : SorterEntry :=
    if pendingWrite e then { e with write := e.write.map fun l => l ++ named.filter fun a => !l.contains a } else e
  if r.write.isSome && q.entries.any pendingWrite then s.setSorter k { q with entries := q.entries.map merge }
  else
    let e : SorterEntry := { order := q.nextOrder, request := id, source := r.source, channel := m.2.1, bank := bankOf m.2.2, page := pageOf m.2.2
                             address := g.1, length := g.2, write := r.write.map fun _ => named
                             data := if r.write.isSome then [] else s.memBytes g.1 g.2
                             poisoned := if r.write.isSome then s.rangePoisoned (g.1 / 256 * 256) 256 else s.rangePoisoned g.1 g.2 }
    let q := { q with entries := q.entries ++ [e], nextOrder := q.nextOrder + 1 }
    (s.setSorter k q).setEntry (0x3040 + k) 7 (max (s.entry (0x3040 + k) 7) q.entries.length)

/-- Whether a request would write into the image of an admitted job (R215). -/
def State.writesImage (s : State) (r : MemReq) : Bool := r.write.any fun d => s.inImage r.address (max r.length d.length)

/-- A request that is refused: its source gets the code (R215, R277). -/
def State.refuseRequest (s : State) (r : MemReq) : State := s.emit (.memory r.source r.address ACCESS_PROTECT [])

/-- A request takes its sorter entries; an accepted write is durable from then on (R288). One that waited until its target became part of an
image is refused (R215). -/
def State.enterRequest (s : State) (k : Nat) (r : MemReq) : State :=
  if s.writesImage r then s.refuseRequest r
  else
    let parts := s.partsAt k r
    let id := (s.sorter k).nextOrder
    let s := parts.foldl (fun s g => s.enterGranule k id r g) s
    match r.write with
    | none => s
    | some d => parts.foldl (fun s g => s.memWrite g.1 (sliceBytes d (g.1 - r.address) g.2)) s

/-- A request takes free entries, or waits in the input queue (R285). -/
def State.placeRequest (s : State) (k : Nat) (r : MemReq) : State :=
  let q := s.sorter k
  if q.inputQueue.isEmpty && q.entries.length + (s.partsAt k r).length ≤ 256 then s.enterRequest k r
  else s.setSorter k { q with inputQueue := q.inputQueue ++ [r] }

/-- A request at a controller: the cap holds it, or it is placed (R285, R286). -/
def State.arriveRequest (s : State) (k : Nat) (r : MemReq) : State :=
  let q := s.sorter k
  if !s.capAllows k q.capped r then (s.setSorter k { q with capped := q.capped ++ [r] }).bump (0x3040 + k) 6 1
  else s.placeRequest k r

/-- The waiting requests take freed entries in the order in which they arrived (R285). -/
def State.drainQueue (s : State) (k : Nat) : List MemReq → State
  | [] => s.setSorter k { s.sorter k with inputQueue := [] }
  | r :: rest =>
    if (s.sorter k).entries.length + (s.partsAt k r).length ≤ 256 then (s.enterRequest k r).drainQueue k rest
    else s.setSorter k { s.sorter k with inputQueue := r :: rest }

/-- Requests that the cap held issue as soon as it lets them; those still held stay in their order, and block no other bank (R286). -/
def State.drainCapped (s : State) (k : Nat) (kept : List MemReq) : List MemReq → State
  | [] => s.setSorter k { s.sorter k with capped := kept }
  | r :: rest =>
    if s.capAllows k kept r && s.inFlight r.source < 48 then (s.placeRequest k r).drainCapped k kept rest
    else s.drainCapped k (kept ++ [r]) rest

/-- Freed entries go to the waiting requests; then requests that the cap held may issue (R285, R286). -/
def State.drainSorter (s : State) (k : Nat) : State :=
  let s := s.drainQueue k (s.sorter k).inputQueue
  s.drainCapped k [] (s.sorter k).capped

/-- The entry of the least arrival order. -/
def oldestEntry (l : List SorterEntry) : Option SorterEntry :=
  l.foldl (fun m e => match m with | none => some e | some x => if e.order < x.order then some e else some x) none

/-- The entry that a bank serves next, by the aging, open-page and oldest rules of R287. -/
def Sorter.nextOf (q : Sorter) (channel bank : Nat) : Option SorterEntry :=
  let es := q.entries.filter fun e => e.channel = channel && e.bank = bank
  match oldestEntry (es.filter fun e => 32 ≤ e.passed) with
  | some e => some e
  | none =>
    match oldestEntry (es.filter fun e => Tab.get? q.openPage (32 * channel + bank) = some e.page) with
    | some e => some e
    | none => oldestEntry es

/-- The 32-byte words that a write names only in part (R283). -/
def partialWords (named : List Nat) : List Nat :=
  ((named.map fun a => a / 32).eraseDups).filter fun w => !((List.range 32).all fun i => named.contains (32 * w + i))

/-- The entry leaves the sorter: its page is open, and older entries of its bank were passed once more (R287). -/
def Sorter.serve (q : Sorter) (e : SorterEntry) : Sorter :=
  { q with
    openPage := Tab.put q.openPage (32 * e.channel + e.bank) e.page
    entries := (q.entries.filter fun x => x.order ≠ e.order).map fun x =>
      if x.channel = e.channel && x.bank = e.bank && x.order < e.order then { x with passed := x.passed + 1 } else x }

end Sys2Proof.Machine
end

