-- ==== Sys2Proof/Machine/Residue.lean ====
section
/-! DEFINITION. Modulus words, residue arithmetic, the NTT, base conversion and rescale: what the residue units compute (R61-R64, R84-R107). -/

namespace Sys2Proof.Machine

/-! ### Modulus words (R61, R62) -/

/-- Exponent W of a modulus word. -/
def wordW (w : Nat) : Nat := bits w 8 6

/-- Exponent S of a modulus word. -/
def wordS (w : Nat) : Nat := bits w 0 6

/-- The modulus of a word: FORM 0 is 2^W - 2^S + 1, FORM 1 is 2^W + 2^S + 1 (Table 3-2). -/
def modulusOf (w : Nat) : Nat :=
  if bit w 15 then 2 ^ wordW w + 2 ^ wordS w + 1 else 2 ^ wordW w - 2 ^ wordS w + 1

/-- The form and NTT conditions of R62 for a ring dimension of 2^logN. -/
def wordValid (w logN : Nat) : Bool :=
  !bit w 14 && bits w 6 2 = 0 && 30 ≤ wordW w && (if bit w 15 then wordW w ≤ 35 else wordW w ≤ 36)
    && 18 ≤ wordS w && wordS w ≤ wordW w - 2 && (modulusOf w - 1) % (2 * 2 ^ logN) = 0

/-- `⌊256 x log2 q⌋`, LOG2Q in units of 1/256 (R64): the 256th power's binary logarithm. -/
def log2Floor (q : Nat) : Nat := Nat.log2 (q ^ 256)

/-- `⌈256 x log2 t⌉` (R64, Table 3-5). -/
def log2Ceil (t : Nat) : Nat := if 2 ^ Nat.log2 (t ^ 256) = t ^ 256 then Nat.log2 (t ^ 256) else Nat.log2 (t ^ 256) + 1

/-! ### Reduction (R85, R89) -/

/-- The fold of R89, at most `fuel` passes and subtractions. -/
def foldReduce (form w s : Nat) (q : Int) : Nat → Int → Int
  | 0, x => x
  | fuel + 1, x =>
    if 2 ^ (w + 1) ≤ x ∨ x < 0 then
      let h := x / 2 ^ w
      let l := x - h * 2 ^ w
      foldReduce form w s q fuel (if form = 0 then l + h * 2 ^ s - h else l - h * 2 ^ s - h)
    else if q ≤ x then foldReduce form w s q fuel (x - q)
    else x

/-- The canonical residue of an integer, which is what R89's procedure returns. -/
def reduceInt (q : Nat) (x : Int) : Nat := (x % (q : Int)).toNat

/-- `a - b` modulo q. -/
def subMod (q a b : Nat) : Nat := (a % q + (q - b % q)) % q

/-- `b ^ e` modulo q by squaring; `fuel` bounds the bits of the exponent. -/
def powModAux (q : Nat) : Nat → Nat → Nat → Nat → Nat
  | 0, _, _, acc => acc
  | fuel + 1, b, e, acc =>
    if e = 0 then acc else powModAux q fuel (b * b % q) (e / 2) (if e % 2 = 1 then acc * b % q else acc)

/-- `b ^ e mod q`. -/
def powMod (q b e : Nat) : Nat := powModAux q (Nat.log2 e + 1) (b % q) e (1 % q)

/-- The inverse as the exponentiation to the power q - 2 (R88, R101). -/
def invMod (q a : Nat) : Nat := powMod q a (q - 2)

/-! ### Modulus registers (R87, R88) -/

/-- The ring dimension of a set: N, or the GLWE N of a gate set. -/
def ParamSet.n (p : ParamSet) : Nat := 2 ^ p.logN

/-- The modulus of a limb index: q_0 to q_{L-1}, then p_0 to p_{K-1} (Table 4-1). -/
def ParamSet.q (p : ParamSet) (i : Nat) : Nat := modulusOf (p.moduli.getD i 0)

/-- What QLOAD writes (Table 4-1, R88). -/
def ParamSet.modReg (p : ParamSet) (limb : Nat) : ModReg where
  valid := true
  limb := limb
  setId := p.setId
  ninv := powMod (p.q limb) p.n (p.q limb - 2)
  qval := p.q limb
  word := p.moduli.getD limb 0

/-- The 128 bits of Table 4-1. -/
def ModReg.toNat (m : ModReg) : Nat :=
  m.word + m.qval * 2 ^ 16 + m.ninv * 2 ^ 72 + m.setId * 2 ^ 112 + m.limb * 2 ^ 120 + (if m.valid then 2 ^ 127 else 0)

/-! ### Lane-wise operations (R90-R92) -/

/-- Lanes 0 to 1,023 computed one by one. -/
def rowMap (f : Nat → Nat) : Row := (List.range 1024).map f

/-- A row's lane; a lane beyond the list reads as zero. -/
def Row.lane (r : Row) (i : Nat) : Nat := List.getD r i 0

/-! ### NTT (R94-R96) -/

/-- Whether x passes the test of R95. -/
def nonResidue (q x : Nat) : Bool := powMod q x ((q - 1) / 2) = q - 1

/-- The smallest integer from x on that passes the test of R95, else 2. -/
def findNonResidue (q : Nat) : Nat → Nat → Nat
  | 0, _ => 2
  | fuel + 1, x => if nonResidue q x then x else findNonResidue q fuel (x + 1)

/-- The root psi for (q, N) (R95). -/
def rootOf (q n : Nat) : Nat := powMod q (findNonResidue q 65535 2) ((q - 1) / (2 * n))

/-- Bit reversal of `k` bits. -/
def brv : Nat → Nat → Nat
  | 0, _ => 0
  | k + 1, j => (j % 2) * 2 ^ k + brv k (j / 2)

/-- A polynomial evaluated at z. -/
def evalPoly (q z : Nat) (a : List Nat) : Nat := a.foldr (fun c acc => (c + z * acc) % q) 0

/-- Evaluation position j of the forward transform: a(psi^(2 brv(j) + 1)) (R94). -/
def nttForward (q psi logN : Nat) (a : List Nat) : List Nat :=
  (List.range (2 ^ logN)).map fun j => evalPoly q (powMod q psi (2 * brv logN j + 1)) a

/-- The inverse transform: coefficient i is N^(-1) times the sum of A_j psi^(-(2 brv(j) + 1) i),
where psi^(-e) is the stored power psi^(2N - e) (R94, R97). -/
def nttInverse (q psi ninv logN : Nat) (a : List Nat) : List Nat :=
  let n := 2 ^ logN
  (List.range n).map fun i =>
    let terms := (List.range n).map fun j =>
      let e := (2 * brv logN j + 1) * i % (2 * n)
      a.getD j 0 * powMod q psi ((2 * n - e) % (2 * n))
    terms.foldl (fun s x => (s + x) % q) 0 * ninv % q

/-! ### Base conversion and rescale (R99-R105) -/

/-- The product of a list of moduli. -/
def prodOf (l : List Nat) : Nat := l.foldl (· * ·) 1

/-- `c_i = (A / a_i)^(-1) mod a_i` (R100, R101). -/
def convC (src : List Nat) (i : Nat) : Nat :=
  let a := src.getD i 1
  invMod a ((prodOf src / a) % a)

/-- The base conversion of one coefficient's residues to a target modulus b (R100). -/
def baseConvert (src : List Nat) (b : Nat) (xs : List Nat) : Nat :=
  ((List.range src.length).map fun i =>
    let a := src.getD i 1
    (xs.getD i 0 % a * convC src i % a) * ((prodOf src / a) % b)).foldl (· + ·) 0 % b

/-- The centred value of a residue r modulo q (R103). -/
def centred (q r : Nat) : Int := if r ≤ (q - 1) / 2 then (r : Int) else (r : Int) - q

/-- The rescale of one residue x_i: the removed residue r under ql (R103). -/
def rescaleLane (qi ql x r : Nat) : Nat :=
  reduceInt qi ((reduceInt qi ((x : Int) - centred ql (r % ql)) : Int) * invMod qi (ql % qi))

/-- The extended Euclidean inverse of a modulo t, 0 where none exists (R104). -/
def euclidAux : Nat → Int → Int → Int → Int → Int × Int
  | 0, r0, _, s0, _ => (r0, s0)
  | fuel + 1, r0, r1, s0, s1 => if r1 = 0 then (r0, s0) else euclidAux fuel r1 (r0 - r0 / r1 * r1) s1 (s0 - r0 / r1 * s1)

/-- `a^(-1) mod t`, 0 where none exists. -/
def euclidInv (a t : Nat) : Nat :=
  let g := euclidAux (4 * Nat.log2 t + 8) (a % t) t 1 0
  if g.1 = 1 then reduceInt t g.2 else 0

/-- centred_t of R104: t/2 stays positive. -/
def centredT (t v : Nat) : Int := if 2 * v ≤ t then (v : Int) else (v : Int) - t

/-- The correction delta of the modulus switch (R104). -/
def switchDelta (ql t r : Nat) : Int :=
  let c := centred ql (r % ql)
  c + ql * centredT t (reduceInt t ((reduceInt t (-c) : Int) * euclidInv (ql % t) t))

/-- The modulus switch of one residue x_i (R104). -/
def modSwitchLane (qi ql t x r : Nat) : Nat :=
  reduceInt qi ((reduceInt qi ((x : Int) - switchDelta ql t r) : Int) * invMod qi (ql % qi))

/-- The mod-down of one residue: xs are the residues under the special moduli ps (R105). -/
def modDownLane (qi : Nat) (ps xs : List Nat) (x : Nat) : Nat :=
  subMod qi x (baseConvert ps qi xs) * invMod qi (prodOf ps % qi) % qi

/-! ### The constant block (R101, R102; log entry 14) -/

/-- A constant of a set's base conversions: `c_i` and `d_ib` of a source group of `m` limbs from `first` on (R100),
the inverse of q_(l-1) under q_i (R103), q_(l-1)^(-1) mod t (R104), P^(-1) under q_i (R105). -/
inductive ConstKey where
  | pre (first m i : Nat)
  | term (first m i b : Nat)
  | rescale (l i : Nat)
  | plain (l : Nat)
  | modDown (i : Nat)
deriving DecidableEq, Repr, Inhabited

/-- The digits of mod-up at every level: first limb and size, with alpha of every key level and DNUM digits (R101, Table 8-3). -/
def ParamSet.digitGroups (p : ParamSet) : List (Nat × Nat) :=
  ((List.range p.limbs).flatMap fun n =>
    let alpha := ceilDiv (n + 1) p.dnum
    (List.range p.dnum).flatMap fun j => (List.range (min alpha (n + 1 - j * alpha))).map fun k => (j * alpha, k + 1)).eraseDups

/-- The constants of one conversion from `m` limbs at `first` to the target limbs (R100). -/
def convKeys (first m : Nat) (targets : List Nat) : List ConstKey :=
  ((List.range m).map fun i => .pre first m i) ++ (List.range m).flatMap fun i => targets.map fun b => .term first m i b

/-- Every constant of a packed set's block, in the model's order (R101). -/
def ParamSet.constKeys (p : ParamSet) : List ConstKey :=
  if p.family ≠ 0 then []
  else
    let specials := (List.range p.special).map fun i => p.limbs + i
    ((List.range p.limbs).flatMap fun l =>
        ((List.range (l - 1)).map fun i => .rescale l i) ++ (if p.encoding = 1 then [.plain l] else []))
      ++ ((List.range (p.limbs - 1)).map fun i => .rescale p.limbs i) ++ (if p.encoding = 1 then [.plain p.limbs] else [])
      ++ p.digitGroups.flatMap (fun g => convKeys g.1 g.2 (((List.range p.limbs).filter fun i => i < g.1 || g.1 + g.2 ≤ i) ++ specials))
      ++ convKeys p.limbs p.special (List.range p.limbs) ++ (List.range p.limbs).map fun i => .modDown i

/-- The value of a constant (R100, R101, R103-R105). -/
def ParamSet.constValue (p : ParamSet) : ConstKey → Nat
  | .pre first m i => convC ((List.range m).map fun a => p.q (first + a)) i
  | .term first m i b => (prodOf ((List.range m).map fun a => p.q (first + a)) / p.q (first + i)) % p.q b
  | .rescale l i => invMod (p.q i) (p.q (l - 1) % p.q i)
  | .plain l => euclidInv (p.q (l - 1) % p.plainModulus) p.plainModulus
  | .modDown i => invMod (p.q i) (prodOf ((List.range p.special).map fun a => p.q (p.limbs + a)) % p.q i)

/-- The lines of 512 constants that hold some constants, named with their set (R102). -/
def ParamSet.linesOf (p : ParamSet) (keys : List ConstKey) : List Nat :=
  ((p.constKeys.zipIdx.filter fun k => keys.contains k.1).map fun k => 1024 * p.setId + k.2 / 512).eraseDups

/-! ### Busy cycles (R98, R106) -/

/-- The occupancy of a base conversion of N coefficients from m to n moduli (R106). -/
def bconvCycles (nCoef m n : Nat) : Nat := ceilDiv (nCoef * m) 2048 + ceilDiv (nCoef * n * ceilDiv m 8) 256

/-- The busy cycles of one limb of one component (R98, Table 4-6). -/
def nttCycles (logN : Nat) : Nat := if logN = 9 then 9 else 2 ^ logN / 1024 * logN

end Sys2Proof.Machine
end

