-- ==== Sys2Proof/Machine/Scratch.lean ====
section
/-! DEFINITION. The scratchpad of a tile: rows, tags, coverage, errors, banks, the narrow view; stall counters and waking (R226, R259-R274, R350, R411). -/

namespace Sys2Proof.Machine

/-! ### Stall counters (R411) -/

/-- The causes of Table 19-5. -/
abbrev causeTag : Nat := 0
abbrev causeScoreboard : Nat := 1
abbrev causeKeyStream : Nat := 2
abbrev causeGuarantee : Nat := 3
abbrev causeEcc : Nat := 4
abbrev causeIcache : Nat := 5
abbrev causeBarrier : Nat := 6
abbrev causePower : Nat := 7
abbrev causeFabric : Nat := 8
abbrev causeTrap : Nat := 9

/-- Whether a trap's restore and replay are under way in the tile's job (R80). -/
def State.replaying (s : State) (t : Nat) : Bool := (s.jobOfTile t).any fun j => (s.job j).replayed

/-- Cycles counted by engine `e` of a tile against a cause; 48 bits, saturating;
during a trap's replay the sequencer counts LEDGER_TRAP alone (R80, R411, Table 19-8). -/
def State.stall (s : State) (t e cause n : Nat) : State :=
  if e = 0 ∧ cause ≠ causeTrap ∧ s.replaying t then s
  else s.setEntry (0x8100 + t) (10 * e + cause + 1) (satAdd (2 ^ 48 - 1) (s.entry (0x8100 + t) (10 * e + cause + 1)) n)

/-- Nanoseconds counted by Geyser against a cause (R411). -/
def State.geyserStall (s : State) (cause n : Nat) : State :=
  s.setEntry 0x8180 (cause + 1) (satAdd (2 ^ 48 - 1) (s.entry 0x8180 (cause + 1)) n)

/-- Nanoseconds as cycles of an operating point, in hundredths of a GHz: P0 1.05, P1 0.90, P2 0.75, P3 0.525 (Table 16-1). -/
def cyclesAt (point ns : Nat) : Nat :=
  match point with
  | 0 => ns * 1050 / 1000
  | 1 => ns * 900 / 1000
  | 2 => ns * 750 / 1000
  | _ => ns * 525 / 1000

/-! ### Waits that are counted by time: barriers and holds of the ledger (R236, R351, R355) -/

/-- A tile's wait is counted up to now, in cycles of its point; the cycles that an ECC freeze counted are left out (R213). -/
def State.settleWait (s : State) (t : Nat) : State :=
  let x := s.tile t
  if x.waitCause = 255 then s
  else
    (s.stall t 0 x.waitCause (cyclesAt (s.entry (0xA0C0 + t) 2) (s.now - x.waitAt) - x.frozen)).updTile t fun x =>
      { x with waitAt := max x.waitAt s.now, frozen := 0 }

/-- A tile begins to wait for a cause. -/
def State.startWait (s : State) (t cause : Nat) : State :=
  (s.settleWait t).updTile t fun x => { x with waitCause := cause, waitAt := max x.waitAt s.now }

/-- A tile's wait ends. -/
def State.endWait (s : State) (t : Nat) : State := (s.settleWait t).updTile t fun x => { x with waitCause := 255 }

/-- A replay is counted as LEDGER_TRAP up to now, in every tile that has not halted (R80, R411). -/
def State.countReplay (s : State) (j : Nat) : State :=
  let x := s.job j
  if x.replayed then
    let n (t : Nat) : Nat := if (s.tile t).run = .halted then 0 else cyclesAt (s.entry (0xA0C0 + t) 2) (s.now - x.trapAt)
    (x.group.foldl (fun s t => s.stall t 0 causeTrap (n t)) s).updJob j fun x => { x with trapAt := s.now }
  else s

/-- The waits of a job's tiles and its replay are counted up to now. -/
def State.settleJob (s : State) (j : Nat) : State := ((s.job j).group.foldl (fun s t => s.settleWait t) s).countReplay j

/-! ### Tile power state (R347, R350) -/

/-- The tile is back in T0: its time in T2 or T3 is counted (Table 16-5). -/
def State.wakeTile (s : State) (t : Nat) : State :=
  let st := s.tileState t
  if st = 1 ∨ st = 2 ∨ st = 3 then
    let s := if st = 1 then s else s.bump (0xA0C0 + t) 4 (s.now - (s.tile t).sleepAt)
    (s.updTile t fun x => { x with wakeAt := none }).setEntry (0xA0C0 + t) 1 0
  else s

/-! ### Regions of a tile's job (R244) -/

/-- The scratchpad region of the tile's job that declares row `r`. -/
def State.rowRegion (s : State) (t r : Nat) : Option Region :=
  match s.jobOfTile t with
  | none => none
  | some j =>
    match (s.job j).image with
    | none => none
    | some im => im.regions.find? fun g => g.space = 0 && g.base ≤ r && r < g.base + g.size

/-- The kinds of Table 11-4. -/
abbrev kindKey : Nat := 1
abbrev kindWeight : Nat := 2

def State.isKeyRow (s : State) (t r : Nat) : Bool := (s.rowRegion t r).any fun g => g.kind = kindKey
def State.isProtectedRow (s : State) (t r : Nat) : Bool := (s.rowRegion t r).any fun g => g.kind = kindKey || g.kind = kindWeight
def State.isGuaranteed (s : State) (t r : Nat) : Bool := (s.rowRegion t r).any fun g => bit g.flags 0
def State.isDeclared (s : State) (t r : Nat) : Bool := (s.rowRegion t r).isSome

/-! ### Rows and tags (R226, R259) -/

/-- The contents of a row; unwritten rows hold unspecified contents (R259, log entry 2). -/
def State.rowData (s : State) (t r : Nat) : Row :=
  match Tab.get? (s.tile t).rows r with
  | some x => x
  | none => rowMap fun l => (Config.rowContents (Tab.get (s.tile t).bankEpochs 0 (r / 128)) t r l).toNat

/-- The tag of a row; after power-on it reads POISON (R274). -/
def State.tag (s : State) (t r : Nat) : Tag := Tab.get (s.tile t).tags .poison r

/-- A row's 36-bit lanes replaced. -/
def State.setRow (s : State) (t r : Nat) (d : Row) : State :=
  s.updTile t fun x => { x with rows := Tab.put x.rows r (rowMap fun l => Row.lane d l % 2 ^ 36) }

/-- A row's tag replaced; a row that becomes EMPTY starts a new coverage map (R263). -/
def State.setTag (s : State) (t r : Nat) (g : Tag) : State :=
  s.updTile t fun x => { x with tags := Tab.put x.tags r g, coverage := Tab.erase x.coverage r }

/-- Rows of a range marked POISON. -/
def State.poisonRows (s : State) (t first count : Nat) : State :=
  (List.range count).foldl (fun s i => s.setTag t (first + i) .poison) s

/-- Rows of a range with one tag. -/
def State.tagRows (s : State) (t first count : Nat) (g : Tag) : State :=
  (List.range count).foldl (fun s i => s.setTag t (first + i) g) s

/-- A row whose write is complete: a protected row turns FULL only after its verify read (R227, R272). -/
def State.completeRow (s : State) (t r : Nat) : State :=
  if s.isProtectedRow t r then s.updTile t fun x => { x with verifyDue := if x.verifyDue.contains r then x.verifyDue else x.verifyDue ++ [r] } else s.setTag t r .full

/-- Whether the bank of a row is powered (R274). -/
def State.bankOn (s : State) (t r : Nat) : Bool := bit (s.tile t).banks (r / 128)

/-! ### Error outcomes of a row read (R269, R270) -/

/-- Row and word of an error are recorded (Table 12-5). -/
def State.noteRowError (s : State) (t r w : Nat) : State :=
  (s.setEntry (0x3440 + t) 4 r).setEntry (0x3440 + t) 5 w

/-- A corrected word: counted, and due for a write-back (R269). -/
def State.correctedRow (s : State) (t r w : Nat) : State :=
  let s := ((s.noteRowError t r w).bump (0x3440 + t) 2 1).bump 0x3420 1 1
  s.updTile t fun x => { x with writeBacks := if x.writeBacks.contains (r, w) then x.writeBacks else x.writeBacks ++ [(r, w)] }

/-- An uncorrectable word: its row becomes POISON and it is counted (R270). -/
def State.uncorrectableRow (s : State) (t r w : Nat) : State :=
  (((s.noteRowError t r w).bump (0x3440 + t) 3 1).bump 0x3420 2 1).setTag t r .poison

/-- What the error code found on a read of a row (R269, R270); a copy of its tag that disagreed is rewritten and counted (R260). -/
def State.rowEcc (s : State) (t r : Nat) : Ecc → State
  | .clean => s
  | .corrected w => s.correctedRow t r w
  | .uncorrectable w => s.uncorrectableRow t r w
  | .tagCopy => s.bump 0x3420 7 1

/-- A read for the tile's own pipelines and engines: a corrected error freezes it for 3 cycles (R213, R269). -/
def State.ownRowEcc (s : State) (t r : Nat) (ecc : Ecc) : State :=
  let s := s.rowEcc t r ecc
  match ecc with
  | .corrected _ => s.updTile t fun x => { x with freeze := x.freeze + 3 }
  | _ => s

/-- A write cancels the pending write-backs of the words it covers (R268). -/
def State.cancelWriteBack (s : State) (t r : Nat) (covers : Nat → Bool) : State :=
  s.updTile t fun x => { x with writeBacks := x.writeBacks.filter fun p => !(p.1 = r && covers p.2) }

/-- A whole row written: contents and cancelled write-backs (R261, R268). -/
def State.writeRow (s : State) (t r : Nat) (d : Row) : State := (s.setRow t r d).cancelWriteBack t r fun _ => true

/-! ### The window (R262-R264) -/

/-- The tile of a window address. -/
def windowTile (a : Nat) : Nat := (a - 0x800000000000) / 0x10000000

/-- The offset of a window address in its window. -/
def windowOffset (a : Nat) : Nat := (a - 0x800000000000) % 0x10000000

/-- Whether a local address lies in some tile's window (R262). -/
def isWindow (a : Nat) : Bool := 0x800000000000 ≤ a && a < 0x800000000000 + 64 * 0x10000000

/-- The served bytes of a window (R262). -/
def windowServed : Nat := 14155776

/-- The rows that `n` bytes of a window from an offset touch. -/
def rowsOf (x n : Nat) : List Nat :=
  if n = 0 then [] else (List.range ((x + n - 1) / 4608 - x / 4608 + 1)).map fun i => x / 4608 + i

/-- The bytes of a row as the window shows them (R123, R262). -/
def State.rowImage (s : State) (t r : Nat) : List Byte := rowBytes (s.rowData t r)

/-- `n` bytes of a tile's window (R264). -/
def State.windowBytes (s : State) (t x n : Nat) : List Byte :=
  (rowsOf x n).flatMap fun r =>
    let lo := max x (r * 4608)
    sliceBytes (s.rowImage t r) (lo - r * 4608) (min (x + n) ((r + 1) * 4608) - lo)

/-- Words of a row written from window bytes, with the coverage map (R263). -/
def State.windowPutRow (s : State) (t x : Nat) (d : List Byte) (r : Nat) : State :=
  let lo := max x (r * 4608)
  let hi := min (x + d.length) ((r + 1) * 4608)
  let old := s.rowImage t r
  let new := old.take (lo - r * 4608) ++ sliceBytes d (lo - x) (hi - lo) ++ old.drop (hi - r * 4608)
  let w0 := (lo - r * 4608) / 18
  let words := (List.range ((hi - lo) / 18)).map fun i => w0 + i
  let s := (s.setRow t r (bytesRow new)).cancelWriteBack t r words.contains
  let seen := Tab.get (s.tile t).coverage [] r
  let seen := seen ++ words.filter fun w => !seen.contains w
  let s := s.updTile t fun y => { y with coverage := Tab.put y.coverage r seen }
  if seen.length = 256 then s.completeRow t r else s

/-- A PUT to the window performed row by row (R263). -/
def State.windowPut (s : State) (t x : Nat) (d : List Byte) : State :=
  (rowsOf x d.length).foldl (fun s r => s.windowPutRow t x d r) s

/-! ### The narrow view (R265, R266) -/

/-- A coefficient of a row. -/
def State.coefficient (s : State) (t c : Nat) : Nat := Row.lane (s.rowData t (c / 1024)) (c % 1024)

/-- A coefficient written; the tag keeps (R265). -/
def State.putCoefficient (s : State) (t c v : Nat) : State :=
  let d := s.rowData t (c / 1024)
  (s.setRow t (c / 1024) (rowMap fun l => if l = c % 1024 then v % 2 ^ 36 else Row.lane d l)).cancelWriteBack t (c / 1024)
    fun w => w = c % 1024 / 4

/-- The code of a tag (R226). -/
def Tag.code : Tag → Nat
  | .empty => 0
  | .full => 1
  | .poison => 2

/-- The tile and coefficient that NarrowAddress names (Table 12-5). -/
def State.narrowTile (s : State) : Nat := bits (s.entry 0x3480 1) 56 8
def State.narrowIndex (s : State) : Nat := bits (s.entry 0x3480 1) 0 22

/-- Why a narrow access through NarrowData is refused: fused-off tile, T4, powered-off bank, KEY region (R265, R266, R350). -/
def State.narrowRefusal (s : State) : Option Nat :=
  let t := s.narrowTile
  if !s.tileEnabled t then some UNIT_ABSENT
  else if s.tileState t = 4 then some STATE_CONFLICT
  else if !s.bankOn t (s.narrowIndex / 1024) then some STATE_CONFLICT
  else if s.isKeyRow t (s.narrowIndex / 1024) then some ACCESS_PROTECT
  else none

/-- The tag and the outcome of a narrow access are recorded (Table 12-5). -/
def State.noteNarrow (s : State) (code : Nat) (g : Tag) : State :=
  (s.setEntry 0x3480 3 g.code).setEntry 0x3480 4 code

/-- What NarrowStatus holds after a narrow access that its read of the word lets end so (R265, R266). -/
def narrowOutcome : Ecc → Nat
  | .uncorrectable _ => MEM_UNCORRECTABLE
  | _ => OK

/-- The read through NarrowData: status, value, next state. -/
def State.narrowReadOp (s : State) (ecc : Ecc) : Nat × Nat × State :=
  match s.narrowRefusal with
  | some c => (c, 2 ^ 64 - 1, s)
  | none =>
    let t := s.narrowTile
    let c := s.narrowIndex
    let s := s.wakeTile t
    let g := s.tag t (c / 1024)
    let v := s.coefficient t c
    (OK, v, (s.rowEcc t (c / 1024) ecc).noteNarrow (narrowOutcome ecc) g)

/-- The write through NarrowData: status, next state (R265). -/
def State.narrowWriteOp (s : State) (v : Nat) (ecc : Ecc) : Nat × State :=
  match s.narrowRefusal with
  | some c => (c, s)
  | none =>
    let t := s.narrowTile
    let c := s.narrowIndex
    let s := s.wakeTile t
    let g := s.tag t (c / 1024)
    let s := s.rowEcc t (c / 1024) ecc
    (OK, (if narrowOutcome ecc = OK then s.putCoefficient t c v else s).noteNarrow (narrowOutcome ecc) g)

/-! ### RowTagClear (R271) -/

/-- The checks of RowTagClear in their own order, and its effect on POISON rows; a tile in T4 refuses it (R271, R350). -/
def State.rowTagClearOp (s : State) (v : Nat) : Nat × State :=
  let t := bits v 24 8
  let first := bits v 12 12
  let count := bits v 0 12
  if 64 ≤ t then (VALUE_RANGE, s)
  else if !s.tileEnabled t then (UNIT_ABSENT, s)
  else if count = 0 ∨ 3072 < count ∨ 3072 < first + count then (VALUE_RANGE, s)
  else if (s.jobOfTile t).any (fun j => (s.job j).active) ∨ s.tileState t = 4 then (STATE_CONFLICT, s)
  else (OK, (List.range count).foldl (fun s i => if s.tag t (first + i) = .poison then s.setTag t (first + i) .empty else s) s)

/-! ### Bank power (R274) -/

/-- The banks that a set of scratchpad regions needs, as a map. -/
def banksFor (regions : List Region) : Nat :=
  (List.range 24).foldl (fun m b =>
    if regions.any (fun g => g.space = 0 && overlaps g.base g.size (b * 128) 128) then m + 2 ^ b else m) 0

/-- The banks of a tile are set: a bank newly on holds unspecified rows and POISON tags; a bank off holds nothing (R259, R274). -/
def State.setBanks (s : State) (t banks : Nat) : State :=
  s.updTile t fun x =>
    let keep (r : Nat) : Bool := bit banks (r / 128) && bit x.banks (r / 128)
    let on := (List.range 24).filter fun b => bit banks b && !bit x.banks b
    { x with banks := banks
             bankEpochs := on.foldl (fun e b => Tab.put e b (Tab.get e 0 b + 1)) x.bankEpochs
             rows := x.rows.filter fun p => keep p.1
             tags := x.tags.filter fun p => keep p.1
             coverage := x.coverage.filter fun p => keep p.1
             writeBacks := x.writeBacks.filter fun p => keep p.1
             verifyDue := x.verifyDue.filter fun r => keep r
             scrubbed := x.scrubbed.filter fun p => keep p.1 }

end Sys2Proof.Machine
end

