-- ==== Sys2Proof/Machine/Abort.lean ====
section
/-! DEFINITION. How a job ends by a fault: entry to DRAINING, the first fault kept, the FAULT trigger (R255, R392, R396, R403). -/

namespace Sys2Proof.Machine

/-- The SOURCES bits of the triggers (Table 19-1). -/
abbrev srcImmediate : Nat := 0
abbrev srcTimed : Nat := 1
abbrev srcFault : Nat := 2
abbrev srcRemote : Nat := 3
abbrev srcStop : Nat := 4
abbrev srcManagement : Nat := 5

/-- A latch tick is set, LATE where its time has passed; while UPDATING triggers are dropped and counted (R403). -/
def State.addTick (s : State) (k : LatchTick) : State :=
  if s.entry 0x1100 1 = 7 then s.bump 0x8010 7 1
  else
    let k := { k with accepted := s.fabricTime, late := k.timed && k.time < s.fabricTime }
    { s with ticks := s.ticks ++ [k] }

/-- The FAULT trigger of a job's first fault (R403). -/
def State.faultTick (s : State) (j : Nat) : State :=
  if s.entry 0x8010 4 = 1 then
    s.addTick { time := s.fabricTime, source := srcFault, timed := false, job := j, origin := s.entry 0x4010 1 }
  else s

/-- A job moves to DRAINING as aborted, with its first fault; a later fault is counted and replaces the record only where
it comes in the same cycle from a lower-numbered tile (R255, R396). -/
def State.abortJob (s : State) (j code tile bundle : Nat) : State :=
  let x := s.job j
  if x.state = .running ∨ (x.state = .draining ∧ x.drain = .commit) then
    (((s.settleJob j).updJob j fun x =>
      { x with state := .draining, drain := .abort, abortCode := code, abortTile := tile, abortBundle := bundle, drainedAt := s.now, trapPending := none
               replayed := false, commits := x.commits.filter fun c => c.validWritten })).faultTick j
  else if x.state = .draining ∧ x.drain = .abort then
    let s := s.bump 0xB190 9 1
    if x.drainedAt = s.now ∧ tile < x.abortTile then
      s.setJob j { x with abortCode := code, abortTile := tile, abortBundle := bundle }
    else s
  else s

/-- A fault of a tile: the job that holds the tile ends, and the tile's record is written (R211, R410). -/
def State.faultTile (s : State) (t : Nat) (r : FaultRecord) : State :=
  match s.jobOfTile t with
  | none => s
  | some j => (s.updTile t fun x => { x with record := r }).abortJob j r.code t r.bundle

/-- A fault of a long operation of a tile, by its bundle and long-operation index (R211, Table 19-6). -/
def State.faultLop (s : State) (t code : Nat) (op : LopInst) (target kind : Nat) : State :=
  s.faultTile t { ready := 0, count := op.count, bundle := op.bundle, code := code, target := target, slot := 4, targetKind := kind }

/-- A ledger error of a job: SLOT_POISON, LEDGER_ASH or PARAM_MISMATCH (Table 3-8). -/
def State.noteLedgerError (s : State) (j code handle : Nat) : State :=
  if code ≠ SLOT_POISON ∧ code ≠ LEDGER_ASH ∧ code ≠ PARAM_MISMATCH then s else
  let s := (s.setEntry (0x2200 + j) 6 code).setEntry (0x2200 + j) 7 handle
  if code = PARAM_MISMATCH then s.bump 0x2300 2 1
  else if code = LEDGER_ASH then s.bump 0x2300 4 1
  else s

end Sys2Proof.Machine
end

