-- ==== Sys2Proof/Machine/Ledger.lean ====
section
/-! DEFINITION. Parameter-set records and the arithmetic of ledger steps (R60-R67, R74, R75). -/

namespace Sys2Proof.Machine

/-! ### Parameter-set records (R65, Table 3-3) -/

/-- The record as its bytes declare it, before any check. -/
def readSet (r : List Byte) : ParamSet :=
  let b (o : Nat) : Nat := leNat (sliceBytes r o 1)
  let h (o : Nat) : Nat := leNat (sliceBytes r o 2)
  let words := b 5 + b 6
  let base := 64 + 8 * ceilDiv words 4
  { setId := b 1, family := b 2, encoding := b 3, logN := b 4, limbs := b 5, special := b 6, dnum := b 7, glweK := b 8
    decompLogBase := b 9, decompLevels := b 10, lweModKind := b 11, lweN := h 12, lweModulus := h 14
    plainModulus := leNat (sliceBytes r 16 8), expansion := h 24, msgHeadroom := h 26, encErr := h 28, rescaleErr := h 30
    lweKsErr := h 32, modswitchErr := h 34, packErr := h 36, bootOut := h 38, bootOutLevel := b 40
    moduli := (List.range words).map fun i => h (64 + 2 * i)
    levels := (List.range (b 5)).map fun l => (h (base + 4 * l), h (base + 4 * l + 2)) }

/-- The length that L and K give a record (R65). -/
def recordLength (l k : Nat) : Nat := 64 + 8 * ceilDiv (l + k) 4 + 4 * l + 8

/-- A check of the record: what holds, the offset of its field and the error. -/
abbrev RecordCheck := Bool × Nat × Nat

/-- The fields of bytes 0 to 63 in the order of Table 3-3. -/
def fieldChecks (r : List Byte) (p : ParamSet) : List RecordCheck :=
  let packed := p.family = 0
  let v (ok : Bool) (o : Nat) : RecordCheck := (ok, o, VALUE_RANGE)
  [ v (leNat (sliceBytes r 0 1) = 1) 0, v (p.setId ≤ 0xFE) 1, v (p.family ≤ 1) 2,
    v (if packed then p.encoding ≤ 1 else p.encoding = 0) 3,
    v (if packed then 10 ≤ p.logN && p.logN ≤ 17 else 9 ≤ p.logN && p.logN ≤ 13) 4,
    v (if packed then 1 ≤ p.limbs && p.limbs ≤ 64 else 1 ≤ p.limbs && p.limbs ≤ 2) 5,
    v (if packed then p.special ≤ 16 else p.special = 0) 6,
    v (if packed then 1 ≤ p.dnum && p.dnum ≤ 8 && p.dnum ≤ p.limbs else p.dnum = 0) 7,
    v (if packed then p.glweK = 0 else 1 ≤ p.glweK && p.glweK ≤ 2) 8,
    v (if packed then p.decompLogBase = 0 else 1 ≤ p.decompLogBase && p.decompLogBase ≤ 16) 9,
    v (if packed then p.decompLevels = 0 else 1 ≤ p.decompLevels && p.decompLevels ≤ 12) 10,
    v (if packed then p.lweModKind = 0 else p.lweModKind ≤ 2) 11,
    v (if packed then p.lweN = 0 else 1 ≤ p.lweN && p.lweN ≤ 2048) 12,
    (if p.lweModKind = 2 && !packed then wordValid p.lweModulus p.logN else p.lweModulus = 0, 14,
      if p.lweModKind = 2 && !packed then MODULUS_FORM else VALUE_RANGE),
    v (if packed && p.encoding = 1 then 2 ≤ p.plainModulus else p.plainModulus = 0) 16,
    v (if packed then 1 ≤ p.bootOutLevel && p.bootOutLevel ≤ p.limbs else p.bootOutLevel = 1) 40,
    v (leNat (sliceBytes r 41 23) = 0) 41 ]

/-- The MODULI words one by one, with t < q_0 after the word of q_0 (R62, R65 step 4); the zero padding belongs to the field. -/
def modulusChecks (r : List Byte) (p : ParamSet) : List RecordCheck :=
  ((List.range p.moduli.length).flatMap fun i =>
    let w := p.moduli.getD i 0
    (wordValid w p.logN && !(((p.moduli.take i).map modulusOf).contains (modulusOf w)), 64 + 2 * i, MODULUS_FORM) ::
      (if i = 0 && p.family = 0 && p.encoding = 1 then [(decide (p.plainModulus < modulusOf w), 16, VALUE_RANGE)] else []))
  ++ [(decide (leNat (sliceBytes r (64 + 2 * p.moduli.length) (8 * ceilDiv p.moduli.length 4 - 2 * p.moduli.length)) = 0),
       64 + 2 * p.moduli.length, VALUE_RANGE)]

/-- The first failing check of a record, in the order of R65 steps 1 to 5. -/
def recordFailure (r : List Byte) : Option (Nat × Nat) :=
  if r.length < 64 then some (r.length, VALUE_RANGE)
  else
    let p := readSet r
    let want := recordLength p.limbs p.special
    let crcAt := want - 8
    let all := fieldChecks r p ++ [(decide (r.length = want), min r.length want, VALUE_RANGE)] ++ modulusChecks r p
      ++ [(decide (leNat (sliceBytes r crcAt 8) = crc64 (r.take crcAt)), crcAt, VALUE_RANGE)]
    (all.find? fun c => !c.1).map fun c => c.2

/-- The set as it is stored, with its derived roots and constant block (R95, R101). -/
def deriveSet (r : List Byte) : ParamSet :=
  let p := readSet r
  { p with roots := (List.range p.moduli.length).map fun i => rootOf (p.q i) p.n, constants := p.constKeys.map p.constValue }

/-- The loaded set of an ID, with its slot. -/
def State.findSet (s : State) (id : Nat) : Option (Nat × ParamSet) := s.sets.find? fun e => e.2.setId = id

/-- The set of an ID. -/
def State.set? (s : State) (id : Nat) : Option ParamSet := (s.findSet id).map fun e => e.2

/-- The jobs that hold a reference on a set: those whose admitted image names it (R67). -/
def State.setRefs (s : State) (id : Nat) : Nat :=
  (jobSlots.filter fun j => (s.job j).state ≠ .ready && (match (s.job j).image with | some im => im.sets.contains id | none => false)).length

/-! ### Bounds (R74) -/

/-- The integer square root of a number below 2^(2 bits). -/
def isqrt : Nat → Nat → Nat
  | 0, _ => 0
  | b + 1, x =>
    let r := isqrt b (x / 4)
    if (2 * r + 1) * (2 * r + 1) ≤ x then 2 * r + 1 else 2 * r

/-- 2^(1/2), 2^(1/4), ... 2^(1/256) as 64-bit fractions. -/
def binaryRoots : Nat → Nat → List Nat
  | 0, _ => []
  | n + 1, x =>
    let r := isqrt 66 (x * 2 ^ 64)
    r :: binaryRoots n r

/-- 2^(m/256) with a 64-bit fraction, for m below 256. -/
def exp2Frac (m : Nat) : Nat :=
  (List.range 8).foldl (fun acc i => if bit m (7 - i) then acc * (binaryRoots 8 (2 ^ 65)).getD i 0 / 2 ^ 64 else acc) (2 ^ 64)

/-- The least n from `n` on with b x 2^n ≥ a. -/
def leastShift : Nat → Nat → Nat → Nat → Nat
  | 0, _, _, n => n
  | fuel + 1, a, b, n => if a ≤ b * 2 ^ n then n else leastShift fuel a b (n + 1)

/-- `F(d) = ⌈256 x log2(1 + 2^(-d/256))⌉`, in 1/256-bit units (R74). From d = 2,300 on it is 1. -/
def boundF (d : Nat) : Nat :=
  if 2300 ≤ d then 1
  else
    let x := exp2Frac (d % 256) * 2 ^ (d / 256)
    let a := (x + 2 ^ 64) ^ 256
    let b := x ^ 256
    leastShift 4 a b (Nat.log2 a - Nat.log2 b - 1)

/-- The sum of two bounds (R74). -/
def lsum (a b : Int) : Int := if b ≤ a then a + boundF (a - b).toNat else b + boundF (b - a).toNat

/-- `lsum3(a, b, c) = lsum(lsum(a, b), c)` (R74). -/
def lsum3 (a b c : Int) : Int := lsum (lsum a b) c

/-- The clamp at the end of a step (R74). -/
def clampNoise (x : Int) : Nat := if x < 0 then 0 else if 0xFFFF < x then 0xFFFF else x.toNat

/-- Every ledger operand of the row Q, LOG2Q of a limb of a set. -/
def ParamSet.log2q (p : ParamSet) (i : Nat) : Nat := log2Floor (p.q i)

/-- The bound Qg of EXTRACT (Table 3-5). -/
def ParamSet.lweLog (p : ParamSet) : Nat :=
  match p.lweModKind with
  | 0 => 32 * 256
  | 1 => 64 * 256
  | _ => log2Floor (modulusOf p.lweModulus)

/-- The message bound M of a handle under its set (R75). -/
def messageBound (p : ParamSet) (scale : Int) : Int :=
  if p.encoding = 1 then (log2Ceil p.plainModulus : Int) else scale * 256 + p.msgHeadroom

/-- LIMIT of a level. -/
def ParamSet.limit (p : ParamSet) (l : Nat) : Nat := (p.levels.getD (l - 1) (0, 0)).1

/-- KS_ERR of a level. -/
def ParamSet.ksErr (p : ParamSet) (l : Nat) : Nat := (p.levels.getD (l - 1) (0, 0)).2

end Sys2Proof.Machine
end

