-- ==== Sys2Proof/Machine/LongArith.lean ====
section
/-! DEFINITION. What the long operations compute, as functions of rows (R94-R105, R139-R153, R164-R169, R441, R442). -/

namespace Sys2Proof.Machine

/-! ### Rows and polynomials (R96, R442) -/

/-- Rows of a polynomial of dimension N: one where N is 512. -/
def rowsPer (n : Nat) : Nat := ceilDiv n 1024

/-- Polynomial `i` of `n` coefficients from a list of rows (R96). -/
def polyAt (rows : List Row) (n i : Nat) : List Nat :=
  (List.range n).map fun k => let e := i * n + k; Row.lane (rows.getD (e / 1024) []) (e % 1024)

/-- Polynomials laid out in rows again: the last row is zero-filled. -/
def polysRows (polys : List (List Nat)) : List Row := (polys.flatten |> fun l => (List.range (ceilDiv l.length 1024)).map fun r => rowMap fun k => l.getD (r * 1024 + k) 0)

/-- A function of each lane of rows of one shape. -/
def zipLanes (count : Nat) (f : Nat → Nat → Nat) : List Row := (List.range count).map fun r => rowMap fun k => f r k

/-- A lane of a row list. -/
def laneAt (rows : List Row) (r k : Nat) : Nat := Row.lane (rows.getD r []) k

/-! ### NTT, AUTOMORPH, TRANSPOSE -/

/-- The moduli, roots and inverses of `limbs` limbs of a set from limb `first` on. -/
def ParamSet.root (p : ParamSet) (i : Nat) : Nat := p.roots.getD i 0

/-- One limb transformed (R94). -/
def nttLimb (p : ParamSet) (limb mode : Nat) (a : List Nat) : List Nat :=
  let q := p.q limb
  let a := a.map fun x => x % q
  if mode = 0 then nttForward q (p.root limb) p.logN a
  else nttInverse q (p.root limb) (powMod q p.n (q - 2)) p.logN a

/-- NTT over component-major limbs (R98, R441, R442); under N = 512 the upper half of a last row is transformed as well. -/
def opNtt (p : ParamSet) (first limbs comps mode : Nat) (rows : List Row) : List Row :=
  let polys := if p.n = 512 then 2 * ceilDiv (comps * limbs) 2 else comps * limbs
  polysRows ((List.range polys).map fun i => nttLimb p (first + i % limbs) mode (polyAt rows p.n i))

/-- AUTOMORPH of one limb in coefficient form (R139). -/
def automorphCoef (q n g : Nat) (a : List Nat) : List Nat :=
  let out := (List.range n).foldl (fun (m : List (Nat × Nat)) i =>
    let t := i * g % (2 * n)
    (if t < n then (t, a.getD i 0 % q) else (t - n, subMod q 0 (a.getD i 0))) :: m) []
  (List.range n).map fun i => ((out.find? fun e => e.1 = i).map fun e => e.2).getD 0

/-- AUTOMORPH of one limb in evaluation form (R139). -/
def automorphEval (q n logN g : Nat) (a : List Nat) : List Nat :=
  (List.range n).map fun j => a.getD (brv logN ((brv logN j * g + (g - 1) / 2) % n)) 0 % q

/-- AUTOMORPH (R139). -/
def opAutomorph (p : ParamSet) (first limbs comps mode g : Nat) (rows : List Row) : List Row :=
  polysRows ((List.range (comps * limbs)).map fun i =>
    let q := p.q (first + i % limbs)
    let a := polyAt rows p.n i
    if mode % 2 = 1 then automorphEval q p.n p.logN g a else automorphCoef q p.n g a)

/-- TRANSPOSE of groups of 32 rows (R143). -/
def opTranspose (rows : List Row) : List Row :=
  zipLanes rows.length fun r k => laneAt rows (r / 32 * 32 + k % 32) (k / 32 * 32 + r % 32)

/-! ### Base conversion family -/

/-- Row x of limb i of component c, in component-major order with `limbs` limbs of `r` rows. -/
def at3 (rows : List Row) (limbs r c i x k : Nat) : Nat := laneAt rows ((c * limbs + i) * r + x) k

/-- Component-major rows computed lane by lane. -/
def build3 (comps limbs r : Nat) (f : Nat → Nat → Nat → Nat → Nat) : List Row :=
  (List.range comps).flatMap fun c => (List.range limbs).flatMap fun i => (List.range r).map fun x => rowMap fun k => f c i x k

/-- BCONV from limbs first to first + m - 1 to the target limbs (R100). -/
def opBconv (p : ParamSet) (first m comps : Nat) (targets : List Nat) (rows : List Row) : List Row :=
  let r := rowsPer p.n
  let src := (List.range m).map fun i => p.q (first + i)
  build3 comps targets.length r fun c i x k =>
    baseConvert src (p.q (targets.getD i 0)) ((List.range m).map fun a => at3 rows m r c a x k)

/-- RESCALE or modulus switch of level l over r rows per limb (R103, R104). -/
def opRescale (p : ParamSet) (l comps r : Nat) (rows : List Row) : List Row :=
  let ql := p.q (l - 1)
  build3 comps (l - 1) r fun c i x k =>
    let v := at3 rows l r c i x k
    let last := at3 rows l r c (l - 1) x k
    if p.encoding = 1 then modSwitchLane (p.q i) ql p.plainModulus v last else rescaleLane (p.q i) ql v last

/-- KSIP: digits and key rows over the tile's kept limbs, each of r rows (R442). -/
def opKsip (qs : List Nat) (beta r : Nat) (digits key : List Row) : List Row :=
  let w := qs.length
  build3 2 w r fun c i x k =>
    let q := qs.getD i 1
    ((List.range beta).map fun j => at3 digits w r j i x k % q * (at3 key w r (2 * j + c) i x k % q)).sum % q

/-- MODDOWN of two components over the tile's kept limbs, `qs` of them q limbs and `w` in all, with the rows of the K special limbs (R105, R442). -/
def opModdown (p : ParamSet) (qs : List Nat) (w r : Nat) (rows specials : List Row) : List Row :=
  let ps := (List.range p.special).map fun i => p.q (p.limbs + i)
  build3 2 qs.length r fun c i x k =>
    let q := qs.getD i 1
    modDownLane q ps ((List.range p.special).map fun a => at3 specials p.special r c a x k) (at3 rows w r c i x k % q)

/-- MODRAISE: the centred lift of level 1 into all L limbs (R169). -/
def opModraise (p : ParamSet) (r : Nat) (rows : List Row) : List Row :=
  build3 2 p.limbs r fun c i x k => reduceInt (p.q i) (centred (p.q 0) (at3 rows 1 r c 0 x k % p.q 0))

/-! ### Gate samples (R144, R145) -/

/-- The LWE modulus of a gate set. -/
def ParamSet.lweQ (p : ParamSet) : Nat :=
  match p.lweModKind with
  | 0 => 2 ^ 32
  | 1 => 2 ^ 64
  | _ => modulusOf p.lweModulus

/-- Lanes of one coefficient: two under 2^64. -/
def ParamSet.lweLanes (p : ParamSet) : Nat := if p.lweModKind = 1 then 2 else 1

/-- Rows of a sample of `n` coefficients. -/
def ParamSet.sampleRows (p : ParamSet) (n : Nat) : Nat := ceilDiv (n * p.lweLanes) 1024

/-- The `n` coefficients of a sample that starts at row `r`, reduced as the unit reads them. -/
def ParamSet.sampleAt (p : ParamSet) (rows : List Row) (r n : Nat) : List Nat :=
  (List.range n).map fun i =>
    let lane (e : Nat) : Nat := laneAt rows (r + e / 1024) (e % 1024)
    if p.lweLanes = 2 then lane (2 * i) % 2 ^ 32 + 2 ^ 32 * (lane (2 * i + 1) % 2 ^ 32) else lane i % p.lweQ

/-- A sample as rows: lanes beyond it are zero. -/
def ParamSet.sampleOut (p : ParamSet) (xs : List Nat) : List Row :=
  (List.range (p.sampleRows xs.length)).map fun r => rowMap fun k =>
    let e := r * 1024 + k
    if p.lweLanes = 2 then bits (xs.getD (e / 2) 0) (32 * (e % 2)) 32 else xs.getD e 0

/-! ### Switches and decomposition (R147, R150, R152) -/

/-- `floor((x m + floor(q/2)) / q) mod m`: a switch from modulus q to m (R147, R148, R150, R152). -/
def switchMod (q m x : Nat) : Nat := (x * m + q / 2) / q % m

/-- The signed digits d_1 .. d_l of x (R150), base B. -/
def decompDigits (b : Nat) : Nat → Nat → List Int
  | 0, _ => []
  | l + 1, x =>
    let r := x % b
    let rest := x / b
    if b ≤ 2 * r then decompDigits b l (rest + 1) ++ [(r : Int) - b] else decompDigits b l rest ++ [(r : Int)]

/-- The digits of a value below q (R150); the carry out of the first is discarded. -/
def decompose (q b l x : Nat) : List Int := decompDigits b l (switchMod q (b ^ l) x)

/-! ### Blind rotation (R148-R151) -/

/-- The limbs of the GLWE modulus Q of a gate set. -/
def ParamSet.gateLimbs (p : ParamSet) : List Nat := (List.range p.limbs).map p.q

/-- Q (R146). -/
def ParamSet.gateQ (p : ParamSet) : Nat := prodOf p.gateLimbs

/-- The integer below Q with the given residues: one limb, or two by the Chinese remainder theorem. -/
def ParamSet.combine (p : ParamSet) (rs : List Nat) : Nat :=
  match p.limbs with
  | 2 => rs.getD 0 0 + p.q 0 * (subMod (p.q 1) (rs.getD 1 0) (rs.getD 0 0) * invMod (p.q 1) (p.q 0 % p.q 1) % p.q 1)
  | _ => rs.getD 0 0

/-- X^e x a in Z_q[X]/(X^n + 1). -/
def mulMonomial (q n e : Nat) (a : List Nat) : List Nat :=
  (List.range n).map fun i =>
    let src := (i + 2 * n - e % (2 * n)) % (2 * n)
    if src < n then a.getD src 0 % q else subMod q 0 (a.getD (src - n) 0)

/-- An accumulator or key row in evaluation form: polynomial, then limb. -/
abbrev Glwe := List (List (List Nat))

/-- The initial accumulator: mask 0 and body X^(-b) x V, in evaluation form (R148). -/
def ParamSet.accStart (p : ParamSet) (b : Nat) (table : List Nat) : Glwe :=
  let lifted := table.map fun v => switchMod p.lweQ p.gateQ v
  (List.range (p.glweK + 1)).map fun t => (List.range p.limbs).map fun i =>
    if t = p.glweK then
      nttForward (p.q i) (p.root i) p.logN (mulMonomial (p.q i) p.n (2 * p.n - b % (2 * p.n)) (lifted.map fun v => v % p.q i))
    else List.replicate p.n 0

/-- The digits of an accumulator in evaluation form: polynomial, digit, limb (R149, R150). -/
def ParamSet.accDigits (p : ParamSet) (acc : Glwe) : List (List (List (List Nat))) :=
  acc.map fun poly =>
    let coef := (List.range p.limbs).map fun i => nttInverse (p.q i) (p.root i) (powMod (p.q i) p.n (p.q i - 2)) p.logN (poly.getD i [])
    let ds := (List.range p.n).map fun x => decompose p.gateQ (2 ^ p.decompLogBase) p.decompLevels (p.combine (coef.map fun l => l.getD x 0))
    (List.range p.decompLevels).map fun j => (List.range p.limbs).map fun i =>
      nttForward (p.q i) (p.root i) p.logN (ds.map fun d => reduceInt (p.q i) (d.getD j 0))

/-- The external product with the GGSW whose rows `row t j` are given (R150), component c, limb i, position x. -/
def ParamSet.extProd (p : ParamSet) (row : Nat → Nat → Glwe) (d : List (List (List (List Nat)))) : Glwe :=
  (List.range (p.glweK + 1)).map fun c => (List.range p.limbs).map fun i => (List.range p.n).map fun x =>
    ((List.range (p.glweK + 1)).flatMap fun t => (List.range p.decompLevels).map fun j =>
      (((d.getD t []).getD j []).getD i []).getD x 0 * (((row t j).getD c []).getD i []).getD x 0).sum % p.q i

/-- ACC + (X^e - 1) x product, in evaluation form (R149). -/
def ParamSet.accStep (p : ParamSet) (e : Nat) (acc prod : Glwe) : Glwe :=
  (List.range (p.glweK + 1)).map fun c => (List.range p.limbs).map fun i => (List.range p.n).map fun x =>
    let q := p.q i
    let m := subMod q (powMod q (p.root i) ((2 * brv p.logN x + 1) * e)) 1
    ((((acc.getD c []).getD i []).getD x 0) + m * (((prod.getD c []).getD i []).getD x 0)) % q

/-- The GGSW ciphertexts of group g: those of the groups before it (R149). -/
def ggswBase (g : Nat) : Nat := 7 * g

/-- One blind-rotation step over the group's coefficients `as`, with GGSW `key ggsw t j` (R149). -/
def ParamSet.rotateGroup (p : ParamSet) (key : Nat → Nat → Nat → Glwe) (g : Nat) (as : List Nat) (acc : Glwe) : Glwe :=
  let d := p.accDigits acc
  (List.range (2 ^ as.length - 1)).foldl (fun a m =>
    let e := ((List.range as.length).map fun i => if bit (m + 1) i then as.getD i 0 else 0).sum % (2 * p.n)
    p.accStep e a (p.extProd (key (ggswBase g + m)) d)) acc

/-- The whole blind rotation (R149). -/
def ParamSet.blindRotate (p : ParamSet) (key : Nat → Nat → Nat → Glwe) (as : List Nat) (acc : Glwe) : Glwe :=
  (List.range (ceilDiv p.lweN 3)).foldl (fun a g => p.rotateGroup key g ((as.drop (3 * g)).take 3) a) acc

/-- The extracted coefficient 0: mask of k x N coefficients, then b, under Q; the sign of the whole mask is inverted
(R151, read as its words say; log entry 11). -/
def ParamSet.extractZero (p : ParamSet) (acc : Glwe) : List Nat :=
  let coef (t : Nat) : List Nat :=
    let ls := (List.range p.limbs).map fun i =>
      nttInverse (p.q i) (p.root i) (powMod (p.q i) p.n (p.q i - 2)) p.logN ((acc.getD t []).getD i [])
    (List.range p.n).map fun x => p.combine (ls.map fun l => l.getD x 0)
  let q := p.gateQ
  let b := coef p.glweK
  ((List.range p.glweK).flatMap fun t =>
    let a := coef t
    (List.range p.n).map fun i => if i = 0 then subMod q 0 (a.getD 0 0) else a.getD (p.n - i) 0 % q) ++ [b.getD 0 0]

/-- Extraction of coefficient `pos` from a packed pair (c_0, c_1) under q (R151). -/
def extractPacked (q n pos : Nat) (c0 c1 : List Nat) : List Nat :=
  ((List.range n).map fun i => if i ≤ pos then subMod q 0 (c1.getD (pos - i) 0) else c1.getD (n + pos - i) 0 % q) ++ [c0.getD pos 0 % q]

/-- The switch to Qg and the key switch to LWE_N with key samples `key i j`, d digits of base B (R152). -/
def keySwitch (g : ParamSet) (q b d : Nat) (key : Nat → Nat → List Nat) (sample : List Nat) : List Nat :=
  let qg := g.lweQ
  let ns := sample.length - 1
  let sw := sample.map fun x => switchMod q qg x
  let ds := (List.range ns).map fun i => decompose qg b d (sw.getD i 0)
  (List.range (g.lweN + 1)).map fun x =>
    let sum : Int := ((List.range ns).flatMap fun i => (List.range d).map fun j =>
      ((ds.getD i []).getD j 0) * (((key i j).getD x 0 : Nat) : Int)).sum
    (((if x = g.lweN then (sw.getD ns 0 : Int) else 0) - sum) % (qg : Int)).toNat

/-- One bootstrap of a sample under a table (R147-R152). -/
def ParamSet.bootstrap (p : ParamSet) (bsk : Nat → Nat → Nat → Glwe) (kskBase d : Nat) (ksk : Nat → Nat → List Nat)
    (table sample : List Nat) : List Nat :=
  let sw := sample.map fun x => switchMod p.lweQ (2 * p.n) x
  let acc := p.blindRotate bsk (sw.take p.lweN) (p.accStart (sw.getD p.lweN 0) table)
  keySwitch p p.gateQ kskBase d ksk (p.extractZero acc)

/-! ### Ring packing (R166, R167) -/

/-- The least power of two not below c. -/
def powTwoAbove (c : Nat) : Nat := if c ≤ 1 then 1 else 2 ^ (Nat.log2 (c - 1) + 1)

/-- PACK of samples into level l of a packed set, with key ciphertext `key i e` as component, limb (R166). -/
def opPack (p : ParamSet) (lweN d l : Nat) (key : Nat → Nat → List (List (List Nat))) (samples : List (List Nat)) : List Row :=
  let n := p.n
  let step := n / powTwoAbove samples.length
  let beta := ceilDiv (wordW (p.moduli.getD 0 0)) d
  let poly (f : List Nat → Nat) : List Nat := (List.range n).map fun x => if x % step = 0 ∧ x / step < samples.length then f (samples.getD (x / step) []) else 0
  let eval (i : Nat) (a : List Nat) : List Nat := nttForward (p.q i) (p.root i) p.logN a
  polysRows ((List.range 2).flatMap fun c => (List.range l).map fun i =>
    let q := p.q i
    let body := if c = 0 then eval i ((poly fun s => s.getD lweN 0).map fun v => reduceInt q (centred (p.q 0) (v % p.q 0))) else List.replicate n 0
    let terms := (List.range lweN).flatMap fun a => (List.range d).map fun e =>
      (eval i ((poly fun s => bits (s.getD a 0) (beta * e) beta)), ((key a e).getD c []).getD i [])
    (List.range n).map fun x => subMod q (body.getD x 0) ((terms.map fun t => t.1.getD x 0 * t.2.getD x 0).sum % q))

end Sys2Proof.Machine
end

