-- ==== Sys2Proof/Machine/Steps.lean ====
section
/-! DEFINITION. Ledger steps over a job's handle table: conditions, bounds, ASH and the policies (R70-R80, R158, R159, R164-R166, R169). -/

namespace Sys2Proof.Machine

/-- What a step is given: its kind of Table 3-5, its handles and operands; `samples` are the first sample and count it writes,
`useLevel` is the USE_LEVEL of the key stream that it consumes (R176, R178). -/
structure StepArgs where
  kind : Nat
  hina : Nat
  hinb : Nat := 0xFFFF
  hout : Nat
  rotates : Bool := false
  opnd : Nat := 0
  const : Int := 0
  level : Nat := 0
  scale : Int := 0
  first : Nat := 0
  samples : Nat := 0
  inFirst : Nat := 0
  extra : Bool := true
  useLevel : Option Nat := none

/-- A step's outcome: refused with an error and a handle, or the new output handle and the ASH input it consumed. -/
inductive StepResult where
  | refused (code handle : Nat)
  | ok (h : Handle) (limit : Nat) (consumed : Option Nat)
deriving DecidableEq, Repr

/-- LEVEL, SCALE, COMPONENTS and unclamped NOISE of an output, with the set it belongs to. -/
structure StepOut where
  set : Nat
  level : Nat
  scale : Int
  comps : Nat
  noise : Int
  tag : Nat
  count : Nat

/-- "Same set": PARAM_SET, KEY_SET_TAG and LEVEL equal (R75). -/
def sameSet (a b : Handle) : Bool := a.set = b.set && a.tag = b.tag && a.level = b.level

/-- The output of a step whose conditions hold (Table 3-5); none where one fails. -/
def stepOut (sets : Nat → Option ParamSet) (x : StepArgs) (a b o : Handle) : Option StepOut :=
  match sets a.set with
  | none => none
  | some p =>
    let out (level : Nat) (scale : Int) (comps : Nat) (noise : Int) : StepOut :=
      { set := a.set, level := level, scale := scale, comps := comps, noise := noise, tag := a.tag, count := a.count }
    let approx := p.encoding = 0
    let packed := a.family = 0
    let m (h : Handle) : Int := messageBound p h.scale
    let e : Int := p.expansion
    match x.kind with
    | 0x01 =>
      if sameSet a b && (!(approx && packed) || a.scale = b.scale) then some (out a.level a.scale (max a.comps b.comps) (lsum a.noise b.noise)) else none
    | 0x02 =>
      if packed && (!approx || signed 16 x.opnd = a.scale) then some (out a.level a.scale a.comps (lsum a.noise p.encErr)) else none
    | 0x03 =>
      if packed then
        some (out a.level (a.scale + signed 16 x.opnd) a.comps (lsum (a.noise + (bits x.opnd 16 16 : Int) + e) (m a + p.encErr + e)))
      else none
    | 0x04 =>
      if x.const.natAbs < 2 ^ 36 then
        some (out a.level a.scale a.comps (if x.const = 0 then 0 else (a.noise : Int) + log2Ceil x.const.natAbs))
      else none
    | 0x05 =>
      if sameSet a b && a.comps = 2 && b.comps = 2 then
        some (out a.level (a.scale + b.scale) 3 (lsum3 (a.noise + m b + e) (b.noise + m a + e) (a.noise + b.noise + e)))
      else none
    | 0x06 =>
      if 1 ≤ p.special && (!x.rotates || a.comps = 2) && (x.useLevel.all fun l => l = a.level) then some (out a.level a.scale 2 (lsum a.noise (p.ksErr a.level))) else none
    | 0x07 =>
      if packed && 2 ≤ a.level then
        let scale := if approx then a.scale - wordW (p.moduli.getD (a.level - 1) 0) else a.scale
        some (out (a.level - 1) scale a.comps (lsum ((a.noise : Int) - p.log2q (a.level - 1)) p.rescaleErr))
      else none
    | 0x08 => if 1 ≤ x.level && x.level < a.level then some (out x.level a.scale a.comps a.noise) else none
    | 0x09 =>
      match sets o.set with
      | none => none
      | some g =>
        if packed && a.comps = 2 && g.family = 1 && 1 ≤ x.samples && x.first + x.samples ≤ o.count && x.extra then
          let n := lsum (lsum ((a.noise : Int) - p.log2q 0 + g.lweLog) g.modswitchErr) g.lweKsErr
          some { set := o.set, level := 1, scale := 0, comps := 1, noise := n, tag := o.tag, count := o.count }
        else none
    | 0x0A =>
      if a.family = 1 && p.family = 1 && x.inFirst + x.samples ≤ a.count && x.first + x.samples ≤ o.count && a.set = o.set && a.tag = o.tag then
        some { set := a.set, level := 1, scale := 0, comps := 1, noise := p.bootOut, tag := a.tag, count := o.count }
      else none
    | 0x0B =>
      match sets o.set with
      | none => none
      | some q =>
        if a.family = 1 && q.family = 0 && 1 ≤ x.level && x.level ≤ q.limbs && p.lweModKind = 2 && p.lweModulus = q.moduli.getD 0 0
            && 1 ≤ x.samples && x.samples ≤ q.n && x.inFirst + x.samples ≤ a.count && (x.useLevel.all fun l => l = x.level) then
          some { set := o.set, level := x.level, scale := x.scale, comps := 2, tag := o.tag, count := 1
                 noise := lsum ((a.noise : Int) + log2Ceil x.samples) q.packErr }
        else none
    | 0x0C =>
      if packed && a.comps = 2 && a.level = 1 then some (out p.bootOutLevel a.scale 2 p.bootOut) else none
    | _ => none

/-- The handle of a number of the job's table. -/
def Job.handle? (j : Job) (h : Nat) : Option Handle := j.handles[h]?

/-- The NOISE a step leaves, R159: the maximum where only part of a gate handle's samples is written. -/
def stepNoise (x : StepArgs) (o : Handle) (r : StepOut) : Nat :=
  let n := clampNoise r.noise
  if (x.kind = 0x09 ∨ x.kind = 0x0A) ∧ x.samples < o.count then max n o.noise else n

/-- Whether the step is a bootstrap (R78). -/
def isBootstrap (kind : Nat) : Bool := kind = 0x0A || kind = 0x0C

/-- A step judged in the order of R75: conditions and SCALE, then ASH under the job's policy (R77, R78, R80). -/
def State.judgeStep (s : State) (j : Nat) (x : StepArgs) : StepResult :=
  let job := s.job j
  match job.handle? x.hina, job.handle? x.hout with
  | some a, some o =>
    let b := if x.hinb = 0xFFFF then a else (job.handle? x.hinb).getD a
    match stepOut s.set? x a b o with
    | none => .refused PARAM_MISMATCH x.hina
    | some r =>
      if r.scale < -32768 ∨ 32767 < r.scale then .refused PARAM_MISMATCH x.hina
      else
        let ash := if a.ash then some x.hina else if x.hinb ≠ 0xFFFF ∧ b.ash then some x.hinb else none
        let policy := s.entry (0x2200 + j) 1
        let spanTrap := policy = 2 && job.span.isSome
        let limit := ((s.set? r.set).map fun p => p.limit r.level).getD 0
        let h (consumed : Bool) : Handle :=
          let n := stepNoise x o r
          { o with set := r.set, family := if x.kind = 0x09 then 1 else if x.kind = 0x0B then 0 else a.family
                   level := r.level, comps := r.comps, scale := r.scale, noise := n
                   ash := consumed || limit < n, count := r.count, tag := r.tag
                   nttForm := x.kind = 0x0B || o.nttForm }
        match ash with
        | none => .ok (h false) limit none
        | some k => if spanTrap || (policy = 1 && !isBootstrap x.kind) then .ok (h true) limit (some k) else .refused LEDGER_ASH k
  | _, _ => .refused PARAM_MISMATCH x.hina

/-- The least margin of the job's step outputs so far (Table 3-8), two's complement. -/
def State.noteMargin (s : State) (j limit noise : Nat) : State :=
  let m : Int := (limit : Int) - noise
  let clamped := if m < -32768 then -32768 else if 32767 < m then 32767 else m
  if clamped < signed 64 (s.entry (0x2200 + j) 9) then s.setEntry (0x2200 + j) 9 (unsigned 64 clamped) else s

/-- An ASH input consumed: PROPAGATE counts it, TRAP records a pending trap and the handle (R77, R80). -/
def State.consumeAsh (s : State) (j hin hout : Nat) : State :=
  if s.entry (0x2200 + j) 1 = 1 then
    let s := s.bump (0x2200 + j) 5 1
    if (s.job j).propagated then s
    else (s.updJob j fun x => { x with propagated := true }).raise 0xB0B1 j 0 hin hout
  else s.updJob j fun x => { x with trapPending := some (x.trapPending.getD hin) }

/-- An accepted step takes effect (R74, R76). -/
def State.acceptStep (s : State) (j hout : Nat) (h : Handle) (limit : Nat) (consumed : Option Nat) : State :=
  let s := s.updJob j fun x => { x with handles := x.handles.set hout h }
  let s := s.noteMargin j limit h.noise
  let s := if h.ash then (s.bump (0x2200 + j) 4 1).bump 0x2300 1 1 else s
  match consumed with
  | some k => s.consumeAsh j k hout
  | none => s

/-- A ledger step evaluated on the lead tile; a refusal starts no arithmetic and ends the job (R74). -/
def State.ledgerStep (s : State) (t j : Nat) (op : LopInst) (x : StepArgs) : State :=
  match s.judgeStep j x with
  | .refused code handle => (s.noteLedgerError j code handle).faultLop t code op 0 0
  | .ok h limit consumed => s.acceptStep j x.hout h limit consumed

end Sys2Proof.Machine
end

