-- ==== Sys2Proof/Machine/Engines.lean ====
section
/-! DEFINITION. Long-operation entries, the shares that a tile works on, and the source rows that an engine reads as they turn FULL
(R180, R217-R219, R222-R228, R442). -/

namespace Sys2Proof.Machine

/-! ### Codes and engines (Table 10-2) -/

abbrev lopNtt : Nat := 0x01
abbrev lopAutomorph : Nat := 0x02
abbrev lopTranspose : Nat := 0x03
abbrev lopBconv : Nat := 0x04
abbrev lopRescale : Nat := 0x05
abbrev lopKsip : Nat := 0x06
abbrev lopModdown : Nat := 0x07
abbrev lopLedger : Nat := 0x08
abbrev lopXferIn : Nat := 0x09
abbrev lopXferOut : Nat := 0x0A
abbrev lopKeystream : Nat := 0x0B
abbrev lopBatch : Nat := 0x0C
abbrev lopExtract : Nat := 0x0D
abbrev lopPack : Nat := 0x0E
abbrev lopModraise : Nat := 0x0F
abbrev lopSignalCode : Nat := 0x10
abbrev lopFenceCode : Nat := 0x11

/-- The engines an operation counts for (R222). -/
def enginesOf (code : Nat) : List Engine :=
  if code = lopNtt then [.ntt]
  else if code = lopAutomorph ∨ code = lopTranspose then [.exchange]
  else if code ∈ [lopBconv, lopRescale, lopKsip, lopModdown, lopModraise] then [.baseConv]
  else if code ∈ [lopBatch, lopExtract, lopPack] then [.ntt, .exchange, .baseConv]
  else if code ∈ [lopXferIn, lopXferOut, lopSignalCode, lopFenceCode] then [.fetch]
  else []

/-- The number of an engine in the stall counters (Table 19-5). -/
def engineUnit : Engine → Nat
  | .ntt => 1
  | .exchange => 2
  | .baseConv => 3
  | .fetch => 4

/-- Bits of MODS (Table 10-1). -/
def LongOp.rowRel (op : LongOp) : Bool := bit op.mods 0
def LongOp.opSa (op : LongOp) : Bool := bit op.mods 1
def LongOp.consumeA (op : LongOp) : Bool := bit op.mods 2
def LongOp.consumeB (op : LongOp) : Bool := bit op.mods 3

/-- Bits of a transfer's MODE (Table 10-2). -/
def LongOp.converts (op : LongOp) : Bool := bit op.mode 0
def LongOp.verifies (op : LongOp) : Bool := bit op.mode 1
def LongOp.overwrites (op : LongOp) : Bool := bit op.mode 2
def LongOp.fromHandle (op : LongOp) : Bool := bit op.mode 3

/-- The stream entries an operation consumes (Table 10-2). -/
def LongOp.keyEntries (op : LongOp) : List Nat :=
  if op.code = lopKsip ∨ op.code = lopPack then [bits op.tab 0 8]
  else if op.code = lopBatch then [bits op.tab 0 8, bits op.tab 8 8]
  else if op.code = lopExtract then [bits op.tab 8 8]
  else []

/-- Whether an operation is issued by the whole group (R219). -/
def LongOp.isGroup (op : LongOp) : Bool :=
  op.code ∈ [lopRescale, lopKsip, lopModdown, lopBatch, lopExtract, lopPack, lopModraise]

/-- Whether an operation takes its set and limbs from QM (R217). -/
def LongOp.usesQm (op : LongOp) : Bool := op.code ∈ [lopNtt, lopAutomorph, lopBconv]

/-- The layout of a transfer, where it has an index (R127). -/
def Image.layoutOf (im : Image) (tab : Nat) : Option Layout := if tab = 0 then none else im.layouts[tab - 1]?

/-- Whether a transfer reduces under the limbs of a modulus register: QM (R88, R136, log entry 68). -/
def Image.reduces (im : Image) (op : LongOp) : Bool := op.code = lopXferOut && (im.layoutOf op.tab).any fun d => d.reduce ≠ 0

/-- Whether an operation names a modulus register (R88). -/
def Image.namesQm (im : Image) (op : LongOp) : Bool := op.usesQm || im.reduces op

/-- A running operation changed. -/
def Tile.updOp (x : Tile) (id : Nat) (f : LopInst → LopInst) : Tile :=
  { x with running := x.running.map fun o => if o.id = id then f o else o }

/-- An operation of the tile that runs. -/
def Tile.runningOp (x : Tile) (id : Nat) : Option LopInst := x.running.find? fun o => o.id = id

/-- The rows of a region. -/
def regionRows (r : Nat × Nat) : List Nat := (List.range r.2).map fun i => r.1 + i

/-! ### Shares (R180, R438, R442) -/

/-- Rows of one limb that a rank holds when rows are spread over a group (STRIPE ROW, R138). -/
def rowShare (r g rank : Nat) : Nat := ((List.range r).filter fun x => x % g = rank).length

/-- The set and shape that an operation computes under: its set, the group size, the tile's rank. -/
structure RunShape where
  p : ParamSet
  g : Nat
  rank : Nat
deriving DecidableEq, Repr, Inhabited

/-- The set of the handle of an operation's output or input. -/
def Job.setOf (j : Job) (h : Nat) : Nat := ((j.handle? h).map fun x => x.set).getD 0xFF

/-- The set of an operation: QM's, or that of its handles; a TRANSPOSE, a transfer, a SIGNAL and a FENCE compute under none (R143). -/
def State.runShape (s : State) (t j : Nat) (o : LopInst) : Option RunShape :=
  let job := s.job j
  let c := o.op.code
  let id := if o.op.usesQm then o.qm.setId else if c = lopPack ∨ c = lopModdown then job.setOf o.op.hout else job.setOf o.op.hina
  (if c ∈ [lopTranspose, lopXferIn, lopXferOut, lopSignalCode, lopFenceCode] then some default else s.set? id).map fun p =>
    { p := p, g := job.group.length, rank := rankOf job.group t }

/-- Rows per limb of the tile's share. -/
def RunShape.rowsT (x : RunShape) : Nat := if x.g ≤ 1 then rowsPer x.p.n else rowShare (rowsPer x.p.n) x.g x.rank

/-- The kept limbs of the tile in a key switch at level l: indices into MODULI (R180, R442). -/
def RunShape.keptLimbs (x : RunShape) (l : Nat) : List Nat :=
  ((List.range (l + x.p.special)).filter fun i => i % x.g = x.rank).map fun i => if i < l then i else x.p.limbs + (i - l)

/-- The samples of a batch that the tile processes (R160). -/
def RunShape.samples (x : RunShape) (b : Nat) : List Nat := (List.range b).filter fun i => i % x.g = x.rank

/-- The target limbs of a BCONV (Table 10-2). -/
def bconvTargets (opnd : Nat) : List Nat :=
  ((List.range (bits opnd 16 8)).map fun i => bits opnd 24 8 + i) ++ (List.range (bits opnd 0 8)).map fun i => bits opnd 8 8 + i

/-! ### The source rows, limb by limb (R228, R441, R442) -/

/-- The regions A, B and C that an operation reads. -/
inductive SourceRegion where
  | a
  | b
  | c
deriving DecidableEq, Repr

/-- The first `n` rows of a region in groups of `per`. -/
def rowGroups (g : SourceRegion) (r : Nat × Nat) (n per : Nat) : List (SourceRegion × List Nat) :=
  let k := min n r.2
  (List.range (ceilDiv k (max 1 per))).map fun i => (g, (List.range (min per (k - i * per))).map fun y => r.1 + i * per + y)

/-- The groups of source rows that an operation begins one after another: the rows of one limb, sample or table each,
a whole B region, one row of an XFER_OUT (R228, R230). -/
def State.sourceGroups (s : State) (t j : Nat) (o : LopInst) : List (SourceRegion × List Nat) :=
  match s.runShape t j o with
  | none => []
  | some x =>
    let p := x.p
    let c := o.op.code
    let sample := p.sampleRows (p.lweN + 1)
    if c = lopTranspose then rowGroups .a o.rgnA o.rgnA.2 32
    else if c = lopRescale then rowGroups .a o.rgnA (o.comps * o.level * x.rowsT) x.rowsT
    else if c = lopKsip then rowGroups .a o.rgnA (o.opnd * (x.keptLimbs o.level).length * rowsPer p.n) (rowsPer p.n)
    else if c = lopModdown then rowGroups .a o.rgnA (2 * (x.keptLimbs o.level).length * rowsPer p.n) (rowsPer p.n)
    else if c = lopModraise then rowGroups .a o.rgnA (2 * x.rowsT) x.rowsT
    else if c = lopBatch then
      rowGroups .a o.rgnA ((x.samples o.opnd).length * sample) sample
        ++ (if o.standby then [] else rowGroups .b o.rgnB (ceilDiv o.opnd 1024) o.rgnB.2
              ++ rowGroups .c o.rgnC (o.op.mode * p.sampleRows p.n) (p.sampleRows p.n))
    else if c = lopExtract then rowGroups .a o.rgnA (2 * rowsPer p.n) (rowsPer p.n) ++ rowGroups .b o.rgnB (ceilDiv o.opnd 1024) o.rgnB.2
    else if c = lopPack then
      let per := match s.set? ((s.job j).setOf o.op.hina) with | some g => g.sampleRows (g.lweN + 1) | none => 0
      rowGroups .a o.rgnA (o.opnd * per) per
    else if c = lopXferOut then rowGroups .a o.rgnA o.share 1
    else if c = lopNtt ∨ c = lopAutomorph ∨ c = lopBconv then rowGroups .a o.rgnA o.rgnA.2 (rowsPer p.n)
    else []

/-- The groups that an operation has not read. -/
def State.unread (s : State) (t j : Nat) (o : LopInst) : List (SourceRegion × List Nat) := (s.sourceGroups t j o).drop o.groupsRead

/-- The source rows of an operation, in the order in which it reads them. -/
def State.sourceRows (s : State) (t j : Nat) (o : LopInst) : List Nat := (s.sourceGroups t j o).flatMap fun g => g.2

/-- The first source row for which an operation waits. -/
def State.firstWait (s : State) (t j : Nat) (o : LopInst) : Option Nat := ((s.unread t j o).flatMap fun g => g.2).find? fun r => s.tag t r ≠ .full

/-- The region of an operation. -/
def LopInst.region (o : LopInst) : SourceRegion → Nat × Nat
  | .a => o.rgnA
  | .b => o.rgnB
  | .c => o.rgnC

/-- Whether a source region is consumed (R227). -/
def LopInst.consumes (o : LopInst) : SourceRegion → Bool
  | .a => o.op.consumeA
  | .b => o.op.consumeB
  | .c => false

/-- One group is read: the rows are taken, and turn EMPTY where their region is consumed (R227); the next wait begins now (R229). -/
def State.readGroup (s : State) (t id : Nat) (consumed : Bool) (rows : List Nat) : State :=
  let d := rows.map fun r => s.rowData t r
  let s := s.updTile t fun y => y.updOp id fun o => { o with taken := o.taken ++ d, groupsRead := o.groupsRead + 1, waitAt := s.now }
  if consumed then rows.foldl (fun s r => s.setTag t r .empty) s else s

/-- The groups that are FULL are read in order, up to the first that is not (R228). -/
def State.readGroups (s : State) (t : Nat) (o : LopInst) : List (SourceRegion × List Nat) → State
  | [] => s
  | g :: gs => if g.2.all (fun r => s.tag t r = .full) then State.readGroups (s.readGroup t o.id (o.consumes g.1) g.2) t o gs else s

/-- The READ entries of regions that an operation has read are released (R224). -/
def Tile.releaseReads (x : Tile) (o : LopInst) (left : List SourceRegion) : Tile :=
  let done (e : SbEntry) : Bool := e.owner = o.id && e.mode = .read
    && ([SourceRegion.a, .b, .c].filter fun g => o.region g = (e.first, e.count)).all fun g => !left.contains g
  { x with scoreboard := x.scoreboard.filter fun e => !done e }

/-- A running operation reads what it can. -/
def State.readSources (s : State) (t j : Nat) (o : LopInst) : State :=
  let s := s.readGroups t o (s.unread t j o)
  match (s.tile t).runningOp o.id with
  | none => s
  | some o => s.updTile t fun x => x.releaseReads o ((s.unread t j o).map fun g => g.1)

/-- The engines of a tile read the source rows that are FULL now (R227, R228). -/
def State.readEngines (s : State) (t : Nat) : State :=
  match s.jobOfTile t with
  | none => s
  | some j => if (s.job j).state = .running then (s.tile t).running.foldl (fun s o => s.readSources t j o) s else s

/-- Rows that an operation has taken of a region. -/
def State.takenOf (s : State) (t j : Nat) (o : LopInst) (g : SourceRegion) : List Row :=
  ((((s.sourceGroups t j o).flatMap fun x => x.2.map fun _ => x.1).zip o.taken).filter fun p => p.1 = g).map fun p => p.2

end Sys2Proof.Machine
end

