-- ==== Sys2Proof/Machine/Operands.lean ====
section
/-! DEFINITION. The unit operands of commands: an effect on a unit that the module has, or a stop by name. -/

namespace Sys2Proof.Machine

/-- A command on unit `n` of `count` units of a kind. -/
def onUnit (kind : String) (count n : Nat) (s : State) (f : State → State) : Host.Outcome State Fault Refusal :=
  if n < count then .next (f s) else .fault (.noSuchUnit kind)

/-- A command on a tile (R3). -/
def onTile (t : Nat) (s : State) (f : State → State) : Host.Outcome State Fault Refusal := onUnit "tile" 64 t s f

/-- A command on a job slot (R251). -/
def onJob (j : Nat) (s : State) (f : State → State) : Host.Outcome State Fault Refusal := onUnit "job slot" 16 j s f

/-- A command on a fabric port (R300). -/
def onPort (p : Nat) (s : State) (f : State → State) : Host.Outcome State Fault Refusal := onUnit "port" 16 p s f

/-- A command on a memory stack (R276). -/
def onStack (k : Nat) (s : State) (f : State → State) : Host.Outcome State Fault Refusal := onUnit "stack" 8 k s f

/-- A command on a stream slot (R177). -/
def onStream (k : Nat) (s : State) (f : State → State) : Host.Outcome State Fault Refusal := onUnit "stream slot" 16 k s f

end Sys2Proof.Machine
end

