-- ==== Sys2Proof/Machine/Bundle.lean ====
section
/-! DEFINITION. Bundles: slots, issue checks, holds, issue, loops, the instruction cache (R193-R215).
A bundle is presented slot by slot and closes with its C slot; a bundle that must hold is counted and presented again
in the next cycle (log entry 10). -/

namespace Sys2Proof.Machine

/-! ### Registers (R193, R209) -/

/-- The image of the tile's job. -/
def State.imageOf (s : State) (t : Nat) : Option Image := (s.jobOfTile t).bind fun j => (s.job j).image

/-- A sequencer register; S0 reads zero (R193). -/
def Tile.sreg (x : Tile) (r : Nat) : Word := if r = 0 then 0 else Tab.get x.sregs 0 r

/-- A sequencer register written; a write to S0 is discarded (R193). -/
def Tile.setSreg (x : Tile) (r : Nat) (v : Word) : Tile := if r = 0 then x else { x with sregs := Tab.put x.sregs r v }

/-- A modulus register. -/
def Tile.qreg (x : Tile) (q : Nat) : ModReg := Tab.get x.qregs {} q

/-- The ready-cycle tag of a vector register (R209). -/
def Tile.readyAt (x : Tile) (v : Nat) : Nat := Tab.get x.ready 0 v

/-- A vector register as a bundle reads it: the latest result due, else what has been written (R93, R209). -/
def Tile.vreg (x : Tile) (v : Nat) : Row :=
  match x.flight.reverse.find? fun r => r.reg = v && r.ready ≤ x.sched with
  | some r => r.value
  | none => Tab.get x.vregs [] v

/-- A result enters its pipeline: an older one that would complete no earlier is discarded (R93). -/
def Tile.addResult (x : Tile) (v ready : Nat) (d : Row) : Tile :=
  { x with flight := (x.flight.filter fun r => !(r.reg = v && ready ≤ r.ready)) ++ [{ reg := v, issued := x.sched, ready := ready, value := d }]
           ready := Tab.put x.ready v ready }

/-- An MST enters its pipeline (R210). -/
def Tile.addStore (x : Tile) (row completes : Nat) (d : Row) : Tile :=
  { x with stores := x.stores ++ [{ row := row, issued := x.sched, completes := completes, value := d }] }

/-! ### Presenting a bundle (R195) -/

/-- The slots of Table 19-6. -/
abbrev slotC : Nat := 0
abbrev slotW : Nat := 1
abbrev slotM : Nat := 2
abbrev slotX : Nat := 3

/-- Whether the tile has a bundle to issue: its job runs and it is neither halted, stopped, at a barrier nor held by the heat ledger (R199, R236, R257, R355). -/
def State.mayIssue (s : State) (t : Nat) : Bool :=
  let x := s.tile t
  s.tileEnabled t && (s.jobOfTile t).any (fun j => (s.job j).state = .running && (s.job j).powerHeld.isNone)
    && (x.run = .issuing || x.run = .held) && x.barWait = .none && !x.stopped

/-- A slot of the bundle presented: what it writes when the bundle issues, what it waits for, the check it fails. -/
structure SlotWork where
  writes : List Deferred := []
  hold : Option Nat := none
  fault : Option SlotFault := none
  land : Option Nat := none
  miss : Option Nat := none

/-- The earlier of two failing checks (R211). -/
def firstFault (a b : Option SlotFault) : Option SlotFault :=
  match a, b with
  | some x, some y => if y.check < x.check then some y else some x
  | some x, none => some x
  | none, y => y

/-- A slot joins the bundle presented. -/
def Tile.present (x : Tile) (slot : Nat) (w : SlotWork) : Tile :=
  { x with presented := x.presented ++ [slot], deferred := x.deferred ++ w.writes, holds := x.holds ++ w.hold.toList
           slotFault := firstFault x.slotFault w.fault, landNow := if w.land.isSome then w.land else x.landNow
           missRows := x.missRows ++ w.miss.toList }

/-- A slot command: its work joins the bundle, once per bundle. -/
def State.slot (s : State) (t slot : Nat) (w : SlotWork) : State :=
  if s.mayIssue t && !(s.tile t).presented.contains slot then s.updTile t fun x => x.present slot w else s

/-- The bundle presented is dropped: it has not issued. -/
def Tile.unpresent (x : Tile) : Tile := { x with presented := [], holds := [], deferred := [], slotFault := none, missRows := [] }

/-! ### Checks -/

/-- A failing check of a slot. -/
def slipFault (slot target kind ready : Nat) : SlotFault :=
  { check := 1, code := SCHEDULE_SLIP, slot := slot, target := target, targetKind := kind, ready := ready }

/-- Check 1 on a vector register read (R209). -/
def Tile.vregSlip (x : Tile) (slot v : Nat) : Option SlotFault :=
  if x.sched < x.readyAt v then some (slipFault slot v 1 (x.readyAt v)) else none

/-- Check 1 on a row named while a store to it is in flight (R210). -/
def Tile.rowSlip (x : Tile) (row : Nat) : Option SlotFault :=
  (x.stores.find? fun m => m.row = row && x.sched < m.completes).map fun m => slipFault slotM row 2 m.completes

/-- Check 2 on a modulus register (R88). -/
def Tile.qregCheck (x : Tile) (slot q : Nat) : Option SlotFault :=
  if (x.qreg q).valid then none
  else some { check := 2, code := PARAM_MISMATCH, slot := slot, target := q, targetKind := 3, ready := 0 }

/-- Check 3 on a row (R204, R206). -/
def State.rowCheck (s : State) (t slot row : Nat) : Option SlotFault :=
  if row < 3072 ∧ s.isDeclared t row ∧ !s.isKeyRow t row then none
  else some { check := 3, code := ACCESS_PROTECT, slot := slot, target := row % 65536, targetKind := 2, ready := 0 }

/-- Check 4 on a row read (R202, R206). -/
def State.poisonCheck (s : State) (t slot row : Nat) : Option SlotFault :=
  if s.tag t row = .poison then some { check := 4, code := SLOT_POISON, slot := slot, target := row, targetKind := 2, ready := 0 } else none

/-- The cause of a wait on a row's tag by the bundles (R24). -/
def State.tagCause (s : State) (t row : Nat) : Nat := if s.isGuaranteed t row then causeGuarantee else causeTag

/-- The row on whose tag a hold waits (R25, R229). -/
def tagRowOf (hold : Option Nat) (row : Nat) : Option Nat := if hold = some causeGuarantee ∨ hold = some causeTag then some row else none

/-- Whether an unreleased scoreboard entry of a mode covers a row (R203). -/
def Tile.covered (x : Tile) (row count : Nat) (modes : List SbMode) : Bool :=
  x.scoreboard.any fun e => modes.contains e.mode && e.first < row + count && row < e.first + e.count

/-! ### W slot (R91-R93, R200, R207) -/

/-- The latency of Table 9-10: generation 1's applies to format 1 images. -/
def State.latency (s : State) (t new old : Nat) : Nat :=
  if s.oldGeneration && (s.imageOf t).any (fun im => im.format = 1) then old else new

/-- One wide-lane operation: sources `vs`, a constant in place of the second where given, result `f a b c` reduced once (R90, R92). -/
def State.wideOp (s : State) (t vd qm lat : Nat) (vs : List Nat) (k : Option Nat) (f : Int → Int → Int → Int) : SlotWork :=
  let x := s.tile t
  let q := (x.qreg qm).qval
  let row (i : Nat) : Row := match vs[i]? with | some v => x.vreg v | none => []
  let a := row 0
  let b := row 1
  let c := row 2
  let second (l : Nat) : Nat := match k with | some n => n | none => Row.lane b l
  { writes := [.wide, .vreg vd (x.sched + lat)
      (rowMap fun l => reduceInt q (f (Row.lane a l % q : Nat) (second l % q : Nat) (Row.lane c l % q : Nat)))]
    fault := firstFault (vs.findSome? fun v => x.vregSlip slotW v) (x.qregCheck slotW qm) }

/-- The constant operand: bits 35 to 0 of the sequencer register (R92). -/
def State.constant (s : State) (t sk : Nat) : Option Nat := some (((s.tile t).sreg sk).toNat % 2 ^ 36)

/-! ### M slot (R201-R204) -/

/-- The target row: ROW plus the value of SB at issue (R201). -/
def State.targetRow (s : State) (t sb row : Nat) : Nat := ((BitVec.ofNat 64 row) + (s.tile t).sreg sb).toNat

/-- Whether a store to the row is due but has not landed. -/
def Tile.landing (x : Tile) (row : Nat) : Bool := x.stores.any fun m => m.row = row && !m.landed

/-- MLD: it waits for a FULL row and takes what the row holds (R202, R203). -/
def State.loadRow (s : State) (t v row : Nat) (consume : Bool) (ecc : Ecc) : SlotWork :=
  let x := s.tile t
  let early := firstFault (x.rowSlip row) (s.rowCheck t slotM row)
  let hold := if x.covered row 1 [.write] then some causeScoreboard
    else if s.tag t row = .empty ∨ x.landing row then some (s.tagCause t row) else none
  let rel := if consume then [Deferred.release row] else []
  let result := Deferred.vreg v (x.sched + s.latency t 4 5) (s.rowData t row)
  { hold := hold, miss := tagRowOf hold row, fault := firstFault early (s.poisonCheck t slotM row)
    writes := match ecc with
      | .clean => result :: rel
      | .corrected w => .corrected row w :: result :: rel
      | .tagCopy => .tagCopy :: result :: rel
      | .uncorrectable w => [.uncorrectable row w slotM] }

/-- MST: it reads V at issue and writes the row at its completion count (R202, R203). -/
def State.storeRow (s : State) (t v row : Nat) (waitEmpty : Bool) : SlotWork :=
  let x := s.tile t
  let hold := if x.covered row 1 [.read, .write, .tagged] then some causeScoreboard
    else if waitEmpty ∧ (s.tag t row ≠ .empty ∨ x.landing row) then some (s.tagCause t row) else none
  { fault := firstFault (firstFault (x.vregSlip slotM v) (x.rowSlip row)) (s.rowCheck t slotM row)
    miss := tagRowOf hold row
    hold := hold
    writes := [.store row (x.sched + s.latency t 3 4) (x.vreg v)] }

/-- MREL, after a store to the row that is due (R202, R203). -/
def State.releaseRow (s : State) (t row : Nat) : SlotWork :=
  let x := s.tile t
  let hold := if x.covered row 1 [.read, .write, .tagged] then some causeScoreboard else if x.landing row then some (s.tagCause t row) else none
  { fault := firstFault (x.rowSlip row) (s.rowCheck t slotM row)
    miss := tagRowOf hold row
    hold := hold
    writes := [.release row] }

/-! ### X slot (R205, R206) -/

/-- A scalar result, readable by the next bundle (R205). -/
def scalar (sd : Nat) (v : Word) : SlotWork := { writes := [.sreg sd v] }

/-- The coefficient that XLDN or XSTN names (R206). -/
def State.narrowTarget (s : State) (t sa : Nat) (imm : BitVec 16) : Nat := ((s.tile t).sreg sa + imm.signExtend 64).toNat

/-- The index check of R206. -/
def State.narrowCheck (s : State) (t c : Nat) : Option SlotFault :=
  if c < 3145728 then s.rowCheck t slotX (c / 1024)
  else some { check := 3, code := ACCESS_PROTECT, slot := slotX, target := c / 1024 % 65536, targetKind := 2, ready := 0 }

/-- A narrow access that must wait for a store in flight to its row: that store alone lands (R210). -/
def Tile.narrowLanding (x : Tile) (row : Nat) : Option Nat := if x.landing row then some row else none

/-- XLDN (R206). -/
def State.narrowLoad (s : State) (t sd c : Nat) (ecc : Ecc) : SlotWork :=
  let x := s.tile t
  let row := c / 1024
  let result := Deferred.sreg sd (BitVec.ofNat 64 (s.coefficient t c))
  let hold := if x.landing row then some causeTag else if s.tag t row = .empty then some (s.tagCause t row) else none
  { fault := firstFault (s.narrowCheck t c) (s.poisonCheck t slotX row)
    miss := tagRowOf hold row
    hold := hold
    land := x.narrowLanding row
    writes := match ecc with
      | .clean => [result]
      | .corrected w => [.corrected row w, result]
      | .tagCopy => [.tagCopy, result]
      | .uncorrectable w => [.uncorrectable row w slotX] }

/-- XSTN (R206, R265). -/
def State.narrowStore (s : State) (t sd c : Nat) (ecc : Ecc) : SlotWork :=
  let x := s.tile t
  let row := c / 1024
  let write := Deferred.narrow row (c % 1024) (x.sreg sd).toNat
  { fault := s.narrowCheck t c
    hold := if x.landing row then some causeTag else none
    land := x.narrowLanding row
    writes := match ecc with
      | .clean => [write]
      | .corrected w => [.corrected row w, write]
      | .tagCopy => [.tagCopy, write]
      | .uncorrectable w => [.uncorrectable row w slotX] }

/-! ### The instruction cache (R214) -/

/-- Whether a line is cached. -/
def Tile.cached (x : Tile) (line : Nat) : Bool := (Tab.get x.icache [] (line % 256)).contains line

/-- A line used: it is the most recent of its set. -/
def Tile.touchLine (x : Tile) (line : Nat) : Tile :=
  let ways := Tab.get x.icache [] (line % 256)
  { x with icache := Tab.put x.icache (line % 256) ((ways.erase line) ++ [line]) }

/-- A line requested, unless cached or requested already. -/
def Tile.requestLine (x : Tile) (line lines : Nat) : Tile :=
  if line < lines && !x.cached line && !x.lineWait.contains line then
    { x with lineWait := x.lineWait ++ [line], lineFetches := x.lineFetches + 1 }
  else x

/-- A line written: the least recently used of a full set is replaced. -/
def Tile.fillLine (x : Tile) (line : Nat) : Tile :=
  let ways := Tab.get x.icache [] (line % 256)
  { x with icache := Tab.put x.icache (line % 256) ((if ways.length < 4 then ways else ways.drop 1) ++ [line])
           lineWait := x.lineWait.erase line }

/-- The lines of the tile's code stream. -/
def State.codeLines (s : State) (t : Nat) : Nat :=
  match s.jobOfTile t with
  | none => 0
  | some j =>
    match (s.job j).image with
    | none => 0
    | some im => ceilDiv ((im.code.getD (rankOf (s.job j).group t) []).length) 4

/-! ### Issue (R198, R208, R211, R257) -/

/-- The next bundle after bundle `b`, and the loops still active: the innermost stands first (R198). -/
def afterBundle (b : Nat) : List LoopFrame → Nat × List LoopFrame
  | [] => (b + 1, [])
  | f :: fs =>
    if f.last = b then
      if f.index + 1 < f.trip then (f.first, { f with index := f.index + 1 } :: fs) else afterBundle b fs
    else (b + 1, f :: fs)

/-- One deferred effect takes place. -/
def State.applyDeferred (s : State) (t : Nat) : Deferred → State
  | .sreg r v => s.updTile t fun x => x.setSreg r v
  | .qreg q v => s.updTile t fun x => { x with qregs := Tab.put x.qregs q v }
  | .vreg v ready d => s.updTile t fun x => x.addResult v ready d
  | .store row completes d => s.updTile t fun x => x.addStore row completes d
  | .release row => s.setTag t row .empty
  | .wide => s.updTile t fun x => { x with running := x.running.map fun o => if o.op.code = lopBatch then { o with wides := o.wides + 1 } else o }
  | .narrow row lane v => s.putCoefficient t (row * 1024 + lane) v
  | .corrected row w => s.ownRowEcc t row (.corrected w)
  | .tagCopy => s.rowEcc t 0 .tagCopy
  | .uncorrectable row w slot =>
    let x := s.tile t
    (s.uncorrectableRow t row w).faultTile t
      { count := x.sched, bundle := x.nextBundle, code := MEM_UNCORRECTABLE, target := row, slot := slot, targetKind := 2 }

/-- The count at which the tile's job stops (R257); 0 where off. -/
def State.stopAfter (s : State) (t : Nat) : Nat := ((s.jobOfTile t).map fun j => s.entry (0x6120 + j) 1).getD 0

/-- The schedule count, the next bundle and the cache after an issue (R198, R208, R214); the tile stops at StopAfterBundle (R257). -/
def State.advance (s : State) (t : Nat) : State :=
  let lines := s.codeLines t
  let stop := s.stopAfter t
  s.updTile t fun x =>
    let b := x.nextBundle
    let n := afterBundle b x.loops
    let y := x.touchLine (b / 4)
    let y := if x.lastLine = some (b / 4) then y else y.requestLine (b / 4 + 1) lines
    let y := y.requestLine (n.1 / 4) lines
    { y.unpresent with
        sched := x.sched + 1, nextBundle := n.1, loops := n.2, lastLine := some (b / 4), run := if x.run = .halted then .halted else .issuing, holdCause := 255
        landNow := none, lastIssue := s.now, heldRows := []
        stores := x.stores.filter fun m => !(m.landed && m.completes ≤ x.sched + 1)
        stopped := stop ≠ 0 && stop ≤ x.sched + 1 }

/-- The duration bound in force, in ns (R246, R249): what 0x6100:0B holds. -/
def State.durationBound (s : State) (j : Nat) : Nat := s.entry (0x6100 + j) 0x0B

/-- A wait on a guaranteed row has ended: the remaining duration is re-checked, and the miss is reported,
at most once per tile in 1 us (R25, R256, R412). -/
def State.guaranteeMiss (s : State) (t row : Nat) : State :=
  match s.jobOfTile t with
  | none => s
  | some j =>
    let x := s.job j
    let total := (s.now - x.startedAt) + Config.remainingBound x.terms (x.group.map fun t => (s.tile t).sched)
    let excess := total - s.durationBound j
    let s := if 0 < excess then s.setEntry (0x6100 + j) 0x0C 1 else s
    if (s.tile t).missEventAt.any fun m => s.now < m + 1000 then s.bump 0x8020 1 1
    else
      let s := (s.bump (0x6100 + j) 0x0D 1).updTile t fun x => { x with missEventAt := some s.now }
      s.raise 0xB020 j GUARANTEE_MISS (t * 65536 + row) excess

/-- The hold cause that counts this cycle, by the order of R24 (R186). -/
def holdCauseOf (holds : List Nat) : Option Nat := [causeScoreboard, causeGuarantee, causeKeyStream, causeTag].find? holds.contains

/-- A held cycle: counted against its cause, and the bundle is presented again; each wait on a row's tag keeps its start (R229),
and one counted as GUARANTEE_MISS is a miss of every guaranteed row that the bundle waits for (R25, R412). -/
def State.holdCycle (s : State) (t cause : Nat) (rows : List Nat) : State :=
  let s := s.stall t 0 cause 1
  s.updTile t fun x =>
    { x.unpresent with run := .held, holdCause := cause
                       missAt := if cause = causeGuarantee then x.missAt ++ rows.filter fun r => s.isGuaranteed t r && !x.missAt.contains r else x.missAt
                       heldRows := rows.map fun r => (r, Tab.get x.heldRows s.now r) }

/-- The misses of a tile whose waits have ended, all but those on `still`, are reported (R412). -/
def State.reportMisses (s : State) (t : Nat) (still : List Nat) : State :=
  (((s.tile t).missAt.filter fun r => !still.contains r).foldl (fun s r => s.guaranteeMiss t r) s).updTile t fun x =>
    { x with missAt := x.missAt.filter still.contains }

/-- The failing check of a bundle ends the job (R211). -/
def State.failBundle (s : State) (t : Nat) (f : SlotFault) : State :=
  let x := s.tile t
  ((s.updTile t Tile.unpresent).poisonRows t f.poison.1 f.poison.2).faultTile t
    { ready := f.ready, count := x.sched, bundle := x.nextBundle, code := f.code, target := f.target, slot := f.slot, targetKind := f.targetKind }

/-- The C slot closes the bundle: freezes, a line that is absent and so requested, checks 1 to 3, holds, check 4, then issue (R211, R212, R214).
`act` is the C slot's own effect, from the registers as they stand in the issue cycle (R195). -/
def State.closeBundle (s : State) (t : Nat) (c : SlotWork) (act : State → State) : State :=
  if !s.mayIssue t then s
  else
    let x := (s.tile t).present slotC c
    let early := x.slotFault.filter fun f => f.check ≤ 3
    if 0 < x.freeze then s.updTile t Tile.unpresent
    else if !x.cached (x.nextBundle / 4) then (s.updTile t fun y => y.requestLine (x.nextBundle / 4) (s.codeLines t)).holdCycle t causeIcache []
    else
      let s := s.reportMisses t x.missRows
      match early, holdCauseOf x.holds, x.slotFault with
      | some f, _, _ => s.failBundle t f
      | none, some cause, _ => s.holdCycle t cause x.missRows
      | none, none, some f => s.failBundle t f
      | none, none, none =>
        ((x.deferred.foldl (fun s d => s.applyDeferred t d) (act s)).advance t)

end Sys2Proof.Machine
end

