-- ==== Sys2Proof/Machine/Convert.lean ====
section
/-! DEFINITION. Number formats and the conversion pipeline (R108-R117, R121). -/

namespace Sys2Proof.Machine

/-! ### Exact values -/

/-- A source value: a NaN, an infinity, or sign, magnitude and binary exponent. -/
inductive Value where
  | nan
  | inf (neg : Bool)
  | fin (neg : Bool) (m : Nat) (e : Int)
deriving DecidableEq, Repr, Inhabited

/-- Exact multiplication by 2^k (stage SCALE). -/
def Value.scale (k : Int) : Value → Value
  | .fin neg m e => .fin neg m (e + k)
  | x => x

/-- A magnitude m x 2^e rounded to the nearest integer, ties to even. -/
def rne (m : Nat) (e : Int) : Nat :=
  if 0 ≤ e then m * 2 ^ e.toNat
  else
    let d := 2 ^ (-e).toNat
    let q := m / d
    let r := m % d
    if 2 * r < d then q else if d < 2 * r then q + 1 else if q % 2 = 0 then q else q + 1

/-- Whether m x 2^e exceeds n x 2^f. -/
def magLt (n : Nat) (f : Int) (m : Nat) (e : Int) : Bool :=
  if f ≤ e then n < m * 2 ^ (e - f).toNat else n * 2 ^ (f - e).toNat < m

/-- An integer as an exact value. -/
def Value.ofInt (x : Int) : Value := .fin (x < 0) x.natAbs 0

/-! ### Formats (Table 5-1) -/

/-- A floating format: exponent bits, fraction bits, bias, whether it has infinities. -/
structure FloatFmt where
  eb : Nat
  fb : Nat
  bias : Nat
  infs : Bool

def fmtFp32 : FloatFmt := ⟨8, 23, 127, true⟩
def fmtBf16 : FloatFmt := ⟨8, 7, 127, true⟩
def fmtFp16 : FloatFmt := ⟨5, 10, 15, true⟩
def fmtE4m3 : FloatFmt := ⟨4, 3, 7, false⟩
def fmtE5m2 : FloatFmt := ⟨5, 2, 15, true⟩

/-- The element format of a code: floating, or an integer of a number of bits. -/
inductive Elem where
  | float (f : FloatFmt)
  | int (bits : Nat)
  | residue

/-- The element format of a listed code (Table 5-1). -/
def elemOf (code : Nat) : Option Elem :=
  match code with
  | 0x01 => some (.float fmtFp32)
  | 0x02 => some (.float fmtBf16)
  | 0x03 => some (.float fmtFp16)
  | 0x04 => some (.float fmtE4m3)
  | 0x05 => some (.float fmtE5m2)
  | 0x06 => some (.int 32)
  | 0x07 => some (.int 8)
  | 0x08 => some (.int 4)
  | 0x09 => some (.int 64)
  | 0x0B => some .residue
  | 0x14 => some (.float fmtE4m3)
  | 0x15 => some (.float fmtE5m2)
  | 0x17 => some (.int 8)
  | 0x18 => some (.int 4)
  | _ => none

/-- Whether a code is a block format. -/
def isBlock (code : Nat) : Bool := code ∈ [0x14, 0x15, 0x17, 0x18]

/-- The bits of an element. -/
def Elem.width : Elem → Nat
  | .float f => 1 + f.eb + f.fb
  | .int n => n
  | .residue => 36

/-- The largest finite magnitude as m x 2^e. -/
def FloatFmt.largest (f : FloatFmt) : Nat × Int :=
  if f.infs then (2 ^ (f.fb + 1) - 1, (2 ^ f.eb - 2 : Int) - f.bias - f.fb) else (14, 5)

/-- A stored element's exact value (stage UNPACK). -/
def Elem.unpack (el : Elem) (w : Nat) : Value :=
  match el with
  | .int n => Value.ofInt (signed n w)
  | .residue => .fin false (w % 2 ^ 36) 0
  | .float f =>
    let neg := bit w (f.eb + f.fb)
    let x := bits w f.fb f.eb
    let m := bits w 0 f.fb
    if x = 2 ^ f.eb - 1 ∧ f.infs then (if m = 0 then .inf neg else .nan)
    else if x = 2 ^ f.eb - 1 ∧ m = 2 ^ f.fb - 1 then .nan
    else if x = 0 then .fin neg m (1 - (f.bias : Int) - f.fb)
    else .fin neg (m + 2 ^ f.fb) ((x : Int) - f.bias - f.fb)

/-! ### Counters -/

/-- The element counts of a conversion (R122). -/
structure ConvCounts where
  overflow : Nat := 0
  nan : Nat := 0
  underflow : Nat := 0
  boundClamp : Nat := 0
  exponentClamp : Nat := 0
deriving DecidableEq, Repr, Inhabited

def ConvCounts.add (a b : ConvCounts) : ConvCounts where
  overflow := a.overflow + b.overflow
  nan := a.nan + b.nan
  underflow := a.underflow + b.underflow
  boundClamp := a.boundClamp + b.boundClamp
  exponentClamp := a.exponentClamp + b.exponentClamp

/-! ### PACK (R112-R114) -/

/-- The stored bits of a sign and a magnitude. -/
def signBit (n : Nat) (neg : Bool) (m : Nat) : Nat := if neg then 2 ^ (n - 1) + m else m

/-- An element written in a floating format (Table 5-5). -/
def FloatFmt.pack (f : FloatFmt) (x : Value) : Nat × ConvCounts :=
  let n := 1 + f.eb + f.fb
  let top := f.largest
  let emin : Int := 1 - (f.bias : Int)
  let biggest := if f.infs then (2 ^ f.eb - 1) * 2 ^ f.fb - 1 else 2 ^ (f.eb + f.fb) - 2
  match x with
  | .nan => (if f.infs then (2 ^ f.eb - 1) * 2 ^ f.fb + 2 ^ (f.fb - 1) else 2 ^ (f.eb + f.fb) - 1, { nan := 1 })
  | .inf neg => if f.infs then (signBit n neg ((2 ^ f.eb - 1) * 2 ^ f.fb), {}) else (signBit n neg biggest, { overflow := 1 })
  | .fin neg m e =>
    if m = 0 then (signBit n neg 0, {})
    else
      let p : Int := (Nat.log2 m : Int) + e
      let q : Int := max p emin - f.fb
      let r := rne m (e - q)
      if magLt top.1 top.2 r q then (signBit n neg biggest, { overflow := 1 })
      else if r = 0 then (signBit n neg 0, { underflow := 1 })
      else
        let field := ((q + f.fb + f.bias).toNat - 1) * 2 ^ f.fb + r
        (signBit n neg field, {})

/-- An element written in an integer format: the largest magnitude with the source's sign where it saturates. -/
def packInt (n : Nat) (x : Value) : Nat × ConvCounts :=
  let top := 2 ^ (n - 1) - 1
  match x with
  | .nan => (0, { nan := 1 })
  | .inf neg => (unsigned n (if neg then -(top : Int) else top), { overflow := 1 })
  | .fin neg m e =>
    let r := rne m e
    if top < r then (unsigned n (if neg then -(top : Int) else top), { overflow := 1 })
    else if r = 0 ∧ m ≠ 0 then (0, { underflow := 1 })
    else (unsigned n (if neg then -(r : Int) else r), {})

/-- An element written in its format. -/
def Elem.pack (el : Elem) (x : Value) : Nat × ConvCounts :=
  match el with
  | .float f => f.pack x
  | .int n => packInt n x
  | .residue => (0, {})

/-- In a block, a NaN and a negative zero are written as zero, and infinities saturate (Table 5-5). -/
def Elem.packInBlock (el : Elem) (x : Value) : Nat × ConvCounts :=
  match el, x with
  | _, .nan => (0, { nan := 1 })
  | .float f, .inf neg => (signBit (1 + f.eb + f.fb) neg (if f.infs then (2 ^ f.eb - 1) * 2 ^ f.fb - 1 else 2 ^ (f.eb + f.fb) - 2), { overflow := 1 })
  | .float f, .fin neg m e =>
    let r := f.pack (.fin neg m e)
    if r.1 % 2 ^ (f.eb + f.fb) = 0 then (0, r.2) else r
  | el, x => el.pack x

/-- The larger of two finite magnitudes; others count as zero. -/
def maxMag (a : Nat × Int) (x : Value) : Nat × Int :=
  match x with
  | .fin _ m e => if magLt a.1 a.2 m e then (m, e) else a
  | _ => a

/-- EMAX and MAXF of a block's element format (R114). -/
def blockTop (el : Elem) : Int × Nat :=
  match el with
  | .float f => if f.infs then (15, 57344) else (8, 448)
  | .int n => if n = 8 then (6, 127) else (2, 7)
  | .residue => (0, 0)

/-- A magnitude rounded to the nearest value of a block's element format. -/
def rneElem (el : Elem) (m : Nat) (e : Int) : Nat × Int :=
  match el with
  | .float f =>
    let p : Int := (Nat.log2 m : Int) + e
    let q : Int := max p (1 - (f.bias : Int)) - f.fb
    (rne m (e - q), q)
  | _ => (rne m e, 0)

/-- The block exponent of R114, and whether it was clamped. -/
def blockExponent (el : Elem) (xs : List Value) : Int × Bool :=
  let m := xs.foldl maxMag (0, 0)
  if m.1 = 0 then (0, false)
  else
    let top := blockTop el
    let e : Int := (Nat.log2 m.1 : Int) + m.2 - top.1
    let r := rneElem el m.1 (m.2 - e)
    let e := if magLt top.2 0 r.1 r.2 then e + 1 else e
    if 127 < e then (127, true) else if e < -128 then (-128, true) else (e, false)

/-! ### The conversion word (Table 5-2) -/

def cwSrc (w : Nat) : Nat := bits w 0 6
def cwDst (w : Nat) : Nat := bits w 6 6
def cwMode (w : Nat) : Nat := bits w 12 2
def cwBlock (w : Nat) : Nat := 16 * 2 ^ bits w 14 2
def cwLevel (w : Nat) : Nat := bits w 16 8
def cwSet (w : Nat) : Nat := bits w 24 8
def cwScale (w : Nat) : Int := signed 16 (bits w 32 16)
def cwBound (w : Nat) : Nat := bits w 48 16

/-- Whether a word keeps Tables 5-2 and 5-3 for a count, under the set it names where it names one. -/
def cwValid (w count : Nat) (set : Option ParamSet) : Bool :=
  let listed (c : Nat) : Bool := (elemOf c).isSome && c ≠ 0x0B
  let set? := set.filter fun p => p.family = 0
  match cwMode w with
  | 0 => listed (cwSrc w) && listed (cwDst w) && 1 ≤ count && count < 2 ^ 32 && cwBound w = 0 && cwSet w = 0 && cwLevel w = 0
  | 1 => listed (cwSrc w) && cwDst w = 0x0B && set?.any fun p => 1 ≤ count && count ≤ p.n && 1 ≤ cwLevel w && cwLevel w ≤ p.limbs
  | 2 => cwSrc w = 0x0B && listed (cwDst w) && cwBound w = 0 && cwLevel w = 1 && set?.any fun p => 1 ≤ count && count ≤ p.n
  | _ => false

/-! ### Reading and writing values (R108, R109) -/

/-- The bytes that `count` elements of a code occupy. -/
def formatBytes (code blockSize count : Nat) : Nat :=
  match elemOf code with
  | none => 0
  | some el => if isBlock code then ceilDiv count blockSize * (1 + blockSize * el.width / 8) else ceilDiv (count * el.width) 8

/-- Element j of a source. -/
def readElem (code blockSize : Nat) (bs : List Byte) (j : Nat) : Value :=
  match elemOf code with
  | none => .nan
  | some el =>
    let w := el.width
    if isBlock code then
      let size := 1 + blockSize * w / 8
      let base := j / blockSize * size
      let k := j % blockSize
      let e := signed 8 (leNat (sliceBytes bs base 1))
      (el.unpack (bits (leNat (sliceBytes bs (base + 1 + k * w / 8) ((w + 7) / 8))) (k * w % 8) w)).scale e
    else el.unpack (bits (leNat (sliceBytes bs (j * w / 8) ((w + 14) / 8))) (j * w % 8) w)

/-- One block written (R109, R114); elements beyond `xs` are zero. -/
def writeBlock (el : Elem) (blockSize : Nat) (xs : List Value) : List Byte × ConvCounts :=
  let e := blockExponent el xs
  let rs := xs.map fun x => el.packInBlock (x.scale (-e.1))
  let word := (rs.foldr (fun r acc => r.1 + 2 ^ el.width * acc) 0)
  (leBytes 1 (unsigned 8 e.1) ++ leBytes (blockSize * el.width / 8) word,
   rs.foldl (fun c r => c.add r.2) { exponentClamp := if e.2 then 1 else 0 })

/-- A list cut into parts of `n`, at most `fuel` of them. -/
def chunks {α : Type} (n : Nat) : Nat → List α → List (List α)
  | 0, _ => []
  | fuel + 1, l => if l.isEmpty then [] else l.take n :: chunks n fuel (l.drop n)

/-- Values written in a format (stage PACK). DESIGN CHOICE, log entry 72: the unused high bits of the last byte, behind an odd number of 4-bit elements,
are written as 0. -/
def writeValues (code blockSize : Nat) (xs : List Value) : List Byte × ConvCounts :=
  match elemOf code with
  | none => ([], {})
  | some el =>
    if isBlock code then
      let rs := (chunks blockSize xs.length xs).map (writeBlock el blockSize)
      (rs.flatMap fun r => r.1, rs.foldl (fun c r => c.add r.2) {})
    else
      let rs := xs.map el.pack
      (leBytes (ceilDiv (xs.length * el.width) 8) (rs.foldr (fun r acc => r.1 + 2 ^ el.width * acc) 0), rs.foldl (fun c r => c.add r.2) {})

/-! ### ENCODE and DECODE (R115-R117) -/

/-- The largest c below 2^79 with c^256 ≤ 2^b: floor(2^(b/256)). -/
def boundRoot (b : Nat) : Nat :=
  (List.range 79).foldl (fun c i => let c' := c + 2 ^ (78 - i); if c' ^ 256 ≤ 2 ^ b then c' else c) 0

/-- Cmax of R115. -/
def cmax (w : Nat) : Nat := if cwBound w = 0xFFFF then 2 ^ 79 - 1 else min (boundRoot (cwBound w)) (2 ^ 79 - 1)

/-- ROUND and CLAMP of one value. -/
def encodeValue (top : Nat) (x : Value) : Int × ConvCounts :=
  match x with
  | .nan => (0, { nan := 1 })
  | .inf neg => (if neg then -(top : Int) else top, { overflow := 1, boundClamp := 1 })
  | .fin neg m e =>
    let r := rne m e
    if top < r then (if neg then -(top : Int) else top, { boundClamp := 1 })
    else (if neg then -(r : Int) else r, { underflow := if r = 0 ∧ m ≠ 0 then 1 else 0 })

/-- The rounded and clamped integers of an ENCODE, and the counts. -/
def encodeInts (w count : Nat) (bs : List Byte) : List Int × ConvCounts :=
  let top := cmax w
  let rs := (List.range count).map fun j => encodeValue top ((readElem (cwSrc w) (cwBlock w) bs j).scale (cwScale w))
  (rs.map fun r => r.1, rs.foldl (fun c r => c.add r.2) {})

/-- The residues of one limb of an ENCODE (R116). -/
def encodeLimb (p : ParamSet) (limb : Nat) (ys : List Int) : List Nat :=
  (List.range p.n).map fun j => reduceInt (p.q limb) (ys.getD j 0)

/-- P_MEAS (Table 5-6). -/
def measured (ys : List Int) : Nat :=
  let m := ys.foldl (fun a y => max a y.natAbs) 0
  if m ≤ 1 then 0 else log2Ceil m

/-- The bytes of a FORMAT. -/
def convertFormat (w count : Nat) (bs : List Byte) : List Byte × ConvCounts :=
  writeValues (cwDst w) (cwBlock w) ((List.range count).map fun j => (readElem (cwSrc w) (cwBlock w) bs j).scale (cwScale w))

/-- The bytes of a DECODE of limb-0 residues (R117). -/
def convertDecode (w : Nat) (q0 : Nat) (rs : List Nat) : List Byte × ConvCounts :=
  writeValues (cwDst w) (cwBlock w) (rs.map fun r => (Value.ofInt (centred q0 (r % q0))).scale (cwScale w))

/-- The body of a direct ENCODE: LEVEL limbs in canonical layout (R121, R123). -/
def encodeBody (p : ParamSet) (w : Nat) (ys : List Int) : List Byte :=
  leBytes (p.n * cwLevel w * 9 / 2) (packNat ((List.range (cwLevel w)).flatMap fun l => encodeLimb p l ys))

/-- The 64-byte header block of a direct ENCODE (Table 5-6). -/
def plaintextHeader (w count pmeas : Nat) (c : ConvCounts) (crc : Nat) : List Byte :=
  let flags := 1 + (if 0 < c.boundClamp then 2 else 0) + (if 0 < c.nan then 4 else 0) + (if 0 < c.overflow then 8 else 0)
  leBytes 1 1 ++ leBytes 1 (cwSet w) ++ leBytes 2 0x5450 ++ leBytes 4 0 ++ leBytes 1 flags ++ leBytes 1 (cwLevel w)
    ++ leBytes 2 (bits w 32 16) ++ leBytes 2 (cwBound w) ++ leBytes 2 pmeas ++ leBytes 4 0 ++ leBytes 4 count ++ leBytes 8 crc
    ++ List.replicate 32 0

/-- Element counts joined to the device totals, and to a job's where a job converts (R122). -/
def State.countConversion (s : State) (job : Option Nat) (c : ConvCounts) : State :=
  let put (s : State) (i n : Nat) : State :=
    let s := s.bump 0x2880 i n
    match job with | some j => s.bump (0x2890 + j) i n | none => s
  put (put (put (put (put s 1 c.overflow) 2 c.nan) 3 c.underflow) 4 c.boundClamp) 5 c.exponentClamp

end Sys2Proof.Machine
end

