-- ==== Sys2Proof/Machine/Fabric.lean ====
section
/-! DEFINITION. The fabric's links, routing, issue of operations, completions and the host's requests (R300-R318, R332-R334). -/

namespace Sys2Proof.Machine

/-! ### Ports (R300-R303) -/

abbrev portDisabled : Nat := 0
abbrev portTraining : Nat := 1
abbrev portUp : Nat := 2
abbrev portDown : Nat := 3

def State.portState (s : State) (p : Nat) : Nat := s.entry (0x4040 + p) 1

/-- The device's own node ID (R305). -/
def State.nodeId (s : State) : Nat := s.entry 0x4010 1

/-- A port's bit of PortEnable (R301, R324). -/
def State.portEnabled (s : State) (p : Nat) : Bool := bit (s.entry 0x4010 4) p

/-- A port leaves UP: its unacknowledged frames are lost (R302). -/
def State.closePort (s : State) (p state : Nat) : State :=
  let s := ((s.setEntry (0x4040 + p) 1 state).setEntry (0x4040 + p) 2 0).setEntry (0x4040 + p) 3 0xFFFF
  s.updPort p fun x => { x with lanes := [] }

/-- The link goes down: event 0xB0E0 with the cause, and PortState DOWN (R301, R303). -/
def State.linkDown (s : State) (p cause : Nat) : State :=
  (((s.closePort p portDown).bump (0x4040 + p) 9 1).updPort p fun x => { x with lastTrain := s.now }).raise 0xB0E0 0xFF cause p cause

/-- A port starts training (R303, R324). -/
def State.startTraining (s : State) (p : Nat) : State :=
  (s.closePort p portTraining).updPort p fun x => { x with lastTrain := s.now }

/-- The device is in DEEP_IDLE (R359). -/
def State.deepIdle (s : State) : Bool := s.entry 0xA040 1 = 1

/-- A write of PortEnable: a cleared port is DISABLED at once, a newly set one starts training (R324); in DEEP_IDLE every port stays OFF (R359). -/
def State.applyPortEnable (s : State) (v : Nat) : State :=
  (List.range 16).foldl (fun s p =>
    if bit v p then (if s.portState p = portDisabled ∧ !s.deepIdle then s.startTraining p else s)
    else if s.portState p = portDisabled then s else s.closePort p portDisabled) s

/-! ### Link lanes (R301) -/

/-- The lane of a frame: its virtual lane, or 4 for the response class (Table 14-1). -/
def laneOf (f : Frame) : Nat := if f.opcode = 0x20 then 4 else f.vl

/-- A frame leaves through a port and awaits its acknowledgement (R301). -/
def State.sendFrame (s : State) (p : Nat) (f : Frame) : State :=
  let x := s.port p
  let l : LinkLane := Tab.get x.lanes {} (laneOf f)
  let l' : LinkLane := { l with unacked := l.unacked ++ [{ seq := l.nextTx, frame := f, sentAt := s.now }], nextTx := l.nextTx + 1 }
  (s.setPort p { x with lanes := Tab.put x.lanes (laneOf f) l' }).emit (.fabric p f)

/-! ### Routing (R317) -/

/-- A route-table byte: 0xFF where none is stored. -/
def State.route (s : State) (node : Nat) : Nat :=
  match Tab.get? s.blobs (entryKey 0x4030 1) with
  | some c => (c.getD node 0xFF).toNat
  | none => 0xFF

/-- The UP port that leads to a node. -/
def State.routePort (s : State) (node : Nat) : Option Nat :=
  let p := s.route node
  if p < 16 ∧ s.portState p = portUp then some p else none

/-- A router passes a frame on at the next link's version, or drops and counts it (R317, Table 14-4). -/
def State.forward (s : State) (f : Frame) : State :=
  if 25 ≤ f.hops + 1 then s.bump 0x4038 7 1
  else
    match s.routePort f.target with
    | some p => s.sendFrame p { f with hops := f.hops + 1, version := s.entry (0x4040 + p) 2 }
    | none => s.bump 0x4038 7 1

/-! ### Completions (R315) -/

/-- The completion of an operation leaves for its source (R315). -/
def State.complete (s : State) (f : Frame) (status operand : Nat) (data : List Byte) : State :=
  let c : Frame := { f with opcode := 0x20, hops := 0, mcastGroup := 0, operand := operand, length := data.length
                            source := f.target, target := f.source, address := status, payload := data, crcOk := true }
  match s.routePort f.source with
  | some p => s.sendFrame p { c with version := s.entry (0x4040 + p) 2 }
  | none => s.bump 0x4038 7 1

/-! ### The host link as a target (R332) -/

/-- LinkState is UP (Table 15-10). -/
def State.hostUp (s : State) : Bool := s.entry 0x5040 1 = 2

/-- TagLimit in force (Table 15-1, Table 15-10). -/
def State.tagLimit (s : State) : Nat := s.entry 0x5040 5

/-- A stream that is secure carries requests (R338). -/
def State.secureStream (s : State) : Bool := s.hostLink.linkIde = .secure || s.hostLink.selectiveIde = .secure

/-- A range cut at a limit and at page boundaries: address and length of each piece; `fuel` bounds their number. -/
def cutPieces (limit page : Nat) : Nat → Nat → Nat → List (Nat × Nat)
  | 0, _, _ => []
  | fuel + 1, a, n =>
    if n = 0 then []
    else
      let k := min n (min (max limit 1) (page - a % page))
      (a, k) :: cutPieces limit page fuel (a + k) (n - k)

/-- The requests of an operation to the host: address and length of each (Table 15-5). -/
def HostLink.requests (h : HostLink) (opcode a n : Nat) : List (Nat × Nat) :=
  if opcode = 1 then cutPieces h.maxPayload 4096 n a n
  else if opcode = 2 ∧ 0 < n then cutPieces h.maxRead (2 ^ 64) n a n
  else [(a, n)]

/-- Request `i` of an operation leaves (Table 15-5). -/
def State.emitHost (s : State) (r : RemoteOp) (i : Nat) : State :=
  let p := r.pieces.getD i (r.address, r.length)
  s.emit (.hostRequest r.tag i r.opcode p.1 p.2 r.operand (sliceBytes r.data (p.1 - r.address) p.2))

/-- A non-posted request takes a tag and enters the transmit queue, or waits for a tag (R333, R334). -/
def State.takeHostTag (s : State) (r : RemoteOp) (i : Nat) : State :=
  let h := s.hostLink
  if h.tagWaiters.isEmpty && h.tags.length < s.tagLimit then
    ({ s with hostLink := { h with tags := h.tags ++ [(r.tag, i)], txQueue := h.txQueue ++ [(r.tag, i)] } }).emitHost r i
  else ({ s with hostLink := { h with tagWaiters := h.tagWaiters ++ [(r.tag, i)] } }).bump 0x5040 10 1

/-- A posted request enters the transmit queue (R333). -/
def State.postHost (s : State) (r : RemoteOp) (i : Nat) : State :=
  ({ s with hostLink := { s.hostLink with txQueue := s.hostLink.txQueue ++ [(r.tag, i)] } }).emitHost r i

/-- The requests of an operation to the host enter the transmit queue in their order (R332-R334). -/
def State.sendHost (s : State) (r : RemoteOp) : State :=
  (List.range r.pieces.length).foldl (fun s i => if r.opcode = 1 then s.postHost r i else s.takeHostTag r i) s

/-- Why an operation to node 0xFFFE fails at the source (R332, Table 15-5). -/
def State.hostRefusal (s : State) (opcode address : Nat) : Nat :=
  let atomic := opcode = 4 || opcode = 5
  if opcode = 3 || opcode = 6 then ACCESS_PROTECT
  else if !s.hostUp || !s.hostLink.busMaster then HOST_LINK_DOWN
  else if atomic && !s.hostLink.atomicRequester then HOST_ATOMIC_DISABLED
  else if s.entry 0x5010 2 = 1 && !s.secureStream then HOST_IDE_REQUIRED
  else if atomic && address % 8 ≠ 0 then ACCESS_PROTECT
  else OK

/-! ### Issue at the source (R302, R305, R311, R316) -/

/-- The issuers (R312). -/
abbrev issuerGeyser : Nat := 64
abbrev issuerSupervisor : Nat := 65

/-- The issuer of the check run's reads (R390). -/
abbrev issuerCheck : Nat := 67

/-- The issuer of an operation whose issuer is gone: its tag is retired at completion or timeout (Table 18-4). -/
abbrev issuerNone : Nat := 66

/-- The key of a triple of this source: target and lane (R311). -/
def tripleKey (node vl : Nat) : Nat := node * 4 + vl

/-! ### Operations of other nodes, decided at the target (R309, R315) -/

/-- The triple of an arriving operation: its source and lane. -/
def frameTriple (f : Frame) : Nat := tripleKey f.source f.vl

/-- An operation of a triple is decided: the next SEQ is expected. -/
def State.advanceTriple (s : State) (f : Frame) : State := { s with seqExpected := Tab.put s.seqExpected (frameTriple f) ((f.seq + 1) % 65536) }

/-- An operation is decided and its completion leaves. -/
def State.decideOp (s : State) (f : Frame) (status operand : Nat) (data : List Byte) : State :=
  let s := if status = OK then s.bump 0x4038 2 1 else s
  (s.advanceTriple f).complete f status operand data

/-- The rows of a window that an operation's bytes touch. -/
def frameRows (f : Frame) (n : Nat) : List Nat := rowsOf (windowOffset f.address) n

/-- The window PUTs of a tile that have landed and whose rows await no verify read any more are complete (R272). -/
def State.settleLanded (s : State) (t : Nat) : State :=
  let waits (f : Frame) : Bool := (frameRows f f.payload.length).any fun r => (s.tile t).verifyDue.contains r
  let go := (s.tile t).windowLanded.filter fun f => !waits f
  go.foldl (fun s f => s.decideOp f OK 0 []) (s.updTile t fun x => { x with windowLanded := x.windowLanded.filter waits })

/-- The window PUTs that wrote a row whose verify read failed end with DATA_CRC (R272). -/
def State.failLanded (s : State) (t row : Nat) : State :=
  let hit (f : Frame) : Bool := (frameRows f f.payload.length).contains row
  let go := (s.tile t).windowLanded.filter hit
  go.foldl (fun s f => s.decideOp f DATA_CRC 0 []) (s.updTile t fun x => { x with windowLanded := x.windowLanded.filter fun f => !hit f })

/-- Why an operation to a device node fails at its source (R302, R305, R317). -/
def State.routeRefusal (s : State) (node : Nat) : Nat :=
  if 16384 ≤ node then ACCESS_PROTECT
  else if (s.routePort node).isNone then FABRIC_UNREACHABLE
  else OK

/-- The status with which an operation to a node other than this one starts: OK where it is sent. -/
def State.issueStatus (s : State) (node opcode address : Nat) : Nat :=
  if node = 0xFFFE then s.hostRefusal opcode address else s.routeRefusal node

/-- The counter of an operation's failure (Table 14-6, Table 15-10). -/
def State.countFail (s : State) (host : Bool) (code : Nat) : State :=
  if code = FABRIC_TIMEOUT then (if host then s.bump 0x5040 8 1 else s.bump 0x4038 3 1)
  else if code = FABRIC_CRC then s.bump 0x4038 4 1
  else if code = FABRIC_UNREACHABLE then s.bump 0x4038 5 1
  else if host && (code = HOST_COMPLETION || code = MEM_UNCORRECTABLE) then s.bump 0x5040 9 1
  else s

/-- The SEQ of a triple's next operation. -/
def State.nextSeq (s : State) (node vl : Nat) : Nat := Tab.get s.seqNext 0 (tripleKey node vl)

/-- The 8-byte payload of a SIGNAL: the next SEQ of every lane, the SIGNAL's own on its lane (R311). -/
def State.signalPayload (s : State) (node : Nat) : List Byte := (List.range 4).flatMap fun l => leBytes 2 (s.nextSeq node l)

/-- A source keeps at most 4,096 operations of one triple issued and not completed (R311). -/
def State.tripleFull (s : State) (node vl : Nat) : Bool :=
  4096 ≤ (s.remoteOps.filter fun r => !r.waits && r.target = node && r.vl = vl && !r.host && r.opcode ≠ 6).length

/-- An operation leaves for another node through its port, with the next SEQ of its triple (R311). -/
def State.launchOp (s : State) (r : RemoteOp) : State :=
  match s.routePort r.target with
  | none => s
  | some p =>
    let f : Frame := { version := s.entry (0x4040 + p) 2, opcode := r.opcode, vl := r.vl, hops := 0, mcastGroup := 0
                       seq := s.nextSeq r.target r.vl, operand := r.operand, tag := r.tag, length := r.length, source := s.nodeId
                       target := r.target, address := r.address
                       payload := if r.opcode = 5 then s.signalPayload r.target else r.data, crcOk := true }
    (({ s with seqNext := Tab.put s.seqNext (tripleKey r.target r.vl) ((f.seq + 1) % 65536) }).bump 0x4038 1 1).sendFrame p f

/-- An operation enters the source's queue: a frame for a device, a request for the host; its completion timer starts (R311, R316, R332). -/
def State.issueOp (s : State) (node vl opcode address length operand : Nat) (data : List Byte) (issuer job opId : Nat) : State :=
  let tag := s.nextTag
  let rec' : RemoteOp := { tag := tag, target := node, vl := vl, opcode := opcode, address := address, length := length
                           operand := operand, issuer := issuer, job := job, opId := opId, issuedAt := s.now
                           timeout := 1000 * s.entry 0x4010 2
                           host := node = 0xFFFE, data := data
                           pieces := if node = 0xFFFE then s.hostLink.requests opcode address length else [] }
  if node = 0xFFFE then (({ s with remoteOps := s.remoteOps ++ [rec'], nextTag := (tag + 1) % 2 ^ 32 }).bump 0x5040 7 1).sendHost rec'
  else
    match s.routePort node with
    | none => s
    | some _ =>
      let full := s.tripleFull node vl
      let s := { s with remoteOps := s.remoteOps ++ [{ rec' with waits := full }], nextTag := (tag + 1) % 2 ^ 32 }
      if full then s else s.launchOp rec'

/-- Once a triple has room, the operations that wait for it leave in their order; one whose port is no longer UP is lost,
and its timer runs (R302, R311, R316). -/
def State.releaseWaits (s : State) (node vl : Nat) : State :=
  (s.remoteOps.filter fun o => o.waits && o.target = node && o.vl = vl).foldl (fun s o =>
    if s.tripleFull node vl then s
    else
      ({ s with remoteOps := s.remoteOps.map fun (r : RemoteOp) => if r.tag = o.tag then { r with waits := false, issuedAt := s.now, timeout := 1000 * s.entry 0x4010 2 } else r }).launchOp o) s

/-! ### Multicast (R304, R318) -/

/-- The ports that carry a group onward, but for the port of arrival. -/
def State.groupPorts (s : State) (g arrival : Nat) : List Nat := (List.range 16).filter fun p => bit (s.entry (0x4300 + g) 1) p && p ≠ arrival

/-- The status of a copy that cannot be sent through a port: down, or a version 2 link (R302, R304). -/
def State.copyStatus (s : State) (p : Nat) : Nat :=
  if s.portState p ≠ portUp then FABRIC_UNREACHABLE else if s.entry (0x4040 + p) 2 = 2 then FABRIC_VERSION else OK

/-- The worst of two statuses: the larger code (log entry 17). -/
def worst (a b : Nat) : Nat := max a b

/-- The copies of an MCAST-PUT leave through the group's ports; its completion waits for each of them (R318). -/
def State.sendCopies (s : State) (f : Frame) (fromPort status : Nat) : State :=
  let ports := s.groupPorts f.mcastGroup fromPort
  let open' := ports.filter fun p => s.copyStatus p = OK
  let st := (ports.map fun p => s.copyStatus p).foldl worst status
  let s := open'.foldl (fun s p => s.sendFrame p { f with version := s.entry (0x4040 + p) 2 }) s
  { s with mcastWaits := s.mcastWaits ++ [{ source := f.source, tag := f.tag, fromPort := fromPort, waiting := open', status := st }] }

/-- An MCAST-PUT leaves its source, Geyser, on virtual lane 1; it carries SEQ 0 and enters no triple (R314, R318, log entry 17). -/
def State.mcastSend (s : State) (group address : Nat) (data : List Byte) (job slot : Nat) : State :=
  let f : Frame := { version := 3, opcode := 6, vl := 1, hops := 0, mcastGroup := group, seq := 0, operand := 0, tag := s.nextTag
                     length := data.length, source := s.nodeId, target := s.nodeId, address := address, payload := data, crcOk := true }
  let o : RemoteOp := { tag := s.nextTag, target := s.nodeId, vl := 1, opcode := 6, address := address, length := data.length
                        operand := 0, issuer := issuerGeyser, job := job, opId := slot, issuedAt := s.now
                        timeout := 1000 * s.entry 0x4010 2, host := false, data := [] }
  ((({ s with remoteOps := s.remoteOps ++ [o], nextTag := (s.nextTag + 1) % 2 ^ 32 }).bump 0x4038 1 1)).sendCopies f 255 OK

/-- An operation leaves the outstanding list. -/
def State.dropOp (s : State) (tag : Nat) : State := { s with remoteOps := s.remoteOps.filter fun r => r.tag ≠ tag }

/-- The outstanding operation of a tag. -/
def State.findOp (s : State) (tag : Nat) : Option RemoteOp := s.remoteOps.find? fun r => r.tag = tag

/-- The operations of a job lose their issuers, and those that have not left are discarded (R392, Table 18-4). -/
def State.orphanOps (s : State) (lost : RemoteOp → Bool) : State :=
  { s with remoteOps := (s.remoteOps.filter fun r => !(r.waits && lost r)).map fun (r : RemoteOp) => if lost r then { r with issuer := issuerNone } else r }

/-- Whether some operations are outstanding and each of them waits for a host-link tag (R334, R411). -/
def State.awaitTags (s : State) (mine : RemoteOp → Bool) : Bool :=
  let ops := s.remoteOps.filter mine
  !ops.isEmpty && ops.all fun r => s.hostLink.tagWaiters.any fun p => p.1 = r.tag

/-- Whether an issuer has an operation that has not completed (R312). -/
def State.issuerBusy (s : State) (issuer : Nat) : Bool := s.remoteOps.any fun r => r.issuer = issuer

end Sys2Proof.Machine
end

