-- ==== Sys2Proof/Machine/Transfer.lean ====
section
/-! DEFINITION. Layout descriptors, the elements of a transfer, its bounding box, and the rows and bytes it moves (R123-R138, R145). -/

namespace Sys2Proof.Machine

/-! ### Layout descriptors (R124, R125) -/

/-- The bits of an element width code. -/
def ewBits (ew : Nat) : Nat :=
  match ew with
  | 0 => 4
  | 1 => 8
  | 2 => 16
  | 3 => 32
  | 4 => 36
  | _ => 64

def Layout.rows (d : Layout) : Nat := d.r2 * d.r1 * d.r0
def Layout.cols (d : Layout) : Nat := d.c2 * d.c1 * d.c0

/-- The six strides, column then row from level 0; DENSE derives them (R125). -/
def Layout.strides (d : Layout) : List Int :=
  if d.dense then
    let t0 : Int := d.r0 * d.c0
    let t1 : Int := d.r1 * d.c1 * t0
    [1, d.c0, t0, d.c1 * t0, t1, d.c2 * t1]
  else [d.s0c, d.s0r, d.s1c, d.s1r, d.s2c, d.s2r]

/-- The offset of a logical element, in elements (R125). -/
def Layout.offset (d : Layout) (row col : Nat) : Int :=
  let s := d.strides
  let k (i : Nat) : Int := s.getD i 0
  (row % d.r0 : Nat) * k 1 + (col % d.c0 : Nat) * k 0 + (row / d.r0 % d.r1 : Nat) * k 3 + (col / d.c0 % d.c1 : Nat) * k 2
    + (row / (d.r0 * d.r1) : Nat) * k 5 + (col / (d.c0 * d.c1) : Nat) * k 4

/-- The class of an element (R128): its bit offset from the base where it is in bounds. -/
inductive ElemAt where
  | padding
  | outside
  | at (bitOff : Int)

/-- The class of element (row, col). -/
def Layout.classify (d : Layout) (row col : Nat) : ElemAt :=
  let w := ewBits d.ew
  let b := (w : Int) * d.offset row col
  if d.validRows ≤ row ∨ d.validCols ≤ col then .padding
  else if b < 8 * d.boundLo ∨ 8 * (d.boundLo + d.boundBytes) < b + w then .outside
  else .at b

/-! ### What a transfer moves -/

/-- The shape of a transfer: its memory side as a descriptor, the limbs that STRIPE LIMB counts, and whether a row holds 64-bit elements in lane pairs. -/
structure Shape where
  d : Layout
  level : Nat
  pairs : Bool := false
deriving DecidableEq, Repr, Inhabited

/-- `rows` logical rows of `cols` elements of width code `ew`, without gaps. -/
def plainLayout (rows cols ew : Nat) : Layout :=
  { version := 1, ew := ew, stripe := 0, reduce := 0, dense := false, windowRel := false, c0 := cols, r0 := rows, c1 := 1, r1 := 1
    c2 := 1, r2 := 1, validCols := cols, validRows := rows, s0c := 1, s0r := cols, s1c := 0, s1r := 0, s2c := 0, s2r := 0
    boundLo := 0, boundBytes := ceilDiv (rows * cols * ewBits ew) 8, reserved := 0, fill := 0 }

/-- The canonical layout of `n` 36-bit elements in rows of `cols` (R123). -/
def canonicalLayout (rows cols : Nat) : Layout := plainLayout rows cols 4

/-- The bytes of a gate sample (R69). -/
def sampleBytes (p : ParamSet) : Nat := 64 * ceilDiv ((p.lweN + 1) * (if p.lweModKind = 0 then 4 else 8)) 64

/-- The canonical layout of `count` gate samples: each starts on a 64-byte boundary (R69, R123). -/
def sampleLayout (p : ParamSet) (count : Nat) : Layout :=
  let w := if p.lweModKind = 0 then 4 else 8
  { plainLayout count (p.lweN + 1) (if w = 4 then 3 else 5) with s0r := (sampleBytes p / w : Nat), boundBytes := count * sampleBytes p }

/-- Whether 64-bit elements stand in lane pairs: not the samples of a set whose LWE modulus is listed (R145). -/
def pairsOf (ew : Nat) (p : Option ParamSet) : Bool := ew = 5 && !(p.any fun p => p.family = 1 && p.lweModKind = 2)

/-- The shape of a layout whose data belongs to a set. -/
def Layout.shape (d : Layout) (level : Nat) (p : Option ParamSet) : Shape := { d := d, level := max 1 level, pairs := pairsOf d.ew p }

/-- Lanes of one logical element: two where it stands in a lane pair (R145). -/
def Shape.lanes (x : Shape) : Nat := if x.pairs then 2 else 1

/-- Scratchpad rows of one logical row. -/
def Shape.rowsPer (x : Shape) : Nat := ceilDiv (x.d.cols * x.lanes) 1024

/-- Whether rank `r` of `g` holds row `i` of logical row `k` (R138). -/
def Shape.holds (x : Shape) (g r k i : Nat) : Bool :=
  match x.d.stripe with
  | 1 => k % x.level % g = r
  | 2 => i % g = r
  | _ => true

/-- The logical row and the row within it of each scratchpad row that rank `r` of `g` holds (R138). -/
def Shape.share (x : Shape) (g r : Nat) : List (Nat × Nat) :=
  ((List.range x.d.rows).flatMap fun k => (List.range x.rowsPer).map fun i => (k, i)).filter fun p => x.holds g r p.1 p.2

/-- The columns of a logical row that its scratchpad row `i` holds. -/
def Shape.columns (x : Shape) (i : Nat) : List Nat := ((List.range (1024 / x.lanes)).map fun n => 1024 * i / x.lanes + n).filter fun c => c < x.d.cols

/-- The bit address of an element, none where it is padding or out of bounds. -/
def Shape.addressOf (x : Shape) (base k c : Nat) : Option Nat :=
  match x.d.classify k c with
  | .at b => some (8 * (base : Int) + b).toNat
  | _ => none

/-- The elements of a scratchpad row in element order: their bit addresses, none for FILL. -/
def Shape.rowElems (x : Shape) (base : Nat) (p : Nat × Nat) : List (Option Nat) := (x.columns p.2).map fun c => x.addressOf base p.1 c

/-- The bit addresses of the in-bounds elements of a share, in element order. -/
def Shape.addresses (x : Shape) (base : Nat) (share : List (Nat × Nat)) : List Nat := share.flatMap fun e => (x.rowElems base e).filterMap id

/-! ### Addresses (R131, R132) -/

/-- Where a transfer reads or writes: local stack, a window of this device, or another node. -/
inductive Place where
  | stack (a : Nat)
  | window (t off : Nat)
  | remote (node a : Nat)
  | nowhere
deriving DecidableEq, Repr, Inhabited

/-- A global address translated and placed (R10, R131); `group` maps ranks to tiles where WINDOW_REL is set. -/
def State.place (s : State) (rel : Bool) (group : List Nat) (g : Nat) : Place :=
  let a := localOf g
  if !s.isSelf (nodeOf g) then .remote (nodeOf g) a
  else if isWindow a then
    if rel then (match group[windowTile a]? with | some t => .window t (windowOffset a) | none => .nowhere)
    else .window (windowTile a) (windowOffset a)
  else if inStack a 1 then .stack a
  else .nowhere

/-- The byte at a placed address that this device holds. -/
def State.placeByte (s : State) : Place → Byte
  | .stack a => s.memByte a
  | .window t off => ((s.windowBytes t (off / 18 * 18) 18).getD (off % 18) 0)
  | _ => 0

/-- The bytes that hold `w` bits from a bit address. -/
def bitSpan (bitAddr w : Nat) : Nat := (bitAddr % 8 + w + 7) / 8

/-- `w` bits from a bit address, where `f` gives the bytes. -/
def bitsFrom (f : Nat → Byte) (bitAddr w : Nat) : Nat :=
  bits (leNat ((List.range (bitSpan bitAddr w)).map fun i => f (bitAddr / 8 + i))) (bitAddr % 8) w

/-- `w` bits of this device's memory. -/
def State.readBits (s : State) (rel : Bool) (group : List Nat) (bitAddr w : Nat) : Nat := bitsFrom (fun a => s.placeByte (s.place rel group a)) bitAddr w

/-! ### Reads (R129, R130, R133; log entry 40) -/

/-- The places in arrived bytes where the elements start: an element at the address of the one before it arrives once (R133),
and one that begins in the last byte of the one before it shares that byte. -/
def arrivalStarts (w : Nat) (addrs : List Nat) : List Nat :=
  (addrs.foldl (fun (x : List Nat × Option Nat × Nat × Nat) a =>
    let n := bitSpan a w
    let at' := if x.2.1 = some a then x.2.2.1 else if x.2.1.any (fun b => (b + w - 1) / 8 = a / 8) then x.2.2.2 - 1 else x.2.2.2
    (x.1 ++ [at'], some a, at', at' + n)) ([], none, 0, 0)).1

/-- How many bytes bring some elements. -/
def arrivalLength (w : Nat) (addrs : List Nat) : Nat :=
  match addrs.getLast?, (arrivalStarts w addrs).getLast? with
  | some a, some n => n + bitSpan a w
  | _, _ => 0

/-- Element values read through `get`, which is given an in-bounds element's place among them and its address; the others are FILL. -/
def Shape.values (x : Shape) (elems : List (Option Nat)) (get : Nat → Nat → Nat) : List Nat :=
  ((elems.foldl (fun (acc : List Nat × Nat) e =>
    match e with
    | some a => (get acc.2 a :: acc.1, acc.2 + 1)
    | none => (x.d.fill % 2 ^ ewBits x.d.ew :: acc.1, acc.2)) ([], 0)).1).reverse

/-- Element values from this device's memory. -/
def State.localValues (s : State) (x : Shape) (group : List Nat) (elems : List (Option Nat)) : List Nat :=
  x.values elems fun _ a => s.readBits x.d.windowRel group a (ewBits x.d.ew)

/-- Element values from the bytes that arrived for them. -/
def Shape.arrivedValues (x : Shape) (elems : List (Option Nat)) (data : List Byte) : List Nat :=
  let w := ewBits x.d.ew
  let starts := arrivalStarts w (elems.filterMap id)
  x.values elems fun i a => bits (leNat (sliceBytes data (starts.getD i 0) (bitSpan a w))) (a % 8) w

/-- Element values from the copy of a body that begins at `base`. -/
def Shape.copiedValues (x : Shape) (base : Nat) (elems : List (Option Nat)) (copy : List Byte) : List Nat :=
  x.values elems fun _ a => bits (leNat (sliceBytes copy (a / 8 - base) (bitSpan a (ewBits x.d.ew)))) (a % 8) (ewBits x.d.ew)

/-- Element values as a scratchpad row; lanes beyond them are zero. -/
def Shape.row (x : Shape) (vs : List Nat) : Row :=
  rowMap fun l => if x.pairs then bits (vs.getD (l / 2) 0) (32 * (l % 2)) 32 else vs.getD l 0

/-! ### Writes (R129, R130, R135, R136) -/

/-- One byte written at a placed address of this device. -/
def State.putPlace (s : State) (p : Place) (b : Byte) : State :=
  match p with
  | .stack a => s.memWrite a [b]
  | .window t off =>
    let r := off / 4608
    let old := s.rowImage t r
    (s.setRow t r (bytesRow (old.set (off % 4608) b))).cancelWriteBack t r fun w => w = off % 4608 / 18
  | _ => s

/-- `w` bits written at a bit address; the other bits of shared bytes keep their values (R129). -/
def State.writeBits (s : State) (rel : Bool) (group : List Nat) (bitAddr w v : Nat) : State :=
  let n := bitSpan bitAddr w
  let at' (i : Nat) : Place := s.place rel group (bitAddr / 8 + i)
  let old := leNat ((List.range n).map fun i => s.placeByte (at' i))
  let lo := bitAddr % 8
  let new := old % 2 ^ lo + v % 2 ^ w * 2 ^ lo + old / 2 ^ (lo + w) * 2 ^ (lo + w)
  ((List.range n).foldl (fun s i => s.putPlace (at' i) (BitVec.ofNat 8 (new / 256 ^ i))) s)

/-- An element of a write: bit address, value, and the modulus word of its limb. -/
structure PutElem where
  bitAddr : Nat
  value : Nat
  word : Nat

/-- The modulus of an element. -/
def PutElem.q (e : PutElem) : Nat := modulusOf e.word

/-- The element values of a scratchpad row. -/
def Shape.rowValues (x : Shape) (p : Nat × Nat) (r : Row) : List (Nat × Nat) :=
  (x.columns p.2).zipIdx.map fun c =>
    (c.1, if x.pairs then Row.lane r (2 * c.2) % 2 ^ 32 + 2 ^ 32 * (Row.lane r (2 * c.2 + 1) % 2 ^ 32) else Row.lane r c.2)

/-- The elements that rows give a write, in element order, and how many are dropped out of bounds (R128, R130). -/
def Shape.scatterElems (x : Shape) (base : Nat) (rows : List ((Nat × Nat) × Row)) (word : Nat → Nat) : List PutElem × Nat :=
  let all := rows.flatMap fun e => (x.rowValues e.1 e.2).filterMap fun v =>
    match x.d.classify e.1.1 v.1 with
    | .padding => none
    | .outside => some (none : Option PutElem)
    | .at b => some (some { bitAddr := (8 * (base : Int) + b).toNat, value := v.2 % 2 ^ ewBits x.d.ew, word := word e.1.1 })
  (all.filterMap id, (all.filter Option.isNone).length)

/-- The modular sum per address that REDUCE combines, in element order (R136). -/
def combineElems (l : List PutElem) : List PutElem :=
  l.foldl (fun acc e =>
    if acc.any fun a => a.bitAddr = e.bitAddr then
      acc.map fun a => if a.bitAddr = e.bitAddr then { a with value := (a.value + e.value % a.q) % a.q } else a
    else acc ++ [{ e with value := e.value % e.q }]) []

/-- The elements of a write as REDUCE leaves them: ACCUMULATE adds the destination's contents (R136). -/
def State.reduceElems (s : State) (x : Shape) (group : List Nat) (l : List PutElem) : List PutElem :=
  match x.d.reduce with
  | 1 => combineElems l
  | 2 => (combineElems l).map fun e => { e with value := (s.readBits x.d.windowRel group e.bitAddr 36 % e.q + e.value) % e.q }
  | _ => l

/-- Elements written one by one, so that a later one at the same address stands (R135). -/
def State.scatter (s : State) (x : Shape) (group : List Nat) (l : List PutElem) : State :=
  (s.reduceElems x group l).foldl (fun s e => s.writeBits x.d.windowRel group e.bitAddr (ewBits x.d.ew) e.value) s

/-! ### Writes to another node (R129, R136, R308; log entry 69) -/

/-- Elements that stand one behind the other in memory, as runs: first bit address and the elements. -/
def putRuns (w : Nat) (join : PutElem → PutElem → Bool) (l : List PutElem) : List (Nat × List PutElem) :=
  (l.foldl (fun (acc : List (Nat × List PutElem)) e =>
    match acc with
    | (a, run) :: rest =>
      if e.bitAddr = a + w * run.length ∧ (run.head?.all fun f => join f e) then (a, run ++ [e]) :: rest else (e.bitAddr, [e]) :: acc
    | [] => [(e.bitAddr, [e])]) []).reverse

/-- The bits of elements in order. -/
def packElems (w : Nat) (l : List PutElem) : Nat := l.foldr (fun (e : PutElem) acc => e.value + 2 ^ w * acc) 0

/-- The bytes of a run for a PUT: bits of its first and last byte that lie outside it keep what the target holds, free values here (R129). -/
def runBytes (free w : Nat) (r : Nat × List PutElem) : List Byte :=
  let lo := r.1 % 8
  let n := w * r.2.length
  let old (i : Nat) : Nat := (Config.remoteByte free (r.1 / 8 + i)).toNat
  let last := bitSpan r.1 n - 1
  leBytes (last + 1) (old 0 % 2 ^ lo + packElems w r.2 * 2 ^ lo + (old last * 256 ^ last) / 2 ^ (lo + n) * 2 ^ (lo + n))

/-- The elements of a run as ADDMOD payload: from a byte boundary and an even number, with zeros added at either end (R307, R308). -/
def addRun (r : Nat × List PutElem) : Nat × List PutElem :=
  let word := (r.2.head?.map fun e => e.word).getD 0
  let zero : PutElem := { bitAddr := 0, value := 0, word := word }
  let l := if r.1 % 8 = 4 then zero :: r.2 else r.2
  ((if r.1 % 8 = 4 then r.1 - 36 else r.1), if l.length % 2 = 1 then l ++ [zero] else l)

/-! ### Runs and aliases (R134, R135, R137) -/

/-- Insertion by ascending stride magnitude. -/
def insertStride (x : Nat × Nat) : List (Nat × Nat) → List (Nat × Nat)
  | [] => [x]
  | y :: ys => if x.1 ≤ y.1 then x :: y :: ys else y :: insertStride x ys

/-- The dimensions of count above 1 as (|stride|, count), ascending. -/
def Layout.dims (d : Layout) : List (Nat × Nat) :=
  let counts := [d.c0, d.r0, d.c1, d.r1, d.c2, d.r2]
  let l := (List.range 6).map fun i => ((d.strides.getD i 0).natAbs, counts.getD i 1)
  (l.filter fun p => 1 < p.2).foldl (fun acc p => insertStride p acc) []

/-- Two strides equal, or one zero: the descriptor aliases provably (R134). -/
def Layout.aliases (d : Layout) : Bool :=
  let l := d.dims.map fun p => p.1
  l.contains 0 || (List.range l.length).any fun i => 0 < i && l.getD i 0 = l.getD (i - 1) 0

/-- Every step exceeds the reach of the smaller ones: no two elements share an address (R134). -/
def Layout.distinct (d : Layout) : Bool :=
  let l := d.dims
  (List.range l.length).all fun i => ((l.take i).map fun p => p.1 * (p.2 - 1)).sum < (l.getD i (0, 0)).1

/-- Whether a write runs in ordered mode (R134, R135). -/
def Layout.ordered (d : Layout) : Bool := !d.distinct

/-- Aliases found among the last 64 granules written: each granule of each element in turn (R135). -/
def aliasCount (w : Nat) (addrs : List Nat) : Nat :=
  ((addrs.flatMap fun a => if (a + w - 1) / 2048 = a / 2048 then [a / 2048] else [a / 2048, (a + w - 1) / 2048]).foldl
    (fun (acc : List Nat × Nat) g =>
      if acc.1.head? = some g then acc
      else (List.take 64 (g :: acc.1), if acc.1.contains g then acc.2 + 1 else acc.2)) ([], 0)).2

/-- The runs of a sequence of bit addresses: first address and length in bits (R137). -/
def runsOf (w : Nat) (addrs : List Nat) : List (Nat × Nat) :=
  (addrs.foldl (fun (acc : List (Nat × Nat)) a =>
    match acc with
    | [] => [(a, w)]
    | (b, n) :: rest => if a = b + n then (b, n + w) :: rest else if n = w ∧ a = b then acc else (a, w) :: acc) []).reverse

/-- Runs that move at one granule per cycle: unaligned, or in ordered mode (R135, R137). -/
def halfSpeedRuns (w : Nat) (addrs : List Nat) (ordered : Bool) : Nat :=
  ((runsOf w addrs).filter fun r => ordered || r.1 % 2048 ≠ 0 || r.2 % 2048 ≠ 0).length

/-- The logical elements in the generator's order: the rows of one level-0 tile, then the next tile (R137, log entry 70). -/
def Layout.tileOrder (d : Layout) : List (Nat × Nat) :=
  (List.range d.r2).flatMap fun r2 => (List.range d.c2).flatMap fun c2 => (List.range d.r1).flatMap fun r1 => (List.range d.c1).flatMap fun c1 =>
    (List.range d.r0).flatMap fun r0 => (List.range d.c0).map fun c0 => (r0 + d.r0 * (r1 + d.r1 * r2), c0 + d.c0 * (c1 + d.c1 * c2))

/-- The bit addresses of the in-bounds elements of a share in the order in which they move: element order in ordered mode, else the generator's. -/
def Shape.moveOrder (x : Shape) (base : Nat) (share : List (Nat × Nat)) (ordered : Bool) : List Nat :=
  if ordered then x.addresses base share
  else
    match share.getLast? with
    | none => []
    | some l =>
      let mine (e : Nat × Nat) : Bool :=
        let i := e.2 * x.lanes / 1024
        decide (e.1 < l.1 ∨ (e.1 = l.1 ∧ i ≤ l.2)) && share.any fun p => p = (e.1, i)
      (x.d.tileOrder.filter mine).filterMap fun e => x.addressOf base e.1 e.2

/-! ### The bounding box (R132) -/

/-- The first and last byte of the in-bounds elements of the full padded extent. -/
def Shape.box (x : Shape) (base : Nat) : Option (Nat × Nat) :=
  let all := x.addresses base (x.share 1 0)
  match all with
  | [] => none
  | a :: rest =>
    let lo := rest.foldl min a
    let hi := rest.foldl max a
    some (lo / 8, (hi + ewBits x.d.ew - 1) / 8)

/-- Whether addresses of a node are ones that a region may open: never the mirror, the key store or a constant block (R132, R277, R306). -/
def State.reachable (s : State) (node lo hi : Nat) : Bool :=
  node = 0xFFFE || inStack lo (hi + 1 - lo) || (!s.isSelf node && isWindow lo && isWindow hi)

/-- Whether a memory region of the certificate grants a right on a byte range of a node; an admitted image is never written (R132, R215, R244). -/
def State.regionGrants (s : State) (im : Image) (write : Bool) (node lo hi : Nat) : Bool :=
  s.reachable node lo hi && !(write && s.isSelf node && s.inImage lo (hi + 1 - lo)) && im.memRegions.any fun r =>
    (if s.isSelf (nodeOf r.base) then s.isSelf node else nodeOf r.base = node) && localOf r.base ≤ lo && hi < localOf r.base + r.size
      && (if write then r.kind = 0 || r.kind = 4 || r.kind = 5 else r.kind = 0 || r.kind = 3 || r.kind = 5)

/-- Whether a transfer's box may be accessed: a window of the group, or a declared region with the right (R132). -/
def State.boxAllowed (s : State) (j : Nat) (im : Image) (rel write : Bool) (base lo hi : Nat) : Bool :=
  let node := nodeOf base
  let group := (s.job j).group
  if s.isSelf node && isWindow (localOf lo) then
    let place (a : Nat) : Option Nat := match s.place rel group (node * 2 ^ 48 + localOf a) with
      | .window t off => if off < windowServed ∧ group.contains t then some t else none
      | _ => none
    (place lo).isSome && place lo = place hi
  else s.regionGrants im write node (localOf lo) (localOf hi)

end Sys2Proof.Machine
end

