-- ==== Sys2Proof/Machine/Image.lean ====
section
/-! DEFINITION. The program image as bytes: header, certificate, tables, code streams, and the bundle sequence that it fixes (R198, R239-R245). -/

namespace Sys2Proof.Machine

/-- `n` bytes at an offset, as a number (R6). -/
def fieldAt (b : List Byte) (off n : Nat) : Nat := leNat ((b.drop off).take n)

/-! ### The header (Table 11-1) -/

/-- An offset and a count; for the certificate, its length in bytes. -/
structure Section where
  off : Nat
  count : Nat
deriving DecidableEq, Repr, Inhabited

/-- The image header. -/
structure Head where
  magic : Nat
  format : Nat
  version : Nat
  groupSize : Nat
  length : Nat
  cert : Section
  handles : Section
  loops : Section
  longOps : Section
  layouts : Section
  streams : Section
  code : Section
  sets : Section
deriving DecidableEq, Repr, Inhabited

/-- The section that the header names at a byte. -/
def sectionAt (b : List Byte) (o : Nat) : Section := { off := fieldAt b o 4, count := fieldAt b (o + 4) 4 }

/-- The header of an image. -/
def readHead (b : List Byte) : Head where
  magic := fieldAt b 0 4
  format := fieldAt b 4 1
  version := fieldAt b 5 1
  groupSize := fieldAt b 6 2
  length := fieldAt b 8 4
  cert := sectionAt b 16
  handles := sectionAt b 24
  loops := sectionAt b 32
  longOps := sectionAt b 40
  layouts := sectionAt b 48
  streams := sectionAt b 56
  code := sectionAt b 64
  sets := sectionAt b 72

/-! ### The certificate (Tables 11-3 to 11-6) -/

/-- The fixed part of the certificate. -/
def readCert (b : List Byte) (o : Nat) : Cert where
  version := fieldAt b o 1
  point := fieldAt b (o + 1) 1
  streamsMax := fieldAt b (o + 2) 1
  spanCount := fieldAt b (o + 3) 1
  ashTraps := fieldAt b (o + 4) 2
  devices := fieldAt b (o + 6) 2
  tileMask := fieldAt b (o + 8) 8
  maxDuration := fieldAt b (o + 16) 8
  icacheLines := fieldAt b (o + 24) 4
  geyserRate := fieldAt b (o + 28) 2
  regionCount := fieldAt b (o + 30) 2
  barrierMask := fieldAt b (o + 32) 8
  completionAddr := fieldAt b (o + 40) 8
  completionInc := fieldAt b (o + 48) 4
  phaseCount := fieldAt b (o + 52) 1
  fabric := (List.range 17).map fun i => fieldAt b (o + 128 + 4 * i) 4
  banks := (List.range 1024).map fun i => fieldAt b (o + 256 + 2 * i) 2

/-- A region entry. -/
def readRegion (b : List Byte) (o : Nat) : Region where
  space := fieldAt b o 1
  flags := fieldAt b (o + 1) 1
  kind := fieldAt b (o + 2) 1
  lead := fieldAt b (o + 12) 4
  size := fieldAt b (o + 16) 8
  base := fieldAt b (o + 24) 8

/-- A span entry; unused guards are 0xFFFF. -/
def readSpan (b : List Byte) (o : Nat) : Span :=
  let pairs := (List.range 4).map fun i => (fieldAt b (o + 8 + 2 * i) 2, fieldAt b (o + 16 + 2 * i) 2)
  let used := pairs.filter fun p => p.2 ≠ 0xFFFF
  { opensAt := fieldAt b o 4, refresh := used.map fun p => p.1, guards := used.map fun p => p.2 }

/-- Where the regions, phases and spans stand. -/
def Head.regionOff (h : Head) (i : Nat) : Nat := h.cert.off + 2304 + 32 * i
def Head.phaseOff (h : Head) (c : Cert) (i : Nat) : Nat := h.regionOff c.regionCount + 8 * i
def Head.spanOff (h : Head) (c : Cert) (i : Nat) : Nat := h.phaseOff c c.phaseCount + 32 * i

/-! ### Tables -/

/-- A handle entry (Table 11-2); FLAGS is bits 7 to 4. -/
def readHandle (b : List Byte) (o : Nat) : HandleDecl :=
  let v := fieldAt b o 8
  { kind := bits v 0 2, flags := bits v 4 4, set := bits v 14 8, level := bits v 22 8, layout := bits v 30 10, count := bits v 40 24 + 1
    tag := fieldAt b (o + 8) 8, bodyAddr := fieldAt b (o + 16) 8, descAddr := fieldAt b (o + 24) 8 }

/-- A loop-table entry as LAST and TRIP (Table 9-4). -/
def readLoop (b : List Byte) (o : Nat) : Nat × Nat := (bits (fieldAt b o 8) 24 24, bits (fieldAt b o 8) 0 24)

/-- A region field: first row and count (R216). -/
def rgnField (v lo : Nat) : Nat × Nat := (bits v (lo + 12) 12, bits v lo 12)

/-- A long-operation entry (Table 10-1). -/
def readLongOp (b : List Byte) (o : Nat) : LongOp :=
  let v := fieldAt b o 64
  { code := bits v 0 8, limbs := bits v 8 8, comps := bits v 16 4, mode := bits v 24 8, qm := bits v 36 4, mods := bits v 40 8
    rgnA := rgnField v 192, rgnB := rgnField v 216, rgnC := rgnField v 240, rgnD := rgnField v 264, tab := bits v 288 16
    hina := bits v 304 16, hinb := bits v 320 16, hout := bits v 336 16, opnd := bits v 352 32, b64 := bits v 384 64, a64 := bits v 448 64 }

/-- A layout descriptor (Table 6-1). -/
def readLayout (b : List Byte) (o : Nat) : Layout :=
  let v := fieldAt b o 64
  { version := bits v 0 4, ew := bits v 4 4, stripe := bits v 8 2, reduce := bits v 10 2, dense := bit v 12, windowRel := bit v 13
    c0 := bits v 14 8 + 1, r0 := bits v 22 8 + 1, c1 := bits v 30 8 + 1, r1 := bits v 38 8 + 1, c2 := bits v 46 9 + 1, r2 := bits v 55 9 + 1
    validCols := bits v 64 32, validRows := bits v 96 32, s0c := signed 32 (bits v 128 32), s0r := signed 32 (bits v 160 32)
    s1c := signed 32 (bits v 192 32), s1r := signed 32 (bits v 224 32), s2c := signed 32 (bits v 256 32), s2r := signed 32 (bits v 288 32)
    boundLo := signed 64 (bits v 320 64), boundBytes := bits v 384 64, reserved := bits v 448 28, fill := bits v 476 36 }

/-- A stream entry (Table 8-4). -/
def readStream (b : List Byte) (o : Nat) : StreamEntry :=
  let v := fieldAt b o 128
  { version := bits v 0 8, sourceKind := bits v 32 4, destMap := bits v 36 4, flags := bits v 40 8, groupSize := bits v 48 8, kind := bits v 56 8
    useLevel := bits v 64 8, reserved := bits v 72 200, rate := bits v 272 16, ringKib := bits v 288 16, mcastGroup := bits v 304 16
    destRows := bits v 320 16, destRow := bits v 336 16, galois := bits v 352 32, wireLength := bits v 384 64, source := bits v 448 64
    handles := (List.range 32).map fun i => bits v (512 + 16 * i) 16 }

/-- The code entry of a rank: offset and bundle count. -/
def codeEntry (b : List Byte) (h : Head) (r : Nat) : Section := sectionAt b (h.code.off + 16 * r)

/-- The bundles of a code stream. -/
def readCode (b : List Byte) (e : Section) : List Nat := (List.range e.count).map fun i => fieldAt b (e.off + 16 * i) 16

/-- A section's entries. -/
def readTable {α : Type} (b : List Byte) (x : Section) (size : Nat) (read : List Byte → Nat → α) : List α :=
  (List.range x.count).map fun i => read b (x.off + size * i)

/-- The image as admission reads it. -/
def readImage (b : List Byte) (h : Head) : Image :=
  let c := readCert b h.cert.off
  let ranks := List.range h.groupSize
  { format := h.format, groupSize := h.groupSize, length := h.length, cert := c
    regions := (List.range c.regionCount).map fun i => readRegion b (h.regionOff i)
    phases := (List.range c.phaseCount).map fun i => (fieldAt b (h.phaseOff c i + 4) 4, fieldAt b (h.phaseOff c i) 1)
    spans := (List.range c.spanCount).map fun i => readSpan b (h.spanOff c i)
    handles := readTable b h.handles 32 readHandle
    loops := readTable b h.loops 8 readLoop
    longOps := readTable b h.longOps 64 readLongOp
    layouts := readTable b h.layouts 64 readLayout
    streams := readTable b h.streams 128 readStream
    code := ranks.map fun r => readCode b (codeEntry b h r)
    codeBase := ranks.map fun r => (codeEntry b h r).off
    sets := readTable b h.sets 1 fun b o => fieldAt b o 1 }

/-! ### The bundle sequence (R198) -/

/-- The bundle sequence of a rank from bundle `b` on, each bundle with the loops active at it:
HALT ends it, and so does the end of the stream (R198). -/
def walkBundles (code : List Nat) (loops : List (Nat × Nat)) : Nat → Nat → List LoopFrame → List (Nat × List LoopFrame)
  | 0, _, _ => []
  | fuel + 1, b, fs =>
    match code[b]? with
    | none => []
    | some w =>
      if cOp w = copHalt then [(b, fs)]
      else
        let gs := if cOp w = copLoop then
            (match loops[cField w 16 10]? with
              | some e => { first := b + 1, last := e.1, trip := e.2, index := 0 } :: fs
              | none => fs)
          else fs
        let n := afterBundle b gs
        (b, fs) :: walkBundles code loops fuel n.1 n.2

/-- The bundles that a rank issues with their active loops, in order; the fuel exceeds any sequence that the loop limits allow. -/
def Image.walk (im : Image) (r : Nat) : List (Nat × List LoopFrame) := walkBundles (im.code.getD r []) im.loops (2 ^ 256) 0 []

/-- The bundles that a rank issues, in order. -/
def Image.issued (im : Image) (r : Nat) : List Nat := (im.walk r).map fun p => p.1

/-- The long-operation indices that a rank issues, in order. -/
def Image.lopsOf (im : Image) (r : Nat) : List Nat :=
  (im.issued r).filterMap fun b => lopIndexOf ((im.code.getD r []).getD b 0)

/-- A long-operation entry. -/
def Image.op (im : Image) (i : Nat) : LongOp := im.longOps.getD i default

/-- The line fetches of a rank through its instruction cache (R214). -/
structure LineWalk where
  sets : Tab (List Nat) := []
  last : Option Nat := none
  fetches : Nat := 0

/-- A line wanted: fetched if absent, and the most recent of its set. -/
def LineWalk.want (x : LineWalk) (line : Nat) : LineWalk :=
  let ways := Tab.get x.sets [] (line % 256)
  if ways.contains line then { x with sets := Tab.put x.sets (line % 256) (ways.erase line ++ [line]) }
  else { x with sets := Tab.put x.sets (line % 256) ((if ways.length < 4 then ways else ways.drop 1) ++ [line]), fetches := x.fetches + 1 }

/-- A prefetch: requested only if absent, and a line that is present keeps its place. -/
def LineWalk.ahead (x : LineWalk) (line lines : Nat) : LineWalk :=
  if line < lines ∧ !(Tab.get x.sets [] (line % 256)).contains line then x.want line else x

/-- A bundle issued. -/
def LineWalk.issue (lines : Nat) (x : LineWalk) (b : Nat) : LineWalk :=
  let y := x.want (b / 4)
  let y := if y.last = some (b / 4) then y else y.ahead (b / 4 + 1) lines
  { y with last := some (b / 4) }

/-- The count of line fetches of a rank; the first 1,024 lines are loaded at the start (R214). -/
def Image.lineFetches (im : Image) (r : Nat) : Nat :=
  let lines := ceilDiv (im.code.getD r []).length 4
  let start : LineWalk := { sets := (List.range (min lines 1024)).foldl (fun t l => Tab.put t (l % 256) (Tab.get t [] (l % 256) ++ [l])) [] }
  ((im.issued r).foldl (LineWalk.issue lines) start).fetches

end Sys2Proof.Machine
end

