-- ==== Sys2Proof/Machine/Checks.lean ====
section
/-! DEFINITION. The 96 contexts of the check-value units, which live in their dictionary entries (R386-R389). -/

namespace Sys2Proof.Machine

/-- The contexts of a unit, and the unit of a context (R386). -/
def unitContexts (u : Nat) : List Nat := (List.range 4).map fun c => 4 * u + c

/-- A context is BOUND to a user (R388). -/
def State.contextBound (s : State) (n : Nat) : Bool := s.entry (0xB100 + n) 1 = 1

/-- A context as its user leaves it in the entries: state, algorithm, RUNNING, LENGTH, owner. -/
def State.putCheck (s : State) (n state poly running length owner : Nat) : State :=
  ((((s.setEntry (0xB100 + n) 1 state).setEntry (0xB100 + n) 2 poly).setEntry (0xB100 + n) 3 running).setEntry (0xB100 + n) 4 length).setEntry
    (0xB100 + n) 5 owner

/-- A fresh context bound to a user (R387, R388). -/
def State.bindCheck (s : State) (n poly owner : Nat) : State := s.putCheck n 1 poly (2 ^ 64 - 1) 0 owner

/-- RUNNING and LENGTH as the bound user folds bytes. -/
def State.foldCheck (s : State) (n running length : Nat) : State := (s.setEntry (0xB100 + n) 3 running).setEntry (0xB100 + n) 4 length

/-- The user ends: the context is SAVED and keeps RUNNING and LENGTH (R388). -/
def State.endCheck (s : State) (n : Nat) : State :=
  if s.contextBound n then (s.setEntry (0xB100 + n) 1 2).setEntry (0xB100 + n) 5 0xFF else s

/-- The contexts that a job's users leave, with a failure or an abort, are SAVED (R388). -/
def State.endChecks (s : State) (j : Nat) : State :=
  ((List.range 96).filter fun n => s.contextBound n && s.entry (0xB100 + n) 5 = j).foldl (fun s n => s.endCheck n) s

/-- The first FREE or SAVED context of some units (R388). -/
def State.openCheck (s : State) (units : List Nat) : Option Nat := (units.flatMap unitContexts).find? fun n => !s.contextBound n

/-- A whole body folded through a bound context. -/
def State.foldBody (s : State) (n : Nat) (b : List Byte) : State := s.foldCheck n (crc64Run (2 ^ 64 - 1) b) b.length

/-- A user that folds a whole body at once leaves its context SAVED (R388). -/
def State.savedCheck (s : State) (n running length : Nat) : State := s.putCheck n 2 0 running length 0xFF

/-- The units that serve a node: a port's, the host link's, or stack writeback's (Table 18-1). -/
def State.unitsFor (s : State) (node : Nat) (here : Bool) : List Nat :=
  if here then [22, 23] else if node = 0xFFFE then [20, 21] else (s.routePort node).toList

end Sys2Proof.Machine
end

