-- ==== Sys2Proof/Machine/Keccak.lean ====
section
/-! DEFINITION. SHAKE128 of FIPS 202, which regenerates the uniform half of a seeded key (R187). -/

namespace Sys2Proof.Machine

/-- A 64-bit lane rotated left. -/
def rotl64 (x n : Nat) : Nat := (x * 2 ^ n) % 2 ^ 64 + x / 2 ^ (64 - n)

/-- Lane (x, y) of the 25 lanes of the state. -/
def lane (a : List Nat) (x y : Nat) : Nat := a.getD (x % 5 + 5 * (y % 5)) 0

/-- The 25 lanes built from their coordinates. -/
def lanes (f : Nat → Nat → Nat) : List Nat := (List.range 25).map fun i => f (i % 5) (i / 5)

/-- Where rho and pi take coordinate pair (x, y) next: (y, 2x + 3y) modulo 5. -/
def rhoNext (p : Nat × Nat) : Nat × Nat := (p.2, (2 * p.1 + 3 * p.2) % 5)

/-- The walk of rho from (1, 0): every lane but lane (0, 0), with its rotation, the triangular number of its step. -/
def rhoWalk : Nat → Nat → Nat × Nat → List ((Nat × Nat) × Nat)
  | 0, _, _ => []
  | k + 1, t, p => (p, (t + 1) * (t + 2) / 2 % 64) :: rhoWalk k (t + 1) (rhoNext p)

/-- The rotation of every lane but (0, 0), which rho leaves. -/
def rhoTable : List ((Nat × Nat) × Nat) := rhoWalk 24 0 (1, 0)

/-- The rotation of lane (x, y). -/
def rhoShift (x y : Nat) : Nat := (rhoTable.lookup (x, y)).getD 0

/-- One step of the linear feedback register of iota, over x^8 + x^6 + x^5 + x^4 + 1. -/
def iotaStep (r : Nat) : Nat := if 128 ≤ r then Nat.xor (2 * r - 256) 0x71 else 2 * r

/-- The output bits of the register, `k` of them, its state first 1. -/
def iotaBits : Nat → Nat → List Nat
  | 0, _ => []
  | k + 1, r => r % 2 :: iotaBits k (iotaStep r)

/-- The 24 x 7 bits that the rounds take. -/
def iotaStream : List Nat := iotaBits 168 1

/-- The constant of round `i`: its bit j of the register stands at position 2^j - 1. -/
def roundConstant (i : Nat) : Nat := ((List.range 7).map fun j => iotaStream.getD (7 * i + j) 0 * 2 ^ (2 ^ j - 1)).sum

/-- The 24 constants, one a round. -/
def roundTable : List Nat := (List.range 24).map roundConstant

/-- The column parities of theta. -/
def columnParity (a : List Nat) (x : Nat) : Nat :=
  Nat.xor (lane a x 0) (Nat.xor (lane a x 1) (Nat.xor (lane a x 2) (Nat.xor (lane a x 3) (lane a x 4))))

/-- theta. -/
def keccakTheta (a : List Nat) : List Nat :=
  let c := (List.range 5).map (columnParity a)
  let d := (List.range 5).map fun x => Nat.xor (c.getD ((x + 4) % 5) 0) (rotl64 (c.getD ((x + 1) % 5) 0) 1)
  lanes fun x y => Nat.xor (lane a x y) (d.getD x 0)

/-- rho and pi: lane (y, 2x + 3y) takes the rotated lane (x, y). -/
def keccakRhoPi (a : List Nat) : List Nat :=
  lanes fun x y =>
    let x' := (x + 3 * y) % 5
    rotl64 (lane a x' x) (rhoShift x' x)

/-- chi. -/
def keccakChi (a : List Nat) : List Nat :=
  lanes fun x y => Nat.xor (lane a x y) (Nat.land (2 ^ 64 - 1 - lane a (x + 1) y) (lane a (x + 2) y))

/-- iota. -/
def keccakIota (rc : Nat) (a : List Nat) : List Nat := a.set 0 (Nat.xor (lane a 0 0) rc)

/-- Keccak-f[1600]. -/
def keccakF (a : List Nat) : List Nat :=
  roundTable.foldl (fun s rc => keccakIota rc (keccakChi (keccakRhoPi (keccakTheta s)))) a

/-- One 168-byte block absorbed. -/
def keccakAbsorb (a : List Nat) (block : List Byte) : List Nat :=
  keccakF ((List.range 25).map fun i => Nat.xor (a.getD i 0) (leNat (sliceBytes block (8 * i) 8)))

/-- A message shorter than one block, with the SHAKE domain bits and the padding. -/
def shakePad (msg : List Byte) : List Byte :=
  (List.range 168).map fun i =>
    let b : Byte := if i < msg.length then (msg[i]?).getD 0 else if i = msg.length then 0x1F else 0
    if i = 167 then b ||| 0x80 else b

/-- The 168 output bytes of a state. -/
def squeezeBlock (a : List Nat) : List Byte := (List.range 21).flatMap fun i => leBytes 8 (a.getD i 0)

/-- `n` output blocks. -/
def squeeze : Nat → List Nat → List Byte
  | 0, _ => []
  | n + 1, a => squeezeBlock a ++ squeeze n (keccakF a)

/-- The first `n` blocks of 168 bytes of SHAKE128 over a message of fewer than 168 bytes. -/
def shake128Blocks (msg : List Byte) (n : Nat) : List Byte :=
  squeeze n (keccakAbsorb (List.replicate 25 0) (shakePad msg))

/-- The first `len` bytes of SHAKE128 over a message of fewer than 168 bytes. -/
def shake128 (msg : List Byte) (len : Nat) : List Byte := (shake128Blocks msg (ceilDiv len 168)).take len

end Sys2Proof.Machine
end

