-- ==== Sys2Proof/Machine/Lops.lean ====
section
/-! DEFINITION. The long-operation queue, the scoreboard, issue and dispatch (R216-R230, R235). -/

namespace Sys2Proof.Machine

/-! ### Issue (R217, R221, R223) -/

/-- A region under ROWREL (R217). -/
def LongOp.shift (op : LongOp) (sa : Word) (r : Nat × Nat) : Nat × Nat :=
  if op.rowRel ∧ 0 < r.2 then (r.1 + sa.toNat % 65536, r.2) else r

/-- The instance that a LOP makes of an entry (R217, R88). -/
def Tile.instanceOf (x : Tile) (index : Nat) (op : LongOp) (sa : Word) : LopInst :=
  { id := x.nextOp, index := index, op := op, sa := sa, qm := x.qreg op.qm
    rgnA := op.shift sa op.rgnA, rgnB := op.shift sa op.rgnB, rgnC := op.shift sa op.rgnC, rgnD := op.shift sa op.rgnD
    opnd := if op.opSa then bits sa.toNat 32 32 else op.opnd
    ordinal := if op.isGroup then x.groupOps else 0, bundle := x.nextBundle, count := x.sched }

/-- The scoreboard entries that an operation takes (R223). -/
def LopInst.entries (o : LopInst) : List SbEntry :=
  let tagged := o.op.code = lopXferIn && !o.op.overwrites
  let e (m : SbMode) (r : Nat × Nat) : SbEntry := { first := r.1, count := r.2, mode := m, owner := o.id }
  let reads := [o.rgnA, o.rgnB, o.rgnC].filter fun r => 0 < r.2 && r ≠ o.rgnD
  reads.map (e .read) ++ (if 0 < o.rgnD.2 then [e (if tagged then .tagged else .write) o.rgnD] else [])

/-- Whether rows lie in declared scratchpad regions with a right: WORK and WEIGHT both, OUTPUT to write only (R217, R244). -/
def State.rowsGranted (s : State) (t : Nat) (write : Bool) (r : Nat × Nat) : Bool :=
  r.1 + r.2 ≤ 3072 && (List.range r.2).all fun i =>
    match s.rowRegion t (r.1 + i) with
    | some g => g.kind = 0 || g.kind = 2 || (write && g.kind = 4)
    | none => false

/-- The format of a conversion's memory side (R118). -/
def LongOp.memFormat (op : LongOp) : Nat := if op.code = lopXferIn then cwSrc op.b64 else cwDst op.b64

/-- The values of a conversion: the elements of its layout, padding included, or N without one (log entry 15). -/
def Image.convertCount (im : Image) (op : LongOp) (p : ParamSet) : Nat :=
  match im.layoutOf op.tab with
  | some d => d.rows * d.cols
  | none => p.n

/-- Bits of one element of a conversion's memory side; the bytes of a block format stand for themselves. -/
def formatBits (code : Nat) : Nat := if isBlock code then 8 else ((elemOf code).map fun e => e.width).getD 8

/-- The width code of elements of `w` bits. -/
def ewOf (w : Nat) : Nat := if w = 4 then 0 else if w = 8 then 1 else if w = 16 then 2 else if w = 32 then 3 else 5

/-- The memory side of a conversion: its layout; without one, and for block formats, whose bytes no layout can place, contiguous (R109, log entry 15). -/
def Image.convertLayout (im : Image) (op : LongOp) (p : ParamSet) : Layout :=
  let n := im.convertCount op p
  let f := op.memFormat
  let d := im.layoutOf op.tab
  if isBlock f then
    { plainLayout 1 (formatBytes f (cwBlock op.b64) n) 1 with stripe := (d.map fun d => d.stripe).getD 0, windowRel := (d.map fun d => d.windowRel).getD false }
  else d.getD (plainLayout 1 n (ewOf (formatBits f)))

/-- The layout and base of a transfer, and the limbs that STRIPE LIMB counts (R118, R127, R138, R145, R231). -/
def State.transferShape (s : State) (j : Nat) (im : Image) (o : LopInst) : Shape × Nat :=
  let h := (s.job j).handle? (if o.op.code = lopXferIn then o.op.hina else o.op.hout)
  let base := if o.op.fromHandle then ((h.map fun x => x.location).getD 0 + o.op.a64) % 2 ^ 64 else o.op.a64
  if o.op.converts then
    let d := ((s.set? (cwSet o.op.b64)).map fun p => im.convertLayout o.op p).getD (plainLayout 1 1 1)
    ({ d := d, level := max 1 d.validRows }, base)
  else
    let rows := if o.op.code = lopXferIn then o.rgnD.2 else o.rgnA.2
    let p := h.bind fun x => s.set? x.set
    let gate := (if o.op.fromHandle then h else none).bind fun x => if x.family = 1 then p.map fun p => sampleLayout p x.count else none
    let d := (im.layoutOf o.op.tab).getD (gate.getD (canonicalLayout rows 1024))
    (d.shape ((if o.op.fromHandle then h.map fun x => x.level else none).getD d.validRows) p, base)

/-- The rows of a transfer that the tile holds (R138). -/
def State.transferShare (s : State) (t j : Nat) (x : Shape) : List (Nat × Nat) :=
  let g := (s.job j).group
  if x.d.stripe = 0 then x.share 1 0 else x.share g.length (rankOf g t)

/-- The limbs and rows of a conversion's residues that the tile holds: LEVEL limbs on the way in, limb 0 on the way out;
STRIPE spreads limbs, or the rows of each limb (R116-R118, R138, log entry 15). -/
def State.convertShare (s : State) (t j : Nat) (x : Shape) (o : LopInst) (p : ParamSet) : List (Nat × Nat) :=
  let g := (s.job j).group
  let rank := rankOf g t
  ((List.range (if o.op.code = lopXferIn then cwLevel o.op.b64 else 1)).flatMap fun l => (List.range (rowsPer p.n)).map fun r => (l, r)).filter fun e =>
    match x.d.stripe with
    | 1 => e.1 % g.length = rank
    | 2 => e.2 % g.length = rank
    | _ => true

/-- The scratchpad rows of a transfer in the tile. -/
def State.shareRows (s : State) (t j : Nat) (x : Shape) (o : LopInst) : Nat :=
  if o.op.converts then ((s.set? (cwSet o.op.b64)).map fun p => (s.convertShare t j x o p).length).getD 0 else (s.transferShare t j x).length

/-- Where the counter of a SIGNAL lies, and whether a region with the write right holds it (R235). -/
def State.signalGranted (s : State) (im : Image) (addr : Nat) : Bool :=
  s.regionGrants im true (nodeOf addr) (localOf addr) (localOf addr + 7)

/-- Row counts that hang on OPND, as the operation has it at issue: those of the largest share (R217, R441). -/
def State.lopCounts (s : State) (j : Nat) (o : LopInst) : Bool :=
  let job := s.job j
  let most (n : Nat) : Nat := ceilDiv n job.group.length
  let sets (h : Nat) : Option ParamSet := s.set? (job.setOf h)
  let c := o.op.code
  if c = lopKsip then o.rgnA.2 = o.opnd * (o.rgnD.2 / 2)
  else if c = lopBatch then
    (sets o.op.hina).all fun p =>
      let n := most o.opnd * p.sampleRows (p.lweN + 1)
      o.rgnA.2 = n && o.rgnB.2 = ceilDiv o.opnd 1024 && o.rgnD.2 = n
  else if c = lopExtract then (sets o.op.hout).all fun g => o.rgnB.2 = ceilDiv o.opnd 1024 && o.rgnD.2 = most o.opnd * g.sampleRows (g.lweN + 1)
  else if c = lopPack then (sets o.op.hina).all fun g => o.rgnA.2 = o.opnd * g.sampleRows (g.lweN + 1)
  else true

/-- The operand of an operation without QM, where SA gave it: digits used, and the samples of a batch with their ranges (R157, R217, Table 10-2). -/
def State.lopOperand (s : State) (j : Nat) (im : Image) (o : LopInst) : Bool :=
  if o.op.code = lopKsip then
    1 ≤ o.opnd && (s.set? (((s.job j).handle? o.op.hina).map (·.set) |>.getD 0)).all fun p => decide (o.opnd ≤ p.dnum)
  else if o.op.code = lopBatch then
    let i := bits o.op.a64 0 32
    let h := bits o.op.a64 32 32
    1 ≤ o.opnd && o.opnd ≤ (if im.format = 1 then 256 else 512)
      && (o.op.hina ≠ o.op.hout || i = h || i + o.opnd ≤ h || h + o.opnd ≤ i)
  else true

/-- Check 2 of an issued long operation: VALID of QM, limbs in range, operands from SA (R88, R140, R217, R441). -/
def State.lopParams (s : State) (t j : Nat) (im : Image) (o : LopInst) : Option SlotFault :=
  let bad : Option SlotFault := some { check := 2, code := PARAM_MISMATCH, slot := slotC, target := 0, targetKind := 0, ready := 0 }
  if !s.lopCounts j o ∨ !s.lopOperand j im o then bad
  else if !im.namesQm o.op then none
  else if !o.qm.valid then (s.tile t).qregCheck slotC o.op.qm
  else
    match s.set? o.qm.setId with
    | none => bad
    | some p =>
      let top := p.limbs + p.special
      if im.reduces o.op then (if top < o.qm.limb + (s.transferShape j im o).1.level then bad else none)
      else if top < o.qm.limb + o.op.limbs then bad
      else if o.op.code = lopBconv ∧ (top < bits o.opnd 24 8 + bits o.opnd 16 8 ∨ top < bits o.opnd 8 8 + bits o.opnd 0 8
          ∨ o.rgnD.2 ≠ o.op.comps * (bits o.opnd 16 8 + bits o.opnd 0 8) * ceilDiv p.n 1024) then bad
      else if o.op.code = lopAutomorph ∧ (o.opnd % 2 = 0 ∨ 2 * p.n ≤ o.opnd ∨ p.n < 1024) then bad
      else none

/-- Check 3 of an issued long operation: its regions, its box, its counter (R132, R136, R217, R235). -/
def State.lopAccess (s : State) (t j : Nat) (im : Image) (o : LopInst) : Option SlotFault :=
  let bad (row : Nat) (poison : Nat × Nat) : Option SlotFault :=
    some { check := 3, code := ACCESS_PROTECT, slot := slotC, target := row % 65536, targetKind := if row < 65536 then 2 else 0, ready := 0, poison := poison }
  match [o.rgnA, o.rgnB, o.rgnC].find? fun r => 0 < r.2 && !s.rowsGranted t false r with
  | some r => bad r.1 (0, 0)
  | none =>
    if 0 < o.rgnD.2 ∧ !s.rowsGranted t true o.rgnD then bad o.rgnD.1 (0, 0)
    else if o.op.code = lopXferIn ∨ o.op.code = lopXferOut then
      let x := s.transferShape j im o
      match x.1.box x.2 with
      | none => none
      | some b =>
        let add := x.1.d.reduce = 2 && isWindow (localOf b.1)
        if s.boxAllowed j im x.1.d.windowRel (o.op.code = lopXferOut) x.2 b.1 b.2 && !add then none else bad 65536 o.rgnD
    else if o.op.code = lopSignalCode ∧ !s.signalGranted im o.op.a64 then bad 65536 (0, 0)
    else none

/-- The hold of a LOP: the queue is full, or too few scoreboard entries are free (R221). -/
def Tile.lopHold (x : Tile) (o : LopInst) : Option Nat :=
  if 16 ≤ x.queue.length ∨ 64 < x.scoreboard.length + o.entries.length then some causeScoreboard else none

/-- The operation enters the queue with its scoreboard entries (R221, R223). -/
def Tile.enqueue (x : Tile) (o : LopInst) : Tile :=
  { x with queue := x.queue ++ [o], scoreboard := x.scoreboard ++ o.entries, nextOp := x.nextOp + 1
           groupOps := if o.op.isGroup then x.groupOps + 1 else x.groupOps }

/-- The lead tile of a job: its lowest-numbered tile (Chapter 3). -/
def Job.lead (j : Job) : Nat := j.group.headD 0xFF

/-- A LOP bundle: the entry's operation with the given code issues; `act` is what the issue does beyond entering the queue. -/
def State.issueLop (s : State) (t index sa code : Nat) (act : Nat → Image → LopInst → State → State) : State :=
  match s.jobOfTile t with
  | none => s
  | some j =>
    match (s.job j).image with
    | none => s
    | some im =>
      match im.longOps[index]? with
      | none => s
      | some op =>
        if op.code ≠ code then s
        else
          let x := s.tile t
          let o := x.instanceOf index op (x.sreg sa)
          s.closeBundle t { hold := x.lopHold o, fault := firstFault (s.lopParams t j im o) (s.lopAccess t j im o) }
            fun s => act j im o s

/-- The issue of an operation that has no step of its own. -/
def State.enqueueLop (s : State) (t : Nat) (o : LopInst) : State := s.updTile t fun x => x.enqueue o

/-! ### Group operations and their steps (R218, R219) -/

/-- The lead tile records that the step of a group operation has passed, with the level and components it saw (R218). -/
def State.passStep (s : State) (j : Nat) (ordinal level comps : Nat) : State :=
  s.updJob j fun x => { x with groupSteps := x.groupSteps ++ [(ordinal, level, comps)] }

/-- The LEVEL that the step of a MODDOWN's KSIP gave HOUT (R218, R220). -/
def Job.productLevel (job : Job) (ordinal : Nat) : Nat :=
  (((job.products.lookup ordinal).bind fun k => job.groupSteps.find? fun p => p.1 = k).map fun p => p.2.1).getD 0

/-- A group operation with an implicit step: the lead tile evaluates it, then every instance waits in its queue (R219). -/
def State.enqueueGroup (s : State) (t j : Nat) (o : LopInst) (step : Option StepArgs) (hin : Nat) (after : State → State) : State :=
  let job := s.job j
  if t = job.lead then
    let h := (job.handle? hin).getD default
    let s' := match step with | some x => s.ledgerStep t j o x | none => s
    let level := if o.op.code = lopModdown then job.productLevel o.ordinal else h.level
    let comps := if o.op.code = lopModdown then 2 else h.comps
    if (s'.job j).state = .running then after ((s'.passStep j o.ordinal level comps).enqueueLop t o) else s'
  else s.enqueueLop t o

/-! ### Dispatch (R222, R224, R235) -/

/-- Whether two regions conflict (R224). -/
def sbConflict (a b : SbEntry) : Bool :=
  a.first < b.first + b.count && b.first < a.first + a.count &&
    (a.mode = .write || b.mode = .write)

/-- Whether a region of the operation conflicts with one that an earlier operation has not released (R222). -/
def Tile.blocked (x : Tile) (o : LopInst) : Bool :=
  o.entries.any fun e => x.scoreboard.any fun b => b.owner < o.id && sbConflict e b

/-- Whether an engine can take an operation (R222). -/
def Tile.engineFree (x : Tile) (e : Engine) : Bool :=
  let n := (x.running.filter fun o => (enginesOf o.op.code).contains e).length
  if e = .fetch then n < 8 else n = 0

/-- The oldest queued operation of an engine (R222). -/
def Tile.oldestFor (x : Tile) (e : Engine) : Option LopInst := x.queue.find? fun o => (enginesOf o.op.code).contains e

/-- The memory-side node of a transfer or SIGNAL. -/
def State.lopNode (s : State) (j : Nat) (im : Image) (o : LopInst) : Nat :=
  if o.op.code = lopSignalCode then nodeOf o.op.a64 else nodeOf (s.transferShape j im o).2

/-- Whether an operation writes to a node (SIGNAL waits for the writes of earlier transfers to its node, R235). -/
def State.writesTo (s : State) (j : Nat) (im : Image) (node : Nat) (o : LopInst) : Bool :=
  o.op.code = lopXferOut && !o.sent && (s.lopNode j im o = node || (s.isSelf node && s.isSelf (s.lopNode j im o)))

/-- Whether an operation may dispatch now (R219, R222, R235). -/
def State.mayDispatch (s : State) (t j : Nat) (im : Image) (o : LopInst) : Bool :=
  let x := s.tile t
  (enginesOf o.op.code).all (fun e => x.engineFree e && x.oldestFor e = some o) && !x.blocked o
    && (!o.op.isGroup || (s.job j).groupSteps.any fun p => p.1 = o.ordinal)
    && (o.op.code ≠ lopSignalCode || !(x.running ++ x.queue).any fun e => e.id < o.id && s.writesTo j im (nodeOf o.op.a64) e)

/-- The operation leaves the queue for its engine, with the level and components that the lead tile took (R218, R222). -/
def Job.fillStep (j : Job) (o : LopInst) : LopInst :=
  match j.groupSteps.find? fun p => p.1 = o.ordinal with
  | some p => if o.op.isGroup then { o with level := p.2.1, comps := p.2.2 } else o
  | none => o

/-- Dispatch of the oldest queued operation of an engine. -/
def State.startLop (s : State) (t j : Nat) (o : LopInst) : State :=
  let share := match (s.job j).image with
    | some im => if o.op.code = lopXferIn ∨ o.op.code = lopXferOut then s.shareRows t j (s.transferShape j im o).1 o else 0
    | none => 0
  let o' := { (s.job j).fillStep o with waitAt := s.now, share := share }
  s.updTile t fun x => { x with queue := x.queue.filter fun e => e.id ≠ o.id, running := x.running ++ [o'] }

/-- An operation has finished: its engine and its scoreboard entries are released (R224). -/
def Tile.retire (x : Tile) (id : Nat) : Tile :=
  { x with running := x.running.filter fun o => o.id ≠ id, scoreboard := x.scoreboard.filter fun e => e.owner ≠ id }

/-! ### Waiting on rows (R186, R228, R229) -/

/-- Whether a row is a stream's destination row in the tile's job (R186). -/
def Image.isStreamRow (im : Image) (row : Nat) : Bool := im.streams.any fun e => e.destRow ≤ row && row < e.destRow + e.destRows

/-- The cause against which an engine's wait on a row counts: a guaranteed row by its region or its stream entry (R186, R228). -/
def State.waitCause (s : State) (t : Nat) (im : Image) (row : Nat) : Nat :=
  if s.isGuaranteed t row || im.streams.any (fun e => bit e.flags 1 && e.destRow ≤ row && row < e.destRow + e.destRows) then causeGuarantee
  else if im.isStreamRow row then causeKeyStream
  else causeTag

/-- An operation waits on another guaranteed row than before, or on none: the wait that ended is a miss (R228, R412). -/
def State.noteMiss (s : State) (t : Nat) (o : LopInst) (next : Option Nat) : State :=
  if o.missRow = next then s
  else
    let s := match o.missRow with | some row => s.guaranteeMiss t row | none => s
    s.updTile t fun x => { x with running := x.running.map fun p => if p.id = o.id then { p with missRow := next } else p }

/-- A waiting operation: a cycle counted against each engine that it holds (R222, R228); the fetch engine counts TAG_WAIT alone (Table 19-5). -/
def State.waitCycle (s : State) (t : Nat) (im : Image) (o : LopInst) (row : Nat) : State :=
  let es := enginesOf o.op.code
  let cause := if es.contains .fetch then causeTag else s.waitCause t im row
  (es.foldl (fun s e => s.stall t (engineUnit e) cause 1) s).noteMiss t o (if cause = causeGuarantee then some row else none)

/-- The rows of an operation that its failure or an abort marks POISON: those of RGN_D it has not finished writing;
a VERIFY transfer finishes none before its match (R229, R233). -/
def State.poisonUnfinished (s : State) (t : Nat) (o : LopInst) : State :=
  let done := if o.op.verifies && !o.sent then 0 else o.rowsDone
  s.poisonRows t (o.rgnD.1 + done) (o.rgnD.2 - done)

/-- A failing operation: its unfinished output rows turn POISON and the job ends (R228, R229). -/
def State.failLop (s : State) (t code : Nat) (o : LopInst) (target kind : Nat) : State :=
  (s.poisonUnfinished t o).faultLop t code o target kind

/-- An operation on a row that is not FULL: it fails on POISON, and waits one more cycle on EMPTY (R228). -/
def State.waitRow (s : State) (t : Nat) (im : Image) (o : LopInst) (row : Nat) : State :=
  if s.tag t row = .poison then (s.noteMiss t o none).failLop t SLOT_POISON o row 2 else s.waitCycle t im o row

end Sys2Proof.Machine
end

