-- ==== Sys2Proof/Machine/KeyStream.lean ====
section
/-! DEFINITION. Geyser: key headers and their checks, the order and shares of key rows, the seeded expansion, failing streams (R171-R191). -/

namespace Sys2Proof.Machine

/-! ### Headers (R171-R173) -/

/-- A header as its 128 bytes, and the prefix as the 16 that follow, declare it (Tables 8-1, 7-2). -/
def readHeader (g : List Byte) : KeyHeader :=
  let f (o n : Nat) : Nat := leNat (sliceBytes g o n)
  { magic := f 0 4, format := f 4 1, kind := f 5 1, paramSet := f 6 1, flags := f 7 1, tag := f 8 8, galois := f 16 4
    levelLo := f 20 1, levelHi := f 21 1, digits := f 22 1, reserved := f 23 1 + f 64 64, bodyLength := f 24 8, seed := f 32 32
    targetTag := f 128 8, targetSet := f 136 1, prefixReserved := f 137 7 }

def KeyHeader.seeded (h : KeyHeader) : Bool := bit h.flags 0

/-- Whether a kind has a prefix (Table 8-2). -/
def hasPrefix (kind : Nat) : Bool := kind = 5 || kind = 6

/-- Bytes of one LWE coefficient (R69). -/
def ParamSet.lweBytes (p : ParamSet) : Nat := if p.lweModKind = 0 then 4 else 8

/-- n_s of Table 8-3. -/
def ParamSet.sourceDim (p : ParamSet) : Nat := if p.family = 1 then p.glweK * p.n else p.n

/-- The number of GGSW ciphertexts of a bootstrapping key (R149). -/
def ParamSet.ggswCount (p : ParamSet) : Nat := 7 * (p.lweN / 3) + 2 ^ (p.lweN % 3) - 1

/-- The derived BODY_LENGTH (Table 8-3); `g` is the target set. -/
def KeyHeader.derivedLength (h : KeyHeader) (p g : ParamSet) : Nat :=
  match h.kind with
  | 4 =>
    let full := p.ggswCount * (p.glweK + 1) * (p.glweK + 1) * p.decompLevels * p.limbs * p.n * 9 / 2
    if h.seeded then full / (p.glweK + 1) else full
  | 5 => 16 + p.lweN * h.digits * (if h.seeded then 1 else 2) * h.levelHi * g.n * 9 / 2
  | 6 => 16 + p.sourceDim * h.digits * (if h.seeded then g.lweBytes else 64 * ceilDiv ((g.lweN + 1) * g.lweBytes) 64)
  | _ => h.digits * (if h.seeded then 1 else 2) * (h.levelHi + p.special) * p.n * 9 / 2

/-! ### The rows of a body (R173, R180, R187) -/

/-- One row of the full body order: whether it is uniform, its rank position (none: every tile), whether any tile keeps it,
the expansion indices, the modulus limb, the part of its polynomial or sample, and its bytes on the wire. -/
structure KeyRow where
  uniform : Bool
  pos : Option Nat
  kept : Bool
  u : Nat
  lam : Nat
  limb : Nat
  part : Nat
  wire : Nat
deriving DecidableEq, Repr, Inhabited

/-- Rows of a polynomial in body order. -/
def polyRows (n : Nat) (row : KeyRow) : List KeyRow :=
  (List.range (rowsPer n)).map fun i => { row with part := i, wire := if row.uniform then 0 else min n 1024 * 9 / 2 }

/-- The digit width α of Table 8-2. -/
def KeyHeader.alpha (h : KeyHeader) : Nat := ceilDiv h.levelHi h.digits

/-- The rows of a packed switching key (R173, R180). -/
def packedRows (h : KeyHeader) (p : ParamSet) (useLevel : Nat) : List KeyRow :=
  (List.range h.digits).flatMap fun j => (List.range 2).flatMap fun c => (List.range (h.levelHi + p.special)).flatMap fun i =>
    let limb := if i < h.levelHi then i else p.limbs + (i - h.levelHi)
    polyRows p.n
      { uniform := h.seeded && c = 1, pos := some (if i < h.levelHi then i else useLevel + (i - h.levelHi))
        kept := j * h.alpha < useLevel && (i < useLevel || h.levelHi ≤ i), u := j, lam := limb, limb := limb, part := 0, wire := 0 }

/-- The rows of a bootstrapping key (Table 7-1, Table 8-6). -/
def bootRows (h : KeyHeader) (p : ParamSet) : List KeyRow :=
  let rows := (p.glweK + 1) * p.decompLevels
  (List.range (p.ggswCount * rows)).flatMap fun r => (List.range (p.glweK + 1)).flatMap fun t => (List.range p.limbs).flatMap fun i =>
    polyRows p.n { uniform := h.seeded && t < p.glweK, pos := none, kept := true, u := r * p.glweK + t, lam := i, limb := i, part := 0, wire := 0 }

/-- The rows of a ring-packing key (Table 7-1, Table 8-6). -/
def packRows (h : KeyHeader) (p g : ParamSet) : List KeyRow :=
  (List.range (p.lweN * h.digits)).flatMap fun u => (List.range 2).flatMap fun c => (List.range h.levelHi).flatMap fun i =>
    polyRows g.n { uniform := h.seeded && c = 1, pos := none, kept := true, u := u, lam := i, limb := i, part := 0, wire := 0 }

/-- Coefficients of a key-switch key that a row holds: pairs of lanes under 2^64 (R145, log entry 12). -/
def ParamSet.lwePerRow (g : ParamSet) : Nat := 1024 / g.lweLanes

/-- The rows of an LWE key-switch key: seeded, the b coefficients fill rows densely before the regenerated samples (R180, log entry 12). -/
def switchRows (h : KeyHeader) (p g : ParamSet) : List KeyRow :=
  let n := p.sourceDim * h.digits
  let row (uniform : Bool) (u part wire : Nat) : KeyRow :=
    { uniform := uniform, pos := none, kept := true, u := u, lam := 0, limb := 0, part := part, wire := wire }
  if h.seeded then
    ((List.range (ceilDiv n g.lwePerRow)).map fun i => row false i 0 (min g.lwePerRow (n - i * g.lwePerRow) * g.lweBytes))
      ++ (List.range n).flatMap fun u => (List.range (ceilDiv g.lweN g.lwePerRow)).map fun i => row true u i 0
  else
    (List.range n).flatMap fun u =>
      (List.range (g.sampleRows (g.lweN + 1))).map fun i => row false u i (if i = 0 then 64 * ceilDiv ((g.lweN + 1) * g.lweBytes) 64 else 0)

/-- The rows of a key's full body, in body order. -/
def KeyHeader.rows (h : KeyHeader) (p g : ParamSet) (useLevel : Nat) : List KeyRow :=
  match h.kind with
  | 4 => bootRows h p
  | 5 => packRows h p g
  | 6 => switchRows h p g
  | _ => packedRows h p useLevel

/-- Whether the tile of rank `r` in a group of `g` keeps a row (R180). -/
def KeyRow.keeps (k : KeyRow) (g r : Nat) : Bool := k.kept && (match k.pos with | none => true | some x => x % g = r)

/-- The sets of a header: its own and its target's. -/
def State.keySets (s : State) (h : KeyHeader) : Option (ParamSet × ParamSet) :=
  match s.set? h.paramSet with
  | none => none
  | some p => if hasPrefix h.kind then (s.set? h.targetSet).map fun g => (p, g) else some (p, p)

/-- The rows of the key that an entry's stream carries. -/
def State.streamRows (s : State) (h : KeyHeader) (e : StreamEntry) : List KeyRow :=
  match s.keySets h with
  | some x => h.rows x.1 x.2 e.useLevel
  | none => []

/-! ### Stream lookups -/

/-- The image of a stream's job and its entry. -/
def State.streamEntry (s : State) (x : Stream) : Option (Image × StreamEntry) :=
  (s.job x.job).image.bind fun im => im.streams[x.entry]?.map fun e => (im, e)

/-- The check-value context of a stream slot: unit 16 + (s mod 4), context s >> 2 (R177). -/
def streamContext (k : Nat) : Nat := 4 * (16 + k % 4) + k / 4

/-- Bytes of source reads that a stream may issue in one metering window of 1 us (R177). -/
def StreamEntry.budget (e : StreamEntry) : Nat := 1000 * e.rate

/-- The rest of a stream's reads in this window: a window that holds the stream is counted once (R177). -/
def State.holdRate (s : State) (k : Nat) : State :=
  let x := s.stream k
  if x.deferredWindow then s else (s.bump (0x7080 + x.job) 5 1).setStream k { x with deferredWindow := true }

/-- Wire bytes of a stream read: they count for its job and the device (Table 8-10), against its RATE, a read beyond the window's
bytes being held for the rest (R177), and are folded by its check-value context (R388). -/
def State.readWire (s : State) (k n : Nat) (bytes : List Byte) : State :=
  let x := s.stream k
  let s := ((s.bump 0x7020 2 n).bump (0x7080 + x.job) 1 n).foldCheck (streamContext k) (crc64Run x.crc bytes) (x.bytesRead + n)
  let s := s.setStream k { x with bytesRead := x.bytesRead + n, windowBytes := x.windowBytes + n, crc := crc64Run x.crc bytes, waitSince := s.now, asked := false }
  match s.streamEntry x with
  | some ie => if ie.2.budget < x.windowBytes + n then s.holdRate k else s
  | none => s

/-- Whether the words of a source read on this device are poisoned: stack memory, or the receive ring (R184, R293, R294). -/
def State.sourcePoisoned (s : State) (e : StreamEntry) (off n : Nat) : Bool :=
  if e.sourceKind = 1 ∨ e.sourceKind = 2 then false
  else if e.sourceKind = 3 then
    let ring := 1024 * e.ringKib
    let a := off % ring
    s.rangePoisoned (localOf e.source + a) (min n (ring - a)) || (ring < a + n && s.rangePoisoned (localOf e.source) (a + n - ring))
  else s.rangePoisoned (localOf e.source + off) n

/-- The bytes that a source read returns: local stack memory, or what arrived from outside. -/
def State.sourceBytes (s : State) (e : StreamEntry) (off n : Nat) (arrived : List Byte) : List Byte :=
  if e.sourceKind = 1 ∨ e.sourceKind = 2 then sliceBytes arrived 0 n
  else if e.sourceKind = 3 then (List.range n).map fun i => s.memByte (localOf e.source + (off + i) % (1024 * e.ringKib))
  else s.memBytes (localOf e.source + off) n

/-! ### Failures (R179, R182, R184, R185) -/

/-- The counter of a key error (Table 8-10). -/
def keyErrorCounter (error : Nat) : Option Nat :=
  if error = KEY_MISMATCH then some 5 else if error = KEY_CRC then some 6 else if error = KEY_FORMAT then some 7 else none

/-- The destination region of an entry marked POISON in every tile of the group. -/
def State.poisonDestination (s : State) (j : Nat) (e : StreamEntry) : State :=
  (s.job j).group.foldl (fun s t => s.poisonRows t e.destRow e.destRows) s

/-- The output rows of a group operation marked POISON in every tile of the group: those of its instances, and those of tiles that
have finished it (R163, R182). -/
def State.poisonGroupOp (s : State) (j ordinal : Nat) : State :=
  (s.job j).group.foldl (fun s t =>
    let x := s.tile t
    let waiting := ((x.queue ++ x.running).filter fun o => o.op.isGroup && o.ordinal = ordinal).map fun o => o.rgnD
    let done := (x.keyOuts.filter fun k => k.1 = ordinal).map fun k => k.2
    (waiting ++ done).foldl (fun s r => s.poisonRows t r.1 r.2) s) s

/-- The outputs of the consumers of an entry marked POISON (R182). -/
def State.poisonConsumers (s : State) (j entry : Nat) : State :=
  let ops := (s.job j).group.flatMap fun t => ((s.tile t).running.filter fun o => o.op.keyEntries.contains entry).map fun o => o.ordinal
  ops.eraseDups.foldl (fun s n => s.poisonGroupOp j n) s

/-- The outcomes of a key or source error: recorded for the job, counted, the destination POISON, the outputs of its consumers too
where the CRC fails, the job aborted (R179, R182, R184). -/
def State.keyOutcome (s : State) (j entry error : Nat) : State :=
  let s := (s.setEntry (0x7080 + j) 3 error).setEntry (0x7080 + j) 4 entry
  let s := match keyErrorCounter error with | some i => s.bump 0x7020 i 1 | none => s
  match ((s.job j).image).bind fun im => im.streams[entry]? with
  | none => s
  | some e =>
    let s := s.poisonDestination j e
    let s := if error = KEY_CRC then s.poisonConsumers j entry else s
    s.abortJob j error 0xFF 0

/-- The signals of a group's members are forgotten: its stream has failed or is cancelled (log entry 17). -/
def State.dropCredits (s : State) (x : Stream) : State :=
  match s.streamEntry x with
  | some ie =>
    if ie.2.sourceKind = 4 then { s with mcastCredits := Tab.erase s.mcastCredits ie.2.mcastGroup, mcastUsed := Tab.erase s.mcastUsed ie.2.mcastGroup } else s
  | none => s

/-- A stream ends in FAILED with the outcomes of R179 and R182. -/
def State.streamFail (s : State) (k error : Nat) : State :=
  let x := s.stream k
  let s := if x.bound then s.endCheck (streamContext k) else s
  ((s.setStream k { x with state := 5, error := error }).dropCredits x).keyOutcome x.job x.entry error

/-- A slot is released (R182, R185). -/
def State.releaseStream (s : State) (k state : Nat) : State :=
  (s.updStream k fun x => { x with state := state, bound := false }).endCheck (streamContext k)

/-- The streams of a job cancelled (R185): POISON unless the job ended normally; one that has failed only releases its slot. -/
def State.cancelStreams (s : State) (j : Nat) (normal : Bool) : State :=
  let s := { s with openWaits := s.openWaits.filter (fun w => w.job ≠ j), lateStreams := s.lateStreams.filter fun w => w.2.job ≠ j }
  (List.range 16).foldl (fun s k =>
    let x := s.stream k
    if !x.bound ∨ x.job ≠ j then s
    else if x.state = 5 then s.releaseStream k 5
    else
      let s := match s.streamEntry x with | some ie => if normal then s else s.poisonDestination j ie.2 | none => s
      ((s.bump 0x7020 8 1).dropCredits x).releaseStream k 0) s

/-! ### Header checks (Table 8-5) -/

/-- Check 1. -/
def State.headerForm (s : State) (h : KeyHeader) : Bool :=
  h.magic = 0x5359454B && (h.format = 1 || h.format = 2) && h.format ≤ s.entry 0x1000 9 && h.reserved = 0
    && (if h.format = 1 then h.flags = 0 else h.flags ≤ 1) && (h.seeded && h.format = 2 || h.seed = 0)
    && (1 ≤ h.kind && h.kind ≤ 6) && !(h.format = 1 && h.kind = 5)

/-- The fields of Table 8-2 for a kind. -/
def headerFields (h : KeyHeader) (p g : ParamSet) : Bool :=
  let packedLevels := 1 ≤ h.levelLo && h.levelLo ≤ h.levelHi && h.levelHi ≤ p.limbs && h.digits = p.dnum && h.digits ≤ h.levelHi
  let noLevels := h.levelLo = 0 && h.levelHi = 0
  match h.kind with
  | 1 => p.family = 0 && h.galois = 0 && packedLevels
  | 2 => p.family = 0 && h.galois % 2 = 1 && 1 < h.galois && h.galois < 2 * p.n && h.galois ≠ 2 * p.n - 1 && packedLevels
  | 3 => p.family = 0 && h.galois = 2 * p.n - 1 && packedLevels
  | 4 => p.family = 1 && h.galois = 0 && noLevels && h.digits = p.decompLevels
  | 5 => p.family = 1 && h.galois = 0 && 1 ≤ h.levelLo && h.levelLo ≤ h.levelHi && h.levelHi ≤ g.limbs && 1 ≤ h.digits && h.digits ≤ 12
  | _ => h.galois = 0 && noLevels && 1 ≤ h.digits && h.digits ≤ 12

/-- The family of a prefix's target: packed for ring packing, gate for a key switch (R155). -/
def prefixFamily (kind : Nat) : Nat := if kind = 5 then 0 else 1

/-- Check 2: sets, fields and prefix. -/
def State.headerSets (s : State) (im : Image) (h : KeyHeader) : Bool :=
  match s.set? h.paramSet with
  | none => false
  | some p =>
    if hasPrefix h.kind then
      match s.set? h.targetSet with
      | none => false
      | some g => im.sets.contains h.targetSet && g.family = prefixFamily h.kind && h.prefixReserved = 0 && headerFields h p g
    else headerFields h p p

/-- Check 3: the lengths. -/
def State.headerLength (s : State) (h : KeyHeader) (e : StreamEntry) : Bool :=
  match s.keySets h with
  | some x => h.bodyLength = h.derivedLength x.1 x.2 && e.wireLength = 128 + h.bodyLength + 8
  | none => false

/-- The largest share of a key among the ranks (R176, R180). -/
def State.largestShare (s : State) (j : Nat) (h : KeyHeader) (e : StreamEntry) : Nat :=
  let g := (s.job j).group.length
  let rows := s.streamRows h e
  (List.range g).foldl (fun m r => max m (rows.filter fun k => k.keeps g r).length) 0

/-- Check 4: the entry's own expectations. -/
def State.headerEntry (s : State) (j : Nat) (h : KeyHeader) (e : StreamEntry) : Bool :=
  h.kind = e.kind && h.galois = e.galois
    && (!(h.kind ≤ 3 || h.kind = 5) || (h.levelLo ≤ e.useLevel && e.useLevel ≤ h.levelHi))
    && (!(bit e.flags 0 && (h.kind = 5 || h.kind = 6)) || s.largestShare j h e ≤ e.destRows)

/-- Check 5: sets and tags of every handle, and of the output handle of the opening's consumers, where it has any (R155, R156). -/
def State.headerTags (s : State) (j : Nat) (im : Image) (h : KeyHeader) (e : StreamEntry) (out : Option Nat) (extra : List Nat) : Bool :=
  let hs := (e.handles.filter fun x => x ≠ 0xFFFF).take e.groupSize ++ extra
  let job := s.job j
  (hs.all fun x => match job.handle? x with | some y => y.set = h.paramSet && y.tag = h.tag | none => false)
    && (!hasPrefix h.kind || (match out.bind fun o => im.handles[o]? with
        | some d => d.set = h.targetSet && d.tag = h.targetTag
        | none => true))

/-- The first failing check of Table 8-5. -/
def State.headerError (s : State) (j : Nat) (im : Image) (h : KeyHeader) (e : StreamEntry) (out : Option Nat) : Option Nat :=
  if !s.headerForm h || !s.headerSets im h || !s.headerLength h e then some KEY_FORMAT
  else if !s.headerEntry j h e || !s.headerTags j im h e out [] then some KEY_MISMATCH
  else none

/-! ### Rows written and consumed (R181, R187, R188) -/

/-- The share of a tile: the rows it keeps, in body order. -/
def State.tileShare (s : State) (j t : Nat) (h : KeyHeader) (e : StreamEntry) : List KeyRow :=
  let g := (s.job j).group
  (s.streamRows h e).filter fun k => k.keeps g.length (rankOf g t)

/-- The row that share index `i` is written to (R181). -/
def StreamEntry.ringRow (e : StreamEntry) (i : Nat) : Nat := e.destRow + i % e.destRows

/-- The share index of the n-th row of a tile's share that is uniform, or stored. -/
def nthRow (share : List KeyRow) (uniform : Bool) (n : Nat) : Option Nat :=
  ((List.range share.length).filter fun i => ((share[i]?).map fun k => k.uniform).getD false = uniform)[n]?

/-- Whether share index `i` has been written, from the counts of stored and uniform rows written. -/
def shareWritten (share : List KeyRow) (stored uniform i : Nat) : Bool :=
  match share[i]? with
  | none => false
  | some k =>
    let before := ((share.take i).filter fun x => x.uniform = k.uniform).length
    before < (if k.uniform then uniform else stored)

/-- Whether share index `i` may be written: its row is EMPTY, awaits no verify, and the row a ring before has been written (R181). -/
def State.ringReady (s : State) (t : Nat) (e : StreamEntry) (share : List KeyRow) (stored uniform i : Nat) : Bool :=
  s.tag t (e.ringRow i) = .empty && !(s.tile t).verifyDue.contains (e.ringRow i)
    && (i < e.destRows || shareWritten share stored uniform (i - e.destRows))

/-- Values under a modulus from XOF bytes, by rejection (R188). -/
def rejectValues (q : Nat) : Nat → List Byte → List Nat
  | 0, _ => []
  | fuel + 1, bs =>
    match bs with
    | [] => []
    | _ =>
      let v := leNat (bs.take 9)
      let top := 2 ^ 36 / q * q
      ([v % 2 ^ 36, v / 2 ^ 36 % 2 ^ 36].filter fun x => x < top).map (· % q) ++ rejectValues q fuel (bs.drop 9)

/-- The first `n` values under q of a SHAKE128 instance: the XOF is read until the unit is complete (R188). -/
def drawValues (q n : Nat) (absorbed : List Byte) : Nat → Nat → List Nat
  | 0, len => rejectValues q len (shake128 absorbed len)
  | fuel + 1, len =>
    let vs := rejectValues q len (shake128 absorbed len)
    if n ≤ vs.length then vs.take n else drawValues q n absorbed fuel (2 * len)

/-- The 38 bytes absorbed (R187). -/
def KeyHeader.absorb (h : KeyHeader) (u lam : Nat) : List Byte := leBytes 32 h.seed ++ leBytes 1 h.kind ++ leBytes 4 u ++ leBytes 1 lam

/-- The values of a uniform unit (Table 8-6, R188). -/
def uniformUnit (h : KeyHeader) (p g : ParamSet) (k : KeyRow) : List Nat :=
  let bytes := h.absorb k.u k.lam
  match h.kind with
  | 6 =>
    if g.lweModKind = 2 then drawValues g.lweQ g.lweN bytes 40 (9 * g.lweN)
    else unpackNat (8 * g.lweBytes) g.lweN (leNat (shake128 bytes (g.lweN * g.lweBytes)))
  | 5 => drawValues (g.q k.limb) g.n bytes 40 (9 * g.n)
  | _ => drawValues (p.q k.limb) p.n bytes 40 (9 * p.n)

/-- Values as a row: pairs of lanes under 2^64. -/
def lweRow (g : ParamSet) (vs : List Nat) : Row :=
  rowMap fun l => if g.lweLanes = 2 then bits (vs.getD (l / 2) 0) (32 * (l % 2)) 32 else vs.getD l 0

/-- The content of a uniform row. -/
def uniformRow (h : KeyHeader) (p g : ParamSet) (k : KeyRow) : Row :=
  let vs := uniformUnit h p g k
  if h.kind = 6 then lweRow g ((vs.drop (k.part * g.lwePerRow)).take g.lwePerRow)
  else
    let n := if h.kind = 5 then g.n else p.n
    rowMap fun l => if l < n ∨ 512 < n then vs.getD (1024 * k.part + l) 0 else 0

/-- The content of a stored row from its wire bytes. -/
def storedRow (h : KeyHeader) (g : ParamSet) (k : KeyRow) (bs : List Byte) : Row :=
  if h.kind = 6 then
    let vs := unpackNat (8 * g.lweBytes) (bs.length / g.lweBytes) (leNat bs)
    let vs := if g.lweModKind = 2 then vs.map (· % 2 ^ 36) else vs
    lweRow g ((vs.drop (k.part * g.lwePerRow)).take g.lwePerRow)
  else unpackNat 36 1024 (leNat bs)

/-- The consumer of an entry that takes its rows now: the earliest one running on the tile. -/
def Tile.consumerOf (x : Tile) (entry : Nat) : Option LopInst := x.running.find? fun o => o.op.keyEntries.contains entry

/-- Which of its two key row lists an operation fills from an entry. -/
def LopInst.firstKey (o : LopInst) (entry : Nat) : Bool := o.op.keyEntries.head? = some entry

/-- A consumer takes the next rows of its stream while they are FULL, each set EMPTY unless RESIDENT (R181). -/
def State.feed (s : State) (t entry : Nat) (e : StreamEntry) : Nat → State
  | 0 => s
  | fuel + 1 =>
    match (s.tile t).consumerOf entry with
    | none => s
    | some o =>
      let taken := if o.firstKey entry then o.keyRows else o.keyRows2
      let row := e.ringRow taken.length
      let resident := bit e.flags 0
      if s.tag t row ≠ .full ∨ (resident ∧ e.destRows ≤ taken.length) then s
      else
        let d := s.rowData t row
        let s := s.updTile t fun x => x.updOp o.id fun o =>
          let o := { o with waitAt := s.now }
          if o.firstKey entry then { o with keyRows := o.keyRows ++ [d], keysAt := some (o.keysAt.getD s.now) } else { o with keyRows2 := o.keyRows2 ++ [d] }
        let s := if resident then s else s.setTag t row .empty
        State.feed s t entry e fuel

/-- The rows that a tile's engines can take now: source rows, and rows of its streams. -/
def State.feedTile (s : State) (t : Nat) : State :=
  let s := s.readEngines t
  match s.imageOf t with
  | none => s
  | some im => (List.range im.streams.length).foldl (fun s i => s.feed t i (im.streams.getD i default) 3072) s

end Sys2Proof.Machine
end

