-- ==== Sys2Proof/Machine/Geyser.lean ====
section
/-! DEFINITION. The commands of the key-stream engine (R177-R191). -/

namespace Sys2Proof.Machine

/-! ### Opening a stream (R177, R183, R184) -/

/-- Whether a stream's source lies in a declared region that grants reading: local stack for LOCAL and MCAST_OUT,
the ring for MCAST_IN; a remote source is its own node's to protect (R184, R244). -/
def State.sourceGranted (s : State) (im : Image) (e : StreamEntry) : Bool :=
  let n := if e.sourceKind = 3 then 1024 * e.ringKib else e.wireLength
  let node := if e.sourceKind = 3 then 0xFFFF else nodeOf e.source
  s.regionGrants im false node (localOf e.source) (localOf e.source + n - 1)

/-- The stream of an opening as it starts; the slot keeps the last header checked (R183). -/
def State.newStream (s : State) (k j entry : Nat) (e : StreamEntry) (out : Option Nat) : Stream :=
  { state := 1, bound := true, job := j, entry := entry, waitSince := s.now, creditTimeout := 1000 * s.entry 0x7010 (if e.sourceKind = 4 then 1 else 2)
    out := out, slotHeader := (s.stream k).slotHeader }

/-- Whether a stream that is DONE has uniform rows left that a tile regenerates (log entry 13). -/
def State.regenLeft (s : State) (x : Stream) : Bool :=
  match s.streamEntry x, x.header with
  | some ie, some h =>
    x.state = 4 && (s.job x.job).state = .running &&
      (s.job x.job).group.any fun t => (nthRow (s.tileShare x.job t h ie.2) true (Tab.get x.uniform 0 t)).isSome
  | _, _ => false

/-- A free slot: bound to no job (R177). -/
def State.freeStream (s : State) : Option Nat := (List.range 16).find? fun k => !(s.stream k).bound

/-- A slot changes hands: a DONE stream whose rows are still regenerated goes on without it (R182, log entry 13). -/
def State.yieldSlot (s : State) (k : Nat) : State :=
  let x := s.stream k
  let kept := s.lateStreams.filter fun w => s.regenLeft w.2
  { s with lateStreams := if s.regenLeft x then kept ++ [(k, x)] else kept }

/-! ### Source reads of streams (R177, R184, R314) -/

/-- Whether a stream may read in this window; a window that holds it is counted once (R177). -/
def State.meter (s : State) (k : Nat) (e : StreamEntry) : Bool × State :=
  if (s.stream k).windowBytes < e.budget then (true, s) else (false, s.holdRate k)

/-- The stored row that comes next on the wire: its position among the body's rows. -/
def nextStored (rows : List KeyRow) (n : Nat) : Option KeyRow := (rows.filter fun k => !k.uniform)[n]?

/-- Where the wire holds a stored row: its offset and length; an unseeded key-switch sample's rows share its bytes, read with the first. -/
def rowRange (h : KeyHeader) (g : ParamSet) (x : Stream) (k : KeyRow) : Nat × Nat :=
  if h.kind = 6 ∧ !h.seeded then
    let n := 64 * ceilDiv ((g.lweN + 1) * g.lweBytes) 64
    (144 + k.u * n, n)
  else (x.bytesRead, k.wire)

/-- The next piece of the wire image that a stream reads: the first granule, a row, the trailer. -/
def State.nextRead (s : State) (x : Stream) (e : StreamEntry) : Nat × Nat :=
  if x.state = 1 then (0, min 256 e.wireLength)
  else
    match x.header.bind fun h => (s.keySets h).map fun g => (h, g) with
    | none => (0, 0)
    | some hg =>
      match nextStored (s.streamRows hg.1 e) x.storedRow with
      | some row => if row.wire = 0 then (0, 0) else rowRange hg.1 hg.2.2 x row
      | none => (x.bytesRead, 8)

/-- A stream of a REMOTE or HOST source reads the next piece of its wire image, on virtual lane 1, where its RATE allows it
and it is not waiting for an earlier piece (R177, R314, log entry 40). -/
def State.readAhead (s : State) (k : Nat) : State :=
  let x := s.stream k
  match s.streamEntry x with
  | none => s
  | some ie =>
    let e := ie.2
    let r := s.nextRead x e
    if (e.sourceKind ≠ 1 ∧ e.sourceKind ≠ 2) ∨ !x.bound ∨ x.state < 1 ∨ 3 < x.state ∨ x.asked ∨ r.2 = 0 then s
    else
      let m := s.meter k e
      if !m.1 then m.2
      else
        let node := nodeOf e.source
        let status := s.issueStatus node 2 (localOf e.source)
        if status ≠ OK then (s.countFail false status).streamFail k status
        else
          let s := s.setStream k { x with asked := true }
          (List.range (ceilDiv r.2 4096)).foldl (fun s i =>
            s.issueOp node 1 2 (localOf e.source + r.1 + 4096 * i) (min 4096 (r.2 - 4096 * i)) 0 [] issuerGeyser x.job k) s

/-- A nanosecond in which every source read of Geyser's waits for a host-link tag (Table 19-5). -/
def State.geyserWait (s : State) : State :=
  if s.awaitTags fun r => r.issuer = issuerGeyser && r.opcode = 2 then s.geyserStall causeFabric 1 else s

/-- Whether the bytes of a stream's next piece are there: a remote source's reads have completed (R184). -/
def State.arrivedAt (s : State) (k : Nat) (e : StreamEntry) : Bool :=
  (e.sourceKind ≠ 1 && e.sourceKind ≠ 2) || ((s.stream k).asked && !s.remoteOps.any fun r => r.issuer = issuerGeyser && r.opId = k && r.opcode = 2 && r.job = (s.stream k).job)

/-! ### Multicast signals (R190) -/

/-- A member's signal reaches the owner's completion counter of its group. -/
def State.creditMcast (s : State) (address source : Nat) : State :=
  match (List.range 256).find? fun g => localOf (Config.mcastCounter g) = address with
  | none => s
  | some g =>
    let c := Tab.get s.mcastCredits [] g
    { s with mcastCredits := Tab.put s.mcastCredits g (Tab.put c source (Tab.get c 0 source + 1)) }

/-- An MCAST_IN stream signals the owner's completion counter, on virtual lane 1 (R190, R314, log entry 17). -/
def State.memberSignal (s : State) (k : Nat) (e : StreamEntry) : State :=
  let a := Config.mcastCounter e.mcastGroup
  let x := s.stream k
  let s := s.setStream k { x with signals := x.signals + 1 }
  if s.isSelf (nodeOf a) then (s.addCounter (localOf a) 1).creditMcast (localOf a) s.nodeId
  else
    let status := s.issueStatus (nodeOf a) 5 (localOf a)
    if status ≠ OK then s.countFail false status else s.issueOp (nodeOf a) 1 5 (localOf a) 8 1 [] issuerGeyser x.job k

/-- The signals that a member owes: one for its open, one for each window whose bytes it has broadcast (R190). -/
def Stream.signalsDue (x : Stream) (e : StreamEntry) : Nat :=
  1 + (if e.wireLength ≤ x.bytesRead then ceilDiv e.wireLength (512 * e.ringKib) else x.bytesRead / (512 * e.ringKib))

/-- The signals owed are sent. -/
def State.sendSignals (s : State) (k : Nat) : State :=
  let x := s.stream k
  match s.streamEntry x with
  | none => s
  | some ie =>
    if ie.2.sourceKind ≠ 3 then s else (List.range (x.signalsDue ie.2 - x.signals)).foldl (fun s _i => s.memberSignal k ie.2) s

/-- Whether every member has signalled what the owner's next window waits for: that it is open, and from window 2 on that it has
released the window before the last (R190). -/
def State.windowPermitted (s : State) (x : Stream) (e : StreamEntry) : Bool :=
  let due := Tab.get s.mcastUsed 0 e.mcastGroup + max 1 x.windowsSent
  s.entry (0x4300 + e.mcastGroup) 3 ≤ ((Tab.get s.mcastCredits [] e.mcastGroup).filter fun c => decide (due ≤ c.2)).length

/-- The owner has sent its last window: the signals of this stream are used up (log entry 17). -/
def State.useCredits (s : State) (e : StreamEntry) : State :=
  let n := 1 + ceilDiv e.wireLength (512 * e.ringKib)
  { s with mcastUsed := Tab.put s.mcastUsed e.mcastGroup (Tab.get s.mcastUsed 0 e.mcastGroup + n) }

/-! ### The open (R177) -/

/-- The open binds a slot: OPENING, its first read under way, unless the source lies outside the declared regions (R177, R184). -/
def State.bindStream (s : State) (k j entry : Nat) (im : Image) (e : StreamEntry) (out : Option Nat) : State :=
  let s := s.yieldSlot k
  let s := (s.setStream k (s.newStream k j entry e out)).bindCheck (streamContext k) 0 j
  let s := (s.bump 0x7020 1 1).bump (0x7080 + j) 2 1
  if s.sourceGranted im e then (s.sendSignals k).readAhead k else s.streamFail k ACCESS_PROTECT

/-- The issue of KEYSTREAM_OPEN: a RESIDENT entry opened before in this job opens no new stream; a free slot is bound at once, where
no earlier open waits; else the open waits, unfinished, for a slot (R177, R183). -/
def State.openStream (s : State) (t j : Nat) (im : Image) (o : LopInst) : State :=
  let entry := bits o.op.tab 0 8
  match im.streams[entry]? with
  | none => s
  | some e =>
    let x := s.job j
    let out := (x.openOuts[x.opens]?).getD none
    let s := s.updJob j fun x => { x with opens := x.opens + 1 }
    let s := s.updTile t fun x => { x with nextOp := x.nextOp + 1 }
    if bit e.flags 0 ∧ x.opened.contains entry then s
    else
      let s := s.updJob j fun x =>
        { x with opened := if x.opened.contains entry then x.opened else x.opened ++ [entry], keysMatched := x.keysMatched.filter (fun i => i ≠ entry)
                 keyHeaders := Tab.erase x.keyHeaders entry }
      match s.openWaits, s.freeStream with
      | [], some k => s.bindStream k j entry im e out
      | _, _ =>
        let s := s.updTile t fun x => { x with running := x.running ++ [o] }
        { s with openWaits := s.openWaits ++ [{ job := j, tile := t, opId := o.id, entry := entry, out := out }] }

/-- KEYSTREAM_OPEN (R177). -/
def execKeystreamOpen (t index sa : Nat) (s : State) : Host.Outcome State Fault Refusal :=
  onTile t s fun s => s.issueLop t index sa lopKeystream fun j im o s => s.openStream t j im o

/-- The waiting open that was issued first takes a freed slot; its operation has finished (R177). -/
def State.slotBind (s : State) : State :=
  match s.openWaits, s.freeStream with
  | w :: rest, some k =>
    match (s.job w.job).image with
    | none => s
    | some im =>
      match im.streams[w.entry]? with
      | none => s
      | some e =>
        let s := { s with openWaits := rest }
        (s.updTile w.tile fun x => x.retire w.opId).bindStream k w.job w.entry im e w.out
  | _, _ => s

/-- STREAM_SLOT_BIND (R177). -/
def execStreamSlotBind (s : State) : Host.Outcome State Fault Refusal := .next s.slotBind

/-- `m` metering windows have passed: reads beyond RATE x 1 us of a window are those of the next, and each window that they fill
held the stream (R177). -/
def State.nextWindows (s : State) (m k : Nat) : State :=
  let x := s.stream k
  match s.streamEntry x with
  | none => s
  | some ie =>
    let b := ie.2.budget
    let full := (x.windowBytes - 1) / b - 1
    let s := if x.bound ∧ 0 < min m full then s.bump (0x7080 + x.job) 5 (min m full) else s
    (s.setStream k { x with windowBytes := x.windowBytes - m * b, deferredWindow := m ≤ full }).readAhead k

/-- RATE_WINDOW: metering windows of 1 us of fabric time have passed; held streams may read again (R177). -/
def execRateWindow (s : State) : Host.Outcome State Fault Refusal :=
  .next (
    if s.rateWindowAt < s.fabricTime / 1000 then
      (List.range 16).foldl (fun t k => t.nextWindows (s.fabricTime / 1000 - s.rateWindowAt) k) { s with rateWindowAt := s.fabricTime / 1000 }
    else s)

/-! ### The header (R178, R179) -/

/-- The first granule's checks: the stream is CHECKED and its header kept, or it fails (R178, R179). -/
def State.checkHeader (s : State) (k : Nat) (granule : List Byte) : State :=
  let x := s.stream k
  match s.streamEntry x with
  | none => s
  | some ie =>
    if x.state ≠ 1 ∨ ie.2.sourceKind = 4 then s
    else if !s.arrivedAt k ie.2 then s.geyserWait
    else if s.sourcePoisoned ie.2 0 (min 256 ie.2.wireLength) then s.streamFail k SLOT_POISON
    else
      let g := s.sourceBytes ie.2 0 256 granule
      let h := readHeader g
      let n := 128 + (if hasPrefix h.kind then 16 else 0)
      let s := (s.readWire k n (g.take n)).updStream k fun x => { x with slotHeader := g.take 128 }
      match s.headerError x.job ie.1 h ie.2 x.out with
      | some e => s.streamFail k e
      | none =>
        let s := s.updStream k fun x => { x with state := 2, header := some h }
        (s.updJob x.job fun y => { y with keyHeaders := Tab.put y.keyHeaders x.entry h }).readAhead k

/-- KEY_HEADER_CHECK (R178). -/
def execKeyHeaderCheck (slot : Nat) (granule : List Byte) (s : State) : Host.Outcome State Fault Refusal :=
  onStream slot s fun s => s.checkHeader slot granule

/-! ### Rows (R180, R181, R187) -/

/-- The tiles that keep a row, with the share index it takes in each. -/
def State.keepers (s : State) (j : Nat) (e : StreamEntry) (h : KeyHeader) (i : Nat) : List (Nat × Nat) :=
  let rows := s.streamRows h e
  let g := (s.job j).group
  let pos := ((List.range rows.length).filter fun n => ((rows[n]?).map fun k => k.uniform).getD true = false).getD i 0
  g.filterMap fun t =>
    match rows[pos]? with
    | some k => if k.keeps g.length (rankOf g t) then some (t, ((rows.take pos).filter fun k => k.keeps g.length (rankOf g t)).length) else none
    | none => none

/-- The stored rows written so far that a tile keeps. -/
def State.keptStored (s : State) (j t : Nat) (h : KeyHeader) (e : StreamEntry) (n : Nat) : Nat :=
  let g := (s.job j).group
  (((s.streamRows h e).filter fun k => !k.uniform).take n |>.filter fun k => k.keeps g.length (rankOf g t)).length

/-- The next stored row of a stream is broadcast to the tiles that keep it, once each one's row is EMPTY (R180, R181). -/
def State.writeStored (s : State) (k : Nat) (data : List Byte) : State :=
  let x := s.stream k
  match s.streamEntry x, x.header with
  | some ie, some h =>
    match nextStored (s.streamRows h ie.2) x.storedRow, s.keySets h with
    | some row, some sets =>
      let m := s.meter k ie.2
      let r := rowRange h sets.2 x row
      if x.state ≠ 2 ∧ x.state ≠ 3 then s
      else if row.wire ≠ 0 ∧ !s.arrivedAt k ie.2 then s.geyserWait
      else if ie.2.sourceKind ≠ 1 ∧ ie.2.sourceKind ≠ 2 ∧ !m.1 then m.2
      else if s.sourcePoisoned ie.2 r.1 r.2 then s.streamFail k SLOT_POISON
      else
        let ks := s.keepers x.job ie.2 h x.storedRow
        let ready := ks.all fun p =>
          s.ringReady p.1 ie.2 (s.tileShare x.job p.1 h ie.2) (s.keptStored x.job p.1 h ie.2 x.storedRow) (Tab.get x.uniform 0 p.1) p.2
        if !ready then (s.geyserStall causeTag 1).updStream k fun x => { x with waitSince := s.now }
        else
          let bs := s.sourceBytes ie.2 r.1 r.2 data
          let s := s.readWire k row.wire (if row.wire = 0 then [] else bs.take row.wire)
          let s := if ks.isEmpty then s else s.bump 0x7020 3 row.wire
          let s := s.updStream k fun x => { x with state := 3, storedRow := x.storedRow + 1 }
          let d := storedRow h sets.2 row bs
          ((ks.foldl (fun s p => ((s.wakeTile p.1).writeRow p.1 (ie.2.ringRow p.2) d).completeRow p.1 (ie.2.ringRow p.2)) s).sendSignals k).readAhead k
    | _, _ => s
  | _, _ => s

/-- KEY_ROW_WRITE (R181). -/
def execKeyRowWrite (slot : Nat) (data : List Byte) (s : State) : Host.Outcome State Fault Refusal :=
  onStream slot s fun s => s.writeStored slot data

/-- The GGSW ciphertext of a bootstrapping key to which a row belongs (Table 8-6). -/
def KeyRow.ggsw (k : KeyRow) (p : ParamSet) : Nat := k.u / (p.glweK * (p.glweK + 1) * p.decompLevels)

/-- The rank whose core regenerates a uniform row for the whole group: GGSW index mod G where RegenShare is 1 (R160). -/
def State.sharer (s : State) (h : KeyHeader) (p : ParamSet) (g : Nat) (k : KeyRow) : Option Nat :=
  if h.kind = 4 ∧ s.entry 0x7810 1 = 1 then some (k.ggsw p % g) else none

/-- The uniform row of a share that a tile writes next: the share index. -/
def State.nextUniform (s : State) (x : Stream) (h : KeyHeader) (e : StreamEntry) (t : Nat) : Option Nat :=
  nthRow (s.tileShare x.job t h e) true (Tab.get x.uniform 0 t)

/-- The tiles to which a core's row goes: its own, or those of the group that have come as far where the core shares it;
none where another tile's core shares it with this one (R160, log entry 13). -/
def State.uniformTargets (s : State) (x : Stream) (h : KeyHeader) (p : ParamSet) (k : KeyRow) (t : Nat) : List Nat :=
  let group := (s.job x.job).group
  let peers := group.filter fun u => Tab.get x.uniform 0 u = Tab.get x.uniform 0 t
  match s.sharer h p group.length k with
  | none => [t]
  | some r => if rankOf group t = r then peers else if peers.any (fun u => rankOf group u = r) then [] else [t]

/-- A SHAKE128 core's next uniform row of a stream is written once its row is EMPTY in every tile that it goes to; a block is counted
against the core (R160, R181, R187, Table 19-5). The stream's counts of uniform rows follow. -/
def State.writeUniformOf (s : State) (x : Stream) (t : Nat) : Stream × State :=
  match s.streamEntry x, x.header with
  | some ie, some h =>
    match s.nextUniform x h ie.2 t, s.keySets h with
    | some i, some sets =>
      let share := s.tileShare x.job t h ie.2
      let row := share.getD i default
      let targets := s.uniformTargets x h sets.1 row t
      let ready (u : Nat) : Bool := s.ringReady u ie.2 (s.tileShare x.job u h ie.2) (s.keptStored x.job u h ie.2 x.storedRow) (Tab.get x.uniform 0 u) i
      if x.state < 2 ∨ 4 < x.state ∨ !(s.job x.job).group.contains t ∨ targets.isEmpty then (x, s)
      else if !targets.all ready then (x, s.stall t 5 causeTag 1)
      else
        let d := uniformRow h sets.1 sets.2 row
        let n := Tab.get x.uniform 0 t
        let s := s.bump 0x7020 4 (4608 * targets.length)
        let s := targets.foldl (fun s u => ((s.wakeTile u).writeRow u (ie.2.ringRow i) d).completeRow u (ie.2.ringRow i)) s
        ({ x with uniform := targets.foldl (fun m u => Tab.put m u (n + 1)) x.uniform }, s)
    | _, _ => (x, s)
  | _, _ => (x, s)

/-- The stream whose uniform rows a slot's cores regenerate: one that has left the slot first (log entry 13). -/
def State.writeUniform (s : State) (k t : Nat) : State :=
  let late (w : Nat × Stream) : Bool := w.1 = k && (match s.streamEntry w.2, w.2.header with
    | some ie, some h => (s.nextUniform w.2 h ie.2 t).isSome
    | _, _ => false)
  match s.lateStreams.find? late with
  | some w =>
    let r := s.writeUniformOf w.2 t
    { r.2 with lateStreams := r.2.lateStreams.map fun v => if v = w then (k, r.1) else v }
  | none =>
    let r := s.writeUniformOf (s.stream k) t
    r.2.setStream k r.1

/-- UNIFORM_ROW_WRITE (R187). -/
def execUniformRowWrite (slot t : Nat) (s : State) : Host.Outcome State Fault Refusal :=
  onStream slot s fun s => s.writeUniform slot t

/-! ### The trailer (R174, R182) -/

/-- The trailer read and compared: DONE and the slot released, or KEY_CRC (R182). -/
def State.checkTrailer (s : State) (k : Nat) (trailer : Word) : State :=
  let x := s.stream k
  match s.streamEntry x with
  | none => s
  | some ie =>
    let owner := ie.2.sourceKind = 4
    let complete := x.bytesRead + 8 = ie.2.wireLength
    if !complete ∨ (!owner ∧ x.state ≠ 2 ∧ x.state ≠ 3) ∨ (owner ∧ x.state ≠ 1 ∧ x.state ≠ 3) ∨ !s.arrivedAt k ie.2 then s
    else if s.sourcePoisoned ie.2 x.bytesRead 8 then s.streamFail k SLOT_POISON
    else
      let got := leNat (s.sourceBytes ie.2 x.bytesRead 8 (leBytes 8 trailer.toNat))
      let s := ((s.bump 0x7020 2 8).bump (0x7080 + x.job) 1 8).updStream k fun y => { y with bytesRead := y.bytesRead + 8 }
      if got = crc64Value x.crc then
        let s := s.updJob x.job fun y => { y with keysMatched := x.entry :: y.keysMatched }
        let s := if owner then s.useCredits ie.2 else s.sendSignals k
        s.releaseStream k 4
      else s.streamFail k KEY_CRC

/-- KEY_TRAILER_CHECK (R182). -/
def execKeyTrailerCheck (slot : Nat) (trailer : Word) (s : State) : Host.Outcome State Fault Refusal :=
  onStream slot s fun s => s.checkTrailer slot trailer

/-! ### Failures and multicast (R184, R190, R191) -/

/-- The errors a source read can end with (R184). -/
def readErrors : List Nat := [FABRIC_TIMEOUT, FABRIC_CRC, MEM_UNCORRECTABLE, ACCESS_PROTECT, FABRIC_UNREACHABLE, SLOT_POISON,
  HOST_LINK_DOWN, HOST_COMPLETION, HOST_IDE_REQUIRED]

/-- STREAM_READ_FAIL: an open stream fails with its read's error (R184). -/
def execStreamReadFail (slot error : Nat) (s : State) : Host.Outcome State Fault Refusal :=
  onStream slot s fun s =>
    let x := s.stream slot
    if x.bound ∧ 1 ≤ x.state ∧ x.state ≤ 3 ∧ error ∈ readErrors then s.streamFail slot error else s

/-- The next half-ring window of an MCAST_OUT stream, once the members have signalled what it waits for and its RATE allows:
the wire image's bytes leave as MCAST-PUT frames of at most 4,096 bytes (R177, R190). -/
def State.sendWindow (s : State) (k : Nat) : State :=
  let x := s.stream k
  match s.streamEntry x with
  | none => s
  | some ie =>
    let e := ie.2
    let half := 512 * e.ringKib
    let off := half * x.windowsSent
    let m := s.meter k e
    if e.sourceKind ≠ 4 ∨ !x.bound ∨ x.state = 5 ∨ e.wireLength ≤ off ∨ !s.windowPermitted x e then s
    else if !m.1 then m.2
    else
      let n := min half (e.wireLength - off)
      if s.sourcePoisoned e off n then s.streamFail k SLOT_POISON
      else
        let bs := s.memBytes (localOf e.source + off) n
        let body := bs.take (e.wireLength - 8 - off)
        let s := s.readWire k body.length body
        let s := s.updStream k fun x => { x with state := 3, windowsSent := x.windowsSent + 1 }
        (List.range (ceilDiv n 4096)).foldl (fun s i =>
          s.mcastSend e.mcastGroup (localOf e.source + (off + 4096 * i) % (1024 * e.ringKib)) ((bs.drop (4096 * i)).take 4096) x.job k) s

/-- MCAST_WINDOW_SEND (R190). -/
def execMcastWindowSend (slot : Nat) (s : State) : Host.Outcome State Fault Refusal := onStream slot s fun s => s.sendWindow slot

/-- Whether a multicast stream waits for another device: an owner with windows to send for its members' signals, a member for ring data (R191). -/
def State.mcastWaiting (s : State) (x : Stream) (e : StreamEntry) : Bool :=
  if e.sourceKind = 4 then decide (512 * e.ringKib * x.windowsSent < e.wireLength) && !s.windowPermitted x e
  else decide (x.bytesRead < e.wireLength)

/-- A wait of a multicast stream that has outlasted its timeout (R191). A member that a FULL row blocked waits from the block on. -/
def State.mcastTimeout (s : State) (k kind : Nat) : State :=
  let x := s.stream k
  match s.streamEntry x with
  | none => s
  | some ie =>
    if ie.2.sourceKind = kind ∧ x.bound ∧ x.state ≠ 5 ∧ s.mcastWaiting x ie.2 ∧ x.waitSince + x.creditTimeout < s.now then s.streamFail k FABRIC_TIMEOUT else s

/-- MCAST_CREDIT_TIMEOUT: the owner's (R191). -/
def execMcastCreditTimeout (slot : Nat) (s : State) : Host.Outcome State Fault Refusal := onStream slot s fun s => s.mcastTimeout slot 4

/-- MCAST_IDLE_TIMEOUT: a member's (R191). -/
def execMcastIdleTimeout (slot : Nat) (s : State) : Host.Outcome State Fault Refusal := onStream slot s fun s => s.mcastTimeout slot 3

/-! ### Resident keys (R183) -/

/-- A failed check of a resident key: the stream of its entry, found in its slot, is FAILED, with the outcomes of R179. -/
def State.residentFail (s : State) (j entry : Nat) : State :=
  match (List.range 16).find? fun k => (s.stream k).job = j && (s.stream k).entry = entry && (s.stream k).state ≠ 0 with
  | some k => s.streamFail k KEY_MISMATCH
  | none => s.keyOutcome j entry KEY_MISMATCH

/-- The check of a consumer of a resident entry opened and checked before: checks 4 and 5 against the kept header,
with the consumer's input handle beside the entry's handles and its own output handle (R183). -/
def State.residentCheck (s : State) (j : Nat) (im : Image) (o : LopInst) : State :=
  o.op.keyEntries.foldl (fun s entry =>
    match im.streams[entry]?, Tab.get? (s.job j).keyHeaders entry with
    | some e, some h =>
      if !bit e.flags 0 ∨ (s.job j).state ≠ .running then s
      else if s.headerEntry j h e && s.headerTags j im h e (some o.op.hout) [o.op.hina] then s
      else s.residentFail j entry
    | _, _ => s) s

end Sys2Proof.Machine
end

