-- ==== Sys2Proof/Machine/LongRun.lean ====
section
/-! DEFINITION. What a running long operation reads, waits for, computes and writes (R218, R227-R235, R441, R442). -/

namespace Sys2Proof.Machine

/-! ### Keys (R181, R182, R186) -/

/-- The row a consumer waits for on an entry: none once it has its whole share (R186). -/
def State.keyWait (s : State) (t j : Nat) (im : Image) (o : LopInst) (entry : Nat) : Option Nat :=
  match im.streams[entry]? with
  | none => none
  | some e =>
    let taken := (if o.firstKey entry then o.keyRows else o.keyRows2).length
    match Tab.get? (s.job j).keyHeaders entry with
    | none => some (e.ringRow taken)
    | some h => if taken < (s.tileShare j t h e).length then some (e.ringRow taken) else none

/-- Whether the trailer of a key that an operation consumes has not matched: its results wait for it (R163, R182). -/
def State.trailerDue (s : State) (j : Nat) (o : LopInst) : Bool := !o.standby && o.op.keyEntries.any fun e => !(s.job j).keysMatched.contains e

/-! ### Key rows as key ciphertexts -/

/-- Polynomials of dimension n from key rows: one of 512 has a row of its own (log entry 12). -/
def keyPoly (rows : List Row) (n i : Nat) : List Nat :=
  if n = 512 then (List.range n).map fun k => laneAt rows i k else polyAt rows n i

/-- A GGSW row of a bootstrapping key (Table 7-1). -/
def ParamSet.bskRow (p : ParamSet) (rows : List Row) (ggsw t j : Nat) : Glwe :=
  let r := (ggsw * (p.glweK + 1) + t) * p.decompLevels + j
  (List.range (p.glweK + 1)).map fun c => (List.range p.limbs).map fun i => keyPoly rows p.n ((r * (p.glweK + 1) + c) * p.limbs + i)

/-- The sample K_(i,j) of an LWE key-switch key from its rows (R152, log entry 12). -/
def kskSample (h : KeyHeader) (p g : ParamSet) (rows : List Row) (i j : Nat) : List Nat :=
  let u := i * h.digits + j
  let n := p.sourceDim * h.digits
  let value (r e : Nat) : Nat :=
    if g.lweLanes = 2 then laneAt rows r (2 * e) % 2 ^ 32 + 2 ^ 32 * (laneAt rows r (2 * e + 1) % 2 ^ 32) else laneAt rows r e
  let w := g.lwePerRow
  if h.seeded then
    let base := ceilDiv n w + u * ceilDiv g.lweN w
    ((List.range g.lweN).map fun k => value (base + k / w) (k % w)) ++ [value (u / w) (u % w)]
  else (List.range (g.lweN + 1)).map fun k => value (u * g.sampleRows (g.lweN + 1) + k / w) (k % w)

/-- The ciphertext PK_(i,e) of a ring-packing key (Table 7-1). -/
def packKey (h : KeyHeader) (p : ParamSet) (rows : List Row) (i e : Nat) : List (List (List Nat)) :=
  (List.range 2).map fun c => (List.range h.levelHi).map fun l => keyPoly rows p.n (((i * h.digits + e) * 2 + c) * h.levelHi + l)

/-! ### Results (Table 10-2) -/

/-- The rows of a region as the tile holds them. -/
def State.rowsAt (s : State) (t : Nat) (r : Nat × Nat) : List Row := (regionRows r).map fun i => s.rowData t i

/-- The header of an entry's latest checked stream. -/
def Job.keyHeader (j : Job) (entry : Nat) : KeyHeader := (Tab.get? j.keyHeaders entry).getD default

/-- The output rows of a batch bootstrap on the tile (R157-R160). -/
def State.batchRows (s : State) (t j : Nat) (x : RunShape) (o : LopInst) : List Row :=
  let p := x.p
  let per := p.sampleRows (p.lweN + 1)
  let a := s.takenOf t j o .a
  let mine := x.samples o.opnd
  if o.standby then a
  else
    let b := s.takenOf t j o .b
    let c := s.takenOf t j o .c
    let h := (s.job j).keyHeader (bits o.op.tab 8 8)
    (List.range mine.length).flatMap fun i =>
      let smp := mine.getD i 0
      let sel := laneAt b (smp / 1024) (smp % 1024) % 256
      let table := p.sampleAt c (sel * p.sampleRows p.n) p.n
      p.sampleOut (p.bootstrap (p.bskRow o.keyRows) (2 ^ p.decompLogBase) h.digits (kskSample h p p o.keyRows2) table (p.sampleAt a (i * per) (p.lweN + 1)))

/-- The output rows of an extraction on the tile (R165). -/
def State.extractRows (s : State) (t j : Nat) (x : RunShape) (o : LopInst) : List Row :=
  let job := s.job j
  match s.set? (job.setOf o.op.hout) with
  | none => []
  | some g =>
    let p := x.p
    let h := job.keyHeader (bits o.op.tab 8 8)
    let a := s.takenOf t j o .a
    let b := s.takenOf t j o .b
    let ntt := ((job.handle? o.op.hina).map fun x => x.nttForm).getD false
    let comp (c : Nat) : List Nat := let v := polyAt a p.n c; if ntt then nttLimb p 0 1 v else v.map fun y => y % p.q 0
    let c0 := comp 0
    let c1 := comp 1
    (x.samples o.opnd).flatMap fun smp =>
      let pos := laneAt b (smp / 1024) (smp % 1024) % 2 ^ 32
      g.sampleOut (keySwitch g (p.q 0) (2 ^ g.decompLogBase) h.digits (kskSample h p g o.keyRows) (extractPacked (p.q 0) p.n pos c0 c1))

/-- The output rows of a packing: the lowest rank's (R168). -/
def State.packedRowsOut (s : State) (t j : Nat) (x : RunShape) (o : LopInst) : List Row :=
  let job := s.job j
  match s.set? (job.setOf o.op.hina) with
  | none => []
  | some g =>
    if x.rank ≠ 0 then []
    else
      let h := job.keyHeader (bits o.op.tab 0 8)
      let a := s.takenOf t j o .a
      let samples := (List.range o.opnd).map fun i => g.sampleAt a (i * g.sampleRows (g.lweN + 1)) (g.lweN + 1)
      opPack x.p g.lweN h.digits (bits o.op.b64 0 8) (packKey h x.p o.keyRows) samples

/-- The rows that a tile's instance of a group operation has read, once it has read them all, also where it has finished. -/
def State.takenBy (s : State) (j ordinal u : Nat) : Option (List Row) :=
  match (s.tile u).running.find? fun o => o.op.isGroup && o.ordinal = ordinal with
  | some o => if (s.unread u j o).isEmpty then some o.taken else none
  | none => ((s.job j).exchanged.find? fun e => e.1 = ordinal && e.2.1 = u).map fun e => e.2.2

/-- The rows of the special limbs of a MODDOWN, from the tiles of the group that keep them, once those have read them (R105, R180, R442, log entry 74). -/
def State.specialRows (s : State) (j : Nat) (x : RunShape) (o : LopInst) : Option (List Row) :=
  let r := rowsPer x.p.n
  ((List.range 2).flatMap fun c => (List.range x.p.special).map fun a => (c, o.level + a)).foldl (fun acc e =>
    let y : RunShape := { x with rank := e.2 % x.g }
    let w := (y.keptLimbs o.level).length
    match acc, s.takenBy j o.ordinal ((s.job j).group.getD (e.2 % x.g) 0) with
    | some l, some rows => some (l ++ (rows.drop ((e.1 * w + e.2 / x.g) * r)).take r)
    | _, _ => none) (some [])

/-- A finished MODDOWN leaves its rows for the tiles of the group that have not finished it. -/
def Job.leaveRows (job : Job) (t : Nat) (o : LopInst) : Job :=
  if o.op.code ≠ lopModdown then job
  else
    let all := job.exchanged ++ [(o.ordinal, t, o.taken)]
    let mine (e : Nat × Nat × List Row) : Bool := e.1 = o.ordinal
    { job with exchanged := if (all.filter mine).length = job.group.length then all.filter fun e => !mine e else all }

/-- The destination rows of an engine operation. -/
def State.resultRows (s : State) (t j : Nat) (im : Image) (x : RunShape) (o : LopInst) : List Row :=
  let a := o.taken
  let p := x.p
  let c := o.op.code
  if c = lopNtt then opNtt p o.qm.limb o.op.limbs o.op.comps o.op.mode a
  else if c = lopAutomorph then opAutomorph p o.qm.limb o.op.limbs o.op.comps o.op.mode o.opnd a
  else if c = lopTranspose then opTranspose a
  else if c = lopBconv then opBconv p o.qm.limb o.op.limbs o.op.comps (bconvTargets o.opnd) a
  else if c = lopRescale then opRescale p o.level o.comps x.rowsT a
  else if c = lopKsip then
    let e := im.streams.getD (bits o.op.tab 0 8) default
    opKsip ((x.keptLimbs e.useLevel).map p.q) o.opnd (rowsPer p.n) a o.keyRows
  else if c = lopModdown then
    let kept := x.keptLimbs o.level
    opModdown p ((kept.filter fun i => i < o.level).map p.q) kept.length (rowsPer p.n) a ((s.specialRows j x o).getD [])
  else if c = lopModraise then opModraise p x.rowsT a
  else if c = lopBatch then s.batchRows t j x o
  else if c = lopExtract then s.extractRows t j x o
  else if c = lopPack then s.packedRowsOut t j x o
  else []

/-- Whether a selector or position among the operands is out of range (R163, R165). -/
def State.operandFault (s : State) (t j : Nat) (x : RunShape) (o : LopInst) : Bool :=
  let b := s.takenOf t j o .b
  if o.op.code = lopBatch ∧ !o.standby then (x.samples o.opnd).any fun i => o.op.mode ≤ laneAt b (i / 1024) (i % 1024) % 256
  else if o.op.code = lopExtract then (List.range o.opnd).any fun i => x.p.n ≤ laneAt b (i / 1024) (i % 1024) % 2 ^ 32
  else false

/-- Rows written by an engine from a first row on (R227, R272). -/
def State.writeEngineRows (s : State) (t first : Nat) (rows : List Row) : State :=
  (List.range rows.length).foldl (fun s i => (s.writeRow t (first + i) (rows.getD i [])).completeRow t (first + i)) s

/-- A tile has finished its part of a batch: the batch is complete with the last tile, which leaves the figures of the slowest (R170, log entry 71). -/
def State.countBatch (s : State) (t j : Nat) (o : LopInst) : State :=
  let job := s.job j
  let b : BatchRun := match job.batch with | some b => if b.ordinal = o.ordinal then b else { ordinal := o.ordinal } | none => { ordinal := o.ordinal }
  let cycles := cyclesAt (s.entry (0xA0C0 + t) 2) (s.now - o.keysAt.getD s.now)
  let b := { b with tiles := b.tiles + 1, cycles := max b.cycles cycles, wides := max b.wides o.wides }
  if b.tiles < job.group.length then s.updJob j fun x => { x with batch := some b }
  else
    let s := ((s.updJob j fun x => { x with batch := none }).bump 0x7820 2 1).bump (0x7880 + j) 2 1
    ((s.setEntry (0x7880 + j) 5 b.cycles).setEntry (0x7880 + j) 6 o.opnd).setEntry (0x7880 + j) 7 b.wides

/-- The device and job counters of a finished operation (Table 7-5). -/
def State.countLop (s : State) (t j : Nat) (x : RunShape) (o : LopInst) : State :=
  let both (s : State) (dev job n : Nat) : State := (s.bump 0x7820 dev n).bump (0x7880 + j) job n
  let mine := (x.samples o.opnd).length
  let leads := t = (s.job j).lead
  if o.op.code = lopBatch ∧ !o.standby then (both s 1 1 mine).countBatch t j o
  else if o.op.code = lopExtract then both s 3 3 mine
  else if o.op.code = lopPack then (if leads then both s 4 4 o.opnd else s)
  else if o.op.code = lopModraise then (if leads then s.bump 0x7820 5 1 else s)
  else s

/-- The constants of a base conversion (R100, R103-R105). -/
def LopInst.constKeys (o : LopInst) (x : RunShape) : List ConstKey :=
  let c := o.op.code
  let p := x.p
  if c = lopBconv then convKeys o.qm.limb o.op.limbs (bconvTargets o.opnd)
  else if c = lopRescale then ((List.range (o.level - 1)).map fun i => .rescale o.level i) ++ (if p.encoding = 1 then [.plain o.level] else [])
  else if c = lopModdown then
    let targets := (x.keptLimbs o.level).filter fun i => i < o.level
    convKeys p.limbs p.special targets ++ targets.map fun i => .modDown i
  else []

/-- The lines of the constant block that an operation still waits for (R102, log entry 14). -/
def State.constWait (s : State) (t : Nat) (x : RunShape) (o : LopInst) : List Nat :=
  if o.op.code ∈ [lopBconv, lopRescale, lopModdown] then (x.p.linesOf (o.constKeys x)).filter fun l => !(s.tile t).constLines.contains l else []

/-- What the error code found on an engine's reads, and whether it ends the operation (R213, R270):
`word` counts words of 256 a row over the source rows in order. -/
def State.sourceEcc (s : State) (t : Nat) (rows : List Nat) (ecc : Ecc) : State × Bool :=
  match ecc with
  | .clean => (s, false)
  | .tagCopy => (s.rowEcc t 0 .tagCopy, false)
  | .corrected w => (match rows[w / 256]? with | some r => s.ownRowEcc t r (.corrected (w % 256)) | none => s, false)
  | .uncorrectable w => (match rows[w / 256]? with | some r => (s.ownRowEcc t r (.uncorrectable (w % 256)), true) | none => (s, false))

/-- A finished operation that consumes keys leaves the place of its outputs, for a key error still to come (R182). -/
def Tile.noteOutputs (x : Tile) (o : LopInst) : Tile := if o.op.keyEntries.isEmpty then x else { x with keyOuts := x.keyOuts ++ [(o.ordinal, o.rgnD)] }

/-- An operand out of range found as an operation is set up: all the operation's output rows turn POISON, and the job ends (R163, R165). -/
def State.failOperand (s : State) (t j : Nat) (o : LopInst) : State :=
  ((if o.op.code = lopBatch then s.bump 0x7820 6 1 else s).poisonGroupOp j o.ordinal).failLop t PARAM_MISMATCH o 0 0

/-- An engine operation finishes, or waits one more cycle for a row, a key or a constant line, or fails (R163, R218, R228). -/
def State.finishEngine (s : State) (t j : Nat) (im : Image) (o : LopInst) (ecc : Ecc) : State :=
  match s.runShape t j o with
  | none => s
  | some x =>
    match s.firstWait t j o with
    | some row => s.waitRow t im o row
    | none =>
      if s.operandFault t j x o then s.failOperand t j o
      else
        match (if o.standby then [] else o.op.keyEntries).findSome? fun e => s.keyWait t j im o e with
        | some row => s.waitRow t im o row
        | none =>
          let s := s.noteMiss t o none
          if s.trailerDue j o then s
          else if !(s.constWait t x o).isEmpty then s.stall t 3 causeTag 1
          else if o.op.code = lopModdown ∧ (s.specialRows j x o).isNone then s
          else
            let r := s.sourceEcc t (s.sourceRows t j o) ecc
            let s := r.1
            if r.2 then s.failLop t MEM_UNCORRECTABLE o 0 0
            else
              let rows := (s.resultRows t j im x o).take o.rgnD.2
              let s := (s.writeEngineRows t o.rgnD.1 rows).countLop t j x o
              ((s.updTile t fun y => (y.retire o.id).noteOutputs o).updJob j fun y => y.leaveRows t o).feedTile t

/-! ### Transfers (R230-R234) -/

/-- Whether a transfer takes its source whole with its first row: one that converts or verifies (R118, R233, R234). -/
def LongOp.copies (op : LongOp) : Bool := op.converts || op.verifies

/-- The elements of a conversion's memory side. -/
def Shape.allElems (x : Shape) (base : Nat) : List (Option Nat) := (List.range x.d.rows).flatMap fun k => (List.range x.d.cols).map fun c => x.addressOf base k c

/-- The body that a VERIFY transfer reads: its first byte and length (R233). -/
def State.verifyBody (s : State) (j : Nat) (o : LopInst) : Nat × Nat :=
  (((s.job j).handle? o.op.hina).map fun h => (h.location, h.bodyLength)).getD (0, 0)

/-- The source that a copying transfer reads: the elements of a conversion packed in their format, or the body's bytes (R118, R233). -/
def State.sourceCopy (s : State) (j : Nat) (x : Shape × Nat) (o : LopInst) (data : List Byte) : List Byte :=
  let here := s.isSelf (nodeOf x.2)
  if o.op.converts then
    let elems := x.1.allElems x.2
    let vs := if here then s.localValues x.1 (s.job j).group elems else x.1.arrivedValues elems data
    let w := formatBits o.op.memFormat
    leBytes (ceilDiv (w * vs.length) 8) (vs.foldr (fun v acc => v % 2 ^ w + 2 ^ w * acc) 0)
  else
    let b := s.verifyBody j o
    if here then s.memBytes (localOf b.1) b.2 else sliceBytes data 0 b.2

/-- The integers and counts of an ENCODE in flight (R115, R116). -/
def Image.encodeRun (im : Image) (o : LopInst) (p : ParamSet) : List Int × ConvCounts := encodeInts o.op.b64 (im.convertCount o.op p) o.copy

/-- Row `i` of an XFER_IN: converted, from the copy, from what arrived, or from memory or a window of this device. -/
def State.fetchedRow (s : State) (t j : Nat) (im : Image) (x : Shape × Nat) (o : LopInst) (i : Nat) (arrived : List Byte) : Row :=
  if o.op.converts then
    match s.set? (cwSet o.op.b64) with
    | none => []
    | some p =>
      let e := (s.convertShare t j x.1 o p).getD i (0, 0)
      let limb := encodeLimb p e.1 (im.encodeRun o p).1
      rowMap fun l => limb.getD (1024 * e.2 + l) 0
  else
    let elems := x.1.rowElems x.2 ((s.transferShare t j x.1).getD i (0, 0))
    x.1.row (if o.op.verifies then x.1.copiedValues x.2 elems o.copy
      else if s.isSelf (nodeOf x.2) then s.localValues x.1 (s.job j).group elems
      else x.1.arrivedValues elems arrived)

/-- The rows of an XFER_IN that land in the tile. -/
def LopInst.inRows (o : LopInst) : Nat := min o.rgnD.2 o.share

/-- The start of the memory or scratchpad word that holds a placed byte. -/
def Place.wordOf : Place → Place
  | .stack a => .stack (a / 32 * 32)
  | .window t off => .window t (off / 18 * 18)
  | p => p

/-- The source words, each once, that a row's landing reads on this device: its own elements' or the whole copy's. -/
def State.sourceWords (s : State) (t j : Nat) (x : Shape × Nat) (o : LopInst) (i : Nat) : List Place :=
  let w := ewBits x.1.d.ew
  let bytes : List Nat :=
    if o.op.copies ∧ o.fetched then []
    else if o.op.verifies then let b := s.verifyBody j o; (List.range (ceilDiv (b.1 % 32 + b.2) 32)).map fun k => b.1 / 32 * 32 + 32 * k
    else
      let elems := if o.op.converts then x.1.allElems x.2 else x.1.rowElems x.2 ((s.transferShare t j x.1).getD i (0, 0))
      (elems.filterMap id).flatMap fun a => [a / 8, (a + w - 1) / 8]
  (bytes.map fun a => (s.place x.1.d.windowRel (s.job j).group a).wordOf).eraseDups

/-- Whether a source word is poisoned (R264, R293). -/
def State.placePoisoned (s : State) : Place → Bool
  | .stack a => s.wordPoisoned (a / 32)
  | .window t off => s.tag t (off / 4608) = .poison
  | _ => false

/-- The window row of a source word that is not FULL yet (R264). -/
def State.placeWaits (s : State) : Place → Option Nat
  | .window t off => if s.tag t (off / 4608) = .empty then some (off / 4608) else none
  | _ => none

/-- What the error code found on a transfer's read of a source word (R213, R264, R293). -/
def State.placeEcc (s : State) (t : Nat) (p : Place) (ecc : Ecc) : State :=
  let at' (n : Nat) : Ecc := match ecc with | .clean => .clean | .tagCopy => .tagCopy | .corrected _ => .corrected n | .uncorrectable _ => .uncorrectable n
  match p with
  | .stack a => s.applyEcc a (at' 0)
  | .window u off =>
    if u = t then s.ownRowEcc u (off / 4608) (at' (off % 4608 / 18)) else s.rowEcc u (off / 4608) (at' (off % 4608 / 18))
  | _ => s

/-- Whether an earlier transfer of the tile has not written all its rows (R230). -/
def Tile.earlierUnwritten (x : Tile) (id : Nat) : Bool :=
  x.running.any fun o => o.id < id && ((o.op.code = lopXferIn && decide (o.rowsDone < o.inRows)) || (o.op.code = lopXferOut && !o.sent))

/-- A fetch engine that waits on a row's tag: a cycle counted, and the start of the wait kept (R228, R229, R232). -/
def State.fetchWait (s : State) (t id row : Nat) : State :=
  (s.stall t 4 causeTag 1).updTile t fun y => y.updOp id fun o => if o.waitRow = some row then o else { o with waitRow := some row, waitAt := s.now }

/-- The first context of the unit that serves a VERIFY transfer's body (Table 18-1), none while all are BOUND. -/
def State.verifyContext (s : State) (j : Nat) (o : LopInst) : Option Nat :=
  let node := nodeOf (s.verifyBody j o).1
  s.openCheck (s.unitsFor node (s.isSelf node))

/-- Whether a VERIFY transfer waits for a check-value context before its first byte (R388). -/
def State.verifyWaits (s : State) (j : Nat) (o : LopInst) : Bool := o.op.verifies && !o.fetched && (s.verifyContext j o).isNone

/-- The context that a VERIFY transfer holds from its first byte to its last, with the body folded through it (R386, R388). -/
def State.bindVerify (s : State) (t j : Nat) (o : LopInst) (copy : List Byte) : State :=
  match s.verifyContext j o with
  | some c => if o.op.verifies then ((s.bindCheck c 0 j).foldBody c copy).updTile t fun y => y.updOp o.id fun o => { o with check := some c } else s
  | none => s

/-- The first row of a transfer that converts or verifies takes the copy of its source; an ENCODE's counts are made from it (R118, R122, R234). -/
def State.takeCopy (s : State) (t j : Nat) (im : Image) (x : Shape × Nat) (o : LopInst) (data : List Byte) : State :=
  if !o.op.copies ∨ o.fetched then s
  else
    let o := { o with fetched := true, copy := s.sourceCopy j x o data }
    let s := (s.updTile t fun y => y.updOp o.id fun _ => o).bindVerify t j o o.copy
    match s.set? (cwSet o.op.b64) with
    | some p => if o.op.converts ∧ (t = (s.job j).lead ∨ x.1.d.stripe = 0) then s.countConversion (some j) (im.encodeRun o p).2 else s
    | none => s

/-- A fetched row is written; one that awaits a CRC match stays EMPTY (R227, R232, R233). -/
def State.landRow (s : State) (t j : Nat) (im : Image) (x : Shape × Nat) (id row : Nat) (data : List Byte) : State :=
  match (s.tile t).runningOp id with
  | none => s
  | some o =>
    let s := s.writeRow t row (s.fetchedRow t j im x o o.rowsDone data)
    let s := if o.op.verifies then s.setTag t row .empty else s.completeRow t row
    (s.updTile t fun y => y.updOp id fun o => { o with rowsDone := o.rowsDone + 1, waitRow := none }).feedTile t

/-- Fetched data for the next destination row, in dispatch order, once the row is EMPTY (R230, R232; log entry 40).
`ecc` is what the error code found on a local read: `word` counts the words read for the row. -/
def State.fetchRow (s : State) (t opId : Nat) (data : List Byte) (ecc : Ecc) : State :=
  match (s.tile t).runningOp opId, s.jobOfTile t with
  | some o, some j =>
    match (s.job j).image with
    | none => s
    | some im =>
      let x := s.transferShape j im o
      if o.op.code ≠ lopXferIn ∨ o.inRows ≤ o.rowsDone ∨ (s.job j).state ≠ .running then s
      else if (s.tile t).earlierUnwritten opId then s
      else
        let row := o.rgnD.1 + o.rowsDone
        let remote := !s.isSelf (nodeOf x.2)
        let words := if remote then [] else s.sourceWords t j x o o.rowsDone
        let land (s : State) : State := (s.takeCopy t j im x o data).landRow t j im x opId row data
        if !o.op.overwrites ∧ (s.tag t row ≠ .empty ∨ (s.tile t).verifyDue.contains row) then s.fetchWait t opId row
        else if remote ∧ s.remoteOps.any (fun r => r.issuer = t && r.opId = opId) then
          (if s.awaitTags fun r => r.issuer = t then s.stall t 4 causeFabric 1 else s)
        else if s.verifyWaits j o then s.stall t 4 causeTag 1
        else
          match words.findSome? s.placeWaits with
          | some r => s.fetchWait t opId r
          | none =>
            let poisoned := words.any s.placePoisoned
            match ecc with
            | .uncorrectable w => (s.placeEcc t (words.getD w .nowhere) ecc).failLop t MEM_UNCORRECTABLE o row 2
            | .corrected w =>
              if poisoned then (s.placeEcc t (words.getD w .nowhere) ecc).failLop t SLOT_POISON o row 2
              else (land s).placeEcc t (words.getD w .nowhere) ecc
            | .tagCopy =>
              let s := s.placeEcc t (words.getD 0 .nowhere) ecc
              if poisoned then s.failLop t SLOT_POISON o row 2 else land s
            | .clean => if poisoned then s.failLop t SLOT_POISON o row 2 else land s
  | _, _ => s

/-- The counts of R130, R135 and R137 that a finished transfer adds to its job (Table 11-12). -/
def State.countTransfer (s : State) (t j : Nat) (x : Shape × Nat) (o : LopInst) (dropped : Nat) : State :=
  let w := ewBits x.1.d.ew
  let share := (s.transferShare t j x.1).take (if o.op.converts then x.1.d.rows * x.1.rowsPer else (if o.op.code = lopXferIn then o.rgnD.2 else o.rgnA.2))
  let ordered := o.op.code = lopXferOut && x.1.d.reduce = 0 && x.1.d.ordered
  let s := s.bump (0x6100 + j) 0x10 (halfSpeedRuns w (x.1.moveOrder x.2 share ordered) ordered)
  let s := s.bump (0x6100 + j) 0x0E dropped
  if ordered then s.bump (0x6100 + j) 0x0F (aliasCount w (x.1.addresses x.2 share)) else s

/-- An XFER_IN finishes when its last row is FULL (Table 10-2). -/
def State.finishIn (s : State) (t j : Nat) (im : Image) (o : LopInst) : State :=
  let n := o.inRows
  let done := o.rowsDone = n && (!o.op.verifies || o.sent || n = 0) && !(s.tile t).verifyDue.any fun r => o.rgnD.1 ≤ r && r < o.rgnD.1 + n
  if done then (s.countTransfer t j (s.transferShape j im o) o 0).updTile t fun y => y.retire o.id else s

/-- The body's CRC-64 compared with BODY_CRC: the rows turn FULL together, or the transfer fails with DATA_CRC (R233). -/
def State.verifyMatch (s : State) (t opId : Nat) : State :=
  match (s.tile t).runningOp opId, s.jobOfTile t with
  | some o, some j =>
    match (s.job j).handle? o.op.hina with
    | some h =>
      if o.op.code ≠ lopXferIn ∨ !o.op.verifies ∨ o.inRows = 0 ∨ o.rowsDone ≠ o.inRows ∨ o.sent then s
      else
        let s := match o.check with | some c => s.endCheck c | none => s
        if crc64 o.copy = h.bodyCrc then
          (((List.range o.inRows).foldl (fun s i => s.completeRow t (o.rgnD.1 + i)) s).updTile t fun y =>
            y.updOp opId fun o => { o with sent := true }).feedTile t
        else s.failLop t DATA_CRC o 0 0
    | none => s
  | _, _ => s

/-! ### XFER_OUT (R117, R129-R136, R230, R231) -/

/-- The modulus word of the limb of logical row k, for REDUCE: QM's set from its limb on (R136, log entry 68). -/
def State.limbWord (s : State) (x : Shape) (o : LopInst) (k : Nat) : Nat :=
  match s.set? o.qm.setId with
  | some p => p.moduli.getD (o.qm.limb + k % x.level) 0
  | none => 0

/-- Coefficients of one row of a DECODE as elements of its memory side, and the counts (R117). -/
def Shape.decodeRow (x : Shape) (base : Nat) (w : Nat) (q0 n : Nat) (r : Nat) (row : Row) : List (Option PutElem) × ConvCounts :=
  let d := convertDecode w q0 ((List.range (min 1024 (n - 1024 * r))).map fun i => Row.lane row i)
  let f := cwDst w
  let vs := unpackNat (formatBits f) (8 * d.1.length / formatBits f) (leNat d.1)
  let first := if isBlock f then formatBytes f (cwBlock w) 1024 * r else 1024 * r
  ((vs.take (x.d.rows * x.d.cols - first)).zipIdx.filterMap fun v =>
    let e := first + v.2
    match x.d.classify (e / x.d.cols) (e % x.d.cols) with
    | .padding => none
    | .outside => some none
    | .at b => some (some { bitAddr := (8 * (base : Int) + b).toNat, value := v.1, word := 0 }), d.2)

/-- The elements that an XFER_OUT writes, how many it drops, and the counts of its conversion. -/
def State.outElems (s : State) (t j : Nat) (im : Image) (x : Shape × Nat) (o : LopInst) : List PutElem × Nat × ConvCounts :=
  if o.op.converts then
    match s.set? (cwSet o.op.b64) with
    | none => ([], 0, {})
    | some p =>
      let rs := ((s.convertShare t j x.1 o p).zip o.taken).map fun e => x.1.decodeRow x.2 o.op.b64 (p.q 0) (im.convertCount o.op p) e.1.2 e.2
      let all := rs.flatMap fun r => r.1
      (all.filterMap id, (all.filter Option.isNone).length, rs.foldl (fun c r => c.add r.2) {})
  else
    let r := x.1.scatterElems x.2 ((s.transferShare t j x.1).zip o.taken) (s.limbWord x.1 o)
    (r.1, r.2, {})

/-- The bit addresses that an XFER_OUT writes, before its rows are read. -/
def State.outAddresses (s : State) (t j : Nat) (x : Shape × Nat) (o : LopInst) : List Nat :=
  if o.op.converts then (x.1.allElems x.2).filterMap id else x.1.addresses x.2 ((s.transferShare t j x.1).take o.rgnA.2)

/-- The window rows that a write touches, with the tile. -/
def State.windowTouched (s : State) (x : Shape) (group : List Nat) (l : List Nat) : List (Nat × Nat × Nat) :=
  l.flatMap fun e => [e / 8, (e + ewBits x.d.ew - 1) / 8].filterMap fun a =>
    match s.place x.d.windowRel group a with
    | .window t off => some (t, off / 4608, off % 4608 / 18)
    | _ => none

/-- The words a window write covered; a row turns FULL when its coverage completes (R263). -/
def State.coverWindow (s : State) (l : List (Nat × Nat × Nat)) : State :=
  l.foldl (fun s e =>
    let seen := Tab.get (s.tile e.1).coverage [] e.2.1
    if seen.contains e.2.2 then s
    else
      let s := s.updTile e.1 fun y => { y with coverage := Tab.put y.coverage e.2.1 (seen ++ [e.2.2]) }
      if seen.length + 1 = 256 then (s.completeRow e.1 e.2.1).feedTile e.1 else s) s

/-- A local XFER_OUT's writes: rows, REDUCE and dropped elements (R129-R136). -/
def State.writeOut (s : State) (t j : Nat) (im : Image) (x : Shape × Nat) (o : LopInst) : State :=
  let group := (s.job j).group
  let r := s.outElems t j im x o
  let touched := s.windowTouched x.1 group (r.1.map fun e => e.bitAddr)
  let s := ((s.scatter x.1 group r.1).coverWindow touched).countTransfer t j x o r.2.1
  if o.op.converts then s.countConversion (some j) r.2.2 else s

/-- The operations of a remote XFER_OUT: opcode 1 and bytes of at most 4,096 (R307), or ADDMOD under each limb's modulus word
in pieces of at most 455 x 9 bytes (R136, R308): address, operand, bytes. -/
def Shape.outOps (x : Shape) (free : Nat) (l : List PutElem) : List (Nat × Nat × List Byte) :=
  let w := ewBits x.d.ew
  let l := if x.d.reduce = 0 then l else combineElems l
  if x.d.reduce = 2 then
    (putRuns w (fun a b => a.word = b.word) l).flatMap fun r =>
      let a := addRun r
      (chunks 910 a.2.length a.2).zipIdx.map fun c =>
        (localOf (a.1 / 8) + 4095 * c.2, (c.1.head?.map fun e => e.word).getD 0, leBytes (c.1.length * 9 / 2) (packElems w c.1))
  else
    (putRuns w (fun _ _ => true) l).flatMap fun r =>
      let bs := runBytes free w r
      (chunks 4096 bs.length bs).zipIdx.map fun c => (localOf (r.1 / 8) + 4096 * c.2, 0, c.1)

/-- A remote XFER_OUT's writes leave as PUTs, or ADDMOD where it accumulates, on virtual lane 0 (R136, R231, R314). -/
def State.sendOut (s : State) (t j : Nat) (im : Image) (x : Shape × Nat) (o : LopInst) : State :=
  let node := nodeOf x.2
  let code := if x.1.d.reduce = 2 then 3 else 1
  let status := s.issueStatus node code (localOf x.2)
  if status ≠ OK then (s.countFail false status).failLop t status o 0 0
  else
    let r := s.outElems t j im x o
    let ops := x.1.outOps s.freeCount r.1
    let s := s.useFree.countTransfer t j x o r.2.1
    let s := if o.op.converts then s.countConversion (some j) r.2.2 else s
    let s := ops.foldl (fun (s : State) (p : Nat × Nat × List Byte) => s.issueOp node 0 code p.1 p.2.2.length p.2.1 p.2.2 t j o.id) s
    s.updTile t fun y => y.updOp o.id fun o => { o with sent := true }

/-- An XFER_OUT: it waits for its rows, writes them after the earlier transfers have written theirs (R230), and finishes
when every write is complete at its target (Table 10-2). -/
def State.finishOut (s : State) (t j : Nat) (im : Image) (o : LopInst) (ecc : Ecc) : State :=
  let x := s.transferShape j im o
  if o.sent then
    if s.remoteOps.any fun r => r.issuer = t && r.opId = o.id then s else s.updTile t fun y => y.retire o.id
  else
    match s.firstWait t j o, s.sourceEcc t (s.sourceRows t j o) ecc with
    | some row, _ => s.waitRow t im o row
    | none, (s, true) => s.failLop t MEM_UNCORRECTABLE o 0 0
    | none, (s, false) =>
      if (s.tile t).earlierUnwritten o.id then s
      else if s.isSelf (nodeOf x.2) then
        let touched := s.windowTouched x.1 (s.job j).group (s.outAddresses t j x o)
        if touched.any (fun e => s.tag e.1 e.2.1 = .poison) then s.failLop t SLOT_POISON o 0 0
        else
          match touched.find? fun e => s.tag e.1 e.2.1 ≠ .empty with
          | some e => s.fetchWait t o.id e.2.1
          | none => (s.writeOut t j im x o).updTile t fun y => y.retire o.id
      else s.sendOut t j im x o

/-- The byte ranges that a remote XFER_IN reads: its runs, the whole body of one that verifies, the elements of a conversion (R133, R137, R231). -/
def State.readRanges (s : State) (t j : Nat) (x : Shape × Nat) (o : LopInst) : List (Nat × Nat) :=
  if o.op.verifies then [s.verifyBody j o]
  else
    let w := ewBits x.1.d.ew
    let addrs := if o.op.converts then (x.1.allElems x.2).filterMap id else x.1.moveOrder x.2 ((s.transferShare t j x.1).take o.rgnD.2) false
    (runsOf w addrs).map fun r => (r.1 / 8, bitSpan r.1 r.2)

/-- A remote XFER_IN's reads leave as GETs at its dispatch, on virtual lane 0 (R231, R314). -/
def State.sendReads (s : State) (t j : Nat) (im : Image) (o : LopInst) : State :=
  match (s.tile t).runningOp o.id with
  | none => s
  | some o =>
    let x := s.transferShape j im o
    let node := nodeOf x.2
    if o.op.code ≠ lopXferIn ∨ s.isSelf node then s
    else
      let status := s.issueStatus node 2 (localOf x.2)
      if status ≠ OK then (s.countFail false status).failLop t status o 0 0
      else
        (s.readRanges t j x o).foldl (fun s r =>
          (List.range (ceilDiv r.2 4096)).foldl (fun s i =>
            s.issueOp node 0 2 (localOf (r.1 + 4096 * i)) (min 4096 (r.2 - 4096 * i)) 0 [] t j o.id) s) s

/-! ### SIGNAL and FENCE (R235) -/

/-- The outcome of a counter operation on this device: unaligned or in an admitted image, or on a word that is poisoned or
uncorrectable (R215, R294, R307, R309). -/
def State.counterStatus (s : State) (a : Nat) (ecc : Ecc) : Nat :=
  if a % 8 ≠ 0 ∨ s.inImage a 8 then ACCESS_PROTECT
  else if s.wordPoisoned (a / 32) then SLOT_POISON
  else match ecc with | .uncorrectable _ => MEM_UNCORRECTABLE | _ => OK

/-- A SIGNAL issues its counter operation, on virtual lane 0, and finishes; a failure ends the job (R235). -/
def State.finishSignal (s : State) (t j : Nat) (o : LopInst) (ecc : Ecc) : State :=
  let node := nodeOf o.op.a64
  let a := localOf o.op.a64
  if s.isSelf node then
    let status := s.counterStatus a ecc
    let s := if a % 8 = 0 then s.placeEcc t (.stack a) (match ecc with | .corrected _ => .corrected 0 | .uncorrectable _ => .uncorrectable 0 | _ => .clean) else s
    if status = OK then (s.addCounter a o.opnd).updTile t fun y => y.retire o.id else s.failLop t status o 0 0
  else
    let status := s.issueStatus node 5 a
    if status ≠ OK then (s.countFail false status).failLop t status o 0 0
    else (s.issueOp node 0 5 a 8 o.opnd [] t j o.id).updTile t fun y => { y.retire o.id with signalsOut := y.signalsOut ++ [o.id] }

/-- A FENCE finishes when every earlier transfer and FENCE has finished and every earlier SIGNAL has its completion (R235). -/
def Tile.fenceDone (x : Tile) (id : Nat) : Bool :=
  !((x.running ++ x.queue).any fun o => o.id < id && (enginesOf o.op.code).contains .fetch) && !x.signalsOut.any fun i => i < id

/-- The completion of a SIGNAL's counter operation; a failure ends the job (R235). -/
def State.signalDone (s : State) (t opId status : Nat) : State :=
  let mine (r : RemoteOp) : Bool := r.issuer = t && r.opId = opId
  if (s.tile t).signalsOut.contains opId ∧ !(s.remoteOps.any fun r => mine r && r.waits) then
    let ended := s.remoteOps.filter mine
    let s := { s with remoteOps := s.remoteOps.filter fun r => !mine r }
    let s := ended.foldl (fun s r => s.releaseWaits r.target r.vl) s
    let s := s.updTile t fun x => { x with signalsOut := x.signalsOut.erase opId }
    if status = OK then s
    else
      let x := s.tile t
      s.faultTile t { count := x.sched, bundle := x.nextBundle, code := status, slot := 4 }
  else s

/-- A running long operation reaches its end, or waits, or fails (R218). -/
def State.finishLop (s : State) (t opId : Nat) (ecc : Ecc) : State :=
  match (s.tile t).runningOp opId, s.jobOfTile t with
  | some o, some j =>
    match (s.job j).image with
    | none => s
    | some im =>
      if (s.job j).state ≠ .running then s
      else if o.op.code = lopXferIn then s.finishIn t j im o
      else if o.op.code = lopXferOut then s.finishOut t j im o ecc
      else if o.op.code = lopSignalCode then s.finishSignal t j o ecc
      else if o.op.code = lopFenceCode then (if (s.tile t).fenceDone opId then s.updTile t fun y => y.retire opId else s)
      else if o.op.code = lopKeystream then s
      else s.finishEngine t j im o ecc
  | _, _ => s

end Sys2Proof.Machine
end

