-- ==== Sys2Proof/Machine/AdmitForm.lean ====
section
/-! DEFINITION. Admission checks 1 to 3 as far as one entry decides them: header, certificate, tables and bundles (R239-R247, R126, R134, R176, R196-R198, R216). -/

namespace Sys2Proof.Machine

/-- A check of an image: whether it holds, and the section and image offset of its field (R247). -/
structure ImgCheck where
  ok : Bool
  sec : Nat
  off : Nat
deriving DecidableEq, Repr, Inhabited

/-- A check that concerns no single field. -/
def wholeImage (ok : Bool) : ImgCheck := { ok := ok, sec := 0xFF, off := 0 }

/-- A check of a field. -/
def field (sec off : Nat) (ok : Bool) : ImgCheck := { ok := ok, sec := sec, off := off }

/-- The first failing check. -/
def firstFail (l : List ImgCheck) : Option ImgCheck := l.find? fun c => !c.ok

/-! ### Check 1: header, bounds, counts (R239, Table 11-1) -/

/-- The image lies in local stack memory from a 4 KiB boundary, at most 256 MiB long (R239). -/
def State.imageLocated (s : State) (addr len : Nat) : Bool :=
  addr % 4096 = 0 && (nodeOf addr = 0 || s.isSelf (nodeOf addr)) && inStack (localOf addr) len && decide (264 ≤ len) && decide (len ≤ 2 ^ 28)

/-- A section of entries of `size` bytes with `lo` to `hi` of them; the offset of an empty section is not checked. -/
def tableChecks (len at' lo hi size : Nat) (x : Section) : List ImgCheck :=
  [ field 0 (at' + 4) (decide (lo ≤ x.count) && decide (x.count ≤ hi)),
    field 0 at' (x.count = 0 || (x.off % 64 = 0 && decide (x.off + size * x.count ≤ len - 8))) ]

/-- The code stream entry of a rank. -/
def codeChecks (b : List Byte) (h : Head) (r : Nat) : List ImgCheck :=
  let e := codeEntry b h r
  let o := h.code.off + 16 * r
  [ field 7 o (e.off % 64 = 0 && decide (e.off + 16 * e.count ≤ h.length - 8)), field 7 (o + 4) (decide (1 ≤ e.count) && decide (e.count ≤ 16777216)) ]

/-- The header, the trailer and the certificate's place and counts. -/
def headChecks (b : List Byte) (len : Nat) : List ImgCheck :=
  let h := readHead b
  let c := readCert b h.cert.off
  let o := h.cert.off
  [ field 0 0 (h.magic = 0x4D494B42), field 0 8 (h.length = len), field 9 (len - 8) (fieldAt b (len - 8) 8 = crc64 (b.take (len - 8))),
    field 0 5 (h.version = 1), field 0 6 (decide (1 ≤ h.groupSize) && decide (h.groupSize ≤ 64)),
    field 0 16 (o % 64 = 0 && decide (o + h.cert.count ≤ len - 8)),
    field 1 (o + 3) (decide (c.spanCount ≤ if h.format = 1 then 0 else 16)), field 1 (o + 30) (decide (1 ≤ c.regionCount) && decide (c.regionCount ≤ 256)),
    field 1 (o + 52) (decide (1 ≤ c.phaseCount) && decide (c.phaseCount ≤ 64)),
    field 1 20 (h.cert.count = 2304 + 32 * c.regionCount + 8 * c.phaseCount + 32 * c.spanCount) ]
    ++ tableChecks len 24 0 1024 32 h.handles ++ tableChecks len 32 0 1024 8 h.loops ++ tableChecks len 40 0 4096 64 h.longOps
    ++ tableChecks len 48 0 (if h.format = 1 then 0 else 1023) 64 h.layouts ++ tableChecks len 56 0 256 128 h.streams
    ++ tableChecks len 64 h.groupSize h.groupSize 16 h.code ++ tableChecks len 72 1 32 1 h.sets

/-- Check 1; the code entries are read once the header stands. -/
def check1 (b : List Byte) (len : Nat) : Option ImgCheck :=
  match firstFail (headChecks b len) with
  | some c => some c
  | none => firstFail ((List.range (readHead b).groupSize).flatMap (codeChecks b (readHead b)))

/-- Check 2: the format in force, and the certificate's version (R240). -/
def check2 (h : Head) (c : Cert) (inForce : Nat) : Option ImgCheck :=
  firstFail [field 0 4 (h.format = inForce), field 1 h.cert.off (c.version = h.format)]

/-! ### The certificate (R243-R245) -/

/-- The number of bits set in a mask of 64. -/
def popCount (m : Nat) : Nat := ((List.range 64).filter fun i => bit m i).length

/-- The ranges of the certificate's fields (Table 11-3), in ascending byte order. -/
def certChecks (h : Head) (c : Cert) : List ImgCheck :=
  let f (o : Nat) (ok : Bool) : ImgCheck := field 1 (h.cert.off + o) ok
  [ f 1 (decide (c.point ≤ 3)), f 2 (decide (c.streamsMax ≤ 16)), f 4 (c.spanCount ≠ 0 || c.ashTraps = 0),
    f 6 (decide (1 ≤ c.devices) && decide (c.devices ≤ 16384)), f 8 (c.tileMask = 0 || popCount c.tileMask = h.groupSize),
    f 16 (decide (1 ≤ c.maxDuration) && decide (c.maxDuration ≤ 2 ^ 48)), f 28 (decide (c.geyserRate ≤ 3200)),
    f 48 (c.completionAddr = 0 || decide (1 ≤ c.completionInc)) ]

/-- The node of a memory region, with this device's own names made one. -/
def State.regionNode (s : State) (r : Region) : Nat := if s.isSelf (nodeOf r.base) then 0xFFFF else nodeOf r.base

/-- Whether two regions of a job overlap where they may not: only INPUT regions may overlap one another (R244). -/
def State.regionsClash (s : State) (a b : Region) : Bool :=
  a.space = b.space && !(a.space = 1 && a.kind = 3 && b.kind = 3) && (a.space = 0 || s.regionNode a = s.regionNode b)
    && overlaps (if a.space = 0 then a.base else localOf a.base) a.size (if b.space = 0 then b.base else localOf b.base) b.size

/-- A region entry (Table 11-4). -/
def State.regionChecks (s : State) (h : Head) (rs : List Region) (i : Nat) : List ImgCheck :=
  let r : Region := rs.getD i default
  let f (o : Nat) (ok : Bool) : ImgCheck := field 1 (h.regionOff i + o) ok
  let scratch := r.space = 0
  [ f 0 (decide (r.space ≤ 1)), f 1 (if scratch then !bit r.flags 1 else !bit r.flags 0),
    f 2 (if scratch then [0, 1, 2, 4].contains r.kind else [0, 3, 4, 5].contains r.kind), f 12 (bit r.flags 0 || r.lead = 0),
    f 16 (if scratch then decide (1 ≤ r.size) && decide (r.size ≤ 3072) else decide (1 ≤ r.size) && r.size % 256 = 0),
    f 24 ((if scratch then decide (r.base + r.size ≤ 3072) else r.base % 256 = 0) && !((rs.take i).any fun q => s.regionsClash q r)) ]

/-- A phase entry (Table 11-5). -/
def phaseChecks (h : Head) (im : Image) (i : Nat) : List ImgCheck :=
  let p : Nat × Nat := im.phases.getD i (0, 0)
  let o := h.phaseOff im.cert i
  [ field 1 o (decide (p.2 ≤ 15)), field 1 (o + 4) (if i = 0 then p.1 = 0 else decide ((im.phases.getD (i - 1) (0, 0)).1 < p.1)) ]

/-- A span entry (Table 11-6): ascending; each refresh a BATCH_BOOTSTRAP on its GUARD handle (R245). -/
def spanChecks (h : Head) (im : Image) (i : Nat) : List ImgCheck :=
  let x : Span := im.spans.getD i default
  let o := h.spanOff im.cert i
  [ field 1 (o + 4) (decide (1 ≤ x.opensAt) && (i = 0 || decide ((im.spans.getD (i - 1) default).opensAt < x.opensAt))), field 1 o (im.cert.devices = 1) ]
    ++ (x.refresh.zip x.guards).map fun p =>
      let op := im.op p.1
      field 1 (o + 8) (decide (p.1 < im.longOps.length) && op.code = lopBatch && op.hina = p.2 && op.hout = p.2 && (im.handles[p.2]?).any fun d => bit d.flags 1)

/-! ### Handles (R241, R242) -/

/-- A handle entry (Table 11-2); its level lies in the range of Table 3-4. -/
def handleChecks (h : Head) (im : Image) (sets : Nat → Option ParamSet) (i : Nat) : List ImgCheck :=
  let d : HandleDecl := im.handles.getD i default
  let f (o : Nat) (ok : Bool) : ImgCheck := field 2 (h.handles.off + 32 * i + o) ok
  [ f 1 (im.sets.contains d.set), f 2 ((sets d.set).all fun p => decide (1 ≤ d.level) && decide (d.level ≤ if p.family = 0 then p.limbs else 1)), f 3 (decide (d.layout ≤ im.layouts.length)),
    f 5 ((sets d.set).all fun p => p.family = 1 || d.count = 1), f 8 (d.tag ≠ 0),
    f 16 (if d.kind = 2 then d.bodyAddr ≠ 0 else d.bodyAddr = 0), f 24 (d.descAddr % 64 = 0 && (if d.kind = 0 then d.descAddr = 0 else d.kind ≠ 2 || d.descAddr ≠ 0)) ]

/-! ### Layout descriptors (R126, R134, R136) -/

/-- Whether a transfer of the image reads, or writes, through layout index `k`. -/
def Image.layoutRead (im : Image) (k : Nat) : Bool := im.longOps.any fun o => o.code = lopXferIn && o.tab = k
def Image.layoutWritten (im : Image) (k : Nat) : Bool := im.longOps.any fun o => o.code = lopXferOut && o.tab = k

/-- Whether a layout serves as the layout of a ciphertext body of a handle's declaration (R126); COMPONENTS is 2 or 3 where packed. -/
def Layout.fitsBody (d : Layout) (x : HandleDecl) (p : ParamSet) : Bool :=
  if p.family = 0 then d.ew = 4 && d.validCols = p.n && (d.validRows = 2 * x.level || d.validRows = 3 * x.level)
  else (d.ew = 3 || d.ew = 5) && d.validCols = p.lweN + 1 && d.validRows = x.count

/-- A layout descriptor at index `i + 1`. -/
def layoutChecks (h : Head) (im : Image) (sets : Nat → Option ParamSet) (i : Nat) : List ImgCheck :=
  let d : Layout := im.layouts.getD i default
  let f (o : Nat) (ok : Bool) : ImgCheck := field 5 (h.layouts.off + 64 * i + o) ok
  let dense : Bool := !d.dense || [d.s0c, d.s0r, d.s1c, d.s1r, d.s2c, d.s2r].all fun x => x = 0
  [ f 0 (d.version = 1 && decide (d.ew ≤ 5)), f 1 (decide (d.stripe ≤ 2) && decide (d.reduce ≤ 2)),
    f 1 (d.reduce = 0 || (d.ew = 4 && !im.layoutRead (i + 1))), f 1 (d.stripe ≠ 2 || (d.ew = 4 && d.validCols % 1024 = 0)),
    f 8 (d.validCols ≠ 0 && decide (d.validCols ≤ d.cols)), f 12 (d.validRows ≠ 0 && decide (d.validRows ≤ d.rows)),
    f 16 dense, f 56 (d.reserved = 0), f 0 (im.handles.all fun x => x.layout ≠ i + 1 || (sets x.set).all fun p => d.fitsBody x p),
    f 16 (!im.layoutWritten (i + 1) || d.reduce ≠ 0 || !d.aliases) ]

/-! ### Stream entries (R175, R176) -/

/-- The handles an entry names. -/
def StreamEntry.named (e : StreamEntry) : List Nat := e.handles.take e.groupSize

/-- The largest per-tile share of a RESIDENT entry whose set fixes it (R176, R180): kinds 0x01 to 0x03 at LEVEL_HI = USE_LEVEL, DIGITS = DNUM; kind 0x04. -/
def StreamEntry.fixedShare (e : StreamEntry) (p : ParamSet) (g : Nat) : Nat :=
  let h : KeyHeader := { (default : KeyHeader) with kind := e.kind, levelHi := e.useLevel, digits := if e.kind = 4 then p.decompLevels else p.dnum }
  ((h.rows p p e.useLevel).filter fun k => k.keeps g 0).length

/-- A stream entry on its own (Table 8-4), with its handles and its destination region (R176). -/
def streamChecks (h : Head) (im : Image) (sets : Nat → Option ParamSet) (i : Nat) : List ImgCheck :=
  let e : StreamEntry := im.streams.getD i default
  let f (o : Nat) (ok : Bool) : ImgCheck := field 6 (h.streams.off + 128 * i + o) ok
  let mcast := e.sourceKind = 3 || e.sourceKind = 4
  let sends := e.sourceKind = 4
  let packed := decide (e.kind ≤ 3)
  let decls := e.named.map fun x => im.handles.getD x default
  let first := decls.headD default
  let isKeyRow (r : Nat) : Bool := im.regions.any fun g => g.space = 0 && g.kind = kindKey && decide (g.base ≤ r) && decide (r < g.base + g.size)
  [ f 0 (e.version = 1), f 4 (decide (e.sourceKind ≤ 4)), f 4 (e.destMap = (if packed then 0 else 1)),
    f 6 (if sends then e.groupSize = 0 else if packed then decide (1 ≤ e.groupSize) && decide (e.groupSize ≤ 32) else e.groupSize = 1),
    f 7 (decide (1 ≤ e.kind) && decide (e.kind ≤ 6) && (im.format ≠ 1 || e.kind ≠ 5)),
    f 8 (if packed || e.kind = 5 then decide (1 ≤ e.useLevel) else e.useLevel = 0),
    f 34 (decide (1 ≤ e.rate) && decide (e.rate ≤ 1600)),
    f 36 (if mcast then (List.range 10).any fun k => e.ringKib = 64 * 2 ^ k else e.ringKib = 0),
    f 38 (if mcast then decide (e.mcastGroup < 256) else e.mcastGroup = 0),
    f 40 (if sends then e.destRows = 0 else decide (1 ≤ e.destRows) && decide (e.destRows ≤ 3072)),
    f 42 (decide (e.destRow + e.destRows ≤ 3072) && (List.range e.destRows).all fun r => isKeyRow (e.destRow + r)),
    f 44 (e.kind = 2 || e.kind = 3 || e.galois = 0), f 56 (e.source % 256 = 0),
    f 64 ((e.handles.drop e.groupSize).all fun x => x = 0xFFFF), f 64 (e.named.all fun x => decide (x < im.handles.length)),
    f 64 (decls.all fun d => d.set = first.set && d.tag = first.tag && d.level = first.level),
    f 40 (!bit e.flags 0 || !(decide (e.kind ≤ 4)) || sends || (sets first.set).all fun p => decide (e.fixedShare p im.groupSize ≤ e.destRows)) ]

/-! ### Long operations (Tables 10-1, 10-2) -/

/-- Which of the regions A to D an operation uses (Table 10-2). -/
def usedRegions (code : Nat) : List Bool :=
  if code = lopBatch then [true, true, true, true]
  else if code = lopExtract then [true, true, false, true]
  else if code = lopXferIn then [false, false, false, true]
  else if code = lopXferOut then [true, false, false, false]
  else if code ∈ [lopLedger, lopKeystream, lopSignalCode, lopFenceCode] then [false, false, false, false]
  else [true, false, false, true]

/-- Whether every row of a region is declared in the certificate (R216). -/
def Image.rowsDeclared (im : Image) (r : Nat × Nat) : Bool :=
  decide (r.1 + r.2 ≤ 3072) && (List.range r.2).all fun i =>
    im.regions.any fun g => g.space = 0 && decide (g.base ≤ r.1 + i) && decide (r.1 + i < g.base + g.size)

/-- A region field: zero where unused; 1 to 3,072 rows, and declared without ROWREL, where used. -/
def Image.regionOk (im : Image) (op : LongOp) (used : Bool) (r : Nat × Nat) : Bool :=
  if used then decide (1 ≤ r.2) && decide (r.2 ≤ 3072) && (op.rowRel || im.rowsDeclared r) else r = (0, 0)

/-- Two regions are identical or disjoint (R98, R142). -/
def sameOrApart (a b : Nat × Nat) : Bool := a = b || decide (a.1 + a.2 ≤ b.1) || decide (b.1 + b.2 ≤ a.1)

/-- The mode of an operation is one that Table 10-2 gives it. -/
def modeOk (op : LongOp) : Bool :=
  if op.code = lopNtt ∨ op.code = lopAutomorph then decide (op.mode ≤ 1)
  else if op.code = lopKsip then decide (op.mode ≤ 2)
  else if op.code = lopLedger then decide (1 ≤ op.mode) && decide (op.mode ≤ 0x0C)
  else if op.code = lopXferIn then decide (op.mode ≤ 15)
  else if op.code = lopXferOut then [0, 1, 8, 9].contains op.mode
  else if op.code = lopBatch then decide (1 ≤ op.mode) && decide (op.mode ≤ 8)
  else true

/-- Which of HINA, HINB, HOUT an operation uses. -/
def usedHandles (op : LongOp) : List Bool :=
  let c := op.code
  if c = lopLedger then [true, op.mode = 1 || op.mode = 5, true]
  else if c = lopModdown then [false, false, true]
  else if c = lopXferIn then [op.fromHandle, false, false]
  else if c = lopXferOut then [false, false, op.fromHandle]
  else if op.isGroup then [true, false, true]
  else [false, false, false]

/-- The stream entry of a kind that a consumer names. -/
def Image.streamIs (im : Image) (entry kind : Nat) : Bool := (im.streams[entry]?).any fun e => e.kind = kind && e.sourceKind ≠ 4

/-- The stream entries that an operation names exist and have the kinds it consumes (Table 8-2). -/
def Image.keysOk (im : Image) (op : LongOp) : Bool :=
  if op.code = lopKeystream then decide (bits op.tab 0 8 < im.streams.length)
  else if op.code = lopKsip then im.streamIs (bits op.tab 0 8) (op.mode + 1)
  else if op.code = lopBatch then im.streamIs (bits op.tab 0 8) 4 && im.streamIs (bits op.tab 8 8) 6
  else if op.code = lopExtract then im.streamIs (bits op.tab 8 8) 6
  else if op.code = lopPack then im.streamIs (bits op.tab 0 8) 5
  else true

/-- The unused bits of a LEDGER step's OPND are zero (Table 10-2). -/
def ledgerOpnd (op : LongOp) : Bool :=
  op.opSa || (if op.mode = 3 then true else if op.mode = 2 then bits op.opnd 16 16 = 0 else if op.mode = 8 then bits op.opnd 8 24 = 0 else op.opnd = 0)

/-- A batch within its limits, its sample ranges identical or apart (R157). -/
def batchOk (format : Nat) (op : LongOp) : Bool :=
  let i := bits op.a64 0 32
  let o := bits op.a64 32 32
  op.opSa || (decide (1 ≤ op.opnd) && decide (op.opnd ≤ if format = 1 then 256 else 512)
    && (op.hina ≠ op.hout || sameOrApart (i, op.opnd) (o, op.opnd)))

/-- The declared handle of a number. -/
def Image.decl (im : Image) (x : Nat) : HandleDecl := im.handles.getD x default

/-- The conversion word of a transfer: ENCODE on the way in, DECODE on the way out, under a loaded set that the image names (R111, R118). -/
def Image.wordOk (im : Image) (sets : Nat → Option ParamSet) (op : LongOp) : Bool :=
  let id := cwSet op.b64
  let p := sets id
  let n := (p.map fun p => im.convertCount op p).getD 0
  cwMode op.b64 = (if op.code = lopXferIn then 1 else 2) && im.sets.contains id && cwValid op.b64 n p

/-- The rows that a whole body of a handle fills in a tile of a group, at least (R233): two components where packed. -/
def Image.bodyRows (im : Image) (x : HandleDecl) (p : ParamSet) : Nat :=
  match im.layoutOf x.layout with
  | some d => ((d.shape x.level (some p)).share (if d.stripe = 0 then 1 else im.groupSize) 0).length
  | none => if p.family = 0 then 2 * x.level * rowsPer p.n else x.count * p.sampleRows (p.lweN + 1)

/-- A VERIFY transfer reads the whole body of its handle (R233). -/
def Image.verifyOk (im : Image) (sets : Nat → Option ParamSet) (op : LongOp) : Bool :=
  let x := im.decl op.hina
  op.fromHandle && op.a64 = 0 && op.tab = x.layout && (sets x.set).all fun p => decide (im.bodyRows x p ≤ op.rgnD.2)

/-- ACCUMULATE does not go into scratchpad rows, by the box of a transfer whose address the image fixes (R132, R136). -/
def Image.accumulateOk (im : Image) (op : LongOp) : Bool :=
  let base := if op.fromHandle then (im.decl op.hout).bodyAddr + op.a64 else op.a64
  !((im.layoutOf op.tab).any fun d => d.reduce = 2 && ((d.shape d.validRows none).box base).any fun b => isWindow (localOf b.1) || isWindow (localOf b.2))

/-- A long-operation entry on its own: checks with the byte of the entry that fails. -/
def Image.lopForm (im : Image) (sets : Nat → Option ParamSet) (op : LongOp) : List (Bool × Nat) :=
  let c := op.code
  let used := usedRegions c
  let named := usedHandles op
  let inTable (x : Nat) (u : Bool) : Bool := decide (x < im.handles.length) || (x = 0xFFFF && !u)
  let xfer := c = lopXferIn || c = lopXferOut
  let moves := c = lopNtt || c = lopAutomorph || c = lopTranspose
  [ (decide (1 ≤ c) && decide (c ≤ 0x11), 0), (!op.usesQm || (decide (1 ≤ op.limbs) && decide (op.limbs ≤ 80)), 1),
    (!op.usesQm || (decide (1 ≤ op.comps) && decide (op.comps ≤ 3)), 2), (modeOk op, 3),
    (im.regionOk op (used.getD 0 false) op.rgnA, 24), (im.regionOk op (used.getD 1 false) op.rgnB, 27),
    (im.regionOk op (used.getD 2 false) op.rgnC, 30), (im.regionOk op (used.getD 3 false) op.rgnD, 33),
    (im.keysOk op && (!xfer || decide (op.tab ≤ im.layouts.length)), 36),
    (inTable op.hina (named.getD 0 false), 38), (inTable op.hinb (named.getD 1 false), 40), (inTable op.hout (named.getD 2 false), 42),
    (c ≠ lopTranspose || (op.rgnA.2 = op.rgnD.2 && op.rgnA.2 % 32 = 0), 24), (!moves || sameOrApart op.rgnA op.rgnD, 33),
    (c ≠ lopBatch || batchOk im.format op, 44), (c ≠ lopLedger || ledgerOpnd op, 44),
    (c ≠ lopKsip || op.opSa || (decide (1 ≤ op.opnd) && (sets (im.decl op.hina).set).all fun p => decide (op.opnd ≤ p.dnum)), 44),
    (!(xfer && op.converts) || im.wordOk sets op, 48), (c ≠ lopXferIn || !op.verifies || im.verifyOk sets op, 3),
    (c ≠ lopXferOut || im.accumulateOk op, 36) ]

/-- A long-operation entry. -/
def lopChecks (h : Head) (im : Image) (sets : Nat → Option ParamSet) (i : Nat) : List ImgCheck :=
  (im.lopForm sets (im.op i)).map fun c => field 4 (h.longOps.off + 64 * i + c.2) c.1

/-! ### Bundles (R196-R205) -/

/-- `n` ones from bit `lo`. -/
def ones (lo n : Nat) : Nat := (2 ^ n - 1) * 2 ^ lo

/-- The used bits of a slot's opcode, none where the opcode is reserved (Tables 9-3, 9-6, 9-7, 9-9). -/
def cMask (op : Nat) : Option Nat :=
  if op = 0 ∨ op = 4 ∨ op = copHalt then some 0
  else if op = copLoop then some (ones 16 10)
  else if op = copLop then some (ones 9 17)
  else if op = copWaitr then some (ones 1 25)
  else if op = copBar then some (ones 20 6)
  else none

def wMask (op : Nat) : Option Nat :=
  if op = 0 then some 0
  else if op ∈ [3, 4] then some (ones 14 14)
  else if op ∈ [1, 2, 5, 6, 7] then some (ones 9 19)
  else if op ∈ [8, 9] then some (ones 4 24)
  else none

def mMask (op : Nat) : Option Nat :=
  if op = 0 then some 0
  else if op ∈ [1, 2] then some (ones 5 23)
  else if op = 3 then some (ones 6 17)
  else none

def xMask (op : Nat) : Option Nat :=
  if op = 0 then some 0
  else if op ∈ [1, 2] then some (ones 21 5 + ones 0 16)
  else if op ∈ [3, 0x10, 0x11] then some (ones 0 26)
  else if op ∈ [4, 5, 6, 7, 8, 9] then some (ones 11 15)
  else if op ∈ [0x0A, 0x0B] then some (ones 16 10 + ones 0 6)
  else if op = 0x0C then some (ones 21 5 + ones 0 3)
  else if op = 0x20 then some (ones 7 19)
  else none

/-- No bit is set outside a mask. -/
def within (mask : Option Nat) (v : Nat) : Bool := match mask with | some m => Nat.land v m = v | none => false

/-- The modulus register that a bundle's W slot names. -/
def wNames (w : Nat) : Option Nat := if wOp w = 0 then none else some (wField w 24 4)

/-- An M-slot row that the image alone fixes is declared and is no KEY row (R181, R204). -/
def Image.mRowOk (im : Image) (w : Nat) : Bool :=
  let r := mField w 6 12
  mOp w = 0 || (decide (r ≤ 3071) && (mField w 18 5 ≠ 0 ||
    im.regions.any fun g => g.space = 0 && g.kind ≠ kindKey && decide (g.base ≤ r) && decide (r < g.base + g.size)))

/-- The ranges of the C slot's fields (Table 9-3); a barrier ID is one the certificate declares (R237). -/
def Image.cFieldsOk (im : Image) (w : Nat) : Bool :=
  let op := cOp w
  if op = copLoop then decide (cField w 16 10 < im.loops.length)
  else if op = copLop then decide (cField w 14 12 < im.longOps.length)
  else if op = copWaitr then decide (1 ≤ cField w 2 12) && decide (cField w 14 12 + cField w 2 12 ≤ 3072)
  else if op = copBar then bit im.cert.barrierMask (cField w 20 6)
  else true

/-- A bundle on its own: checks with the byte of the bundle that fails. -/
def Image.bundleForm (im : Image) (sets : Nat → Option ParamSet) (w : Nat) : List (Bool × Nat) :=
  let q : Bool := match qloadOf w with | some q => im.sets.contains q.2.1 && (sets q.2.1).all fun p => decide (q.2.2 < p.limbs + p.special) | none => true
  [ (within (cMask (cOp w)) (cField w 0 26) && im.cFieldsOk w, 12), (within (wMask (wOp w)) (wField w 0 28), 8),
    (within (mMask (mOp w)) (mField w 0 28) && im.mRowOk w, 4), (within (xMask (xOp w)) (xField w 0 26) && q, 0),
    (wOp w = 0 || mOp w ≠ 1 || wField w 19 5 ≠ mField w 23 5, 10) ]

/-- The linear scan of a code stream, the bundles behind its HALT included (R196): the LAST bundles of the active loops, innermost first, and the registers loaded. -/
structure Scan where
  lasts : List Nat := []
  loaded : List Nat := []
  halted : Bool := false
  bad : Option Nat := none

/-- The rules of R198, R205 and R88 that a bundle must keep at its place: the byte of the bundle that fails. -/
def Image.scanBad (im : Image) (x : Scan) (b w : Nat) : Option Nat :=
  let last := (im.loops.getD (cField w 16 10) (0, 0)).1
  let loop := cOp w = copLoop && (decide (last ≤ b) || decide (8 ≤ x.lasts.length) || x.lasts.any (fun l => decide (l < last)) || x.lasts.contains b)
  let idx := xOp w = 0x0C && decide (x.lasts.length ≤ xField w 0 3)
  let wq := (wNames w).any fun q => !x.loaded.contains q
  let lq := (lopIndexOf w).any fun i => im.namesQm (im.op i) && !x.loaded.contains (im.op i).qm
  if loop then some 14 else if wq then some 11 else if lq then some 13 else if idx then some 0 else none

/-- One bundle of the scan. -/
def Image.scanStep (im : Image) (x : Scan) (b w : Nat) : Scan :=
  if x.bad.isSome then x
  else
    match im.scanBad x b w with
    | some o => { x with bad := some (16 * b + o) }
    | none =>
      let lasts := if cOp w = copLoop then (im.loops.getD (cField w 16 10) (0, 0)).1 :: x.lasts else x.lasts
      { lasts := lasts.filter fun l => l ≠ b, loaded := (match qloadOf w with | some q => q.1 :: x.loaded | none => x.loaded), halted := x.halted || cOp w = copHalt }

/-- A rank's code stream: every bundle on its own, then the scan. -/
def Image.codeForm (im : Image) (sets : Nat → Option ParamSet) (r : Nat) : List ImgCheck :=
  let code := im.code.getD r []
  let base := im.codeBase.getD r 0
  let x := code.zipIdx.foldl (fun x p => im.scanStep x p.2 p.1) ({} : Scan)
  (code.zipIdx.flatMap fun p => (im.bundleForm sets p.1).map fun c => field 7 (base + 16 * p.2 + c.2) c.1)
    ++ [field 7 (base + x.bad.getD 0) x.bad.isNone, field 7 base x.halted]

/-- Check 3 as far as single entries decide it: certificate, regions, phases, spans, then the tables in header order. -/
def State.check3Form (s : State) (h : Head) (im : Image) : Option ImgCheck :=
  let sets := s.set?
  firstFail (certChecks h im.cert ++ (List.range im.regions.length).flatMap (s.regionChecks h im.regions)
    ++ (List.range im.phases.length).flatMap (phaseChecks h im) ++ (List.range im.spans.length).flatMap (spanChecks h im)
    ++ (List.range im.handles.length).flatMap (handleChecks h im sets)
    ++ im.loops.zipIdx.map (fun p => field 3 (h.loops.off + 8 * p.2) (decide (1 ≤ p.1.2)))
    ++ (List.range im.longOps.length).flatMap (lopChecks h im sets) ++ (List.range im.layouts.length).flatMap (layoutChecks h im sets)
    ++ (List.range im.streams.length).flatMap (streamChecks h im sets) ++ (List.range im.groupSize).flatMap (im.codeForm sets))

end Sys2Proof.Machine
end

