-- ==== Sys2Proof/Machine/AdmitWalk.lean ====
section
/-! DEFINITION. Admission check 3 along the issue order, which the image fixes (R73, R81, R88, R140, R141, R176, R198, R217-R220, R242, R245, R440, R441). -/

namespace Sys2Proof.Machine

/-- What an issued command does to rows that the image alone fixes: it reads them, writes them, sets them EMPTY,
or loads a handle's body into them. -/
inductive RowUse where
  | read
  | write
  | release
  | bind (handle : Nat)
deriving DecidableEq, Repr, Inhabited

/-- A use of rows: its place in the rank's issue order, its bundle, the long-operation index where one uses them, and whether a fetch that waits for
EMPTY rows makes it. -/
structure RowEvent where
  at' : Nat
  bundle : Nat
  op : Option Nat
  waits : Bool
  use : RowUse
  first : Nat
  count : Nat
deriving DecidableEq, Repr, Inhabited

/-- An issued long operation: its place in the rank's issue order, its entry, the operation, the operation with the rows and the operand that
SA gives it where the image fixes them (R217), and the modulus register it copies. -/
structure Issued where
  at' : Nat
  index : Nat
  op : LongOp
  known : LongOp
  qm : Option (Nat × Nat) := none
deriving DecidableEq, Repr, Inhabited

/-- What a rank issues: its long operations, the places of its BAR bundles, the place of its last bundle, the uses of rows;
`qregs` and `regs` are its modulus and sequencer registers so far. -/
structure Trace where
  ops : List Issued := []
  bars : List Nat := []
  len : Nat := 0
  uses : List RowEvent := []
  qregs : Tab (Nat × Nat) := []
  regs : KnownRegs := []

/-- An operation under ROWREL and OPSA with the value of SA: where it is known, its own rows and operand stand in the entry's place. -/
def LongOp.resolve (op : LongOp) (sa : Option Word) : LongOp :=
  match sa with
  | none => op
  | some v =>
    { op with rgnA := op.shift v op.rgnA, rgnB := op.shift v op.rgnB, rgnC := op.shift v op.rgnC, rgnD := op.shift v op.rgnD
              opnd := if op.opSa then bits v.toNat 32 32 else op.opnd
              mods := op.mods - (if op.rowRel then 1 else 0) - (if op.opSa then 2 else 0) }

/-- The uses of rows by an operation whose rows are known. -/
def LongOp.uses (op : LongOp) (at' b i : Nat) : List RowEvent :=
  if op.rowRel then []
  else
    let waits := op.code = lopXferIn && (!op.overwrites || op.fromHandle)
    let e (u : RowUse) (r : Nat × Nat) : List RowEvent :=
      if 0 < r.2 then [{ at' := at', bundle := b, op := some i, waits := waits, use := u, first := r.1, count := r.2 }] else []
    e .read op.rgnA ++ e .read op.rgnB ++ e .read op.rgnC ++ (if op.consumeA then e .release op.rgnA else [])
      ++ (if op.consumeB then e .release op.rgnB else []) ++ e .write op.rgnD
      ++ (if op.code = lopXferIn && op.fromHandle then e (.bind op.hina) op.rgnD else [])

/-- The uses of rows by the M and X slots of a bundle, where their rows are known (R201, R206). -/
def slotUses (regs : KnownRegs) (at' b w : Nat) : List RowEvent :=
  let e (u : RowUse) (row : Nat) : List RowEvent :=
    if row < 3072 then [{ at' := at', bundle := b, op := none, waits := false, use := u, first := row, count := 1 }] else []
  let target (sb row : Nat) : Nat := match regs.read sb with | some v => ((BitVec.ofNat 64 row) + v).toNat | none => 3072
  let narrow (sa : Nat) (imm : BitVec 16) : Nat := match regs.read sa with | some v => (v + imm.signExtend 64).toNat / 1024 | none => 3072
  (match decodeM 0 w with
    | some (.mld _ _ sb row consume _) => e .read (target sb row) ++ (if consume then e .release (target sb row) else [])
    | some (.mst _ _ sb row _) => e .write (target sb row)
    | some (.mrel _ sb row) => e .release (target sb row)
    | _ => [])
    ++ match decodeX 0 w with
      | some (.xldn _ _ sa imm _) => e .read (narrow sa imm)
      | some (.xstn _ _ sa imm _) => e .write (narrow sa imm)
      | _ => []

/-- One issued bundle, with the loops active at it. -/
def Image.traceStep (im : Image) (x : Trace) (b : Nat) (loops : List LoopFrame) (w : Nat) : Trace :=
  let op : Option (Nat × LongOp × LongOp) := (lopIndexOf w).map fun i => (i, im.op i, (im.op i).resolve (x.regs.read (cField w 9 5)))
  { ops := (match op with
      | some (i, o, k) => { at' := x.len, index := i, op := o, known := k, qm := Tab.get? x.qregs o.qm } :: x.ops
      | none => x.ops)
    uses := (slotUses x.regs x.len b w ++ (match op with | some (i, _, k) => k.uses x.len b i | none => [])).reverse ++ x.uses
    bars := if cOp w = copBar then x.len :: x.bars else x.bars, len := x.len + 1
    qregs := (match qloadOf w with | some q => Tab.put x.qregs q.1 q.2 | none => x.qregs)
    regs := (match decodeX 0 w with | some i => x.regs.step loops i | none => x.regs) }

/-- The trace of a rank of a job in slot `j`, in issue order. -/
def Image.trace (im : Image) (j r : Nat) : Trace :=
  let code := im.code.getD r []
  let x := (im.walk r).foldl (fun x p => im.traceStep x p.1 p.2 (code.getD p.1 0)) ({ regs := KnownRegs.start r im.groupSize j } : Trace)
  { x with ops := x.ops.reverse, bars := x.bars.reverse, uses := x.uses.reverse }

/-! ### Rules of one rank -/

/-- QM names limbs of its set for every limb of a reducing transfer (R88, R136, log entry 68). -/
def Image.reduceOk (im : Image) (sets : Nat → Option ParamSet) (o : Issued) : Bool :=
  let level := if o.op.fromHandle then (im.decl o.op.hout).level else ((im.layoutOf o.op.tab).map fun d => d.validRows).getD 1
  o.qm.any fun q => (sets q.1).all fun p => decide (q.2 + max 1 level ≤ p.limbs + p.special)

/-- QM's set, limbs, Galois element and row counts of an NTT, AUTOMORPH or BCONV (R140, R217, R441). -/
def Image.qmOk (im : Image) (sets : Nat → Option ParamSet) (o : Issued) : Bool :=
  let op := o.op
  if im.reduces op then im.reduceOk sets o
  else !op.usesQm || (match o.qm with
    | none => false
    | some q => (sets q.1).all fun p =>
      let n := op.comps * op.limbs
      let r := rowsPer p.n
      let half := p.n = 512
      let rows := if half && op.code = lopNtt then ceilDiv n 2 else n * r
      let top := p.limbs + p.special
      decide (q.2 + op.limbs ≤ top)
        && (op.code ≠ lopAutomorph || (!half && (op.opSa || (op.opnd % 2 = 1 && decide (op.opnd < 2 * p.n)))))
        && op.rgnA.2 = rows
        && (if op.code = lopBconv then
              op.opSa || decide (bits op.opnd 24 8 + bits op.opnd 16 8 ≤ top) && decide (bits op.opnd 8 8 + bits op.opnd 0 8 ≤ top)
                && op.rgnD.2 = op.comps * (bits op.opnd 16 8 + bits op.opnd 0 8) * r
            else op.rgnD.2 = rows))

/-- Whether an operation is issued by the whole group (R218, R219): XFER too where its STRIPE is not NONE. -/
def Image.groupOp (im : Image) (op : LongOp) : Bool :=
  op.isGroup || ((op.code = lopXferIn || op.code = lopXferOut) && (im.layoutOf op.tab).any fun d => d.stripe ≠ 0)

/-- The group operations of a rank in issue order: entry and regions. -/
def Image.groupOrder (im : Image) (x : Trace) : List (Nat × List (Nat × Nat)) :=
  (x.ops.filter fun o => im.groupOp o.op).map fun o => (o.index, [o.known.rgnA, o.known.rgnB, o.known.rgnC, o.known.rgnD])

/-! ### Steps (R73, R141, R242) -/

/-- The step kind of an operation, none where it has none (Table 10-2). -/
def LongOp.stepKind (op : LongOp) : Option Nat :=
  if op.code = lopLedger then some op.mode
  else if op.code = lopRescale then some 7
  else if op.code = lopKsip then some 6
  else if op.code = lopBatch then some 0x0A
  else if op.code = lopExtract then some 9
  else if op.code = lopPack then some 0x0B
  else if op.code = lopModraise then some 0x0C
  else none

/-- A handle as admission follows it: set, tag, level and components, where they are known. -/
structure HandleTrack where
  set : Nat
  tag : Nat
  level : Option Nat
  comps : Option Nat
deriving DecidableEq, Repr, Inhabited

/-- A handle as it is declared. -/
def HandleDecl.track (d : HandleDecl) : HandleTrack := { set := d.set, tag := d.tag, level := some d.level, comps := none }

/-- The output of a step, from its input and the output handle (Table 3-5). -/
def trackStep (sets : Nat → Option ParamSet) (op : LongOp) (kind : Nat) (a b o : HandleTrack) : HandleTrack :=
  match kind with
  | 0x01 => { a with comps := match a.comps, b.comps with | some x, some y => some (max x y) | _, _ => none }
  | 0x05 => { a with comps := some 3 }
  | 0x06 => { a with comps := some 2 }
  | 0x07 => { a with level := a.level.map fun l => l - 1 }
  | 0x08 => { a with level := if op.opSa then none else some (bits op.opnd 0 8) }
  | 0x09 => { o with level := some 1, comps := some 1 }
  | 0x0A => { a with level := some 1, comps := some 1 }
  | 0x0B => { o with level := some (bits op.b64 0 8), comps := some 2 }
  | 0x0C => { a with level := (sets a.set).map fun p => p.bootOutLevel, comps := some 2 }
  | _ => a

/-- The rows that a shape fills agree with a region, where they are known. -/
def countIs (r : Nat × Nat) (n : Option Nat) : Bool := match n with | some n => r.2 = n | none => true

/-- The counts of a RESCALE for 2 or 3 components where admission does not know how many. -/
def rescaleCounts (op : LongOp) (comps : Option Nat) (l rt : Nat) : Bool :=
  (match comps with | some c => [c] | none => [2, 3]).any fun c => op.rgnA.2 = c * l * rt && op.rgnD.2 = c * (l - 1) * rt

/-- The row counts of a group operation: those of the largest per-tile share, which is rank 0's (R441). -/
def Image.sharesOk (im : Image) (sets : Nat → Option ParamSet) (op : LongOp) (a o : HandleTrack) (modLevel : Option Nat) : Bool :=
  let g := im.groupSize
  let rt (p : ParamSet) : Nat := rowShare (rowsPer p.n) g 0
  let most (n : Nat) : Nat := ceilDiv n g
  let c := op.code
  let known : Option Nat := if op.opSa then none else some op.opnd
  if c = lopRescale then (sets a.set).all fun p => a.level.all fun l => rescaleCounts op a.comps l (rt p)
  else if c = lopKsip then
    (sets a.set).all fun p => a.level.all fun l =>
      let kept := most (l + p.special) * rowsPer p.n
      countIs op.rgnA (known.map fun n => n * kept) && op.rgnD.2 = 2 * kept
  else if c = lopModdown then
    (sets o.set).all fun p => modLevel.all fun l => op.rgnA.2 = 2 * most (l + p.special) * rowsPer p.n && op.rgnD.2 = 2 * most l * rowsPer p.n
  else if c = lopModraise then (sets a.set).all fun p => op.rgnA.2 = 2 * rt p && op.rgnD.2 = 2 * p.limbs * rt p
  else if c = lopBatch then
    (sets a.set).all fun p =>
      let per := p.sampleRows (p.lweN + 1)
      countIs op.rgnA (known.map fun n => most n * per) && countIs op.rgnB (known.map fun n => ceilDiv n 1024)
        && op.rgnC.2 = op.mode * p.sampleRows p.n && countIs op.rgnD (known.map fun n => most n * per)
  else if c = lopExtract then
    (sets a.set).all fun p => (sets o.set).all fun q =>
      op.rgnA.2 = 2 * rowsPer p.n && countIs op.rgnB (known.map fun n => ceilDiv n 1024)
        && countIs op.rgnD (known.map fun n => most n * q.sampleRows (q.lweN + 1))
  else if c = lopPack then
    (sets a.set).all fun p => (sets o.set).all fun q =>
      countIs op.rgnA (known.map fun n => n * p.sampleRows (p.lweN + 1)) && op.rgnD.2 = 2 * bits op.b64 0 8 * rowsPer q.n
  else true

/-- The walk of the lead tile: its handles, the level that each step's input had, the entries whose row counts or whose output fail. -/
structure LeadWalk where
  handles : List HandleTrack
  levels : List (Nat × Option Nat) := []
  bad : List Nat := []
  renamed : List Nat := []

/-- One operation of the lead tile: its row counts, then its step, which leaves HOUT the set and tag that it declares (R176, R242, log entry 65). -/
def Image.leadStep (im : Image) (sets : Nat → Option ParamSet) (levelOf : Issued → Option Nat) (x : LeadWalk) (i : Issued) : LeadWalk :=
  let op := i.op
  let a := x.handles.getD op.hina default
  let b := x.handles.getD op.hinb default
  let o := x.handles.getD op.hout default
  let x := if im.sharesOk sets op a o (levelOf i) then x else { x with bad := i.index :: x.bad }
  match op.stepKind with
  | some k =>
    let n := trackStep sets i.known k a b o
    let x := if n.set = (im.decl op.hout).set ∧ n.tag = (im.decl op.hout).tag then x else { x with renamed := i.index :: x.renamed }
    { x with handles := x.handles.set op.hout n, levels := (i.at', a.level) :: x.levels }
  | none => x

/-- The handles that some step names as output. -/
def Trace.outputs (x : Trace) : List Nat := x.ops.filterMap fun o => if o.op.stepKind.isSome then some o.op.hout else none

/-- The next KEY_SWITCH, rotate or conjugate, after an AUTOMORPH that writes a handle's rows is for the same g, also where SA gives it (R141). -/
def Image.automorphOk (im : Image) (x : Trace) (i : Issued) : Bool :=
  match x.ops.find? fun o => decide (i.at' < o.at') && o.op.stepKind.isSome && o.op.hout = i.op.hout with
  | none => false
  | some o => o.op.code = lopKsip && (o.op.mode = 1 || o.op.mode = 2)
      && !i.known.opSa && (im.streams.getD (bits o.op.tab 0 8) default).galois = i.known.opnd

/-- An operation that names an output handle is covered by a step (R73, R141). -/
def Image.covered (im : Image) (x lead : Trace) (i : Issued) : Bool :=
  i.op.hout = 0xFFFF || decide (im.handles.length ≤ i.op.hout)
    || (if i.op.code = lopAutomorph then im.automorphOk x i else lead.outputs.contains i.op.hout)

/-- The rows that hold handles' bodies, and the first use of rows that R73 refuses. -/
structure BodyWalk where
  rows : Tab Nat := []
  bad : Option RowEvent := none

/-- One use of rows against the bodies they hold (R73): a body stays from the transfer that loads it to the row's release;
a transfer that waits for EMPTY rows finds them released, and one that loads a body replaces what the rows held (log entry 66). -/
def BodyWalk.step (outputs : List Nat) (x : BodyWalk) (e : RowEvent) : BodyWalk :=
  let rows := (List.range e.count).map fun i => e.first + i
  let free (x : BodyWalk) : BodyWalk := { x with rows := x.rows.filter fun p => !(decide (e.first ≤ p.1) && decide (p.1 < e.first + e.count)) }
  match e.use with
  | .read => x
  | .release => free x
  | .bind h => { x with rows := rows.foldl (fun t r => Tab.put t r h) x.rows }
  | .write =>
    if e.waits then free x
    else if rows.any (fun r => (Tab.get? x.rows r).any fun h => !outputs.contains h) then { x with bad := some (x.bad.getD e) }
    else x

/-- The first write of rows that hold a handle's body which no ledger step names as output (R73). -/
def Trace.strayWrite (x : Trace) (outputs : List Nat) : Option RowEvent :=
  (x.uses.foldl (fun y e => y.step outputs e) ({} : BodyWalk)).bad

/-! ### MODDOWN and its KSIP (R220) -/

/-- What holds a KSIP's product along a chain of transfers: rows, or memory by address, layout index, handle and row count. -/
inductive Holder where
  | rows (r : Nat × Nat)
  | memory (addr tab handle count : Nat)
deriving DecidableEq, Repr

/-- One link: a transfer whose regions and addresses are the entry's own. -/
def chainStep (hs : List Holder) (i : Issued) : List Holder :=
  let op := i.op
  if op.rowRel ∨ op.opSa then hs
  else if op.code = lopXferOut ∧ hs.contains (.rows op.rgnA) then .memory op.a64 op.tab (if op.fromHandle then op.hout else 0xFFFF) op.rgnA.2 :: hs
  else if op.code = lopXferIn ∧ hs.contains (.memory op.a64 op.tab (if op.fromHandle then op.hina else 0xFFFF) op.rgnD.2) then .rows op.rgnD :: hs
  else hs

/-- Whether a MODDOWN reads the product of an earlier KSIP, or what transfers made of it; a direct reading also where SA gives both their rows. -/
def Trace.readsProduct (x : Trace) (i k : Issued) : Bool :=
  let between := x.ops.filter fun o => decide (k.at' < o.at') && decide (o.at' < i.at')
  (!k.known.rowRel && !i.known.rowRel && k.known.rgnD = i.known.rgnA)
    || (!k.op.rowRel && !i.op.rowRel && (between.foldl chainStep [.rows k.op.rgnD]).contains (.rows i.op.rgnA))

/-- The KSIP of a MODDOWN: the latest earlier one on its handle whose product it reads (R220). -/
def Trace.ksipOf (x : Trace) (i : Issued) : Option Issued :=
  (x.ops.filter fun o => decide (o.at' < i.at') && o.op.code = lopKsip && o.op.hout = i.op.hout).reverse.find? fun k => x.readsProduct i k

/-- The place of a group operation among those of its trace with an implicit step or none, as `groupOps` counts them. -/
def Trace.ordinalOf (x : Trace) (i : Issued) : Nat := (x.ops.filter fun o => decide (o.at' < i.at') && o.op.isGroup).length

/-- For each MODDOWN of the lead tile its own place among the group operations and its KSIP's (R218, R220). -/
def Trace.products (x : Trace) : List (Nat × Nat) :=
  x.ops.filterMap fun o => if o.op.code = lopModdown then (x.ksipOf o).map fun k => (x.ordinalOf o, x.ordinalOf k) else none

/-! ### Streams along the lead tile's order (R176, R440) -/

/-- An opening of an entry with its open interval and its consumers. -/
structure Opening where
  entry : Nat
  opened : Nat
  closed : Nat
  users : List Issued
deriving Repr, Inhabited

/-- The openings of a trace. -/
def Image.openings (im : Image) (x : Trace) : List Opening :=
  let opens := x.ops.filter fun o => o.op.code = lopKeystream
  opens.map fun o =>
    let n := bits o.op.tab 0 8
    let e : StreamEntry := im.streams.getD n default
    let next := (opens.find? fun q => decide (o.at' < q.at') && bits q.op.tab 0 8 = n).map fun q => q.at'
    let users := x.ops.filter fun q => decide (o.at' < q.at') && (next.all fun m => decide (q.at' < m)) && q.op.keyEntries.contains n
    let last : Nat := (users.getLast?.map fun q => q.at').getD o.at'
    let bar : Option Nat := if bit e.flags 0 || e.sourceKind = 4 then none else x.bars.find? fun b => decide (last < b)
    { entry := n, opened := o.at', closed := bar.getD (x.len - 1), users := users }

/-- For each opening in its order the output handle of its consumers, which agree in set and tag (R155, R176). -/
def Image.openOuts (im : Image) (x : Trace) : List (Option Nat) := (im.openings x).map fun o => (o.users.map fun u => u.op.hout).head?

/-- Two openings are open together. -/
def Opening.meets (a b : Opening) : Bool := decide (a.opened ≤ b.closed) && decide (b.opened ≤ a.closed)

/-- The entries open at a place of the issue order. -/
def openAt (l : List Opening) (m : Nat) : List Nat := ((l.filter fun o => decide (o.opened ≤ m) && decide (m ≤ o.closed)).map fun o => o.entry).eraseDups

/-- A consumer's handles agree with its entry: HINA among HANDLES, or handle entry 0 (R176). -/
def StreamEntry.serves (e : StreamEntry) (o : Issued) : Bool := if e.kind ≤ 3 then e.named.contains o.op.hina else e.handles.headD 0xFFFF = o.op.hina

/-- One opening: not within another of its entry, its consumers' handles, the destinations and rates of those open with it. -/
def Image.openingOk (im : Image) (l : List Opening) (o : Opening) : Bool :=
  let e : StreamEntry := im.streams.getD o.entry default
  let outs := o.users.map fun u => im.decl u.op.hout
  let now := openAt l o.opened
  (bit e.flags 0 || !(l.any fun q => q.entry = o.entry && decide (q.opened < o.opened) && decide (o.opened ≤ q.closed)))
    && (o.users.all fun u => e.serves u)
    && (outs.all fun d => d.set = (outs.headD default).set && d.tag = (outs.headD default).tag)
    && !(l.any fun q => q.entry ≠ o.entry && q.meets o &&
      (let f : StreamEntry := im.streams.getD q.entry default; overlaps e.destRow e.destRows f.destRow f.destRows))
    && decide ((now.map fun n => (im.streams.getD n default).rate).sum ≤ im.cert.geyserRate) && decide (now.length ≤ im.cert.streamsMax)

/-- Every consumer has an earlier opening of each entry it names. -/
def Trace.opened (x : Trace) (o : Issued) : Bool :=
  o.op.keyEntries.all fun n => x.ops.any fun q => q.op.code = lopKeystream && bits q.op.tab 0 8 = n && decide (q.at' < o.at')

/-! ### Guarded spans (R81, R245) -/

/-- A range of bytes that the job touches: rows of a rank stand at its WINDOW_REL window (R131). -/
abbrev Touch : Type := Nat × Nat

/-- Rows of a rank as a range. -/
def rowTouch (rank first count : Nat) : Touch := (0x800000000000 + rank * 0x10000000 + 4608 * first, 4608 * count)

/-- The rows that a rank reads, or writes, at some places of its order. -/
def Trace.rowTouches (x : Trace) (rank : Nat) (write : Bool) (inside : Nat → Bool) : List Touch :=
  (x.uses.filter fun e => inside e.at' && e.use = (if write then RowUse.write else RowUse.read)).map fun e => rowTouch rank e.first e.count

/-- The memory side of a transfer: where its address is not the image's own, the body of the handle; rows of the group through the window that it names;
else the declared memory regions that hold its address. -/
def Image.memTouches (im : Image) (rank : Nat) (o : Issued) : List Touch :=
  let op := o.known
  let hid := if op.code = lopXferIn then op.hina else op.hout
  let h := im.decl hid
  let addr := if op.fromHandle then h.bodyAddr + op.a64 else op.a64
  let d := (im.layoutOf op.tab).getD (canonicalLayout (if op.code = lopXferIn then op.rgnD.2 else op.rgnA.2) 1024)
  let x := d.shape d.validRows none
  if op.fromHandle ∧ h.kind ≠ 2 then [(2 ^ 80 + 2 ^ 64 * hid, 1)]
  else if isWindow (localOf addr) then
    if d.windowRel then (runsOf (ewBits d.ew) (x.addresses (localOf addr) (x.share im.groupSize rank))).map fun r => (r.1 / 8, ceilDiv (r.1 % 8 + r.2) 8) else []
  else (im.memRegions.filter fun g => decide (g.base ≤ addr) && decide (addr < g.base + g.size)).map fun g => (g.base, g.size)

/-- The memory that a rank's transfers read, or write, at some places of its order. -/
def Image.transferTouches (im : Image) (x : Trace) (rank : Nat) (write : Bool) (inside : Nat → Bool) : List Touch :=
  (x.ops.filter fun o => inside o.at' && o.op.code = (if write then lopXferOut else lopXferIn)).flatMap fun o => im.memTouches rank o

/-- Three ranges have a byte in common. -/
def meetAll (a b c : Touch) : Bool := decide (max a.1 (max b.1 c.1) < min (a.1 + a.2) (min (b.1 + b.2) (c.1 + c.2)))

/-- An operation that a span may not hold (R81). -/
def Image.spanForbids (im : Image) (op : LongOp) : Bool :=
  let h := im.decl op.hout
  let node := nodeOf (if op.fromHandle then h.bodyAddr else op.a64)
  op.code = lopSignalCode || (op.code = lopXferOut && node ≠ 0xFFFF)
    || (op.code = lopKeystream && (im.streams.getD (bits op.tab 0 8) default).sourceKind = 4)

/-- The places of a rank's order inside a span, and those before it. -/
def Trace.inSpan (x : Trace) (sp : Span) (n : Nat) : Bool :=
  match x.bars[sp.opensAt - 1]?, x.bars[sp.opensAt]? with | some lo, some hi => decide (lo < n) && decide (n < hi) | _, _ => false
def Trace.beforeSpan (x : Trace) (sp : Span) (n : Nat) : Bool :=
  match x.bars[sp.opensAt - 1]? with | some lo => decide (n ≤ lo) | none => false

/-- What the group touches of a kind, at some places of each rank's order. -/
def Image.groupTouches (im : Image) (traces : List Trace) (write : Bool) (inside : Trace → Nat → Bool) : List Touch :=
  traces.zipIdx.flatMap fun p => p.1.rowTouches p.2 write (inside p.1) ++ im.transferTouches p.1 p.2 write (inside p.1)

/-- A span: on every rank closed by a barrier, refreshed first and free of what R81 forbids; over the group it writes nothing that it reads
and that was written before it opened. -/
def Image.spanOk (im : Image) (traces : List Trace) (sp : Span) : Bool :=
  let rank (x : Trace) : Bool :=
    let inside := x.ops.filter fun o => x.inSpan sp o.at'
    (x.bars[sp.opensAt]?).isSome && (inside.take sp.refresh.length).map (fun o => o.index) = sp.refresh && !(inside.any fun o => im.spanForbids o.op)
  let reads := im.groupTouches traces false fun x => x.inSpan sp
  let writes := im.groupTouches traces true fun x => x.inSpan sp
  let old := im.groupTouches traces true fun x => x.beforeSpan sp
  traces.all rank && !(writes.any fun w => reads.any fun r => old.any fun o => meetAll w r o)

/-! ### Check 3 along the issue order -/

/-- A failing use of rows: RGN_D of the operation, or the slots of the bundle. -/
def Image.useField (im : Image) (h : Head) (r : Nat) (e : RowEvent) : ImgCheck :=
  match e.op with
  | some i => field 4 (h.longOps.off + 64 * i + 33) false
  | none => field 7 (im.codeBase.getD r 0 + 16 * e.bundle) false

/-- The checks of check 3 that follow the issue order of a job in slot `j`: long operations by entry, then streams, then spans. -/
def State.check3Walk (s : State) (j : Nat) (h : Head) (im : Image) : Option ImgCheck :=
  let sets := s.set?
  let traces := (List.range im.groupSize).map fun r => im.trace j r
  let lead : Trace := traces.headD {}
  let lop (i o : Nat) (ok : Bool) : ImgCheck := field 4 (h.longOps.off + 64 * i + o) ok
  let ofRank (p : Trace × Nat) : List ImgCheck :=
    (p.1.ops.flatMap fun o =>
      [ lop o.index 4 (im.qmOk sets o), lop o.index 0 (p.2 = 0 || (o.op.code ≠ lopLedger && o.op.code ≠ lopKeystream)), lop o.index 42 (im.covered p.1 lead o) ])
      ++ (p.1.strayWrite lead.outputs).toList.map (fun e => im.useField h p.2 e)
  let seen (x : LeadWalk) (o : Issued) : Option Nat := (lead.ksipOf o).bind fun k => (x.levels.lookup k.at').bind id
  let steps := lead.ops.foldl (fun x o => im.leadStep sets (seen x) x o) ({ handles := im.handles.map fun d => d.track } : LeadWalk)
  let os := im.openings lead
  firstFail (traces.zipIdx.flatMap ofRank ++ [field 7 (im.codeBase.getD 0 0) (traces.all fun x => im.groupOrder x = im.groupOrder lead)]
    ++ (List.range im.handles.length).map (fun i =>
      field 2 (h.handles.off + 32 * i) ((im.decl i).kind < 2 || lead.outputs.contains i))
    ++ [lop (steps.bad.getLastD 0) 24 steps.bad.isEmpty, lop (steps.renamed.getLastD 0) 42 steps.renamed.isEmpty]
    ++ traces.flatMap (fun x => (x.ops.filter fun o => o.op.code = lopModdown).map (fun o => lop o.index 24 (x.ksipOf o).isSome))
    ++ lead.ops.map (fun o => lop o.index 36 (lead.opened o)) ++ os.map (fun o => field 6 (h.streams.off + 128 * o.entry) (im.openingOk os o))
    ++ im.spans.zipIdx.map (fun p => field 1 (h.spanOff im.cert p.2) (im.spanOk traces p.1)))

/-- Check 3 whole. -/
def State.check3 (s : State) (j : Nat) (h : Head) (im : Image) : Option ImgCheck :=
  match s.check3Form h im with
  | some c => some c
  | none => s.check3Walk j h im

end Sys2Proof.Machine
end

