-- ==== Sys2Proof/Machine/Package.lean ====
section
/-! DEFINITION. Firmware packages in the two slots of Fumarole's flash and their verification (R371-R374). -/

namespace Sys2Proof.Machine

/-! ### Slots (R13, R373) -/

/-- The active slot (0x9100:03), and the other. -/
def State.activeSlot (s : State) : Nat := s.entry 0x9100 3
def State.pendingSlot (s : State) : Nat := 1 - s.activeSlot

/-- PendingState (0x9100:02): 0 EMPTY, 1 STAGING, 2 STAGED, 3 REJECTED, 4 PREVIOUS. -/
def State.pendingState (s : State) : Nat := s.entry 0x9100 2

/-- The largest package: 224 MiB (R371). -/
def packageMax : Nat := 0xE000000

/-- A byte of a slot, as staged or as manufactured (log entry 4). -/
def State.packageByte (s : State) (slot i : Nat) : Byte :=
  Tab.get (Tab.get s.flash [] slot) (if Tab.get s.flashLength 0 slot = 0 then Config.packageByte slot i else 0) i

def State.packageBytes (s : State) (slot a n : Nat) : List Byte := (List.range n).map fun i => s.packageByte slot (a + i)

/-- A little-endian field of a slot. -/
def State.packageField (s : State) (slot a n : Nat) : Nat := leNat (s.packageBytes slot a n)

/-- Bytes written into a slot (R18). -/
def State.putPackage (s : State) (slot a : Nat) (d : List Byte) : State :=
  { s with flash := Tab.put s.flash slot ((d.zipIdx a).foldl (fun (m : Tab Byte) (p : Byte × Nat) => Tab.put m p.2 p.1) (Tab.get s.flash [] slot)) }

/-- A package whose length grows with its segments: DTP's segments carry no total (Table 2-5). -/
def State.growPackage (s : State) (slot n : Nat) : State := { s with flashLength := Tab.put s.flashLength slot (max (Tab.get s.flashLength 0 slot) n) }

/-! ### The header (Table 17-4) -/

def State.packageSvn (s : State) (slot : Nat) : Nat := s.packageField slot 5 1
def State.packageRelease (s : State) (slot : Nat) : Nat := s.packageField slot 8 4

/-- A component entry: type, offset, length. -/
def State.component (s : State) (slot i : Nat) : Nat × Nat × Nat :=
  (s.packageField slot (32 + 64 * i) 1, s.packageField slot (36 + 64 * i) 4, s.packageField slot (40 + 64 * i) 4)

/-- The entry of a component type. -/
def State.componentIndex (s : State) (slot type : Nat) : Option Nat := (List.range 16).find? fun i => (s.component slot i).1 = type

/-- The 48 digest bytes of a component type; none where the header names no such component. -/
def State.componentDigest (s : State) (slot type : Nat) : List Byte :=
  match s.componentIndex slot type with
  | some i => s.packageBytes slot (48 + 64 * i) 48
  | none => []

/-- The bytes of a SHA-384 digest, as the standard orders them. -/
def digestBytes (x : BitVec 384) : List Byte := (leBytes 48 x.toNat).reverse

/-- The host-side components (R371). -/
def hostComponents : List Nat := [2, 3, 4, 6]

/-! ### Verification (R372) -/

/-- Check 1: the form of the header. -/
def State.packageForm (s : State) (slot : Nat) : Bool :=
  let len := s.packageField slot 16 8
  let all : List (Nat × Nat × Nat) := (List.range 16).map fun i => s.component slot i
  let used := all.filter fun c => c.1 ≠ 0
  let staged := Tab.get s.flashLength 0 slot
  s.packageField slot 0 4 = 0x50464B42 && s.packageField slot 4 1 = 1 && s.packageSvn slot ≤ 64 && s.packageField slot 6 2 = 6
    && len ≤ packageMax && (staged = 0 || len ≤ staged) && used.length = 6
    && ([1, 2, 3, 4, 5, 6].all fun k => (used.filter fun c => c.1 = k).length = 1)
    && (used.all fun c => 8192 ≤ c.2.1 && c.2.1 % 4096 = 0 && c.2.1 + c.2.2 ≤ len)
    && ((used.filter fun c => hostComponents.contains c.1).map fun c => c.2.2).sum ≤ 0x1000000

/-- A component matches its digest (check 6). -/
def State.componentGood (s : State) (slot type : Nat) : Bool :=
  match s.componentIndex slot type with
  | none => false
  | some i =>
    let c := s.component slot i
    digestBytes (Config.sha384 (s.packageBytes slot c.2.1 c.2.2)) = s.componentDigest slot type

/-- The first failing check of a package, 0 where it passes (Table 17-5). -/
def State.packageReject (s : State) (slot : Nat) (types : List Nat) : Nat :=
  let anchors := s.blob 0x9000 9
  let msg := s.packageBytes slot 0 1216
  if !s.packageForm slot then 1
  else if digestBytes (Config.sha384 (s.packageBytes slot 1056 96)) ≠ anchors.take 48
      ∨ digestBytes (Config.sha384 (s.packageBytes slot 1152 56)) ≠ (anchors.drop 48).take 48 then 2
  else if !Config.ecdsaVerifies (s.packageBytes slot 1056 96) msg (s.packageBytes slot 1216 96) then 3
  else if !Config.lmsVerifies (s.packageBytes slot 1152 56) msg (s.packageBytes slot 1312 2828) then 4
  else if s.packageSvn slot < s.entry 0x9000 1 then 5
  else if !(types.all fun k => s.componentGood slot k) then 6
  else 0

/-- Whether a host-side activation may take the pending package: Fumarole's and the optical engines' firmware are those in force (R376). -/
def State.sameFieldFirmware (s : State) : Bool :=
  [1, 5].all fun k => s.componentDigest s.pendingSlot k = s.componentDigest s.activeSlot k

/-- STAGED or PREVIOUS (R376). -/
def State.packageReady (s : State) : Bool := s.pendingState = 2 || s.pendingState = 4

/-! ### What an activation or a full restart leaves (R378, R380) -/

/-- The pending package becomes the active one. -/
def State.swapSlots (s : State) : State :=
  let new := s.pendingSlot
  ((((s.setEntry 0x9100 3 new).setEntry 0x9100 2 4).setEntry 0x9100 7 OK).setEntry 0x9100 8 0).raise 0xB0C1 0xFF 0 (s.packageRelease new) new

/-- The pending package is rejected; the previous one runs. -/
def State.rejectPackage (s : State) (reason : Nat) : State :=
  (((s.setEntry 0x9100 2 3).setEntry 0x9100 7 IMAGE_VERIFY).setEntry 0x9100 8 reason).raise 0xB0C0 0xFF IMAGE_VERIFY reason s.pendingSlot

/-- The outcome of an activation or of a full restart with the pending package. -/
def State.activatePending (s : State) (types : List Nat) : State :=
  let s := s.bump 0x9100 9 1
  match s.packageReject s.pendingSlot types with
  | 0 => s.swapSlots
  | r => s.rejectPackage r

/-- The slot that Fumarole's ROM starts from: the active one, the other where the active one fails, none where both fail (R373). -/
def State.bootSlot (s : State) : Option Nat :=
  if s.packageReject s.activeSlot [1] = 0 then some s.activeSlot
  else if s.packageReject s.pendingSlot [1] = 0 then some s.pendingSlot
  else none

/-- COMMIT_SVN's write: the running SVN is fused where it is above the fused one (R374). -/
def State.commitSvnOp (s : State) : Nat × State :=
  let v := s.packageSvn s.activeSlot
  if v ≤ s.entry 0x9000 1 then (OK, s) else (OK, (s.setEntry 0x9000 1 v).raise 0xB0C2 0xFF 0 v 0)

/-! ### The phase of a restart (Tables 17-6, 20-2, 20-3) -/

/-- The first phase of a restart's kind as BootPhase numbers it, and the bounds of its phases, ms (Tables 17-6, 20-2, 20-3). -/
def phaseBounds (kind : Nat) : Nat × List Nat :=
  if kind = 6 then (0x21, [2, 8, 10, 50, 120])
  else if 4 ≤ kind then (0x11, [2, 10, 50, 60, 80, 240, 250])
  else if kind = 3 then (3, [200, 1000, 3000, 5000, 5500, 6500, 7000])
  else (1, [500, 1000, 1200, 2000, 4000, 6000, 6500, 7500, 8000])

/-- BootPhase of a running restart: no phase past its bound, none beyond phase 3 while Fumarole powers the host side; which of the rest is a
free value (Table 20-6, log entry 2). A warm restart whose shadow fails its check is bound in its first two phases alone (R419). -/
def State.bootPhase (s : State) (r : Restart) : Nat :=
  let b := phaseBounds r.kind
  let past := (b.2.dropLast.filter fun ms => decide (r.began + 1000000 * ms ≤ s.now)).length
  let past := if (r.kind = 4 ∨ r.kind = 5) ∧ !Config.shadowIntact s.starts then min past 2 else past
  let low := if 4 ≤ r.kind then b.1 + past else if r.powerLeft.isEmpty then max 4 (b.1 + past) else min 3 (b.1 + past)
  let high := if r.kind < 4 ∧ !r.powerLeft.isEmpty then 3 else b.1 + b.2.length - 1
  low + Config.restartPhase s.starts (s.now - r.began) % (high + 1 - low)

end Sys2Proof.Machine
end

