-- ==== Sys2Proof/Machine/Access.lean ====
section
/-! DEFINITION. Writes of the parameter dictionary: the order of refusals, apply classes, transaction groups, persistence (R29-R50, R437). -/

namespace Sys2Proof.Machine

/-! ### Effects that some writable entries have when they take effect -/

/-- A StackMode change: the contents of every hashed window and of every changed window become undefined,
and the poison entries of those windows are deleted, as far as they lie in them (R281). -/
def State.applyStackMode (s : State) (v : Nat) : State :=
  let old := s.entry 0x3010 1
  if v = old then s
  else
    let hit := (List.range 8).filter fun j => !bit v j || bit v j ≠ bit old j
    let inHit (a : Nat) : Bool := hit.contains (a / stackWindow)
    let n := s.freeCount
    ({ s.useFree with
        memUndefined := hit.foldl (fun (m : Tab Nat) j => Tab.put m j n) s.memUndefined
        mem := s.mem.filter fun c => !inHit c.1
        wordPoison := s.wordPoison.filter fun w => !inHit (32 * w)
        poisonTable := hit.foldl (fun l j => l.flatMap fun (e : PoisonEntry) => e.trim (j * stackWindow / 256) (stackWindow / 256)) s.poisonTable }).setEntry 0x3010 1 v

/-- The engine is wiped: slots zero, no SECRET mark, free, a running command stopped with STATE_CONFLICT (R381). -/
def State.wipePke (s : State) : State :=
  let s := if s.pke.running.isSome then s.setEntry 0x9200 3 STATE_CONFLICT else s
  ({ s with pke := { s.pke with slots := [], secret := [], claimContext := none, running := none } }).setEntry 0x9200 1 0xFF

/-- The wipe that a job's end brings (R381). -/
def State.wipePkeOf (s : State) (j : Nat) : State := if s.entry 0x9200 1 = j then s.wipePke else s

/-- DEEP_IDLE: the fabric ports and their engines are OFF (R359). -/
def State.enterDeepIdle (s : State) : State :=
  let s := (List.range 16).foldl (fun s p => (s.closePort p portDisabled).setDomain (72 + p) .off) s
  s.setEntry 0xA040 1 1

/-- DEEP_IDLE left: the ports of PortEnable begin training (R359). -/
def State.leaveDeepIdle (s : State) : State :=
  let s := (List.range 16).foldl (fun s p =>
    let s := s.setDomain (72 + p) .on
    if s.portEnabled p then s.startTraining p else s) s
  ({ s with heat := { s.heat with idleSince := s.now } }).setEntry 0xA040 1 0

/-- IDLE or DEEP_IDLE: no job slot LOADED or later and no direct conversion (R359). -/
def State.idle (s : State) : Bool := s.jobsLoaded.isEmpty && s.conversion.isNone

/-- A context entry of a check-value context written: it becomes SAVED (R389). -/
def State.saveContext (s : State) (index sub v : Nat) : State :=
  (s.setEntry index sub v).setEntry index 1 2

/-- An RW or RWS entry takes a value (R35): the stored value, and what its chapter adds. -/
def State.applyEntry (s : State) (ctx index sub v : Nat) : Nat × State :=
  if index = 0x3010 ∧ sub = 1 then (OK, s.applyStackMode v)
  else if index = 0x4010 ∧ sub = 4 then (OK, (s.setEntry index sub v).applyPortEnable v)
  else if index = 0xA040 ∧ sub = 1 then
    (OK, if v = 1 ∧ !s.deepIdle then s.enterDeepIdle else if v = 0 ∧ s.deepIdle then s.leaveDeepIdle else s)
  else if index = 0x9200 ∧ sub = 1 then
    if v = 0xFF then (OK, s.wipePke)
    else if s.entry 0x9200 1 ≠ 0xFF ∨ (s.job v).state = .ready ∨ (s.job v).state = .halted then (STATE_CONFLICT, s)
    else (OK, ({ s with pke := { s.pke with claimContext := some ctx } }).setEntry index sub v)
  else if index = 0x3480 ∧ sub = 2 then s.narrowWriteOp v .clean
  else if 0xB100 ≤ index ∧ index < 0xB160 ∧ (sub = 3 ∨ sub = 4) then (OK, s.saveContext index sub v)
  else (OK, s.setEntry index sub v)

/-! ### Stopped units (R31) -/

/-- Whether the owning unit of a STOPPED entry counts as stopped. -/
def State.unitStopped (s : State) (index sub : Nat) : Bool :=
  match ownerJob index with
  | some j => !(s.job j).active
  | none =>
    if index = 0x1070 then s.ready && s.jobsLoaded.isEmpty
    else if index = 0x7810 then !(tileNumbers.any fun t => (s.tile t).running.any fun o => o.op.code = 0x0C)
    else if index = 0x3480 then
      sub = 5 || !((s.jobOfTile s.narrowTile).any fun j => (s.job j).active)
    else if index = 0x3010 then s.idle
    else if index = 0x3030 then s.clearWalk.isNone && !s.regionHeld (s.entry 0x3030 1) (s.entry 0x3030 2)
    else if index = 0x4010 then (List.range 16).all fun p => s.portState p ≠ portUp
    else if 0x4400 ≤ index ∧ index < 0x4440 then
      !(jobSlots.any fun j => (s.job j).active && (match (s.job j).image with | some im => bit im.cert.barrierMask (index - 0x4400) | none => false))
    else if index = 0xA040 ∨ index = 0x9110 then s.idle
    else if 0xB100 ≤ index ∧ index < 0xB160 then s.entry index 1 ≠ 1
    else true

/-! ### Refusals before the value (R17, R48-R50, R437 steps 1 to 4) -/

/-- Entries that carry device data, key-store or engine data, which the field side may not reach (R17, R361). -/
def gateProtected (index sub : Nat) : Bool :=
  index = 0x3480 || (0x9200 ≤ index && index ≤ 0x9220) || (0x8040 ≤ index && index < 0x8048 && sub = 7)

/-- The DTP sessions' contexts. -/
def isDtp (ctx : Nat) : Bool := 16 ≤ ctx && ctx < 0x10000

/-- A host-side sensor, which Fumarole answers for while the host side is OFF (R436). -/
def State.offSensor (s : State) (index : Nat) : Bool :=
  !s.hostPowered && ((0xC040 ≤ index && index < 0xC048) || (0xC060 ≤ index && index < 0xC071))

/-- The first refusal of R437 steps 1 to 4, if any. -/
def State.accessRefusal (s : State) (ctx index sub : Nat) (write : Bool) : Option Nat :=
  if ctx = 0 && !s.ready then some BUSY
  else if isDtp ctx && gateProtected index sub then some ACCESS_PROTECT
  else if isFabric ctx && (s.entry 0x1060 1 = 0 || (write && s.entry 0x1060 1 ≠ 2)) then some ACCESS_PROTECT
  else if (lookupEntry index sub).isNone then some ENTRY_ABSENT
  else if (tileOf index).any (fun t => !s.tileEnabled t) then some UNIT_ABSENT
  else none

/-! ### Refusals by the state (R437 step 8) -/

/-- A module in recovery serves 0x1000 and 0x9100 alone (R373); before READY DTP reaches what Fumarole serves (R416, R436). -/
def State.unserved (s : State) (ctx index : Nat) (write : Bool) : Bool :=
  if s.recovery then !(index = 0x1000 || index = 0x9100)
  else !s.ready && !(isDtp ctx && (isFieldServed index || (s.offSensor index && !write)))

/-- The engine's entries serve the context that claimed it alone (R381). -/
def State.unclaimed (s : State) (ctx index sub : Nat) (write : Bool) : Bool :=
  ((index = 0x9200 && write && ((sub = 1 && s.entry 0x9200 1 ≠ 0xFF) || sub = 2)) || (index = 0x9210 && 0 < sub)) && s.pke.claimContext ≠ some ctx

/-- Whether the gate is down as a context sees it: either end for a DTP session, the host end for the others (R19). -/
def State.gateLost (s : State) (ctx : Nat) : Bool := s.hostGate.down || (isDtp ctx && s.fieldGate.down)

/-- Whether an entry lies across the gate from a context (R53, R59). -/
def State.acrossGate (s : State) (ctx index : Nat) : Bool :=
  if isDtp ctx then !isFieldServed index && !s.offSensor index && !s.recovery else isFieldServed index

/-- Whether an entry persists (R32). -/
def isPersistent (index sub : Nat) : Bool := ((lookupEntry index sub).map fun r => r.persist).getD false

/-- Whether an entry that lies across the gate, or a persistent one to be written, is out of reach because the gate is down (R19, R33). -/
def State.gateConflict (s : State) (ctx index sub : Nat) (write : Bool) : Bool :=
  s.gateLost ctx && (s.acrossGate ctx index || (write && isPersistent index sub))

/-- What refuses an access by the state of the module, of the engine's claim or of the gate. R437 names no step for the claim's ACCESS_PROTECT
(R381): the model takes it here, as the state of a unit, before the others (DESIGN CHOICE, log entry 62). -/
def State.stateRefusal (s : State) (ctx index sub : Nat) (write : Bool) : Option Nat :=
  if s.unclaimed ctx index sub write then some ACCESS_PROTECT
  else if s.unserved ctx index write || s.gateConflict ctx index sub write then some STATE_CONFLICT
  else none

/-! ### Value checks (R30, R437 step 7) -/

/-- The opcodes of Table 17-7. -/
def pkeOpcodes : List Nat := [1, 2, 3, 4, 5, 0x10, 0x11, 0x12, 0x13, 0x20, 0x21, 0x22]

/-- The value range of a command word: opcode, LEN of a modular command, HANDLE (R383). -/
def pkeWordValid (v : Nat) : Bool :=
  pkeOpcodes.contains (bits v 0 8) && (5 < bits v 0 8 || (0 < bits v 24 8 && bits v 24 8 ≤ 64)) && bits v 32 8 < 32

/-- Ranges that no plain interval of the entry's row states. -/
def State.valueRefusal (s : State) (index sub v : Nat) : Option Nat :=
  if index = 0x1038 ∧ sub = 2 ∧ v % 8 ≠ 0 then some VALUE_RANGE
  else if index = 0x3410 ∧ sub = 1 ∧ v < s.entry 0x3410 2 then some VALUE_RANGE
  else if index = 0x3030 ∧ sub = 3 ∧ (s.entry 0x3030 1 % 256 ≠ 0 ∨ s.entry 0x3030 2 % 256 ≠ 0 ∨ !inStack (s.entry 0x3030 1) (s.entry 0x3030 2)) then
    some VALUE_RANGE
  else if index = 0x3410 ∧ sub = 2 ∧ s.entry 0x3410 1 < v then some VALUE_RANGE
  else if index = 0x4010 ∧ sub = 7 ∧ 15 < v ∧ v ≠ 0xFF then some VALUE_RANGE
  else if index = 0x5020 ∧ sub = 1 ∧ v % 0x100000 ≠ 0 then some VALUE_RANGE
  else if index = 0xA010 ∧ sub = 4 ∧ 0 < v ∧ v < 10 then some VALUE_RANGE
  else if index = 0x9200 ∧ sub = 1 ∧ 15 < v ∧ v ≠ 0xFF then some VALUE_RANGE
  else if index = 0x1110 ∧ (bits v 16 16 ≠ 0x5253 ∨ bits v 8 8 ≠ 0 ∨ bits v 0 8 = 0 ∨ 4 < bits v 0 8) then some VALUE_RANGE
  else if index = 0x3480 ∧ sub = 1 ∧ (bits v 22 34 ≠ 0 ∨ 64 ≤ bits v 56 8 ∨ 3145727 < bits v 0 22) then some VALUE_RANGE
  else if index = 0x9200 ∧ sub = 2 ∧ !pkeWordValid v then some VALUE_RANGE
  else if index = 0x9110 ∧ sub = 1 ∧ v = 1 ∧ s.packageReady ∧ !s.sameFieldFirmware then some VALUE_RANGE
  else if index = 0x6010 ∧ (tileNumbers.any fun t => bit v t && !s.tileEnabled t) then some UNIT_ABSENT
  else none

/-- The refusal of a value by its type and range (R30); JobControl's commands are 1 to 5 (Table 11-9). -/
def State.rangeRefusal (s : State) (r : EntryRow) (index sub v : Nat) : Option Nat :=
  if r.ty.max < v ∨ v < r.min ∨ r.max < v then some VALUE_RANGE
  else if r.index = 0x6100 ∧ sub = 1 ∧ (v = 0 ∨ 5 < v) then some VALUE_RANGE
  else s.valueRefusal index sub v

/-! ### Persistence (R14, R18, R33) -/

/-- The offset of the entry with a key (R10). -/
def keyOffset (k : Nat) : Nat := 8 * k

/-- Fumarole takes a record, which waits to enter its flash (R18, R33). -/
def State.keepRecord (s : State) (r : PersistRecord) : State := { s with unstored := s.unstored ++ [r] }

/-- New values of persistent entries cross the gate in one DICT_REQUEST, for one record (R33, R44). -/
def State.sendRecord (s : State) (ctx : Nat) (values : List (Nat × Nat)) : State :=
  if values.isEmpty then s
  else
    s.gateSend .host (.request ctx (.store (values.map fun p => (keyOffset p.1, BitVec.ofNat 64 p.2))))
      (.values ctx (values.map fun p => (p.1, p.2, s.entry (p.1 / 256) (p.1 % 256))))

/-- The bytes of a DICT_REQUEST's segment (DESIGN CHOICE, log entry 61). -/
abbrev gateSegment : Nat := 1024

/-- A segment of a persistent entry's new content crosses the gate; the next one follows its answer (R14, R33). -/
def State.sendContent (s : State) (ctx key start : Nat) (old new : List Byte) : State :=
  s.gateSend .host (.request ctx (.storeSegment (keyOffset key) start new.length ((new.drop start).take gateSegment))) (.content ctx key start old new)

/-- Whether a message carries content of an entry. -/
def GateMsg.carries (m : GateMsg) (key : Nat) : Bool :=
  match m.origin with
  | .content _ k _ _ _ => k = key
  | _ => false

/-- A message's content is superseded: nothing follows it. -/
def GateMsg.supersede (m : GateMsg) (key : Nat) : GateMsg :=
  match m.origin with
  | .content c k i old _ => if k = key then { m with origin := .content c k i old [] } else m
  | _ => m

/-- The content that an entry holds for good: what it held before a write whose segments are still on their way. -/
def State.settledBlob (s : State) (index sub : Nat) : List Byte :=
  match (s.hostGate.outstanding.find? fun (m : GateMsg) => m.carries (entryKey index sub)).map fun (m : GateMsg) => m.origin with
  | some (.content _ _ _ old _) => old
  | _ => s.blob index sub

/-- New content of a persistent entry is stored too, in place of an older one that is still on its way (R33). -/
def State.storeContent (s : State) (ctx index sub : Nat) (d : List Byte) : State :=
  let old := s.settledBlob index sub
  let g := s.hostGate
  ({ s with hostGate := { g with outstanding := g.outstanding.map fun (m : GateMsg) => m.supersede (entryKey index sub) } }).sendContent ctx (entryKey index sub) 0 old d

/-- A persistent entry's write is stored too: by Fumarole itself for its own entries, by a DICT_REQUEST for the others (R33). -/
def State.storePersistent (s : State) (ctx index sub v : Nat) : State :=
  if !isPersistent index sub then s
  else if isFieldServed index then s.keepRecord { values := [(entryKey index sub, v)], contents := [] }
  else s.sendRecord ctx [(entryKey index sub, v)]

/-! ### Transaction groups (R36-R45) -/

/-- OPEN and PENDING groups together (R45). -/
def State.groupCount (s : State) : Nat :=
  (s.contexts.filter fun p => p.2.groupState = 1).length + s.pendingGroups.length

/-- What the end of a group leaves in its context, if the context still stands: GroupState and its fellows show the last group alone (Table 2-6). -/
def State.endGroup (s : State) (g : PendingGroup) (f : Context → Context) : State :=
  if s.hasContext g.ctx then
    s.updContext g.ctx fun c => f (if c.groupId = g.id then { c with applyTime := s.fabricTime, staged := [], snapshot := none } else c)
  else s

/-- GroupState of a group that its context still shows. -/
def Context.showState (c : Context) (g : PendingGroup) (v : Nat) : Context := if c.groupId = g.id then { c with groupState := v } else c

/-- A group is discarded: event 0xB0A0, GroupState DISCARDED and GROUP_DISCARDED in LastStatus (R42). -/
def State.discardGroup (s : State) (g : PendingGroup) : State :=
  (s.endGroup g fun c => { c.showState g 4 with lastStatus := GROUP_DISCARDED }).raise 0xB0A0 0xFF GROUP_DISCARDED g.job g.staged.length

/-- Whether a staged STOPPED entry's unit runs at the apply point (R43). -/
def State.stagedConflict (s : State) (staged : List (Nat × Nat)) : Bool :=
  staged.any fun p =>
    ((lookupEntry (p.1 / 256) (p.1 % 256)).map fun r => decide (r.cls = .stopped)).getD false && !s.unitStopped (p.1 / 256) (p.1 % 256)

/-- Staged values take effect, and the persistent ones are stored as one record (R40, R44). The spec does not say what becomes of a group with
persistent entries that is applied while the gate is down: the model applies it, and its record leaves when the gate is back
(DESIGN CHOICE, log entry 63). -/
def State.applyStaged (s : State) (ctx : Nat) (staged : List (Nat × Nat)) : State :=
  let s := s.sendRecord ctx (staged.filter fun p => isPersistent (p.1 / 256) (p.1 % 256))
  staged.foldl (fun s p => (s.applyEntry ctx (p.1 / 256) (p.1 % 256) p.2).2) s

/-- A group is applied at one instant, or discarded whole (R40, R43). -/
def State.applyGroup (s : State) (g : PendingGroup) : State :=
  if s.stagedConflict g.staged then s.discardGroup g
  else (s.applyStaged g.ctx g.staged).endGroup g fun c => c.showState g 3

/-- Whether a staged entry is a job-scoped EPOCH entry (R40). -/
def isEpochKey (k : Nat) : Bool :=
  ((lookupEntry (k / 256) (k % 256)).map fun r => decide (r.cls = .epoch)).getD false && (ownerJob (k / 256)).isSome

/-- COMMIT of the context's last group: applied at once, or PENDING until the owning job's next barrier release (R40). -/
def State.commitGroup (s : State) (ctx job : Nat) (staged : List (Nat × Nat)) : Nat × State :=
  let g : PendingGroup := { ctx := ctx, id := (s.context ctx).groupId, job := job, staged := staged, deadline := s.now + 1000000 * s.entry 0x1040 1 }
  let s := s.updContext ctx fun c => { c with commitTime := s.fabricTime, groupOwner := job, staged := staged, snapshot := none }
  if staged.any (fun p => isEpochKey p.1) ∧ (s.job job).active then
    (PENDING, ({ s with pendingGroups := s.pendingGroups ++ [g] }).updContext ctx fun c => { c with groupState := 2 })
  else if s.stagedConflict staged then (GROUP_DISCARDED, s.discardGroup g)
  else (OK, s.applyGroup g)

/-- A context's next group begins. -/
def State.beginGroup (s : State) (ctx : Nat) (snapshot : Option (Tab Nat)) : State :=
  s.updContext ctx fun c => { c with groupState := 1, groupId := c.groupId + 1, groupOwner := 0xFF, staged := [], snapshot := snapshot }

/-- A write of an EPOCH entry outside a group: OPEN, the write and COMMIT together (R41), within the limits of R45. -/
def State.implicitGroup (s : State) (ctx index sub v : Nat) : Nat × State :=
  if 32 ≤ s.groupCount ∨ s.contextFull ctx then (GROUP_FULL, s)
  else (s.beginGroup ctx none).commitGroup ctx ((ownerJob index).getD 0xFF) [(entryKey index sub, v)]

/-- A write inside an open group is staged (R38, R39). -/
def State.stageWrite (s : State) (ctx index sub v : Nat) : Nat × State :=
  let c := s.context ctx
  let k := entryKey index sub
  let owner := (ownerJob index).getD c.groupOwner
  if c.groupOwner ≠ 0xFF ∧ owner ≠ c.groupOwner then (STATE_CONFLICT, s)
  else if c.staged.any (fun p => p.1 = k) then
    (PENDING, s.updContext ctx fun c => { c with staged := c.staged.map fun p => if p.1 = k then (k, v) else p })
  else if 256 ≤ c.staged.length then (GROUP_FULL, s)
  else (PENDING, s.updContext ctx fun c => { c with staged := c.staged ++ [(k, v)], groupOwner := owner })

/-! ### A write of one entry (R30-R41, R437) -/

/-- A slot of the window is written: in an open write transfer the content's bytes from Offset on that it maps, else the slot alone (R54). -/
def Context.fillSlot (c : Context) (i v : Nat) : Context :=
  match c.transfer with
  | some t =>
    if t.write then
      let at' := c.offset + 8 * i
      { c with transfer := some { t with filled := ((leBytes 8 v).zipIdx at').foldl (fun (m : Tab Byte) (p : Byte × Nat) => Tab.put m p.2 p.1) t.filled } }
    else { c with window := Tab.put c.window i v }
  | none => { c with window := Tab.put c.window i v }

/-- Context-local RW entries take effect at once in their own context (R36, R38). -/
def State.writeLocal (s : State) (ctx index sub v : Nat) : State :=
  s.updContext ctx fun c =>
    if index = 0xB001 then { c with logReadFrom := v }
    else if sub = 1 then { c with target := v }
    else if sub = 2 then { c with offset := v }
    else if sub = 3 then { c with length := v }
    else c.fillSlot (sub - 16) v

/-- An accepted write of a context-local entry, but for the context that it cannot create: GROUP_FULL comes last (R437 step 9). -/
def State.localOrFull (s : State) (ctx : Nat) (r : Nat × State) : Nat × State :=
  if !isRefusal r.1 ∧ s.contextFull ctx then (GROUP_FULL, s) else r

/-- Steps 5 to 9 of R437 for a write whose entry exists: `take` is what an accepted write does. While a group is open every write of Control
is refused before its value is looked at (R38, R438). -/
def State.decideWrite (s : State) (r : EntryRow) (ctx index sub v : Nat) (take : State → Nat × State) : Nat × State :=
  let isOpen := (s.context ctx).groupState = 1
  if r.ty.isContent ∨ r.acc = .ro ∨ (index = 0x9030 ∧ sub = 2 ∧ ctx ≠ 0) then (ACCESS_RIGHT, s)
  else if index = 0x1038 ∧ sub = 4 ∧ isOpen then (STATE_CONFLICT, s)
  else
    match s.rangeRefusal r index sub v with
    | some c => (c, s)
    | none =>
      match s.stateRefusal ctx index sub true with
      | some c => (c, s)
      | none =>
        if isContextLocal index sub then s.localOrFull ctx (take s)
        else if r.cls = .stopped ∧ !s.unitStopped index sub then (STATE_CONFLICT, s)
        else if r.acc = .wo then if isOpen then (STATE_CONFLICT, s) else take s
        else if isOpen then s.stageWrite ctx index sub v
        else if r.cls = .epoch then s.implicitGroup ctx index sub v
        else take s

/-! ### Accesses that cross the gate (R14, R16, R53) -/

/-- Whether an entry that Fumarole serves is accessed from the host side. -/
def crosses (ctx index : Nat) : Bool := !isDtp ctx && isFieldServed index

/-- Whether an access of a context waits for Fumarole: the context's later accesses wait behind it, so that a read obtains
the outcome of the write before it (R47). -/
def State.awaits (s : State) (ctx : Nat) : Bool :=
  s.hostGate.outstanding.any fun (m : GateMsg) => match m.origin with
    | .access a => a.ctx = ctx
    | _ => false

/-- An access waits its turn. -/
def State.inTurn (s : State) (a : EntryAccess) (f : State → State) : State :=
  if s.awaits a.ctx then { s with heldAccesses := s.heldAccesses ++ [a] } else f s

/-- An access leaves for Fumarole as a DICT_REQUEST. -/
def State.askField (s : State) (a : EntryAccess) : State :=
  s.gateSend .host (.request a.ctx (.entries [(a.offset, a.value.map fun v => BitVec.ofNat 64 v)])) (.access a)

/-- The access of a command that writes one entry of 8 bytes. -/
def slotWrite (ctx index sub v : Nat) : EntryAccess := { ctx := ctx, offset := keyOffset (entryKey index sub), value := some v }

/-- What an accepted write does: it crosses the gate, or takes effect here and is stored where its entry persists (R33). -/
def State.takeWrite (a : EntryAccess) (index sub v : Nat) (op : State → Nat × State) (s : State) : Nat × State :=
  if crosses a.ctx index then (WAITING, s.askField { a with value := some v }) else op (s.storePersistent a.ctx index sub v)

/-- The outcome of a write of one entry through a context: its code, and the state it leaves but for the record of R46. -/
def State.writeResult (s : State) (ctx index sub v : Nat) (op : State → Nat × State) : Nat × State :=
  match s.accessRefusal ctx index sub true with
  | some c => (c, s)
  | none =>
    match lookupEntry index sub with
    | none => (ENTRY_ABSENT, s)
    | some r => s.decideWrite r ctx index sub v (State.takeWrite (slotWrite ctx index sub v) index sub v op)

/-- The host-link controller answers BAR0 by itself: nothing of an access is performed or recorded (R48). -/
def State.bar0Paused (s : State) (ctx : Nat) : Bool := ctx = 0 && !s.ready

/-- A read that no secure stream carries completes with UR, an advisory error, and is counted (R338, Table 15-7). -/
def State.refuseInsecureRead (s : State) : State :=
  (({ s with hostLink := { s.hostLink with aer := s.hostLink.aer ++ [AerError.advisoryNonFatal] } }).bump 0x5040 0x0C 1).emit .completionUr

/-- A BAR0 request that no secure stream carries while IdeRequired is 1 (R338). -/
def State.bar0Insecure (s : State) (ctx : Nat) : Bool := ctx = 0 && s.entry 0x5010 2 = 1 && !s.secureStream

/-- A write that reaches the dictionary: dropped in a pause, dropped and counted without a secure stream (R48, R338). -/
def State.served (s : State) (ctx : Nat) (f : State → State) : State :=
  if s.bar0Paused ctx then s else if s.bar0Insecure ctx then s.bump 0x5040 0x0C 1 else f s

/-- A write of one entry through a context, with its outcome recorded (R46). -/
def State.writeEntry (s : State) (ctx index sub v : Nat) (op : State → Nat × State) : State :=
  s.served ctx fun s =>
    s.inTurn (slotWrite ctx index sub v) fun s =>
      let x := s.writeResult ctx index sub v op
      x.2.record ctx index sub x.1

end Sys2Proof.Machine
end

