-- ==== Sys2Proof/Machine/LongOps.lean ====
section
/-! DEFINITION. The commands of the long operations: issue, dispatch, rows that arrive, finishes, timeouts (R216-R235). -/

namespace Sys2Proof.Machine

/-! ### Issue of operations without a step (Table 10-2) -/

/-- NTT (R98, R217). -/
def execNtt (t index sa : Nat) (s : State) : Host.Outcome State Fault Refusal :=
  onTile t s fun s => s.issueLop t index sa lopNtt fun _j _im o s => s.enqueueLop t o

/-- AUTOMORPH (R139). -/
def execAutomorph (t index sa : Nat) (s : State) : Host.Outcome State Fault Refusal :=
  onTile t s fun s => s.issueLop t index sa lopAutomorph fun _j _im o s => s.enqueueLop t o

/-- TRANSPOSE (R143). -/
def execTranspose (t index sa : Nat) (s : State) : Host.Outcome State Fault Refusal :=
  onTile t s fun s => s.issueLop t index sa lopTranspose fun _j _im o s => s.enqueueLop t o

/-- BCONV (R100). -/
def execBconv (t index sa : Nat) (s : State) : Host.Outcome State Fault Refusal :=
  onTile t s fun s => s.issueLop t index sa lopBconv fun _j _im o s => s.enqueueLop t o

/-- XFER_IN (R230). -/
def execXferIn (t index sa : Nat) (s : State) : Host.Outcome State Fault Refusal :=
  onTile t s fun s => s.issueLop t index sa lopXferIn fun _j _im o s => s.enqueueLop t o

/-- XFER_OUT (R230). -/
def execXferOut (t index sa : Nat) (s : State) : Host.Outcome State Fault Refusal :=
  onTile t s fun s => s.issueLop t index sa lopXferOut fun _j _im o s => s.enqueueLop t o

/-- SIGNAL (R235). -/
def execLopSignal (t index sa : Nat) (s : State) : Host.Outcome State Fault Refusal :=
  onTile t s fun s => s.issueLop t index sa lopSignalCode fun _j _im o s => s.enqueueLop t o

/-- FENCE (R235). -/
def execLopFence (t index sa : Nat) (s : State) : Host.Outcome State Fault Refusal :=
  onTile t s fun s => s.issueLop t index sa lopFenceCode fun _j _im o s => s.enqueueLop t o

/-! ### Group operations and their ledger steps (R74, R218, R219) -/

/-- The step of RESCALE: kind 0x07. -/
def rescaleStep (o : LopInst) : StepArgs := { kind := 0x07, hina := o.op.hina, hout := o.op.hout }

/-- RESCALE (R103). -/
def execRescale (t index sa : Nat) (s : State) : Host.Outcome State Fault Refusal :=
  onTile t s fun s => s.issueLop t index sa lopRescale fun j _im o s => s.enqueueGroup t j o (some (rescaleStep o)) o.op.hina id

/-- The USE_LEVEL of the stream entry in TAB [7:0]. -/
def Image.useLevel (im : Image) (o : LopInst) : Option Nat := (im.streams[bits o.op.tab 0 8]?).map fun e => e.useLevel

/-- The step of KSIP: kind 0x06 at the level of its key; MODE 1 and 2 rotate (R75, Table 10-2). -/
def ksipStep (im : Image) (o : LopInst) : StepArgs :=
  { kind := 0x06, hina := o.op.hina, hout := o.op.hout, rotates := o.op.mode ≠ 0, useLevel := im.useLevel o }

/-- KSIP (R442), with the check of a resident key after its step (R183). -/
def execKsip (t index sa : Nat) (s : State) : Host.Outcome State Fault Refusal :=
  onTile t s fun s => s.issueLop t index sa lopKsip fun j im o s =>
    s.enqueueGroup t j o (some (ksipStep im o)) o.op.hina fun s => s.residentCheck j im o

/-- MODDOWN (R105): no step of its own; its level is the one that its KSIP's step gave HOUT (R218). -/
def execModdown (t index sa : Nat) (s : State) : Host.Outcome State Fault Refusal :=
  onTile t s fun s => s.issueLop t index sa lopModdown fun j _im o s => s.enqueueGroup t j o none o.op.hout id

/-- Whether a batch is a standby refresh of the job's open span, not armed (R80, R245). -/
def Job.isStandby (job : Job) (im : Image) (index : Nat) : Bool :=
  match job.span with
  | none => false
  | some v => !job.armed && (im.spans.getD v.span default).refresh.contains index

/-- An unarmed standby copies its guard handle, and leaves NOISE unchanged: the output holds what the guard held (R80). -/
def Job.copyGuard (job : Job) (hin hout : Nat) : Job :=
  match job.handle? hin, job.handle? hout with
  | some a, some o => { job with handles := job.handles.set hout { o with noise := a.noise, ash := a.ash } }
  | _, _ => job

/-- The step of BATCH_BOOTSTRAP: kind 0x0A over its sample ranges (R158). -/
def batchStep (o : LopInst) : StepArgs :=
  { kind := 0x0A, hina := o.op.hina, hout := o.op.hout, inFirst := bits o.op.a64 0 32, first := bits o.op.a64 32 32, samples := o.opnd }

/-- BATCH_BOOTSTRAP (R157), or the standby that copies its guard's rows (R80). -/
def execBatchBootstrap (t index sa : Nat) (s : State) : Host.Outcome State Fault Refusal :=
  onTile t s fun s => s.issueLop t index sa lopBatch fun j im o s =>
    if (s.job j).isStandby im index then
      (if t = (s.job j).lead then s.updJob j fun x => x.copyGuard o.op.hina o.op.hout else s).enqueueGroup t j { o with standby := true } none o.op.hina id
    else s.enqueueGroup t j o (some (batchStep o)) o.op.hina fun s => s.residentCheck j im o

/-- Whether every position that the tile already holds lies below N (R165). -/
def State.positionsValid (s : State) (t j : Nat) (o : LopInst) : Bool :=
  let rows := regionRows (o.rgnB.1, min (ceilDiv o.opnd 1024) o.rgnB.2)
  let n := ((s.set? ((s.job j).setOf o.op.hina)).map fun p => p.n).getD 0
  rows.any (fun r => s.tag t r ≠ .full) ||
    (List.range o.opnd).all fun i => laneAt (s.rowsAt t o.rgnB) (i / 1024) (i % 1024) % 2 ^ 32 < n

/-- The step of EXTRACT: kind 0x09 (R164, R165). -/
def extractStep (o : LopInst) (valid : Bool) : StepArgs :=
  { kind := 0x09, hina := o.op.hina, hout := o.op.hout, first := bits o.op.a64 32 32, samples := o.opnd, extra := valid }

/-- EXTRACT (R165). -/
def execExtract (t index sa : Nat) (s : State) : Host.Outcome State Fault Refusal :=
  onTile t s fun s => s.issueLop t index sa lopExtract fun j im o s =>
    s.enqueueGroup t j o (some (extractStep o (s.positionsValid t j o))) o.op.hina fun s => s.residentCheck j im o

/-- The step of PACK: kind 0x0B at the named level, which is its key's USE_LEVEL, and SCALE (R75, R166). -/
def packStep (im : Image) (o : LopInst) : StepArgs :=
  { kind := 0x0B, hina := o.op.hina, hout := o.op.hout, inFirst := bits o.op.a64 0 32, samples := o.opnd
    level := bits o.op.b64 0 8, scale := signed 16 (bits o.op.b64 16 16), useLevel := im.useLevel o }

/-- PACK (R166). -/
def execPack (t index sa : Nat) (s : State) : Host.Outcome State Fault Refusal :=
  onTile t s fun s => s.issueLop t index sa lopPack fun j im o s =>
    s.enqueueGroup t j o (some (packStep im o)) o.op.hina fun s => s.residentCheck j im o

/-- The step of MODRAISE: kind 0x0C (R169). -/
def modraiseStep (o : LopInst) : StepArgs := { kind := 0x0C, hina := o.op.hina, hout := o.op.hout }

/-- MODRAISE (R169). -/
def execModraise (t index sa : Nat) (s : State) : Host.Outcome State Fault Refusal :=
  onTile t s fun s => s.issueLop t index sa lopModraise fun j _im o s => s.enqueueGroup t j o (some (modraiseStep o)) o.op.hina id

/-- The step of LEDGER: the kind in MODE, with the operands of Table 10-2. -/
def explicitStep (o : LopInst) : StepArgs :=
  { kind := o.op.mode, hina := o.op.hina, hinb := o.op.hinb, hout := o.op.hout, opnd := o.opnd, const := signed 64 o.op.a64, level := bits o.opnd 0 8 }

/-- LEDGER: its step is evaluated at issue; it takes no engine (R74, R75, R222). -/
def execLedger (t index sa : Nat) (s : State) : Host.Outcome State Fault Refusal :=
  onTile t s fun s => s.issueLop t index sa lopLedger fun j _im o s =>
    (s.updTile t fun x => { x with nextOp := x.nextOp + 1 }).ledgerStep t j o (explicitStep o)

/-! ### Dispatch (R222) -/

/-- A twiddle-store entry used by a transform: it is the most recent of at most 32 (R97). -/
def Tile.useTwiddle (x : Tile) (set limb : Nat) : Tile :=
  let l := x.twiddles.erase (set, limb) ++ [(set, limb)]
  { x with twiddles := l.drop (l.length - 32) }

/-- The twiddle entries that an operation's transforms use: those of an NTT, of a batch's accumulator, of the inverse transform
of an EXTRACT and of the packed polynomials of a PACK (R94, R97, R149, R165, R166). -/
def State.twiddlesOf (s : State) (t j : Nat) (o : LopInst) : List (Nat × Nat) :=
  match s.runShape t j o with
  | none => []
  | some x =>
    let c := o.op.code
    let limbs (first n : Nat) : List (Nat × Nat) := (List.range n).map fun i => (x.p.setId, first + i)
    if c = lopNtt then limbs o.qm.limb o.op.limbs
    else if c = lopBatch ∧ !o.standby then limbs 0 x.p.limbs
    else if c = lopExtract then (if ((s.job j).handle? o.op.hina).any fun h => h.nttForm then limbs 0 1 else [])
    else if c = lopPack then limbs 0 (bits o.op.b64 0 8)
    else []

/-- The oldest queued operation of an engine dispatches where it may: reads of a remote source leave, and key rows already FULL are taken. -/
def State.dispatch (s : State) (t : Nat) (e : Engine) : State :=
  match (s.tile t).oldestFor e, s.jobOfTile t with
  | some o, some j =>
    match (s.job j).image with
    | none => s
    | some im =>
      if (s.job j).state = .running && s.mayDispatch t j im o then
        let s := (s.startLop t j o).updTile t fun x => (s.twiddlesOf t j o).foldl (fun x e => x.useTwiddle e.1 e.2) x
        (s.sendReads t j im o).feedTile t
      else s
  | _, _ => s

/-- LONG_OP_DISPATCH (R222). -/
def execLongOpDispatch (t : Nat) (engine : Engine) (s : State) : Host.Outcome State Fault Refusal := onTile t s fun s => s.dispatch t engine

/-! ### Progress and finish -/

/-- LONG_OP_FINISH (R218, R270). -/
def execLongOpFinish (t opId : Nat) (ecc : Ecc) (s : State) : Host.Outcome State Fault Refusal := onTile t s fun s => s.finishLop t opId ecc

/-- Whether a running base conversion waits for a constant line (R102). -/
def State.awaitsLine (s : State) (t line : Nat) : Bool :=
  match s.jobOfTile t with
  | none => false
  | some j => (s.tile t).running.any fun o => (s.runShape t j o).any fun x => (s.constWait t x o).contains line

/-- A line enters the constant cache of 16 lines, the oldest leaving a full one (R102, log entry 14). -/
def Tile.fillConstLine (x : Tile) (line : Nat) : Tile :=
  let l := x.constLines.erase line ++ [line]
  { x with constLines := l.drop (l.length - 16) }

/-- CONSTANT_LINE_FILL (R102). -/
def execConstantLineFill (t line : Nat) (s : State) : Host.Outcome State Fault Refusal :=
  onTile t s fun s => if s.awaitsLine t line then s.updTile t fun x => x.fillConstLine line else s

/-- FETCH_ROW_WRITE (R230, R232). -/
def execFetchRowWrite (t opId : Nat) (data : List Byte) (ecc : Ecc) (s : State) : Host.Outcome State Fault Refusal :=
  onTile t s fun s => s.fetchRow t opId data ecc

/-- XFER_VERIFY_MATCH (R233). -/
def execXferVerifyMatch (t opId : Nat) (s : State) : Host.Outcome State Fault Refusal := onTile t s fun s => s.verifyMatch t opId

/-- SIGNAL_COMPLETION (R235). -/
def execSignalCompletion (t opId status : Nat) (s : State) : Host.Outcome State Fault Refusal := onTile t s fun s => s.signalDone t opId status

/-! ### Timeouts (R229) -/

/-- Whether a running operation waits on a row's tag. -/
def State.waitsOn (s : State) (t j : Nat) (im : Image) (o : LopInst) (row : Nat) : Bool :=
  o.waitRow = some row || (s.firstWait t j o = some row && s.tag t row = .empty)
    || ((s.firstWait t j o).isNone && !o.standby && o.op.keyEntries.any fun e => s.keyWait t j im o e = some row)

/-- A hold of the bundles, or an engine's wait, on a row's tag that has outlasted the duration bound in force ends the job (R229). -/
def State.waitTimeout (s : State) (t unit row : Nat) : State :=
  match s.jobOfTile t with
  | none => s
  | some j =>
    match (s.job j).image with
    | none => s
    | some im =>
      let x := s.tile t
      let late (since : Nat) : Bool := since + s.durationBound j < s.now
      if (s.job j).state ≠ .running then s
      else if unit = 0 then
        if x.run = .held ∧ (Tab.get? x.heldRows row).any late then
          s.faultTile t { count := x.sched, bundle := x.nextBundle, code := WAIT_TIMEOUT, target := row, slot := slotM, targetKind := 2 }
        else s
      else
        match x.running.find? fun o => (enginesOf o.op.code).any (fun e => engineUnit e = unit) && s.waitsOn t j im o row && late o.waitAt with
        | some o => s.failLop t WAIT_TIMEOUT o row 2
        | none => s

/-- WAIT_TIMEOUT (R229). -/
def execWaitTimeout (t unit row : Nat) (s : State) : Host.Outcome State Fault Refusal := onTile t s fun s => s.waitTimeout t unit row

end Sys2Proof.Machine
end

