-- ==== Sys2Proof/Machine/Heat.lean ====
section
/-! DEFINITION. The heat ledger: operating points, phase admission, steps up and down, tile sleep, deep idle (R342-R360). -/

namespace Sys2Proof.Machine

/-! ### Operating points (Table 16-1) -/

/-- The clock of a point, MHz. -/
def pointClock (x : Nat) : Nat := [1050, 900, 750].getD x 525

/-- The voltage of a point, mV. -/
def pointMv (x : Nat) : Nat := [700, 630, 570].getD x 500

/-- The power factor F of a point. -/
def pointFactor (x : Nat) : Nat := [256, 178, 122].getD x 66

/-- GroupPoint. -/
def State.groupPoint (s : State) (j : Nat) : Nat := s.entry (0xA080 + j) 2

/-- The certificate's operating point (R346). -/
def Job.certPoint (x : Job) : Nat := (x.image.map fun im => im.cert.point).getD 0

/-- The energy class of a phase (Table 11-5). -/
def Job.phaseClass (x : Job) (phase : Nat) : Nat := ((x.image.bind fun im => im.phases[phase]?).map fun p => p.2).getD 0

/-- FloorPoint. -/
def State.floorPoint (s : State) : Nat := s.entry 0xA010 3

/-! ### Projections, mean and commitments (R352, R353) -/

/-- The projected power of `n` tiles in energy class `c` at a point, mW (R353). -/
def State.tilesPower (s : State) (n c x : Nat) : Nat := ceilDiv (s.entry 0xA020 (c + 1) * pointFactor x) 256 * n

/-- The projection of a job's phase at a point. -/
def State.projection (s : State) (j phase x : Nat) : Nat := s.tilesPower (s.job j).group.length ((s.job j).phaseClass phase) x

/-- P_mean: the mean of the last 10 samples, in whole mW (R352). -/
def State.meanPower (s : State) : Nat := s.heat.samples.sum / max 1 s.heat.samples.length

/-- C: the increases granted within the last 100 us (R352). -/
def State.committed (s : State) : Nat := ((s.heat.grants.filter fun g => s.now < g.1 + 100000).map fun g => g.2).sum

/-- PowerBudget less GuardMargin, mW. -/
def State.powerLimit (s : State) : Int := 1000 * ((s.entry 0xA010 1 : Int) - (s.entry 0xA010 2 : Int))

/-- The projection in force for a group. -/
def State.inForce (s : State) (j : Nat) : Nat := s.entry (0xA080 + j) 4

/-- Whether an increase of the projection fits (R354, R357). -/
def State.fits (s : State) (d : Int) : Bool := decide ((s.meanPower : Int) + s.committed + d ≤ s.powerLimit)

/-- A granted increase joins C (R352). -/
def State.grantPower (s : State) (d : Int) : State :=
  if 0 < d then { s with heat := { s.heat with grants := s.heat.grants ++ [(s.now, d.toNat)] } } else s

/-! ### The clock switch (R345, R246) -/

/-- The bound in force after a change of clock: the part still remaining is scaled (R246). -/
def rescaleBound (bound elapsed oldClock newClock : Nat) : Nat := min bound elapsed + ceilDiv ((bound - elapsed) * oldClock) newClock

/-- Whether an engine of a tile has work (R411): 0 the sequencer, 1 to 4 the engines of running operations, 5 the SHAKE128 core. -/
def State.hasWork (s : State) (t j e : Nat) : Bool :=
  let x := s.tile t
  if e = 0 then x.run = .issuing || x.run = .held
  else if e = 5 then (List.range 16).any fun k => (s.stream k).bound && (s.stream k).job = j && ((s.stream k).header.any fun h => h.seeded)
  else x.running.any fun o => (enginesOf o.op.code).any fun n => engineUnit n = e

/-- The stop of a clock switch, 100 ns, counted in cycles of the new point by every engine with work (R345); a sequencer that waits
at a barrier counts it in place of BARRIER, one whose bundle waits for a cause that ranks higher counts that cause (R411). -/
def State.switchStop (s : State) (t j x : Nat) : State :=
  let y := s.tile t
  let counts (e : Nat) : Bool := s.hasWork t j e && (e ≠ 0 || y.waitCause ≠ 255 || y.run ≠ .held)
  let s := (List.range 6).foldl (fun s e => if counts e then s.stall t e causePower (cyclesAt x 100) else s) s
  s.updTile t fun y => { y with waitAt := if y.waitCause = 255 then y.waitAt else s.now + 100 }

/-- A group's islands switch their clock: what was counted ran at the old clock, the new point is in force and the bound is rescaled (R345). -/
def State.switchClock (s : State) (j x : Nat) : State :=
  let old := s.groupPoint j
  if x = old then s
  else
    let job := s.job j
    let s := s.settleJob j
    let bound := rescaleBound (s.durationBound j) (s.now - job.startedAt) (pointClock old) (pointClock x)
    let s := { s with heat := { s.heat with ramps := s.heat.ramps.filter fun r => r.job ≠ j } }
    let s := (((s.setEntry (0x6100 + j) 0x0B bound).setEntry (0xA080 + j) 2 x).bump (0xA080 + j) 5 100).bump 0xA060 5 (x - old)
    job.group.foldl (fun s t => (s.setEntry (0xA0C0 + t) 2 x).switchStop t j x) s

/-- A group moves to a point, with the projection that its phase then has. -/
def State.movePoint (s : State) (j x : Nat) : State :=
  let s := s.switchClock j x
  s.setEntry (0xA080 + j) 4 (s.projection j (s.entry (0xA080 + j) 3) x)

/-! ### Letting a group go (R236, R253, R355) -/

/-- A tile resumes from a barrier or a hold of the ledger (R236, R351). -/
def State.resumeTile (s : State) (t : Nat) : State :=
  ((s.wakeTile t).endWait t).updTile t fun x => { x with run := .issuing, barWait := .none, holdCause := 255 }

/-- Every tile of the group issues again. -/
def State.letGo (s : State) (j : Nat) : State := (s.job j).group.foldl (fun s t => s.resumeTile t) s

/-- The ledger's hold of a job ends: its time joins PowerHoldTime and the bound (R246, R355). -/
def State.endHold (s : State) (j : Nat) : State :=
  match (s.job j).powerHeld with
  | none => s
  | some h =>
    let n := s.now - h
    ((s.settleJob j).bump (0xA080 + j) 5 n).setEntry (0x6100 + j) 0x0B (s.durationBound j + n) |>.updJob j fun x => { x with powerHeld := none }

/-! ### Phase admission (R354, R355) -/

/-- The points that a request tries, from the group's point down to FloorPoint; HOLD_ONLY tries the first alone (R354). -/
def State.pointsTried (s : State) (j : Nat) : List Nat :=
  let x := s.groupPoint j
  let l := (List.range (s.floorPoint + 1 - x)).map fun i => x + i
  if s.entry (0xA080 + j) 1 = 1 then l.take 1 else l

/-- The first point that fits. -/
def State.choosePoint (s : State) (j phase : Nat) : Option Nat :=
  (s.pointsTried j).find? fun x => s.fits ((s.projection j phase x : Int) - s.inForce j)

/-- The phase is admitted at a point, and the group goes (R354). -/
def State.admitPhase (s : State) (j phase x : Nat) : State :=
  let s := s.grantPower ((s.projection j phase x : Int) - s.inForce j)
  (((s.setEntry (0xA080 + j) 3 phase).endHold j).movePoint j x).letGo j

/-- Requests of the same 10 us stand in ascending job slot (R354). -/
def insertReq (r : PhaseReq) : List PhaseReq → List PhaseReq
  | [] => [r]
  | q :: qs => if r.since / 10000 < q.since / 10000 ∨ (r.since / 10000 = q.since / 10000 ∧ r.job < q.job) then r :: q :: qs else q :: insertReq r qs

/-- What DETAIL0 of POWER_HOLD names: the request's job slot and phase (Table 18-7). -/
def reqDetail (j phase : Nat) : Nat := j * 65536 + phase

/-- A request is held: every tile of the group stays where it is (R355). -/
def State.holdRequest (s : State) (j phase : Nat) : State :=
  let s := (s.job j).group.foldl (fun s t => s.wakeTile t) s
  let s := s.updJob j fun x => { x with powerHeld := some s.now }
  let s := (s.job j).group.foldl (fun s t => (s.startWait t causePower).updTile t fun x => { x with run := .held, holdCause := causePower }) s
  let s := { s with heat := { s.heat with held := insertReq { job := j, phase := phase, point := s.groupPoint j, since := s.now } s.heat.held } }
  (s.bump 0xA060 6 1).raise 0xB090 j OK (reqDetail j phase) 0

/-- A phase requests admission: held behind an older held request, else decided (R354). -/
def State.requestPhase (s : State) (j phase : Nat) : State :=
  if !s.heat.held.isEmpty then s.holdRequest j phase
  else
    match s.choosePoint j phase with
    | some x => s.admitPhase j phase x
    | none => s.holdRequest j phase

/-- Held requests are decided again in order, until one is held still (R354). -/
def State.decideHeld (s : State) : List PhaseReq → State
  | [] => s
  | r :: rs =>
    match s.choosePoint r.job r.phase with
    | none => s
    | some x =>
      let s := { s with heat := { s.heat with held := s.heat.held.filter fun q => q.job ≠ r.job } }
      (s.admitPhase r.job r.phase x).decideHeld rs

/-- A job's requests, ramps and projection leave the ledger with the job. -/
def State.leaveLedger (s : State) (j : Nat) : State :=
  let h := s.heat
  ({ s with heat := { h with held := h.held.filter fun q => q.job ≠ j, ramps := h.ramps.filter fun r => r.job ≠ j, thermalAt := Tab.erase h.thermalAt j } }).setEntry
    (0xA080 + j) 4 0

/-! ### Samples and the budget (R352, R356) -/

/-- Whether a voltage lies in the operating range, mV (Table 21-2). -/
def inputInRange (mv : Nat) : Bool := 50000 ≤ mv && mv ≤ 60000

/-- The input at a sample: its readings, the lowest voltage, the samples out of range, and since when it is back (R420, R429, R436). -/
def State.inputSample (s : State) (mv ma : Nat) : State :=
  let low := s.entry 0xC000 4
  let s := ((s.setEntry 0xC000 1 mv).setEntry 0xC000 2 ma).setEntry 0xC000 4 (if low = 0 then mv else min low mv)
  if inputInRange mv then
    ({ s with heat := { s.heat with outSamples := 0 }
              inputBackSince := if s.inputBackSince.isNone then some s.now else s.inputBackSince }).setEntry 0xC000 3 0
  else { s with heat := { s.heat with outSamples := s.heat.outSamples + 1 }, inputBackSince := none }

/-- A 10 us sample: the mean, the peak, the time over budget; held requests are decided again (R352, R354, R356). -/
def State.powerSample (s : State) (mw : Nat) : State :=
  let h := s.heat
  let s := { s with heat := { h with samples := (h.samples ++ [mw]).drop (h.samples.length + 1 - 10), grants := h.grants.filter fun g => s.now < g.1 + 100000 } }
  let s := s.setEntry 0xA060 2 (max mw (s.entry 0xA060 2))
  let s := if 1000 * s.entry 0xA010 1 < s.meanPower then s.bump 0xA060 4 10000
    else { s with heat := { s.heat with lastOver := none, overNoted := false } }
  s.decideHeld s.heat.held

/-- POWER_SAMPLE (R352). -/
def execPowerSample (inputMw voltageMv currentMa : Nat) (s : State) : Host.Outcome State Fault Refusal := 
  let s := s.inputSample voltageMv currentMa
  .next (if s.hostPowered then s.powerSample inputMw else s)

/-- A group that runs: its job is RUNNING or DRAINING and its descriptors are bound. -/
def Job.runs (x : Job) : Bool := x.active && x.bindNext.isNone

/-- The running group at the fastest point above FloorPoint; ties go to the highest job slot (R356). -/
def State.stepTarget (s : State) : Option Nat :=
  let c := jobSlots.filter fun j => (s.job j).runs && s.groupPoint j < s.floorPoint
  (List.range 4).findSome? fun x => c.reverse.find? fun j => s.groupPoint j = x

/-- P_mean exceeds PowerBudget: one group steps down, every 100 us; when none can, event 0xB091, once for the excess (R356). -/
def State.overBudgetStep (s : State) : State :=
  if s.meanPower ≤ 1000 * s.entry 0xA010 1 then s
  else if s.heat.lastOver.any fun m => s.now < m + 100000 then s
  else
    match s.stepTarget with
    | some j => ({ s with heat := { s.heat with lastOver := some s.now } }).movePoint j (s.groupPoint j + 1)
    | none =>
      if s.heat.overNoted then s
      else ({ s with heat := { s.heat with overNoted := true } }).raise 0xB091 0xFF OK s.meanPower 0

/-- OVER_BUDGET_STEP (R356). -/
def execOverBudgetStep (s : State) : Host.Outcome State Fault Refusal := .next s.overBudgetStep

/-- The slowest of a group's point, its CERT_POINT and FloorPoint: where HoldLimit admits (R346, R355). -/
def State.overrunPoint (s : State) (j : Nat) : Nat := max (s.groupPoint j) (max (s.job j).certPoint s.floorPoint)

/-- A request held for HoldLimit is admitted at FloorPoint regardless (R355). -/
def State.holdLimitExpiry (s : State) : State :=
  let limit := s.entry 0xA010 4
  match s.heat.held.find? fun r => limit ≠ 0 && decide (r.since + 1000 * limit ≤ s.now) with
  | none => s
  | some r =>
    let s := { s with heat := { s.heat with held := s.heat.held.filter fun q => q.job ≠ r.job } }
    (s.admitPhase r.job r.phase (s.overrunPoint r.job)).raise 0xB090 r.job OK (reqDetail r.job r.phase) 1

/-- HOLD_LIMIT_EXPIRY (R355). -/
def execHoldLimitExpiry (s : State) : Host.Outcome State Fault Refusal := .next s.holdLimitExpiry

/-! ### Steps up (R345, R357) -/

/-- Whether every junction sensor of a group reads at least 5 degrees C below ThermalLimit (R358). -/
def State.groupCool (s : State) (j : Nat) : Bool :=
  (s.job j).group.all fun t => decide (signed 16 (s.entry (0xA0C0 + t) 5) ≤ 16 * ((s.entry 0xA070 1 : Int) - 5))

/-- The lowest-numbered slot whose group runs slower than its CERT_POINT with every tile in T0 or T1 (R357). -/
def State.raiseTarget (s : State) : Option Nat :=
  jobSlots.find? fun j => (s.job j).runs && (s.job j).certPoint < s.groupPoint j && (s.job j).group.all fun t => s.tileState t ≤ 1

/-- A step up begins: the voltage ramps at the old clock, and the increase joins C (R345, R357). -/
def State.startRamp (s : State) (j : Nat) : State :=
  let x := s.groupPoint j - 1
  let d := (s.projection j (s.entry (0xA080 + j) 3) x : Int) - s.inForce j
  let hot := (Tab.get? s.heat.thermalAt j).isSome
  if s.heat.ramps.any (fun r => r.job = j) ∨ (hot ∧ !s.groupCool j) ∨ !s.fits d then s
  else
    let s := s.grantPower d
    { s with heat := { s.heat with ramps := s.heat.ramps ++ [{ job := j, target := x, startedAt := s.now }], thermalAt := Tab.erase s.heat.thermalAt j } }

/-- Every RaiseInterval, provided no request is held (R357). -/
def State.raiseCheck (s : State) : State :=
  if s.now < s.heat.lastRaise + 1000 * s.entry 0xA010 5 then s
  else
    let s := { s with heat := { s.heat with lastRaise := s.now } }
    if !s.heat.held.isEmpty then s
    else match s.raiseTarget with | some j => s.startRamp j | none => s

/-- RAISE_CHECK (R357). -/
def execRaiseCheck (s : State) : Host.Outcome State Fault Refusal := .next s.raiseCheck

/-- The voltage of a step up is reached, at 10 mV/us: the clock switches, while no tile of the group is in T2 or T3 (R345, R349). -/
def State.pointChange (s : State) (j : Nat) : State :=
  match s.heat.ramps.find? fun r => r.job = j with
  | none => s
  | some r => 
    if s.now < r.startedAt + 100 * (pointMv r.target - pointMv (s.groupPoint j)) ∨ (s.job j).group.any (fun t => 2 ≤ s.tileState t) then s
    else s.movePoint j r.target

/-- POINT_CHANGE (R345). -/
def execPointChange (job : Nat) (s : State) : Host.Outcome State Fault Refusal := onJob job s fun s => s.pointChange job

/-! ### Junction sensors (R358) -/

/-- A sensor at or above ThermalLimit steps its tile's group down one point, every 100 us, down to P3. -/
def State.thermalStep (s : State) (t : Nat) (temp16 : Int) : State :=
  let s := s.setEntry (0xA0C0 + t) 5 (unsigned 64 temp16)
  match s.jobOfTile t with
  | none => s
  | some j =>
    let due : Bool := match Tab.get? s.heat.thermalAt j with | some m => decide (m + 100000 ≤ s.now) | none => true
    if (s.job j).runs ∧ 16 * (s.entry 0xA070 1 : Int) ≤ temp16 ∧ due ∧ s.groupPoint j < 3 then
      let s := ({ s with heat := { s.heat with thermalAt := Tab.put s.heat.thermalAt j s.now } }).movePoint j (s.groupPoint j + 1)
      (s.bump 0xA070 2 1).raise 0xB092 j OK t (unsigned 64 temp16)
    else s

/-- THERMAL_STEP (R358). -/
def execThermalStep (t : Nat) (temp16 : Int) (s : State) : Host.Outcome State Fault Refusal :=
  onTile t s fun s => if s.tileEnabled t then s.thermalStep t temp16 else s

/-! ### Tile power states (R347-R351) -/

/-- The exit latency of a state, ns: T1 takes 4 cycles of the tile's clock (Table 16-2). -/
def exitLatency (state point : Nat) : Nat := if state = 1 then ceilDiv 4000 (pointClock point) else if state = 2 then 3000 else 40000

/-- Break-even, ns (Table 16-2). -/
def breakEven (state : Nat) : Nat := if state = 2 then 20000 else if state = 3 then 200000 else 0

/-- The deepest state that a barrier wait of Δ ns allows, none for T0 (R349). -/
def sleepChoice (sleepEnable : Bool) (point d : Nat) : Option Nat :=
  (if sleepEnable then [3, 2, 1] else [1]).find? fun n => exitLatency n point + breakEven n + 2000 ≤ d

/-- The tile has halted: results in flight written, stores landed, long operations drained (R199),
and no verify read outstanding, with which their writes complete (R272). -/
def Tile.hasHalted (x : Tile) : Bool :=
  x.run = .halted && x.flight.isEmpty && (x.stores.all fun m => m.landed) && x.queue.isEmpty && x.running.isEmpty && x.signalsOut.isEmpty
    && x.verifyDue.isEmpty

/-- Whether a transfer of another tile writes into this tile's window. -/
def State.writesWindow (s : State) (j : Nat) (im : Image) (u t : Nat) : Bool :=
  ((s.tile u).queue ++ (s.tile u).running).any fun o =>
    o.op.code = lopXferOut &&
      (let x := s.transferShape j im o
       (s.windowTouched x.1 (s.job j).group (s.outAddresses u j x o)).any fun e => e.1 = t)

/-- No open stream and no unfinished transfer has a destination in the tile (Table 16-3). -/
def State.quietTile (s : State) (j t : Nat) : Bool :=
  !((List.range 16).any fun k => (s.stream k).bound && (s.stream k).job = j)
    && (s.tile t).windowPuts.isEmpty && (s.tile t).windowLanded.isEmpty
    && (match (s.job j).image with | none => true | some im => !((s.job j).group.any fun u => s.writesWindow j im u t))

/-- Whether a tile waits at a barrier after its arrival. -/
def Tile.atBarrier (x : Tile) : Bool := match x.barWait with | .arrived _ => true | _ => false

/-- The state that a tile may enter and the moment its exit starts (Table 16-3, R349).
The operand is the ledger's bound: bundles until the BAR of the slowest tile that has not arrived. -/
def State.sleepPlan (s : State) (t bundles : Nat) : Option (Nat × Option Nat) :=
  match s.jobOfTile t with
  | none => if s.conversion.any (fun c => c.tile = t) then none else some (s.entry 0xA030 1, none)
  | some j =>
    let x := s.tile t
    let job := s.job j
    if job.state = .loaded then some (3, none)
    else if !job.active then none
    else if x.hasHalted then some (s.entry 0xA030 3, none)
    else if x.atBarrier ∧ job.powerHeld.isNone ∧ s.quietTile j t then
      let p := s.groupPoint j
      let d := bundles * 1000 / pointClock p
      (sleepChoice (s.entry 0xA030 2 = 1) p d).map fun n => (n, some (s.now + d - exitLatency n p - 2000))
    else none

/-- T4 keeps nothing: scratchpad, registers and instruction cache are lost (Table 16-2). -/
def State.tileOff (s : State) (t : Nat) : State :=
  ((s.setBanks t 0).updTile t fun x =>
    { bankEpochs := x.bankEpochs, quenched := x.quenched, leaseEpoch := x.leaseEpoch, leaseAt := x.leaseAt, recoverBy := x.recoverBy
      windowPuts := x.windowPuts, windowLanded := x.windowLanded, windowGets := x.windowGets }).settleLanded t

/-- A tile enters a power state; a wait at a barrier goes on being counted as BARRIER (R351). -/
def State.enterSleep (s : State) (t n : Nat) (wake : Option Nat) : State :=
  let s := if n = 4 then s.tileOff t else s
  let s := if n = 2 ∨ n = 3 then s.bump (0xA0C0 + t) 3 1 else s
  (s.updTile t fun x => { x with sleepAt := s.now, wakeAt := wake }).setEntry (0xA0C0 + t) 1 n

/-- A tile enters the state that Table 16-3 allows it, deeper than its own. -/
def State.sleepTile (s : State) (t bundles : Nat) : State :=
  if !s.tileEnabled t then s
  else
    match s.sleepPlan t bundles with
    | none => s
    | some p =>
      let old := s.tileState t
      if p.1 ≤ old then s
      else if old = 0 then s.enterSleep t p.1 p.2
      else (s.wakeTile t).enterSleep t p.1 p.2

/-- TILE_SLEEP_ENTRY (R348, R349). -/
def execTileSleepEntry (t bundlesToBar : Nat) (s : State) : Host.Outcome State Fault Refusal := onTile t s fun s => s.sleepTile t bundlesToBar

/-- TILE_WAKE: the exit that was planned starts (R349); accesses, aborts and releases wake the tile themselves (R350). -/
def execTileWake (t : Nat) (s : State) : Host.Outcome State Fault Refusal :=
  onTile t s fun s => if (s.tile t).wakeAt.any fun m => m ≤ s.now then s.wakeTile t else s

/-! ### Deep idle (R359) -/

/-- DEEP_IDLE_ENTER: 1 written to DeepIdle. -/
def execDeepIdleEnter (ctx : Nat) (s : State) : Host.Outcome State Fault Refusal :=
  .next (s.writeEntry ctx 0xA040 1 1 fun s => s.applyEntry ctx 0xA040 1 1)

/-- DEEP_IDLE_LEAVE: 0 written to DeepIdle. -/
def execDeepIdleLeave (ctx : Nat) (s : State) : Host.Outcome State Fault Refusal :=
  .next (s.writeEntry ctx 0xA040 1 0 fun s => s.applyEntry ctx 0xA040 1 0)

/-- The device becomes IDLE: DeepIdleAfter counts from here. -/
def State.noteIdle (s : State) : State := if s.idle then { s with heat := { s.heat with idleSince := s.now } } else s

/-- DEEP_IDLE_AUTO: DeepIdleAfter in IDLE. -/
def execDeepIdleAuto (s : State) : Host.Outcome State Fault Refusal :=
  let after := s.entry 0xA040 3
  .next (if s.ready ∧ s.idle ∧ !s.deepIdle ∧ after ≠ 0 ∧ s.heat.idleSince + 1000000000 * after ≤ s.now then s.enterDeepIdle else s)

end Sys2Proof.Machine
end

