-- ==== Sys2Proof/Machine/Timing.lean ====
section
/-! DEFINITION. What the duration bound is computed from: busy and finish times of long operations, key deliveries, line fetches, barriers, replays, leads
(R98, R106, R119, R137, R142, R162, R165, R168, R218, R249, R291). -/

namespace Sys2Proof.Machine

/-! ### Cycles (Table 10-2) -/

/-- Cycles of the conversion stage for `v` values (R119). -/
def stageCycles (op : LongOp) (v : Nat) : Nat := if op.code = lopXferIn then ceilDiv (max (2 * v) (v * cwLevel op.b64)) 512 else ceilDiv v 256

/-- Cycles of the runs of a transfer: two granules a cycle for an aligned run, else one, over the granules that it touches (R135, R137). -/
def runCycles (ordered : Bool) (runs : List (Nat × Nat)) : Nat :=
  (runs.map fun r => if !ordered && r.1 % 2048 = 0 && r.2 % 2048 = 0 then ceilDiv r.2 4096 else (r.1 + r.2 - 1) / 2048 + 1 - r.1 / 2048).sum

/-- Butterflies of a transform (Table 7-3). -/
def butterflies (n : Nat) : Nat := n / 2 * Nat.log2 n

/-- O, the cycles of one sample of a batch bootstrap under a key switch of `d` digits (R162, Table 7-3). -/
def ParamSet.sampleCycles (p : ParamSet) (d : Nat) : Nat :=
  let k := p.glweK
  let n := p.lweN
  let m := p.limbs
  let c := if p.lweModKind = 1 then 2 else 1
  let bf := ceilDiv n 3 * (k + 1) * m * (p.decompLevels + 1) * butterflies p.n + (k + 1) * m * butterflies p.n
  let products := (n + 1) + m * p.n + p.ggswCount * (k + 1) * (k + 1) * p.decompLevels * m * p.n + m * (k * p.n + 1) + k * p.n * d * (n + 1) * c
  ceilDiv (bf + products) 3072

/-- Cycles of one sample of an EXTRACT from ring dimension `n` (R165). -/
def ParamSet.extractCycles (g : ParamSet) (n d : Nat) : Nat := ceilDiv (n + 1 + n * d * (g.lweN + 1) * (if g.lweModKind = 1 then 2 else 1)) 3072

/-- Cycles of a PACK at level `l` over a group (R168). -/
def ParamSet.packCycles (p : ParamSet) (lweN d l group : Nat) : Nat :=
  ceilDiv (lweN * d * l * butterflies p.n + 2 * lweN * d * l * p.n) 3072 + 2 * l * rowsPer p.n * (group - 1)

/-- The most digits that a key of an entry can have by its WIRE_LENGTH (Tables 8-2, 8-3). -/
def StreamEntry.mostDigits (e : StreamEntry) (p g : ParamSet) : Nat :=
  let fits (d : Nat) : Bool := (List.range g.limbs).any fun l => [0, 1].any fun f =>
    e.wireLength = 136 + KeyHeader.derivedLength { (default : KeyHeader) with kind := e.kind, digits := d, levelHi := l + 1, flags := f } p g
  (((List.range 12).reverse.map fun i => i + 1).find? fits).getD 12

/-- What a rank's busy time hangs on beside the entry: the sets, the group, the LEVEL and components that the operation's step sees. -/
structure BusyContext where
  im : Image
  sets : Nat → Option ParamSet
  rank : Nat
  level : Nat
  comps : Nat

/-- The set that a handle declares. -/
def BusyContext.setOf (x : BusyContext) (h : Nat) : ParamSet := (x.sets (x.im.decl h).set).getD default

/-- The digits of the key of a stream entry. -/
def BusyContext.digits (x : BusyContext) (entry : Nat) (p g : ParamSet) : Nat := (x.im.streams.getD entry default).mostDigits p g

/-- Busy cycles of a transfer: its runs, and its conversion (R119, R137). -/
def BusyContext.moveCycles (x : BusyContext) (op : LongOp) : Nat :=
  let d := (x.im.layoutOf op.tab).getD (canonicalLayout (if op.code = lopXferIn then op.rgnD.2 else op.rgnA.2) 1024)
  let y := d.shape d.validRows none
  let share := y.share (if d.stripe = 0 then 1 else x.im.groupSize) (if d.stripe = 0 then 0 else x.rank)
  let ordered := op.code = lopXferOut && d.reduce = 0 && d.ordered
  let moved := runCycles ordered (runsOf (ewBits d.ew) (y.moveOrder op.a64 share ordered))
  let set := (x.sets (cwSet op.b64)).getD default
  if op.converts then max moved (stageCycles op (x.im.convertCount op set)) else moved

/-- Busy cycles of an operation (Table 10-2); `qm` is the set that QM names. -/
def BusyContext.busy (x : BusyContext) (op : LongOp) (qm : ParamSet) : Nat :=
  let c := op.code
  let g := x.im.groupSize
  let p := x.setOf (if c = lopPack ∨ c = lopModdown then op.hout else op.hina)
  let shape : RunShape := { p := p, g := g, rank := x.rank }
  let kept := shape.keptLimbs x.level
  if c = lopNtt then (if qm.n = 512 then 9 * ceilDiv (op.comps * op.limbs) 2 else op.comps * op.limbs * nttCycles (Nat.log2 qm.n))
  else if c = lopAutomorph then op.comps * op.limbs * rowsPer qm.n
  else if c = lopTranspose then op.rgnA.2
  else if c = lopBconv then op.comps * bconvCycles qm.n op.limbs (bits op.opnd 16 8 + bits op.opnd 0 8)
  else if c = lopRescale then x.comps * bconvCycles (1024 * shape.rowsT) 1 (x.level - 1)
  else if c = lopKsip then kept.length * rowsPer p.n * max (8 * ceilDiv op.opnd 8) (3 * op.opnd)
  else if c = lopModdown then 2 * bconvCycles p.n p.special (kept.filter fun i => i < x.level).length
  else if c = lopModraise then 2 * p.limbs * shape.rowsT
  else if c = lopBatch then ceilDiv op.opnd g * p.sampleCycles (x.digits (bits op.tab 8 8) p p) + 512
  else if c = lopExtract then
    let q := x.setOf op.hout
    ceilDiv op.opnd g * q.extractCycles p.n (x.digits (bits op.tab 8 8) p q) + 2 * nttCycles (Nat.log2 p.n)
  else if c = lopPack then
    let q := x.setOf op.hina
    p.packCycles q.lweN (x.digits (bits op.tab 0 8) q p) (bits op.b64 0 8) g
  else if c = lopXferIn ∨ c = lopXferOut then x.moveCycles op
  else if c = lopSignalCode then 1
  else 0

/-- Cycles from an operation's last busy cycle to its finish (Table 10-2, R142). -/
def finishCycles (op : LongOp) (n : Nat) : Nat :=
  if op.code = lopNtt ∨ op.code = lopTranspose then 48
  else if op.code = lopAutomorph then rowsPer n + 16
  else if op.code ∈ [lopBconv, lopRescale, lopKsip, lopModdown, lopPack, lopModraise] then 24
  else if op.code = lopLedger then 8
  else 0

/-! ### The terms of R249 -/

/-- The LEVEL and components that the lead tile's group operations see, in their order; the top level where admission does not know. -/
def Image.stepLevels (im : Image) (sets : Nat → Option ParamSet) (lead : Trace) : List (Nat × Nat) :=
  let start : LeadWalk := { handles := im.handles.map fun d => d.track }
  (lead.ops.foldl (fun (x : LeadWalk × List (Nat × Nat)) o =>
    let seen (y : LeadWalk) : Option Nat := (lead.ksipOf o).bind fun k => (y.levels.lookup k.at').bind id
    let h := x.1.handles.getD (if o.op.code = lopModdown then o.op.hout else o.op.hina) default
    let top := ((sets h.set).map fun p => p.limbs).getD 1
    let level := if o.op.code = lopModdown then seen x.1 else h.level
    let y := im.leadStep sets (fun _ => seen x.1) x.1 o
    (y, if o.op.isGroup then x.2 ++ [(level.getD top, h.comps.getD 3)] else x.2)) (start, [])).2

/-- A rank's part of the terms. -/
def Image.boundRank (im : Image) (sets : Nat → Option ParamSet) (levels : List (Nat × Nat)) (r : Nat) (x : Trace) : BoundRank :=
  let op (o : Issued) : BoundOp :=
    let l := levels.getD (x.ordinalOf o) (1, 2)
    let y : BusyContext := { im := im, sets := sets, rank := r, level := l.1, comps := l.2 }
    let qm := (o.qm.bind fun q => sets q.1).getD default
    { at' := o.at', code := o.op.code, busy := y.busy o.known qm, finish := finishCycles o.op qm.n, keys := o.op.keyEntries }
  { bundles := x.len, bars := x.bars, lines := im.lineFetches r, ops := x.ops.map op }

/-- Bundles of the lead tile inside a span. -/
def Trace.spanLength (x : Trace) (sp : Span) : Nat :=
  match x.bars[sp.opensAt - 1]?, x.bars[sp.opensAt]? with | some lo, some hi => hi - lo | _, _ => 0

/-- The terms of an image for job slot `j` (R249): a replay restores in 10 us (R80), a line arrives within 0x3000:07 (R291). -/
def Image.boundTerms (im : Image) (sets : Nat → Option ParamSet) (j : Nat) : BoundTerms :=
  let traces := (List.range im.groupSize).map fun r => im.trace j r
  let lead : Trace := traces.headD {}
  let levels := im.stepLevels sets lead
  { clock := pointClock im.cert.point, ranks := traces.zipIdx.map fun p => im.boundRank sets levels p.2 p.1
    keys := (im.openings lead).map (fun o => let e : StreamEntry := im.streams.getD o.entry default; (o.opened, o.entry, ceilDiv e.wireLength (max 1 e.rate)))
    lineLatency := 1600, replays := (im.cert.ashTraps, 10000, (im.spans.map lead.spanLength).foldl max 0)
    banks := im.cert.banks, fabric := im.cert.fabric }

/-- The guaranteed regions with the first read of their rows on each rank (R25, R244, R247). -/
def Image.boundLeads (im : Image) (j : Nat) : List BoundLead :=
  (List.range im.groupSize).flatMap fun r =>
    let x := im.trace j r
    (im.regions.filter fun g => g.space = 0 && bit g.flags 0).filterMap fun g =>
      (x.uses.find? fun e => e.use = .read && overlaps e.first e.count g.base g.size).map fun e =>
        { rank := r, row := g.base, rows := g.size, lead := g.lead, due := e.at' }

end Sys2Proof.Machine
end

