-- ==== Sys2Proof/Machine/Admit.lean ====
section
/-! DEFINITION. Admission checks 4 to 7 against what is loaded and reserved, and what an admission takes (R247-R250, R274, R282, R290). -/

namespace Sys2Proof.Machine

/-! ### Check 4: sets (R67) -/

/-- The handles of an operation with the family that it needs them to be of: 0 packed, 1 gate. -/
def familyUses (op : LongOp) : List (Nat × Nat) :=
  if op.code ∈ [lopRescale, lopKsip, lopModraise] then [(op.hina, 0), (op.hout, 0)]
  else if op.code = lopModdown then [(op.hout, 0)]
  else if op.code = lopBatch then [(op.hina, 1), (op.hout, 1)]
  else if op.code = lopExtract then [(op.hina, 0), (op.hout, 1)]
  else if op.code = lopPack then [(op.hina, 1), (op.hout, 0)]
  else []

/-- Check 4: every set of SETS is loaded, and of the family that the image uses it as. -/
def State.check4 (s : State) (h : Head) (im : Image) : Option ImgCheck :=
  let uses := im.longOps.flatMap familyUses
  let suits (id : Nat) (p : ParamSet) : Bool := uses.all fun u => (im.decl u.1).set ≠ id || p.family = u.2
  firstFail (im.sets.zipIdx.map fun p => field 8 (h.sets.off + p.2) ((s.set? p.1).any (suits p.1)))

/-! ### Check 5: the tile group (R248, R394) -/

/-- Whether admission may assign a tile: enabled, not failed, in no job and in no direct conversion. -/
def State.tileFree (s : State) (t : Nat) : Bool :=
  s.tileEnabled t && !bit (s.entry 0xB190 2) t && (s.jobOfTile t).isNone && !(s.conversion.any fun c => c.tile = t)

/-- The group that an image gets: the exact tiles of TILE_MASK, else the lowest-numbered free ones outside TileReserveMask. -/
def State.groupFor (s : State) (im : Image) : Option (List Nat) :=
  let m := im.cert.tileMask
  if m ≠ 0 then
    let l := tileNumbers.filter fun t => bit m t
    if l.all s.tileFree then some l else none
  else
    let l := (tileNumbers.filter fun t => s.tileFree t && !bit (s.entry 0x6010 1) t).take im.groupSize
    if l.length = im.groupSize then some l else none

/-! ### Check 6: reservations (R176, R237, R247, R282, R290) -/

/-- The certificates of the admitted jobs. -/
def State.admitted (s : State) : List Image := s.jobsLoaded.filterMap fun j => (s.job j).image

/-- Whether a memory region of the image and one of another job may not overlap: one of them is writable. -/
def State.memoryClash (s : State) (a b : Region) : Bool :=
  !(a.kind = 3 && b.kind = 3) && s.regionNode a = s.regionNode b && overlaps (localOf a.base) a.size (localOf b.base) b.size

/-- A local memory region agrees with the mapping of the stacks it lies in (R282). -/
def State.mappingOk (s : State) (r : Region) : Bool :=
  let a := localOf r.base
  if !s.isSelf (nodeOf r.base) then true
  else if bit r.flags 1 then a / stackWindow = (a + r.size - 1) / stackWindow && s.stackLinear (a / stackWindow)
  else !((List.range 8).any fun k => s.stackLinear k && overlaps a r.size (k * stackWindow) stackWindow)

/-- A region entry against the other jobs and the stacks' mapping. -/
def State.regionFree (s : State) (h : Head) (im : Image) (i : Nat) : List ImgCheck :=
  let r : Region := im.regions.getD i default
  if r.space ≠ 1 then []
  else
    [ field 1 (h.regionOff i + 24) (s.admitted.all fun o => o.memRegions.all fun q => !s.memoryClash r q), field 1 (h.regionOff i + 1) (s.mappingOk r) ]

/-- Check 6 for a group of `g` tiles; a phase is judged at FloorPoint, the slowest point it may run at (R354). -/
def State.check6 (s : State) (h : Head) (im : Image) : Option ImgCheck :=
  let others := s.admitted
  let o := h.cert.off
  let sum (f : Image → Nat) : Nat := ((im :: others).map f).sum
  firstFail
    ([ field 1 (o + 2) (decide (sum (fun x => x.cert.streamsMax) ≤ 16)), field 1 (o + 28) (decide (sum (fun x => x.cert.geyserRate) ≤ 3200)),
       field 1 (o + 32) (others.all fun x => Nat.land x.cert.barrierMask im.cert.barrierMask = 0) ]
      ++ (List.range im.regions.length).flatMap (s.regionFree h im)
      ++ (List.range 1024).map (fun c => field 1 (o + 256 + 2 * c) (decide (sum (fun x => x.cert.banks.getD c 0) ≤ 720)))
      ++ (List.range 17).map (fun p => field 1 (o + 128 + 4 * p) (decide (sum (fun x => x.cert.fabric.getD p 0) ≤ if p = 16 then 200000 else 180000)))
      ++ im.phases.zipIdx.map (fun p => field 1 (h.phaseOff im.cert p.2) (decide (s.tilesPower im.groupSize p.1.2 s.floorPoint ≤ 1000 * s.entry 0xA010 1)))
      ++ im.streams.zipIdx.map (fun p =>
        let n := s.entry (0x4300 + p.1.mcastGroup) 3
        field 6 (h.streams.off + 128 * p.2 + 38) (p.1.sourceKind ≠ 4 || (decide (1 ≤ n) && decide (n ≤ 64)))))

/-! ### Check 7: timing (R249, log entry 8) -/

/-- Check 7: the computed bound, the line fetches of every rank, the leads. -/
def check7 (h : Head) (im : Image) (terms : BoundTerms) (leads : List BoundLead) : Option ImgCheck :=
  let o := h.cert.off
  firstFail [ field 1 (o + 16) (decide (Config.computedBound terms ≤ im.cert.maxDuration)),
    field 1 (o + 24) (terms.ranks.all fun r => decide (r.lines ≤ im.cert.icacheLines)), wholeImage (leads.all (Config.leadHolds terms)) ]

/-! ### The outcome (R247, R250, R274) -/

/-- A refusal: check number, code and failing field; or the image with its group. -/
inductive Admission where
  | refused (check code : Nat) (at' : ImgCheck)
  | granted (im : Image) (base : Nat) (group : List Nat)

/-- Checks 3 to 7 in order, for an image whose header stands. -/
def State.judgeImage (s : State) (j : Nat) (b : List Byte) (base : Nat) : Admission :=
  let h := readHead b
  let im := readImage b h
  match s.check3 j h im with
  | some c => .refused 3 ADMIT_CERT_INVALID c
  | none =>
    match s.check4 h im with
    | some c => .refused 4 ADMIT_RESOURCE c
    | none =>
      match s.groupFor im with
      | none => .refused 5 ADMIT_RESOURCE (if im.cert.tileMask = 0 then wholeImage false else field 1 (h.cert.off + 8) false)
      | some g =>
        match s.check6 h im with
        | some c => .refused 6 ADMIT_RESOURCE c
        | none =>
          match check7 h im (im.boundTerms s.set? j) (im.boundLeads j) with
          | some c => .refused 7 ADMIT_TIMING c
          | none => .granted im base g

/-- All seven checks of Table 11-7, in order. -/
def State.judge (s : State) (j addr len : Nat) : Admission :=
  if !s.imageLocated addr len then .refused 1 ADMIT_CERT_INVALID (wholeImage false)
  else
    let b := s.memBytes (localOf addr) len
    match check1 b len with
    | some c => .refused 1 ADMIT_CERT_INVALID c
    | none =>
      let h := readHead b
      match check2 h (readCert b h.cert.off) (if s.oldGeneration then 1 else 2) with
      | some c => .refused 2 ADMIT_CERT_INVALID c
      | none => s.judgeImage j b (localOf addr)

/-- AdmitDetail of a refusal (R247). -/
def admitDetail (check : Nat) (c : ImgCheck) : Nat := check * 2 ^ 56 + c.sec * 2 ^ 48 + c.off

/-- The tile entries of a job that enters LOADED: tiles in T4 leave it, the banks follow the certificate, counters return to zero (R274, R348, R411). -/
def State.loadTile (s : State) (im : Image) (t : Nat) : State :=
  let s := if s.tileState t = 4 then s.setEntry (0xA0C0 + t) 1 1 else s
  let s := (s.resetEntries ((List.range 60).map fun i => (0x8100 + t, i + 1))).setBanks t (banksFor im.regions)
  (s.settleLanded t).updTile t fun x => { x with sleepAt := s.now, wakeAt := none, quenched := false }

/-- The job-scoped entries that return to their defaults when a job enters LOADED: all but ImageAddress and ImageLength (R258);
of the ledger's entries a LOAD resets the counters (R83), a REARM all of them (Table 11-9). -/
def jobEntries (j : Nat) (rearm : Bool) : List (Nat × Nat) :=
  let all (base lo hi : Nat) : List (Nat × Nat) := (List.range (hi + 1 - lo)).map fun i => (base + j, lo + i)
  (if rearm then all 0x2200 1 9 else [(0x2200 + j, 3), (0x2200 + j, 4), (0x2200 + j, 5), (0x2200 + j, 9)])
    ++ all 0x2890 1 5 ++ all 0x7880 1 7 ++ all 0x7080 1 5 ++ all 0x6100 5 0x12 ++ all 0x6120 1 2 ++ all 0x8080 1 10 ++ all 0xA080 1 5

/-- The derived body length (R69, R127). -/
def Image.derivedLength (im : Image) (p : ParamSet) (layout comps level count : Nat) : Nat :=
  match im.layoutOf layout with
  | some d => d.boundBytes
  | none => if p.family = 0 then comps * level * p.n * 9 / 2 else count * sampleBytes p

/-- A handle before any step or binding, as its entry declares it (R439). -/
def State.declaredHandle (s : State) (im : Image) (h : HandleDecl) : Handle :=
  let p := s.set? h.set
  let comps := if (p.map fun p => p.family) = some 1 then 1 else 2
  { set := h.set, family := (p.map fun p => p.family).getD 0, level := h.level, comps := comps, scale := 0, noise := 0, ash := false, layout := h.layout
    count := h.count, tag := h.tag, nttForm := bit h.flags 2, crcPresent := bit h.flags 0, location := h.bodyAddr
    bodyLength := (p.map fun p => im.derivedLength p h.layout comps h.level h.count).getD 0, bodyCrc := 0 }

/-- A job enters LOADED with its image and group (R250); its handle table is what the entries declare until binding (R439). -/
def State.enterLoaded (s : State) (j : Nat) (im : Image) (base : Nat) (group : List Nat) (rearm : Bool) : State :=
  let s := s.setJob j { state := .loaded, image := some im, imageBase := base, group := group, handles := im.handles.map fun h => s.declaredHandle im h
                        products := (im.trace j 0).products, openOuts := im.openOuts (im.trace j 0)
                        terms := im.boundTerms s.set? j }
  let s := s.resetEntries (jobEntries j rearm)
  let s := (s.setEntry (0x2200 + j) 2 im.cert.ashTraps).setEntry (0x2200 + j) 8 im.handles.length
  let s := s.setEntry (0x6100 + j) 8 ((group.map fun t => 2 ^ t).sum)
  group.foldl (fun s t => s.loadTile im t) s

/-- The check of the slot at the head of the queue decides (R247). -/
def State.admissionCheck (s : State) : State :=
  match s.admitQueue with
  | [] => s
  | j :: rest =>
    let s := ({ s with admitQueue := rest }).updJob j fun x => { x with checking := false }
    let s := s.touchOwn (s.entry (0x6100 + j) 3) (s.entry (0x6100 + j) 4)
    match s.judge j (s.entry (0x6100 + j) 3) (s.entry (0x6100 + j) 4) with
    | .refused check code c => (s.setEntry (0x6100 + j) 5 code).setEntry (0x6100 + j) 6 (admitDetail check c)
    | .granted im base group => s.enterLoaded j im base group false

/-- ADMISSION_CHECK (R247). -/
def execAdmissionCheck (s : State) : Host.Outcome State Fault Refusal := .next (if s.ready then s.admissionCheck else s)

end Sys2Proof.Machine
end

