-- ==== Sys2Proof/Machine/Attest.lean ====
section
/-! DEFINITION. The signing service, measurements and the attestation report (R362-R365, R368, R370). -/

namespace Sys2Proof.Machine

/-! ### The signing service (R363-R365) -/

/-- Leaves of the current bottom tree that are left (0x9000:0A). -/
def State.leavesLeft (s : State) : Nat := 2 ^ 20 - s.hss.bottomNext

/-- Whether the service is at its limit of 100 signatures in the last second (R363). -/
def State.signBusy (s : State) : Bool := s.entry 0x9000 8 ≤ (s.hss.recent.filter fun t => s.now < t + 1000000000).length

/-- When the rate of R363 lets the next signature be released: now, or one second after the 100th last (log entry 75). -/
def State.signAt (s : State) : Nat :=
  let l := s.hss.recent
  let n := s.entry 0x9000 8
  if l.length < n then s.now else max s.now (l.getD (l.length - n) 0 + 1000000000)

/-- The bottom tree is exhausted and the top tree has no unspent leaf (R365, log entry 32). -/
def State.signExhausted (s : State) : Bool := s.leavesLeft = 0 && !s.hss.prepared && 2 ^ 20 ≤ s.hss.topNext

/-- The next bottom tree is prepared: the next top-tree leaf is spent (R364). -/
def State.prepareTree (s : State) : State :=
  if !s.hss.prepared ∧ s.hss.topNext < 2 ^ 20 then { s with hss := { s.hss with prepared := true, topNext := s.hss.topNext + 1 } } else s

/-- HSS_TREE_PREPARE: fewer than 65,536 leaves left (R364). -/
def execHssTreePrepare (s : State) : Host.Outcome State Fault Refusal := .next (if s.leavesLeft < 65536 then s.prepareTree else s)

/-- The switch to the prepared tree at the first signature after the old one is exhausted (R364). -/
def State.switchTree (s : State) : State :=
  if 0 < s.leavesLeft then s
  else
    let s := s.prepareTree
    let s := { s with hss := { s.hss with bottomNext := 0, prepared := false } }
    s.raise 0xB0C3 0xFF 0 2 s.leavesLeft

/-- The leaf that a signature spends: its bottom tree and its number. -/
def State.leaf (s : State) : Nat := (s.hss.topNext - (if s.hss.prepared then 1 else 0)) * 2 ^ 20 + s.hss.bottomNext

/-- A leaf is spent before it is used (R364): the refusal or OK, the leaf, and the state. -/
def State.spendLeaf (s : State) : Nat × Nat × State :=
  if s.signExhausted then (LMS_EXHAUSTED, 0, s)
  else
    let s := s.switchTree
    let q := s.leaf
    let back := Config.leafReadback s.freeCount
    let s := { s.useFree with hss := { s.hss with bottomNext := s.hss.bottomNext + 1 } }
    let s := s.setEntry 0x9000 6 (s.entry 0x9000 6 - 1)
    if back ≠ OK then (back, q, s.raise 0xB0C3 0xFF 0 1 s.leavesLeft)
    else
      let recent := (s.hss.recent.filter fun t => s.now < t + 1000000000) ++ [s.signAt]
      (OK, q, ({ s with hss := { s.hss with recent := recent } }).bump 0x9000 7 1)

/-- The two signatures over a message: ECDSA in 96 bytes, HSS in 5,716 (R362). -/
def State.ecdsaOf (s : State) (m : List Byte) : List Byte := (List.range 96).map fun i => Config.ecdsaByte s.freeCount m i

def hssOf (leaf : Nat) (m : List Byte) : List Byte := (List.range 5716).map fun i => Config.hssByte leaf m i

/-! ### Measurements (Table 17-2) -/

/-- A unit's byte strings that no entry holds: the ROM version, the SPDM certificate chain of slot 0 (log entry 4). -/
def unitString (k : Nat) : List Byte := (List.range (Config.unitLength (2 ^ 32 + k))).map fun i => Config.unitByte (2 ^ 32 + k) i

/-- The measurement indices. -/
def measurementIndices : List Nat := ((List.range 9).map fun i => i + 1) ++ (List.range 16).map fun j => 0x10 + j

/-- A measurement's digest; the digests of indices 1, 8 and 9 are over the model's own order of what they measure (log entry 7). -/
def State.measurement (s : State) (i : Nat) : List Byte :=
  let a := s.activeSlot
  if i = 1 then digestBytes (Config.sha384 (unitString 0 ++ leBytes 1 (s.entry 0x9000 1)))
  else if i ≤ 7 then s.componentDigest a (i - 1)
  else if i = 8 then digestBytes (Config.sha384 (s.packageBytes a 0 1216 ++ leBytes 1 a ++ leBytes 4 (s.packageRelease a)))
  else if i = 9 then
    digestBytes (Config.sha384 (leBytes 1 (s.entry 0x1010 2) ++ leBytes 2 s.grade ++ leBytes 8 s.enabled ++ leBytes 1 (s.entry 0x3010 1)))
  else
    let x := s.job (i - 0x10)
    match x.image with
    | some im => if x.state = .ready then List.replicate 48 0 else digestBytes (Config.sha384 (s.memBytes x.imageBase im.length))
    | none => List.replicate 48 0

/-! ### The report (Table 17-3) -/

/-- The report's bytes before its signatures. -/
def State.reportBody (s : State) (left : Nat) : List Byte :=
  let time := s.fabricTime % 2 ^ 63 + (if s.timeLocked then 0 else 2 ^ 63)
  leBytes 4 0x54525041 ++ leBytes 1 1 ++ leBytes 1 measurementIndices.length ++ leBytes 2 0 ++ leBytes 8 time ++ s.blob 0x9010 1
    ++ leBytes 8 left ++ measurementIndices.flatMap fun i => leBytes 4 i ++ s.measurement i

/-- The report produced at START_READ: a fresh nonce is needed, and one signature is spent (R370). -/
def State.makeReport (s : State) : Nat × State :=
  if !s.nonceFresh then (STATE_CONFLICT, s)
  else
    let r := s.spendLeaf
    if r.1 ≠ OK then (r.1, r.2.2)
    else
      let s := r.2.2
      let m := s.reportBody (s.entry 0x9000 6)
      (OK, ({ s.useFree with nonceFresh := false }).setBlob 0x9010 2 (m ++ s.ecdsaOf m ++ hssOf r.2.1 m))

end Sys2Proof.Machine
end

