-- ==== Sys2Proof/Machine/Barriers.lean ====
section
/-! DEFINITION. Barriers: arrival, the combining tree, release with pending groups, traps, spans and phases, timeout (R40, R80, R236, R245, R319-R321). -/

namespace Sys2Proof.Machine

/-! ### Frames of the combining tree (R314, R315, R320) -/

/-- ARRIVE or RELEASE of a barrier and epoch to a device, on virtual lane 3 (log entry 18). -/
def State.sendBarrier (s : State) (opcode node b e : Nat) : State :=
  match s.routePort node with
  | none => s
  | some p =>
    s.sendFrame p { version := s.entry (0x4040 + p) 2, opcode := opcode, vl := 3, hops := 0, mcastGroup := 0, seq := 0, operand := e, tag := 0
                    length := 0, source := s.nodeId, target := node, address := b, payload := [], crcOk := true }

/-- BarrierEpoch. -/
def State.barrierEpoch (s : State) (b : Nat) : Nat := s.entry (0x4400 + b) 3

/-- The running job that holds a barrier ID (R320). -/
def State.barrierJob (s : State) (b : Nat) : Option Nat :=
  jobSlots.find? fun j => (s.job j).state = .running && ((s.job j).image.any fun im => bit im.cert.barrierMask b)

/-- Whether the job spans devices (R319). -/
def Job.spansDevices (x : Job) : Bool := x.image.any fun im => 1 < im.cert.devices

/-- Every tile of the job on this device has arrived. -/
def State.allArrived (s : State) (j b : Nat) : Bool :=
  let x := s.job j
  !x.group.isEmpty && x.group.all fun t => (s.barrier b).arrived.contains t

/-- Every child device has arrived; a job on one device has none (R319, R320). -/
def State.childrenIn (s : State) (j b : Nat) : Bool :=
  !(s.job j).spansDevices || s.entry (0x4400 + b) 2 ≤ (s.barrier b).children.length

/-- Whether the device is the root of the barrier for the job. -/
def State.isRoot (s : State) (j b : Nat) : Bool := !(s.job j).spansDevices || s.entry (0x4400 + b) 1 = 0xFFFF

/-- Everything has arrived at a device that is not the root: ARRIVE goes to the parent (R320). -/
def State.reportArrival (s : State) (j b : Nat) : State :=
  if s.allArrived j b ∧ s.childrenIn j b ∧ !s.isRoot j b ∧ !(s.barrier b).sent then
    (s.setBarrier b { s.barrier b with sent := true }).sendBarrier 0x10 (s.entry (0x4400 + b) 1) b (s.barrierEpoch b)
  else s

/-! ### Arrival (R236) -/

/-- A tile's arrival, once its long operations have finished; BarrierTimeout as it stands then applies (Table 14-6). -/
def State.arrive (s : State) (t : Nat) : State :=
  match s.jobOfTile t, (s.tile t).barWait with
  | some j, .issued b =>
    let x := s.tile t
    if (s.job j).state ≠ .running ∨ !x.queue.isEmpty ∨ !x.running.isEmpty then s
    else
      let s := s.updTile t fun x => { x with barWait := .arrived b }
      let y := s.barrier b
      (s.setBarrier b { y with arrived := y.arrived ++ [t], lastArrival := s.now, limit := 1000 * s.entry 0x4010 3 }).reportArrival j b
  | _, _ => s

/-- BARRIER_ARRIVE (R236). -/
def execBarrierArrive (t : Nat) (s : State) : Host.Outcome State Fault Refusal := onTile t s fun s => s.arrive t

/-- ARRIVE_FRAME: a child's arrival of the current epoch is counted once, any other is dropped (R320). -/
def execArriveFrame (barrier epoch child : Nat) (s : State) : Host.Outcome State Fault Refusal :=
  onUnit "barrier" 64 barrier s fun s =>
    match s.barrierJob barrier with
    | none => s.bump (0x4400 + barrier) 5 1
    | some j =>
      if epoch ≠ s.barrierEpoch barrier then s.bump (0x4400 + barrier) 5 1
      else
        let y := s.barrier barrier
        (if y.children.contains child then s else s.setBarrier barrier { y with children := y.children ++ [child] }).reportArrival j barrier

/-! ### Spans and traps (R80, R245) -/

/-- The tiles' registers and loops that a span saves. -/
def State.saveSpan (s : State) (j i : Nat) (sp : Span) : SpanSave :=
  let x := s.job j
  { span := i, handles := x.handles, sregs := x.group.map fun t => (t, (s.tile t).sregs), loops := x.group.map fun t => (t, (s.tile t).loops)
    bundles := x.group.map fun t => (t, (s.tile t).nextBundle), groupOps := x.group.map fun t => (t, (s.tile t).groupOps), opens := x.opens
    guardAsh := sp.guards.any fun h => (x.handle? h).any fun y => y.ash }

/-- The span that opens at release `n`. -/
def Image.spanAt (im : Image) (n : Nat) : Option (Nat × Span) := (im.spans.zipIdx.find? fun p => p.1.opensAt = n).map fun p => (p.2, p.1)

/-- A span opens at a release and saves what a replay restores. -/
def State.openSpan (s : State) (j n : Nat) : State :=
  match (s.job j).image with
  | none => s
  | some im =>
    match im.spanAt n with
    | none => s
    | some sp => s.updJob j fun x => { x with span := some (s.saveSpan j sp.1 sp.2), armed := false, replayed := false }

/-- A closing span: a replay ends with it, counted as LEDGER_TRAP (R80). -/
def State.closeSpan (s : State) (j : Nat) : State :=
  (s.settleJob j).updJob j fun x => { x with span := none, armed := false, replayed := false }

/-- Whether the trap is taken: traps are left, the span was not replayed, no guard was ASH at the opening (R80). -/
def State.trapAllowed (s : State) (j : Nat) (v : SpanSave) : Bool :=
  s.entry (0x2200 + j) 3 < s.entry (0x2200 + j) 2 && !(s.job j).replayed && !v.guardAsh

/-- One tile restarts at the span's first bundle. -/
def Tile.restartSpan (x : Tile) (t : Nat) (v : SpanSave) : Tile :=
  { x with sregs := (v.sregs.lookup t).getD x.sregs, loops := (v.loops.lookup t).getD x.loops, nextBundle := (v.bundles.lookup t).getD x.nextBundle
           groupOps := (v.groupOps.lookup t).getD x.groupOps
           run := .issuing, barWait := .none, holdCause := 255 }

/-- The trap is taken: registers, loops and handle table restored, standbys armed, every tile restarted (R80). -/
def State.takeTrap (s : State) (j : Nat) (v : SpanSave) : State :=
  let s := s.letGo j
  let s := s.updJob j fun x => { x with groupSteps := x.groupSteps.filter (fun p => v.groupOps.all fun q => decide (p.1 < q.2)), handles := v.handles, opens := v.opens, exchanged := [], armed := true, replayed := true, trapPending := none, trapAt := s.now }
  let s := (s.job j).group.foldl (fun s t => s.updTile t fun x => x.restartSpan t v) s
  let s := s.bump (0x2200 + j) 3 1
  s.raise 0xB0B2 j OK v.span (s.entry (0x2200 + j) 3)

/-- A trap that is not taken: the ledger error of the step that consumed an ASH input ends the job (R80, R83). -/
def State.refuseTrap (s : State) (j x : Nat) : State := (s.noteLedgerError j LEDGER_ASH x).abortJob j LEDGER_ASH 0xFF 0

/-! ### Release (R40, R236, R354) -/

/-- The groups pending on a job are applied in commit order (R40, R44). -/
def State.applyPending (s : State) (j : Nat) : State :=
  let mine := s.pendingGroups.filter fun g => g.job = j
  mine.foldl (fun s g => s.applyGroup g) { s with pendingGroups := s.pendingGroups.filter fun g => g.job ≠ j }

/-- The phase that release `n` begins. -/
def Image.phaseAt (im : Image) (n : Nat) : Option Nat := im.phases.findIdx? fun p => p.1 = n

/-- The release reaches the tiles: spans close and open, and the ledger decides the phase that begins (R245, R354). -/
def State.passRelease (s : State) (j : Nat) : State :=
  let n := (s.job j).releases + 1
  let s := s.updJob j fun x => { x with releases := n }
  let s := (s.closeSpan j).openSpan j n
  match (s.job j).image.bind fun im => im.phaseAt n with
  | some i => s.requestPhase j i
  | none => s.letGo j

/-- The local release of a barrier: RELEASE to the children, then pending groups, traps, spans, phases (R80, R236, R320). -/
def State.releaseBarrier (s : State) (j b : Nat) : State :=
  let s := (s.barrier b).children.foldl (fun s c => s.sendBarrier 0x11 c b (s.barrierEpoch b)) s
  let s := (s.setBarrier b {}).applyPending j
  let s := (s.job j).group.foldl (fun s t => s.updTile t fun x => { x with keyOuts := [] }) s
  match (s.job j).span, (s.job j).trapPending with
  | some v, some x => if s.trapAllowed j v then s.takeTrap j v else s.refuseTrap j x
  | _, _ => s.passRelease j

/-- The barrier at which every tile of a job waits. -/
def State.waitingAt (s : State) (j : Nat) : Option Nat := (List.range 64).find? fun b => s.allArrived j b

/-- BARRIER_RELEASE: at the root, once every tile and every child has arrived (R236, R320). -/
def execBarrierRelease (job : Nat) (s : State) : Host.Outcome State Fault Refusal :=
  onJob job s fun s =>
    match s.waitingAt job with
    | none => s
    | some b => if (s.job job).state = .running ∧ s.isRoot job b ∧ s.childrenIn job b then s.releaseBarrier job b else s

/-- RELEASE_FRAME: the parent's release of the current epoch releases locally and goes on to the children; any other is dropped (R320). -/
def execReleaseFrame (barrier epoch : Nat) (s : State) : Host.Outcome State Fault Refusal :=
  onUnit "barrier" 64 barrier s fun s =>
    match s.barrierJob barrier with
    | none => s.bump (0x4400 + barrier) 5 1
    | some j =>
      if epoch ≠ s.barrierEpoch barrier then s.bump (0x4400 + barrier) 5 1
      else if (s.barrier barrier).sent then s.releaseBarrier j barrier
      else s

/-! ### Timeout (R237, R321) -/

/-- No RELEASE within BarrierTimeout of the last local arrival: the job aborts and the epoch rises. -/
def State.barrierTimeout (s : State) (b : Nat) : State :=
  match s.barrierJob b with
  | none => s
  | some j =>
    if s.allArrived j b ∧ (s.barrier b).lastArrival + (s.barrier b).limit ≤ s.now then
      let e := s.barrierEpoch b
      let s := (s.setBarrier b {}).setEntry (0x4400 + b) 3 ((e + 1) % 65536)
      (s.raise 0xB0E2 0xFF FABRIC_TIMEOUT b e).abortJob j FABRIC_TIMEOUT 0xFF 0
    else s

/-- BARRIER_TIMEOUT (R321). -/
def execBarrierTimeout (barrier : Nat) (s : State) : Host.Outcome State Fault Refusal :=
  onUnit "barrier" 64 barrier s fun s => s.barrierTimeout barrier

end Sys2Proof.Machine
end

