-- ==== Sys2Proof/Machine/Jobs.lean ====
section
/-! DEFINITION. Job commands, binding, commit, stop and clean-up (R70-R72, R194, R226, R238, R251-R257, R392-R396, R398). -/

namespace Sys2Proof.Machine

/-! ### Descriptors (R68, R69, R127) -/

/-- The fields of a descriptor in memory (Table 3-4); format 1 has neither LAYOUT nor BODY_LENGTH. -/
structure Descriptor where
  format : Nat
  set : Nat
  family : Nat
  flags : Nat
  level : Nat
  comps : Nat
  scale : Int
  noise : Nat
  layout : Nat
  count : Nat
  tag : Nat
  location : Nat
  bodyLength : Nat
  bodyCrc : Nat
deriving DecidableEq, Repr, Inhabited

/-- A descriptor as its 64 bytes give it. -/
def readDescriptor (b : List Byte) : Descriptor where
  format := fieldAt b 0 1
  set := fieldAt b 1 1
  family := fieldAt b 2 1
  flags := fieldAt b 3 1
  level := fieldAt b 4 1
  comps := fieldAt b 5 1
  scale := signed 16 (fieldAt b 6 2)
  noise := fieldAt b 8 2
  layout := if fieldAt b 0 1 = 1 then 0 else fieldAt b 10 2
  count := fieldAt b 12 4
  tag := fieldAt b 16 8
  location := fieldAt b 24 8
  bodyLength := fieldAt b 32 8
  bodyCrc := fieldAt b 56 8

/-- The flag bits of a descriptor. -/
def flagsOf (valid poison ash ntt crc : Bool) : Nat :=
  (if valid then 1 else 0) + (if poison then 2 else 0) + (if ash then 4 else 0) + (if ntt then 8 else 0) + if crc then 16 else 0

/-- The 64 bytes of a descriptor. -/
def Descriptor.bytes (d : Descriptor) : List Byte :=
  leBytes 1 d.format ++ leBytes 1 d.set ++ leBytes 1 d.family ++ leBytes 1 d.flags ++ leBytes 1 d.level ++ leBytes 1 d.comps
    ++ leBytes 2 (unsigned 16 d.scale) ++ leBytes 2 d.noise ++ leBytes 2 (if d.format = 1 then 0 else d.layout) ++ leBytes 4 d.count
    ++ leBytes 8 d.tag ++ leBytes 8 d.location ++ leBytes 8 (if d.format = 1 then 0 else d.bodyLength) ++ leBytes 16 0 ++ leBytes 8 d.bodyCrc

/-- A ciphertext's layout exists and keeps R126 for it (R127). -/
def Image.layoutFits (im : Image) (p : ParamSet) (d : Descriptor) : Bool :=
  d.layout = 0 || (im.layoutOf d.layout).any fun l =>
    if p.family = 0 then l.ew = 4 && l.validRows = d.comps * d.level && l.validCols = p.n
    else (l.ew = 3 || l.ew = 5) && l.validRows = d.count && l.validCols = p.lweN + 1

/-- LEVEL, COMPONENTS and COUNT within Table 3-4. -/
def Descriptor.inRange (d : Descriptor) (p : ParamSet) : Bool :=
  if p.family = 0 then decide (1 ≤ d.level) && decide (d.level ≤ p.limbs) && (d.comps = 2 || d.comps = 3) && d.count = 1
  else d.level = 1 && d.comps = 1 && decide (1 ≤ d.count) && decide (d.count ≤ 2 ^ 24)

/-- Whether a VERIFY transfer of the image reads a handle (R233). -/
def Image.verifies (im : Image) (x : Nat) : Bool := im.longOps.any fun o => o.code = lopXferIn && o.verifies && o.fromHandle && o.hina = x

/-- Why a descriptor is refused for a handle: R70, then R127 and R242. -/
def State.bindRefusal (s : State) (im : Image) (x : Nat) (d : Descriptor) : Option Nat :=
  let h := im.decl x
  if bit d.flags 1 ∨ !bit d.flags 0 then some SLOT_POISON
  else
    match (if im.sets.contains d.set then s.set? d.set else none) with
    | none => some PARAM_MISMATCH
    | some p =>
      let own := (d.format = 1 ∨ d.format = 2) ∧ d.family = p.family ∧ d.inRange p ∧ d.tag ≠ 0 ∧ d.location % 64 = 0
      let declared := d.set = h.set ∧ d.tag = h.tag ∧ d.level = h.level ∧ d.count = h.count ∧ d.layout = h.layout
      if own ∧ im.layoutFits p d ∧ (d.format = 1 ∨ d.bodyLength = im.derivedLength p d.layout d.comps d.level d.count)
          ∧ (!im.verifies x ∨ bit d.flags 4) ∧ declared then none
      else some PARAM_MISMATCH

/-- The handle that a descriptor binds (R70, R439). -/
def Image.boundHandle (im : Image) (p : Option ParamSet) (d : Descriptor) : Handle :=
  { set := d.set, family := d.family, level := d.level, comps := d.comps, scale := d.scale, noise := d.noise, ash := bit d.flags 2, layout := d.layout
    count := d.count, tag := d.tag, nttForm := bit d.flags 3, crcPresent := bit d.flags 4, location := d.location
    bodyLength := (p.map fun p => im.derivedLength p d.layout d.comps d.level d.count).getD d.bodyLength, bodyCrc := d.bodyCrc }

/-! ### LOAD (R247, R252) -/

/-- LOAD queues the check (R247); DEEP_IDLE refuses it (R359). -/
def State.load (s : State) (j : Nat) : State :=
  let s := { s with admitQueue := s.admitQueue ++ [j] }
  (s.updJob j fun x => { x with checking := true }).setEntry (0x6100 + j) 5 PENDING

/-! ### START (R194, R214, R226, R253) -/

/-- The tile state of R194, with the instruction cache's first 1,024 lines (R214) and every declared row EMPTY (R226). -/
def Tile.startOf (x : Tile) (im : Image) (rank size j now : Nat) : Tile :=
  let lines := min 1024 (ceilDiv (im.code.getD rank []).length 4)
  let rows := (List.range 3072).filter fun r => im.regions.any fun g => g.space = 0 && decide (g.base ≤ r) && decide (r < g.base + g.size)
  { banks := x.banks, bankEpochs := x.bankEpochs, rows := x.rows, writeBacks := x.writeBacks, scrubRow := x.scrubRow, scrubbed := x.scrubbed
    scrubStart := x.scrubStart, scrubPeriods := x.scrubPeriods, windowPuts := x.windowPuts, windowLanded := x.windowLanded, windowGets := x.windowGets, leaseEpoch := x.leaseEpoch, leaseAt := x.leaseAt
    recoverBy := x.recoverBy, sleepAt := x.sleepAt, wakeAt := none, lastIssue := now
    sregs := [(1, BitVec.ofNat 64 rank), (2, BitVec.ofNat 64 size), (3, BitVec.ofNat 64 j)].foldl (fun r p => Tab.put r p.1 p.2) []
    icache := (List.range lines).foldl (fun c l => Tab.put c (l % 256) (Tab.get c [] (l % 256) ++ [l])) []
    tags := rows.foldl (fun g r => Tab.put g r .empty) x.tags }

/-- START: RUNNING, the journal record, the tile state; binding follows (R253, R398). -/
def State.start (s : State) (j : Nat) : State :=
  let x := s.job j
  match x.image with
  | none => s
  | some im =>
    let s := s.touchStacks
    let s := s.setJob j { state := .running, image := some im, imageBase := x.imageBase, group := x.group, journal := true, bindNext := some 0
                          startedAt := s.now, handles := im.handles.map fun h => s.declaredHandle im h, products := x.products
                          openOuts := x.openOuts, terms := x.terms }
    let s := ((s.setEntry (0x6100 + j) 9 s.fabricTime).setEntry (0x6100 + j) 0x0B im.cert.maxDuration).setEntry (0xA080 + j) 2 im.cert.point
    x.group.foldl (fun s t => ((s.updTile t fun y => y.startOf im (rankOf x.group t) x.group.length j s.now).settleLanded t).setEntry (0xA0C0 + t) 2 im.cert.point) s

/-! ### Binding (R70, R71, R242) -/

/-- A binding refusal ends the job before any bundle issues; its error and handle are recorded where the error is one of Table 3-8's.
A descriptor that cannot be read ends it with the read's status: ACCESS_PROTECT outside stack memory, the status with which a remote read
is refused or ends otherwise (log entry 67). -/
def State.refuseBinding (s : State) (j x code : Nat) : State :=
  ((s.updJob j fun y => { y with bindNext := none }).noteLedgerError j code x).abortJob j code 0xFF 0

/-- The 64 bytes of a handle's descriptor are bound to it, or refused; binding takes a copy (R71). -/
def State.bindBytes (s : State) (j x : Nat) (im : Image) (b : List Byte) : State :=
  let d := readDescriptor b
  match s.bindRefusal im x d with
  | some code => s.refuseBinding j x code
  | none => s.updJob j fun y => { y with handles := y.handles.set x (im.boundHandle (s.set? d.set) d), bindNext := some (x + 1) }

/-- The next descriptor: one of this device is read at once; one of another node is asked for, once. -/
def State.bindOne (s : State) (j x : Nat) (im : Image) : State :=
  let h := im.decl x
  let node := nodeOf h.descAddr
  let a := localOf h.descAddr
  if h.kind ≠ 1 ∧ h.kind ≠ 3 then s.updJob j fun y => { y with bindNext := some (x + 1) }
  else if s.isSelf node then
    if !inStack a 64 then s.refuseBinding j x ACCESS_PROTECT
    else if s.rangePoisoned a 64 then s.refuseBinding j x SLOT_POISON
    else s.bindBytes j x im (s.memBytes a 64)
  else if s.remoteOps.any fun r => r.issuer = issuerSupervisor && r.job = j then s
  else
    let st := s.issueStatus node 2 a
    if st ≠ OK then (s.countFail false st).refuseBinding j x st else s.issueOp node 2 2 a 64 0 [] issuerSupervisor j x

/-- Descriptors bound in handle order until one must wait; after the last, the heat ledger decides phase 0 (R253, R354). -/
def State.bindFrom (s : State) (j : Nat) (im : Image) : Nat → State
  | 0 => s
  | fuel + 1 =>
    match (s.job j).bindNext with
    | none => s
    | some x =>
      if im.handles.length ≤ x then (s.updJob j fun y => { y with bindNext := none }).requestPhase j 0
      else
        let s' := s.bindOne j x im
        if (s'.job j).bindNext = some x then s' else s'.bindFrom j im fuel

/-- DESCRIPTOR_BIND. -/
def execDescriptorBind (job : Nat) (s : State) : Host.Outcome State Fault Refusal :=
  onJob job s fun s =>
    match (s.job job).image with
    | some im => if (s.job job).state = .running then s.bindFrom job im (im.handles.length + 2) else s
    | none => s

/-! ### The end of a job (R42, R252, R254, R255, R257) -/

/-- The groups pending on the job are applied. -/
def State.applyOwn (s : State) (j : Nat) : State :=
  (s.pendingGroups.filter fun g => g.job = j).foldl (fun s g => s.applyGroup g) { s with pendingGroups := s.pendingGroups.filter fun g => g.job ≠ j }

/-- The groups pending on the job are discarded. -/
def State.discardOwn (s : State) (j : Nat) : State :=
  (s.pendingGroups.filter fun g => g.job = j).foldl (fun s g => s.discardGroup g) { s with pendingGroups := s.pendingGroups.filter fun g => g.job ≠ j }

/-- The job enters HALTED (R254, R255, R257): a normal end applies its pending groups, any other discards them (R42). -/
def State.endJob (s : State) (j completion status : Nat) : State :=
  let x := s.job j
  let mask := (x.image.map fun im => im.cert.barrierMask).getD 0
  let s := s.settleJob j
  let s := if completion = 1 then s.applyOwn j else s.discardOwn j
  let s := { s with barriers := s.barriers.filter fun p => !bit mask p.1 }
  let s := ((s.leaveLedger j).wipePkeOf j).endChecks j
  let s := s.updJob j fun y => { y with state := .halted, drain := .none, journal := false, span := none, armed := false, trapPending := none, replayed := false, commits := [], powerHeld := none }
  let s := ((s.setEntry (0x6100 + j) 5 status).setEntry (0x6100 + j) 7 completion).setEntry (0x6100 + j) 0x0A s.fabricTime
  if completion = 2 then
    ((s.setEntry (0x6100 + j) 0x11 x.abortTile).setEntry (0x6100 + j) 0x12 x.abortBundle).raise 0xB021 j status x.abortTile x.abortBundle
  else s

/-- The length of a handle's body as the ledger holds it (R55). -/
def State.bodyLength (s : State) (im : Image) (h : Handle) : Nat :=
  ((s.set? h.set).map fun p => im.derivedLength p h.layout h.comps h.level h.count).getD 0

/-- A range without the 256-byte granules that a second range touches: first address and length of each rest. -/
def cutRange (r k : Nat × Nat) : List (Nat × Nat) :=
  let a := k.1 / 256 * 256
  let b := ceilDiv (k.1 + k.2) 256 * 256
  if k.2 = 0 ∨ b ≤ r.1 ∨ r.1 + r.2 ≤ a then [r]
  else [(r.1, a - r.1), (b, r.1 + r.2 - b)].filter fun p => 0 < p.2

/-- The outputs whose VALID write is under way (R28). -/
def Job.inFlight (x : Job) : List Nat := (x.commits.filter fun c => c.validWritten).map fun c => c.handle

/-- The descriptor and body on this device of the outputs that are VALID, or whose VALID write is under way: their data is not changed (R28). -/
def State.validRanges (s : State) (im : Image) (j : Nat) : List (Nat × Nat) :=
  (((s.job j).committed ++ (s.job j).inFlight).flatMap fun x =>
    let h := ((s.job j).handle? x).getD default
    [((im.decl x).descAddr, 64), (h.location, s.bodyLength im h)]).filterMap fun p =>
      if s.isSelf (nodeOf p.1) then some (localOf p.1, p.2) else none

/-- The memory that an unfinished job leaves POISON: OUTPUT and IN_PLACE of this device, but for the outputs of validRanges (R28, R294). -/
def State.outputRegions (s : State) (im : Image) (j : Nat) : List (Nat × Nat) :=
  (im.memRegions.filter fun r => (r.kind = 4 || r.kind = 5) && s.isSelf (nodeOf r.base)).flatMap fun r =>
    (s.validRanges im j).foldl (fun (l : List (Nat × Nat)) k => l.flatMap fun p => cutRange p k) [(localOf r.base, r.size)]

/-- The scratchpad OUTPUT regions of a tile turn POISON (Table 10-4). -/
def State.poisonOutputs (s : State) (im : Image) (t : Nat) : State :=
  (im.regions.filter fun g => g.space = 0 && g.kind = 4).foldl (fun s g => s.poisonRows t g.base g.size) s

/-! ### Clean-up (R238, R392-R395) -/

/-- A tile is quenched: it stops issuing, its lease epoch rises, its port closes (R392). -/
def State.quench (s : State) (t : Nat) : State :=
  if (s.tile t).quenched then s
  else
    let s := (((s.wakeTile t).endWait t).reportMisses t []).updTile t fun x =>
      { x.unpresent with quenched := true, leaseEpoch := x.leaseEpoch + 1, run := .halted, holdCause := 255, lineWait := [], barWait := .none }
    s.bump 0xB190 3 1

/-- The rows of a tile after an abort: those of dispatched operations that had not finished, and the output regions (Table 10-4). -/
def State.abortRows (s : State) (im : Image) (t : Nat) : State :=
  ((s.tile t).running.foldl (fun s o => s.poisonRows t o.rgnD.1 o.rgnD.2) s).poisonOutputs im t

/-- The leases of a tile revoked: scoreboard and queue entries freed, unserved reads and queued requests dropped (R393, Table 18-4). -/
def State.revokeTile (s : State) (t : Nat) : State :=
  let x := s.tile t
  let n := x.queue.length + x.running.length + x.scoreboard.length
  let s := s.updTile t fun x => { x with queue := [], running := [], scoreboard := [], signalsOut := [] }
  let keep (q : Sorter) : Sorter :=
    { q with entries := q.entries.filter fun e => e.source ≠ t || e.write.isSome, inputQueue := q.inputQueue.filter fun r => r.source ≠ t
             capped := q.capped.filter fun r => r.source ≠ t }
  let lost := (s.sorters.map fun (p : Nat × Sorter) => p.2.entries.length + p.2.inputQueue.length + p.2.capped.length).sum
  let s := { s with sorters := s.sorters.map fun (p : Nat × Sorter) => (p.1, keep p.2) }
  let left := (s.sorters.map fun (p : Nat × Sorter) => p.2.entries.length + p.2.inputQueue.length + p.2.capped.length).sum
  s.bump 0xB190 4 (n + (lost - left))

/-- The leases that the job itself holds: streams, barrier slots, the public-key engine (Table 18-4). -/
def State.jobLeases (s : State) (j mask : Nat) : Nat :=
  ((List.range 16).filter fun k => (s.stream k).bound && (s.stream k).job = j).length + popCount mask + (if s.entry 0x9200 1 = j then 1 else 0)

/-- The descriptor of a handle as the ledger holds it (R72); the flags VALID and POISON are the writer's. -/
def State.descriptorOf (s : State) (im : Image) (j x : Nat) (valid poison : Bool) (crc : Nat) : Descriptor :=
  let h := ((s.job j).handle? x).getD default
  let d := im.decl x
  { format := s.descriptorFormat, set := h.set, family := h.family, flags := flagsOf valid poison h.ash (bit d.flags 2) (bit d.flags 0), level := h.level
    comps := h.comps, scale := h.scale, noise := h.noise, layout := h.layout, count := h.count, tag := h.tag, location := h.location
    bodyLength := s.bodyLength im h, bodyCrc := crc }

/-- The output and in-place handles of an image, ascending. -/
def Image.outputHandles (im : Image) : List Nat := (List.range im.handles.length).filter fun x => 2 ≤ (im.decl x).kind

/-- The mark that an operation of the supervisor writes a poisoned descriptor (R395). -/
abbrev poisonWrite : Nat := 0x10000

/-- Bytes 0 to 7 of a descriptor that did not turn VALID: VALID clear, POISON set (R395 step 6). -/
def State.poisonDescriptor (s : State) (im : Image) (j x : Nat) : State :=
  let addr := (im.decl x).descAddr
  let a := localOf addr
  let b := (s.descriptorOf im j x false true 0).bytes.take 8
  if s.isSelf (nodeOf addr) then (if inStack a 8 ∧ !s.inImage a 8 then s.memWrite a b else s)
  else if s.issueStatus (nodeOf addr) 1 a ≠ OK then (s.countFail false (s.issueStatus (nodeOf addr) 1 a)).bump 0xB190 7 1
  else s.issueOp (nodeOf addr) 2 1 a 8 0 b issuerSupervisor 0xFF (poisonWrite + x)

/-- Whether an operation is the VALID write of an output, or the read that shows it durable. -/
def State.isValidWrite (s : State) (r : RemoteOp) : Bool :=
  r.issuer = issuerSupervisor && r.job < 16 && (s.job r.job).inFlight.contains r.opId

/-- Steps 1 to 6 of Table 18-5; a VALID write under way is followed to its end, which decides its output (R28, log entry 64). -/
def State.cleanUp (s : State) (j : Nat) (im : Image) : State :=
  let group := (s.job j).group
  let s := s.bump 0xB190 4 (s.jobLeases j im.cert.barrierMask)
  let s := group.foldl (fun s t => (s.quench t).abortRows im t) s
  let s := (s.cancelStreams j false).wipePkeOf j
  let s := group.foldl (fun s t => s.revokeTile t) s
  let s := s.orphanOps fun r => r.job = j && !s.isValidWrite r
  let s := (s.outputRegions im j).foldl (fun s r => s.markPoison r.1 r.2) s
  let kept := (s.job j).committed ++ (s.job j).inFlight
  let s := (im.outputHandles.filter fun x => !kept.contains x).foldl (fun s x => s.poisonDescriptor im j x) s
  s.updJob j fun y => { y with cleaned := true, bindNext := none }

/-- Whether a marking of the job's output or in-place memory still waits for a poison-table entry (R295). -/
def State.markingWaits (s : State) (im : Image) : Bool :=
  s.poisonWaits.any fun w => im.memRegions.any fun r =>
    (r.kind = 4 || r.kind = 5) && s.isSelf (nodeOf r.base) && overlaps w.1 w.2 (localOf r.base) r.size

/-- The clean-up of an aborted job; a marking that waits for a poison-table entry, and a VALID write under way, hold back HALTED (R28, R295, R395). -/
def State.abortCleanup (s : State) (j : Nat) : State :=
  let x := s.job j
  match x.image with
  | none => s
  | some im =>
    if x.state ≠ .draining ∨ x.drain ≠ .abort then s
    else
      let s := if x.cleaned then s else s.cleanUp j im
      if s.markingWaits im ∨ !(s.job j).inFlight.isEmpty then s else s.endJob j 2 x.abortCode

/-- JOB_ABORT_CLEANUP. -/
def execJobAbortCleanup (job : Nat) (s : State) : Host.Outcome State Fault Refusal := onJob job s fun s => s.abortCleanup job

/-! ### RELEASE and REARM (Table 11-9) -/

/-- The group's tiles leave the job: quenched no more, idle (R392). -/
def State.freeTiles (s : State) (group : List Nat) : State :=
  group.foldl (fun s t => s.updTile t fun x => { x with quenched := false, run := .idle, stopped := false, barWait := .none }) s

/-- RELEASE: reservations and references dropped, the image writable. -/
def State.release (s : State) (j : Nat) : State := ((s.freeTiles (s.job j).group).setJob j {}).noteIdle

/-- REARM: LOADED with the same admission. -/
def State.rearm (s : State) (j : Nat) : State :=
  let x := s.job j
  match x.image with
  | none => s
  | some im => (s.freeTiles x.group).enterLoaded j im x.imageBase x.group true

/-! ### JobControl (R252, Table 11-9) -/

/-- The states in which a JobControl command is legal; DEEP_IDLE refuses LOAD (R359). -/
def State.jobLegal (s : State) (j v : Nat) : Bool :=
  let x := s.job j
  match v with
  | 1 => x.state = .ready && !x.checking && !s.deepIdle
  | 2 => x.state = .loaded
  | 3 => x.state = .running || (x.state = .draining && x.drain = .commit)
  | 4 => x.state = .loaded || x.state = .halted
  | _ => x.state = .halted

/-- What a legal JobControl command does: LOAD, START, ABORT, RELEASE, REARM. -/
def State.jobAct (s : State) (j v : Nat) : State :=
  match v with
  | 1 => s.load j
  | 2 => s.start j
  | 3 => (s.abortJob j OK 0xFF 0).abortCleanup j
  | 4 => s.release j
  | _ => s.rearm j

/-- A write of JobControl: carried out in a legal state, refused with STATE_CONFLICT in any other (R252). -/
def State.jobControlOp (s : State) (j v : Nat) : Nat × State := if s.jobLegal j v then (OK, s.jobAct j v) else (STATE_CONFLICT, s)

/-- A JobControl command through a context: a write of 0x6100 + j:01. A slot beyond the 16 has no such entry, and the write is that
of an absent one, ENTRY_ABSENT (R29, R251). -/
def State.jobCommand (s : State) (ctx j v : Nat) : State := s.writeEntry ctx (0x6100 + min j 16) 1 v fun s => s.jobControlOp j v

/-- JOB_LOAD. -/
def execJobLoad (ctx job : Nat) (s : State) : Host.Outcome State Fault Refusal := .next (s.jobCommand ctx job 1)

/-- JOB_START. -/
def execJobStart (ctx job : Nat) (s : State) : Host.Outcome State Fault Refusal := .next (s.jobCommand ctx job 2)

/-- JOB_ABORT. -/
def execJobAbort (ctx job : Nat) (s : State) : Host.Outcome State Fault Refusal := .next (s.jobCommand ctx job 3)

/-- JOB_RELEASE. -/
def execJobRelease (ctx job : Nat) (s : State) : Host.Outcome State Fault Refusal := .next (s.jobCommand ctx job 4)

/-- JOB_REARM. -/
def execJobRearm (ctx job : Nat) (s : State) : Host.Outcome State Fault Refusal := .next (s.jobCommand ctx job 5)

/-! ### Commit (R72, R254) -/

/-- The units that compute BODY_CRC: stack writeback (R72, Table 18-1). -/
abbrev writebackUnits : List Nat := [22, 23]

/-- A handle requests its BODY_CRC. -/
def Image.wantsCrc (im : Image) (x : Nat) : Bool := bit (im.decl x).flags 0

/-- The body that a BODY_CRC covers: of local stack memory, or as it left for another node (log entry 40). -/
def State.commitBody (s : State) (im : Image) (j x : Nat) : List Byte :=
  let h := ((s.job j).handle? x).getD default
  let n := s.bodyLength im h
  if s.isSelf (nodeOf h.location) then s.memBytes (localOf h.location) n else (List.range n).map fun i => Config.remoteByte s.freeCount i

/-- BODY_CRC of a handle that requests it (R72). -/
def State.commitCrc (s : State) (im : Image) (j x : Nat) : Nat := if im.wantsCrc x then crc64 (s.commitBody im j x) else 0

/-- The context that computed a BODY_CRC is left SAVED (R388). -/
def State.saveCommit (s : State) (im : Image) (j x : Nat) : State :=
  match s.openCheck writebackUnits with
  | some c => if im.wantsCrc x then let b := s.commitBody im j x; s.savedCheck c (crc64Run (2 ^ 64 - 1) b) b.length else s
  | none => s

/-- A commit waits while a BODY_CRC finds every context of stack writeback BOUND (R388). -/
def State.commitWaits (s : State) (im : Image) : Bool := im.outputHandles.any im.wantsCrc && (s.openCheck writebackUnits).isNone

/-- A supervisor's write to another node, and behind a write to the host the zero-length read that shows it durable (Table 1-5). -/
def State.remotePut (s : State) (node a : Nat) (b : List Byte) (j x : Nat) : State :=
  let s := s.issueOp node 2 1 a b.length 0 b issuerSupervisor j x
  if node = 0xFFFE then s.issueOp node 2 2 a 0 0 [] issuerSupervisor j x else s

/-- A descriptor write that cannot be made: the output stays not VALID and POISON, and a committing job ends ABORTED (R28, R254). -/
def State.commitFails (s : State) (j x code : Nat) : State :=
  let h := ((s.job j).handle? x).getD default
  let y := s.job j
  let first := if y.commitFailed = 0 then code else y.commitFailed
  let s := s.setJob j { y with commitFailed := first, commits := y.commits.filter (fun c => c.handle ≠ x) }
  match y.image with
  | none => s
  | some im =>
    let n := s.bodyLength im h
    let s := if s.isSelf (nodeOf h.location) ∧ inStack (localOf h.location) n then s.markPoison (localOf h.location) n else s
    if y.drain = .abort then s.poisonDescriptor im j x else s

/-- A write of the supervisor for a handle of a job is still on its way (Table 1-5). -/
def State.supervisorBusy (s : State) (j : Nat) (x : Option Nat) : Bool :=
  s.remoteOps.any fun r => r.issuer = issuerSupervisor && r.job = j && (x.all fun x => r.opId = x)

/-- A VALID write that is durable: its output is committed (R27, R28, Table 1-5). -/
def State.settleValid (s : State) (j x : Nat) : State :=
  if (s.job j).inFlight.contains x ∧ !s.supervisorBusy j (some x) then
    s.updJob j fun y => { y with commits := y.commits.filter (fun c => c.handle ≠ x), committed := y.committed ++ [x] }
  else s

/-- `b` written at offset `off` of a handle's descriptor. -/
def State.writeDescriptor (s : State) (im : Image) (j x off : Nat) (b : List Byte) : State :=
  let addr := (im.decl x).descAddr
  let a := localOf addr + off
  if s.isSelf (nodeOf addr) then
    if !inStack a b.length ∨ s.inImage a b.length then s.commitFails j x ACCESS_PROTECT else s.memWrite a b
  else
    let st := s.issueStatus (nodeOf addr) 1 a
    if st ≠ OK then (s.countFail false st).commitFails j x st else s.remotePut (nodeOf addr) a b j x

/-- A body in host memory is durable once a zero-length read of node 0xFFFE has completed; behind a descriptor there, its own read shows it (Table 1-5). -/
def State.bodyRead (s : State) (im : Image) (j x : Nat) : State :=
  let h := ((s.job j).handle? x).getD default
  if nodeOf h.location ≠ 0xFFFE ∨ nodeOf (im.decl x).descAddr = 0xFFFE ∨ !((s.job j).commits.any fun c => c.handle = x) then s
  else
    let st := s.issueStatus 0xFFFE 2 (localOf h.location)
    if st ≠ OK then (s.countFail true st).commitFails j x st else s.issueOp 0xFFFE 2 2 (localOf h.location) 0 0 [] issuerSupervisor j x

/-- The first write of an output descriptor: all of it with VALID clear (R72). -/
def State.firstWrite (s : State) (im : Image) (j x : Nat) : State :=
  let s := s.updJob j fun y => { y with commits := y.commits ++ [{ handle := x, validWritten := false }] }
  let crc := s.commitCrc im j x
  ((s.saveCommit im j x).useFree.writeDescriptor im j x 0 (s.descriptorOf im j x false false crc).bytes).bodyRead im j x

/-- When every tile has halted, and no StopAfterBundle is set (R257, log entry 20), the job enters DRAINING and its descriptors are written in ascending handle order (R254). -/
def State.commit (s : State) (j : Nat) (im : Image) : State :=
  let s := s.updJob j fun y => { y with state := .draining, drain := .commit, drainedAt := s.now }
  im.outputHandles.foldl (fun s x => s.firstWrite im j x) s

/-- JOB_COMMIT. -/
def execJobCommit (job : Nat) (s : State) : Host.Outcome State Fault Refusal :=
  onJob job s fun s =>
    let x := s.job job
    match x.image with
    | some im =>
      if x.state = .running ∧ x.runs ∧ s.entry (0x6120 + job) 1 = 0 ∧ x.group.all (fun t => (s.tile t).hasHalted) ∧ !s.commitWaits im then s.commit job im
      else s
    | none => s

/-- Bytes 0 to 7 again, with VALID set, once the body and the first write are durable (R72). -/
def State.validWrite (s : State) (im : Image) (j x : Nat) : State :=
  let s := s.updJob j fun y => { y with commits := y.commits.map fun c => if c.handle = x then { c with validWritten := true } else c }
  (s.writeDescriptor im j x 0 ((s.descriptorOf im j x true false 0).bytes.take 8)).settleValid j x

/-- DESCRIPTOR_VALID_WRITE. -/
def execDescriptorValidWrite (job handle : Nat) (s : State) : Host.Outcome State Fault Refusal :=
  onJob job s fun s =>
    let x := s.job job
    match x.image with
    | some im =>
      if x.drain = .commit ∧ x.commits.any (fun c => c.handle = handle && !c.validWritten) ∧ !s.supervisorBusy job (some handle) then s.validWrite im job handle
      else s
    | none => s

/-- The completion SIGNAL of the certificate: a 64-bit counter raised, here or at another node (R235, R254). -/
def State.signalCompletion (s : State) (j : Nat) (c : Cert) : State :=
  let a := localOf c.completionAddr
  let node := nodeOf c.completionAddr
  if c.completionAddr = 0 then s
  else if s.isSelf node then
    if inStack a 8 ∧ a % 8 = 0 ∧ !s.inImage a 8 ∧ !s.rangePoisoned a 8 then s.memWrite a (leBytes 8 ((leNat (s.memBytes a 8) + c.completionInc) % 2 ^ 64)) else s
  else if s.issueStatus node 5 a ≠ OK then s.countFail false (s.issueStatus node 5 a)
  else s.issueOp node 2 5 a 8 c.completionInc [] issuerSupervisor j 0xFFFF

/-- The commit ends: NORMAL behind the SIGNAL, or ABORTED with the first failure and no SIGNAL (R254). -/
def State.endCommit (s : State) (j : Nat) (im : Image) : State :=
  let x := s.job j
  if x.commitFailed = 0 then (((s.signalCompletion j im.cert).cancelStreams j true)).endJob j 1 OK
  else
    let s := (im.outputHandles.filter fun h => !x.committed.contains h).foldl (fun s h => s.poisonDescriptor im j h) s
    ((s.setJob j { s.job j with abortCode := x.commitFailed, abortTile := 0xFF, abortBundle := 0 }).cancelStreams j false).endJob j 2 x.commitFailed

/-- COMPLETION_SIGNAL: every VALID write is durable. -/
def execCompletionSignal (job : Nat) (s : State) : Host.Outcome State Fault Refusal :=
  onJob job s fun s =>
    let x := s.job job
    match x.image with
    | some im =>
      if x.state = .draining ∧ x.drain = .commit ∧ x.commits.isEmpty ∧ !s.supervisorBusy job none then s.endCommit job im else s
    | none => s

/-! ### StopAfterBundle (R257) -/

/-- The tile has stopped: at its count, or at its HALT. -/
def Tile.isStopped (x : Tile) : Bool := x.stopped || x.run = .halted

/-- Its long operations have run to completion. -/
def Tile.drained (x : Tile) : Bool := x.queue.isEmpty && x.running.isEmpty && x.verifyDue.isEmpty

/-- Long operations that still wait are cancelled and their destination rows turn POISON; queued ones are discarded. -/
def State.cancelWaiting (s : State) (t : Nat) : State :=
  let s := (s.tile t).running.foldl (fun s o => s.poisonRows t o.rgnD.1 o.rgnD.2) s
  s.updTile t fun x => { x with queue := [], running := [], scoreboard := [] }

/-- The stop is complete: a snapshot, nothing committed, outputs POISON as in R28, HALTED with STOPPED. -/
def State.stopJob (s : State) (j : Nat) (im : Image) : State :=
  let s := s.addTick { time := s.fabricTime, source := srcStop, timed := false, job := j, origin := s.entry 0x4010 1 }
  let s := (s.job j).group.foldl (fun s t => ((((s.wakeTile t).endWait t).cancelWaiting t).reportMisses t []).poisonOutputs im t) s
  let s := (s.outputRegions im j).foldl (fun s r => s.markPoison r.1 r.2) (s.cancelStreams j false)
  s.endJob j 3 OK

/-- JOB_STOP_COMPLETE. -/
def execJobStopComplete (job : Nat) (s : State) : Host.Outcome State Fault Refusal :=
  onJob job s fun s =>
    let x := s.job job
    match x.image with
    | some im =>
      if x.runs ∧ x.state = .running ∧ s.entry (0x6120 + job) 1 ≠ 0
          ∧ x.group.all (fun t => (s.tile t).isStopped && (s.tile t).drained) then s.stopJob job im
      else s
    | none => s

/-- Whether a tile has stopped and its long operations have completed, or whether StopSettle has passed since it last issued, whatever holds
it or its operations (log entry 20). -/
def State.settled (s : State) (j t : Nat) : Bool :=
  let x := s.tile t
  (x.isStopped && x.drained)
    || ((x.isStopped || x.run = .held || x.barWait ≠ .none) && decide (x.lastIssue + 1000 * s.entry (0x6120 + j) 2 ≤ s.now))

/-- STOP_SETTLE_TIMEOUT. -/
def execStopSettleTimeout (job : Nat) (s : State) : Host.Outcome State Fault Refusal :=
  onJob job s fun s =>
    let x := s.job job
    match x.image with
    | some im =>
      if x.runs ∧ x.state = .running ∧ s.entry (0x6120 + job) 1 ≠ 0 ∧ x.group.all (fun t => s.settled job t) then
        s.stopJob job im
      else s
    | none => s

end Sys2Proof.Machine
end

