-- ==== Sys2Proof/Machine/CheckOps.lean ====
section
/-! DEFINITION. Check runs, leases and the watchdog (R389, R390, R393, R394, R397). -/

namespace Sys2Proof.Machine

/-! ### Check runs (R390) -/

/-- The units that serve a check run's source: none where no unit does. -/
def State.checkUnits (s : State) (source : Nat) : List Nat := s.unitsFor (nodeOf source) (s.isSelf (nodeOf source))

/-- Whether a context may serve the run: it belongs to a serving unit (R390). -/
def State.checkContextFits (s : State) (source context : Nat) : Bool :=
  let units := s.checkUnits source
  units.isEmpty || units.contains (context / 4)

/-- Bytes folded through a context. -/
def State.foldInto (s : State) (n : Nat) (b : List Byte) : State :=
  let r := s.entry (0xB100 + n) 3
  let r' := if s.entry (0xB100 + n) 2 = 1 then crc32cRun r b else crc64Run r b
  s.foldCheck n r' ((s.entry (0xB100 + n) 4 + b.length) % 2 ^ 64)

/-- The check value of a context (R387). -/
def State.checkValue (s : State) (n : Nat) : Nat :=
  let r := s.entry (0xB100 + n) 3
  if s.entry (0xB100 + n) 2 = 1 then crc32cValue r else crc64Value r

/-- The first `n` bytes of a run's source, where they lie on this device; of another node the model has a free value of each. -/
def State.checkBytes (s : State) (c : CheckRun) (n : Nat) : List Byte :=
  if s.isSelf (nodeOf c.source) then s.memBytes (localOf c.source) n else (List.range n).map fun i => Config.remoteByte s.freeCount i

/-- The run ends: its status, the context SAVED (R390); reads still under way are nobody's. -/
def State.endRun (s : State) (c : CheckRun) (status : Nat) : State :=
  (({ s.orphanOps fun r => r.issuer = issuerCheck with checkRun := none }).endCheck c.context).setEntry 0xB180 5 status

/-- The source of a run that may not be read at all: no node, or no visible stack memory (R390). -/
def State.checkForbidden (s : State) (c : CheckRun) : Bool :=
  let node := nodeOf c.source
  if s.isSelf node then !inStack (localOf c.source) c.length else node ≠ 0xFFFE && decide (16384 ≤ node)

/-- The reads of a run over another node's memory or the host's leave as GETs of at most 4,096 bytes; one that is refused ends the run (R390, R307). -/
def State.checkReads (s : State) (c : CheckRun) : State :=
  let node := nodeOf c.source
  let a := localOf c.source
  if s.isSelf node ∨ s.checkForbidden c then s
  else
    let status := s.issueStatus node 2 a
    if status ≠ OK then (s.countFail (node = 0xFFFE) status).endRun c status
    else (List.range (ceilDiv c.length 4096)).foldl (fun s i =>
      s.issueOp node 0 2 (a + 4096 * i) (min 4096 (c.length - 4096 * i)) 0 [] issuerCheck 0xFF 0) s

/-- START, or RESUME from what the context holds: the write copies source, length and context (R390).
Where both hold, VALUE_RANGE comes before STATE_CONFLICT, as R437 orders the refusals of a value. -/
def State.checkBegin (s : State) (resume : Bool) : Nat × State :=
  let c : CheckRun := { source := s.entry 0xB180 1, length := s.entry 0xB180 2, context := s.entry 0xB180 3 }
  let n := c.context
  if !s.checkContextFits c.source n then (VALUE_RANGE, s)
  else if s.checkRun.isSome ∨ s.contextBound n then (STATE_CONFLICT, s)
  else
    let poly := s.entry (0xB100 + n) 2
    let s := s.touchOwn c.source c.length
    let s := if resume then s.putCheck n 1 poly (s.entry (0xB100 + n) 3) (s.entry (0xB100 + n) 4) 0xFE else s.bindCheck n poly 0xFE
    (OK, (({ s with checkRun := some c }).setEntry 0xB180 5 PENDING).checkReads c)

/-- A run that stops before its end has folded whole granules, how many the spec does not fix. -/
def State.foldPart (s : State) (c : CheckRun) : State :=
  let n := min c.length (256 * Config.foldedGranules s.freeCount)
  (s.foldInto c.context (s.checkBytes c n)).useFree

/-- CANCEL: at the next granule (R390); with no run it changes nothing. -/
def State.checkCancelOp (s : State) : Nat × State :=
  match s.checkRun with
  | none => (OK, s)
  | some c => (OK, (s.foldPart c).endRun c GROUP_DISCARDED)

/-- CHECK_START. -/
def execCheckStart (ctx : Nat) (s : State) : Host.Outcome State Fault Refusal := .next (s.writeEntry ctx 0xB180 4 1 fun s => s.checkBegin false)

/-- CHECK_RESUME. -/
def execCheckResume (ctx : Nat) (s : State) : Host.Outcome State Fault Refusal := .next (s.writeEntry ctx 0xB180 4 2 fun s => s.checkBegin true)

/-- CHECK_CANCEL. -/
def execCheckCancel (ctx : Nat) (s : State) : Host.Outcome State Fault Refusal := .next (s.writeEntry ctx 0xB180 4 3 State.checkCancelOp)

/-- The end of a check run's read: a failure ends the run with the read's code (R390, R316). -/
def State.endCheckOp (s : State) (status : Nat) : State :=
  match s.checkRun with
  | some c => if status = OK then s else (s.foldPart c).endRun c status
  | none => s

/-- How the reads of a run over this device's memory end (R293, R390). -/
def State.checkStatus (s : State) (c : CheckRun) (status : Nat) : Nat :=
  if !s.isSelf (nodeOf c.source) then OK
  else if s.rangePoisoned (localOf c.source) c.length then SLOT_POISON
  else if status = MEM_UNCORRECTABLE then status
  else OK

/-- CHECK_RUN_COMPLETE: the end of a run whose reads have all completed, with the bytes of one over another node's memory (R390, log entry 40). -/
def execCheckRunComplete (status : Nat) (remote : List Byte) (s : State) : Host.Outcome State Fault Refusal :=
  .next (match s.checkRun with
    | none => s
    | some c =>
      if s.checkForbidden c then s.endRun c ACCESS_PROTECT
      else if s.issuerBusy issuerCheck then s
      else
        let code := s.checkStatus c status
        if code ≠ OK then (s.foldPart c).endRun c code
        else
          let b := if s.isSelf (nodeOf c.source) then s.memBytes (localOf c.source) c.length else sliceBytes remote 0 c.length
          let s := s.foldInto c.context b
          (s.setEntry 0xB180 6 (s.checkValue c.context)).endRun c OK)

/-- CONTEXT_WRITE (R389). A context beyond the 96 has no entries, and the write is that of an absent one, ENTRY_ABSENT (R29, R386). -/
def execContextWrite (ctx context sub : Nat) (value : Word) (s : State) : Host.Outcome State Fault Refusal :=
  let index := 0xB100 + min context 96
  .next (s.writeEntry ctx index sub value.toNat fun s => s.applyEntry ctx index sub value.toNat)

/-! ### Leases (R393, R394) -/

/-- LEASE_RENEW: every lease of the tile's island; a tile that was taken through OFF renews and so recovers. -/
def execLeaseRenew (t : Nat) (s : State) : Host.Outcome State Fault Refusal :=
  onTile t s fun s => if s.tileEnabled t then s.updTile t fun x => { x with leaseAt := s.now, recoverBy := none } else s

/-- Whether the heat ledger renews on a tile's behalf: T2 to T4 (R394). -/
def State.renewedByLedger (s : State) (t : Nat) : Bool := 2 ≤ s.tileState t

/-- The tile's domain goes through OFF and back: nothing of it is kept but the operations that wait at its window, and it has 1 ms after its exit and reload to renew (R394, Table 16-2). -/
def State.cyclePower (s : State) (t : Nat) : State :=
  let s := (s.setBanks t 0).updTile t fun x =>
    { bankEpochs := x.bankEpochs, quenched := x.quenched, run := x.run, leaseEpoch := x.leaseEpoch, leaseAt := x.leaseAt
      windowPuts := x.windowPuts, windowLanded := x.windowLanded, windowGets := x.windowGets
      recoverBy := some (s.now + 80000 + 1000000) }
  (s.settleLanded t).setEntry (0xA0C0 + t) 1 0

/-- A granting unit has seen no renewal for 8 us (R394). -/
def State.leaseTimeout (s : State) (t granter : Nat) : State :=
  let x := s.tile t
  if !s.tileEnabled t ∨ s.renewedByLedger t ∨ s.now < x.leaseAt + 8000 ∨ x.recoverBy.isSome ∨ bit (s.entry 0xB190 2) t then s
  else
    let s := s.quench t
    let s := match s.jobOfTile t with
      | some j => s.abortJob j TILE_UNRESPONSIVE t x.nextBundle
      | none => s
    (s.raise 0xB030 0xFF TILE_UNRESPONSIVE t granter).cyclePower t

/-- LEASE_TIMEOUT. -/
def execLeaseTimeout (t granter : Nat) (s : State) : Host.Outcome State Fault Refusal := onTile t s fun s => s.leaseTimeout t granter

/-- TILE_RECOVERY_TIMEOUT: the tile is failed, and its domain held OFF (R394). -/
def execTileRecoveryTimeout (t : Nat) (s : State) : Host.Outcome State Fault Refusal :=
  onTile t s fun s =>
    match (s.tile t).recoverBy with
    | none => s
    | some d =>
      if s.now < d then s
      else
        let failed := if bit (s.entry 0xB190 2) t then s.entry 0xB190 2 else s.entry 0xB190 2 + 2 ^ t
        (((s.updTile t fun x => { x with recoverBy := none }).setEntry 0xB190 2 failed).setEntry (0xA0C0 + t) 1 4).raise 0xB031 0xFF TILE_UNRESPONSIVE t failed

/-! ### The watchdog (R397) -/

/-- WATCHDOG_KICK: the counter restarts with the period in force. -/
def execWatchdogKick (s : State) : Host.Outcome State Fault Refusal :=
  .next (if s.ready then { s with watchdogAt := s.now, watchdogLimit := 1000000 * s.entry 0xB190 1 } else s)

/-- WATCHDOG_EXPIRY: the gate end sends an EVENT_NOTICE with WATCHDOG_RESTART. -/
def execWatchdogExpiry (s : State) : Host.Outcome State Fault Refusal :=
  .next (
    if !s.ready ∨ s.now < s.watchdogAt + s.watchdogLimit then s
    else
      let e : LogEntry := { event := 0x40, job := 0xFF, code := WATCHDOG_RESTART, seq := s.logNext, time := s.fabricTime, detail0 := s.entry 0xB190 1, detail1 := 0 }
      { s with watchdogAt := s.now }.notice e)

end Sys2Proof.Machine
end

