-- ==== Sys2Proof/Machine/Conversion.lean ====
section
/-! DEFINITION. The direct conversion service (R120-R122). -/

namespace Sys2Proof.Machine

/-! ### What a conversion reads and writes -/

/-- The bytes that a conversion reads: elements of its source code, or limb-0 residues (R69, R117). -/
def Conversion.sourceLength (c : Conversion) : Nat :=
  if cwMode c.word = 2 then ceilDiv (c.count * 9) 2 else formatBytes (cwSrc c.word) (cwBlock c.word) c.count

/-- The bytes that a conversion writes: for ENCODE the header block and the body (R121). -/
def Conversion.destLength (c : Conversion) (p : Option ParamSet) : Nat :=
  if cwMode c.word = 1 then 64 + ((p.map fun p => p.n * cwLevel c.word * 9 / 2).getD 0) else formatBytes (cwDst c.word) (cwBlock c.word) c.count

/-- The set of a conversion's residues. -/
def State.convSet (s : State) (c : Conversion) : Option ParamSet := s.set? (cwSet c.word)

/-- A range of this device that a direct conversion may reach: visible stack memory, and no job's image where it writes. -/
def State.convRange (s : State) (addr n : Nat) (write : Bool) : Bool :=
  !s.isSelf (nodeOf addr) || (inStack (localOf addr) n && !(write && s.inImage (localOf addr) n))

/-- Source and destination pass translation and protection (R120). -/
def State.convReach (s : State) (c : Conversion) : Bool :=
  s.convRange c.source c.sourceLength false && s.convRange c.destination (c.destLength (s.convSet c)) true

/-! ### START and CANCEL -/

/-- The conversion that START copies from 0x2820:01 to 0x2820:04. -/
def State.convEntries (s : State) (t : Nat) : Conversion :=
  { tile := t, source := s.entry 0x2820 1, destination := s.entry 0x2820 2, count := s.entry 0x2820 3, word := s.entry 0x2820 4 }

/-- The lowest-numbered enabled tile of no job (R120). -/
def State.convTile (s : State) : Option Nat := tileNumbers.find? s.tileFree

/-- Whether an operation is the running conversion's. -/
def Conversion.owns (c : Conversion) (r : RemoteOp) : Bool := r.issuer = c.tile && r.job = 0xFF

/-- The destination of a cancelled or failed conversion holds undefined contents (R120): free values. -/
def State.undefineDestination (s : State) (c : Conversion) : State :=
  if s.isSelf (nodeOf c.destination) ∧ s.convReach c then
    s.useFree.memWrite (localOf c.destination) ((List.range (c.destLength (s.convSet c))).map fun i => Config.undefinedByte s.freeCount i)
  else s

/-- The conversion has ended: its status, its end time, its tile free again; operations that it left under way are nobody's. -/
def State.endConversion (s : State) (c : Conversion) (code : Nat) : State :=
  ((({ s.orphanOps c.owns with conversion := none }).setEntry 0x2820 6 code).setEntry 0x2820 9 s.fabricTime).noteIdle

/-- A conversion fails (R120). -/
def State.convFail (s : State) (c : Conversion) (code : Nat) : State := (s.undefineDestination c).endConversion c code

/-- Operations of a conversion over a range of another node, at most 4,096 bytes each, on virtual lane 0; a node that cannot be reached
ends the conversion. -/
def State.convIssue (s : State) (c : Conversion) (code addr n : Nat) (b : List Byte) : State :=
  let status := s.issueStatus (nodeOf addr) code (localOf addr)
  if status ≠ OK then (s.countFail (nodeOf addr = 0xFFFE) status).convFail c status
  else
    (List.range (ceilDiv n 4096)).foldl (fun s i =>
      s.issueOp (nodeOf addr) 0 code (localOf addr + 4096 * i) (min 4096 (n - 4096 * i)) 0 (sliceBytes b (4096 * i) (min 4096 (b.length - 4096 * i))) c.tile 0xFF 0) s

/-- START: the conversion runs on its tile in T0 at P0, with its projection in the ledger; a source on another node is read
by GETs (R120, R350, R353, log entry 40). A range outside what it may reach ends it. -/
def State.startConversion (s : State) (t : Nat) : State :=
  let c := s.convEntries t
  let s := ((s.touchOwn c.source c.sourceLength).touchOwn c.destination 64)
  let s := ({ s with conversion := some c }).setEntry 0x2820 6 PENDING
  let s := (((s.setEntry 0x2820 7 t).setEntry (0xA0C0 + t) 1 0).setEntry (0xA0C0 + t) 2 0).grantPower (s.tilesPower 1 4 0)
  if !s.convReach c then s.convFail c ACCESS_PROTECT
  else if s.isSelf (nodeOf c.source) then s
  else s.convIssue c 2 c.source c.sourceLength []

/-- The write of 1 to ConvControl: refused while one runs, with no tile free, or with a word or an alignment out of range (R108, R111, R120, R121).
DESIGN CHOICE, log entry 72: where both hold, STATE_CONFLICT comes before VALUE_RANGE. -/
def State.convStartOp (s : State) : Nat × State :=
  if s.conversion.isSome then (STATE_CONFLICT, s)
  else
    match s.convTile with
    | none => (STATE_CONFLICT, s)
    | some t =>
      let c := s.convEntries t
      if !cwValid c.word c.count (s.convSet c) ∨ (cwMode c.word = 1 ∧ c.destination % 64 ≠ 0) then (VALUE_RANGE, s) else (OK, s.startConversion t)

/-- CONV_START. -/
def execConvStart (ctx : Nat) (s : State) : Host.Outcome State Fault Refusal := .next (s.writeEntry ctx 0x2820 5 1 State.convStartOp)

/-- The write of 2 to ConvControl (R120); with no conversion running it changes nothing. -/
def State.convCancelOp (s : State) : Nat × State :=
  match s.conversion with
  | none => (OK, s)
  | some c => (OK, s.convFail c GROUP_DISCARDED)

/-- CONV_CANCEL. -/
def execConvCancel (ctx : Nat) (s : State) : Host.Outcome State Fault Refusal := .next (s.writeEntry ctx 0x2820 5 2 State.convCancelOp)

/-! ### Completion -/

/-- What a conversion writes from its source: the body, and the header of an ENCODE; the counts that it adds, and P_MEAS (R121, R122). -/
structure ConvResult where
  body : List Byte
  header : List Byte := []
  counts : ConvCounts
  measured : Option Nat := none
deriving DecidableEq, Repr

/-- The result of a conversion. -/
def State.convResult (s : State) (c : Conversion) (src : List Byte) : ConvResult :=
  let w := c.word
  match cwMode w, s.convSet c with
  | 1, some p =>
    let r := encodeInts w c.count src
    let body := encodeBody p w r.1
    { body := body, header := plaintextHeader w c.count (measured r.1) r.2 (crc64 body), counts := r.2, measured := some (measured r.1) }
  | 2, some p =>
    let r := convertDecode w (p.q 0) (unpackNat 36 c.count (leNat src))
    { body := r.1, counts := r.2 }
  | _, _ =>
    let r := convertFormat w c.count src
    { body := r.1, counts := r.2 }

/-- The results of a conversion leave for their destination: in stack memory the header follows the body at once, which the controller has
accepted; to another node the body goes first (R121, Table 1-5). The counts go into the device totals (R122). -/
def State.convWrite (s : State) (c : Conversion) (r : ConvResult) : State :=
  let s := (match r.measured with | some m => s.setEntry 0x2820 8 m | none => s).countConversion none r.counts
  let first := if r.header.isEmpty then c.destination else c.destination + 64
  if s.isSelf (nodeOf c.destination) then ((s.memWrite (localOf first) r.body).memWrite (localOf c.destination) r.header).endConversion c OK
  else
    let c := { c with stage := .writing, header := r.header }
    ({ s with conversion := some c }).convIssue c 1 first r.body.length r.body

/-- The source of a conversion, as stack memory holds it or as it arrived from another node. -/
def State.convSource (s : State) (c : Conversion) (remote : List Byte) : List Byte :=
  if s.isSelf (nodeOf c.source) then s.memBytes (localOf c.source) c.sourceLength else sliceBytes remote 0 c.sourceLength

/-- How reading the source ends: a range that an image has taken meanwhile, poisoned or uncorrectable words of this device's memory fail it (R120, R293). -/
def State.convStatus (s : State) (c : Conversion) (status : Nat) : Nat :=
  if !s.convReach c then ACCESS_PROTECT
  else if !s.isSelf (nodeOf c.source) then OK
  else if s.rangePoisoned (localOf c.source) c.sourceLength then SLOT_POISON
  else if status = MEM_UNCORRECTABLE then status
  else OK

/-- The header of an ENCODE leaves once its body is durable (R121). -/
def State.convHead (s : State) (c : Conversion) : State :=
  let c := { c with stage := .heading }
  ({ s with conversion := some c }).convIssue c 1 c.destination c.header.length c.header

/-- The next step of the running conversion, once the operations of the step before have completed: the source converted; a zero-length
read behind a body in host memory; the header; the end (R120, R121, Table 1-5, log entry 73). -/
def State.convAdvance (s : State) (c : Conversion) (status : Nat) (remote : List Byte) : State :=
  match c.stage with
  | .reading =>
    let code := s.convStatus c status
    if code = OK then s.convWrite c (s.convResult c (s.convSource c remote)) else s.convFail c code
  | .writing =>
    if c.header.isEmpty then s.endConversion c OK
    else if nodeOf c.destination = 0xFFFE then
      ({ s with conversion := some { c with stage := .proving } }).issueOp 0xFFFE 0 2 (localOf c.destination) 0 0 [] c.tile 0xFF 0
    else s.convHead c
  | .proving => s.convHead c
  | .heading => s.endConversion c OK

/-- CONV_COMPLETE (R120, R121). -/
def execConvComplete (status : Nat) (remote : List Byte) (s : State) : Host.Outcome State Fault Refusal :=
  .next (
    match s.conversion with
    | none => s
    | some c => if s.remoteOps.any c.owns then s else s.convAdvance c status remote)

end Sys2Proof.Machine
end

