-- ==== Sys2Proof/Machine/Issuer.lean ====
section
/-! DEFINITION. The end of an issued operation at its issuer: a tile's fetch engine, Geyser, the supervisor, the check run (R231, R235, R254, R315, R316, R395). -/

namespace Sys2Proof.Machine

/-- The end of a tile's operation: a SIGNAL's completion, or a transfer that fails (R231, R235), or a conversion, which a failure ends (R120). -/
def State.endTileOp (s : State) (r : RemoteOp) (status : Nat) : State :=
  if r.job = 0xFF then (match s.conversion with | some c => if status ≠ OK ∧ c.owns r then s.convFail c status else s | none => s)
  else if r.opcode = 5 then s.signalDone r.issuer r.opId status
  else if status = OK then s
  else
    match (s.tile r.issuer).runningOp r.opId with
    | some o => s.failLop r.issuer status o 0 0
    | none => s

/-- The end of an operation of Geyser's: a window of an MCAST_OUT stream (R190). -/
def State.endGeyserOp (s : State) (r : RemoteOp) (status : Nat) : State :=
  if status ≠ OK ∧ r.opcode ≠ 5 ∧ (s.stream r.opId).bound ∧ (s.stream r.opId).job = r.job then s.streamFail r.opId status else s

/-- The end of a supervisor's operation: the outcome of a poisoned descriptor's write (R395), a descriptor that binds (R71),
a write of a commit (R254); the completion SIGNAL's own end is nobody's. -/
def State.endSupervisorOp (s : State) (r : RemoteOp) (status : Nat) (data : List Byte) : State :=
  if poisonWrite ≤ r.opId then s.bump 0xB190 (if status = OK then 6 else 7) 1
  else if r.opId = 0xFFFF then s
  else
    let x := s.job r.job
    match x.image with
    | none => s
    | some im =>
      if x.state = .running ∧ x.bindNext = some r.opId ∧ r.opcode = 2 then
        if status = OK then s.bindBytes r.job r.opId im data else s.refuseBinding r.job r.opId status
      else if !(x.commits.any fun c => c.handle = r.opId) then s
      else if status ≠ OK then s.commitFails r.job r.opId status
      else s.settleValid r.job r.opId

/-- The issuer of an operation that has ended follows its own rule (R316). -/
def State.endIssuer (s : State) (r : RemoteOp) (status : Nat) (data : List Byte) : State :=
  if r.issuer < 64 then s.endTileOp r status
  else if r.issuer = issuerCheck then s.endCheckOp status
  else if r.issuer = issuerGeyser then s.endGeyserOp r status
  else if r.issuer = issuerSupervisor then s.endSupervisorOp r status data
  else s

/-- An operation has ended: its tag is free, a failure is counted, its issuer follows its own rule, and its triple has room (R311, R316). -/
def State.endOp (s : State) (r : RemoteOp) (status : Nat) (data : List Byte) : State :=
  let s := ((s.dropOp r.tag).countFail r.host status).endIssuer r status data
  if r.host then s else s.releaseWaits r.target r.vl

/-- Every operation to the host that is in flight fails (R327). -/
def State.failHostOps (s : State) : State :=
  (s.remoteOps.filter fun r => r.host).foldl (fun s r => s.endOp r HOST_LINK_DOWN []) s

/-- The completion timer of an operation has expired (R316). -/
def State.timedOut (s : State) (r : RemoteOp) : Bool := !r.waits && r.issuedAt + r.timeout ≤ s.now

end Sys2Proof.Machine
end

