-- ==== Sys2Proof/Machine/FabricLink.lean ====
section
/-! DEFINITION. The commands of the fabric's links, router and global time (R300-R303, R317, R322, R324). -/

namespace Sys2Proof.Machine

/-! ### Training (R303) -/

/-- The versions that this device offers: 2 and 3, or 2 alone under generation 1 (R303, R57). -/
def State.offered (s : State) : List Nat := if s.oldGeneration then [2] else [3, 2]

/-- The highest version offered by both ends; the peer's bitmap holds bit v for version v. -/
def State.commonVersion (s : State) (versions : Nat) : Option Nat := s.offered.find? fun v => bit versions v

/-- A training that fails: the port is DOWN and the event records the cause (R303). -/
def State.trainFail (s : State) (p cause : Nat) : State :=
  (((s.closePort p portDown).updPort p fun x => { x with lastTrain := s.now }).setEntry (0x4040 + p) 4 cause).raise 0xB0E0 0xFF cause p cause

/-- This end's TRAIN message: its node ID, the bitmap of the versions it offers and whether the peer is its time parent (R303). -/
def State.sendTrain (s : State) (p : Nat) : State :=
  s.emit (.train p s.nodeId (s.offered.map fun v => 2 ^ v).sum (s.entry 0x4010 7 = p))

/-- The TRAIN exchange: both ends send theirs; the port comes up at the highest common version, or records its error (R303). -/
def State.train (s : State) (p node versions : Nat) (timeParent : Bool) : State :=
  if !s.portEnabled p ∨ s.portState p ≠ portTraining then s
  else
  let s := s.sendTrain p
  if node = s.nodeId then s.trainFail p STATE_CONFLICT
  else
    match s.commonVersion versions with
    | none => s.trainFail p FABRIC_VERSION
    | some v =>
      let s := ((s.setEntry (0x4040 + p) 1 portUp).setEntry (0x4040 + p) 2 v).setEntry (0x4040 + p) 3 node
      s.updPort p fun x => { x with peerTimeParent := timeParent, lanes := [] }

/-- TRAIN_EXCHANGE (R303). -/
def execTrainExchange (port node versions : Nat) (timeParent : Bool) (s : State) : Host.Outcome State Fault Refusal :=
  onPort port s fun s => s.train port node versions timeParent

/-- PORT_RETRAIN: an enabled port that is not UP retries after RetrainInterval (R301), but not in DEEP_IDLE, where it is OFF (R359). -/
def execPortRetrain (port : Nat) (s : State) : Host.Outcome State Fault Refusal :=
  onPort port s fun s =>
    if s.portEnabled port ∧ !s.deepIdle ∧ s.portState port ≠ portUp ∧ (s.port port).lastTrain + 1000000 * s.entry 0x4010 5 ≤ s.now then s.startTraining port else s

/-- PORT_ENABLE_WRITE (R324). -/
def execPortEnableWrite (ctx : Nat) (value : Word) (s : State) : Host.Outcome State Fault Refusal :=
  .next (s.writeEntry ctx 0x4010 4 value.toNat fun s => s.applyEntry ctx 0x4010 4 value.toNat)

/-! ### Link frames (R301) -/

/-- A lane of a port. -/
def State.lane (s : State) (p l : Nat) : LinkLane := Tab.get (s.port p).lanes {} l

def State.setLane (s : State) (p l : Nat) (x : LinkLane) : State := s.updPort p fun y => { y with lanes := Tab.put y.lanes l x }

/-- A frame that passes its link check and carries the next link sequence number is accepted and acknowledged; any other is discarded.
The operation it carries is a command of its own (R301, log entry 16). -/
def State.receive (s : State) (p l seq : Nat) (ok : Bool) : State :=
  let x := s.lane p l
  if s.portState p = portUp ∧ ok ∧ seq = x.nextRx then (s.setLane p l { x with nextRx := x.nextRx + 1 }).emit (.linkAck p l seq) else s

/-- FRAME_RECEIVE (R301). -/
def execFrameReceive (port lane linkSeq : Nat) (linkOk : Bool) (_frame : Frame) (s : State) : Host.Outcome State Fault Refusal :=
  onPort port s fun s => s.receive port lane linkSeq linkOk

/-- FRAME_ACK: the frames up to the acknowledged one are released (R301). -/
def execFrameAck (port lane linkSeq : Nat) (s : State) : Host.Outcome State Fault Refusal :=
  onPort port s fun s =>
    let x := s.lane port lane
    if x.unacked.any fun f => f.seq = linkSeq then s.setLane port lane { x with unacked := x.unacked.filter fun f => linkSeq < f.seq }
    else s

/-- The oldest frame has no acknowledgement within 1 us of being sent: it and every later frame of its lane are resent, in their order;
after 8 failed retransmissions of it the link is down (R301). -/
def State.retransmit (s : State) (p l : Nat) : State :=
  let x := s.lane p l
  match x.unacked with
  | [] => s
  | f :: _ =>
    if s.now < f.sentAt + 1000 ∨ s.portState p ≠ portUp then s
    else if 8 ≤ f.fails then s.linkDown p FABRIC_UNREACHABLE
    else
      let again (g : SentFrame) : SentFrame := { g with sentAt := s.now, fails := g.fails + 1 }
      let s := (s.setLane p l { x with unacked := x.unacked.map again }).bump (0x4040 + p) 6 x.unacked.length
      x.unacked.foldl (fun s g => s.emit (.fabric p g.frame)) s

/-- FRAME_RETRANSMIT (R301). -/
def execFrameRetransmit (port lane : Nat) (s : State) : Host.Outcome State Fault Refusal := onPort port s fun s => s.retransmit port lane

/-- FRAME_FORWARD: a frame for another node passes the router (R317). -/
def execFrameForward (port : Nat) (frame : Frame) (s : State) : Host.Outcome State Fault Refusal :=
  onPort port s fun s => if frame.target = s.nodeId then s else s.forward frame

/-! ### Global time (R322) -/

/-- The step of the first lock: the parent's time less the measured delay, recorded and reported. -/
def State.timeStep (s : State) (d : Int) : State :=
  let s := ({ s with timeOffset := s.timeOffset + d, everLocked := true, slewLeft := 0 }).setEntry 0x4020 2 1
  (s.setEntry 0x4020 3 (unsigned 64 d)).raise 0xB0E3 0xFF 0 (unsigned 64 d) 0

/-- A later lock, or an idle while locked: the device slews only; at a lock TimeOffsetLast holds the slew total. -/
def State.timeSlew (s : State) (d : Int) : State :=
  let s := if s.entry 0x4020 2 = 1 then s else (s.setEntry 0x4020 2 1).setEntry 0x4020 3 (unsigned 64 d)
  { s with slewLeft := d }

/-- An idle with the sender's time: the link delay is measured; the parent's idle locks or slews the device (R322). -/
def State.takeIdle (s : State) (p time delay : Nat) : State :=
  let s := s.setEntry (0x4040 + p) 5 delay
  if s.entry 0x4010 6 = 1 ∨ s.entry 0x4010 7 ≠ p then s
  else
    let s := { s with lastTimeIdle := s.now }
    let d : Int := (time : Int) - delay - s.fabricTime
    if s.everLocked then s.timeSlew d else s.timeStep d

/-- TIME_IDLE (R322). -/
def execTimeIdle (port time delay : Nat) (s : State) : Host.Outcome State Fault Refusal :=
  onPort port s fun s => if s.portState port = portUp then s.takeIdle port time delay else s

/-- TIME_LOCK_LOST: 1 s without an idle from the parent (R322). -/
def execTimeLockLost (s : State) : Host.Outcome State Fault Refusal :=
  .next (if s.entry 0x4020 2 = 1 ∧ s.entry 0x4010 6 = 0 ∧ s.lastTimeIdle + 1000000000 ≤ s.now then s.setEntry 0x4020 2 0 else s)

end Sys2Proof.Machine
end

