-- ==== Sys2Proof/Machine/Restart.lean ====
section
/-! DEFINITION. Host-side restarts: what each kind keeps, the phases to READY, requests that meet, the host side off (R415-R425, R372-R380, R398). -/

namespace Sys2Proof.Machine

/-! ### Kinds (Table 20-1) -/

abbrev kindCold : Nat := 1
abbrev kindFull : Nat := 2
abbrev kindHostPower : Nat := 3
abbrev kindWarm : Nat := 4
abbrev kindWatchdog : Nat := 5
abbrev kindActivate : Nat := 6

/-- The stacks are kept, in self-refresh, through WARM, WATCHDOG and ACTIVATE (Table 20-4). -/
def keepsStacks (kind : Nat) : Bool := kindWarm ≤ kind

/-- Fumarole restarts as well (Table 20-4). -/
def restartsField (kind : Nat) : Bool := kind = kindCold || kind = kindFull

/-- The bound from the request to READY, in ns (Table 20-1). -/
def restartBound (kind : Nat) : Nat :=
  if kind = kindHostPower then 7000000000
  else if kind = kindActivate then 120000000
  else if keepsStacks kind then 250000000
  else 8000000000

/-- The strength of a kind (R423); an ACTIVATE yields to FULL and HOST_POWER (log entry 31). -/
def strength (kind : Nat) : Nat :=
  if kind = kindCold then 4 else if kind = kindFull then 3 else if kind = kindHostPower then 2 else 1

/-! ### What survives (Table 20-4) -/

/-- Entries that every restart keeps as it begins: those Fumarole serves, fuses, key-store items, what Fumarole keeps,
and the generation in force, which each restart takes anew later (R57). -/
def keptAlways (k : Nat) : Bool :=
  let i := k / 256
  isFieldServed i || i = 0x9000 || k = entryKey 0xB190 8 || k = entryKey 0x1010 2

/-- What a start of the field side clears of the entries that Fumarole serves: its readings and the requests absorbed;
what it keeps since manufacture, and the state of its flash, stand (Table 20-4; DEDUCED, log entry 76). -/
def lostWithField (k : Nat) : Bool :=
  let i := k / 256
  k = entryKey 0x1100 9 || (i = 0xC000 && k % 256 ≠ 5) || i = 0xC010 || i = 0xC071

/-- Entries that a restart with the stacks keeps: global time, the links' state, the poison count, the captures, the sensors. -/
def keptWarm (k : Nat) : Bool :=
  let i := k / 256
  let sub := k % 256
  i = 0x4020 || (0x4040 ≤ i && i < 0x4050 && sub ≤ 5) || (i = 0x5040 && (sub ≤ 6 || sub = 0x0B)) || k = entryKey 0x3030 5
    || (0x8040 ≤ i && i < 0x8048) || (0xC040 ≤ i && i < 0xC072) || (0xA0C0 ≤ i && i < 0xA100 && sub = 5)

/-- The values of the persistent dictionary store: a key whose newest record is bad takes its default (R33). -/
def storedValues (records : List PersistRecord) : Tab Nat :=
  records.foldl (fun (d : Tab Nat) r =>
    r.values.foldl (fun (d : Tab Nat) (p : Nat × Nat) => if r.intact then Tab.put d p.1 p.2 else Tab.erase d p.1) d) []

def storedContents (records : List PersistRecord) : Tab (List Byte) :=
  records.foldl (fun (d : Tab (List Byte)) r =>
    r.contents.foldl (fun (d : Tab (List Byte)) (p : Nat × List Byte) => if r.intact then Tab.put d p.1 p.2 else Tab.erase d p.1) d) []

/-- The records that the store holds after a restart: those still on their way to it are complete unless Fumarole restarts too (R33, R430). -/
def State.keptRecords (s : State) (kind : Nat) : List PersistRecord := if restartsField kind then s.journal else s.journal ++ s.unstored

/-- The dictionary after a restart: what is kept, and the persistent values of the store (R33, Table 20-4). -/
def State.keptDict (s : State) (kind : Nat) : Tab Nat :=
  let kept := s.dict.filter fun (p : Nat × Nat) => ((keptAlways p.1 && !(restartsField kind && lostWithField p.1)) || (keepsStacks kind && keptWarm p.1)) && !isPersistent (p.1 / 256) (p.1 % 256)
  (storedValues (s.keptRecords kind)).foldl (fun (d : Tab Nat) (p : Nat × Nat) => Tab.put d p.1 p.2) kept

/-! ### The journal (R398) -/

/-- The record of a job that was running or draining when the restart began. -/
def State.journalRecord (s : State) (j : Nat) (im : Image) : JournalRecord where
  regions := s.outputRegions im j
  descriptors := (im.outputHandles.filter fun x => !(s.job j).committed.contains x).map fun x =>
    ((im.decl x).descAddr, (s.descriptorOf im j x false true 0).bytes.take 8)

/-- The records left by the jobs of every slot. -/
def State.journalRecords (s : State) : List JournalRecord :=
  jobSlots.filterMap fun j => if (s.job j).journal then (s.job j).image.map (s.journalRecord j) else none

/-- Steps 5 and 6 of R395 for a recorded job; writes to other nodes wait for their link. -/
def State.replayRecord (s : State) (r : JournalRecord) : State :=
  let s := r.regions.foldl (fun s g => s.markPoison g.1 g.2) s
  r.descriptors.foldl (fun s d =>
    if s.isSelf (nodeOf d.1) then (if inStack (localOf d.1) 8 then s.memWrite (localOf d.1) d.2 else s)
    else { s with replayWrites := s.replayWrites ++ [d] }) s

/-- The replay before READY, with event 0xB042 (R398). -/
def State.replayJournal (s : State) (records : List JournalRecord) : State :=
  if records.isEmpty then s
  else (records.foldl (fun s r => s.replayRecord r) s).raise 0xB042 0xFF 0 records.length (records.map fun r => r.descriptors.length).sum

/-- Descriptor writes of the replay leave once the link to their node is up (R398). -/
def State.sendReplay (s : State) : State :=
  let isUp (d : Nat × List Byte) : Bool := s.issueStatus (nodeOf d.1) 1 (localOf d.1) = OK
  let go := s.replayWrites.filter isUp
  if go.isEmpty then s
  else
    let s := { s with replayWrites := s.replayWrites.filter fun d => !isUp d }
    go.foldl (fun s d => s.issueOp (nodeOf d.1) 2 1 (localOf d.1) 8 0 d.2 issuerSupervisor 0xFF poisonWrite) s

/-! ### The host side cleared (W1, W2, Table 20-4) -/

/-- Frames held for this device complete with STATE_CONFLICT when a restart begins (R379). -/
def State.refuseHeld (s : State) : State :=
  let s := (s.heldFrames ++ s.behind.map Prod.fst).foldl (fun s f => s.complete f STATE_CONFLICT 0 []) { s with heldFrames := [], behind := [] }
  tileNumbers.foldl (fun s t =>
    ((s.tile t).windowPuts ++ (s.tile t).windowLanded ++ (s.tile t).windowGets).foldl (fun s f => s.complete f STATE_CONFLICT 0 []) s) s

/-- The SPDM sessions end and the mailbox is reset (Table 15-8, R340). -/
def HostLink.endSpdm (h : HostLink) : HostLink :=
  { h with spdmVersion := false, spdmCapabilities := false, spdmAlgorithms := false, transcript := [], sessions := [] }

/-- A capture that was still being copied is lost with the snapshot unit. -/
def State.dropCopy (s : State) : State :=
  match s.copying with
  | none => s
  | some c => ({ s with copying := none, captures := Tab.erase s.captures c.1, captureOrder := s.captureOrder.filter fun k => k ≠ c.1 }).resetEntries ((List.range 7).map fun i => (0x8040 + c.1, i + 1))

/-- The public-key engine keeps persistent keys alone, the HSS state stays (Table 20-4, R381). -/
def Pke.restart (p : Pke) : Pke := { keys := p.keys.filter fun (k : Nat × UserKey) => k.2.persistent }

/-- A power-domain command of a start that is over, or of a host side that is off, awaits nothing more. -/
def GateSide.dropPower (g : GateSide) : GateSide := { g with outstanding := g.outstanding.filter fun (m : GateMsg) => m.payload.type ≠ 5 }

/-- The masks of the domains in the order in which Fumarole powers the host side (phase 3 of Table 20-2). -/
def State.powerOrder (s : State) : List Nat :=
  let span (a n : Nat) : Nat := ((List.range n).map fun i => 2 ^ (a + i)).sum
  [2 ^ 90, 2 ^ 91, 2 ^ 92, span 64 8, 2 ^ 89, 2 ^ 88, span 72 16, s.enabled]

/-- Every domain of the host side off; Fumarole's own and the management optics stay on (R342). -/
def domainsOff : Tab Domain := (List.range 32).map fun d => (64 + d, if d = 29 ∨ d = 30 then Domain.on else Domain.off)

/-- The state with which every restart begins: volatile state gone, what the kind keeps left standing. -/
def State.clearHost (s : State) (kind : Nat) : State :=
  let s := s.dropCopy
  let c : State := { State.reset with
    pending := s.pending, freeCount := s.freeCount, out := s.out, grade := s.grade, enabled := s.enabled, now := s.now
    dict := s.keptDict kind, blobs := storedContents (s.keptRecords kind), journal := s.keptRecords kind, unstored := []
    fieldLog := s.fieldLog, flash := s.flash, flashLength := s.flashLength, hss := s.hss, pke := s.pke.restart, nextTag := s.nextTag
    restoreDefaults := s.restoreDefaults, starts := s.starts, recovery := s.recovery, hostPowered := s.hostPowered
    fieldPowered := s.fieldPowered, thermalTripped := s.thermalTripped, deferredRestart := s.deferredRestart
    inputBackSince := s.inputBackSince, timeOffset := -(s.now : Int), sessions := s.sessions
    dtpDropped := s.dtpDropped, fieldGate := s.fieldGate.dropPower, arriving := s.arriving
    hostGate := { s.hostGate with outstanding := [], lastRx := s.now, lastTx := s.now, down := false, quietUntil := 0 }, hostLink := { perst := s.hostLink.perst, readyReported := false } }
  let c := if keepsStacks kind then
      { c with mem := s.mem, memUndefined := s.memUndefined, wordPoison := s.wordPoison, wordEpoch := s.wordEpoch, poisonTable := s.poisonTable
               poisonEpoch := s.poisonEpoch, poisonWaits := s.poisonWaits, captures := s.captures, captureOrder := s.captureOrder, ports := s.ports, seqNext := s.seqNext
               seqExpected := s.seqExpected, failedTriples := s.failedTriples, mcastWaits := s.mcastWaits, snapsSeen := s.snapsSeen
               lastTimeIdle := s.lastTimeIdle, timeOffset := s.timeOffset, everLocked := s.everLocked, slewLeft := s.slewLeft, slewAt := s.slewAt
               hostLink := s.hostLink.endSpdm, replayWrites := s.replayWrites
               hostGate := { s.hostGate with outstanding := [] }
               remoteOps := (s.remoteOps.filter fun r => !r.waits).map fun (r : RemoteOp) => { r with issuer := issuerNone } }
    else c
  if restartsField kind then
    { c with sessions := [], dtpDropped := 0, fieldGate := { lastRx := s.now, lastTx := s.now }, hostGate := { lastRx := s.now, lastTx := s.now }, notices := [], arriving := [] }
  else c

/-! ### The start of a restart -/

/-- Fumarole's ROM chooses the slot at a COLD or FULL start, or stays in recovery (R373). -/
def State.romBoot (s : State) : State :=
  match s.bootSlot with
  | none =>
    ({ s with recovery := true, restart := none }).setEntry 0x1100 1 0
  | some k =>
    let s := { s with recovery := false }
    if k = s.activeSlot then s else (s.setEntry 0x9100 3 k).raise 0xB0C0 0xFF IMAGE_VERIFY (s.packageReject s.activeSlot [1]) (1 - k)

/-- The counter of a start: COLD and FULL, or WARM and WATCHDOG (Table 20-6). -/
def State.countStart (s : State) (kind : Nat) : State :=
  if restartsField kind then s.bump 0x1100 7 1
  else if kind = kindWarm ∨ kind = kindWatchdog then s.bump 0x1100 8 1
  else s

/-- How long the restart runs: within the bound; a warm restart whose shadow fails its digests has 1 s (R419). -/
def State.restartTime (s : State) (kind : Nat) : Nat :=
  let bound := if (kind = kindWarm ∨ kind = kindWatchdog) ∧ !Config.shadowIntact s.starts then 1000000000 else restartBound kind
  min bound (Config.restartDuration s.starts)

/-- Phase 3 begins: the host side is off, and Fumarole powers its first domain (R13, R417). It does not where the ROM stays in recovery (R373),
nor at a COLD start with PowerOnPolicy 1, which stops after phase 2 (R418). -/
def State.beginPower (s : State) : State :=
  let s := { s with hostPowered := false, domains := domainsOff }
  match s.restart with
  | none => s
  | some r =>
    if r.kind = kindCold ∧ s.entry 0x1120 1 = 1 then ({ s with restart := none }).setEntry 0x1100 1 0
    else
      let s := { s with restart := some { r with powerLeft := s.powerOrder } }
      match s.powerOrder with
      | [] => s
      | m :: _ => s.sendPower m true

/-- A restart begins: jobs are lost, the host side is cleared, DeviceState reads BOOT or UPDATING (R415, R416, R419). -/
def State.beginRestart (s : State) (kind cause : Nat) (pending : Bool) (downMs : Nat) : State :=
  let replay := if keepsStacks kind then s.journalRecords ++ ((s.restart.map fun r => r.replay).getD []) else []
  let s := if keepsStacks kind ∧ s.deepIdle then s.leaveDeepIdle else s
  let s := if keepsStacks kind then s.refuseHeld else s
  let s := { s.clearHost kind with starts := s.starts + 1, inputBackSince := none }
  let s := if kind = kindHostPower then { s with thermalTripped := false } else s
  let r : Restart := { kind := kind, cause := cause, began := s.now, due := s.now + s.restartTime kind, pending := pending, replay := replay, downMs := downMs }
  let s := (({ s with restart := some r }).setEntry 0x1100 1 (if kind = kindActivate then 7 else 1)).countStart kind
  let s := if restartsField kind ∧ !pending then s.romBoot else s
  if keepsStacks kind then s else s.beginPower

/-- A restart request, alone or meeting another (R423). -/
def State.requestRestart (s : State) (kind cause : Nat) (pending : Bool) (downMs : Nat) : State :=
  match s.restart with
  | none => s.beginRestart kind cause pending downMs
  | some r =>
    if r.kind = kindActivate ∧ (kind = kindWarm ∨ kind = kindWatchdog) then
      (match s.deferredRestart with
       | none => { s with deferredRestart := some (kind, cause) }
       | some _ => s.bump 0x1100 9 1)
    else if kind = kindCold ∨ strength r.kind < strength kind then s.beginRestart kind cause pending downMs
    else s.bump 0x1100 9 1

/-! ### The end of a restart: phases 5 to 9, W3 to W7 -/

/-- Records of the store that fail their check are reported (R33). -/
def State.reportBadRecords (s : State) : State :=
  (s.journal.zipIdx.filter fun (p : PersistRecord × Nat) => !p.1.intact).foldl (fun s p => s.raise 0xB0A1 0xFF 0 (Config.recordOffset p.2) 0) s

/-- RestoreDefaults applied: every persistent entry at its default (Table 2-6). -/
def State.applyDefaults (s : State) : State :=
  if s.restoreDefaults then
    ({ s with restoreDefaults := false, journal := []
              dict := s.dict.filter fun (p : Nat × Nat) => !isPersistent (p.1 / 256) (p.1 % 256), blobs := []
              flash := Tab.erase s.flash s.pendingSlot, flashLength := Tab.erase s.flashLength s.pendingSlot }).setEntry 0x9100 2 0
  else s

/-- The generation in force is taken anew; where it changes and the links were kept, every UP port retrains (R57, R423). -/
def State.takeGeneration (s : State) (kind old : Nat) : State :=
  let s := s.setEntry 0x1010 2 (s.entry 0x1010 1)
  if keepsStacks kind ∧ s.entry 0x1010 2 ≠ old then
    (List.range 16).foldl (fun s p => if s.portState p = portUp then (s.linkDown p 0).startTraining p else s) s
  else s

/-- The ports named in PortEnable start training, unless their links were kept (phase 8). -/
def State.startPorts (s : State) (kind : Nat) : State :=
  if keepsStacks kind then s
  else (List.range 16).foldl (fun s p => if s.portEnabled p then s.startTraining p else s.setEntry (0x4040 + p) 1 portDisabled) s

/-- Tiles are set to FreeTileState; at a start from power, one that fails its self-test is failed and held OFF (R417, R394). -/
def State.startTiles (s : State) (kind : Nat) : State :=
  (tileNumbers.filter s.tileEnabled).foldl (fun s t =>
    let s := s.updTile t fun x => { x with leaseAt := s.now }
    if !keepsStacks kind ∧ !Config.selfTest s.starts t then
      let failed := s.entry 0xB190 2 + 2 ^ t
      ((s.setEntry 0xB190 2 failed).setEntry (0xA0C0 + t) 1 4).raise 0xB031 0xFF TILE_UNRESPONSIVE t failed
    else s.setEntry (0xA0C0 + t) 1 (s.entry 0xA030 1)) s

/-- What the end of the restart reports of its cause: the watchdog, the gate (Table 18-7). -/
def State.reportCause (s : State) (r : Restart) : State :=
  if r.cause = WATCHDOG_RESTART then s.raise 0xB040 0xFF WATCHDOG_RESTART (s.entry 0xB190 1) 0
  else if r.cause = GATE_LOST then s.raise 0xB041 0xFF GATE_LOST r.downMs 0
  else s

/-- The module reports host-link ready once PERST# is released and the device is READY (R422). -/
def State.reportReady (s : State) : State :=
  if s.ready ∧ !s.hostLink.perst ∧ !s.hostLink.readyReported then
    ({ s with hostLink := { s.hostLink with readyReported := true } }).emit (.hostReady true)
  else s

/-- The entries of Table 20-6 at READY; the lowest input voltage is taken anew from the next sample (Table 21-8). -/
def State.noteReady (s : State) (r : Restart) : State :=
  (((((s.setEntry 0x1100 1 2).setEntry 0x1100 3 r.kind).setEntry 0x1100 4 r.cause).setEntry 0x1100 5 s.fabricTime).setEntry 0x1100 6
    ((s.now - r.began) / 1000)).setEntry 0xC000 4 0

/-- The package that an activation or a full restart took (R378, R380). -/
def State.settlePackage (s : State) (r : Restart) : State :=
  if r.kind = kindActivate then s.activatePending hostComponents
  else if r.pending then s.activatePending [1, 2, 3, 4, 5, 6]
  else s

/-- READY. -/
def State.finishRestart (s : State) (r : Restart) : State :=
  let old := s.entry 0x1010 2
  let s := if keepsStacks r.kind then s else { s with domains := State.reset.domains }
  let s := { s with restart := none, watchdogAt := s.now, watchdogLimit := 1000000 * s.entry 0xB190 1 }
  let s := (((s.settlePackage r).reportBadRecords).applyDefaults).takeGeneration r.kind old
  let s := ((s.startTiles r.kind).startPorts r.kind).replayJournal r.replay
  (((s.reportCause r).noteReady r).reportReady).flushVectors

/-- A WARM or WATCHDOG request that an activation pause deferred runs when the pause has ended (R423). -/
def State.runDeferred (s : State) : State :=
  match s.deferredRestart with
  | none => s
  | some k => ({ s with deferredRestart := none }).beginRestart k.1 k.2 false 0

/-- The end of a restart that is due and whose domains are powered; a warm restart whose shadow and active slot both fail runs FULL (R419). -/
def State.restartTick (s : State) : State :=
  match s.restart with
  | none => s
  | some r =>
    if s.now < r.due ∨ !r.powerLeft.isEmpty then s
    else if (r.kind = kindWarm ∨ r.kind = kindWatchdog) ∧ !Config.shadowIntact s.starts ∧ !(hostComponents.all fun k => s.componentGood s.activeSlot k) then
      s.beginRestart kindFull r.cause false 0
    else (s.finishRestart r).runDeferred

/-! ### The host side off (R420, R424, R358) -/

/-- The host side loses its power, and with it everything that it held (R420). -/
def State.hostOff (s : State) : State :=
  let s := { s.clearHost kindHostPower with hostPowered := false, restart := none, deferredRestart := none, domains := domainsOff }
  let s := (List.range 16).foldl (fun s p => s.setEntry (0x4040 + p) 1 portDisabled) s
  (s.setEntry 0x1100 1 0).emit (.hostReady false)

/-- The host side's domains as a mask. -/
def hostMask : Nat := ((List.range 93).map fun d => 2 ^ d).sum + 2 ^ 95

/-- Fumarole powers the host side off: it records why and sends the POWER_DOMAIN_CMD, with which the power goes (R13, R342, R420). -/
def State.orderOff (s : State) (cause : Nat) : State := (s.setEntry 0x1100 4 cause).sendPower hostMask false

/-- The bits of ResetRequest's requests (R424). -/
def resetValue (k : Nat) : Nat := 0x52530000 + k

/-- A request written to ResetRequest: refused by the device's state, or begun (R418, R424). -/
def State.resetOp (s : State) (k : Nat) : Nat × State :=
  let off := s.entry 0x1100 1 = 0
  if k = 3 then (if !off ∨ s.recovery then (STATE_CONFLICT, s) else (OK, s.requestRestart kindHostPower (s.entry 0x1100 4) false 0))
  else if off then (STATE_CONFLICT, s)
  else if k = 1 then (OK, s.requestRestart kindWarm 0 false 0)
  else if k = 2 then (OK, s.orderOff 0)
  else (OK, s.requestRestart kindFull 0 false 0)

/-- RESET_WARM. -/
def execResetWarm (ctx : Nat) (s : State) : Host.Outcome State Fault Refusal := .next (s.writeEntry ctx 0x1110 1 (resetValue 1) fun s => s.resetOp 1)

/-- RESET_HOST_OFF. -/
def execResetHostOff (ctx : Nat) (s : State) : Host.Outcome State Fault Refusal := .next (s.writeEntry ctx 0x1110 1 (resetValue 2) fun s => s.resetOp 2)

/-- RESET_HOST_POWER. -/
def execResetHostPower (ctx : Nat) (s : State) : Host.Outcome State Fault Refusal := .next (s.writeEntry ctx 0x1110 1 (resetValue 3) fun s => s.resetOp 3)

/-- RESET_FULL. -/
def execResetFull (ctx : Nat) (s : State) : Host.Outcome State Fault Refusal := .next (s.writeEntry ctx 0x1110 1 (resetValue 4) fun s => s.resetOp 4)

/-- COLD_START: the input reaches 50 V with the field side unpowered (R415). -/
def execColdStart (s : State) : Host.Outcome State Fault Refusal :=
  .next (if s.fieldPowered then s else ({ s with fieldPowered := true }).requestRestart kindCold 0 false 0)

/-! ### Activation (R376, R380) -/

/-- A write to Activate: the pause begins, and Fumarole sends the RESET_CMD of its phase 3 (Table 17-6). -/
def State.activateOp (s : State) (v : Nat) : Nat × State :=
  if !s.packageReady then (STATE_CONFLICT, s)
  else if v = 1 then (OK, (s.requestRestart kindActivate 0 true 0).sendReset kindActivate 0)
  else (OK, s.requestRestart kindFull 0 true 0)

/-- ACTIVATE_HOST. -/
def execActivateHost (ctx : Nat) (s : State) : Host.Outcome State Fault Refusal := .next (s.writeEntry ctx 0x9110 1 1 fun s => s.activateOp 1)

/-- ACTIVATE_FULL. -/
def execActivateFull (ctx : Nat) (s : State) : Host.Outcome State Fault Refusal := .next (s.writeEntry ctx 0x9110 1 2 fun s => s.activateOp 2)

/-- COMMIT_SVN. -/
def execCommitSvn (ctx : Nat) (value : Word) (s : State) : Host.Outcome State Fault Refusal :=
  .next (s.writeEntry ctx 0x9110 2 value.toNat fun s => s.commitSvnOp)

/-! ### Input power, thermal trip and sensors (R420, R429, R430, R358, R436) -/

/-- INPUT_OUT_OF_RANGE: the host side is powered off and INPUT_RANGE recorded (R420, R429); Table 18-7 gives its entry in Fumarole's log
no event index and no details, and the model writes EVENT 0 and the voltage (DESIGN CHOICE, log entry 76). -/
def execInputOutOfRange (millivolts : Nat) (s : State) : Host.Outcome State Fault Refusal :=
  .next (
    if (50000 ≤ millivolts ∧ millivolts ≤ 60000) ∨ s.heat.outSamples < 10 ∨ s.entry 0xC000 3 ≠ 0 then s
    else
      let s := (s.setEntry 0xC000 3 (if millivolts < 50000 then 1 else 2)).bump 0xC000 5 1
      let e : LogEntry := { event := 0, job := 0xFF, code := INPUT_RANGE, seq := 0, time := s.fabricTime, detail0 := millivolts, detail1 := 0 }
      let s := { s with fieldLog := s.fieldLog ++ [e], inputBackSince := none }
      if s.entry 0x1100 1 = 0 then s else s.orderOff INPUT_RANGE)

/-- INPUT_RECOVERY: the input has been back in range for 100 ms (R420); after a thermal trip or a requested power-down the host side stays OFF. -/
def execInputRecovery (s : State) : Host.Outcome State Fault Refusal :=
  .next (
    let back := s.inputBackSince.any fun t => t + 100000000 ≤ s.now
    if back ∧ s.entry 0x1100 1 = 0 ∧ s.entry 0x1100 4 = INPUT_RANGE ∧ s.entry 0x1120 2 = 1 ∧ !s.thermalTripped ∧ !s.recovery then
      s.requestRestart kindHostPower INPUT_RANGE false 0
    else s)

/-- FIELD_POWER_LOSS: below 40 V the field side loses power too, and writes of the store that were not complete are lost whole (R430). -/
def execFieldPowerLoss (s : State) : Host.Outcome State Fault Refusal :=
  .next (
    let s := if s.entry 0x1100 1 = 0 then s else ({ s with unstored := [] }.hostOff).setEntry 0x1100 4 0
    { s with fieldPowered := false, unstored := [], arriving := [], sessions := [], restart := none })

/-- THERMAL_TRIP: a sensor reads 125 C or above, and the host side is powered off until ResetRequest 3 (R358). -/
def execThermalTrip (t : Nat) (temp16 : Int) (s : State) : Host.Outcome State Fault Refusal :=
  onTile t s fun s =>
    if !s.tileEnabled t ∨ temp16 < 2000 ∨ s.entry 0x1100 1 = 0 then s
    else
      let e : LogEntry := { event := 0x93, job := 0xFF, code := THERMAL_TRIP, seq := 0, time := s.fabricTime, detail0 := t, detail1 := unsigned 64 temp16 }
      let s := ({ s with fieldLog := s.fieldLog ++ [e] }).countEvent 0xB093 t
      { s.orderOff THERMAL_TRIP with thermalTripped := true }

/-- SENSOR_UPDATE (R436, Table 21-8); a host-side sensor is not updated while the host side is OFF. -/
def State.takeSensors (s : State) (r : SensorReadings) : State :=
  let put (s : State) (i sub : Nat) (v : Int) : State := s.setEntry i sub (unsigned 64 v)
  let d := r.coolantOutlet - r.coolantInlet
  let alarm := (if r.coolantInlet < 240 then 1 else 0) + (if 720 < r.coolantInlet then 2 else 0) + (if 320 < d then 4 else 0)
  let s := (put (put (put s 0xC010 1 r.coolantInlet) 0xC010 2 r.coolantOutlet) 0xC010 3 r.fieldSide).setEntry 0xC010 5 alarm
  let s := match r.engineTemps[17]? with
    | some v => put s 0xC071 1 v
    | none => s
  if s.entry 0x1100 1 = 0 then s
  else
    let s := put s 0xC010 4 r.boardMax
    let s := (r.stackTemps.take 8).zipIdx.foldl (fun s (p : Int × Nat) =>
      (put s (0xC040 + p.2) 1 p.1).setEntry (0x3040 + p.2) 2 (if 1360 < p.1 then 1 else 0)) s
    let s := (r.engineTemps.take 17).zipIdx.foldl (fun s (p : Int × Nat) => put s (0xC060 + p.2) 1 p.1) s
    (r.junctionTemps.take 64).zipIdx.foldl (fun s (p : Int × Nat) => put s (0xA0C0 + p.2) 5 p.1) s

def execSensorUpdate (readings : SensorReadings) (s : State) : Host.Outcome State Fault Refusal := .next (s.takeSensors readings)

end Sys2Proof.Machine
end

