-- ==== Sys2Proof/Machine/HostLink.lean ====
section
/-! DEFINITION. The host link: resets, configuration space, completions of operations to the host, interrupts, IDE and SPDM (R325-R340, R369, R422). -/

namespace Sys2Proof.Machine

/-! ### Link state and resets (R326, R327, R422) -/

/-- HOST_LINK_UP: the adapter leaves Detect only while the module reports ready, and the link trains within its limit (R325, R326, Table 15-10). -/
def execHostLinkUp (speed width : Nat) (flit : Bool) (tagLimit : Nat) (s : State) : Host.Outcome State Fault Refusal :=
  .next (
    let ok : Bool := s.hostLink.readyReported && !s.hostLink.perst && s.entry 0x5040 1 ≠ 2 && 1 ≤ speed && speed ≤ s.entry 0x5010 1
      && [16, 8, 4, 1].contains width && [4096, 768, 256].contains tagLimit && (tagLimit ≠ 4096 || flit)
    if ok then
      (((((s.setEntry 0x5040 1 2).setEntry 0x5040 2 speed).setEntry 0x5040 3 width).setEntry 0x5040 4 (if flit then 1 else 0)).setEntry 0x5040 5 tagLimit).flushVectors
    else s)

/-- The BAR0 context loses its open group and its segmented transfer (R327, R42, R55). -/
def State.resetBar0 (s : State) : State :=
  s.updContext 0 fun c =>
    if c.groupState = 1 then { c with groupState := 4, applyTime := s.fabricTime, staged := [], snapshot := none, transfer := none }
    else { c with transfer := none }

/-- Function state at its reset values; operations to the host in flight fail (R327). -/
def State.functionReset (s : State) : State :=
  let s := (s.failHostOps).resetBar0
  let s := { s with hostLink := { perst := s.hostLink.perst, readyReported := s.hostLink.readyReported, aer := s.hostLink.aer } }
  ((s.setEntry 0x5040 6 0).setEntry 0x5040 0x0B 0).setEntry 0x5040 0x0D 0

/-- The link has left UP: TRAINING or DOWN. -/
def State.linkAway (s : State) (st : Nat) : State := (List.range 5).foldl (fun s i => s.setEntry 0x5040 (i + 1) (if i = 0 then st else 0)) s

/-- HOT_RESET, or the link down: function state reset, and the link trains again (Table 15-2). -/
def execHotReset (s : State) : Host.Outcome State Fault Refusal := .next (if s.hostPowered then s.functionReset.linkAway 1 else s)

/-- FUNCTION_LEVEL_RESET: as hot reset, without retraining. -/
def execFunctionLevelReset (s : State) : Host.Outcome State Fault Refusal := .next (if s.hostPowered then s.functionReset else s)

/-- PERST_ASSERT: with PerstAction 1 host-link ready is withdrawn and a WARM restart starts, or is absorbed; with 0 it acts as FLR (R422). -/
def execPerstAssert (s : State) : Host.Outcome State Fault Refusal :=
  .next (
    let s := { s with hostLink := { s.hostLink with perst := true } }
    if !s.hostPowered then s
    else if s.entry 0x5010 3 = 0 then s.functionReset
    else
      let s := (s.functionReset).linkAway 0
      (({ s with hostLink := { s.hostLink with readyReported := false } }).emit (.hostReady false)).requestRestart kindWarm 0 false 0)

/-- PERST_RELEASE. -/
def execPerstRelease (s : State) : Host.Outcome State Fault Refusal := .next ({ s with hostLink := { s.hostLink with perst := false } }).reportReady

/-! ### Configuration space (R340, Table 15-8) -/

/-- What the Vendor ID register and others hold: the unit's (log entry 4). -/
def configValue (register : Nat) : Nat := leNat ((List.range 4).map fun i => Config.unitByte (2 ^ 33 + register) i)

/-- An access to configuration space. -/
def State.config (s : State) : ConfigOp → State
  | .readVendorId => s.emit (.config false (configValue 0 % 65536))
  | .read r => s.emit (.config false (configValue r))
  | .writeCommand b a r =>
    (({ s with hostLink := { s.hostLink with busMaster := b, atomicRequester := a, rrsVisible := r } }).setEntry 0x5040 6 (if a then 1 else 0)).emit
      (.config false 0)
  | .deviceControl p r => ({ s with hostLink := { s.hostLink with maxPayload := p, maxRead := r } }).emit (.config false 0)
  | .msixControl en m => (({ s with hostLink := { s.hostLink with functionMasked := !en || m } }).flushVectors).emit (.config false 0)
  | .write _ => s.emit (.config false 0)

/-- CONFIG_ACCESS: during a pause every access completes with retry status; with RRS Software Visibility a read of the Vendor ID returns 0x0001. -/
def execConfigAccess (op : ConfigOp) (s : State) : Host.Outcome State Fault Refusal :=
  .next (
    if !s.hostPowered then s
    else if !s.ready then s.emit (.config true (if op = .readVendorId ∧ s.hostLink.rrsVisible then 1 else 0))
    else s.config op)

/-! ### Operations to the host (R332-R334) -/

/-- A request's tag is free: the oldest request that waits for a tag takes it and leaves (R334). -/
def State.freeHostTag (s : State) (id : Nat × Nat) : State :=
  let h := s.hostLink
  let s := { s with hostLink := { h with tags := h.tags.erase id, lateTags := h.lateTags.erase id } }
  match s.hostLink.tagWaiters with
  | [] => s
  | w :: ws =>
    if s.tagLimit ≤ s.hostLink.tags.length then s
    else
      let s := { s with hostLink := { s.hostLink with tagWaiters := ws } }
      match s.findOp w.1 with
      | none => s
      | some r => ({ s with hostLink := { s.hostLink with tags := s.hostLink.tags ++ [w], txQueue := s.hostLink.txQueue ++ [w] } }).emitHost r w.2

/-- The requests of an operation leave the transmit queue for good. -/
def State.leaveTx (s : State) (tag : Nat) : State :=
  { s with hostLink := { s.hostLink with txQueue := s.hostLink.txQueue.filter fun p => p.1 ≠ tag } }

/-- HOST_PUT_ACK: the data link layer has acknowledged the last write (Table 15-5). -/
def execHostPutAck (tag : Nat) (s : State) : Host.Outcome State Fault Refusal :=
  .next (match s.findOp tag with
    | some r => if r.host ∧ r.opcode = 1 then (s.leaveTx tag).endOp r OK [] else s
    | none => s)

/-- The error that a completion's status carries (R333). -/
def hostError : HostStatus → Nat
  | .ok => OK
  | .ur => HOST_COMPLETION
  | .ca => HOST_COMPLETION
  | .ep => MEM_UNCORRECTABLE

/-- An error is logged in AER (Table 15-7). -/
def State.logAer (s : State) (e : AerError) : State := { s with hostLink := { s.hostLink with aer := s.hostLink.aer ++ [e] } }

/-- An operation ends before all its requests have: those with a tag keep it until their completion, the others are not sent (R333, R334). -/
def State.cutRequests (s : State) (tag : Nat) : State :=
  let h := s.hostLink
  let mine (p : Nat × Nat) : Bool := p.1 = tag
  ({ s with hostLink := { h with lateTags := h.lateTags ++ h.tags.filter (fun p => mine p && !h.lateTags.contains p)
                                 tagWaiters := h.tagWaiters.filter fun p => !mine p } }).leaveTx tag

/-- The data of one request has arrived. -/
def State.keepData (s : State) (tag part : Nat) (d : List Byte) : State :=
  { s with remoteOps := s.remoteOps.map fun (r : RemoteOp) => if r.tag = tag then { r with arrived := Tab.put r.arrived part d } else r }

/-- A completion of request `part` of an operation: the operation ends with its error, or when all its data has arrived (R333, Table 15-5). -/
def State.hostCompleted (s : State) (r : RemoteOp) (part : Nat) (st : HostStatus) (d : List Byte) : State :=
  let s := s.freeHostTag (r.tag, part)
  if st ≠ .ok then (s.cutRequests r.tag).endOp r (hostError st) []
  else
    let got := Tab.put r.arrived part d
    if r.pieces.length ≤ got.length then (s.leaveTx r.tag).endOp r OK (got.flatMap fun p => p.2)
    else s.keepData r.tag part d

/-- HOST_COMPLETION: it ends its operation, or brings part of its data; one whose operation had ended is dropped and counted, and frees the tag;
one that no request awaits is unexpected (R333, R334, Table 15-7). -/
def execHostCompletion (tag part : Nat) (status : HostStatus) (data : List Byte) (s : State) : Host.Outcome State Fault Refusal :=
  .next (
    let s := if status = .ep then s.logAer .poisonedTlp else s
    if s.hostLink.lateTags.contains (tag, part) then (s.freeHostTag (tag, part)).bump 0x4038 8 1
    else if !s.hostLink.tags.contains (tag, part) then s.logAer .unexpectedCompletion
    else
      match s.findOp tag with
      | some r => if r.host ∧ r.opcode ≠ 1 then s.hostCompleted r part status data else s
      | none => s.freeHostTag (tag, part))

/-- The completion timer of a host operation expires: FABRIC_TIMEOUT; its tags stay in use until their completions or PCI Express's own timeout (R334). -/
def State.hostOpTimeout (s : State) (r : RemoteOp) : State := (s.cutRequests r.tag).endOp r FABRIC_TIMEOUT []

/-- PCIE_COMPLETION_TIMEOUT: the tag is free and a Completion Timeout is logged (R334). -/
def execPcieCompletionTimeout (tag part : Nat) (s : State) : Host.Outcome State Fault Refusal :=
  .next (if s.hostLink.lateTags.contains (tag, part) then (s.logAer .completionTimeout).freeHostTag (tag, part) else s)

/-! ### Interrupts (R336) -/

/-- INTERRUPT_HOLDOFF_END: a pending vector that may send again sends its one message. -/
def execInterruptHoldoffEnd (vector : Nat) (s : State) : Host.Outcome State Fault Refusal :=
  .next (if vector ∈ s.hostLink.vectorPending ∧ s.vectorOpen vector then s.sendVector vector else s)

/-! ### Errors and IDE (R337, R338) -/

/-- UNSUPPORTED_REQUEST: logged; a non-posted one completes with UR and is an advisory error as well (Table 15-7). -/
def execUnsupportedRequest (kind : Unsupported) (s : State) : Host.Outcome State Fault Refusal :=
  .next (
    if kind = .outsideBarPosted then s.logAer .unsupportedRequest
    else ((s.logAer .unsupportedRequest).logAer .advisoryNonFatal).emit .completionUr)

/-- IdeState of the two streams. -/
def State.noteIde (s : State) : State :=
  s.setEntry 0x5040 0x0B ((if s.hostLink.linkIde = .secure then 1 else 0) + (if s.hostLink.selectiveIde = .secure then 2 else 0))

/-- IDE_CHECK_FAILED: the stream is Insecure until it is keyed again (R338). -/
def execIdeCheckFailed (selective : Bool) (s : State) : Host.Outcome State Fault Refusal :=
  .next (
    let h := s.hostLink
    if (if selective then h.selectiveIde else h.linkIde) ≠ .secure then s
    else
      let h' := if selective then { h with selectiveIde := .insecure } else { h with linkIde := .insecure }
      let s := (({ s with hostLink := { h' with aer := h'.aer ++ [AerError.ideCheckFailed] } }).noteIde).bump 0x5040 0x0C 1
      s.raise 0xB0F1 0xFF 0 (if selective then 1 else 0) 0)

/-! ### DOE and SPDM (R339, R369) -/

/-- The mailbox takes an object only in service; during a pause objects are dropped (Table 15-8). -/
def State.doe (s : State) (f : State → State) : State := if s.ready && s.hostUp then f s else s

/-- A response leaves the mailbox. -/
def State.respond (s : State) (name : String) (d : List Byte) : State := s.emit (.doe name d)

/-- A request that the responder's state does not allow. -/
def State.unexpected (s : State) : State := s.respond "ERROR" [4]

/-- A message joins the transcript (log entry 7). -/
def State.transcribe (s : State) (d : List Byte) : State := { s with hostLink := { s.hostLink with transcript := s.hostLink.transcript ++ d } }

/-- DOE_DISCOVERY: DOE Discovery, CMA/SPDM, Secured CMA/SPDM, and the next index (R339). -/
def execDoeDiscovery (index : Nat) (s : State) : Host.Outcome State Fault Refusal :=
  .next (s.doe fun s => if index < 3 then s.respond "DISCOVERY" [BitVec.ofNat 8 index, BitVec.ofNat 8 ((index + 1) % 3)] else s.respond "DISCOVERY" [0xFF, 0])

/-- GET_VERSION: 1.2 and 1.3, and the negotiation starts anew. -/
def execGetVersion (s : State) : Host.Outcome State Fault Refusal :=
  .next (s.doe fun s =>
    (({ s with hostLink := { s.hostLink with spdmVersion := true, spdmCapabilities := false, spdmAlgorithms := false, transcript := [0x84] } })).respond
      "VERSION" [0x12, 0x13])

/-- GET_CAPABILITIES: CTExponent 17 (R339). -/
def execGetCapabilities (s : State) : Host.Outcome State Fault Refusal :=
  .next (s.doe fun s =>
    if s.hostLink.spdmVersion then
      (({ s with hostLink := { s.hostLink with spdmCapabilities := true } }).transcribe [0xE1]).respond "CAPABILITIES" [17]
    else s.unexpected)

/-- NEGOTIATE_ALGORITHMS: ECDSA P-384 with SHA-384 must be offered; DHE secp384r1 and AES-256-GCM where offered (R339). -/
def execNegotiateAlgorithms (p384 sha384 secp384r1 aes256gcm : Bool) (s : State) : Host.Outcome State Fault Refusal :=
  .next (s.doe fun s =>
    if !s.hostLink.spdmCapabilities then s.unexpected
    else if !(p384 && sha384) then s.respond "ERROR" [1]
    else
      let b (x : Bool) : Byte := if x then 1 else 0
      (({ s with hostLink := { s.hostLink with spdmAlgorithms := true } }).transcribe [0xE3]).respond "ALGORITHMS" [b p384, b sha384, b secp384r1, b aes256gcm])

/-- A request after the negotiation. -/
def State.negotiated (s : State) (f : State → State) : State := s.doe fun s => if s.hostLink.spdmAlgorithms then f s else s.unexpected

/-- The X.509 chain of slot 0 (R366, log entry 4). -/
def spdmChain : List Byte := unitString 1

def chainDigest : List Byte := digestBytes (Config.sha384 spdmChain)

/-- GET_DIGESTS. -/
def execGetDigests (s : State) : Host.Outcome State Fault Refusal :=
  .next (s.negotiated fun s => (s.transcribe [0x81]).respond "DIGESTS" ([1] ++ chainDigest))

/-- GET_CERTIFICATE: a portion of slot 0's chain and what remains. -/
def execGetCertificate (slot offset length : Nat) (s : State) : Host.Outcome State Fault Refusal :=
  .next (s.negotiated fun s =>
    if slot ≠ 0 ∨ spdmChain.length < offset then s.respond "ERROR" [1]
    else
      let part := (spdmChain.drop offset).take length
      (s.transcribe [0x82]).respond "CERTIFICATE" (leBytes 2 part.length ++ leBytes 2 (spdmChain.length - offset - part.length) ++ part))

/-- A response signed by both keys: the HSS signature travels as opaque data, and the ECDSA signature covers it too (R369).
Above the rate of R363 the request is answered with RESPONSE_NOT_READY. -/
def State.signedResponse (s : State) (name : String) (request body : List Byte) : State :=
  if s.signBusy then s.respond "RESPONSE_NOT_READY" []
  else
    let r := s.spendLeaf
    if r.1 ≠ OK then r.2.2.respond "ERROR" (leBytes 2 r.1)
    else
      let s := r.2.2.transcribe (request ++ body)
      let h := hssOf r.2.1 s.hostLink.transcript
      let opaqueData := [0x01] ++ h
      s.useFree.respond name (body ++ opaqueData ++ s.ecdsaOf (s.hostLink.transcript ++ opaqueData))

/-- A fresh random string of the responder (log entry 7). -/
def State.responderNonce (s : State) : List Byte := (List.range 32).map fun i => Config.protocolByte s.freeCount i

/-- CHALLENGE. -/
def execChallenge (slot : Nat) (nonce : List Byte) (s : State) : Host.Outcome State Fault Refusal :=
  .next (s.negotiated fun s =>
    if slot ≠ 0 then s.respond "ERROR" [1] else s.signedResponse "CHALLENGE_AUTH" ([0x83] ++ nonce) ([0] ++ chainDigest ++ s.responderNonce))

/-- The blocks of a GET_MEASUREMENTS: the count, all of them, or one. -/
def State.measurementBlocks (s : State) (index : Nat) : Option (List Byte) :=
  if index = 0 then some [BitVec.ofNat 8 measurementIndices.length]
  else if index = 0xFF then some (measurementIndices.flatMap fun i => leBytes 1 i ++ s.measurement i)
  else if measurementIndices.contains index then some (leBytes 1 index ++ s.measurement index)
  else none

/-- GET_MEASUREMENTS. -/
def execGetMeasurements (index : Nat) (signed : Bool) (nonce : List Byte) (s : State) : Host.Outcome State Fault Refusal :=
  .next (s.negotiated fun s =>
    match s.measurementBlocks index with
    | none => s.respond "ERROR" [1]
    | some b =>
      if signed then s.signedResponse "MEASUREMENTS" ([0xE0, BitVec.ofNat 8 index] ++ nonce) (b ++ s.responderNonce)
      else (s.transcribe [0xE0, BitVec.ofNat 8 index]).respond "MEASUREMENTS" b)

/-- The sessions changed: SpdmSessions follows. -/
def State.setSpdm (s : State) (l : List SpdmSession) : State :=
  ({ s with hostLink := { s.hostLink with sessions := l } }).setEntry 0x5040 0x0D l.length

def State.spdmSession (s : State) (id : Nat) : Option SpdmSession := s.hostLink.sessions.find? fun x => x.id = id

/-- KEY_EXCHANGE: at most 2 sessions (R339). -/
def execKeyExchange (sessionId : Nat) (s : State) : Host.Outcome State Fault Refusal :=
  .next (s.negotiated fun s =>
    if 2 ≤ s.hostLink.sessions.length ∨ (s.spdmSession sessionId).isSome then s.respond "ERROR" [0x0A]
    else
      let open' : State := s.setSpdm (s.hostLink.sessions ++ [{ id := sessionId, secured := false, keyGeneration := 0 }])
      let r := open'.signedResponse "KEY_EXCHANGE_RSP" ([0xE4] ++ leBytes 2 sessionId) s.responderNonce
      if s.signBusy ∨ s.spendLeaf.1 ≠ OK then r.setSpdm s.hostLink.sessions else r)

/-- SPDM_FINISH: the session is secured, or ended where its proof fails. -/
def execSpdmFinish (sessionId : Nat) (verified : Bool) (s : State) : Host.Outcome State Fault Refusal :=
  .next (s.negotiated fun s =>
    match s.spdmSession sessionId with
    | none => s.respond "ERROR" [4]
    | some x =>
      if x.secured then s.unexpected
      else if verified then
        (s.setSpdm (s.hostLink.sessions.map fun y => if y.id = sessionId then { y with secured := true } else y)).respond "FINISH_RSP" []
      else (s.setSpdm (s.hostLink.sessions.filter fun y => y.id ≠ sessionId)).respond "ERROR" [6])

/-- A request inside a secured session. -/
def State.inSession (s : State) (id : Nat) (f : State → State) : State :=
  s.doe fun s => if (s.spdmSession id).any fun x => x.secured then f s else s.unexpected

/-- HEARTBEAT. -/
def execHeartbeat (sessionId : Nat) (s : State) : Host.Outcome State Fault Refusal :=
  .next (s.inSession sessionId fun s => s.respond "HEARTBEAT_ACK" [])

/-- KEY_UPDATE. -/
def execKeyUpdate (sessionId : Nat) (s : State) : Host.Outcome State Fault Refusal :=
  .next (s.inSession sessionId fun s =>
    (s.setSpdm (s.hostLink.sessions.map fun y => if y.id = sessionId then { y with keyGeneration := y.keyGeneration + 1 } else y)).respond "KEY_UPDATE_ACK" [])

/-- END_SESSION. -/
def execEndSession (sessionId : Nat) (s : State) : Host.Outcome State Fault Refusal :=
  .next (s.inSession sessionId fun s => (s.setSpdm (s.hostLink.sessions.filter fun y => y.id ≠ sessionId)).respond "END_SESSION_ACK" [])

/-- VENDOR_DEFINED_REQUEST: IDE_KM keys the link or the selective stream (R338). -/
def execVendorDefinedRequest (sessionId : Nat) (selective : Bool) (s : State) : Host.Outcome State Fault Refusal :=
  .next (s.inSession sessionId fun s =>
    let h := s.hostLink
    let h' := if selective then { h with selectiveIde := .secure } else { h with linkIde := .secure }
    ((({ s with hostLink := h' }).noteIde).respond "VENDOR_DEFINED_RESPONSE" []))

/-! ### BAR2 (R329-R331) -/

/-- A request that IdeRequired keeps out, as no secure stream carries it (R338). -/
def State.ideRefuses (s : State) (secure : Bool) : Bool := s.entry 0x5010 2 = 1 && !(secure && s.secureStream)

/-- The stack address of a BAR2 offset (R329). -/
def State.aperture (s : State) (x : Nat) : Nat := s.entry 0x5020 1 + x

/-- A BAR2 read: the bytes, all ones where it is refused, or a poisoned completion (Table 15-4). -/
def State.bar2Read (s : State) (x n : Nat) (secure : Bool) (ecc : Ecc) : State :=
  let ones := List.replicate n (0xFF : Byte)
  let a := s.aperture x
  if !s.hostPowered then s
  else if s.ideRefuses secure then s.refuseInsecureRead
  else if !s.ready ∨ !bit (s.entry 0x5020 2) 0 then (s.bump 0x5020 3 1).emit (.bar2 ones false false)
  else
    let s := s.touchRange a n
    let st := s.readStatus a n ecc
    let s := s.applyEcc a ecc
    if st = OK then s.emit (.bar2 (s.memBytes a n) false false) else s.emit (.bar2 ones true false)

/-- BAR2_READ; the aperture's bytes all lie in the visible range (R329). -/
def execBar2Read (offset length : Nat) (secure : Bool) (ecc : Ecc) (s : State) : Host.Outcome State Fault Refusal :=
  .next (if offset + length ≤ 0x1000000000 then s.bar2Read offset length secure ecc else s)

/-- A BAR2 write: performed, or dropped whole (Table 15-4). -/
def State.bar2Write (s : State) (x : Nat) (d : List Byte) (secure : Bool) : State :=
  let a := s.aperture x
  if !s.hostPowered then s
  else if s.ideRefuses secure then s.bump 0x5040 0x0C 1
  else if !s.ready ∨ !bit (s.entry 0x5020 2) 1 ∨ s.inImage a d.length then s.bump 0x5020 3 1
  else (s.touchRange a d.length).memWrite a d

/-- BAR2_WRITE. -/
def execBar2Write (offset : Nat) (data : List Byte) (secure : Bool) (s : State) : Host.Outcome State Fault Refusal :=
  .next (if offset + data.length ≤ 0x1000000000 then s.bar2Write offset data secure else s)

end Sys2Proof.Machine
end

