-- ==== Sys2Proof/Machine/MemOps.lean ====
section
/-! DEFINITION. The commands of the memory controllers, of poison, patrol and self-refresh (R281-R298). -/

namespace Sys2Proof.Machine

/-! ### Requests (R283-R288) -/

/-- A request of a tile that carries an epoch older than the tile's: it is dropped and counted (R393). -/
def State.lateMessage (s : State) (r : MemReq) : Bool := r.source < 64 && decide (r.epoch < (s.tile r.source).leaseEpoch)

/-- A request at a controller: outside the visible range, or a write into an image, it is refused (R215, R277);
a source with 48 in flight issues none, and none
that leaves its block of 1,024 bytes (R283, R285). -/
def State.memRequest (s : State) (k : Nat) (r : MemReq) : State :=
  if s.lateMessage r then s.bump 0xB190 5 1
  else if !requestInBlock r then s
  else if !inStack r.address r.length || s.writesImage r then s.refuseRequest r
  else if 48 ≤ s.inFlight r.source then s
  else (s.touchStack k).arriveRequest k r

/-- MEM_REQUEST (R285). -/
def execMemRequest (controller : Nat) (req : MemReq) (s : State) : Host.Outcome State Fault Refusal :=
  onStack controller s fun s => s.memRequest controller req

/-- Whether a bank is refreshing: it serves no entry for 280 ns (R289). -/
def State.refreshing (s : State) (k channel bank : Nat) : Bool :=
  (Tab.get? (s.sorter k).refreshed (32 * channel + bank)).any fun t => s.now < t + 280

/-- A read served: counted, its words corrected or poisoned, and answered (R288, R293). -/
def State.serveRead (s : State) (e : SorterEntry) (ecc : Ecc) : State :=
  let s := (s.countRead e.address e.length).applyEcc e.address ecc
  let status := match ecc with
    | .uncorrectable _ => MEM_UNCORRECTABLE
    | _ => if e.poisoned then SLOT_POISON else OK
  s.emit (.memory e.source e.address status (if status = OK then e.data else []))

/-- An uncorrectable word found by the read of a partial write: handled as a read's, then the bytes that no accepted write names are zero
and the word is no longer poisoned (R283). -/
def State.mendWord (s : State) (k : Nat) (e : SorterEntry) (w : Nat) : State :=
  let named := (e :: (s.sorter k).entries).flatMap fun x => x.write.getD []
  let s := s.uncorrectableWord w
  let s := (List.range 32).foldl (fun s i => if named.contains (32 * w + i) then s else s.putByte (32 * w + i) 0) s
  s.stampWord w

/-- A write served: its contents were applied when it was accepted; a partial one reads its words first (R283, R288). -/
def State.serveWrite (s : State) (k : Nat) (e : SorterEntry) (named : List Nat) (ecc : Ecc) : State :=
  let parts := partialWords named
  let s := s.bump (0x3040 + (s.mapAddress e.address).1) 4 named.length
  let s := if parts.isEmpty ∨ e.poisoned then s else s.bump (0x3040 + k) 5 1
  match ecc with
  | .clean | .tagCopy => s
  | .corrected w => if parts.contains (e.address / 32 + w) then s.correctedWord (e.address / 32 + w) else s
  | .uncorrectable w => if parts.contains (e.address / 32 + w) then s.mendWord k e (e.address / 32 + w) else s

/-- A bank serves its next entry, and freed entries go to what waits (R285-R287). -/
def State.serveBank (s : State) (k channel bank : Nat) (ecc : Ecc) : State :=
  if s.refreshing k channel bank then s
  else
    match (s.sorter k).nextOf channel bank with
    | none => s
    | some e =>
      let s := s.setSorter k ((s.sorter k).serve e)
      let s := match e.write with
        | none => s.serveRead e ecc
        | some named => s.serveWrite k e named ecc
      s.drainSorter k

/-- BANK_SERVICE (R287). -/
def execBankService (controller channel bank : Nat) (ecc : Ecc) (s : State) : Host.Outcome State Fault Refusal :=
  onStack controller s fun s => s.serveBank controller channel bank ecc

/-- BANK_REFRESH (R289). -/
def execBankRefresh (controller channel bank : Nat) (s : State) : Host.Outcome State Fault Refusal :=
  onStack controller s fun s =>
    let q := s.sorter controller
    s.setSorter controller { q with refreshed := Tab.put q.refreshed (32 * channel + bank) s.now }

/-- STACK_ECC_WRITE_BACK: the oldest corrected word is written back as a source-83 access (R293). -/
def execStackEccWriteBack (s : State) : Host.Outcome State Fault Refusal :=
  .next (match s.stackWriteBacks with
    | [] => s
    | w :: rest => { s with stackWriteBacks := rest }.countWrite (32 * w) 32)

/-! ### Poison (R294-R296) -/

/-- The words of a range of granules that read as poisoned. -/
def State.poisonedIn (s : State) (first count : Nat) : List Nat := ((List.range (8 * count)).map fun i => 8 * first + i).filter s.wordPoisoned

/-- Whether the oldest entry is to be retired (R295). -/
def State.retireDue (s : State) (e : PoisonEntry) : Bool :=
  4096 - s.poisonTable.length < 64 || 16384 ≤ (s.poisonEpoch + 2 ^ 15 - e.epoch % 2 ^ 15) % 2 ^ 15

/-- Waiting markings take the freed entries, in their order (R295). -/
def State.admitMarking (s : State) : State :=
  let n := 4096 - s.poisonTable.length
  (s.poisonWaits.take n).foldl (fun s w => s.markPoison w.1 w.2) { s with poisonWaits := s.poisonWaits.drop n }

/-- The oldest entry's walk ends: every word of its range that still reads as poisoned has its POISON bit, and the entry is free (R295). -/
def State.retirePoison (s : State) : State :=
  match s.poisonTable with
  | [] => s
  | e :: rest =>
    if s.retireDue e then
      let s := (s.poisonedIn e.first e.count).foldl State.poisonWord s
      let s := ({ s with poisonTable := rest }).setEntry 0x3030 5 rest.length
      s.admitMarking
    else s

/-- POISON_RETIRE (R295). -/
def execPoisonRetire (s : State) : Host.Outcome State Fault Refusal := .next s.retirePoison

/-- The write of PoisonClear: the clear starts (R296). -/
def State.poisonClearOp (s : State) : Nat × State :=
  (OK, ({ s with clearWalk := some { base := s.entry 0x3030 1, length := s.entry 0x3030 2 } }).setEntry 0x3030 4 PENDING)

/-- A refused PoisonClear shows its refusal in PoisonClearStatus, unless a clear runs on (Table 13-5). -/
def State.notePoisonClear (s : State) (code : Nat) : State :=
  if (code = VALUE_RANGE ∨ code = STATE_CONFLICT) ∧ s.clearWalk.isNone then s.setEntry 0x3030 4 code else s

/-- A write of one entry whose refusal its own status entry shows. -/
def State.writeNoted (s : State) (ctx index sub v : Nat) (op : State → Nat × State) (note : State → Nat → State) : State :=
  s.served ctx fun s =>
    s.inTurn (slotWrite ctx index sub v) fun s =>
      let x := s.writeResult ctx index sub v op
      (note x.2 x.1).record ctx index sub x.1

/-- POISON_CLEAR (R296). -/
def execPoisonClear (ctx : Nat) (value : Word) (s : State) : Host.Outcome State Fault Refusal :=
  .next (s.writeNoted ctx 0x3030 3 value.toNat State.poisonClearOp State.notePoisonClear)

/-- The walk's end: words that read as poisoned hold zero, entries inside the range are gone and those across it trimmed (R296). -/
def State.endClear (s : State) : State :=
  match s.clearWalk with
  | none => s
  | some c =>
    let first := c.base / 256
    let count := c.length / 256
    let s := (s.poisonedIn first count).foldl (fun s w => (s.putBytes (32 * w) (List.replicate 32 0)).stampWord w) s
    let table := s.poisonTable.flatMap fun e => e.trim first count
    ((({ s with poisonTable := table, clearWalk := none }).setEntry 0x3030 5 table.length).setEntry 0x3030 4 OK).admitMarking

/-- POISON_CLEAR_WALK_END (R296). -/
def execPoisonClearWalkEnd (s : State) : Host.Outcome State Fault Refusal := .next s.endClear

/-! ### Patrol scrub (R297) -/

/-- The visible local address of granule `i` of a stack's channel (R279, R280); none in the device area. -/
def State.granuleAddress (s : State) (k channel i : Nat) : Option Nat :=
  if 1464844 ≤ i then none
  else if s.stackLinear k then some (k * stackWindow + (128 * i + channel) * 256)
  else
    let h := s.hashedStacks
    let c := 128 * h.length
    let t := i * 0x9E3779B1 % 2 ^ 32
    let slot := (h.findIdx? fun x => x = k).getD 0 * 128 + channel
    let x := (i * c + (slot + c - t / 65536 % c) % c) * 256
    some (h.getD (x / stackWindow) 0 * stackWindow + x % stackWindow)

/-- An error that a patrol finds in the device area: counted and recorded, with an address of all ones (Table 13-5). -/
def State.deviceAreaError (s : State) (k channel : Nat) (ecc : Ecc) : State :=
  match ecc with
  | .clean | .tagCopy => s
  | .corrected _ => s.bump (0x3040 + k) 8 1
  | .uncorrectable _ =>
    ((s.bump (0x3040 + k) 9 1).setEntry (0x3040 + k) 0x0A (2 ^ 64 - 1)).raise 0xB0D2 0xFF MEM_UNCORRECTABLE (2 ^ 64 - 1) (k * 256 + channel)

/-- A patrol read of a channel's next granule, where the channel has no entry and the stack is awake (R297). -/
def State.patrol (s : State) (k channel : Nat) (ecc : Ecc) : State :=
  let q := s.sorter k
  if s.entry (0x3040 + k) 1 ≠ 0 ∨ q.entries.any (fun e => e.channel = channel) then s
  else
    let i := Tab.get q.patrol 0 channel
    let s := s.setSorter k { q with patrol := Tab.put q.patrol channel ((i + 1) % 1572864) }
    match s.granuleAddress k channel i with
    | some a => s.applyEcc a ecc
    | none => s.deviceAreaError k channel ecc

/-- PATROL_SCRUB (R297). -/
def execPatrolScrub (stack channel : Nat) (ecc : Ecc) (s : State) : Host.Outcome State Fault Refusal :=
  onStack stack s fun s => s.patrol stack channel ecc

/-- SELF_REFRESH_PATROL_WAKE: once per PatrolPeriod a stack in self-refresh is woken for a full pass, which takes 15.8 ms (R297).
A changed period takes effect at the next pass. -/
def execSelfRefreshPatrolWake (stack : Nat) (s : State) : Host.Outcome State Fault Refusal :=
  onStack stack s fun s =>
    let q := s.sorter stack
    if s.entry (0x3040 + stack) 1 = 1 ∧ q.patrolAt + 3600000000000 * q.patrolHours ≤ s.now then
      (s.setSorter stack { q with patrolAt := s.now, patrol := [], patrolHours := s.entry 0x3010 3, passUntil := s.now + 15800000 }).setEntry (0x3040 + stack) 1 0
    else s

/-! ### Self-refresh and StackMode (R281, R298) -/

/-- Whether a stack may enter self-refresh, or return to it after a patrol pass (R297, R298). -/
def State.mayRefresh (s : State) (k : Nat) : Bool :=
  s.idle && s.entry (0x3040 + k) 1 = 0 && (s.sorter k).entries.isEmpty && (s.sorter k).inputQueue.isEmpty
    && (s.sorter k).lastRequest + 1000 * s.entry 0x3010 2 ≤ s.now && (s.sorter k).passUntil ≤ s.now

/-- SELF_REFRESH_ENTRY (R298). -/
def execSelfRefreshEntry (stack : Nat) (s : State) : Host.Outcome State Fault Refusal :=
  onStack stack s fun s => if s.mayRefresh stack then s.setEntry (0x3040 + stack) 1 1 else s

/-- STACK_MODE_WRITE (R281). -/
def execStackModeWrite (ctx : Nat) (value : Word) (s : State) : Host.Outcome State Fault Refusal :=
  .next (s.writeEntry ctx 0x3010 1 value.toNat fun s => s.applyEntry ctx 0x3010 1 value.toNat)

end Sys2Proof.Machine
end

