-- ==== Sys2Proof/Machine/Pke.lean ====
section
/-! DEFINITION. The public-key engine: operand memory, modular and P-384 arithmetic, user keys (R381-R384). -/

namespace Sys2Proof.Machine

/-! ### Modular arithmetic (Table 17-7) -/

/-- One step of the extended Euclidean algorithm: the gcd, and the coefficient of the second argument's start value. -/
def euclid : Nat → Nat → Nat → Int → Int → Nat × Int
  | 0, r, _, t, _ => (r, t)
  | n + 1, r, r', t, t' => if r' = 0 then (r, t) else euclid n r' (r % r') t' (t - (r / r' : Nat) * t')

/-- The inverse of `a` modulo `m`, none where the gcd is not 1; `w` is the width of `m` in bits. -/
def modInverse (w m a : Nat) : Option Nat :=
  let x := euclid (2 * w + 2) m (a % m) 0 1
  if x.1 = 1 ∧ a ≠ 0 then some (x.2 % (m : Int)).toNat else none

/-! ### P-384 (FIPS 186: the field prime, the order, b and the base point) -/

def p384P : Nat := 2 ^ 384 - 2 ^ 128 - 2 ^ 96 + 2 ^ 32 - 1
def p384N : Nat := 0xFFFFFFFFFFFFFFFFFFFFFFFFFFFFFFFFFFFFFFFFFFFFFFFFC7634D81F4372DDF581A0DB248B0A77AECEC196ACCC52973
def p384B : Nat := 0xB3312FA7E23EE7E4988E056BE3F82D19181D9C6EFE8141120314088F5013875AC656398D8A2ED19D2A85C8EDD3EC2AEF
def p384Gx : Nat := 0xAA87CA22BE8B05378EB1C71EF320AD746E1D3B628BA79B9859F741E082542A385502F25DBF55296C3A545E3872760AB7
def p384Gy : Nat := 0x3617DE4A96262C6F5D9E98BF9292DC29F8F41DBD289A147CE9DA3113B5F0B8C00A60B1CE1D7E819D7A431D7C90EA0E5F

/-- A point: its coordinates, or none at infinity. -/
abbrev Point := Option (Nat × Nat)

/-- The difference of two field elements. -/
def subP (a b : Nat) : Nat := (a % p384P + p384P - b % p384P) % p384P

/-- The sum of two points with slope `l`. -/
def chord (l x1 y1 x2 : Nat) : Point :=
  let x3 := subP (l * l) (x1 + x2)
  some (x3, subP (l * subP x1 x3) y1)

/-- The quotient of two field elements; the divisor is not 0. -/
def divP (a b : Nat) : Nat := a * (modInverse 384 p384P (b % p384P)).getD 0 % p384P

/-- 2P. -/
def pointDouble : Point → Point
  | none => none
  | some (x, y) => if y = 0 then none else chord (divP (3 * x * x + p384P - 3) (2 * y)) x y x

/-- P + Q. -/
def pointAdd : Point → Point → Point
  | none, q => q
  | p, none => p
  | some (x1, y1), some (x2, y2) =>
    if x1 = x2 then (if y1 = y2 then pointDouble (some (x1, y1)) else none)
    else chord (divP (subP y2 y1) (subP x2 x1)) x1 y1 x2

/-- k × P, over `n` bits of `k`. -/
def pointMul (p : Point) (k : Nat) : Nat → Point
  | 0 => none
  | n + 1 =>
    let h := pointDouble (pointMul p (k / 2) n)
    if k % 2 = 1 then pointAdd h p else h

def p384G : Point := some (p384Gx, p384Gy)

/-! ### Operand memory (R382) -/

/-- A slot's 4,096-bit integer. -/
def State.pkeSlot (s : State) (i : Nat) : Nat := Tab.get s.pke.slots 0 i

/-- A slot takes a value and its SECRET mark. -/
def State.putPkeSlot (s : State) (i v : Nat) (secret : Bool) : State :=
  { s with pke := { s.pke with slots := Tab.put s.pke.slots i v
                               secret := if secret then (if i ∈ s.pke.secret then s.pke.secret else s.pke.secret ++ [i]) else s.pke.secret.erase i } }

def State.pkeSecret (s : State) (i : Nat) : Bool := s.pke.secret.contains i

/-- The point that a slot holds, none where the curve check fails (R382, Table 17-8). -/
def State.pkePoint (s : State) (i : Nat) : Option Point :=
  let v := s.pkeSlot i
  let x := bits v 0 384
  let y := bits v 384 384
  if bit v 4095 then (if x = 0 ∧ y = 0 then some none else none)
  else if p384P ≤ x ∨ p384P ≤ y ∨ y * y % p384P ≠ (x * x * x + (p384P - 3) * x + p384B) % p384P then none
  else some (some (x, y))

/-- A point as a slot holds it. -/
def pointSlot : Point → Nat
  | none => 2 ^ 4095
  | some (x, y) => x + y * 2 ^ 384

/-! ### Commands (R383, R384) -/

/-- The fields of a PkeCommand. -/
structure PkeFields where
  op : Nat
  d : Nat
  a : Nat
  b : Nat
  m : Nat
  len : Nat
  handle : Nat
  persist : Bool
deriving DecidableEq, Repr

def pkeFields (v : Nat) : PkeFields where
  op := bits v 0 8
  d := bits v 8 4
  a := bits v 12 4
  b := bits v 16 4
  m := bits v 20 4
  len := bits v 24 8
  handle := bits v 32 8
  persist := bit v 40

/-- The command word of the fields. -/
def PkeFields.word (f : PkeFields) : Nat :=
  f.op % 256 + f.d % 16 * 2 ^ 8 + f.a % 16 * 2 ^ 12 + f.b % 16 * 2 ^ 16 + f.m % 16 * 2 ^ 20 + f.len % 256 * 2 ^ 24 + f.handle % 256 * 2 ^ 32
    + (if f.persist then 2 ^ 40 else 0)

def PkeFields.modular (f : PkeFields) : Bool := f.op ≤ 5

/-- The slots that a command names as operands: integers, points. -/
def PkeFields.integers (f : PkeFields) : List Nat :=
  if f.op = 4 then [f.a] else if f.modular then [f.a, f.b] else []

def PkeFields.points (f : PkeFields) : List Nat :=
  if f.op = 0x10 then [f.a, f.b] else if f.op = 0x11 ∨ f.op = 0x12 ∨ f.op = 0x13 then [f.a] else []

/-- A modular operand: the first 8 × LEN bytes of its slot (R382). -/
def State.pkeOperand (s : State) (f : PkeFields) (i : Nat) : Nat := s.pkeSlot i % 2 ^ (64 * f.len)

/-- A SECRET slot in a position that refuses it (R382). -/
def State.secretRefusal (s : State) (f : PkeFields) : Bool :=
  (f.points.any s.pkeSecret) || (f.modular && s.pkeSecret f.m)
    || (f.modular && f.integers.any s.pkeSecret && !(f.len = 6 && s.pkeOperand f f.m = p384N))

/-- The fixed time of a command in ns (Table 17-7). -/
def PkeFields.time (f : PkeFields) : Nat :=
  let tMul := 60 + 8 * f.len * f.len
  if f.op ≤ 2 then 40 + 20 * f.len
  else if f.op = 3 then tMul
  else if f.op = 4 then (128 * f.len + 64) * (16 + 8 * f.len)
  else if f.op = 5 then (80 * f.len + 2) * tMul
  else if f.op = 0x10 then 1200
  else if f.op = 0x11 then 1000
  else if f.op = 0x12 then 96000
  else if f.op = 0x13 then 800
  else if f.op = 0x20 then 100000
  else if f.op = 0x21 then 500
  else 2000

/-- The outcome of a modular command: its value, or an error (Table 17-8). -/
def modResult (op len a b m : Nat) : Nat × Nat :=
  if m % 2 = 0 ∨ m < 3 ∨ m ≤ a ∨ (op ≤ 3 ∧ m ≤ b) then (PKE_RANGE, 0)
  else if op = 1 then (OK, (a + b) % m)
  else if op = 2 then (OK, (a + m - b) % m)
  else if op = 3 then (OK, a * b % m)
  else if op = 4 then
    match modInverse (64 * len) m a with
    | some x => (OK, x)
    | none => (PKE_NO_INVERSE, 0)
  else (OK, powMod m a b)

/-- The outcome of a point command: its point, or an error. -/
def State.pointResult (s : State) (f : PkeFields) : Nat × Point :=
  match s.pkePoint f.a, (if f.op = 0x10 then s.pkePoint f.b else some none) with
  | some p, some q =>
    if f.op = 0x10 then (OK, pointAdd p q)
    else if f.op = 0x11 then (OK, pointDouble p)
    else if f.op = 0x12 then (let k := s.pkeSlot f.b % 2 ^ 384; if p384N ≤ k then (PKE_RANGE, none) else (OK, pointMul p k 384))
    else (OK, none)
  | _, _ => (PKE_POINT_INVALID, none)

/-- The slots that a command names: its result, its operands and its modulus (Table 17-7). -/
def PkeFields.named (f : PkeFields) : List Nat :=
  if f.modular then [f.d, f.m] ++ f.integers
  else if f.op = 0x12 then [f.d, f.a, f.b]
  else if f.op = 0x13 then f.points
  else if f.op = 0x22 then []
  else [f.d] ++ f.points

/-- A slot in use: a segmented transfer of its content is open (R383, log entry 50). -/
def State.slotInUse (s : State) (i : Nat) : Bool :=
  s.contexts.any fun p => p.2.transfer.any fun t => decide (t.addr = entryKey 0x9210 (i + 1))

/-- What a command will leave when its time has elapsed. -/
def State.pkeRun (s : State) (f : PkeFields) : PkeRun :=
  let ends := s.now + f.time
  let named := f.named
  let fail (code : Nat) : PkeRun := { endsAt := ends, status := code, slots := named }
  if f.modular then
    let r := modResult f.op f.len (s.pkeOperand f f.a) (s.pkeOperand f f.b) (s.pkeOperand f f.m)
    if r.1 ≠ OK then fail r.1
    else { endsAt := ends, status := OK, slots := named, dest := some (f.d, r.2, f.integers.any s.pkeSecret) }
  else if f.op < 0x20 then
    let r := s.pointResult f
    if r.1 ≠ OK ∨ f.op = 0x13 then fail r.1 else { endsAt := ends, status := OK, slots := named, dest := some (f.d, pointSlot r.2, false) }
  else
    match f.op, Tab.get? s.pke.keys f.handle with
    | 0x20, some _ => fail STATE_CONFLICT
    | 0x20, none =>
      let k := 1 + (Config.random s.freeCount).toNat % (p384N - 1)
      { endsAt := ends, status := OK, slots := named, dest := some (f.d, pointSlot (pointMul p384G k 384), false)
        key := some (f.handle, some (k, f.persist)) }
    | 0x21, some k => { endsAt := ends, status := OK, slots := named, dest := some (f.d, k.scalar, true) }
    | _, some _ => { endsAt := ends, status := OK, slots := [], key := some (f.handle, none) }
    | _, none => fail VALUE_RANGE

/-- A command written to PkeCommand: refused while another runs or where it names a slot in use, then by the SECRET marks (R382, R383). -/
def State.pkeCommandOp (s : State) (v : Nat) : Nat × State :=
  let f := pkeFields v
  if s.pke.running.isSome ∨ f.named.any s.slotInUse then (STATE_CONFLICT, s)
  else if s.secretRefusal f then (ACCESS_PROTECT, s)
  else
    let r := s.pkeRun f
    let s := if f.op = 0x20 then s.useFree else s
    (OK, ({ s with pke := { s.pke with running := some r } }).setEntry 0x9200 3 PENDING)

/-- The write of a command through a context. -/
def State.pkeWrite (s : State) (ctx : Nat) (f : PkeFields) : State := s.writeEntry ctx 0x9200 2 f.word fun s => s.pkeCommandOp f.word

/-- The end of a command's fixed time (R383). -/
def State.pkeFinish (s : State) (r : PkeRun) : State :=
  let s := match r.dest with
    | some d => s.putPkeSlot d.1 d.2.1 d.2.2
    | none => s
  let s := match r.key with
    | some (h, some k) => { s with pke := { s.pke with keys := Tab.put s.pke.keys h { scalar := k.1, persistent := k.2 } } }
    | some (h, none) => { s with pke := { s.pke with keys := Tab.erase s.pke.keys h } }
    | none => s
  (({ s with pke := { s.pke with running := none } }).setEntry 0x9200 3 r.status).bump 0x9200 5 1

/-- PKE_COMMAND_COMPLETE. -/
def execPkeCommandComplete (s : State) : Host.Outcome State Fault Refusal :=
  .next (match s.pke.running with
    | some r => if r.endsAt ≤ s.now then s.pkeFinish r else s
    | none => s)

def execModAdd (ctx d a b m len : Nat) (s : State) : Host.Outcome State Fault Refusal :=
  .next (s.pkeWrite ctx { op := 1, d := d, a := a, b := b, m := m, len := len, handle := 0, persist := false })

def execModSub (ctx d a b m len : Nat) (s : State) : Host.Outcome State Fault Refusal :=
  .next (s.pkeWrite ctx { op := 2, d := d, a := a, b := b, m := m, len := len, handle := 0, persist := false })

def execModMul (ctx d a b m len : Nat) (s : State) : Host.Outcome State Fault Refusal :=
  .next (s.pkeWrite ctx { op := 3, d := d, a := a, b := b, m := m, len := len, handle := 0, persist := false })

def execModInv (ctx d a m len : Nat) (s : State) : Host.Outcome State Fault Refusal :=
  .next (s.pkeWrite ctx { op := 4, d := d, a := a, b := 0, m := m, len := len, handle := 0, persist := false })

def execModExp (ctx d a b m len : Nat) (s : State) : Host.Outcome State Fault Refusal :=
  .next (s.pkeWrite ctx { op := 5, d := d, a := a, b := b, m := m, len := len, handle := 0, persist := false })

def execP384Add (ctx d a b : Nat) (s : State) : Host.Outcome State Fault Refusal :=
  .next (s.pkeWrite ctx { op := 0x10, d := d, a := a, b := b, m := 0, len := 0, handle := 0, persist := false })

def execP384Double (ctx d a : Nat) (s : State) : Host.Outcome State Fault Refusal :=
  .next (s.pkeWrite ctx { op := 0x11, d := d, a := a, b := 0, m := 0, len := 0, handle := 0, persist := false })

def execP384Mul (ctx d a b : Nat) (s : State) : Host.Outcome State Fault Refusal :=
  .next (s.pkeWrite ctx { op := 0x12, d := d, a := a, b := b, m := 0, len := 0, handle := 0, persist := false })

def execP384Check (ctx a : Nat) (s : State) : Host.Outcome State Fault Refusal :=
  .next (s.pkeWrite ctx { op := 0x13, d := 0, a := a, b := 0, m := 0, len := 0, handle := 0, persist := false })

def execKeyGenerate (ctx d handle : Nat) (persist : Bool) (s : State) : Host.Outcome State Fault Refusal :=
  .next (s.pkeWrite ctx { op := 0x20, d := d, a := 0, b := 0, m := 0, len := 0, handle := handle, persist := persist })

def execKeyLoad (ctx d handle : Nat) (s : State) : Host.Outcome State Fault Refusal :=
  .next (s.pkeWrite ctx { op := 0x21, d := d, a := 0, b := 0, m := 0, len := 0, handle := handle, persist := false })

def execKeyErase (ctx handle : Nat) (s : State) : Host.Outcome State Fault Refusal :=
  .next (s.pkeWrite ctx { op := 0x22, d := 0, a := 0, b := 0, m := 0, len := 0, handle := handle, persist := false })

/-! ### The claim and the operand slots (R381, R382) -/

/-- PKE_CLAIM. -/
def execPkeClaim (ctx : Nat) (value : Word) (s : State) : Host.Outcome State Fault Refusal :=
  .next (s.writeEntry ctx 0x9200 1 value.toNat fun s => s.applyEntry ctx 0x9200 1 value.toNat)

/-- PKE_FREE. -/
def execPkeFree (ctx : Nat) (s : State) : Host.Outcome State Fault Refusal :=
  .next (s.writeEntry ctx 0x9200 1 0xFF fun s => s.applyEntry ctx 0x9200 1 0xFF)

/-- A slot takes content through PkeSlot: bytes beyond it are zero, and its SECRET mark is cleared (R382). -/
def State.storePkeSlot (s : State) (i : Nat) (d : List Byte) : State := s.putPkeSlot i (leNat (d.take 512)) false

/-- The finished transfer of a slot's content through a context (R382, R437): its outcome and its effect. -/
def State.pkeSlotResult (s : State) (ctx sub : Nat) (d : List Byte) : Nat × State :=
  match s.accessRefusal ctx 0x9210 sub true with
  | some c => (c, s)
  | none =>
    if 512 < d.length then (VALUE_RANGE, s)
    else
      match s.stateRefusal ctx 0x9210 sub true with
      | some c => (c, s)
      | none => (OK, s.storePkeSlot (sub - 1) d)

/-- PKE_SLOT_WRITE. -/
def execPkeSlotWrite (ctx slot : Nat) (data : List Byte) (s : State) : Host.Outcome State Fault Refusal :=
  .next (s.served ctx fun s =>
    let x := if (s.context ctx).groupState = 1 then (STATE_CONFLICT, s) else s.pkeSlotResult ctx (slot + 1) data
    x.2.record ctx 0x9210 (slot + 1) x.1)

end Sys2Proof.Machine
end

