-- ==== Sys2Proof/Machine/Reads.lean ====
section
/-! DEFINITION. Reads of one dictionary entry: the order of refusals, what the transport returns and what the context records (R31, R45-R48, R437). -/

namespace Sys2Proof.Machine

/-- The value that a refused read returns, and an absent one: all ones (R46). -/
def allOnes : Nat := 2 ^ 64 - 1

/-- The value that an open group of the context has staged for an entry (R37). -/
def State.stagedValue (s : State) (ctx index sub : Nat) : Option Nat :=
  if (s.context ctx).groupState = 1 then (s.context ctx).staged.lookup (entryKey index sub) else none

/-- Whether a read inside an open group returns what the group holds of the entry, so that nothing is read now (R37). -/
def State.heldByGroup (s : State) (ctx index sub : Nat) (r : EntryRow) : Bool :=
  (s.context ctx).groupState = 1 && !isContextLocal index sub && (!r.live || (s.stagedValue ctx index sub).isSome)

/-- A read of an entry that exists: a size that the transport does not allow (R47), a WO entry, which reads zero and records ACCESS_RIGHT (R31),
the state of the module, the claim or the gate, a context that cannot be created (R45); any other reads through `op`. -/
def State.readRow (s : State) (r : EntryRow) (ctx index sub : Nat) (sizeOk : EntryRow → Bool) (op : State → Nat × Nat × State) : Nat × Nat × State :=
  if !sizeOk r then (ACCESS_RIGHT, allOnes, s)
  else if r.acc = .wo ∧ sub ≠ 0 then (ACCESS_RIGHT, 0, s)
  else
    match s.stateRefusal ctx index sub false with
    | some c => (c, allOnes, s)
    | none => if isContextLocal index sub ∧ s.contextFull ctx then (GROUP_FULL, allOnes, s) else op s

/-- What an accepted read does: it crosses the gate, or reads here. -/
def State.takeRead (a : EntryAccess) (r : EntryRow) (index sub : Nat) (op : State → Nat × Nat × State) (s : State) : Nat × Nat × State :=
  if crosses a.ctx index && !s.heldByGroup a.ctx index sub r then (WAITING, 0, s.askField a) else op s

/-- The outcome of a read: its code, its value, and the state it leaves but for the record of R46. `take` is what an accepted read does. -/
def State.readResult (s : State) (ctx index sub : Nat) (sizeOk : EntryRow → Bool) (take : EntryRow → State → Nat × Nat × State) : Nat × Nat × State :=
  match s.accessRefusal ctx index sub false with
  | some c => (c, allOnes, s)
  | none =>
    match lookupEntry index sub with
    | none => (ENTRY_ABSENT, allOnes, s)
    | some r => s.readRow r ctx index sub sizeOk (take r)

/-- A context's first access to a context-local entry creates it (R45), and every access marks it live. -/
def State.touchContext (s : State) (ctx index sub : Nat) : State :=
  if s.reachesContext ctx index sub then s.updContext ctx fun c => { c with lastAccess := s.now } else s

/-- The outcome recorded, except that reading 0x1030 changes neither LastStatus nor LastEntry (R46). The spec does not say whether that holds
of a refused read of 0x1030 too: the model records it (DESIGN CHOICE, log entry 62). -/
def State.recordRead (s : State) (ctx index sub code : Nat) : State :=
  if index = 0x1030 ∧ code = OK then s.touchContext ctx index sub else s.record ctx index sub code

/-- What BAR0 returns for a value: bits 31 to 0 for a 4-byte read (R47). -/
def narrowTo (size v : Nat) : Nat := if size = 4 then v % 2 ^ 32 else v

/-- A read's value leaves, unless it waits for Fumarole. -/
def State.answerWith (s : State) (a : EntryAccess) (code v : Nat) : State :=
  if code = WAITING then s else s.emit (.dictRead a.ctx (narrowTo a.size v))

/-- A read that BAR0, the mirror or the supervisor's context answers. During the pause BAR0 answers by itself (R48). -/
def State.answerRead (s : State) (a : EntryAccess) (index sub : Nat) (sizeOk : EntryRow → Bool) (op : State → Nat × Nat × State) : State :=
  if s.bar0Paused a.ctx then s.emit (.dictRead a.ctx (if index = 0x1030 ∧ sub = 1 then BUSY else narrowTo a.size allOnes))
  else if s.bar0Insecure a.ctx then s.refuseInsecureRead
  else
    s.inTurn a fun s =>
      let x := s.readResult a.ctx index sub sizeOk fun r => State.takeRead a r index sub op
      (x.2.2.recordRead a.ctx index sub x.1).answerWith a x.1 x.2.1

end Sys2Proof.Machine
end

