-- ==== Sys2Proof/Machine/Snap.lean ====
section
/-! DEFINITION. Snapshots: triggers, latching, capture slots and the bytes of a capture (R402-R409). -/

namespace Sys2Proof.Machine

/-! ### Triggers (R403) -/

/-- Pending ticks of the timed sources (0x8010:06). -/
def State.timedTicks (s : State) : Nat := (s.ticks.filter fun k => k.timed).length

/-- A timed trigger from outside: dropped and counted while 4 ticks are pending. -/
def State.addTimed (s : State) (k : LatchTick) : State := if 4 ≤ s.timedTicks then s.bump 0x8010 7 1 else s.addTick k

/-- The SNAP frame of a broadcast, or one passed on: to the time parent and to every port whose peer named this device its parent (R323). -/
def State.sendSnap (s : State) (source ident target : Nat) (arrival : Option Nat) : State :=
  let ports := (List.range 16).filter fun p =>
    (s.entry 0x4010 7 = p || (s.port p).peerTimeParent) && s.portState p = portUp && arrival ≠ some p
  let f : Frame := { version := 3, opcode := 0x12, vl := 3, hops := 0, mcastGroup := 0, seq := 0, operand := ident, tag := 0, length := 0, source := source
                     target := 0, address := target, payload := [], crcOk := true }
  ports.foldl (fun s p => s.sendFrame p { f with version := s.entry (0x4040 + p) 2, target := s.entry (0x4040 + p) 3 }) s

/-- The write of SnapTrigger: 1 IMMEDIATE, 2 TIMED, 3 broadcast. -/
def State.snapOp (s : State) (v : Nat) : Nat × State :=
  let own := s.nodeId
  let target := s.entry 0x8010 2
  if v = 1 then (OK, s.addTick { time := s.fabricTime + 1000, source := srcImmediate, timed := false, origin := own })
  else if 4 ≤ s.timedTicks then (STATE_CONFLICT, s)
  else if v = 2 then (OK, s.addTick { time := target, source := srcTimed, timed := true, origin := own })
  else
    let ident := s.entry 0x8010 3
    let s := { s with snapsSeen := s.snapsSeen ++ [(own, ident)] }
    (OK, (s.sendSnap own ident target none).addTick { time := target, source := srcTimed, timed := true, ident := ident, origin := own })

/-- SNAP_IMMEDIATE. -/
def execSnapImmediate (ctx : Nat) (s : State) : Host.Outcome State Fault Refusal := .next (s.writeEntry ctx 0x8010 1 1 fun s => s.snapOp 1)

/-- SNAP_TIMED. -/
def execSnapTimed (ctx : Nat) (s : State) : Host.Outcome State Fault Refusal := .next (s.writeEntry ctx 0x8010 1 2 fun s => s.snapOp 2)

/-- SNAP_BROADCAST. -/
def execSnapBroadcast (ctx : Nat) (s : State) : Host.Outcome State Fault Refusal := .next (s.writeEntry ctx 0x8010 1 3 fun s => s.snapOp 3)

/-- SNAP_FRAME: forwarded once per source and identifier; latched where RemoteTriggerEnable is 1 (R323, R403). -/
def execSnapFrame (port source ident target : Nat) (s : State) : Host.Outcome State Fault Refusal :=
  onPort port s fun s =>
    if s.portState port ≠ portUp ∨ s.snapsSeen.contains (source, ident) then s
    else
      let s := ({ s with snapsSeen := s.snapsSeen ++ [(source, ident)] }).sendSnap source ident target (some port)
      if s.ready ∧ s.entry 0x8010 5 = 1 then s.addTimed { time := target, source := srcRemote, timed := true, ident := ident, origin := source }
      else if s.entry 0x1100 1 = 7 ∧ s.entry 0x8010 5 = 1 then s.bump 0x8010 7 1
      else s

/-! ### What is copied (Tables 19-3, 19-4) -/

/-- The cause that holds a tile's sequencer now, 0xFF for none (Table 19-4): a freeze, a wait that is counted by time, or its bundle's hold. -/
def Tile.cause (x : Tile) : Nat := if 0 < x.freeze then causeEcc else if x.waitCause ≠ 255 then x.waitCause else x.holdCause

/-- A tile's section; a tile in T1 to T3 is RETAINED, one in T4 ABSENT. -/
def State.tileCapture (s : State) (t : Nat) : TileCapture :=
  let x := s.tile t
  { tile := t, sched := x.sched, nextBundle := x.nextBundle, run := x.run, power := s.tileState t, point := s.entry (0xA0C0 + t) 2
    holdCause := x.cause, loops := x.loops, sregs := x.sregs, qregs := x.qregs, ready := x.ready, stores := x.stores, record := x.record
    scoreboard := x.scoreboard, queue := x.running ++ x.queue, tags := x.tags
    stalls := (List.range 60).map fun i => s.entry (0x8100 + t) (i + 1)
    vregs := x.vregs, retained := 1 ≤ s.tileState t && s.tileState t ≤ 3 }

/-- The capture of the ticks that latch now. -/
def State.captureOf (s : State) (first : LatchTick) (ks : List LatchTick) : Capture where
  sources := (ks.map fun k => k.source).eraseDups
  seq := s.captureSeq
  target := first.time
  accepted := first.accepted
  origin := first.origin
  ident := first.ident
  job := ((ks.find? fun k => k.job ≠ 255).map fun k => k.job).getD 255
  late := ks.any fun k => k.late
  wasDeferred := ks.any fun k => k.wasDeferred
  unlocked := !s.timeLocked
  logNewest := s.logNext - 1
  tiles := (tileNumbers.filter s.tileEnabled).map s.tileCapture
  entries := s.dict
  latched := s.fabricTime
  free := s.freeCount
  sorters := s.sorters
  meanPower := s.meanPower
  committed := s.committed
  jobStates := jobSlots.map fun j => (s.job j).state
  openGroups := s.contexts.filter fun (p : Nat × Context) => p.2.groupState = 1
  contexts := (List.range 96).flatMap fun n => (List.range 5).map fun i => s.entry (0xB100 + n) (i + 1)
  streams := s.streams
  handleTables := (jobSlots.filter fun j => (s.job j).active).map fun j => (j, (s.job j).handles)
  groups := s.pendingGroups
  barriers := s.barriers
  ports := s.ports
  seqNext := s.seqNext
  seqExpected := s.seqExpected
  heldFrames := s.heldFrames ++ s.behind.map Prod.fst
  hostTags := s.hostLink.tags
  hostQueue := s.hostLink.txQueue
  heldRequests := s.heat.held
  domains := (List.range 96).map fun d => (d, s.domain d)
  pkeRunning := s.pke.running

/-! ### Latching (R404-R406) -/

/-- The slot that a capture takes: an empty one, else the oldest that is not pinned (R406). -/
def State.captureSlot (s : State) : Option Nat :=
  let free := (List.range 8).filter fun k => s.entry (0x8040 + k) 5 = 0 && s.entry (0x8040 + k) 1 ≠ 1
  match free.find? fun k => s.entry (0x8040 + k) 1 = 0 with
  | some k => some k
  | none => s.captureOrder.find? free.contains

/-- The SOURCES byte. -/
def sourcesByte (l : List Nat) : Nat := (l.eraseDups.map fun i => 2 ^ i).sum

/-- A capture begins in a slot, or is dropped where every slot is pinned. -/
def State.capture (s : State) (first : LatchTick) (ks : List LatchTick) : State :=
  match s.captureSlot with
  | none => s.bump 0x8010 7 1
  | some k =>
    let c := s.captureOf first ks
    let s := if s.entry (0x8040 + k) 1 = 2 then s.bump 0x8010 8 1 else s
    let s := { s.useFree with captures := Tab.put s.captures k c, captureSeq := s.captureSeq + 1, copying := some (k, first.time)
                              captureOrder := s.captureOrder.filter (fun i => i ≠ k) ++ [k] }
    let s := ((s.setEntry (0x8040 + k) 1 1).setEntry (0x8040 + k) 2 c.seq).setEntry (0x8040 + k) 3 (sourcesByte c.sources)
    ((s.setEntry (0x8040 + k) 4 c.target).setEntry (0x8040 + k) 6 c.job).setEntry 0x8010 9 c.seq

/-- Whether a source's trigger waits for a copy to end, as FAULT and STOP do (R405). -/
def LatchTick.waits (k : LatchTick) : Bool := k.source = srcFault || k.source = srcStop

/-- The tick that fabric time has reached first. -/
def State.dueTick (s : State) : Option LatchTick :=
  (s.ticks.filter fun k => k.time ≤ s.fabricTime && !(s.copying.isSome && k.wasDeferred)).foldl (fun b k =>
    match b with
    | none => some k
    | some m => if k.time < m.time then some k else some m) none

/-- Fabric time reaches a tick: one capture for every trigger of that tick; inside a copy's window triggers are dropped or deferred (R405). -/
def State.latch (s : State) : State :=
  match s.dueTick with
  | none => s
  | some k =>
    let same (m : LatchTick) : Bool := m.time = k.time && m.wasDeferred = k.wasDeferred
    let ks := s.ticks.filter same
    if s.copying.isSome then
      let lost := ks.filter fun m => !m.waits
      let s := { s with ticks := (s.ticks.filter fun m => !(same m && !m.waits)).map fun m => if same m then { m with wasDeferred := true } else m }
      s.bump 0x8010 7 lost.length
    else ({ s with ticks := s.ticks.filter fun m => !same m }).capture k ks

/-- SNAPSHOT_LATCH. -/
def execSnapshotLatch (s : State) : Host.Outcome State Fault Refusal := .next s.latch

/-- SNAPSHOT_COPY_COMPLETE: the slot is READY, and deferred triggers may latch (R405). -/
def execSnapshotCopyComplete (s : State) : Host.Outcome State Fault Refusal :=
  .next (match s.copying with
    | none => s
    | some c => ({ s with copying := none }).setEntry (0x8040 + c.1) 1 2)

/-! ### The bytes of a capture (R407-R410) -/

/-- A loop level (Table 19-4): the iterations not yet begun, the index, active. -/
def loopBytes (l : Option LoopFrame) : List Byte :=
  match l with
  | none => leBytes 8 0
  | some f => leBytes 8 ((f.trip - f.index - 1) % 2 ^ 24 + f.index % 2 ^ 24 * 2 ^ 24 + 2 ^ 63)

/-- A modulus register (Table 4-1). -/
def modRegValue (m : ModReg) : Nat :=
  m.word % 2 ^ 16 + m.qval % 2 ^ 36 * 2 ^ 16 + m.ninv % 2 ^ 36 * 2 ^ 72 + m.setId % 256 * 2 ^ 112 + m.limb % 128 * 2 ^ 120 + (if m.valid then 2 ^ 127 else 0)

/-- The slip or fault record (Table 19-6). -/
def recordValue (r : FaultRecord) : Nat :=
  r.targetKind % 256 * 2 ^ 48 + r.slot % 256 * 2 ^ 56 + r.target % 65536 * 2 ^ 64 + r.code % 65536 * 2 ^ 80 + r.bundle % 2 ^ 32 * 2 ^ 96
    + r.count % 2 ^ 64 * 2 ^ 128 + r.ready % 2 ^ 64 * 2 ^ 192

/-- TileRun's code (Table 11-11). -/
def TileRun.code : TileRun → Nat
  | .idle => 0
  | .issuing => 1
  | .held => 2
  | .halted => 3

def SbMode.code : SbMode → Nat
  | .read => 1
  | .write => 2
  | .tagged => 3

/-- A scoreboard entry, with its operation's place in the queue and its long-operation index. -/
def TileCapture.scoreboardBytes (c : TileCapture) (e : Option SbEntry) : List Byte :=
  match e with
  | none => leBytes 8 0
  | some e =>
    let pos := (c.queue.findIdx? fun o => o.id = e.owner).getD 0
    let ix := ((c.queue.find? fun o => o.id = e.owner).map fun o => o.index).getD 0
    leBytes 8 (e.first % 4096 + e.count % 4096 * 2 ^ 12 + e.mode.code * 2 ^ 24 + pos % 64 * 2 ^ 26 + ix % 4096 * 2 ^ 32)

/-- A tile section's 150,272 bytes (Table 19-4). -/
def TileCapture.bytes (c : TileCapture) : List Byte :=
  leBytes 8 c.sched ++ leBytes 4 c.nextBundle ++ leBytes 1 c.run.code ++ leBytes 1 c.power ++ leBytes 1 c.point ++ leBytes 1 c.holdCause
    ++ ((List.range 8).flatMap fun i => loopBytes c.loops[i]?)
    ++ ((List.range 32).flatMap fun i => leBytes 8 (Tab.get c.sregs 0 i).toNat)
    ++ ((List.range 16).flatMap fun i => leBytes 16 (modRegValue (Tab.get c.qregs {} i)))
    ++ ((List.range 32).flatMap fun i => leBytes 8 (Tab.get c.ready 0 i))
    ++ ((List.range 4).flatMap fun i => match c.stores[i]? with
        | some m => leBytes 8 (m.row % 4096 + m.completes % 2 ^ 48 * 2 ^ 16)
        | none => leBytes 8 0)
    ++ leBytes 32 (recordValue c.record)
    ++ ((List.range 64).flatMap fun i => c.scoreboardBytes c.scoreboard[i]?)
    ++ ((List.range 16).flatMap fun i => match c.queue[i]? with
        | some o => leBytes 8 (o.index % 4096 + 2 ^ 15 + o.sa.toNat % 2 ^ 48 * 2 ^ 16)
        | none => leBytes 8 0)
    ++ ((List.range 768).flatMap fun i =>
        leBytes 1 (((List.range 4).map fun k => (Tab.get c.tags .poison (4 * i + k)).code * 4 ^ k).sum))
    ++ (c.stalls.flatMap fun v => leBytes 8 v) ++ leBytes 16 0
    ++ ((List.range 32).flatMap fun i => rowBytes (Tab.get c.vregs [] i))

/-- A section: its header and contents (R408). -/
def sectionBytes (kind index flags time : Nat) (b : List Byte) : List Byte :=
  leBytes 1 kind ++ leBytes 1 index ++ leBytes 1 flags ++ [0] ++ leBytes 4 b.length ++ leBytes 8 time ++ b

/-- LATCH_TIME of a section's island: a clock edge less than 4 ns after the capture latched, free within that bound (R404, log entry 2). -/
def Capture.latchTime (c : Capture) (kind index : Nat) : Nat := c.latched + Config.latchSkew c.free (kind * 256 + index) % 4

/-- A section whose byte layout the spec does not give (Table 19-3): a free value of each byte, at most 128 KiB of them, so that the capture
keeps within 16 MiB (R407, log entry 2). -/
def Capture.openSection (c : Capture) (kind index : Nat) (off : Bool) : List Byte :=
  let flags := (if off then 2 else 0) + (if c.late then 4 else 0)
  let n := if off then 0 else Config.sectionLength c.free kind index % 2 ^ 17
  sectionBytes kind index flags (c.latchTime kind index) ((List.range n).map fun i => Config.sectionByte c.free (kind * 256 + index) i)

/-- Whether a domain was OFF in a capture. -/
def Capture.off (c : Capture) (d : Nat) : Bool := Tab.get c.domains .on d = .off

/-- The sections, in ascending kind and then index (R407, Table 19-3). -/
def Capture.sections (c : Capture) : List (List Byte) :=
  (c.tiles.map fun x =>
      if x.power = 4 then sectionBytes 1 x.tile (2 + if c.late then 4 else 0) (c.latchTime 1 x.tile) []
      else sectionBytes 1 x.tile ((if x.retained then 1 else 0) + if c.late then 4 else 0) (c.latchTime 1 x.tile) x.bytes)
    ++ ((List.range 8).map fun k => c.openSection 2 k (c.off (64 + k)))
    ++ ((List.range 16).map fun p => c.openSection 3 p (c.off (72 + p)))
    ++ [c.openSection 4 0 (c.off 88), c.openSection 5 0 false, c.openSection 6 0 false, c.openSection 7 0 false, c.openSection 8 0 (c.off 89),
        c.openSection 9 0 false, c.openSection 10 0 (c.off 91), c.openSection 11 0 false]

/-- A capture's bytes: the header of Table 19-2 and the sections (R407). -/
def Capture.bytes (c : Capture) : List Byte :=
  let body := c.sections.flatten
  leBytes 4 0x50414E53 ++ leBytes 1 1 ++ leBytes 1 (sourcesByte c.sources) ++ leBytes 2 c.sections.length ++ leBytes 4 c.seq ++ leBytes 4 (64 + body.length)
    ++ leBytes 8 c.target ++ leBytes 8 c.accepted ++ leBytes 2 c.origin ++ leBytes 2 0 ++ leBytes 4 c.ident ++ leBytes 1 c.job
    ++ leBytes 1 ((if c.late then 1 else 0) + (if c.wasDeferred then 2 else 0) + (if c.unlocked then 4 else 0)) ++ leBytes 6 0
    ++ leBytes 4 c.logNewest ++ leBytes 12 0 ++ body

end Sys2Proof.Machine
end

