-- ==== Sys2Proof/Machine/View.lean ====
section
/-! DEFINITION. What each dictionary entry reads as: the entries computed from the machine's state, and the contents of STRING and DOMAIN entries (R56, R83, R192, R258, R298, R360, R385, R401, R414, R425, R436, R439). -/

namespace Sys2Proof.Machine

/-! ### Values computed from the state -/

/-- 0x1000: what the unit and the behaviour generation give (R56, R57). -/
def State.viewUnit (s : State) (sub : Nat) : Option Nat :=
  match sub with
  | 2 => some s.grade
  | 3 => some s.enabled
  | 4 => some (popCount s.enabled)
  | 5 => some (leNat ((List.range 2).map fun i => Config.unitByte (entryKey 0x1000 5) i))
  | 6 => some (if s.oldGeneration then 1 else 2)
  | 7 => some (if s.oldGeneration then 2 else 3)
  | 10 => some (if s.oldGeneration then 256 else 512)
  | 12 => some (crc64 catalogue)
  | _ => none

/-- A byte of a transfer's content: of the copy that a read holds, or as a write has filled or committed it; zero beyond Length (R54). -/
def Transfer.byteAt (t : Transfer) (i : Nat) : Byte :=
  if t.length ≤ i then 0 else if t.write then Tab.get t.filled (Tab.get t.committed 0 i) i else t.content.getD i 0

/-- A slot of the 256-byte window: it maps 8 bytes of the open transfer's content from Offset on; with none open it holds what was written (R54). -/
def Context.dataSlot (c : Context) (i : Nat) : Nat :=
  match c.transfer with
  | some t => leNat ((List.range 8).map fun k => t.byteAt (c.offset + 8 * i + k))
  | none => Tab.get c.window 0 i

/-- The context-local entries of a context (R36). -/
def Context.view (c : Context) (index sub : Nat) : Option Nat :=
  if index = 0x1020 then
    [(2, c.groupState), (3, c.groupOwner), (4, c.staged.length), (5, c.commitTime), (6, c.applyTime)].lookup sub
  else if index = 0x1030 then [(1, c.lastStatus), (2, c.lastEntry), (3, c.errorCount)].lookup sub
  else if index = 0x1038 then
    if 16 ≤ sub then some (c.dataSlot (sub - 16)) else [(1, c.target), (2, c.offset), (3, c.length)].lookup sub
  else if index = 0xB001 ∧ sub = 4 then some c.logReadFrom
  else none

/-- The set-table entries (R64, R66, R67). -/
def State.viewSets (s : State) (index sub : Nat) : Option Nat :=
  if index = 0x2000 ∧ sub = 2 then some s.sets.length
  else if index = 0x2000 ∧ sub = 3 then some s.descriptorFormat
  else if index = 0x2001 then some ((s.sets.filter fun e => e.2.setId / 64 + 1 = sub).map fun e => 2 ^ (e.2.setId % 64)).sum
  else if 0x2100 ≤ index ∧ index < 0x2120 then
    match Tab.get? s.sets (index - 0x2100) with
    | none => none
    | some p =>
      match sub with
      | 1 => some p.setId
      | 3 => some (s.setRefs p.setId)
      | 4 => let r := s.blob index 2
             some (leNat (r.drop (r.length - 8)))
      | _ => none
  else none

/-- The largest sum of reserved BANKS over all channels (0x3020:01). -/
def State.channelLoadMax (s : State) : Nat :=
  (List.range 1024).foldl (fun m c => max m ((s.admitted.map fun im => im.cert.banks.getD c 0).sum)) 0

/-- JobState (Table 11-8). -/
def State.jobStateCode (s : State) (j : Nat) : Nat :=
  if !s.ready then s.entry 0x1100 1
  else
    match (s.job j).state with
    | .ready => 2
    | .loaded => 3
    | .running => 4
    | .draining => 5
    | .halted => 6

/-- TileRun as an entry: a tile held for power reads HELD (Table 11-11). -/
def State.tileRunCode (s : State) (t : Nat) : Nat :=
  let x := s.tile t
  if x.run = .issuing && (s.jobOfTile t).any (fun j => (s.job j).powerHeld.isSome) then 2 else x.run.code

/-- The job entries that are computed (R258). -/
def State.viewJobs (s : State) (index sub : Nat) : Option Nat :=
  if index = 0x6000 then
    match sub with
    | 2 => some ((tileNumbers.filter fun t => s.tileEnabled t && (s.jobOfTile t).isNone).map fun t => 2 ^ t).sum
    | 3 => some s.jobsLoaded.length
    | 4 => some (s.admitted.map fun im => im.cert.geyserRate).sum
    | 5 => some (s.admitted.map fun im => im.cert.streamsMax).sum
    | _ => none
  else if 0x6100 ≤ index ∧ index < 0x6110 ∧ sub = 2 then some (s.jobStateCode (index - 0x6100))
  else if 0x6200 ≤ index ∧ index < 0x6240 then
    let t := index - 0x6200
    match sub with
    | 1 => some ((s.jobOfTile t).getD 0xFF)
    | 2 => some (((s.jobOfTile t).map fun j => rankOf (s.job j).group t).getD 0xFF)
    | 3 => some (s.tile t).sched
    | 4 => some (s.tileRunCode t)
    | _ => none
  else none

/-- The entries of a stream slot (Table 8-10). -/
def Stream.view (x : Stream) (sub : Nat) : Option Nat :=
  [(1, x.state), (2, if x.bound then x.job else 0xFF), (3, x.entry), (4, x.bytesRead), (6, x.error)].lookup sub

/-- The observability entries that are computed (R410, R414). -/
def State.viewStalls (s : State) (index sub : Nat) : Option Nat :=
  if index = 0x8010 ∧ sub = 6 then some s.timedTicks
  else if 0x8080 ≤ index ∧ index < 0x8090 then some ((s.job (index - 0x8080)).group.map fun t => s.entry (0x8100 + t) sub).sum
  else none

/-- The key maps: handles that hold a key, and those that persist (0x9220). -/
def State.keyMap (s : State) (persistent : Bool) : Nat :=
  ((s.pke.keys.filter fun (k : Nat × UserKey) => !persistent || k.2.persistent).map fun k => 2 ^ k.1).sum

/-- The security and firmware entries that are computed (Table 17-10). -/
def State.viewSecurity (s : State) (index sub : Nat) : Option Nat :=
  [ ((0x9000, 10), s.leavesLeft), ((0x9000, 11), if s.hss.prepared then 1 else 0), ((0x9100, 4), s.packageRelease s.activeSlot),
    ((0x9100, 5), s.packageSvn s.activeSlot), ((0x9100, 6), if s.pendingState ≤ 1 then 0 else s.packageRelease s.pendingSlot),
    ((0x9200, 4), (s.pke.secret.eraseDups.map fun i => 2 ^ i).sum), ((0x9220, 1), s.keyMap false), ((0x9220, 2), s.keyMap true) ].lookup (index, sub)

/-- The power and sensor entries that are computed (R360, R436): a host-side sensor reads -32,768 while the host side is OFF. -/
def State.viewPower (s : State) (index sub : Nat) : Option Nat :=
  if index = 0xA040 ∧ sub = 2 then some (if s.deepIdle then 2 else if s.idle then 1 else 0)
  else if index = 0xA060 ∧ sub = 1 then some s.meanPower
  else if index = 0xA060 ∧ sub = 3 then some s.committed
  else if s.offSensor index ∧ sub = 1 then some (unsigned 64 (-32768))
  else none

/-- A computed entry's value, none for an entry that the dictionary stores. -/
def State.computed (s : State) (ctx index sub : Nat) : Option Nat :=
  match index / 4096 with
  | 1 =>
    if index = 0x1000 then s.viewUnit sub
    else if index = 0x1100 ∧ sub = 2 then
      some (match s.restart with | some r => s.bootPhase r | none => 0)
    else (s.context ctx).view index sub
  | 2 => s.viewSets index sub
  | 3 =>
    if index = 0x3020 then some s.channelLoadMax
    else if 0x3440 ≤ index ∧ index < 0x3480 ∧ sub = 1 then some (s.tile (index - 0x3440)).banks
    else none
  | 4 =>
    if index = 0x4020 ∧ sub = 2 then some (if s.timeLocked then 1 else 0)
    else if index = 0x4020 ∧ sub = 1 then some s.fabricTime
    else if 0x4400 ≤ index ∧ index < 0x4440 ∧ sub = 4 then
      some ((jobSlots.find? fun j => (s.job j).state ≠ .ready && (s.job j).image.any fun im => bit im.cert.barrierMask (index - 0x4400)).getD 0xFF)
    else none
  | 6 => s.viewJobs index sub
  | 7 => if 0x7040 ≤ index ∧ index < 0x7050 then (s.stream (index - 0x7040)).view sub else none
  | 8 => s.viewStalls index sub
  | 9 => s.viewSecurity index sub
  | 10 => s.viewPower index sub
  | 11 =>
    if index = 0xB001 then
      match sub with
      | 1 => some (s.logNext - s.log.length)
      | 2 => some (s.logNext - 1)
      | _ => (s.context ctx).view index sub
    else none
  | 12 => s.viewPower index sub
  | _ => none

/-! ### Contents of STRING and DOMAIN entries -/

/-- The 32 bytes of an event-log entry (Table 18-6). -/
def logBytes (e : LogEntry) : List Byte :=
  leBytes 1 e.event ++ leBytes 1 e.job ++ leBytes 2 e.code ++ leBytes 4 e.seq ++ leBytes 8 e.time ++ leBytes 8 e.detail0 ++ leBytes 8 e.detail1

/-- The entries from max(LogReadFrom, LogOldest) to LogNewest (0xB001:05). -/
def State.logWindow (s : State) (ctx : Nat) : List Byte :=
  (s.log.filter fun e => (s.context ctx).logReadFrom ≤ e.seq).flatMap logBytes

/-- A handle's image in LedgerTable (R439). -/
def State.ledgerImage (s : State) (im : Image) (x : Nat) (h : Handle) : List Byte :=
  let kind := (im.decl x).kind
  let bound : Bool := kind = 1 || kind = 3
  Descriptor.bytes
    { format := s.descriptorFormat, set := h.set, family := h.family, flags := flagsOf false false h.ash (if bound then h.nttForm else bit (im.decl x).flags 2) h.crcPresent, level := h.level
      comps := h.comps, scale := h.scale, noise := h.noise, layout := h.layout, count := h.count, tag := h.tag
      location := if kind = 0 then 0 else h.location
      bodyLength := ((s.set? h.set).map fun p => im.derivedLength p h.layout h.comps h.level h.count).getD 0
      bodyCrc := if bound then h.bodyCrc else 0 }

/-- LedgerTable: the job's handle table as descriptor images, in handle order (0x2200:0A). -/
def State.ledgerTable (s : State) (j : Nat) : List Byte :=
  match (s.job j).image with
  | none => []
  | some im => (s.job j).handles.zipIdx.flatMap fun p => s.ledgerImage im p.2 p.1

/-- The code of a domain's state (0xA050:01). -/
def Domain.code : Domain → Nat
  | .off => 0
  | .retention => 1
  | .gated => 2
  | .on => 3

/-- The optical power readings of an engine's lanes; empty for a host-side engine while the host side is OFF (R436). -/
def State.lanePower (s : State) (index sub : Nat) : List Byte :=
  let e := index - 0xC060
  let lanes := if e < 16 then 8 else if e = 16 then 16 else 1
  if !s.hostPowered && e < 17 then [] else (List.range (2 * lanes)).map fun i => Config.laneByte s.fabricTime (entryKey index sub) i

/-- What PendingImage reads as: the pending package, as far as it is staged. -/
def State.pendingPackage (s : State) : List Byte :=
  if s.pendingState = 0 then [] else s.packageBytes s.pendingSlot 0 (Tab.get s.flashLength 0 s.pendingSlot)

/-- The content of a STRING or DOMAIN entry. -/
def State.content (s : State) (ctx index sub : Nat) : List Byte :=
  if index = 0x1000 ∧ sub = 13 then catalogue
  else if 0x2200 ≤ index ∧ index < 0x2210 then s.ledgerTable (index - 0x2200)
  else if 0x7040 ≤ index ∧ index < 0x7050 then (s.stream (index - 0x7040)).slotHeader
  else if 0x8040 ≤ index ∧ index < 0x8048 then
    (if s.entry index 1 = 2 then ((Tab.get? s.captures (index - 0x8040)).map fun c => c.bytes).getD [] else [])
  else if index = 0x9100 then s.pendingPackage
  else if index = 0x9210 then leBytes 512 (Tab.get s.pke.slots 0 (sub - 1))
  else if index = 0xA050 then (List.range 96).map fun d => BitVec.ofNat 8 (s.domain d).code
  else if index = 0xB001 then s.logWindow ctx
  else if 0xC060 ≤ index ∧ index < 0xC072 then s.lanePower index sub
  else s.blob index sub

/-! ### What a read returns (R30, R31, R37) -/

/-- The value an entry reads as now, in slot encoding: a STRING or DOMAIN slot reads the content length (R30). -/
def State.view (s : State) (ctx : Nat) (r : EntryRow) (index sub : Nat) : Nat :=
  if r.ty.isContent then (s.content ctx index sub).length
  else if r.acc = .wo then 0
  else if sub = 0 then highestSub index
  else (s.computed ctx index sub).getD (s.entry index sub)

/-- The entries that are computed and not LIVE, whose values a group's snapshot adds to the stored ones (R34, R37). -/
def snapshotKeys : List (Nat × Nat) :=
  [(0x2000, 2), (0x2000, 3), (0x2001, 1), (0x2001, 2), (0x2001, 3), (0x2001, 4), (0x2010, 1), (0x4030, 1), (0x5030, 1), (0x9010, 1), (0x9010, 2), (0x9030, 1),
   (0x9100, 1), (0x9100, 6), (0x9220, 2), (0xB001, 5)]
    ++ ((List.range 32).flatMap fun i => [(0x2100 + i, 1), (0x2100 + i, 2), (0x2100 + i, 3), (0x2100 + i, 4)])
    ++ ((List.range 16).flatMap fun i => [(0x2200 + i, 10), (0x7040 + i, 5), (0x7040 + i, 6)]) ++ (List.range 8).map fun k => (0x8040 + k, 7)

/-- The snapshot of OPEN (R37). -/
def State.groupSnapshot (s : State) (ctx : Nat) : Tab Nat :=
  snapshotKeys.foldl (fun d k =>
    match lookupEntry k.1 k.2 with
    | some r => Tab.put d (entryKey k.1 k.2) (s.view ctx r k.1 k.2)
    | none => d) s.dict

/-- What a read through a context returns: inside an open group the staged value, else the snapshot's for an entry that is neither LIVE nor
context-local (R37); otherwise the value now. -/
def State.readView (s : State) (ctx : Nat) (r : EntryRow) (index sub : Nat) : Nat :=
  let c := s.context ctx
  let k := entryKey index sub
  if c.groupState ≠ 1 || isContextLocal index sub then s.view ctx r index sub
  else
    match c.staged.lookup k with
    | some v => v
    | none =>
      if r.live then s.view ctx r index sub
      else
        match c.snapshot with
        | none => s.view ctx r index sub
        | some d =>
          match Tab.get? d k with
          | some v => v
          | none => if sub = 0 || (s.computed ctx index sub).isSome || r.ty.isContent then s.view ctx r index sub else entryDefault index sub

end Sys2Proof.Machine
end

