-- ==== Sys2Proof/Machine/DictOps.lean ====
section
/-! DEFINITION. Dictionary commands: reads and writes of any entry, transaction groups, segmented transfers, parameter sets, persistence (R30-R58, R65-R67, R375, R438). -/

namespace Sys2Proof.Machine

/-! ### Transaction groups (R37-R45) -/

/-- OPEN: a group with its snapshot (R37, R45). -/
def State.openGroup (s : State) (ctx : Nat) : Nat × State :=
  if (s.context ctx).groupState = 1 then (STATE_CONFLICT, s)
  else if 32 ≤ s.groupCount then (GROUP_FULL, s)
  else (OK, s.beginGroup ctx (some (s.groupSnapshot ctx)))

/-- An open group is discarded without an event (R40, R42). -/
def State.dropGroup (s : State) (ctx : Nat) : State :=
  if (s.context ctx).groupState = 1 then
    s.updContext ctx fun c => { c with groupState := 4, applyTime := s.fabricTime, staged := [], snapshot := none }
  else s

/-- GroupControl acts at once: OPEN, COMMIT, ABORT (R37, R40). The spec names no outcome of COMMIT or ABORT with no open group:
the model refuses them with STATE_CONFLICT (DESIGN CHOICE, log entry 62). -/
def State.groupControl (s : State) (ctx v : Nat) : Nat × State :=
  let c := s.context ctx
  if v = 1 then s.openGroup ctx
  else if c.groupState ≠ 1 then (STATE_CONFLICT, s)
  else if v = 2 then s.commitGroup ctx c.groupOwner c.staged
  else (OK, s.dropGroup ctx)

/-- A write of GroupControl through a context. -/
def State.groupCommand (s : State) (ctx v : Nat) : State := s.writeEntry ctx 0x1020 1 v fun s => s.groupControl ctx v

/-- GROUP_OPEN. -/
def execGroupOpen (ctx : Nat) (s : State) : Host.Outcome State Fault Refusal := .next (s.groupCommand ctx 1)

/-- GROUP_COMMIT. -/
def execGroupCommit (ctx : Nat) (s : State) : Host.Outcome State Fault Refusal := .next (s.groupCommand ctx 2)

/-- GROUP_ABORT. -/
def execGroupAbort (ctx : Nat) (s : State) : Host.Outcome State Fault Refusal := .next (s.groupCommand ctx 3)

/-- GROUP_EPOCH_TIMEOUT: a context's PENDING group whose EpochTimeout has passed is discarded (R42). -/
def execGroupEpochTimeout (ctx : Nat) (s : State) : Host.Outcome State Fault Refusal :=
  .next (
    match s.pendingGroups.find? fun g => g.ctx = ctx && g.deadline ≤ s.now with
    | none => s
    | some g => ({ s with pendingGroups := s.pendingGroups.erase g }).discardGroup g)

/-- Whether a context has been idle for GroupIdleTimeout (R42, R45, R55). The spec does not say what counts as an access to a transfer:
the model lets every recorded access of the context keep its transfer alive (DESIGN CHOICE, log entry 62). -/
def State.contextIdle (s : State) (ctx : Nat) : Bool := (s.context ctx).lastAccess + 1000000 * s.entry 0x1040 2 ≤ s.now

/-- GROUP_IDLE_TIMEOUT. -/
def execGroupIdleTimeout (ctx : Nat) (s : State) : Host.Outcome State Fault Refusal := .next (if s.contextIdle ctx then s.dropGroup ctx else s)

/-- CONTEXT_RELEASE: a fabric node's context with no open or pending group (R45). -/
def execContextRelease (ctx : Nat) (s : State) : Host.Outcome State Fault Refusal :=
  .next (
    if isFabric ctx ∧ s.contextIdle ctx ∧ (s.context ctx).groupState ≠ 1 ∧ !(s.pendingGroups.any fun g => g.ctx = ctx) then
      { s with contexts := Tab.erase s.contexts ctx }
    else s)

/-! ### Parameter sets (R65-R67) -/

/-- LoadStatus and LoadFailOffset. -/
def State.noteLoad (s : State) (code off : Nat) : State :=
  let s := (s.setEntry 0x2010 3 code).setEntry 0x2010 4 off
  if code = MODULUS_FORM then s.bump 0x2300 3 1 else s

/-- A record takes a slot. -/
def State.placeSet (s : State) (slot : Nat) (r : List Byte) : State :=
  ((({ s with sets := Tab.put s.sets slot (deriveSet r) }).setBlob (0x2100 + slot) 2 r).setBlob 0x2010 1 r).noteLoad OK 0

/-- The FINISH of SetLoad: the checks of R65 in order, the slot table last (R66, R67). -/
def State.loadSet (s : State) (r : List Byte) : Nat × State :=
  match recordFailure r with
  | some f => (VALUE_RANGE, s.noteLoad f.2 f.1)
  | none =>
    let id := (readSet r).setId
    match s.findSet id with
    | some e => if s.setRefs id = 0 then (OK, s.placeSet e.1 r) else (STATE_CONFLICT, s.noteLoad STATE_CONFLICT 1)
    | none =>
      match (List.range 32).find? fun k => (Tab.get? s.sets k).isNone with
      | some k => (OK, s.placeSet k r)
      | none => (VALUE_RANGE, s.noteLoad SET_TABLE_FULL 1)

/-- An unloaded set's twiddle entries and constant lines leave the tile (R97, log entry 14). -/
def Tile.forgetSet (x : Tile) (id : Nat) : Tile :=
  { x with twiddles := x.twiddles.filter fun e => e.1 ≠ id, constLines := x.constLines.filter fun l => l / 1024 ≠ id }

/-- The write of SetUnload: an ID that is loaded and not referenced leaves its slot (R67). -/
def State.unloadSet (s : State) (id : Nat) : Nat × State :=
  match s.findSet id with
  | none => (VALUE_RANGE, s)
  | some e =>
    if s.setRefs id ≠ 0 then (STATE_CONFLICT, s)
    else (OK, { s with sets := Tab.erase s.sets e.1, blobs := Tab.erase s.blobs (entryKey (0x2100 + e.1) 2)
                       tiles := Tab.mapVal s.tiles fun _ x => x.forgetSet id })

/-- Every unload writes its outcome to LoadStatus (R67). -/
def State.noteUnload (s : State) (code : Nat) : State := if code = OK ∨ code = VALUE_RANGE ∨ code = STATE_CONFLICT then s.noteLoad code 0 else s

/-- SET_UNLOAD. -/
def execSetUnload (ctx id : Nat) (s : State) : Host.Outcome State Fault Refusal :=
  .next (s.writeNoted ctx 0x2010 2 id (fun s => s.unloadSet id) State.noteUnload)

/-! ### Segmented transfers (R54, R55, R375, R438) -/

/-- Index and subindex of a transfer's entry. -/
def Transfer.index (t : Transfer) : Nat := t.addr / 256
def Transfer.sub (t : Transfer) : Nat := t.addr % 256

/-- A write transfer to PendingImage. -/
def Transfer.stages (t : Transfer) : Bool := t.write && t.index = 0x9100

/-- Whether a context other than `ctx` holds an open write transfer to PendingImage. -/
def State.stagedElsewhere (s : State) (ctx : Nat) : Bool := s.contexts.any fun p => p.1 ≠ ctx && p.2.transfer.any Transfer.stages

/-- A context's transfer is dropped; one to PendingImage leaves PendingState EMPTY (R16, R55). -/
def State.dropTransfer (s : State) (ctx : Nat) : State :=
  let staging : Bool := (s.context ctx).transfer.any Transfer.stages && s.pendingState = 1
  let s := s.updContext ctx fun c => { c with transfer := none }
  if staging then s.setEntry 0x9100 2 0 else s

/-- What refuses the start of a transfer by its entry: the type, the right, the length (R437 steps 6 and 7, R438). -/
def State.startForm (s : State) (r : EntryRow) (ctx index sub : Nat) (write : Bool) (length : Nat) : Option Nat :=
  if !r.ty.isContent ∨ sub = 0 then some ACCESS_RIGHT
  else if write ∧ (r.acc = .ro ∨ (index = 0x9030 ∧ isDtp ctx ∧ s.entry 0x9030 2 = 0)) then some ACCESS_RIGHT
  else if write ∧ maxContent index sub < length then some VALUE_RANGE
  else none

/-- Whether the gate keeps a transfer from its entry: PendingImage over DTP lies with Fumarole itself (R19, R33, R375). -/
def State.startLost (s : State) (ctx index sub : Nat) (write : Bool) : Bool := s.gateConflict ctx index sub write && !(index = 0x9100 && isDtp ctx)

/-- What refuses the start of a transfer by the state (R437 step 8): the claim, the module, the gate, an open group (R38),
a secret slot (R382), a capture that is being taken (Table 19-8), another staging (R375). -/
def State.startState (s : State) (ctx index sub : Nat) (write : Bool) : Option Nat :=
  if s.unclaimed ctx index sub write then some ACCESS_PROTECT
  else if index = 0x9210 ∧ !write ∧ s.pkeSecret (sub - 1) then some ACCESS_PROTECT
  else if s.unserved ctx index write ∨ s.startLost ctx index sub write ∨ (s.context ctx).groupState = 1 then some STATE_CONFLICT
  else if write ∧ index = 0x9100 ∧ (s.stagedElsewhere ctx ∨ s.entry 0x1100 1 = 7) then some STATE_CONFLICT
  else if !write ∧ 0x8040 ≤ index ∧ index < 0x8048 ∧ s.entry index 1 = 1 then some STATE_CONFLICT
  else none

/-- Why a transfer of an entry may not start: the checks of R437 as if the entry were accessed (R438). -/
def State.startRefusal (s : State) (ctx index sub : Nat) (write : Bool) (length : Nat) : Option Nat :=
  match s.accessRefusal ctx index sub write with
  | some c => some c
  | none =>
    match lookupEntry index sub with
    | none => some ENTRY_ABSENT
    | some r => (s.startForm r ctx index sub write length).or (s.startState ctx index sub write)

/-- The content of a read transfer: a copy at START_READ; a report is produced by it (R370). -/
def State.startContent (s : State) (ctx index sub : Nat) : Nat × List Byte × State :=
  if index = 0x9010 ∧ sub = 2 then
    let r := s.makeReport
    (r.1, r.2.content ctx index sub, r.2)
  else (OK, s.content ctx index sub, s)

/-- START_READ. -/
def State.openRead (s : State) (ctx : Nat) : Nat × State :=
  let a := (s.context ctx).target
  match s.startRefusal ctx (a / 256) (a % 256) false 0 with
  | some c => (c, s)
  | none =>
    let r := s.startContent ctx (a / 256) (a % 256)
    if r.1 ≠ OK then (r.1, r.2.2)
    else
      let t : Transfer := { addr := a, write := false, length := r.2.1.length, content := r.2.1 }
      (OK, (r.2.2.dropTransfer ctx).updContext ctx fun c => { c with transfer := some t, length := t.length, offset := 0 })

/-- The pending slot is emptied and STAGING (R375). -/
def State.beginStaging (s : State) (length : Nat) : State :=
  ({ s with flash := Tab.put s.flash s.pendingSlot [], flashLength := Tab.put s.flashLength s.pendingSlot (max 1 length) }).setEntry 0x9100 2 1

/-- A write transfer of `length` bytes opens. -/
def State.openTransfer (s : State) (ctx a length : Nat) : Nat × State :=
  match s.startRefusal ctx (a / 256) (a % 256) true length with
  | some c => (c, s)
  | none =>
    let t : Transfer := { addr := a, write := true, length := length }
    let s := (s.dropTransfer ctx).updContext ctx fun c => { c with transfer := some t }
    (OK, if t.stages then s.beginStaging length else s)

/-- START_WRITE. -/
def State.openWrite (s : State) (ctx : Nat) : Nat × State := s.openTransfer ctx (s.context ctx).target (s.context ctx).length

/-- Bytes committed to an open write transfer at an offset. -/
def Transfer.commit (t : Transfer) (off : Nat) (d : List Byte) : Transfer :=
  { t with committed := (d.zipIdx off).foldl (fun (m : Tab Byte) (p : Byte × Nat) => Tab.put m p.2 p.1) t.committed }

/-- A FIRMWARE_BLOCK to Fumarole, which awaits its answer (R15, R18). -/
def State.sendBlock (s : State) (ctx off : Nat) (d : List Byte) : State := s.gateSend .host (.block off d) (.block ctx)

/-- A segment of a write transfer is stored: in the pending slot for PendingImage, by FIRMWARE_BLOCK or directly over DTP (R375). -/
def State.storeSegment (s : State) (ctx : Nat) (t : Transfer) (off : Nat) (d : List Byte) : Nat × State :=
  if t.stages ∧ (s.pendingState ≠ 1 ∨ (s.hostGate.down ∧ !isDtp ctx)) then (STATE_CONFLICT, s)
  else
    let s := s.updContext ctx fun c => { c with transfer := some (t.commit off d) }
    (OK, if !t.stages then s else if isDtp ctx then (s.putPackage s.pendingSlot off d).growPackage s.pendingSlot t.length else s.sendBlock ctx off d)

/-- COMMIT_SEGMENT. -/
def State.commitWindow (s : State) (ctx : Nat) : Nat × State :=
  let c := s.context ctx
  match c.transfer with
  | none => (STATE_CONFLICT, s)
  | some t =>
    if !t.write then (STATE_CONFLICT, s)
    else if t.length ≤ c.offset then (VALUE_RANGE, s)
    else
      let r := s.storeSegment ctx t c.offset ((List.range (min 256 (t.length - c.offset))).map fun i => t.byteAt (c.offset + i))
      if r.1 = OK then (OK, r.2.updContext ctx fun c => { c with offset := c.offset + 256 }) else r

/-- Certificates, each after its U32 length, that fill a byte list; `fuel` bounds their number (0x9030:01). -/
def certsFill : Nat → List Byte → Bool
  | fuel, d =>
    if d.isEmpty then true
    else
      match fuel with
      | 0 => false
      | n + 1 => 4 ≤ d.length && leNat (d.take 4) ≤ d.length - 4 && certsFill n (d.drop (4 + leNat (d.take 4)))

/-- Whether content may become an entry's: the forms that the entries' chapters state. -/
def contentValid (index : Nat) (d : List Byte) : Bool :=
  match index with
  | 0x4030 => d.length = 16384 && d.all fun b => b.toNat < 16 || 0xFE ≤ b.toNat
  | 0x5030 => d.length = 24 && d.all fun b => b.toNat < 64
  | 0x9010 => d.length = 32
  | 0x9030 => certsFill 8 d
  | _ => true

/-- Content that an entry takes by its own chapter's rule, or that becomes the entry's, stored too where the entry persists (R33, R55). -/
def State.takeContent (s : State) (ctx index sub : Nat) (d : List Byte) : Nat × State :=
  if !contentValid index d then (VALUE_RANGE, s)
  else if s.startLost ctx index sub true then (STATE_CONFLICT, s)
  else if index = 0x2010 then s.loadSet d
  else if index = 0x9100 then if s.pendingState = 1 then (OK, s.setEntry 0x9100 2 2) else (STATE_CONFLICT, s)
  else if index = 0x9210 then s.pkeSlotResult ctx sub d
  else
    let s := if isPersistent index sub then s.storeContent ctx index sub d else s
    let s := if index = 0x9010 then { s with nonceFresh := true } else s
    (OK, s.setBlob index sub d)

/-- The committed bytes of a transfer, in order. -/
def Transfer.bytes (t : Transfer) : List Byte := t.committed.map fun p => p.2

/-- FINISH: ends a read; a write whose bytes are all committed takes effect, one that lacks any is dropped (R55). -/
def State.finishTransfer (s : State) (ctx : Nat) : Nat × State :=
  match (s.context ctx).transfer with
  | none => (STATE_CONFLICT, s)
  | some t =>
    if !t.write then (OK, s.dropTransfer ctx)
    else if t.committed.length < t.length then (VALUE_RANGE, s.dropTransfer ctx)
    else
      let r := s.takeContent ctx t.index t.sub t.bytes
      if r.1 = OK then (OK, r.2.dropTransfer ctx) else r

/-- A write of Control (R438). -/
def State.transferControl (s : State) (ctx v : Nat) : Nat × State :=
  match v with
  | 1 => s.openRead ctx
  | 2 => s.openWrite ctx
  | 3 => s.commitWindow ctx
  | 4 => s.finishTransfer ctx
  | _ => (OK, s.dropTransfer ctx)

/-- A write of Control through a context. -/
def State.transferCommand (s : State) (ctx v : Nat) : State := s.writeEntry ctx 0x1038 4 v fun s => s.transferControl ctx v

/-- START_READ. -/
def execStartRead (ctx : Nat) (s : State) : Host.Outcome State Fault Refusal := .next (s.transferCommand ctx 1)

/-- START_WRITE. -/
def execStartWrite (ctx : Nat) (s : State) : Host.Outcome State Fault Refusal := .next (s.transferCommand ctx 2)

/-- COMMIT_SEGMENT. -/
def execCommitSegment (ctx : Nat) (s : State) : Host.Outcome State Fault Refusal := .next (s.transferCommand ctx 3)

/-- SEGMENT_FINISH. -/
def execSegmentFinish (ctx : Nat) (s : State) : Host.Outcome State Fault Refusal := .next (s.transferCommand ctx 4)

/-- SEGMENT_CANCEL. -/
def execSegmentCancel (ctx : Nat) (s : State) : Host.Outcome State Fault Refusal := .next (s.transferCommand ctx 5)

/-- TRANSFER_IDLE_TIMEOUT (R55). -/
def execTransferIdleTimeout (ctx : Nat) (s : State) : Host.Outcome State Fault Refusal := .next (if s.contextIdle ctx then s.dropTransfer ctx else s)

/-! ### Persistence (R33, R56) -/

/-- PERSIST_RECORD_WRITE: the oldest record that waits enters the persistent store. -/
def execPersistRecordWrite (s : State) : Host.Outcome State Fault Refusal :=
  .next (
    match s.unstored with
    | [] => s
    | r :: rest => if s.fieldPowered then { s with journal := s.journal ++ [r], unstored := rest } else s)

/-- The write of RestoreDefaults (R56). -/
def State.restoreOp (s : State) : Nat × State := (OK, { s with restoreDefaults := true })

/-- RESTORE_DEFAULTS. -/
def execRestoreDefaults (ctx : Nat) (value : Word) (s : State) : Host.Outcome State Fault Refusal :=
  .next (s.writeEntry ctx 0x1070 1 value.toNat State.restoreOp)

/-! ### A write of any entry -/

/-- What an accepted write of an entry does: the effect of a command entry, or the new value (R31, R35). -/
def State.writeOp (s : State) (ctx index sub v : Nat) : Nat × State :=
  if index = 0x1020 then s.groupControl ctx v
  else if index = 0x1038 ∧ sub = 4 then s.transferControl ctx v
  else if isContextLocal index sub then (OK, s.writeLocal ctx index sub v)
  else if index = 0x1070 then s.restoreOp
  else if index = 0x1110 then s.resetOp (bits v 0 8)
  else if index = 0x2010 then s.unloadSet v
  else if index = 0x2820 ∧ sub = 5 then if v = 1 then s.convStartOp else s.convCancelOp
  else if index = 0x3030 ∧ sub = 3 then s.poisonClearOp
  else if index = 0x3480 ∧ sub = 5 then s.rowTagClearOp v
  else if 0x6100 ≤ index ∧ index < 0x6110 ∧ sub = 1 then s.jobControlOp (index - 0x6100) v
  else if index = 0x8010 ∧ sub = 1 then s.snapOp v
  else if index = 0x9110 then if sub = 1 then s.activateOp v else s.commitSvnOp
  else if index = 0x9200 ∧ sub = 2 then s.pkeCommandOp v
  else if index = 0xB180 ∧ sub = 4 then if v = 3 then s.checkCancelOp else s.checkBegin (v = 2)
  else s.applyEntry ctx index sub v

/-- The status entries that show a refusal too (R67, Table 13-5). -/
def State.noteWrite (s : State) (index sub code : Nat) : State :=
  if index = 0x2010 ∧ sub = 2 then s.noteUnload code
  else if index = 0x3030 ∧ sub = 3 ∧ code ≠ OK then s.notePoisonClear code
  else s

/-- A write of one entry, whatever the entry, with a check of the access's size (R437): `take` is what an accepted write does. -/
def State.decideAny (s : State) (ctx index sub v : Nat) (sizeOk : EntryRow → Bool) (take : State → Nat × State) : Nat × State :=
  let r :=
    match s.accessRefusal ctx index sub true with
    | some c => (c, s)
    | none =>
      match lookupEntry index sub with
      | none => (ENTRY_ABSENT, s)
      | some r => if sizeOk r then s.decideWrite r ctx index sub v take else (ACCESS_RIGHT, s)
  (r.1, r.2.noteWrite index sub r.1)

/-- An access to any entry on the host side writes it, or leaves for Fumarole. -/
def State.writeAny (s : State) (a : EntryAccess) (index sub v : Nat) (sizeOk : EntryRow → Bool) : Nat × State :=
  s.decideAny a.ctx index sub v sizeOk (State.takeWrite a index sub v fun s => s.writeOp a.ctx index sub v)

/-! ### BAR0 (R47, R328) -/

/-- Whether BAR0 allows an access: 8 bytes aligned, or the low half of an entry of at most 32 bits. -/
def bar0SizeOk (offset size : Nat) (r : EntryRow) : Bool :=
  offset % 8 = 0 && (size = 8 || (size = 4 && !r.ty.isContent && r.ty ≠ .u64))

/-- The value of a write: a 4-byte one is extended from bit 31 as its entry's type says. -/
def widen (size v : Nat) (index sub : Nat) : Nat :=
  if size = 4 then
    let signedType : Bool := ((lookupEntry index sub).map fun r => r.ty = .i16 || r.ty = .i32).getD false
    if signedType then unsigned 64 (signed 32 v) else v % 2 ^ 32
  else v

/-- The dictionary lies at offsets below 0x800_0000 of BAR0 (Table 15-3). -/
abbrev dictTop : Nat := 0x8000000

/-- The 32-bit word k of the MSI-X table: bit 0 of a vector's fourth word is its mask. -/
def State.msixWord (s : State) (k : Nat) : Nat :=
  if k % 4 = 3 then (if s.hostLink.vectorMasked.contains (k / 4) then 1 else 0) else Tab.get s.hostLink.msixTable 0 k

/-- A write of a word of the MSI-X table; a vector unmasked sends its pending message (R336). -/
def State.putMsixWord (s : State) (k v : Nat) : State :=
  let h := s.hostLink
  if k % 4 ≠ 3 then { s with hostLink := { h with msixTable := Tab.put h.msixTable k v } }
  else
    let rest := h.vectorMasked.filter fun x => x ≠ k / 4
    ({ s with hostLink := { h with vectorMasked := if v % 2 = 1 then rest ++ [k / 4] else rest } }).flushVectors

/-- BAR0 above the dictionary: the MSI-X table and pending bits; reserved offsets read zero (R328). -/
def State.bar0Upper (s : State) (offset : Nat) : Nat :=
  if offset < dictTop + 1024 then
    let k := (offset - dictTop) / 4
    s.msixWord k + 2 ^ 32 * s.msixWord (k + 1)
  else if offset / 8 = (dictTop + 0x1000) / 8 then (s.hostLink.vectorPending.map fun v => 2 ^ v).sum / 2 ^ (8 * (offset % 8))
  else 0

/-- A read of BAR0 above the dictionary. -/
def State.readUpper (s : State) (offset size : Nat) : State :=
  if s.bar0Insecure 0 then s.refuseInsecureRead
  else
    let v := s.bar0Upper offset
    s.emit (.dictRead 0 (if size = 4 then v % 2 ^ 32 else v))

/-- A write of BAR0 above the dictionary. -/
def State.writeUpper (s : State) (offset size v : Nat) : State :=
  if s.bar0Insecure 0 then s.bump 0x5040 0x0C 1
  else if offset < dictTop + 1024 ∧ offset % 4 = 0 ∧ (size = 4 ∨ size = 8) then
    let k := (offset - dictTop) / 4
    let s := s.putMsixWord k (v % 2 ^ 32)
    if size = 8 then s.putMsixWord (k + 1) (v / 2 ^ 32 % 2 ^ 32) else s
  else s

/-- Whether the transport allows the size of an access (R47); the mirror's is checked before the dictionary's own refusals (R49). -/
def sizeAllowed (ctx offset size : Nat) (r : EntryRow) : Bool := ctx ≠ 0 || bar0SizeOk offset size r

/-- A mirror access of another length or alignment than 8 bytes (R49). -/
def mirrorMisfit (ctx offset size : Nat) : Bool := isFabric ctx && !(size = 8 && offset % 8 = 0)

/-- The index and subindex at an offset (R10). -/
def indexAt (offset : Nat) : Nat := offset / 2048
def subAt (offset : Nat) : Nat := offset / 8 % 256

/-- What a read returns: NarrowData is a narrow read (R266). -/
def State.readOp (s : State) (ctx index sub : Nat) : Nat × Nat × State :=
  match lookupEntry index sub with
  | none => (ENTRY_ABSENT, allOnes, s)
  | some r =>
    if index = 0x3480 ∧ sub = 2 then
      match s.stagedValue ctx index sub with
      | some v => (OK, v, s)
      | none => s.narrowReadOp .clean
    else (OK, s.readView ctx r index sub, s)

/-- A read of an entry by its offset. -/
def State.dictRead (s : State) (a : EntryAccess) : State :=
  let i := indexAt a.offset
  let k := subAt a.offset
  if a.ctx = 0 ∧ dictTop ≤ a.offset then s.readUpper a.offset a.size
  else if mirrorMisfit a.ctx a.offset a.size then (s.record a.ctx i k ACCESS_PROTECT).emit (.dictRead a.ctx allOnes)
  else s.answerRead a i k (sizeAllowed a.ctx a.offset a.size) fun s => s.readOp a.ctx i k

/-- DICT_READ. -/
def execDictRead (ctx offset size : Nat) (s : State) : Host.Outcome State Fault Refusal :=
  .next (s.dictRead { ctx := ctx, offset := offset, size := size })

/-- A write of an entry by its offset. -/
def State.dictWrite (s : State) (a : EntryAccess) (v : Nat) : State :=
  let i := indexAt a.offset
  let k := subAt a.offset
  if a.ctx = 0 ∧ dictTop ≤ a.offset then s.writeUpper a.offset a.size v
  else if mirrorMisfit a.ctx a.offset a.size then s.record a.ctx i k ACCESS_PROTECT
  else
    s.served a.ctx fun s =>
      s.inTurn a fun s =>
        let x := s.writeAny a i k (widen a.size v i k) (sizeAllowed a.ctx a.offset a.size)
        x.2.record a.ctx i k x.1

/-- DICT_WRITE. -/
def execDictWrite (ctx offset size : Nat) (value : Word) (s : State) : Host.Outcome State Fault Refusal :=
  .next (s.dictWrite { ctx := ctx, offset := offset, size := size, value := some value.toNat } value.toNat)

end Sys2Proof.Machine
end

