-- ==== Sys2Proof/Machine/FabricTarget.lean ====
section
/-! DEFINITION. Remote operations at their target and their completions at the source (R49, R262-R264, R306-R316, R318, R379). -/

namespace Sys2Proof.Machine

/-! ### Target kinds (Table 14-2) -/

/-- Where an operation lands. -/
inductive Landing where
  | stack
  | window (t x : Nat)
  | mirror (offset : Nat)
  | other
deriving DecidableEq, Repr

/-- The base of the dictionary mirror (R10). -/
def mirrorBase : Nat := 0xF00000000000

/-- The target kind of a local address. -/
def landing (a : Nat) : Landing :=
  if a < visibleTop then .stack
  else if isWindow a then .window (windowTile a) (windowOffset a)
  else if mirrorBase ≤ a ∧ a < mirrorBase + dictTop then .mirror (a - mirrorBase)
  else .other

/-! ### Grants (R310) -/

/-- One grant covers every byte of an operation and allows it: bit 0 read, 1 write, 2 atomic. -/
def State.granted (s : State) (source a n right : Nat) : Bool :=
  n = 0 || (List.range 64).any fun k =>
    let e (sub : Nat) : Nat := s.entry (0x4200 + k) sub
    bit (e 5) right && e 3 ≤ source && source ≤ e 4 && e 1 ≤ a && a + n ≤ e 1 + e 2

/-! ### Triples at the target (R311, R315) -/

/-- The operations to the mirror that wait for Fumarole's answer, or behind one that does. -/
def State.waitingMirror (s : State) : List Frame :=
  (s.hostGate.outstanding.filterMap fun (m : GateMsg) => match m.origin with
    | .access a => a.frame
    | _ => none) ++ s.heldAccesses.filterMap fun (a : EntryAccess) => a.frame

/-- Whether an operation that waits at the target holds a triple (R311). -/
def State.tripleHeld (s : State) (k : Nat) : Bool :=
  ((s.heldFrames ++ s.waitingMirror).any fun f => frameTriple f = k)
    || tileNumbers.any fun t => ((s.tile t).windowPuts ++ (s.tile t).windowLanded ++ (s.tile t).windowGets).any fun f => frameTriple f = k

/-- The SEQ that a triple expects next. -/
def State.expectedSeq (s : State) (k : Nat) : Nat := Tab.get s.seqExpected 0 k

/-- A refusal by check 2 or 3 of R309. -/
def State.protectOp (s : State) (f : Frame) (status : Nat) : State := (s.bump 0x4038 6 1).decideOp f status 0 []

/-- Lane l's value in a SIGNAL's payload (R311). -/
def signalValue (f : Frame) (l : Nat) : Nat := leNat (sliceBytes f.payload (2 * l) 2)

/-- Whether a lane's expected SEQ is at or past a SIGNAL's value for it (R311). -/
def State.lanePast (s : State) (f : Frame) (l : Nat) : Bool :=
  (s.expectedSeq (tripleKey f.source l) + 65536 - signalValue f l) % 65536 < 32768

/-- Whether a SIGNAL waits on a lane whose triple has failed (R311, R315). -/
def State.signalLost (s : State) (f : Frame) : Bool :=
  (List.range 4).any fun l => s.failedTriples.contains (tripleKey f.source l) && !s.lanePast f l

/-- The held SIGNALs that wait on a failed triple complete with FABRIC_CRC (R311). -/
def State.dropLostSignals (s : State) : State :=
  let lost := s.heldFrames.filter s.signalLost
  lost.foldl (fun s f => s.decideOp f FABRIC_CRC 0 []) { s with heldFrames := s.heldFrames.filter fun f => !s.signalLost f }

/-- A CRC failure: the triple fails until its source restarts it (R315). -/
def State.failTriple (s : State) (f : Frame) : State :=
  let s := { s.bump 0x4038 4 1 with failedTriples := frameTriple f :: s.failedTriples.filter fun k => k ≠ frameTriple f }
  (s.complete f FABRIC_CRC 0 []).dropLostSignals

/-- Whether an arriving operation is this device's to take: its opcode is the command's, it comes from another node, and the host side has power. -/
def State.takes (s : State) (f : Frame) (opcode : Nat) : Bool :=
  f.opcode = opcode && f.target = s.nodeId && f.source ≠ s.nodeId && s.hostPowered

/-- An operation whose turn it is: STATE_CONFLICT while the device restarts (R379), then check 1 of R309; SEQ 0 restarts a failed triple (R315).
The rest of the checks and the operation are `act`'s. -/
def State.decideArrived (s : State) (f : Frame) (act : State → State) : State :=
  let failed : Bool := s.failedTriples.contains (frameTriple f)
  if !s.ready then (s.advanceTriple f).complete f STATE_CONFLICT 0 []
  else if failed ∧ f.seq ≠ 0 then (s.bump 0x4038 4 1).complete f FABRIC_CRC 0 []
  else if !f.crcOk then s.failTriple f
  else act { s with failedTriples := s.failedTriples.filter fun k => k ≠ frameTriple f }

/-- An arriving operation is decided, or held behind an operation of its triple that waits, or behind others so held (R311). -/
def State.takeOp (s : State) (f : Frame) (opcode : Nat) (ecc : Ecc) (act : State → State) : State :=
  if !s.takes f opcode then s
  else if s.tripleHeld (frameTriple f) ∨ s.behind.any (fun p => frameTriple p.1 = frameTriple f) then { s with behind := s.behind ++ [(f, ecc)] }
  else s.decideArrived f act

/-! ### The dictionary mirror (R49, R50) -/

/-- The context of a fabric node (R36). -/
def fabricCtx (node : Nat) : Nat := 0x10000 + node

/-- A mirror access of another length, alignment or operation: refused at check 2 and recorded (R49). -/
def State.mirrorRefuse (s : State) (f : Frame) (offset : Nat) : State :=
  (s.record (fabricCtx f.source) (indexAt offset) (subAt offset) ACCESS_PROTECT).protectOp f ACCESS_PROTECT

/-- The completion of a mirror access carries the outcome (R49): the dictionary's own code; a refusal by MirrorAccess is one of check 2 (R50, R309).
One that waits for Fumarole completes with its answer. -/
def State.mirrorDone (s : State) (f : Frame) (code : Nat) (data : List Byte) : State :=
  if code = WAITING then s
  else
    let s := if code = ACCESS_PROTECT ∨ code = UNIT_ABSENT then s.bump 0x4038 6 1 else if code = PENDING ∨ code = GROUP_DISCARDED then s.bump 0x4038 2 1 else s
    s.decideOp f code 0 data

/-- The access of an operation to the mirror. -/
def mirrorAccess (f : Frame) (offset : Nat) (value : Option Nat) : EntryAccess := { ctx := fabricCtx f.source, offset := offset, value := value, frame := some f }

/-- A PUT to the mirror. -/
def State.mirrorPut (s : State) (f : Frame) (offset : Nat) : State :=
  if f.length ≠ 8 ∨ f.payload.length ≠ 8 ∨ offset % 8 ≠ 0 then s.mirrorRefuse f offset
  else
    let a := mirrorAccess f offset (some (leNat f.payload))
    s.inTurn a fun s =>
      let x := s.writeAny a (indexAt offset) (subAt offset) (leNat f.payload) fun _ => true
      (x.2.record a.ctx (indexAt offset) (subAt offset) x.1).mirrorDone f x.1 []

/-- A GET from the mirror: a WO entry is served, reads zero and completes with its outcome, ACCESS_RIGHT (R31, R49). -/
def State.mirrorGet (s : State) (f : Frame) (offset : Nat) : State :=
  if f.length ≠ 8 ∨ offset % 8 ≠ 0 then s.mirrorRefuse f offset
  else
    let a := mirrorAccess f offset none
    let i := indexAt offset
    let k := subAt offset
    s.inTurn a fun s =>
      let x := s.readResult a.ctx i k (fun _ => true) fun r => State.takeRead a r i k fun s => s.readOp a.ctx i k
      (x.2.2.recordRead a.ctx i k x.1).mirrorDone f x.1 (leBytes 8 x.2.1)

/-! ### PUT and GET (R262-R264, R307-R310) -/

/-- A range of visible stack memory that an operation may name. -/
def stackRange (a n : Nat) : Bool := inStack a n

/-- A row of a tile is POISON, or every one is of a tag. -/
def State.anyPoison (s : State) (t : Nat) (rows : List Nat) : Bool := rows.any fun r => s.tag t r = .poison
def State.allTagged (s : State) (t : Nat) (rows : List Nat) (g : Tag) : Bool := rows.all fun r => s.tag t r = g

/-- A window PUT that need not wait is performed, or completes with SLOT_POISON (R263).
Where its words complete a protected row, the write is complete, and the PUT with it, only when the verify read has passed (R272). -/
def State.landPut (s : State) (t : Nat) (f : Frame) : State :=
  let rows := frameRows f f.payload.length
  if s.anyPoison t rows then s.decideOp f SLOT_POISON 0 []
  else
    let s := (s.windowPut t (windowOffset f.address) f.payload).feedTile t
    if rows.any fun r => (s.tile t).verifyDue.contains r then s.updTile t fun x => { x with windowLanded := x.windowLanded ++ [f] }
    else s.decideOp f OK 0 []

/-- A window PUT that passed its checks: performed, or waiting at the tile, which it wakes (R263, R350). -/
def State.arrivePut (s : State) (t : Nat) (f : Frame) : State :=
  let s := s.wakeTile t
  let rows := frameRows f (f.payload.length)
  if s.anyPoison t rows ∨ s.allTagged t rows .empty then s.landPut t f
  else s.updTile t fun x => { x with windowPuts := x.windowPuts ++ [f] }

/-- Why a window PUT is refused at the tile; a size or alignment that is not whole words is counted (R262). -/
def State.windowPutRefusal (s : State) (t x n : Nat) : Option Nat :=
  if windowServed ≤ x ∨ windowServed < x + n then some ACCESS_PROTECT
  else if !s.tileEnabled t then some UNIT_ABSENT
  else if x % 18 ≠ 0 ∨ n % 18 ≠ 0 then some ACCESS_PROTECT
  else none

/-- A PUT by its target kind: checks 2 and 3 of R309, then the write. -/
def State.performPut (s : State) (f : Frame) : State :=
  let n := f.payload.length
  if n = 0 ∨ 4096 < n ∨ f.length ≠ n then s.protectOp f ACCESS_PROTECT
  else
    match landing f.address with
    | .stack =>
      if !stackRange f.address n ∨ s.inImage f.address n then s.protectOp f ACCESS_PROTECT
      else if !s.granted f.source f.address n 1 then s.protectOp f ACCESS_PROTECT
      else (((s.touchRange f.address n).memWrite f.address f.payload).decideOp f OK 0 [])
    | .window t x =>
      match s.windowPutRefusal t x n with
      | some c => (if c = ACCESS_PROTECT ∧ x + n ≤ windowServed then s.bump 0x3420 8 1 else s).protectOp f c
      | none => if !s.granted f.source f.address n 1 then s.protectOp f ACCESS_PROTECT else s.arrivePut t f
    | .mirror o => s.mirrorPut f o
    | .other => s.protectOp f ACCESS_PROTECT

/-- FABRIC_PUT (R309). -/
def execFabricPut (frame : Frame) (s : State) : Host.Outcome State Fault Refusal := .next (s.takeOp frame 1 .clean fun s => s.performPut frame)

/-- What the error code found on a window GET's reads: `word` counts words of 256 a row over its rows; no freeze (R264, R269). -/
def State.gotEcc (s : State) (t : Nat) (rows : List Nat) : Ecc → State
  | .corrected w => s.rowEcc t (rows.getD (w / 256) (rows.headD 0)) (.corrected (w % 256))
  | .uncorrectable w => s.rowEcc t (rows.getD (w / 256) (rows.headD 0)) (.uncorrectable (w % 256))
  | ecc => s.rowEcc t (rows.headD 0) ecc

/-- A window GET that need not wait is performed (R264). -/
def State.serveGet (s : State) (t : Nat) (f : Frame) (ecc : Ecc) : State :=
  let rows := frameRows f (f.length)
  if s.anyPoison t rows then s.decideOp f SLOT_POISON 0 []
  else
    let d := s.windowBytes t (windowOffset f.address) f.length
    let s := s.gotEcc t rows ecc
    match ecc with
    | .uncorrectable _ => s.decideOp f MEM_UNCORRECTABLE 0 []
    | _ => s.decideOp f OK 0 d

/-- A window GET that passed its checks (R264, R350). -/
def State.arriveGet (s : State) (t : Nat) (f : Frame) (ecc : Ecc) : State :=
  let s := s.wakeTile t
  let rows := frameRows f (f.length)
  if s.anyPoison t rows ∨ s.allTagged t rows .full then s.serveGet t f ecc
  else s.updTile t fun x => { x with windowGets := x.windowGets ++ [f] }

/-- A stack read for another node: its status, the state it leaves and its bytes (R293, R294). -/
def State.stackGet (s : State) (f : Frame) (ecc : Ecc) : State :=
  if f.length = 0 then s.decideOp f OK 0 []
  else
    let s := s.touchRange f.address f.length
    let st := s.readStatus f.address f.length ecc
    let d := s.memBytes f.address f.length
    (s.applyEcc f.address ecc).decideOp f st 0 (if st = OK then d else [])

/-- A GET by its target kind. -/
def State.performGet (s : State) (f : Frame) (ecc : Ecc) : State :=
  if 4096 < f.length then s.protectOp f ACCESS_PROTECT
  else
    match landing f.address with
    | .stack =>
      if !stackRange f.address f.length ∨ !s.granted f.source f.address f.length 0 then s.protectOp f ACCESS_PROTECT else s.stackGet f ecc
    | .window t x =>
      if windowServed ≤ x ∨ windowServed < x + f.length then s.protectOp f ACCESS_PROTECT
      else if !s.tileEnabled t then s.protectOp f UNIT_ABSENT
      else if !s.granted f.source f.address f.length 0 then s.protectOp f ACCESS_PROTECT
      else s.arriveGet t f ecc
    | .mirror o => s.mirrorGet f o
    | .other => s.protectOp f ACCESS_PROTECT

/-- FABRIC_GET (R309). -/
def execFabricGet (frame : Frame) (ecc : Ecc) (s : State) : Host.Outcome State Fault Refusal := .next (s.takeOp frame 2 ecc fun s => s.performGet frame ecc)

/-- WINDOW_PUT_LAND: the first waiting PUT whose rows are all EMPTY, or one of them POISON (R263). -/
def execWindowPutLand (t : Nat) (s : State) : Host.Outcome State Fault Refusal :=
  onTile t s fun s =>
    match (s.tile t).windowPuts.find? fun f => s.anyPoison t (frameRows f (f.payload.length)) || s.allTagged t (frameRows f (f.payload.length)) .empty with
    | none => s
    | some f => (s.updTile t fun x => { x with windowPuts := x.windowPuts.erase f }).landPut t f

/-- WINDOW_GET_SERVE: the first waiting GET whose rows are all FULL, or one of them POISON (R264). -/
def execWindowGetServe (t : Nat) (ecc : Ecc) (s : State) : Host.Outcome State Fault Refusal :=
  onTile t s fun s =>
    match (s.tile t).windowGets.find? fun f => s.anyPoison t (frameRows f f.length) || s.allTagged t (frameRows f (f.length)) .full with
    | none => s
    | some f => (s.updTile t fun x => { x with windowGets := x.windowGets.erase f }).serveGet t f ecc

/-! ### Atomics (R307, R308) -/

/-- Checks 2 and 3 of an atomic on stack memory: any other target kind refuses it. -/
def State.atomicAllowed (s : State) (f : Frame) (n : Nat) : Bool :=
  match landing f.address with
  | .stack => stackRange f.address n && !s.inImage f.address n && s.granted f.source f.address n 2
  | _ => false

/-- An atomic on `n` stack bytes: refused, failed by what its read finds, or performed with the bytes read (R309). -/
def State.atomic (s : State) (f : Frame) (n : Nat) (aligned : Bool) (ecc : Ecc) (act : State → List Byte → State) : State :=
  match landing f.address with
  | .mirror o => s.mirrorRefuse f o
  | _ =>
    if !aligned ∨ !s.atomicAllowed f n then s.protectOp f ACCESS_PROTECT
    else
      let s := s.touchRange f.address n
      let st := s.readStatus f.address n ecc
      let s := s.applyEcc f.address ecc
      if st = OK then act s (s.memBytes f.address n) else s.decideOp f st 0 []

/-- The elements of 36 bits in a byte list (R123). -/
def elements (bs : List Byte) : List Nat := unpackNat 36 (2 * bs.length / 9) (leNat bs)

/-- The sums of two lists of elements under a modulus, packed (R89, R308). -/
def addElements (q : Nat) (a b : List Byte) : List Byte :=
  leBytes a.length (packNat (((elements a).zip (elements b)).map fun (p : Nat × Nat) => reduceInt q ((p.1 + p.2 : Nat) : Int)))

/-- An ADDMOD is performed, or refused (R308). -/
def State.performAddmod (s : State) (f : Frame) (ecc : Ecc) : State :=
  let n := f.payload.length
  let w := f.operand % 65536
  s.atomic f n (n % 9 = 0 && 9 ≤ n && n ≤ 4095 && f.length = n) (if wordValid w 0 then ecc else .clean) fun s old =>
    if !wordValid w 0 then s.decideOp f MODULUS_FORM 0 []
    else (s.memWrite f.address (addElements (modulusOf w) old f.payload)).decideOp f OK 0 []

/-- ADDMOD (R308). -/
def execAddmod (frame : Frame) (ecc : Ecc) (s : State) : Host.Outcome State Fault Refusal :=
  .next (s.takeOp frame 3 ecc fun s => s.performAddmod frame ecc)

/-- The 64-bit counter after an addition (R307). -/
def addWord (old : List Byte) (operand : Nat) : List Byte := leBytes 8 ((leNat old + operand) % 2 ^ 64)

/-- A FETCHADD is performed, and the old value returns, or it is refused (R307). -/
def State.performFetchadd (s : State) (f : Frame) (ecc : Ecc) : State :=
  s.atomic f 8 (f.address % 8 = 0) ecc fun s old => (s.memWrite f.address (addWord old f.operand)).decideOp f OK (leNat old) []

/-- FETCHADD (R307). -/
def execFetchadd (frame : Frame) (ecc : Ecc) (s : State) : Host.Outcome State Fault Refusal :=
  .next (s.takeOp frame 4 ecc fun s => s.performFetchadd frame ecc)

/-! ### SIGNAL (R311) -/

/-- A SIGNAL's increment is added to its counter; one of a multicast member counts for its group (R190, R311). -/
def State.signalAdd (s : State) (f : Frame) : State :=
  if s.rangePoisoned f.address 8 then s.decideOp f SLOT_POISON 0 []
  else (((s.touchRange f.address 8).addCounter f.address f.operand).creditMcast f.address f.source).decideOp f OK 0 []

/-- Whether every lane has caught up with a SIGNAL; its own lane's value is its own SEQ, whose turn it is. -/
def State.signalReady (s : State) (f : Frame) : Bool := (List.range 4).all fun l => l = f.vl || s.lanePast f l

/-- A SIGNAL that passed its checks: performed, failed with a lane, or held (R311). -/
def State.holdSignal (s : State) (f : Frame) : State :=
  if s.signalReady f then s.signalAdd f
  else if s.signalLost f then (s.bump 0x4038 4 1).decideOp f FABRIC_CRC 0 []
  else { s with heldFrames := s.heldFrames ++ [f] }

/-- A SIGNAL is checked, then performed or held (R309, R311). -/
def State.performSignal (s : State) (f : Frame) : State :=
  match landing f.address with
  | .mirror o => s.mirrorRefuse f o
  | _ => if f.address % 8 ≠ 0 ∨ f.payload.length ≠ 8 ∨ !s.atomicAllowed f 8 then s.protectOp f ACCESS_PROTECT else s.holdSignal f

/-- FABRIC_SIGNAL. -/
def execFabricSignal (frame : Frame) (s : State) : Host.Outcome State Fault Refusal := .next (s.takeOp frame 5 .clean fun s => s.performSignal frame)

/-- SIGNAL_PERFORM: the held SIGNAL of a source and lane, once every lane has caught up. -/
def execSignalPerform (source lane : Nat) (s : State) : Host.Outcome State Fault Refusal :=
  .next (
    match s.heldFrames.find? fun f => f.source = source && f.vl = lane && s.signalReady f with
    | none => s
    | some f => ({ s with heldFrames := s.heldFrames.erase f }).signalAdd f)

/-! ### Operations held behind one that waited (R311) -/

/-- An operation by its opcode (Table 14-3). -/
def State.performByCode (s : State) (f : Frame) (ecc : Ecc) : State :=
  match f.opcode with
  | 1 => s.performPut f
  | 2 => s.performGet f ecc
  | 3 => s.performAddmod f ecc
  | 4 => s.performFetchadd f ecc
  | _ => s.performSignal f

/-- The oldest operation whose triple waits no longer is decided. -/
def State.nextBehind (s : State) : State :=
  match s.behind.find? fun p => !s.tripleHeld (frameTriple p.1) with
  | none => s
  | some p => ({ s with behind := s.behind.erase p }).decideArrived p.1 fun s => s.performByCode p.1 p.2

/-- Every operation whose triple waits no longer is decided, in its order. -/
def State.drainBehind (s : State) : State := s.behind.foldl (fun s _ => s.nextBehind) s

/-! ### MCAST-PUT (R304, R307, R318) -/

/-- The local part of an MCAST-PUT at a member: its status and the state it leaves. -/
def State.mcastLocal (s : State) (f : Frame) : Nat × State :=
  let n := f.payload.length
  if s.entry (0x4300 + f.mcastGroup) 2 = 0 then (OK, s)
  else if !s.ready then (STATE_CONFLICT, s)
  else
    match landing f.address with
    | .stack =>
      if n = 0 ∨ 4096 < n ∨ !stackRange f.address n ∨ s.inImage f.address n ∨ !s.granted f.source f.address n 1 then
        (ACCESS_PROTECT, s.bump 0x4038 6 1)
      else (OK, ((s.touchRange f.address n).memWrite f.address f.payload).bump 0x4038 2 1)
    | _ => (ACCESS_PROTECT, s.bump 0x4038 6 1)

/-- The one combined completion leaves through the port of arrival (R318). -/
def State.mcastDone (s : State) (f : Frame) (port status : Nat) : State :=
  let c : Frame := { f with opcode := 0x20, hops := 0, mcastGroup := 0, operand := 0, length := 0, source := s.nodeId, target := f.source
                            address := status, payload := [], crcOk := true }
  if s.portState port = portUp then s.sendFrame port { c with version := s.entry (0x4040 + port) 2 } else s.bump 0x4038 7 1

/-- An arriving MCAST-PUT: performed at a member, passed on through the group's other ports, completed at once where none carries it. -/
def State.takeMcast (s : State) (p : Nat) (f : Frame) : State :=
  if f.opcode ≠ 6 ∨ s.portState p ≠ portUp ∨ f.source = s.nodeId ∨ !s.hostPowered then s
  else if !f.crcOk then (s.bump 0x4038 4 1).mcastDone f p FABRIC_CRC
  else
    let r := s.mcastLocal f
    let ports := r.2.groupPorts f.mcastGroup p
    if ports.isEmpty then r.2.mcastDone f p r.1
    else if 25 ≤ f.hops + 1 then r.2.bump 0x4038 7 1
    else
      let s := r.2.sendCopies { f with hops := f.hops + 1 } p r.1
      match s.mcastWaits.find? fun w => w.source = f.source && w.tag = f.tag && w.fromPort = p && w.waiting.isEmpty with
      | none => s
      | some w => ({ s with mcastWaits := s.mcastWaits.erase w }).mcastDone f p w.status

/-- MCAST_PUT. -/
def execMcastPut (port : Nat) (frame : Frame) (s : State) : Host.Outcome State Fault Refusal := onPort port s fun s => s.takeMcast port frame

/-! ### Completions at the source (R315, R316, R318) -/

/-- The status that a completion carries: ADDRESS bits 15 to 0; data whose CRC fails fails the operation (R315). -/
def frameStatus (f : Frame) : Nat := if f.crcOk then f.address % 65536 else FABRIC_CRC

/-- The first FABRIC_CRC of a triple restarts it at SEQ 0; the operations issued before are its old ones (R315). -/
def State.restartTriple (s : State) (r : RemoteOp) : State :=
  { s with
    seqNext := Tab.put s.seqNext (tripleKey r.target r.vl) 0
    remoteOps := s.remoteOps.map fun (o : RemoteOp) => if o.target = r.target ∧ o.vl = r.vl ∧ !o.host ∧ !o.waits ∧ o.opcode ≠ 6 then { o with stale := true } else o }

/-- A copy of an MCAST-PUT has completed downstream; the last one completes the whole (R318). -/
def State.mcastCopyDone (s : State) (w : McastWait) (port : Nat) (f : Frame) : State :=
  let st := worst w.status (frameStatus f)
  let left := w.waiting.erase port
  let s := { s with mcastWaits := s.mcastWaits.erase w }
  if !left.isEmpty then { s with mcastWaits := s.mcastWaits ++ [{ w with waiting := left, status := st }] }
  else if w.fromPort = 255 then
    match s.findOp w.tag with
    | some r => s.endOp r st []
    | none => s.bump 0x4038 8 1
  else s.mcastDone { f with source := w.source, tag := w.tag } w.fromPort st

/-- A completion that ends an operation of this device, or is late (R316). -/
def State.completeOwn (s : State) (f : Frame) : State :=
  match s.findOp f.tag with
  | none => s.bump 0x4038 8 1
  | some r =>
    if r.host ∨ r.waits ∨ r.opcode = 6 ∨ r.target ≠ f.source then s
    else
      let s := if f.crcOk ∧ (frameStatus f) = FABRIC_CRC ∧ !r.stale then s.restartTriple r else s
      s.endOp r (frameStatus f) (if r.opcode = 4 then leBytes 8 f.operand else f.payload)

/-- The wait of an MCAST-PUT that a completion from a downstream device belongs to, with the port it came through. -/
def State.mcastWaitOf (s : State) (f : Frame) : Option (McastWait × Nat) :=
  s.mcastWaits.findSome? fun w =>
    if w.source = f.target ∧ w.tag = f.tag then (w.waiting.find? fun p => s.entry (0x4040 + p) 3 = f.source).map fun p => (w, p) else none

/-- FABRIC_COMPLETION. -/
def execFabricCompletion (frame : Frame) (s : State) : Host.Outcome State Fault Refusal :=
  .next (
    if frame.opcode ≠ 0x20 ∨ !s.hostPowered then s
    else
      match s.mcastWaitOf frame with
      | some w => s.mcastCopyDone w.1 w.2 frame
      | none => if frame.target = s.nodeId then s.completeOwn frame else s)

/-- COMPLETION_TIMEOUT (R316, R333). -/
def execCompletionTimeout (tag : Nat) (s : State) : Host.Outcome State Fault Refusal :=
  .next (
    match s.findOp tag with
    | none => s
    | some r =>
      if !s.timedOut r then s
      else if r.host then s.hostOpTimeout r
      else ({ s with mcastWaits := s.mcastWaits.filter fun w => !(w.fromPort = 255 && w.tag = tag) }).endOp r FABRIC_TIMEOUT [])

/-- ISSUER_FENCE: a tile's FENCE that has nothing earlier left to complete finishes; the other issuers keep no FENCE of their own (R312). -/
def execIssuerFence (issuer : Nat) (s : State) : Host.Outcome State Fault Refusal :=
  .next (
    if s.issuerBusy issuer ∨ 64 ≤ issuer then s
    else
      match (s.tile issuer).running.find? fun o => o.op.code = lopFenceCode && (s.tile issuer).fenceDone o.id with
      | none => s
      | some o => s.updTile issuer fun x => x.retire o.id)

end Sys2Proof.Machine
end

