-- ==== Sys2Proof/Machine/Serve.lean ====
section
/-! DEFINITION. What a DICT_REQUEST asks for, served at either end of the crossing gate, and the segments of DTP transfers (R14, R17, R18, R33, R54, R55). -/

namespace Sys2Proof.Machine

/-! ### One entry -/

/-- A write of an entry at the end that serves it. -/
def State.writeHere (s : State) (ctx index sub v : Nat) : Nat × State :=
  s.decideAny ctx index sub v (fun _ => true) fun s => (s.storePersistent ctx index sub v).writeOp ctx index sub v

/-- A read of an entry at the end that serves it. -/
def State.readHere (s : State) (ctx index sub : Nat) : Nat × Nat × State :=
  s.readResult ctx index sub (fun _ => true) fun _ s => s.readOp ctx index sub

/-- An access to the entry at an offset, at the end that serves the entry: its status, its value (of GroupControl, GroupState: Table 2-5),
and the state. An offset that is no multiple of 8 is no entry's (R10; DESIGN CHOICE, log entry 61). -/
def State.accessHere (s : State) (ctx : Nat) (p : Nat × Option Word) : Nat × Nat × State :=
  let i := indexAt p.1
  let k := subAt p.1
  if p.1 % 8 ≠ 0 then (ENTRY_ABSENT, allOnes, s)
  else
    match p.2 with
    | some v =>
      let r := s.writeHere ctx i k v.toNat
      (r.1, if i = 0x1020 then (r.2.context ctx).groupState else 0, r.2)
    | none => s.readHere ctx i k

/-- An access, with its outcome recorded in its context (R46). -/
def State.accessEntry (s : State) (ctx : Nat) (p : Nat × Option Word) : (Nat × Nat) × State :=
  let r := s.accessHere ctx p
  let s := if p.2.isSome then r.2.2.record ctx (indexAt p.1) (subAt p.1) r.1 else r.2.2.recordRead ctx (indexAt p.1) (subAt p.1) r.1
  ((r.1, r.2.1), s)

/-- Entries accessed one after another. -/
def State.accessAll (s : State) (f : State → Nat × Option Word → (Nat × Nat) × State) (l : List (Nat × Option Word)) : List (Nat × Nat) × State :=
  l.foldl (fun (a : List (Nat × Nat) × State) p =>
    let r := f a.2 p
    (a.1 ++ [r.1], r.2)) ([], s)

/-! ### Segments (R52, R55, R375) -/

/-- Whether a context has a transfer open for an entry in a direction. -/
def Context.hasTransfer (c : Context) (a : Nat) (write : Bool) : Bool := c.transfer.any fun t => t.addr = a && t.write = write

/-- The key of the entry at an offset. -/
def offsetKey (offset : Nat) : Nat := offset / 8

/-- A read transfer of a session: the segment at offset 0 copies the content anew (log entry 28). -/
def State.segmentSource (s : State) (ctx key start : Nat) : Nat × State :=
  let c := s.context ctx
  if c.hasTransfer key false ∧ start ≠ 0 then (if c.groupState = 1 then STATE_CONFLICT else OK, s)
  else (s.updContext ctx fun c => { c with target := key }).openRead ctx

/-- The bytes of a segment. -/
def State.segmentBytes (s : State) (ctx start length : Nat) : List Byte :=
  match (s.context ctx).transfer with
  | none => []
  | some t => (t.content.drop start).take length

/-- A segment read through a session: status and bytes. -/
def State.segmentRead (s : State) (ctx offset start length : Nat) : Nat × List Byte × State :=
  let r := if offset % 8 ≠ 0 then (ENTRY_ABSENT, s) else s.segmentSource ctx (offsetKey offset) start
  (r.1, if r.1 = OK then r.2.segmentBytes ctx start length else [], r.2.record ctx (indexAt offset) (subAt offset) r.1)

/-- The write transfer of a session's entry: opened by its first segment. -/
def State.segmentTarget (s : State) (ctx key length : Nat) : Nat × State :=
  let c := s.context ctx
  if c.hasTransfer key true then
    (if maxContent (key / 256) (key % 256) < length then VALUE_RANGE else if c.groupState = 1 then STATE_CONFLICT else OK, s)
  else s.openTransfer ctx key length

/-- A transfer whose length grows with its segments. -/
def Transfer.grow (t : Transfer) (n : Nat) : Transfer := { t with length := max t.length n }

/-- A segment is stored; the last one finishes the transfer, which its end gives its length. -/
def State.putSegment (s : State) (ctx key start : Nat) (data : List Byte) (last : Bool) : Nat × State :=
  let r := s.segmentTarget ctx key (start + data.length)
  if r.1 ≠ OK then r
  else
    match (r.2.context ctx).transfer with
    | none => (STATE_CONFLICT, r.2)
    | some t =>
      let w := r.2.storeSegment ctx (t.grow (start + data.length)) start data
      if w.1 ≠ OK ∨ !last then w else w.2.finishTransfer ctx

/-- A segment written through a session: status. -/
def State.segmentWrite (s : State) (ctx offset start : Nat) (data : List Byte) (last : Bool) : Nat × State :=
  let r := if offset % 8 ≠ 0 then (ENTRY_ABSENT, s) else s.putSegment ctx (offsetKey offset) start data last
  (r.1, r.2.record ctx (indexAt offset) (subAt offset) r.1)

/-! ### The host end (R17) -/

/-- An answer of one status and value. -/
def answerOf (status value : Nat) : GatePayload := .response [(status, value)] []

/-- A DICT_REQUEST from the field side at the host end: it serves the DTP sessions alone, and R17 refuses entries that carry device data. -/
def State.serveHost (s : State) (ctx : Nat) (a : GateAccess) : GatePayload × State :=
  if !isDtp ctx then (answerOf ACCESS_PROTECT allOnes, s)
  else
    match a with
    | .entries l =>
      let r := s.accessAll (fun s p => s.accessEntry ctx p) l
      (.response r.1 [], r.2)
    | .segmentRead o i n =>
      let r := s.segmentRead ctx o i n
      (.response [(r.1, 0)] r.2.1, r.2.2)
    | .segmentWrite o i d last =>
      let r := s.segmentWrite ctx o i d last
      (answerOf r.1 0, r.2)
    | .store _ => (answerOf ACCESS_PROTECT 0, s)
    | .storeSegment .. => (answerOf ACCESS_PROTECT 0, s)

/-! ### Fumarole's end (R14, R18, R33) -/

/-- What the newest record of the store, or on its way to it, holds for an entry. -/
def State.recordOf (s : State) (k : Nat) : Option Nat :=
  ((s.journal ++ s.unstored).reverse.find? fun (r : PersistRecord) => r.values.any fun (p : Nat × Nat) => p.1 = k).bind fun (r : PersistRecord) =>
    if r.intact then r.values.lookup k else none

/-- Why a value may not enter the store as an entry's: only persistent values in their range do (R18, R33). -/
def State.storeRefusal (s : State) (offset v : Nat) : Option Nat :=
  match lookupEntry (indexAt offset) (subAt offset) with
  | none => some ENTRY_ABSENT
  | some r =>
    if offset % 8 ≠ 0 then some ENTRY_ABSENT
    else if !r.persist then some ACCESS_PROTECT
    else if r.ty.isContent then some ACCESS_RIGHT
    else s.rangeRefusal r (indexAt offset) (subAt offset) v

/-- Values enter the store as one record, all or none (R33). -/
def State.storeValues (s : State) (l : List (Nat × Word)) : Nat × State :=
  match l.findSome? fun p => s.storeRefusal p.1 p.2.toNat with
  | some c => (c, s)
  | none => (OK, s.keepRecord { values := l.map fun p => (offsetKey p.1, p.2.toNat), contents := [] })

/-- A segment of content for the store: the segments come in order, and the last makes the record (R33). -/
def State.storeSegmentHere (s : State) (offset start total : Nat) (d : List Byte) : Nat × State :=
  let k := offsetKey offset
  let sofar := if start = 0 then [] else Tab.get s.arriving [] k
  let ok : Bool := offset % 8 = 0 && ((lookupEntry (k / 256) (k % 256)).any fun r => r.persist && r.ty.isContent) && k ≠ entryKey 0x9100 1
  if !ok then (ACCESS_PROTECT, s)
  else if sofar.length ≠ start ∨ total < start + d.length then (STATE_CONFLICT, s)
  else if start + d.length < total then (OK, { s with arriving := Tab.put s.arriving k (sofar ++ d) })
  else (OK, ({ s with arriving := Tab.erase s.arriving k }).keepRecord { values := [], contents := [(k, sofar ++ d)] })

/-- A DICT_REQUEST for one entry from the host side: Fumarole's own entries, the values of the store, and nothing else.
The host end records the outcome of its own access. -/
def State.fieldEntry (s : State) (ctx : Nat) (p : Nat × Option Word) : (Nat × Nat) × State :=
  if isFieldServed (indexAt p.1) then
    let r := s.accessHere ctx p
    ((r.1, r.2.1), r.2.2)
  else
    match p.2 with
    | some v =>
      let r := s.storeValues [(p.1, v)]
      ((r.1, 0), r.2)
    | none =>
      if !isPersistent (indexAt p.1) (subAt p.1) ∨ p.1 % 8 ≠ 0 then ((ACCESS_PROTECT, allOnes), s)
      else ((OK, (s.recordOf (offsetKey p.1)).getD (entryDefault (indexAt p.1) (subAt p.1))), s)

/-- A DICT_REQUEST from the host side at Fumarole's end. Segments of Fumarole's own content are read; PendingImage is written by FIRMWARE_BLOCK alone (R18). -/
def State.serveField (s : State) (ctx : Nat) (a : GateAccess) : GatePayload × State :=
  match a with
  | .store l =>
    let r := s.storeValues l
    (answerOf r.1 0, r.2)
  | .storeSegment o i n d =>
    let r := s.storeSegmentHere o i n d
    (answerOf r.1 0, r.2)
  | .entries l =>
    if isDtp ctx then (answerOf ACCESS_PROTECT allOnes, s)
    else
      let r := s.accessAll (fun s p => s.fieldEntry ctx p) l
      (.response r.1 [], r.2)
  | .segmentRead o i n =>
    if isDtp ctx ∨ !isFieldServed (indexAt o) then (answerOf ACCESS_PROTECT 0, s)
    else
      let r := s.segmentRead ctx o i n
      (.response [(r.1, 0)] r.2.1, r.2.2)
  | .segmentWrite .. => (answerOf ACCESS_PROTECT 0, s)

end Sys2Proof.Machine
end

