-- ==== Sys2Proof/Machine/Dtp.lean ====
section
/-! DEFINITION. The management port: DTP sessions and their requests (R51-R53, R367). -/

namespace Sys2Proof.Machine

/-! ### Sessions -/

/-- The context of a session (R36). -/
def dtpContext (session : Nat) : Nat := 16 + session

def State.session (s : State) (id : Nat) : Option Session := Tab.get? s.sessions id

/-- Fumarole serves DTP once its firmware runs: not in phases 1 and 2 of a start that restarts it (R417), but in recovery (R373). -/
def State.dtpServed (s : State) : Bool :=
  s.fieldPowered && !(s.restart.any fun r => restartsField r.kind && decide (s.bootPhase r < 3))

/-- The context of a group whose session has closed: none. -/
abbrev noContext : Nat := 0x100000000

/-- A session closes: its open group and its transfer are dropped, its context goes (R42, R53); a PENDING group of it stays for its barrier. -/
def State.closeSession (s : State) (id : Nat) : State :=
  let s := (s.dropGroup (dtpContext id)).dropTransfer (dtpContext id)
  { s with sessions := Tab.erase s.sessions id, contexts := Tab.erase s.contexts (dtpContext id)
           pendingGroups := s.pendingGroups.map fun (g : PendingGroup) => if g.ctx = dtpContext id then { g with ctx := noContext } else g }

/-- A datagram dropped without a response is counted (R51, R53). -/
def State.dropDatagram (s : State) : State := { s with dtpDropped := s.dtpDropped + 1 }

/-- The segment size of a version (R52). -/
def segmentSize (version : Nat) : Nat := if version = 1 then 256 else 1024

/-! ### HELLO (R52, R367) -/

/-- The highest version that is offered and within DtpVersionLimit. -/
def State.chooseVersion (s : State) (offered : Nat) : Option Nat :=
  [2, 1].find? fun v => bit offered v && v ≤ s.entry 0x1050 2

/-- Whether a client's chain reaches an installed anchor and is valid now, and signs its ephemeral key. -/
def State.clientValid (s : State) (certificate ephemeral : List Byte) : Bool :=
  let anchors := s.blob 0x9030 1
  !anchors.isEmpty && Config.chainValid anchors (if s.timeLocked then some s.fabricTime else none) certificate ephemeral

/-- HELLO_ACK: a refusal opens no session and carries nothing. -/
def State.refuseHello (s : State) (port version status : Nat) : State := s.emit (.dtpHelloAck port version 0 status [] [])

/-- The session ID that a new session gets: the lowest that no session holds. -/
def State.freeSession (s : State) : Option Nat := (List.range 8).find? fun k => (s.session (k + 1)).isNone

/-- A session opens; HELLO_ACK carries the management certificate, Fumarole's ephemeral key and its signature (R367, log entry 7). -/
def State.openSession (s : State) (port version id : Nat) : State :=
  let x : Session := { version := version, port := port, lastSeen := s.now }
  let s := { s with sessions := Tab.put s.sessions id x, contexts := Tab.put s.contexts (dtpContext id) {} }
  (s.emit (.dtpHelloAck port version id OK (s.blob 0x9000 5) ((List.range 193).map fun i => Config.protocolByte s.freeCount i))).useFree

/-- DTP_HELLO, on the port that DtpUdpPort names for new sessions (R51). The spec does not order a HELLO's refusals: the model takes the chain
first, then the version, then SessionLimit, whose HELLO_ACK carries the version chosen (DESIGN CHOICE, log entry 62). -/
def execDtpHello (port offered : Nat) (certificate ephemeral : List Byte) (s : State) : Host.Outcome State Fault Refusal :=
  .next (
    if !s.dtpServed ∨ port ≠ s.entry 0x1050 1 then s
    else if !s.clientValid certificate ephemeral then s.refuseHello port 0 ACCESS_PROTECT
    else
      match s.chooseVersion offered with
      | none => s.refuseHello port 0 VALUE_RANGE
      | some v =>
        if s.entry 0x1050 3 ≤ s.sessions.length then s.refuseHello port v GROUP_FULL
        else
          match s.freeSession with
          | none => s.refuseHello port v GROUP_FULL
          | some id => s.openSession port v (id + 1))

/-! ### Responses (Tables 2-4 and 2-5, R53) -/

/-- The payload bytes of a response: 2 for a status, 8 for a value or an offset, 1 for GroupState. Table 2-5 names the fields and gives no widths
(DESIGN CHOICE, log entry 61). -/
def DtpReply.payloadLength (r : DtpReply) : Nat :=
  if r.type = 0x11 then 10 * r.items.length
  else if r.type = 0x13 then 2 * r.items.length
  else if r.type = 0x21 then 10 + r.data.length
  else if r.type = 0x31 then 3
  else 2

/-- A response leaves on the session's port under the header of Table 2-4. -/
def State.sendReply (s : State) (x : Session) (id seq : Nat) (r : DtpReply) : State :=
  s.emit (.dtp x.port { version := x.version, type := r.type, session := id, seq := seq, length := r.payloadLength } r)

def State.setSession (s : State) (id : Nat) (x : Session) : State := { s with sessions := Tab.put s.sessions id x }

/-- A response leaves and is kept with the last 16 of its session; the session closes before its Sequence would wrap (R367). -/
def State.respondDtp (s : State) (id seq : Nat) (reply : DtpReply) : State :=
  match s.session id with
  | none => s
  | some x =>
    let s := s.sendReply x id seq reply
    if seq = 0xFFFFFFFF then s.closeSession id
    else
      s.setSession id { x with highest := some (max seq (x.highest.getD 0)), kept := ((seq, reply) :: x.kept).take 16
                               waiting := x.waiting.filter fun w => w.seq ≠ seq }

/-! ### Requests that the gate serves in part (R16, R53) -/

/-- Whether Fumarole may send a DICT_REQUEST: the host side serves, and the gate is up. -/
def State.gateServes (s : State) : Bool := s.ready && !s.fieldGate.down && decide (s.fieldGate.quietUntil ≤ s.now)

/-- Whether a session's access to the entry at an offset travels the gate; any other Fumarole decides itself. -/
def State.travels (s : State) (ctx offset : Nat) : Bool := s.acrossGate ctx (indexAt offset) && s.gateServes

/-- Whether a request waits for an entry's answer. -/
def DtpWait.awaits (w : DtpWait) : Bool := w.done.any fun d => d.isNone

/-- The response of a request that waits no more. -/
def DtpWait.reply (w : DtpWait) (data : List Byte) : DtpReply :=
  let items := w.done.filterMap id
  let first := ((items.head?).map fun p => p.1).getD OK
  if w.type = 0x11 ∨ w.type = 0x13 then { type := w.type, status := OK, items := items }
  else if w.type = 0x31 then { type := w.type, status := first, items := items }
  else { type := w.type, status := first, offset := w.offset, data := data }

/-- A request is answered, or waits on (R53). -/
def State.settleDtp (s : State) (id : Nat) (w : DtpWait) (data : List Byte) : State :=
  if w.awaits then
    match s.session id with
    | none => s
    | some x => s.setSession id { x with waiting := w :: x.waiting.filter fun y => y.seq ≠ w.seq }
  else s.respondDtp id w.seq (w.reply data)

/-- Fumarole sends a DICT_REQUEST for a session's request. -/
def State.askHost (s : State) (id seq : Nat) (a : GateAccess) : State := s.gateSend .field (.request (dtpContext id) a) (.dtp id seq)

/-- Reads: Fumarole's own entries are read now, the host side's by one DICT_REQUEST, so that they are one consistent set (Table 2-5, log entry 61). -/
def State.runReads (s : State) (id seq : Nat) (offsets : List Nat) : State × DtpWait :=
  let ctx := dtpContext id
  let r := offsets.foldl (fun (a : List (Option (Nat × Nat)) × State) o =>
    if s.travels ctx o then (a.1 ++ [none], a.2)
    else
      let x := a.2.accessEntry ctx (o, none)
      (a.1 ++ [some x.1], x.2)) ([], s)
  let far := offsets.filter fun o => s.travels ctx o
  (if far.isEmpty then r.2 else r.2.askHost id seq (.entries (far.map fun o => (o, none))), { seq := seq, type := 0x11, done := r.1 })

/-- Writes in order (Table 2-5): Fumarole's own one after another, and a run of the host side's by one DICT_REQUEST, whose answer the rest waits for. -/
def State.runWrites : Nat → State → Nat → DtpWait → State × DtpWait
  | 0, s, _, w => (s, w)
  | n + 1, s, id, w =>
    match w.todo with
    | [] => (s, w)
    | (o, v) :: rest =>
      let ctx := dtpContext id
      if s.travels ctx o then
        let run := w.todo.takeWhile fun p => s.travels ctx p.1
        (s.askHost id w.seq (.entries (run.map fun p => (p.1, some (BitVec.ofNat 64 p.2)))),
          { w with done := w.done ++ run.map fun _ => none, todo := w.todo.drop run.length })
      else
        let x := s.accessEntry ctx (o, some (BitVec.ofNat 64 v))
        x.2.runWrites n id { w with done := w.done ++ [some x.1], todo := rest }

/-- The entries that waited take the answer's statuses and values, in order; one the answer lacks is STATE_CONFLICT. -/
def fillDone : List (Option (Nat × Nat)) → List (Nat × Nat) → List (Option (Nat × Nat))
  | [], _ => []
  | some d :: l, a => some d :: fillDone l a
  | none :: l, [] => some (STATE_CONFLICT, allOnes) :: fillDone l []
  | none :: l, x :: a => some x :: fillDone l a

/-- The gate's answer to a session's request, which may have more to write. -/
def State.dtpAnswered (s : State) (id seq : Nat) (items : List (Nat × Nat)) (data : List Byte) : State :=
  match s.session id with
  | none => s
  | some x =>
    match x.waiting.find? fun w => w.seq = seq with
    | none => s
    | some w =>
      let r := s.runWrites w.todo.length id { w with done := fillDone w.done items }
      r.1.settleDtp id r.2 data

/-- A session's request whose DICT_REQUEST was given up: its entries are answered STATE_CONFLICT, and nothing more of it is performed (R16). -/
def State.dtpGivenUp (s : State) (id seq : Nat) : State :=
  match s.session id with
  | none => s
  | some x =>
    match x.waiting.find? fun w => w.seq = seq with
    | none => s
    | some w => s.settleDtp id { w with done := fillDone w.done [] ++ w.todo.map fun _ => some (STATE_CONFLICT, 0), todo := [] } []

/-! ### Requests -/

/-- An authenticated request: a kept response is sent again, one that still waits is not performed again, a number at or below the highest answered
is dropped and counted, any other is performed. -/
def State.onRequest (s : State) (id seq : Nat) (f : State → Session → State) : State :=
  if !s.dtpServed then s
  else
    match s.session id with
    | none => s.dropDatagram
    | some x =>
      let x := { x with lastSeen := s.now }
      let s := s.setSession id x
      match x.kept.lookup seq with
      | some r => s.sendReply x id seq r
      | none =>
        if x.waiting.any fun w => w.seq = seq then s
        else if x.highest.any fun h => seq ≤ h then s.dropDatagram
        else f s x

/-- How many entries a request may name: one in version 1, up to 64 in version 2 (Table 2-5). -/
def countOk (version n : Nat) : Bool := n = 1 || (version = 2 && 0 < n && n ≤ 64)

/-- DTP_READ: the entries are read as one consistent set. -/
def execDtpRead (session seq : Nat) (addrs : List Nat) (s : State) : Host.Outcome State Fault Refusal :=
  .next (s.onRequest session seq fun s x =>
    if !countOk x.version addrs.length then s.respondDtp session seq { type := 0x11, status := ACCESS_RIGHT }
    else
      let r := s.runReads session seq addrs
      r.1.settleDtp session r.2 [])

/-- DTP_WRITE: the writes are performed in order. -/
def execDtpWrite (session seq : Nat) (pairs : List (Nat × Word)) (s : State) : Host.Outcome State Fault Refusal :=
  .next (s.onRequest session seq fun s x =>
    if !countOk x.version pairs.length then s.respondDtp session seq { type := 0x13, status := ACCESS_RIGHT }
    else
      let r := s.runWrites pairs.length session { seq := seq, type := 0x13, todo := pairs.map fun p => (p.1, p.2.toNat) }
      r.1.settleDtp session r.2 [])

/-- A segment's request that travels, or its status and bytes where Fumarole decides it. -/
def State.segmentRequest (s : State) (id : Nat) (w : DtpWait) (offset : Nat) (a : GateAccess) (here : State → Nat × List Byte × State) : State :=
  if s.travels (dtpContext id) offset then (s.askHost id w.seq a).settleDtp id { w with done := [none] } []
  else
    let r := here s
    r.2.2.settleDtp id { w with done := [some (r.1, 0)] } r.2.1

/-- DTP_SEGMENT_READ. -/
def execDtpSegmentRead (session seq addr offset length : Nat) (s : State) : Host.Outcome State Fault Refusal :=
  .next (s.onRequest session seq fun s x =>
    let ctx := dtpContext session
    if segmentSize x.version < length then
      (s.record ctx (indexAt addr) (subAt addr) ACCESS_RIGHT).respondDtp session seq { type := 0x21, status := ACCESS_RIGHT, offset := offset }
    else
      s.segmentRequest session { seq := seq, type := 0x21, offset := offset } addr (.segmentRead addr offset length) fun s =>
        s.segmentRead ctx addr offset length)

/-- DTP_SEGMENT_WRITE. -/
def execDtpSegmentWrite (session seq addr offset : Nat) (data : List Byte) (last : Bool) (s : State) : Host.Outcome State Fault Refusal :=
  .next (s.onRequest session seq fun s x =>
    let ctx := dtpContext session
    if segmentSize x.version < data.length then
      (s.record ctx (indexAt addr) (subAt addr) ACCESS_RIGHT).respondDtp session seq { type := 0x23, status := ACCESS_RIGHT }
    else
      s.segmentRequest session { seq := seq, type := 0x23 } addr (.segmentWrite addr offset data last) fun s =>
        let r := s.segmentWrite ctx addr offset data last
        (r.1, [], r.2))

/-! ### Groups, the end of a session, datagrams that are not performed -/

/-- The value that a GROUP request writes to GroupControl (Table 2-6). -/
def GroupOp.code : GroupOp → Nat
  | .openGroup => 1
  | .commit => 2
  | .abort => 3

/-- DTP_GROUP: version 2 alone; a write of GroupControl, answered with the status and GroupState. -/
def execDtpGroup (session seq : Nat) (op : GroupOp) (s : State) : Host.Outcome State Fault Refusal :=
  .next (s.onRequest session seq fun s x =>
    let ctx := dtpContext session
    let p : Nat × Option Word := (keyOffset (entryKey 0x1020 1), some (BitVec.ofNat 64 (GroupOp.code op)))
    if x.version ≠ 2 then
      (s.record ctx 0x1020 1 ACCESS_RIGHT).respondDtp session seq { type := 0x31, status := ACCESS_RIGHT, items := [(ACCESS_RIGHT, (s.context ctx).groupState)] }
    else
      let w : DtpWait := { seq := seq, type := 0x31 }
      if s.travels ctx p.1 then (s.askHost session seq (.entries [p])).settleDtp session { w with done := [none] } []
      else
        let r := s.accessEntry ctx p
        r.2.settleDtp session { w with done := [some r.1] } [])

/-- DTP_CLOSE: the session closes; CLOSE has no response (Table 2-5). -/
def execDtpClose (session seq : Nat) (s : State) : Host.Outcome State Fault Refusal :=
  .next (
    if !s.dtpServed then s
    else
      match s.session session with
      | none => s.dropDatagram
      | some x => if x.highest.any fun h => seq ≤ h then s.dropDatagram else s.closeSession session)

/-- DTP_DATAGRAM_REJECTED: a datagram that fails authentication, or whose number is neither kept nor new (R51, R53). -/
def execDtpDatagramRejected (session seq : Nat) (authentic : Bool) (s : State) : Host.Outcome State Fault Refusal :=
  .next (
    if !s.dtpServed then s
    else if !authentic then s.dropDatagram
    else
      match s.session session with
      | none => s.dropDatagram
      | some x =>
        if (x.kept.lookup seq).isNone && !(x.waiting.any fun w => w.seq = seq) && x.highest.any (fun h => seq ≤ h) then s.dropDatagram else s)

/-- DTP_SESSION_IDLE_TIMEOUT (R53). -/
def execDtpSessionIdleTimeout (session : Nat) (s : State) : Host.Outcome State Fault Refusal :=
  .next (
    match s.session session with
    | none => s
    | some x => if x.lastSeen + 1000000000 * s.entry 0x1050 4 ≤ s.now then s.closeSession session else s)

end Sys2Proof.Machine
end

