-- ==== Sys2Proof/Machine/Gate.lean ====
section
/-! DEFINITION. The crossing gate: the messages that arrive at its two ends, repeats, messages given up, the gate down and back (R13-R19). -/

namespace Sys2Proof.Machine

/-! ### The two ends -/

/-- Whether an end has power: its side's (R13). -/
def State.gatePowered (s : State) (e : GateEnd) : Bool :=
  match e with
  | .host => s.hostPowered && s.fieldPowered
  | .field => s.fieldPowered

/-- The message types that may reach an end (Table 1-2). -/
def gateAllowed (e : GateEnd) (type : Nat) : Bool :=
  match e with
  | .host => [1, 2, 4, 5, 6, 0xF].contains type
  | .field => [1, 2, 3, 7, 0xF].contains type

/-- The answer to a message, which carries that message's sequence number (R14); an end that gave a message up is silent (R16). -/
def State.gateAnswer (s : State) (e : GateEnd) (seq : Nat) (p : GatePayload) : State :=
  let g := s.gateAt e
  if s.now < g.quietUntil then s else (s.setGate e { g with lastTx := s.now }).emit (.gate (e = .host) seq p)

/-! ### A message arrives -/

/-- Notices that queued while the gate was down leave (R19). -/
def State.flushNotices (s : State) : State :=
  s.notices.foldl (fun (s : State) (e : LogEntry) => s.gateSend .host (.notice e) .fumarole) { s with notices := [] }

/-- A valid message arrives at an end, and whether the end accepts it: an end that gave a message up stays down while it is silent (R16);
the first message at Fumarole's end after the gate was down brings the RESET_CMD of R19 and nothing else. -/
def State.hear (s : State) (e : GateEnd) : Bool × State :=
  let g := { s.gateAt e with lastRx := s.now }
  let s := s.setGate e g
  if !g.down then (true, s)
  else if s.now < g.quietUntil then (false, s)
  else
    let s := s.setGate e { g with down := false }
    match e with
    | .host => (true, s.flushNotices)
    | .field => (false, s.sendReset kindWarm GATE_LOST)

/-- A valid message takes effect at an end that has power. -/
def State.onMessage (s : State) (e : GateEnd) (f : State → State) : State :=
  if s.gatePowered e then
    let r := s.hear e
    if r.1 then f r.2 else r.2
  else s

/-- A numbered message takes effect once (R15): the end keeps the answer that it gave, and a repeat receives the same answer again
(that it does is the model's choice, log entry 61). -/
def State.takeNumbered (s : State) (e : GateEnd) (seq : Nat) (f : State → GatePayload × State) : State :=
  match (s.gateAt e).answered.lookup seq with
  | some p => s.gateAnswer e seq p
  | none =>
    let r := f s
    let g := r.2.gateAt e
    (r.2.setGate e { g with answered := ((seq, r.1) :: g.answered).take 32768 }).gateAnswer e seq r.1

/-- A numbered message at an end that has power. -/
def State.onNumbered (s : State) (e : GateEnd) (seq : Nat) (f : State → GatePayload × State) : State :=
  s.onMessage e fun s => s.takeNumbered e seq f

/-! ### DICT_REQUEST -/

/-- DICT_REQUEST. -/
def execDictRequest (e : GateEnd) (seq ctx : Nat) (access : GateAccess) (s : State) : Host.Outcome State Fault Refusal :=
  .next (s.onNumbered e seq fun s =>
    match e with
    | .host => s.serveHost ctx access
    | .field => s.serveField ctx access)

/-! ### DICT_RESPONSE, and messages that fail (R14, R16) -/

/-- An access that waited is performed, or waits again. -/
def State.resume (s : State) (a : EntryAccess) : State :=
  match a.frame, a.value with
  | some f, some _ => s.mirrorPut f a.offset
  | some f, none => s.mirrorGet f a.offset
  | none, some v => s.dictWrite a v
  | none, none => s.dictRead a

/-- The accesses of a context that waited behind another take their turn (R47). -/
def State.resumeHeld (s : State) (ctx : Nat) : State :=
  let mine := s.heldAccesses.filter fun (a : EntryAccess) => a.ctx = ctx
  mine.foldl State.resume { s with heldAccesses := s.heldAccesses.filter fun (a : EntryAccess) => a.ctx ≠ ctx }

/-- The outcome of an access that Fumarole answered, or that its message lost: recorded in the access's context, and returned (R16, R46, R49). -/
def State.finishAccess (s : State) (a : EntryAccess) (code v : Nat) : State :=
  let i := indexAt a.offset
  let k := subAt a.offset
  let s :=
    match a.value, a.frame with
    | some _, none => s.record a.ctx i k code
    | some _, some f => (s.record a.ctx i k code).mirrorDone f code []
    | none, none => (s.recordRead a.ctx i k code).answerWith a code v
    | none, some f => (s.recordRead a.ctx i k code).mirrorDone f code (leBytes 8 v)
  s.resumeHeld a.ctx

/-- The host side's persistent values are what they were before the record that Fumarole did not take, as a whole (R16, R33);
a value that a later write has replaced stays. -/
def State.undoValues (s : State) (ctx : Nat) (l : List (Nat × Nat × Nat)) (status : Nat) : State :=
  l.foldl (fun (s : State) (p : Nat × Nat × Nat) =>
    let i := p.1 / 256
    let k := p.1 % 256
    (if s.entry i k = p.2.1 then (s.applyEntry ctx i k p.2.2).2 else s).record ctx i k status) s

/-- The host side's content of a persistent entry is what it was before (R16, R33). -/
def State.undoContent (s : State) (ctx key status : Nat) (old : List Byte) : State :=
  (s.setBlob (key / 256) (key % 256) old).record ctx (key / 256) (key % 256) status

/-- Fumarole powers the next domains of a start: each mask follows the answer to the one before (phase 3 of Table 20-2). -/
def State.powerNext (s : State) : State :=
  match s.restart with
  | none => s
  | some r =>
    match r.powerLeft with
    | [] => s
    | _ :: rest =>
      let s := { s with restart := some { r with powerLeft := rest } }
      match rest with
      | [] => s
      | m :: _ => s.sendPower m true

/-- Fumarole reports a command of its own that failed (R16); a start whose power-up failed leaves the host side OFF (DESIGN CHOICE, log entry 61). -/
def State.reportFailed (s : State) (p : GatePayload) : State :=
  let s := s.emit (.management p.type (match p with
    | .power mask _ => mask
    | .reset kind _ => kind
    | _ => 0))
  match p, s.restart with
  | .power _ true, some r => if r.powerLeft.isEmpty then s else s.hostOff
  | _, _ => s

/-- The outcome that the origin of a message sees when the message is refused or given up (R16). -/
def State.messageFailed (s : State) (m : GateMsg) (status : Nat) : State :=
  match m.origin with
  | .fumarole => s.reportFailed m.payload
  | .access a => s.finishAccess a status allOnes
  | .dtp id seq => s.dtpGivenUp id seq
  | .values ctx l => s.undoValues ctx l status
  | .content ctx key _ old _ => s.undoContent ctx key status old
  | .block ctx => (s.dropTransfer ctx).record ctx 0x9100 1 status

/-- What the answer to a message brings about. -/
def State.messageAnswered (s : State) (m : GateMsg) (items : List (Nat × Nat)) (data : List Byte) : State :=
  let status := ((items.head?).map fun p => p.1).getD OK
  let v := ((items.head?).map fun p => p.2).getD 0
  match m.origin with
  | .access a => s.finishAccess a status v
  | .dtp id seq => s.dtpAnswered id seq items data
  | .fumarole =>
    if status ≠ OK then s.messageFailed m status
    else
      match m.payload with
      | .power _ true => s.powerNext
      | _ => s
  | .content ctx key start old new =>
    if status ≠ OK then s.messageFailed m status
    else if start + gateSegment < new.length then s.sendContent ctx key (start + gateSegment) old new
    else s
  | _ => if status ≠ OK then s.messageFailed m status else s

/-- DICT_RESPONSE: matched by sequence number to the message that it answers. -/
def execDictResponse (e : GateEnd) (seq : Nat) (items : List (Nat × Word)) (data : List Byte) (s : State) : Host.Outcome State Fault Refusal :=
  .next (s.onMessage e fun s =>
    let g := s.gateAt e
    match g.outstanding.find? fun (m : GateMsg) => m.seq = seq with
    | none => s
    | some m =>
      (s.setGate e { g with outstanding := g.outstanding.filter fun (m : GateMsg) => m.seq ≠ seq }).messageAnswered m (items.map fun p => (p.1, p.2.toNat)) data)

/-! ### Notices, triggers, power domains, restarts, firmware -/

/-- EVENT_NOTICE: a copy of a host-side event for the management port; WATCHDOG_RESTART brings a RESET_CMD of kind WATCHDOG (R397, R399). -/
def execEventNotice (entry : LogEntry) (s : State) : Host.Outcome State Fault Refusal :=
  .next (s.onMessage .field fun s =>
    let s := { s with fieldLog := s.fieldLog ++ [entry] }
    if entry.code = WATCHDOG_RESTART then s.sendReset kindWatchdog WATCHDOG_RESTART else s)

/-- The MANAGEMENT trigger; while the device is UPDATING it is dropped and counted (R403). -/
def State.managementTrigger (s : State) (target : Nat) : State :=
  if s.entry 0x1100 1 = 7 then s.bump 0x8010 7 1
  else if !s.ready then s
  else
    s.addTimed { time := if target = 0 then s.fabricTime + 1000 else target, source := srcManagement, timed := true, origin := s.nodeId }

/-- SNAPSHOT_TRIGGER. -/
def execSnapshotTrigger (target : Nat) (s : State) : Host.Outcome State Fault Refusal := .next (s.onMessage .host fun s => s.managementTrigger target)

/-- The domains of the host side (R342). -/
def hostDomains : List Nat := List.range 93 ++ [95]

/-- A port's domain goes off: the port is DISABLED. -/
def State.portOff (s : State) (p : Nat) : State := s.closePort p portDisabled

/-- One host-side domain switched: a tile off is in T4, one on in T0. -/
def State.switchDomain (s : State) (d : Nat) (on : Bool) : State :=
  if d < 64 then
    if !s.tileEnabled d then s
    else if on then s.setEntry (0xA0C0 + d) 1 0
    else (s.tileOff d).setEntry (0xA0C0 + d) 1 4
  else
    let s := s.setDomain d (if on then .on else .off)
    if on ∨ d < 72 ∨ 88 ≤ d then s else s.portOff (d - 72)

/-- POWER_DOMAIN_CMD: without the supervisor or its own end of the gate the host side is off as a whole, and their power, outside a start that
Fumarole runs already, starts it (R342, R417). -/
def State.powerDomains (s : State) (mask : Nat) (on : Bool) : State :=
  let core : Bool := bit mask 90 || bit mask 95
  if on then
    let s := if core ∧ !s.hostPowered then { s with hostPowered := true } else s
    let s := if core ∧ s.restart.isNone ∧ s.entry 0x1100 1 = 0 ∧ !s.recovery then s.requestRestart kindHostPower (s.entry 0x1100 4) false 0 else s
    if s.hostPowered then (hostDomains.filter fun d => bit mask d).foldl (fun s d => s.switchDomain d true) s else s
  else if core then (if s.hostPowered then s.hostOff else s)
  else (hostDomains.filter fun d => bit mask d).foldl (fun s d => s.switchDomain d false) s

/-- POWER_DOMAIN_CMD: it alone reaches a host side that has no power. It is answered before the power goes. -/
def execPowerDomainCmd (seq mask : Nat) (on : Bool) (s : State) : Host.Outcome State Fault Refusal :=
  .next (
    if !s.fieldPowered then s
    else
      let r := s.hear .host
      if !r.1 then r.2
      else if (r.2.hostGate.answered.lookup seq).isSome then r.2.takeNumbered .host seq fun s => (answerOf OK 0, s)
      else (r.2.takeNumbered .host seq fun s => (answerOf OK 0, s)).powerDomains mask on)

/-- How long the gate was down as the host end saw it, in ms (Table 18-7). -/
def State.gateDownMs (s : State) : Nat := (s.now - s.hostGate.downSince) / 1000000

/-- A RESET_CMD: its kind's restart (Table 20-1); an ACTIVATE needs a package that is staged and good, and is phase 3 of the pause
that the write of Activate began (Table 17-6). -/
def State.resetCommand (s : State) (kind cause : Nat) : Nat × State :=
  if kind = 0 ∨ 6 < kind then (VALUE_RANGE, s)
  else if kind = kindActivate ∧ (s.restart.any fun r => r.kind = kindActivate) then (OK, s)
  else if kind = kindActivate ∧ !s.packageReady then (STATE_CONFLICT, s)
  else
    let s := if kind = kindWatchdog then s.bump 0xB190 8 1 else s
    (OK, s.requestRestart kind cause (decide (kind = kindActivate)) (if cause = GATE_LOST then s.gateDownMs else 0))

/-- RESET_CMD. -/
def execResetCmd (seq kind cause : Nat) (s : State) : Host.Outcome State Fault Refusal :=
  .next (s.onNumbered .host seq fun s =>
    let r := s.resetCommand kind cause
    (answerOf r.1 0, r.2))

/-- A block reaches the pending slot, or is refused with no effect (R18, R375). The spec gives a refused block no code: the model answers
VALUE_RANGE to an empty or oversize block, and STATE_CONFLICT while PendingState is not STAGING (DESIGN CHOICE, log entry 62). -/
def State.placeBlock (s : State) (offset : Nat) (data : List Byte) : Nat × State :=
  if data.isEmpty ∨ packageMax < offset + data.length then (VALUE_RANGE, s)
  else if s.pendingState ≠ 1 then (STATE_CONFLICT, s)
  else (OK, s.putPackage s.pendingSlot offset data)

/-- FIRMWARE_BLOCK; one above 4,096 bytes passes the largest payload and is discarded (R13, R15). -/
def execFirmwareBlock (seq offset : Nat) (data : List Byte) (s : State) : Host.Outcome State Fault Refusal :=
  .next (
    if 4096 < data.length then { s with fieldGate := { s.fieldGate with discarded := s.fieldGate.discarded + 1 } }
    else s.onNumbered .field seq fun s =>
      let r := s.placeBlock offset data
      (answerOf r.1 0, r.2))

/-! ### Keeping the gate up -/

/-- KEEPALIVE. -/
def execKeepalive (e : GateEnd) (s : State) : Host.Outcome State Fault Refusal := .next (s.onMessage e fun s => s)

/-- GATE_MESSAGE_DISCARDED (R15). -/
def execGateMessageDiscarded (e : GateEnd) (type length : Nat) (crcOk : Bool) (s : State) : Host.Outcome State Fault Refusal :=
  .next (
    let g := s.gateAt e
    if s.gatePowered e ∧ (!crcOk ∨ 4104 < length ∨ !gateAllowed e type) then s.setGate e { g with discarded := g.discarded + 1 } else s)

/-- KEEPALIVE_SEND: 10 us after the end's last message, unless the end is silent (R16). -/
def execKeepaliveSend (e : GateEnd) (s : State) : Host.Outcome State Fault Refusal :=
  .next (
    let g := s.gateAt e
    if s.gatePowered e ∧ g.lastTx + 10000 ≤ s.now ∧ g.quietUntil ≤ s.now then s.gateSend e .keepalive .fumarole else s)

/-- GATE_RESEND_TIMEOUT: an unanswered message leaves again with its own sequence number, at most 4 times (R15). -/
def execGateResendTimeout (e : GateEnd) (seq : Nat) (s : State) : Host.Outcome State Fault Refusal :=
  .next (
    let g := s.gateAt e
    match g.outstanding.find? fun (m : GateMsg) => m.seq = seq with
    | none => s
    | some m =>
      if !s.gatePowered e ∨ 4 ≤ m.repeats ∨ s.now < m.sentAt + 100000 * (m.repeats + 1) ∨ s.now < g.quietUntil then s
      else
        let again := g.outstanding.map fun (x : GateMsg) => if x.seq = seq then { x with repeats := x.repeats + 1 } else x
        (s.setGate e { g with outstanding := again, lastTx := s.now }).emit (.gate (e = .host) m.seq m.payload))

/-- An end declares the gate down; Fumarole reports it on the management port (R19). -/
def State.declareDown (s : State) (e : GateEnd) : State :=
  let g := s.gateAt e
  if g.down then s
  else
    let s := s.setGate e { g with down := true, downSince := s.now }
    if e = .field then s.emit (.management 0x41 0) else s

/-- GATE_MESSAGE_GIVEN_UP: 500 us after the first transmission (R16). -/
def execGateMessageGivenUp (e : GateEnd) (seq : Nat) (s : State) : Host.Outcome State Fault Refusal :=
  .next (
    let g := s.gateAt e
    match g.outstanding.find? fun (m : GateMsg) => m.seq = seq with
    | none => s
    | some m =>
      if !s.gatePowered e ∨ m.repeats < 4 ∨ s.now < m.sentAt + 500000 then s
      else
        let g' := { g with outstanding := g.outstanding.filter fun (x : GateMsg) => x.seq ≠ seq, quietUntil := s.now + 1000000 }
        ((s.setGate e g').declareDown e).messageFailed m STATE_CONFLICT)

/-- GATE_DOWN: no valid message for 1 ms (R19). -/
def execGateDown (e : GateEnd) (s : State) : Host.Outcome State Fault Refusal :=
  .next (if s.gatePowered e ∧ (s.gateAt e).lastRx + 1000000 ≤ s.now then s.declareDown e else s)

end Sys2Proof.Machine
end

