-- ==== Sys2Proof/Machine/ScratchOps.lean ====
section
/-! DEFINITION. The commands of the narrow view, of row tags, verify reads and scrubbing (R265-R273). -/

namespace Sys2Proof.Machine

/-! ### The narrow view -/

/-- NARROW_READ: a read of NarrowData (R265, R266). -/
def execNarrowRead (ctx : Nat) (ecc : Ecc) (s : State) : Host.Outcome State Fault Refusal :=
  .next (s.answerRead { ctx := ctx, offset := keyOffset (entryKey 0x3480 2) } 0x3480 2 (fun _ => true) fun s =>
    match s.stagedValue ctx 0x3480 2 with
    | some v => (OK, v, s)
    | none => s.narrowReadOp ecc)

/-- NARROW_WRITE: a write of NarrowData (R265). -/
def execNarrowWrite (ctx : Nat) (value : Word) (ecc : Ecc) (s : State) : Host.Outcome State Fault Refusal :=
  .next (s.writeEntry ctx 0x3480 2 value.toNat fun s => s.narrowWriteOp value.toNat ecc)

/-- ROW_TAG_CLEAR (R271). -/
def execRowTagClear (ctx : Nat) (value : Word) (s : State) : Host.Outcome State Fault Refusal :=
  .next (s.writeEntry ctx 0x3480 5 value.toNat fun s => s.rowTagClearOp value.toNat)

/-! ### Verify reads (R272) -/

/-- Whether a row lies in a stream's destination region. -/
def State.fillsRow (s : State) (x : Stream) (row : Nat) : Bool := (s.streamEntry x).any fun ie => ie.2.destRow ≤ row && row < ie.2.destRow + ie.2.destRows

/-- The slot of a job's stream that fills a row: one open, or one DONE whose rows are still regenerated. -/
def State.streamOfRow (s : State) (j row : Nat) (open' : Bool) : Option Nat :=
  (List.range 16).find? fun k => let x := s.stream k; x.job = j && (if open' then x.bound else x.state = 4) && s.fillsRow x row

/-- The running transfer that wrote a row. -/
def Tile.writerOf (x : Tile) (row : Nat) : Option LopInst :=
  x.running.find? fun o => o.op.code = lopXferIn && o.rgnD.1 ≤ row && row < o.rgnD.1 + o.rowsDone

/-- A key row's failed verify ends its stream with KEY_CRC, with the outcomes of R182, also where the stream has left its slot (R181). -/
def State.keyRowFail (s : State) (j row : Nat) : State :=
  match (s.streamOfRow j row true).or (s.streamOfRow j row false) with
  | some k => s.streamFail k KEY_CRC
  | none =>
    match s.lateStreams.find? fun w => w.2.job = j && s.fillsRow w.2 row with
    | some w => s.keyOutcome j w.2.entry KEY_CRC
    | none => s.abortJob j KEY_CRC 0xFF 0

/-- A failed verify read: POISON and a count; a key row fails its stream with KEY_CRC, any other its writer with DATA_CRC (R272). -/
def State.verifyFail (s : State) (t row : Nat) : State :=
  let s := ((s.setTag t row .poison).bump 0x3420 5 1).failLanded t row
  match s.jobOfTile t with
  | none => s
  | some j =>
    if s.isKeyRow t row then s.keyRowFail j row
    else match (s.tile t).writerOf row with
      | some o => s.failLop t DATA_CRC o row 2
      | none => s.faultTile t { count := (s.tile t).sched, bundle := (s.tile t).nextBundle, code := DATA_CRC, target := row, slot := 4, targetKind := 2 }

/-- The verify read of a written KEY or WEIGHT row: the row turns FULL, and consumers of its stream may take it; or POISON (R272, R181). -/
def State.verifyRow (s : State) (t row : Nat) (pass : Bool) : State :=
  if (s.tile t).verifyDue.contains row then
    let s := s.updTile t fun x => { x with verifyDue := x.verifyDue.erase row }
    if pass then ((s.setTag t row .full).feedTile t).settleLanded t else s.verifyFail t row
  else s

/-- ROW_VERIFY_READ (R272). -/
def execRowVerifyRead (t row : Nat) (pass : Bool) (s : State) : Host.Outcome State Fault Refusal :=
  onTile t s fun s => s.verifyRow t row pass

/-! ### Write-back and scrubbing (R269, R273) -/

/-- ROW_ECC_WRITE_BACK: the corrected word is stored and the write-back is no longer due (R269). -/
def execRowEccWriteBack (t row word : Nat) (s : State) : Host.Outcome State Fault Refusal :=
  onTile t s fun s => s.updTile t fun x => { x with writeBacks := x.writeBacks.erase (row, word) }

/-- The next row of a powered bank at or after a row. -/
def State.nextScrubRow (s : State) (t : Nat) : Option Nat :=
  let from' := (s.tile t).scrubRow
  ((List.range 3072).map fun i => (from' + i) % 3072).find? fun r => s.bankOn t r

/-- The scrub period of a row in the pass under way, in ns; a changed period takes effect at the next pass (R273). -/
def State.scrubPeriod (s : State) (t row : Nat) : Nat :=
  1000000 * (if s.isProtectedRow t row then (s.tile t).scrubPeriods.2 else (s.tile t).scrubPeriods.1)

/-- The passes that a row has missed since it was last read (R273). -/
def State.missedPasses (s : State) (t row : Nat) : Nat :=
  match Tab.get? (s.tile t).scrubbed row with
  | some last => (s.now - last - 1) / s.scrubPeriod t row
  | none => 0

/-- The scrubber has read a row: its place, its time, and at the wrap the time of the pass (Table 12-5). -/
def State.scrubAdvance (s : State) (t row : Nat) : State :=
  let x := s.tile t
  let wrapped := row < x.scrubRow || row = 3071
  let s := s.bump 0x3420 6 (s.missedPasses t row)
  let s := if wrapped then s.setEntry (0x3440 + t) 6 ((s.now - x.scrubStart) / 1000) else s
  s.updTile t fun y =>
    { y with scrubRow := (row + 1) % 3072
             scrubStart := if wrapped then s.now else y.scrubStart
             scrubPeriods := if wrapped then (s.entry 0x3410 1, s.entry 0x3410 2) else y.scrubPeriods
             scrubbed := Tab.put y.scrubbed row s.now }

/-- One scrub read: no freeze; a corrected word is due for its write-back, an uncorrectable one poisons its row and is reported (R270, R273). -/
def State.scrub (s : State) (t : Nat) (ecc : Ecc) : State :=
  match s.nextScrubRow t with
  | none => s
  | some row =>
    let s := s.scrubAdvance t row
    match ecc with
    | .clean => s
    | .tagCopy => s.rowEcc t row ecc
    | .corrected w => (s.correctedRow t row w).bump 0x3420 3 1
    | .uncorrectable w => ((s.uncorrectableRow t row w).bump 0x3420 4 1).raise 0xB0D0 0xFF MEM_UNCORRECTABLE (t * 65536 + row) w

/-- SCRUB_ROW_READ (R273). -/
def execScrubRowRead (t : Nat) (ecc : Ecc) (s : State) : Host.Outcome State Fault Refusal := onTile t s fun s => s.scrub t ecc

end Sys2Proof.Machine
end

