-- ==== Sys2Proof/Machine/Slots.lean ====
section
/-! DEFINITION. The commands of the bundle slots, of the results that land, and of the instruction cache (R195-R214). -/

namespace Sys2Proof.Machine

/-! ### C slot (Table 9-3) -/

/-- CNOP: the bundle issues. -/
def execCnop (t : Nat) (s : State) : Host.Outcome State Fault Refusal := onTile t s fun s => s.closeBundle t {} fun s => s

/-- LOOP: the loop of an entry of the loop table becomes the innermost one (R198). -/
def State.startLoop (s : State) (t : Nat) (e : Nat × Nat) : State :=
  s.updTile t fun x => { x with loops := { first := x.nextBundle + 1, last := e.1, trip := e.2, index := 0 } :: x.loops }

/-- LOOP (R198); an index beyond the loop table names no loop and nothing happens. -/
def execLoop (t index : Nat) (s : State) : Host.Outcome State Fault Refusal :=
  onTile t s fun s =>
    match (s.imageOf t).bind fun im => im.loops[index]? with
    | some e => s.closeBundle t {} fun s => s.startLoop t e
    | none => s

/-- The hold of WAITR (R225). -/
def Tile.waitHold (x : Tile) (row count : Nat) (anyAccess : Bool) : Option Nat :=
  if x.covered row count (if anyAccess then [.read, .write, .tagged] else [.write, .tagged]) then some causeScoreboard else none

/-- WAITR (R197, R225). -/
def execWaitr (t row count : Nat) (anyAccess : Bool) (s : State) : Host.Outcome State Fault Refusal :=
  onTile t s fun s => s.closeBundle t { hold := (s.tile t).waitHold row count anyAccess } fun s => s

/-- The hold of WAITALL: an operation queued or running (R197). -/
def Tile.busyHold (x : Tile) : Option Nat := if x.queue.isEmpty && x.running.isEmpty then none else some causeScoreboard

/-- WAITALL (R197). -/
def execWaitall (t : Nat) (s : State) : Host.Outcome State Fault Refusal :=
  onTile t s fun s => s.closeBundle t { hold := (s.tile t).busyHold } fun s => s

/-- BAR: the bundle issues, and the tile holds until the release (R236). -/
def execBar (t barrier : Nat) (s : State) : Host.Outcome State Fault Refusal :=
  onTile t s fun s => s.closeBundle t {} fun s => (s.startWait t causeBarrier).updTile t fun x => { x with barWait := .issued barrier }

/-- HALT: the tile issues nothing further (R199). -/
def execHalt (t : Nat) (s : State) : Host.Outcome State Fault Refusal :=
  onTile t s fun s => s.closeBundle t {} fun s => s.updTile t fun x => { x with run := .halted }

/-! ### W slot (Table 9-6) -/

/-- WNOP. -/
def execWnop (t : Nat) (s : State) : Host.Outcome State Fault Refusal := onTile t s fun s => s.slot t slotW {}

/-- VADD: VA + VB (R90, R91). -/
def execVadd (t vd va vb qm : Nat) (s : State) : Host.Outcome State Fault Refusal :=
  onTile t s fun s => s.slot t slotW (s.wideOp t vd qm (s.latency t 2 3) [va, vb] none fun a b _c => a + b)

/-- VSUB: VA - VB (R90, R91). -/
def execVsub (t vd va vb qm : Nat) (s : State) : Host.Outcome State Fault Refusal :=
  onTile t s fun s => s.slot t slotW (s.wideOp t vd qm (s.latency t 2 3) [va, vb] none fun a b _c => a - b)

/-- VNEG: negated VA (R90, R91). -/
def execVneg (t vd va qm : Nat) (s : State) : Host.Outcome State Fault Refusal :=
  onTile t s fun s => s.slot t slotW (s.wideOp t vd qm (s.latency t 2 3) [va] none fun a _b _c => -a)

/-- VRED: VA made canonical (R90, R91). -/
def execVred (t vd va qm : Nat) (s : State) : Host.Outcome State Fault Refusal :=
  onTile t s fun s => s.slot t slotW (s.wideOp t vd qm (s.latency t 2 3) [va] none fun a _b _c => a)

/-- VADDK: VA plus a constant (R90, R91). -/
def execVaddk (t vd va sk qm : Nat) (s : State) : Host.Outcome State Fault Refusal :=
  onTile t s fun s => s.slot t slotW (s.wideOp t vd qm (s.latency t 2 3) [va] (s.constant t sk) fun a b _c => a + b)

/-- VMUL: VA times VB (R90, R91). -/
def execVmul (t vd va vb qm : Nat) (s : State) : Host.Outcome State Fault Refusal :=
  onTile t s fun s => s.slot t slotW (s.wideOp t vd qm (s.latency t 6 8) [va, vb] none fun a b _c => a * b)

/-- VMULK: VA times a constant (R90, R91). -/
def execVmulk (t vd va sk qm : Nat) (s : State) : Host.Outcome State Fault Refusal :=
  onTile t s fun s => s.slot t slotW (s.wideOp t vd qm (s.latency t 6 8) [va] (s.constant t sk) fun a b _c => a * b)

/-- VMAD: VA times VB plus VC (R90, R91). -/
def execVmad (t vd va vb vc qm : Nat) (s : State) : Host.Outcome State Fault Refusal :=
  onTile t s fun s => s.slot t slotW (s.wideOp t vd qm (s.latency t 8 11) [va, vb, vc] none fun a b c => a * b + c)

/-- VMSB: VC minus VA times VB (R90, R91). -/
def execVmsb (t vd va vb vc qm : Nat) (s : State) : Host.Outcome State Fault Refusal :=
  onTile t s fun s => s.slot t slotW (s.wideOp t vd qm (s.latency t 8 11) [va, vb, vc] none fun a b c => c - a * b)

/-- Whether a result in flight may land: it is due, or the tile has halted (R93, R199). -/
def Tile.resultDue (x : Tile) (r : VResult) : Bool := r.ready ≤ x.sched || x.run = .halted

/-- The oldest due result of a vector register reaches it. -/
def Tile.landResult (x : Tile) (vd : Nat) : Tile :=
  match x.flight.find? fun r => r.reg = vd && x.resultDue r with
  | none => x
  | some r => { x with vregs := Tab.put x.vregs vd r.value, flight := x.flight.erase r }

/-- W_RESULT_WRITE (R93). -/
def execWResultWrite (t vd : Nat) (s : State) : Host.Outcome State Fault Refusal := onTile t s fun s => s.updTile t fun x => x.landResult vd

/-! ### M slot (Table 9-7) -/

/-- MNOP. -/
def execMnop (t : Nat) (s : State) : Host.Outcome State Fault Refusal := onTile t s fun s => s.slot t slotM {}

/-- MLD (R202). -/
def execMld (t v sb row : Nat) (consume : Bool) (ecc : Ecc) (s : State) : Host.Outcome State Fault Refusal :=
  onTile t s fun s => s.slot t slotM (s.loadRow t v (s.targetRow t sb row) consume ecc)

/-- MST (R202). -/
def execMst (t v sb row : Nat) (waitEmpty : Bool) (s : State) : Host.Outcome State Fault Refusal :=
  onTile t s fun s => s.slot t slotM (s.storeRow t v (s.targetRow t sb row) waitEmpty)

/-- Whether a store may land: its count is reached, the tile has halted, or a narrow access waits for it (R199, R202, R210). -/
def Tile.storeDue (x : Tile) (m : Store) : Bool :=
  !m.landed && (m.completes ≤ x.sched || x.run = .halted || x.landNow = some m.row)

/-- The store of a row lands: the row is written and turns FULL, POISON included (R202); it keeps its place in the record (R210). -/
def State.landStore (s : State) (t row : Nat) : State :=
  match (s.tile t).stores.find? fun m => m.row = row && (s.tile t).storeDue m with
  | none => s
  | some m =>
    (((s.writeRow t row m.value).setTag t row .full).updTile t fun x =>
      { x with stores := (x.stores.map fun y => if y = m then { m with landed := true } else y).filter fun y => !(y.landed && y.completes ≤ x.sched) }).readEngines t

/-- MST_WRITE_LAND (R202). -/
def execMstWriteLand (t row : Nat) (s : State) : Host.Outcome State Fault Refusal := onTile t s fun s => s.landStore t row

/-- MREL (R202). -/
def execMrel (t sb row : Nat) (s : State) : Host.Outcome State Fault Refusal :=
  onTile t s fun s => s.slot t slotM (s.releaseRow t (s.targetRow t sb row))

/-! ### X slot (Table 9-9) -/

/-- XNOP. -/
def execXnop (t : Nat) (s : State) : Host.Outcome State Fault Refusal := onTile t s fun s => s.slot t slotX {}

/-- XLI. -/
def execXli (t sd : Nat) (imm : BitVec 16) (s : State) : Host.Outcome State Fault Refusal :=
  onTile t s fun s => s.slot t slotX (scalar sd (imm.signExtend 64))

/-- XLUI. -/
def execXlui (t sd : Nat) (imm : BitVec 16) (s : State) : Host.Outcome State Fault Refusal :=
  onTile t s fun s => s.slot t slotX (scalar sd ((s.tile t).sreg sd <<< 16 ||| imm.zeroExtend 64))

/-- XADDI. -/
def execXaddi (t sd sa : Nat) (imm : BitVec 16) (s : State) : Host.Outcome State Fault Refusal :=
  onTile t s fun s => s.slot t slotX (scalar sd ((s.tile t).sreg sa + imm.signExtend 64))

/-- XADD. -/
def execXadd (t sd sa sb : Nat) (s : State) : Host.Outcome State Fault Refusal :=
  onTile t s fun s => s.slot t slotX (scalar sd ((s.tile t).sreg sa + (s.tile t).sreg sb))

/-- XSUB. -/
def execXsub (t sd sa sb : Nat) (s : State) : Host.Outcome State Fault Refusal :=
  onTile t s fun s => s.slot t slotX (scalar sd ((s.tile t).sreg sa - (s.tile t).sreg sb))

/-- XMUL. -/
def execXmul (t sd sa sb : Nat) (s : State) : Host.Outcome State Fault Refusal :=
  onTile t s fun s => s.slot t slotX (scalar sd ((s.tile t).sreg sa * (s.tile t).sreg sb))

/-- XAND. -/
def execXand (t sd sa sb : Nat) (s : State) : Host.Outcome State Fault Refusal :=
  onTile t s fun s => s.slot t slotX (scalar sd ((s.tile t).sreg sa &&& (s.tile t).sreg sb))

/-- XOR. -/
def execXor (t sd sa sb : Nat) (s : State) : Host.Outcome State Fault Refusal :=
  onTile t s fun s => s.slot t slotX (scalar sd ((s.tile t).sreg sa ||| (s.tile t).sreg sb))

/-- XXOR. -/
def execXxor (t sd sa sb : Nat) (s : State) : Host.Outcome State Fault Refusal :=
  onTile t s fun s => s.slot t slotX (scalar sd ((s.tile t).sreg sa ^^^ (s.tile t).sreg sb))

/-- XSHL. -/
def execXshl (t sd sa : Nat) (imm : BitVec 6) (s : State) : Host.Outcome State Fault Refusal :=
  onTile t s fun s => s.slot t slotX (scalar sd ((s.tile t).sreg sa <<< imm.toNat))

/-- XSHR. -/
def execXshr (t sd sa : Nat) (imm : BitVec 6) (s : State) : Host.Outcome State Fault Refusal :=
  onTile t s fun s => s.slot t slotX (scalar sd ((s.tile t).sreg sa >>> imm.toNat))

/-- The iteration index of an active nesting level, 0 the outermost. -/
def Tile.loopIndex (x : Tile) (level : Nat) : Option Nat := (x.loops.reverse[level]?).map fun f => f.index

/-- XIDX; an inactive level, which admission refuses (R205), names no loop and nothing happens. -/
def execXidx (t sd : Nat) (level : BitVec 3) (s : State) : Host.Outcome State Fault Refusal :=
  onTile t s fun s =>
    match (s.tile t).loopIndex level.toNat with
    | some i => s.slot t slotX (scalar sd (BitVec.ofNat 64 i))
    | none => s

/-- XLDN (R206). -/
def execXldn (t sd sa : Nat) (imm : BitVec 16) (ecc : Ecc) (s : State) : Host.Outcome State Fault Refusal :=
  onTile t s fun s => s.slot t slotX (s.narrowLoad t sd (s.narrowTarget t sa imm) ecc)

/-- XSTN (R206). -/
def execXstn (t sd sa : Nat) (imm : BitVec 16) (ecc : Ecc) (s : State) : Host.Outcome State Fault Refusal :=
  onTile t s fun s => s.slot t slotX (s.narrowStore t sd (s.narrowTarget t sa imm) ecc)

/-- QLOAD: the register and its derived constants (R88); a set or limb that is not loaded, which admission refuses, names nothing. -/
def execQload (t qd setId limb : Nat) (s : State) : Host.Outcome State Fault Refusal :=
  onTile t s fun s =>
    match s.set? setId with
    | some p => if limb < p.limbs + p.special then s.slot t slotX { writes := [.qreg qd (p.modReg limb)] } else s
    | none => s

/-! ### Cache and freeze (R213, R214) -/

/-- ICACHE_LINE_FILL: a requested line arrives (R214). -/
def execIcacheLineFill (t line : Nat) (s : State) : Host.Outcome State Fault Refusal :=
  onTile t s fun s => if (s.tile t).lineWait.contains line then s.updTile t fun x => x.fillLine line else s

/-- ECC_FREEZE_END: the frozen cycles have passed and are counted, in place of any other cause (R213, R24). -/
def execEccFreezeEnd (t : Nat) (s : State) : Host.Outcome State Fault Refusal :=
  onTile t s fun s =>
    let n := (s.tile t).freeze
    if 0 < n then (s.stall t 0 causeEcc n).updTile t fun x => { x with freeze := 0, frozen := if x.waitCause = 255 then 0 else x.frozen + n } else s

end Sys2Proof.Machine
end

