-- ==== Sys2Proof/Machine/Dispatch.lean ====
section
/-! DEFINITION. The effect of each command on everything but the queue: one arm per constructor. -/

namespace Sys2Proof.Machine

def exec (i : Instr) (s : State) : Host.Outcome State Fault Refusal :=
  match i with
  | .dictRequest e seq ctx access => Sys2Proof.Machine.execDictRequest e seq ctx access s
  | .dictResponse e seq items data => Sys2Proof.Machine.execDictResponse e seq items data s
  | .eventNotice entry => Sys2Proof.Machine.execEventNotice entry s
  | .snapshotTrigger target => Sys2Proof.Machine.execSnapshotTrigger target s
  | .powerDomainCmd seq mask on => Sys2Proof.Machine.execPowerDomainCmd seq mask on s
  | .resetCmd seq kind cause => Sys2Proof.Machine.execResetCmd seq kind cause s
  | .firmwareBlock seq offset data => Sys2Proof.Machine.execFirmwareBlock seq offset data s
  | .keepalive e => Sys2Proof.Machine.execKeepalive e s
  | .gateMessageDiscarded e type length crcOk => Sys2Proof.Machine.execGateMessageDiscarded e type length crcOk s
  | .keepaliveSend e => Sys2Proof.Machine.execKeepaliveSend e s
  | .gateResendTimeout e seq => Sys2Proof.Machine.execGateResendTimeout e seq s
  | .gateMessageGivenUp e seq => Sys2Proof.Machine.execGateMessageGivenUp e seq s
  | .gateDown e => Sys2Proof.Machine.execGateDown e s
  | .dictWrite ctx offset size value => Sys2Proof.Machine.execDictWrite ctx offset size value s
  | .groupOpen ctx => Sys2Proof.Machine.execGroupOpen ctx s
  | .groupCommit ctx => Sys2Proof.Machine.execGroupCommit ctx s
  | .groupAbort ctx => Sys2Proof.Machine.execGroupAbort ctx s
  | .groupEpochTimeout ctx => Sys2Proof.Machine.execGroupEpochTimeout ctx s
  | .groupIdleTimeout ctx => Sys2Proof.Machine.execGroupIdleTimeout ctx s
  | .contextRelease ctx => Sys2Proof.Machine.execContextRelease ctx s
  | .transferIdleTimeout ctx => Sys2Proof.Machine.execTransferIdleTimeout ctx s
  | .persistRecordWrite => Sys2Proof.Machine.execPersistRecordWrite s
  | .startRead ctx => Sys2Proof.Machine.execStartRead ctx s
  | .startWrite ctx => Sys2Proof.Machine.execStartWrite ctx s
  | .commitSegment ctx => Sys2Proof.Machine.execCommitSegment ctx s
  | .segmentFinish ctx => Sys2Proof.Machine.execSegmentFinish ctx s
  | .segmentCancel ctx => Sys2Proof.Machine.execSegmentCancel ctx s
  | .restoreDefaults ctx value => Sys2Proof.Machine.execRestoreDefaults ctx value s
  | .setUnload ctx id => Sys2Proof.Machine.execSetUnload ctx id s
  | .dtpHello port offered certificate ephemeral => Sys2Proof.Machine.execDtpHello port offered certificate ephemeral s
  | .dtpRead session seq addrs => Sys2Proof.Machine.execDtpRead session seq addrs s
  | .dtpWrite session seq pairs => Sys2Proof.Machine.execDtpWrite session seq pairs s
  | .dtpSegmentRead session seq addr offset length => Sys2Proof.Machine.execDtpSegmentRead session seq addr offset length s
  | .dtpSegmentWrite session seq addr offset data last => Sys2Proof.Machine.execDtpSegmentWrite session seq addr offset data last s
  | .dtpClose session seq => Sys2Proof.Machine.execDtpClose session seq s
  | .dtpDatagramRejected session seq authentic => Sys2Proof.Machine.execDtpDatagramRejected session seq authentic s
  | .dtpSessionIdleTimeout session => Sys2Proof.Machine.execDtpSessionIdleTimeout session s
  | .jobLoad ctx job => Sys2Proof.Machine.execJobLoad ctx job s
  | .admissionCheck => Sys2Proof.Machine.execAdmissionCheck s
  | .jobStart ctx job => Sys2Proof.Machine.execJobStart ctx job s
  | .descriptorBind job => Sys2Proof.Machine.execDescriptorBind job s
  | .jobAbort ctx job => Sys2Proof.Machine.execJobAbort ctx job s
  | .jobAbortCleanup job => Sys2Proof.Machine.execJobAbortCleanup job s
  | .jobRelease ctx job => Sys2Proof.Machine.execJobRelease ctx job s
  | .jobRearm ctx job => Sys2Proof.Machine.execJobRearm ctx job s
  | .jobCommit job => Sys2Proof.Machine.execJobCommit job s
  | .descriptorValidWrite job handle => Sys2Proof.Machine.execDescriptorValidWrite job handle s
  | .completionSignal job => Sys2Proof.Machine.execCompletionSignal job s
  | .jobStopComplete job => Sys2Proof.Machine.execJobStopComplete job s
  | .stopSettleTimeout job => Sys2Proof.Machine.execStopSettleTimeout job s
  | .cnop t => Sys2Proof.Machine.execCnop t s
  | .loop t index => Sys2Proof.Machine.execLoop t index s
  | .waitr t row count anyAccess => Sys2Proof.Machine.execWaitr t row count anyAccess s
  | .waitall t => Sys2Proof.Machine.execWaitall t s
  | .bar t barrier => Sys2Proof.Machine.execBar t barrier s
  | .halt t => Sys2Proof.Machine.execHalt t s
  | .wnop t => Sys2Proof.Machine.execWnop t s
  | .vadd t vd va vb qm => Sys2Proof.Machine.execVadd t vd va vb qm s
  | .vsub t vd va vb qm => Sys2Proof.Machine.execVsub t vd va vb qm s
  | .vneg t vd va qm => Sys2Proof.Machine.execVneg t vd va qm s
  | .vred t vd va qm => Sys2Proof.Machine.execVred t vd va qm s
  | .vaddk t vd va sk qm => Sys2Proof.Machine.execVaddk t vd va sk qm s
  | .vmul t vd va vb qm => Sys2Proof.Machine.execVmul t vd va vb qm s
  | .vmulk t vd va sk qm => Sys2Proof.Machine.execVmulk t vd va sk qm s
  | .vmad t vd va vb vc qm => Sys2Proof.Machine.execVmad t vd va vb vc qm s
  | .vmsb t vd va vb vc qm => Sys2Proof.Machine.execVmsb t vd va vb vc qm s
  | .wResultWrite t vd => Sys2Proof.Machine.execWResultWrite t vd s
  | .mnop t => Sys2Proof.Machine.execMnop t s
  | .mld t v sb row consume ecc => Sys2Proof.Machine.execMld t v sb row consume ecc s
  | .mst t v sb row waitEmpty => Sys2Proof.Machine.execMst t v sb row waitEmpty s
  | .mstWriteLand t row => Sys2Proof.Machine.execMstWriteLand t row s
  | .mrel t sb row => Sys2Proof.Machine.execMrel t sb row s
  | .xnop t => Sys2Proof.Machine.execXnop t s
  | .xli t sd imm => Sys2Proof.Machine.execXli t sd imm s
  | .xlui t sd imm => Sys2Proof.Machine.execXlui t sd imm s
  | .xaddi t sd sa imm => Sys2Proof.Machine.execXaddi t sd sa imm s
  | .xadd t sd sa sb => Sys2Proof.Machine.execXadd t sd sa sb s
  | .xsub t sd sa sb => Sys2Proof.Machine.execXsub t sd sa sb s
  | .xmul t sd sa sb => Sys2Proof.Machine.execXmul t sd sa sb s
  | .xand t sd sa sb => Sys2Proof.Machine.execXand t sd sa sb s
  | .xor t sd sa sb => Sys2Proof.Machine.execXor t sd sa sb s
  | .xxor t sd sa sb => Sys2Proof.Machine.execXxor t sd sa sb s
  | .xshl t sd sa imm => Sys2Proof.Machine.execXshl t sd sa imm s
  | .xshr t sd sa imm => Sys2Proof.Machine.execXshr t sd sa imm s
  | .xidx t sd level => Sys2Proof.Machine.execXidx t sd level s
  | .xldn t sd sa imm ecc => Sys2Proof.Machine.execXldn t sd sa imm ecc s
  | .xstn t sd sa imm ecc => Sys2Proof.Machine.execXstn t sd sa imm ecc s
  | .qload t qd setId limb => Sys2Proof.Machine.execQload t qd setId limb s
  | .icacheLineFill t line => Sys2Proof.Machine.execIcacheLineFill t line s
  | .eccFreezeEnd t => Sys2Proof.Machine.execEccFreezeEnd t s
  | .ntt t index sa => Sys2Proof.Machine.execNtt t index sa s
  | .automorph t index sa => Sys2Proof.Machine.execAutomorph t index sa s
  | .transpose t index sa => Sys2Proof.Machine.execTranspose t index sa s
  | .bconv t index sa => Sys2Proof.Machine.execBconv t index sa s
  | .rescale t index sa => Sys2Proof.Machine.execRescale t index sa s
  | .ksip t index sa => Sys2Proof.Machine.execKsip t index sa s
  | .moddown t index sa => Sys2Proof.Machine.execModdown t index sa s
  | .ledger t index sa => Sys2Proof.Machine.execLedger t index sa s
  | .xferIn t index sa => Sys2Proof.Machine.execXferIn t index sa s
  | .xferOut t index sa => Sys2Proof.Machine.execXferOut t index sa s
  | .keystreamOpen t index sa => Sys2Proof.Machine.execKeystreamOpen t index sa s
  | .batchBootstrap t index sa => Sys2Proof.Machine.execBatchBootstrap t index sa s
  | .extract t index sa => Sys2Proof.Machine.execExtract t index sa s
  | .pack t index sa => Sys2Proof.Machine.execPack t index sa s
  | .modraise t index sa => Sys2Proof.Machine.execModraise t index sa s
  | .lopSignal t index sa => Sys2Proof.Machine.execLopSignal t index sa s
  | .lopFence t index sa => Sys2Proof.Machine.execLopFence t index sa s
  | .longOpDispatch t engine => Sys2Proof.Machine.execLongOpDispatch t engine s
  | .longOpFinish t opId ecc => Sys2Proof.Machine.execLongOpFinish t opId ecc s
  | .constantLineFill t line => Sys2Proof.Machine.execConstantLineFill t line s
  | .fetchRowWrite t opId data ecc => Sys2Proof.Machine.execFetchRowWrite t opId data ecc s
  | .xferVerifyMatch t opId => Sys2Proof.Machine.execXferVerifyMatch t opId s
  | .signalCompletion t opId status => Sys2Proof.Machine.execSignalCompletion t opId status s
  | .waitTimeout t unit row => Sys2Proof.Machine.execWaitTimeout t unit row s
  | .barrierArrive t => Sys2Proof.Machine.execBarrierArrive t s
  | .barrierRelease job => Sys2Proof.Machine.execBarrierRelease job s
  | .barrierTimeout barrier => Sys2Proof.Machine.execBarrierTimeout barrier s
  | .convStart ctx => Sys2Proof.Machine.execConvStart ctx s
  | .convCancel ctx => Sys2Proof.Machine.execConvCancel ctx s
  | .convComplete status remote => Sys2Proof.Machine.execConvComplete status remote s
  | .streamSlotBind => Sys2Proof.Machine.execStreamSlotBind s
  | .rateWindow => Sys2Proof.Machine.execRateWindow s
  | .keyHeaderCheck slot granule => Sys2Proof.Machine.execKeyHeaderCheck slot granule s
  | .keyRowWrite slot data => Sys2Proof.Machine.execKeyRowWrite slot data s
  | .uniformRowWrite slot t => Sys2Proof.Machine.execUniformRowWrite slot t s
  | .keyTrailerCheck slot trailer => Sys2Proof.Machine.execKeyTrailerCheck slot trailer s
  | .streamReadFail slot error => Sys2Proof.Machine.execStreamReadFail slot error s
  | .mcastWindowSend slot => Sys2Proof.Machine.execMcastWindowSend slot s
  | .mcastCreditTimeout slot => Sys2Proof.Machine.execMcastCreditTimeout slot s
  | .mcastIdleTimeout slot => Sys2Proof.Machine.execMcastIdleTimeout slot s
  | .narrowRead ctx ecc => Sys2Proof.Machine.execNarrowRead ctx ecc s
  | .narrowWrite ctx value ecc => Sys2Proof.Machine.execNarrowWrite ctx value ecc s
  | .rowTagClear ctx value => Sys2Proof.Machine.execRowTagClear ctx value s
  | .rowVerifyRead t row pass => Sys2Proof.Machine.execRowVerifyRead t row pass s
  | .rowEccWriteBack t row word => Sys2Proof.Machine.execRowEccWriteBack t row word s
  | .scrubRowRead t ecc => Sys2Proof.Machine.execScrubRowRead t ecc s
  | .windowPutLand t => Sys2Proof.Machine.execWindowPutLand t s
  | .windowGetServe t ecc => Sys2Proof.Machine.execWindowGetServe t ecc s
  | .memRequest controller req => Sys2Proof.Machine.execMemRequest controller req s
  | .bankService controller channel bank ecc => Sys2Proof.Machine.execBankService controller channel bank ecc s
  | .bankRefresh controller channel bank => Sys2Proof.Machine.execBankRefresh controller channel bank s
  | .stackEccWriteBack => Sys2Proof.Machine.execStackEccWriteBack s
  | .poisonRetire => Sys2Proof.Machine.execPoisonRetire s
  | .poisonClear ctx value => Sys2Proof.Machine.execPoisonClear ctx value s
  | .poisonClearWalkEnd => Sys2Proof.Machine.execPoisonClearWalkEnd s
  | .patrolScrub stack channel ecc => Sys2Proof.Machine.execPatrolScrub stack channel ecc s
  | .selfRefreshEntry stack => Sys2Proof.Machine.execSelfRefreshEntry stack s
  | .stackModeWrite ctx value => Sys2Proof.Machine.execStackModeWrite ctx value s
  | .bar2Read offset length secure ecc => Sys2Proof.Machine.execBar2Read offset length secure ecc s
  | .bar2Write offset data secure => Sys2Proof.Machine.execBar2Write offset data secure s
  | .trainExchange port node versions timeParent => Sys2Proof.Machine.execTrainExchange port node versions timeParent s
  | .portRetrain port => Sys2Proof.Machine.execPortRetrain port s
  | .frameReceive port lane linkSeq linkOk frame => Sys2Proof.Machine.execFrameReceive port lane linkSeq linkOk frame s
  | .frameAck port lane linkSeq => Sys2Proof.Machine.execFrameAck port lane linkSeq s
  | .frameRetransmit port lane => Sys2Proof.Machine.execFrameRetransmit port lane s
  | .frameForward port frame => Sys2Proof.Machine.execFrameForward port frame s
  | .fabricPut frame => Sys2Proof.Machine.execFabricPut frame s
  | .fabricGet frame ecc => Sys2Proof.Machine.execFabricGet frame ecc s
  | .addmod frame ecc => Sys2Proof.Machine.execAddmod frame ecc s
  | .fetchadd frame ecc => Sys2Proof.Machine.execFetchadd frame ecc s
  | .fabricSignal frame => Sys2Proof.Machine.execFabricSignal frame s
  | .signalPerform source lane => Sys2Proof.Machine.execSignalPerform source lane s
  | .mcastPut port frame => Sys2Proof.Machine.execMcastPut port frame s
  | .fabricCompletion frame => Sys2Proof.Machine.execFabricCompletion frame s
  | .completionTimeout tag => Sys2Proof.Machine.execCompletionTimeout tag s
  | .issuerFence issuer => Sys2Proof.Machine.execIssuerFence issuer s
  | .arriveFrame barrier epoch child => Sys2Proof.Machine.execArriveFrame barrier epoch child s
  | .releaseFrame barrier epoch => Sys2Proof.Machine.execReleaseFrame barrier epoch s
  | .snapFrame port source ident target => Sys2Proof.Machine.execSnapFrame port source ident target s
  | .timeIdle port time delay => Sys2Proof.Machine.execTimeIdle port time delay s
  | .timeLockLost => Sys2Proof.Machine.execTimeLockLost s
  | .portEnableWrite ctx value => Sys2Proof.Machine.execPortEnableWrite ctx value s
  | .perstAssert => Sys2Proof.Machine.execPerstAssert s
  | .perstRelease => Sys2Proof.Machine.execPerstRelease s
  | .hotReset => Sys2Proof.Machine.execHotReset s
  | .functionLevelReset => Sys2Proof.Machine.execFunctionLevelReset s
  | .configAccess op => Sys2Proof.Machine.execConfigAccess op s
  | .hostPutAck tag => Sys2Proof.Machine.execHostPutAck tag s
  | .hostCompletion tag part status data => Sys2Proof.Machine.execHostCompletion tag part status data s
  | .pcieCompletionTimeout tag part => Sys2Proof.Machine.execPcieCompletionTimeout tag part s
  | .interruptHoldoffEnd vector => Sys2Proof.Machine.execInterruptHoldoffEnd vector s
  | .ideCheckFailed selective => Sys2Proof.Machine.execIdeCheckFailed selective s
  | .doeDiscovery index => Sys2Proof.Machine.execDoeDiscovery index s
  | .getVersion => Sys2Proof.Machine.execGetVersion s
  | .getCapabilities => Sys2Proof.Machine.execGetCapabilities s
  | .negotiateAlgorithms p384 sha384 secp384r1 aes256gcm => Sys2Proof.Machine.execNegotiateAlgorithms p384 sha384 secp384r1 aes256gcm s
  | .getDigests => Sys2Proof.Machine.execGetDigests s
  | .getCertificate slot offset length => Sys2Proof.Machine.execGetCertificate slot offset length s
  | .challenge slot nonce => Sys2Proof.Machine.execChallenge slot nonce s
  | .getMeasurements index signed nonce => Sys2Proof.Machine.execGetMeasurements index signed nonce s
  | .keyExchange sessionId => Sys2Proof.Machine.execKeyExchange sessionId s
  | .spdmFinish sessionId verified => Sys2Proof.Machine.execSpdmFinish sessionId verified s
  | .heartbeat sessionId => Sys2Proof.Machine.execHeartbeat sessionId s
  | .keyUpdate sessionId => Sys2Proof.Machine.execKeyUpdate sessionId s
  | .endSession sessionId => Sys2Proof.Machine.execEndSession sessionId s
  | .vendorDefinedRequest sessionId selective => Sys2Proof.Machine.execVendorDefinedRequest sessionId selective s
  | .powerSample inputMw voltageMv currentMa => Sys2Proof.Machine.execPowerSample inputMw voltageMv currentMa s
  | .overBudgetStep => Sys2Proof.Machine.execOverBudgetStep s
  | .holdLimitExpiry => Sys2Proof.Machine.execHoldLimitExpiry s
  | .raiseCheck => Sys2Proof.Machine.execRaiseCheck s
  | .pointChange job => Sys2Proof.Machine.execPointChange job s
  | .thermalStep t temp16 => Sys2Proof.Machine.execThermalStep t temp16 s
  | .thermalTrip t temp16 => Sys2Proof.Machine.execThermalTrip t temp16 s
  | .tileSleepEntry t bundlesToBar => Sys2Proof.Machine.execTileSleepEntry t bundlesToBar s
  | .tileWake t => Sys2Proof.Machine.execTileWake t s
  | .deepIdleEnter ctx => Sys2Proof.Machine.execDeepIdleEnter ctx s
  | .deepIdleLeave ctx => Sys2Proof.Machine.execDeepIdleLeave ctx s
  | .deepIdleAuto => Sys2Proof.Machine.execDeepIdleAuto s
  | .hssTreePrepare => Sys2Proof.Machine.execHssTreePrepare s
  | .activateHost ctx => Sys2Proof.Machine.execActivateHost ctx s
  | .activateFull ctx => Sys2Proof.Machine.execActivateFull ctx s
  | .commitSvn ctx value => Sys2Proof.Machine.execCommitSvn ctx value s
  | .pkeClaim ctx value => Sys2Proof.Machine.execPkeClaim ctx value s
  | .pkeFree ctx => Sys2Proof.Machine.execPkeFree ctx s
  | .pkeSlotWrite ctx slot data => Sys2Proof.Machine.execPkeSlotWrite ctx slot data s
  | .modAdd ctx d a b m len => Sys2Proof.Machine.execModAdd ctx d a b m len s
  | .modSub ctx d a b m len => Sys2Proof.Machine.execModSub ctx d a b m len s
  | .modMul ctx d a b m len => Sys2Proof.Machine.execModMul ctx d a b m len s
  | .modInv ctx d a m len => Sys2Proof.Machine.execModInv ctx d a m len s
  | .modExp ctx d a b m len => Sys2Proof.Machine.execModExp ctx d a b m len s
  | .p384Add ctx d a b => Sys2Proof.Machine.execP384Add ctx d a b s
  | .p384Double ctx d a => Sys2Proof.Machine.execP384Double ctx d a s
  | .p384Mul ctx d a b => Sys2Proof.Machine.execP384Mul ctx d a b s
  | .p384Check ctx a => Sys2Proof.Machine.execP384Check ctx a s
  | .keyGenerate ctx d handle persist => Sys2Proof.Machine.execKeyGenerate ctx d handle persist s
  | .keyLoad ctx d handle => Sys2Proof.Machine.execKeyLoad ctx d handle s
  | .keyErase ctx handle => Sys2Proof.Machine.execKeyErase ctx handle s
  | .pkeCommandComplete => Sys2Proof.Machine.execPkeCommandComplete s
  | .checkStart ctx => Sys2Proof.Machine.execCheckStart ctx s
  | .checkResume ctx => Sys2Proof.Machine.execCheckResume ctx s
  | .checkCancel ctx => Sys2Proof.Machine.execCheckCancel ctx s
  | .checkRunComplete status remote => Sys2Proof.Machine.execCheckRunComplete status remote s
  | .contextWrite ctx context sub value => Sys2Proof.Machine.execContextWrite ctx context sub value s
  | .leaseRenew t => Sys2Proof.Machine.execLeaseRenew t s
  | .leaseTimeout t granter => Sys2Proof.Machine.execLeaseTimeout t granter s
  | .tileRecoveryTimeout t => Sys2Proof.Machine.execTileRecoveryTimeout t s
  | .watchdogKick => Sys2Proof.Machine.execWatchdogKick s
  | .watchdogExpiry => Sys2Proof.Machine.execWatchdogExpiry s
  | .snapImmediate ctx => Sys2Proof.Machine.execSnapImmediate ctx s
  | .snapTimed ctx => Sys2Proof.Machine.execSnapTimed ctx s
  | .snapBroadcast ctx => Sys2Proof.Machine.execSnapBroadcast ctx s
  | .snapshotLatch => Sys2Proof.Machine.execSnapshotLatch s
  | .snapshotCopyComplete => Sys2Proof.Machine.execSnapshotCopyComplete s
  | .coldStart => Sys2Proof.Machine.execColdStart s
  | .resetWarm ctx => Sys2Proof.Machine.execResetWarm ctx s
  | .resetHostOff ctx => Sys2Proof.Machine.execResetHostOff ctx s
  | .resetHostPower ctx => Sys2Proof.Machine.execResetHostPower ctx s
  | .resetFull ctx => Sys2Proof.Machine.execResetFull ctx s
  | .inputOutOfRange millivolts => Sys2Proof.Machine.execInputOutOfRange millivolts s
  | .inputRecovery => Sys2Proof.Machine.execInputRecovery s
  | .fieldPowerLoss => Sys2Proof.Machine.execFieldPowerLoss s
  | .sensorUpdate readings => Sys2Proof.Machine.execSensorUpdate readings s
  | .dtpGroup session seq op => Sys2Proof.Machine.execDtpGroup session seq op s
  | .dictRead ctx offset size => Sys2Proof.Machine.execDictRead ctx offset size s
  | .hostLinkUp speed width flit tagLimit => Sys2Proof.Machine.execHostLinkUp speed width flit tagLimit s
  | .unsupportedRequest kind => Sys2Proof.Machine.execUnsupportedRequest kind s
  | .selfRefreshPatrolWake stack => Sys2Proof.Machine.execSelfRefreshPatrolWake stack s

end Sys2Proof.Machine
end

