-- ==== Sys2Proof/Machine/Tick.lean ====
section
/-! DEFINITION. What a nanosecond without a command does (log entry 1). -/

namespace Sys2Proof.Machine

/-- A slewing device adds or drops 1 ns, at most once in 10 us (R322). -/
def State.slewStep (s : State) : State :=
  if s.slewLeft = 0 ∨ s.now < s.slewAt + 10000 then s
  else
    let d : Int := if 0 < s.slewLeft then 1 else -1
    { s with timeOffset := s.timeOffset + d, slewLeft := s.slewLeft - d, slewAt := s.now }

/-- The block idles: one nanosecond passes (log entry 1). Global time slews, a restart that is due ends,
the journal's writes to other nodes leave once their link is up, and operations that a triple held back are performed (R311). -/
def State.idleTick (s : State) : State := (((({ s with now := s.now + 1 }).slewStep).restartTick).sendReplay).drainBehind

end Sys2Proof.Machine
end

