-- ==== Sys2Proof/WellFormed.lean ====
section
/-! DEFINITION. Which commands name units and fields the module has: one check per kind of operand. -/

namespace Sys2Proof

/-- A tile number (R3). -/
def isTile (t : Nat) : Bool := t < 64

/-- A job slot number (R251). -/
def isJob (j : Nat) : Bool := j < 16

/-- A fabric port (R300). -/
def isPort (p : Nat) : Bool := p < 16

/-- A link lane: the four virtual lanes and the response lane (R301). -/
def isLane (l : Nat) : Bool := l < 5

/-- A memory stack, which has one controller (R276). -/
def isStack (k : Nat) : Bool := k < 8

/-- A channel of a stack (R276). -/
def isChannel (c : Nat) : Bool := c < 128

/-- A stream slot of Geyser (R177). -/
def isStream (k : Nat) : Bool := k < 16

/-- A barrier ID (R319). -/
def isBarrier (b : Nat) : Bool := b < 64

/-- An access context: BAR0, the supervisor, a DTP session, a fabric node (R36). -/
def isCtx (c : Nat) : Bool := c < 2 || (16 ≤ c && c < 0x10000 + 16384)

/-- A sequence number of the gate (R13). -/
def isSeq (n : Nat) : Bool := n < 65536

/-- A sequence number of DTP (Table 2-4). -/
def isDtpSeq (n : Nat) : Bool := n < 2 ^ 32

/-- An entry's offset lies in the dictionary (R10). -/
def isEntryOffset (a : Nat) : Bool := a < 0x8000000

/-- A vector register (R193). -/
def isVreg (v : Nat) : Bool := v < 32

/-- A sequencer register (R193). -/
def isSreg (r : Nat) : Bool := r < 32

/-- A modulus register (R87). -/
def isQreg (q : Nat) : Bool := q < 16

/-- A row of the scratchpad (R259). -/
def isRow (r : Nat) : Bool := r < 3072

/-- A slot of the public-key engine (R382). -/
def isPkeSlot (a : Nat) : Bool := a < 16

/-- A check-value context: 4 of each of the 24 units (R386). -/
def isCheckContext (n : Nat) : Bool := n < 96

/-- A key-store handle (R383). -/
def isHandle (h : Nat) : Bool := h < 32

/-- A frame's fields fit the header of Table 14-4. -/
def Frame.fits (f : Frame) : Bool :=
  f.version < 256 && f.opcode < 256 && f.vl < 4 && f.hops < 256 && f.mcastGroup < 256 && f.seq < 65536 && f.operand < 2 ^ 64
    && f.tag < 2 ^ 32 && f.source < 65536 && f.target < 65536 && f.address < 2 ^ 64

/-- A memory request moves 1 to 1,024 bytes, and a write as many as it says (R283). -/
def MemReq.fits (r : MemReq) : Bool :=
  0 < r.length && r.length ≤ 1024 && (match r.write with | none => true | some d => d.length = r.length)

/-- Max_Payload_Size and Max_Read_Request_Size are powers of two from 128 to 4,096 bytes (Table 15-1). -/
def ConfigOp.fits : ConfigOp → Bool
  | .deviceControl p r => [128, 256, 512, 1024, 2048, 4096].contains p && [128, 256, 512, 1024, 2048, 4096].contains r
  | _ => true

/-- A granule read's error word is one of its eight (R292); a row's is one of its 256 (R269). -/
def Ecc.fits (words : Nat) : Ecc → Bool
  | .clean => true
  | .corrected w => w < words
  | .uncorrectable w => w < words
  | .tagCopy => true

/-- The entries that a DICT_REQUEST names lie in the dictionary, and its segment fits a message (R13, Table 2-5). -/
def GateAccess.fits : GateAccess → Bool
  | .entries l => l.all fun p => isEntryOffset p.1
  | .segmentRead o _ n => isEntryOffset o && n ≤ 4096
  | .segmentWrite o _ d _ => isEntryOffset o && d.length ≤ 4096
  | .store l => l.all fun p => isEntryOffset p.1
  | .storeSegment o _ _ d => isEntryOffset o && d.length ≤ 4096

/-- Whether a command is well formed. -/
def Instr.wellFormed : Instr → Bool
  | .dictRequest _ seq ctx access => isSeq seq && isCtx ctx && access.fits
  | .dictResponse _ seq _ _ => isSeq seq
  | .eventNotice _ => true
  | .snapshotTrigger target => target < 2 ^ 64
  | .powerDomainCmd seq _ _ => isSeq seq
  | .resetCmd seq kind cause => isSeq seq && kind < 256 && cause < 65536
  | .firmwareBlock seq _ _ => isSeq seq
  | .keepalive _ => true
  | .gateMessageDiscarded _ type _ _ => type < 256
  | .keepaliveSend _ => true
  | .gateResendTimeout _ seq => isSeq seq
  | .gateMessageGivenUp _ seq => isSeq seq
  | .gateDown _ => true
  | .dictWrite ctx _ size _ => isCtx ctx && (size = 4 || size = 8 || size = 0)
  | .groupOpen ctx => isCtx ctx
  | .groupCommit ctx => isCtx ctx
  | .groupAbort ctx => isCtx ctx
  | .groupEpochTimeout ctx => isCtx ctx
  | .groupIdleTimeout ctx => isCtx ctx
  | .contextRelease ctx => isCtx ctx
  | .transferIdleTimeout ctx => isCtx ctx
  | .persistRecordWrite => true
  | .startRead ctx => isCtx ctx
  | .startWrite ctx => isCtx ctx
  | .commitSegment ctx => isCtx ctx
  | .segmentFinish ctx => isCtx ctx
  | .segmentCancel ctx => isCtx ctx
  | .restoreDefaults ctx _ => isCtx ctx
  | .setUnload ctx id => isCtx ctx && id < 256
  | .dtpHello port _ _ _ => port < 65536
  | .dtpRead _ seq addrs => isDtpSeq seq && addrs.all isEntryOffset
  | .dtpWrite _ seq pairs => isDtpSeq seq && pairs.all fun p => isEntryOffset p.1
  | .dtpSegmentRead _ seq addr _ _ => isDtpSeq seq && isEntryOffset addr
  | .dtpSegmentWrite _ seq addr _ _ _ => isDtpSeq seq && isEntryOffset addr
  | .dtpClose _ seq => isDtpSeq seq
  | .dtpDatagramRejected _ seq _ => isDtpSeq seq
  | .dtpSessionIdleTimeout _ => true
  | .jobLoad ctx j => isCtx ctx && isJob j
  | .admissionCheck => true
  | .jobStart ctx j => isCtx ctx && isJob j
  | .descriptorBind j => isJob j
  | .jobAbort ctx j => isCtx ctx && isJob j
  | .jobAbortCleanup j => isJob j
  | .jobRelease ctx j => isCtx ctx && isJob j
  | .jobRearm ctx j => isCtx ctx && isJob j
  | .jobCommit j => isJob j
  | .descriptorValidWrite j _ => isJob j
  | .completionSignal j => isJob j
  | .jobStopComplete j => isJob j
  | .stopSettleTimeout j => isJob j
  | .cnop t => isTile t
  | .loop t index => isTile t && index < 1024
  | .waitr t row _ _ => isTile t && isRow row
  | .waitall t => isTile t
  | .bar t barrier => isTile t && isBarrier barrier
  | .halt t => isTile t
  | .wnop t => isTile t
  | .vadd t vd va vb qm => isTile t && isVreg vd && isVreg va && isVreg vb && isQreg qm
  | .vsub t vd va vb qm => isTile t && isVreg vd && isVreg va && isVreg vb && isQreg qm
  | .vneg t vd va qm => isTile t && isVreg vd && isVreg va && isQreg qm
  | .vred t vd va qm => isTile t && isVreg vd && isVreg va && isQreg qm
  | .vaddk t vd va sk qm => isTile t && isVreg vd && isVreg va && isSreg sk && isQreg qm
  | .vmul t vd va vb qm => isTile t && isVreg vd && isVreg va && isVreg vb && isQreg qm
  | .vmulk t vd va sk qm => isTile t && isVreg vd && isVreg va && isSreg sk && isQreg qm
  | .vmad t vd va vb vc qm => isTile t && isVreg vd && isVreg va && isVreg vb && isVreg vc && isQreg qm
  | .vmsb t vd va vb vc qm => isTile t && isVreg vd && isVreg va && isVreg vb && isVreg vc && isQreg qm
  | .wResultWrite t vd => isTile t && isVreg vd
  | .mnop t => isTile t
  | .mld t v sb _ _ ecc => isTile t && isVreg v && isSreg sb && ecc.fits 256
  | .mst t v sb _ _ => isTile t && isVreg v && isSreg sb
  | .mstWriteLand t row => isTile t && isRow row
  | .mrel t sb _ => isTile t && isSreg sb
  | .xnop t => isTile t
  | .xli t sd _ => isTile t && isSreg sd
  | .xlui t sd _ => isTile t && isSreg sd
  | .xaddi t sd sa _ => isTile t && isSreg sd && isSreg sa
  | .xadd t sd sa sb => isTile t && isSreg sd && isSreg sa && isSreg sb
  | .xsub t sd sa sb => isTile t && isSreg sd && isSreg sa && isSreg sb
  | .xmul t sd sa sb => isTile t && isSreg sd && isSreg sa && isSreg sb
  | .xand t sd sa sb => isTile t && isSreg sd && isSreg sa && isSreg sb
  | .xor t sd sa sb => isTile t && isSreg sd && isSreg sa && isSreg sb
  | .xxor t sd sa sb => isTile t && isSreg sd && isSreg sa && isSreg sb
  | .xshl t sd sa _ => isTile t && isSreg sd && isSreg sa
  | .xshr t sd sa _ => isTile t && isSreg sd && isSreg sa
  | .xidx t sd _ => isTile t && isSreg sd
  | .xldn t sd sa _ ecc => isTile t && isSreg sd && isSreg sa && ecc.fits 256
  | .xstn t sd sa _ ecc => isTile t && isSreg sd && isSreg sa && ecc.fits 256
  | .qload t qd setId limb => isTile t && isQreg qd && setId < 256 && limb < 256
  | .icacheLineFill t _ => isTile t
  | .eccFreezeEnd t => isTile t
  | .ntt t _ sa => isTile t && isSreg sa
  | .automorph t _ sa => isTile t && isSreg sa
  | .transpose t _ sa => isTile t && isSreg sa
  | .bconv t _ sa => isTile t && isSreg sa
  | .rescale t _ sa => isTile t && isSreg sa
  | .ksip t _ sa => isTile t && isSreg sa
  | .moddown t _ sa => isTile t && isSreg sa
  | .ledger t _ sa => isTile t && isSreg sa
  | .xferIn t _ sa => isTile t && isSreg sa
  | .xferOut t _ sa => isTile t && isSreg sa
  | .keystreamOpen t _ sa => isTile t && isSreg sa
  | .batchBootstrap t _ sa => isTile t && isSreg sa
  | .extract t _ sa => isTile t && isSreg sa
  | .pack t _ sa => isTile t && isSreg sa
  | .modraise t _ sa => isTile t && isSreg sa
  | .lopSignal t _ sa => isTile t && isSreg sa
  | .lopFence t _ sa => isTile t && isSreg sa
  | .longOpDispatch t _ => isTile t
  | .longOpFinish t _ ecc => isTile t && ecc.fits 786432
  | .constantLineFill t _ => isTile t
  | .fetchRowWrite t _ _ ecc => isTile t && ecc.fits 65536
  | .xferVerifyMatch t _ => isTile t
  | .signalCompletion t _ _ => isTile t
  | .waitTimeout t _ _ => isTile t
  | .barrierArrive t => isTile t
  | .barrierRelease j => isJob j
  | .barrierTimeout barrier => isBarrier barrier
  | .convStart ctx => isCtx ctx
  | .convCancel ctx => isCtx ctx
  | .convComplete _ _ => true
  | .streamSlotBind => true
  | .rateWindow => true
  | .keyHeaderCheck slot _ => isStream slot
  | .keyRowWrite slot _ => isStream slot
  | .uniformRowWrite slot t => isStream slot && isTile t
  | .keyTrailerCheck slot _ => isStream slot
  | .streamReadFail slot _ => isStream slot
  | .mcastWindowSend slot => isStream slot
  | .mcastCreditTimeout slot => isStream slot
  | .mcastIdleTimeout slot => isStream slot
  | .narrowRead ctx ecc => isCtx ctx && ecc.fits 256
  | .narrowWrite ctx _ ecc => isCtx ctx && ecc.fits 256
  | .rowTagClear ctx _ => isCtx ctx
  | .rowVerifyRead t row _ => isTile t && isRow row
  | .rowEccWriteBack t row word => isTile t && isRow row && word < 256
  | .scrubRowRead t ecc => isTile t && ecc.fits 256
  | .windowPutLand t => isTile t
  | .windowGetServe t ecc => isTile t && ecc.fits 256
  | .memRequest k req => isStack k && req.fits
  | .bankService k channel bank ecc => isStack k && isChannel channel && bank < 32 && ecc.fits 8
  | .bankRefresh k channel bank => isStack k && isChannel channel && bank < 32
  | .stackEccWriteBack => true
  | .poisonRetire => true
  | .poisonClear ctx _ => isCtx ctx
  | .poisonClearWalkEnd => true
  | .patrolScrub k channel ecc => isStack k && isChannel channel && ecc.fits 8
  | .selfRefreshEntry k => isStack k
  | .stackModeWrite ctx _ => isCtx ctx
  | .bar2Read _ length _ _ => length ≤ 4096
  | .bar2Write _ data _ => data.length ≤ 4096
  | .trainExchange p node _ _ => isPort p && node < 65536
  | .portRetrain p => isPort p
  | .frameReceive p l _ _ f => isPort p && isLane l && f.fits
  | .frameAck p l _ => isPort p && isLane l
  | .frameRetransmit p l => isPort p && isLane l
  | .frameForward p f => isPort p && f.fits
  | .fabricPut f => f.fits
  | .fabricGet f _ => f.fits
  | .addmod f _ => f.fits
  | .fetchadd f _ => f.fits
  | .fabricSignal f => f.fits
  | .signalPerform source l => source < 65536 && isLane l
  | .mcastPut p f => isPort p && f.fits
  | .fabricCompletion f => f.fits
  | .completionTimeout _ => true
  | .issuerFence _ => true
  | .arriveFrame barrier _ _ => isBarrier barrier
  | .releaseFrame barrier _ => isBarrier barrier
  | .snapFrame p source _ _ => isPort p && source < 65536
  | .timeIdle p _ _ => isPort p
  | .timeLockLost => true
  | .portEnableWrite ctx _ => isCtx ctx
  | .perstAssert => true
  | .perstRelease => true
  | .hotReset => true
  | .functionLevelReset => true
  | .configAccess op => op.fits
  | .hostPutAck _ => true
  | .hostCompletion _ _ _ _ => true
  | .pcieCompletionTimeout _ _ => true
  | .interruptHoldoffEnd vector => vector < 64
  | .ideCheckFailed _ => true
  | .doeDiscovery index => index < 256
  | .getVersion => true
  | .getCapabilities => true
  | .negotiateAlgorithms _ _ _ _ => true
  | .getDigests => true
  | .getCertificate slot _ _ => slot < 8
  | .challenge slot nonce => slot < 8 && nonce.length = 32
  | .getMeasurements index _ _ => index < 256
  | .keyExchange _ => true
  | .spdmFinish _ _ => true
  | .heartbeat _ => true
  | .keyUpdate _ => true
  | .endSession _ => true
  | .vendorDefinedRequest _ _ => true
  | .powerSample _ _ _ => true
  | .overBudgetStep => true
  | .holdLimitExpiry => true
  | .raiseCheck => true
  | .pointChange j => isJob j
  | .thermalStep t _ => isTile t
  | .thermalTrip t _ => isTile t
  | .tileSleepEntry t _ => isTile t
  | .tileWake t => isTile t
  | .deepIdleEnter ctx => isCtx ctx
  | .deepIdleLeave ctx => isCtx ctx
  | .deepIdleAuto => true
  | .hssTreePrepare => true
  | .activateHost ctx => isCtx ctx
  | .activateFull ctx => isCtx ctx
  | .commitSvn ctx _ => isCtx ctx
  | .pkeClaim ctx _ => isCtx ctx
  | .pkeFree ctx => isCtx ctx
  | .pkeSlotWrite ctx slot _ => isCtx ctx && isPkeSlot slot
  | .modAdd ctx d a b m _ => isCtx ctx && isPkeSlot d && isPkeSlot a && isPkeSlot b && isPkeSlot m
  | .modSub ctx d a b m _ => isCtx ctx && isPkeSlot d && isPkeSlot a && isPkeSlot b && isPkeSlot m
  | .modMul ctx d a b m _ => isCtx ctx && isPkeSlot d && isPkeSlot a && isPkeSlot b && isPkeSlot m
  | .modInv ctx d a m _ => isCtx ctx && isPkeSlot d && isPkeSlot a && isPkeSlot m
  | .modExp ctx d a b m _ => isCtx ctx && isPkeSlot d && isPkeSlot a && isPkeSlot b && isPkeSlot m
  | .p384Add ctx d a b => isCtx ctx && isPkeSlot d && isPkeSlot a && isPkeSlot b
  | .p384Double ctx d a => isCtx ctx && isPkeSlot d && isPkeSlot a
  | .p384Mul ctx d a b => isCtx ctx && isPkeSlot d && isPkeSlot a && isPkeSlot b
  | .p384Check ctx a => isCtx ctx && isPkeSlot a
  | .keyGenerate ctx d h _ => isCtx ctx && isPkeSlot d && isHandle h
  | .keyLoad ctx d h => isCtx ctx && isPkeSlot d && isHandle h
  | .keyErase ctx h => isCtx ctx && isHandle h
  | .pkeCommandComplete => true
  | .checkStart ctx => isCtx ctx
  | .checkResume ctx => isCtx ctx
  | .checkCancel ctx => isCtx ctx
  | .checkRunComplete _ _ => true
  | .contextWrite ctx context _ _ => isCtx ctx && isCheckContext context
  | .leaseRenew t => isTile t
  | .leaseTimeout t granter => isTile t && isTile granter
  | .tileRecoveryTimeout t => isTile t
  | .watchdogKick => true
  | .watchdogExpiry => true
  | .snapImmediate ctx => isCtx ctx
  | .snapTimed ctx => isCtx ctx
  | .snapBroadcast ctx => isCtx ctx
  | .snapshotLatch => true
  | .snapshotCopyComplete => true
  | .coldStart => true
  | .resetWarm ctx => isCtx ctx
  | .resetHostOff ctx => isCtx ctx
  | .resetHostPower ctx => isCtx ctx
  | .resetFull ctx => isCtx ctx
  | .inputOutOfRange _ => true
  | .inputRecovery => true
  | .fieldPowerLoss => true
  | .sensorUpdate readings => readings.stackTemps.length = 8 && readings.engineTemps.length = 18 && readings.junctionTemps.length = 64
  | .dtpGroup _ seq _ => isDtpSeq seq
  | .dictRead ctx _ size => isCtx ctx && (size = 4 || size = 8 || size = 0)
  | .hostLinkUp speed width _ tagLimit => speed < 256 && width < 256 && tagLimit < 65536
  | .unsupportedRequest _ => true
  | .selfRefreshPatrolWake k => isStack k

end Sys2Proof
end

