-- ==== Sys2Proof/Safety.lean ====
section
/-! DEFINITION. What counts as a safe run, and the conditions that statements about commands name. -/

namespace Sys2Proof

open Sys2Proof.Machine

/-- Every command that waits is well formed. -/
def Safety.queueOk (s : State) : Bool := s.pending.all Instr.wellFormed

/-- The machine goes on for `n` steps from `s`. -/
def Safety.runs (n : Nat) (s : State) : Prop := ∃ t, core.run n s = .next t

/-- A host-side context (BAR0, the supervisor) whose accesses the dictionary serves: the device is READY and not in recovery (R48, R373),
no secure stream is asked for and missing (R338), the gate is up (R19), and no earlier access of the context waits for Fumarole (R47). -/
def Safety.served (s : State) (ctx : Nat) : Bool :=
  s.ready && !s.recovery && decide (ctx < 16) && !s.bar0Insecure ctx && !s.hostGate.down && !s.awaits ctx

/-- A served context that has no open group, so that a write takes effect at once (R37). -/
def Safety.direct (s : State) (ctx : Nat) : Bool := Safety.served s ctx && decide ((s.context ctx).groupState ≠ 1)

/-- The outcome that the context of an access shows after it (R46). -/
def Safety.outcome (s : State) (ctx index sub code : Nat) : Prop :=
  (s.context ctx).lastStatus = code ∧ (s.context ctx).lastEntry = entryKey index sub

/-- A powered end of the crossing gate that hears and accepts messages: the gate is up there (R13, R16, R19). -/
def Safety.hears (s : State) (e : GateEnd) : Bool := s.gatePowered e && !(s.gateAt e).down

/-- A message whose answer OK leaves nothing to do: persistent values, a segment of PendingImage, or Fumarole's own RESET_CMD. -/
def Safety.onlyRetired (m : GateMsg) : Bool :=
  match m.origin, m.payload with
  | .values .., _ => true
  | .block _, _ => true
  | .fumarole, .reset .. => true
  | _, _ => false

/-- No tile issues, finishes or loses anything: at most what it has counted of a wait changes. -/
def Safety.tilesKeep (s t : State) : Prop :=
  ∀ g, (t.tile g).rows = (s.tile g).rows ∧ (t.tile g).tags = (s.tile g).tags ∧ (t.tile g).sregs = (s.tile g).sregs ∧ (t.tile g).qregs = (s.tile g).qregs
    ∧ (t.tile g).vregs = (s.tile g).vregs ∧ (t.tile g).flight = (s.tile g).flight ∧ (t.tile g).queue = (s.tile g).queue
    ∧ (t.tile g).running = (s.tile g).running ∧ (t.tile g).sched = (s.tile g).sched ∧ (t.tile g).run = (s.tile g).run

/-- Entries whose write starts something beside the new value, or acts in a context alone: each has commands of its own. -/
def Safety.commandEntry (index sub : Nat) : Bool :=
  [0x1020, 0x1030, 0x1038, 0x1070, 0x1110, 0x2010, 0x3480, 0x9110, 0x9200, 0x9210, 0xA040].contains index || isContextLocal index sub
    || [(0x2820, 5), (0x3010, 1), (0x3030, 3), (0x4010, 4), (0x8010, 1), (0xB180, 4)].contains (index, sub)
    || (0x6100 ≤ index && index < 0x6110 && sub = 1) || (0xB100 ≤ index && index < 0xB160)

/-- A request of an open DTP session whose number waits for no answer and is above every one answered, and below the last, which ends its session (R53, R367). -/
abbrev Safety.fresh (s : State) (id seq : Nat) (x : Session) : Prop :=
  s.dtpServed = true ∧ id ≤ 8 ∧ s.session id = some x ∧ x.kept.lookup seq = none ∧ (x.waiting.any fun w => w.seq = seq) = false ∧ (x.highest.any fun h => seq ≤ h) = false ∧
    seq < 0xFFFFFFFF

/-- The header of Table 2-4 on a session's response. -/
abbrev Safety.replyHeader (x : Session) (id seq type length : Nat) : DtpHeader :=
  { version := x.version, type := type, session := id, seq := seq, length := length }

/-- A session's request leaves as a DICT_REQUEST and waits for its answer; nothing is performed yet (R53). -/
def Safety.askedHost (s t : State) (id seq : Nat) (a : GateAccess) : Prop :=
  t.out = s.out ++ [.gate false s.fieldGate.nextSeq (.request (16 + id) a)] ∧ ((t.session id).map fun y => y.waiting.any fun w => w.seq = seq) = some true
    ∧ t.fieldGate.outstanding.map (fun (m : GateMsg) => m.seq) = s.fieldGate.outstanding.map (fun (m : GateMsg) => m.seq) ++ [s.fieldGate.nextSeq]
    ∧ t.dict = s.dict ∧ t.contexts = s.contexts ∧ t.mem = s.mem ∧ t.tiles = s.tiles ∧ t.jobs = s.jobs

/-- A session's accesses reach the dictionary: READY, no recovery, the gate up at both ends (R19, R48, R373). -/
def Safety.dtpReady (s : State) (id : Nat) : Bool :=
  s.ready && !s.recovery && !s.hostGate.down && !s.fieldGate.down && decide (id ≤ 8)

/-- A tile that may issue, with nothing yet presented of its next bundle, whose line is cached: no freeze, no pending miss (R195, R212-R214). -/
abbrev Safety.bundleOpen (s : State) (t : Nat) : Prop :=
  t < 64 ∧ s.mayIssue t = true ∧ (s.tile t).presented = [] ∧ (s.tile t).deferred = [] ∧ (s.tile t).holds = [] ∧ (s.tile t).slotFault = none
    ∧ (s.tile t).missRows = [] ∧ (s.tile t).missAt = [] ∧ (s.tile t).freeze = 0 ∧ (s.tile t).cached ((s.tile t).nextBundle / 4) = true

/-- The slot command `i` is presented and the bundle then issues in one cycle with CNOP, which leaves `s2`: the schedule count rises by one (R208),
and no memory byte, job or other tile changes. -/
def Safety.issuedWith (i : Instr) (s : State) (t : Nat) (s2 : State) : Prop :=
  ∃ s1, exec i s = .next s1 ∧ exec (.cnop t) s1 = .next s2 ∧ (s2.tile t).sched = (s.tile t).sched + 1 ∧ s2.mem = s.mem ∧ s2.jobs = s.jobs
    ∧ ∀ u, u ≠ t → s2.tile u = s.tile u

/-- The bundle of a scalar slot command issues: `sd` takes `v`, S0 keeps reading zero (R193), and no other register, row or tag of the tile changes. -/
def Safety.scalarIssue (i : Instr) (s : State) (t sd : Nat) (v : Word) : Prop :=
  ∃ s2, Safety.issuedWith i s t s2 ∧ (s2.tile t).sreg sd = (if sd = 0 then 0 else v) ∧ (∀ k, k ≠ sd → (s2.tile t).sreg k = (s.tile t).sreg k)
    ∧ (s2.tile t).qregs = (s.tile t).qregs ∧ (s2.tile t).vregs = (s.tile t).vregs ∧ (s2.tile t).flight = (s.tile t).flight
    ∧ (s2.tile t).rows = (s.tile t).rows ∧ (s2.tile t).tags = (s.tile t).tags ∧ s2.dict = s.dict

/-- The bundle of a wide-lane command issues: its result enters the pipeline, readable `lat` schedule counts later, with lane `l` congruent to `f l`
modulo the register's modulus and canonical (R90, R209); no sequencer or modulus register, row or tag changes. -/
def Safety.wideIssue (i : Instr) (s : State) (t vd qm lat : Nat) (f : Nat → Int) : Prop :=
  ∃ s2 d, Safety.issuedWith i s t s2
    ∧ (s2.tile t).flight.getLast? = some { reg := vd, issued := (s.tile t).sched, ready := (s.tile t).sched + lat, value := d }
    ∧ (∀ l, l < 1024 → (Row.lane d l : Int) = f l % (((s.tile t).qreg qm).qval : Int))
    ∧ (s2.tile t).readyAt vd = (s.tile t).sched + lat ∧ (∀ k, k ≠ vd → (s2.tile t).readyAt k = (s.tile t).readyAt k)
    ∧ (s2.tile t).vregs = (s.tile t).vregs ∧ (s2.tile t).sregs = (s.tile t).sregs ∧ (s2.tile t).qregs = (s.tile t).qregs
    ∧ (s2.tile t).rows = (s.tile t).rows ∧ (s2.tile t).tags = (s.tile t).tags ∧ s2.dict = s.dict

/-- A modulus register that is VALID and holds a modulus (R88). -/
abbrev Safety.modulusReady (s : State) (t qm : Nat) : Prop := ((s.tile t).qreg qm).valid = true ∧ 0 < ((s.tile t).qreg qm).qval

/-- A declared row outside every KEY region, that no store in flight names (R204, R206, R210). -/
abbrev Safety.rowFree (s : State) (t row : Nat) : Prop :=
  row < 3072 ∧ s.isDeclared t row = true ∧ s.isKeyRow t row = false ∧ ((s.tile t).stores.any fun m => m.row = row) = false

/-- A LOP bundle of tile `t` that names entry `index` of its job's image: the entry is `op`, what it makes is `o`, and neither check 2 nor check 3
fails, nor is the queue or the scoreboard full (R217, R221). -/
abbrev Safety.lopReady (s : State) (t index sa j : Nat) (im : Image) (op : LongOp) (o : LopInst) : Prop :=
  Safety.bundleOpen s t ∧ s.jobOfTile t = some j ∧ (s.job j).image = some im ∧ im.longOps[index]? = some op
    ∧ o = (s.tile t).instanceOf index op ((s.tile t).sreg sa) ∧ s.lopParams t j im o = none ∧ s.lopAccess t j im o = none ∧ (s.tile t).lopHold o = none

/-- The bundle issues and the operation waits in the queue with its scoreboard entries (R221, R223); no register, row, tag, job or memory byte changes. -/
def Safety.lopQueued (i : Instr) (s : State) (t : Nat) (o : LopInst) : Prop :=
  ∃ s2, exec i s = .next s2 ∧ (s2.tile t).queue = (s.tile t).queue ++ [o] ∧ (s2.tile t).scoreboard = (s.tile t).scoreboard ++ o.entries
    ∧ (s2.tile t).nextOp = (s.tile t).nextOp + 1 ∧ (s2.tile t).sched = (s.tile t).sched + 1 ∧ (s2.tile t).rows = (s.tile t).rows
    ∧ (s2.tile t).tags = (s.tile t).tags ∧ (s2.tile t).sregs = (s.tile t).sregs ∧ (s2.tile t).flight = (s.tile t).flight
    ∧ s2.mem = s.mem ∧ s2.jobs = s.jobs ∧ s2.dict = s.dict ∧ ∀ u, u ≠ t → s2.tile u = s.tile u

/-- A step of a LOP bundle is refused: its error and handle are recorded, the job ends with that error, no operation is queued and no row changes (R74). -/
def Safety.stepRefused (i : Instr) (s : State) (t j code handle : Nat) : Prop :=
  ∃ s2, exec i s = .next s2 ∧ (s2.job j).state = .draining ∧ (s2.job j).drain = .abort ∧ (s2.job j).abortCode = code ∧ (s2.job j).abortTile = t
    ∧ s2.entry (0x2200 + j) 6 = code ∧ s2.entry (0x2200 + j) 7 = handle ∧ (s2.job j).handles = (s.job j).handles
    ∧ (s2.tile t).queue = (s.tile t).queue ∧ (s2.tile t).rows = (s.tile t).rows ∧ (s2.tile t).tags = (s.tile t).tags ∧ s2.mem = s.mem

/-- An operation that runs on a tile of a running job with image `im`. -/
abbrev Safety.lopRuns (s : State) (t opId j : Nat) (im : Image) (o : LopInst) : Prop :=
  t < 64 ∧ (s.tile t).runningOp opId = some o ∧ s.jobOfTile t = some j ∧ (s.job j).image = some im ∧ (s.job j).state = .running

/-- Geyser's operations for a stream can leave: a remote source can be read, and a member's signals go to another device that can be reached (R184, R190). -/
def Safety.sourceReach (s : State) (e : StreamEntry) : Bool :=
  (!(e.sourceKind = 1 || e.sourceKind = 2) || decide (s.issueStatus (nodeOf e.source) 2 (localOf e.source) = OK))
    && (e.sourceKind ≠ 3 || !s.isSelf (nodeOf (Config.mcastCounter e.mcastGroup)))

/-- The same of every stream that has a job's entry. -/
def Safety.sourcesReach (s : State) : Bool :=
  (List.range 16).all fun k => match s.streamEntry (s.stream k) with | some ie => Safety.sourceReach s ie.2 | none => true

/-- The completion of an operation frame, as it leaves for its source through a port, at the version of the port's link (R303, R315). -/
abbrev Safety.completion (s : State) (p : Nat) (f : Frame) (status operand : Nat) (data : List Byte) : Frame :=
  { f with version := s.entry (0x4040 + p) 2, opcode := 0x20, hops := 0, mcastGroup := 0, operand := operand, length := data.length
           source := f.target, target := f.source, address := status, payload := data, crcOk := true }

/-- The operation of a frame is decided: its triple expects the next SEQ, and its completion leaves through the port that leads to its source (R309, R311, R315). -/
def Safety.answered (s s2 : State) (f : Frame) (status operand : Nat) (data : List Byte) : Prop :=
  s2.expectedSeq (frameTriple f) = (f.seq + 1) % 65536
    ∧ ∀ p, s.routePort f.source = some p → s2.out = s.out ++ [.fabric p (Safety.completion s p f status operand data)]

/-- An operation reaches a device that takes it, and nothing of its triple waits there before it (R311). -/
def Safety.inOrder (s : State) (f : Frame) (opcode : Nat) : Bool :=
  s.takes f opcode && !s.tripleHeld (frameTriple f) && !s.behind.any fun p => frameTriple p.1 = frameTriple f

/-- An operation with a good CRC reaches a READY device that takes it, in its turn, on a triple that has not failed (R309, R311, R315). -/
def Safety.arrives (s : State) (f : Frame) (opcode : Nat) : Bool :=
  Safety.inOrder s f opcode && s.ready && f.crcOk && !s.failedTriples.contains (frameTriple f)

/-- The bytes at an address take new values, and no other byte of memory does. -/
def Safety.stores (s s2 : State) (a : Nat) (d : List Byte) : Prop :=
  s2.memBytes a d.length = d ∧ ∀ x, ¬(a ≤ x ∧ x < a + d.length) → s2.memByte x = s.memByte x

/-- Function state at its reset values: the BAR0 context has no open group and no transfer, no request enables, vectors, streams or sessions remain (R327). -/
def Safety.functionFresh (s s2 : State) : Prop :=
  s2.hostLink = { perst := s.hostLink.perst, readyReported := s.hostLink.readyReported, aer := s2.hostLink.aer }
    ∧ (s2.context 0).groupState ≠ 1 ∧ (s2.context 0).transfer = none ∧ s2.entry 0x5040 6 = 0 ∧ s2.entry 0x5040 0x0B = 0 ∧ s2.entry 0x5040 0x0D = 0
    ∧ ((s.remoteOps.any fun r => r.host) = false → s2.mem = s.mem ∧ s2.tiles = s.tiles ∧ s2.jobs = s.jobs)

/-- A signed response: at the rate limit it is RESPONSE_NOT_READY and nothing is signed; where a leaf is left and reads back, the leaf is spent,
one signature is counted, and the response leaves (R363, R364, R369). -/
def Safety.signsOnce (s s2 : State) (name : String) : Prop :=
  (s.signBusy = true → s2.out = s.out ++ [.doe "RESPONSE_NOT_READY" []] ∧ s2.hss = s.hss)
    ∧ (s.signBusy = false → s.signExhausted = false → 0 < s.leavesLeft → Config.leafReadback s.freeCount = OK →
        s2.hss.bottomNext = s.hss.bottomNext + 1 ∧ s2.hss.topNext = s.hss.topNext ∧ s2.entry 0x9000 7 = satAdd (2 ^ 64 - 1) (s.entry 0x9000 7) 1
          ∧ ∃ d, s2.out = s.out ++ [.doe name d])

/-- A group's point is now `x` on each of its tiles, with the projection of its phase at that point; no other group's point changes, and of the jobs
at most the moment up to which a replay has been counted (R80, R345, R353). -/
def Safety.moved (s s2 : State) (j x : Nat) : Prop :=
  s2.groupPoint j = x ∧ s2.inForce j = s.projection j (s.entry (0xA080 + j) 3) x ∧ (∀ t ∈ (s.job j).group, t < 64 → s2.entry (0xA0C0 + t) 2 = x)
    ∧ (∀ k, k < 16 → k ≠ j → s2.groupPoint k = s.groupPoint k) ∧ s2.mem = s.mem ∧ Safety.tilesKeep s s2
    ∧ ∀ k, s2.job k = { s.job k with trapAt := (s2.job k).trapAt }

/-- A context that holds the engine's claim and has no open group, while no command runs and no slot's content is being transferred (R381, R383). -/
def Safety.pkeReady (s : State) (ctx : Nat) : Bool := Safety.direct s ctx && decide (s.pke.claimContext = some ctx) && s.pke.running.isNone && !(List.range 16).any s.slotInUse

/-- A command of the engine is accepted and runs: after `time` ns it will leave `status`, a slot's new content with its SECRET mark, and a change of a key;
until then no slot and no key changes (R383). -/
def Safety.pkeGives (i : Instr) (s : State) (ctx status time : Nat) (dest : Option (Nat × Nat × Bool)) (key : Option (Nat × Option (Nat × Bool))) : Prop :=
  ∃ s2 r, exec i s = .next s2 ∧ s2.pke.running = some r ∧ r.endsAt = s.now + time ∧ r.status = status ∧ r.dest = dest ∧ r.key = key
    ∧ s2.entry 0x9200 3 = PENDING ∧ Safety.outcome s2 ctx 0x9200 2 OK ∧ s2.pke.slots = s.pke.slots ∧ s2.pke.secret = s.pke.secret ∧ s2.pke.keys = s.pke.keys
    ∧ s2.mem = s.mem ∧ s2.tiles = s.tiles ∧ s2.jobs = s.jobs

/-- A check run has begun: it holds what CheckSource, CheckLength and CheckContext held, and its context is BOUND (R390). -/
def Safety.checkStarted (s s2 : State) (ctx n : Nat) : Prop :=
  s2.checkRun = some { source := s.entry 0xB180 1, length := s.entry 0xB180 2, context := n } ∧ s2.entry 0xB180 5 = PENDING ∧ s2.entry (0xB100 + n) 1 = 1
    ∧ s2.entry (0xB100 + n) 2 = s.entry (0xB100 + n) 2 ∧ Safety.outcome s2 ctx 0xB180 4 OK ∧ s2.mem = s.mem ∧ s2.tiles = s.tiles ∧ s2.jobs = s.jobs

/-- One latch tick is set, and neither a tile, a job nor a byte of memory changes (R403). -/
def Safety.ticked (s s2 : State) (time source : Nat) (timed : Bool) : Prop :=
  s2.ticks.map (fun k => (k.time, k.source, k.timed)) = s.ticks.map (fun k => (k.time, k.source, k.timed)) ++ [(time, source, timed)]
    ∧ s2.dict = s.dict ∧ s2.tiles = s.tiles ∧ s2.jobs = s.jobs ∧ s2.mem = s.mem

end Sys2Proof
end

