-- ==== Sys2Proof/Certificates/Slice0/Obligations.lean ====
section
/-! DEFINITION. The statements about the model, family by family of the command table. -/

open Sys2Proof Sys2Proof.Machine

/-! ### The queue, the step, the whole machine -/

/-- A step takes the command at the front of the queue and runs it with the queue's rest (the block's form of a step). -/
def Obligations.StepRunsFront : Prop :=
  ∀ (s : State) (c : Instr) (rest : List Instr), s.pending = c :: rest → step s = exec c { s with pending := rest }

/-- On an empty queue, with no restart under way, nothing to slew and no write waiting, a step lets one nanosecond pass
and changes nothing else (the model's choice of log entry 1). -/
def Obligations.EmptyQueueIdles : Prop :=
  ∀ s : State, s.pending = [] → s.restart = none → s.slewLeft = 0 → s.replayWrites = [] → s.behind = [] → step s = .next { s with now := s.now + 1 }

/-- Every well-formed command has a next state in every state: the only stop is the name of a unit that the module does not have. -/
def Obligations.WellFormedCommandsRun : Prop :=
  ∀ (c : Instr) (s : State), c.wellFormed = true → ∃ t, exec c s = .next t

/-- No command adds to, takes from or reorders the waiting commands, and none changes the grade or the map of enabled tiles (R3). -/
def Obligations.CommandsLeaveQueueAndFuses : Prop :=
  ∀ (c : Instr) (s t : State), exec c s = .next t → t.pending = s.pending ∧ t.grade = s.grade ∧ t.enabled = s.enabled

/-- Memory is in its canonical form at reset: nothing is listed. -/
def Obligations.ResetMemoryCanonical : Prop := Memory.wf State.reset = true ∧ State.reset.mem = []

/-- Every step keeps the canonical form of stack memory: rising addresses, and no entry equal to what an unlisted address reads as. -/
def Obligations.MemoryStaysCanonical : Prop :=
  ∀ s t : State, Memory.wf s = true → step s = .next t → Memory.wf t = true

/-! ### Crossing gate -/

/-- What arrives at an end that hears (R13-R16, R33, R47). KEEPALIVE only marks the moment. A DICT_RESPONSE with OK retires the message it answers: one
that nobody waits for leaves nothing else; an access of the host side that waited records OK, and a read returns the value. A repeated message receives
the answer that its first copy received (that it does is the model's choice of log entry 61) and takes no effect again. A message that fails its check is
discarded and counted. A copy of an event joins Fumarole's log; the copy of WATCHDOG_RESTART also brings a RESET_CMD of kind WATCHDOG (R397, R399). -/
def Obligations.GateArrivals : Prop :=
  (∀ (s : State) (e : GateEnd), Safety.hears s e = true → exec (.keepalive e) s = .next (s.setGate e { s.gateAt e with lastRx := s.now }))
  ∧ (∀ (s : State) (e : GateEnd) (seq : Nat) (m : GateMsg) (v : Word) (data : List Byte), Safety.hears s e = true →
      ((s.gateAt e).outstanding.find? fun (m : GateMsg) => m.seq = seq) = some m → Safety.onlyRetired m = true →
      exec (.dictResponse e seq [(OK, v)] data) s = .next (s.setGate e
        { s.gateAt e with lastRx := s.now, outstanding := (s.gateAt e).outstanding.filter fun (m : GateMsg) => m.seq ≠ seq }))
  ∧ (∀ (s : State) (seq : Nat) (m : GateMsg) (a : EntryAccess) (v : Word), Safety.hears s .host = true → s.heldAccesses = [] → a.ctx < 16 → a.frame = none →
      indexAt a.offset ≠ 0x1030 → (s.hostGate.outstanding.find? fun (m : GateMsg) => m.seq = seq) = some m → m.origin = .access a →
      ∃ t, exec (.dictResponse .host seq [(OK, v)] []) s = .next t ∧ Safety.outcome t a.ctx (indexAt a.offset) (subAt a.offset) OK
        ∧ t.out = (if a.value.isSome then s.out else s.out ++ [.dictRead a.ctx (narrowTo a.size v.toNat)])
        ∧ (∀ m ∈ t.hostGate.outstanding, m.seq ≠ seq) ∧ t.dict = s.dict ∧ t.mem = s.mem ∧ t.tiles = s.tiles ∧ t.jobs = s.jobs)
  ∧ (∀ (s : State) (e : GateEnd) (type length : Nat) (crcOk : Bool), s.gatePowered e = true →
      (crcOk = false ∨ 4104 < length ∨ gateAllowed e type = false) →
      exec (.gateMessageDiscarded e type length crcOk) s = .next (s.setGate e { s.gateAt e with discarded := (s.gateAt e).discarded + 1 }))
  ∧ (∀ (s : State) (e : GateEnd) (seq ctx : Nat) (a : GateAccess) (p : GatePayload), Safety.hears s e = true →
      (s.gateAt e).answered.lookup seq = some p → (s.gateAt e).quietUntil ≤ s.now →
      exec (.dictRequest e seq ctx a) s = .next ((s.setGate e { s.gateAt e with lastRx := s.now, lastTx := s.now }).emit (.gate (e = .host) seq p)))
  ∧ (∀ (s : State) (x : LogEntry), Safety.hears s .field = true → x.code ≠ WATCHDOG_RESTART →
      exec (.eventNotice x) s = .next { s with fieldGate := { s.fieldGate with lastRx := s.now }, fieldLog := s.fieldLog ++ [x] })
  ∧ (∀ (s : State) (x : LogEntry), Safety.hears s .field = true → x.code = WATCHDOG_RESTART → s.fieldGate.quietUntil ≤ s.now →
      ∃ t, exec (.eventNotice x) s = .next t ∧ t.fieldLog = s.fieldLog ++ [x]
        ∧ t.out = s.out ++ [.gate false s.fieldGate.nextSeq (.reset kindWatchdog WATCHDOG_RESTART)]
        ∧ t.fieldGate.outstanding.map (fun (m : GateMsg) => (m.seq, m.payload)) =
            s.fieldGate.outstanding.map (fun (m : GateMsg) => (m.seq, m.payload)) ++ [(s.fieldGate.nextSeq, .reset kindWatchdog WATCHDOG_RESTART)]
        ∧ t.dict = s.dict ∧ t.mem = s.mem ∧ t.tiles = s.tiles ∧ t.jobs = s.jobs)

/-- DICT_REQUEST over the gate (R14, R17, R18, R33, R53). At Fumarole's end a read of a persistent entry that Fumarole does not serve itself is answered
with what the newest record holds, or the entry's default; a value for the store waits to enter it as a record. At the host end a DTP session's read,
segment and OPEN are performed in its context, and an entry that carries device data or keys is refused with ACCESS_PROTECT, as is any access that is no
session's: no value, tile, byte of memory, key or job changes. -/
def Obligations.GateRequests : Prop :=
  (∀ (s : State) (seq ctx index sub : Nat), Safety.hears s .field = true → s.fieldGate.quietUntil ≤ s.now → sub < 256 → isDtp ctx = false →
    s.fieldGate.answered.lookup seq = none → isPersistent index sub = true → isFieldServed index = false →
    ∃ t, exec (.dictRequest .field seq ctx (.entries [(keyOffset (entryKey index sub), none)])) s = .next t
      ∧ t.out = s.out ++ [.gate false seq (.response [(OK, (s.recordOf (entryKey index sub)).getD (entryDefault index sub))] [])]
      ∧ t.dict = s.dict ∧ (t.fieldGate.answered.lookup seq).isSome)
  ∧ (∀ (s : State) (seq ctx index sub : Nat) (v : Word) (r : EntryRow), Safety.hears s .field = true → s.fieldGate.quietUntil ≤ s.now → sub < 256 →
    s.fieldGate.answered.lookup seq = none → lookupEntry index sub = some r → r.persist = true → r.ty.isContent = false →
    s.rangeRefusal r index sub v.toNat = none →
    ∃ t, exec (.dictRequest .field seq ctx (.store [(keyOffset (entryKey index sub), v)])) s = .next t
      ∧ t.out = s.out ++ [.gate false seq (answerOf OK 0)] ∧ t.dict = s.dict
      ∧ t.unstored = s.unstored ++ [{ values := [(entryKey index sub, v.toNat)], contents := [] }])
  ∧ (∀ (s : State) (seq id index sub : Nat) (r : EntryRow), Safety.hears s .host = true → Safety.dtpReady s id = true → s.hostGate.quietUntil ≤ s.now →
    s.hostGate.answered.lookup seq = none → sub < 256 → lookupEntry index sub = some r → (r.acc ≠ .wo ∨ sub = 0) → gateProtected index sub = false →
    index ≠ 0x1030 → ((tileOf index).any fun t => !s.tileEnabled t) = false →
    ∃ t, exec (.dictRequest .host seq (16 + id) (.entries [(keyOffset (entryKey index sub), none)])) s = .next t
      ∧ t.out = s.out ++ [.gate true seq (.response [(OK, (s.setGate .host { s.hostGate with lastRx := s.now }).readView (16 + id) r index sub)] [])]
      ∧ Safety.outcome t (16 + id) index sub OK ∧ t.dict = s.dict ∧ t.mem = s.mem ∧ t.tiles = s.tiles ∧ t.jobs = s.jobs)
  ∧ (∀ (s : State) (seq id i sub len : Nat) (r : EntryRow), Safety.hears s .host = true → Safety.dtpReady s id = true → s.hostGate.quietUntil ≤ s.now →
    s.hostGate.answered.lookup seq = none → (s.context (16 + id)).groupState ≠ 1 → 0 < sub → sub < 256 → lookupEntry i sub = some r →
    r.ty.isContent = true → i ≠ 0x9010 → gateProtected i sub = false → ¬(0x8040 ≤ i ∧ i < 0x8048) → ((tileOf i).any fun t => !s.tileEnabled t) = false →
    ∃ t, exec (.dictRequest .host seq (16 + id) (.segmentRead (keyOffset (entryKey i sub)) 0 len)) s = .next t ∧ t.mem = s.mem ∧ t.blobs = s.blobs
      ∧ t.out = s.out ++ [.gate true seq (.response [(OK, 0)] (((s.setGate .host { s.hostGate with lastRx := s.now }).content (16 + id) i sub).take len))])
  ∧ (∀ (s : State) (seq id i sub off : Nat) (data : List Byte) (last : Bool) (r : EntryRow), Safety.hears s .host = true → Safety.dtpReady s id = true →
    s.hostGate.quietUntil ≤ s.now → s.hostGate.answered.lookup seq = none → (s.context (16 + id)).groupState ≠ 1 → (s.context (16 + id)).transfer = none →
    0 < sub → sub < 256 → lookupEntry i sub = some r → r.ty.isContent = true → r.acc ≠ .ro → i ∉ [0x2010, 0x9030, 0x9100] → gateProtected i sub = false →
    off + data.length ≤ maxContent i sub → ((tileOf i).any fun t => !s.tileEnabled t) = false → (last = true → off = 0 ∧ contentValid i data = true) →
    ∃ t, exec (.dictRequest .host seq (16 + id) (.segmentWrite (keyOffset (entryKey i sub)) off data last)) s = .next t
      ∧ t.out.getLast? = some (.gate true seq (answerOf OK 0)) ∧ t.mem = s.mem
      ∧ (last = true → t.blob i sub = data ∧ (t.context (16 + id)).transfer = none)
      ∧ (last = false → t.blobs = s.blobs ∧ ∃ y, (t.context (16 + id)).transfer = some y ∧ y.addr = entryKey i sub ∧ y.write = true
          ∧ ∀ k, k < data.length → Tab.get? y.committed (off + k) = data[k]?))
  ∧ (∀ (s : State) (seq id : Nat), Safety.hears s .host = true → Safety.dtpReady s id = true → s.hostGate.quietUntil ≤ s.now →
    s.hostGate.answered.lookup seq = none → (s.context (16 + id)).groupState ≠ 1 → s.groupCount < 32 →
    ∃ t, exec (.dictRequest .host seq (16 + id) (.entries [(keyOffset (entryKey 0x1020 1), some 1)])) s = .next t ∧ (t.context (16 + id)).groupState = 1
      ∧ t.out = s.out ++ [.gate true seq (.response [(OK, 1)] [])] ∧ t.dict = s.dict ∧ t.mem = s.mem)
  ∧ (∀ (s : State) (seq ctx index sub : Nat) (v : Option Word), Safety.hears s .host = true → s.hostGate.quietUntil ≤ s.now → sub < 256 →
    s.hostGate.answered.lookup seq = none → gateProtected index sub = true ∨ isDtp ctx = false →
    ∃ t x, exec (.dictRequest .host seq ctx (.entries [(keyOffset (entryKey index sub), v)])) s = .next t
      ∧ t.out = s.out ++ [.gate true seq (.response [(ACCESS_PROTECT, x)] [])]
      ∧ t.dict = s.dict ∧ t.tiles = s.tiles ∧ t.mem = s.mem ∧ t.pke = s.pke ∧ t.jobs = s.jobs ∧ t.blobs = s.blobs)

/-- An end keeps its gate up: it sends KEEPALIVE after 10 us of silence; it sends an unanswered message again with its own number, 4 times at most;
it gives the message up 500 us after the first transmission, and then, as after 1 ms without a valid message, declares the gate down (R15, R16, R19).
A persistent value whose message is given up is rolled back, and its write ends with STATE_CONFLICT (R16, R33). -/
def Obligations.GateTimers : Prop :=
  (∀ (s : State) (e : GateEnd), s.gatePowered e = true → (s.gateAt e).lastTx + 10000 ≤ s.now → (s.gateAt e).quietUntil ≤ s.now →
    ∃ t, exec (.keepaliveSend e) s = .next t ∧ t.out = s.out ++ [.gate (e = .host) (s.gateAt e).nextSeq .keepalive]
      ∧ t.gateAt e = { s.gateAt e with nextSeq := ((s.gateAt e).nextSeq + 1) % 65536, lastTx := s.now } ∧ t.dict = s.dict ∧ t.mem = s.mem)
  ∧ (∀ (s : State) (e : GateEnd) (seq : Nat) (m : GateMsg), s.gatePowered e = true →
    ((s.gateAt e).outstanding.find? fun (m : GateMsg) => m.seq = seq) = some m → m.repeats < 4 → m.sentAt + 100000 * (m.repeats + 1) ≤ s.now →
    (s.gateAt e).quietUntil ≤ s.now →
    ∃ t, exec (.gateResendTimeout e seq) s = .next t ∧ t.out = s.out ++ [.gate (e = .host) m.seq m.payload]
      ∧ (t.gateAt e).nextSeq = (s.gateAt e).nextSeq
      ∧ ((t.gateAt e).outstanding.find? fun (m : GateMsg) => m.seq = seq) = some { m with repeats := m.repeats + 1 })
  ∧ (∀ (s : State) (e : GateEnd) (seq ctx : Nat) (m : GateMsg), s.gatePowered e = true →
    ((s.gateAt e).outstanding.find? fun (m : GateMsg) => m.seq = seq) = some m → 4 ≤ m.repeats → m.sentAt + 500000 ≤ s.now → m.origin = .block ctx →
    ∃ t, exec (.gateMessageGivenUp e seq) s = .next t ∧ (t.gateAt e).down = true ∧ (t.gateAt e).quietUntil = s.now + 1000000
      ∧ (∀ m ∈ (t.gateAt e).outstanding, m.seq ≠ seq) ∧ (t.context ctx).transfer = none)
  ∧ (∀ (s : State) (seq ctx i k old : Nat) (m : GateMsg), s.gatePowered .host = true → (s.hostGate.outstanding.find? fun (m : GateMsg) => m.seq = seq) = some m →
    4 ≤ m.repeats → m.sentAt + 500000 ≤ s.now → ctx < 16 → k < 256 → i < 0xB000 → isPersistent i k = true → Safety.commandEntry i k = false →
    m.origin = .values ctx [(entryKey i k, s.entry i k, old)] →
    ∃ t, exec (.gateMessageGivenUp .host seq) s = .next t ∧ t.entry i k = old ∧ Safety.outcome t ctx i k STATE_CONFLICT ∧ t.hostGate.down = true)
  ∧ (∀ (s : State) (e : GateEnd), s.gatePowered e = true → (s.gateAt e).lastRx + 1000000 ≤ s.now →
    ∃ t, exec (.gateDown e) s = .next t ∧ (t.gateAt e).down = true ∧ t.dict = s.dict ∧ t.mem = s.mem ∧ t.tiles = s.tiles)

/-- What Fumarole sends the host side: a SNAPSHOT_TRIGGER becomes a pending latch tick at its fabric time; a RESET_CMD of a listed kind is answered
and its restart begins; a POWER_DOMAIN_CMD switches a tile's domain on and off; a FIRMWARE_BLOCK reaches the pending slot (R13, R18, R342, R375, R403, R415). -/
def Obligations.GateCommands : Prop :=
  (∀ (s : State) (target : Nat), Safety.hears s .host = true → s.ready = true → s.timedTicks < 4 →
    ∃ t, exec (.snapshotTrigger target) s = .next t
      ∧ t.ticks.map (fun k => (k.time, k.source, k.timed)) =
          s.ticks.map (fun k => (k.time, k.source, k.timed)) ++ [(if target = 0 then s.fabricTime + 1000 else target, srcManagement, true)]
      ∧ t.dict = s.dict ∧ t.mem = s.mem)
  ∧ (∀ (s : State) (seq kind cause : Nat), Safety.hears s .host = true → s.hostGate.answered.lookup seq = none → s.hostGate.quietUntil ≤ s.now →
    s.restart = none → kind = kindWarm ∨ kind = kindHostPower →
    ∃ t, exec (.resetCmd seq kind cause) s = .next t ∧ Output.gate true seq (answerOf OK 0) ∈ t.out
      ∧ t.restart.map (fun r => (r.kind, r.cause)) = some (kind, cause) ∧ t.entry 0x1100 1 = 1)
  ∧ (∀ (s : State) (seq d : Nat) (on : Bool), Safety.hears s .host = true → s.hostGate.answered.lookup seq = none → d < 64 → s.tileEnabled d = true →
    ∃ t, exec (.powerDomainCmd seq (2 ^ d) on) s = .next t ∧ t.entry (0xA0C0 + d) 1 = (if on then 0 else 4))
  ∧ (∀ (s : State) (seq offset : Nat) (data : List Byte), Safety.hears s .field = true → s.fieldGate.answered.lookup seq = none →
    s.fieldGate.quietUntil ≤ s.now → data ≠ [] → data.length ≤ 4096 → offset + data.length ≤ packageMax → s.pendingState = 1 →
    ∃ t, exec (.firmwareBlock seq offset data) s = .next t ∧ t.out = s.out ++ [.gate false seq (answerOf OK 0)]
      ∧ ∀ i, i < data.length → Tab.get (Tab.get t.flash [] s.pendingSlot) 0 (offset + i) = data.getD i 0)

/-! ### Dictionary -/

/-- A BAR0 write in range of an entry that takes effect at once gives the entry the value, and the outcome OK; no other entry, no memory byte,
no tile and no job changes (R30, R31, R35, R46, R47). Where Fumarole serves the entry, the write leaves as a DICT_REQUEST and its context waits
for the answer: nothing is recorded yet (R14, R47, R53). -/
def Obligations.DictionaryWrite : Prop :=
  (∀ (s : State) (i sub v : Nat) (r : EntryRow), Safety.direct s 0 = true → i < 65536 → sub < 256 → v < 2 ^ 64 → Safety.commandEntry i sub = false →
    isFieldServed i = false → lookupEntry i sub = some r → r.ty.isContent = false → (r.acc = .rw ∨ r.acc = .rws) → r.cls ≠ .epoch →
    ((tileOf i).any fun t => !s.tileEnabled t) = false → s.rangeRefusal r i sub v = none → (r.cls = .stopped → s.unitStopped i sub = true) →
    ∃ t, exec (.dictWrite 0 (2048 * i + 8 * sub) 8 (BitVec.ofNat 64 v)) s = .next t ∧ t.entry i sub = v ∧ Safety.outcome t 0 i sub OK
      ∧ (∀ k l, entryKey k l ≠ entryKey i sub → t.entry k l = s.entry k l) ∧ t.mem = s.mem ∧ t.tiles = s.tiles ∧ t.jobs = s.jobs)
  ∧ (∀ (s : State) (i sub v : Nat) (r : EntryRow), Safety.direct s 0 = true → i < 65536 → sub < 256 → v < 2 ^ 64 → Safety.commandEntry i sub = false →
    isFieldServed i = true → lookupEntry i sub = some r → r.ty.isContent = false → (r.acc = .rw ∨ r.acc = .rws) → r.cls ≠ .epoch →
    s.rangeRefusal r i sub v = none → (r.cls = .stopped → s.unitStopped i sub = true) → s.hostGate.quietUntil ≤ s.now →
    ∃ t, exec (.dictWrite 0 (2048 * i + 8 * sub) 8 (BitVec.ofNat 64 v)) s = .next t ∧ t.awaits 0 = true
      ∧ t.out = s.out ++ [.gate true s.hostGate.nextSeq (.request 0 (.entries [(2048 * i + 8 * sub, some (BitVec.ofNat 64 v))]))]
      ∧ t.dict = s.dict ∧ t.contexts = s.contexts ∧ t.mem = s.mem ∧ t.tiles = s.tiles ∧ t.jobs = s.jobs)

/-- A BAR0 read answers with what the entry reads as and records OK: with no open group, an entry that is stored and not computed reads its
stored value; an entry that Fumarole serves is asked for by DICT_REQUEST. A WO entry reads zero and records ACCESS_RIGHT; an absent one reads all ones and records ENTRY_ABSENT (R29, R31, R37, R46, R47). -/
def Obligations.DictionaryRead : Prop :=
  (∀ (s : State) (i sub : Nat) (r : EntryRow), Safety.served s 0 = true → i < 65536 → sub < 256 → i ∉ [0x1030, 0x9200, 0x9210] → (i, sub) ≠ (0x3480, 2) →
    isFieldServed i = false → lookupEntry i sub = some r → (r.acc ≠ .wo ∨ sub = 0) → ((tileOf i).any fun t => !s.tileEnabled t) = false →
    ∃ t, exec (.dictRead 0 (2048 * i + 8 * sub) 8) s = .next t ∧ Safety.outcome t 0 i sub OK
      ∧ t.out = s.out ++ [.dictRead 0 (s.readView 0 r i sub)] ∧ t.dict = s.dict ∧ t.mem = s.mem ∧ t.tiles = s.tiles)
  ∧ (∀ (s : State) (i sub : Nat) (r : EntryRow), Safety.direct s 0 = true → i < 65536 → sub < 256 → i ≠ 0x9200 → isFieldServed i = true →
    lookupEntry i sub = some r → (r.acc ≠ .wo ∨ sub = 0) → s.hostGate.quietUntil ≤ s.now →
    ∃ t, exec (.dictRead 0 (2048 * i + 8 * sub) 8) s = .next t ∧ t.awaits 0 = true
      ∧ t.out = s.out ++ [.gate true s.hostGate.nextSeq (.request 0 (.entries [(2048 * i + 8 * sub, none)]))] ∧ t.contexts = s.contexts ∧ t.dict = s.dict)
  ∧ (∀ (s : State) (i sub : Nat) (r : EntryRow), (s.context 0).groupState ≠ 1 → r.ty.isContent = false → r.acc ≠ .wo → sub ≠ 0 →
      s.computed 0 i sub = none → s.readView 0 r i sub = s.entry i sub)
  ∧ (∀ (s : State) (i sub : Nat) (r : EntryRow), Safety.served s 0 = true → i < 65536 → 0 < sub → sub < 256 → i ∉ [0x9200, 0x9210] →
    lookupEntry i sub = some r → r.acc = .wo → ((tileOf i).any fun t => !s.tileEnabled t) = false →
    ∃ t, exec (.dictRead 0 (2048 * i + 8 * sub) 8) s = .next t ∧ t.out = s.out ++ [.dictRead 0 0] ∧ Safety.outcome t 0 i sub ACCESS_RIGHT)
  ∧ (∀ (s : State) (i sub : Nat), Safety.served s 0 = true → i < 65536 → sub < 256 → i ∉ [0x9200, 0x9210] → lookupEntry i sub = none →
    ∃ t, exec (.dictRead 0 (2048 * i + 8 * sub) 8) s = .next t ∧ t.out = s.out ++ [.dictRead 0 allOnes] ∧ Safety.outcome t 0 i sub ENTRY_ABSENT)

/-- While the device is UPDATING the host-link controller answers the dictionary's accesses by itself: a read of LastStatus (0x1030:01) returns
BUSY, every other read all ones in the width of the access, and every write is dropped (R48). -/
def Obligations.PauseAnswers : Prop :=
  ∀ (s : State) (o n : Nat) (v : Word), s.entry 0x1100 1 = 7 → o < 0x8000000 → o % 8 = 0 → (n = 4 ∨ n = 8) →
    exec (.dictRead 0 o n) s
      = .next (s.emit (.dictRead 0 (if o = 2048 * 0x1030 + 8 then BUSY else if n = 4 then 0xFFFFFFFF else 0xFFFFFFFFFFFFFFFF)))
    ∧ exec (.dictWrite 0 o n v) s = .next s

/-- Inside an open group a write is staged and shows PENDING; an entry of a second job slot is refused with STATE_CONFLICT and is not staged,
a device-owned entry joins the entries of the one job slot (R38, R39). GroupControl: OPEN opens an empty group; COMMIT applies a group at one instant where no entry waits for a barrier and no unit runs;
ABORT drops what was staged (R37, R40, R43). -/
def Obligations.TransactionGroups : Prop :=
  (∀ (s : State) (i sub v : Nat) (r : EntryRow), Safety.served s 0 = true → (s.context 0).groupState = 1 → i < 65536 → sub < 256 → v < 2 ^ 64 →
    Safety.commandEntry i sub = false → lookupEntry i sub = some r → r.ty.isContent = false → (r.acc = .rw ∨ r.acc = .rws) →
    ((tileOf i).any fun t => !s.tileEnabled t) = false → s.rangeRefusal r i sub v = none → (r.cls = .stopped → s.unitStopped i sub = true) →
    ((s.context 0).staged.any fun p => p.1 = entryKey i sub) = false → (s.context 0).staged.length < 256 →
    ∃ t, exec (.dictWrite 0 (2048 * i + 8 * sub) 8 (BitVec.ofNat 64 v)) s = .next t
      ∧ (((s.context 0).groupOwner = 0xFF ∨ ownerJob i = none ∨ ownerJob i = some (s.context 0).groupOwner) →
          (t.context 0).staged = (s.context 0).staged ++ [(entryKey i sub, v)] ∧ t.dict = s.dict ∧ Safety.outcome t 0 i sub PENDING
            ∧ (t.context 0).groupOwner = (ownerJob i).getD (s.context 0).groupOwner)
      ∧ (∀ j, (s.context 0).groupOwner ≠ 0xFF → ownerJob i = some j → j ≠ (s.context 0).groupOwner →
          (t.context 0).staged = (s.context 0).staged ∧ Safety.outcome t 0 i sub STATE_CONFLICT))
  ∧ (∀ (s : State) (ctx : Nat), Safety.direct s ctx = true → s.groupCount < 32 →
    ∃ t, exec (.groupOpen ctx) s = .next t ∧ (t.context ctx).groupState = 1 ∧ (t.context ctx).staged = [] ∧ (t.context ctx).groupOwner = 0xFF
      ∧ Safety.outcome t ctx 0x1020 1 OK ∧ t.dict = s.dict)
  ∧ (∀ (s : State) (ctx : Nat), Safety.served s ctx = true → (s.context ctx).groupState = 1 →
    ((s.context ctx).staged.any (fun p => isEpochKey p.1) = false ∨ (s.job (s.context ctx).groupOwner).active = false) →
    s.stagedConflict (s.context ctx).staged = false →
    ∃ t, exec (.groupCommit ctx) s = .next t ∧ (t.context ctx).groupState = 3 ∧ (t.context ctx).staged = [] ∧ Safety.outcome t ctx 0x1020 1 OK
      ∧ ∀ i sub v, sub < 256 → (s.context ctx).staged = [(entryKey i sub, v)] → Safety.commandEntry i sub = false → t.entry i sub = v)
  ∧ (∀ (s : State) (ctx : Nat), Safety.served s ctx = true → (s.context ctx).groupState = 1 →
    ∃ t, exec (.groupAbort ctx) s = .next t ∧ (t.context ctx).groupState = 4 ∧ (t.context ctx).staged = [] ∧ Safety.outcome t ctx 0x1020 1 OK
      ∧ t.dict = s.dict ∧ t.mem = s.mem ∧ t.tiles = s.tiles ∧ t.jobs = s.jobs)

/-- What time does to contexts: a PENDING group past its EpochTimeout is discarded with GROUP_DISCARDED; a context idle for GroupIdleTimeout loses
its open group and its transfer; a fabric node's idle context with neither is released (R42, R45, R55). A record that waits enters the persistent store; RestoreDefaults is armed for the next restart while no job is loaded;
an unreferenced set leaves its slot and LoadStatus reads OK (R33, R56, R67). -/
def Obligations.TimeoutsAndStores : Prop :=
  (∀ (s : State) (ctx : Nat) (g : PendingGroup), (s.pendingGroups.find? fun g => g.ctx = ctx && g.deadline ≤ s.now) = some g → s.hasContext ctx = true →
    (s.context ctx).groupId = g.id →
    ∃ t, exec (.groupEpochTimeout ctx) s = .next t ∧ (t.context ctx).groupState = 4 ∧ (t.context ctx).lastStatus = GROUP_DISCARDED
      ∧ t.pendingGroups = s.pendingGroups.erase g ∧ t.mem = s.mem ∧ t.tiles = s.tiles)
  ∧ (∀ (s : State) (ctx : Nat), s.contextIdle ctx = true → (s.context ctx).groupState = 1 →
    exec (.groupIdleTimeout ctx) s = .next (s.setContext ctx
      { s.context ctx with groupState := 4, applyTime := s.fabricTime, staged := [], snapshot := none }))
  ∧ (∀ (s : State) (ctx : Nat), s.contextIdle ctx = true →
    ∃ t, exec (.transferIdleTimeout ctx) s = .next t ∧ (t.context ctx).transfer = none ∧ t.mem = s.mem ∧ t.blobs = s.blobs
      ∧ (t.entry 0x9100 2 = 0 ∨ t.dict = s.dict))
  ∧ (∀ (s : State) (ctx : Nat), isFabric ctx = true → s.contextIdle ctx = true → (s.context ctx).groupState ≠ 1 →
    (s.pendingGroups.any fun g => g.ctx = ctx) = false →
    ∃ t, exec (.contextRelease ctx) s = .next t ∧ Tab.get? t.contexts ctx = none
      ∧ (∀ k, k ≠ ctx → Tab.get? t.contexts k = Tab.get? s.contexts k) ∧ t.dict = s.dict)
  ∧ (∀ (s : State) (r : PersistRecord) (rest : List PersistRecord), s.unstored = r :: rest → s.fieldPowered = true →
    exec .persistRecordWrite s = .next { s with journal := s.journal ++ [r], unstored := rest })
  ∧ (∀ (s : State) (ctx : Nat), Safety.direct s ctx = true → s.jobsLoaded = [] →
    ∃ t, exec (.restoreDefaults ctx 0x44454641) s = .next t ∧ t.restoreDefaults = true ∧ Safety.outcome t ctx 0x1070 1 OK ∧ t.dict = s.dict ∧ t.mem = s.mem)
  ∧ (∀ (s : State) (ctx id slot : Nat) (p : ParamSet), Safety.direct s ctx = true → id < 256 → s.findSet id = some (slot, p) → s.setRefs id = 0 →
    ∃ t, exec (.setUnload ctx id) s = .next t ∧ Tab.get? t.sets slot = none ∧ (∀ k, k ≠ slot → Tab.get? t.sets k = Tab.get? s.sets k)
      ∧ t.entry 0x2010 3 = OK ∧ Safety.outcome t ctx 0x2010 2 OK ∧ t.mem = s.mem ∧ t.tiles = Tab.mapVal s.tiles fun _ x => x.forgetSet id)

/-- Segmented transfers: START_READ copies the content; START_WRITE opens; COMMIT_SEGMENT stores the window's bytes at Offset and moves Offset on;
FINISH gives a content entry the committed bytes; CANCEL drops the transfer and leaves the entry alone (R54, R55). -/
def Obligations.SegmentedTransfers : Prop :=
  (∀ (s : State) (ctx i sub : Nat) (r : EntryRow), Safety.direct s ctx = true → 0 < sub → sub < 256 → (s.context ctx).target = entryKey i sub →
    lookupEntry i sub = some r → r.ty.isContent = true → i ∉ [0x9010, 0x9200, 0x9210] → ¬(0x8040 ≤ i ∧ i < 0x8048) →
    ((tileOf i).any fun t => !s.tileEnabled t) = false →
    ∃ t, exec (.startRead ctx) s = .next t ∧ Safety.outcome t ctx 0x1038 4 OK ∧ (t.context ctx).length = (s.content ctx i sub).length
      ∧ (t.context ctx).transfer = some { addr := entryKey i sub, write := false, length := (s.content ctx i sub).length, content := s.content ctx i sub })
  ∧ (∀ (s : State) (ctx i sub : Nat) (r : EntryRow), Safety.direct s ctx = true → 0 < sub → sub < 256 → (s.context ctx).target = entryKey i sub →
    lookupEntry i sub = some r → r.ty.isContent = true → r.acc ≠ .ro → i ∉ [0x9100, 0x9200, 0x9210] → (s.context ctx).length ≤ maxContent i sub →
    ((tileOf i).any fun t => !s.tileEnabled t) = false →
    ∃ t, exec (.startWrite ctx) s = .next t ∧ Safety.outcome t ctx 0x1038 4 OK
      ∧ (t.context ctx).transfer = some { addr := entryKey i sub, write := true, length := (s.context ctx).length })
  ∧ (∀ (s : State) (ctx : Nat) (x : Transfer), Safety.direct s ctx = true → (s.context ctx).transfer = some x → x.write = true → x.stages = false →
    (s.context ctx).offset < x.length →
    ∃ t y, exec (.commitSegment ctx) s = .next t ∧ Safety.outcome t ctx 0x1038 4 OK ∧ (t.context ctx).offset = (s.context ctx).offset + 256
      ∧ (t.context ctx).transfer = some y ∧ t.dict = s.dict ∧ t.blobs = s.blobs
      ∧ ∀ k, k < 256 → (s.context ctx).offset + k < x.length → Tab.get? y.committed ((s.context ctx).offset + k) = some (x.byteAt ((s.context ctx).offset + k)))
  ∧ (∀ (s : State) (ctx : Nat) (x : Transfer), Safety.direct s ctx = true → (s.context ctx).transfer = some x → x.write = true →
    x.length ≤ x.committed.length → x.index ∉ [0x2010, 0x9100, 0x9210] → contentValid x.index x.bytes = true →
    ∃ t, exec (.segmentFinish ctx) s = .next t ∧ Safety.outcome t ctx 0x1038 4 OK ∧ (t.context ctx).transfer = none
      ∧ t.blob x.index x.sub = x.bytes ∧ t.dict = s.dict ∧ t.mem = s.mem)
  ∧ (∀ (s : State) (ctx : Nat), Safety.direct s ctx = true →
    ∃ t, exec (.segmentCancel ctx) s = .next t ∧ Safety.outcome t ctx 0x1038 4 OK ∧ (t.context ctx).transfer = none ∧ t.blobs = s.blobs ∧ t.mem = s.mem)

/-! ### Management port -/

/-- DTP sessions and requests (R51-R53, R367). A HELLO on the port of DtpUdpPort with a version in common and a free session is answered; whether the
client's chain is good is what the opaque validation of log entry 7 says: a good one opens a session, whose HELLO_ACK carries the management
certificate, another gets ACCESS_PROTECT and none; no version in common gets VALUE_RANGE. CLOSE and the idle timeout end a session without a response;
a datagram that fails authentication is counted and dropped. A request with a number that is new to its session: a read or a write of an entry that
Fumarole serves is answered at once, as is a segment of PendingImage, which reaches the pending slot; READ, WRITE, SEGMENT_READ, SEGMENT_WRITE and GROUP
of the host side's entries leave as DICT_REQUEST, and the answer to it is the response. Each response carries the header of Table 2-4. -/
def Obligations.ManagementPort : Prop :=
  (∀ (s : State) (port offered v k : Nat) (cert eph : List Byte), s.dtpServed = true → port = s.entry 0x1050 1 → s.chooseVersion offered = some v →
    s.sessions.length < s.entry 0x1050 3 → s.freeSession = some k →
    ∃ t, exec (.dtpHello port offered cert eph) s = .next t ∧ t.dict = s.dict ∧ t.mem = s.mem ∧ t.jobs = s.jobs
      ∧ (s.clientValid cert eph = true → t.session (k + 1) = some { version := v, port := port, lastSeen := s.now }
          ∧ ∃ d, d.length = 193 ∧ t.out = s.out ++ [.dtpHelloAck port v (k + 1) OK (s.blob 0x9000 5) d])
      ∧ (s.clientValid cert eph = false → t.sessions = s.sessions ∧ t.out = s.out ++ [.dtpHelloAck port 0 0 ACCESS_PROTECT [] []]))
  ∧ (∀ (s : State) (port offered : Nat) (cert eph : List Byte), s.dtpServed = true → port = s.entry 0x1050 1 → s.chooseVersion offered = none →
    ∃ t, exec (.dtpHello port offered cert eph) s = .next t ∧ t.sessions = s.sessions ∧ t.dict = s.dict
      ∧ t.out = s.out ++ [.dtpHelloAck port 0 0 (if s.clientValid cert eph then VALUE_RANGE else ACCESS_PROTECT) [] []])
  ∧ (∀ (s : State) (id seq : Nat) (x : Session), s.dtpServed = true → s.session id = some x → (x.highest.any fun h => seq ≤ h) = false →
    ∃ t, exec (.dtpClose id seq) s = .next t ∧ t.session id = none ∧ t.out = s.out ∧ (∀ k, k ≠ id → t.session k = s.session k)
      ∧ (t.context (16 + id)).transfer = none ∧ t.mem = s.mem ∧ t.tiles = s.tiles ∧ t.jobs = s.jobs)
  ∧ (∀ (s : State) (id : Nat) (x : Session), s.session id = some x → x.lastSeen + 1000000000 * s.entry 0x1050 4 ≤ s.now →
    ∃ t, exec (.dtpSessionIdleTimeout id) s = .next t ∧ t.session id = none ∧ t.out = s.out ∧ (∀ k, k ≠ id → t.session k = s.session k)
      ∧ t.mem = s.mem ∧ t.tiles = s.tiles ∧ t.jobs = s.jobs)
  ∧ (∀ (s : State) (id seq : Nat), s.dtpServed = true →
    exec (.dtpDatagramRejected id seq false) s = .next { s with dtpDropped := s.dtpDropped + 1 })
  ∧ (∀ (s : State) (id seq i sub : Nat) (x : Session) (r : EntryRow), Safety.fresh s id seq x → Safety.dtpReady s id = true → sub < 256 →
    isFieldServed i = true → lookupEntry i sub = some r → (r.acc ≠ .wo ∨ sub = 0) →
    ∃ t, exec (.dtpRead id seq [keyOffset (entryKey i sub)]) s = .next t
      ∧ t.out = s.out ++ [.dtp x.port (Safety.replyHeader x id seq 0x11 10)
          { type := 0x11, status := OK, items := [(OK, (s.setSession id { x with lastSeen := s.now }).readView (16 + id) r i sub)] }]
      ∧ ((t.session id).bind fun y => y.highest) = some seq ∧ t.dict = s.dict ∧ t.mem = s.mem ∧ t.tiles = s.tiles)
  ∧ (∀ (s : State) (id seq i sub : Nat) (v : Word) (x : Session) (r : EntryRow), Safety.fresh s id seq x → Safety.dtpReady s id = true → sub < 256 →
    isFieldServed i = true → (s.context (16 + id)).groupState ≠ 1 → Safety.commandEntry i sub = false → lookupEntry i sub = some r →
    r.ty.isContent = false → (r.acc = .rw ∨ r.acc = .rws) → r.cls ≠ .epoch → s.rangeRefusal r i sub v.toNat = none →
    (r.cls = .stopped → s.unitStopped i sub = true) →
    ∃ t, exec (.dtpWrite id seq [(keyOffset (entryKey i sub), v)]) s = .next t ∧ t.entry i sub = v.toNat
      ∧ t.out = s.out ++ [.dtp x.port (Safety.replyHeader x id seq 0x13 2) { type := 0x13, status := OK, items := [(OK, 0)] }]
      ∧ (r.persist = true → t.unstored = s.unstored ++ [{ values := [(entryKey i sub, v.toNat)], contents := [] }])
      ∧ t.mem = s.mem ∧ t.tiles = s.tiles ∧ (∀ k l, entryKey k l ≠ entryKey i sub → t.entry k l = s.entry k l))
  ∧ (∀ (s : State) (id seq : Nat) (data : List Byte) (x : Session), Safety.fresh s id seq x → Safety.dtpReady s id = true →
    (s.context (16 + id)).groupState ≠ 1 → (s.context (16 + id)).transfer = none → s.stagedElsewhere (16 + id) = false →
    data.length ≤ segmentSize x.version →
    ∃ t, exec (.dtpSegmentWrite id seq (keyOffset (entryKey 0x9100 1)) 0 data false) s = .next t ∧ t.pendingState = 1
      ∧ t.out = s.out ++ [.dtp x.port (Safety.replyHeader x id seq 0x23 2) { type := 0x23, status := OK }]
      ∧ (∀ k, k < data.length → Tab.get (Tab.get t.flash [] s.pendingSlot) 0 k = data.getD k 0) ∧ t.mem = s.mem)
  ∧ (∀ (s : State) (id seq o i n : Nat) (v : Word) (data : List Byte) (last : Bool) (x : Session), Safety.fresh s id seq x →
    s.travels (16 + id) o = true → n ≤ segmentSize x.version → data.length ≤ segmentSize x.version →
    (∃ t, exec (.dtpRead id seq [o]) s = .next t ∧ Safety.askedHost s t id seq (.entries [(o, none)]))
      ∧ (∃ t, exec (.dtpWrite id seq [(o, v)]) s = .next t ∧ Safety.askedHost s t id seq (.entries [(o, some v)]))
      ∧ (∃ t, exec (.dtpSegmentRead id seq o i n) s = .next t ∧ Safety.askedHost s t id seq (.segmentRead o i n))
      ∧ (∃ t, exec (.dtpSegmentWrite id seq o i data last) s = .next t ∧ Safety.askedHost s t id seq (.segmentWrite o i data last)))
  ∧ (∀ (s : State) (id seq : Nat) (op : GroupOp) (x : Session), Safety.fresh s id seq x → x.version = 2 →
    s.travels (16 + id) (keyOffset (entryKey 0x1020 1)) = true →
    ∃ t, exec (.dtpGroup id seq op) s = .next t
      ∧ Safety.askedHost s t id seq (.entries [(keyOffset (entryKey 0x1020 1), some (BitVec.ofNat 64 (GroupOp.code op)))]))
  ∧ (∀ (s : State) (id seq gate status : Nat) (v : Word) (data : List Byte) (x : Session) (w : DtpWait) (m : GateMsg), Safety.hears s .field = true →
    (s.fieldGate.outstanding.find? fun (m : GateMsg) => m.seq = gate) = some m → m.origin = .dtp id seq → s.session id = some x →
    (x.waiting.find? fun w => w.seq = seq) = some w → w.seq = seq → w.done = [none] → w.todo = [] → seq ≠ 0xFFFFFFFF →
    ∃ t y, exec (.dictResponse .field gate [(status, v)] data) s = .next t ∧ y = { w with done := [some (status, v.toNat)] }.reply data
      ∧ t.out = s.out ++ [.dtp x.port (Safety.replyHeader x id seq y.type y.payloadLength) y]
      ∧ ((t.session id).map fun z => (z.kept.lookup seq, z.waiting.any fun w => w.seq = seq)) = some (some y, false) ∧ t.dict = s.dict ∧ t.mem = s.mem)


/-! ### Jobs -/

/-- JobControl in its legal states: LOAD queues the check, START makes the job RUNNING with binding to follow, ABORT stops and quenches the group's
tiles and ends a job that has no memory region, RELEASE empties the slot and REARM makes it LOADED again (R247, R252, R253, R255, R392, Table 11-9). START sets every tile of the job's group as R194 says: vector registers zero and readable at once, no modulus register VALID, S1 the rank,
S2 the group size, S3 the job slot, every other sequencer register zero, no loop active, the schedule count 0. -/
def Obligations.JobControls : Prop :=
  (∀ (s : State) (ctx j : Nat), Safety.direct s ctx = true → j < 16 → (s.job j).state = .ready → (s.job j).checking = false → s.deepIdle = false →
    ∃ t, exec (.jobLoad ctx j) s = .next t ∧ t.admitQueue = s.admitQueue ++ [j] ∧ (t.job j).checking = true ∧ t.entry (0x6100 + j) 5 = PENDING
      ∧ Safety.outcome t ctx (0x6100 + j) 1 OK ∧ t.mem = s.mem ∧ t.tiles = s.tiles ∧ ∀ k, k ≠ j → t.job k = s.job k)
  ∧ (∀ (s : State) (ctx j : Nat) (im : Image), Safety.direct s ctx = true → j < 16 → (s.job j).state = .loaded → (s.job j).image = some im →
    ∃ t, exec (.jobStart ctx j) s = .next t ∧ (t.job j).state = .running ∧ (t.job j).bindNext = some 0 ∧ (t.job j).journal = true
      ∧ (t.job j).startedAt = s.now ∧ Safety.outcome t ctx (0x6100 + j) 1 OK ∧ t.mem = s.mem ∧ (∀ k, k ≠ j → t.job k = s.job k)
      ∧ ∀ g, g ∉ (s.job j).group → t.tile g = s.tile g)
  ∧ (∀ (s : State) (ctx j : Nat) (im : Image), Safety.direct s ctx = true → j < 16 → (s.job j).state = .running → (s.job j).image = some im →
    (s.job j).cleaned = false → (∀ g ∈ (s.job j).group, (s.tile g).quenched = false) →
    ∃ t, exec (.jobAbort ctx j) s = .next t ∧ ((t.job j).state = .halted ∨ (t.job j).state = .draining)
      ∧ (∀ g ∈ (s.job j).group, (t.tile g).quenched = true ∧ (t.tile g).run = .halted ∧ (t.tile g).queue = [] ∧ (t.tile g).running = []
          ∧ (t.tile g).leaseEpoch = (s.tile g).leaseEpoch + 1)
      ∧ (im.regions = [] → (s.job j).commits = [] → (t.job j).state = .halted ∧ t.entry (0x6100 + j) 7 = 2) ∧ (im.outputHandles = [] → t.mem = s.mem)
      ∧ Safety.outcome t ctx (0x6100 + j) 1 OK)
  ∧ (∀ (s : State) (ctx j : Nat), Safety.direct s ctx = true → j < 16 → ((s.job j).state = .loaded ∨ (s.job j).state = .halted) →
    ∃ t, exec (.jobRelease ctx j) s = .next t ∧ t.job j = {} ∧ Safety.outcome t ctx (0x6100 + j) 1 OK ∧ t.mem = s.mem
      ∧ (∀ g ∈ (s.job j).group, (t.tile g).run = .idle ∧ (t.tile g).quenched = false) ∧ ∀ k, k ≠ j → t.job k = s.job k)
  ∧ (∀ (s : State) (ctx j : Nat) (im : Image), Safety.direct s ctx = true → j < 16 → (s.job j).state = .halted → (s.job j).image = some im →
    ∃ t, exec (.jobRearm ctx j) s = .next t ∧ (t.job j).state = .loaded ∧ (t.job j).image = some im ∧ (t.job j).group = (s.job j).group
      ∧ t.entry (0x6100 + j) 7 = 0 ∧ Safety.outcome t ctx (0x6100 + j) 1 OK ∧ t.mem = s.mem)
  ∧ (∀ (s : State) (ctx j : Nat) (im : Image), Safety.direct s ctx = true → j < 16 → (s.job j).state = .loaded → (s.job j).image = some im →
    ∃ t, exec (.jobStart ctx j) s = .next t ∧ ∀ g ∈ (s.job j).group,
      (∀ v i, Row.lane ((t.tile g).vreg v) i = 0 ∧ (t.tile g).readyAt v = 0)
        ∧ (∀ q, ((t.tile g).qreg q).valid = false)
        ∧ (t.tile g).sreg 1 = BitVec.ofNat 64 (rankOf (s.job j).group g) ∧ (t.tile g).sreg 2 = BitVec.ofNat 64 (s.job j).group.length
        ∧ (t.tile g).sreg 3 = BitVec.ofNat 64 j ∧ (∀ k, k ∉ [1, 2, 3] → (t.tile g).sreg k = 0)
        ∧ (t.tile g).loops = [] ∧ (t.tile g).sched = 0)

/-- The admission check takes the slot at the head of the queue: the job is LOADED with its tiles in JobTiles, or it stays READY with one of the three
refusals in JobStatus and the failing check in AdmitDetail. An image shorter than a header and a certificate fails check 1 (R247, R250). -/
def Obligations.AdmissionDecides : Prop :=
  (∀ (s : State) (j : Nat) (rest : List Nat), s.ready = true → s.admitQueue = j :: rest → j < 16 → (s.job j).state = .ready →
    ∃ t, exec .admissionCheck s = .next t ∧ t.admitQueue = rest ∧ (t.job j).checking = false ∧ t.mem = s.mem
      ∧ (((t.job j).state = .loaded ∧ t.entry (0x6100 + j) 8 = ((t.job j).group.map fun g => 2 ^ g).sum)
        ∨ ((t.job j).state = .ready ∧ t.tiles = s.tiles ∧ t.entry (0x6100 + j) 5 ∈ [ADMIT_RESOURCE, ADMIT_CERT_INVALID, ADMIT_TIMING]
            ∧ 1 ≤ t.entry (0x6100 + j) 6 / 2 ^ 56)))
  ∧ (∀ (s : State) (j : Nat) (rest : List Nat), s.ready = true → s.admitQueue = j :: rest → j < 16 → s.entry (0x6100 + j) 4 < 264 →
    ∃ t, exec .admissionCheck s = .next t ∧ t.admitQueue = rest ∧ t.entry (0x6100 + j) 5 = ADMIT_CERT_INVALID
      ∧ t.entry (0x6100 + j) 6 / 2 ^ 56 = 1 ∧ t.tiles = s.tiles ∧ t.mem = s.mem)

/-- Binding copies a good descriptor of this device into the handle table, and binding ends with the last one; a bad one ends the job as aborted with its
error before any bundle issues (R70, R71, R242, R253). -/
def Obligations.DescriptorsBind : Prop :=
  (∀ (s : State) (j x a : Nat) (im : Image), j < 16 → (s.job j).state = .running → (s.job j).image = some im → (s.job j).bindNext = some x →
    im.handles.length = x + 1 → (s.job j).handles.length = x + 1 → (im.decl x).kind = 1 → s.isSelf (nodeOf (im.decl x).descAddr) = true →
    a = localOf (im.decl x).descAddr → inStack a 64 = true → s.rangePoisoned a 64 = false →
    s.bindRefusal im x (readDescriptor (s.memBytes a 64)) = none →
    ∃ t, exec (.descriptorBind j) s = .next t ∧ (t.job j).bindNext = none ∧ (t.job j).state = .running ∧ t.mem = s.mem
      ∧ (t.job j).handles[x]? = some (im.boundHandle (s.set? (readDescriptor (s.memBytes a 64)).set) (readDescriptor (s.memBytes a 64))))
  ∧ (∀ (s : State) (j x a code : Nat) (im : Image), j < 16 → (s.job j).state = .running → (s.job j).image = some im → (s.job j).bindNext = some x →
    x < im.handles.length → (im.decl x).kind = 1 → s.isSelf (nodeOf (im.decl x).descAddr) = true →
    a = localOf (im.decl x).descAddr → inStack a 64 = true → s.rangePoisoned a 64 = false →
    s.bindRefusal im x (readDescriptor (s.memBytes a 64)) = some code →
    ∃ t, exec (.descriptorBind j) s = .next t ∧ (t.job j).bindNext = none ∧ (t.job j).state = .draining ∧ (t.job j).drain = .abort
      ∧ (t.job j).abortCode = code ∧ t.entry (0x2200 + j) 6 = code ∧ t.entry (0x2200 + j) 7 = x ∧ t.mem = s.mem ∧ Safety.tilesKeep s t)

/-- A commit: when every tile has halted, the job is DRAINING and an output's descriptor is written with VALID clear; then its first 8 bytes again with
VALID set; then the completion counter is raised and the job is HALTED with Completion NORMAL. Nothing outside the written bytes changes (R72, R254). -/
def Obligations.CommitWrites : Prop :=
  (∀ (s : State) (j x a : Nat) (im : Image), j < 16 → (s.job j).state = .running → (s.job j).image = some im → (s.job j).runs = true →
    s.entry (0x6120 + j) 1 = 0 → ((s.job j).group.all fun g => (s.tile g).hasHalted) = true → im.outputHandles = [x] →
    s.isSelf (nodeOf (im.decl x).descAddr) = true → a = localOf (im.decl x).descAddr → inStack a 64 = true → s.inImage a 64 = false →
    s.rangePoisoned a 64 = false → s.commitWaits im = false →
    ∃ t crc, exec (.jobCommit j) s = .next t ∧ (t.job j).state = .draining ∧ (t.job j).drain = .commit
      ∧ t.memBytes a 64 = (s.descriptorOf im j x false false crc).bytes
      ∧ (∀ b, ¬(a ≤ b ∧ b < a + 64) → t.memByte b = s.memByte b) ∧ t.tiles = s.tiles)
  ∧ (∀ (s : State) (j x a : Nat) (im : Image), j < 16 → (s.job j).image = some im → (s.job j).drain = .commit →
    ((s.job j).commits.any fun c => c.handle = x && !c.validWritten) = true → s.supervisorBusy j (some x) = false →
    s.isSelf (nodeOf (im.decl x).descAddr) = true → a = localOf (im.decl x).descAddr → inStack a 8 = true → s.inImage a 8 = false →
    s.rangePoisoned a 8 = false →
    ∃ t, exec (.descriptorValidWrite j x) s = .next t ∧ x ∈ (t.job j).committed
      ∧ t.memBytes a 8 = (s.descriptorOf im j x true false 0).bytes.take 8
      ∧ (∀ b, ¬(a ≤ b ∧ b < a + 8) → t.memByte b = s.memByte b) ∧ t.tiles = s.tiles)
  ∧ (∀ (s : State) (j a : Nat) (im : Image), j < 16 → (s.job j).state = .draining → (s.job j).image = some im → (s.job j).drain = .commit →
    (s.job j).commits = [] → s.supervisorBusy j none = false → (s.job j).commitFailed = 0 →
    (s.pendingGroups.any fun g => g.job = j) = false → im.cert.completionAddr ≠ 0 → s.isSelf (nodeOf im.cert.completionAddr) = true →
    a = localOf im.cert.completionAddr → inStack a 8 = true → a % 8 = 0 → s.inImage a 8 = false → s.rangePoisoned a 8 = false →
    ∃ t, exec (.completionSignal j) s = .next t ∧ (t.job j).state = .halted ∧ t.entry (0x6100 + j) 7 = 1 ∧ t.entry (0x6100 + j) 5 = OK
      ∧ leNat (t.memBytes a 8) = (leNat (s.memBytes a 8) + im.cert.completionInc) % 2 ^ 64
      ∧ ∀ b, ¬(a ≤ b ∧ b < a + 8) → t.memByte b = s.memByte b)

/-- How a job ends otherwise: the clean-up of an aborted job ends it HALTED with Completion ABORTED, its first error and its tile and bundle;
StopAfterBundle ends it with Completion STOPPED once every tile has stopped and drained, or once those that have not are settled, and latches a snapshot
(R255, R257, R395). -/
def Obligations.JobsEnd : Prop :=
  (∀ (s : State) (j : Nat) (im : Image), j < 16 → (s.job j).image = some im → (s.job j).state = .draining → (s.job j).drain = .abort →
    (s.job j).cleaned = true → s.markingWaits im = false → (s.job j).inFlight = [] →
    ∃ t, exec (.jobAbortCleanup j) s = .next t ∧ (t.job j).state = .halted ∧ t.entry (0x6100 + j) 7 = 2 ∧ t.entry (0x6100 + j) 5 = (s.job j).abortCode
      ∧ t.entry (0x6100 + j) 0x11 = (s.job j).abortTile ∧ t.entry (0x6100 + j) 0x12 = (s.job j).abortBundle ∧ t.mem = s.mem ∧ Safety.tilesKeep s t)
  ∧ (∀ (s : State) (j : Nat) (im : Image), j < 16 → (s.job j).image = some im → (s.job j).state = .running → (s.job j).runs = true →
    s.entry (0x6120 + j) 1 ≠ 0 → ((s.job j).group.all fun g => (s.tile g).isStopped && (s.tile g).drained) = true →
    ∃ t, exec (.jobStopComplete j) s = .next t ∧ (t.job j).state = .halted ∧ t.entry (0x6100 + j) 7 = 3 ∧ t.mem = s.mem
      ∧ (s.entry 0x1100 1 ≠ 7 → t.ticks.map (fun k => k.source) = s.ticks.map (fun k => k.source) ++ [srcStop]))
  ∧ (∀ (s : State) (j : Nat) (im : Image), j < 16 → (s.job j).image = some im → (s.job j).state = .running → (s.job j).runs = true →
    s.entry (0x6120 + j) 1 ≠ 0 → ((s.job j).group.all fun g => s.settled j g) = true → ((s.job j).group.any fun g => !(s.tile g).isStopped) = true →
    ∃ t, exec (.stopSettleTimeout j) s = .next t ∧ (t.job j).state = .halted ∧ t.entry (0x6100 + j) 7 = 3 ∧ t.mem = s.mem
      ∧ ∀ g ∈ (s.job j).group, (t.tile g).queue = [] ∧ (t.tile g).running = [])

/-! ### Bundles -/

/-- The scalar commands of the X slot, presented in a bundle that then issues: each gives SD the value that Table 9-9 states, from the registers as they
stand in the issue cycle, and changes no other register, row or tag (R193, R195, R205). -/
def Obligations.ScalarSlots : Prop :=
  ∀ (s : State) (t sd sa sb : Nat) (imm : BitVec 16) (n : BitVec 6) (level : BitVec 3), Safety.bundleOpen s t →
    Safety.scalarIssue (.xli t sd imm) s t sd (imm.signExtend 64)
    ∧ Safety.scalarIssue (.xlui t sd imm) s t sd (((s.tile t).sreg sd <<< 16) ||| imm.zeroExtend 64)
    ∧ Safety.scalarIssue (.xaddi t sd sa imm) s t sd ((s.tile t).sreg sa + imm.signExtend 64)
    ∧ Safety.scalarIssue (.xadd t sd sa sb) s t sd ((s.tile t).sreg sa + (s.tile t).sreg sb)
    ∧ Safety.scalarIssue (.xsub t sd sa sb) s t sd ((s.tile t).sreg sa - (s.tile t).sreg sb)
    ∧ Safety.scalarIssue (.xmul t sd sa sb) s t sd ((s.tile t).sreg sa * (s.tile t).sreg sb)
    ∧ Safety.scalarIssue (.xand t sd sa sb) s t sd ((s.tile t).sreg sa &&& (s.tile t).sreg sb)
    ∧ Safety.scalarIssue (.xor t sd sa sb) s t sd ((s.tile t).sreg sa ||| (s.tile t).sreg sb)
    ∧ Safety.scalarIssue (.xxor t sd sa sb) s t sd ((s.tile t).sreg sa ^^^ (s.tile t).sreg sb)
    ∧ Safety.scalarIssue (.xshl t sd sa n) s t sd ((s.tile t).sreg sa <<< n.toNat)
    ∧ Safety.scalarIssue (.xshr t sd sa n) s t sd ((s.tile t).sreg sa >>> n.toNat)
    ∧ ∀ i, (s.tile t).loopIndex level.toNat = some i → Safety.scalarIssue (.xidx t sd level) s t sd (BitVec.ofNat 64 i)

/-- The wide-lane commands of the W slot, with sources that are readable and a VALID modulus register: every lane of the result is
the operation's value reduced once, and it is readable after the latency of Table 9-10: in behaviour generation 2,
2, 6 or 8 schedule counts (R90, R91, R92, R209, Table 9-10). -/
def Obligations.WideSlots : Prop :=
  ∀ (s : State) (t vd va vb vc sk qm : Nat), Safety.bundleOpen s t → Safety.modulusReady s t qm →
    (s.tile t).readyAt va ≤ (s.tile t).sched → (s.tile t).readyAt vb ≤ (s.tile t).sched → (s.tile t).readyAt vc ≤ (s.tile t).sched →
    let a (l : Nat) : Int := Row.lane ((s.tile t).vreg va) l
    let b (l : Nat) : Int := Row.lane ((s.tile t).vreg vb) l
    let c (l : Nat) : Int := Row.lane ((s.tile t).vreg vc) l
    let k : Int := ((s.tile t).sreg sk).toNat % 2 ^ 36
    Safety.wideIssue (.vadd t vd va vb qm) s t vd qm (s.latency t 2 3) (fun l => a l + b l)
    ∧ Safety.wideIssue (.vsub t vd va vb qm) s t vd qm (s.latency t 2 3) (fun l => a l - b l)
    ∧ Safety.wideIssue (.vneg t vd va qm) s t vd qm (s.latency t 2 3) (fun l => -a l)
    ∧ Safety.wideIssue (.vred t vd va qm) s t vd qm (s.latency t 2 3) a
    ∧ Safety.wideIssue (.vaddk t vd va sk qm) s t vd qm (s.latency t 2 3) (fun l => a l + k)
    ∧ Safety.wideIssue (.vmul t vd va vb qm) s t vd qm (s.latency t 6 8) (fun l => a l * b l)
    ∧ Safety.wideIssue (.vmulk t vd va sk qm) s t vd qm (s.latency t 6 8) (fun l => a l * k)
    ∧ Safety.wideIssue (.vmad t vd va vb vc qm) s t vd qm (s.latency t 8 11) (fun l => a l * b l + c l)
    ∧ Safety.wideIssue (.vmsb t vd va vb vc qm) s t vd qm (s.latency t 8 11) (fun l => c l - a l * b l)

/-- The movement commands: MLD takes a FULL row into its register's pipeline and empties the tag with CONSUME, MST puts a store on its way, MREL empties
the tag; a store that is due lands and the row turns FULL, with no long operation of the tile waiting for it; a due result reaches its register (R93, R201, R202, R209, R210). -/
def Obligations.MovementSlots : Prop :=
  (∀ (s : State) (t v sb row r : Nat) (consume : Bool), Safety.bundleOpen s t → s.targetRow t sb row = r →
    Safety.rowFree s t r → s.tag t r = .full → (s.tile t).covered r 1 [.write] = false →
    ∃ s2, Safety.issuedWith (.mld t v sb row consume .clean) s t s2
      ∧ (s2.tile t).flight.getLast? = some { reg := v, issued := (s.tile t).sched, ready := (s.tile t).sched + s.latency t 4 5, value := s.rowData t r }
      ∧ (s2.tile t).readyAt v = (s.tile t).sched + s.latency t 4 5 ∧ s2.tag t r = (if consume then .empty else .full) ∧ (∀ k, k ≠ r → s2.tag t k = s.tag t k)
      ∧ (s2.tile t).rows = (s.tile t).rows ∧ (s2.tile t).sregs = (s.tile t).sregs ∧ (s2.tile t).qregs = (s.tile t).qregs)
  ∧ (∀ (s : State) (t v sb row r : Nat) (waitEmpty : Bool), Safety.bundleOpen s t → s.targetRow t sb row = r →
    Safety.rowFree s t r → (s.tile t).readyAt v ≤ (s.tile t).sched → (s.tile t).covered r 1 [.read, .write, .tagged] = false →
    (waitEmpty = true → s.tag t r = .empty) →
    ∃ s2, Safety.issuedWith (.mst t v sb row waitEmpty) s t s2
      ∧ (s2.tile t).stores.getLast? = some { row := r, issued := (s.tile t).sched, completes := (s.tile t).sched + s.latency t 3 4, value := (s.tile t).vreg v }
      ∧ (s2.tile t).tags = (s.tile t).tags ∧ (s2.tile t).rows = (s.tile t).rows ∧ (s2.tile t).flight = (s.tile t).flight
      ∧ (s2.tile t).sregs = (s.tile t).sregs ∧ (s2.tile t).qregs = (s.tile t).qregs)
  ∧ (∀ (s : State) (t sb row r : Nat), Safety.bundleOpen s t → s.targetRow t sb row = r → Safety.rowFree s t r →
    (s.tile t).covered r 1 [.read, .write, .tagged] = false →
    ∃ s2, Safety.issuedWith (.mrel t sb row) s t s2 ∧ s2.tag t r = .empty ∧ (∀ k, k ≠ r → s2.tag t k = s.tag t k)
      ∧ (s2.tile t).rows = (s.tile t).rows ∧ (s2.tile t).sregs = (s.tile t).sregs ∧ (s2.tile t).qregs = (s.tile t).qregs)
  ∧ (∀ (s : State) (t row : Nat) (m : Store), t < 64 → (s.tile t).running = [] →
    ((s.tile t).stores.find? fun m => m.row = row && (s.tile t).storeDue m) = some m →
    ∃ s2, exec (.mstWriteLand t row) s = .next s2 ∧ (∀ l, l < 1024 → Row.lane (s2.rowData t row) l = Row.lane m.value l % 2 ^ 36)
      ∧ s2.tag t row = .full ∧ (∀ k, k ≠ row → s2.rowData t k = s.rowData t k ∧ s2.tag t k = s.tag t k) ∧ s2.mem = s.mem ∧ s2.dict = s.dict
      ∧ ∀ u, u ≠ t → s2.tile u = s.tile u)
  ∧ (∀ (s : State) (t vd : Nat) (r : VResult), t < 64 → ((s.tile t).flight.find? fun r => r.reg = vd && (s.tile t).resultDue r) = some r →
    exec (.wResultWrite t vd) s = .next (s.setTile t
      { s.tile t with vregs := Tab.put (s.tile t).vregs vd r.value, flight := (s.tile t).flight.erase r }))

/-- The narrow view and the modulus registers: XLDN reads a coefficient of a FULL row, XSTN writes 36 bits of one and leaves the tag, QLOAD gives the
register what Table 4-1 holds for a loaded set's limb (R88, R206, R265). -/
def Obligations.NarrowSlots : Prop :=
  (∀ (s : State) (t sd sa c : Nat) (imm : BitVec 16), Safety.bundleOpen s t → s.narrowTarget t sa imm = c → Safety.rowFree s t (c / 1024) →
    s.tag t (c / 1024) = .full → Safety.scalarIssue (.xldn t sd sa imm .clean) s t sd (BitVec.ofNat 64 (s.coefficient t c)))
  ∧ (∀ (s : State) (t sd sa c : Nat) (imm : BitVec 16), Safety.bundleOpen s t → s.narrowTarget t sa imm = c → Safety.rowFree s t (c / 1024) →
    ∃ s2, Safety.issuedWith (.xstn t sd sa imm .clean) s t s2 ∧ s2.coefficient t c = ((s.tile t).sreg sd).toNat % 2 ^ 36
      ∧ (∀ d, d ≠ c → s2.coefficient t d % 2 ^ 36 = s.coefficient t d % 2 ^ 36) ∧ (s2.tile t).tags = (s.tile t).tags
      ∧ (s2.tile t).sregs = (s.tile t).sregs ∧ (s2.tile t).qregs = (s.tile t).qregs ∧ (s2.tile t).flight = (s.tile t).flight ∧ s2.dict = s.dict)
  ∧ (∀ (s : State) (t qd setId limb : Nat) (p : ParamSet), Safety.bundleOpen s t → s.set? setId = some p → limb < p.limbs + p.special →
    ∃ s2, Safety.issuedWith (.qload t qd setId limb) s t s2 ∧ (s2.tile t).qreg qd = p.modReg limb
      ∧ (∀ k, k ≠ qd → (s2.tile t).qreg k = (s.tile t).qreg k) ∧ (s2.tile t).sregs = (s.tile t).sregs ∧ (s2.tile t).rows = (s.tile t).rows
      ∧ (s2.tile t).tags = (s.tile t).tags ∧ (s2.tile t).flight = (s.tile t).flight ∧ s2.dict = s.dict)

/-- The C slot closes a bundle. CNOP and the no-operations of the other slots only advance; LOOP makes the loop the innermost and a loop's last bundle
returns to its first; BAR and HALT stop the tile after their bundle; WAITR and WAITALL issue when nothing covers what they name, and are otherwise
counted as one held cycle that advances nothing; a requested line arrives; a freeze passes and is counted (R195-R199, R208, R213, R214, R225, R236). -/
def Obligations.ControlSlots : Prop :=
  (∀ (s : State) (t : Nat), Safety.bundleOpen s t →
    (∃ s2, exec (.cnop t) s = .next s2 ∧ (s2.tile t).sched = (s.tile t).sched + 1
      ∧ (s2.tile t).nextBundle = (afterBundle (s.tile t).nextBundle (s.tile t).loops).1
      ∧ (s2.tile t).sregs = (s.tile t).sregs ∧ (s2.tile t).tags = (s.tile t).tags ∧ (s2.tile t).rows = (s.tile t).rows
      ∧ s2.mem = s.mem ∧ s2.dict = s.dict ∧ ∀ u, u ≠ t → s2.tile u = s.tile u)
    ∧ (∀ i ∈ [Instr.wnop t, Instr.mnop t, Instr.xnop t], ∃ s2, Safety.issuedWith i s t s2 ∧ (s2.tile t).sregs = (s.tile t).sregs
      ∧ (s2.tile t).flight = (s.tile t).flight ∧ (s2.tile t).tags = (s.tile t).tags ∧ (s2.tile t).rows = (s.tile t).rows ∧ s2.dict = s.dict)
    ∧ (∀ b, ∃ s2, exec (.bar t b) s = .next s2 ∧ (s2.tile t).barWait = .issued b ∧ (s2.tile t).waitCause = causeBarrier ∧ s.now ≤ (s2.tile t).waitAt
      ∧ (s2.tile t).sched = (s.tile t).sched + 1)
    ∧ (∃ s2, exec (.halt t) s = .next s2 ∧ (s2.tile t).run = .halted ∧ (s2.tile t).sched = (s.tile t).sched + 1 ∧ s2.jobs = s.jobs)
    ∧ (∀ (row count : Nat) (any : Bool), (s.tile t).covered row count (if any then [.read, .write, .tagged] else [.write, .tagged]) = false →
        ∃ s2, exec (.waitr t row count any) s = .next s2 ∧ (s2.tile t).sched = (s.tile t).sched + 1 ∧ s2.dict = s.dict)
    ∧ ((s.tile t).queue = [] → (s.tile t).running = [] →
        ∃ s2, exec (.waitall t) s = .next s2 ∧ (s2.tile t).sched = (s.tile t).sched + 1 ∧ s2.dict = s.dict)
    ∧ (∀ (row count : Nat) (any : Bool), (s.tile t).covered row count (if any then [.read, .write, .tagged] else [.write, .tagged]) = true →
        ∃ s2, exec (.waitr t row count any) s = .next s2 ∧ (s2.tile t).run = .held ∧ (s2.tile t).holdCause = causeScoreboard
          ∧ (s2.tile t).sched = (s.tile t).sched ∧ (s2.tile t).nextBundle = (s.tile t).nextBundle
          ∧ s2.entry (0x8100 + t) 2 = satAdd (2 ^ 48 - 1) (s.entry (0x8100 + t) 2) 1))
  ∧ (∀ (s : State) (t index : Nat) (im : Image) (e : Nat × Nat), Safety.bundleOpen s t → s.imageOf t = some im → im.loops[index]? = some e →
    (s.tile t).nextBundle < e.1 →
    ∃ s2, exec (.loop t index) s = .next s2 ∧ (s2.tile t).nextBundle = (s.tile t).nextBundle + 1 ∧ (s2.tile t).sched = (s.tile t).sched + 1
      ∧ (s2.tile t).loops = { first := (s.tile t).nextBundle + 1, last := e.1, trip := e.2, index := 0 } :: (s.tile t).loops)
  ∧ (∀ (s : State) (t : Nat) (f : LoopFrame) (fs : List LoopFrame), Safety.bundleOpen s t → (s.tile t).loops = f :: fs → f.last = (s.tile t).nextBundle →
    f.index + 1 < f.trip →
    ∃ s2, exec (.cnop t) s = .next s2 ∧ (s2.tile t).nextBundle = f.first ∧ (s2.tile t).loops = { f with index := f.index + 1 } :: fs)
  ∧ (∀ (s : State) (t line : Nat), t < 64 → (s.tile t).lineWait.contains line = true →
    ∃ s2, exec (.icacheLineFill t line) s = .next s2 ∧ (s2.tile t).cached line = true ∧ (s2.tile t).lineWait = (s.tile t).lineWait.erase line
      ∧ (s2.tile t).sched = (s.tile t).sched ∧ s2.dict = s.dict ∧ s2.mem = s.mem)
  ∧ (∀ (s : State) (t : Nat), t < 64 → 0 < (s.tile t).freeze →
    ∃ s2, exec (.eccFreezeEnd t) s = .next s2 ∧ (s2.tile t).freeze = 0 ∧ (s2.tile t).sched = (s.tile t).sched
      ∧ s2.entry (0x8100 + t) 5 = satAdd (2 ^ 48 - 1) (s.entry (0x8100 + t) 5) (s.tile t).freeze ∧ s2.mem = s.mem)

/-- A failing check ends the job before the bundle has any effect: reading a vector register before its ready count is a SCHEDULE_SLIP (0x0A01), with the
register and its ready count in the tile's record, and no register, row or tag changes (R209, R211). -/
def Obligations.SlipsEndTheJob : Prop :=
  ∀ (s : State) (t j vd va vb qm : Nat), Safety.bundleOpen s t → s.jobOfTile t = some j → (s.tile t).sched < (s.tile t).readyAt va →
    ∃ s1 s2, exec (.vadd t vd va vb qm) s = .next s1 ∧ exec (.cnop t) s1 = .next s2
      ∧ (s2.job j).state = .draining ∧ (s2.job j).drain = .abort ∧ (s2.job j).abortCode = SCHEDULE_SLIP ∧ (s2.job j).abortTile = t
      ∧ (s2.tile t).record = { ready := (s.tile t).readyAt va, count := (s.tile t).sched, bundle := (s.tile t).nextBundle, code := SCHEDULE_SLIP,
                               target := va, slot := slotW, targetKind := 1 }
      ∧ (s2.tile t).sched = (s.tile t).sched ∧ (s2.tile t).flight = (s.tile t).flight ∧ (s2.tile t).sregs = (s.tile t).sregs
      ∧ (s2.tile t).rows = (s.tile t).rows ∧ (s2.tile t).tags = (s.tile t).tags ∧ s2.mem = s.mem

/-! ### Long operations -/

/-- The long operations without a ledger step enter their tile's queue with their scoreboard entries, and so do the group operations on every tile but the
job's lead one (R217-R223). -/
def Obligations.LongOpsQueue : Prop :=
  ∀ (s : State) (t index sa j : Nat) (im : Image) (op : LongOp) (o : LopInst), Safety.lopReady s t index sa j im op o →
    (op.code = lopNtt → Safety.lopQueued (.ntt t index sa) s t o)
    ∧ (op.code = lopAutomorph → Safety.lopQueued (.automorph t index sa) s t o)
    ∧ (op.code = lopTranspose → Safety.lopQueued (.transpose t index sa) s t o)
    ∧ (op.code = lopBconv → Safety.lopQueued (.bconv t index sa) s t o)
    ∧ (op.code = lopXferIn → Safety.lopQueued (.xferIn t index sa) s t o)
    ∧ (op.code = lopXferOut → Safety.lopQueued (.xferOut t index sa) s t o)
    ∧ (op.code = lopSignalCode → Safety.lopQueued (.lopSignal t index sa) s t o)
    ∧ (op.code = lopFenceCode → Safety.lopQueued (.lopFence t index sa) s t o)
    ∧ (t ≠ (s.job j).lead →
        (op.code = lopRescale → Safety.lopQueued (.rescale t index sa) s t o)
        ∧ (op.code = lopKsip → Safety.lopQueued (.ksip t index sa) s t o)
        ∧ (op.code = lopModdown → Safety.lopQueued (.moddown t index sa) s t o)
        ∧ (op.code = lopBatch → (s.job j).isStandby im index = false → Safety.lopQueued (.batchBootstrap t index sa) s t o)
        ∧ (op.code = lopBatch → (s.job j).isStandby im index = true → Safety.lopQueued (.batchBootstrap t index sa) s t { o with standby := true })
        ∧ (op.code = lopExtract → Safety.lopQueued (.extract t index sa) s t o)
        ∧ (op.code = lopPack → Safety.lopQueued (.pack t index sa) s t o)
        ∧ (op.code = lopModraise → Safety.lopQueued (.modraise t index sa) s t o))

/-- On the lead tile an operation's ledger step is evaluated at issue. A step that is accepted gives the output handle its new row and lets every instance
pass; a step that is refused ends the job with its error and starts no arithmetic. LEDGER takes no place in the queue (R74, R218, R219, R222). -/
def Obligations.LeadTileSteps : Prop :=
  ∀ (s : State) (t index sa j : Nat) (im : Image) (op : LongOp) (o : LopInst), Safety.lopReady s t index sa j im op o →
    (op.code = lopLedger → ∀ h limit used, s.judgeStep j (explicitStep o) = .ok h limit used →
      ∃ s2, exec (.ledger t index sa) s = .next s2 ∧ (s2.job j).handles = (s.job j).handles.set op.hout h
        ∧ (s2.tile t).queue = (s.tile t).queue ∧ (s2.tile t).nextOp = (s.tile t).nextOp + 1 ∧ (s2.tile t).sched = (s.tile t).sched + 1 ∧ s2.mem = s.mem)
    ∧ (op.code = lopLedger → ∀ code handle, s.judgeStep j (explicitStep o) = .refused code handle →
      Safety.stepRefused (.ledger t index sa) s t j code handle)
    ∧ (t = (s.job j).lead →
        (op.code = lopRescale → ∀ h limit used, s.judgeStep j (rescaleStep o) = .ok h limit used →
          ∃ s2, exec (.rescale t index sa) s = .next s2 ∧ (s2.job j).handles = (s.job j).handles.set op.hout h
            ∧ (s2.tile t).queue = (s.tile t).queue ++ [o] ∧ ((s2.job j).groupSteps.any fun p => p.1 = o.ordinal) = true ∧ s2.mem = s.mem)
        ∧ (op.code = lopModraise → ∀ h limit used, s.judgeStep j (modraiseStep o) = .ok h limit used →
          ∃ s2, exec (.modraise t index sa) s = .next s2 ∧ (s2.job j).handles = (s.job j).handles.set op.hout h
            ∧ (s2.tile t).queue = (s.tile t).queue ++ [o] ∧ ((s2.job j).groupSteps.any fun p => p.1 = o.ordinal) = true ∧ s2.mem = s.mem)
        ∧ (op.code = lopModdown → ∃ s2, exec (.moddown t index sa) s = .next s2 ∧ (s2.tile t).queue = (s.tile t).queue ++ [o]
            ∧ ((s2.job j).groupSteps.any fun p => p.1 = o.ordinal) = true ∧ (s2.job j).handles = (s.job j).handles ∧ s2.mem = s.mem)
        ∧ ∀ code handle,
          (op.code = lopRescale → s.judgeStep j (rescaleStep o) = .refused code handle → Safety.stepRefused (.rescale t index sa) s t j code handle)
          ∧ (op.code = lopKsip → s.judgeStep j (ksipStep im o) = .refused code handle → Safety.stepRefused (.ksip t index sa) s t j code handle)
          ∧ (op.code = lopExtract → s.judgeStep j (extractStep o (s.positionsValid t j o)) = .refused code handle →
              Safety.stepRefused (.extract t index sa) s t j code handle)
          ∧ (op.code = lopPack → s.judgeStep j (packStep im o) = .refused code handle → Safety.stepRefused (.pack t index sa) s t j code handle)
          ∧ (op.code = lopModraise → s.judgeStep j (modraiseStep o) = .refused code handle → Safety.stepRefused (.modraise t index sa) s t j code handle))

/-- An operation leaves the queue for its engine where it may (R222). An engine operation that has read its source rows, whose keys have arrived whole and
matched their trailers, and whose operands are in range writes its result rows and releases its scoreboard entries; a FENCE finishes behind what came
before it; a local SIGNAL raises its counter; a transfer in ends with its last row (R182, R218, R222, R224, R227, R228, R235). -/
def Obligations.LongOpsRun : Prop :=
  (∀ (s : State) (t j : Nat) (e : Engine) (im : Image) (o : LopInst) (x : Shape × Nat), t < 64 → (s.tile t).oldestFor e = some o →
    s.jobOfTile t = some j → (s.job j).image = some im → (s.job j).state = .running → s.mayDispatch t j im o = true → x = s.transferShape j im o →
    (o.op.code = lopXferIn → s.isSelf (nodeOf x.2) = true ∨ s.issueStatus (nodeOf x.2) 2 (localOf x.2) = OK) →
    ∃ s2, exec (.longOpDispatch t e) s = .next s2 ∧ (s2.tile t).queue = ((s.tile t).queue.filter fun x => x.id ≠ o.id)
      ∧ (s2.tile t).running.map (fun x => x.id) = (s.tile t).running.map (fun x => x.id) ++ [o.id]
      ∧ (∀ b ∈ (s.tile t).scoreboard, b.mode ≠ .read → b ∈ (s2.tile t).scoreboard) ∧ (s2.tile t).rows = (s.tile t).rows ∧ s2.mem = s.mem
      ∧ s2.jobs = s.jobs ∧ ∀ u, u ≠ t → s2.tile u = s.tile u)
  ∧ (∀ (s : State) (t opId j : Nat) (im : Image) (o : LopInst) (x : RunShape) (rows : List Row), Safety.lopRuns s t opId j im o →
    o.op.code ∉ [lopXferIn, lopXferOut, lopSignalCode, lopFenceCode, lopKeystream] → s.runShape t j o = some x → s.unread t j o = [] →
    s.operandFault t j x o = false → ((if o.standby then [] else o.op.keyEntries).findSome? fun k => s.keyWait t j im o k) = none → s.trailerDue j o = false → o.missRow = none →
    s.constWait t x o = [] → (o.op.code = lopModdown → (s.specialRows j x o).isSome = true) → rows = (s.resultRows t j im x o).take o.rgnD.2 →
    ∃ s2, exec (.longOpFinish t opId .clean) s = .next s2 ∧ (s2.tile t).runningOp opId = none
      ∧ ((s2.tile t).scoreboard.any fun b => b.owner = opId) = false
      ∧ (∀ i, i < rows.length → ∀ l, l < 1024 → Row.lane (s2.rowData t (o.rgnD.1 + i)) l = Row.lane (rows.getD i []) l % 2 ^ 36)
      ∧ (∀ r, ¬(o.rgnD.1 ≤ r ∧ r < o.rgnD.1 + rows.length) → s2.rowData t r = s.rowData t r)
      ∧ s2.mem = s.mem ∧ (s2.job j).state = .running ∧ (∀ k, k ≠ j → s2.job k = s.job k) ∧ ∀ u, u ≠ t → s2.tile u = s.tile u)
  ∧ (∀ (s : State) (t opId j : Nat) (im : Image) (o : LopInst), Safety.lopRuns s t opId j im o → o.op.code = lopFenceCode →
    (s.tile t).fenceDone opId = true →
    exec (.longOpFinish t opId .clean) s = .next (s.setTile t ((s.tile t).retire opId)))
  ∧ (∀ (s : State) (t opId j a : Nat) (im : Image) (o : LopInst), Safety.lopRuns s t opId j im o → o.op.code = lopSignalCode →
    s.isSelf (nodeOf o.op.a64) = true → a = localOf o.op.a64 → s.counterStatus a .clean = OK →
    ∃ s2, exec (.longOpFinish t opId .clean) s = .next s2 ∧ leNat (s2.memBytes a 8) = (leNat (s.memBytes a 8) + o.opnd) % 2 ^ 64
      ∧ (∀ b, ¬(a ≤ b ∧ b < a + 8) → s2.memByte b = s.memByte b) ∧ (s2.tile t).runningOp opId = none ∧ (s2.tile t).rows = (s.tile t).rows)
  ∧ (∀ (s : State) (t opId j : Nat) (im : Image) (o : LopInst), Safety.lopRuns s t opId j im o → o.op.code = lopXferIn → o.op.verifies = false →
    o.rowsDone = o.inRows → (s.tile t).verifyDue = [] →
    ∃ s2, exec (.longOpFinish t opId .clean) s = .next s2 ∧ s2.tile t = (s.tile t).retire opId ∧ s2.mem = s.mem)

/-- TRANSPOSE reads its rows as they stand once they are FULL; within each group of 32 rows, element k of row r of the result comes from row k mod 32
of its group, element 32 x floor(k/32) + r mod 32 (R143, R228). -/
def Obligations.TransposeRows : Prop :=
  (∀ (s : State) (t j : Nat) (im : Image) (o : LopInst), t < 64 → (s.tile t).oldestFor .exchange = some o → s.jobOfTile t = some j →
    (s.job j).image = some im → (s.job j).state = .running → s.mayDispatch t j im o = true → o.op.code = lopTranspose → (s.tile t).running = [] →
    o.groupsRead = 0 → o.taken = [] → (∀ i, i < o.rgnA.2 → s.tag t (o.rgnA.1 + i) = .full) →
    ∃ s2, exec (.longOpDispatch t .exchange) s = .next s2
      ∧ ((s2.tile t).runningOp o.id).map (fun o => o.taken) = some ((List.range o.rgnA.2).map fun i => s.rowData t (o.rgnA.1 + i)))
  ∧ (∀ (s : State) (t opId j : Nat) (im : Image) (o : LopInst), Safety.lopRuns s t opId j im o → o.op.code = lopTranspose → o.taken.length % 32 = 0 →
    o.taken.length = o.rgnD.2 → s.unread t j o = [] → o.missRow = none →
    ∃ s2, exec (.longOpFinish t opId .clean) s = .next s2 ∧ (s2.tile t).runningOp opId = none ∧ ∀ r k, r < o.taken.length → k < 1024 →
      Row.lane (s2.rowData t (o.rgnD.1 + r)) k = Row.lane (o.taken.getD (32 * (r / 32) + k % 32) []) (32 * (k / 32) + r % 32) % 2 ^ 36)

/-- What reaches a running operation: a constant line; a row of a transfer in dispatch order, of this device's memory or from another node; the check of a
verified body, which turns its rows FULL together or ends the job with DATA_CRC; the completion of a SIGNAL; and the end of a tag hold that outlasts the
job's bound (R102, R229, R230, R232, R233, R235). -/
def Obligations.LongOpsProgress : Prop :=
  (∀ (s : State) (t line : Nat), t < 64 → s.awaitsLine t line = true → (s.tile t).constLines.length ≤ 16 →
    ∃ s2, exec (.constantLineFill t line) s = .next s2 ∧ line ∈ (s2.tile t).constLines ∧ (s2.tile t).constLines.length ≤ 16
      ∧ (s2.tile t).running = (s.tile t).running ∧ (s2.tile t).rows = (s.tile t).rows ∧ s2.mem = s.mem ∧ s2.dict = s.dict)
  ∧ (∀ (s : State) (t opId j row : Nat) (im : Image) (o : LopInst) (x : Shape × Nat) (data : List Byte), Safety.lopRuns s t opId j im o →
    o.op.code = lopXferIn → o.op.copies = false → o.rowsDone < o.inRows → (s.tile t).earlierUnwritten opId = false → row = o.rgnD.1 + o.rowsDone →
    (o.op.overwrites = true ∨ (s.tag t row = .empty ∧ (s.tile t).verifyDue.contains row = false)) → x = s.transferShape j im o →
    (s.isSelf (nodeOf x.2) = true → ((s.sourceWords t j x o o.rowsDone).any fun p => (s.placeWaits p).isSome || s.placePoisoned p) = false) →
    (s.isSelf (nodeOf x.2) = false → (s.remoteOps.any fun r => r.issuer = t && r.opId = opId) = false) →
    ∃ s2, exec (.fetchRowWrite t opId data .clean) s = .next s2
      ∧ (∀ l, l < 1024 → Row.lane (s2.rowData t row) l = Row.lane (s.fetchedRow t j im x o o.rowsDone data) l % 2 ^ 36)
      ∧ ((s2.tile t).runningOp opId).map (fun o => o.rowsDone) = some (o.rowsDone + 1) ∧ (∀ r, r ≠ row → s2.rowData t r = s.rowData t r) ∧ s2.mem = s.mem
      ∧ ((s.tile t).running = [o] → (s.isProtectedRow t row = false → s2.tag t row = .full) ∧ ∀ r, r ≠ row → s2.tag t r = s.tag t r))
  ∧ (∀ (s : State) (t opId j : Nat) (im : Image) (o : LopInst) (h : Handle), Safety.lopRuns s t opId j im o → o.op.code = lopXferIn →
    o.op.verifies = true → (s.job j).handle? o.op.hina = some h → o.inRows ≠ 0 → o.rowsDone = o.inRows → o.sent = false →
    ∃ s2, exec (.xferVerifyMatch t opId) s = .next s2 ∧ s2.mem = s.mem ∧ (s2.tile t).rows = (s.tile t).rows
      ∧ (crc64 o.copy = h.bodyCrc → ((s2.tile t).runningOp opId).map (fun o => o.sent) = some true)
      ∧ (crc64 o.copy = h.bodyCrc → (s.tile t).running = [o] → ∀ i, i < o.inRows → s.isProtectedRow t (o.rgnD.1 + i) = false → s2.tag t (o.rgnD.1 + i) = .full)
      ∧ (crc64 o.copy ≠ h.bodyCrc → (s2.job j).state = .draining ∧ (s2.job j).abortCode = DATA_CRC
          ∧ ∀ i, i < o.rgnD.2 → s2.tag t (o.rgnD.1 + i) = .poison))
  ∧ (∀ (s : State) (t opId : Nat), t < 64 → (s.tile t).signalsOut.contains opId = true → (s.remoteOps.any fun r => r.waits) = false →
    ∃ s2, exec (.signalCompletion t opId OK) s = .next s2 ∧ (s2.tile t).signalsOut = (s.tile t).signalsOut.erase opId
      ∧ s2.remoteOps = (s.remoteOps.filter fun r => !(r.issuer = t && r.opId = opId)) ∧ s2.mem = s.mem ∧ s2.jobs = s.jobs)
  ∧ (∀ (s : State) (t j row since : Nat) (im : Image), t < 64 → s.jobOfTile t = some j → (s.job j).image = some im → (s.job j).state = .running →
    (s.tile t).run = .held → Tab.get? (s.tile t).heldRows row = some since → since + s.durationBound j < s.now →
    ∃ s2, exec (.waitTimeout t 0 row) s = .next s2 ∧ (s2.job j).state = .draining ∧ (s2.job j).drain = .abort ∧ (s2.job j).abortCode = WAIT_TIMEOUT
      ∧ (s2.job j).abortTile = t ∧ (s2.tile t).record.code = WAIT_TIMEOUT ∧ (s2.tile t).record.target = row ∧ s2.mem = s.mem)

/-! ### Barriers and direct conversion -/

/-- A tile arrives once its operations have finished. The release of a job on one device, at which no span opens or closes and no phase begins, lets every
tile of its group issue again; a RELEASE of the current epoch does the same on a device that has reported its arrival (R236, R320). A group pending on a job takes effect at the job's next release: its policy entry has the committed value once the barrier releases (R40). -/
def Obligations.BarriersMeet : Prop :=
  (∀ (s : State) (t j b : Nat), t < 64 → s.jobOfTile t = some j → (s.tile t).barWait = .issued b → (s.job j).state = .running →
    (s.tile t).queue = [] → (s.tile t).running = [] →
    ∃ s2, exec (.barrierArrive t) s = .next s2 ∧ (s2.tile t).barWait = .arrived b ∧ (s2.barrier b).arrived = (s.barrier b).arrived ++ [t]
      ∧ (s2.barrier b).lastArrival = s.now ∧ (s2.barrier b).limit = 1000 * s.entry 0x4010 3 ∧ s2.mem = s.mem ∧ s2.jobs = s.jobs)
  ∧ (∀ (s : State) (j b : Nat) (im : Image), j < 16 → s.waitingAt j = some b → (s.job j).state = .running → (s.job j).image = some im →
    im.cert.devices ≤ 1 → im.spans = [] → im.phases = [] → (s.job j).span = none → (s.pendingGroups.any fun g => g.job = j) = false →
    ∃ s2, exec (.barrierRelease j) s = .next s2 ∧ (s2.job j).releases = (s.job j).releases + 1 ∧ s2.barrier b = {} ∧ s2.mem = s.mem
      ∧ ∀ t ∈ (s.job j).group, (s2.tile t).run = .issuing ∧ (s2.tile t).barWait = .none ∧ (s2.tile t).sched = (s.tile t).sched)
  ∧ (∀ (s : State) (j b : Nat) (im : Image), b < 64 → s.barrierJob b = some j → (s.job j).image = some im → (s.barrier b).sent = true →
    im.spans = [] → im.phases = [] → (s.job j).span = none → (s.pendingGroups.any fun g => g.job = j) = false →
    ∃ s2, exec (.releaseFrame b (s.barrierEpoch b)) s = .next s2 ∧ (s2.job j).releases = (s.job j).releases + 1 ∧ s2.barrier b = {} ∧ s2.mem = s.mem
      ∧ ∀ t ∈ (s.job j).group, (s2.tile t).run = .issuing ∧ (s2.tile t).barWait = .none ∧ (s2.tile t).sched = (s.tile t).sched)
  ∧ (∀ (s : State) (b j child : Nat), b < 64 → s.barrierJob b = some j → (s.barrier b).children.contains child = false →
    ∃ s2, exec (.arriveFrame b (s.barrierEpoch b) child) s = .next s2 ∧ (s2.barrier b).children = (s.barrier b).children ++ [child]
      ∧ (s2.barrier b).arrived = (s.barrier b).arrived ∧ s2.tiles = s.tiles ∧ s2.jobs = s.jobs ∧ s2.mem = s.mem)
  ∧ (∀ (s : State) (b j epoch child : Nat), b < 64 → s.barrierJob b = some j → epoch ≠ s.barrierEpoch b →
    exec (.arriveFrame b epoch child) s = .next (s.bump (0x4400 + b) 5 1) ∧ exec (.releaseFrame b epoch) s = .next (s.bump (0x4400 + b) 5 1))
  ∧ (∀ (s : State) (b j : Nat), b < 64 → s.barrierJob b = some j → s.allArrived j b = true →
    (s.barrier b).lastArrival + (s.barrier b).limit ≤ s.now → (s.job j).state = .running →
    ∃ s2, exec (.barrierTimeout b) s = .next s2 ∧ (s2.job j).state = .draining ∧ (s2.job j).drain = .abort ∧ (s2.job j).abortCode = FABRIC_TIMEOUT
      ∧ s2.barrierEpoch b = (s.barrierEpoch b + 1) % 65536 ∧ s2.barrier b = {} ∧ s2.mem = s.mem ∧ Safety.tilesKeep s s2)
  ∧ (∀ (s : State) (j b v ctx id d : Nat) (im : Image), j < 16 → s.waitingAt j = some b → (s.job j).state = .running → (s.job j).image = some im →
    im.cert.devices ≤ 1 → im.spans = [] → im.phases = [] → (s.job j).span = none → v < 3 →
    s.hasContext ctx = true → (s.context ctx).groupId = id →
    s.pendingGroups = [{ ctx := ctx, id := id, job := j, staged := [(entryKey (0x2200 + j) 1, v)], deadline := d }] →
    ∃ s2, exec (.barrierRelease j) s = .next s2 ∧ s2.entry (0x2200 + j) 1 = v ∧ s2.pendingGroups = [] ∧ (s2.context ctx).groupState = 3
      ∧ s2.mem = s.mem ∧ ∀ t ∈ (s.job j).group, (s2.tile t).run = .issuing)

/-- The direct conversion: START runs on the lowest free tile with what 0x2820 holds; a conversion between formats of this device's memory writes its result
and nothing else, an ENCODE its body and the header before it; CANCEL ends it with GROUP_DISCARDED and leaves every byte outside its destination (R120, R121, R122). -/
def Obligations.DirectConversion : Prop :=
  (∀ (s : State) (ctx t : Nat), Safety.direct s ctx = true → s.conversion = none → s.convTile = some t →
    cwValid (s.entry 0x2820 4) (s.entry 0x2820 3) (s.set? (cwSet (s.entry 0x2820 4))) = true →
    (cwMode (s.entry 0x2820 4) = 1 → s.entry 0x2820 2 % 64 = 0) → s.convReach (s.convEntries t) = true →
    (s.isSelf (nodeOf (s.entry 0x2820 1)) = true ∨ s.issueStatus (nodeOf (s.entry 0x2820 1)) 2 (localOf (s.entry 0x2820 1)) = OK) →
    ∃ s2, exec (.convStart ctx) s = .next s2
      ∧ s2.conversion = some { tile := t, source := s.entry 0x2820 1, destination := s.entry 0x2820 2, count := s.entry 0x2820 3, word := s.entry 0x2820 4 }
      ∧ s2.entry 0x2820 6 = PENDING ∧ s2.entry 0x2820 7 = t ∧ s2.entry (0xA0C0 + t) 1 = 0 ∧ Safety.outcome s2 ctx 0x2820 5 OK
      ∧ s2.mem = s.mem ∧ s2.tiles = s.tiles ∧ s2.jobs = s.jobs)
  ∧ (∀ (s : State) (ctx : Nat) (c : Conversion), Safety.direct s ctx = true → s.conversion = some c →
    ∃ s2, exec (.convCancel ctx) s = .next s2 ∧ s2.conversion = none ∧ s2.entry 0x2820 6 = GROUP_DISCARDED ∧ s2.entry 0x2820 9 = s.fabricTime
      ∧ Safety.outcome s2 ctx 0x2820 5 OK ∧ (s.isSelf (nodeOf c.destination) = false → s2.mem = s.mem)
      ∧ (∀ x, ¬(localOf c.destination ≤ x ∧ x < localOf c.destination + c.destLength (s.convSet c)) → s2.memByte x = s.memByte x)
      ∧ s2.tiles = s.tiles ∧ s2.jobs = s.jobs)
  ∧ (∀ (s : State) (c : Conversion) (a status : Nat) (remote b : List Byte), s.conversion = some c → cwMode c.word = 0 → c.stage = .reading →
    s.remoteOps.any c.owns = false → s.convStatus c status = OK → s.isSelf (nodeOf c.destination) = true → a = localOf c.destination →
    b = (convertFormat c.word c.count (s.convSource c remote)).1 → s.rangePoisoned a b.length = false →
    ∃ s2, exec (.convComplete status remote) s = .next s2 ∧ s2.conversion = none ∧ s2.entry 0x2820 6 = OK ∧ s2.memBytes a b.length = b
      ∧ (∀ x, ¬(a ≤ x ∧ x < a + b.length) → s2.memByte x = s.memByte x) ∧ s2.tiles = s.tiles ∧ s2.jobs = s.jobs)
  ∧ (∀ (s : State) (c : Conversion) (a status : Nat) (remote : List Byte) (p : ParamSet) (r : ConvResult), s.conversion = some c → cwMode c.word = 1 →
    c.stage = .reading → s.convSet c = some p → s.remoteOps.any c.owns = false → s.convStatus c status = OK → s.isSelf (nodeOf c.destination) = true →
    a = localOf c.destination → localOf (c.destination + 64) = a + 64 → r = s.convResult c (s.convSource c remote) →
    s.rangePoisoned a (64 + r.body.length) = false →
    ∃ s2, exec (.convComplete status remote) s = .next s2 ∧ s2.conversion = none ∧ s2.entry 0x2820 6 = OK ∧ r.measured = some (s2.entry 0x2820 8)
      ∧ s2.memBytes a 64 = r.header ∧ s2.memBytes (a + 64) r.body.length = r.body
      ∧ (∀ x, ¬(a ≤ x ∧ x < a + 64 + r.body.length) → s2.memByte x = s.memByte x) ∧ s2.tiles = s.tiles ∧ s2.jobs = s.jobs)
  ∧ (∀ (s : State) (c : Conversion) (code status : Nat) (remote : List Byte), s.conversion = some c → c.stage = .reading → s.remoteOps.any c.owns = false →
    s.convStatus c status = code → code ≠ OK →
    ∃ s2, exec (.convComplete status remote) s = .next s2 ∧ s2.conversion = none ∧ s2.entry 0x2820 6 = code
      ∧ (∀ x, ¬(localOf c.destination ≤ x ∧ x < localOf c.destination + c.destLength (s.convSet c)) → s2.memByte x = s.memByte x)
      ∧ s2.tiles = s.tiles ∧ s2.jobs = s.jobs)

/-! ### Geyser -/

/-- Streams open: KEYSTREAM_OPEN binds the lowest free slot where no earlier open waits, a waiting open takes a slot that comes free, the metering windows
that have passed give their bytes back, and a header that passes its checks makes the stream CHECKED and is kept (R177, R178, R181). -/
def Obligations.StreamsOpen : Prop :=
  (∀ (s : State) (t index sa j k : Nat) (im : Image) (op : LongOp) (o : LopInst) (e : StreamEntry), Safety.lopReady s t index sa j im op o →
    op.code = lopKeystream → im.streams[bits op.tab 0 8]? = some e → (s.job j).opened.contains (bits op.tab 0 8) = false → s.openWaits = [] →
    s.freeStream = some k → s.sourceGranted im e = true → Safety.sourceReach s e = true →
    ∃ s2, exec (.keystreamOpen t index sa) s = .next s2 ∧ (s2.stream k).state = 1 ∧ (s2.stream k).bound = true ∧ (s2.stream k).job = j
      ∧ (s2.stream k).entry = bits op.tab 0 8 ∧ (s2.stream k).bytesRead = 0 ∧ (s2.job j).opened = (s.job j).opened ++ [bits op.tab 0 8]
      ∧ (∀ i, i ≠ k → s2.stream i = s.stream i) ∧ s2.openWaits = [] ∧ (s2.tile t).nextOp = (s.tile t).nextOp + 1 ∧ (s2.tile t).queue = (s.tile t).queue
      ∧ s2.mem = s.mem)
  ∧ (∀ (s : State) (k : Nat) (w : OpenWait) (rest : List OpenWait) (im : Image) (e : StreamEntry), s.openWaits = w :: rest → s.freeStream = some k →
    (s.job w.job).image = some im → im.streams[w.entry]? = some e → s.sourceGranted im e = true → Safety.sourceReach s e = true →
    ∃ s2, exec .streamSlotBind s = .next s2 ∧ s2.openWaits = rest ∧ (s2.stream k).state = 1 ∧ (s2.stream k).bound = true ∧ (s2.stream k).job = w.job
      ∧ (s2.stream k).entry = w.entry ∧ (s2.stream k).out = w.out ∧ (s2.tile w.tile).runningOp w.opId = none ∧ (∀ i, i ≠ k → s2.stream i = s.stream i)
      ∧ s2.mem = s.mem)
  ∧ (∀ (s : State) (k m : Nat) (im : Image) (e : StreamEntry), s.rateWindowAt < s.fabricTime / 1000 → m = s.fabricTime / 1000 - s.rateWindowAt →
    Safety.sourcesReach s = true → k < 16 → s.streamEntry (s.stream k) = some (im, e) →
    ∃ s2, exec .rateWindow s = .next s2 ∧ s2.rateWindowAt = s.fabricTime / 1000
      ∧ (s2.stream k).windowBytes = (s.stream k).windowBytes - m * e.budget ∧ (s2.stream k).state = (s.stream k).state
      ∧ (s2.stream k).bytesRead = (s.stream k).bytesRead ∧ s2.tiles = s.tiles ∧ s2.mem = s.mem ∧ s2.jobs = s.jobs)
  ∧ (∀ (s : State) (k : Nat) (granule : List Byte) (im : Image) (e : StreamEntry) (h : KeyHeader), k < 16 → s.streamEntry (s.stream k) = some (im, e) →
    (s.stream k).state = 1 → e.sourceKind ≠ 4 → s.arrivedAt k e = true → s.sourcePoisoned e 0 (min 256 e.wireLength) = false →
    h = readHeader (s.sourceBytes e 0 256 granule) → s.headerError (s.stream k).job im h e (s.stream k).out = none → Safety.sourceReach s e = true →
    ∃ s2, exec (.keyHeaderCheck k granule) s = .next s2 ∧ (s2.stream k).state = 2 ∧ (s2.stream k).header = some h
      ∧ (s2.stream k).slotHeader = (s.sourceBytes e 0 256 granule).take 128
      ∧ (s2.stream k).bytesRead = (s.stream k).bytesRead + (128 + if hasPrefix h.kind then 16 else 0)
      ∧ Tab.get? (s2.job (s.stream k).job).keyHeaders (s.stream k).entry = some h ∧ s2.tiles = s.tiles ∧ s2.mem = s.mem)
  ∧ (∀ (s : State) (k code : Nat) (granule : List Byte) (im : Image) (e : StreamEntry) (h : KeyHeader), k < 16 → s.streamEntry (s.stream k) = some (im, e) →
    (s.stream k).state = 1 → e.sourceKind ≠ 4 → s.arrivedAt k e = true → s.sourcePoisoned e 0 (min 256 e.wireLength) = false →
    h = readHeader (s.sourceBytes e 0 256 granule) → s.headerError (s.stream k).job im h e (s.stream k).out = some code →
    (s.job (s.stream k).job).state = .running →
    ∃ s2, exec (.keyHeaderCheck k granule) s = .next s2 ∧ (s2.stream k).state = 5 ∧ (s2.stream k).error = code
      ∧ (s2.job (s.stream k).job).state = .draining ∧ (s2.job (s.stream k).job).abortCode = code ∧ s2.mem = s.mem)

/-- Rows of a key arrive: a stored row is written to every tile that keeps it once each of those rows is EMPTY, a SHAKE128 core writes the next uniform row
to the tiles it serves, a matching trailer ends the stream DONE and frees its slot, and the owner of a multicast sends its next half ring once its members
have signalled (R160, R181, R182, R187, R190). A stream of a running job that fails is FAILED with its error, which ends the job: a trailer that does not
match, a source read that fails, a multicast owner whose credit does not come, a member whose data does not come (R179, R182, R184, R191). -/
def Obligations.StreamsCarryOrFail : Prop :=
  (∀ (s : State) (k : Nat) (data bs : List Byte) (im : Image) (e : StreamEntry) (h : KeyHeader) (row : KeyRow) (sets : ParamSet × ParamSet)
      (ks : List (Nat × Nat)) (r : Nat × Nat), k < 16 → s.streamEntry (s.stream k) = some (im, e) → (s.stream k).header = some h →
    nextStored (s.streamRows h e) (s.stream k).storedRow = some row → s.keySets h = some sets → ((s.stream k).state = 2 ∨ (s.stream k).state = 3) →
    (row.wire = 0 ∨ s.arrivedAt k e = true) → (e.sourceKind = 1 ∨ e.sourceKind = 2 ∨ (s.stream k).windowBytes < e.budget) →
    r = rowRange h sets.2 (s.stream k) row → s.sourcePoisoned e r.1 r.2 = false → Safety.sourceReach s e = true →
    ks = s.keepers (s.stream k).job e h (s.stream k).storedRow →
    (∀ p ∈ ks, s.ringReady p.1 e (s.tileShare (s.stream k).job p.1 h e) (s.keptStored (s.stream k).job p.1 h e (s.stream k).storedRow)
      (Tab.get (s.stream k).uniform 0 p.1) p.2 = true) → bs = s.sourceBytes e r.1 r.2 data →
    ∃ s2, exec (.keyRowWrite k data) s = .next s2 ∧ (s2.stream k).state = 3 ∧ (s2.stream k).storedRow = (s.stream k).storedRow + 1
      ∧ (s2.stream k).bytesRead = (s.stream k).bytesRead + row.wire ∧ s2.mem = s.mem
      ∧ (∀ p ∈ ks, ∀ l, l < 1024 → Row.lane (s2.rowData p.1 (e.ringRow p.2)) l = Row.lane (storedRow h sets.2 row bs) l % 2 ^ 36)
      ∧ ∀ u r, (∀ p ∈ ks, ¬(p.1 = u ∧ e.ringRow p.2 = r)) → s2.rowData u r = s.rowData u r ∧ s2.tag u r = s.tag u r)
  ∧ (∀ (s : State) (k t i : Nat) (im : Image) (e : StreamEntry) (h : KeyHeader) (sets : ParamSet × ParamSet) (row : KeyRow) (ts : List Nat),
    k < 16 → s.lateStreams = [] → s.streamEntry (s.stream k) = some (im, e) → (s.stream k).header = some h → s.keySets h = some sets →
    s.nextUniform (s.stream k) h e t = some i → row = (s.tileShare (s.stream k).job t h e).getD i default → (s.stream k).state ∈ [2, 3, 4] →
    (s.job (s.stream k).job).group.contains t = true → ts = s.uniformTargets (s.stream k) h sets.1 row t → ts ≠ [] →
    (∀ u ∈ ts, s.ringReady u e (s.tileShare (s.stream k).job u h e) (s.keptStored (s.stream k).job u h e (s.stream k).storedRow)
      (Tab.get (s.stream k).uniform 0 u) i = true) →
    ∃ s2, exec (.uniformRowWrite k t) s = .next s2 ∧ (∀ u ∈ ts, Tab.get (s2.stream k).uniform 0 u = Tab.get (s.stream k).uniform 0 t + 1)
      ∧ (∀ u ∈ ts, ∀ l, l < 1024 → Row.lane (s2.rowData u (e.ringRow i)) l = Row.lane (uniformRow h sets.1 sets.2 row) l % 2 ^ 36)
      ∧ (∀ u r, ¬(u ∈ ts ∧ r = e.ringRow i) → s2.rowData u r = s.rowData u r ∧ s2.tag u r = s.tag u r) ∧ s2.mem = s.mem
      ∧ ∀ u, u ∉ ts → s2.tile u = s.tile u)
  ∧ (∀ (s : State) (k : Nat) (trailer : Word) (im : Image) (e : StreamEntry) (got : Nat), k < 16 → s.streamEntry (s.stream k) = some (im, e) →
    (s.stream k).bytesRead + 8 = e.wireLength → ((s.stream k).state = 3 ∨ (s.stream k).state = if e.sourceKind = 4 then 1 else 2) → s.arrivedAt k e = true →
    s.sourcePoisoned e (s.stream k).bytesRead 8 = false → got = leNat (s.sourceBytes e (s.stream k).bytesRead 8 (leBytes 8 trailer.toNat)) →
    (got = crc64Value (s.stream k).crc → (e.sourceKind = 3 → s.isSelf (nodeOf (Config.mcastCounter e.mcastGroup)) = false) →
      ∃ s2, exec (.keyTrailerCheck k trailer) s = .next s2 ∧ (s2.stream k).state = 4 ∧ (s2.stream k).bound = false
        ∧ (s2.stream k).bytesRead = e.wireLength ∧ (s.stream k).entry ∈ (s2.job (s.stream k).job).keysMatched ∧ s2.tiles = s.tiles ∧ s2.mem = s.mem)
    ∧ (got ≠ crc64Value (s.stream k).crc → (s.job (s.stream k).job).state = .running →
      ∃ s2, exec (.keyTrailerCheck k trailer) s = .next s2 ∧ (s2.stream k).state = 5 ∧ (s2.stream k).error = KEY_CRC
        ∧ (s2.job (s.stream k).job).state = .draining ∧ (s2.job (s.stream k).job).abortCode = KEY_CRC ∧ s2.mem = s.mem
        ∧ ∀ t ∈ (s.job (s.stream k).job).group, ∀ i, i < e.destRows → s2.tag t (e.destRow + i) = .poison))
  ∧ (∀ (s : State) (k : Nat) (im : Image) (e : StreamEntry) (off : Nat), k < 16 → s.streamEntry (s.stream k) = some (im, e) → e.sourceKind = 4 →
    (s.stream k).bound = true → (s.stream k).state ≠ 5 → off = 512 * e.ringKib * (s.stream k).windowsSent → off < e.wireLength →
    s.windowPermitted (s.stream k) e = true → (s.stream k).windowBytes < e.budget →
    s.sourcePoisoned e off (min (512 * e.ringKib) (e.wireLength - off)) = false →
    ∃ s2, exec (.mcastWindowSend k) s = .next s2 ∧ (s2.stream k).state = 3 ∧ (s2.stream k).windowsSent = (s.stream k).windowsSent + 1
      ∧ s2.tiles = s.tiles ∧ s2.mem = s.mem ∧ s2.jobs = s.jobs)
  ∧ (∀ (s : State) (k error : Nat) (im : Image) (e : StreamEntry), k < 16 → s.streamEntry (s.stream k) = some (im, e) → (s.stream k).bound = true →
    1 ≤ (s.stream k).state → (s.stream k).state ≤ 3 → error ∈ readErrors → (s.job (s.stream k).job).state = .running →
    ∃ s2, exec (.streamReadFail k error) s = .next s2 ∧ (s2.stream k).state = 5 ∧ (s2.stream k).error = error
      ∧ (s2.job (s.stream k).job).state = .draining ∧ (s2.job (s.stream k).job).abortCode = error ∧ s2.mem = s.mem
      ∧ ∀ t ∈ (s.job (s.stream k).job).group, ∀ i, i < e.destRows → s2.tag t (e.destRow + i) = .poison)
  ∧ (∀ (s : State) (k : Nat) (im : Image) (e : StreamEntry), k < 16 → s.streamEntry (s.stream k) = some (im, e) → (s.stream k).bound = true →
    (s.stream k).state ≠ 5 → s.mcastWaiting (s.stream k) e = true → (s.stream k).waitSince + (s.stream k).creditTimeout < s.now →
    (s.job (s.stream k).job).state = .running →
    (e.sourceKind = 4 → ∃ s2, exec (.mcastCreditTimeout k) s = .next s2 ∧ (s2.stream k).state = 5 ∧ (s2.stream k).error = FABRIC_TIMEOUT
      ∧ (s2.job (s.stream k).job).state = .draining ∧ (s2.job (s.stream k).job).abortCode = FABRIC_TIMEOUT ∧ s2.mem = s.mem)
    ∧ (e.sourceKind = 3 → ∃ s2, exec (.mcastIdleTimeout k) s = .next s2 ∧ (s2.stream k).state = 5 ∧ (s2.stream k).error = FABRIC_TIMEOUT
      ∧ (s2.job (s.stream k).job).state = .draining ∧ (s2.job (s.stream k).job).abortCode = FABRIC_TIMEOUT ∧ s2.mem = s.mem))

/-! ### Scratchpad -/

/-- The narrow view and the tag command: a read answers the coefficient and records the row's tag, a write replaces one coefficient and keeps the tag;
RowTagClear turns the POISON rows of its range EMPTY and changes no other tag and no row (R265, R266, R271). Rows are kept sound: a verify read turns a protected row FULL or POISON, a write-back is retired, the scrubber reads the next row and poisons
an uncorrectable one (R181, R269, R270, R272, R273). -/
def Obligations.RowsAndNarrowView : Prop :=
  (∀ (s : State) (ctx t c : Nat), Safety.direct s ctx = true → t = s.narrowTile → c = s.narrowIndex → s.narrowRefusal = none →
    ∃ s2, exec (.narrowRead ctx .clean) s = .next s2 ∧ s2.out = s.out ++ [.dictRead ctx (s.coefficient t c)] ∧ Safety.outcome s2 ctx 0x3480 2 OK
      ∧ s2.entry 0x3480 3 = (s.tag t (c / 1024)).code ∧ s2.entry 0x3480 4 = OK ∧ s2.mem = s.mem ∧ s2.jobs = s.jobs
      ∧ ∀ u r, s2.rowData u r = s.rowData u r ∧ s2.tag u r = s.tag u r)
  ∧ (∀ (s : State) (ctx t c : Nat) (v : Word), Safety.direct s ctx = true → t = s.narrowTile → c = s.narrowIndex → s.narrowRefusal = none →
    s.unitStopped 0x3480 2 = true →
    ∃ s2, exec (.narrowWrite ctx v .clean) s = .next s2 ∧ s2.coefficient t c = v.toNat % 2 ^ 36 ∧ Safety.outcome s2 ctx 0x3480 2 OK
      ∧ (∀ k, k ≠ c → s2.coefficient t k % 2 ^ 36 = s.coefficient t k % 2 ^ 36) ∧ (∀ u r, s2.tag u r = s.tag u r)
      ∧ (∀ u r, u ≠ t → s2.rowData u r = s.rowData u r) ∧ s2.mem = s.mem ∧ s2.jobs = s.jobs)
  ∧ (∀ (s : State) (ctx t first count : Nat), Safety.direct s ctx = true → s.tileEnabled t = true → s.tileState t ≠ 4 → 0 < count → first + count ≤ 3072 →
    ((s.jobOfTile t).any fun j => (s.job j).active) = false →
    ∃ s2, exec (.rowTagClear ctx (BitVec.ofNat 64 (t * 2 ^ 24 + first * 2 ^ 12 + count))) s = .next s2 ∧ Safety.outcome s2 ctx 0x3480 5 OK
      ∧ (∀ u r, s2.tag u r = if u = t ∧ first ≤ r ∧ r < first + count ∧ s.tag u r = .poison then .empty else s.tag u r)
      ∧ (∀ u r, s2.rowData u r = s.rowData u r) ∧ s2.mem = s.mem ∧ s2.jobs = s.jobs ∧ s2.dict = s.dict)
  ∧ (∀ (s : State) (t row : Nat), t < 64 → (s.tile t).verifyDue.contains row = true → (s.tile t).running = [] → (s.tile t).windowLanded = [] →
    ∃ s2, exec (.rowVerifyRead t row true) s = .next s2 ∧ s2.tag t row = .full ∧ (s2.tile t).verifyDue = (s.tile t).verifyDue.erase row
      ∧ (∀ u r, s2.rowData u r = s.rowData u r) ∧ (∀ u r, (u, r) ≠ (t, row) → s2.tag u r = s.tag u r) ∧ s2.mem = s.mem ∧ s2.dict = s.dict)
  ∧ (∀ (s : State) (t row j : Nat) (o : LopInst), t < 64 → (s.tile t).verifyDue.contains row = true → s.jobOfTile t = some j → (s.job j).state = .running →
    s.isKeyRow t row = false → (s.tile t).windowLanded = [] → (s.tile t).writerOf row = some o →
    ∃ s2, exec (.rowVerifyRead t row false) s = .next s2 ∧ s2.tag t row = .poison ∧ (s2.job j).state = .draining ∧ (s2.job j).abortCode = DATA_CRC
      ∧ s2.entry 0x3420 5 = satAdd (2 ^ 32 - 1) (s.entry 0x3420 5) 1 ∧ s2.mem = s.mem)
  ∧ (∀ (s : State) (t row j k : Nat), t < 64 → (s.tile t).verifyDue.contains row = true → s.jobOfTile t = some j → (s.job j).state = .running →
    s.isKeyRow t row = true → (s.tile t).windowLanded = [] → s.streamOfRow j row true = some k →
    ∃ s2, exec (.rowVerifyRead t row false) s = .next s2 ∧ (s2.stream k).state = 5 ∧ (s2.stream k).error = KEY_CRC ∧ (s2.job j).state = .draining
      ∧ (s2.job j).abortCode = KEY_CRC ∧ s2.entry 0x3420 5 = satAdd (2 ^ 32 - 1) (s.entry 0x3420 5) 1 ∧ s2.mem = s.mem)
  ∧ (∀ (s : State) (t row word : Nat), t < 64 →
    ∃ s2, exec (.rowEccWriteBack t row word) s = .next s2 ∧ (s2.tile t).writeBacks = (s.tile t).writeBacks.erase (row, word)
      ∧ (∀ u r, s2.rowData u r = s.rowData u r ∧ s2.tag u r = s.tag u r) ∧ s2.mem = s.mem ∧ s2.dict = s.dict)
  ∧ (∀ (s : State) (t row : Nat), t < 64 → s.nextScrubRow t = some row →
    (∃ s2, exec (.scrubRowRead t .clean) s = .next s2 ∧ (s2.tile t).scrubRow = (row + 1) % 3072
      ∧ (∀ u r, s2.rowData u r = s.rowData u r ∧ s2.tag u r = s.tag u r) ∧ s2.mem = s.mem)
    ∧ (∀ w, ∃ s2, exec (.scrubRowRead t (.corrected w)) s = .next s2 ∧ (s2.tile t).writeBacks.contains (row, w) = true
      ∧ s2.entry (0x3440 + t) 4 = row ∧ s2.entry (0x3440 + t) 5 = w ∧ (s2.tile t).freeze = (s.tile t).freeze ∧ s2.tag t row = s.tag t row ∧ s2.mem = s.mem)
    ∧ (∀ w, ∃ s2, exec (.scrubRowRead t (.uncorrectable w)) s = .next s2 ∧ s2.tag t row = .poison
      ∧ s2.entry (0x3440 + t) 4 = row ∧ s2.entry (0x3440 + t) 5 = w ∧ (∀ u r, (u, r) ≠ (t, row) → s2.tag u r = s.tag u r) ∧ s2.mem = s.mem))

/-- A PUT that waits at a window lands once its rows are EMPTY: the bytes it names of a row change and no others; where its words complete a
protected row, its completion waits for the verify read: OK where it passes, DATA_CRC where it fails. A GET that waits is served once its
rows are FULL, with the bytes they hold (R262, R263, R264, R272). -/
def Obligations.WindowsServe : Prop :=
  (∀ (s : State) (t r x n : Nat) (f : Frame), t < 64 → n = f.payload.length → 0 < n → x = windowOffset f.address % 4608 → r = windowOffset f.address / 4608 →
    x + n ≤ 4608 → ((s.tile t).windowPuts.find? fun g => s.anyPoison t (frameRows g g.payload.length) || s.allTagged t (frameRows g g.payload.length) .empty) = some f →
    s.tag t r = .empty → (s.tile t).running = [] → s.isProtectedRow t r = false → (s.tile t).verifyDue.contains r = false →
    ∃ s2, exec (.windowPutLand t) s = .next s2 ∧ (s2.tile t).windowPuts = (s.tile t).windowPuts.erase f ∧ Safety.answered s s2 f OK 0 []
      ∧ (∀ l, l < 1024 → Row.lane (s2.rowData t r) l
          = Row.lane (bytesRow ((s.rowImage t r).take x ++ f.payload ++ (s.rowImage t r).drop (x + n))) l % 2 ^ 36)
      ∧ (∀ u k, (u, k) ≠ (t, r) → s2.rowData u k = s.rowData u k ∧ s2.tag u k = s.tag u k) ∧ s2.mem = s.mem)
  ∧ (∀ (s : State) (t r x n : Nat) (f : Frame), t < 64 → n = f.payload.length → 0 < n → x = windowOffset f.address % 4608 → r = windowOffset f.address / 4608 →
    x + n ≤ 4608 → ((s.tile t).windowPuts.find? fun g => s.anyPoison t (frameRows g g.payload.length) || s.allTagged t (frameRows g g.payload.length) .empty) = some f →
    s.tag t r = .empty → (s.tile t).running = [] → s.isProtectedRow t r = true →
    (((List.range (n / 18)).map fun i => x / 18 + i).filter fun w => !(Tab.get (s.tile t).coverage [] r).contains w).length
      + (Tab.get (s.tile t).coverage [] r).length = 256 →
    ∃ s2, exec (.windowPutLand t) s = .next s2 ∧ (s2.tile t).windowPuts = (s.tile t).windowPuts.erase f ∧ (s2.tile t).verifyDue.contains r = true
      ∧ (s2.tile t).windowLanded = (s.tile t).windowLanded ++ [f] ∧ s2.tag t r = .empty ∧ s2.out = s.out
      ∧ (∀ l, l < 1024 → Row.lane (s2.rowData t r) l
          = Row.lane (bytesRow ((s.rowImage t r).take x ++ f.payload ++ (s.rowImage t r).drop (x + n))) l % 2 ^ 36) ∧ s2.mem = s.mem)
  ∧ (∀ (s : State) (t row : Nat) (f : Frame), t < 64 → (s.tile t).verifyDue = [row] → (s.tile t).windowLanded = [f] →
    (frameRows f f.payload.length).contains row = true → (s.tile t).running = [] →
    (∃ s2, exec (.rowVerifyRead t row true) s = .next s2 ∧ s2.tag t row = .full ∧ (s2.tile t).windowLanded = [] ∧ Safety.answered s s2 f OK 0 [] ∧ s2.mem = s.mem)
    ∧ (∃ s2, exec (.rowVerifyRead t row false) s = .next s2 ∧ s2.tag t row = .poison ∧ (s2.tile t).windowLanded = [] ∧ Safety.answered s s2 f DATA_CRC 0 []
        ∧ s2.mem = s.mem))
  ∧ (∀ (s : State) (t : Nat) (f : Frame), t < 64 →
    ((s.tile t).windowGets.find? fun g => s.anyPoison t (frameRows g g.length) || s.allTagged t (frameRows g g.length) .full) = some f →
    s.anyPoison t (frameRows f f.length) = false →
    ∃ s2, exec (.windowGetServe t .clean) s = .next s2 ∧ (s2.tile t).windowGets = (s.tile t).windowGets.erase f
      ∧ Safety.answered s s2 f OK 0 (s.windowBytes t (windowOffset f.address) f.length)
      ∧ (∀ u k, s2.rowData u k = s.rowData u k ∧ s2.tag u k = s.tag u k) ∧ s2.mem = s.mem)

/-! ### Memory stacks -/

/-- Requests of a memory stack: one granule enters an empty sorter; a write is in memory from then on and changes no other byte; an address outside the
visible range or a write into an image is refused, and a request of an ended lease is dropped; a bank serves what is due, but not while it refreshes (R215, R277, R285, R287, R288, R289, R293, R297, R393). The stacks' modes: a stack enters self-refresh while the device idles, is woken from it for a patrol pass once per PatrolPeriod; StackMode takes effect on an idle device
and keeps the contents of every window that stays stack-linear (R281, R297, R298). -/
def Obligations.StacksServe : Prop :=
  (∀ (s : State) (k a n src ep : Nat), k < 8 → 0 < n → a % 256 + n ≤ 256 → inStack a n = true → (s.mapAddress a).1 = k →
    s.lateMessage { source := src, address := a, length := n, write := none, epoch := ep } = false → s.inFlight src < 48 →
    (s.sorter k).entries = [] → (s.sorter k).inputQueue = [] → (s.sorter k).capped = [] →
    (∃ s2, exec (.memRequest k { source := src, address := a, length := n, write := none, epoch := ep }) s = .next s2 ∧ s2.mem = s.mem ∧ s2.out = s.out
      ∧ (s2.sorter k).entries.map (fun e => (e.source, e.address, e.length, e.data)) = [(src, a, n, s.memBytes a n)])
    ∧ (∀ d : List Byte, d.length = n → s.rangePoisoned a n = false → s.inImage a n = false →
      ∃ s2, exec (.memRequest k { source := src, address := a, length := n, write := some d, epoch := ep }) s = .next s2 ∧ s2.memBytes a n = d
        ∧ (∀ x, ¬(a ≤ x ∧ x < a + n) → s2.memByte x = s.memByte x) ∧ s2.tiles = s.tiles ∧ s2.out = s.out))
  ∧ (∀ (s : State) (k : Nat) (r : MemReq), k < 8 → s.lateMessage r = false → requestInBlock r = true →
    (inStack r.address r.length = false ∨ s.writesImage r = true) →
    exec (.memRequest k r) s = .next (s.emit (.memory r.source r.address ACCESS_PROTECT [])))
  ∧ (∀ (s : State) (k : Nat) (r : MemReq), k < 8 → s.lateMessage r = true → exec (.memRequest k r) s = .next (s.bump 0xB190 5 1))
  ∧ (∀ (s : State) (k channel bank : Nat) (e : SorterEntry), k < 8 → (s.sorter k).inputQueue = [] → (s.sorter k).capped = [] →
    (s.sorter k).nextOf channel bank = some e → e.write = none → e.poisoned = false → s.refreshing k channel bank = false →
    ∃ s2, exec (.bankService k channel bank .clean) s = .next s2 ∧ s2.out = s.out ++ [.memory e.source e.address OK e.data]
      ∧ (∀ x ∈ (s2.sorter k).entries, x.order ≠ e.order) ∧ s2.mem = s.mem ∧ s2.tiles = s.tiles)
  ∧ (∀ (s : State) (k channel bank : Nat) (ecc : Ecc), k < 8 →
    ∃ s2, exec (.bankRefresh k channel bank) s = .next s2 ∧ s2.mem = s.mem ∧ (s2.sorter k).entries = (s.sorter k).entries
      ∧ exec (.bankService k channel bank ecc) s2 = .next s2)
  ∧ (∀ (s : State) (w : Nat) (rest : List Nat), s.stackWriteBacks = w :: rest →
    ∃ s2, exec .stackEccWriteBack s = .next s2 ∧ s2.stackWriteBacks = rest ∧ s2.mem = s.mem ∧ s2.wordPoison = s.wordPoison)
  ∧ (∀ (s : State) (k channel a w : Nat), k < 8 → s.entry (0x3040 + k) 1 = 0 → ((s.sorter k).entries.any fun e => e.channel = channel) = false →
    s.granuleAddress k channel (Tab.get (s.sorter k).patrol 0 channel) = some a →
    (∃ s2, exec (.patrolScrub k channel .clean) s = .next s2 ∧ s2.mem = s.mem ∧ s2.wordPoison = s.wordPoison
      ∧ Tab.get (s2.sorter k).patrol 0 channel = (Tab.get (s.sorter k).patrol 0 channel + 1) % 1572864)
    ∧ (∃ s2, exec (.patrolScrub k channel (.uncorrectable w)) s = .next s2 ∧ s2.mem = s.mem ∧ s2.wordPoisoned (a / 32 + w) = true))
  ∧ (∀ (s : State) (k : Nat), k < 8 → exec (.selfRefreshEntry k) s = .next (if s.mayRefresh k then s.setEntry (0x3040 + k) 1 1 else s))
  ∧ (∀ (s : State) (k : Nat), k < 8 → s.entry (0x3040 + k) 1 = 1 → (s.sorter k).patrolAt + 3600000000000 * (s.sorter k).patrolHours ≤ s.now →
    ∃ s2, exec (.selfRefreshPatrolWake k) s = .next s2 ∧ (s2.sorter k).patrolAt = s.now ∧ (s2.sorter k).patrol = [] ∧ s2.entry (0x3040 + k) 1 = 0
      ∧ (s2.sorter k).passUntil = s.now + 15800000 ∧ s2.mayRefresh k = false ∧ s2.mem = s.mem ∧ s2.wordPoison = s.wordPoison)
  ∧ (∀ (s : State) (ctx v : Nat), Safety.direct s ctx = true → s.idle = true → v < 256 →
    ∃ s2, exec (.stackModeWrite ctx (BitVec.ofNat 64 v)) s = .next s2 ∧ s2.entry 0x3010 1 = v ∧ Safety.outcome s2 ctx 0x3010 1 OK
      ∧ (∀ a, (bit v (a / stackWindow) = true ∧ bit (s.entry 0x3010 1) (a / stackWindow) = true ∨ v = s.entry 0x3010 1) → s2.memByte a = s.memByte a)
      ∧ s2.tiles = s.tiles ∧ s2.jobs = s.jobs)

/-- Poison: retiring the oldest entry changes nothing of what reads as poisoned; PoisonClear starts on aligned visible granules that no admitted job holds,
and its end leaves no poisoned word in the range, the cleared words at zero and every other word as it was (R294, R295, R296). -/
def Obligations.PoisonLives : Prop :=
  (∀ (s : State) (e : PoisonEntry) (rest : List PoisonEntry), s.poisonTable = e :: rest → s.poisonWaits = [] → s.retireDue e = true →
    ∃ s2, exec .poisonRetire s = .next s2 ∧ s2.poisonTable = rest ∧ (∀ w, s2.wordPoisoned w = s.wordPoisoned w) ∧ s2.entry 0x3030 5 = rest.length
      ∧ s2.mem = s.mem ∧ s2.tiles = s.tiles ∧ s2.jobs = s.jobs)
  ∧ (∀ (s : State) (ctx : Nat), Safety.direct s ctx = true → s.clearWalk = none → s.entry 0x3030 1 % 256 = 0 → s.entry 0x3030 2 % 256 = 0 →
    inStack (s.entry 0x3030 1) (s.entry 0x3030 2) = true → s.regionHeld (s.entry 0x3030 1) (s.entry 0x3030 2) = false →
    ∃ s2, exec (.poisonClear ctx 1) s = .next s2 ∧ s2.clearWalk = some { base := s.entry 0x3030 1, length := s.entry 0x3030 2 }
      ∧ s2.entry 0x3030 4 = PENDING ∧ Safety.outcome s2 ctx 0x3030 3 OK ∧ s2.mem = s.mem ∧ s2.poisonTable = s.poisonTable)
  ∧ (∀ (s : State) (c : ClearWalk), s.clearWalk = some c → s.poisonWaits = [] →
    ∃ s2, exec .poisonClearWalkEnd s = .next s2 ∧ s2.clearWalk = none ∧ s2.entry 0x3030 4 = OK ∧ s2.tiles = s.tiles ∧ s2.jobs = s.jobs
      ∧ (∀ w, c.base / 256 ≤ w / 8 ∧ w / 8 < c.base / 256 + c.length / 256 →
          s2.wordPoisoned w = false ∧ s2.memBytes (32 * w) 32 = if s.wordPoisoned w then List.replicate 32 0 else s.memBytes (32 * w) 32)
      ∧ (∀ w, ¬(c.base / 256 ≤ w / 8 ∧ w / 8 < c.base / 256 + c.length / 256) →
          s2.wordPoisoned w = s.wordPoisoned w ∧ s2.memBytes (32 * w) 32 = s.memBytes (32 * w) 32))

/-! ### Fabric -/

/-- Training: a port comes up at the highest version both ends offer, and is DOWN with its error where the peer names this node or shares no version;
a port that is not UP trains again after RetrainInterval, and PortEnable disables and starts ports (R301, R303, R324). Link lanes: the next frame in sequence is accepted and acknowledged, any other discarded; an acknowledgement releases the frames up to its own;
once the oldest unacknowledged frame has waited 1 us it and every later one are sent again, and after 8 failures of it the link is down (R301). A router
sends a frame for another node on with one more hop, at the version of the next link, or drops and counts it (R317). -/
def Obligations.LinksTrainAndCarry : Prop :=
  (∀ (s : State) (p node versions : Nat) (tp : Bool), p < 16 → s.portEnabled p = true → s.portState p = portTraining →
    (∀ v, node ≠ s.nodeId → s.commonVersion versions = some v →
      ∃ s2, exec (.trainExchange p node versions tp) s = .next s2 ∧ s2.portState p = portUp ∧ s2.entry (0x4040 + p) 2 = v ∧ s2.entry (0x4040 + p) 3 = node
        ∧ s2.out = s.out ++ [.train p s.nodeId (s.offered.map fun v => 2 ^ v).sum (s.entry 0x4010 7 = p)]
        ∧ (s2.port p).lanes = [] ∧ (s2.port p).peerTimeParent = tp ∧ (∀ k, k ≠ p → s2.portState k = s.portState k ∧ s2.port k = s.port k) ∧ s2.mem = s.mem)
    ∧ (node = s.nodeId ∨ s.commonVersion versions = none →
      ∃ s2, exec (.trainExchange p node versions tp) s = .next s2 ∧ s2.portState p = portDown
        ∧ s2.entry (0x4040 + p) 4 = (if node = s.nodeId then STATE_CONFLICT else FABRIC_VERSION)
        ∧ (∀ k, k < 16 → k ≠ p → s2.portState k = s.portState k) ∧ s2.mem = s.mem))
  ∧ (∀ (s : State) (p : Nat), p < 16 → s.portEnabled p = true → s.deepIdle = false → s.portState p ≠ portUp → (s.port p).lastTrain + 1000000 * s.entry 0x4010 5 ≤ s.now →
    ∃ s2, exec (.portRetrain p) s = .next s2 ∧ s2.portState p = portTraining ∧ (s2.port p).lanes = [] ∧ (s2.port p).lastTrain = s.now
      ∧ (∀ k, k ≠ p → s2.portState k = s.portState k ∧ s2.port k = s.port k) ∧ s2.mem = s.mem)
  ∧ (∀ (s : State) (ctx v : Nat), Safety.direct s ctx = true → v < 65536 →
    ∃ s2, exec (.portEnableWrite ctx (BitVec.ofNat 64 v)) s = .next s2 ∧ s2.entry 0x4010 4 = v ∧ Safety.outcome s2 ctx 0x4010 4 OK
      ∧ (∀ p, p < 16 → s2.portState p = if bit v p then (if s.portState p = portDisabled ∧ s.deepIdle = false then portTraining else s.portState p) else portDisabled)
      ∧ s2.mem = s.mem ∧ s2.tiles = s.tiles)
  ∧ (∀ (s : State) (p l seq : Nat) (ok : Bool) (f : Frame), p < 16 → s.portState p = portUp →
    (ok = true → seq = (s.lane p l).nextRx → ∃ s2, exec (.frameReceive p l seq ok f) s = .next s2 ∧ (s2.lane p l).nextRx = seq + 1
      ∧ s2.out = s.out ++ [.linkAck p l seq] ∧ (∀ k, k ≠ l → s2.lane p k = s.lane p k) ∧ s2.mem = s.mem ∧ s2.dict = s.dict)
    ∧ (ok = false ∨ seq ≠ (s.lane p l).nextRx → exec (.frameReceive p l seq ok f) s = .next s))
  ∧ (∀ (s : State) (p l seq : Nat), p < 16 → ((s.lane p l).unacked.any fun f => f.seq = seq) = true →
    ∃ s2, exec (.frameAck p l seq) s = .next s2 ∧ (s2.lane p l).unacked = ((s.lane p l).unacked.filter fun f => seq < f.seq)
      ∧ (s2.lane p l).nextTx = (s.lane p l).nextTx ∧ s2.out = s.out ∧ s2.mem = s.mem ∧ s2.dict = s.dict)
  ∧ (∀ (s : State) (p l : Nat) (g : SentFrame) (rest : List SentFrame), p < 16 → (s.lane p l).unacked = g :: rest → s.portState p = portUp →
    (s.now < g.sentAt + 1000 → exec (.frameRetransmit p l) s = .next s)
    ∧ (g.sentAt + 1000 ≤ s.now → g.fails < 8 →
      ∃ s2, exec (.frameRetransmit p l) s = .next s2 ∧ s2.out = s.out ++ (g :: rest).map (fun f => .fabric p f.frame)
        ∧ (s2.lane p l).unacked = (g :: rest).map (fun f => { f with sentAt := s.now, fails := f.fails + 1 }) ∧ s2.portState p = portUp ∧ s2.mem = s.mem)
    ∧ (g.sentAt + 1000 ≤ s.now → 8 ≤ g.fails →
      ∃ s2, exec (.frameRetransmit p l) s = .next s2 ∧ s2.portState p = portDown ∧ (s2.lane p l).unacked = [] ∧ s2.mem = s.mem))
  ∧ (∀ (s : State) (p q : Nat) (f : Frame), p < 16 → f.target ≠ s.nodeId →
    (f.hops < 24 → s.routePort f.target = some q →
      ∃ s2, exec (.frameForward p f) s = .next s2 ∧ s2.out = s.out ++ [.fabric q { f with hops := f.hops + 1, version := s.entry (0x4040 + q) 2 }] ∧ s2.mem = s.mem ∧ s2.dict = s.dict)
    ∧ (24 ≤ f.hops ∨ s.routePort f.target = none → exec (.frameForward p f) s = .next (s.bump 0x4038 7 1)))

/-- Global time and SNAP frames: a device's first lock steps its time to the parent's, a later one only slews, a second without an idle loses the lock;
a SNAP frame not seen before sets a latch tick, a repeated one is dropped (R322, R323, R403). -/
def Obligations.TimeAndSnap : Prop :=
  (∀ (s : State) (p time delay : Nat), p < 16 → s.portState p = portUp → s.entry 0x4010 6 ≠ 1 → s.entry 0x4010 7 = p → delay ≤ time →
    0 ≤ (s.now : Int) + s.timeOffset →
    ∃ s2, exec (.timeIdle p time delay) s = .next s2 ∧ s2.entry (0x4040 + p) 5 = delay ∧ s2.entry 0x4020 2 = 1 ∧ s2.lastTimeIdle = s.now ∧ s2.mem = s.mem
      ∧ (s.everLocked = false → s2.fabricTime = time - delay ∧ s2.everLocked = true)
      ∧ (s.everLocked = true → s2.timeOffset = s.timeOffset ∧ s2.slewLeft = (time : Int) - delay - s.fabricTime))
  ∧ (∀ s : State, s.entry 0x4010 6 = 0 → s.lastTimeIdle + 1000000000 ≤ s.now → s.entry 0x4020 2 = 1 →
    exec .timeLockLost s = .next (s.setEntry 0x4020 2 0))
  ∧ (∀ (s : State) (p source ident target : Nat), p < 16 → s.portState p = portUp →
    (s.snapsSeen.contains (source, ident) = false → s.ready = true → s.entry 0x8010 5 = 1 → s.timedTicks < 4 →
      ∃ s2, exec (.snapFrame p source ident target) s = .next s2 ∧ s2.snapsSeen = s.snapsSeen ++ [(source, ident)] ∧ s2.mem = s.mem ∧ s2.dict = s.dict
        ∧ s2.ticks.map (fun k => (k.time, k.source, k.timed, k.origin)) =
            s.ticks.map (fun k => (k.time, k.source, k.timed, k.origin)) ++ [(target, srcRemote, true, source)])
    ∧ (s.snapsSeen.contains (source, ident) = true → exec (.snapFrame p source ident target) s = .next s))

/-- Operations at their target: PUT stores its payload and GET returns the bytes, ADDMOD adds element by element and FETCHADD returns the old counter, a SIGNAL
adds once every lane has caught up with its payload and waits until then, an MCAST-PUT is stored at a member; no other byte changes (R304, R307-R311, R318). -/
def Obligations.OperationsLand : Prop :=
  (∀ (s : State) (f : Frame) (n : Nat), n = f.payload.length → Safety.arrives s f 1 = true → 0 < n → n ≤ 4096 → f.length = n → inStack f.address n = true →
    s.inImage f.address n = false → s.granted f.source f.address n 1 = true → s.rangePoisoned f.address n = false →
    ∃ s2, exec (.fabricPut f) s = .next s2 ∧ Safety.stores s s2 f.address f.payload ∧ Safety.answered s s2 f OK 0 [])
  ∧ (∀ (s : State) (f : Frame), Safety.arrives s f 2 = true → 0 < f.length → f.length ≤ 4096 → inStack f.address f.length = true →
    s.granted f.source f.address f.length 0 = true → s.rangePoisoned f.address f.length = false →
    ∃ s2, exec (.fabricGet f .clean) s = .next s2 ∧ Safety.answered s s2 f OK 0 (s.memBytes f.address f.length) ∧ s2.mem = s.mem ∧ s2.tiles = s.tiles)
  ∧ (∀ (s : State) (f : Frame) (n w : Nat), n = f.payload.length → w = f.operand % 65536 → Safety.arrives s f 3 = true → n % 9 = 0 → 9 ≤ n → n ≤ 4095 →
    f.length = n → wordValid w 0 = true → s.atomicAllowed f n = true → s.rangePoisoned f.address n = false →
    ∃ s2, exec (.addmod f .clean) s = .next s2 ∧ Safety.stores s s2 f.address (addElements (modulusOf w) (s.memBytes f.address n) f.payload)
      ∧ Safety.answered s s2 f OK 0 [])
  ∧ (∀ (s : State) (f : Frame), Safety.arrives s f 4 = true → f.address % 8 = 0 → s.atomicAllowed f 8 = true → s.rangePoisoned f.address 8 = false →
    ∃ s2, exec (.fetchadd f .clean) s = .next s2 ∧ Safety.stores s s2 f.address (addWord (s.memBytes f.address 8) f.operand)
      ∧ leNat (s2.memBytes f.address 8) = (leNat (s.memBytes f.address 8) + f.operand) % 2 ^ 64
      ∧ Safety.answered s s2 f OK (leNat (s.memBytes f.address 8)) [])
  ∧ (∀ (s : State) (f : Frame), Safety.arrives s f 5 = true → f.address % 8 = 0 → f.payload.length = 8 → s.atomicAllowed f 8 = true →
    s.rangePoisoned f.address 8 = false →
    (s.signalReady f = true → ∃ s2, exec (.fabricSignal f) s = .next s2 ∧ Safety.stores s s2 f.address (addWord (s.memBytes f.address 8) f.operand)
      ∧ Safety.answered s s2 f OK 0 [])
    ∧ (s.signalReady f = false → s.signalLost f = false → ∃ s2, exec (.fabricSignal f) s = .next s2 ∧ s2.heldFrames = s.heldFrames ++ [f]
      ∧ s2.mem = s.mem ∧ s2.out = s.out ∧ s2.seqExpected = s.seqExpected))
  ∧ (∀ (s : State) (f : Frame) (source lane : Nat),
    (s.heldFrames.find? fun g => g.source = source && g.vl = lane && s.signalReady g) = some f → s.rangePoisoned f.address 8 = false →
    ∃ s2, exec (.signalPerform source lane) s = .next s2 ∧ s2.heldFrames = s.heldFrames.erase f
      ∧ Safety.stores s s2 f.address (addWord (s.memBytes f.address 8) f.operand) ∧ Safety.answered s s2 f OK 0 [])
  ∧ (∀ (s : State) (p n : Nat) (f : Frame), p < 16 → n = f.payload.length → f.opcode = 6 → s.portState p = portUp → f.source ≠ s.nodeId → s.hostPowered = true →
    s.ready = true → f.crcOk = true → s.entry (0x4300 + f.mcastGroup) 2 ≠ 0 → 0 < n → n ≤ 4096 → inStack f.address n = true → s.inImage f.address n = false →
    s.granted f.source f.address n 1 = true → s.rangePoisoned f.address n = false → s.groupPorts f.mcastGroup p = [] →
    ∃ s2, exec (.mcastPut p f) s = .next s2 ∧ Safety.stores s s2 f.address f.payload
      ∧ s2.out = s.out ++ [.fabric p { Safety.completion s p f OK 0 [] with source := s.nodeId }])

/-- Operations at their source: a completion frees its tag, a late one is counted, a timeout ends the operation and the job of the tile's transfer;
a FENCE finishes once nothing of its tile is outstanding (R312, R315, R316). Operations that are refused change no memory: one that no grant covers, and one whose CRC-64 fails, which fails its triple until SEQ 0
(R309, R310, R315); one whose triple waits is held behind it (R311). -/
def Obligations.OperationsEnd : Prop :=
  (∀ (s : State) (f : Frame), f.opcode = 0x20 → s.hostPowered = true → s.mcastWaitOf f = none → f.target = s.nodeId →
    (s.findOp f.tag = none → exec (.fabricCompletion f) s = .next (s.bump 0x4038 8 1))
    ∧ (∀ r : RemoteOp, s.findOp f.tag = some r → r.host = false → r.waits = false → r.opcode ≠ 6 → r.target = f.source → r.issuer ≠ issuerSupervisor →
      (64 ≤ r.issuer ∨ r.job ≠ 0xFF) → r.tag = f.tag →
      ∃ s2, exec (.fabricCompletion f) s = .next s2 ∧ s2.findOp f.tag = none ∧ s2.mem = s.mem
        ∧ (f.crcOk = true → f.address % 65536 = FABRIC_CRC → r.stale = false → (s.remoteOps.any fun o => o.waits) = false → s2.nextSeq r.target r.vl = 0)))
  ∧ (∀ (s : State) (tag j : Nat) (r : RemoteOp) (o : LopInst), s.findOp tag = some r → r.tag = tag → r.host = false → s.timedOut r = true → r.issuer < 64 →
    r.job ≠ 0xFF → r.opcode ≠ 5 → (s.tile r.issuer).runningOp r.opId = some o → s.jobOfTile r.issuer = some j → (s.job j).state = .running →
    ∃ s2, exec (.completionTimeout tag) s = .next s2 ∧ s2.findOp tag = none ∧ (s2.job j).state = .draining ∧ (s2.job j).abortCode = FABRIC_TIMEOUT
      ∧ s2.entry 0x4038 3 = satAdd (2 ^ 32 - 1) (s.entry 0x4038 3) 1 ∧ s2.mem = s.mem)
  ∧ (∀ (s : State) (tag : Nat) (r : RemoteOp), s.findOp tag = some r → s.timedOut r = false → exec (.completionTimeout tag) s = .next s)
  ∧ (∀ (s : State) (t : Nat) (o : LopInst), t < 64 → s.issuerBusy t = false →
    ((s.tile t).running.find? fun o => o.op.code = lopFenceCode && (s.tile t).fenceDone o.id) = some o →
    ∃ s2, exec (.issuerFence t) s = .next s2 ∧ (s2.tile t).runningOp o.id = none ∧ s2.mem = s.mem ∧ s2.jobs = s.jobs ∧ s2.dict = s.dict
      ∧ ∀ u, u ≠ t → s2.tile u = s.tile u)
  ∧ (∀ (s : State) (f : Frame), Safety.arrives s f 1 = true → f.length = f.payload.length → inStack f.address f.payload.length = true →
    s.granted f.source f.address f.payload.length 1 = false →
    ∃ s2, exec (.fabricPut f) s = .next s2 ∧ s2.mem = s.mem ∧ Safety.answered s s2 f ACCESS_PROTECT 0 []
      ∧ s2.entry 0x4038 6 = satAdd (2 ^ 32 - 1) (s.entry 0x4038 6) 1)
  ∧ (∀ (s : State) (f : Frame) (p : Nat), Safety.inOrder s f 1 = true → s.ready = true → s.failedTriples.contains (frameTriple f) = false →
    f.crcOk = false → s.heldFrames = [] → s.routePort f.source = some p →
    ∃ s2, exec (.fabricPut f) s = .next s2 ∧ s2.mem = s.mem ∧ s2.failedTriples.contains (frameTriple f) = true
      ∧ s2.out = s.out ++ [.fabric p (Safety.completion s p f FABRIC_CRC 0 [])]
      ∧ ∀ g : Frame, g.source = f.source → g.vl = f.vl → g.target = s.nodeId → g.opcode = 1 → g.seq ≠ 0 →
          ∃ s3, exec (.fabricPut g) s2 = .next s3 ∧ s3.mem = s.mem ∧ s3.out = s2.out ++ [.fabric p (Safety.completion s p g FABRIC_CRC 0 [])])
  ∧ (∀ (s : State) (f : Frame), s.takes f 1 = true → s.tripleHeld (frameTriple f) = true →
    exec (.fabricPut f) s = .next { s with behind := s.behind ++ [(f, .clean)] })

/-! ### Host link -/

/-- The link and its resets: a module that reports ready trains to UP at allowed values; hot reset retrains, function-level reset does not, and both return function
state to its reset values; PERST# withdraws host-link ready and starts a WARM restart, or acts as a function-level reset; its release lets a READY
module report (R325, R326, R327, R422). -/
def Obligations.HostLinkResets : Prop :=
  (∀ (s : State) (speed width limit : Nat) (flit : Bool), s.hostLink.readyReported = true → s.hostLink.perst = false → s.entry 0x5040 1 ≠ 2 → 1 ≤ speed →
    speed ≤ s.entry 0x5010 1 → width ∈ [16, 8, 4, 1] → (limit ∈ [768, 256] ∨ (limit = 4096 ∧ flit = true)) →
    ∃ s2, exec (.hostLinkUp speed width flit limit) s = .next s2 ∧ s2.entry 0x5040 1 = 2 ∧ s2.entry 0x5040 2 = speed ∧ s2.entry 0x5040 3 = width
      ∧ s2.entry 0x5040 4 = (if flit then 1 else 0) ∧ s2.entry 0x5040 5 = limit ∧ s2.mem = s.mem ∧ s2.tiles = s.tiles ∧ s2.jobs = s.jobs)
  ∧ (∀ s : State, s.hostPowered = true →
    (∃ s2, exec .hotReset s = .next s2 ∧ Safety.functionFresh s s2 ∧ s2.entry 0x5040 1 = 1)
    ∧ (∃ s2, exec .functionLevelReset s = .next s2 ∧ Safety.functionFresh s s2
      ∧ ((s.remoteOps.any fun r => r.host) = false → s2.entry 0x5040 1 = s.entry 0x5040 1)))
  ∧ (∀ s : State, s.hostPowered = true → s.entry 0x5010 3 = 0 →
    ∃ s2, exec .perstAssert s = .next s2 ∧ s2.hostLink.perst = true ∧ s2.hostLink.busMaster = false ∧ (s2.context 0).transfer = none)
  ∧ (∀ s : State, s.hostPowered = true → s.entry 0x5010 3 ≠ 0 → s.restart = none → (s.remoteOps.any fun r => r.host) = false →
    ∃ s2, exec .perstAssert s = .next s2 ∧ s2.hostLink.perst = true ∧ s2.hostLink.readyReported = false
      ∧ s2.restart.map (fun r => (r.kind, r.cause)) = some (kindWarm, 0) ∧ s2.entry 0x1100 1 = 1 ∧ s2.mem = s.mem ∧ s2.jobs = [])
  ∧ (∀ s : State, s.hostPowered = false →
    exec .perstAssert s = .next { s with hostLink := { s.hostLink with perst := true } }
    ∧ exec .hotReset s = .next s ∧ exec .functionLevelReset s = .next s)
  ∧ (∀ s : State, s.ready = true → s.hostLink.readyReported = false →
    ∃ s2, exec .perstRelease s = .next s2 ∧ s2.hostLink.perst = false ∧ s2.hostLink.readyReported = true ∧ s2.out = s.out ++ [.hostReady true]
      ∧ s2.dict = s.dict ∧ s2.mem = s.mem)

/-- Configuration accesses, requests that no function serves, interrupts and IDE errors: a pause answers with retry status, the command register and the MSI-X control
take their bits, a pending vector sends its one message when its holdoff ends, an insecure stream is reported (R336, R337, R338, R340). Requests between the device and the host: a write ends at its link acknowledgement, a completion frees its tag and ends its operation with the status it carries,
a late one is dropped and counted, one that no request awaits is logged; BAR2 moves bytes of the aperture within its rights and never writes an image, and takes nothing without the secure stream that IdeRequired asks for (R329-R334, R338). -/
def Obligations.HostTraffic : Prop :=
  (∀ (s : State) (op : ConfigOp), s.hostPowered = true → s.ready = false →
    exec (.configAccess op) s = .next (s.emit (.config true (if op = .readVendorId ∧ s.hostLink.rrsVisible then 1 else 0))))
  ∧ (∀ (s : State) (b a r : Bool), s.hostPowered = true → s.ready = true →
    ∃ s2, exec (.configAccess (.writeCommand b a r)) s = .next s2 ∧ s2.hostLink = { s.hostLink with busMaster := b, atomicRequester := a, rrsVisible := r }
      ∧ s2.entry 0x5040 6 = (if a then 1 else 0) ∧ s2.out = s.out ++ [.config false 0] ∧ s2.mem = s.mem ∧ s2.tiles = s.tiles)
  ∧ (∀ (s : State) (en m : Bool), s.hostPowered = true → s.ready = true →
    ∃ s2, exec (.configAccess (.msixControl en m)) s = .next s2 ∧ s2.hostLink.functionMasked = (!en || m) ∧ s2.mem = s.mem ∧ s2.tiles = s.tiles)
  ∧ (∀ (s : State) (p r : Nat), s.hostPowered = true → s.ready = true →
    exec (.configAccess (.deviceControl p r)) s
      = .next (({ s with hostLink := { s.hostLink with maxPayload := p, maxRead := r } }).emit (.config false 0))
    ∧ exec (.configAccess (.read r)) s = .next (s.emit (.config false (configValue r))))
  ∧ (∀ (s : State) (v : Nat), v ∈ s.hostLink.vectorPending → s.vectorOpen v = true →
    ∃ s2, exec (.interruptHoldoffEnd v) s = .next s2 ∧ s2.out = s.out ++ [.msix v] ∧ s2.hostLink.vectorPending = s.hostLink.vectorPending.erase v
      ∧ Tab.get s2.hostLink.holdoffEnd 0 v = s.now + 1000 * s.entry 0x5030 2 ∧ s2.mem = s.mem ∧ s2.tiles = s.tiles)
  ∧ (∀ (s : State) (v : Nat), s.vectorOpen v = false → exec (.interruptHoldoffEnd v) s = .next s)
  ∧ (∀ s : State, ∃ s2 s3, exec (.unsupportedRequest .outsideBarPosted) s = .next s2 ∧ exec (.unsupportedRequest .atomicOp) s = .next s3
    ∧ s2.hostLink.aer = s.hostLink.aer ++ [.unsupportedRequest] ∧ s2.out = s.out
    ∧ s3.hostLink.aer = s.hostLink.aer ++ [.unsupportedRequest, .advisoryNonFatal] ∧ s3.out = s.out ++ [.completionUr]
    ∧ s2.dict = s.dict ∧ s3.dict = s.dict ∧ s2.mem = s.mem ∧ s3.mem = s.mem)
  ∧ (∀ (s : State) (sel : Bool), (if sel then s.hostLink.selectiveIde else s.hostLink.linkIde) = .secure →
    ∃ s2, exec (.ideCheckFailed sel) s = .next s2 ∧ (if sel then s2.hostLink.selectiveIde else s2.hostLink.linkIde) = .insecure
      ∧ (if sel then s2.hostLink.linkIde = s.hostLink.linkIde else s2.hostLink.selectiveIde = s.hostLink.selectiveIde)
      ∧ s2.hostLink.aer = s.hostLink.aer ++ [.ideCheckFailed] ∧ s2.entry 0x5040 0x0C = satAdd (2 ^ 32 - 1) (s.entry 0x5040 0x0C) 1
      ∧ s2.mem = s.mem ∧ s2.tiles = s.tiles)
  ∧ (∀ (s : State) (tag : Nat) (r : RemoteOp), s.findOp tag = some r → r.tag = tag → r.host = true → r.opcode = 1 →
    r.issuer ≠ issuerSupervisor →
    ∃ s2, exec (.hostPutAck tag) s = .next s2 ∧ s2.findOp tag = none ∧ s2.hostLink.txQueue = (s.hostLink.txQueue.filter fun p => p.1 ≠ tag) ∧ s2.mem = s.mem
      ∧ s2.tiles = s.tiles ∧ s2.jobs = s.jobs)
  ∧ (∀ (s : State) (tag part : Nat) (st : HostStatus) (d : List Byte), s.hostLink.lateTags.contains (tag, part) = true → s.hostLink.tagWaiters = [] →
    ∃ s2, exec (.hostCompletion tag part st d) s = .next s2 ∧ s2.hostLink.tags = s.hostLink.tags.erase (tag, part)
      ∧ s2.hostLink.lateTags = s.hostLink.lateTags.erase (tag, part) ∧ s2.entry 0x4038 8 = satAdd (2 ^ 32 - 1) (s.entry 0x4038 8) 1
      ∧ s2.remoteOps = s.remoteOps ∧ s2.jobs = s.jobs ∧ s2.mem = s.mem)
  ∧ (∀ (s : State) (tag part j : Nat) (st : HostStatus) (d : List Byte) (r : RemoteOp) (o : LopInst), s.hostLink.lateTags.contains (tag, part) = false →
    s.hostLink.tags.contains (tag, part) = true → s.hostLink.tagWaiters = [] → s.findOp tag = some r → r.tag = tag → r.host = true → r.opcode = 2 →
    r.issuer < 64 → r.job ≠ 0xFF → (s.tile r.issuer).runningOp r.opId = some o → s.jobOfTile r.issuer = some j → (s.job j).state = .running →
    (st = .ok → r.pieces.length ≤ (Tab.put r.arrived part d).length → ∃ s2, exec (.hostCompletion tag part st d) s = .next s2 ∧ s2.findOp tag = none
      ∧ s2.hostLink.tags = s.hostLink.tags.erase (tag, part) ∧ s2.mem = s.mem ∧ s2.jobs = s.jobs ∧ s2.tiles = s.tiles)
    ∧ (st = .ok → (Tab.put r.arrived part d).length < r.pieces.length → ∃ s2, exec (.hostCompletion tag part st d) s = .next s2
      ∧ (s2.findOp tag).map (fun y => y.arrived) = some (Tab.put r.arrived part d) ∧ s2.hostLink.tags = s.hostLink.tags.erase (tag, part)
      ∧ s2.mem = s.mem ∧ s2.jobs = s.jobs ∧ s2.tiles = s.tiles)
    ∧ (st ≠ .ok → ∃ s2, exec (.hostCompletion tag part st d) s = .next s2 ∧ s2.findOp tag = none
      ∧ s2.hostLink.tags = s.hostLink.tags.erase (tag, part) ∧ s2.mem = s.mem
      ∧ (s2.job j).state = .draining ∧ (s2.job j).abortCode = if st = .ep then MEM_UNCORRECTABLE else HOST_COMPLETION))
  ∧ (∀ (s : State) (tag part : Nat) (st : HostStatus) (d : List Byte), s.hostLink.lateTags.contains (tag, part) = false →
    s.hostLink.tags.contains (tag, part) = false → st ≠ .ep → exec (.hostCompletion tag part st d) s = .next (s.logAer .unexpectedCompletion))
  ∧ (∀ (s : State) (tag part : Nat), s.hostLink.lateTags.contains (tag, part) = true → s.hostLink.tagWaiters = [] →
    ∃ s2, exec (.pcieCompletionTimeout tag part) s = .next s2 ∧ s2.hostLink.tags = s.hostLink.tags.erase (tag, part)
      ∧ s2.hostLink.aer = s.hostLink.aer ++ [.completionTimeout] ∧ s2.dict = s.dict ∧ s2.mem = s.mem)
  ∧ (∀ (s : State) (x n : Nat) (sec : Bool), s.hostPowered = true → s.ready = true → s.ideRefuses sec = false → x + n ≤ 0x1000000000 →
    (bit (s.entry 0x5020 2) 0 = true → s.rangePoisoned (s.aperture x) n = false → ∃ s2, exec (.bar2Read x n sec .clean) s = .next s2
      ∧ s2.out = s.out ++ [.bar2 (s.memBytes (s.aperture x) n) false false] ∧ s2.mem = s.mem ∧ s2.tiles = s.tiles ∧ s2.jobs = s.jobs)
    ∧ (bit (s.entry 0x5020 2) 0 = true → s.rangePoisoned (s.aperture x) n = true → ∃ s2, exec (.bar2Read x n sec .clean) s = .next s2
      ∧ s2.out = s.out ++ [.bar2 (List.replicate n 0xFF) true false] ∧ s2.mem = s.mem ∧ s2.tiles = s.tiles ∧ s2.jobs = s.jobs)
    ∧ (bit (s.entry 0x5020 2) 0 = false →
      exec (.bar2Read x n sec .clean) s = .next ((s.bump 0x5020 3 1).emit (.bar2 (List.replicate n 0xFF) false false))))
  ∧ (∀ (s : State) (x : Nat) (d : List Byte) (sec : Bool), s.hostPowered = true → s.ready = true → s.ideRefuses sec = false → x + d.length ≤ 0x1000000000 →
    (bit (s.entry 0x5020 2) 1 = true → s.inImage (s.aperture x) d.length = false → s.rangePoisoned (s.aperture x) d.length = false →
      ∃ s2, exec (.bar2Write x d sec) s = .next s2 ∧ Safety.stores s s2 (s.aperture x) d ∧ s2.tiles = s.tiles ∧ s2.jobs = s.jobs ∧ s2.out = s.out)
    ∧ (bit (s.entry 0x5020 2) 1 = false ∨ s.inImage (s.aperture x) d.length = true →
      exec (.bar2Write x d sec) s = .next (s.bump 0x5020 3 1)))
  ∧ (∀ (s : State) (x n : Nat) (d : List Byte) (sec : Bool), s.hostPowered = true → s.ideRefuses sec = true → x + n ≤ 0x1000000000 →
    x + d.length ≤ 0x1000000000 →
    exec (.bar2Write x d sec) s = .next (s.bump 0x5040 0x0C 1) ∧ exec (.bar2Read x n sec .clean) s = .next s.refuseInsecureRead)

/-- The SPDM responder: the negotiation in its order, digests and certificates, and signed responses, which spend one leaf each and wait at the rate limit
(R339, R363, R369). SPDM sessions: KEY_EXCHANGE opens one of two, FINISH secures or ends it, and a secured session carries HEARTBEAT, KEY_UPDATE, END_SESSION and
the IDE keys of a stream (R338, R339). -/
def Obligations.SpdmResponds : Prop :=
  (∀ s : State, s.ready = true → s.hostUp = true →
    (∀ index, index < 3 → exec (.doeDiscovery index) s = .next (s.emit (.doe "DISCOVERY" [BitVec.ofNat 8 index, BitVec.ofNat 8 ((index + 1) % 3)])))
    ∧ (∃ s2, exec .getVersion s = .next s2 ∧ s2.out = s.out ++ [.doe "VERSION" [0x12, 0x13]] ∧ s2.hostLink.spdmVersion = true
      ∧ s2.hostLink.spdmAlgorithms = false ∧ s2.dict = s.dict ∧ s2.mem = s.mem)
    ∧ (s.hostLink.spdmVersion = true → ∃ s2, exec .getCapabilities s = .next s2 ∧ s2.out = s.out ++ [.doe "CAPABILITIES" [17]]
      ∧ s2.hostLink.spdmCapabilities = true ∧ s2.dict = s.dict ∧ s2.mem = s.mem)
    ∧ (s.hostLink.spdmVersion = false → exec .getCapabilities s = .next (s.emit (.doe "ERROR" [4])))
    ∧ (∀ dhe aead : Bool, s.hostLink.spdmCapabilities = true → ∃ s2, exec (.negotiateAlgorithms true true dhe aead) s = .next s2
      ∧ s2.out = s.out ++ [.doe "ALGORITHMS" [1, 1, if dhe then 1 else 0, if aead then 1 else 0]] ∧ s2.hostLink.spdmAlgorithms = true ∧ s2.dict = s.dict)
    ∧ (s.hostLink.spdmAlgorithms = false → exec .getDigests s = .next (s.emit (.doe "ERROR" [4])))
    ∧ (s.hostLink.spdmAlgorithms = true →
      (∃ s2, exec .getDigests s = .next s2 ∧ s2.out = s.out ++ [.doe "DIGESTS" ([1] ++ chainDigest)] ∧ s2.dict = s.dict ∧ s2.mem = s.mem)
      ∧ (∀ off n part, off ≤ spdmChain.length → part = (spdmChain.drop off).take n → ∃ s2, exec (.getCertificate 0 off n) s = .next s2
        ∧ s2.out = s.out ++ [.doe "CERTIFICATE" (leBytes 2 part.length ++ leBytes 2 (spdmChain.length - off - part.length) ++ part)] ∧ s2.dict = s.dict)
      ∧ (∀ index nonce b, s.measurementBlocks index = some b → ∃ s2, exec (.getMeasurements index false nonce) s = .next s2
        ∧ s2.out = s.out ++ [.doe "MEASUREMENTS" b] ∧ s2.dict = s.dict ∧ s2.mem = s.mem)
      ∧ (∀ nonce, ∃ s2, exec (.challenge 0 nonce) s = .next s2 ∧ s2.mem = s.mem ∧ s2.tiles = s.tiles ∧ Safety.signsOnce s s2 "CHALLENGE_AUTH")
      ∧ (∀ index nonce b, s.measurementBlocks index = some b →
        ∃ s2, exec (.getMeasurements index true nonce) s = .next s2 ∧ s2.mem = s.mem ∧ s2.tiles = s.tiles ∧ Safety.signsOnce s s2 "MEASUREMENTS")))
  ∧ (∀ (s : State) (id : Nat), s.ready = true → s.hostUp = true →
    (s.hostLink.spdmAlgorithms = true → s.hostLink.sessions.length < 2 → s.spdmSession id = none →
      ∃ s2, exec (.keyExchange id) s = .next s2 ∧ s2.mem = s.mem ∧ s2.tiles = s.tiles ∧ Safety.signsOnce s s2 "KEY_EXCHANGE_RSP"
        ∧ (s.signBusy = true → s2.hostLink.sessions = s.hostLink.sessions)
        ∧ (s.signBusy = false → s.signExhausted = false → 0 < s.leavesLeft → Config.leafReadback s.freeCount = OK →
            s2.hostLink.sessions = s.hostLink.sessions ++ [{ id := id, secured := false, keyGeneration := 0 }]
              ∧ s2.entry 0x5040 0x0D = s.hostLink.sessions.length + 1))
    ∧ (∀ x, s.hostLink.spdmAlgorithms = true → s.spdmSession id = some x → x.secured = false →
      (∃ s2, exec (.spdmFinish id true) s = .next s2 ∧ (s2.spdmSession id).map (fun y => y.secured) = some true
        ∧ s2.out = s.out ++ [.doe "FINISH_RSP" []] ∧ s2.mem = s.mem)
      ∧ (∃ s2, exec (.spdmFinish id false) s = .next s2 ∧ s2.spdmSession id = none ∧ s2.mem = s.mem))
    ∧ (∀ x, s.spdmSession id = some x → x.secured = true →
      exec (.heartbeat id) s = .next (s.emit (.doe "HEARTBEAT_ACK" []))
      ∧ (∃ s2, exec (.keyUpdate id) s = .next s2 ∧ (s2.spdmSession id).map (fun y => y.keyGeneration) = some (x.keyGeneration + 1)
        ∧ s2.out = s.out ++ [.doe "KEY_UPDATE_ACK" []] ∧ s2.mem = s.mem)
      ∧ (∃ s2, exec (.endSession id) s = .next s2 ∧ s2.spdmSession id = none ∧ s2.entry 0x5040 0x0D = s2.hostLink.sessions.length
        ∧ s2.out = s.out ++ [.doe "END_SESSION_ACK" []] ∧ s2.mem = s.mem)
      ∧ (∀ sel : Bool, ∃ s2, exec (.vendorDefinedRequest id sel) s = .next s2 ∧ s2.secureStream = true
        ∧ (if sel then s2.hostLink.selectiveIde else s2.hostLink.linkIde) = .secure ∧ s2.out = s.out ++ [.doe "VENDOR_DEFINED_RESPONSE" []] ∧ s2.mem = s.mem))
    ∧ (s.spdmSession id = none → exec (.heartbeat id) s = .next (s.emit (.doe "ERROR" [4]))))

/-! ### Power -/

/-- The heat ledger: samples enter the mean and the peak; over the budget the fastest running group above FloorPoint steps down one point; a request held for
HoldLimit is admitted at the slowest of its points; a step up that fits ramps first and switches the clock when its voltage is reached, while no tile of
the group is in T2 or T3 (R345, R349, R352, R355-R357). -/
def Obligations.LedgerActs : Prop :=
  (∀ (s : State) (mw mv ma : Nat), s.heat.held = [] →
    ∃ s2, exec (.powerSample mw mv ma) s = .next s2 ∧ s2.entry 0xC000 1 = mv ∧ s2.entry 0xC000 2 = ma ∧ s2.mem = s.mem ∧ s2.tiles = s.tiles ∧ s2.jobs = s.jobs
      ∧ (s.hostPowered = true → s2.heat.samples = (s.heat.samples ++ [mw]).drop (s.heat.samples.length + 1 - 10)
          ∧ s2.entry 0xA060 2 = max mw (s.entry 0xA060 2))
      ∧ (s.hostPowered = false → s2.heat.samples = s.heat.samples))
  ∧ (∀ (s : State) (j : Nat), 1000 * s.entry 0xA010 1 < s.meanPower → (s.heat.lastOver.any fun m => s.now < m + 100000) = false → s.stepTarget = some j →
    (∀ t ∈ (s.job j).group, t < 64) →
    ∃ s2, exec .overBudgetStep s = .next s2 ∧ Safety.moved s s2 j (s.groupPoint j + 1) ∧ s2.heat.lastOver = some s.now)
  ∧ (∀ s : State, 1000 * s.entry 0xA010 1 < s.meanPower → (s.heat.lastOver.any fun m => s.now < m + 100000) = false → s.stepTarget = none →
    s.heat.overNoted = false →
    ∃ s2, exec .overBudgetStep s = .next s2 ∧ s2.heat.overNoted = true ∧ s2.entry 0xB091 3 = s.meanPower % 2 ^ 64 ∧ s2.mem = s.mem ∧ s2.tiles = s.tiles
      ∧ exec .overBudgetStep s2 = .next s2)
  ∧ (∀ (s : State) (r : PhaseReq), r.job < 16 → (∀ t ∈ (s.job r.job).group, t < 64) →
    (s.heat.held.find? fun r => s.entry 0xA010 4 ≠ 0 && decide (r.since + 1000 * s.entry 0xA010 4 ≤ s.now)) = some r →
    ∃ s2, exec .holdLimitExpiry s = .next s2 ∧ s2.groupPoint r.job = s.overrunPoint r.job ∧ s2.entry (0xA080 + r.job) 3 = r.phase
      ∧ (∀ q ∈ s2.heat.held, q.job ≠ r.job) ∧ (s2.job r.job).powerHeld = none ∧ s2.mem = s.mem
      ∧ ∀ t ∈ (s.job r.job).group, (s2.tile t).run = .issuing ∧ (s2.tile t).barWait = .none ∧ (s2.tile t).rows = (s.tile t).rows)
  ∧ (∀ (s : State) (j : Nat), s.heat.lastRaise + 1000 * s.entry 0xA010 5 ≤ s.now → s.heat.held = [] → s.raiseTarget = some j →
    (s.heat.ramps.any fun r => r.job = j) = false → Tab.get? s.heat.thermalAt j = none →
    s.fits ((s.projection j (s.entry (0xA080 + j) 3) (s.groupPoint j - 1) : Int) - s.inForce j) = true →
    ∃ s2, exec .raiseCheck s = .next s2 ∧ s2.heat.lastRaise = s.now
      ∧ s2.heat.ramps = s.heat.ramps ++ [{ job := j, target := s.groupPoint j - 1, startedAt := s.now }] ∧ s2.groupPoint j = s.groupPoint j
      ∧ s2.dict = s.dict ∧ s2.mem = s.mem ∧ s2.tiles = s.tiles ∧ s2.jobs = s.jobs)
  ∧ (∀ s : State, s.now < s.heat.lastRaise + 1000 * s.entry 0xA010 5 → exec .raiseCheck s = .next s)
  ∧ (∀ (s : State) (j x since : Nat), j < 16 → (s.heat.ramps.find? fun r => r.job = j) = some { job := j, target := x, startedAt := since } →
    since + 100 * (pointMv x - pointMv (s.groupPoint j)) ≤ s.now → x ≠ s.groupPoint j → (∀ t ∈ (s.job j).group, t < 64) →
    ((s.job j).group.any fun t => 2 ≤ s.tileState t) = false →
    ∃ s2, exec (.pointChange j) s = .next s2 ∧ Safety.moved s s2 j x ∧ ∀ r ∈ s2.heat.ramps, r.job ≠ j)
  ∧ (∀ (s : State) (j : Nat), j < 16 → ((s.job j).group.any fun t => 2 ≤ s.tileState t) = true → exec (.pointChange j) s = .next s)

/-- Heat and sleep: a junction at ThermalLimit steps its group down, at 125 C Fumarole orders
the host side off by a POWER_DOMAIN_CMD over the gate; a tile enters the state its work allows and loses
nothing in T1 to T3, everything in T4, and wakes when planned; DEEP_IDLE switches the ports off and back (R13, R348-R350, R358, R359). -/
def Obligations.HeatAndSleep : Prop :=
  (∀ (s : State) (t j : Nat) (temp : Int), t < 64 → s.tileEnabled t = true → s.jobOfTile t = some j →
    ((s.job j).runs = true → (∀ u ∈ (s.job j).group, u < 64) → 16 * (s.entry 0xA070 1 : Int) ≤ temp → Tab.get? s.heat.thermalAt j = none → s.groupPoint j < 3 →
      ∃ s2, exec (.thermalStep t temp) s = .next s2 ∧ Safety.moved s s2 j (s.groupPoint j + 1) ∧ s2.entry (0xA0C0 + t) 5 = unsigned 64 temp
        ∧ Tab.get? s2.heat.thermalAt j = some s.now)
    ∧ (temp < 16 * (s.entry 0xA070 1 : Int) → exec (.thermalStep t temp) s = .next (s.setEntry (0xA0C0 + t) 5 (unsigned 64 temp))))
  ∧ (∀ (s : State) (t : Nat) (temp : Int), t < 64 → s.tileEnabled t = true → 2000 ≤ temp → s.entry 0x1100 1 ≠ 0 →
    s.fieldGate.quietUntil ≤ s.now →
    ∃ s2, exec (.thermalTrip t temp) s = .next s2 ∧ s2.out = s.out ++ [.gate false s.fieldGate.nextSeq (.power hostMask false)]
      ∧ s2.entry 0x1100 4 = THERMAL_TRIP ∧ s2.thermalTripped = true ∧ s2.fieldLog.map (fun e => e.code) = s.fieldLog.map (fun e => e.code) ++ [THERMAL_TRIP]
      ∧ s2.mem = s.mem ∧ s2.tiles = s.tiles ∧ s2.jobs = s.jobs)
  ∧ (∀ (s : State) (t b n : Nat) (w : Option Nat), t < 64 → s.tileEnabled t = true → s.sleepPlan t b = some (n, w) →
    (s.tileState t = 0 → 0 < n → ∃ s2, exec (.tileSleepEntry t b) s = .next s2 ∧ s2.tileState t = n ∧ (s2.tile t).wakeAt = w ∧ s2.mem = s.mem ∧ s2.jobs = s.jobs
      ∧ (n ≤ 3 → (s2.tile t).rows = (s.tile t).rows ∧ (s2.tile t).tags = (s.tile t).tags ∧ (s2.tile t).sregs = (s.tile t).sregs
          ∧ (s2.tile t).nextBundle = (s.tile t).nextBundle)
      ∧ (n = 4 → (s2.tile t).banks = 0 ∧ (s2.tile t).rows = []) ∧ ∀ u, u ≠ t → s2.tile u = s.tile u)
    ∧ (0 < s.tileState t → s.tileState t < n → n ≤ 3 → ∃ s2, exec (.tileSleepEntry t b) s = .next s2 ∧ s2.tileState t = n ∧ (s2.tile t).wakeAt = w
      ∧ (s2.tile t).rows = (s.tile t).rows ∧ (s2.tile t).sregs = (s.tile t).sregs ∧ s2.mem = s.mem ∧ s2.jobs = s.jobs ∧ ∀ u, u ≠ t → s2.tile u = s.tile u)
    ∧ (n ≤ s.tileState t → exec (.tileSleepEntry t b) s = .next s))
  ∧ (∀ (s : State) (t m : Nat), t < 64 → (s.tile t).wakeAt = some m → 1 ≤ s.tileState t → s.tileState t ≤ 3 →
    (m ≤ s.now → ∃ s2, exec (.tileWake t) s = .next s2 ∧ s2.tileState t = 0 ∧ (s2.tile t).wakeAt = none ∧ (s2.tile t).rows = (s.tile t).rows
      ∧ (s2.tile t).sregs = (s.tile t).sregs ∧ s2.mem = s.mem ∧ s2.jobs = s.jobs)
    ∧ (s.now < m → exec (.tileWake t) s = .next s))
  ∧ (∀ (s : State) (ctx : Nat), Safety.direct s ctx = true → s.idle = true →
    (s.deepIdle = false → ∃ s2, exec (.deepIdleEnter ctx) s = .next s2 ∧ s2.deepIdle = true ∧ Safety.outcome s2 ctx 0xA040 1 OK ∧ s2.mem = s.mem
      ∧ ∀ p, p < 16 → s2.portState p = portDisabled ∧ s2.domain (72 + p) = .off)
    ∧ (s.deepIdle = true → ∃ s2, exec (.deepIdleLeave ctx) s = .next s2 ∧ s2.deepIdle = false ∧ Safety.outcome s2 ctx 0xA040 1 OK ∧ s2.mem = s.mem
      ∧ ∀ p, p < 16 → s2.domain (72 + p) = .on ∧ (s.portEnabled p = true → s2.portState p = portTraining)))
  ∧ (∀ s : State, s.ready = true → s.idle = true → s.deepIdle = false → s.entry 0xA040 3 ≠ 0 →
    s.heat.idleSince + 1000000000 * s.entry 0xA040 3 ≤ s.now →
    ∃ s2, exec .deepIdleAuto s = .next s2 ∧ s2.deepIdle = true ∧ s2.mem = s.mem ∧ s2.tiles = s.tiles)

/-! ### Identity, public-key engine and firmware -/

/-- The public-key engine: a claim, a slot's content, each command's outcome and time, the user keys, and what a command leaves when its time has elapsed
(R381-R384). -/
def Obligations.PkeServes : Prop :=
  (∀ (s : State) (ctx j : Nat), Safety.direct s ctx = true → s.entry 0x9200 1 = 0xFF → j < 16 → (s.job j).state ≠ .ready → (s.job j).state ≠ .halted →
    ∃ s2, exec (.pkeClaim ctx (BitVec.ofNat 64 j)) s = .next s2 ∧ s2.entry 0x9200 1 = j ∧ s2.pke.claimContext = some ctx ∧ Safety.outcome s2 ctx 0x9200 1 OK
      ∧ s2.pke.slots = s.pke.slots ∧ s2.mem = s.mem)
  ∧ (∀ (s : State) (ctx : Nat), Safety.direct s ctx = true → s.pke.claimContext = some ctx →
    ∃ s2, exec (.pkeFree ctx) s = .next s2 ∧ s2.entry 0x9200 1 = 0xFF ∧ s2.pke.slots = [] ∧ s2.pke.secret = [] ∧ s2.pke.running = none
      ∧ s2.pke.keys = s.pke.keys ∧ Safety.outcome s2 ctx 0x9200 1 OK ∧ s2.mem = s.mem)
  ∧ (∀ (s : State) (ctx i : Nat) (d : List Byte), Safety.served s ctx = true → s.pke.claimContext = some ctx → i < 16 → d.length ≤ 512 → s.pke.secret.Nodup →
    ∃ s2, exec (.pkeSlotWrite ctx i d) s = .next s2 ∧ s2.pkeSlot i = leNat d ∧ s2.pkeSecret i = false ∧ Safety.outcome s2 ctx 0x9210 (i + 1) OK
      ∧ (∀ k, k ≠ i → s2.pkeSlot k = s.pkeSlot k ∧ s2.pkeSecret k = s.pkeSecret k) ∧ s2.mem = s.mem ∧ s2.dict = s.dict)
  ∧ (∀ (s : State) (ctx d a b m len x y n t : Nat), Safety.pkeReady s ctx = true → d < 16 → a < 16 → b < 16 → m < 16 → 0 < len → len ≤ 64 →
    x = s.pkeSlot a % 2 ^ (64 * len) → y = s.pkeSlot b % 2 ^ (64 * len) → n = s.pkeSlot m % 2 ^ (64 * len) → t = 60 + 8 * len * len → n % 2 = 1 → 3 ≤ n → x < n →
    s.pkeSecret a = false → s.pkeSecret b = false → s.pkeSecret m = false →
    (y < n →
      Safety.pkeGives (.modAdd ctx d a b m len) s ctx OK (40 + 20 * len) (some (d, (x + y) % n, false)) none
      ∧ Safety.pkeGives (.modSub ctx d a b m len) s ctx OK (40 + 20 * len) (some (d, (x + n - y) % n, false)) none
      ∧ Safety.pkeGives (.modMul ctx d a b m len) s ctx OK t (some (d, x * y % n, false)) none)
    ∧ (n ≤ y → Safety.pkeGives (.modAdd ctx d a b m len) s ctx PKE_RANGE (40 + 20 * len) none none)
    ∧ (∀ v, modInverse (64 * len) n x = some v →
      Safety.pkeGives (.modInv ctx d a m len) s ctx OK ((128 * len + 64) * (16 + 8 * len)) (some (d, v, false)) none)
    ∧ (modInverse (64 * len) n x = none →
      Safety.pkeGives (.modInv ctx d a m len) s ctx PKE_NO_INVERSE ((128 * len + 64) * (16 + 8 * len)) none none)
    ∧ Safety.pkeGives (.modExp ctx d a b m len) s ctx OK ((80 * len + 2) * t) (some (d, powMod n x y, false)) none)
  ∧ (∀ (s : State) (ctx d a b : Nat) (p : Point), Safety.pkeReady s ctx = true → d < 16 → a < 16 → b < 16 → s.pkeSecret a = false → s.pkePoint a = some p →
    (∀ q, s.pkeSecret b = false → s.pkePoint b = some q →
      Safety.pkeGives (.p384Add ctx d a b) s ctx OK 1200 (some (d, pointSlot (pointAdd p q), false)) none)
    ∧ Safety.pkeGives (.p384Double ctx d a) s ctx OK 1000 (some (d, pointSlot (pointDouble p), false)) none
    ∧ (s.pkeSlot b % 2 ^ 384 < p384N →
      Safety.pkeGives (.p384Mul ctx d a b) s ctx OK 96000 (some (d, pointSlot (pointMul p (s.pkeSlot b % 2 ^ 384) 384), false)) none)
    ∧ Safety.pkeGives (.p384Check ctx a) s ctx OK 800 none none)
  ∧ (∀ (s : State) (ctx d h : Nat) (persist : Bool), Safety.pkeReady s ctx = true → d < 16 → h < 32 →
    (Tab.get? s.pke.keys h = none → ∃ k, 0 < k ∧ k < p384N
      ∧ Safety.pkeGives (.keyGenerate ctx d h persist) s ctx OK 100000 (some (d, pointSlot (pointMul p384G k 384), false)) (some (h, some (k, persist))))
    ∧ (∀ k, Tab.get? s.pke.keys h = some k →
      Safety.pkeGives (.keyGenerate ctx d h persist) s ctx STATE_CONFLICT 100000 none none
      ∧ Safety.pkeGives (.keyLoad ctx d h) s ctx OK 500 (some (d, k.scalar, true)) none
      ∧ Safety.pkeGives (.keyErase ctx h) s ctx OK 2000 none (some (h, none))))
  ∧ (∀ (s : State) (r : PkeRun), s.pke.running = some r →
    (r.endsAt ≤ s.now → s.pke.secret.Nodup → ∃ s2, exec .pkeCommandComplete s = .next s2 ∧ s2.pke.running = none ∧ s2.entry 0x9200 3 = r.status
      ∧ (∀ d v x, r.dest = some (d, v, x) → s2.pkeSlot d = v ∧ s2.pkeSecret d = x ∧ ∀ k, k ≠ d → s2.pkeSlot k = s.pkeSlot k)
      ∧ (∀ h k x, r.key = some (h, some (k, x)) → Tab.get? s2.pke.keys h = some { scalar := k, persistent := x })
      ∧ (∀ h, r.key = some (h, none) → Tab.get? s2.pke.keys h = none) ∧ (r.key = none → s2.pke.keys = s.pke.keys)
      ∧ (r.dest = none → s2.pke.slots = s.pke.slots) ∧ s2.mem = s.mem ∧ s2.tiles = s.tiles ∧ s2.jobs = s.jobs)
    ∧ (s.now < r.endsAt → exec .pkeCommandComplete s = .next s))

/-- The extended Euclidean inverse that MOD_INV and the points' divisions use is the inverse, and exists where the operand is coprime to the modulus (R383). -/
def Obligations.InverseInverts : Prop :=
  ∀ w m a : Nat, 1 < m → m < 2 ^ w → 0 < a → a < m →
    (Nat.gcd m a = 1 → ∃ v, modInverse w m a = some v ∧ v < m ∧ v * a % m = 1) ∧ (Nat.gcd m a ≠ 1 → modInverse w m a = none)

/-- The signing tree and the firmware: a low bottom tree prepares its successor once; an accepted activation starts its pause, or a full restart with the pending
package; CommitSvn fuses the running version where it is above the fused one (R364, R374, R376, R380). -/
def Obligations.FirmwareActs : Prop :=
  (∀ s : State, s.leavesLeft < 65536 → s.hss.prepared = false → s.hss.topNext < 2 ^ 20 →
    exec .hssTreePrepare s = .next { s with hss := { s.hss with prepared := true, topNext := s.hss.topNext + 1 } })
  ∧ (∀ s : State, (65536 ≤ s.leavesLeft ∨ s.hss.prepared = true) → exec .hssTreePrepare s = .next s)
  ∧ (∀ (s : State) (ctx : Nat), Safety.direct s ctx = true → s.idle = true → s.packageReady = true → s.restart = none →
    (s.sameFieldFirmware = true → ∃ s2, exec (.activateHost ctx) s = .next s2 ∧ s2.restart.map (fun r => (r.kind, r.pending)) = some (kindActivate, true)
      ∧ s2.entry 0x1100 1 = 7 ∧ Safety.outcome s2 ctx 0x9110 1 OK ∧ s2.mem = s.mem ∧ s2.jobs = [] ∧ s2.flash = s.flash)
    ∧ (s.sameFieldFirmware = false → ∃ s2, exec (.activateHost ctx) s = .next s2 ∧ Safety.outcome s2 ctx 0x9110 1 VALUE_RANGE ∧ s2.mem = s.mem ∧ s2.dict = s.dict)
    ∧ (∃ s2, exec (.activateFull ctx) s = .next s2 ∧ s2.restart.map (fun r => (r.kind, r.pending)) = some (kindFull, true)
      ∧ s2.entry 0x1100 1 = 1 ∧ Safety.outcome s2 ctx 0x9110 1 OK ∧ s2.mem = [] ∧ s2.jobs = [] ∧ s2.flash = s.flash))
  ∧ (∀ (s : State) (ctx : Nat), Safety.direct s ctx = true → s.idle = true →
    ∃ s2, exec (.commitSvn ctx 1) s = .next s2 ∧ s2.entry 0x9000 1 = max (s.entry 0x9000 1) (s.packageSvn s.activeSlot) ∧ Safety.outcome s2 ctx 0x9110 2 OK
      ∧ s2.mem = s.mem ∧ s2.tiles = s.tiles ∧ s2.jobs = s.jobs)

/-! ### Integrity and recovery -/

/-- Check-value contexts: a run binds its context fresh or resumes it, a cancelled one leaves it SAVED, one that ends folds its range, of this device's memory or
another's, and records the check value; a poisoned source ends it with SLOT_POISON; the entries of a context that is not BOUND can be written (R387-R390). -/
def Obligations.ChecksRun : Prop :=
  (∀ (s : State) (ctx n : Nat), Safety.direct s ctx = true → n = s.entry 0xB180 3 → n < 96 → s.checkContextFits (s.entry 0xB180 1) n = true → s.checkRun = none →
    s.contextBound n = false →
    (s.isSelf (nodeOf (s.entry 0xB180 1)) = true ∨ s.issueStatus (nodeOf (s.entry 0xB180 1)) 2 (localOf (s.entry 0xB180 1)) = OK) →
    (∃ s2, exec (.checkStart ctx) s = .next s2 ∧ Safety.checkStarted s s2 ctx n ∧ s2.entry (0xB100 + n) 3 = 2 ^ 64 - 1 ∧ s2.entry (0xB100 + n) 4 = 0)
    ∧ (∃ s2, exec (.checkResume ctx) s = .next s2 ∧ Safety.checkStarted s s2 ctx n ∧ s2.entry (0xB100 + n) 3 = s.entry (0xB100 + n) 3
      ∧ s2.entry (0xB100 + n) 4 = s.entry (0xB100 + n) 4))
  ∧ (∀ (s : State) (ctx : Nat) (c : CheckRun), Safety.direct s ctx = true → s.checkRun = some c → c.context < 96 → s.contextBound c.context = true →
    ∃ s2, exec (.checkCancel ctx) s = .next s2 ∧ s2.checkRun = none ∧ s2.entry 0xB180 5 = GROUP_DISCARDED ∧ s2.entry (0xB100 + c.context) 1 = 2
      ∧ Safety.outcome s2 ctx 0xB180 4 OK ∧ s2.mem = s.mem)
  ∧ (∀ (s : State) (c : CheckRun) (b remote : List Byte) (n : Nat), s.checkRun = some c → n = c.context → n < 96 → s.contextBound n = true →
    s.checkForbidden c = false → s.issuerBusy issuerCheck = false → s.entry (0xB100 + n) 4 + c.length < 2 ^ 64 →
    (s.isSelf (nodeOf c.source) = false ∨ s.rangePoisoned (localOf c.source) c.length = false) →
    b = (if s.isSelf (nodeOf c.source) then s.memBytes (localOf c.source) c.length else sliceBytes remote 0 c.length) →
    ∃ s2, exec (.checkRunComplete OK remote) s = .next s2 ∧ s2.checkRun = none ∧ s2.entry 0xB180 5 = OK ∧ s2.entry (0xB100 + n) 1 = 2
      ∧ s2.entry (0xB100 + n) 4 = s.entry (0xB100 + n) 4 + c.length
      ∧ s2.entry 0xB180 6 = (if s.entry (0xB100 + n) 2 = 1 then crc32cValue (crc32cRun (s.entry (0xB100 + n) 3) b)
          else crc64Value (crc64Run (s.entry (0xB100 + n) 3) b)) ∧ s2.mem = s.mem ∧ s2.tiles = s.tiles)
  ∧ (∀ (s : State) (c : CheckRun) (remote : List Byte) (n : Nat), s.checkRun = some c → n = c.context → n < 96 → s.contextBound n = true →
    (s.checkForbidden c = true → ∃ s2, exec (.checkRunComplete OK remote) s = .next s2 ∧ s2.checkRun = none ∧ s2.entry 0xB180 5 = ACCESS_PROTECT
      ∧ s2.entry (0xB100 + n) 1 = 2 ∧ s2.entry (0xB100 + n) 3 = s.entry (0xB100 + n) 3 ∧ s2.mem = s.mem)
    ∧ (s.checkForbidden c = false → s.issuerBusy issuerCheck = false → s.isSelf (nodeOf c.source) = true →
      s.rangePoisoned (localOf c.source) c.length = true → ∃ s2, exec (.checkRunComplete OK remote) s = .next s2 ∧ s2.checkRun = none
        ∧ s2.entry 0xB180 5 = SLOT_POISON ∧ s2.entry (0xB100 + n) 1 = 2 ∧ s2.entry 0xB180 6 = s.entry 0xB180 6 ∧ s2.mem = s.mem))
  ∧ (∀ (s : State) (ctx n v : Nat), Safety.direct s ctx = true → n < 96 → s.entry (0xB100 + n) 1 ≠ 1 →
    (v < 2 → ∃ s2, exec (.contextWrite ctx n 2 (BitVec.ofNat 64 v)) s = .next s2 ∧ s2.entry (0xB100 + n) 2 = v ∧ Safety.outcome s2 ctx (0xB100 + n) 2 OK)
    ∧ (∀ sub, sub = 3 ∨ sub = 4 → v < 2 ^ 64 → ∃ s2, exec (.contextWrite ctx n sub (BitVec.ofNat 64 v)) s = .next s2 ∧ s2.entry (0xB100 + n) sub = v
      ∧ s2.entry (0xB100 + n) 1 = 2 ∧ Safety.outcome s2 ctx (0xB100 + n) sub OK ∧ s2.mem = s.mem))

/-- Leases and the watchdog: a tile that stops renewing for 8 us is taken through OFF and its job ends with TILE_UNRESPONSIVE, one that does not come back is failed
and held OFF; a watchdog that is not kicked has Fumarole told (R393, R394, R397). -/
def Obligations.LeasesAndWatchdog : Prop :=
  (∀ (s : State) (t : Nat), t < 64 → s.tileEnabled t = true →
    ∃ s2, exec (.leaseRenew t) s = .next s2 ∧ (s2.tile t).leaseAt = s.now ∧ (s2.tile t).recoverBy = none ∧ (s2.tile t).rows = (s.tile t).rows
      ∧ (∀ u, u ≠ t → s2.tile u = s.tile u) ∧ s2.dict = s.dict ∧ s2.mem = s.mem)
  ∧ (∀ (s : State) (t g j : Nat), t < 64 → s.tileEnabled t = true → s.renewedByLedger t = false → (s.tile t).leaseAt + 8000 ≤ s.now → (s.tile t).recoverBy = none →
    bit (s.entry 0xB190 2) t = false → s.jobOfTile t = some j → (s.job j).state = .running →
    ∃ s2, exec (.leaseTimeout t g) s = .next s2 ∧ (s2.job j).state = .draining ∧ (s2.job j).abortCode = TILE_UNRESPONSIVE ∧ (s2.job j).abortTile = t
      ∧ (s2.tile t).rows = [] ∧ (s2.tile t).recoverBy = some (s.now + 1080000) ∧ s2.tileState t = 0 ∧ s2.mem = s.mem
      ∧ ∀ u, u ≠ t → (s2.tile u).rows = (s.tile u).rows ∧ (s2.tile u).tags = (s.tile u).tags ∧ (s2.tile u).sregs = (s.tile u).sregs
        ∧ (s2.tile u).run = (s.tile u).run ∧ (s2.tile u).queue = (s.tile u).queue ∧ (s2.tile u).running = (s.tile u).running)
  ∧ (∀ (s : State) (t g : Nat), t < 64 → s.now < (s.tile t).leaseAt + 8000 → exec (.leaseTimeout t g) s = .next s)
  ∧ (∀ (s : State) (t d : Nat), t < 64 → (s.tile t).recoverBy = some d →
    (d ≤ s.now → ∃ s2, exec (.tileRecoveryTimeout t) s = .next s2 ∧ bit (s2.entry 0xB190 2) t = true ∧ s2.tileState t = 4 ∧ (s2.tile t).recoverBy = none
      ∧ s2.mem = s.mem ∧ s2.jobs = s.jobs)
    ∧ (s.now < d → exec (.tileRecoveryTimeout t) s = .next s))
  ∧ (∀ s : State, s.ready = true → exec .watchdogKick s = .next { s with watchdogAt := s.now, watchdogLimit := 1000000 * s.entry 0xB190 1 })
  ∧ (∀ (s : State) (e : LogEntry), s.ready = true → s.hostGate.down = false → s.hostGate.quietUntil ≤ s.now →
    e = { event := 0x40, job := 0xFF, code := WATCHDOG_RESTART, seq := s.logNext, time := s.fabricTime, detail0 := s.entry 0xB190 1, detail1 := 0 } →
    (s.watchdogAt + s.watchdogLimit ≤ s.now → ∃ s2, exec .watchdogExpiry s = .next s2 ∧ s2.watchdogAt = s.now
      ∧ s2.out = s.out ++ [.gate true s.hostGate.nextSeq (.notice e)] ∧ s2.dict = s.dict ∧ s2.mem = s.mem)
    ∧ (s.now < s.watchdogAt + s.watchdogLimit → exec .watchdogExpiry s = .next s))

/-! ### Snapshots and restarts -/

/-- Snapshots: a trigger sets a latch tick, now plus 1 us or at its target, at most 4 timed ones; a tick that fabric time has reached is captured in a slot,
which is READY once its copy is complete; nothing of a tile or of memory changes (R402-R406). -/
def Obligations.SnapshotsTake : Prop :=
  (∀ (s : State) (ctx : Nat), Safety.direct s ctx = true →
    (∃ s2, exec (.snapImmediate ctx) s = .next s2 ∧ Safety.ticked s s2 (s.fabricTime + 1000) srcImmediate false ∧ Safety.outcome s2 ctx 0x8010 1 OK)
    ∧ (s.timedTicks < 4 →
      (∃ s2, exec (.snapTimed ctx) s = .next s2 ∧ Safety.ticked s s2 (s.entry 0x8010 2) srcTimed true ∧ Safety.outcome s2 ctx 0x8010 1 OK)
      ∧ (∃ s2, exec (.snapBroadcast ctx) s = .next s2 ∧ Safety.ticked s s2 (s.entry 0x8010 2) srcTimed true ∧ Safety.outcome s2 ctx 0x8010 1 OK
        ∧ s2.snapsSeen = s.snapsSeen ++ [(s.nodeId, s.entry 0x8010 3)]))
    ∧ (4 ≤ s.timedTicks → ∃ s2, exec (.snapTimed ctx) s = .next s2 ∧ s2.ticks = s.ticks ∧ Safety.outcome s2 ctx 0x8010 1 STATE_CONFLICT))
  ∧ (∀ (s : State) (k : LatchTick) (n : Nat), s.dueTick = some k → s.copying = none → s.captureSlot = some n →
    ∃ s2, exec .snapshotLatch s = .next s2 ∧ s2.copying = some (n, k.time) ∧ s2.entry (0x8040 + n) 1 = 1 ∧ s2.entry (0x8040 + n) 2 = s.captureSeq
      ∧ s2.entry (0x8040 + n) 4 = k.time ∧ s2.captureSeq = s.captureSeq + 1 ∧ (∀ m ∈ s2.ticks, ¬(m.time = k.time ∧ m.wasDeferred = k.wasDeferred))
      ∧ (Tab.get? s2.captures n).isSome = true ∧ s2.tiles = s.tiles ∧ s2.mem = s.mem ∧ s2.jobs = s.jobs)
  ∧ (∀ s : State, s.dueTick = none → exec .snapshotLatch s = .next s)
  ∧ (∀ (s : State) (n time : Nat), s.copying = some (n, time) →
    ∃ s2, exec .snapshotCopyComplete s = .next s2 ∧ s2.copying = none ∧ s2.entry (0x8040 + n) 1 = 2 ∧ s2.captures = s.captures ∧ s2.tiles = s.tiles ∧ s2.mem = s.mem)

/-- Restarts begin: a host-side context's request crosses the gate and a DTP session's acts; WARM keeps the stacks' contents, FULL and COLD clear them and start
from a slot that verifies or stay in recovery, a COLD start with PowerOnPolicy 1 leaves the host side off; 2 orders the power-off, which is carried out as its
POWER_DOMAIN_CMD arrives, and 3 powers on again; no job survives any of them (R13, R373, R415, R418-R420, R424). -/
def Obligations.RestartsBegin : Prop :=
  (∀ (s : State) (ctx k : Nat) (c : Instr), Safety.direct s ctx = true → s.hostGate.quietUntil ≤ s.now →
    (k, c) ∈ [(1, Instr.resetWarm ctx), (2, .resetHostOff ctx), (3, .resetHostPower ctx), (4, .resetFull ctx)] →
    ∃ s2, exec c s = .next s2 ∧ s2.awaits ctx = true ∧ s2.dict = s.dict ∧ s2.mem = s.mem ∧ s2.jobs = s.jobs
      ∧ s2.out = s.out ++ [.gate true s.hostGate.nextSeq (.request ctx (.entries [(2048 * 0x1110 + 8, some (BitVec.ofNat 64 (resetValue k)))]))])
  ∧ (∀ (s : State) (ctx : Nat), isDtp ctx = true → (s.context ctx).groupState ≠ 1 → s.awaits ctx = false → s.restart = none → s.recovery = false → s.entry 0x1100 1 ≠ 0 →
    (∃ s2, exec (.resetWarm ctx) s = .next s2 ∧ s2.restart.map (fun r => (r.kind, r.cause)) = some (kindWarm, 0) ∧ s2.entry 0x1100 1 = 1 ∧ s2.mem = s.mem
      ∧ s2.jobs = [] ∧ s2.tiles = [] ∧ Safety.outcome s2 ctx 0x1110 1 OK)
    ∧ (s.fieldGate.quietUntil ≤ s.now →
      ∃ s2, exec (.resetHostOff ctx) s = .next s2 ∧ s2.out = s.out ++ [.gate false s.fieldGate.nextSeq (.power hostMask false)] ∧ s2.entry 0x1100 4 = 0
        ∧ Safety.outcome s2 ctx 0x1110 1 OK ∧ s2.mem = s.mem ∧ s2.jobs = s.jobs ∧ s2.tiles = s.tiles)
    ∧ (∃ s2, exec (.resetFull ctx) s = .next s2 ∧ s2.mem = [] ∧ s2.jobs = [] ∧ s2.tiles = [] ∧ s2.hostPowered = false ∧ Safety.outcome s2 ctx 0x1110 1 OK
      ∧ ((s2.recovery = false ∧ s2.restart.map (fun r => r.kind) = some kindFull ∧ s2.entry 0x1100 1 = 1)
        ∨ (s2.recovery = true ∧ s2.restart = none ∧ s2.entry 0x1100 1 = 0))))
  ∧ (∀ (s : State) (ctx : Nat), isDtp ctx = true → (s.context ctx).groupState ≠ 1 → s.awaits ctx = false → s.restart = none → s.recovery = false → s.entry 0x1100 1 = 0 →
    ∃ s2, exec (.resetHostPower ctx) s = .next s2 ∧ s2.restart.map (fun r => r.kind) = some kindHostPower ∧ s2.entry 0x1100 1 = 1 ∧ s2.hostPowered = false
      ∧ s2.thermalTripped = false ∧ s2.mem = [] ∧ Safety.outcome s2 ctx 0x1110 1 OK)
  ∧ (∀ (s : State) (seq mask : Nat) (on : Bool), s.fieldPowered = true → s.hostGate.down = false → s.hostGate.answered.lookup seq = none →
    (bit mask 90 || bit mask 95) = true →
    (on = false → s.hostPowered = true → ∃ s2, exec (.powerDomainCmd seq mask on) s = .next s2 ∧ s2.hostPowered = false ∧ s2.entry 0x1100 1 = 0 ∧ s2.restart = none
      ∧ s2.mem = [] ∧ s2.jobs = [] ∧ s2.tiles = [])
    ∧ (on = true → s.hostPowered = false → s.entry 0x1100 1 = 0 → s.restart = none → s.recovery = false →
      ∃ s2, exec (.powerDomainCmd seq mask on) s = .next s2 ∧ s2.restart.map (fun r => r.kind) = some kindHostPower ∧ s2.entry 0x1100 1 = 1))
  ∧ (∀ s : State, s.fieldPowered = false →
    ∃ s2, exec .coldStart s = .next s2 ∧ s2.fieldPowered = true ∧ s2.mem = [] ∧ s2.jobs = [] ∧ s2.tiles = [] ∧ s2.sessions = [] ∧ s2.hostPowered = false
      ∧ ((s2.restart.map (fun r => r.kind) = some kindCold ∧ s2.entry 0x1100 1 = 1 ∧ s2.entry 0x1120 1 ≠ 1)
        ∨ (s2.restart = none ∧ s2.entry 0x1100 1 = 0 ∧ (s2.recovery = true ∨ s2.entry 0x1120 1 = 1))))

/-- The module's inputs: an input voltage out of range for 100 us has Fumarole order the host side off, its recovery for 100 ms powers it on again, the loss of field-side power
loses what was not stored and every session, and the sensors' readings are what their entries show (R420, R429, R430, R436). -/
def Obligations.InputsAndSensors : Prop :=
  (∀ (s : State) (mv : Nat), mv < 50000 ∨ 60000 < mv → 10 ≤ s.heat.outSamples → s.entry 0xC000 3 = 0 → s.entry 0x1100 1 ≠ 0 →
    s.fieldGate.quietUntil ≤ s.now →
    ∃ s2, exec (.inputOutOfRange mv) s = .next s2 ∧ s2.out = s.out ++ [.gate false s.fieldGate.nextSeq (.power hostMask false)]
      ∧ s2.entry 0x1100 4 = INPUT_RANGE ∧ s2.entry 0xC000 3 = (if mv < 50000 then 1 else 2) ∧ s2.mem = s.mem ∧ s2.jobs = s.jobs ∧ s2.tiles = s.tiles
      ∧ s2.fieldLog.map (fun e => e.code) = s.fieldLog.map (fun e => e.code) ++ [INPUT_RANGE])
  ∧ (∀ (s : State) (t : Nat), s.inputBackSince = some t → s.entry 0x1100 1 = 0 → s.entry 0x1100 4 = INPUT_RANGE → s.entry 0x1120 2 = 1 →
    s.thermalTripped = false → s.recovery = false → s.restart = none →
    (t + 100000000 ≤ s.now → ∃ s2, exec .inputRecovery s = .next s2 ∧ s2.restart.map (fun r => (r.kind, r.cause)) = some (kindHostPower, INPUT_RANGE)
      ∧ s2.entry 0x1100 1 = 1 ∧ s2.hostPowered = false ∧ s2.mem = [])
    ∧ (s.now < t + 100000000 → exec .inputRecovery s = .next s))
  ∧ (∀ s : State, ∃ s2, exec .fieldPowerLoss s = .next s2 ∧ s2.fieldPowered = false ∧ s2.unstored = [] ∧ s2.sessions = [] ∧ s2.restart = none ∧ s2.entry 0x1100 1 = 0
    ∧ s2.flash = s.flash ∧ s2.hss = s.hss)
  ∧ (∀ (s : State) (r : SensorReadings), s.entry 0x1100 1 ≠ 0 →
    ∃ s2, exec (.sensorUpdate r) s = .next s2 ∧ s2.entry 0xC010 1 = unsigned 64 r.coolantInlet ∧ s2.entry 0xC010 2 = unsigned 64 r.coolantOutlet
      ∧ s2.entry 0xC010 3 = unsigned 64 r.fieldSide ∧ s2.entry 0xC010 4 = unsigned 64 r.boardMax
      ∧ (∀ k v, k < 8 → r.stackTemps[k]? = some v → s2.entry (0xC040 + k) 1 = unsigned 64 v ∧ s2.entry (0x3040 + k) 2 = if 1360 < v then 1 else 0)
      ∧ (∀ k v, k < 17 → r.engineTemps[k]? = some v → s2.entry (0xC060 + k) 1 = unsigned 64 v)
      ∧ (∀ t v, t < 64 → r.junctionTemps[t]? = some v → s2.entry (0xA0C0 + t) 5 = unsigned 64 v) ∧ s2.mem = s.mem ∧ s2.tiles = s.tiles ∧ s2.jobs = s.jobs)

/-! ### Arithmetic and mapping, as their rules state them -/

/-- The procedure of R89, run with enough passes, returns x mod q for every input in range; a folded value needs at most two subtractions for FORM 0
and one for FORM 1, and each pass of the fold changes x by −H × q. -/
def Obligations.FoldReduces : Prop :=
  ∀ (w : Nat) (x : Int), wordValid w 0 = true → -(2 ^ 80) < x → x < 2 ^ 80 →
    (∃ n, ∀ fuel, n ≤ fuel → foldReduce (if bit w 15 then 1 else 0) (wordW w) (wordS w) (modulusOf w) fuel x = x % (modulusOf w : Int))
      ∧ (∀ y, y < 2 ^ (wordW w + 1) → y / modulusOf w ≤ (if bit w 15 then 1 else 2))
      ∧ (∀ fuel y, (2 ^ (wordW w + 1) ≤ y ∨ y < 0) → foldReduce (if bit w 15 then 1 else 0) (wordW w) (wordS w) (modulusOf w) (fuel + 1) y
          = foldReduce (if bit w 15 then 1 else 0) (wordW w) (wordS w) (modulusOf w) fuel (y - y / 2 ^ wordW w * modulusOf w))

/-- A local address of a stack-linear window lies in its own stack, at the channel and channel-local granule of R279, from which it is recovered with its byte. -/
def Obligations.LinearWindowMaps : Prop :=
  ∀ (s : State) (a j o g : Nat), j = a / 48000008192 → s.stackLinear j = true → o = a - j * 48000008192 → g = o / 2 ^ 8 →
    s.mapAddress a = (j, g % 2 ^ 7, g / 2 ^ 7)
      ∧ a = (s.mapAddress a).1 * 48000008192 + (128 * (s.mapAddress a).2.2 + (s.mapAddress a).2.1) * 256 + a % 256
end

