-- ==== Sys2Proof/Laws/Tab.lean ====
section
/-! SUPPORT. The laws of tables: reading after writing, and the canonical form kept. -/

namespace Sys2Proof.Laws

open Sys2Proof.Machine

variable {α : Type}

@[simp] theorem tab_get?_nil (k : Nat) : Tab.get? ([] : Tab α) k = none := rfl

@[simp] theorem tab_get_nil (d : α) (k : Nat) : Tab.get [] d k = d := rfl

/-- A value put is read back. -/
@[simp] theorem tab_get?_put_same (m : Tab α) (k : Nat) (v : α) : Tab.get? (Tab.put m k v) k = some v := by
  induction m with
  | nil => simp [Tab.put, Tab.get?]
  | cons p m ih =>
    obtain ⟨k', v'⟩ := p
    by_cases h : k < k'
    · simp [Tab.put, Tab.get?, h]
    · by_cases h' : k = k'
      · simp [Tab.put, Tab.get?, h']
      · have : ¬ k' = k := fun e => h' e.symm
        simp [Tab.put, Tab.get?, h, h', this, ih]

/-- A put leaves every other key alone. -/
@[simp] theorem tab_get?_put_ne (m : Tab α) {k k' : Nat} (v : α) (h : k' ≠ k) : Tab.get? (Tab.put m k v) k' = Tab.get? m k' := by
  induction m with
  | nil => simp [Tab.put, Tab.get?, h.symm]
  | cons p m ih =>
    obtain ⟨a, b⟩ := p
    by_cases h1 : k < a
    · simp [Tab.put, Tab.get?, h1, h.symm]
    · by_cases h2 : k = a
      · subst h2; simp [Tab.put, Tab.get?, h.symm]
      · by_cases h3 : a = k'
        · subst h3; simp only [Tab.put, h1, h2, if_false, Tab.get?, if_true]
        · simp only [Tab.put, h1, h2, if_false, Tab.get?, h3]; exact ih

@[simp] theorem tab_get_put_same (m : Tab α) (d : α) (k : Nat) (v : α) : Tab.get (Tab.put m k v) d k = v := by simp [Tab.get]

@[simp] theorem tab_get_put_ne (m : Tab α) (d : α) {k k' : Nat} (v : α) (h : k' ≠ k) :
    Tab.get (Tab.put m k v) d k' = Tab.get m d k' := by simp [Tab.get, h]

/-- An erased key is not listed. -/
@[simp] theorem tab_get?_erase_same (m : Tab α) (k : Nat) : Tab.get? (Tab.erase m k) k = none := by
  induction m with
  | nil => rfl
  | cons p m ih =>
    obtain ⟨a, b⟩ := p
    by_cases h : a = k
    · simpa [Tab.erase, h] using ih
    · have : (a != k) = true := by simp [h]
      simp only [Tab.erase, List.filter_cons, this, if_true, Tab.get?, h, if_false]
      exact ih

/-- An erasure leaves every other key alone. -/
@[simp] theorem tab_get?_erase_ne (m : Tab α) {k k' : Nat} (h : k' ≠ k) : Tab.get? (Tab.erase m k) k' = Tab.get? m k' := by
  induction m with
  | nil => rfl
  | cons p m ih =>
    obtain ⟨a, b⟩ := p
    by_cases h1 : a = k
    · subst h1
      have : Tab.erase ((a, b) :: m) a = Tab.erase m a := by simp [Tab.erase]
      rw [this, ih]; simp [Tab.get?, h.symm]
    · have : Tab.erase ((a, b) :: m) k = (a, b) :: Tab.erase m k := by simp [Tab.erase, h1]
      rw [this]; simp [Tab.get?, ih]

@[simp] theorem tab_get_erase_same (m : Tab α) (d : α) (k : Nat) : Tab.get (Tab.erase m k) d k = d := by simp [Tab.get]

@[simp] theorem tab_get_erase_ne (m : Tab α) (d : α) {k k' : Nat} (h : k' ≠ k) :
    Tab.get (Tab.erase m k) d k' = Tab.get m d k' := by simp [Tab.get, h]

/-- The canonical form of a longer table: every later key is larger. -/
theorem tab_wf_cons (k : Nat) (v : α) (m : Tab α) : Tab.wf ((k, v) :: m) = true ↔ (∀ p ∈ m, k < p.1) ∧ Tab.wf m = true := by
  induction m generalizing k v with
  | nil => simp [Tab.wf]
  | cons p m ih =>
    obtain ⟨a, b⟩ := p
    have ih' := ih a b
    simp only [Tab.wf, Bool.and_eq_true, decide_eq_true_eq, List.mem_cons, forall_eq_or_imp]
    constructor
    · rintro ⟨h, hw⟩
      have := (ih'.1 hw).1
      exact ⟨⟨h, fun q hq => Nat.lt_trans h (this q hq)⟩, hw⟩
    · rintro ⟨⟨h, _⟩, hw⟩
      exact ⟨h, hw⟩

theorem tab_mem_put {m : Tab α} {k : Nat} {v : α} {p : Nat × α} (h : p ∈ Tab.put m k v) : p = (k, v) ∨ p ∈ m := by
  induction m with
  | nil => simp only [Tab.put, List.mem_singleton] at h; exact .inl h
  | cons q m ih =>
    obtain ⟨a, b⟩ := q
    simp only [Tab.put] at h
    split at h
    · rcases List.mem_cons.1 h with h | h
      · exact .inl h
      · exact .inr h
    · split at h
      · rcases List.mem_cons.1 h with h | h
        · exact .inl h
        · exact .inr (List.mem_cons_of_mem _ h)
      · rcases List.mem_cons.1 h with h | h
        · exact .inr (by rw [h]; exact List.mem_cons_self ..)
        · rcases ih h with h | h
          · exact .inl h
          · exact .inr (List.mem_cons_of_mem _ h)

/-- A put keeps the canonical form. -/
theorem tab_wf_put {m : Tab α} (k : Nat) (v : α) (h : Tab.wf m = true) : Tab.wf (Tab.put m k v) = true := by
  induction m with
  | nil => rfl
  | cons q m ih =>
    obtain ⟨a, b⟩ := q
    obtain ⟨hlt, hw⟩ := (tab_wf_cons a b m).1 h
    by_cases h1 : k < a
    · simp only [Tab.put, h1, if_true]
      refine (tab_wf_cons _ _ _).2 ⟨fun p hp => ?_, h⟩
      rcases List.mem_cons.1 hp with hp | hp
      · rw [hp]; exact h1
      · exact Nat.lt_trans h1 (hlt p hp)
    · by_cases h2 : k = a
      · subst h2
        simp only [Tab.put, Nat.lt_irrefl, if_false, if_true]
        exact (tab_wf_cons _ _ _).2 ⟨hlt, hw⟩
      · simp only [Tab.put, h1, h2, if_false]
        refine (tab_wf_cons _ _ _).2 ⟨fun p hp => ?_, ih hw⟩
        rcases tab_mem_put hp with hp | hp
        · rw [hp]; show a < k; omega
        · exact hlt p hp

/-- A filter keeps the canonical form. -/
theorem tab_wf_filter {m : Tab α} (f : Nat × α → Bool) (h : Tab.wf m = true) : Tab.wf (m.filter f) = true := by
  induction m with
  | nil => rfl
  | cons q m ih =>
    obtain ⟨a, b⟩ := q
    obtain ⟨hlt, hw⟩ := (tab_wf_cons a b m).1 h
    by_cases hf : f (a, b) = true
    · rw [List.filter_cons_of_pos hf]
      exact (tab_wf_cons _ _ _).2 ⟨fun p hp => hlt p (List.mem_filter.1 hp).1, ih hw⟩
    · rw [List.filter_cons_of_neg hf]; exact ih hw

/-- An erasure keeps the canonical form. -/
theorem tab_wf_erase {m : Tab α} (k : Nat) (h : Tab.wf m = true) : Tab.wf (Tab.erase m k) = true := tab_wf_filter _ h

end Sys2Proof.Laws
end

