-- ==== Sys2Proof/Laws/State.lean ====
section
/-! SUPPORT. What each update of the state leaves and what it writes: one lemma per field per update. -/

namespace Sys2Proof.Laws

open Sys2Proof.Machine

variable (s : State)

/-! ### setTile -/

@[simp] theorem setTile_pending (t : Nat) (x : Tile) : (s.setTile t x).pending = s.pending := rfl
@[simp] theorem setTile_freeCount (t : Nat) (x : Tile) : (s.setTile t x).freeCount = s.freeCount := rfl
@[simp] theorem setTile_out (t : Nat) (x : Tile) : (s.setTile t x).out = s.out := rfl
@[simp] theorem setTile_grade (t : Nat) (x : Tile) : (s.setTile t x).grade = s.grade := rfl
@[simp] theorem setTile_enabled (t : Nat) (x : Tile) : (s.setTile t x).enabled = s.enabled := rfl
@[simp] theorem setTile_now (t : Nat) (x : Tile) : (s.setTile t x).now = s.now := rfl
@[simp] theorem setTile_dict (t : Nat) (x : Tile) : (s.setTile t x).dict = s.dict := rfl
@[simp] theorem setTile_blobs (t : Nat) (x : Tile) : (s.setTile t x).blobs = s.blobs := rfl
@[simp] theorem setTile_contexts (t : Nat) (x : Tile) : (s.setTile t x).contexts = s.contexts := rfl
@[simp] theorem setTile_pendingGroups (t : Nat) (x : Tile) : (s.setTile t x).pendingGroups = s.pendingGroups := rfl
@[simp] theorem setTile_sessions (t : Nat) (x : Tile) : (s.setTile t x).sessions = s.sessions := rfl
@[simp] theorem setTile_dtpDropped (t : Nat) (x : Tile) : (s.setTile t x).dtpDropped = s.dtpDropped := rfl
@[simp] theorem setTile_restoreDefaults (t : Nat) (x : Tile) : (s.setTile t x).restoreDefaults = s.restoreDefaults := rfl
@[simp] theorem setTile_unstored (t : Nat) (x : Tile) : (s.setTile t x).unstored = s.unstored := rfl
@[simp] theorem setTile_journal (t : Nat) (x : Tile) : (s.setTile t x).journal = s.journal := rfl
@[simp] theorem setTile_hostGate (t : Nat) (x : Tile) : (s.setTile t x).hostGate = s.hostGate := rfl
@[simp] theorem setTile_fieldGate (t : Nat) (x : Tile) : (s.setTile t x).fieldGate = s.fieldGate := rfl
@[simp] theorem setTile_heldAccesses (t : Nat) (x : Tile) : (s.setTile t x).heldAccesses = s.heldAccesses := rfl
@[simp] theorem setTile_arriving (t : Nat) (x : Tile) : (s.setTile t x).arriving = s.arriving := rfl
@[simp] theorem setTile_notices (t : Nat) (x : Tile) : (s.setTile t x).notices = s.notices := rfl
@[simp] theorem setTile_fieldLog (t : Nat) (x : Tile) : (s.setTile t x).fieldLog = s.fieldLog := rfl
@[simp] theorem setTile_flash (t : Nat) (x : Tile) : (s.setTile t x).flash = s.flash := rfl
@[simp] theorem setTile_flashLength (t : Nat) (x : Tile) : (s.setTile t x).flashLength = s.flashLength := rfl
@[simp] theorem setTile_sets (t : Nat) (x : Tile) : (s.setTile t x).sets = s.sets := rfl
@[simp] theorem setTile_jobs (t : Nat) (x : Tile) : (s.setTile t x).jobs = s.jobs := rfl
@[simp] theorem setTile_admitQueue (t : Nat) (x : Tile) : (s.setTile t x).admitQueue = s.admitQueue := rfl
@[simp] theorem setTile_conversion (t : Nat) (x : Tile) : (s.setTile t x).conversion = s.conversion := rfl
@[simp] theorem setTile_streams (t : Nat) (x : Tile) : (s.setTile t x).streams = s.streams := rfl
@[simp] theorem setTile_openWaits (t : Nat) (x : Tile) : (s.setTile t x).openWaits = s.openWaits := rfl
@[simp] theorem setTile_lateStreams (t : Nat) (x : Tile) : (s.setTile t x).lateStreams = s.lateStreams := rfl
@[simp] theorem setTile_mcastCredits (t : Nat) (x : Tile) : (s.setTile t x).mcastCredits = s.mcastCredits := rfl
@[simp] theorem setTile_mcastUsed (t : Nat) (x : Tile) : (s.setTile t x).mcastUsed = s.mcastUsed := rfl
@[simp] theorem setTile_rateWindowAt (t : Nat) (x : Tile) : (s.setTile t x).rateWindowAt = s.rateWindowAt := rfl
@[simp] theorem setTile_mem (t : Nat) (x : Tile) : (s.setTile t x).mem = s.mem := rfl
@[simp] theorem setTile_memUndefined (t : Nat) (x : Tile) : (s.setTile t x).memUndefined = s.memUndefined := rfl
@[simp] theorem setTile_wordPoison (t : Nat) (x : Tile) : (s.setTile t x).wordPoison = s.wordPoison := rfl
@[simp] theorem setTile_wordEpoch (t : Nat) (x : Tile) : (s.setTile t x).wordEpoch = s.wordEpoch := rfl
@[simp] theorem setTile_poisonTable (t : Nat) (x : Tile) : (s.setTile t x).poisonTable = s.poisonTable := rfl
@[simp] theorem setTile_poisonEpoch (t : Nat) (x : Tile) : (s.setTile t x).poisonEpoch = s.poisonEpoch := rfl
@[simp] theorem setTile_poisonWaits (t : Nat) (x : Tile) : (s.setTile t x).poisonWaits = s.poisonWaits := rfl
@[simp] theorem setTile_sorters (t : Nat) (x : Tile) : (s.setTile t x).sorters = s.sorters := rfl
@[simp] theorem setTile_stackWriteBacks (t : Nat) (x : Tile) : (s.setTile t x).stackWriteBacks = s.stackWriteBacks := rfl
@[simp] theorem setTile_clearWalk (t : Nat) (x : Tile) : (s.setTile t x).clearWalk = s.clearWalk := rfl
@[simp] theorem setTile_ports (t : Nat) (x : Tile) : (s.setTile t x).ports = s.ports := rfl
@[simp] theorem setTile_seqNext (t : Nat) (x : Tile) : (s.setTile t x).seqNext = s.seqNext := rfl
@[simp] theorem setTile_seqExpected (t : Nat) (x : Tile) : (s.setTile t x).seqExpected = s.seqExpected := rfl
@[simp] theorem setTile_failedTriples (t : Nat) (x : Tile) : (s.setTile t x).failedTriples = s.failedTriples := rfl
@[simp] theorem setTile_heldFrames (t : Nat) (x : Tile) : (s.setTile t x).heldFrames = s.heldFrames := rfl
@[simp] theorem setTile_behind (t : Nat) (x : Tile) : (s.setTile t x).behind = s.behind := rfl
@[simp] theorem setTile_remoteOps (t : Nat) (x : Tile) : (s.setTile t x).remoteOps = s.remoteOps := rfl
@[simp] theorem setTile_nextTag (t : Nat) (x : Tile) : (s.setTile t x).nextTag = s.nextTag := rfl
@[simp] theorem setTile_mcastWaits (t : Nat) (x : Tile) : (s.setTile t x).mcastWaits = s.mcastWaits := rfl
@[simp] theorem setTile_barriers (t : Nat) (x : Tile) : (s.setTile t x).barriers = s.barriers := rfl
@[simp] theorem setTile_snapsSeen (t : Nat) (x : Tile) : (s.setTile t x).snapsSeen = s.snapsSeen := rfl
@[simp] theorem setTile_lastTimeIdle (t : Nat) (x : Tile) : (s.setTile t x).lastTimeIdle = s.lastTimeIdle := rfl
@[simp] theorem setTile_timeOffset (t : Nat) (x : Tile) : (s.setTile t x).timeOffset = s.timeOffset := rfl
@[simp] theorem setTile_everLocked (t : Nat) (x : Tile) : (s.setTile t x).everLocked = s.everLocked := rfl
@[simp] theorem setTile_slewLeft (t : Nat) (x : Tile) : (s.setTile t x).slewLeft = s.slewLeft := rfl
@[simp] theorem setTile_slewAt (t : Nat) (x : Tile) : (s.setTile t x).slewAt = s.slewAt := rfl
@[simp] theorem setTile_hostLink (t : Nat) (x : Tile) : (s.setTile t x).hostLink = s.hostLink := rfl
@[simp] theorem setTile_heat (t : Nat) (x : Tile) : (s.setTile t x).heat = s.heat := rfl
@[simp] theorem setTile_domains (t : Nat) (x : Tile) : (s.setTile t x).domains = s.domains := rfl
@[simp] theorem setTile_hss (t : Nat) (x : Tile) : (s.setTile t x).hss = s.hss := rfl
@[simp] theorem setTile_pke (t : Nat) (x : Tile) : (s.setTile t x).pke = s.pke := rfl
@[simp] theorem setTile_recovery (t : Nat) (x : Tile) : (s.setTile t x).recovery = s.recovery := rfl
@[simp] theorem setTile_nonceFresh (t : Nat) (x : Tile) : (s.setTile t x).nonceFresh = s.nonceFresh := rfl
@[simp] theorem setTile_log (t : Nat) (x : Tile) : (s.setTile t x).log = s.log := rfl
@[simp] theorem setTile_logNext (t : Nat) (x : Tile) : (s.setTile t x).logNext = s.logNext := rfl
@[simp] theorem setTile_checkRun (t : Nat) (x : Tile) : (s.setTile t x).checkRun = s.checkRun := rfl
@[simp] theorem setTile_watchdogAt (t : Nat) (x : Tile) : (s.setTile t x).watchdogAt = s.watchdogAt := rfl
@[simp] theorem setTile_watchdogLimit (t : Nat) (x : Tile) : (s.setTile t x).watchdogLimit = s.watchdogLimit := rfl
@[simp] theorem setTile_ticks (t : Nat) (x : Tile) : (s.setTile t x).ticks = s.ticks := rfl
@[simp] theorem setTile_copying (t : Nat) (x : Tile) : (s.setTile t x).copying = s.copying := rfl
@[simp] theorem setTile_captures (t : Nat) (x : Tile) : (s.setTile t x).captures = s.captures := rfl
@[simp] theorem setTile_captureSeq (t : Nat) (x : Tile) : (s.setTile t x).captureSeq = s.captureSeq := rfl
@[simp] theorem setTile_captureOrder (t : Nat) (x : Tile) : (s.setTile t x).captureOrder = s.captureOrder := rfl
@[simp] theorem setTile_hostPowered (t : Nat) (x : Tile) : (s.setTile t x).hostPowered = s.hostPowered := rfl
@[simp] theorem setTile_fieldPowered (t : Nat) (x : Tile) : (s.setTile t x).fieldPowered = s.fieldPowered := rfl
@[simp] theorem setTile_thermalTripped (t : Nat) (x : Tile) : (s.setTile t x).thermalTripped = s.thermalTripped := rfl
@[simp] theorem setTile_starts (t : Nat) (x : Tile) : (s.setTile t x).starts = s.starts := rfl
@[simp] theorem setTile_restart (t : Nat) (x : Tile) : (s.setTile t x).restart = s.restart := rfl
@[simp] theorem setTile_deferredRestart (t : Nat) (x : Tile) : (s.setTile t x).deferredRestart = s.deferredRestart := rfl
@[simp] theorem setTile_inputBackSince (t : Nat) (x : Tile) : (s.setTile t x).inputBackSince = s.inputBackSince := rfl
@[simp] theorem setTile_replayWrites (t : Nat) (x : Tile) : (s.setTile t x).replayWrites = s.replayWrites := rfl
@[simp] theorem setTile_get_job (t : Nat) (x : Tile) (n : Nat) : (s.setTile t x).job n = s.job n := rfl
@[simp] theorem setTile_get_context (t : Nat) (x : Tile) (n : Nat) : (s.setTile t x).context n = s.context n := rfl
@[simp] theorem setTile_get_stream (t : Nat) (x : Tile) (n : Nat) : (s.setTile t x).stream n = s.stream n := rfl
@[simp] theorem setTile_get_port (t : Nat) (x : Tile) (n : Nat) : (s.setTile t x).port n = s.port n := rfl
@[simp] theorem setTile_get_sorter (t : Nat) (x : Tile) (n : Nat) : (s.setTile t x).sorter n = s.sorter n := rfl
@[simp] theorem setTile_get_barrier (t : Nat) (x : Tile) (n : Nat) : (s.setTile t x).barrier n = s.barrier n := rfl
@[simp] theorem setTile_get_entry (t : Nat) (x : Tile) (n m : Nat) : (s.setTile t x).entry n m = s.entry n m := rfl
@[simp] theorem setTile_get_blob (t : Nat) (x : Tile) (n m : Nat) : (s.setTile t x).blob n m = s.blob n m := rfl

/-! ### setJob -/

@[simp] theorem setJob_pending (j : Nat) (x : Job) : (s.setJob j x).pending = s.pending := rfl
@[simp] theorem setJob_freeCount (j : Nat) (x : Job) : (s.setJob j x).freeCount = s.freeCount := rfl
@[simp] theorem setJob_out (j : Nat) (x : Job) : (s.setJob j x).out = s.out := rfl
@[simp] theorem setJob_grade (j : Nat) (x : Job) : (s.setJob j x).grade = s.grade := rfl
@[simp] theorem setJob_enabled (j : Nat) (x : Job) : (s.setJob j x).enabled = s.enabled := rfl
@[simp] theorem setJob_now (j : Nat) (x : Job) : (s.setJob j x).now = s.now := rfl
@[simp] theorem setJob_dict (j : Nat) (x : Job) : (s.setJob j x).dict = s.dict := rfl
@[simp] theorem setJob_blobs (j : Nat) (x : Job) : (s.setJob j x).blobs = s.blobs := rfl
@[simp] theorem setJob_contexts (j : Nat) (x : Job) : (s.setJob j x).contexts = s.contexts := rfl
@[simp] theorem setJob_pendingGroups (j : Nat) (x : Job) : (s.setJob j x).pendingGroups = s.pendingGroups := rfl
@[simp] theorem setJob_sessions (j : Nat) (x : Job) : (s.setJob j x).sessions = s.sessions := rfl
@[simp] theorem setJob_dtpDropped (j : Nat) (x : Job) : (s.setJob j x).dtpDropped = s.dtpDropped := rfl
@[simp] theorem setJob_restoreDefaults (j : Nat) (x : Job) : (s.setJob j x).restoreDefaults = s.restoreDefaults := rfl
@[simp] theorem setJob_unstored (j : Nat) (x : Job) : (s.setJob j x).unstored = s.unstored := rfl
@[simp] theorem setJob_journal (j : Nat) (x : Job) : (s.setJob j x).journal = s.journal := rfl
@[simp] theorem setJob_hostGate (j : Nat) (x : Job) : (s.setJob j x).hostGate = s.hostGate := rfl
@[simp] theorem setJob_fieldGate (j : Nat) (x : Job) : (s.setJob j x).fieldGate = s.fieldGate := rfl
@[simp] theorem setJob_heldAccesses (j : Nat) (x : Job) : (s.setJob j x).heldAccesses = s.heldAccesses := rfl
@[simp] theorem setJob_arriving (j : Nat) (x : Job) : (s.setJob j x).arriving = s.arriving := rfl
@[simp] theorem setJob_notices (j : Nat) (x : Job) : (s.setJob j x).notices = s.notices := rfl
@[simp] theorem setJob_fieldLog (j : Nat) (x : Job) : (s.setJob j x).fieldLog = s.fieldLog := rfl
@[simp] theorem setJob_flash (j : Nat) (x : Job) : (s.setJob j x).flash = s.flash := rfl
@[simp] theorem setJob_flashLength (j : Nat) (x : Job) : (s.setJob j x).flashLength = s.flashLength := rfl
@[simp] theorem setJob_sets (j : Nat) (x : Job) : (s.setJob j x).sets = s.sets := rfl
@[simp] theorem setJob_admitQueue (j : Nat) (x : Job) : (s.setJob j x).admitQueue = s.admitQueue := rfl
@[simp] theorem setJob_tiles (j : Nat) (x : Job) : (s.setJob j x).tiles = s.tiles := rfl
@[simp] theorem setJob_conversion (j : Nat) (x : Job) : (s.setJob j x).conversion = s.conversion := rfl
@[simp] theorem setJob_streams (j : Nat) (x : Job) : (s.setJob j x).streams = s.streams := rfl
@[simp] theorem setJob_openWaits (j : Nat) (x : Job) : (s.setJob j x).openWaits = s.openWaits := rfl
@[simp] theorem setJob_lateStreams (j : Nat) (x : Job) : (s.setJob j x).lateStreams = s.lateStreams := rfl
@[simp] theorem setJob_mcastCredits (j : Nat) (x : Job) : (s.setJob j x).mcastCredits = s.mcastCredits := rfl
@[simp] theorem setJob_mcastUsed (j : Nat) (x : Job) : (s.setJob j x).mcastUsed = s.mcastUsed := rfl
@[simp] theorem setJob_rateWindowAt (j : Nat) (x : Job) : (s.setJob j x).rateWindowAt = s.rateWindowAt := rfl
@[simp] theorem setJob_mem (j : Nat) (x : Job) : (s.setJob j x).mem = s.mem := rfl
@[simp] theorem setJob_memUndefined (j : Nat) (x : Job) : (s.setJob j x).memUndefined = s.memUndefined := rfl
@[simp] theorem setJob_wordPoison (j : Nat) (x : Job) : (s.setJob j x).wordPoison = s.wordPoison := rfl
@[simp] theorem setJob_wordEpoch (j : Nat) (x : Job) : (s.setJob j x).wordEpoch = s.wordEpoch := rfl
@[simp] theorem setJob_poisonTable (j : Nat) (x : Job) : (s.setJob j x).poisonTable = s.poisonTable := rfl
@[simp] theorem setJob_poisonEpoch (j : Nat) (x : Job) : (s.setJob j x).poisonEpoch = s.poisonEpoch := rfl
@[simp] theorem setJob_poisonWaits (j : Nat) (x : Job) : (s.setJob j x).poisonWaits = s.poisonWaits := rfl
@[simp] theorem setJob_sorters (j : Nat) (x : Job) : (s.setJob j x).sorters = s.sorters := rfl
@[simp] theorem setJob_stackWriteBacks (j : Nat) (x : Job) : (s.setJob j x).stackWriteBacks = s.stackWriteBacks := rfl
@[simp] theorem setJob_clearWalk (j : Nat) (x : Job) : (s.setJob j x).clearWalk = s.clearWalk := rfl
@[simp] theorem setJob_ports (j : Nat) (x : Job) : (s.setJob j x).ports = s.ports := rfl
@[simp] theorem setJob_seqNext (j : Nat) (x : Job) : (s.setJob j x).seqNext = s.seqNext := rfl
@[simp] theorem setJob_seqExpected (j : Nat) (x : Job) : (s.setJob j x).seqExpected = s.seqExpected := rfl
@[simp] theorem setJob_failedTriples (j : Nat) (x : Job) : (s.setJob j x).failedTriples = s.failedTriples := rfl
@[simp] theorem setJob_heldFrames (j : Nat) (x : Job) : (s.setJob j x).heldFrames = s.heldFrames := rfl
@[simp] theorem setJob_behind (j : Nat) (x : Job) : (s.setJob j x).behind = s.behind := rfl
@[simp] theorem setJob_remoteOps (j : Nat) (x : Job) : (s.setJob j x).remoteOps = s.remoteOps := rfl
@[simp] theorem setJob_nextTag (j : Nat) (x : Job) : (s.setJob j x).nextTag = s.nextTag := rfl
@[simp] theorem setJob_mcastWaits (j : Nat) (x : Job) : (s.setJob j x).mcastWaits = s.mcastWaits := rfl
@[simp] theorem setJob_barriers (j : Nat) (x : Job) : (s.setJob j x).barriers = s.barriers := rfl
@[simp] theorem setJob_snapsSeen (j : Nat) (x : Job) : (s.setJob j x).snapsSeen = s.snapsSeen := rfl
@[simp] theorem setJob_lastTimeIdle (j : Nat) (x : Job) : (s.setJob j x).lastTimeIdle = s.lastTimeIdle := rfl
@[simp] theorem setJob_timeOffset (j : Nat) (x : Job) : (s.setJob j x).timeOffset = s.timeOffset := rfl
@[simp] theorem setJob_everLocked (j : Nat) (x : Job) : (s.setJob j x).everLocked = s.everLocked := rfl
@[simp] theorem setJob_slewLeft (j : Nat) (x : Job) : (s.setJob j x).slewLeft = s.slewLeft := rfl
@[simp] theorem setJob_slewAt (j : Nat) (x : Job) : (s.setJob j x).slewAt = s.slewAt := rfl
@[simp] theorem setJob_hostLink (j : Nat) (x : Job) : (s.setJob j x).hostLink = s.hostLink := rfl
@[simp] theorem setJob_heat (j : Nat) (x : Job) : (s.setJob j x).heat = s.heat := rfl
@[simp] theorem setJob_domains (j : Nat) (x : Job) : (s.setJob j x).domains = s.domains := rfl
@[simp] theorem setJob_hss (j : Nat) (x : Job) : (s.setJob j x).hss = s.hss := rfl
@[simp] theorem setJob_pke (j : Nat) (x : Job) : (s.setJob j x).pke = s.pke := rfl
@[simp] theorem setJob_recovery (j : Nat) (x : Job) : (s.setJob j x).recovery = s.recovery := rfl
@[simp] theorem setJob_nonceFresh (j : Nat) (x : Job) : (s.setJob j x).nonceFresh = s.nonceFresh := rfl
@[simp] theorem setJob_log (j : Nat) (x : Job) : (s.setJob j x).log = s.log := rfl
@[simp] theorem setJob_logNext (j : Nat) (x : Job) : (s.setJob j x).logNext = s.logNext := rfl
@[simp] theorem setJob_checkRun (j : Nat) (x : Job) : (s.setJob j x).checkRun = s.checkRun := rfl
@[simp] theorem setJob_watchdogAt (j : Nat) (x : Job) : (s.setJob j x).watchdogAt = s.watchdogAt := rfl
@[simp] theorem setJob_watchdogLimit (j : Nat) (x : Job) : (s.setJob j x).watchdogLimit = s.watchdogLimit := rfl
@[simp] theorem setJob_ticks (j : Nat) (x : Job) : (s.setJob j x).ticks = s.ticks := rfl
@[simp] theorem setJob_copying (j : Nat) (x : Job) : (s.setJob j x).copying = s.copying := rfl
@[simp] theorem setJob_captures (j : Nat) (x : Job) : (s.setJob j x).captures = s.captures := rfl
@[simp] theorem setJob_captureSeq (j : Nat) (x : Job) : (s.setJob j x).captureSeq = s.captureSeq := rfl
@[simp] theorem setJob_captureOrder (j : Nat) (x : Job) : (s.setJob j x).captureOrder = s.captureOrder := rfl
@[simp] theorem setJob_hostPowered (j : Nat) (x : Job) : (s.setJob j x).hostPowered = s.hostPowered := rfl
@[simp] theorem setJob_fieldPowered (j : Nat) (x : Job) : (s.setJob j x).fieldPowered = s.fieldPowered := rfl
@[simp] theorem setJob_thermalTripped (j : Nat) (x : Job) : (s.setJob j x).thermalTripped = s.thermalTripped := rfl
@[simp] theorem setJob_starts (j : Nat) (x : Job) : (s.setJob j x).starts = s.starts := rfl
@[simp] theorem setJob_restart (j : Nat) (x : Job) : (s.setJob j x).restart = s.restart := rfl
@[simp] theorem setJob_deferredRestart (j : Nat) (x : Job) : (s.setJob j x).deferredRestart = s.deferredRestart := rfl
@[simp] theorem setJob_inputBackSince (j : Nat) (x : Job) : (s.setJob j x).inputBackSince = s.inputBackSince := rfl
@[simp] theorem setJob_replayWrites (j : Nat) (x : Job) : (s.setJob j x).replayWrites = s.replayWrites := rfl
@[simp] theorem setJob_get_tile (j : Nat) (x : Job) (n : Nat) : (s.setJob j x).tile n = s.tile n := rfl
@[simp] theorem setJob_get_context (j : Nat) (x : Job) (n : Nat) : (s.setJob j x).context n = s.context n := rfl
@[simp] theorem setJob_get_stream (j : Nat) (x : Job) (n : Nat) : (s.setJob j x).stream n = s.stream n := rfl
@[simp] theorem setJob_get_port (j : Nat) (x : Job) (n : Nat) : (s.setJob j x).port n = s.port n := rfl
@[simp] theorem setJob_get_sorter (j : Nat) (x : Job) (n : Nat) : (s.setJob j x).sorter n = s.sorter n := rfl
@[simp] theorem setJob_get_barrier (j : Nat) (x : Job) (n : Nat) : (s.setJob j x).barrier n = s.barrier n := rfl
@[simp] theorem setJob_get_entry (j : Nat) (x : Job) (n m : Nat) : (s.setJob j x).entry n m = s.entry n m := rfl
@[simp] theorem setJob_get_blob (j : Nat) (x : Job) (n m : Nat) : (s.setJob j x).blob n m = s.blob n m := rfl

/-! ### setContext -/

@[simp] theorem setContext_pending (c : Nat) (x : Context) : (s.setContext c x).pending = s.pending := rfl
@[simp] theorem setContext_freeCount (c : Nat) (x : Context) : (s.setContext c x).freeCount = s.freeCount := rfl
@[simp] theorem setContext_out (c : Nat) (x : Context) : (s.setContext c x).out = s.out := rfl
@[simp] theorem setContext_grade (c : Nat) (x : Context) : (s.setContext c x).grade = s.grade := rfl
@[simp] theorem setContext_enabled (c : Nat) (x : Context) : (s.setContext c x).enabled = s.enabled := rfl
@[simp] theorem setContext_now (c : Nat) (x : Context) : (s.setContext c x).now = s.now := rfl
@[simp] theorem setContext_dict (c : Nat) (x : Context) : (s.setContext c x).dict = s.dict := rfl
@[simp] theorem setContext_blobs (c : Nat) (x : Context) : (s.setContext c x).blobs = s.blobs := rfl
@[simp] theorem setContext_pendingGroups (c : Nat) (x : Context) : (s.setContext c x).pendingGroups = s.pendingGroups := rfl
@[simp] theorem setContext_sessions (c : Nat) (x : Context) : (s.setContext c x).sessions = s.sessions := rfl
@[simp] theorem setContext_dtpDropped (c : Nat) (x : Context) : (s.setContext c x).dtpDropped = s.dtpDropped := rfl
@[simp] theorem setContext_restoreDefaults (c : Nat) (x : Context) : (s.setContext c x).restoreDefaults = s.restoreDefaults := rfl
@[simp] theorem setContext_unstored (c : Nat) (x : Context) : (s.setContext c x).unstored = s.unstored := rfl
@[simp] theorem setContext_journal (c : Nat) (x : Context) : (s.setContext c x).journal = s.journal := rfl
@[simp] theorem setContext_hostGate (c : Nat) (x : Context) : (s.setContext c x).hostGate = s.hostGate := rfl
@[simp] theorem setContext_fieldGate (c : Nat) (x : Context) : (s.setContext c x).fieldGate = s.fieldGate := rfl
@[simp] theorem setContext_heldAccesses (c : Nat) (x : Context) : (s.setContext c x).heldAccesses = s.heldAccesses := rfl
@[simp] theorem setContext_arriving (c : Nat) (x : Context) : (s.setContext c x).arriving = s.arriving := rfl
@[simp] theorem setContext_notices (c : Nat) (x : Context) : (s.setContext c x).notices = s.notices := rfl
@[simp] theorem setContext_fieldLog (c : Nat) (x : Context) : (s.setContext c x).fieldLog = s.fieldLog := rfl
@[simp] theorem setContext_flash (c : Nat) (x : Context) : (s.setContext c x).flash = s.flash := rfl
@[simp] theorem setContext_flashLength (c : Nat) (x : Context) : (s.setContext c x).flashLength = s.flashLength := rfl
@[simp] theorem setContext_sets (c : Nat) (x : Context) : (s.setContext c x).sets = s.sets := rfl
@[simp] theorem setContext_jobs (c : Nat) (x : Context) : (s.setContext c x).jobs = s.jobs := rfl
@[simp] theorem setContext_admitQueue (c : Nat) (x : Context) : (s.setContext c x).admitQueue = s.admitQueue := rfl
@[simp] theorem setContext_tiles (c : Nat) (x : Context) : (s.setContext c x).tiles = s.tiles := rfl
@[simp] theorem setContext_conversion (c : Nat) (x : Context) : (s.setContext c x).conversion = s.conversion := rfl
@[simp] theorem setContext_streams (c : Nat) (x : Context) : (s.setContext c x).streams = s.streams := rfl
@[simp] theorem setContext_openWaits (c : Nat) (x : Context) : (s.setContext c x).openWaits = s.openWaits := rfl
@[simp] theorem setContext_lateStreams (c : Nat) (x : Context) : (s.setContext c x).lateStreams = s.lateStreams := rfl
@[simp] theorem setContext_mcastCredits (c : Nat) (x : Context) : (s.setContext c x).mcastCredits = s.mcastCredits := rfl
@[simp] theorem setContext_mcastUsed (c : Nat) (x : Context) : (s.setContext c x).mcastUsed = s.mcastUsed := rfl
@[simp] theorem setContext_rateWindowAt (c : Nat) (x : Context) : (s.setContext c x).rateWindowAt = s.rateWindowAt := rfl
@[simp] theorem setContext_mem (c : Nat) (x : Context) : (s.setContext c x).mem = s.mem := rfl
@[simp] theorem setContext_memUndefined (c : Nat) (x : Context) : (s.setContext c x).memUndefined = s.memUndefined := rfl
@[simp] theorem setContext_wordPoison (c : Nat) (x : Context) : (s.setContext c x).wordPoison = s.wordPoison := rfl
@[simp] theorem setContext_wordEpoch (c : Nat) (x : Context) : (s.setContext c x).wordEpoch = s.wordEpoch := rfl
@[simp] theorem setContext_poisonTable (c : Nat) (x : Context) : (s.setContext c x).poisonTable = s.poisonTable := rfl
@[simp] theorem setContext_poisonEpoch (c : Nat) (x : Context) : (s.setContext c x).poisonEpoch = s.poisonEpoch := rfl
@[simp] theorem setContext_poisonWaits (c : Nat) (x : Context) : (s.setContext c x).poisonWaits = s.poisonWaits := rfl
@[simp] theorem setContext_sorters (c : Nat) (x : Context) : (s.setContext c x).sorters = s.sorters := rfl
@[simp] theorem setContext_stackWriteBacks (c : Nat) (x : Context) : (s.setContext c x).stackWriteBacks = s.stackWriteBacks := rfl
@[simp] theorem setContext_clearWalk (c : Nat) (x : Context) : (s.setContext c x).clearWalk = s.clearWalk := rfl
@[simp] theorem setContext_ports (c : Nat) (x : Context) : (s.setContext c x).ports = s.ports := rfl
@[simp] theorem setContext_seqNext (c : Nat) (x : Context) : (s.setContext c x).seqNext = s.seqNext := rfl
@[simp] theorem setContext_seqExpected (c : Nat) (x : Context) : (s.setContext c x).seqExpected = s.seqExpected := rfl
@[simp] theorem setContext_failedTriples (c : Nat) (x : Context) : (s.setContext c x).failedTriples = s.failedTriples := rfl
@[simp] theorem setContext_heldFrames (c : Nat) (x : Context) : (s.setContext c x).heldFrames = s.heldFrames := rfl
@[simp] theorem setContext_behind (c : Nat) (x : Context) : (s.setContext c x).behind = s.behind := rfl
@[simp] theorem setContext_remoteOps (c : Nat) (x : Context) : (s.setContext c x).remoteOps = s.remoteOps := rfl
@[simp] theorem setContext_nextTag (c : Nat) (x : Context) : (s.setContext c x).nextTag = s.nextTag := rfl
@[simp] theorem setContext_mcastWaits (c : Nat) (x : Context) : (s.setContext c x).mcastWaits = s.mcastWaits := rfl
@[simp] theorem setContext_barriers (c : Nat) (x : Context) : (s.setContext c x).barriers = s.barriers := rfl
@[simp] theorem setContext_snapsSeen (c : Nat) (x : Context) : (s.setContext c x).snapsSeen = s.snapsSeen := rfl
@[simp] theorem setContext_lastTimeIdle (c : Nat) (x : Context) : (s.setContext c x).lastTimeIdle = s.lastTimeIdle := rfl
@[simp] theorem setContext_timeOffset (c : Nat) (x : Context) : (s.setContext c x).timeOffset = s.timeOffset := rfl
@[simp] theorem setContext_everLocked (c : Nat) (x : Context) : (s.setContext c x).everLocked = s.everLocked := rfl
@[simp] theorem setContext_slewLeft (c : Nat) (x : Context) : (s.setContext c x).slewLeft = s.slewLeft := rfl
@[simp] theorem setContext_slewAt (c : Nat) (x : Context) : (s.setContext c x).slewAt = s.slewAt := rfl
@[simp] theorem setContext_hostLink (c : Nat) (x : Context) : (s.setContext c x).hostLink = s.hostLink := rfl
@[simp] theorem setContext_heat (c : Nat) (x : Context) : (s.setContext c x).heat = s.heat := rfl
@[simp] theorem setContext_domains (c : Nat) (x : Context) : (s.setContext c x).domains = s.domains := rfl
@[simp] theorem setContext_hss (c : Nat) (x : Context) : (s.setContext c x).hss = s.hss := rfl
@[simp] theorem setContext_pke (c : Nat) (x : Context) : (s.setContext c x).pke = s.pke := rfl
@[simp] theorem setContext_recovery (c : Nat) (x : Context) : (s.setContext c x).recovery = s.recovery := rfl
@[simp] theorem setContext_nonceFresh (c : Nat) (x : Context) : (s.setContext c x).nonceFresh = s.nonceFresh := rfl
@[simp] theorem setContext_log (c : Nat) (x : Context) : (s.setContext c x).log = s.log := rfl
@[simp] theorem setContext_logNext (c : Nat) (x : Context) : (s.setContext c x).logNext = s.logNext := rfl
@[simp] theorem setContext_checkRun (c : Nat) (x : Context) : (s.setContext c x).checkRun = s.checkRun := rfl
@[simp] theorem setContext_watchdogAt (c : Nat) (x : Context) : (s.setContext c x).watchdogAt = s.watchdogAt := rfl
@[simp] theorem setContext_watchdogLimit (c : Nat) (x : Context) : (s.setContext c x).watchdogLimit = s.watchdogLimit := rfl
@[simp] theorem setContext_ticks (c : Nat) (x : Context) : (s.setContext c x).ticks = s.ticks := rfl
@[simp] theorem setContext_copying (c : Nat) (x : Context) : (s.setContext c x).copying = s.copying := rfl
@[simp] theorem setContext_captures (c : Nat) (x : Context) : (s.setContext c x).captures = s.captures := rfl
@[simp] theorem setContext_captureSeq (c : Nat) (x : Context) : (s.setContext c x).captureSeq = s.captureSeq := rfl
@[simp] theorem setContext_captureOrder (c : Nat) (x : Context) : (s.setContext c x).captureOrder = s.captureOrder := rfl
@[simp] theorem setContext_hostPowered (c : Nat) (x : Context) : (s.setContext c x).hostPowered = s.hostPowered := rfl
@[simp] theorem setContext_fieldPowered (c : Nat) (x : Context) : (s.setContext c x).fieldPowered = s.fieldPowered := rfl
@[simp] theorem setContext_thermalTripped (c : Nat) (x : Context) : (s.setContext c x).thermalTripped = s.thermalTripped := rfl
@[simp] theorem setContext_starts (c : Nat) (x : Context) : (s.setContext c x).starts = s.starts := rfl
@[simp] theorem setContext_restart (c : Nat) (x : Context) : (s.setContext c x).restart = s.restart := rfl
@[simp] theorem setContext_deferredRestart (c : Nat) (x : Context) : (s.setContext c x).deferredRestart = s.deferredRestart := rfl
@[simp] theorem setContext_inputBackSince (c : Nat) (x : Context) : (s.setContext c x).inputBackSince = s.inputBackSince := rfl
@[simp] theorem setContext_replayWrites (c : Nat) (x : Context) : (s.setContext c x).replayWrites = s.replayWrites := rfl
@[simp] theorem setContext_get_tile (c : Nat) (x : Context) (n : Nat) : (s.setContext c x).tile n = s.tile n := rfl
@[simp] theorem setContext_get_job (c : Nat) (x : Context) (n : Nat) : (s.setContext c x).job n = s.job n := rfl
@[simp] theorem setContext_get_stream (c : Nat) (x : Context) (n : Nat) : (s.setContext c x).stream n = s.stream n := rfl
@[simp] theorem setContext_get_port (c : Nat) (x : Context) (n : Nat) : (s.setContext c x).port n = s.port n := rfl
@[simp] theorem setContext_get_sorter (c : Nat) (x : Context) (n : Nat) : (s.setContext c x).sorter n = s.sorter n := rfl
@[simp] theorem setContext_get_barrier (c : Nat) (x : Context) (n : Nat) : (s.setContext c x).barrier n = s.barrier n := rfl
@[simp] theorem setContext_get_entry (c : Nat) (x : Context) (n m : Nat) : (s.setContext c x).entry n m = s.entry n m := rfl
@[simp] theorem setContext_get_blob (c : Nat) (x : Context) (n m : Nat) : (s.setContext c x).blob n m = s.blob n m := rfl

/-! ### setStream -/

@[simp] theorem setStream_pending (k : Nat) (x : Stream) : (s.setStream k x).pending = s.pending := rfl
@[simp] theorem setStream_freeCount (k : Nat) (x : Stream) : (s.setStream k x).freeCount = s.freeCount := rfl
@[simp] theorem setStream_out (k : Nat) (x : Stream) : (s.setStream k x).out = s.out := rfl
@[simp] theorem setStream_grade (k : Nat) (x : Stream) : (s.setStream k x).grade = s.grade := rfl
@[simp] theorem setStream_enabled (k : Nat) (x : Stream) : (s.setStream k x).enabled = s.enabled := rfl
@[simp] theorem setStream_now (k : Nat) (x : Stream) : (s.setStream k x).now = s.now := rfl
@[simp] theorem setStream_dict (k : Nat) (x : Stream) : (s.setStream k x).dict = s.dict := rfl
@[simp] theorem setStream_blobs (k : Nat) (x : Stream) : (s.setStream k x).blobs = s.blobs := rfl
@[simp] theorem setStream_contexts (k : Nat) (x : Stream) : (s.setStream k x).contexts = s.contexts := rfl
@[simp] theorem setStream_pendingGroups (k : Nat) (x : Stream) : (s.setStream k x).pendingGroups = s.pendingGroups := rfl
@[simp] theorem setStream_sessions (k : Nat) (x : Stream) : (s.setStream k x).sessions = s.sessions := rfl
@[simp] theorem setStream_dtpDropped (k : Nat) (x : Stream) : (s.setStream k x).dtpDropped = s.dtpDropped := rfl
@[simp] theorem setStream_restoreDefaults (k : Nat) (x : Stream) : (s.setStream k x).restoreDefaults = s.restoreDefaults := rfl
@[simp] theorem setStream_unstored (k : Nat) (x : Stream) : (s.setStream k x).unstored = s.unstored := rfl
@[simp] theorem setStream_journal (k : Nat) (x : Stream) : (s.setStream k x).journal = s.journal := rfl
@[simp] theorem setStream_hostGate (k : Nat) (x : Stream) : (s.setStream k x).hostGate = s.hostGate := rfl
@[simp] theorem setStream_fieldGate (k : Nat) (x : Stream) : (s.setStream k x).fieldGate = s.fieldGate := rfl
@[simp] theorem setStream_heldAccesses (k : Nat) (x : Stream) : (s.setStream k x).heldAccesses = s.heldAccesses := rfl
@[simp] theorem setStream_arriving (k : Nat) (x : Stream) : (s.setStream k x).arriving = s.arriving := rfl
@[simp] theorem setStream_notices (k : Nat) (x : Stream) : (s.setStream k x).notices = s.notices := rfl
@[simp] theorem setStream_fieldLog (k : Nat) (x : Stream) : (s.setStream k x).fieldLog = s.fieldLog := rfl
@[simp] theorem setStream_flash (k : Nat) (x : Stream) : (s.setStream k x).flash = s.flash := rfl
@[simp] theorem setStream_flashLength (k : Nat) (x : Stream) : (s.setStream k x).flashLength = s.flashLength := rfl
@[simp] theorem setStream_sets (k : Nat) (x : Stream) : (s.setStream k x).sets = s.sets := rfl
@[simp] theorem setStream_jobs (k : Nat) (x : Stream) : (s.setStream k x).jobs = s.jobs := rfl
@[simp] theorem setStream_admitQueue (k : Nat) (x : Stream) : (s.setStream k x).admitQueue = s.admitQueue := rfl
@[simp] theorem setStream_tiles (k : Nat) (x : Stream) : (s.setStream k x).tiles = s.tiles := rfl
@[simp] theorem setStream_conversion (k : Nat) (x : Stream) : (s.setStream k x).conversion = s.conversion := rfl
@[simp] theorem setStream_openWaits (k : Nat) (x : Stream) : (s.setStream k x).openWaits = s.openWaits := rfl
@[simp] theorem setStream_lateStreams (k : Nat) (x : Stream) : (s.setStream k x).lateStreams = s.lateStreams := rfl
@[simp] theorem setStream_mcastCredits (k : Nat) (x : Stream) : (s.setStream k x).mcastCredits = s.mcastCredits := rfl
@[simp] theorem setStream_mcastUsed (k : Nat) (x : Stream) : (s.setStream k x).mcastUsed = s.mcastUsed := rfl
@[simp] theorem setStream_rateWindowAt (k : Nat) (x : Stream) : (s.setStream k x).rateWindowAt = s.rateWindowAt := rfl
@[simp] theorem setStream_mem (k : Nat) (x : Stream) : (s.setStream k x).mem = s.mem := rfl
@[simp] theorem setStream_memUndefined (k : Nat) (x : Stream) : (s.setStream k x).memUndefined = s.memUndefined := rfl
@[simp] theorem setStream_wordPoison (k : Nat) (x : Stream) : (s.setStream k x).wordPoison = s.wordPoison := rfl
@[simp] theorem setStream_wordEpoch (k : Nat) (x : Stream) : (s.setStream k x).wordEpoch = s.wordEpoch := rfl
@[simp] theorem setStream_poisonTable (k : Nat) (x : Stream) : (s.setStream k x).poisonTable = s.poisonTable := rfl
@[simp] theorem setStream_poisonEpoch (k : Nat) (x : Stream) : (s.setStream k x).poisonEpoch = s.poisonEpoch := rfl
@[simp] theorem setStream_poisonWaits (k : Nat) (x : Stream) : (s.setStream k x).poisonWaits = s.poisonWaits := rfl
@[simp] theorem setStream_sorters (k : Nat) (x : Stream) : (s.setStream k x).sorters = s.sorters := rfl
@[simp] theorem setStream_stackWriteBacks (k : Nat) (x : Stream) : (s.setStream k x).stackWriteBacks = s.stackWriteBacks := rfl
@[simp] theorem setStream_clearWalk (k : Nat) (x : Stream) : (s.setStream k x).clearWalk = s.clearWalk := rfl
@[simp] theorem setStream_ports (k : Nat) (x : Stream) : (s.setStream k x).ports = s.ports := rfl
@[simp] theorem setStream_seqNext (k : Nat) (x : Stream) : (s.setStream k x).seqNext = s.seqNext := rfl
@[simp] theorem setStream_seqExpected (k : Nat) (x : Stream) : (s.setStream k x).seqExpected = s.seqExpected := rfl
@[simp] theorem setStream_failedTriples (k : Nat) (x : Stream) : (s.setStream k x).failedTriples = s.failedTriples := rfl
@[simp] theorem setStream_heldFrames (k : Nat) (x : Stream) : (s.setStream k x).heldFrames = s.heldFrames := rfl
@[simp] theorem setStream_behind (k : Nat) (x : Stream) : (s.setStream k x).behind = s.behind := rfl
@[simp] theorem setStream_remoteOps (k : Nat) (x : Stream) : (s.setStream k x).remoteOps = s.remoteOps := rfl
@[simp] theorem setStream_nextTag (k : Nat) (x : Stream) : (s.setStream k x).nextTag = s.nextTag := rfl
@[simp] theorem setStream_mcastWaits (k : Nat) (x : Stream) : (s.setStream k x).mcastWaits = s.mcastWaits := rfl
@[simp] theorem setStream_barriers (k : Nat) (x : Stream) : (s.setStream k x).barriers = s.barriers := rfl
@[simp] theorem setStream_snapsSeen (k : Nat) (x : Stream) : (s.setStream k x).snapsSeen = s.snapsSeen := rfl
@[simp] theorem setStream_lastTimeIdle (k : Nat) (x : Stream) : (s.setStream k x).lastTimeIdle = s.lastTimeIdle := rfl
@[simp] theorem setStream_timeOffset (k : Nat) (x : Stream) : (s.setStream k x).timeOffset = s.timeOffset := rfl
@[simp] theorem setStream_everLocked (k : Nat) (x : Stream) : (s.setStream k x).everLocked = s.everLocked := rfl
@[simp] theorem setStream_slewLeft (k : Nat) (x : Stream) : (s.setStream k x).slewLeft = s.slewLeft := rfl
@[simp] theorem setStream_slewAt (k : Nat) (x : Stream) : (s.setStream k x).slewAt = s.slewAt := rfl
@[simp] theorem setStream_hostLink (k : Nat) (x : Stream) : (s.setStream k x).hostLink = s.hostLink := rfl
@[simp] theorem setStream_heat (k : Nat) (x : Stream) : (s.setStream k x).heat = s.heat := rfl
@[simp] theorem setStream_domains (k : Nat) (x : Stream) : (s.setStream k x).domains = s.domains := rfl
@[simp] theorem setStream_hss (k : Nat) (x : Stream) : (s.setStream k x).hss = s.hss := rfl
@[simp] theorem setStream_pke (k : Nat) (x : Stream) : (s.setStream k x).pke = s.pke := rfl
@[simp] theorem setStream_recovery (k : Nat) (x : Stream) : (s.setStream k x).recovery = s.recovery := rfl
@[simp] theorem setStream_nonceFresh (k : Nat) (x : Stream) : (s.setStream k x).nonceFresh = s.nonceFresh := rfl
@[simp] theorem setStream_log (k : Nat) (x : Stream) : (s.setStream k x).log = s.log := rfl
@[simp] theorem setStream_logNext (k : Nat) (x : Stream) : (s.setStream k x).logNext = s.logNext := rfl
@[simp] theorem setStream_checkRun (k : Nat) (x : Stream) : (s.setStream k x).checkRun = s.checkRun := rfl
@[simp] theorem setStream_watchdogAt (k : Nat) (x : Stream) : (s.setStream k x).watchdogAt = s.watchdogAt := rfl
@[simp] theorem setStream_watchdogLimit (k : Nat) (x : Stream) : (s.setStream k x).watchdogLimit = s.watchdogLimit := rfl
@[simp] theorem setStream_ticks (k : Nat) (x : Stream) : (s.setStream k x).ticks = s.ticks := rfl
@[simp] theorem setStream_copying (k : Nat) (x : Stream) : (s.setStream k x).copying = s.copying := rfl
@[simp] theorem setStream_captures (k : Nat) (x : Stream) : (s.setStream k x).captures = s.captures := rfl
@[simp] theorem setStream_captureSeq (k : Nat) (x : Stream) : (s.setStream k x).captureSeq = s.captureSeq := rfl
@[simp] theorem setStream_captureOrder (k : Nat) (x : Stream) : (s.setStream k x).captureOrder = s.captureOrder := rfl
@[simp] theorem setStream_hostPowered (k : Nat) (x : Stream) : (s.setStream k x).hostPowered = s.hostPowered := rfl
@[simp] theorem setStream_fieldPowered (k : Nat) (x : Stream) : (s.setStream k x).fieldPowered = s.fieldPowered := rfl
@[simp] theorem setStream_thermalTripped (k : Nat) (x : Stream) : (s.setStream k x).thermalTripped = s.thermalTripped := rfl
@[simp] theorem setStream_starts (k : Nat) (x : Stream) : (s.setStream k x).starts = s.starts := rfl
@[simp] theorem setStream_restart (k : Nat) (x : Stream) : (s.setStream k x).restart = s.restart := rfl
@[simp] theorem setStream_deferredRestart (k : Nat) (x : Stream) : (s.setStream k x).deferredRestart = s.deferredRestart := rfl
@[simp] theorem setStream_inputBackSince (k : Nat) (x : Stream) : (s.setStream k x).inputBackSince = s.inputBackSince := rfl
@[simp] theorem setStream_replayWrites (k : Nat) (x : Stream) : (s.setStream k x).replayWrites = s.replayWrites := rfl
@[simp] theorem setStream_get_tile (k : Nat) (x : Stream) (n : Nat) : (s.setStream k x).tile n = s.tile n := rfl
@[simp] theorem setStream_get_job (k : Nat) (x : Stream) (n : Nat) : (s.setStream k x).job n = s.job n := rfl
@[simp] theorem setStream_get_context (k : Nat) (x : Stream) (n : Nat) : (s.setStream k x).context n = s.context n := rfl
@[simp] theorem setStream_get_port (k : Nat) (x : Stream) (n : Nat) : (s.setStream k x).port n = s.port n := rfl
@[simp] theorem setStream_get_sorter (k : Nat) (x : Stream) (n : Nat) : (s.setStream k x).sorter n = s.sorter n := rfl
@[simp] theorem setStream_get_barrier (k : Nat) (x : Stream) (n : Nat) : (s.setStream k x).barrier n = s.barrier n := rfl
@[simp] theorem setStream_get_entry (k : Nat) (x : Stream) (n m : Nat) : (s.setStream k x).entry n m = s.entry n m := rfl
@[simp] theorem setStream_get_blob (k : Nat) (x : Stream) (n m : Nat) : (s.setStream k x).blob n m = s.blob n m := rfl

/-! ### setPort -/

@[simp] theorem setPort_pending (p : Nat) (x : Port) : (s.setPort p x).pending = s.pending := rfl
@[simp] theorem setPort_freeCount (p : Nat) (x : Port) : (s.setPort p x).freeCount = s.freeCount := rfl
@[simp] theorem setPort_out (p : Nat) (x : Port) : (s.setPort p x).out = s.out := rfl
@[simp] theorem setPort_grade (p : Nat) (x : Port) : (s.setPort p x).grade = s.grade := rfl
@[simp] theorem setPort_enabled (p : Nat) (x : Port) : (s.setPort p x).enabled = s.enabled := rfl
@[simp] theorem setPort_now (p : Nat) (x : Port) : (s.setPort p x).now = s.now := rfl
@[simp] theorem setPort_dict (p : Nat) (x : Port) : (s.setPort p x).dict = s.dict := rfl
@[simp] theorem setPort_blobs (p : Nat) (x : Port) : (s.setPort p x).blobs = s.blobs := rfl
@[simp] theorem setPort_contexts (p : Nat) (x : Port) : (s.setPort p x).contexts = s.contexts := rfl
@[simp] theorem setPort_pendingGroups (p : Nat) (x : Port) : (s.setPort p x).pendingGroups = s.pendingGroups := rfl
@[simp] theorem setPort_sessions (p : Nat) (x : Port) : (s.setPort p x).sessions = s.sessions := rfl
@[simp] theorem setPort_dtpDropped (p : Nat) (x : Port) : (s.setPort p x).dtpDropped = s.dtpDropped := rfl
@[simp] theorem setPort_restoreDefaults (p : Nat) (x : Port) : (s.setPort p x).restoreDefaults = s.restoreDefaults := rfl
@[simp] theorem setPort_unstored (p : Nat) (x : Port) : (s.setPort p x).unstored = s.unstored := rfl
@[simp] theorem setPort_journal (p : Nat) (x : Port) : (s.setPort p x).journal = s.journal := rfl
@[simp] theorem setPort_hostGate (p : Nat) (x : Port) : (s.setPort p x).hostGate = s.hostGate := rfl
@[simp] theorem setPort_fieldGate (p : Nat) (x : Port) : (s.setPort p x).fieldGate = s.fieldGate := rfl
@[simp] theorem setPort_heldAccesses (p : Nat) (x : Port) : (s.setPort p x).heldAccesses = s.heldAccesses := rfl
@[simp] theorem setPort_arriving (p : Nat) (x : Port) : (s.setPort p x).arriving = s.arriving := rfl
@[simp] theorem setPort_notices (p : Nat) (x : Port) : (s.setPort p x).notices = s.notices := rfl
@[simp] theorem setPort_fieldLog (p : Nat) (x : Port) : (s.setPort p x).fieldLog = s.fieldLog := rfl
@[simp] theorem setPort_flash (p : Nat) (x : Port) : (s.setPort p x).flash = s.flash := rfl
@[simp] theorem setPort_flashLength (p : Nat) (x : Port) : (s.setPort p x).flashLength = s.flashLength := rfl
@[simp] theorem setPort_sets (p : Nat) (x : Port) : (s.setPort p x).sets = s.sets := rfl
@[simp] theorem setPort_jobs (p : Nat) (x : Port) : (s.setPort p x).jobs = s.jobs := rfl
@[simp] theorem setPort_admitQueue (p : Nat) (x : Port) : (s.setPort p x).admitQueue = s.admitQueue := rfl
@[simp] theorem setPort_tiles (p : Nat) (x : Port) : (s.setPort p x).tiles = s.tiles := rfl
@[simp] theorem setPort_conversion (p : Nat) (x : Port) : (s.setPort p x).conversion = s.conversion := rfl
@[simp] theorem setPort_streams (p : Nat) (x : Port) : (s.setPort p x).streams = s.streams := rfl
@[simp] theorem setPort_openWaits (p : Nat) (x : Port) : (s.setPort p x).openWaits = s.openWaits := rfl
@[simp] theorem setPort_lateStreams (p : Nat) (x : Port) : (s.setPort p x).lateStreams = s.lateStreams := rfl
@[simp] theorem setPort_mcastCredits (p : Nat) (x : Port) : (s.setPort p x).mcastCredits = s.mcastCredits := rfl
@[simp] theorem setPort_mcastUsed (p : Nat) (x : Port) : (s.setPort p x).mcastUsed = s.mcastUsed := rfl
@[simp] theorem setPort_rateWindowAt (p : Nat) (x : Port) : (s.setPort p x).rateWindowAt = s.rateWindowAt := rfl
@[simp] theorem setPort_mem (p : Nat) (x : Port) : (s.setPort p x).mem = s.mem := rfl
@[simp] theorem setPort_memUndefined (p : Nat) (x : Port) : (s.setPort p x).memUndefined = s.memUndefined := rfl
@[simp] theorem setPort_wordPoison (p : Nat) (x : Port) : (s.setPort p x).wordPoison = s.wordPoison := rfl
@[simp] theorem setPort_wordEpoch (p : Nat) (x : Port) : (s.setPort p x).wordEpoch = s.wordEpoch := rfl
@[simp] theorem setPort_poisonTable (p : Nat) (x : Port) : (s.setPort p x).poisonTable = s.poisonTable := rfl
@[simp] theorem setPort_poisonEpoch (p : Nat) (x : Port) : (s.setPort p x).poisonEpoch = s.poisonEpoch := rfl
@[simp] theorem setPort_poisonWaits (p : Nat) (x : Port) : (s.setPort p x).poisonWaits = s.poisonWaits := rfl
@[simp] theorem setPort_sorters (p : Nat) (x : Port) : (s.setPort p x).sorters = s.sorters := rfl
@[simp] theorem setPort_stackWriteBacks (p : Nat) (x : Port) : (s.setPort p x).stackWriteBacks = s.stackWriteBacks := rfl
@[simp] theorem setPort_clearWalk (p : Nat) (x : Port) : (s.setPort p x).clearWalk = s.clearWalk := rfl
@[simp] theorem setPort_seqNext (p : Nat) (x : Port) : (s.setPort p x).seqNext = s.seqNext := rfl
@[simp] theorem setPort_seqExpected (p : Nat) (x : Port) : (s.setPort p x).seqExpected = s.seqExpected := rfl
@[simp] theorem setPort_failedTriples (p : Nat) (x : Port) : (s.setPort p x).failedTriples = s.failedTriples := rfl
@[simp] theorem setPort_heldFrames (p : Nat) (x : Port) : (s.setPort p x).heldFrames = s.heldFrames := rfl
@[simp] theorem setPort_behind (p : Nat) (x : Port) : (s.setPort p x).behind = s.behind := rfl
@[simp] theorem setPort_remoteOps (p : Nat) (x : Port) : (s.setPort p x).remoteOps = s.remoteOps := rfl
@[simp] theorem setPort_nextTag (p : Nat) (x : Port) : (s.setPort p x).nextTag = s.nextTag := rfl
@[simp] theorem setPort_mcastWaits (p : Nat) (x : Port) : (s.setPort p x).mcastWaits = s.mcastWaits := rfl
@[simp] theorem setPort_barriers (p : Nat) (x : Port) : (s.setPort p x).barriers = s.barriers := rfl
@[simp] theorem setPort_snapsSeen (p : Nat) (x : Port) : (s.setPort p x).snapsSeen = s.snapsSeen := rfl
@[simp] theorem setPort_lastTimeIdle (p : Nat) (x : Port) : (s.setPort p x).lastTimeIdle = s.lastTimeIdle := rfl
@[simp] theorem setPort_timeOffset (p : Nat) (x : Port) : (s.setPort p x).timeOffset = s.timeOffset := rfl
@[simp] theorem setPort_everLocked (p : Nat) (x : Port) : (s.setPort p x).everLocked = s.everLocked := rfl
@[simp] theorem setPort_slewLeft (p : Nat) (x : Port) : (s.setPort p x).slewLeft = s.slewLeft := rfl
@[simp] theorem setPort_slewAt (p : Nat) (x : Port) : (s.setPort p x).slewAt = s.slewAt := rfl
@[simp] theorem setPort_hostLink (p : Nat) (x : Port) : (s.setPort p x).hostLink = s.hostLink := rfl
@[simp] theorem setPort_heat (p : Nat) (x : Port) : (s.setPort p x).heat = s.heat := rfl
@[simp] theorem setPort_domains (p : Nat) (x : Port) : (s.setPort p x).domains = s.domains := rfl
@[simp] theorem setPort_hss (p : Nat) (x : Port) : (s.setPort p x).hss = s.hss := rfl
@[simp] theorem setPort_pke (p : Nat) (x : Port) : (s.setPort p x).pke = s.pke := rfl
@[simp] theorem setPort_recovery (p : Nat) (x : Port) : (s.setPort p x).recovery = s.recovery := rfl
@[simp] theorem setPort_nonceFresh (p : Nat) (x : Port) : (s.setPort p x).nonceFresh = s.nonceFresh := rfl
@[simp] theorem setPort_log (p : Nat) (x : Port) : (s.setPort p x).log = s.log := rfl
@[simp] theorem setPort_logNext (p : Nat) (x : Port) : (s.setPort p x).logNext = s.logNext := rfl
@[simp] theorem setPort_checkRun (p : Nat) (x : Port) : (s.setPort p x).checkRun = s.checkRun := rfl
@[simp] theorem setPort_watchdogAt (p : Nat) (x : Port) : (s.setPort p x).watchdogAt = s.watchdogAt := rfl
@[simp] theorem setPort_watchdogLimit (p : Nat) (x : Port) : (s.setPort p x).watchdogLimit = s.watchdogLimit := rfl
@[simp] theorem setPort_ticks (p : Nat) (x : Port) : (s.setPort p x).ticks = s.ticks := rfl
@[simp] theorem setPort_copying (p : Nat) (x : Port) : (s.setPort p x).copying = s.copying := rfl
@[simp] theorem setPort_captures (p : Nat) (x : Port) : (s.setPort p x).captures = s.captures := rfl
@[simp] theorem setPort_captureSeq (p : Nat) (x : Port) : (s.setPort p x).captureSeq = s.captureSeq := rfl
@[simp] theorem setPort_captureOrder (p : Nat) (x : Port) : (s.setPort p x).captureOrder = s.captureOrder := rfl
@[simp] theorem setPort_hostPowered (p : Nat) (x : Port) : (s.setPort p x).hostPowered = s.hostPowered := rfl
@[simp] theorem setPort_fieldPowered (p : Nat) (x : Port) : (s.setPort p x).fieldPowered = s.fieldPowered := rfl
@[simp] theorem setPort_thermalTripped (p : Nat) (x : Port) : (s.setPort p x).thermalTripped = s.thermalTripped := rfl
@[simp] theorem setPort_starts (p : Nat) (x : Port) : (s.setPort p x).starts = s.starts := rfl
@[simp] theorem setPort_restart (p : Nat) (x : Port) : (s.setPort p x).restart = s.restart := rfl
@[simp] theorem setPort_deferredRestart (p : Nat) (x : Port) : (s.setPort p x).deferredRestart = s.deferredRestart := rfl
@[simp] theorem setPort_inputBackSince (p : Nat) (x : Port) : (s.setPort p x).inputBackSince = s.inputBackSince := rfl
@[simp] theorem setPort_replayWrites (p : Nat) (x : Port) : (s.setPort p x).replayWrites = s.replayWrites := rfl
@[simp] theorem setPort_get_tile (p : Nat) (x : Port) (n : Nat) : (s.setPort p x).tile n = s.tile n := rfl
@[simp] theorem setPort_get_job (p : Nat) (x : Port) (n : Nat) : (s.setPort p x).job n = s.job n := rfl
@[simp] theorem setPort_get_context (p : Nat) (x : Port) (n : Nat) : (s.setPort p x).context n = s.context n := rfl
@[simp] theorem setPort_get_stream (p : Nat) (x : Port) (n : Nat) : (s.setPort p x).stream n = s.stream n := rfl
@[simp] theorem setPort_get_sorter (p : Nat) (x : Port) (n : Nat) : (s.setPort p x).sorter n = s.sorter n := rfl
@[simp] theorem setPort_get_barrier (p : Nat) (x : Port) (n : Nat) : (s.setPort p x).barrier n = s.barrier n := rfl
@[simp] theorem setPort_get_entry (p : Nat) (x : Port) (n m : Nat) : (s.setPort p x).entry n m = s.entry n m := rfl
@[simp] theorem setPort_get_blob (p : Nat) (x : Port) (n m : Nat) : (s.setPort p x).blob n m = s.blob n m := rfl

/-! ### setSorter -/

@[simp] theorem setSorter_pending (k : Nat) (x : Sorter) : (s.setSorter k x).pending = s.pending := rfl
@[simp] theorem setSorter_freeCount (k : Nat) (x : Sorter) : (s.setSorter k x).freeCount = s.freeCount := rfl
@[simp] theorem setSorter_out (k : Nat) (x : Sorter) : (s.setSorter k x).out = s.out := rfl
@[simp] theorem setSorter_grade (k : Nat) (x : Sorter) : (s.setSorter k x).grade = s.grade := rfl
@[simp] theorem setSorter_enabled (k : Nat) (x : Sorter) : (s.setSorter k x).enabled = s.enabled := rfl
@[simp] theorem setSorter_now (k : Nat) (x : Sorter) : (s.setSorter k x).now = s.now := rfl
@[simp] theorem setSorter_dict (k : Nat) (x : Sorter) : (s.setSorter k x).dict = s.dict := rfl
@[simp] theorem setSorter_blobs (k : Nat) (x : Sorter) : (s.setSorter k x).blobs = s.blobs := rfl
@[simp] theorem setSorter_contexts (k : Nat) (x : Sorter) : (s.setSorter k x).contexts = s.contexts := rfl
@[simp] theorem setSorter_pendingGroups (k : Nat) (x : Sorter) : (s.setSorter k x).pendingGroups = s.pendingGroups := rfl
@[simp] theorem setSorter_sessions (k : Nat) (x : Sorter) : (s.setSorter k x).sessions = s.sessions := rfl
@[simp] theorem setSorter_dtpDropped (k : Nat) (x : Sorter) : (s.setSorter k x).dtpDropped = s.dtpDropped := rfl
@[simp] theorem setSorter_restoreDefaults (k : Nat) (x : Sorter) : (s.setSorter k x).restoreDefaults = s.restoreDefaults := rfl
@[simp] theorem setSorter_unstored (k : Nat) (x : Sorter) : (s.setSorter k x).unstored = s.unstored := rfl
@[simp] theorem setSorter_journal (k : Nat) (x : Sorter) : (s.setSorter k x).journal = s.journal := rfl
@[simp] theorem setSorter_hostGate (k : Nat) (x : Sorter) : (s.setSorter k x).hostGate = s.hostGate := rfl
@[simp] theorem setSorter_fieldGate (k : Nat) (x : Sorter) : (s.setSorter k x).fieldGate = s.fieldGate := rfl
@[simp] theorem setSorter_heldAccesses (k : Nat) (x : Sorter) : (s.setSorter k x).heldAccesses = s.heldAccesses := rfl
@[simp] theorem setSorter_arriving (k : Nat) (x : Sorter) : (s.setSorter k x).arriving = s.arriving := rfl
@[simp] theorem setSorter_notices (k : Nat) (x : Sorter) : (s.setSorter k x).notices = s.notices := rfl
@[simp] theorem setSorter_fieldLog (k : Nat) (x : Sorter) : (s.setSorter k x).fieldLog = s.fieldLog := rfl
@[simp] theorem setSorter_flash (k : Nat) (x : Sorter) : (s.setSorter k x).flash = s.flash := rfl
@[simp] theorem setSorter_flashLength (k : Nat) (x : Sorter) : (s.setSorter k x).flashLength = s.flashLength := rfl
@[simp] theorem setSorter_sets (k : Nat) (x : Sorter) : (s.setSorter k x).sets = s.sets := rfl
@[simp] theorem setSorter_jobs (k : Nat) (x : Sorter) : (s.setSorter k x).jobs = s.jobs := rfl
@[simp] theorem setSorter_admitQueue (k : Nat) (x : Sorter) : (s.setSorter k x).admitQueue = s.admitQueue := rfl
@[simp] theorem setSorter_tiles (k : Nat) (x : Sorter) : (s.setSorter k x).tiles = s.tiles := rfl
@[simp] theorem setSorter_conversion (k : Nat) (x : Sorter) : (s.setSorter k x).conversion = s.conversion := rfl
@[simp] theorem setSorter_streams (k : Nat) (x : Sorter) : (s.setSorter k x).streams = s.streams := rfl
@[simp] theorem setSorter_openWaits (k : Nat) (x : Sorter) : (s.setSorter k x).openWaits = s.openWaits := rfl
@[simp] theorem setSorter_lateStreams (k : Nat) (x : Sorter) : (s.setSorter k x).lateStreams = s.lateStreams := rfl
@[simp] theorem setSorter_mcastCredits (k : Nat) (x : Sorter) : (s.setSorter k x).mcastCredits = s.mcastCredits := rfl
@[simp] theorem setSorter_mcastUsed (k : Nat) (x : Sorter) : (s.setSorter k x).mcastUsed = s.mcastUsed := rfl
@[simp] theorem setSorter_rateWindowAt (k : Nat) (x : Sorter) : (s.setSorter k x).rateWindowAt = s.rateWindowAt := rfl
@[simp] theorem setSorter_mem (k : Nat) (x : Sorter) : (s.setSorter k x).mem = s.mem := rfl
@[simp] theorem setSorter_memUndefined (k : Nat) (x : Sorter) : (s.setSorter k x).memUndefined = s.memUndefined := rfl
@[simp] theorem setSorter_wordPoison (k : Nat) (x : Sorter) : (s.setSorter k x).wordPoison = s.wordPoison := rfl
@[simp] theorem setSorter_wordEpoch (k : Nat) (x : Sorter) : (s.setSorter k x).wordEpoch = s.wordEpoch := rfl
@[simp] theorem setSorter_poisonTable (k : Nat) (x : Sorter) : (s.setSorter k x).poisonTable = s.poisonTable := rfl
@[simp] theorem setSorter_poisonEpoch (k : Nat) (x : Sorter) : (s.setSorter k x).poisonEpoch = s.poisonEpoch := rfl
@[simp] theorem setSorter_poisonWaits (k : Nat) (x : Sorter) : (s.setSorter k x).poisonWaits = s.poisonWaits := rfl
@[simp] theorem setSorter_stackWriteBacks (k : Nat) (x : Sorter) : (s.setSorter k x).stackWriteBacks = s.stackWriteBacks := rfl
@[simp] theorem setSorter_clearWalk (k : Nat) (x : Sorter) : (s.setSorter k x).clearWalk = s.clearWalk := rfl
@[simp] theorem setSorter_ports (k : Nat) (x : Sorter) : (s.setSorter k x).ports = s.ports := rfl
@[simp] theorem setSorter_seqNext (k : Nat) (x : Sorter) : (s.setSorter k x).seqNext = s.seqNext := rfl
@[simp] theorem setSorter_seqExpected (k : Nat) (x : Sorter) : (s.setSorter k x).seqExpected = s.seqExpected := rfl
@[simp] theorem setSorter_failedTriples (k : Nat) (x : Sorter) : (s.setSorter k x).failedTriples = s.failedTriples := rfl
@[simp] theorem setSorter_heldFrames (k : Nat) (x : Sorter) : (s.setSorter k x).heldFrames = s.heldFrames := rfl
@[simp] theorem setSorter_behind (k : Nat) (x : Sorter) : (s.setSorter k x).behind = s.behind := rfl
@[simp] theorem setSorter_remoteOps (k : Nat) (x : Sorter) : (s.setSorter k x).remoteOps = s.remoteOps := rfl
@[simp] theorem setSorter_nextTag (k : Nat) (x : Sorter) : (s.setSorter k x).nextTag = s.nextTag := rfl
@[simp] theorem setSorter_mcastWaits (k : Nat) (x : Sorter) : (s.setSorter k x).mcastWaits = s.mcastWaits := rfl
@[simp] theorem setSorter_barriers (k : Nat) (x : Sorter) : (s.setSorter k x).barriers = s.barriers := rfl
@[simp] theorem setSorter_snapsSeen (k : Nat) (x : Sorter) : (s.setSorter k x).snapsSeen = s.snapsSeen := rfl
@[simp] theorem setSorter_lastTimeIdle (k : Nat) (x : Sorter) : (s.setSorter k x).lastTimeIdle = s.lastTimeIdle := rfl
@[simp] theorem setSorter_timeOffset (k : Nat) (x : Sorter) : (s.setSorter k x).timeOffset = s.timeOffset := rfl
@[simp] theorem setSorter_everLocked (k : Nat) (x : Sorter) : (s.setSorter k x).everLocked = s.everLocked := rfl
@[simp] theorem setSorter_slewLeft (k : Nat) (x : Sorter) : (s.setSorter k x).slewLeft = s.slewLeft := rfl
@[simp] theorem setSorter_slewAt (k : Nat) (x : Sorter) : (s.setSorter k x).slewAt = s.slewAt := rfl
@[simp] theorem setSorter_hostLink (k : Nat) (x : Sorter) : (s.setSorter k x).hostLink = s.hostLink := rfl
@[simp] theorem setSorter_heat (k : Nat) (x : Sorter) : (s.setSorter k x).heat = s.heat := rfl
@[simp] theorem setSorter_domains (k : Nat) (x : Sorter) : (s.setSorter k x).domains = s.domains := rfl
@[simp] theorem setSorter_hss (k : Nat) (x : Sorter) : (s.setSorter k x).hss = s.hss := rfl
@[simp] theorem setSorter_pke (k : Nat) (x : Sorter) : (s.setSorter k x).pke = s.pke := rfl
@[simp] theorem setSorter_recovery (k : Nat) (x : Sorter) : (s.setSorter k x).recovery = s.recovery := rfl
@[simp] theorem setSorter_nonceFresh (k : Nat) (x : Sorter) : (s.setSorter k x).nonceFresh = s.nonceFresh := rfl
@[simp] theorem setSorter_log (k : Nat) (x : Sorter) : (s.setSorter k x).log = s.log := rfl
@[simp] theorem setSorter_logNext (k : Nat) (x : Sorter) : (s.setSorter k x).logNext = s.logNext := rfl
@[simp] theorem setSorter_checkRun (k : Nat) (x : Sorter) : (s.setSorter k x).checkRun = s.checkRun := rfl
@[simp] theorem setSorter_watchdogAt (k : Nat) (x : Sorter) : (s.setSorter k x).watchdogAt = s.watchdogAt := rfl
@[simp] theorem setSorter_watchdogLimit (k : Nat) (x : Sorter) : (s.setSorter k x).watchdogLimit = s.watchdogLimit := rfl
@[simp] theorem setSorter_ticks (k : Nat) (x : Sorter) : (s.setSorter k x).ticks = s.ticks := rfl
@[simp] theorem setSorter_copying (k : Nat) (x : Sorter) : (s.setSorter k x).copying = s.copying := rfl
@[simp] theorem setSorter_captures (k : Nat) (x : Sorter) : (s.setSorter k x).captures = s.captures := rfl
@[simp] theorem setSorter_captureSeq (k : Nat) (x : Sorter) : (s.setSorter k x).captureSeq = s.captureSeq := rfl
@[simp] theorem setSorter_captureOrder (k : Nat) (x : Sorter) : (s.setSorter k x).captureOrder = s.captureOrder := rfl
@[simp] theorem setSorter_hostPowered (k : Nat) (x : Sorter) : (s.setSorter k x).hostPowered = s.hostPowered := rfl
@[simp] theorem setSorter_fieldPowered (k : Nat) (x : Sorter) : (s.setSorter k x).fieldPowered = s.fieldPowered := rfl
@[simp] theorem setSorter_thermalTripped (k : Nat) (x : Sorter) : (s.setSorter k x).thermalTripped = s.thermalTripped := rfl
@[simp] theorem setSorter_starts (k : Nat) (x : Sorter) : (s.setSorter k x).starts = s.starts := rfl
@[simp] theorem setSorter_restart (k : Nat) (x : Sorter) : (s.setSorter k x).restart = s.restart := rfl
@[simp] theorem setSorter_deferredRestart (k : Nat) (x : Sorter) : (s.setSorter k x).deferredRestart = s.deferredRestart := rfl
@[simp] theorem setSorter_inputBackSince (k : Nat) (x : Sorter) : (s.setSorter k x).inputBackSince = s.inputBackSince := rfl
@[simp] theorem setSorter_replayWrites (k : Nat) (x : Sorter) : (s.setSorter k x).replayWrites = s.replayWrites := rfl
@[simp] theorem setSorter_get_tile (k : Nat) (x : Sorter) (n : Nat) : (s.setSorter k x).tile n = s.tile n := rfl
@[simp] theorem setSorter_get_job (k : Nat) (x : Sorter) (n : Nat) : (s.setSorter k x).job n = s.job n := rfl
@[simp] theorem setSorter_get_context (k : Nat) (x : Sorter) (n : Nat) : (s.setSorter k x).context n = s.context n := rfl
@[simp] theorem setSorter_get_stream (k : Nat) (x : Sorter) (n : Nat) : (s.setSorter k x).stream n = s.stream n := rfl
@[simp] theorem setSorter_get_port (k : Nat) (x : Sorter) (n : Nat) : (s.setSorter k x).port n = s.port n := rfl
@[simp] theorem setSorter_get_barrier (k : Nat) (x : Sorter) (n : Nat) : (s.setSorter k x).barrier n = s.barrier n := rfl
@[simp] theorem setSorter_get_entry (k : Nat) (x : Sorter) (n m : Nat) : (s.setSorter k x).entry n m = s.entry n m := rfl
@[simp] theorem setSorter_get_blob (k : Nat) (x : Sorter) (n m : Nat) : (s.setSorter k x).blob n m = s.blob n m := rfl

/-! ### setBarrier -/

@[simp] theorem setBarrier_pending (b : Nat) (x : Barrier) : (s.setBarrier b x).pending = s.pending := rfl
@[simp] theorem setBarrier_freeCount (b : Nat) (x : Barrier) : (s.setBarrier b x).freeCount = s.freeCount := rfl
@[simp] theorem setBarrier_out (b : Nat) (x : Barrier) : (s.setBarrier b x).out = s.out := rfl
@[simp] theorem setBarrier_grade (b : Nat) (x : Barrier) : (s.setBarrier b x).grade = s.grade := rfl
@[simp] theorem setBarrier_enabled (b : Nat) (x : Barrier) : (s.setBarrier b x).enabled = s.enabled := rfl
@[simp] theorem setBarrier_now (b : Nat) (x : Barrier) : (s.setBarrier b x).now = s.now := rfl
@[simp] theorem setBarrier_dict (b : Nat) (x : Barrier) : (s.setBarrier b x).dict = s.dict := rfl
@[simp] theorem setBarrier_blobs (b : Nat) (x : Barrier) : (s.setBarrier b x).blobs = s.blobs := rfl
@[simp] theorem setBarrier_contexts (b : Nat) (x : Barrier) : (s.setBarrier b x).contexts = s.contexts := rfl
@[simp] theorem setBarrier_pendingGroups (b : Nat) (x : Barrier) : (s.setBarrier b x).pendingGroups = s.pendingGroups := rfl
@[simp] theorem setBarrier_sessions (b : Nat) (x : Barrier) : (s.setBarrier b x).sessions = s.sessions := rfl
@[simp] theorem setBarrier_dtpDropped (b : Nat) (x : Barrier) : (s.setBarrier b x).dtpDropped = s.dtpDropped := rfl
@[simp] theorem setBarrier_restoreDefaults (b : Nat) (x : Barrier) : (s.setBarrier b x).restoreDefaults = s.restoreDefaults := rfl
@[simp] theorem setBarrier_unstored (b : Nat) (x : Barrier) : (s.setBarrier b x).unstored = s.unstored := rfl
@[simp] theorem setBarrier_journal (b : Nat) (x : Barrier) : (s.setBarrier b x).journal = s.journal := rfl
@[simp] theorem setBarrier_hostGate (b : Nat) (x : Barrier) : (s.setBarrier b x).hostGate = s.hostGate := rfl
@[simp] theorem setBarrier_fieldGate (b : Nat) (x : Barrier) : (s.setBarrier b x).fieldGate = s.fieldGate := rfl
@[simp] theorem setBarrier_heldAccesses (b : Nat) (x : Barrier) : (s.setBarrier b x).heldAccesses = s.heldAccesses := rfl
@[simp] theorem setBarrier_arriving (b : Nat) (x : Barrier) : (s.setBarrier b x).arriving = s.arriving := rfl
@[simp] theorem setBarrier_notices (b : Nat) (x : Barrier) : (s.setBarrier b x).notices = s.notices := rfl
@[simp] theorem setBarrier_fieldLog (b : Nat) (x : Barrier) : (s.setBarrier b x).fieldLog = s.fieldLog := rfl
@[simp] theorem setBarrier_flash (b : Nat) (x : Barrier) : (s.setBarrier b x).flash = s.flash := rfl
@[simp] theorem setBarrier_flashLength (b : Nat) (x : Barrier) : (s.setBarrier b x).flashLength = s.flashLength := rfl
@[simp] theorem setBarrier_sets (b : Nat) (x : Barrier) : (s.setBarrier b x).sets = s.sets := rfl
@[simp] theorem setBarrier_jobs (b : Nat) (x : Barrier) : (s.setBarrier b x).jobs = s.jobs := rfl
@[simp] theorem setBarrier_admitQueue (b : Nat) (x : Barrier) : (s.setBarrier b x).admitQueue = s.admitQueue := rfl
@[simp] theorem setBarrier_tiles (b : Nat) (x : Barrier) : (s.setBarrier b x).tiles = s.tiles := rfl
@[simp] theorem setBarrier_conversion (b : Nat) (x : Barrier) : (s.setBarrier b x).conversion = s.conversion := rfl
@[simp] theorem setBarrier_streams (b : Nat) (x : Barrier) : (s.setBarrier b x).streams = s.streams := rfl
@[simp] theorem setBarrier_openWaits (b : Nat) (x : Barrier) : (s.setBarrier b x).openWaits = s.openWaits := rfl
@[simp] theorem setBarrier_lateStreams (b : Nat) (x : Barrier) : (s.setBarrier b x).lateStreams = s.lateStreams := rfl
@[simp] theorem setBarrier_mcastCredits (b : Nat) (x : Barrier) : (s.setBarrier b x).mcastCredits = s.mcastCredits := rfl
@[simp] theorem setBarrier_mcastUsed (b : Nat) (x : Barrier) : (s.setBarrier b x).mcastUsed = s.mcastUsed := rfl
@[simp] theorem setBarrier_rateWindowAt (b : Nat) (x : Barrier) : (s.setBarrier b x).rateWindowAt = s.rateWindowAt := rfl
@[simp] theorem setBarrier_mem (b : Nat) (x : Barrier) : (s.setBarrier b x).mem = s.mem := rfl
@[simp] theorem setBarrier_memUndefined (b : Nat) (x : Barrier) : (s.setBarrier b x).memUndefined = s.memUndefined := rfl
@[simp] theorem setBarrier_wordPoison (b : Nat) (x : Barrier) : (s.setBarrier b x).wordPoison = s.wordPoison := rfl
@[simp] theorem setBarrier_wordEpoch (b : Nat) (x : Barrier) : (s.setBarrier b x).wordEpoch = s.wordEpoch := rfl
@[simp] theorem setBarrier_poisonTable (b : Nat) (x : Barrier) : (s.setBarrier b x).poisonTable = s.poisonTable := rfl
@[simp] theorem setBarrier_poisonEpoch (b : Nat) (x : Barrier) : (s.setBarrier b x).poisonEpoch = s.poisonEpoch := rfl
@[simp] theorem setBarrier_poisonWaits (b : Nat) (x : Barrier) : (s.setBarrier b x).poisonWaits = s.poisonWaits := rfl
@[simp] theorem setBarrier_sorters (b : Nat) (x : Barrier) : (s.setBarrier b x).sorters = s.sorters := rfl
@[simp] theorem setBarrier_stackWriteBacks (b : Nat) (x : Barrier) : (s.setBarrier b x).stackWriteBacks = s.stackWriteBacks := rfl
@[simp] theorem setBarrier_clearWalk (b : Nat) (x : Barrier) : (s.setBarrier b x).clearWalk = s.clearWalk := rfl
@[simp] theorem setBarrier_ports (b : Nat) (x : Barrier) : (s.setBarrier b x).ports = s.ports := rfl
@[simp] theorem setBarrier_seqNext (b : Nat) (x : Barrier) : (s.setBarrier b x).seqNext = s.seqNext := rfl
@[simp] theorem setBarrier_seqExpected (b : Nat) (x : Barrier) : (s.setBarrier b x).seqExpected = s.seqExpected := rfl
@[simp] theorem setBarrier_failedTriples (b : Nat) (x : Barrier) : (s.setBarrier b x).failedTriples = s.failedTriples := rfl
@[simp] theorem setBarrier_heldFrames (b : Nat) (x : Barrier) : (s.setBarrier b x).heldFrames = s.heldFrames := rfl
@[simp] theorem setBarrier_behind (b : Nat) (x : Barrier) : (s.setBarrier b x).behind = s.behind := rfl
@[simp] theorem setBarrier_remoteOps (b : Nat) (x : Barrier) : (s.setBarrier b x).remoteOps = s.remoteOps := rfl
@[simp] theorem setBarrier_nextTag (b : Nat) (x : Barrier) : (s.setBarrier b x).nextTag = s.nextTag := rfl
@[simp] theorem setBarrier_mcastWaits (b : Nat) (x : Barrier) : (s.setBarrier b x).mcastWaits = s.mcastWaits := rfl
@[simp] theorem setBarrier_snapsSeen (b : Nat) (x : Barrier) : (s.setBarrier b x).snapsSeen = s.snapsSeen := rfl
@[simp] theorem setBarrier_lastTimeIdle (b : Nat) (x : Barrier) : (s.setBarrier b x).lastTimeIdle = s.lastTimeIdle := rfl
@[simp] theorem setBarrier_timeOffset (b : Nat) (x : Barrier) : (s.setBarrier b x).timeOffset = s.timeOffset := rfl
@[simp] theorem setBarrier_everLocked (b : Nat) (x : Barrier) : (s.setBarrier b x).everLocked = s.everLocked := rfl
@[simp] theorem setBarrier_slewLeft (b : Nat) (x : Barrier) : (s.setBarrier b x).slewLeft = s.slewLeft := rfl
@[simp] theorem setBarrier_slewAt (b : Nat) (x : Barrier) : (s.setBarrier b x).slewAt = s.slewAt := rfl
@[simp] theorem setBarrier_hostLink (b : Nat) (x : Barrier) : (s.setBarrier b x).hostLink = s.hostLink := rfl
@[simp] theorem setBarrier_heat (b : Nat) (x : Barrier) : (s.setBarrier b x).heat = s.heat := rfl
@[simp] theorem setBarrier_domains (b : Nat) (x : Barrier) : (s.setBarrier b x).domains = s.domains := rfl
@[simp] theorem setBarrier_hss (b : Nat) (x : Barrier) : (s.setBarrier b x).hss = s.hss := rfl
@[simp] theorem setBarrier_pke (b : Nat) (x : Barrier) : (s.setBarrier b x).pke = s.pke := rfl
@[simp] theorem setBarrier_recovery (b : Nat) (x : Barrier) : (s.setBarrier b x).recovery = s.recovery := rfl
@[simp] theorem setBarrier_nonceFresh (b : Nat) (x : Barrier) : (s.setBarrier b x).nonceFresh = s.nonceFresh := rfl
@[simp] theorem setBarrier_log (b : Nat) (x : Barrier) : (s.setBarrier b x).log = s.log := rfl
@[simp] theorem setBarrier_logNext (b : Nat) (x : Barrier) : (s.setBarrier b x).logNext = s.logNext := rfl
@[simp] theorem setBarrier_checkRun (b : Nat) (x : Barrier) : (s.setBarrier b x).checkRun = s.checkRun := rfl
@[simp] theorem setBarrier_watchdogAt (b : Nat) (x : Barrier) : (s.setBarrier b x).watchdogAt = s.watchdogAt := rfl
@[simp] theorem setBarrier_watchdogLimit (b : Nat) (x : Barrier) : (s.setBarrier b x).watchdogLimit = s.watchdogLimit := rfl
@[simp] theorem setBarrier_ticks (b : Nat) (x : Barrier) : (s.setBarrier b x).ticks = s.ticks := rfl
@[simp] theorem setBarrier_copying (b : Nat) (x : Barrier) : (s.setBarrier b x).copying = s.copying := rfl
@[simp] theorem setBarrier_captures (b : Nat) (x : Barrier) : (s.setBarrier b x).captures = s.captures := rfl
@[simp] theorem setBarrier_captureSeq (b : Nat) (x : Barrier) : (s.setBarrier b x).captureSeq = s.captureSeq := rfl
@[simp] theorem setBarrier_captureOrder (b : Nat) (x : Barrier) : (s.setBarrier b x).captureOrder = s.captureOrder := rfl
@[simp] theorem setBarrier_hostPowered (b : Nat) (x : Barrier) : (s.setBarrier b x).hostPowered = s.hostPowered := rfl
@[simp] theorem setBarrier_fieldPowered (b : Nat) (x : Barrier) : (s.setBarrier b x).fieldPowered = s.fieldPowered := rfl
@[simp] theorem setBarrier_thermalTripped (b : Nat) (x : Barrier) : (s.setBarrier b x).thermalTripped = s.thermalTripped := rfl
@[simp] theorem setBarrier_starts (b : Nat) (x : Barrier) : (s.setBarrier b x).starts = s.starts := rfl
@[simp] theorem setBarrier_restart (b : Nat) (x : Barrier) : (s.setBarrier b x).restart = s.restart := rfl
@[simp] theorem setBarrier_deferredRestart (b : Nat) (x : Barrier) : (s.setBarrier b x).deferredRestart = s.deferredRestart := rfl
@[simp] theorem setBarrier_inputBackSince (b : Nat) (x : Barrier) : (s.setBarrier b x).inputBackSince = s.inputBackSince := rfl
@[simp] theorem setBarrier_replayWrites (b : Nat) (x : Barrier) : (s.setBarrier b x).replayWrites = s.replayWrites := rfl
@[simp] theorem setBarrier_get_tile (b : Nat) (x : Barrier) (n : Nat) : (s.setBarrier b x).tile n = s.tile n := rfl
@[simp] theorem setBarrier_get_job (b : Nat) (x : Barrier) (n : Nat) : (s.setBarrier b x).job n = s.job n := rfl
@[simp] theorem setBarrier_get_context (b : Nat) (x : Barrier) (n : Nat) : (s.setBarrier b x).context n = s.context n := rfl
@[simp] theorem setBarrier_get_stream (b : Nat) (x : Barrier) (n : Nat) : (s.setBarrier b x).stream n = s.stream n := rfl
@[simp] theorem setBarrier_get_port (b : Nat) (x : Barrier) (n : Nat) : (s.setBarrier b x).port n = s.port n := rfl
@[simp] theorem setBarrier_get_sorter (b : Nat) (x : Barrier) (n : Nat) : (s.setBarrier b x).sorter n = s.sorter n := rfl
@[simp] theorem setBarrier_get_entry (b : Nat) (x : Barrier) (n m : Nat) : (s.setBarrier b x).entry n m = s.entry n m := rfl
@[simp] theorem setBarrier_get_blob (b : Nat) (x : Barrier) (n m : Nat) : (s.setBarrier b x).blob n m = s.blob n m := rfl

/-! ### setDomain -/

@[simp] theorem setDomain_pending (d : Nat) (x : Domain) : (s.setDomain d x).pending = s.pending := rfl
@[simp] theorem setDomain_freeCount (d : Nat) (x : Domain) : (s.setDomain d x).freeCount = s.freeCount := rfl
@[simp] theorem setDomain_out (d : Nat) (x : Domain) : (s.setDomain d x).out = s.out := rfl
@[simp] theorem setDomain_grade (d : Nat) (x : Domain) : (s.setDomain d x).grade = s.grade := rfl
@[simp] theorem setDomain_enabled (d : Nat) (x : Domain) : (s.setDomain d x).enabled = s.enabled := rfl
@[simp] theorem setDomain_now (d : Nat) (x : Domain) : (s.setDomain d x).now = s.now := rfl
@[simp] theorem setDomain_dict (d : Nat) (x : Domain) : (s.setDomain d x).dict = s.dict := rfl
@[simp] theorem setDomain_blobs (d : Nat) (x : Domain) : (s.setDomain d x).blobs = s.blobs := rfl
@[simp] theorem setDomain_contexts (d : Nat) (x : Domain) : (s.setDomain d x).contexts = s.contexts := rfl
@[simp] theorem setDomain_pendingGroups (d : Nat) (x : Domain) : (s.setDomain d x).pendingGroups = s.pendingGroups := rfl
@[simp] theorem setDomain_sessions (d : Nat) (x : Domain) : (s.setDomain d x).sessions = s.sessions := rfl
@[simp] theorem setDomain_dtpDropped (d : Nat) (x : Domain) : (s.setDomain d x).dtpDropped = s.dtpDropped := rfl
@[simp] theorem setDomain_restoreDefaults (d : Nat) (x : Domain) : (s.setDomain d x).restoreDefaults = s.restoreDefaults := rfl
@[simp] theorem setDomain_unstored (d : Nat) (x : Domain) : (s.setDomain d x).unstored = s.unstored := rfl
@[simp] theorem setDomain_journal (d : Nat) (x : Domain) : (s.setDomain d x).journal = s.journal := rfl
@[simp] theorem setDomain_hostGate (d : Nat) (x : Domain) : (s.setDomain d x).hostGate = s.hostGate := rfl
@[simp] theorem setDomain_fieldGate (d : Nat) (x : Domain) : (s.setDomain d x).fieldGate = s.fieldGate := rfl
@[simp] theorem setDomain_heldAccesses (d : Nat) (x : Domain) : (s.setDomain d x).heldAccesses = s.heldAccesses := rfl
@[simp] theorem setDomain_arriving (d : Nat) (x : Domain) : (s.setDomain d x).arriving = s.arriving := rfl
@[simp] theorem setDomain_notices (d : Nat) (x : Domain) : (s.setDomain d x).notices = s.notices := rfl
@[simp] theorem setDomain_fieldLog (d : Nat) (x : Domain) : (s.setDomain d x).fieldLog = s.fieldLog := rfl
@[simp] theorem setDomain_flash (d : Nat) (x : Domain) : (s.setDomain d x).flash = s.flash := rfl
@[simp] theorem setDomain_flashLength (d : Nat) (x : Domain) : (s.setDomain d x).flashLength = s.flashLength := rfl
@[simp] theorem setDomain_sets (d : Nat) (x : Domain) : (s.setDomain d x).sets = s.sets := rfl
@[simp] theorem setDomain_jobs (d : Nat) (x : Domain) : (s.setDomain d x).jobs = s.jobs := rfl
@[simp] theorem setDomain_admitQueue (d : Nat) (x : Domain) : (s.setDomain d x).admitQueue = s.admitQueue := rfl
@[simp] theorem setDomain_tiles (d : Nat) (x : Domain) : (s.setDomain d x).tiles = s.tiles := rfl
@[simp] theorem setDomain_conversion (d : Nat) (x : Domain) : (s.setDomain d x).conversion = s.conversion := rfl
@[simp] theorem setDomain_streams (d : Nat) (x : Domain) : (s.setDomain d x).streams = s.streams := rfl
@[simp] theorem setDomain_openWaits (d : Nat) (x : Domain) : (s.setDomain d x).openWaits = s.openWaits := rfl
@[simp] theorem setDomain_lateStreams (d : Nat) (x : Domain) : (s.setDomain d x).lateStreams = s.lateStreams := rfl
@[simp] theorem setDomain_mcastCredits (d : Nat) (x : Domain) : (s.setDomain d x).mcastCredits = s.mcastCredits := rfl
@[simp] theorem setDomain_mcastUsed (d : Nat) (x : Domain) : (s.setDomain d x).mcastUsed = s.mcastUsed := rfl
@[simp] theorem setDomain_rateWindowAt (d : Nat) (x : Domain) : (s.setDomain d x).rateWindowAt = s.rateWindowAt := rfl
@[simp] theorem setDomain_mem (d : Nat) (x : Domain) : (s.setDomain d x).mem = s.mem := rfl
@[simp] theorem setDomain_memUndefined (d : Nat) (x : Domain) : (s.setDomain d x).memUndefined = s.memUndefined := rfl
@[simp] theorem setDomain_wordPoison (d : Nat) (x : Domain) : (s.setDomain d x).wordPoison = s.wordPoison := rfl
@[simp] theorem setDomain_wordEpoch (d : Nat) (x : Domain) : (s.setDomain d x).wordEpoch = s.wordEpoch := rfl
@[simp] theorem setDomain_poisonTable (d : Nat) (x : Domain) : (s.setDomain d x).poisonTable = s.poisonTable := rfl
@[simp] theorem setDomain_poisonEpoch (d : Nat) (x : Domain) : (s.setDomain d x).poisonEpoch = s.poisonEpoch := rfl
@[simp] theorem setDomain_poisonWaits (d : Nat) (x : Domain) : (s.setDomain d x).poisonWaits = s.poisonWaits := rfl
@[simp] theorem setDomain_sorters (d : Nat) (x : Domain) : (s.setDomain d x).sorters = s.sorters := rfl
@[simp] theorem setDomain_stackWriteBacks (d : Nat) (x : Domain) : (s.setDomain d x).stackWriteBacks = s.stackWriteBacks := rfl
@[simp] theorem setDomain_clearWalk (d : Nat) (x : Domain) : (s.setDomain d x).clearWalk = s.clearWalk := rfl
@[simp] theorem setDomain_ports (d : Nat) (x : Domain) : (s.setDomain d x).ports = s.ports := rfl
@[simp] theorem setDomain_seqNext (d : Nat) (x : Domain) : (s.setDomain d x).seqNext = s.seqNext := rfl
@[simp] theorem setDomain_seqExpected (d : Nat) (x : Domain) : (s.setDomain d x).seqExpected = s.seqExpected := rfl
@[simp] theorem setDomain_failedTriples (d : Nat) (x : Domain) : (s.setDomain d x).failedTriples = s.failedTriples := rfl
@[simp] theorem setDomain_heldFrames (d : Nat) (x : Domain) : (s.setDomain d x).heldFrames = s.heldFrames := rfl
@[simp] theorem setDomain_behind (d : Nat) (x : Domain) : (s.setDomain d x).behind = s.behind := rfl
@[simp] theorem setDomain_remoteOps (d : Nat) (x : Domain) : (s.setDomain d x).remoteOps = s.remoteOps := rfl
@[simp] theorem setDomain_nextTag (d : Nat) (x : Domain) : (s.setDomain d x).nextTag = s.nextTag := rfl
@[simp] theorem setDomain_mcastWaits (d : Nat) (x : Domain) : (s.setDomain d x).mcastWaits = s.mcastWaits := rfl
@[simp] theorem setDomain_barriers (d : Nat) (x : Domain) : (s.setDomain d x).barriers = s.barriers := rfl
@[simp] theorem setDomain_snapsSeen (d : Nat) (x : Domain) : (s.setDomain d x).snapsSeen = s.snapsSeen := rfl
@[simp] theorem setDomain_lastTimeIdle (d : Nat) (x : Domain) : (s.setDomain d x).lastTimeIdle = s.lastTimeIdle := rfl
@[simp] theorem setDomain_timeOffset (d : Nat) (x : Domain) : (s.setDomain d x).timeOffset = s.timeOffset := rfl
@[simp] theorem setDomain_everLocked (d : Nat) (x : Domain) : (s.setDomain d x).everLocked = s.everLocked := rfl
@[simp] theorem setDomain_slewLeft (d : Nat) (x : Domain) : (s.setDomain d x).slewLeft = s.slewLeft := rfl
@[simp] theorem setDomain_slewAt (d : Nat) (x : Domain) : (s.setDomain d x).slewAt = s.slewAt := rfl
@[simp] theorem setDomain_hostLink (d : Nat) (x : Domain) : (s.setDomain d x).hostLink = s.hostLink := rfl
@[simp] theorem setDomain_heat (d : Nat) (x : Domain) : (s.setDomain d x).heat = s.heat := rfl
@[simp] theorem setDomain_hss (d : Nat) (x : Domain) : (s.setDomain d x).hss = s.hss := rfl
@[simp] theorem setDomain_pke (d : Nat) (x : Domain) : (s.setDomain d x).pke = s.pke := rfl
@[simp] theorem setDomain_recovery (d : Nat) (x : Domain) : (s.setDomain d x).recovery = s.recovery := rfl
@[simp] theorem setDomain_nonceFresh (d : Nat) (x : Domain) : (s.setDomain d x).nonceFresh = s.nonceFresh := rfl
@[simp] theorem setDomain_log (d : Nat) (x : Domain) : (s.setDomain d x).log = s.log := rfl
@[simp] theorem setDomain_logNext (d : Nat) (x : Domain) : (s.setDomain d x).logNext = s.logNext := rfl
@[simp] theorem setDomain_checkRun (d : Nat) (x : Domain) : (s.setDomain d x).checkRun = s.checkRun := rfl
@[simp] theorem setDomain_watchdogAt (d : Nat) (x : Domain) : (s.setDomain d x).watchdogAt = s.watchdogAt := rfl
@[simp] theorem setDomain_watchdogLimit (d : Nat) (x : Domain) : (s.setDomain d x).watchdogLimit = s.watchdogLimit := rfl
@[simp] theorem setDomain_ticks (d : Nat) (x : Domain) : (s.setDomain d x).ticks = s.ticks := rfl
@[simp] theorem setDomain_copying (d : Nat) (x : Domain) : (s.setDomain d x).copying = s.copying := rfl
@[simp] theorem setDomain_captures (d : Nat) (x : Domain) : (s.setDomain d x).captures = s.captures := rfl
@[simp] theorem setDomain_captureSeq (d : Nat) (x : Domain) : (s.setDomain d x).captureSeq = s.captureSeq := rfl
@[simp] theorem setDomain_captureOrder (d : Nat) (x : Domain) : (s.setDomain d x).captureOrder = s.captureOrder := rfl
@[simp] theorem setDomain_hostPowered (d : Nat) (x : Domain) : (s.setDomain d x).hostPowered = s.hostPowered := rfl
@[simp] theorem setDomain_fieldPowered (d : Nat) (x : Domain) : (s.setDomain d x).fieldPowered = s.fieldPowered := rfl
@[simp] theorem setDomain_thermalTripped (d : Nat) (x : Domain) : (s.setDomain d x).thermalTripped = s.thermalTripped := rfl
@[simp] theorem setDomain_starts (d : Nat) (x : Domain) : (s.setDomain d x).starts = s.starts := rfl
@[simp] theorem setDomain_restart (d : Nat) (x : Domain) : (s.setDomain d x).restart = s.restart := rfl
@[simp] theorem setDomain_deferredRestart (d : Nat) (x : Domain) : (s.setDomain d x).deferredRestart = s.deferredRestart := rfl
@[simp] theorem setDomain_inputBackSince (d : Nat) (x : Domain) : (s.setDomain d x).inputBackSince = s.inputBackSince := rfl
@[simp] theorem setDomain_replayWrites (d : Nat) (x : Domain) : (s.setDomain d x).replayWrites = s.replayWrites := rfl
@[simp] theorem setDomain_get_tile (d : Nat) (x : Domain) (n : Nat) : (s.setDomain d x).tile n = s.tile n := rfl
@[simp] theorem setDomain_get_job (d : Nat) (x : Domain) (n : Nat) : (s.setDomain d x).job n = s.job n := rfl
@[simp] theorem setDomain_get_context (d : Nat) (x : Domain) (n : Nat) : (s.setDomain d x).context n = s.context n := rfl
@[simp] theorem setDomain_get_stream (d : Nat) (x : Domain) (n : Nat) : (s.setDomain d x).stream n = s.stream n := rfl
@[simp] theorem setDomain_get_port (d : Nat) (x : Domain) (n : Nat) : (s.setDomain d x).port n = s.port n := rfl
@[simp] theorem setDomain_get_sorter (d : Nat) (x : Domain) (n : Nat) : (s.setDomain d x).sorter n = s.sorter n := rfl
@[simp] theorem setDomain_get_barrier (d : Nat) (x : Domain) (n : Nat) : (s.setDomain d x).barrier n = s.barrier n := rfl
@[simp] theorem setDomain_get_entry (d : Nat) (x : Domain) (n m : Nat) : (s.setDomain d x).entry n m = s.entry n m := rfl
@[simp] theorem setDomain_get_blob (d : Nat) (x : Domain) (n m : Nat) : (s.setDomain d x).blob n m = s.blob n m := rfl

/-! ### setEntry -/

@[simp] theorem setEntry_pending (i j v : Nat) : (s.setEntry i j v).pending = s.pending := rfl
@[simp] theorem setEntry_freeCount (i j v : Nat) : (s.setEntry i j v).freeCount = s.freeCount := rfl
@[simp] theorem setEntry_out (i j v : Nat) : (s.setEntry i j v).out = s.out := rfl
@[simp] theorem setEntry_grade (i j v : Nat) : (s.setEntry i j v).grade = s.grade := rfl
@[simp] theorem setEntry_enabled (i j v : Nat) : (s.setEntry i j v).enabled = s.enabled := rfl
@[simp] theorem setEntry_now (i j v : Nat) : (s.setEntry i j v).now = s.now := rfl
@[simp] theorem setEntry_blobs (i j v : Nat) : (s.setEntry i j v).blobs = s.blobs := rfl
@[simp] theorem setEntry_contexts (i j v : Nat) : (s.setEntry i j v).contexts = s.contexts := rfl
@[simp] theorem setEntry_pendingGroups (i j v : Nat) : (s.setEntry i j v).pendingGroups = s.pendingGroups := rfl
@[simp] theorem setEntry_sessions (i j v : Nat) : (s.setEntry i j v).sessions = s.sessions := rfl
@[simp] theorem setEntry_dtpDropped (i j v : Nat) : (s.setEntry i j v).dtpDropped = s.dtpDropped := rfl
@[simp] theorem setEntry_restoreDefaults (i j v : Nat) : (s.setEntry i j v).restoreDefaults = s.restoreDefaults := rfl
@[simp] theorem setEntry_unstored (i j v : Nat) : (s.setEntry i j v).unstored = s.unstored := rfl
@[simp] theorem setEntry_journal (i j v : Nat) : (s.setEntry i j v).journal = s.journal := rfl
@[simp] theorem setEntry_hostGate (i j v : Nat) : (s.setEntry i j v).hostGate = s.hostGate := rfl
@[simp] theorem setEntry_fieldGate (i j v : Nat) : (s.setEntry i j v).fieldGate = s.fieldGate := rfl
@[simp] theorem setEntry_heldAccesses (i j v : Nat) : (s.setEntry i j v).heldAccesses = s.heldAccesses := rfl
@[simp] theorem setEntry_arriving (i j v : Nat) : (s.setEntry i j v).arriving = s.arriving := rfl
@[simp] theorem setEntry_notices (i j v : Nat) : (s.setEntry i j v).notices = s.notices := rfl
@[simp] theorem setEntry_fieldLog (i j v : Nat) : (s.setEntry i j v).fieldLog = s.fieldLog := rfl
@[simp] theorem setEntry_flash (i j v : Nat) : (s.setEntry i j v).flash = s.flash := rfl
@[simp] theorem setEntry_flashLength (i j v : Nat) : (s.setEntry i j v).flashLength = s.flashLength := rfl
@[simp] theorem setEntry_sets (i j v : Nat) : (s.setEntry i j v).sets = s.sets := rfl
@[simp] theorem setEntry_jobs (i j v : Nat) : (s.setEntry i j v).jobs = s.jobs := rfl
@[simp] theorem setEntry_admitQueue (i j v : Nat) : (s.setEntry i j v).admitQueue = s.admitQueue := rfl
@[simp] theorem setEntry_tiles (i j v : Nat) : (s.setEntry i j v).tiles = s.tiles := rfl
@[simp] theorem setEntry_conversion (i j v : Nat) : (s.setEntry i j v).conversion = s.conversion := rfl
@[simp] theorem setEntry_streams (i j v : Nat) : (s.setEntry i j v).streams = s.streams := rfl
@[simp] theorem setEntry_openWaits (i j v : Nat) : (s.setEntry i j v).openWaits = s.openWaits := rfl
@[simp] theorem setEntry_lateStreams (i j v : Nat) : (s.setEntry i j v).lateStreams = s.lateStreams := rfl
@[simp] theorem setEntry_mcastCredits (i j v : Nat) : (s.setEntry i j v).mcastCredits = s.mcastCredits := rfl
@[simp] theorem setEntry_mcastUsed (i j v : Nat) : (s.setEntry i j v).mcastUsed = s.mcastUsed := rfl
@[simp] theorem setEntry_rateWindowAt (i j v : Nat) : (s.setEntry i j v).rateWindowAt = s.rateWindowAt := rfl
@[simp] theorem setEntry_mem (i j v : Nat) : (s.setEntry i j v).mem = s.mem := rfl
@[simp] theorem setEntry_memUndefined (i j v : Nat) : (s.setEntry i j v).memUndefined = s.memUndefined := rfl
@[simp] theorem setEntry_wordPoison (i j v : Nat) : (s.setEntry i j v).wordPoison = s.wordPoison := rfl
@[simp] theorem setEntry_wordEpoch (i j v : Nat) : (s.setEntry i j v).wordEpoch = s.wordEpoch := rfl
@[simp] theorem setEntry_poisonTable (i j v : Nat) : (s.setEntry i j v).poisonTable = s.poisonTable := rfl
@[simp] theorem setEntry_poisonEpoch (i j v : Nat) : (s.setEntry i j v).poisonEpoch = s.poisonEpoch := rfl
@[simp] theorem setEntry_poisonWaits (i j v : Nat) : (s.setEntry i j v).poisonWaits = s.poisonWaits := rfl
@[simp] theorem setEntry_sorters (i j v : Nat) : (s.setEntry i j v).sorters = s.sorters := rfl
@[simp] theorem setEntry_stackWriteBacks (i j v : Nat) : (s.setEntry i j v).stackWriteBacks = s.stackWriteBacks := rfl
@[simp] theorem setEntry_clearWalk (i j v : Nat) : (s.setEntry i j v).clearWalk = s.clearWalk := rfl
@[simp] theorem setEntry_ports (i j v : Nat) : (s.setEntry i j v).ports = s.ports := rfl
@[simp] theorem setEntry_seqNext (i j v : Nat) : (s.setEntry i j v).seqNext = s.seqNext := rfl
@[simp] theorem setEntry_seqExpected (i j v : Nat) : (s.setEntry i j v).seqExpected = s.seqExpected := rfl
@[simp] theorem setEntry_failedTriples (i j v : Nat) : (s.setEntry i j v).failedTriples = s.failedTriples := rfl
@[simp] theorem setEntry_heldFrames (i j v : Nat) : (s.setEntry i j v).heldFrames = s.heldFrames := rfl
@[simp] theorem setEntry_behind (i j v : Nat) : (s.setEntry i j v).behind = s.behind := rfl
@[simp] theorem setEntry_remoteOps (i j v : Nat) : (s.setEntry i j v).remoteOps = s.remoteOps := rfl
@[simp] theorem setEntry_nextTag (i j v : Nat) : (s.setEntry i j v).nextTag = s.nextTag := rfl
@[simp] theorem setEntry_mcastWaits (i j v : Nat) : (s.setEntry i j v).mcastWaits = s.mcastWaits := rfl
@[simp] theorem setEntry_barriers (i j v : Nat) : (s.setEntry i j v).barriers = s.barriers := rfl
@[simp] theorem setEntry_snapsSeen (i j v : Nat) : (s.setEntry i j v).snapsSeen = s.snapsSeen := rfl
@[simp] theorem setEntry_lastTimeIdle (i j v : Nat) : (s.setEntry i j v).lastTimeIdle = s.lastTimeIdle := rfl
@[simp] theorem setEntry_timeOffset (i j v : Nat) : (s.setEntry i j v).timeOffset = s.timeOffset := rfl
@[simp] theorem setEntry_everLocked (i j v : Nat) : (s.setEntry i j v).everLocked = s.everLocked := rfl
@[simp] theorem setEntry_slewLeft (i j v : Nat) : (s.setEntry i j v).slewLeft = s.slewLeft := rfl
@[simp] theorem setEntry_slewAt (i j v : Nat) : (s.setEntry i j v).slewAt = s.slewAt := rfl
@[simp] theorem setEntry_hostLink (i j v : Nat) : (s.setEntry i j v).hostLink = s.hostLink := rfl
@[simp] theorem setEntry_heat (i j v : Nat) : (s.setEntry i j v).heat = s.heat := rfl
@[simp] theorem setEntry_domains (i j v : Nat) : (s.setEntry i j v).domains = s.domains := rfl
@[simp] theorem setEntry_hss (i j v : Nat) : (s.setEntry i j v).hss = s.hss := rfl
@[simp] theorem setEntry_pke (i j v : Nat) : (s.setEntry i j v).pke = s.pke := rfl
@[simp] theorem setEntry_recovery (i j v : Nat) : (s.setEntry i j v).recovery = s.recovery := rfl
@[simp] theorem setEntry_nonceFresh (i j v : Nat) : (s.setEntry i j v).nonceFresh = s.nonceFresh := rfl
@[simp] theorem setEntry_log (i j v : Nat) : (s.setEntry i j v).log = s.log := rfl
@[simp] theorem setEntry_logNext (i j v : Nat) : (s.setEntry i j v).logNext = s.logNext := rfl
@[simp] theorem setEntry_checkRun (i j v : Nat) : (s.setEntry i j v).checkRun = s.checkRun := rfl
@[simp] theorem setEntry_watchdogAt (i j v : Nat) : (s.setEntry i j v).watchdogAt = s.watchdogAt := rfl
@[simp] theorem setEntry_watchdogLimit (i j v : Nat) : (s.setEntry i j v).watchdogLimit = s.watchdogLimit := rfl
@[simp] theorem setEntry_ticks (i j v : Nat) : (s.setEntry i j v).ticks = s.ticks := rfl
@[simp] theorem setEntry_copying (i j v : Nat) : (s.setEntry i j v).copying = s.copying := rfl
@[simp] theorem setEntry_captures (i j v : Nat) : (s.setEntry i j v).captures = s.captures := rfl
@[simp] theorem setEntry_captureSeq (i j v : Nat) : (s.setEntry i j v).captureSeq = s.captureSeq := rfl
@[simp] theorem setEntry_captureOrder (i j v : Nat) : (s.setEntry i j v).captureOrder = s.captureOrder := rfl
@[simp] theorem setEntry_hostPowered (i j v : Nat) : (s.setEntry i j v).hostPowered = s.hostPowered := rfl
@[simp] theorem setEntry_fieldPowered (i j v : Nat) : (s.setEntry i j v).fieldPowered = s.fieldPowered := rfl
@[simp] theorem setEntry_thermalTripped (i j v : Nat) : (s.setEntry i j v).thermalTripped = s.thermalTripped := rfl
@[simp] theorem setEntry_starts (i j v : Nat) : (s.setEntry i j v).starts = s.starts := rfl
@[simp] theorem setEntry_restart (i j v : Nat) : (s.setEntry i j v).restart = s.restart := rfl
@[simp] theorem setEntry_deferredRestart (i j v : Nat) : (s.setEntry i j v).deferredRestart = s.deferredRestart := rfl
@[simp] theorem setEntry_inputBackSince (i j v : Nat) : (s.setEntry i j v).inputBackSince = s.inputBackSince := rfl
@[simp] theorem setEntry_replayWrites (i j v : Nat) : (s.setEntry i j v).replayWrites = s.replayWrites := rfl
@[simp] theorem setEntry_get_tile (i j v : Nat) (n : Nat) : (s.setEntry i j v).tile n = s.tile n := rfl
@[simp] theorem setEntry_get_job (i j v : Nat) (n : Nat) : (s.setEntry i j v).job n = s.job n := rfl
@[simp] theorem setEntry_get_context (i j v : Nat) (n : Nat) : (s.setEntry i j v).context n = s.context n := rfl
@[simp] theorem setEntry_get_stream (i j v : Nat) (n : Nat) : (s.setEntry i j v).stream n = s.stream n := rfl
@[simp] theorem setEntry_get_port (i j v : Nat) (n : Nat) : (s.setEntry i j v).port n = s.port n := rfl
@[simp] theorem setEntry_get_sorter (i j v : Nat) (n : Nat) : (s.setEntry i j v).sorter n = s.sorter n := rfl
@[simp] theorem setEntry_get_barrier (i j v : Nat) (n : Nat) : (s.setEntry i j v).barrier n = s.barrier n := rfl
@[simp] theorem setEntry_get_blob (i j v : Nat) (n m : Nat) : (s.setEntry i j v).blob n m = s.blob n m := rfl

/-! ### resetEntries -/

@[simp] theorem resetEntries_pending (l : List (Nat × Nat)) : (s.resetEntries l).pending = s.pending := rfl
@[simp] theorem resetEntries_freeCount (l : List (Nat × Nat)) : (s.resetEntries l).freeCount = s.freeCount := rfl
@[simp] theorem resetEntries_out (l : List (Nat × Nat)) : (s.resetEntries l).out = s.out := rfl
@[simp] theorem resetEntries_grade (l : List (Nat × Nat)) : (s.resetEntries l).grade = s.grade := rfl
@[simp] theorem resetEntries_enabled (l : List (Nat × Nat)) : (s.resetEntries l).enabled = s.enabled := rfl
@[simp] theorem resetEntries_now (l : List (Nat × Nat)) : (s.resetEntries l).now = s.now := rfl
@[simp] theorem resetEntries_blobs (l : List (Nat × Nat)) : (s.resetEntries l).blobs = s.blobs := rfl
@[simp] theorem resetEntries_contexts (l : List (Nat × Nat)) : (s.resetEntries l).contexts = s.contexts := rfl
@[simp] theorem resetEntries_pendingGroups (l : List (Nat × Nat)) : (s.resetEntries l).pendingGroups = s.pendingGroups := rfl
@[simp] theorem resetEntries_sessions (l : List (Nat × Nat)) : (s.resetEntries l).sessions = s.sessions := rfl
@[simp] theorem resetEntries_dtpDropped (l : List (Nat × Nat)) : (s.resetEntries l).dtpDropped = s.dtpDropped := rfl
@[simp] theorem resetEntries_restoreDefaults (l : List (Nat × Nat)) : (s.resetEntries l).restoreDefaults = s.restoreDefaults := rfl
@[simp] theorem resetEntries_unstored (l : List (Nat × Nat)) : (s.resetEntries l).unstored = s.unstored := rfl
@[simp] theorem resetEntries_journal (l : List (Nat × Nat)) : (s.resetEntries l).journal = s.journal := rfl
@[simp] theorem resetEntries_hostGate (l : List (Nat × Nat)) : (s.resetEntries l).hostGate = s.hostGate := rfl
@[simp] theorem resetEntries_fieldGate (l : List (Nat × Nat)) : (s.resetEntries l).fieldGate = s.fieldGate := rfl
@[simp] theorem resetEntries_heldAccesses (l : List (Nat × Nat)) : (s.resetEntries l).heldAccesses = s.heldAccesses := rfl
@[simp] theorem resetEntries_arriving (l : List (Nat × Nat)) : (s.resetEntries l).arriving = s.arriving := rfl
@[simp] theorem resetEntries_notices (l : List (Nat × Nat)) : (s.resetEntries l).notices = s.notices := rfl
@[simp] theorem resetEntries_fieldLog (l : List (Nat × Nat)) : (s.resetEntries l).fieldLog = s.fieldLog := rfl
@[simp] theorem resetEntries_flash (l : List (Nat × Nat)) : (s.resetEntries l).flash = s.flash := rfl
@[simp] theorem resetEntries_flashLength (l : List (Nat × Nat)) : (s.resetEntries l).flashLength = s.flashLength := rfl
@[simp] theorem resetEntries_sets (l : List (Nat × Nat)) : (s.resetEntries l).sets = s.sets := rfl
@[simp] theorem resetEntries_jobs (l : List (Nat × Nat)) : (s.resetEntries l).jobs = s.jobs := rfl
@[simp] theorem resetEntries_admitQueue (l : List (Nat × Nat)) : (s.resetEntries l).admitQueue = s.admitQueue := rfl
@[simp] theorem resetEntries_tiles (l : List (Nat × Nat)) : (s.resetEntries l).tiles = s.tiles := rfl
@[simp] theorem resetEntries_conversion (l : List (Nat × Nat)) : (s.resetEntries l).conversion = s.conversion := rfl
@[simp] theorem resetEntries_streams (l : List (Nat × Nat)) : (s.resetEntries l).streams = s.streams := rfl
@[simp] theorem resetEntries_openWaits (l : List (Nat × Nat)) : (s.resetEntries l).openWaits = s.openWaits := rfl
@[simp] theorem resetEntries_lateStreams (l : List (Nat × Nat)) : (s.resetEntries l).lateStreams = s.lateStreams := rfl
@[simp] theorem resetEntries_mcastCredits (l : List (Nat × Nat)) : (s.resetEntries l).mcastCredits = s.mcastCredits := rfl
@[simp] theorem resetEntries_mcastUsed (l : List (Nat × Nat)) : (s.resetEntries l).mcastUsed = s.mcastUsed := rfl
@[simp] theorem resetEntries_rateWindowAt (l : List (Nat × Nat)) : (s.resetEntries l).rateWindowAt = s.rateWindowAt := rfl
@[simp] theorem resetEntries_mem (l : List (Nat × Nat)) : (s.resetEntries l).mem = s.mem := rfl
@[simp] theorem resetEntries_memUndefined (l : List (Nat × Nat)) : (s.resetEntries l).memUndefined = s.memUndefined := rfl
@[simp] theorem resetEntries_wordPoison (l : List (Nat × Nat)) : (s.resetEntries l).wordPoison = s.wordPoison := rfl
@[simp] theorem resetEntries_wordEpoch (l : List (Nat × Nat)) : (s.resetEntries l).wordEpoch = s.wordEpoch := rfl
@[simp] theorem resetEntries_poisonTable (l : List (Nat × Nat)) : (s.resetEntries l).poisonTable = s.poisonTable := rfl
@[simp] theorem resetEntries_poisonEpoch (l : List (Nat × Nat)) : (s.resetEntries l).poisonEpoch = s.poisonEpoch := rfl
@[simp] theorem resetEntries_poisonWaits (l : List (Nat × Nat)) : (s.resetEntries l).poisonWaits = s.poisonWaits := rfl
@[simp] theorem resetEntries_sorters (l : List (Nat × Nat)) : (s.resetEntries l).sorters = s.sorters := rfl
@[simp] theorem resetEntries_stackWriteBacks (l : List (Nat × Nat)) : (s.resetEntries l).stackWriteBacks = s.stackWriteBacks := rfl
@[simp] theorem resetEntries_clearWalk (l : List (Nat × Nat)) : (s.resetEntries l).clearWalk = s.clearWalk := rfl
@[simp] theorem resetEntries_ports (l : List (Nat × Nat)) : (s.resetEntries l).ports = s.ports := rfl
@[simp] theorem resetEntries_seqNext (l : List (Nat × Nat)) : (s.resetEntries l).seqNext = s.seqNext := rfl
@[simp] theorem resetEntries_seqExpected (l : List (Nat × Nat)) : (s.resetEntries l).seqExpected = s.seqExpected := rfl
@[simp] theorem resetEntries_failedTriples (l : List (Nat × Nat)) : (s.resetEntries l).failedTriples = s.failedTriples := rfl
@[simp] theorem resetEntries_heldFrames (l : List (Nat × Nat)) : (s.resetEntries l).heldFrames = s.heldFrames := rfl
@[simp] theorem resetEntries_behind (l : List (Nat × Nat)) : (s.resetEntries l).behind = s.behind := rfl
@[simp] theorem resetEntries_remoteOps (l : List (Nat × Nat)) : (s.resetEntries l).remoteOps = s.remoteOps := rfl
@[simp] theorem resetEntries_nextTag (l : List (Nat × Nat)) : (s.resetEntries l).nextTag = s.nextTag := rfl
@[simp] theorem resetEntries_mcastWaits (l : List (Nat × Nat)) : (s.resetEntries l).mcastWaits = s.mcastWaits := rfl
@[simp] theorem resetEntries_barriers (l : List (Nat × Nat)) : (s.resetEntries l).barriers = s.barriers := rfl
@[simp] theorem resetEntries_snapsSeen (l : List (Nat × Nat)) : (s.resetEntries l).snapsSeen = s.snapsSeen := rfl
@[simp] theorem resetEntries_lastTimeIdle (l : List (Nat × Nat)) : (s.resetEntries l).lastTimeIdle = s.lastTimeIdle := rfl
@[simp] theorem resetEntries_timeOffset (l : List (Nat × Nat)) : (s.resetEntries l).timeOffset = s.timeOffset := rfl
@[simp] theorem resetEntries_everLocked (l : List (Nat × Nat)) : (s.resetEntries l).everLocked = s.everLocked := rfl
@[simp] theorem resetEntries_slewLeft (l : List (Nat × Nat)) : (s.resetEntries l).slewLeft = s.slewLeft := rfl
@[simp] theorem resetEntries_slewAt (l : List (Nat × Nat)) : (s.resetEntries l).slewAt = s.slewAt := rfl
@[simp] theorem resetEntries_hostLink (l : List (Nat × Nat)) : (s.resetEntries l).hostLink = s.hostLink := rfl
@[simp] theorem resetEntries_heat (l : List (Nat × Nat)) : (s.resetEntries l).heat = s.heat := rfl
@[simp] theorem resetEntries_domains (l : List (Nat × Nat)) : (s.resetEntries l).domains = s.domains := rfl
@[simp] theorem resetEntries_hss (l : List (Nat × Nat)) : (s.resetEntries l).hss = s.hss := rfl
@[simp] theorem resetEntries_pke (l : List (Nat × Nat)) : (s.resetEntries l).pke = s.pke := rfl
@[simp] theorem resetEntries_recovery (l : List (Nat × Nat)) : (s.resetEntries l).recovery = s.recovery := rfl
@[simp] theorem resetEntries_nonceFresh (l : List (Nat × Nat)) : (s.resetEntries l).nonceFresh = s.nonceFresh := rfl
@[simp] theorem resetEntries_log (l : List (Nat × Nat)) : (s.resetEntries l).log = s.log := rfl
@[simp] theorem resetEntries_logNext (l : List (Nat × Nat)) : (s.resetEntries l).logNext = s.logNext := rfl
@[simp] theorem resetEntries_checkRun (l : List (Nat × Nat)) : (s.resetEntries l).checkRun = s.checkRun := rfl
@[simp] theorem resetEntries_watchdogAt (l : List (Nat × Nat)) : (s.resetEntries l).watchdogAt = s.watchdogAt := rfl
@[simp] theorem resetEntries_watchdogLimit (l : List (Nat × Nat)) : (s.resetEntries l).watchdogLimit = s.watchdogLimit := rfl
@[simp] theorem resetEntries_ticks (l : List (Nat × Nat)) : (s.resetEntries l).ticks = s.ticks := rfl
@[simp] theorem resetEntries_copying (l : List (Nat × Nat)) : (s.resetEntries l).copying = s.copying := rfl
@[simp] theorem resetEntries_captures (l : List (Nat × Nat)) : (s.resetEntries l).captures = s.captures := rfl
@[simp] theorem resetEntries_captureSeq (l : List (Nat × Nat)) : (s.resetEntries l).captureSeq = s.captureSeq := rfl
@[simp] theorem resetEntries_captureOrder (l : List (Nat × Nat)) : (s.resetEntries l).captureOrder = s.captureOrder := rfl
@[simp] theorem resetEntries_hostPowered (l : List (Nat × Nat)) : (s.resetEntries l).hostPowered = s.hostPowered := rfl
@[simp] theorem resetEntries_fieldPowered (l : List (Nat × Nat)) : (s.resetEntries l).fieldPowered = s.fieldPowered := rfl
@[simp] theorem resetEntries_thermalTripped (l : List (Nat × Nat)) : (s.resetEntries l).thermalTripped = s.thermalTripped := rfl
@[simp] theorem resetEntries_starts (l : List (Nat × Nat)) : (s.resetEntries l).starts = s.starts := rfl
@[simp] theorem resetEntries_restart (l : List (Nat × Nat)) : (s.resetEntries l).restart = s.restart := rfl
@[simp] theorem resetEntries_deferredRestart (l : List (Nat × Nat)) : (s.resetEntries l).deferredRestart = s.deferredRestart := rfl
@[simp] theorem resetEntries_inputBackSince (l : List (Nat × Nat)) : (s.resetEntries l).inputBackSince = s.inputBackSince := rfl
@[simp] theorem resetEntries_replayWrites (l : List (Nat × Nat)) : (s.resetEntries l).replayWrites = s.replayWrites := rfl
@[simp] theorem resetEntries_get_tile (l : List (Nat × Nat)) (n : Nat) : (s.resetEntries l).tile n = s.tile n := rfl
@[simp] theorem resetEntries_get_job (l : List (Nat × Nat)) (n : Nat) : (s.resetEntries l).job n = s.job n := rfl
@[simp] theorem resetEntries_get_context (l : List (Nat × Nat)) (n : Nat) : (s.resetEntries l).context n = s.context n := rfl
@[simp] theorem resetEntries_get_stream (l : List (Nat × Nat)) (n : Nat) : (s.resetEntries l).stream n = s.stream n := rfl
@[simp] theorem resetEntries_get_port (l : List (Nat × Nat)) (n : Nat) : (s.resetEntries l).port n = s.port n := rfl
@[simp] theorem resetEntries_get_sorter (l : List (Nat × Nat)) (n : Nat) : (s.resetEntries l).sorter n = s.sorter n := rfl
@[simp] theorem resetEntries_get_barrier (l : List (Nat × Nat)) (n : Nat) : (s.resetEntries l).barrier n = s.barrier n := rfl
@[simp] theorem resetEntries_get_blob (l : List (Nat × Nat)) (n m : Nat) : (s.resetEntries l).blob n m = s.blob n m := rfl

/-! ### setBlob -/

@[simp] theorem setBlob_pending (i j : Nat) (c : List Byte) : (s.setBlob i j c).pending = s.pending := rfl
@[simp] theorem setBlob_freeCount (i j : Nat) (c : List Byte) : (s.setBlob i j c).freeCount = s.freeCount := rfl
@[simp] theorem setBlob_out (i j : Nat) (c : List Byte) : (s.setBlob i j c).out = s.out := rfl
@[simp] theorem setBlob_grade (i j : Nat) (c : List Byte) : (s.setBlob i j c).grade = s.grade := rfl
@[simp] theorem setBlob_enabled (i j : Nat) (c : List Byte) : (s.setBlob i j c).enabled = s.enabled := rfl
@[simp] theorem setBlob_now (i j : Nat) (c : List Byte) : (s.setBlob i j c).now = s.now := rfl
@[simp] theorem setBlob_dict (i j : Nat) (c : List Byte) : (s.setBlob i j c).dict = s.dict := rfl
@[simp] theorem setBlob_contexts (i j : Nat) (c : List Byte) : (s.setBlob i j c).contexts = s.contexts := rfl
@[simp] theorem setBlob_pendingGroups (i j : Nat) (c : List Byte) : (s.setBlob i j c).pendingGroups = s.pendingGroups := rfl
@[simp] theorem setBlob_sessions (i j : Nat) (c : List Byte) : (s.setBlob i j c).sessions = s.sessions := rfl
@[simp] theorem setBlob_dtpDropped (i j : Nat) (c : List Byte) : (s.setBlob i j c).dtpDropped = s.dtpDropped := rfl
@[simp] theorem setBlob_restoreDefaults (i j : Nat) (c : List Byte) : (s.setBlob i j c).restoreDefaults = s.restoreDefaults := rfl
@[simp] theorem setBlob_unstored (i j : Nat) (c : List Byte) : (s.setBlob i j c).unstored = s.unstored := rfl
@[simp] theorem setBlob_journal (i j : Nat) (c : List Byte) : (s.setBlob i j c).journal = s.journal := rfl
@[simp] theorem setBlob_hostGate (i j : Nat) (c : List Byte) : (s.setBlob i j c).hostGate = s.hostGate := rfl
@[simp] theorem setBlob_fieldGate (i j : Nat) (c : List Byte) : (s.setBlob i j c).fieldGate = s.fieldGate := rfl
@[simp] theorem setBlob_heldAccesses (i j : Nat) (c : List Byte) : (s.setBlob i j c).heldAccesses = s.heldAccesses := rfl
@[simp] theorem setBlob_arriving (i j : Nat) (c : List Byte) : (s.setBlob i j c).arriving = s.arriving := rfl
@[simp] theorem setBlob_notices (i j : Nat) (c : List Byte) : (s.setBlob i j c).notices = s.notices := rfl
@[simp] theorem setBlob_fieldLog (i j : Nat) (c : List Byte) : (s.setBlob i j c).fieldLog = s.fieldLog := rfl
@[simp] theorem setBlob_flash (i j : Nat) (c : List Byte) : (s.setBlob i j c).flash = s.flash := rfl
@[simp] theorem setBlob_flashLength (i j : Nat) (c : List Byte) : (s.setBlob i j c).flashLength = s.flashLength := rfl
@[simp] theorem setBlob_sets (i j : Nat) (c : List Byte) : (s.setBlob i j c).sets = s.sets := rfl
@[simp] theorem setBlob_jobs (i j : Nat) (c : List Byte) : (s.setBlob i j c).jobs = s.jobs := rfl
@[simp] theorem setBlob_admitQueue (i j : Nat) (c : List Byte) : (s.setBlob i j c).admitQueue = s.admitQueue := rfl
@[simp] theorem setBlob_tiles (i j : Nat) (c : List Byte) : (s.setBlob i j c).tiles = s.tiles := rfl
@[simp] theorem setBlob_conversion (i j : Nat) (c : List Byte) : (s.setBlob i j c).conversion = s.conversion := rfl
@[simp] theorem setBlob_streams (i j : Nat) (c : List Byte) : (s.setBlob i j c).streams = s.streams := rfl
@[simp] theorem setBlob_openWaits (i j : Nat) (c : List Byte) : (s.setBlob i j c).openWaits = s.openWaits := rfl
@[simp] theorem setBlob_lateStreams (i j : Nat) (c : List Byte) : (s.setBlob i j c).lateStreams = s.lateStreams := rfl
@[simp] theorem setBlob_mcastCredits (i j : Nat) (c : List Byte) : (s.setBlob i j c).mcastCredits = s.mcastCredits := rfl
@[simp] theorem setBlob_mcastUsed (i j : Nat) (c : List Byte) : (s.setBlob i j c).mcastUsed = s.mcastUsed := rfl
@[simp] theorem setBlob_rateWindowAt (i j : Nat) (c : List Byte) : (s.setBlob i j c).rateWindowAt = s.rateWindowAt := rfl
@[simp] theorem setBlob_mem (i j : Nat) (c : List Byte) : (s.setBlob i j c).mem = s.mem := rfl
@[simp] theorem setBlob_memUndefined (i j : Nat) (c : List Byte) : (s.setBlob i j c).memUndefined = s.memUndefined := rfl
@[simp] theorem setBlob_wordPoison (i j : Nat) (c : List Byte) : (s.setBlob i j c).wordPoison = s.wordPoison := rfl
@[simp] theorem setBlob_wordEpoch (i j : Nat) (c : List Byte) : (s.setBlob i j c).wordEpoch = s.wordEpoch := rfl
@[simp] theorem setBlob_poisonTable (i j : Nat) (c : List Byte) : (s.setBlob i j c).poisonTable = s.poisonTable := rfl
@[simp] theorem setBlob_poisonEpoch (i j : Nat) (c : List Byte) : (s.setBlob i j c).poisonEpoch = s.poisonEpoch := rfl
@[simp] theorem setBlob_poisonWaits (i j : Nat) (c : List Byte) : (s.setBlob i j c).poisonWaits = s.poisonWaits := rfl
@[simp] theorem setBlob_sorters (i j : Nat) (c : List Byte) : (s.setBlob i j c).sorters = s.sorters := rfl
@[simp] theorem setBlob_stackWriteBacks (i j : Nat) (c : List Byte) : (s.setBlob i j c).stackWriteBacks = s.stackWriteBacks := rfl
@[simp] theorem setBlob_clearWalk (i j : Nat) (c : List Byte) : (s.setBlob i j c).clearWalk = s.clearWalk := rfl
@[simp] theorem setBlob_ports (i j : Nat) (c : List Byte) : (s.setBlob i j c).ports = s.ports := rfl
@[simp] theorem setBlob_seqNext (i j : Nat) (c : List Byte) : (s.setBlob i j c).seqNext = s.seqNext := rfl
@[simp] theorem setBlob_seqExpected (i j : Nat) (c : List Byte) : (s.setBlob i j c).seqExpected = s.seqExpected := rfl
@[simp] theorem setBlob_failedTriples (i j : Nat) (c : List Byte) : (s.setBlob i j c).failedTriples = s.failedTriples := rfl
@[simp] theorem setBlob_heldFrames (i j : Nat) (c : List Byte) : (s.setBlob i j c).heldFrames = s.heldFrames := rfl
@[simp] theorem setBlob_behind (i j : Nat) (c : List Byte) : (s.setBlob i j c).behind = s.behind := rfl
@[simp] theorem setBlob_remoteOps (i j : Nat) (c : List Byte) : (s.setBlob i j c).remoteOps = s.remoteOps := rfl
@[simp] theorem setBlob_nextTag (i j : Nat) (c : List Byte) : (s.setBlob i j c).nextTag = s.nextTag := rfl
@[simp] theorem setBlob_mcastWaits (i j : Nat) (c : List Byte) : (s.setBlob i j c).mcastWaits = s.mcastWaits := rfl
@[simp] theorem setBlob_barriers (i j : Nat) (c : List Byte) : (s.setBlob i j c).barriers = s.barriers := rfl
@[simp] theorem setBlob_snapsSeen (i j : Nat) (c : List Byte) : (s.setBlob i j c).snapsSeen = s.snapsSeen := rfl
@[simp] theorem setBlob_lastTimeIdle (i j : Nat) (c : List Byte) : (s.setBlob i j c).lastTimeIdle = s.lastTimeIdle := rfl
@[simp] theorem setBlob_timeOffset (i j : Nat) (c : List Byte) : (s.setBlob i j c).timeOffset = s.timeOffset := rfl
@[simp] theorem setBlob_everLocked (i j : Nat) (c : List Byte) : (s.setBlob i j c).everLocked = s.everLocked := rfl
@[simp] theorem setBlob_slewLeft (i j : Nat) (c : List Byte) : (s.setBlob i j c).slewLeft = s.slewLeft := rfl
@[simp] theorem setBlob_slewAt (i j : Nat) (c : List Byte) : (s.setBlob i j c).slewAt = s.slewAt := rfl
@[simp] theorem setBlob_hostLink (i j : Nat) (c : List Byte) : (s.setBlob i j c).hostLink = s.hostLink := rfl
@[simp] theorem setBlob_heat (i j : Nat) (c : List Byte) : (s.setBlob i j c).heat = s.heat := rfl
@[simp] theorem setBlob_domains (i j : Nat) (c : List Byte) : (s.setBlob i j c).domains = s.domains := rfl
@[simp] theorem setBlob_hss (i j : Nat) (c : List Byte) : (s.setBlob i j c).hss = s.hss := rfl
@[simp] theorem setBlob_pke (i j : Nat) (c : List Byte) : (s.setBlob i j c).pke = s.pke := rfl
@[simp] theorem setBlob_recovery (i j : Nat) (c : List Byte) : (s.setBlob i j c).recovery = s.recovery := rfl
@[simp] theorem setBlob_nonceFresh (i j : Nat) (c : List Byte) : (s.setBlob i j c).nonceFresh = s.nonceFresh := rfl
@[simp] theorem setBlob_log (i j : Nat) (c : List Byte) : (s.setBlob i j c).log = s.log := rfl
@[simp] theorem setBlob_logNext (i j : Nat) (c : List Byte) : (s.setBlob i j c).logNext = s.logNext := rfl
@[simp] theorem setBlob_checkRun (i j : Nat) (c : List Byte) : (s.setBlob i j c).checkRun = s.checkRun := rfl
@[simp] theorem setBlob_watchdogAt (i j : Nat) (c : List Byte) : (s.setBlob i j c).watchdogAt = s.watchdogAt := rfl
@[simp] theorem setBlob_watchdogLimit (i j : Nat) (c : List Byte) : (s.setBlob i j c).watchdogLimit = s.watchdogLimit := rfl
@[simp] theorem setBlob_ticks (i j : Nat) (c : List Byte) : (s.setBlob i j c).ticks = s.ticks := rfl
@[simp] theorem setBlob_copying (i j : Nat) (c : List Byte) : (s.setBlob i j c).copying = s.copying := rfl
@[simp] theorem setBlob_captures (i j : Nat) (c : List Byte) : (s.setBlob i j c).captures = s.captures := rfl
@[simp] theorem setBlob_captureSeq (i j : Nat) (c : List Byte) : (s.setBlob i j c).captureSeq = s.captureSeq := rfl
@[simp] theorem setBlob_captureOrder (i j : Nat) (c : List Byte) : (s.setBlob i j c).captureOrder = s.captureOrder := rfl
@[simp] theorem setBlob_hostPowered (i j : Nat) (c : List Byte) : (s.setBlob i j c).hostPowered = s.hostPowered := rfl
@[simp] theorem setBlob_fieldPowered (i j : Nat) (c : List Byte) : (s.setBlob i j c).fieldPowered = s.fieldPowered := rfl
@[simp] theorem setBlob_thermalTripped (i j : Nat) (c : List Byte) : (s.setBlob i j c).thermalTripped = s.thermalTripped := rfl
@[simp] theorem setBlob_starts (i j : Nat) (c : List Byte) : (s.setBlob i j c).starts = s.starts := rfl
@[simp] theorem setBlob_restart (i j : Nat) (c : List Byte) : (s.setBlob i j c).restart = s.restart := rfl
@[simp] theorem setBlob_deferredRestart (i j : Nat) (c : List Byte) : (s.setBlob i j c).deferredRestart = s.deferredRestart := rfl
@[simp] theorem setBlob_inputBackSince (i j : Nat) (c : List Byte) : (s.setBlob i j c).inputBackSince = s.inputBackSince := rfl
@[simp] theorem setBlob_replayWrites (i j : Nat) (c : List Byte) : (s.setBlob i j c).replayWrites = s.replayWrites := rfl
@[simp] theorem setBlob_get_tile (i j : Nat) (c : List Byte) (n : Nat) : (s.setBlob i j c).tile n = s.tile n := rfl
@[simp] theorem setBlob_get_job (i j : Nat) (c : List Byte) (n : Nat) : (s.setBlob i j c).job n = s.job n := rfl
@[simp] theorem setBlob_get_context (i j : Nat) (c : List Byte) (n : Nat) : (s.setBlob i j c).context n = s.context n := rfl
@[simp] theorem setBlob_get_stream (i j : Nat) (c : List Byte) (n : Nat) : (s.setBlob i j c).stream n = s.stream n := rfl
@[simp] theorem setBlob_get_port (i j : Nat) (c : List Byte) (n : Nat) : (s.setBlob i j c).port n = s.port n := rfl
@[simp] theorem setBlob_get_sorter (i j : Nat) (c : List Byte) (n : Nat) : (s.setBlob i j c).sorter n = s.sorter n := rfl
@[simp] theorem setBlob_get_barrier (i j : Nat) (c : List Byte) (n : Nat) : (s.setBlob i j c).barrier n = s.barrier n := rfl
@[simp] theorem setBlob_get_entry (i j : Nat) (c : List Byte) (n m : Nat) : (s.setBlob i j c).entry n m = s.entry n m := rfl

/-! ### emit -/

@[simp] theorem emit_pending (o : Output) : (s.emit o).pending = s.pending := rfl
@[simp] theorem emit_freeCount (o : Output) : (s.emit o).freeCount = s.freeCount := rfl
@[simp] theorem emit_grade (o : Output) : (s.emit o).grade = s.grade := rfl
@[simp] theorem emit_enabled (o : Output) : (s.emit o).enabled = s.enabled := rfl
@[simp] theorem emit_now (o : Output) : (s.emit o).now = s.now := rfl
@[simp] theorem emit_dict (o : Output) : (s.emit o).dict = s.dict := rfl
@[simp] theorem emit_blobs (o : Output) : (s.emit o).blobs = s.blobs := rfl
@[simp] theorem emit_contexts (o : Output) : (s.emit o).contexts = s.contexts := rfl
@[simp] theorem emit_pendingGroups (o : Output) : (s.emit o).pendingGroups = s.pendingGroups := rfl
@[simp] theorem emit_sessions (o : Output) : (s.emit o).sessions = s.sessions := rfl
@[simp] theorem emit_dtpDropped (o : Output) : (s.emit o).dtpDropped = s.dtpDropped := rfl
@[simp] theorem emit_restoreDefaults (o : Output) : (s.emit o).restoreDefaults = s.restoreDefaults := rfl
@[simp] theorem emit_unstored (o : Output) : (s.emit o).unstored = s.unstored := rfl
@[simp] theorem emit_journal (o : Output) : (s.emit o).journal = s.journal := rfl
@[simp] theorem emit_hostGate (o : Output) : (s.emit o).hostGate = s.hostGate := rfl
@[simp] theorem emit_fieldGate (o : Output) : (s.emit o).fieldGate = s.fieldGate := rfl
@[simp] theorem emit_heldAccesses (o : Output) : (s.emit o).heldAccesses = s.heldAccesses := rfl
@[simp] theorem emit_arriving (o : Output) : (s.emit o).arriving = s.arriving := rfl
@[simp] theorem emit_notices (o : Output) : (s.emit o).notices = s.notices := rfl
@[simp] theorem emit_fieldLog (o : Output) : (s.emit o).fieldLog = s.fieldLog := rfl
@[simp] theorem emit_flash (o : Output) : (s.emit o).flash = s.flash := rfl
@[simp] theorem emit_flashLength (o : Output) : (s.emit o).flashLength = s.flashLength := rfl
@[simp] theorem emit_sets (o : Output) : (s.emit o).sets = s.sets := rfl
@[simp] theorem emit_jobs (o : Output) : (s.emit o).jobs = s.jobs := rfl
@[simp] theorem emit_admitQueue (o : Output) : (s.emit o).admitQueue = s.admitQueue := rfl
@[simp] theorem emit_tiles (o : Output) : (s.emit o).tiles = s.tiles := rfl
@[simp] theorem emit_conversion (o : Output) : (s.emit o).conversion = s.conversion := rfl
@[simp] theorem emit_streams (o : Output) : (s.emit o).streams = s.streams := rfl
@[simp] theorem emit_openWaits (o : Output) : (s.emit o).openWaits = s.openWaits := rfl
@[simp] theorem emit_lateStreams (o : Output) : (s.emit o).lateStreams = s.lateStreams := rfl
@[simp] theorem emit_mcastCredits (o : Output) : (s.emit o).mcastCredits = s.mcastCredits := rfl
@[simp] theorem emit_mcastUsed (o : Output) : (s.emit o).mcastUsed = s.mcastUsed := rfl
@[simp] theorem emit_rateWindowAt (o : Output) : (s.emit o).rateWindowAt = s.rateWindowAt := rfl
@[simp] theorem emit_mem (o : Output) : (s.emit o).mem = s.mem := rfl
@[simp] theorem emit_memUndefined (o : Output) : (s.emit o).memUndefined = s.memUndefined := rfl
@[simp] theorem emit_wordPoison (o : Output) : (s.emit o).wordPoison = s.wordPoison := rfl
@[simp] theorem emit_wordEpoch (o : Output) : (s.emit o).wordEpoch = s.wordEpoch := rfl
@[simp] theorem emit_poisonTable (o : Output) : (s.emit o).poisonTable = s.poisonTable := rfl
@[simp] theorem emit_poisonEpoch (o : Output) : (s.emit o).poisonEpoch = s.poisonEpoch := rfl
@[simp] theorem emit_poisonWaits (o : Output) : (s.emit o).poisonWaits = s.poisonWaits := rfl
@[simp] theorem emit_sorters (o : Output) : (s.emit o).sorters = s.sorters := rfl
@[simp] theorem emit_stackWriteBacks (o : Output) : (s.emit o).stackWriteBacks = s.stackWriteBacks := rfl
@[simp] theorem emit_clearWalk (o : Output) : (s.emit o).clearWalk = s.clearWalk := rfl
@[simp] theorem emit_ports (o : Output) : (s.emit o).ports = s.ports := rfl
@[simp] theorem emit_seqNext (o : Output) : (s.emit o).seqNext = s.seqNext := rfl
@[simp] theorem emit_seqExpected (o : Output) : (s.emit o).seqExpected = s.seqExpected := rfl
@[simp] theorem emit_failedTriples (o : Output) : (s.emit o).failedTriples = s.failedTriples := rfl
@[simp] theorem emit_heldFrames (o : Output) : (s.emit o).heldFrames = s.heldFrames := rfl
@[simp] theorem emit_behind (o : Output) : (s.emit o).behind = s.behind := rfl
@[simp] theorem emit_remoteOps (o : Output) : (s.emit o).remoteOps = s.remoteOps := rfl
@[simp] theorem emit_nextTag (o : Output) : (s.emit o).nextTag = s.nextTag := rfl
@[simp] theorem emit_mcastWaits (o : Output) : (s.emit o).mcastWaits = s.mcastWaits := rfl
@[simp] theorem emit_barriers (o : Output) : (s.emit o).barriers = s.barriers := rfl
@[simp] theorem emit_snapsSeen (o : Output) : (s.emit o).snapsSeen = s.snapsSeen := rfl
@[simp] theorem emit_lastTimeIdle (o : Output) : (s.emit o).lastTimeIdle = s.lastTimeIdle := rfl
@[simp] theorem emit_timeOffset (o : Output) : (s.emit o).timeOffset = s.timeOffset := rfl
@[simp] theorem emit_everLocked (o : Output) : (s.emit o).everLocked = s.everLocked := rfl
@[simp] theorem emit_slewLeft (o : Output) : (s.emit o).slewLeft = s.slewLeft := rfl
@[simp] theorem emit_slewAt (o : Output) : (s.emit o).slewAt = s.slewAt := rfl
@[simp] theorem emit_hostLink (o : Output) : (s.emit o).hostLink = s.hostLink := rfl
@[simp] theorem emit_heat (o : Output) : (s.emit o).heat = s.heat := rfl
@[simp] theorem emit_domains (o : Output) : (s.emit o).domains = s.domains := rfl
@[simp] theorem emit_hss (o : Output) : (s.emit o).hss = s.hss := rfl
@[simp] theorem emit_pke (o : Output) : (s.emit o).pke = s.pke := rfl
@[simp] theorem emit_recovery (o : Output) : (s.emit o).recovery = s.recovery := rfl
@[simp] theorem emit_nonceFresh (o : Output) : (s.emit o).nonceFresh = s.nonceFresh := rfl
@[simp] theorem emit_log (o : Output) : (s.emit o).log = s.log := rfl
@[simp] theorem emit_logNext (o : Output) : (s.emit o).logNext = s.logNext := rfl
@[simp] theorem emit_checkRun (o : Output) : (s.emit o).checkRun = s.checkRun := rfl
@[simp] theorem emit_watchdogAt (o : Output) : (s.emit o).watchdogAt = s.watchdogAt := rfl
@[simp] theorem emit_watchdogLimit (o : Output) : (s.emit o).watchdogLimit = s.watchdogLimit := rfl
@[simp] theorem emit_ticks (o : Output) : (s.emit o).ticks = s.ticks := rfl
@[simp] theorem emit_copying (o : Output) : (s.emit o).copying = s.copying := rfl
@[simp] theorem emit_captures (o : Output) : (s.emit o).captures = s.captures := rfl
@[simp] theorem emit_captureSeq (o : Output) : (s.emit o).captureSeq = s.captureSeq := rfl
@[simp] theorem emit_captureOrder (o : Output) : (s.emit o).captureOrder = s.captureOrder := rfl
@[simp] theorem emit_hostPowered (o : Output) : (s.emit o).hostPowered = s.hostPowered := rfl
@[simp] theorem emit_fieldPowered (o : Output) : (s.emit o).fieldPowered = s.fieldPowered := rfl
@[simp] theorem emit_thermalTripped (o : Output) : (s.emit o).thermalTripped = s.thermalTripped := rfl
@[simp] theorem emit_starts (o : Output) : (s.emit o).starts = s.starts := rfl
@[simp] theorem emit_restart (o : Output) : (s.emit o).restart = s.restart := rfl
@[simp] theorem emit_deferredRestart (o : Output) : (s.emit o).deferredRestart = s.deferredRestart := rfl
@[simp] theorem emit_inputBackSince (o : Output) : (s.emit o).inputBackSince = s.inputBackSince := rfl
@[simp] theorem emit_replayWrites (o : Output) : (s.emit o).replayWrites = s.replayWrites := rfl
@[simp] theorem emit_get_tile (o : Output) (n : Nat) : (s.emit o).tile n = s.tile n := rfl
@[simp] theorem emit_get_job (o : Output) (n : Nat) : (s.emit o).job n = s.job n := rfl
@[simp] theorem emit_get_context (o : Output) (n : Nat) : (s.emit o).context n = s.context n := rfl
@[simp] theorem emit_get_stream (o : Output) (n : Nat) : (s.emit o).stream n = s.stream n := rfl
@[simp] theorem emit_get_port (o : Output) (n : Nat) : (s.emit o).port n = s.port n := rfl
@[simp] theorem emit_get_sorter (o : Output) (n : Nat) : (s.emit o).sorter n = s.sorter n := rfl
@[simp] theorem emit_get_barrier (o : Output) (n : Nat) : (s.emit o).barrier n = s.barrier n := rfl
@[simp] theorem emit_get_entry (o : Output) (n m : Nat) : (s.emit o).entry n m = s.entry n m := rfl
@[simp] theorem emit_get_blob (o : Output) (n m : Nat) : (s.emit o).blob n m = s.blob n m := rfl

/-! ### useFree -/

@[simp] theorem useFree_pending : (s.useFree).pending = s.pending := rfl
@[simp] theorem useFree_out : (s.useFree).out = s.out := rfl
@[simp] theorem useFree_grade : (s.useFree).grade = s.grade := rfl
@[simp] theorem useFree_enabled : (s.useFree).enabled = s.enabled := rfl
@[simp] theorem useFree_now : (s.useFree).now = s.now := rfl
@[simp] theorem useFree_dict : (s.useFree).dict = s.dict := rfl
@[simp] theorem useFree_blobs : (s.useFree).blobs = s.blobs := rfl
@[simp] theorem useFree_contexts : (s.useFree).contexts = s.contexts := rfl
@[simp] theorem useFree_pendingGroups : (s.useFree).pendingGroups = s.pendingGroups := rfl
@[simp] theorem useFree_sessions : (s.useFree).sessions = s.sessions := rfl
@[simp] theorem useFree_dtpDropped : (s.useFree).dtpDropped = s.dtpDropped := rfl
@[simp] theorem useFree_restoreDefaults : (s.useFree).restoreDefaults = s.restoreDefaults := rfl
@[simp] theorem useFree_unstored : (s.useFree).unstored = s.unstored := rfl
@[simp] theorem useFree_journal : (s.useFree).journal = s.journal := rfl
@[simp] theorem useFree_hostGate : (s.useFree).hostGate = s.hostGate := rfl
@[simp] theorem useFree_fieldGate : (s.useFree).fieldGate = s.fieldGate := rfl
@[simp] theorem useFree_heldAccesses : (s.useFree).heldAccesses = s.heldAccesses := rfl
@[simp] theorem useFree_arriving : (s.useFree).arriving = s.arriving := rfl
@[simp] theorem useFree_notices : (s.useFree).notices = s.notices := rfl
@[simp] theorem useFree_fieldLog : (s.useFree).fieldLog = s.fieldLog := rfl
@[simp] theorem useFree_flash : (s.useFree).flash = s.flash := rfl
@[simp] theorem useFree_flashLength : (s.useFree).flashLength = s.flashLength := rfl
@[simp] theorem useFree_sets : (s.useFree).sets = s.sets := rfl
@[simp] theorem useFree_jobs : (s.useFree).jobs = s.jobs := rfl
@[simp] theorem useFree_admitQueue : (s.useFree).admitQueue = s.admitQueue := rfl
@[simp] theorem useFree_tiles : (s.useFree).tiles = s.tiles := rfl
@[simp] theorem useFree_conversion : (s.useFree).conversion = s.conversion := rfl
@[simp] theorem useFree_streams : (s.useFree).streams = s.streams := rfl
@[simp] theorem useFree_openWaits : (s.useFree).openWaits = s.openWaits := rfl
@[simp] theorem useFree_lateStreams : (s.useFree).lateStreams = s.lateStreams := rfl
@[simp] theorem useFree_mcastCredits : (s.useFree).mcastCredits = s.mcastCredits := rfl
@[simp] theorem useFree_mcastUsed : (s.useFree).mcastUsed = s.mcastUsed := rfl
@[simp] theorem useFree_rateWindowAt : (s.useFree).rateWindowAt = s.rateWindowAt := rfl
@[simp] theorem useFree_mem : (s.useFree).mem = s.mem := rfl
@[simp] theorem useFree_memUndefined : (s.useFree).memUndefined = s.memUndefined := rfl
@[simp] theorem useFree_wordPoison : (s.useFree).wordPoison = s.wordPoison := rfl
@[simp] theorem useFree_wordEpoch : (s.useFree).wordEpoch = s.wordEpoch := rfl
@[simp] theorem useFree_poisonTable : (s.useFree).poisonTable = s.poisonTable := rfl
@[simp] theorem useFree_poisonEpoch : (s.useFree).poisonEpoch = s.poisonEpoch := rfl
@[simp] theorem useFree_poisonWaits : (s.useFree).poisonWaits = s.poisonWaits := rfl
@[simp] theorem useFree_sorters : (s.useFree).sorters = s.sorters := rfl
@[simp] theorem useFree_stackWriteBacks : (s.useFree).stackWriteBacks = s.stackWriteBacks := rfl
@[simp] theorem useFree_clearWalk : (s.useFree).clearWalk = s.clearWalk := rfl
@[simp] theorem useFree_ports : (s.useFree).ports = s.ports := rfl
@[simp] theorem useFree_seqNext : (s.useFree).seqNext = s.seqNext := rfl
@[simp] theorem useFree_seqExpected : (s.useFree).seqExpected = s.seqExpected := rfl
@[simp] theorem useFree_failedTriples : (s.useFree).failedTriples = s.failedTriples := rfl
@[simp] theorem useFree_heldFrames : (s.useFree).heldFrames = s.heldFrames := rfl
@[simp] theorem useFree_behind : (s.useFree).behind = s.behind := rfl
@[simp] theorem useFree_remoteOps : (s.useFree).remoteOps = s.remoteOps := rfl
@[simp] theorem useFree_nextTag : (s.useFree).nextTag = s.nextTag := rfl
@[simp] theorem useFree_mcastWaits : (s.useFree).mcastWaits = s.mcastWaits := rfl
@[simp] theorem useFree_barriers : (s.useFree).barriers = s.barriers := rfl
@[simp] theorem useFree_snapsSeen : (s.useFree).snapsSeen = s.snapsSeen := rfl
@[simp] theorem useFree_lastTimeIdle : (s.useFree).lastTimeIdle = s.lastTimeIdle := rfl
@[simp] theorem useFree_timeOffset : (s.useFree).timeOffset = s.timeOffset := rfl
@[simp] theorem useFree_everLocked : (s.useFree).everLocked = s.everLocked := rfl
@[simp] theorem useFree_slewLeft : (s.useFree).slewLeft = s.slewLeft := rfl
@[simp] theorem useFree_slewAt : (s.useFree).slewAt = s.slewAt := rfl
@[simp] theorem useFree_hostLink : (s.useFree).hostLink = s.hostLink := rfl
@[simp] theorem useFree_heat : (s.useFree).heat = s.heat := rfl
@[simp] theorem useFree_domains : (s.useFree).domains = s.domains := rfl
@[simp] theorem useFree_hss : (s.useFree).hss = s.hss := rfl
@[simp] theorem useFree_pke : (s.useFree).pke = s.pke := rfl
@[simp] theorem useFree_recovery : (s.useFree).recovery = s.recovery := rfl
@[simp] theorem useFree_nonceFresh : (s.useFree).nonceFresh = s.nonceFresh := rfl
@[simp] theorem useFree_log : (s.useFree).log = s.log := rfl
@[simp] theorem useFree_logNext : (s.useFree).logNext = s.logNext := rfl
@[simp] theorem useFree_checkRun : (s.useFree).checkRun = s.checkRun := rfl
@[simp] theorem useFree_watchdogAt : (s.useFree).watchdogAt = s.watchdogAt := rfl
@[simp] theorem useFree_watchdogLimit : (s.useFree).watchdogLimit = s.watchdogLimit := rfl
@[simp] theorem useFree_ticks : (s.useFree).ticks = s.ticks := rfl
@[simp] theorem useFree_copying : (s.useFree).copying = s.copying := rfl
@[simp] theorem useFree_captures : (s.useFree).captures = s.captures := rfl
@[simp] theorem useFree_captureSeq : (s.useFree).captureSeq = s.captureSeq := rfl
@[simp] theorem useFree_captureOrder : (s.useFree).captureOrder = s.captureOrder := rfl
@[simp] theorem useFree_hostPowered : (s.useFree).hostPowered = s.hostPowered := rfl
@[simp] theorem useFree_fieldPowered : (s.useFree).fieldPowered = s.fieldPowered := rfl
@[simp] theorem useFree_thermalTripped : (s.useFree).thermalTripped = s.thermalTripped := rfl
@[simp] theorem useFree_starts : (s.useFree).starts = s.starts := rfl
@[simp] theorem useFree_restart : (s.useFree).restart = s.restart := rfl
@[simp] theorem useFree_deferredRestart : (s.useFree).deferredRestart = s.deferredRestart := rfl
@[simp] theorem useFree_inputBackSince : (s.useFree).inputBackSince = s.inputBackSince := rfl
@[simp] theorem useFree_replayWrites : (s.useFree).replayWrites = s.replayWrites := rfl
@[simp] theorem useFree_get_tile (n : Nat) : (s.useFree).tile n = s.tile n := rfl
@[simp] theorem useFree_get_job (n : Nat) : (s.useFree).job n = s.job n := rfl
@[simp] theorem useFree_get_context (n : Nat) : (s.useFree).context n = s.context n := rfl
@[simp] theorem useFree_get_stream (n : Nat) : (s.useFree).stream n = s.stream n := rfl
@[simp] theorem useFree_get_port (n : Nat) : (s.useFree).port n = s.port n := rfl
@[simp] theorem useFree_get_sorter (n : Nat) : (s.useFree).sorter n = s.sorter n := rfl
@[simp] theorem useFree_get_barrier (n : Nat) : (s.useFree).barrier n = s.barrier n := rfl
@[simp] theorem useFree_get_entry (n m : Nat) : (s.useFree).entry n m = s.entry n m := rfl
@[simp] theorem useFree_get_blob (n m : Nat) : (s.useFree).blob n m = s.blob n m := rfl

/-! ### What an update writes -/

@[simp] theorem tile_setTile_same (k : Nat) (x : Tile) : (s.setTile k x).tile k = x := by simp [State.tile, State.setTile]
@[simp] theorem tile_setTile_ne (k : Nat) (x : Tile) (n : Nat) (h : n ≠ k) : (s.setTile k x).tile n = s.tile n := by simp [State.tile, State.setTile, h]
@[simp] theorem updTile_eq (k : Nat) (f : Tile → Tile) : s.updTile k f = s.setTile k (f (s.tile k)) := rfl
@[simp] theorem job_setJob_same (k : Nat) (x : Job) : (s.setJob k x).job k = x := by simp [State.job, State.setJob]
@[simp] theorem job_setJob_ne (k : Nat) (x : Job) (n : Nat) (h : n ≠ k) : (s.setJob k x).job n = s.job n := by simp [State.job, State.setJob, h]
@[simp] theorem updJob_eq (k : Nat) (f : Job → Job) : s.updJob k f = s.setJob k (f (s.job k)) := rfl
@[simp] theorem context_setContext_same (k : Nat) (x : Context) : (s.setContext k x).context k = x := by simp [State.context, State.setContext]
@[simp] theorem context_setContext_ne (k : Nat) (x : Context) (n : Nat) (h : n ≠ k) : (s.setContext k x).context n = s.context n := by simp [State.context, State.setContext, h]
@[simp] theorem updContext_eq (k : Nat) (f : Context → Context) : s.updContext k f = s.setContext k (f (s.context k)) := rfl
@[simp] theorem stream_setStream_same (k : Nat) (x : Stream) : (s.setStream k x).stream k = x := by simp [State.stream, State.setStream]
@[simp] theorem stream_setStream_ne (k : Nat) (x : Stream) (n : Nat) (h : n ≠ k) : (s.setStream k x).stream n = s.stream n := by simp [State.stream, State.setStream, h]
@[simp] theorem updStream_eq (k : Nat) (f : Stream → Stream) : s.updStream k f = s.setStream k (f (s.stream k)) := rfl
@[simp] theorem port_setPort_same (k : Nat) (x : Port) : (s.setPort k x).port k = x := by simp [State.port, State.setPort]
@[simp] theorem port_setPort_ne (k : Nat) (x : Port) (n : Nat) (h : n ≠ k) : (s.setPort k x).port n = s.port n := by simp [State.port, State.setPort, h]
@[simp] theorem updPort_eq (k : Nat) (f : Port → Port) : s.updPort k f = s.setPort k (f (s.port k)) := rfl
@[simp] theorem sorter_setSorter_same (k : Nat) (x : Sorter) : (s.setSorter k x).sorter k = x := by simp [State.sorter, State.setSorter]
@[simp] theorem sorter_setSorter_ne (k : Nat) (x : Sorter) (n : Nat) (h : n ≠ k) : (s.setSorter k x).sorter n = s.sorter n := by simp [State.sorter, State.setSorter, h]
@[simp] theorem barrier_setBarrier_same (k : Nat) (x : Barrier) : (s.setBarrier k x).barrier k = x := by simp [State.barrier, State.setBarrier]
@[simp] theorem barrier_setBarrier_ne (k : Nat) (x : Barrier) (n : Nat) (h : n ≠ k) : (s.setBarrier k x).barrier n = s.barrier n := by simp [State.barrier, State.setBarrier, h]

theorem entryKey_inj {i j k l : Nat} (hj : j < 256) (hl : l < 256) : entryKey i j = entryKey k l ↔ i = k ∧ j = l := by
  simp only [entryKey]; omega

@[simp] theorem entry_setEntry_same (i j v : Nat) : (s.setEntry i j v).entry i j = v := by simp [State.entry, State.setEntry]

theorem entry_setEntry_ne (i j v k l : Nat) (h : entryKey k l ≠ entryKey i j) : (s.setEntry i j v).entry k l = s.entry k l := by
  simp [State.entry, State.setEntry, h]

/-- An entry of another index keeps its value. -/
@[simp] theorem entry_setEntry_index (i j v k l : Nat) (hj : j < 256) (hl : l < 256) (h : k ≠ i) : (s.setEntry i j v).entry k l = s.entry k l :=
  entry_setEntry_ne s i j v k l fun e => h ((entryKey_inj hl hj).1 e).1

/-- Another entry of the same index keeps its value. -/
@[simp] theorem entry_setEntry_sub (i j v l : Nat) (h : l ≠ j) : (s.setEntry i j v).entry i l = s.entry i l :=
  entry_setEntry_ne s i j v i l fun e => h (by simp only [entryKey] at e; omega)

theorem bump_eq (i j n : Nat) : s.bump i j n = s.setEntry i j (satAdd (entryMax i j) (s.entry i j) n) := rfl

@[simp] theorem emit_out (o : Output) : (s.emit o).out = s.out ++ [o] := rfl

@[simp] theorem useFree_freeCount : s.useFree.freeCount = s.freeCount + 1 := rfl

@[simp] theorem poweredDomain_setDomain (d : Nat) (x : Domain) (n : Nat) : (s.setDomain d x).poweredDomain n = s.poweredDomain n := rfl

theorem domain_setDomain_ne (d : Nat) (x : Domain) (n : Nat) (h : n ≠ d) : (s.setDomain d x).domain n = s.domain n := by
  have e : Tab.get (s.setDomain d x).domains .on n = Tab.get s.domains .on n := by simp [State.setDomain, h]
  have f : (s.setDomain d x).tileEnabled n = s.tileEnabled n := rfl
  simp only [State.domain, e, f, poweredDomain_setDomain, setDomain_get_entry]

/-- A domain whose power is off reads OFF. -/
theorem domain_setDomain_off (d : Nat) (h : 64 ≤ d) : (s.setDomain d .off).domain d = .off := by
  have : ¬ d < 64 := by omega
  simp [State.domain, State.setDomain, this]

end Sys2Proof.Laws
end

