-- ==== Sys2Proof/Laws/Access.lean ====
section
/-! SUPPORT. What an access to the dictionary does: one lemma per shared operation (R29-R47, R437). -/

namespace Sys2Proof.Laws

open Sys2Proof.Machine

variable {s : State} {ctx i sub v : Nat} {r : EntryRow} {op : State → Nat × State} {take : State → Nat × State}

/-- The parts of a served context. -/
theorem served_parts (h : Safety.served s ctx = true) :
    s.ready = true ∧ s.recovery = false ∧ ctx < 16 ∧ s.bar0Insecure ctx = false ∧ s.hostGate.down = false ∧ s.awaits ctx = false := by
  simpa [Safety.served, and_assoc] using h

/-- The parts of a direct context. -/
theorem direct_parts (h : Safety.direct s ctx = true) : Safety.served s ctx = true ∧ (s.context ctx).groupState ≠ 1 := by
  simpa [Safety.direct] using h

/-- A host-side context is neither a DTP session's nor a fabric node's. -/
theorem small_context (h : ctx < 16) : isDtp ctx = false ∧ isFabric ctx = false := by
  constructor
  · simp [isDtp]; omega
  · simp [isFabric]; omega

/-- The host-side contexts always stand. -/
theorem hasContext_small (h : ctx < 16) : s.hasContext ctx = true := by
  simp [State.hasContext, (small_context h).2]

/-- Steps 1 to 4 of R437 pass. -/
theorem accessRefusal_served (w : Bool) (h : Safety.served s ctx = true) (hl : lookupEntry i sub = some r)
    (ht : ((tileOf i).any fun t => !s.tileEnabled t) = false) : s.accessRefusal ctx i sub w = none := by
  obtain ⟨hr, -, hx, -⟩ := served_parts h
  obtain ⟨hd, hf⟩ := small_context hx
  simp [State.accessRefusal, hr, hd, hf, hl, ht]

/-- The state of the module and the gate stand in the way of nothing; the engine's claim does for its own entries alone (R381). -/
theorem stateRefusal_served (w : Bool) (h : Safety.served s ctx = true) (h0 : i ≠ 0x9200) (h1 : i ≠ 0x9210) : s.stateRefusal ctx i sub w = none := by
  obtain ⟨hr, hc, hx, -, hg, -⟩ := served_parts h
  simp [State.stateRefusal, State.unclaimed, State.unserved, State.gateConflict, State.gateLost, hr, hc, hg, (small_context hx).1, h0, h1]

/-- A write of an entry that passes R437 does what the entry's write does, and its outcome is recorded. -/
theorem writeEntry_served (h : Safety.served s ctx = true) (hl : lookupEntry i sub = some r)
    (ht : ((tileOf i).any fun t => !s.tileEnabled t) = false) :
    let x := s.decideWrite r ctx i sub v (State.takeWrite (slotWrite ctx i sub v) i sub v op)
    s.writeEntry ctx i sub v op = x.2.record ctx i sub x.1 := by
  have ha := accessRefusal_served true h hl ht
  obtain ⟨hr, -, -, hi, -, hw⟩ := served_parts h
  have hw' : s.awaits (slotWrite ctx i sub v).ctx = false := hw
  simp [State.writeEntry, State.inTurn, hw', State.served, State.bar0Paused, hr, hi, State.writeResult, ha, hl]

/-- A write of a WO command entry in range, with its unit stopped where it must be, is taken. -/
theorem decideWrite_command (h : Safety.direct s ctx = true) (hc : r.ty.isContent = false) (ha : r.acc = .wo) (hi : i ≠ 0x9030 ∧ i ≠ 0x1038)
    (hv : s.rangeRefusal r i sub v = none) (hst : s.stateRefusal ctx i sub true = none) (hlocal : isContextLocal i sub = false)
    (hs : r.cls = .stopped → s.unitStopped i sub = true) : s.decideWrite r ctx i sub v take = take s := by
  obtain ⟨-, hg⟩ := direct_parts h
  by_cases hc' : r.cls = .stopped
  · simp [State.decideWrite, hc, ha, hi, hv, hst, hlocal, hg, hs hc']
  · simp [State.decideWrite, hc, ha, hi, hv, hst, hlocal, hg, hc']

/-- A write of an RW entry that takes effect at once, in range, with its unit stopped where it must be, is taken. -/
theorem decideWrite_value (h : Safety.direct s ctx = true) (hc : r.ty.isContent = false) (ha : r.acc = .rw ∨ r.acc = .rws) (hi : i ≠ 0x9030 ∧ i ≠ 0x1038)
    (hv : s.rangeRefusal r i sub v = none) (hst : s.stateRefusal ctx i sub true = none) (hlocal : isContextLocal i sub = false)
    (hcls : r.cls ≠ .epoch) (hs : r.cls = .stopped → s.unitStopped i sub = true) : s.decideWrite r ctx i sub v take = take s := by
  obtain ⟨-, hg⟩ := direct_parts h
  have hro : r.acc ≠ .ro ∧ r.acc ≠ .wo := by rcases ha with h | h <;> simp [h]
  by_cases hc' : r.cls = .stopped
  · simp [State.decideWrite, hc, hro, hi, hv, hst, hlocal, hg, hs hc']
    exact fun e => absurd e hcls
  · simp [State.decideWrite, hc, hro, hi, hv, hst, hlocal, hg, hc', hcls]

/-- A write of a context-local entry is taken: it acts in its own context (R36). -/
theorem decideWrite_local (h : Safety.served s ctx = true) (hc : r.ty.isContent = false) (ha : r.acc ≠ .ro) (hi : i ≠ 0x9030)
    (hv : s.rangeRefusal r i sub v = none) (hst : s.stateRefusal ctx i sub true = none) (hlocal : isContextLocal i sub = true)
    (hopen : i = 0x1038 → sub = 4 → (s.context ctx).groupState ≠ 1) : s.decideWrite r ctx i sub v take = take s := by
  obtain ⟨-, -, hx, -⟩ := served_parts h
  have hc' : s.hasContext ctx = true := hasContext_small hx
  have hf : s.contextFull ctx = false := by simp [State.contextFull, hc']
  have ho : ¬(i = 0x1038 ∧ sub = 4 ∧ (s.context ctx).groupState = 1) := fun x => hopen x.1 x.2.1 x.2.2
  simp [State.decideWrite, hc, ha, hi, hv, hst, hlocal, ho, State.localOrFull, hf]

/-- A taken write of an entry of this side that does not persist does what the entry's write does. -/
theorem takeWrite_here (a : EntryAccess) (hx : crosses a.ctx i = false) (hp : isPersistent i sub = false) : State.takeWrite a i sub v op s = op s := by
  simp [State.takeWrite, hx, State.storePersistent, hp]

/-- A taken write of an entry that Fumarole serves leaves for it (R53, R59). -/
theorem takeWrite_crosses (a : EntryAccess) (hx : crosses a.ctx i = true) :
    State.takeWrite a i sub v op s = (WAITING, s.askField { a with value := some v }) := by simp [State.takeWrite, hx]

/-- The record of an outcome changes its own context alone, unless it counts a conflict (R35, R46). -/
theorem record_eq (hc : ctx < 16) (code : Nat) (hk : code ≠ STATE_CONFLICT) (hw : code ≠ WAITING) :
    s.record ctx i sub code = s.setContext ctx
      { s.context ctx with lastStatus := code, lastEntry := entryKey i sub, lastAccess := s.now,
                           errorCount := if isRefusal code then satAdd 0xFFFFFFFF (s.context ctx).errorCount 1 else (s.context ctx).errorCount } := by
  simp [State.record, State.countConflict, hk, hw, State.reachesContext, hasContext_small hc]

end Sys2Proof.Laws
end

