-- ==== Sys2Proof/Laws/Bundle.lean ====
section
/-! SUPPORT. What presenting and closing a bundle does: a slot joins it, a C slot that nothing holds or fails issues it (R195, R208, R211). -/

namespace Sys2Proof.Laws

open Sys2Proof.Machine

variable {s : State} {t slot : Nat} {w c : SlotWork} {act : State → State}

/-- The first slot of an open bundle joins it. -/
theorem slot_open (h : Safety.bundleOpen s t) : s.slot t slot w = s.updTile t fun x => x.present slot w := by
  obtain ⟨-, hm, hp, -⟩ := h
  simp [State.slot, hm, hp]

/-- A tile that may not issue presents nothing. -/
theorem slot_shut (h : s.mayIssue t = false) : s.slot t slot w = s := by simp [State.slot, h]

/-- What the tile holds after its slot was presented. -/
@[simp] theorem tile_updTile_same (f : Tile → Tile) : (s.updTile t f).tile t = f (s.tile t) := by
  simp [State.updTile, State.tile, State.setTile]

@[simp] theorem tile_updTile_ne (f : Tile → Tile) {u : Nat} (h : u ≠ t) : (s.updTile t f).tile u = s.tile u := by
  simp [State.updTile, State.tile, State.setTile, h]

/-- With no miss pending there is nothing to report. -/
@[simp] theorem reportMisses_none (l : List Nat) (h : (s.tile t).missAt = []) : s.reportMisses t l = s.updTile t fun x => { x with missAt := [] } := by
  simp [State.reportMisses, h, State.updTile]

/-- A tile written with what it holds stays as it is but for its place in the table: reading it gives the same. -/
theorem updTile_missAt (h : (s.tile t).missAt = []) : (s.updTile t fun x => { x with missAt := [] }).tile t = s.tile t := by
  rw [tile_updTile_same]
  generalize s.tile t = y at h
  cases y
  simp_all

/-- A bundle that no slot holds or fails issues: what its slots write takes place after the C slot's own effect, and the tile advances (R195, R208). -/
theorem closeBundle_issues (hm : s.mayIssue t = true) (hf : (s.tile t).freeze = 0) (hc : (s.tile t).cached ((s.tile t).nextBundle / 4) = true)
    (hh : (s.tile t).holds = []) (hs : (s.tile t).slotFault = none) (hmiss : (s.tile t).missAt = [])
    (ch : c.hold = none) (cf : c.fault = none) :
    s.closeBundle t c act =
      (((s.tile t).deferred ++ c.writes).foldl (fun s d => s.applyDeferred t d) (act (s.updTile t fun x => { x with missAt := [] }))).advance t := by
  have e1 : ((s.tile t).present slotC c).freeze = 0 := hf
  have e2 : ((s.tile t).present slotC c).cached (((s.tile t).present slotC c).nextBundle / 4) = true := hc
  have e3 : ((s.tile t).present slotC c).holds = [] := by simp [Tile.present, hh, ch]
  have e4 : ((s.tile t).present slotC c).slotFault = none := by simp [Tile.present, hs, cf, firstFault]
  have e6 : ((s.tile t).present slotC c).deferred = (s.tile t).deferred ++ c.writes := rfl
  unfold State.closeBundle
  generalize (s.tile t).present slotC c = y at e1 e2 e3 e4 e6
  simp [hm, e1, e2, e3, e4, e6, holdCauseOf, hmiss]

/-- The advance touches its tile alone. -/
@[simp] theorem advance_mem : (s.advance t).mem = s.mem := rfl
@[simp] theorem advance_jobs : (s.advance t).jobs = s.jobs := rfl
@[simp] theorem advance_dict : (s.advance t).dict = s.dict := rfl

theorem advance_tile_ne {u : Nat} (h : u ≠ t) : (s.advance t).tile u = s.tile u := by
  unfold State.advance
  exact tile_updTile_ne _ h

end Sys2Proof.Laws
end

