-- ==== Sys2Proof/Laws/Gate.lean ====
section
/-! SUPPORT. What a message at an end of the crossing gate does: heard, repeated, served (R13-R19). -/

namespace Sys2Proof.Laws

open Sys2Proof.Machine

variable {s : State} {e : GateEnd} {seq : Nat} {f : State → State}

/-- The parts of an end that hears. -/
theorem hears_parts (h : Safety.hears s e = true) : s.gatePowered e = true ∧ (s.gateAt e).down = false := by
  simpa [Safety.hears] using h

@[simp] theorem gateAt_setGate_same (g : GateSide) : (s.setGate e g).gateAt e = g := by cases e <;> rfl

/-- An end whose gate is up accepts what arrives and marks the moment. -/
theorem hear_up (h : (s.gateAt e).down = false) : s.hear e = (true, s.setGate e { s.gateAt e with lastRx := s.now }) := by
  simp [State.hear, h]

/-- A valid message takes effect at an end that hears. -/
theorem onMessage_hears (h : Safety.hears s e = true) : s.onMessage e f = f (s.setGate e { s.gateAt e with lastRx := s.now }) := by
  obtain ⟨hp, hd⟩ := hears_parts h
  simp [State.onMessage, hp, hear_up hd]

/-- A number answered before: the answer given then is given again, and nothing else changes (R15). -/
theorem onNumbered_repeat {g : State → GatePayload × State} {p : GatePayload} (h : Safety.hears s e = true) (hs : (s.gateAt e).answered.lookup seq = some p) :
    s.onNumbered e seq g = (s.setGate e { s.gateAt e with lastRx := s.now }).gateAnswer e seq p := by
  rw [State.onNumbered, onMessage_hears h]
  simp only [State.takeNumbered, gateAt_setGate_same, hs]

/-- A number not answered before takes effect once; its answer is kept and given (R15). -/
theorem onNumbered_fresh {g : State → GatePayload × State} (h : Safety.hears s e = true) (hs : (s.gateAt e).answered.lookup seq = none) :
    let r := g (s.setGate e { s.gateAt e with lastRx := s.now })
    s.onNumbered e seq g = (r.2.setGate e { r.2.gateAt e with answered := ((seq, r.1) :: (r.2.gateAt e).answered).take 32768 }).gateAnswer e seq r.1 := by
  rw [State.onNumbered, onMessage_hears h]
  simp only [State.takeNumbered, gateAt_setGate_same, hs]

end Sys2Proof.Laws
end

