-- ==== Sys2Proof/Laws/Memory.lean ====
section
/-! SUPPORT. The laws of stack memory: a read after a write, and every memory operation keeps the canonical form (R276-R294). -/

namespace Sys2Proof.Laws

open Sys2Proof.Machine

variable {s t : State}

/-! ### Reading after writing -/

@[simp] theorem putByte_memUndefined (s : State) (a : Nat) (b : Byte) : (s.putByte a b).memUndefined = s.memUndefined := rfl

@[simp] theorem putByte_unlisted (s : State) (a : Nat) (b : Byte) (x : Nat) : (s.putByte a b).unlistedByte x = s.unlistedByte x := rfl

/-- A byte written is read back. -/
@[simp] theorem memByte_putByte_same (s : State) (a : Nat) (b : Byte) : (s.putByte a b).memByte a = b := by
  by_cases h : b = s.unlistedByte a
  · simp [State.memByte, State.putByte, h]
    rfl
  · simp [State.memByte, State.putByte, h]

/-- A written byte leaves every other one alone. -/
@[simp] theorem memByte_putByte_ne (s : State) {a x : Nat} (b : Byte) (h : x ≠ a) : (s.putByte a b).memByte x = s.memByte x := by
  have hu : (s.putByte a b).unlistedByte x = s.unlistedByte x := rfl
  by_cases hb : b = s.unlistedByte a
  · simp only [State.memByte, hu]; simp [State.putByte, hb, h]
  · simp only [State.memByte, hu]; simp [State.putByte, hb, h]

/-- Bytes written leave every address below them alone. -/
theorem memByte_putBytes_below (bs : List Byte) : ∀ (s : State) (a x : Nat), x < a → (s.putBytes a bs).memByte x = s.memByte x := by
  induction bs with
  | nil => intros; rfl
  | cons b bs ih =>
    intro s a x h
    rw [State.putBytes, ih _ _ _ (by omega), memByte_putByte_ne _ _ (by omega)]

/-- Bytes written are read back, and no other byte changes. -/
theorem memByte_putBytes (bs : List Byte) : ∀ (s : State) (a x : Nat),
    (s.putBytes a bs).memByte x = if a ≤ x ∧ x < a + bs.length then bs.getD (x - a) 0 else s.memByte x := by
  induction bs with
  | nil => intro s a x; rw [if_neg (by simp)]; rfl
  | cons b bs ih =>
    intro s a x
    rw [State.putBytes]
    by_cases hx : x = a
    · subst hx
      rw [memByte_putBytes_below _ _ _ _ (by omega), memByte_putByte_same, if_pos (by simp)]
      simp
    · rw [ih, memByte_putByte_ne _ _ hx]
      by_cases h : a ≤ x ∧ x < a + (b :: bs).length
      · have e : x - a = x - (a + 1) + 1 := by omega
        rw [if_pos h, if_pos (by simp only [List.length_cons] at h; omega), e, List.getD_cons_succ]
      · rw [if_neg h, if_neg (by simp only [List.length_cons] at h; omega)]

@[simp] theorem putBytes_memUndefined (bs : List Byte) : ∀ (s : State) (a : Nat), (s.putBytes a bs).memUndefined = s.memUndefined := by
  induction bs with
  | nil => intros; rfl
  | cons b bs ih => intro s a; rw [State.putBytes, ih, putByte_memUndefined]

/-! ### The canonical form -/

/-- The form speaks of the listed bytes and of what unlisted ones read as, and of nothing else. -/
theorem memory_wf_congr (hm : t.mem = s.mem) (hu : t.memUndefined = s.memUndefined) : Memory.wf t = Memory.wf s := by
  simp only [Memory.wf, State.unlistedByte, hm, hu]

/-- Memory at reset has the form: nothing is listed. -/
theorem memory_wf_reset : Memory.wf State.reset = true := rfl

theorem memory_wf_iff : Memory.wf s = true ↔ Tab.wf s.mem = true ∧ ∀ c ∈ s.mem, c.2 ≠ s.unlistedByte c.1 := by
  simp [Memory.wf]

/-- A stored byte keeps the form. -/
theorem memory_wf_putByte (a : Nat) (b : Byte) (h : Memory.wf s = true) : Memory.wf (s.putByte a b) = true := by
  obtain ⟨hw, hl⟩ := memory_wf_iff.1 h
  refine memory_wf_iff.2 ?_
  by_cases hb : b = s.unlistedByte a
  · have e : (s.putByte a b).mem = Tab.erase s.mem a := by simp [State.putByte, hb]
    rw [e]
    exact ⟨tab_wf_erase a hw, fun c hc => hl c (List.mem_filter.1 hc).1⟩
  · have e : (s.putByte a b).mem = Tab.put s.mem a b := by simp [State.putByte, hb]
    rw [e]
    refine ⟨tab_wf_put a b hw, fun c hc => ?_⟩
    rcases tab_mem_put hc with hc | hc
    · subst hc; exact hb
    · exact hl c hc

/-- Stored bytes keep the form. -/
theorem memory_wf_putBytes (bs : List Byte) : ∀ (s : State) (a : Nat), Memory.wf s = true → Memory.wf (s.putBytes a bs) = true := by
  induction bs with
  | nil => intro s a h; exact h
  | cons b bs ih => intro s a h; rw [State.putBytes]; exact ih _ _ (memory_wf_putByte a b h)

/-- A fold whose every step keeps the form keeps it. -/
theorem memory_wf_foldl {α : Type} (f : State → α → State) (hf : ∀ s x, Memory.wf s = true → Memory.wf (f s x) = true) (l : List α) :
    ∀ s, Memory.wf s = true → Memory.wf (l.foldl f s) = true := by
  induction l with
  | nil => intro s h; exact h
  | cons x l ih => intro s h; exact ih _ (hf s x h)

/-- A word that loses its POISON bit and takes its epoch: no byte changes (R292). -/
theorem memory_wf_stampWord (w : Nat) (h : Memory.wf s = true) : Memory.wf (s.stampWord w) = true :=
  (memory_wf_congr rfl rfl).trans h

/-- The other bytes of a poisoned word becoming zero keep the form (R294). -/
theorem memory_wf_zeroPoisoned (w : Nat) (h : Memory.wf s = true) : Memory.wf (s.zeroPoisoned w) = true := by
  unfold State.zeroPoisoned
  split
  · exact memory_wf_putBytes _ _ _ h
  · exact h

/-- A write to visible stack memory keeps the form. -/
theorem memory_wf_memWrite (a : Nat) (bs : List Byte) (h : Memory.wf s = true) : Memory.wf (s.memWrite a bs) = true := by
  unfold State.memWrite
  exact memory_wf_foldl _ (fun s w h => memory_wf_stampWord w h) _ _
    (memory_wf_putBytes _ _ _ (memory_wf_foldl _ (fun s w h => memory_wf_zeroPoisoned w h) _ _ h))

/-- Windows that are given a new content leave the others' alone. -/
theorem get?_windows (l : List Nat) (n : Nat) : ∀ (m : Tab Nat) (j : Nat), j ∉ l →
    Tab.get? (l.foldl (fun (m : Tab Nat) j => Tab.put m j n) m) j = Tab.get? m j := by
  induction l with
  | nil => intros; rfl
  | cons k l ih =>
    intro m j h
    rw [List.foldl_cons, ih _ _ (fun hj => h (List.mem_cons_of_mem _ hj)), tab_get?_put_ne _ _ (fun e => h (by rw [e]; exact List.mem_cons_self ..))]

/-- A change of StackMode lists nothing of the windows whose contents become undefined, and keeps the form (R281). -/
theorem memory_wf_applyStackMode (v : Nat) (h : Memory.wf s = true) : Memory.wf (s.applyStackMode v) = true := by
  obtain ⟨hw, hl⟩ := memory_wf_iff.1 h
  unfold State.applyStackMode
  by_cases hv : v = s.entry 0x3010 1
  · simp only [hv, if_true]; exact h
  · simp only [hv, if_false]
    refine (memory_wf_congr (setEntry_mem ..) (setEntry_memUndefined ..)).trans (memory_wf_iff.2 ⟨tab_wf_filter _ hw, fun c hc => ?_⟩)
    obtain ⟨hm, hk⟩ := List.mem_filter.1 hc
    have hn : c.1 / stackWindow ∉ (List.range 8).filter fun j => !bit v j || bit v j ≠ bit (s.entry 0x3010 1) j := by
      intro hin
      rw [Bool.not_eq_true', ← Bool.not_eq_true] at hk
      exact hk (List.contains_iff_mem.2 hin)
    have hg := get?_windows _ s.freeCount s.memUndefined _ hn
    have := hl c hm
    simp only [State.unlistedByte] at this ⊢
    rw [hg]; exact this

/-! ### What a write to stack memory does (R292, R294) -/

/-- Stamping words changes no byte. -/
@[simp] theorem memByte_stampWords (l : List Nat) : ∀ (s : State) (x : Nat), (l.foldl State.stampWord s).memByte x = s.memByte x := by
  induction l with
  | nil => intros; rfl
  | cons w l ih => intro s x; rw [List.foldl_cons, ih]; rfl

/-- Where no word of a range is poisoned, no other byte becomes zero. -/
theorem zeroPoisoned_clean (l : List Nat) : ∀ s : State, (∀ w ∈ l, s.wordPoisoned w = false) → l.foldl State.zeroPoisoned s = s := by
  induction l with
  | nil => intros; rfl
  | cons w l ih =>
    intro s h
    have hw : s.zeroPoisoned w = s := by simp [State.zeroPoisoned, h w (List.mem_cons_self ..)]
    rw [List.foldl_cons, hw]
    exact ih s fun v hv => h v (List.mem_cons_of_mem _ hv)

/-- A write to a range with no poisoned word stores its bytes and changes no other. -/
theorem memByte_memWrite (a : Nat) (bs : List Byte) (x : Nat) (h : s.rangePoisoned a bs.length = false) :
    (s.memWrite a bs).memByte x = if a ≤ x ∧ x < a + bs.length then bs.getD (x - a) 0 else s.memByte x := by
  have hc : ∀ w ∈ wordsOf a bs.length, s.wordPoisoned w = false := by
    simpa [State.rangePoisoned] using h
  unfold State.memWrite
  rw [memByte_stampWords, zeroPoisoned_clean _ _ hc, memByte_putBytes]

/-- The bytes of such a write are what the range then reads as. -/
theorem memBytes_memWrite (a : Nat) (bs : List Byte) (h : s.rangePoisoned a bs.length = false) : (s.memWrite a bs).memBytes a bs.length = bs := by
  apply List.ext_getElem
  · simp [State.memBytes]
  · intro i h1 h2
    have hi : i < bs.length := h2
    simp only [State.memBytes, List.getElem_map, List.getElem_range, memByte_memWrite _ _ _ h]
    rw [if_pos (by omega), Nat.add_sub_cancel_left, List.getD_eq_getElem?_getD, List.getElem?_eq_getElem hi, Option.getD_some]

end Sys2Proof.Laws
end

