-- ==== Sys2Proof/Laws/Units.lean ====
section
/-! SUPPORT. What a command on a numbered unit answers: the effect on a unit that the module has, a stop on one that it has not. -/

namespace Sys2Proof.Laws

open Sys2Proof.Machine

variable {s t : State} {f : State → State} {kind : String} {count n : Nat}

/-- A unit that the module has is acted on. -/
@[simp] theorem onUnit_next (h : n < count) : onUnit kind count n s f = .next (f s) := by simp [onUnit, h]

/-- One that it has not stops the command by its kind's name. -/
@[simp] theorem onUnit_fault (h : ¬ n < count) : onUnit kind count n s f = .fault (.noSuchUnit kind) := by simp [onUnit, h]

/-- The only next state of such a command is its effect. -/
theorem onUnit_inv (h : onUnit kind count n s f = .next t) : n < count ∧ t = f s := by
  by_cases hn : n < count
  · rw [onUnit_next hn] at h; exact ⟨hn, by injection h with h; exact h.symm⟩
  · rw [onUnit_fault hn] at h; cases h

@[simp] theorem onTile_next (h : n < 64) : onTile n s f = .next (f s) := onUnit_next h
@[simp] theorem onJob_next (h : n < 16) : onJob n s f = .next (f s) := onUnit_next h
@[simp] theorem onPort_next (h : n < 16) : onPort n s f = .next (f s) := onUnit_next h
@[simp] theorem onStack_next (h : n < 8) : onStack n s f = .next (f s) := onUnit_next h
@[simp] theorem onStream_next (h : n < 16) : onStream n s f = .next (f s) := onUnit_next h

end Sys2Proof.Laws
end

