-- ==== Sys2Proof/Tests/Slice0.lean ====
section
/-! SUPPORT. The model's own tests: the spec's worked examples, ill-formed commands that the checks refuse, and for each statement
with hypotheses a witness that meets them. -/

namespace Sys2Proof.Tests

open Sys2Proof Sys2Proof.Machine

set_option maxRecDepth 100000

/-! ### Worked examples of the spec -/

/-- The bytes "123456789" (R387). -/
def digitsText : List Byte := [0x31, 0x32, 0x33, 0x34, 0x35, 0x36, 0x37, 0x38, 0x39]

/-- R387: the check value of CRC-64 over "123456789". -/
theorem test_crc64_value : crc64 digitsText = 0x995DC9BBDF1939FA := by decide

/-- R387: the check value of CRC-32C over "123456789". -/
theorem test_crc32c_value : crc32c digitsText = 0xE3069283 := by decide

/-- R62, the example after R63: the word 0x2214 is valid for N = 2^16, 0x2211 and 0xA420 are refused. -/
theorem test_modulus_words :
    wordValid 0x2214 16 = true ∧ modulusOf 0x2214 = 17178820609 ∧ wordValid 0x2211 16 = false ∧ wordValid 0xA420 16 = false := by decide

/-- R64's example: LOG2Q of q_11 is 0x21FF. -/
theorem test_log2q : log2Floor 17178820609 = 0x21FF := by decide

/-- Table 4-2: the product of 2^33 + 5 with itself under q_11 folds to 0x3_013C_0005. -/
theorem test_fold_product : foldReduce 0 34 20 17178820609 4 ((2 ^ 33 + 5) * (2 ^ 33 + 5)) = 0x3013C0005 := by decide

/-- Table 4-3: the input 0xF_FFFF_FFFF under the word 0xA014 folds to 0xFF0F_FFF0. -/
theorem test_fold_input : foldReduce 1 32 20 4296015873 2 0xFFFFFFFFF = 0xFF0FFFF0 := by decide

/-- Table 3-7: the three sums of the ledger's example. -/
theorem test_ledger_sums : lsum 15872 11264 = 15873 ∧ lsum 7170 2816 = 7171 ∧ lsum 7171 7168 = 7426 := by decide

/-- R147's example under G11: a value below a tie, one on a tie, one that wraps. -/
theorem test_mod_switch :
    switchMod (2 ^ 32) 4096 0x8007FFFF = 2048 ∧ switchMod (2 ^ 32) 4096 0x80080000 = 2049 ∧ switchMod (2 ^ 32) 4096 0xFFF80000 = 0 := by decide

/-- Table 8-7: the first candidate of the XOF bytes is discarded, the second emitted less q. -/
theorem test_reject_sample :
    rejectValues 17178820609 1 [0x01, 0x00, 0xF0, 0xFF, 0xFF, 0x12, 0x34, 0x56, 0x78] = [0x38573412E] := by decide

/-- R279 and R280, the example at 256,000,000: stack 3, channel 63, granule 976; bank 26, page row 3. -/
theorem test_map_hashed : State.reset.mapAddress 256000000 = (3, 63, 976) ∧ bankOf 976 = 26 ∧ pageOf 976 = 3 := by decide

/-- The same address where stack 0 is stack-linear: channel 64 of stack 0, granule 7,812; bank 16, page row 30. -/
theorem test_map_linear : (State.reset.setEntry 0x3010 1 1).mapAddress 256000000 = (0, 64, 7812) ∧ bankOf 7812 = 16 ∧ pageOf 7812 = 30 := by decide

/-- The example of chapter 12: row 700 of tile 9 begins at 0x8000_9031_3800. -/
theorem test_window_address : windowTile 0x800090313800 = 9 ∧ windowOffset 0x800090313800 = 700 * 4608 := by decide

/-- Table 5-7: the block of the FP32 values 0.8125, -0.0390625, 0.3, 1e-7 and twelve zeros in BLK_E4M3 with B = 16. -/
theorem test_weight_block :
    (convertFormat (1 + 64 * 0x14) 16
      ([0x00, 0x00, 0x50, 0x3F, 0x00, 0x00, 0x20, 0xBD, 0x9A, 0x99, 0x99, 0x3E, 0x95, 0xBF, 0xD6, 0x33] ++ List.replicate 48 0)).1
      = [0xF7, 0x7D, 0xDA, 0x72, 0x00] ++ List.replicate 12 0 := by decide

/-- The catalogue record of 0x1040:01, as the example after R59 reads it. -/
theorem test_catalogue_record : (indexRecords 0x1040).getD 1 0 = 0x00000000000000320001000104011040 := by decide

/-- Chapter 9's worked example: the bundle and the four commands that its slots stand for. -/
theorem test_decode_bundle :
    decodeBundle (fun _ => 0) 7 0x0000000062198E0010800A000CA50001
      = some [.vmul 7 3 6 7 2, .mld 7 1 0 40 false .clean, .xaddi 7 5 5 1, .cnop 7] := by decide

/-! ### The queue -/

/-- The first command runs, the second waits. -/
theorem test_step_front :
    step { State.reset with pending := [.keepalive .host, .wnop 3] } = exec (.keepalive .host) { State.reset with pending := [.wnop 3] } := rfl

/-- An idle step lets one nanosecond pass. -/
theorem test_step_idle : (match step State.reset with | .next t => t.now | _ => 7) = 1 := by decide

/-- The table gives its rows no bits: no word spells a command. -/
theorem test_no_words : decodeTableWord 64 0 = none ∧ State.reset.withFetchWord 64 0 = State.reset := ⟨rfl, rfl⟩

/-! ### Ill-formed commands, one for each check -/

theorem test_ill_formed :
    (Instr.wnop 64).wellFormed = false ∧ (Instr.jobCommit 16).wellFormed = false ∧ (Instr.portRetrain 16).wellFormed = false
      ∧ (Instr.frameAck 0 5 0).wellFormed = false ∧ (Instr.selfRefreshEntry 8).wellFormed = false ∧ (Instr.bankRefresh 0 128 0).wellFormed = false
      ∧ (Instr.bankRefresh 0 0 32).wellFormed = false ∧ (Instr.mcastWindowSend 16).wellFormed = false ∧ (Instr.barrierTimeout 64).wellFormed = false
      ∧ (Instr.groupOpen 2).wellFormed = false ∧ (Instr.gateResendTimeout .host 65536).wellFormed = false ∧
          (Instr.dtpClose 1 (2 ^ 32)).wellFormed = false
      ∧ (Instr.dtpRead 1 0 [0x8000000]).wellFormed = false ∧ (Instr.wResultWrite 0 32).wellFormed = false ∧ (Instr.xli 0 32 5).wellFormed = false
      ∧ (Instr.vneg 0 1 2 16).wellFormed = false ∧ (Instr.mstWriteLand 0 3072).wellFormed = false ∧ (Instr.p384Check 0 16).wellFormed = false
      ∧ (Instr.keyErase 0 32).wellFormed = false ∧ (Instr.contextWrite 0 96 2 0).wellFormed = false
      ∧ (Instr.fabricSignal (default : Frame)).wellFormed = true
      ∧ (Instr.fabricSignal { (default : Frame) with vl := 4 }).wellFormed = false
      ∧ (Instr.memRequest 0 { (default : MemReq) with length := 0 }).wellFormed = false
      ∧ (Instr.mld 0 1 2 3 false (.corrected 256)).wellFormed = false ∧ (Instr.loop 0 1024).wellFormed = false
      ∧ (Instr.dictWrite 0 8 3 0).wellFormed = false ∧ (Instr.setUnload 0 256).wellFormed = false ∧
          (Instr.bar2Read 0 4097 false .clean).wellFormed = false := by
  decide

/-! ### Witnesses: part 0 of the statements -/

/-- The reset state at a moment (ns). -/
def later (n : Nat) : State := { State.reset with now := n }
def gateMsg : GateMsg := { seq := 9, payload := .block 0 [], origin := .block 0, sentAt := 0, repeats := 2 }
def someAsk : EntryAccess := { ctx := 0, offset := keyOffset (entryKey 0x1050 3) }
def askMsg : GateMsg := { gateMsg with payload := .request 0 (.entries [(someAsk.offset, none)]), origin := .access someAsk }
def lostMsg : GateMsg := { gateMsg with payload := .keepalive, origin := .values 0 [(entryKey 0x1040 1, State.reset.entry 0x1040 1, 3)], repeats := 4 }
/-- The BAR0 context in a given form. -/
def withContext (c : Context) : State := State.reset.setContext 0 c
def someSet : ParamSet :=
  { setId := 7, family := 1, encoding := 0, logN := 10, limbs := 1, special := 0, dnum := 0, glweK := 1, decompLogBase := 4, decompLevels := 2
    lweModKind := 0, lweN := 16, lweModulus := 0, plainModulus := 0, expansion := 0, msgHeadroom := 0, encErr := 0, rescaleErr := 0, lweKsErr := 0
    modswitchErr := 0, packErr := 0, bootOut := 0, bootOutLevel := 0, moduli := [], levels := [] }
/-- A write transfer of the BAR0 context into the field log's name, two bytes long. -/
def shortTransfer : Transfer := { addr := entryKey 0x9030 1, write := true, length := 2, committed := [(0, 0), (1, 0)] }
def certTransfer : Transfer := { addr := entryKey 0x9030 1, write := true, length := 4, committed := [(0, 0), (1, 0), (2, 0), (3, 0)] }

theorem witness_StepRunsFront :
    ∃ (s : State), ∃ (c : Instr), ∃ (rest : List Instr), s.pending = c :: rest :=
  ⟨{ State.reset with pending := [.wnop 0] }, (.wnop 0), ([] : List Instr), by decide⟩

theorem witness_EmptyQueueIdles :
    ∃ (s : State), s.pending = [] ∧ s.restart = none ∧ s.slewLeft = 0 ∧ s.replayWrites = [] ∧ s.behind = [] :=
  ⟨State.reset, by decide⟩

theorem witness_WellFormedCommandsRun :
    ∃ (c : Instr), c.wellFormed = true :=
  ⟨.wnop 63, by decide⟩

theorem witness_CommandsLeaveQueueAndFuses :
    ∃ (c : Instr), ∃ (s t : State), exec c s = .next t :=
  ⟨.keepalive .host, State.reset, _, rfl⟩

theorem witness_MemoryStaysCanonical :
    ∃ (s t : State), Memory.wf s = true ∧ step s = .next t :=
  ⟨State.reset, _, by decide, rfl⟩

theorem witness_GateArrivals :
    (∃ (s : State), ∃ (e : GateEnd), Safety.hears s e = true) ∧
    (∃ (s : State), ∃ (e : GateEnd), ∃ (seq : Nat), ∃ (m : GateMsg), Safety.hears s e = true ∧
        ((s.gateAt e).outstanding.find? fun (m : GateMsg) => m.seq = seq) = some m ∧ Safety.onlyRetired m = true) ∧
    (∃ (s : State), ∃ (seq : Nat), ∃ (m : GateMsg), ∃ (a : EntryAccess), Safety.hears s .host = true ∧ s.heldAccesses = [] ∧ a.ctx < 16 ∧
        a.frame = none ∧ indexAt a.offset ≠ 0x1030 ∧ (s.hostGate.outstanding.find? fun (m : GateMsg) => m.seq = seq) = some m ∧
        m.origin = .access a) ∧
    (∃ (s : State), ∃ (e : GateEnd), ∃ (type length : Nat), ∃ (crcOk : Bool), s.gatePowered e = true ∧
        (crcOk = false ∨ 4104 < length ∨ gateAllowed e type = false)) ∧
    (∃ (s : State), ∃ (e : GateEnd), ∃ (seq : Nat), ∃ (p : GatePayload), Safety.hears s e = true ∧ (s.gateAt e).answered.lookup seq = some p ∧
        (s.gateAt e).quietUntil ≤ s.now) ∧
    (∃ (s : State), ∃ (x : LogEntry), Safety.hears s .field = true ∧ x.code ≠ WATCHDOG_RESTART) ∧
    (∃ (s : State), ∃ (x : LogEntry), Safety.hears s .field = true ∧ x.code = WATCHDOG_RESTART ∧ s.fieldGate.quietUntil ≤ s.now) :=
  ⟨⟨later 5, .host, by decide⟩,
   ⟨{ later 5 with hostGate := { outstanding := [gateMsg] } }, .host, 9, gateMsg, by decide⟩,
   ⟨{ later 5 with hostGate := { outstanding := [askMsg] } }, 9, askMsg, someAsk, by decide⟩,
   ⟨later 5, .field, 5, 4104, true, by decide⟩,
   ⟨{ later 5 with hostGate := { answered := [(3, answerOf OK 0)] } }, .host, 3, answerOf OK 0, by decide⟩,
   ⟨later 5, ({ event := 1, job := 0, code := 0x41, seq := 0, time := 0, detail0 := 0, detail1 := 0 } : LogEntry), by decide⟩,
   ⟨later 5, ({ event := 1, job := 0, code := WATCHDOG_RESTART, seq := 0, time := 0, detail0 := 0, detail1 := 0 } : LogEntry), by decide⟩⟩

theorem witness_GateRequests :
    (∃ (s : State), ∃ (seq ctx index sub : Nat), Safety.hears s .field = true ∧ s.fieldGate.quietUntil ≤ s.now ∧ sub < 256 ∧ isDtp ctx = false ∧
        s.fieldGate.answered.lookup seq = none ∧ isPersistent index sub = true ∧ isFieldServed index = false) ∧
    (∃ (s : State), ∃ (seq index sub : Nat), ∃ (v : Word), ∃ (r : EntryRow), Safety.hears s .field = true ∧ s.fieldGate.quietUntil ≤ s.now ∧
        sub < 256 ∧ s.fieldGate.answered.lookup seq = none ∧ lookupEntry index sub = some r ∧ r.persist = true ∧ r.ty.isContent = false ∧
        s.rangeRefusal r index sub v.toNat = none) ∧
    (∃ (s : State), ∃ (seq id index sub : Nat), ∃ (r : EntryRow), Safety.hears s .host = true ∧ Safety.dtpReady s id = true ∧
        s.hostGate.quietUntil ≤ s.now ∧ s.hostGate.answered.lookup seq = none ∧ sub < 256 ∧ lookupEntry index sub = some r ∧
        (r.acc ≠ .wo ∨ sub = 0) ∧ gateProtected index sub = false ∧ index ≠ 0x1030 ∧ ((tileOf index).any fun t => !s.tileEnabled t) = false) ∧
    (∃ (s : State), ∃ (seq id i sub : Nat), ∃ (r : EntryRow), Safety.hears s .host = true ∧ Safety.dtpReady s id = true ∧
        s.hostGate.quietUntil ≤ s.now ∧ s.hostGate.answered.lookup seq = none ∧ (s.context (16 + id)).groupState ≠ 1 ∧ 0 < sub ∧ sub < 256 ∧
        lookupEntry i sub = some r ∧ r.ty.isContent = true ∧ i ≠ 0x9010 ∧ gateProtected i sub = false ∧ ¬(0x8040 ≤ i ∧ i < 0x8048) ∧
        ((tileOf i).any fun t => !s.tileEnabled t) = false) ∧
    (∃ (s : State), ∃ (seq id i sub off : Nat), ∃ (data : List Byte), ∃ (last : Bool), ∃ (r : EntryRow), Safety.hears s .host = true ∧
        Safety.dtpReady s id = true ∧ s.hostGate.quietUntil ≤ s.now ∧ s.hostGate.answered.lookup seq = none ∧
        (s.context (16 + id)).groupState ≠ 1 ∧ (s.context (16 + id)).transfer = none ∧ 0 < sub ∧ sub < 256 ∧ lookupEntry i sub = some r ∧
        r.ty.isContent = true ∧ r.acc ≠ .ro ∧ i ∉ [0x2010, 0x9030, 0x9100] ∧ gateProtected i sub = false ∧ off + data.length ≤ maxContent i sub ∧
        ((tileOf i).any fun t => !s.tileEnabled t) = false ∧ (last = true → off = 0 ∧ contentValid i data = true)) ∧
    (∃ (s : State), ∃ (seq id : Nat), Safety.hears s .host = true ∧ Safety.dtpReady s id = true ∧ s.hostGate.quietUntil ≤ s.now ∧
        s.hostGate.answered.lookup seq = none ∧ (s.context (16 + id)).groupState ≠ 1 ∧ s.groupCount < 32) ∧
    (∃ (s : State), ∃ (seq ctx index sub : Nat), Safety.hears s .host = true ∧ s.hostGate.quietUntil ≤ s.now ∧ sub < 256 ∧
        s.hostGate.answered.lookup seq = none ∧ (gateProtected index sub = true ∨ isDtp ctx = false)) :=
  ⟨⟨later 5, 7, 0, 0x1040, 1, by decide⟩,
   ⟨later 5, 7, 0x1040, 1, 5, (lookupEntry 0x1040 1).get (by decide), by decide⟩,
   ⟨later 5, 7, 3, 0x1040, 1, (lookupEntry 0x1040 1).get (by decide), by decide⟩,
   ⟨later 5, 7, 1, 0x5030, 1, (lookupEntry 0x5030 1).get (by decide), by decide⟩,
   ⟨later 5, 7, 1, 0x5030, 1, 0, List.replicate 24 7, true, (lookupEntry 0x5030 1).get (by decide), by decide⟩,
   ⟨later 5, 7, 1, by decide⟩,
   ⟨later 5, 7, 17, 0x3480, 2, by decide⟩⟩

theorem witness_GateTimers :
    (∃ (s : State), ∃ (e : GateEnd), s.gatePowered e = true ∧ (s.gateAt e).lastTx + 10000 ≤ s.now ∧ (s.gateAt e).quietUntil ≤ s.now) ∧
    (∃ (s : State), ∃ (e : GateEnd), ∃ (seq : Nat), ∃ (m : GateMsg), s.gatePowered e = true ∧
        ((s.gateAt e).outstanding.find? fun (m : GateMsg) => m.seq = seq) = some m ∧ m.repeats < 4 ∧ m.sentAt + 100000 * (m.repeats + 1) ≤ s.now ∧
        (s.gateAt e).quietUntil ≤ s.now) ∧
    (∃ (s : State), ∃ (e : GateEnd), ∃ (seq ctx : Nat), ∃ (m : GateMsg), s.gatePowered e = true ∧
        ((s.gateAt e).outstanding.find? fun (m : GateMsg) => m.seq = seq) = some m ∧ 4 ≤ m.repeats ∧ m.sentAt + 500000 ≤ s.now ∧
        m.origin = .block ctx) ∧
    (∃ (s : State), ∃ (seq ctx i k old : Nat), ∃ (m : GateMsg), s.gatePowered .host = true ∧
        (s.hostGate.outstanding.find? fun (m : GateMsg) => m.seq = seq) = some m ∧ 4 ≤ m.repeats ∧ m.sentAt + 500000 ≤ s.now ∧ ctx < 16 ∧ k < 256 ∧
        i < 0xB000 ∧ isPersistent i k = true ∧ Safety.commandEntry i k = false ∧ m.origin = .values ctx [(entryKey i k, s.entry i k, old)]) ∧
    (∃ (s : State), ∃ (e : GateEnd), s.gatePowered e = true ∧ (s.gateAt e).lastRx + 1000000 ≤ s.now) :=
  ⟨⟨later 10000, .field, by decide⟩,
   ⟨{ later 500000 with fieldGate := { outstanding := [gateMsg] } }, .field, 9, gateMsg, by decide⟩,
   ⟨{ later 500000 with hostGate := { outstanding := [{ gateMsg with repeats := 4 }] } }, .host, 9, 0, { gateMsg with repeats := 4 }, by decide⟩,
   ⟨{ later 500000 with hostGate := { outstanding := [lostMsg] } }, 9, 0, 0x1040, 1, 3, lostMsg, by decide⟩,
   ⟨later 1000000, .field, by decide⟩⟩

theorem witness_GateCommands :
    (∃ (s : State), Safety.hears s .host = true ∧ s.ready = true ∧ s.timedTicks < 4) ∧
    (∃ (s : State), ∃ (seq kind : Nat), Safety.hears s .host = true ∧ s.hostGate.answered.lookup seq = none ∧ s.hostGate.quietUntil ≤ s.now ∧
        s.restart = none ∧ (kind = kindWarm ∨ kind = kindHostPower)) ∧
    (∃ (s : State), ∃ (seq d : Nat), Safety.hears s .host = true ∧ s.hostGate.answered.lookup seq = none ∧ d < 64 ∧ s.tileEnabled d = true) ∧
    (∃ (s : State), ∃ (seq offset : Nat), ∃ (data : List Byte), Safety.hears s .field = true ∧ s.fieldGate.answered.lookup seq = none ∧
        s.fieldGate.quietUntil ≤ s.now ∧ data ≠ [] ∧ data.length ≤ 4096 ∧ offset + data.length ≤ packageMax ∧ s.pendingState = 1) :=
  ⟨⟨later 5, by decide⟩,
   ⟨later 5, 7, 3, by decide⟩,
   ⟨later 5, 7, 63, by decide⟩,
   ⟨(later 5).setEntry 0x9100 2 1, 7, 0, [5, 6], by decide⟩⟩

theorem witness_DictionaryWrite :
    (∃ (s : State), ∃ (i sub v : Nat), ∃ (r : EntryRow), Safety.direct s 0 = true ∧ i < 65536 ∧ sub < 256 ∧ v < 2 ^ 64 ∧
        Safety.commandEntry i sub = false ∧ isFieldServed i = false ∧ lookupEntry i sub = some r ∧ r.ty.isContent = false ∧
        (r.acc = .rw ∨ r.acc = .rws) ∧ r.cls ≠ .epoch ∧ ((tileOf i).any fun t => !s.tileEnabled t) = false ∧ s.rangeRefusal r i sub v = none ∧
        (r.cls = .stopped → s.unitStopped i sub = true)) ∧
    (∃ (s : State), ∃ (i sub v : Nat), ∃ (r : EntryRow), Safety.direct s 0 = true ∧ i < 65536 ∧ sub < 256 ∧ v < 2 ^ 64 ∧
        Safety.commandEntry i sub = false ∧ isFieldServed i = true ∧ lookupEntry i sub = some r ∧ r.ty.isContent = false ∧
        (r.acc = .rw ∨ r.acc = .rws) ∧ r.cls ≠ .epoch ∧ s.rangeRefusal r i sub v = none ∧ (r.cls = .stopped → s.unitStopped i sub = true) ∧
        s.hostGate.quietUntil ≤ s.now) :=
  ⟨⟨later 5, 0x1040, 1, 8, (lookupEntry 0x1040 1).get (by decide), by decide⟩,
   ⟨later 5, 0x1050, 3, 8, (lookupEntry 0x1050 3).get (by decide), by decide⟩⟩

theorem witness_DictionaryRead :
    (∃ (s : State), ∃ (i sub : Nat), ∃ (r : EntryRow), Safety.served s 0 = true ∧ i < 65536 ∧ sub < 256 ∧ i ∉ [0x1030, 0x9200, 0x9210] ∧ (i,
        sub) ≠ (0x3480, 2) ∧ isFieldServed i = false ∧ lookupEntry i sub = some r ∧ (r.acc ≠ .wo ∨ sub = 0) ∧
        ((tileOf i).any fun t => !s.tileEnabled t) = false) ∧
    (∃ (s : State), ∃ (i sub : Nat), ∃ (r : EntryRow), Safety.direct s 0 = true ∧ i < 65536 ∧ sub < 256 ∧ i ≠ 0x9200 ∧ isFieldServed i = true ∧
        lookupEntry i sub = some r ∧ (r.acc ≠ .wo ∨ sub = 0) ∧ s.hostGate.quietUntil ≤ s.now) ∧
    (∃ (s : State), ∃ (i sub : Nat), ∃ (r : EntryRow), (s.context 0).groupState ≠ 1 ∧ r.ty.isContent = false ∧ r.acc ≠ .wo ∧ sub ≠ 0 ∧
        s.computed 0 i sub = none) ∧
    (∃ (s : State), ∃ (i sub : Nat), ∃ (r : EntryRow), Safety.served s 0 = true ∧ i < 65536 ∧ 0 < sub ∧ sub < 256 ∧ i ∉ [0x9200, 0x9210] ∧
        lookupEntry i sub = some r ∧ r.acc = .wo ∧ ((tileOf i).any fun t => !s.tileEnabled t) = false) ∧
    (∃ (s : State), ∃ (i sub : Nat), Safety.served s 0 = true ∧ i < 65536 ∧ sub < 256 ∧ i ∉ [0x9200, 0x9210] ∧ lookupEntry i sub = none) :=
  ⟨⟨later 5, 0x1040, 1, (lookupEntry 0x1040 1).get (by decide), by decide⟩,
   ⟨later 5, 0x1050, 3, (lookupEntry 0x1050 3).get (by decide), by decide⟩,
   ⟨later 5, 0x1050, 3, (lookupEntry 0x1050 3).get (by decide), by decide⟩,
   ⟨later 5, 0x1020, 1, (lookupEntry 0x1020 1).get (by decide), by decide⟩,
   ⟨later 5, 0x1FFF, 1, by decide⟩⟩

theorem witness_PauseAnswers :
    ∃ (s : State), ∃ (o n : Nat), s.entry 0x1100 1 = 7 ∧ o < 0x8000000 ∧ o % 8 = 0 ∧ (n = 4 ∨ n = 8) :=
  ⟨(later 5).setEntry 0x1100 1 7, 2048 * 0x1030 + 8, 8, by decide⟩

theorem witness_TransactionGroups :
    (∃ (s : State), ∃ (i sub v : Nat), ∃ (r : EntryRow), Safety.served s 0 = true ∧ (s.context 0).groupState = 1 ∧ i < 65536 ∧ sub < 256 ∧
        v < 2 ^ 64 ∧ Safety.commandEntry i sub = false ∧ lookupEntry i sub = some r ∧ r.ty.isContent = false ∧ (r.acc = .rw ∨ r.acc = .rws) ∧
        ((tileOf i).any fun t => !s.tileEnabled t) = false ∧ s.rangeRefusal r i sub v = none ∧ (r.cls = .stopped → s.unitStopped i sub = true) ∧
        ((s.context 0).staged.any fun p => p.1 = entryKey i sub) = false ∧ (s.context 0).staged.length < 256) ∧
    (∃ (s : State), ∃ (ctx : Nat), Safety.direct s ctx = true ∧ s.groupCount < 32) ∧
    (∃ (s : State), ∃ (ctx : Nat), Safety.served s ctx = true ∧ (s.context ctx).groupState = 1 ∧
        ((s.context ctx).staged.any (fun p => isEpochKey p.1) = false ∨ (s.job (s.context ctx).groupOwner).active = false) ∧
        s.stagedConflict (s.context ctx).staged = false) :=
  ⟨⟨withContext { groupState := 1 }, 0x1050, 3, 8, (lookupEntry 0x1050 3).get (by decide), by decide⟩,
   ⟨later 5, 15, by decide⟩,
   ⟨withContext { groupState := 1, staged := [(entryKey 0x1050 3, 8)] }, 0, by decide⟩⟩

theorem witness_TimeoutsAndStores :
    (∃ (s : State), ∃ (ctx : Nat), ∃ (g : PendingGroup), (s.pendingGroups.find? fun g => g.ctx = ctx && g.deadline ≤ s.now) = some g ∧
        s.hasContext ctx = true ∧ (s.context ctx).groupId = g.id) ∧
    (∃ (s : State), ∃ (ctx : Nat), s.contextIdle ctx = true ∧ (s.context ctx).groupState = 1) ∧
    (∃ (s : State), ∃ (ctx : Nat), isFabric ctx = true ∧ s.contextIdle ctx = true ∧ (s.context ctx).groupState ≠ 1 ∧
        (s.pendingGroups.any fun g => g.ctx = ctx) = false) ∧
    (∃ (s : State), ∃ (r : PersistRecord), ∃ (rest : List PersistRecord), s.unstored = r :: rest ∧ s.fieldPowered = true) ∧
    (∃ (s : State), ∃ (ctx : Nat), Safety.direct s ctx = true ∧ s.jobsLoaded = []) ∧
    (∃ (s : State), ∃ (ctx id slot : Nat), ∃ (p : ParamSet), Safety.direct s ctx = true ∧ id < 256 ∧ s.findSet id = some (slot, p) ∧
        s.setRefs id = 0) :=
  ⟨⟨{ later 5 with pendingGroups := [{ ctx := 0, id := 0, job := 1, staged := [], deadline := 5 }] }, 0,
      ({ ctx := 0, id := 0, job := 1, staged := [], deadline := 5 } : PendingGroup), by decide⟩,
   ⟨{ withContext { groupState := 1 } with now := 1000000000 }, 0, by decide⟩,
   ⟨later 1000000000, 0x10000, by decide⟩,
   ⟨{ later 5 with unstored := [{ values := [(0x105003, 8)], contents := [] }] }, ({ values := [(0x105003, 8)], contents := [] } : PersistRecord),
       ([] : List PersistRecord), by decide⟩,
   ⟨later 5, 0, by decide⟩,
   ⟨{ later 5 with sets := [(0, someSet)] }, 0, 7, 0, someSet, by decide⟩⟩

theorem witness_SegmentedTransfers :
    (∃ (s : State), ∃ (ctx i sub : Nat), ∃ (r : EntryRow), Safety.direct s ctx = true ∧ 0 < sub ∧ sub < 256 ∧
        (s.context ctx).target = entryKey i sub ∧ lookupEntry i sub = some r ∧ r.ty.isContent = true ∧ i ∉ [0x9010, 0x9200, 0x9210] ∧
        ¬(0x8040 ≤ i ∧ i < 0x8048) ∧ ((tileOf i).any fun t => !s.tileEnabled t) = false) ∧
    (∃ (s : State), ∃ (ctx i sub : Nat), ∃ (r : EntryRow), Safety.direct s ctx = true ∧ 0 < sub ∧ sub < 256 ∧
        (s.context ctx).target = entryKey i sub ∧ lookupEntry i sub = some r ∧ r.ty.isContent = true ∧ r.acc ≠ .ro ∧ i ∉ [0x9100, 0x9200, 0x9210] ∧
        (s.context ctx).length ≤ maxContent i sub ∧ ((tileOf i).any fun t => !s.tileEnabled t) = false) ∧
    (∃ (s : State), ∃ (ctx : Nat), ∃ (x : Transfer), Safety.direct s ctx = true ∧ (s.context ctx).transfer = some x ∧ x.write = true ∧
        x.stages = false ∧ (s.context ctx).offset < x.length) ∧
    (∃ (s : State), ∃ (ctx : Nat), ∃ (x : Transfer), Safety.direct s ctx = true ∧ (s.context ctx).transfer = some x ∧ x.write = true ∧
        x.length ≤ x.committed.length ∧ x.index ∉ [0x2010, 0x9100, 0x9210] ∧ contentValid x.index x.bytes = true) ∧
    (∃ (s : State), ∃ (ctx : Nat), Safety.direct s ctx = true) :=
  ⟨⟨withContext { target := entryKey 0x9030 1 }, 0, 0x9030, 1, (lookupEntry 0x9030 1).get (by decide), by decide⟩,
   ⟨withContext { target := entryKey 0x9030 1, length := 2 }, 0, 0x9030, 1, (lookupEntry 0x9030 1).get (by decide), by decide⟩,
   ⟨withContext { target := entryKey 0x9030 1, length := 2, transfer := some shortTransfer }, 0, shortTransfer, by decide⟩,
   ⟨withContext { target := entryKey 0x9030 1, length := 4, transfer := some certTransfer }, 0, certTransfer, by decide⟩,
   ⟨later 5, 0, by decide⟩⟩

/-! ### Witnesses: part 1 of the statements -/

/-- A state with one open DTP session of version 2. -/
def sessionOne : Session := { version := 2, port := 5, lastSeen := 0, highest := some 4 }
def sessionState : State := { State.reset with sessions := [(1, sessionOne)] }
/-- The same with a request that waits for the host side's answer. -/
def oneWait : DtpWait := { seq := 5, type := 0x11, done := [none] }
def waitOne : Session := { sessionOne with waiting := [oneWait] }
def dtpMsg : GateMsg := { gateMsg with payload := .request 17 (.entries [(keyOffset (entryKey 0x1040 1), none)]), origin := .dtp 1 5 }
def waitState : State := { State.reset with sessions := [(1, waitOne)], fieldGate := { outstanding := [dtpMsg] } }

theorem witness_ManagementPort :
    (∃ (s : State), ∃ (port offered v k : Nat), s.dtpServed = true ∧ port = s.entry 0x1050 1 ∧ s.chooseVersion offered = some v ∧
        s.sessions.length < s.entry 0x1050 3 ∧ s.freeSession = some k) ∧
    (∃ (s : State), ∃ (port offered : Nat), s.dtpServed = true ∧ port = s.entry 0x1050 1 ∧ s.chooseVersion offered = none) ∧
    (∃ (s : State), ∃ (id seq : Nat), ∃ (x : Session), s.dtpServed = true ∧ s.session id = some x ∧ (x.highest.any fun h => seq ≤ h) = false) ∧
    (∃ (s : State), ∃ (id : Nat), ∃ (x : Session), s.session id = some x ∧ x.lastSeen + 1000000000 * s.entry 0x1050 4 ≤ s.now) ∧
    (∃ (s : State), s.dtpServed = true) ∧
    (∃ (s : State), ∃ (id seq i sub : Nat), ∃ (x : Session), ∃ (r : EntryRow), Safety.fresh s id seq x ∧ Safety.dtpReady s id = true ∧ sub < 256 ∧
        isFieldServed i = true ∧ lookupEntry i sub = some r ∧ (r.acc ≠ .wo ∨ sub = 0)) ∧
    (∃ (s : State), ∃ (id seq i sub : Nat), ∃ (v : Word), ∃ (x : Session), ∃ (r : EntryRow), Safety.fresh s id seq x ∧
        Safety.dtpReady s id = true ∧ sub < 256 ∧ isFieldServed i = true ∧ (s.context (16 + id)).groupState ≠ 1 ∧
        Safety.commandEntry i sub = false ∧ lookupEntry i sub = some r ∧ r.ty.isContent = false ∧ (r.acc = .rw ∨ r.acc = .rws) ∧ r.cls ≠ .epoch ∧
        s.rangeRefusal r i sub v.toNat = none ∧ (r.cls = .stopped → s.unitStopped i sub = true)) ∧
    (∃ (s : State), ∃ (id seq : Nat), ∃ (data : List Byte), ∃ (x : Session), Safety.fresh s id seq x ∧ Safety.dtpReady s id = true ∧
        (s.context (16 + id)).groupState ≠ 1 ∧ (s.context (16 + id)).transfer = none ∧ s.stagedElsewhere (16 + id) = false ∧
        data.length ≤ segmentSize x.version) ∧
    (∃ (s : State), ∃ (id seq o n : Nat), ∃ (data : List Byte), ∃ (x : Session), Safety.fresh s id seq x ∧ s.travels (16 + id) o = true ∧
        n ≤ segmentSize x.version ∧ data.length ≤ segmentSize x.version) ∧
    (∃ (s : State), ∃ (id seq : Nat), ∃ (x : Session), Safety.fresh s id seq x ∧ x.version = 2 ∧
        s.travels (16 + id) (keyOffset (entryKey 0x1020 1)) = true) ∧
    (∃ (s : State), ∃ (id seq gate : Nat), ∃ (x : Session), ∃ (w : DtpWait), ∃ (m : GateMsg), Safety.hears s .field = true ∧
        (s.fieldGate.outstanding.find? fun (m : GateMsg) => m.seq = gate) = some m ∧ m.origin = .dtp id seq ∧ s.session id = some x ∧
        (x.waiting.find? fun w => w.seq = seq) = some w ∧ w.seq = seq ∧ w.done = [none] ∧ w.todo = [] ∧ seq ≠ 0xFFFFFFFF) :=
  ⟨⟨State.reset, State.reset.entry 0x1050 1, 6, 2, 0, by decide⟩,
   ⟨State.reset, State.reset.entry 0x1050 1, 0, by decide⟩,
   ⟨sessionState, 1, 5, sessionOne, by decide⟩,
   ⟨{ sessionState with now := 2 ^ 60 }, 1, sessionOne, by decide⟩,
   ⟨sessionState, by decide⟩,
   ⟨sessionState, 1, 5, 0x1050, 3, sessionOne, (lookupEntry 0x1050 3).get (by decide), by decide⟩,
   ⟨sessionState, 1, 5, 0x1050, 3, 6, sessionOne, (lookupEntry 0x1050 3).get (by decide), by decide⟩,
   ⟨sessionState, 1, 5, [3, 4], sessionOne, by decide⟩,
   ⟨sessionState, 1, 5, keyOffset (entryKey 0x1040 1), 8, [], sessionOne, by decide⟩,
   ⟨sessionState, 1, 5, sessionOne, by decide⟩,
   ⟨waitState, 1, 5, 9, waitOne, oneWait, dtpMsg, by decide⟩⟩

/-! ### Witnesses: part 2 of the statements -/

/-- A state whose job slot 0 holds an image on tiles 0 and 1. -/
def jobState (x : Job) : State :=
  { State.reset with jobs := [(0, { x with image := some ((x.image).getD default), group := [0, 1] })], tiles := [(0, { banks := 1 }), (1, { banks := 1 })] }

/-- An image with one handle, whose descriptor lies at address 4096 of this device. -/
def handleImage (kind : Nat) : Image :=
  { (default : Image) with
    handles := [{ descAddr := 4096, bodyAddr := 8192, tag := 9, count := 1, layout := 0, level := 1, set := 5, flags := 0, kind := kind }], sets := [5] }

/-- A state with that image in job slot 0, parameter set 5 loaded, and a descriptor at address 4096. -/
def handleState (x : Job) (kind : Nat) : State :=
  { jobState { x with image := some (handleImage kind), handles := [{ (default : Handle) with set := 5, tag := 9, comps := 2, level := 1 }] } with
    sets := [(0, { (default : ParamSet) with setId := 5, limbs := 4, logN := 12 })]
    mem := [(4096, 1), (4097, 5), (4099, 1), (4100, 1), (4101, 2), (4108, 1), (4112, 9)] }

theorem witness_JobControls :
    (∃ (s : State), ∃ (ctx j : Nat), Safety.direct s ctx = true ∧ j < 16 ∧ (s.job j).state = .ready ∧ (s.job j).checking = false ∧
        s.deepIdle = false) ∧
    (∃ (s : State), ∃ (ctx j : Nat), ∃ (im : Image), Safety.direct s ctx = true ∧ j < 16 ∧ (s.job j).state = .loaded ∧ (s.job j).image = some im) ∧
    (∃ (s : State), ∃ (ctx j : Nat), ∃ (im : Image), Safety.direct s ctx = true ∧ j < 16 ∧ (s.job j).state = .running ∧ (s.job j).image = some im ∧
        (s.job j).cleaned = false ∧ (∀ g ∈ (s.job j).group, (s.tile g).quenched = false)) ∧
    (∃ (s : State), ∃ (ctx j : Nat), Safety.direct s ctx = true ∧ j < 16 ∧ ((s.job j).state = .loaded ∨ (s.job j).state = .halted)) ∧
    (∃ (s : State), ∃ (ctx j : Nat), ∃ (im : Image), Safety.direct s ctx = true ∧ j < 16 ∧ (s.job j).state = .halted ∧ (s.job j).image = some im) :=
  ⟨⟨State.reset, 0, 3, by decide⟩,
   ⟨jobState { state := .loaded }, 0, 0, default, by decide⟩,
   ⟨jobState { state := .running }, 0, 0, default, by decide⟩,
   ⟨jobState { state := .halted }, 0, 0, by decide⟩,
   ⟨jobState { state := .halted }, 0, 0, default, by decide⟩⟩

theorem witness_AdmissionDecides :
    (∃ (s : State), ∃ (j : Nat), ∃ (rest : List Nat), s.ready = true ∧ s.admitQueue = j :: rest ∧ j < 16 ∧ (s.job j).state = .ready) ∧
    (∃ (s : State), ∃ (j : Nat), ∃ (rest : List Nat), s.ready = true ∧ s.admitQueue = j :: rest ∧ j < 16 ∧ s.entry (0x6100 + j) 4 < 264) :=
  ⟨⟨{ State.reset with admitQueue := [2] }, 2, ([] : List Nat), by decide⟩,
   ⟨{ State.reset with admitQueue := [2] }, 2, ([] : List Nat), by decide⟩⟩

theorem witness_DescriptorsBind :
    (∃ (s : State), ∃ (j x a : Nat), ∃ (im : Image), j < 16 ∧ (s.job j).state = .running ∧ (s.job j).image = some im ∧
        (s.job j).bindNext = some x ∧ im.handles.length = x + 1 ∧ (s.job j).handles.length = x + 1 ∧ (im.decl x).kind = 1 ∧
        s.isSelf (nodeOf (im.decl x).descAddr) = true ∧ a = localOf (im.decl x).descAddr ∧ inStack a 64 = true ∧ s.rangePoisoned a 64 = false ∧
        s.bindRefusal im x (readDescriptor (s.memBytes a 64)) = none) ∧
    (∃ (s : State), ∃ (j x a code : Nat), ∃ (im : Image), j < 16 ∧ (s.job j).state = .running ∧ (s.job j).image = some im ∧
        (s.job j).bindNext = some x ∧ x < im.handles.length ∧ (im.decl x).kind = 1 ∧ s.isSelf (nodeOf (im.decl x).descAddr) = true ∧
        a = localOf (im.decl x).descAddr ∧ inStack a 64 = true ∧ s.rangePoisoned a 64 = false ∧
        s.bindRefusal im x (readDescriptor (s.memBytes a 64)) = some code) :=
  ⟨⟨handleState { state := .running, bindNext := some 0 } 1, 0, 0, 4096, handleImage 1, by decide⟩,
   ⟨{ handleState { state := .running, bindNext := some 0 } 1 with mem := [] }, 0, 0, 4096, SLOT_POISON, handleImage 1, by decide⟩⟩

theorem witness_CommitWrites :
    (∃ (s : State), ∃ (j x a : Nat), ∃ (im : Image), j < 16 ∧ (s.job j).state = .running ∧ (s.job j).image = some im ∧ (s.job j).runs = true ∧
        s.entry (0x6120 + j) 1 = 0 ∧ ((s.job j).group.all fun g => (s.tile g).hasHalted) = true ∧ im.outputHandles = [x] ∧
        s.isSelf (nodeOf (im.decl x).descAddr) = true ∧ a = localOf (im.decl x).descAddr ∧ inStack a 64 = true ∧ s.inImage a 64 = false ∧
        s.rangePoisoned a 64 = false ∧ s.commitWaits im = false) ∧
    (∃ (s : State), ∃ (j x a : Nat), ∃ (im : Image), j < 16 ∧ (s.job j).image = some im ∧ (s.job j).drain = .commit ∧
        ((s.job j).commits.any fun c => c.handle = x && !c.validWritten) = true ∧ s.supervisorBusy j (some x) = false ∧
        s.isSelf (nodeOf (im.decl x).descAddr) = true ∧ a = localOf (im.decl x).descAddr ∧ inStack a 8 = true ∧ s.inImage a 8 = false ∧
        s.rangePoisoned a 8 = false) ∧
    (∃ (s : State), ∃ (j a : Nat), ∃ (im : Image), j < 16 ∧ (s.job j).state = .draining ∧ (s.job j).image = some im ∧ (s.job j).drain = .commit ∧
        (s.job j).commits = [] ∧ s.supervisorBusy j none = false ∧ (s.job j).commitFailed = 0 ∧ (s.pendingGroups.any fun g => g.job = j) = false ∧
        im.cert.completionAddr ≠ 0 ∧ s.isSelf (nodeOf im.cert.completionAddr) = true ∧ a = localOf im.cert.completionAddr ∧ inStack a 8 = true ∧
        a % 8 = 0 ∧ s.inImage a 8 = false ∧ s.rangePoisoned a 8 = false) :=
  ⟨⟨{ handleState { state := .running } 2 with tiles := [(0, { run := .halted }), (1, { run := .halted })] }, 0, 0, 4096, handleImage 2, by decide⟩,
   ⟨handleState { state := .draining, drain := .commit, commits := [{ handle := 0, validWritten := false }] } 2, 0, 0, 4096, handleImage 2,
       by decide⟩,
   ⟨jobState { state := .draining, drain := .commit, image := some { (default : Image) with cert := { (default : Cert) with completionAddr := 64, completionInc := 3 } } }, 0, 64, { (default : Image) with cert := { (default : Cert) with completionAddr := 64, completionInc := 3 } }, by decide⟩⟩

theorem witness_JobsEnd :
    (∃ (s : State), ∃ (j : Nat), ∃ (im : Image), j < 16 ∧ (s.job j).image = some im ∧ (s.job j).state = .draining ∧ (s.job j).drain = .abort ∧
        (s.job j).cleaned = true ∧ s.markingWaits im = false ∧ (s.job j).inFlight = []) ∧
    (∃ (s : State), ∃ (j : Nat), ∃ (im : Image), j < 16 ∧ (s.job j).image = some im ∧ (s.job j).state = .running ∧ (s.job j).runs = true ∧
        s.entry (0x6120 + j) 1 ≠ 0 ∧ ((s.job j).group.all fun g => (s.tile g).isStopped && (s.tile g).drained) = true) ∧
    (∃ (s : State), ∃ (j : Nat), ∃ (im : Image), j < 16 ∧ (s.job j).image = some im ∧ (s.job j).state = .running ∧ (s.job j).runs = true ∧
        s.entry (0x6120 + j) 1 ≠ 0 ∧ ((s.job j).group.all fun g => s.settled j g) = true ∧
        ((s.job j).group.any fun g => !(s.tile g).isStopped) = true) :=
  ⟨⟨jobState { state := .draining, drain := .abort, cleaned := true, abortCode := 0x501 }, 0, default, by decide⟩,
   ⟨{ (jobState { state := .running }).setEntry 0x6120 1 5 with tiles := [(0, { stopped := true }), (1, { run := .halted })] }, 0, default,
       by decide⟩,
   ⟨{ (jobState { state := .running }).setEntry 0x6120 1 5 with now := 2 ^ 40, tiles := [(0, { stopped := true }), (1, { run := .held })] }, 0,
       default, by decide⟩⟩

/-! ### Witnesses: part 3 of the statements -/

/-- A state whose tile 0 runs a bundle of a job with scratchpad rows 0 to 99 declared, line 0 cached, a modulus in Q0, a full row 5. -/
def bundleState : State :=
  { jobState { state := .running, image := some { (default : Image) with format := 2, loops := [(9, 4)], regions := [{ space := 0, flags := 0, kind := 3, lead := 0, size := 100, base := 0 }] } } with
    tiles := [(0, { run := .issuing, nextBundle := 2, icache := [(0, [0])], qregs := [(0, { valid := true, qval := 97 })], tags := [(5, .full)], sregs := [(7, 5)], sched := 10
                    loops := [{ first := 1, last := 2, trip := 3, index := 0 }] })] }

/-- Two stored rows and a result that have their moment. -/
def dueStore : Store := { row := 5, issued := 0, completes := 3, value := [7] }
def dueResult : VResult := { reg := 5, issued := 0, ready := 3, value := [7] }
def smallSet : ParamSet := { (default : ParamSet) with setId := 5, limbs := 2 }
def emptyRowState : State := bundleState.updTile 0 fun x => { x with tags := [(5, .empty)] }
def busyState : State := bundleState.updTile 0 fun x => { x with scoreboard := [{ first := 3, count := 4, mode := .write, owner := 0 }] }

theorem witness_ScalarSlots :
    ∃ (s : State), ∃ (t : Nat), ∃ (level : BitVec 3), ∃ i, Safety.bundleOpen s t ∧ (s.tile t).loopIndex level.toNat = some i :=
  ⟨bundleState, 0, 0, 0, by decide⟩

theorem witness_WideSlots :
    ∃ (s : State), ∃ (t va vb vc qm : Nat), Safety.bundleOpen s t ∧ Safety.modulusReady s t qm ∧ (s.tile t).readyAt va ≤ (s.tile t).sched ∧
        (s.tile t).readyAt vb ≤ (s.tile t).sched ∧ (s.tile t).readyAt vc ≤ (s.tile t).sched :=
  ⟨bundleState, 0, 1, 2, 3, 0, by decide⟩

theorem witness_MovementSlots :
    (∃ (s : State), ∃ (t sb row r : Nat), Safety.bundleOpen s t ∧ s.targetRow t sb row = r ∧ Safety.rowFree s t r ∧ s.tag t r = .full ∧
        (s.tile t).covered r 1 [.write] = false) ∧
    (∃ (s : State), ∃ (t v sb row r : Nat), ∃ (waitEmpty : Bool), Safety.bundleOpen s t ∧ s.targetRow t sb row = r ∧ Safety.rowFree s t r ∧
        (s.tile t).readyAt v ≤ (s.tile t).sched ∧ (s.tile t).covered r 1 [.read, .write, .tagged] = false ∧ (waitEmpty = true → s.tag t r = .empty)) ∧
    (∃ (s : State), ∃ (t sb row r : Nat), Safety.bundleOpen s t ∧ s.targetRow t sb row = r ∧ Safety.rowFree s t r ∧ (s.tile t).covered r 1 [.read,
        .write, .tagged] = false) ∧
    (∃ (s : State), ∃ (t row : Nat), ∃ (m : Store), t < 64 ∧ (s.tile t).running = [] ∧
        ((s.tile t).stores.find? fun m => m.row = row && (s.tile t).storeDue m) = some m) ∧
    (∃ (s : State), ∃ (t vd : Nat), ∃ (r : VResult), t < 64 ∧ ((s.tile t).flight.find? fun r => r.reg = vd && (s.tile t).resultDue r) = some r) :=
  ⟨⟨bundleState, 0, 7, 0, 5, by decide⟩,
   ⟨emptyRowState, 0, 1, 0, 5, 5, true, by decide⟩,
   ⟨bundleState, 0, 7, 0, 5, by decide⟩,
   ⟨{ bundleState with tiles := [(0, { stores := [dueStore], sched := 3 })] }, 0, 5, dueStore, by decide⟩,
   ⟨{ bundleState with tiles := [(0, { flight := [dueResult], sched := 3 })] }, 0, 5, dueResult, by decide⟩⟩

theorem witness_NarrowSlots :
    (∃ (s : State), ∃ (t sa c : Nat), ∃ (imm : BitVec 16), Safety.bundleOpen s t ∧ s.narrowTarget t sa imm = c ∧ Safety.rowFree s t (c / 1024) ∧
        s.tag t (c / 1024) = .full) ∧
    (∃ (s : State), ∃ (t setId limb : Nat), ∃ (p : ParamSet), Safety.bundleOpen s t ∧ s.set? setId = some p ∧ limb < p.limbs + p.special) :=
  ⟨⟨bundleState, 0, 0, 5121, 5121, by decide⟩,
   ⟨{ bundleState with sets := [(3, smallSet)] }, 0, 5, 1, smallSet, by decide⟩⟩

theorem witness_ControlSlots :
    (∃ (s : State), ∃ (t : Nat), ∃ i, Safety.bundleOpen s t ∧ i ∈ [Instr.wnop t, Instr.mnop t, Instr.xnop t]) ∧
    (∃ (s : State), ∃ (t : Nat), Safety.bundleOpen s t) ∧
    (∃ (s : State), ∃ (t : Nat), ∃ (row count : Nat), ∃ (any : Bool), Safety.bundleOpen s t ∧ (s.tile t).covered row count (if any then [.read,
        .write, .tagged] else [.write, .tagged]) = false) ∧
    (∃ (s : State), ∃ (t : Nat), Safety.bundleOpen s t ∧ (s.tile t).queue = [] ∧ (s.tile t).running = []) ∧
    (∃ (s : State), ∃ (t : Nat), ∃ (row count : Nat), ∃ (any : Bool), Safety.bundleOpen s t ∧ (s.tile t).covered row count (if any then [.read,
        .write, .tagged] else [.write, .tagged]) = true) ∧
    (∃ (s : State), ∃ (t index : Nat), ∃ (im : Image), ∃ (e : Nat × Nat), Safety.bundleOpen s t ∧ s.imageOf t = some im ∧
        im.loops[index]? = some e ∧ (s.tile t).nextBundle < e.1) ∧
    (∃ (s : State), ∃ (t : Nat), ∃ (f : LoopFrame), ∃ (fs : List LoopFrame), Safety.bundleOpen s t ∧ (s.tile t).loops = f :: fs ∧
        f.last = (s.tile t).nextBundle ∧ f.index + 1 < f.trip) ∧
    (∃ (s : State), ∃ (t line : Nat), t < 64 ∧ (s.tile t).lineWait.contains line = true) ∧
    (∃ (s : State), ∃ (t : Nat), t < 64 ∧ 0 < (s.tile t).freeze) :=
  ⟨⟨bundleState, 0, Instr.wnop 0, by decide⟩,
   ⟨bundleState, 0, by decide⟩,
   ⟨bundleState, 0, 5, 1, true, by decide⟩,
   ⟨bundleState, 0, by decide⟩,
   ⟨busyState, 0, 5, 1, false, by decide⟩,
   ⟨bundleState, 0, 0, (bundleState.imageOf 0).get (by decide), (9, 4), by decide⟩,
   ⟨bundleState, 0, { first := 1, last := 2, trip := 3, index := 0 }, ([] : List LoopFrame), by decide⟩,
   ⟨{ State.reset with tiles := [(9, { lineWait := [4], freeze := 3 })] }, 9, 4, by decide⟩,
   ⟨{ State.reset with tiles := [(9, { lineWait := [4], freeze := 3 })] }, 9, by decide⟩⟩

theorem witness_SlipsEndTheJob :
    ∃ (s : State), ∃ (t j va : Nat), Safety.bundleOpen s t ∧ s.jobOfTile t = some j ∧ (s.tile t).sched < (s.tile t).readyAt va :=
  ⟨bundleState.updTile 0 fun x => { x with ready := [(1, 12)] }, 0, 0, 1, by decide⟩

/-! ### Witnesses: part 4 of the statements -/

/-- The tile of `bundleState` about to issue a long operation of the given code, in a job with one tile pair and two handles. -/
def lopState (op : LongOp) (group : List Nat) : State :=
  { bundleState with
    jobs := [(0, { state := .running, group := group
                   handles := [{ (default : Handle) with set := 5, comps := 2, level := 3 }, { (default : Handle) with set := 5, comps := 2, level := 3 }]
                   image := some { (default : Image) with format := 2, longOps := [op]
                                                          regions := [{ space := 0, flags := 0, kind := 0, lead := 0, size := 100, base := 0 }] } })]
    sets := [(0, { (default : ParamSet) with setId := 5, limbs := 4, logN := 12 })] }

def lopImage (op : LongOp) : Image :=
  { (default : Image) with format := 2, longOps := [op], regions := [{ space := 0, flags := 0, kind := 0, lead := 0, size := 100, base := 0 }] }

/-- An entry of the given code: TRANSPOSE of rows 32 to 63 into rows 64 to 95, or the like. -/
def lopOf (code : Nat) : LongOp := { (default : LongOp) with code := code, rgnA := (32, 32), rgnD := (64, 32), hinb := 0xFFFF, hout := 1 }

/-- An instance of it that runs on tile 0. -/
def lopInst (code : Nat) : LopInst :=
  { id := 4, index := 0, op := lopOf code, sa := 0, rgnA := (32, 32), rgnD := (64, 32), opnd := 3 }

/-- A state in which that instance runs, with its source rows FULL and its first destination row EMPTY. -/
def runState (o : LopInst) : State :=
  { lopState o.op [0, 1] with
    tiles := [(0, { run := .issuing, running := [o], tags := ((List.range 32).map fun i => (32 + i, Tag.full)) ++ [(64, .empty)], signalsOut := [9] })] }

/-- What a LOP bundle of a tile makes of an entry. -/
def made (s : State) (t : Nat) (op : LongOp) : LopInst := (s.tile t).instanceOf 0 op ((s.tile t).sreg 0)

/-- The same state with the second tile of the group about to issue. -/
def otherTile (op : LongOp) : State := { lopState op [0, 1] with tiles := [(1, { run := .issuing, icache := [(0, [0])] })] }

/-- A transfer in of 2 rows of a small layout from address 0 of this device. -/
def xferInst (mode : Nat) : LopInst :=
  { id := 4, index := 0, op := { lopOf lopXferIn with rgnD := (64, 2), rgnA := (0, 0), mode := mode, hina := 0, tab := 1, a64 := 0xFFFF000000000000 }, sa := 0, rgnD := (64, 2) }

/-- That layout: two rows of two 32-bit elements. -/
def smallLayout : Layout := { canonicalLayout 2 2 with ew := 3, boundBytes := 16 }

def xferImage (mode : Nat) : Image := { lopImage (xferInst mode).op with layouts := [smallLayout] }

/-- A state in which that transfer runs. -/
def xferState (x : LopInst) (mode : Nat) : State := (runState x).updJob 0 fun y => { y with image := some (xferImage mode) }

/-- An image with that operation, rows 0 to 99 declared, and the first bytes of memory of this device. -/
def issueImage (op : LongOp) : Image :=
  { lopImage op with
    layouts := [smallLayout]
    regions := [{ space := 0, flags := 0, kind := 0, lead := 0, size := 100, base := 0 }, { space := 1, flags := 0, kind := 0, lead := 0, size := 4096, base := 0xFFFF000000000000 }] }

/-- A state about to issue an operation: Q0 holds a modulus of set 5, whose packed handles have two components at level 3. -/
def issueState (op : LongOp) (lead : Bool) : State :=
  { lopState op [0, 1] with
    jobs := [(0, { state := .running, group := [0, 1]
                   handles := [{ (default : Handle) with set := 5, comps := 2, level := 3 }, { (default : Handle) with set := 5, comps := 2, level := 1 }]
                   image := some (issueImage op) })]
    tiles := [(if lead then 0 else 1, { run := .issuing, icache := [(0, [0])], qregs := [(0, { valid := true, setId := 5, qval := 97 })] })]
    sets := [(0, { (default : ParamSet) with setId := 5, limbs := 4, logN := 12, dnum := 3 })] }
/-- What a step answers, taken apart. -/
def stepHandle (r : StepResult) : Handle × Nat × Option Nat := match r with | .ok h l c => (h, l, c) | .refused _ _ => default
def stepCode (r : StepResult) : Nat × Nat := match r with | .ok _ _ _ => default | .refused c h => (c, h)
/-- The operations, each with operands in range. -/
def xferOp (code : Nat) : LongOp := { lopOf code with rgnA := if code = lopXferOut then (64, 2) else (0, 0), rgnD := if code = lopXferOut then (0, 0) else (64, 2), tab := 1, a64 := 0xFFFF000000000000 }
def signalOp : LongOp := { (default : LongOp) with code := lopSignalCode, a64 := 0xFFFF000000000040, opnd := 1 }
def bconvOp : LongOp := { lopOf lopBconv with comps := 1, opnd := 0x00040004 }
def ledgerOp (mode : Nat) : LongOp := { (default : LongOp) with code := lopLedger, mode := mode, hinb := 0xFFFF, hout := 1 }
def spanImage : Image := { issueImage ({ lopOf lopBatch with opnd := 3, a64 := 0x0000000800000000, rgnA := (0, 2), rgnB := (5, 1), rgnD := (64, 2) }) with spans := [{ (default : Span) with refresh := [0] }] }

theorem witness_LongOpsQueue :
    (∃ (s : State), ∃ (t index sa j : Nat), ∃ (im : Image), ∃ (op : LongOp), ∃ (o : LopInst), Safety.lopReady s t index sa j im op o ∧
        op.code = lopNtt) ∧
    (∃ (s : State), ∃ (t index sa j : Nat), ∃ (im : Image), ∃ (op : LongOp), ∃ (o : LopInst), Safety.lopReady s t index sa j im op o ∧
        op.code = lopAutomorph) ∧
    (∃ (s : State), ∃ (t index sa j : Nat), ∃ (im : Image), ∃ (op : LongOp), ∃ (o : LopInst), Safety.lopReady s t index sa j im op o ∧
        op.code = lopTranspose) ∧
    (∃ (s : State), ∃ (t index sa j : Nat), ∃ (im : Image), ∃ (op : LongOp), ∃ (o : LopInst), Safety.lopReady s t index sa j im op o ∧
        op.code = lopBconv) ∧
    (∃ (s : State), ∃ (t index sa j : Nat), ∃ (im : Image), ∃ (op : LongOp), ∃ (o : LopInst), Safety.lopReady s t index sa j im op o ∧
        op.code = lopXferIn) ∧
    (∃ (s : State), ∃ (t index sa j : Nat), ∃ (im : Image), ∃ (op : LongOp), ∃ (o : LopInst), Safety.lopReady s t index sa j im op o ∧
        op.code = lopXferOut) ∧
    (∃ (s : State), ∃ (t index sa j : Nat), ∃ (im : Image), ∃ (op : LongOp), ∃ (o : LopInst), Safety.lopReady s t index sa j im op o ∧
        op.code = lopSignalCode) ∧
    (∃ (s : State), ∃ (t index sa j : Nat), ∃ (im : Image), ∃ (op : LongOp), ∃ (o : LopInst), Safety.lopReady s t index sa j im op o ∧
        op.code = lopFenceCode) ∧
    (∃ (s : State), ∃ (t index sa j : Nat), ∃ (im : Image), ∃ (op : LongOp), ∃ (o : LopInst), Safety.lopReady s t index sa j im op o ∧
        t ≠ (s.job j).lead ∧ op.code = lopRescale) ∧
    (∃ (s : State), ∃ (t index sa j : Nat), ∃ (im : Image), ∃ (op : LongOp), ∃ (o : LopInst), Safety.lopReady s t index sa j im op o ∧
        t ≠ (s.job j).lead ∧ op.code = lopKsip) ∧
    (∃ (s : State), ∃ (t index sa j : Nat), ∃ (im : Image), ∃ (op : LongOp), ∃ (o : LopInst), Safety.lopReady s t index sa j im op o ∧
        t ≠ (s.job j).lead ∧ op.code = lopModdown) ∧
    (∃ (s : State), ∃ (t index sa j : Nat), ∃ (im : Image), ∃ (op : LongOp), ∃ (o : LopInst), Safety.lopReady s t index sa j im op o ∧
        t ≠ (s.job j).lead ∧ op.code = lopBatch ∧ (s.job j).isStandby im index = false) ∧
    (∃ (s : State), ∃ (t index sa j : Nat), ∃ (im : Image), ∃ (op : LongOp), ∃ (o : LopInst), Safety.lopReady s t index sa j im op o ∧
        t ≠ (s.job j).lead ∧ op.code = lopBatch ∧ (s.job j).isStandby im index = true) ∧
    (∃ (s : State), ∃ (t index sa j : Nat), ∃ (im : Image), ∃ (op : LongOp), ∃ (o : LopInst), Safety.lopReady s t index sa j im op o ∧
        t ≠ (s.job j).lead ∧ op.code = lopExtract) ∧
    (∃ (s : State), ∃ (t index sa j : Nat), ∃ (im : Image), ∃ (op : LongOp), ∃ (o : LopInst), Safety.lopReady s t index sa j im op o ∧
        t ≠ (s.job j).lead ∧ op.code = lopPack) ∧
    (∃ (s : State), ∃ (t index sa j : Nat), ∃ (im : Image), ∃ (op : LongOp), ∃ (o : LopInst), Safety.lopReady s t index sa j im op o ∧
        t ≠ (s.job j).lead ∧ op.code = lopModraise) :=
  ⟨⟨issueState (lopOf lopNtt) true, 0, 0, 0, 0, issueImage (lopOf lopNtt), lopOf lopNtt, made (issueState (lopOf lopNtt) true) 0 (lopOf lopNtt),
      by decide⟩,
   ⟨issueState ({ lopOf lopAutomorph with opnd := 5 }) true, 0, 0, 0, 0, issueImage ({ lopOf lopAutomorph with opnd := 5 }),
       { lopOf lopAutomorph with opnd := 5 },
       made (issueState ({ lopOf lopAutomorph with opnd := 5 }) true) 0 ({ lopOf lopAutomorph with opnd := 5 }), by decide⟩,
   ⟨issueState (lopOf lopTranspose) true, 0, 0, 0, 0, issueImage (lopOf lopTranspose), lopOf lopTranspose,
       made (issueState (lopOf lopTranspose) true) 0 (lopOf lopTranspose), by decide⟩,
   ⟨issueState (bconvOp) true, 0, 0, 0, 0, issueImage (bconvOp), bconvOp, made (issueState (bconvOp) true) 0 (bconvOp), by decide⟩,
   ⟨issueState (xferOp lopXferIn) true, 0, 0, 0, 0, issueImage (xferOp lopXferIn), xferOp lopXferIn,
       made (issueState (xferOp lopXferIn) true) 0 (xferOp lopXferIn), by decide⟩,
   ⟨issueState (xferOp lopXferOut) true, 0, 0, 0, 0, issueImage (xferOp lopXferOut), xferOp lopXferOut,
       made (issueState (xferOp lopXferOut) true) 0 (xferOp lopXferOut), by decide⟩,
   ⟨issueState (signalOp) true, 0, 0, 0, 0, issueImage (signalOp), signalOp, made (issueState (signalOp) true) 0 (signalOp), by decide⟩,
   ⟨issueState ({ (default : LongOp) with code := lopFenceCode }) true, 0, 0, 0, 0, issueImage ({ (default : LongOp) with code := lopFenceCode }),
       { (default : LongOp) with code := lopFenceCode },
       made (issueState ({ (default : LongOp) with code := lopFenceCode }) true) 0 ({ (default : LongOp) with code := lopFenceCode }), by decide⟩,
   ⟨issueState (lopOf lopRescale) false, 1, 0, 0, 0, issueImage (lopOf lopRescale), lopOf lopRescale,
       made (issueState (lopOf lopRescale) false) 1 (lopOf lopRescale), by decide⟩,
   ⟨issueState ({ lopOf lopKsip with opnd := 2 }) false, 1, 0, 0, 0, issueImage ({ lopOf lopKsip with opnd := 2 }),
       { lopOf lopKsip with opnd := 2 }, made (issueState ({ lopOf lopKsip with opnd := 2 }) false) 1 ({ lopOf lopKsip with opnd := 2 }), by decide⟩,
   ⟨issueState (lopOf lopModdown) false, 1, 0, 0, 0, issueImage (lopOf lopModdown), lopOf lopModdown,
       made (issueState (lopOf lopModdown) false) 1 (lopOf lopModdown), by decide⟩,
   ⟨issueState ({ lopOf lopBatch with opnd := 3, a64 := 0x0000000800000000, rgnA := (0, 2), rgnB := (5, 1), rgnD := (64, 2) }) false, 1, 0, 0, 0,
       issueImage ({ lopOf lopBatch with opnd := 3, a64 := 0x0000000800000000, rgnA := (0, 2), rgnB := (5, 1), rgnD := (64, 2) }),
       { lopOf lopBatch with opnd := 3, a64 := 0x0000000800000000, rgnA := (0, 2), rgnB := (5, 1), rgnD := (64, 2) },
       made (issueState ({ lopOf lopBatch with opnd := 3, a64 := 0x0000000800000000, rgnA := (0, 2), rgnB := (5, 1), rgnD := (64, 2) }) false) 1 ({ lopOf lopBatch with opnd := 3, a64 := 0x0000000800000000, rgnA := (0, 2), rgnB := (5, 1), rgnD := (64, 2) }), by decide⟩,
   ⟨((issueState ({ lopOf lopBatch with opnd := 3, a64 := 0x0000000800000000, rgnA := (0, 2), rgnB := (5, 1), rgnD := (64, 2) }) false).updJob 0 fun y => ({ y with span := some { (default : SpanSave) with span := 0 }, image := some spanImage })), 1, 0, 0, 0, spanImage, { lopOf lopBatch with opnd := 3, a64 := 0x0000000800000000, rgnA := (0, 2), rgnB := (5, 1), rgnD := (64, 2) }, made ((issueState ({ lopOf lopBatch with opnd := 3, a64 := 0x0000000800000000, rgnA := (0, 2), rgnB := (5, 1), rgnD := (64, 2) }) false).updJob 0 fun y => ({ y with span := some { (default : SpanSave) with span := 0 }, image := some spanImage })) 1 ({ lopOf lopBatch with opnd := 3, a64 := 0x0000000800000000, rgnA := (0, 2), rgnB := (5, 1), rgnD := (64, 2) }), by decide⟩,
   ⟨issueState ({ lopOf lopExtract with opnd := 3, rgnA := (0, 2), rgnB := (5, 1), rgnD := (64, 2) }) false, 1, 0, 0, 0,
       issueImage ({ lopOf lopExtract with opnd := 3, rgnA := (0, 2), rgnB := (5, 1), rgnD := (64, 2) }),
       { lopOf lopExtract with opnd := 3, rgnA := (0, 2), rgnB := (5, 1), rgnD := (64, 2) },
       made (issueState ({ lopOf lopExtract with opnd := 3, rgnA := (0, 2), rgnB := (5, 1), rgnD := (64, 2) }) false) 1 ({ lopOf lopExtract with opnd := 3, rgnA := (0, 2), rgnB := (5, 1), rgnD := (64, 2) }), by decide⟩,
   ⟨issueState ({ lopOf lopPack with opnd := 3, rgnA := (0, 3) }) false, 1, 0, 0, 0, issueImage ({ lopOf lopPack with opnd := 3, rgnA := (0, 3) }),
       { lopOf lopPack with opnd := 3, rgnA := (0, 3) },
       made (issueState ({ lopOf lopPack with opnd := 3, rgnA := (0, 3) }) false) 1 ({ lopOf lopPack with opnd := 3, rgnA := (0, 3) }), by decide⟩,
   ⟨issueState (lopOf lopModraise) false, 1, 0, 0, 0, issueImage (lopOf lopModraise), lopOf lopModraise,
       made (issueState (lopOf lopModraise) false) 1 (lopOf lopModraise), by decide⟩⟩

theorem witness_LeadTileSteps :
    (∃ (s : State), ∃ (t index sa j : Nat), ∃ (im : Image), ∃ (op : LongOp), ∃ (o : LopInst), ∃ h limit used,
        Safety.lopReady s t index sa j im op o ∧ op.code = lopLedger ∧ s.judgeStep j (explicitStep o) = .ok h limit used) ∧
    (∃ (s : State), ∃ (t index sa j : Nat), ∃ (im : Image), ∃ (op : LongOp), ∃ (o : LopInst), ∃ code handle,
        Safety.lopReady s t index sa j im op o ∧ op.code = lopLedger ∧ s.judgeStep j (explicitStep o) = .refused code handle) ∧
    (∃ (s : State), ∃ (t index sa j : Nat), ∃ (im : Image), ∃ (op : LongOp), ∃ (o : LopInst), ∃ h limit used,
        Safety.lopReady s t index sa j im op o ∧ t = (s.job j).lead ∧ op.code = lopRescale ∧ s.judgeStep j (rescaleStep o) = .ok h limit used) ∧
    (∃ (s : State), ∃ (t index sa j : Nat), ∃ (im : Image), ∃ (op : LongOp), ∃ (o : LopInst), ∃ h limit used,
        Safety.lopReady s t index sa j im op o ∧ t = (s.job j).lead ∧ op.code = lopModraise ∧ s.judgeStep j (modraiseStep o) = .ok h limit used) ∧
    (∃ (s : State), ∃ (t index sa j : Nat), ∃ (im : Image), ∃ (op : LongOp), ∃ (o : LopInst), Safety.lopReady s t index sa j im op o ∧
        t = (s.job j).lead ∧ op.code = lopModdown) ∧
    (∃ (s : State), ∃ (t index sa j : Nat), ∃ (im : Image), ∃ (op : LongOp), ∃ (o : LopInst), ∃ code handle,
        Safety.lopReady s t index sa j im op o ∧ t = (s.job j).lead ∧ op.code = lopRescale ∧ s.judgeStep j (rescaleStep o) = .refused code handle) ∧
    (∃ (s : State), ∃ (t index sa j : Nat), ∃ (im : Image), ∃ (op : LongOp), ∃ (o : LopInst), ∃ code handle,
        Safety.lopReady s t index sa j im op o ∧ t = (s.job j).lead ∧ op.code = lopKsip ∧ s.judgeStep j (ksipStep im o) = .refused code handle) ∧
    (∃ (s : State), ∃ (t index sa j : Nat), ∃ (im : Image), ∃ (op : LongOp), ∃ (o : LopInst), ∃ code handle,
        Safety.lopReady s t index sa j im op o ∧ t = (s.job j).lead ∧ op.code = lopExtract ∧
        s.judgeStep j (extractStep o (s.positionsValid t j o)) = .refused code handle) ∧
    (∃ (s : State), ∃ (t index sa j : Nat), ∃ (im : Image), ∃ (op : LongOp), ∃ (o : LopInst), ∃ code handle,
        Safety.lopReady s t index sa j im op o ∧ t = (s.job j).lead ∧ op.code = lopPack ∧ s.judgeStep j (packStep im o) = .refused code handle) ∧
    (∃ (s : State), ∃ (t index sa j : Nat), ∃ (im : Image), ∃ (op : LongOp), ∃ (o : LopInst), ∃ code handle,
        Safety.lopReady s t index sa j im op o ∧ t = (s.job j).lead ∧ op.code = lopModraise ∧
        s.judgeStep j (modraiseStep o) = .refused code handle) :=
  ⟨⟨issueState (ledgerOp 4) true, 0, 0, 0, 0, issueImage (ledgerOp 4), ledgerOp 4, made (issueState (ledgerOp 4) true) 0 (ledgerOp 4),
      (stepHandle ((issueState (ledgerOp 4) true).judgeStep 0 (explicitStep (made (issueState (ledgerOp 4) true) 0 (ledgerOp 4))))).1,
      (stepHandle ((issueState (ledgerOp 4) true).judgeStep 0 (explicitStep (made (issueState (ledgerOp 4) true) 0 (ledgerOp 4))))).2.1,
      (stepHandle ((issueState (ledgerOp 4) true).judgeStep 0 (explicitStep (made (issueState (ledgerOp 4) true) 0 (ledgerOp 4))))).2.2, by decide⟩,
   ⟨issueState (ledgerOp 12) true, 0, 0, 0, 0, issueImage (ledgerOp 12), ledgerOp 12, made (issueState (ledgerOp 12) true) 0 (ledgerOp 12),
       (stepCode ((issueState (ledgerOp 12) true).judgeStep 0 (explicitStep (made (issueState (ledgerOp 12) true) 0 (ledgerOp 12))))).1,
       (stepCode ((issueState (ledgerOp 12) true).judgeStep 0 (explicitStep (made (issueState (ledgerOp 12) true) 0 (ledgerOp 12))))).2, by decide⟩,
   ⟨issueState (lopOf lopRescale) true, 0, 0, 0, 0, issueImage (lopOf lopRescale), lopOf lopRescale,
       made (issueState (lopOf lopRescale) true) 0 (lopOf lopRescale),
       (stepHandle ((issueState (lopOf lopRescale) true).judgeStep 0 (rescaleStep (made (issueState (lopOf lopRescale) true) 0 (lopOf lopRescale))))).1, (stepHandle ((issueState (lopOf lopRescale) true).judgeStep 0 (rescaleStep (made (issueState (lopOf lopRescale) true) 0 (lopOf lopRescale))))).2.1, (stepHandle ((issueState (lopOf lopRescale) true).judgeStep 0 (rescaleStep (made (issueState (lopOf lopRescale) true) 0 (lopOf lopRescale))))).2.2, by decide⟩,
   ⟨issueState ({ lopOf lopModraise with hina := 1 }) true, 0, 0, 0, 0, issueImage ({ lopOf lopModraise with hina := 1 }),
       { lopOf lopModraise with hina := 1 },
       made (issueState ({ lopOf lopModraise with hina := 1 }) true) 0 ({ lopOf lopModraise with hina := 1 }),
       (stepHandle ((issueState ({ lopOf lopModraise with hina := 1 }) true).judgeStep 0 (modraiseStep (made (issueState ({ lopOf lopModraise with hina := 1 }) true) 0 ({ lopOf lopModraise with hina := 1 }))))).1, (stepHandle ((issueState ({ lopOf lopModraise with hina := 1 }) true).judgeStep 0 (modraiseStep (made (issueState ({ lopOf lopModraise with hina := 1 }) true) 0 ({ lopOf lopModraise with hina := 1 }))))).2.1, (stepHandle ((issueState ({ lopOf lopModraise with hina := 1 }) true).judgeStep 0 (modraiseStep (made (issueState ({ lopOf lopModraise with hina := 1 }) true) 0 ({ lopOf lopModraise with hina := 1 }))))).2.2, by decide⟩,
   ⟨issueState (lopOf lopModdown) true, 0, 0, 0, 0, issueImage (lopOf lopModdown), lopOf lopModdown,
       made (issueState (lopOf lopModdown) true) 0 (lopOf lopModdown), by decide⟩,
   ⟨issueState ({ lopOf lopRescale with hina := 9 }) true, 0, 0, 0, 0, issueImage ({ lopOf lopRescale with hina := 9 }),
       { lopOf lopRescale with hina := 9 }, made (issueState ({ lopOf lopRescale with hina := 9 }) true) 0 ({ lopOf lopRescale with hina := 9 }),
       (stepCode ((issueState ({ lopOf lopRescale with hina := 9 }) true).judgeStep 0 (rescaleStep (made (issueState ({ lopOf lopRescale with hina := 9 }) true) 0 ({ lopOf lopRescale with hina := 9 }))))).1, (stepCode ((issueState ({ lopOf lopRescale with hina := 9 }) true).judgeStep 0 (rescaleStep (made (issueState ({ lopOf lopRescale with hina := 9 }) true) 0 ({ lopOf lopRescale with hina := 9 }))))).2, by decide⟩,
   ⟨issueState ({ lopOf lopKsip with opnd := 2, hina := 9 }) true, 0, 0, 0, 0, issueImage ({ lopOf lopKsip with opnd := 2, hina := 9 }),
       { lopOf lopKsip with opnd := 2, hina := 9 },
       made (issueState ({ lopOf lopKsip with opnd := 2, hina := 9 }) true) 0 ({ lopOf lopKsip with opnd := 2, hina := 9 }),
       (stepCode ((issueState ({ lopOf lopKsip with opnd := 2, hina := 9 }) true).judgeStep 0 (ksipStep (issueImage ({ lopOf lopKsip with opnd := 2, hina := 9 })) (made (issueState ({ lopOf lopKsip with opnd := 2, hina := 9 }) true) 0 ({ lopOf lopKsip with opnd := 2, hina := 9 }))))).1, (stepCode ((issueState ({ lopOf lopKsip with opnd := 2, hina := 9 }) true).judgeStep 0 (ksipStep (issueImage ({ lopOf lopKsip with opnd := 2, hina := 9 })) (made (issueState ({ lopOf lopKsip with opnd := 2, hina := 9 }) true) 0 ({ lopOf lopKsip with opnd := 2, hina := 9 }))))).2, by decide⟩,
   ⟨issueState ({ lopOf lopExtract with opnd := 3, rgnA := (0, 2), rgnB := (5, 1), rgnD := (64, 2), hina := 9 }) true, 0, 0, 0, 0,
       issueImage ({ lopOf lopExtract with opnd := 3, rgnA := (0, 2), rgnB := (5, 1), rgnD := (64, 2), hina := 9 }),
       { lopOf lopExtract with opnd := 3, rgnA := (0, 2), rgnB := (5, 1), rgnD := (64, 2), hina := 9 },
       made (issueState ({ lopOf lopExtract with opnd := 3, rgnA := (0, 2), rgnB := (5, 1), rgnD := (64, 2), hina := 9 }) true) 0 ({ lopOf lopExtract with opnd := 3, rgnA := (0, 2), rgnB := (5, 1), rgnD := (64, 2), hina := 9 }), (stepCode ((issueState ({ lopOf lopExtract with opnd := 3, rgnA := (0, 2), rgnB := (5, 1), rgnD := (64, 2), hina := 9 }) true).judgeStep 0 (extractStep (made (issueState ({ lopOf lopExtract with opnd := 3, rgnA := (0, 2), rgnB := (5, 1), rgnD := (64, 2), hina := 9 }) true) 0 ({ lopOf lopExtract with opnd := 3, rgnA := (0, 2), rgnB := (5, 1), rgnD := (64, 2), hina := 9 })) ((issueState ({ lopOf lopExtract with opnd := 3, rgnA := (0, 2), rgnB := (5, 1), rgnD := (64, 2), hina := 9 }) true).positionsValid 0 0 (made (issueState ({ lopOf lopExtract with opnd := 3, rgnA := (0, 2), rgnB := (5, 1), rgnD := (64, 2), hina := 9 }) true) 0 ({ lopOf lopExtract with opnd := 3, rgnA := (0, 2), rgnB := (5, 1), rgnD := (64, 2), hina := 9 })))))).1, (stepCode ((issueState ({ lopOf lopExtract with opnd := 3, rgnA := (0, 2), rgnB := (5, 1), rgnD := (64, 2), hina := 9 }) true).judgeStep 0 (extractStep (made (issueState ({ lopOf lopExtract with opnd := 3, rgnA := (0, 2), rgnB := (5, 1), rgnD := (64, 2), hina := 9 }) true) 0 ({ lopOf lopExtract with opnd := 3, rgnA := (0, 2), rgnB := (5, 1), rgnD := (64, 2), hina := 9 })) ((issueState ({ lopOf lopExtract with opnd := 3, rgnA := (0, 2), rgnB := (5, 1), rgnD := (64, 2), hina := 9 }) true).positionsValid 0 0 (made (issueState ({ lopOf lopExtract with opnd := 3, rgnA := (0, 2), rgnB := (5, 1), rgnD := (64, 2), hina := 9 }) true) 0 ({ lopOf lopExtract with opnd := 3, rgnA := (0, 2), rgnB := (5, 1), rgnD := (64, 2), hina := 9 })))))).2, by decide⟩,
   ⟨issueState ({ lopOf lopPack with opnd := 3, rgnA := (0, 3), hina := 9 }) true, 0, 0, 0, 0,
       issueImage ({ lopOf lopPack with opnd := 3, rgnA := (0, 3), hina := 9 }), { lopOf lopPack with opnd := 3, rgnA := (0, 3), hina := 9 },
       made (issueState ({ lopOf lopPack with opnd := 3, rgnA := (0, 3), hina := 9 }) true) 0 ({ lopOf lopPack with opnd := 3, rgnA := (0, 3), hina := 9 }), (stepCode ((issueState ({ lopOf lopPack with opnd := 3, rgnA := (0, 3), hina := 9 }) true).judgeStep 0 (packStep (issueImage ({ lopOf lopPack with opnd := 3, rgnA := (0, 3), hina := 9 })) (made (issueState ({ lopOf lopPack with opnd := 3, rgnA := (0, 3), hina := 9 }) true) 0 ({ lopOf lopPack with opnd := 3, rgnA := (0, 3), hina := 9 }))))).1, (stepCode ((issueState ({ lopOf lopPack with opnd := 3, rgnA := (0, 3), hina := 9 }) true).judgeStep 0 (packStep (issueImage ({ lopOf lopPack with opnd := 3, rgnA := (0, 3), hina := 9 })) (made (issueState ({ lopOf lopPack with opnd := 3, rgnA := (0, 3), hina := 9 }) true) 0 ({ lopOf lopPack with opnd := 3, rgnA := (0, 3), hina := 9 }))))).2, by decide⟩,
   ⟨issueState ({ lopOf lopModraise with hina := 9 }) true, 0, 0, 0, 0, issueImage ({ lopOf lopModraise with hina := 9 }),
       { lopOf lopModraise with hina := 9 },
       made (issueState ({ lopOf lopModraise with hina := 9 }) true) 0 ({ lopOf lopModraise with hina := 9 }),
       (stepCode ((issueState ({ lopOf lopModraise with hina := 9 }) true).judgeStep 0 (modraiseStep (made (issueState ({ lopOf lopModraise with hina := 9 }) true) 0 ({ lopOf lopModraise with hina := 9 }))))).1, (stepCode ((issueState ({ lopOf lopModraise with hina := 9 }) true).judgeStep 0 (modraiseStep (made (issueState ({ lopOf lopModraise with hina := 9 }) true) 0 ({ lopOf lopModraise with hina := 9 }))))).2, by decide⟩⟩

theorem witness_LongOpsRun :
    (∃ (s : State), ∃ (t j : Nat), ∃ (e : Engine), ∃ (im : Image), ∃ (o : LopInst), ∃ (x : Shape × Nat), t < 64 ∧ (s.tile t).oldestFor e = some o ∧
        s.jobOfTile t = some j ∧ (s.job j).image = some im ∧ (s.job j).state = .running ∧ s.mayDispatch t j im o = true ∧
        x = s.transferShape j im o ∧ (o.op.code = lopXferIn → s.isSelf (nodeOf x.2) = true ∨ s.issueStatus (nodeOf x.2) 2 (localOf x.2) = OK)) ∧
    (∃ (s : State), ∃ (t opId j : Nat), ∃ (im : Image), ∃ (o : LopInst), ∃ (x : RunShape), ∃ (rows : List Row), Safety.lopRuns s t opId j im o ∧
        o.op.code ∉ [lopXferIn, lopXferOut, lopSignalCode, lopFenceCode, lopKeystream] ∧ s.runShape t j o = some x ∧ s.unread t j o = [] ∧
        s.operandFault t j x o = false ∧ ((if o.standby then [] else o.op.keyEntries).findSome? fun k => s.keyWait t j im o k) = none ∧
        s.trailerDue j o = false ∧ o.missRow = none ∧ s.constWait t x o = [] ∧ (o.op.code = lopModdown → (s.specialRows j x o).isSome = true) ∧
        rows = (s.resultRows t j im x o).take o.rgnD.2) ∧
    (∃ (s : State), ∃ (t opId j : Nat), ∃ (im : Image), ∃ (o : LopInst), Safety.lopRuns s t opId j im o ∧ o.op.code = lopFenceCode ∧
        (s.tile t).fenceDone opId = true) ∧
    (∃ (s : State), ∃ (t opId j a : Nat), ∃ (im : Image), ∃ (o : LopInst), Safety.lopRuns s t opId j im o ∧ o.op.code = lopSignalCode ∧
        s.isSelf (nodeOf o.op.a64) = true ∧ a = localOf o.op.a64 ∧ s.counterStatus a .clean = OK) ∧
    (∃ (s : State), ∃ (t opId j : Nat), ∃ (im : Image), ∃ (o : LopInst), Safety.lopRuns s t opId j im o ∧ o.op.code = lopXferIn ∧
        o.op.verifies = false ∧ o.rowsDone = o.inRows ∧ (s.tile t).verifyDue = []) :=
  ⟨⟨((lopState (lopOf lopTranspose) [0, 1]).updTile 0 fun x => { x with queue := [lopInst lopTranspose], tags := (List.range 32).map fun i => (32 + i, Tag.full) }), 0, 0, .exchange, lopImage (lopOf lopTranspose), lopInst lopTranspose, (((lopState (lopOf lopTranspose) [0, 1]).updTile 0 fun x => { x with queue := [lopInst lopTranspose], tags := (List.range 32).map fun i => (32 + i, Tag.full) })).transferShape 0 (lopImage (lopOf lopTranspose)) (lopInst lopTranspose), by decide⟩,
   ⟨runState ({ lopInst lopTranspose with groupsRead := 1, taken := List.replicate 32 [7] }), 0, 4, 0, lopImage (lopOf lopTranspose),
       { lopInst lopTranspose with groupsRead := 1, taken := List.replicate 32 [7] }, ⟨default, 2, 0⟩, _, by decide, by decide, by decide,
       by decide, by decide, by decide, by decide, by decide, by decide, by decide, rfl⟩,
   ⟨(runState (lopInst lopFenceCode)).updTile 0 fun x => { x with signalsOut := [] }, 0, 4, 0, lopImage (lopOf lopFenceCode), lopInst lopFenceCode,
       by decide⟩,
   ⟨runState ({ lopInst lopSignalCode with op := { lopOf lopSignalCode with a64 := 0xFFFF000000000040 } }), 0, 4, 0, 64,
       lopImage ({ lopInst lopSignalCode with op := { lopOf lopSignalCode with a64 := 0xFFFF000000000040 } }).op,
       { lopInst lopSignalCode with op := { lopOf lopSignalCode with a64 := 0xFFFF000000000040 } }, by decide⟩,
   ⟨runState { lopInst lopXferIn with rowsDone := 32, share := 32 }, 0, 4, 0, lopImage (lopOf lopXferIn),
       { lopInst lopXferIn with rowsDone := 32, share := 32 }, by decide⟩⟩

theorem witness_TransposeRows :
    (∃ (s : State), ∃ (t j : Nat), ∃ (im : Image), ∃ (o : LopInst), t < 64 ∧ (s.tile t).oldestFor .exchange = some o ∧ s.jobOfTile t = some j ∧
        (s.job j).image = some im ∧ (s.job j).state = .running ∧ s.mayDispatch t j im o = true ∧ o.op.code = lopTranspose ∧
        (s.tile t).running = [] ∧ o.groupsRead = 0 ∧ o.taken = [] ∧ (∀ i, i < o.rgnA.2 → s.tag t (o.rgnA.1 + i) = .full)) ∧
    (∃ (s : State), ∃ (t opId j : Nat), ∃ (im : Image), ∃ (o : LopInst), Safety.lopRuns s t opId j im o ∧ o.op.code = lopTranspose ∧
        o.taken.length % 32 = 0 ∧ o.taken.length = o.rgnD.2 ∧ s.unread t j o = [] ∧ o.missRow = none) :=
  ⟨⟨((lopState (lopOf lopTranspose) [0, 1]).updTile 0 fun x => { x with queue := [lopInst lopTranspose], tags := (List.range 32).map fun i => (32 + i, Tag.full) }), 0, 0, lopImage (lopOf lopTranspose), lopInst lopTranspose, by decide⟩,
   ⟨runState ({ lopInst lopTranspose with groupsRead := 1, taken := List.replicate 32 [7] }), 0, 4, 0, lopImage (lopOf lopTranspose),
       { lopInst lopTranspose with groupsRead := 1, taken := List.replicate 32 [7] }, by decide⟩⟩

theorem witness_LongOpsProgress :
    (∃ (s : State), ∃ (t line : Nat), t < 64 ∧ s.awaitsLine t line = true ∧ (s.tile t).constLines.length ≤ 16) ∧
    (∃ (s : State), ∃ (t opId j row : Nat), ∃ (im : Image), ∃ (o : LopInst), ∃ (x : Shape × Nat), Safety.lopRuns s t opId j im o ∧
        o.op.code = lopXferIn ∧ o.op.copies = false ∧ o.rowsDone < o.inRows ∧ (s.tile t).earlierUnwritten opId = false ∧
        row = o.rgnD.1 + o.rowsDone ∧ (o.op.overwrites = true ∨ (s.tag t row = .empty ∧ (s.tile t).verifyDue.contains row = false)) ∧
        x = s.transferShape j im o ∧ (s.isSelf (nodeOf x.2) = true → ((s.sourceWords t j x o o.rowsDone).any fun p => (s.placeWaits p).isSome || s.placePoisoned p) = false) ∧ (s.isSelf (nodeOf x.2) = false → (s.remoteOps.any fun r => r.issuer = t && r.opId = opId) = false)) ∧
    (∃ (s : State), ∃ (t opId j : Nat), ∃ (im : Image), ∃ (o : LopInst), ∃ (h : Handle), Safety.lopRuns s t opId j im o ∧ o.op.code = lopXferIn ∧
        o.op.verifies = true ∧ (s.job j).handle? o.op.hina = some h ∧ o.inRows ≠ 0 ∧ o.rowsDone = o.inRows ∧ o.sent = false) ∧
    (∃ (s : State), ∃ (t opId : Nat), t < 64 ∧ (s.tile t).signalsOut.contains opId = true ∧ (s.remoteOps.any fun r => r.waits) = false) ∧
    (∃ (s : State), ∃ (t j row since : Nat), ∃ (im : Image), t < 64 ∧ s.jobOfTile t = some j ∧ (s.job j).image = some im ∧
        (s.job j).state = .running ∧ (s.tile t).run = .held ∧ Tab.get? (s.tile t).heldRows row = some since ∧ since + s.durationBound j < s.now) :=
  ⟨⟨((runState { lopInst lopRescale with level := 2 }).updTile 0 fun x => { x with constLines := [] }), 0, 5 * 1024, by decide⟩,
   ⟨xferState ({ xferInst 0 with share := 2 }) 0, 0, 4, 0, 64, xferImage 0, { xferInst 0 with share := 2 },
       (xferState ({ xferInst 0 with share := 2 }) 0).transferShape 0 (xferImage 0) ({ xferInst 0 with share := 2 }), by decide⟩,
   ⟨xferState ({ xferInst 2 with rowsDone := 2, share := 2 }) 2, 0, 4, 0, xferImage 2, { xferInst 2 with rowsDone := 2, share := 2 },
       { (default : Handle) with set := 5, comps := 2, level := 3 }, by decide⟩,
   ⟨runState (xferInst 0), 0, 9, by decide⟩,
   ⟨{ runState (xferInst 0) with now := 1000, tiles := [(0, { run := .held, holdCause := causeTag, heldRows := [(5, 0)] })] }, 0, 0, 5, 0,
       lopImage (xferInst 0).op, by decide⟩⟩

/-! ### Witnesses: part 5 of the statements -/

/-- A job on tiles 0 and 1 that holds barrier 3, on so many devices. -/
def barrierImage (devices : Nat) : Image :=
  { (default : Image) with cert := { (default : Cert) with barrierMask := 8, devices := devices } }
def barrierState (devices : Nat) (w : BarWait) (b : Barrier) : State :=
  { jobState { state := .running, image := some (barrierImage devices) } with
    tiles := [(0, { run := .held, banks := 1, barWait := w, sched := 5 }), (1, { run := .held, banks := 1, barWait := w })], barriers := [(3, b)] }
def allIn : Barrier := { arrived := [0, 1], sent := true }
def pendingOne : PendingGroup := { ctx := 16, id := 0, job := 0, staged := [(entryKey 0x2200 1, 2)], deadline := 9 }

/-- A conversion of two elements from INT8 to INT32 of this device's memory. -/
def convWord : Nat := 7 + 64 * 6
def conv : Conversion := { tile := 0, source := 4096, destination := 8192, count := 2, word := convWord }
def convState : State := { State.reset with conversion := some conv, mem := [(4096, 60), (4097, 61), (8200, 4)] }
/-- An encoding of two INT8 elements under set 5 at level 1. -/
def encodeConv : Conversion := { tile := 0, source := 4096, destination := 8192, count := 1, word := 83955719 }
def encodeState : State := { State.reset with conversion := some encodeConv, mem := [(4096, 60)], sets := [(0, { (default : ParamSet) with setId := 5, family := 1 })] }
def convReadyState : State := (State.reset.setEntry 0x2820 3 2).setEntry 0x2820 4 convWord

/-- A key-switch key of two rows, one stored and one regenerated. -/
def keySource : ParamSet := { (default : ParamSet) with setId := 5, family := 1, glweK := 1, lweN := 1 }
def keyTarget : ParamSet := { (default : ParamSet) with setId := 7, family := 1, lweN := 1 }
def keyEntry (kind : Nat) : StreamEntry :=
  { (default : StreamEntry) with sourceKind := kind, groupSize := 1, kind := 6, rate := 100, ringKib := 1, destRows := 2, destRow := 100, wireLength := 156, source := 65536, handles := [] }
def keyBytes : List Byte :=
  [0x4B, 0x45, 0x59, 0x53, 2, 6, 5, 1] ++ List.replicate 14 0 ++ [1, 0, 20] ++ List.replicate 7 0 ++ List.replicate 104 0 ++ [7] ++ List.replicate 7 0 ++ [9] ++ List.replicate 111 0
def keyHeader : KeyHeader := readHeader keyBytes
def keyImage (kind : Nat) (ops : List LongOp) : Image :=
  { (default : Image) with format := 2, streams := [keyEntry kind], sets := [5, 7], longOps := ops
                           regions := [{ space := 1, flags := 0, kind := 0, lead := 0, size := 1000, base := 65536 }] }
def streamState (kind : Nat) (x : Stream) : State :=
  { State.reset with
    jobs := [(0, { state := .running, group := [0, 1], image := some (keyImage kind []) })], streams := [(15, { x with job := 0, entry := 0, bound := true })]
    sets := [(0, keySource), (1, keyTarget)], now := 5000, mem := keyBytes.zipIdx.map fun p => (65536 + p.2, p.1)
    tiles := [(0, { banks := 1, tags := [(100, .empty), (101, .empty), (102, .full)] }), (1, { banks := 1, tags := [(100, .empty), (101, .empty), (102, .full)] })] }
def openOp : LongOp := { (default : LongOp) with code := lopKeystream }
def openState : State :=
  { lopState openOp [0] with jobs := [(0, { state := .running, group := [0], image := some (keyImage 0 [openOp]) })] }
def waitingOpen : OpenWait := { job := 0, tile := 0, opId := 6, entry := 0, out := none }
def carrying (n : Nat) : Stream := { state := 2, header := some keyHeader, bytesRead := n }

theorem witness_BarriersMeet :
    (∃ (s : State), ∃ (t j b : Nat), t < 64 ∧ s.jobOfTile t = some j ∧ (s.tile t).barWait = .issued b ∧ (s.job j).state = .running ∧
        (s.tile t).queue = [] ∧ (s.tile t).running = []) ∧
    (∃ (s : State), ∃ (j b : Nat), ∃ (im : Image), j < 16 ∧ s.waitingAt j = some b ∧ (s.job j).state = .running ∧ (s.job j).image = some im ∧
        im.cert.devices ≤ 1 ∧ im.spans = [] ∧ im.phases = [] ∧ (s.job j).span = none ∧ (s.pendingGroups.any fun g => g.job = j) = false) ∧
    (∃ (s : State), ∃ (j b : Nat), ∃ (im : Image), b < 64 ∧ s.barrierJob b = some j ∧ (s.job j).image = some im ∧ (s.barrier b).sent = true ∧
        im.spans = [] ∧ im.phases = [] ∧ (s.job j).span = none ∧ (s.pendingGroups.any fun g => g.job = j) = false) ∧
    (∃ (s : State), ∃ (b j child : Nat), b < 64 ∧ s.barrierJob b = some j ∧ (s.barrier b).children.contains child = false) ∧
    (∃ (s : State), ∃ (b j epoch : Nat), b < 64 ∧ s.barrierJob b = some j ∧ epoch ≠ s.barrierEpoch b) ∧
    (∃ (s : State), ∃ (b j : Nat), b < 64 ∧ s.barrierJob b = some j ∧ s.allArrived j b = true ∧
        (s.barrier b).lastArrival + (s.barrier b).limit ≤ s.now ∧ (s.job j).state = .running) ∧
    (∃ (s : State), ∃ (j b v ctx id d : Nat), ∃ (im : Image), j < 16 ∧ s.waitingAt j = some b ∧ (s.job j).state = .running ∧
        (s.job j).image = some im ∧ im.cert.devices ≤ 1 ∧ im.spans = [] ∧ im.phases = [] ∧ (s.job j).span = none ∧ v < 3 ∧
        s.hasContext ctx = true ∧ (s.context ctx).groupId = id ∧
        s.pendingGroups = [{ ctx := ctx, id := id, job := j, staged := [(entryKey (0x2200 + j) 1, v)], deadline := d }]) :=
  ⟨⟨barrierState 1 (.issued 3) { arrived := [1] }, 0, 0, 3, by decide⟩,
   ⟨barrierState 1 (.arrived 3) allIn, 0, 3, barrierImage 1, by decide⟩,
   ⟨barrierState 2 (.arrived 3) allIn, 0, 3, barrierImage 2, by decide⟩,
   ⟨barrierState 2 (.arrived 3) {}, 3, 0, 9, by decide⟩,
   ⟨barrierState 2 (.arrived 3) {}, 3, 0, 1, by decide⟩,
   ⟨{ barrierState 2 (.arrived 3) { allIn with limit := 99 } with now := 1000000000 }, 3, 0, by decide⟩,
   ⟨{ barrierState 1 (.arrived 3) allIn with pendingGroups := [pendingOne], contexts := [(16, {})] }, 0, 3, 2, 16, 0, 9, barrierImage 1, by decide⟩⟩

theorem witness_DirectConversion :
    (∃ (s : State), ∃ (ctx t : Nat), Safety.direct s ctx = true ∧ s.conversion = none ∧ s.convTile = some t ∧
        cwValid (s.entry 0x2820 4) (s.entry 0x2820 3) (s.set? (cwSet (s.entry 0x2820 4))) = true ∧
        (cwMode (s.entry 0x2820 4) = 1 → s.entry 0x2820 2 % 64 = 0) ∧ s.convReach (s.convEntries t) = true ∧
        (s.isSelf (nodeOf (s.entry 0x2820 1)) = true ∨ s.issueStatus (nodeOf (s.entry 0x2820 1)) 2 (localOf (s.entry 0x2820 1)) = OK)) ∧
    (∃ (s : State), ∃ (ctx : Nat), ∃ (c : Conversion), Safety.direct s ctx = true ∧ s.conversion = some c) ∧
    (∃ (s : State), ∃ (c : Conversion), ∃ (a status : Nat), ∃ (remote b : List Byte), s.conversion = some c ∧ cwMode c.word = 0 ∧
        c.stage = .reading ∧ s.remoteOps.any c.owns = false ∧ s.convStatus c status = OK ∧ s.isSelf (nodeOf c.destination) = true ∧
        a = localOf c.destination ∧ b = (convertFormat c.word c.count (s.convSource c remote)).1 ∧ s.rangePoisoned a b.length = false) ∧
    (∃ (s : State), ∃ (c : Conversion), ∃ (a status : Nat), ∃ (remote : List Byte), ∃ (p : ParamSet), ∃ (r : ConvResult), s.conversion = some c ∧
        cwMode c.word = 1 ∧ c.stage = .reading ∧ s.convSet c = some p ∧ s.remoteOps.any c.owns = false ∧ s.convStatus c status = OK ∧
        s.isSelf (nodeOf c.destination) = true ∧ a = localOf c.destination ∧ localOf (c.destination + 64) = a + 64 ∧
        r = s.convResult c (s.convSource c remote) ∧ s.rangePoisoned a (64 + r.body.length) = false) ∧
    (∃ (s : State), ∃ (c : Conversion), ∃ (code status : Nat), s.conversion = some c ∧ c.stage = .reading ∧ s.remoteOps.any c.owns = false ∧
        s.convStatus c status = code ∧ code ≠ OK) :=
  ⟨⟨convReadyState, 0, 0, by decide⟩,
   ⟨convState, 0, conv, by decide⟩,
   ⟨convState, conv, 8192, 0, ([] : List Byte), (convertFormat convWord 2 (convState.memBytes 4096 conv.sourceLength)).1, by decide⟩,
   ⟨encodeState, encodeConv, 8192, 0, ([] : List Byte), { (default : ParamSet) with setId := 5, family := 1 },
       encodeState.convResult encodeConv (encodeState.convSource encodeConv []), by decide⟩,
   ⟨{ convState with wordPoison := [128] }, conv, SLOT_POISON, 0, by decide⟩⟩

theorem witness_StreamsOpen :
    (∃ (s : State), ∃ (t index sa j k : Nat), ∃ (im : Image), ∃ (op : LongOp), ∃ (o : LopInst), ∃ (e : StreamEntry),
        Safety.lopReady s t index sa j im op o ∧ op.code = lopKeystream ∧ im.streams[bits op.tab 0 8]? = some e ∧
        (s.job j).opened.contains (bits op.tab 0 8) = false ∧ s.openWaits = [] ∧ s.freeStream = some k ∧ s.sourceGranted im e = true ∧
        Safety.sourceReach s e = true) ∧
    (∃ (s : State), ∃ (k : Nat), ∃ (w : OpenWait), ∃ (rest : List OpenWait), ∃ (im : Image), ∃ (e : StreamEntry), s.openWaits = w :: rest ∧
        s.freeStream = some k ∧ (s.job w.job).image = some im ∧ im.streams[w.entry]? = some e ∧ s.sourceGranted im e = true ∧
        Safety.sourceReach s e = true) ∧
    (∃ (s : State), ∃ (k m : Nat), ∃ (im : Image), ∃ (e : StreamEntry), s.rateWindowAt < s.fabricTime / 1000 ∧
        m = s.fabricTime / 1000 - s.rateWindowAt ∧ Safety.sourcesReach s = true ∧ k < 16 ∧ s.streamEntry (s.stream k) = some (im, e)) ∧
    (∃ (s : State), ∃ (k : Nat), ∃ (granule : List Byte), ∃ (im : Image), ∃ (e : StreamEntry), ∃ (h : KeyHeader), k < 16 ∧
        s.streamEntry (s.stream k) = some (im, e) ∧ (s.stream k).state = 1 ∧ e.sourceKind ≠ 4 ∧ s.arrivedAt k e = true ∧
        s.sourcePoisoned e 0 (min 256 e.wireLength) = false ∧ h = readHeader (s.sourceBytes e 0 256 granule) ∧
        s.headerError (s.stream k).job im h e (s.stream k).out = none ∧ Safety.sourceReach s e = true) ∧
    (∃ (s : State), ∃ (k code : Nat), ∃ (granule : List Byte), ∃ (im : Image), ∃ (e : StreamEntry), ∃ (h : KeyHeader), k < 16 ∧
        s.streamEntry (s.stream k) = some (im, e) ∧ (s.stream k).state = 1 ∧ e.sourceKind ≠ 4 ∧ s.arrivedAt k e = true ∧
        s.sourcePoisoned e 0 (min 256 e.wireLength) = false ∧ h = readHeader (s.sourceBytes e 0 256 granule) ∧
        s.headerError (s.stream k).job im h e (s.stream k).out = some code ∧ (s.job (s.stream k).job).state = .running) :=
  ⟨⟨openState, 0, 0, 0, 0, 0, keyImage 0 [openOp], openOp, made openState 0 openOp, keyEntry 0, by decide⟩,
   ⟨{ openState with openWaits := [waitingOpen], streams := [(0, { bound := true })] }, 1, waitingOpen, ([] : List OpenWait), keyImage 0 [openOp],
       keyEntry 0, by decide⟩,
   ⟨{ streamState 0 { windowBytes := 77, deferredWindow := true } with now := 1000 }, 15, 1, keyImage 0 [], keyEntry 0, by decide⟩,
   ⟨streamState 0 { state := 1 }, 15, [], keyImage 0 [], keyEntry 0, keyHeader, by decide⟩,
   ⟨streamState 1 { state := 1, asked := true }, 15, KEY_FORMAT, [], keyImage 1 [], keyEntry 1, readHeader [], by decide⟩⟩

theorem witness_StreamsCarryOrFail :
    (∃ (s : State), ∃ (k : Nat), ∃ (data bs : List Byte), ∃ (im : Image), ∃ (e : StreamEntry), ∃ (h : KeyHeader), ∃ (row : KeyRow),
        ∃ (sets : ParamSet × ParamSet), ∃ (ks : List (Nat × Nat)), ∃ (r : Nat × Nat), k < 16 ∧ s.streamEntry (s.stream k) = some (im, e) ∧
        (s.stream k).header = some h ∧ nextStored (s.streamRows h e) (s.stream k).storedRow = some row ∧ s.keySets h = some sets ∧
        ((s.stream k).state = 2 ∨ (s.stream k).state = 3) ∧ (row.wire = 0 ∨ s.arrivedAt k e = true) ∧
        (e.sourceKind = 1 ∨ e.sourceKind = 2 ∨ (s.stream k).windowBytes < e.budget) ∧ r = rowRange h sets.2 (s.stream k) row ∧
        s.sourcePoisoned e r.1 r.2 = false ∧ Safety.sourceReach s e = true ∧ ks = s.keepers (s.stream k).job e h (s.stream k).storedRow ∧
        (∀ p ∈ ks, s.ringReady p.1 e (s.tileShare (s.stream k).job p.1 h e) (s.keptStored (s.stream k).job p.1 h e (s.stream k).storedRow) (Tab.get (s.stream k).uniform 0 p.1) p.2 = true) ∧ bs = s.sourceBytes e r.1 r.2 data) ∧
    (∃ (s : State), ∃ (k t i : Nat), ∃ (im : Image), ∃ (e : StreamEntry), ∃ (h : KeyHeader), ∃ (sets : ParamSet × ParamSet), ∃ (row : KeyRow),
        ∃ (ts : List Nat), k < 16 ∧ s.lateStreams = [] ∧ s.streamEntry (s.stream k) = some (im, e) ∧ (s.stream k).header = some h ∧
        s.keySets h = some sets ∧ s.nextUniform (s.stream k) h e t = some i ∧ row = (s.tileShare (s.stream k).job t h e).getD i default ∧
        (s.stream k).state ∈ [2, 3, 4] ∧ (s.job (s.stream k).job).group.contains t = true ∧ ts = s.uniformTargets (s.stream k) h sets.1 row t ∧
        ts ≠ [] ∧ (∀ u ∈ ts, s.ringReady u e (s.tileShare (s.stream k).job u h e) (s.keptStored (s.stream k).job u h e (s.stream k).storedRow) (Tab.get (s.stream k).uniform 0 u) i = true)) ∧
    (∃ (s : State), ∃ (k : Nat), ∃ (trailer : Word), ∃ (im : Image), ∃ (e : StreamEntry), ∃ (got : Nat), k < 16 ∧
        s.streamEntry (s.stream k) = some (im, e) ∧ (s.stream k).bytesRead + 8 = e.wireLength ∧
        ((s.stream k).state = 3 ∨ (s.stream k).state = if e.sourceKind = 4 then 1 else 2) ∧ s.arrivedAt k e = true ∧
        s.sourcePoisoned e (s.stream k).bytesRead 8 = false ∧ got = leNat (s.sourceBytes e (s.stream k).bytesRead 8 (leBytes 8 trailer.toNat)) ∧
        got = crc64Value (s.stream k).crc ∧ (e.sourceKind = 3 → s.isSelf (nodeOf (Config.mcastCounter e.mcastGroup)) = false)) ∧
    (∃ (s : State), ∃ (k : Nat), ∃ (trailer : Word), ∃ (im : Image), ∃ (e : StreamEntry), ∃ (got : Nat), k < 16 ∧
        s.streamEntry (s.stream k) = some (im, e) ∧ (s.stream k).bytesRead + 8 = e.wireLength ∧
        ((s.stream k).state = 3 ∨ (s.stream k).state = if e.sourceKind = 4 then 1 else 2) ∧ s.arrivedAt k e = true ∧
        s.sourcePoisoned e (s.stream k).bytesRead 8 = false ∧ got = leNat (s.sourceBytes e (s.stream k).bytesRead 8 (leBytes 8 trailer.toNat)) ∧
        got ≠ crc64Value (s.stream k).crc ∧ (s.job (s.stream k).job).state = .running) ∧
    (∃ (s : State), ∃ (k : Nat), ∃ (im : Image), ∃ (e : StreamEntry), ∃ (off : Nat), k < 16 ∧ s.streamEntry (s.stream k) = some (im, e) ∧
        e.sourceKind = 4 ∧ (s.stream k).bound = true ∧ (s.stream k).state ≠ 5 ∧ off = 512 * e.ringKib * (s.stream k).windowsSent ∧
        off < e.wireLength ∧ s.windowPermitted (s.stream k) e = true ∧ (s.stream k).windowBytes < e.budget ∧
        s.sourcePoisoned e off (min (512 * e.ringKib) (e.wireLength - off)) = false) ∧
    (∃ (s : State), ∃ (k error : Nat), ∃ (im : Image), ∃ (e : StreamEntry), k < 16 ∧ s.streamEntry (s.stream k) = some (im, e) ∧
        (s.stream k).bound = true ∧ 1 ≤ (s.stream k).state ∧ (s.stream k).state ≤ 3 ∧ error ∈ readErrors ∧
        (s.job (s.stream k).job).state = .running) ∧
    (∃ (s : State), ∃ (k : Nat), ∃ (im : Image), ∃ (e : StreamEntry), k < 16 ∧ s.streamEntry (s.stream k) = some (im, e) ∧
        (s.stream k).bound = true ∧ (s.stream k).state ≠ 5 ∧ s.mcastWaiting (s.stream k) e = true ∧
        (s.stream k).waitSince + (s.stream k).creditTimeout < s.now ∧ (s.job (s.stream k).job).state = .running ∧ e.sourceKind = 4) ∧
    (∃ (s : State), ∃ (k : Nat), ∃ (im : Image), ∃ (e : StreamEntry), k < 16 ∧ s.streamEntry (s.stream k) = some (im, e) ∧
        (s.stream k).bound = true ∧ (s.stream k).state ≠ 5 ∧ s.mcastWaiting (s.stream k) e = true ∧
        (s.stream k).waitSince + (s.stream k).creditTimeout < s.now ∧ (s.job (s.stream k).job).state = .running ∧ e.sourceKind = 3) :=
  ⟨⟨streamState 0 (carrying 144), 15, [], [9, 0, 0, 0], keyImage 0 [], keyEntry 0, keyHeader,
      (nextStored ((streamState 0 (carrying 144)).streamRows keyHeader (keyEntry 0)) 0).get (by decide), (keySource, keyTarget), [(0, 0), (1, 0)],
      (144, 4), by decide⟩,
   ⟨streamState 1 { carrying 148 with storedRow := 1 }, 15, 1, 1, keyImage 1 [], keyEntry 1, keyHeader, (keySource, keyTarget),
       ((streamState 1 (carrying 148)).tileShare 0 1 keyHeader (keyEntry 1)).getD 1 default, [1], by decide⟩,
   ⟨streamState 1 { carrying 148 with asked := true }, 15, BitVec.ofNat 64 (crc64Value (2 ^ 64 - 1)), keyImage 1 [], keyEntry 1,
       crc64Value (2 ^ 64 - 1), by decide⟩,
   ⟨streamState 1 { carrying 148 with asked := true }, 15, 1, keyImage 1 [], keyEntry 1, 1, by decide⟩,
   ⟨streamState 4 { state := 1 }, 15, keyImage 4 [], keyEntry 4, 0, by decide⟩,
   ⟨streamState 0 { state := 3 }, 15, MEM_UNCORRECTABLE, keyImage 0 [], keyEntry 0, by decide⟩,
   ⟨(streamState 4 { state := 3 }).setEntry 0x4300 3 1, 15, keyImage 4 [], keyEntry 4, by decide⟩,
   ⟨streamState 3 { state := 3 }, 15, keyImage 3 [], keyEntry 3, by decide⟩⟩

/-! ### Witnesses: part 6 of the statements -/

/-- Tile 5 in T0 with bank 0 on and row 0 FULL, holding a few coefficients. -/
def rowState : State :=
  ({ State.reset with tiles := [(5, { banks := 1, rows := [(0, rowMap fun l => l)], tags := [(0, .full), (1, .empty), (3, .poison)] })] }.setEntry 0xA0C5 1 0)

/-- NarrowAddress names coefficient 1,023 of tile 5. -/
def narrowState : State := rowState.setEntry 0x3480 1 (5 * 2 ^ 56 + 1023)

/-- A PUT frame of 36 bytes to the window of tile 5, row 1, from node 7. -/
def windowFrame (row off n : Nat) : Frame :=
  { version := 3, opcode := 1, vl := 0, hops := 0, mcastGroup := 0, seq := 9, operand := 0, tag := 77, length := n, source := 7, target := 0
    address := 0x800000000000 + 5 * 0x10000000 + 4608 * row + off, payload := (List.range n).map (BitVec.ofNat 8), crcOk := true }

/-- Row 4 of a verify read's tile in a running job with a transfer that wrote it. -/
def verifyState : State :=
  { jobState { state := .running } with
    tiles := [(0, { verifyDue := [4], running := [{ (default : LopInst) with id := 6, op := { (default : LongOp) with code := lopXferIn }, rgnD := (4, 2), rowsDone := 1 }] })] }

/-- The same job with row 4 a WEIGHT row, and a PUT to it. -/
def landedState : State :=
  jobState { state := .running, image := some { (default : Image) with regions := [{ space := 0, flags := 0, kind := 2, lead := 0, size := 8, base := 0 }] } }
def landedFrame : Frame := { windowFrame 4 4572 36 with address := 0x800000000000 + 4608 * 4 + 4572 }

/-- A stream whose rows are KEY rows, one of them awaiting its verify read. -/
def keyVerifyState : State :=
  { streamState 0 (carrying 148) with
    jobs := [(0, { state := .running, group := [0, 1], image := some { keyImage 0 [] with regions := [{ space := 0, flags := 0, kind := 1, lead := 0, size := 2, base := 100 }] } })]
    tiles := [(0, { verifyDue := [100] })] }

/-- A sorter entry of a read of 32 bytes by source 3. -/
def sortedRead : SorterEntry := { order := 4, request := 4, source := 3, channel := 0, bank := 0, page := 0, address := 0, length := 32, write := none, data := List.replicate 32 5 }

/-- A poison table with one entry over granules 16 and 17 and another over granule 40. -/
def poisonState : State :=
  { State.reset with
    poisonEpoch := 20000, poisonTable := [{ first := 16, count := 2, epoch := 5 }, { first := 17, count := 24, epoch := 19990 }], wordPoison := [135]
    mem := [(4096, 7), (4353, 8), (4400, 9), (10240, 4)], wordEpoch := [(136, 6)], clearWalk := some { base := 4352, length := 256 } }

theorem witness_RowsAndNarrowView :
    (∃ (s : State), ∃ (ctx t c : Nat), Safety.direct s ctx = true ∧ t = s.narrowTile ∧ c = s.narrowIndex ∧ s.narrowRefusal = none) ∧
    (∃ (s : State), ∃ (ctx t c : Nat), Safety.direct s ctx = true ∧ t = s.narrowTile ∧ c = s.narrowIndex ∧ s.narrowRefusal = none ∧
        s.unitStopped 0x3480 2 = true) ∧
    (∃ (s : State), ∃ (ctx t first count : Nat), Safety.direct s ctx = true ∧ s.tileEnabled t = true ∧ s.tileState t ≠ 4 ∧ 0 < count ∧
        first + count ≤ 3072 ∧ ((s.jobOfTile t).any fun j => (s.job j).active) = false) ∧
    (∃ (s : State), ∃ (t row : Nat), t < 64 ∧ (s.tile t).verifyDue.contains row = true ∧ (s.tile t).running = [] ∧ (s.tile t).windowLanded = []) ∧
    (∃ (s : State), ∃ (t row j : Nat), ∃ (o : LopInst), t < 64 ∧ (s.tile t).verifyDue.contains row = true ∧ s.jobOfTile t = some j ∧
        (s.job j).state = .running ∧ s.isKeyRow t row = false ∧ (s.tile t).windowLanded = [] ∧ (s.tile t).writerOf row = some o) ∧
    (∃ (s : State), ∃ (t row j k : Nat), t < 64 ∧ (s.tile t).verifyDue.contains row = true ∧ s.jobOfTile t = some j ∧ (s.job j).state = .running ∧
        s.isKeyRow t row = true ∧ (s.tile t).windowLanded = [] ∧ s.streamOfRow j row true = some k) ∧
    (∃ (t : Nat), t < 64) ∧
    (∃ (s : State), ∃ (t row : Nat), t < 64 ∧ s.nextScrubRow t = some row) :=
  ⟨⟨narrowState, 0, 5, 1023, by decide⟩,
   ⟨narrowState, 0, 5, 1023, by decide⟩,
   ⟨rowState, 0, 5, 0, 3072, by decide⟩,
   ⟨{ rowState with tiles := [(5, { verifyDue := [2] })] }, 5, 2, by decide⟩,
   ⟨verifyState, 0, 4, 0, { (default : LopInst) with id := 6, op := { (default : LongOp) with code := lopXferIn }, rgnD := (4, 2), rowsDone := 1 },
       by decide⟩,
   ⟨keyVerifyState, 0, 100, 0, 15, by decide⟩,
   ⟨63, by decide⟩,
   ⟨rowState, 5, 0, by decide⟩⟩

theorem witness_WindowsServe :
    (∃ (s : State), ∃ (t r x n : Nat), ∃ (f : Frame), t < 64 ∧ n = f.payload.length ∧ 0 < n ∧ x = windowOffset f.address % 4608 ∧
        r = windowOffset f.address / 4608 ∧ x + n ≤ 4608 ∧
        ((s.tile t).windowPuts.find? fun g => s.anyPoison t (frameRows g g.payload.length) || s.allTagged t (frameRows g g.payload.length) .empty) = some f ∧ s.tag t r = .empty ∧ (s.tile t).running = [] ∧ s.isProtectedRow t r = false ∧ (s.tile t).verifyDue.contains r = false) ∧
    (∃ (s : State), ∃ (t r x n : Nat), ∃ (f : Frame), t < 64 ∧ n = f.payload.length ∧ 0 < n ∧ x = windowOffset f.address % 4608 ∧
        r = windowOffset f.address / 4608 ∧ x + n ≤ 4608 ∧
        ((s.tile t).windowPuts.find? fun g => s.anyPoison t (frameRows g g.payload.length) || s.allTagged t (frameRows g g.payload.length) .empty) = some f ∧ s.tag t r = .empty ∧ (s.tile t).running = [] ∧ s.isProtectedRow t r = true ∧ (((List.range (n / 18)).map fun i => x / 18 + i).filter fun w => !(Tab.get (s.tile t).coverage [] r).contains w).length + (Tab.get (s.tile t).coverage [] r).length = 256) ∧
    (∃ (s : State), ∃ (t row : Nat), ∃ (f : Frame), t < 64 ∧ (s.tile t).verifyDue = [row] ∧ (s.tile t).windowLanded = [f] ∧
        (frameRows f f.payload.length).contains row = true ∧ (s.tile t).running = []) ∧
    (∃ (s : State), ∃ (t : Nat), ∃ (f : Frame), t < 64 ∧
        ((s.tile t).windowGets.find? fun g => s.anyPoison t (frameRows g g.length) || s.allTagged t (frameRows g g.length) .full) = some f ∧
        s.anyPoison t (frameRows f f.length) = false) :=
  ⟨⟨{ rowState with tiles := [(5, { windowPuts := [windowFrame 1 4572 36], tags := [(1, .empty)] })] }, 5, 1, 4572, 36, windowFrame 1 4572 36,
      by decide⟩,
   ⟨{ landedState with tiles := [(0, { windowPuts := [landedFrame], tags := [(4, .empty)], coverage := [(4, (List.range 254))] })] }, 0, 4, 4572,
       36, landedFrame, by decide⟩,
   ⟨{ landedState with tiles := [(0, { windowLanded := [landedFrame], verifyDue := [4] })] }, 0, 4, landedFrame, by decide⟩,
   ⟨{ rowState with tiles := [(5, { windowGets := [windowFrame 0 0 4608], rows := [(0, rowMap fun l => l)], tags := [(0, .full)] })] }, 5,
       windowFrame 0 0 4608, by decide⟩⟩

theorem witness_StacksServe :
    (∃ (s : State), ∃ (k a n src ep : Nat), ∃ (d : List Byte), k < 8 ∧ 0 < n ∧ a % 256 + n ≤ 256 ∧ inStack a n = true ∧ (s.mapAddress a).1 = k ∧
        s.lateMessage { source := src, address := a, length := n, write := none, epoch := ep } = false ∧ s.inFlight src < 48 ∧
        (s.sorter k).entries = [] ∧ (s.sorter k).inputQueue = [] ∧ (s.sorter k).capped = [] ∧ d.length = n ∧ s.rangePoisoned a n = false ∧
        s.inImage a n = false) ∧
    (∃ (s : State), ∃ (k : Nat), ∃ (r : MemReq), k < 8 ∧ s.lateMessage r = false ∧ requestInBlock r = true ∧
        (inStack r.address r.length = false ∨ s.writesImage r = true)) ∧
    (∃ (s : State), ∃ (k : Nat), ∃ (r : MemReq), k < 8 ∧ s.lateMessage r = true) ∧
    (∃ (s : State), ∃ (k channel bank : Nat), ∃ (e : SorterEntry), k < 8 ∧ (s.sorter k).inputQueue = [] ∧ (s.sorter k).capped = [] ∧
        (s.sorter k).nextOf channel bank = some e ∧ e.write = none ∧ e.poisoned = false ∧ s.refreshing k channel bank = false) ∧
    (∃ (k : Nat), k < 8) ∧
    (∃ (s : State), ∃ (w : Nat), ∃ (rest : List Nat), s.stackWriteBacks = w :: rest) ∧
    (∃ (s : State), ∃ (k channel a : Nat), k < 8 ∧ s.entry (0x3040 + k) 1 = 0 ∧ ((s.sorter k).entries.any fun e => e.channel = channel) = false ∧
        s.granuleAddress k channel (Tab.get (s.sorter k).patrol 0 channel) = some a) ∧
    (∃ (s : State), ∃ (k : Nat), k < 8 ∧ s.entry (0x3040 + k) 1 = 1 ∧ (s.sorter k).patrolAt + 3600000000000 * (s.sorter k).patrolHours ≤ s.now) ∧
    (∃ (s : State), ∃ (ctx v : Nat), Safety.direct s ctx = true ∧ s.idle = true ∧ v < 256) :=
  ⟨⟨State.reset.setEntry 0x3010 1 255, 0, 255, 1, 3, 0, [9], by decide⟩,
   ⟨State.reset, 7, { source := 1, address := visibleTop, length := 1, write := none, epoch := 0 }, by decide⟩,
   ⟨{ State.reset with tiles := [(1, { leaseEpoch := 1 })] }, 7, { source := 1, address := 0, length := 1, write := none, epoch := 0 }, by decide⟩,
   ⟨{ State.reset with sorters := [(2, { entries := [sortedRead] })] }, 2, 0, 0, sortedRead, by decide⟩,
   ⟨7, by decide⟩,
   ⟨{ State.reset with stackWriteBacks := [5] }, 5, [], by decide⟩,
   ⟨State.reset.setEntry 0x3010 1 255, 0, 127, 32512, by decide⟩,
   ⟨{ State.reset.setEntry 0x3047 1 1 with now := 2 ^ 57, sorters := [(7, { patrolHours := 24 })] }, 7, by decide⟩,
   ⟨State.reset, 0, 255, by decide⟩⟩

theorem witness_PoisonLives :
    (∃ (s : State), ∃ (e : PoisonEntry), ∃ (rest : List PoisonEntry), s.poisonTable = e :: rest ∧ s.poisonWaits = [] ∧ s.retireDue e = true) ∧
    (∃ (s : State), ∃ (ctx : Nat), Safety.direct s ctx = true ∧ s.clearWalk = none ∧ s.entry 0x3030 1 % 256 = 0 ∧ s.entry 0x3030 2 % 256 = 0 ∧
        inStack (s.entry 0x3030 1) (s.entry 0x3030 2) = true ∧ s.regionHeld (s.entry 0x3030 1) (s.entry 0x3030 2) = false) ∧
    (∃ (s : State), ∃ (c : ClearWalk), s.clearWalk = some c ∧ s.poisonWaits = []) :=
  ⟨⟨poisonState, { first := 16, count := 2, epoch := 5 }, [{ first := 17, count := 24, epoch := 19990 }], by decide⟩,
   ⟨(State.reset.setEntry 0x3030 1 4096).setEntry 0x3030 2 256, 0, by decide⟩,
   ⟨poisonState, { base := 4352, length := 256 }, by decide⟩⟩

/-! ### Witnesses: part 7 of the statements -/

/-- Port 3 is UP at version 3 and leads to node 7, which holds a grant of every right on all of memory. -/
def fabricState : State :=
  { ((((((State.reset.setEntry 0x4043 1 2).setEntry 0x4043 2 3).setEntry 0x4043 3 7).setEntry 0x4200 2 (2 ^ 47)).setEntry 0x4200 3 7).setEntry 0x4200 4 7).setEntry 0x4200 5 7 with
    blobs := [(entryKey 0x4030 1, List.replicate 7 0xFF ++ [3])] }

/-- An operation of node 7 on this device. -/
def opFrame (opcode seq address : Nat) (d : List Byte) : Frame :=
  { version := 3, opcode := opcode, vl := 1, hops := 0, mcastGroup := 2, seq := seq, operand := 0xA014, tag := 70, length := d.length, source := 7, target := 0
    address := address, payload := d, crcOk := true }

/-- Two frames of a lane that were sent at 4,000 ns. -/
def sentOne (fails : Nat) : SentFrame := { seq := 4, frame := opFrame 1 0 0 [], sentAt := 4000, fails := fails }
def sentTwo : SentFrame := { seq := 5, frame := opFrame 1 1 0 [1], sentAt := 4000, fails := 0 }

/-- The same with a lane of unacknowledged frames on port 3. -/
def laneState (fails : Nat) : State :=
  { fabricState with
    now := 5000, ports := [(3, { lanes := [(1, { unacked := [sentOne fails, sentTwo], nextTx := 6, nextRx := 9 })] })] }

/-- An operation of this device to node 7 that a tile's transfer issued, and the job that runs it. -/
def issuedOp : RemoteOp :=
  { tag := 70, target := 7, vl := 0, opcode := 2, address := 0, length := 64, operand := 0, issuer := 0, job := 0, opId := 6, issuedAt := 0, timeout := 20000, host := false }
def transferInst : LopInst := { (default : LopInst) with id := 6, op := { (default : LongOp) with code := lopXferIn }, rgnD := (4, 2) }
def issuedState (x : RemoteOp) : State :=
  { fabricState with
    jobs := [(0, { state := .running, image := some default, group := [0] })], tiles := [(0, { banks := 1, running := [transferInst] })]
    remoteOps := [x], now := 20000 }

/-- A completion of operation 70 from node 7. -/
def completionFrame (status : Nat) : Frame := { opFrame 0x20 0 status [] with vl := 0 }

theorem witness_LinksTrainAndCarry :
    (∃ (s : State), ∃ (p node versions : Nat), ∃ v, p < 16 ∧ s.portEnabled p = true ∧ s.portState p = portTraining ∧ node ≠ s.nodeId ∧
        s.commonVersion versions = some v) ∧
    (∃ (s : State), ∃ (p node versions : Nat), p < 16 ∧ s.portEnabled p = true ∧ s.portState p = portTraining ∧
        (node = s.nodeId ∨ s.commonVersion versions = none)) ∧
    (∃ (s : State), ∃ (p : Nat), p < 16 ∧ s.portEnabled p = true ∧ s.deepIdle = false ∧ s.portState p ≠ portUp ∧
        (s.port p).lastTrain + 1000000 * s.entry 0x4010 5 ≤ s.now) ∧
    (∃ (s : State), ∃ (ctx v : Nat), Safety.direct s ctx = true ∧ v < 65536) ∧
    (∃ (s : State), ∃ (p l seq : Nat), ∃ (ok : Bool), p < 16 ∧ s.portState p = portUp ∧ ok = true ∧ seq = (s.lane p l).nextRx) ∧
    (∃ (s : State), ∃ (p l seq : Nat), ∃ (ok : Bool), p < 16 ∧ s.portState p = portUp ∧ (ok = false ∨ seq ≠ (s.lane p l).nextRx)) ∧
    (∃ (s : State), ∃ (p l seq : Nat), p < 16 ∧ ((s.lane p l).unacked.any fun f => f.seq = seq) = true) ∧
    (∃ (s : State), ∃ (p l : Nat), ∃ (g : SentFrame), ∃ (rest : List SentFrame), p < 16 ∧ (s.lane p l).unacked = g :: rest ∧
        s.portState p = portUp ∧ s.now < g.sentAt + 1000) ∧
    (∃ (s : State), ∃ (p l : Nat), ∃ (g : SentFrame), ∃ (rest : List SentFrame), p < 16 ∧ (s.lane p l).unacked = g :: rest ∧
        s.portState p = portUp ∧ g.sentAt + 1000 ≤ s.now ∧ g.fails < 8) ∧
    (∃ (s : State), ∃ (p l : Nat), ∃ (g : SentFrame), ∃ (rest : List SentFrame), p < 16 ∧ (s.lane p l).unacked = g :: rest ∧
        s.portState p = portUp ∧ g.sentAt + 1000 ≤ s.now ∧ 8 ≤ g.fails) ∧
    (∃ (s : State), ∃ (p q : Nat), ∃ (f : Frame), p < 16 ∧ f.target ≠ s.nodeId ∧ f.hops < 24 ∧ s.routePort f.target = some q) ∧
    (∃ (s : State), ∃ (p : Nat), ∃ (f : Frame), p < 16 ∧ f.target ≠ s.nodeId ∧ (24 ≤ f.hops ∨ s.routePort f.target = none)) :=
  ⟨⟨State.reset, 15, 9, 0xC, 3, by decide⟩,
   ⟨State.reset, 0, 0, 0xC, by decide⟩,
   ⟨{ State.reset with now := 100000000 }, 15, by decide⟩,
   ⟨State.reset, 0, 0xFFFE, by decide⟩,
   ⟨laneState 0, 3, 1, 9, true, by decide⟩,
   ⟨laneState 0, 3, 1, 10, true, by decide⟩,
   ⟨laneState 0, 3, 1, 4, by decide⟩,
   ⟨{ laneState 7 with now := 4999 }, 3, 1, sentOne 7, [sentTwo], by decide⟩,
   ⟨laneState 7, 3, 1, sentOne 7, [sentTwo], by decide⟩,
   ⟨laneState 8, 3, 1, sentOne 8, [sentTwo], by decide⟩,
   ⟨fabricState, 0, 3, { opFrame 1 0 0 [] with target := 7, hops := 23 }, by decide⟩,
   ⟨fabricState, 0, { opFrame 1 0 0 [] with target := 7, hops := 24 }, by decide⟩⟩

theorem witness_TimeAndSnap :
    (∃ (s : State), ∃ (p time delay : Nat), p < 16 ∧ s.portState p = portUp ∧ s.entry 0x4010 6 ≠ 1 ∧ s.entry 0x4010 7 = p ∧ delay ≤ time ∧
        0 ≤ (s.now : Int) + s.timeOffset) ∧
    (∃ (s : State), s.entry 0x4010 6 = 0 ∧ s.lastTimeIdle + 1000000000 ≤ s.now ∧ s.entry 0x4020 2 = 1) ∧
    (∃ (s : State), ∃ (p source ident : Nat), p < 16 ∧ s.portState p = portUp ∧ s.snapsSeen.contains (source, ident) = false ∧ s.ready = true ∧
        s.entry 0x8010 5 = 1 ∧ s.timedTicks < 4) ∧
    (∃ (s : State), ∃ (p source ident : Nat), p < 16 ∧ s.portState p = portUp ∧ s.snapsSeen.contains (source, ident) = true) :=
  ⟨⟨fabricState.setEntry 0x4010 7 3, 3, 5000, 5000, by decide⟩,
   ⟨({ State.reset with now := 1000000000 }.setEntry 0x4020 2 1), by decide⟩,
   ⟨fabricState, 3, 9, 1, by decide⟩,
   ⟨{ fabricState with snapsSeen := [(9, 1)] }, 3, 9, 1, by decide⟩⟩

theorem witness_OperationsLand :
    (∃ (s : State), ∃ (f : Frame), ∃ (n : Nat), n = f.payload.length ∧ Safety.arrives s f 1 = true ∧ 0 < n ∧ n ≤ 4096 ∧ f.length = n ∧
        inStack f.address n = true ∧ s.inImage f.address n = false ∧ s.granted f.source f.address n 1 = true ∧ s.rangePoisoned f.address n = false) ∧
    (∃ (s : State), ∃ (f : Frame), Safety.arrives s f 2 = true ∧ 0 < f.length ∧ f.length ≤ 4096 ∧ inStack f.address f.length = true ∧
        s.granted f.source f.address f.length 0 = true ∧ s.rangePoisoned f.address f.length = false) ∧
    (∃ (s : State), ∃ (f : Frame), ∃ (n w : Nat), n = f.payload.length ∧ w = f.operand % 65536 ∧ Safety.arrives s f 3 = true ∧ n % 9 = 0 ∧ 9 ≤ n ∧
        n ≤ 4095 ∧ f.length = n ∧ wordValid w 0 = true ∧ s.atomicAllowed f n = true ∧ s.rangePoisoned f.address n = false) ∧
    (∃ (s : State), ∃ (f : Frame), Safety.arrives s f 4 = true ∧ f.address % 8 = 0 ∧ s.atomicAllowed f 8 = true ∧
        s.rangePoisoned f.address 8 = false) ∧
    (∃ (s : State), ∃ (f : Frame), Safety.arrives s f 5 = true ∧ f.address % 8 = 0 ∧ f.payload.length = 8 ∧ s.atomicAllowed f 8 = true ∧
        s.rangePoisoned f.address 8 = false ∧ s.signalReady f = true) ∧
    (∃ (s : State), ∃ (f : Frame), Safety.arrives s f 5 = true ∧ f.address % 8 = 0 ∧ f.payload.length = 8 ∧ s.atomicAllowed f 8 = true ∧
        s.rangePoisoned f.address 8 = false ∧ s.signalReady f = false ∧ s.signalLost f = false) ∧
    (∃ (s : State), ∃ (f : Frame), ∃ (source lane : Nat),
        (s.heldFrames.find? fun g => g.source = source && g.vl = lane && s.signalReady g) = some f ∧ s.rangePoisoned f.address 8 = false) ∧
    (∃ (s : State), ∃ (p n : Nat), ∃ (f : Frame), p < 16 ∧ n = f.payload.length ∧ f.opcode = 6 ∧ s.portState p = portUp ∧ f.source ≠ s.nodeId ∧
        s.hostPowered = true ∧ s.ready = true ∧ f.crcOk = true ∧ s.entry (0x4300 + f.mcastGroup) 2 ≠ 0 ∧ 0 < n ∧ n ≤ 4096 ∧
        inStack f.address n = true ∧ s.inImage f.address n = false ∧ s.granted f.source f.address n 1 = true ∧
        s.rangePoisoned f.address n = false ∧ s.groupPorts f.mcastGroup p = []) :=
  ⟨⟨fabricState, opFrame 1 3 4095 [1, 2, 3], 3, by decide⟩,
   ⟨fabricState, { opFrame 2 3 0 [] with length := 4096 }, by decide⟩,
   ⟨{ fabricState with mem := [(0, 1)] }, opFrame 3 3 0 (List.replicate 9 0xFF), 9, 0xA014, by decide⟩,
   ⟨{ fabricState with mem := [(8, 255)] }, { opFrame 4 3 8 [] with operand := 2 ^ 64 - 1 }, by decide⟩,
   ⟨fabricState, opFrame 5 0 16 [0, 0, 0, 0, 0, 0, 0, 0], by decide⟩,
   ⟨fabricState, opFrame 5 0 16 [0, 0, 0, 0, 1, 0, 0, 0], by decide⟩,
   ⟨{ fabricState with heldFrames := [opFrame 5 0 16 [0, 0, 0, 0, 1, 0, 0, 0]], seqExpected := [(tripleKey 7 2, 1)] }, opFrame 5 0 16 [0, 0, 0, 0,
       1, 0, 0, 0], 7, 1, by decide⟩,
   ⟨fabricState.setEntry 0x4302 2 1, 3, 3, opFrame 6 0 4096 [4, 5, 6], by decide⟩⟩

theorem witness_OperationsEnd :
    (∃ (s : State), ∃ (f : Frame), f.opcode = 0x20 ∧ s.hostPowered = true ∧ s.mcastWaitOf f = none ∧ f.target = s.nodeId ∧ s.findOp f.tag = none) ∧
    (∃ (s : State), ∃ (f : Frame), ∃ (r : RemoteOp), f.opcode = 0x20 ∧ s.hostPowered = true ∧ s.mcastWaitOf f = none ∧ f.target = s.nodeId ∧
        s.findOp f.tag = some r ∧ r.host = false ∧ r.waits = false ∧ r.opcode ≠ 6 ∧ r.target = f.source ∧ r.issuer ≠ issuerSupervisor ∧
        (64 ≤ r.issuer ∨ r.job ≠ 0xFF) ∧ r.tag = f.tag) ∧
    (∃ (s : State), ∃ (tag j : Nat), ∃ (r : RemoteOp), ∃ (o : LopInst), s.findOp tag = some r ∧ r.tag = tag ∧ r.host = false ∧
        s.timedOut r = true ∧ r.issuer < 64 ∧ r.job ≠ 0xFF ∧ r.opcode ≠ 5 ∧ (s.tile r.issuer).runningOp r.opId = some o ∧
        s.jobOfTile r.issuer = some j ∧ (s.job j).state = .running) ∧
    (∃ (s : State), ∃ (tag : Nat), ∃ (r : RemoteOp), s.findOp tag = some r ∧ s.timedOut r = false) ∧
    (∃ (s : State), ∃ (t : Nat), ∃ (o : LopInst), t < 64 ∧ s.issuerBusy t = false ∧
        ((s.tile t).running.find? fun o => o.op.code = lopFenceCode && (s.tile t).fenceDone o.id) = some o) ∧
    (∃ (s : State), ∃ (f : Frame), Safety.arrives s f 1 = true ∧ f.length = f.payload.length ∧ inStack f.address f.payload.length = true ∧
        s.granted f.source f.address f.payload.length 1 = false) ∧
    (∃ (s : State), ∃ (f : Frame), ∃ (p : Nat), Safety.inOrder s f 1 = true ∧ s.ready = true ∧ s.failedTriples.contains (frameTriple f) = false ∧
        f.crcOk = false ∧ s.heldFrames = [] ∧ s.routePort f.source = some p) ∧
    (∃ (s : State), ∃ (f : Frame), s.takes f 1 = true ∧ s.tripleHeld (frameTriple f) = true) :=
  ⟨⟨fabricState, completionFrame 0, by decide⟩,
   ⟨issuedState issuedOp, completionFrame FABRIC_CRC, issuedOp, by decide⟩,
   ⟨issuedState issuedOp, 70, 0, issuedOp, transferInst, by decide⟩,
   ⟨{ issuedState issuedOp with now := 19999 }, 70, issuedOp, by decide⟩,
   ⟨{ State.reset with tiles := [(63, { running := [{ transferInst with op := { (default : LongOp) with code := lopFenceCode } }] })] }, 63,
       { transferInst with op := { (default : LongOp) with code := lopFenceCode } }, by decide⟩,
   ⟨fabricState.setEntry 0x4200 5 5, opFrame 1 3 4096 [1, 2, 3], by decide⟩,
   ⟨fabricState, { opFrame 1 3 4096 [1, 2, 3] with crcOk := false }, 3, by decide⟩,
   ⟨{ fabricState with heldFrames := [opFrame 5 0 16 [0, 0, 0, 0, 1, 0, 0, 0]] }, opFrame 1 3 4096 [1, 2, 3], by decide⟩⟩

/-! ### Witnesses: part 8 of the statements -/

/-- The host link is UP, and the bus master is enabled. -/
def upState : State := { State.reset.setEntry 0x5040 1 2 with hostLink := { State.reset.hostLink with busMaster := true, functionMasked := false, vectorMasked := [] } }

/-- The host link with the negotiation complete and one SPDM session. -/
def spdmState (secured : Bool) : State :=
  { upState with hostLink := { upState.hostLink with
      spdmVersion := true, spdmCapabilities := true, spdmAlgorithms := true, sessions := [{ id := 6, secured := secured, keyGeneration := 0 }] } }

/-- An operation of this device to the host, with its tag in use. -/
def hostOp (opcode : Nat) : RemoteOp := { issuedOp with target := 0xFFFE, host := true, opcode := opcode, pieces := [(0, 64)] }
def hostOpState (opcode : Nat) : State :=
  { issuedState (hostOp opcode) with hostLink := { upState.hostLink with tags := [(70, 0)], txQueue := [(70, 0)] } }
/-- A read of the host in two requests, the second of them answered first. -/
def splitOp : RemoteOp := { hostOp 2 with pieces := [(0, 32), (32, 32)] }
def hostParts : State :=
  { issuedState splitOp with hostLink := { upState.hostLink with tags := [(70, 0), (70, 1)], txQueue := [(70, 0), (70, 1)] } }

theorem witness_HostLinkResets :
    (∃ (s : State), ∃ (speed width limit : Nat), ∃ (flit : Bool), s.hostLink.readyReported = true ∧ s.hostLink.perst = false ∧
        s.entry 0x5040 1 ≠ 2 ∧ 1 ≤ speed ∧ speed ≤ s.entry 0x5010 1 ∧ width ∈ [16, 8, 4, 1] ∧ (limit ∈ [768, 256] ∨ (limit = 4096 ∧ flit = true))) ∧
    (∃ (s : State), s.hostPowered = true ∧ s.entry 0x5010 3 = 0) ∧
    (∃ (s : State), s.hostPowered = true ∧ s.entry 0x5010 3 ≠ 0 ∧ s.restart = none ∧ (s.remoteOps.any fun r => r.host) = false) ∧
    (∃ (s : State), s.hostPowered = false) ∧
    (∃ (s : State), s.ready = true ∧ s.hostLink.readyReported = false) :=
  ⟨⟨State.reset, 7, 1, 4096, true, by decide⟩,
   ⟨State.reset.setEntry 0x5010 3 0, by decide⟩,
   ⟨State.reset, by decide⟩,
   ⟨{ State.reset with hostPowered := false }, by decide⟩,
   ⟨{ State.reset with hostLink := { State.reset.hostLink with perst := true, readyReported := false } }, by decide⟩⟩

theorem witness_HostTraffic :
    (∃ (s : State), s.hostPowered = true ∧ s.ready = false) ∧
    (∃ (s : State), s.hostPowered = true ∧ s.ready = true) ∧
    (∃ (s : State), s.hostPowered = true ∧ s.ready = true) ∧
    (∃ (s : State), s.hostPowered = true ∧ s.ready = true) ∧
    (∃ (s : State), ∃ (v : Nat), v ∈ s.hostLink.vectorPending ∧ s.vectorOpen v = true) ∧
    (∃ (s : State), ∃ (v : Nat), s.vectorOpen v = false) ∧
    (∃ (s : State), ∃ (sel : Bool), (if sel then s.hostLink.selectiveIde else s.hostLink.linkIde) = .secure) ∧
    (∃ (s : State), ∃ (tag : Nat), ∃ (r : RemoteOp), s.findOp tag = some r ∧ r.tag = tag ∧ r.host = true ∧ r.opcode = 1 ∧
        r.issuer ≠ issuerSupervisor) ∧
    (∃ (s : State), ∃ (tag part : Nat), s.hostLink.lateTags.contains (tag, part) = true ∧ s.hostLink.tagWaiters = []) ∧
    (∃ (s : State), ∃ (tag part j : Nat), ∃ (st : HostStatus), ∃ (d : List Byte), ∃ (r : RemoteOp), ∃ (o : LopInst),
        s.hostLink.lateTags.contains (tag, part) = false ∧ s.hostLink.tags.contains (tag, part) = true ∧ s.hostLink.tagWaiters = [] ∧
        s.findOp tag = some r ∧ r.tag = tag ∧ r.host = true ∧ r.opcode = 2 ∧ r.issuer < 64 ∧ r.job ≠ 0xFF ∧
        (s.tile r.issuer).runningOp r.opId = some o ∧ s.jobOfTile r.issuer = some j ∧ (s.job j).state = .running ∧ st = .ok ∧
        r.pieces.length ≤ (Tab.put r.arrived part d).length) ∧
    (∃ (s : State), ∃ (tag part j : Nat), ∃ (st : HostStatus), ∃ (d : List Byte), ∃ (r : RemoteOp), ∃ (o : LopInst),
        s.hostLink.lateTags.contains (tag, part) = false ∧ s.hostLink.tags.contains (tag, part) = true ∧ s.hostLink.tagWaiters = [] ∧
        s.findOp tag = some r ∧ r.tag = tag ∧ r.host = true ∧ r.opcode = 2 ∧ r.issuer < 64 ∧ r.job ≠ 0xFF ∧
        (s.tile r.issuer).runningOp r.opId = some o ∧ s.jobOfTile r.issuer = some j ∧ (s.job j).state = .running ∧ st = .ok ∧
        (Tab.put r.arrived part d).length < r.pieces.length) ∧
    (∃ (s : State), ∃ (tag part j : Nat), ∃ (st : HostStatus), ∃ (r : RemoteOp), ∃ (o : LopInst), s.hostLink.lateTags.contains (tag,
        part) = false ∧ s.hostLink.tags.contains (tag, part) = true ∧ s.hostLink.tagWaiters = [] ∧ s.findOp tag = some r ∧ r.tag = tag ∧
        r.host = true ∧ r.opcode = 2 ∧ r.issuer < 64 ∧ r.job ≠ 0xFF ∧ (s.tile r.issuer).runningOp r.opId = some o ∧ s.jobOfTile r.issuer = some j ∧
        (s.job j).state = .running ∧ st ≠ .ok) ∧
    (∃ (s : State), ∃ (tag part : Nat), ∃ (st : HostStatus), s.hostLink.lateTags.contains (tag, part) = false ∧ s.hostLink.tags.contains (tag,
        part) = false ∧ st ≠ .ep) ∧
    (∃ (s : State), ∃ (tag part : Nat), s.hostLink.lateTags.contains (tag, part) = true ∧ s.hostLink.tagWaiters = []) ∧
    (∃ (s : State), ∃ (x n : Nat), ∃ (sec : Bool), s.hostPowered = true ∧ s.ready = true ∧ s.ideRefuses sec = false ∧ x + n ≤ 0x1000000000 ∧
        bit (s.entry 0x5020 2) 0 = true ∧ s.rangePoisoned (s.aperture x) n = false) ∧
    (∃ (s : State), ∃ (x n : Nat), ∃ (sec : Bool), s.hostPowered = true ∧ s.ready = true ∧ s.ideRefuses sec = false ∧ x + n ≤ 0x1000000000 ∧
        bit (s.entry 0x5020 2) 0 = true ∧ s.rangePoisoned (s.aperture x) n = true) ∧
    (∃ (s : State), ∃ (x n : Nat), ∃ (sec : Bool), s.hostPowered = true ∧ s.ready = true ∧ s.ideRefuses sec = false ∧ x + n ≤ 0x1000000000 ∧
        bit (s.entry 0x5020 2) 0 = false) ∧
    (∃ (s : State), ∃ (x : Nat), ∃ (d : List Byte), ∃ (sec : Bool), s.hostPowered = true ∧ s.ready = true ∧ s.ideRefuses sec = false ∧
        x + d.length ≤ 0x1000000000 ∧ bit (s.entry 0x5020 2) 1 = true ∧ s.inImage (s.aperture x) d.length = false ∧
        s.rangePoisoned (s.aperture x) d.length = false) ∧
    (∃ (s : State), ∃ (x : Nat), ∃ (d : List Byte), ∃ (sec : Bool), s.hostPowered = true ∧ s.ready = true ∧ s.ideRefuses sec = false ∧
        x + d.length ≤ 0x1000000000 ∧ (bit (s.entry 0x5020 2) 1 = false ∨ s.inImage (s.aperture x) d.length = true)) ∧
    (∃ (s : State), ∃ (x n : Nat), ∃ (d : List Byte), ∃ (sec : Bool), s.hostPowered = true ∧ s.ideRefuses sec = true ∧ x + n ≤ 0x1000000000 ∧
        x + d.length ≤ 0x1000000000) :=
  ⟨⟨State.reset.setEntry 0x1100 1 1, by decide⟩,
   ⟨State.reset, by decide⟩,
   ⟨State.reset, by decide⟩,
   ⟨State.reset, by decide⟩,
   ⟨{ upState with hostLink := { upState.hostLink with vectorPending := [63] } }, 63, by decide⟩,
   ⟨State.reset, 63, by decide⟩,
   ⟨{ State.reset with hostLink := { State.reset.hostLink with selectiveIde := .secure } }, true, by decide⟩,
   ⟨hostOpState 1, 70, hostOp 1, by decide⟩,
   ⟨{ upState with hostLink := { upState.hostLink with tags := [(8, 1)], lateTags := [(8, 1)] } }, 8, 1, by decide⟩,
   ⟨hostOpState 2, 70, 0, 0, .ok, [], hostOp 2, transferInst, by decide⟩,
   ⟨hostParts, 70, 1, 0, .ok, [], splitOp, transferInst, by decide⟩,
   ⟨hostOpState 2, 70, 0, 0, .ca, hostOp 2, transferInst, by decide⟩,
   ⟨hostOpState 2, 70, 1, .ok, by decide⟩,
   ⟨{ upState with hostLink := { upState.hostLink with tags := [(8, 1)], lateTags := [(8, 1)] } }, 8, 1, by decide⟩,
   ⟨{ State.reset with mem := [(3, 4)] }, 0, 256, false, by decide⟩,
   ⟨{ State.reset with wordPoison := [0] }, 0, 256, false, by decide⟩,
   ⟨State.reset.setEntry 0x5020 2 2, 0xFFFFFFFFF, 1, true, by decide⟩,
   ⟨State.reset, 0xFFFFFFFFF, [7], false, by decide⟩,
   ⟨State.reset.setEntry 0x5020 2 1, 0, [7], false, by decide⟩,
   ⟨State.reset.setEntry 0x5010 2 1, 0, 4, [7], true, by decide⟩⟩

theorem witness_SpdmResponds :
    (∃ (s : State), ∃ index, s.ready = true ∧ s.hostUp = true ∧ index < 3) ∧
    (∃ (s : State), s.ready = true ∧ s.hostUp = true ∧ s.hostLink.spdmVersion = true) ∧
    (∃ (s : State), s.ready = true ∧ s.hostUp = true ∧ s.hostLink.spdmVersion = false) ∧
    (∃ (s : State), s.ready = true ∧ s.hostUp = true ∧ s.hostLink.spdmCapabilities = true) ∧
    (∃ (s : State), s.ready = true ∧ s.hostUp = true ∧ s.hostLink.spdmAlgorithms = false) ∧
    (∃ (s : State), ∃ off n part, s.ready = true ∧ s.hostUp = true ∧ s.hostLink.spdmAlgorithms = true ∧ off ≤ spdmChain.length ∧
        part = (spdmChain.drop off).take n) ∧
    (∃ (s : State), ∃ index b, s.ready = true ∧ s.hostUp = true ∧ s.hostLink.spdmAlgorithms = true ∧ s.measurementBlocks index = some b) ∧
    (∃ (s : State), s.ready = true ∧ s.hostUp = true ∧ s.hostLink.spdmAlgorithms = true) ∧
    (∃ (s : State), ∃ (id : Nat), s.ready = true ∧ s.hostUp = true ∧ s.hostLink.spdmAlgorithms = true ∧ s.hostLink.sessions.length < 2 ∧
        s.spdmSession id = none) ∧
    (∃ (s : State), ∃ (id : Nat), ∃ x, s.ready = true ∧ s.hostUp = true ∧ s.hostLink.spdmAlgorithms = true ∧ s.spdmSession id = some x ∧
        x.secured = false) ∧
    (∃ (s : State), ∃ (id : Nat), ∃ x, s.ready = true ∧ s.hostUp = true ∧ s.spdmSession id = some x ∧ x.secured = true) ∧
    (∃ (s : State), ∃ (id : Nat), s.ready = true ∧ s.hostUp = true ∧ s.spdmSession id = none) :=
  ⟨⟨upState, 2, by decide⟩,
   ⟨spdmState false, by decide⟩,
   ⟨upState, by decide⟩,
   ⟨spdmState false, by decide⟩,
   ⟨upState, by decide⟩,
   ⟨spdmState false, 0, 0, [], by decide, by decide, by decide, Nat.zero_le _, rfl⟩,
   ⟨spdmState false, 0, [BitVec.ofNat 8 measurementIndices.length], by decide⟩,
   ⟨spdmState false, by decide⟩,
   ⟨{ spdmState false with hostLink := { (spdmState false).hostLink with sessions := [] } }, 65535, by decide⟩,
   ⟨spdmState false, 6, ({ id := 6, secured := false, keyGeneration := 0 } : SpdmSession), by decide⟩,
   ⟨spdmState true, 6, ({ id := 6, secured := true, keyGeneration := 0 } : SpdmSession), by decide⟩,
   ⟨spdmState true, 7, by decide⟩⟩

/-! ### Witnesses: part 9 of the statements -/

/-- A job that runs on tiles 0 and 1, both in T0. -/
def poweredState : State := ((jobState { state := .running }).setEntry 0xA0C0 1 0).setEntry 0xA0C1 1 0
/-- The same with ten samples far over any budget. -/
def overState (s : State) : State := { s with heat := { s.heat with samples := List.replicate 10 1000000000 } }
def heldReq : PhaseReq := { job := 0, phase := 0, point := 1, since := 0 }
/-- The job's request is held at a barrier. -/
def holdState : State :=
  { poweredState.setEntry 0xA010 4 1000 with
    now := 1000000000, heat := { poweredState.heat with held := [heldReq] }
    tiles := [(0, { run := .held, banks := 1, barWait := .issued 2, rows := [(3, rowMap fun l => l)] }), (1, { run := .held, banks := 1 })] }
/-- A tile in T0 with contents, with no job. -/
def sleepState : State := rowState.setEntry 0xA030 1 1
/-- A tile in T1 with no job, which FreeTileState sends to T3. -/
def deepState : State := (rowState.setEntry 0xA030 1 3).setEntry 0xA0C5 1 1
/-- A tile that sleeps in T2 until a moment. -/
def asleepState (n : Nat) : State := { ({ State.reset with tiles := [(5, { banks := 1, wakeAt := some 900, rows := [(0, rowMap fun l => l)] })] }).setEntry 0xA0C5 1 2 with now := n }

theorem witness_LedgerActs :
    (∃ (s : State), s.heat.held = []) ∧
    (∃ (s : State), ∃ (j : Nat), 1000 * s.entry 0xA010 1 < s.meanPower ∧ (s.heat.lastOver.any fun m => s.now < m + 100000) = false ∧
        s.stepTarget = some j ∧ (∀ t ∈ (s.job j).group, t < 64)) ∧
    (∃ (s : State), 1000 * s.entry 0xA010 1 < s.meanPower ∧ (s.heat.lastOver.any fun m => s.now < m + 100000) = false ∧ s.stepTarget = none ∧
        s.heat.overNoted = false) ∧
    (∃ (s : State), ∃ (r : PhaseReq), r.job < 16 ∧ (∀ t ∈ (s.job r.job).group, t < 64) ∧
        (s.heat.held.find? fun r => s.entry 0xA010 4 ≠ 0 && decide (r.since + 1000 * s.entry 0xA010 4 ≤ s.now)) = some r) ∧
    (∃ (s : State), ∃ (j : Nat), s.heat.lastRaise + 1000 * s.entry 0xA010 5 ≤ s.now ∧ s.heat.held = [] ∧ s.raiseTarget = some j ∧
        (s.heat.ramps.any fun r => r.job = j) = false ∧ Tab.get? s.heat.thermalAt j = none ∧
        s.fits ((s.projection j (s.entry (0xA080 + j) 3) (s.groupPoint j - 1) : Int) - s.inForce j) = true) ∧
    (∃ (s : State), s.now < s.heat.lastRaise + 1000 * s.entry 0xA010 5) ∧
    (∃ (s : State), ∃ (j x since : Nat), j < 16 ∧ (s.heat.ramps.find? fun r => r.job = j) = some { job := j, target := x, startedAt := since } ∧
        since + 100 * (pointMv x - pointMv (s.groupPoint j)) ≤ s.now ∧ x ≠ s.groupPoint j ∧ (∀ t ∈ (s.job j).group, t < 64) ∧
        ((s.job j).group.any fun t => 2 ≤ s.tileState t) = false) ∧
    (∃ (s : State), ∃ (j : Nat), j < 16 ∧ ((s.job j).group.any fun t => 2 ≤ s.tileState t) = true) :=
  ⟨⟨State.reset, by decide⟩,
   ⟨overState poweredState, 0, by decide⟩,
   ⟨overState State.reset, by decide⟩,
   ⟨holdState, heldReq, by decide⟩,
   ⟨{ (poweredState.setEntry 0xA080 2 2) with now := 1000000000 }, 0, by decide⟩,
   ⟨State.reset, by decide⟩,
   ⟨{ (poweredState.setEntry 0xA080 2 2) with now := 6000, heat := { poweredState.heat with ramps := [{ job := 0, target := 1, startedAt := 0 }] } }, 0, 1, 0, by decide⟩,
   ⟨poweredState.setEntry 0xA0C1 1 2, 0, by decide⟩⟩

theorem witness_HeatAndSleep :
    (∃ (s : State), ∃ (t j : Nat), ∃ (temp : Int), t < 64 ∧ s.tileEnabled t = true ∧ s.jobOfTile t = some j ∧ (s.job j).runs = true ∧
        (∀ u ∈ (s.job j).group, u < 64) ∧ 16 * (s.entry 0xA070 1 : Int) ≤ temp ∧ Tab.get? s.heat.thermalAt j = none ∧ s.groupPoint j < 3) ∧
    (∃ (s : State), ∃ (t j : Nat), ∃ (temp : Int), t < 64 ∧ s.tileEnabled t = true ∧ s.jobOfTile t = some j ∧ temp < 16 * (s.entry 0xA070 1 : Int)) ∧
    (∃ (s : State), ∃ (t : Nat), ∃ (temp : Int), t < 64 ∧ s.tileEnabled t = true ∧ 2000 ≤ temp ∧ s.entry 0x1100 1 ≠ 0 ∧
        s.fieldGate.quietUntil ≤ s.now) ∧
    (∃ (s : State), ∃ (t b n : Nat), ∃ (w : Option Nat), t < 64 ∧ s.tileEnabled t = true ∧ s.sleepPlan t b = some (n, w) ∧ s.tileState t = 0 ∧
        0 < n) ∧
    (∃ (s : State), ∃ (t b n : Nat), ∃ (w : Option Nat), t < 64 ∧ s.tileEnabled t = true ∧ s.sleepPlan t b = some (n, w) ∧ 0 < s.tileState t ∧
        s.tileState t < n ∧ n ≤ 3) ∧
    (∃ (s : State), ∃ (t b n : Nat), ∃ (w : Option Nat), t < 64 ∧ s.tileEnabled t = true ∧ s.sleepPlan t b = some (n, w) ∧ n ≤ s.tileState t) ∧
    (∃ (s : State), ∃ (t m : Nat), t < 64 ∧ (s.tile t).wakeAt = some m ∧ 1 ≤ s.tileState t ∧ s.tileState t ≤ 3 ∧ m ≤ s.now) ∧
    (∃ (s : State), ∃ (t m : Nat), t < 64 ∧ (s.tile t).wakeAt = some m ∧ 1 ≤ s.tileState t ∧ s.tileState t ≤ 3 ∧ s.now < m) ∧
    (∃ (s : State), ∃ (ctx : Nat), Safety.direct s ctx = true ∧ s.idle = true ∧ s.deepIdle = false) ∧
    (∃ (s : State), ∃ (ctx : Nat), Safety.direct s ctx = true ∧ s.idle = true ∧ s.deepIdle = true) ∧
    (∃ (s : State), s.ready = true ∧ s.idle = true ∧ s.deepIdle = false ∧ s.entry 0xA040 3 ≠ 0 ∧
        s.heat.idleSince + 1000000000 * s.entry 0xA040 3 ≤ s.now) :=
  ⟨⟨poweredState, 1, 0, 4000, by decide⟩,
   ⟨poweredState, 1, 0, -40, by decide⟩,
   ⟨poweredState, 63, 2000, by decide⟩,
   ⟨sleepState, 5, 0, 1, none, by decide⟩,
   ⟨{ deepState with now := 9 }, 5, 0, 3, none, by decide⟩,
   ⟨sleepState.setEntry 0xA0C5 1 4, 5, 0, 1, none, by decide⟩,
   ⟨asleepState 900, 5, 900, by decide⟩,
   ⟨asleepState 899, 5, 900, by decide⟩,
   ⟨State.reset, 0, by decide⟩,
   ⟨State.reset.setEntry 0xA040 1 1, 0, by decide⟩,
   ⟨{ State.reset.setEntry 0xA040 3 1 with now := 1000000000 }, by decide⟩⟩

/-! ### Witnesses: part 10 of the statements -/

/-- BAR0 holds the engine's claim, with slots 1 to 3 loaded and a key under handle 31. -/
def pkeState (slots : Tab Nat) : State :=
  { State.reset.setEntry 0x9200 1 0 with pke := { slots := slots, claimContext := some 0, keys := [(31, { scalar := 77, persistent := true })] }, now := 50 }
def smallSlots : Tab Nat := [(1, 3), (2, 4), (3, 7), (4, 6), (5, 9)]
def doneRun : PkeRun := { endsAt := 50, status := OK, slots := [], dest := some (2, 9, true), key := some (3, some (8, true)) }
/-- A package is staged whose Fumarole firmware is the active one's, or is not. -/
def stagedState (flash : Tab (Tab Byte)) : State :=
  { State.reset.setEntry 0x9100 2 2 with flash := flash, flashLength := [(0, 1), (1, 1)] }

theorem witness_PkeServes :
    (∃ (s : State), ∃ (ctx j : Nat), Safety.direct s ctx = true ∧ s.entry 0x9200 1 = 0xFF ∧ j < 16 ∧ (s.job j).state ≠ .ready ∧
        (s.job j).state ≠ .halted) ∧
    (∃ (s : State), ∃ (ctx : Nat), Safety.direct s ctx = true ∧ s.pke.claimContext = some ctx) ∧
    (∃ (s : State), ∃ (ctx i : Nat), ∃ (d : List Byte), Safety.served s ctx = true ∧ s.pke.claimContext = some ctx ∧ i < 16 ∧ d.length ≤ 512 ∧
        s.pke.secret.Nodup) ∧
    (∃ (s : State), ∃ (ctx d a b m len x y n t : Nat), Safety.pkeReady s ctx = true ∧ d < 16 ∧ a < 16 ∧ b < 16 ∧ m < 16 ∧ 0 < len ∧ len ≤ 64 ∧
        x = s.pkeSlot a % 2 ^ (64 * len) ∧ y = s.pkeSlot b % 2 ^ (64 * len) ∧ n = s.pkeSlot m % 2 ^ (64 * len) ∧ t = 60 + 8 * len * len ∧
        n % 2 = 1 ∧ 3 ≤ n ∧ x < n ∧ s.pkeSecret a = false ∧ s.pkeSecret b = false ∧ s.pkeSecret m = false ∧ y < n) ∧
    (∃ (s : State), ∃ (ctx d a b m len x y n t : Nat), Safety.pkeReady s ctx = true ∧ d < 16 ∧ a < 16 ∧ b < 16 ∧ m < 16 ∧ 0 < len ∧ len ≤ 64 ∧
        x = s.pkeSlot a % 2 ^ (64 * len) ∧ y = s.pkeSlot b % 2 ^ (64 * len) ∧ n = s.pkeSlot m % 2 ^ (64 * len) ∧ t = 60 + 8 * len * len ∧
        n % 2 = 1 ∧ 3 ≤ n ∧ x < n ∧ s.pkeSecret a = false ∧ s.pkeSecret b = false ∧ s.pkeSecret m = false ∧ n ≤ y) ∧
    (∃ (s : State), ∃ (ctx d a b m len x y n t : Nat), ∃ v, Safety.pkeReady s ctx = true ∧ d < 16 ∧ a < 16 ∧ b < 16 ∧ m < 16 ∧ 0 < len ∧ len ≤ 64 ∧
        x = s.pkeSlot a % 2 ^ (64 * len) ∧ y = s.pkeSlot b % 2 ^ (64 * len) ∧ n = s.pkeSlot m % 2 ^ (64 * len) ∧ t = 60 + 8 * len * len ∧
        n % 2 = 1 ∧ 3 ≤ n ∧ x < n ∧ s.pkeSecret a = false ∧ s.pkeSecret b = false ∧ s.pkeSecret m = false ∧ modInverse (64 * len) n x = some v) ∧
    (∃ (s : State), ∃ (ctx d a b m len x y n t : Nat), Safety.pkeReady s ctx = true ∧ d < 16 ∧ a < 16 ∧ b < 16 ∧ m < 16 ∧ 0 < len ∧ len ≤ 64 ∧
        x = s.pkeSlot a % 2 ^ (64 * len) ∧ y = s.pkeSlot b % 2 ^ (64 * len) ∧ n = s.pkeSlot m % 2 ^ (64 * len) ∧ t = 60 + 8 * len * len ∧
        n % 2 = 1 ∧ 3 ≤ n ∧ x < n ∧ s.pkeSecret a = false ∧ s.pkeSecret b = false ∧ s.pkeSecret m = false ∧ modInverse (64 * len) n x = none) ∧
    (∃ (s : State), ∃ (ctx d a b : Nat), ∃ (p : Point), ∃ q, Safety.pkeReady s ctx = true ∧ d < 16 ∧ a < 16 ∧ b < 16 ∧ s.pkeSecret a = false ∧
        s.pkePoint a = some p ∧ s.pkeSecret b = false ∧ s.pkePoint b = some q) ∧
    (∃ (s : State), ∃ (ctx d a b : Nat), ∃ (p : Point), Safety.pkeReady s ctx = true ∧ d < 16 ∧ a < 16 ∧ b < 16 ∧ s.pkeSecret a = false ∧
        s.pkePoint a = some p ∧ s.pkeSlot b % 2 ^ 384 < p384N) ∧
    (∃ (s : State), ∃ (ctx d h : Nat), Safety.pkeReady s ctx = true ∧ d < 16 ∧ h < 32 ∧ Tab.get? s.pke.keys h = none) ∧
    (∃ (s : State), ∃ (ctx d h : Nat), ∃ k, Safety.pkeReady s ctx = true ∧ d < 16 ∧ h < 32 ∧ Tab.get? s.pke.keys h = some k) ∧
    (∃ (s : State), ∃ (r : PkeRun), s.pke.running = some r ∧ r.endsAt ≤ s.now ∧ s.pke.secret.Nodup) ∧
    (∃ (s : State), ∃ (r : PkeRun), s.pke.running = some r ∧ s.now < r.endsAt) :=
  ⟨⟨jobState { state := .running }, 0, 0, by decide⟩,
   ⟨pkeState smallSlots, 0, by decide⟩,
   ⟨pkeState smallSlots, 0, 15, [4, 5], by decide⟩,
   ⟨pkeState smallSlots, 0, 0, 1, 2, 3, 1, 3, 4, 7, 68, by decide⟩,
   ⟨pkeState smallSlots, 0, 0, 1, 5, 3, 1, 3, 9, 7, 68, by decide⟩,
   ⟨pkeState smallSlots, 0, 0, 1, 2, 3, 1, 3, 4, 7, 68, 5, by decide⟩,
   ⟨pkeState [(1, 3), (2, 4), (3, 9)], 0, 0, 1, 2, 3, 1, 3, 4, 9, 68, by decide⟩,
   ⟨pkeState [(1, pointSlot p384G), (2, pointSlot none)], 0, 0, 1, 2, p384G, none, by decide⟩,
   ⟨pkeState [(1, pointSlot p384G), (2, 5)], 0, 0, 1, 2, p384G, by decide⟩,
   ⟨pkeState smallSlots, 0, 0, 30, by decide⟩,
   ⟨pkeState smallSlots, 0, 0, 31, ({ scalar := 77, persistent := true } : UserKey), by decide⟩,
   ⟨{ pkeState smallSlots with pke := { (pkeState smallSlots).pke with running := some doneRun } }, doneRun, by decide⟩,
   ⟨{ pkeState smallSlots with pke := { (pkeState smallSlots).pke with running := some doneRun }, now := 49 }, doneRun, by decide⟩⟩

theorem witness_InverseInverts :
    (∃ (w m a : Nat), 1 < m ∧ m < 2 ^ w ∧ 0 < a ∧ a < m ∧ Nat.gcd m a = 1) ∧
    (∃ (w m a : Nat), 1 < m ∧ m < 2 ^ w ∧ 0 < a ∧ a < m ∧ Nat.gcd m a ≠ 1) :=
  ⟨⟨8, 7, 3, by decide⟩,
   ⟨8, 9, 3, by decide⟩⟩

theorem witness_FirmwareActs :
    (∃ (s : State), s.leavesLeft < 65536 ∧ s.hss.prepared = false ∧ s.hss.topNext < 2 ^ 20) ∧
    (∃ (s : State), (65536 ≤ s.leavesLeft ∨ s.hss.prepared = true)) ∧
    (∃ (s : State), ∃ (ctx : Nat), Safety.direct s ctx = true ∧ s.idle = true ∧ s.packageReady = true ∧ s.restart = none ∧
        s.sameFieldFirmware = true) ∧
    (∃ (s : State), ∃ (ctx : Nat), Safety.direct s ctx = true ∧ s.idle = true ∧ s.packageReady = true ∧ s.restart = none ∧
        s.sameFieldFirmware = false) :=
  ⟨⟨{ State.reset with hss := { bottomNext := 999990 } }, by decide⟩,
   ⟨State.reset, by decide⟩,
   ⟨stagedState [], 0, by decide⟩,
   ⟨stagedState [(1, [(32, 1)])], 0, by decide⟩⟩

/-! ### Witnesses: part 11 of the statements -/

/-- A check run of 4 bytes at an address in context 95. -/
def checkOn (a : Nat) : State := { (State.reset.setEntry 0xB1DF 1 1).setEntry 0xB1DF 2 1 with checkRun := some { source := a, length := 4, context := 95 } }
def checkFinds (a : Nat) : State :=
  { (State.reset.setEntry 0xB15F 1 1).setEntry 0xB15F 2 1 with checkRun := some { source := a, length := 4, context := 95 }, mem := [(5, 6)] }
def leaseState : State := { jobState { state := .running } with now := 8000 }
def recoverState (n : Nat) : State := { State.reset with tiles := [(63, { recoverBy := some 500 })], now := n }
def tickNow : LatchTick := { time := 3, source := 1, timed := true }
/-- The host side is off after an input out of range, and the input is back. -/
def backState (n : Nat) : State :=
  { (State.reset.setEntry 0x1100 1 0).setEntry 0x1100 4 INPUT_RANGE with inputBackSince := some 7, hostPowered := false, now := n }
/-- The watchdog has not been kicked since 0, with a period of 5 ns. -/
def barking (n : Nat) : State := { State.reset with now := n, watchdogLimit := 5 }
def barkNote (s : State) : LogEntry :=
  { event := 0x40, job := 0xFF, code := WATCHDOG_RESTART, seq := s.logNext, time := s.fabricTime, detail0 := s.entry 0xB190 1, detail1 := 0 }
def someReadings : SensorReadings := { coolantInlet := -3, coolantOutlet := 40, fieldSide := 50, boardMax := 60, stackTemps := [1361], engineTemps := [5], junctionTemps := [-7, 8] }

theorem witness_ChecksRun :
    (∃ (s : State), ∃ (ctx n : Nat), Safety.direct s ctx = true ∧ n = s.entry 0xB180 3 ∧ n < 96 ∧ s.checkContextFits (s.entry 0xB180 1) n = true ∧
        s.checkRun = none ∧ s.contextBound n = false ∧
        (s.isSelf (nodeOf (s.entry 0xB180 1)) = true ∨ s.issueStatus (nodeOf (s.entry 0xB180 1)) 2 (localOf (s.entry 0xB180 1)) = OK)) ∧
    (∃ (s : State), ∃ (ctx : Nat), ∃ (c : CheckRun), Safety.direct s ctx = true ∧ s.checkRun = some c ∧ c.context < 96 ∧
        s.contextBound c.context = true) ∧
    (∃ (s : State), ∃ (c : CheckRun), ∃ (b remote : List Byte), ∃ (n : Nat), s.checkRun = some c ∧ n = c.context ∧ n < 96 ∧
        s.contextBound n = true ∧ s.checkForbidden c = false ∧ s.issuerBusy issuerCheck = false ∧ s.entry (0xB100 + n) 4 + c.length < 2 ^ 64 ∧
        (s.isSelf (nodeOf c.source) = false ∨ s.rangePoisoned (localOf c.source) c.length = false) ∧
        b = (if s.isSelf (nodeOf c.source) then s.memBytes (localOf c.source) c.length else sliceBytes remote 0 c.length)) ∧
    (∃ (s : State), ∃ (c : CheckRun), ∃ (n : Nat), s.checkRun = some c ∧ n = c.context ∧ n < 96 ∧ s.contextBound n = true ∧
        s.checkForbidden c = true) ∧
    (∃ (s : State), ∃ (c : CheckRun), ∃ (n : Nat), s.checkRun = some c ∧ n = c.context ∧ n < 96 ∧ s.contextBound n = true ∧
        s.checkForbidden c = false ∧ s.issuerBusy issuerCheck = false ∧ s.isSelf (nodeOf c.source) = true ∧
        s.rangePoisoned (localOf c.source) c.length = true) ∧
    (∃ (s : State), ∃ (ctx n v : Nat), Safety.direct s ctx = true ∧ n < 96 ∧ s.entry (0xB100 + n) 1 ≠ 1 ∧ v < 2) ∧
    (∃ (s : State), ∃ (ctx n v : Nat), ∃ sub, Safety.direct s ctx = true ∧ n < 96 ∧ s.entry (0xB100 + n) 1 ≠ 1 ∧ (sub = 3 ∨ sub = 4) ∧ v < 2 ^ 64) :=
  ⟨⟨(State.reset.setEntry 0xB180 3 95).setEntry 0xB180 2 4, 0, 95, by decide⟩,
   ⟨checkFinds 0, 0, ({ source := 0, length := 4, context := 95 } : CheckRun), by decide⟩,
   ⟨checkFinds 4, { source := 4, length := 4, context := 95 }, (checkFinds 4).memBytes 4 4, [], 95, by decide⟩,
   ⟨checkFinds 384000065535, ({ source := 384000065535, length := 4, context := 95 } : CheckRun), 95, by decide⟩,
   ⟨{ checkFinds 4 with wordPoison := [0] }, ({ source := 4, length := 4, context := 95 } : CheckRun), 95, by decide⟩,
   ⟨State.reset, 0, 95, 1, by decide⟩,
   ⟨State.reset, 0, 95, 5, 4, by decide⟩⟩

theorem witness_LeasesAndWatchdog :
    (∃ (s : State), ∃ (t : Nat), t < 64 ∧ s.tileEnabled t = true) ∧
    (∃ (s : State), ∃ (t j : Nat), t < 64 ∧ s.tileEnabled t = true ∧ s.renewedByLedger t = false ∧ (s.tile t).leaseAt + 8000 ≤ s.now ∧
        (s.tile t).recoverBy = none ∧ bit (s.entry 0xB190 2) t = false ∧ s.jobOfTile t = some j ∧ (s.job j).state = .running) ∧
    (∃ (s : State), ∃ (t : Nat), t < 64 ∧ s.now < (s.tile t).leaseAt + 8000) ∧
    (∃ (s : State), ∃ (t d : Nat), t < 64 ∧ (s.tile t).recoverBy = some d ∧ d ≤ s.now) ∧
    (∃ (s : State), ∃ (t d : Nat), t < 64 ∧ (s.tile t).recoverBy = some d ∧ s.now < d) ∧
    (∃ (s : State), s.ready = true) ∧
    (∃ (s : State), ∃ (e : LogEntry), s.ready = true ∧ s.hostGate.down = false ∧ s.hostGate.quietUntil ≤ s.now ∧
        e = { event := 0x40, job := 0xFF, code := WATCHDOG_RESTART, seq := s.logNext, time := s.fabricTime, detail0 := s.entry 0xB190 1, detail1 := 0 } ∧ s.watchdogAt + s.watchdogLimit ≤ s.now) ∧
    (∃ (s : State), ∃ (e : LogEntry), s.ready = true ∧ s.hostGate.down = false ∧ s.hostGate.quietUntil ≤ s.now ∧
        e = { event := 0x40, job := 0xFF, code := WATCHDOG_RESTART, seq := s.logNext, time := s.fabricTime, detail0 := s.entry 0xB190 1, detail1 := 0 } ∧ s.now < s.watchdogAt + s.watchdogLimit) :=
  ⟨⟨State.reset, 63, by decide⟩,
   ⟨leaseState.setEntry 0xA0C1 1 0, 1, 0, by decide⟩,
   ⟨{ State.reset with now := 7999 }, 63, by decide⟩,
   ⟨recoverState 500, 63, 500, by decide⟩,
   ⟨recoverState 499, 63, 500, by decide⟩,
   ⟨barking 0, by decide⟩,
   ⟨barking 60000000000, barkNote (barking 60000000000), by decide⟩,
   ⟨barking 4, barkNote (barking 4), by decide⟩⟩

theorem witness_SnapshotsTake :
    (∃ (s : State), ∃ (ctx : Nat), Safety.direct s ctx = true ∧ s.timedTicks < 4) ∧
    (∃ (s : State), ∃ (ctx : Nat), Safety.direct s ctx = true ∧ 4 ≤ s.timedTicks) ∧
    (∃ (s : State), ∃ (k : LatchTick), ∃ (n : Nat), s.dueTick = some k ∧ s.copying = none ∧ s.captureSlot = some n) ∧
    (∃ (s : State), s.dueTick = none) ∧
    (∃ (s : State), ∃ (n time : Nat), s.copying = some (n, time)) :=
  ⟨⟨State.reset.setEntry 0x8010 3 9, 0, by decide⟩,
   ⟨{ State.reset with ticks := [tickNow, tickNow, tickNow, tickNow] }, 0, by decide⟩,
   ⟨{ State.reset with ticks := [tickNow], now := 3 }, tickNow, 0, by decide⟩,
   ⟨State.reset, by decide⟩,
   ⟨{ State.reset with copying := some (7, 3) }, 7, 3, by decide⟩⟩

theorem witness_RestartsBegin :
    (∃ (s : State), ∃ (ctx k : Nat), ∃ (c : Instr), Safety.direct s ctx = true ∧ s.hostGate.quietUntil ≤ s.now ∧ (k, c) ∈ [(1,
        Instr.resetWarm ctx), (2, .resetHostOff ctx), (3, .resetHostPower ctx), (4, .resetFull ctx)]) ∧
    (∃ (s : State), ∃ (ctx : Nat), isDtp ctx = true ∧ (s.context ctx).groupState ≠ 1 ∧ s.awaits ctx = false ∧ s.restart = none ∧
        s.recovery = false ∧ s.entry 0x1100 1 ≠ 0 ∧ s.fieldGate.quietUntil ≤ s.now) ∧
    (∃ (s : State), ∃ (ctx : Nat), isDtp ctx = true ∧ (s.context ctx).groupState ≠ 1 ∧ s.awaits ctx = false ∧ s.restart = none ∧
        s.recovery = false ∧ s.entry 0x1100 1 = 0) ∧
    (∃ (s : State), ∃ (seq mask : Nat), ∃ (on : Bool), s.fieldPowered = true ∧ s.hostGate.down = false ∧ s.hostGate.answered.lookup seq = none ∧
        (bit mask 90 || bit mask 95) = true ∧ on = false ∧ s.hostPowered = true) ∧
    (∃ (s : State), ∃ (seq mask : Nat), ∃ (on : Bool), s.fieldPowered = true ∧ s.hostGate.down = false ∧ s.hostGate.answered.lookup seq = none ∧
        (bit mask 90 || bit mask 95) = true ∧ on = true ∧ s.hostPowered = false ∧ s.entry 0x1100 1 = 0 ∧ s.restart = none ∧ s.recovery = false) ∧
    (∃ (s : State), s.fieldPowered = false) :=
  ⟨⟨State.reset, 15, 2, (.resetHostOff 15 : Instr), by decide⟩,
   ⟨State.reset, 17, by decide⟩,
   ⟨{ State.reset.setEntry 0x1100 1 0 with hostPowered := false }, 17, by decide⟩,
   ⟨State.reset, 0, 2 ^ 95, false, by decide⟩,
   ⟨{ State.reset.setEntry 0x1100 1 0 with hostPowered := false }, 0, 2 ^ 90, true, by decide⟩,
   ⟨{ State.reset with fieldPowered := false, hostPowered := false }, by decide⟩⟩

theorem witness_InputsAndSensors :
    (∃ (s : State), ∃ (mv : Nat), (mv < 50000 ∨ 60000 < mv) ∧ 10 ≤ s.heat.outSamples ∧ s.entry 0xC000 3 = 0 ∧ s.entry 0x1100 1 ≠ 0 ∧
        s.fieldGate.quietUntil ≤ s.now) ∧
    (∃ (s : State), ∃ (t : Nat), s.inputBackSince = some t ∧ s.entry 0x1100 1 = 0 ∧ s.entry 0x1100 4 = INPUT_RANGE ∧ s.entry 0x1120 2 = 1 ∧
        s.thermalTripped = false ∧ s.recovery = false ∧ s.restart = none ∧ t + 100000000 ≤ s.now) ∧
    (∃ (s : State), ∃ (t : Nat), s.inputBackSince = some t ∧ s.entry 0x1100 1 = 0 ∧ s.entry 0x1100 4 = INPUT_RANGE ∧ s.entry 0x1120 2 = 1 ∧
        s.thermalTripped = false ∧ s.recovery = false ∧ s.restart = none ∧ s.now < t + 100000000) ∧
    (∃ (s : State), s.entry 0x1100 1 ≠ 0) :=
  ⟨⟨{ State.reset with heat := { State.reset.heat with outSamples := 10 } }, 60001, by decide⟩,
   ⟨backState 100000007, 7, by decide⟩,
   ⟨backState 100000006, 7, by decide⟩,
   ⟨State.reset, by decide⟩⟩

/-! ### Witnesses: part 12 of the statements -/

theorem witness_FoldReduces :
    (∃ (w : Nat), ∃ (x : Int), ∃ y, wordValid w 0 = true ∧ -(2 ^ 80) < x ∧ x < 2 ^ 80 ∧ y < 2 ^ (wordW w + 1)) ∧
    (∃ (w : Nat), ∃ (x : Int), ∃ (y : Int), wordValid w 0 = true ∧ -(2 ^ 80) < x ∧ x < 2 ^ 80 ∧ (2 ^ (wordW w + 1) ≤ y ∨ y < 0)) :=
  ⟨⟨9234, -(2 ^ 80 - 1), 2 ^ 35 - 1, by decide⟩,
   ⟨9234, -(2 ^ 80 - 1), -1, by decide⟩⟩

theorem witness_LinearWindowMaps :
    ∃ (s : State), ∃ (a j o g : Nat), j = a / 48000008192 ∧ s.stackLinear j = true ∧ o = a - j * 48000008192 ∧ g = o / 2 ^ 8 :=
  ⟨State.reset.setEntry 0x3010 1 128, 7 * 48000008192 + 48000008191, 7, 48000008191, 187500031, by decide⟩

end Sys2Proof.Tests
end

section
/-! PROOFS. BAR0 during the firmware activation pause (R48). -/

namespace Sys2Proof.Proofs

open Sys2Proof.Machine

/-- An aligned offset names one entry (R10). -/
theorem indexAt_subAt_iff {o i sub : Nat} (ho : o % 8 = 0) (hs : sub < 256) : indexAt o = i ∧ subAt o = sub ↔ o = 2048 * i + 8 * sub := by
  simp only [indexAt, subAt]
  omega

theorem mirrorMisfit_of_not_fabric {ctx : Nat} (h : isFabric ctx = false) (o n : Nat) : mirrorMisfit ctx o n = false := by
  simp [mirrorMisfit, h]

theorem narrowTo_allOnes (n : Nat) : narrowTo n allOnes = if n = 4 then 0xFFFFFFFF else 0xFFFFFFFFFFFFFFFF := rfl

section Accesses

variable {s : State} {a : EntryAccess}

theorem exec_dictRead (ctx o n : Nat) (s : State) : exec (.dictRead ctx o n) s = .next (s.dictRead { ctx := ctx, offset := o, size := n }) := rfl

theorem exec_dictWrite (ctx o n : Nat) (v : Word) (s : State) :
    exec (.dictWrite ctx o n v) s = .next (s.dictWrite { ctx := ctx, offset := o, size := n, value := some v.toNat } v.toNat) := rfl

/-- Below the dictionary's end a read of a context that is no fabric node's is a read of one entry. -/
theorem dictRead_entry (hc : isFabric a.ctx = false) (ho : a.offset < dictTop) :
    s.dictRead a = s.answerRead a (indexAt a.offset) (subAt a.offset) (sizeAllowed a.ctx a.offset a.size)
      fun s => s.readOp a.ctx (indexAt a.offset) (subAt a.offset) := by
  simp [State.dictRead, Nat.not_le.mpr ho, mirrorMisfit_of_not_fabric hc]

/-- Below the dictionary's end a write of a context that is no fabric node's is a write of one entry. -/
theorem dictWrite_entry (hc : isFabric a.ctx = false) (ho : a.offset < dictTop) (v : Nat) :
    s.dictWrite a v = s.served a.ctx fun s => s.inTurn a fun s =>
      let x := s.writeAny a (indexAt a.offset) (subAt a.offset) (widen a.size v (indexAt a.offset) (subAt a.offset))
        (sizeAllowed a.ctx a.offset a.size)
      x.2.record a.ctx (indexAt a.offset) (subAt a.offset) x.1 := by
  simp [State.dictWrite, Nat.not_le.mpr ho, mirrorMisfit_of_not_fabric hc]

/-- An updating device is not READY, so BAR0 answers by itself. -/
theorem bar0Paused_of_updating (h : s.entry 0x1100 1 = 7) : s.bar0Paused 0 = true := by
  simp [State.bar0Paused, State.ready, h]

theorem answerRead_paused (h : s.bar0Paused a.ctx = true) (i sub : Nat) (sizeOk : EntryRow → Bool) (op : State → Nat × Nat × State) :
    s.answerRead a i sub sizeOk op = s.emit (.dictRead a.ctx (if i = 0x1030 ∧ sub = 1 then BUSY else narrowTo a.size allOnes)) := by
  simp only [State.answerRead, h, if_true]

theorem served_paused {ctx : Nat} (h : s.bar0Paused ctx = true) (f : State → State) : s.served ctx f = s := by
  simp only [State.served, h, if_true]

end Accesses

/-- Settles O13: both accesses reach one entry of the dictionary, where the pause answers the read and drops the write. -/
theorem pauseAnswers : Obligations.PauseAnswers := by
  intro s o n v hUpdating hTop hAligned _
  have hPaused : s.bar0Paused 0 = true := bar0Paused_of_updating hUpdating
  constructor
  · rw [exec_dictRead, dictRead_entry rfl hTop, answerRead_paused hPaused]
    simp only [indexAt_subAt_iff hAligned (show 1 < 256 by omega), narrowTo_allOnes, Nat.mul_one]
  · rw [exec_dictWrite, dictWrite_entry rfl hTop, served_paused hPaused]

end Sys2Proof.Proofs
end

section
/-! PROOFS. The reduction of R89: every pass changes the value by a multiple of q, and the passes end. -/

namespace Sys2Proof.Proofs

open Sys2Proof.Machine

/-- Where q differs from B by at most B / 4 + 1, as both forms of R62 do from 2^W, a pass lands in the folded range or comes closer to 0.
With x = H × B + L the new value is L - H × (q - B). -/
theorem fold_lands_or_shrinks {B q x : Int} (hB : 16 ≤ B) (hNear : |q - B| ≤ B / 4 + 1) (hx : 2 * B ≤ x ∨ x < 0) :
    (0 ≤ x - x / B * q ∧ x - x / B * q < 2 * B) ∨ (x - x / B * q).natAbs < x.natAbs := by
  have hL := Int.emod_lt_of_pos x (show 0 < B by omega)
  have hL0 := Int.emod_nonneg x (show B ≠ 0 by omega)
  have hSplit : x = x / B * B + x % B := (Int.ediv_mul_add_emod x B).symm
  have hNew : x - x / B * q = x % B - x / B * (q - B) := by linear_combination hSplit
  have hM : 4 * |x / B * (q - B)| ≤ |x / B| * B + 4 * |x / B| := by
    rw [abs_mul]
    linear_combination mul_le_mul_of_nonneg_left (show 4 * |q - B| ≤ B + 4 by omega) (abs_nonneg (x / B))
  have hBig : 16 * |x / B| ≤ |x / B| * B := by
    linear_combination mul_le_mul_of_nonneg_left hB (abs_nonneg (x / B))
  rw [hNew]
  generalize x / B * (q - B) = M at *
  have hM1 := le_abs_self M
  have hM2 := neg_abs_le M
  generalize x % B = L at *
  rcases hx with hAbove | hNeg
  · have hH : 2 ≤ x / B := (Int.le_ediv_iff_mul_le (by omega)).mpr hAbove
    rw [abs_of_nonneg (show 0 ≤ x / B by omega)] at hM hBig
    omega
  · have hH : x / B < 0 := Int.ediv_neg_of_neg_of_pos hNeg (by omega)
    rw [abs_of_neg hH, neg_mul] at hM hBig
    by_cases hFew : -2 ≤ x / B
    · have hFewM : -(2 * B) ≤ x / B * B := by linear_combination mul_le_mul_of_nonneg_right hFew (show 0 ≤ B by omega)
      omega
    · have hMany : x / B * B ≤ -(3 * B) := by
        linear_combination mul_le_mul_of_nonneg_right (show x / B ≤ -3 by omega) (show 0 ≤ B by omega)
      omega

/-- q as a number of FORM, W and S (Table 3-2). -/
def formModulus (form w s : Nat) : Int :=
  if form = 0 then 2 ^ w - 2 ^ s + 1 else 2 ^ w + 2 ^ s + 1

/-- With enough fuel the procedure of R89 ends at the residue of `x`. -/
def FoldEnds (form w s : Nat) (q x : Int) : Prop :=
  ∃ n, ∀ fuel, n ≤ fuel → foldReduce form w s q fuel x = x % q

section Fold

variable {form w s : Nat} {q x : Int}

/-- A pass of R89's fold subtracts `H × q`, for a modulus of either form. -/
theorem foldReduce_fold (hq : q = formModulus form w s) (fuel : Nat) (hx : 2 ^ (w + 1) ≤ x ∨ x < 0) :
    foldReduce form w s q (fuel + 1) x = foldReduce form w s q fuel (x - x / 2 ^ w * q) := by
  rw [foldReduce, if_pos hx]
  dsimp only
  congr 1
  rw [hq, formModulus]
  split <;> ring

/-- A folded value needs one unit of fuel for each of its `x / q` subtractions. -/
theorem foldReduce_eq_emod_of_folded (hq : 0 < q) {fuel : Nat} (h0 : 0 ≤ x) (hTop : x < 2 ^ (w + 1)) (hFuel : x / q ≤ fuel) :
    foldReduce form w s q fuel x = x % q := by
  induction fuel generalizing x with
  | zero =>
    have hlt : x < q := by simpa using Int.lt_mul_of_ediv_lt hq (show x / q < 1 by omega)
    rw [foldReduce, Int.emod_eq_of_lt h0 hlt]
  | succ fuel ih =>
    rw [foldReduce, if_neg (by omega)]
    split
    next hle =>
      have hDiv : (x - q) / q = x / q - 1 := by simpa using Int.sub_mul_ediv_right x 1 hq.ne'
      rw [ih (by omega) (by omega) (by omega), Int.sub_emod_right]
    next hlt => rw [Int.emod_eq_of_lt h0 (by omega)]

theorem foldEnds_of_folded (hq : 0 < q) (h0 : 0 ≤ x) (hTop : x < 2 ^ (w + 1)) : FoldEnds form w s q x :=
  ⟨(x / q).toNat, fun _ hFuel => foldReduce_eq_emod_of_folded hq h0 hTop (by omega)⟩

/-- A pass keeps the residue, so the procedure ends at it where it does so from the folded value. -/
theorem foldEnds_of_fold (hq : q = formModulus form w s) (hx : 2 ^ (w + 1) ≤ x ∨ x < 0) (h : FoldEnds form w s q (x - x / 2 ^ w * q)) :
    FoldEnds form w s q x := by
  obtain ⟨n, hEnds⟩ := h
  refine ⟨n + 1, fun fuel hFuel => ?_⟩
  obtain ⟨fuel, rfl⟩ := Nat.exists_eq_add_of_le' (show 1 ≤ fuel by omega)
  rw [foldReduce_fold hq fuel hx, hEnds fuel (by omega), Int.sub_mul_emod_self_right]

/-- The passes of the fold end, whatever value they start from: by strong induction on its distance from 0. -/
theorem foldEnds (hq : q = formModulus form w s) (hs : 4 * 2 ^ s ≤ (2 : Int) ^ w) (hw : 16 ≤ (2 : Int) ^ w) (x : Int) : FoldEnds form w s q x := by
  have hForm : q = 2 ^ w - 2 ^ s + 1 ∨ q = 2 ^ w + 2 ^ s + 1 := by
    rw [hq, formModulus]
    split <;> simp
  have hs0 : 0 < (2 : Int) ^ s := by positivity
  have hPos : 0 < q := by omega
  have hNear : |q - 2 ^ w| ≤ 2 ^ w / 4 + 1 := abs_le.mpr (by omega)
  have hTwice : (2 : Int) ^ (w + 1) = 2 * 2 ^ w := pow_succ' 2 w
  induction hn : x.natAbs using Nat.strong_induction_on generalizing x with
  | _ d ih =>
    by_cases hx : 2 ^ (w + 1) ≤ x ∨ x < 0
    · refine foldEnds_of_fold hq hx ?_
      rcases fold_lands_or_shrinks hw hNear (hTwice ▸ hx) with ⟨h0, hTop⟩ | hShrinks
      · exact foldEnds_of_folded hPos h0 (by omega)
      · exact ih _ (hn ▸ hShrinks) _ rfl
    · exact foldEnds_of_folded hPos (by omega) (by omega)

end Fold

section Word

variable {w n : Nat}

/-- R62 bounds the exponents of a valid word. -/
theorem exponents_of_wordValid (h : wordValid w n = true) : 30 ≤ wordW w ∧ wordS w + 2 ≤ wordW w := by
  simp only [wordValid, Bool.and_eq_true, decide_eq_true_eq] at h
  omega

theorem pow_wordW_ge (h : wordValid w n = true) : 16 ≤ 2 ^ wordW w :=
  calc 16 = 2 ^ 4 := rfl
    _ ≤ 2 ^ wordW w := Nat.pow_le_pow_right (by omega) (by have := exponents_of_wordValid h; omega)

theorem four_mul_pow_wordS_le (h : wordValid w n = true) : 4 * 2 ^ wordS w ≤ 2 ^ wordW w :=
  calc 4 * 2 ^ wordS w = 2 ^ (wordS w + 2) := by ring
    _ ≤ 2 ^ wordW w := Nat.pow_le_pow_right (by omega) (exponents_of_wordValid h).2

theorem modulusOf_eq_formModulus (h : wordValid w n = true) :
    (modulusOf w : Int) = formModulus (if bit w 15 then 1 else 0) (wordW w) (wordS w) := by
  have hs := four_mul_pow_wordS_le h
  by_cases hForm : bit w 15
  · simp [modulusOf, formModulus, hForm]
  · simp [modulusOf, formModulus, hForm, Nat.cast_sub (show 2 ^ wordS w ≤ 2 ^ wordW w by omega)]

/-- The number of subtractions that R89 names: q is above 2^W for FORM 1 and above three quarters of it for FORM 0. -/
theorem folded_div_modulusOf_le (h : wordValid w n = true) {y : Nat} (hy : y < 2 ^ (wordW w + 1)) :
    y / modulusOf w ≤ if bit w 15 then 1 else 2 := by
  have hs := four_mul_pow_wordS_le h
  rw [pow_succ] at hy
  unfold modulusOf
  split
  · exact Nat.le_of_lt_succ (Nat.div_lt_of_lt_mul (by omega))
  · exact Nat.le_of_lt_succ (Nat.div_lt_of_lt_mul (by omega))

end Word

/-- Settles O59: each pass subtracts a multiple of q and lands in the folded range or comes closer to 0, so the passes end at the residue. -/
theorem foldReduces : Obligations.FoldReduces := by
  intro w x hValid _ _
  have hq := modulusOf_eq_formModulus hValid
  have hs : 4 * 2 ^ wordS w ≤ (2 : Int) ^ wordW w := mod_cast four_mul_pow_wordS_le hValid
  have hw : 16 ≤ (2 : Int) ^ wordW w := mod_cast pow_wordW_ge hValid
  exact ⟨foldEnds hq hs hw x, fun _ => folded_div_modulusOf_le hValid, fun fuel _ => foldReduce_fold hq fuel⟩

end Sys2Proof.Proofs
end

section
/-! PROOFS. The mapping of a stack-linear window (R279) loses nothing of an address. -/

namespace Sys2Proof.Proofs

open Sys2Proof.Machine

/-- The linear branch of the mapping. -/
theorem mapAddress_of_stackLinear {s : State} {a : Nat} (h : s.stackLinear (a / stackWindow) = true) :
    s.mapAddress a = (a / stackWindow, (a - a / stackWindow * stackWindow) / 256 % 128, (a - a / stackWindow * stackWindow) / 256 / 128) := by
  simp only [State.mapAddress, h, if_true]

/-- A window holds whole granules (R277), so the offset in it keeps the byte of the address. -/
theorem windowOffset_mod_256 (a : Nat) : (a - a / stackWindow * stackWindow) % 256 = a % 256 := by
  have hWhole : 256 ∣ a / stackWindow * stackWindow := Nat.dvd_mul_left_of_dvd (by decide) _
  have hBelow := Nat.div_mul_le_self a stackWindow
  omega

/-- Window, channel, channel-local granule and byte of R279 make up the address. -/
theorem address_eq_of_windowOffset {a o : Nat} (ho : o = a - a / stackWindow * stackWindow) :
    a = a / stackWindow * stackWindow + (128 * (o / 256 / 128) + o / 256 % 128) * 256 + a % 256 := by
  have hByte : o % 256 = a % 256 := ho ▸ windowOffset_mod_256 a
  have hBelow := Nat.div_mul_le_self a stackWindow
  calc a = a / stackWindow * stackWindow + o := by omega
    _ = a / stackWindow * stackWindow + (o / 256 * 256 + a % 256) := by rw [← hByte, Nat.div_add_mod']
    _ = _ := by rw [Nat.div_add_mod, Nat.add_assoc]

/-- Settles O60: the linear branch gives the parts of R279, and these make up the address. -/
theorem linearWindowMaps : Obligations.LinearWindowMaps := by
  rintro s a _ _ _ rfl hLinear rfl rfl
  have hMap := mapAddress_of_stackLinear hLinear
  exact ⟨hMap, by rw [hMap]; exact address_eq_of_windowOffset rfl⟩

end Sys2Proof.Proofs
end

section
/-! PROOFS. The queue and the step (log entry 1). -/

namespace Sys2Proof.Proofs

open Sys2Proof.Machine

/-- Settles O1: the step reads the front of the queue. -/
theorem stepRunsFront : Obligations.StepRunsFront := by
  intro s c rest hQueue
  simp only [step, hQueue]

/-- On an empty queue the block idles. -/
theorem step_idles {s : State} (h : s.pending = []) : step s = .next s.idleTick := by
  simp only [step, h]

/-- With nothing to slew global time stands still (R322). -/
theorem slewStep_of_slewLeft_zero {s : State} (h : s.slewLeft = 0) : s.slewStep = s := by
  simp [State.slewStep, h]

theorem restartTick_of_no_restart {s : State} (h : s.restart = none) : s.restartTick = s := by
  simp [State.restartTick, h]

theorem sendReplay_of_no_writes {s : State} (h : s.replayWrites = []) : s.sendReplay = s := by
  simp [State.sendReplay, h]

theorem drainBehind_of_none_behind {s : State} (h : s.behind = []) : s.drainBehind = s := by
  simp [State.drainBehind, h]

/-- Settles O2: each part of the idle step has nothing to do. -/
theorem emptyQueueIdles : Obligations.EmptyQueueIdles := by
  intro s hQueue hRestart hSlew hReplay hBehind
  rw [step_idles hQueue, State.idleTick]
  rw [slewStep_of_slewLeft_zero (s := { s with now := s.now + 1 }) hSlew,
    restartTick_of_no_restart (s := { s with now := s.now + 1 }) hRestart,
    sendReplay_of_no_writes (s := { s with now := s.now + 1 }) hReplay,
    drainBehind_of_none_behind (s := { s with now := s.now + 1 }) hBehind]

/-- Settles O5: nothing is listed at reset. -/
theorem resetMemoryCanonical : Obligations.ResetMemoryCanonical :=
  ⟨Laws.memory_wf_reset, rfl⟩

end Sys2Proof.Proofs
end
section
/-! PROOFS. The extended Euclidean inverse (R383): the coefficients stay congruent to the remainders, and the fuel lasts to the gcd. -/

namespace Sys2Proof.Proofs

open Sys2Proof.Machine

/-- A step halves the product of the two remainders. -/
theorem two_mul_remainders_lt {r r' : Nat} (hr' : 0 < r') (hlt : r' < r) : 2 * (r' * (r % r')) < r * r' := by
  have hSplit : r' * (r / r') + r % r' = r := Nat.div_add_mod r r'
  have hQuot : r' ≤ r' * (r / r') := Nat.le_mul_of_pos_right _ (Nat.div_pos hlt.le hr')
  have hRem : r % r' < r' := Nat.mod_lt r hr'
  calc 2 * (r' * (r % r')) = 2 * (r % r') * r' := by ring
    _ < r * r' := Nat.mul_lt_mul_of_pos_right (by omega) hr'

/-- Fuel for the logarithm of the remainders' product carries the algorithm to the gcd. -/
theorem euclid_fst_eq_gcd {n r r' : Nat} (t t' : Int) (hlt : r' < r) (hFuel : r * r' < 2 ^ n) :
    (euclid (n + 1) r r' t t').1 = Nat.gcd r r' := by
  induction n generalizing r r' t t' with
  | zero =>
    have hZero : r' = 0 := by
      rcases Nat.mul_eq_zero.mp (show r * r' = 0 by simpa using hFuel) with h | h <;> omega
    simp [euclid, hZero]
  | succ n ih =>
    rw [euclid]
    split
    next h => simp [h]
    next h =>
      have hHalf := two_mul_remainders_lt (Nat.pos_of_ne_zero h) hlt
      rw [ih _ _ (Nat.mod_lt r (Nat.pos_of_ne_zero h)) (by rw [pow_succ] at hFuel; omega), Nat.gcd_comm, ← Nat.gcd_rec, Nat.gcd_comm]

/-- Each coefficient times `a` stays congruent to its remainder. -/
theorem euclid_snd_mul_modEq {m a : Int} (n : Nat) {r r' : Nat} {t t' : Int} (h : t * a ≡ r [ZMOD m]) (h' : t' * a ≡ r' [ZMOD m]) :
    (euclid n r r' t t').2 * a ≡ (euclid n r r' t t').1 [ZMOD m] := by
  induction n generalizing r r' t t' with
  | zero => exact h
  | succ n ih =>
    rw [euclid]
    split
    · exact h
    · refine ih h' ?_
      have hStep : (t - (r / r' : Nat) * t') * a = t * a - (r / r' : Nat) * (t' * a) := by ring
      have hRem : ((r % r' : Nat) : Int) = r - (r / r' : Nat) * r' := by
        have hSplit : ((r / r' : Nat) : Int) * r' + (r % r' : Nat) = r := mod_cast Nat.div_add_mod' r r'
        exact eq_sub_of_add_eq' hSplit
      rw [hStep, hRem]
      exact h.sub (h'.mul_left _)

/-- Settles O52: the algorithm ends at the gcd, and where that is 1 the coefficient that goes with it is the inverse. -/
theorem inverseInverts : Obligations.InverseInverts := by
  intro w m a hm hw ha ham
  have hGcd : (euclid (2 * w + 2) m a 0 1).1 = Nat.gcd m a := by
    refine euclid_fst_eq_gcd 0 1 ham ?_
    calc m * a ≤ m * m := Nat.mul_le_mul_left m ham.le
      _ < 2 ^ w * 2 ^ w := Nat.mul_lt_mul'' hw hw
      _ = 2 ^ (2 * w) := by rw [← pow_add, two_mul]
      _ ≤ 2 ^ (2 * w + 1) := Nat.pow_le_pow_right (by omega) (by omega)
  have hCoeff : (euclid (2 * w + 2) m a 0 1).2 * a ≡ (euclid (2 * w + 2) m a 0 1).1 [ZMOD m] :=
    euclid_snd_mul_modEq _ (by simp [Int.ModEq]) (by simp [Int.ModEq])
  simp only [modInverse, Nat.mod_eq_of_lt ham]
  generalize euclid (2 * w + 2) m a 0 1 = x at hGcd hCoeff
  rw [hGcd] at hCoeff
  rw [hGcd]
  constructor
  · intro hOne
    refine ⟨_, if_pos ⟨hOne, ha.ne'⟩, ?_, ?_⟩
    · have := Int.emod_lt_of_pos x.2 (show (0 : Int) < m by omega)
      omega
    · have hNonneg := Int.emod_nonneg x.2 (show (m : Int) ≠ 0 by omega)
      have hMod : (x.2 % m) * a % m = 1 := by
        rw [Int.mul_emod, Int.emod_emod, ← Int.mul_emod, hCoeff, hOne]
        exact Int.emod_eq_of_lt (by decide) (by exact_mod_cast hm)
      zify
      rwa [Int.toNat_of_nonneg hNonneg]
  · intro hNot
    exact if_neg fun h => hNot h.1

end Sys2Proof.Proofs
end

section
/-! PROOFS. What no operation of the model touches: the waiting commands, the grade and the map of enabled tiles (R3), and the canonical form of
stack memory. One lemma for each operation, in the order of the model's files; each follows the operation's own branches. -/

namespace Sys2Proof.Proofs

open Sys2Proof.Machine

/-- `s` has the waiting commands, the grade and the enabled tiles of `s₀`, and its memory is canonical if that of `s₀` is. -/
def Kept (s₀ s : State) : Prop :=
  s.pending = s₀.pending ∧ s.grade = s₀.grade ∧ s.enabled = s₀.enabled ∧ (Memory.wf s₀ = true → Memory.wf s = true)

theorem kept_refl (s : State) : Kept s s := ⟨rfl, rfl, rfl, id⟩

section Branches

variable {s₀ : State} {α β : Type} {c : Prop} [Decidable c]

theorem kept_ite {a b : State} (ha : Kept s₀ a) (hb : Kept s₀ b) : Kept s₀ (if c then a else b) := by
  split
  · exact ha
  · exact hb

theorem kept_ite_2 {a b : α × State} (ha : Kept s₀ a.2) (hb : Kept s₀ b.2) : Kept s₀ (if c then a else b).2 := by
  split
  · exact ha
  · exact hb

theorem kept_ite_22 {a b : α × β × State} (ha : Kept s₀ a.2.2) (hb : Kept s₀ b.2.2) : Kept s₀ (if c then a else b).2.2 := by
  split
  · exact ha
  · exact hb

theorem kept_ite_1 {a b : State × α} (ha : Kept s₀ a.1) (hb : Kept s₀ b.1) : Kept s₀ (if c then a else b).1 := by
  split
  · exact ha
  · exact hb

/-- A fold keeps what each of its steps keeps. -/
theorem kept_foldl {f : State → α → State} (hf : ∀ t x, Kept s₀ t → Kept s₀ (f t x)) {l : List α} {s : State} (h : Kept s₀ s) : Kept s₀ (l.foldl f s) := by
  induction l generalizing s with
  | nil => exact h
  | cons x l ih => exact ih (hf s x h)

end Branches

section Operations

variable {s₀ s : State}

/-! ### Updates of fields that the frame does not read -/

theorem kept_with_admitQueue {v} (h : Kept s₀ s) :
    Kept s₀ { s with admitQueue := v } := h

theorem kept_with_barriers {v} (h : Kept s₀ s) :
    Kept s₀ { s with barriers := v } := h

theorem kept_with_checkRun {v} (h : Kept s₀ s) :
    Kept s₀ { s with checkRun := v } := h

theorem kept_with_contexts_pendingGroups_sessions {v0 v1 v2} (h : Kept s₀ s) :
    Kept s₀ { s with contexts := v0, pendingGroups := v1, sessions := v2 } := h

theorem kept_with_conversion {v} (h : Kept s₀ s) :
    Kept s₀ { s with conversion := v } := h

theorem kept_with_copying_captures_captureSeq_captureOrder {v0 v1 v2 v3} (h : Kept s₀ s) :
    Kept s₀ { s with copying := v0, captures := v1, captureSeq := v2, captureOrder := v3 } := h

theorem kept_with_domains_hostPowered_restart_deferredRestart {v0 v1 v2 v3} (h : Kept s₀ s) :
    Kept s₀ { s with domains := v0, hostPowered := v1, restart := v2, deferredRestart := v3 } := h

theorem kept_with_failedTriples {v} (h : Kept s₀ s) :
    Kept s₀ { s with failedTriples := v } := h

theorem kept_with_fieldLog_inputBackSince {v0 v1} (h : Kept s₀ s) :
    Kept s₀ { s with fieldLog := v0, inputBackSince := v1 } := h

theorem kept_with_heat {v} (h : Kept s₀ s) :
    Kept s₀ { s with heat := v } := h

theorem kept_with_heat_inputBackSince {v0 v1} (h : Kept s₀ s) :
    Kept s₀ { s with heat := v0, inputBackSince := v1 } := h

theorem kept_with_hostLink {v} (h : Kept s₀ s) :
    Kept s₀ { s with hostLink := v } := h

theorem kept_with_hss {v} (h : Kept s₀ s) :
    Kept s₀ { s with hss := v } := h

theorem kept_with_lastTimeIdle {v} (h : Kept s₀ s) :
    Kept s₀ { s with lastTimeIdle := v } := h

theorem kept_with_lateStreams {v} (h : Kept s₀ s) :
    Kept s₀ { s with lateStreams := v } := h

theorem kept_with_mcastWaits {v} (h : Kept s₀ s) :
    Kept s₀ { s with mcastWaits := v } := h

theorem kept_with_nonceFresh {v} (h : Kept s₀ s) :
    Kept s₀ { s with nonceFresh := v } := h

theorem kept_with_notices {v} (h : Kept s₀ s) :
    Kept s₀ { s with notices := v } := h

theorem kept_with_openWaits {v} (h : Kept s₀ s) :
    Kept s₀ { s with openWaits := v } := h

theorem kept_with_pendingGroups {v} (h : Kept s₀ s) :
    Kept s₀ { s with pendingGroups := v } := h

theorem kept_with_pke {v} (h : Kept s₀ s) :
    Kept s₀ { s with pke := v } := h

theorem kept_with_poisonTable {v} (h : Kept s₀ s) :
    Kept s₀ { s with poisonTable := v } := h

theorem kept_with_poisonTable_clearWalk {v0 v1} (h : Kept s₀ s) :
    Kept s₀ { s with poisonTable := v0, clearWalk := v1 } := h

theorem kept_with_remoteOps {v} (h : Kept s₀ s) :
    Kept s₀ { s with remoteOps := v } := h

theorem kept_with_replayWrites {v} (h : Kept s₀ s) :
    Kept s₀ { s with replayWrites := v } := h

theorem kept_with_restart {v} (h : Kept s₀ s) :
    Kept s₀ { s with restart := v } := h

theorem kept_with_sessions_unstored_arriving_fieldPowered_restart {v0 v1 v2 v3 v4} (h : Kept s₀ s) :
    Kept s₀ { s with sessions := v0, unstored := v1, arriving := v2, fieldPowered := v3, restart := v4 } := h

theorem kept_with_slewLeft {v} (h : Kept s₀ s) :
    Kept s₀ { s with slewLeft := v } := h

theorem kept_with_sorters {v} (h : Kept s₀ s) :
    Kept s₀ { s with sorters := v } := h

theorem kept_with_stackWriteBacks {v} (h : Kept s₀ s) :
    Kept s₀ { s with stackWriteBacks := v } := h

theorem kept_with_starts_inputBackSince {v0 v1} (h : Kept s₀ s) :
    Kept s₀ { s with starts := v0, inputBackSince := v1 } := h

theorem kept_with_thermalTripped {v} (h : Kept s₀ s) :
    Kept s₀ { s with thermalTripped := v } := h

theorem kept_with_watchdogAt_watchdogLimit_restart {v0 v1 v2} (h : Kept s₀ s) :
    Kept s₀ { s with watchdogAt := v0, watchdogLimit := v1, restart := v2 } := h


/-! ### Ops -/

theorem kept_setTile {t x} (h : Kept s₀ s) : Kept s₀ (s.setTile t x) := h

theorem kept_updTile {t f} (h : Kept s₀ s) : Kept s₀ (s.updTile t f) := kept_setTile h

theorem kept_setJob {j x} (h : Kept s₀ s) : Kept s₀ (s.setJob j x) := h

theorem kept_updJob {j f} (h : Kept s₀ s) : Kept s₀ (s.updJob j f) := kept_setJob h

theorem kept_setContext {c x} (h : Kept s₀ s) : Kept s₀ (s.setContext c x) := h

theorem kept_updContext {c f} (h : Kept s₀ s) : Kept s₀ (s.updContext c f) := kept_setContext h

theorem kept_setStream {k x} (h : Kept s₀ s) : Kept s₀ (s.setStream k x) := h

theorem kept_updStream {k f} (h : Kept s₀ s) : Kept s₀ (s.updStream k f) := kept_setStream h

theorem kept_setPort {p x} (h : Kept s₀ s) : Kept s₀ (s.setPort p x) := h

theorem kept_updPort {p f} (h : Kept s₀ s) : Kept s₀ (s.updPort p f) := kept_setPort h

theorem kept_setSorter {k x} (h : Kept s₀ s) : Kept s₀ (s.setSorter k x) := h

theorem kept_setBarrier {b x} (h : Kept s₀ s) : Kept s₀ (s.setBarrier b x) := h

theorem kept_setEntry {index sub v} (h : Kept s₀ s) : Kept s₀ (s.setEntry index sub v) := h

theorem kept_bump {index sub n} (h : Kept s₀ s) : Kept s₀ (s.bump index sub n) := kept_setEntry h

theorem kept_resetEntries {keys} (h : Kept s₀ s) : Kept s₀ (s.resetEntries keys) := h

theorem kept_setBlob {index sub c} (h : Kept s₀ s) : Kept s₀ (s.setBlob index sub c) := h

theorem kept_emit {o} (h : Kept s₀ s) : Kept s₀ (s.emit o) := h

theorem kept_useFree (h : Kept s₀ s) : Kept s₀ s.useFree := h

theorem kept_setGate {e g} (h : Kept s₀ s) : Kept s₀ (s.setGate e g) := by
  unfold State.setGate
  split
  · exact h
  · exact h

theorem kept_gateSend {e p o} (h : Kept s₀ s) : Kept s₀ (s.gateSend e p o) := kept_ite (kept_setGate h) (kept_emit (kept_setGate h))

theorem kept_sendReset {kind cause} (h : Kept s₀ s) : Kept s₀ (s.sendReset kind cause) := kept_gateSend h

theorem kept_sendPower {mask on} (h : Kept s₀ s) : Kept s₀ (s.sendPower mask on) := kept_gateSend h

theorem kept_notice {e} (h : Kept s₀ s) : Kept s₀ (s.notice e) := by
  unfold State.notice
  exact kept_ite (kept_with_notices h) (kept_gateSend h)

theorem kept_sendVector {v} (h : Kept s₀ s) : Kept s₀ (s.sendVector v) := kept_emit (kept_with_hostLink (kept_bump h))

theorem kept_interrupt {source} (h : Kept s₀ s) : Kept s₀ (s.interrupt source) := kept_ite (kept_sendVector h) (kept_ite h h)

theorem kept_flushVectors (h : Kept s₀ s) : Kept s₀ s.flushVectors := kept_foldl (fun _ _ h1 => kept_ite (kept_sendVector h1) h1) h

theorem kept_countEvent {event d0} (h : Kept s₀ s) : Kept s₀ (s.countEvent event d0) := kept_setEntry (kept_setEntry (kept_bump h))

theorem kept_logEvent {e} (h : Kept s₀ s) : Kept s₀ (s.logEvent e) := kept_ite h (kept_bump h)

theorem kept_raise {event job code d0 d1} (h : Kept s₀ s) : Kept s₀ (s.raise event job code d0 d1) :=
  kept_ite (kept_countEvent h) (kept_interrupt (kept_notice (kept_logEvent (kept_countEvent h))))

theorem kept_countConflict {code detail} (h : Kept s₀ s) : Kept s₀ (s.countConflict code detail) := kept_ite (kept_raise h) h

theorem kept_record {ctx index sub code} (h : Kept s₀ s) : Kept s₀ (s.record ctx index sub code) :=
  kept_ite h (kept_ite (kept_updContext (kept_countConflict h)) (kept_countConflict h))

theorem kept_setDomain {d x} (h : Kept s₀ s) : Kept s₀ (s.setDomain d x) := h

/-! ### Mem -/

theorem kept_putByte {a b} (h : Kept s₀ s) : Kept s₀ (s.putByte a b) :=
  ⟨h.1, h.2.1, h.2.2.1, fun hw => Laws.memory_wf_putByte a b (h.2.2.2 hw)⟩

theorem kept_putBytes {a bs} (h : Kept s₀ s) : Kept s₀ (s.putBytes a bs) := by
  induction bs generalizing s a with
  | nil => exact h
  | cons b bs ih => exact ih (kept_putByte h)

theorem kept_poisonWord {w} (h : Kept s₀ s) : Kept s₀ (s.poisonWord w) := kept_ite h h

theorem kept_stampWord {w} (h : Kept s₀ s) : Kept s₀ (s.stampWord w) := h

theorem kept_zeroPoisoned {w} (h : Kept s₀ s) : Kept s₀ (s.zeroPoisoned w) := kept_ite (kept_putBytes h) h

theorem kept_memWrite {a bs} (h : Kept s₀ s) : Kept s₀ (s.memWrite a bs) :=
  kept_foldl (fun _ _ h1 => kept_stampWord h1) (kept_putBytes (kept_foldl (fun _ _ h1 => kept_zeroPoisoned h1) h))

theorem kept_addCounter {a n} (h : Kept s₀ s) : Kept s₀ (s.addCounter a n) := kept_memWrite h

theorem kept_markPoison {base len} (h : Kept s₀ s) : Kept s₀ (s.markPoison base len) := kept_ite h (kept_ite (kept_setEntry h) (kept_bump h))

theorem kept_uncorrectableWord {w} (h : Kept s₀ s) : Kept s₀ (s.uncorrectableWord w) := kept_raise (kept_setEntry (kept_bump (kept_poisonWord h)))

theorem kept_correctedWord {w} (h : Kept s₀ s) : Kept s₀ (s.correctedWord w) := kept_with_stackWriteBacks (kept_bump h)

theorem kept_applyEcc {a x3} (h : Kept s₀ s) : Kept s₀ (s.applyEcc a x3) := by
  unfold State.applyEcc
  split
  · exact h
  · exact h
  · exact kept_correctedWord h
  · exact kept_uncorrectableWord h

theorem kept_countRead {a n} (h : Kept s₀ s) : Kept s₀ (s.countRead a n) := kept_bump h

theorem kept_countWrite {a n} (h : Kept s₀ s) : Kept s₀ (s.countWrite a n) := kept_bump h

theorem kept_touchStack {k} (h : Kept s₀ s) : Kept s₀ (s.touchStack k) := kept_ite (kept_setEntry (kept_setSorter h)) (kept_setSorter h)

theorem kept_touchRange {a n} (h : Kept s₀ s) : Kept s₀ (s.touchRange a n) := kept_ite h (kept_foldl (fun _ _ h1 => kept_touchStack h1) h)

theorem kept_touchOwn {g n} (h : Kept s₀ s) : Kept s₀ (s.touchOwn g n) := kept_ite (kept_touchRange h) h

theorem kept_touchStacks (h : Kept s₀ s) : Kept s₀ s.touchStacks := kept_foldl (fun _ _ h1 => kept_touchStack h1) h

theorem kept_enterGranule {k id r g} (h : Kept s₀ s) : Kept s₀ (s.enterGranule k id r g) :=
  kept_ite (kept_setSorter h) (kept_setEntry (kept_setSorter h))

theorem kept_refuseRequest {r} (h : Kept s₀ s) : Kept s₀ (s.refuseRequest r) := kept_emit h

theorem kept_enterRequest {k r} (h : Kept s₀ s) : Kept s₀ (s.enterRequest k r) :=
  kept_ite (kept_refuseRequest h) (by
    split
    · exact kept_foldl (fun _ _ h1 => kept_enterGranule h1) h
    · exact kept_foldl (fun _ _ h1 => kept_memWrite h1) (kept_foldl (fun _ _ h1 => kept_enterGranule h1) h))

theorem kept_placeRequest {k r} (h : Kept s₀ s) : Kept s₀ (s.placeRequest k r) := kept_ite (kept_enterRequest h) (kept_setSorter h)

theorem kept_arriveRequest {k r} (h : Kept s₀ s) : Kept s₀ (s.arriveRequest k r) := kept_ite (kept_bump (kept_setSorter h)) (kept_placeRequest h)

theorem kept_drainQueue {k l} (h : Kept s₀ s) : Kept s₀ (s.drainQueue k l) := by
  induction l generalizing s with
  | nil => exact kept_setSorter h
  | cons r rest ih => exact kept_ite (ih (kept_enterRequest h)) (kept_setSorter h)

theorem kept_drainCapped {k kept l} (h : Kept s₀ s) : Kept s₀ (s.drainCapped k kept l) := by
  induction l generalizing s kept with
  | nil => exact kept_setSorter h
  | cons r rest ih => exact kept_ite (ih (kept_placeRequest h)) (ih h)

theorem kept_drainSorter {k} (h : Kept s₀ s) : Kept s₀ (s.drainSorter k) := kept_drainCapped (kept_drainQueue h)

/-! ### Scratch -/

theorem kept_stall {t e cause n} (h : Kept s₀ s) : Kept s₀ (s.stall t e cause n) := kept_ite h (kept_setEntry h)

theorem kept_geyserStall {cause n} (h : Kept s₀ s) : Kept s₀ (s.geyserStall cause n) := kept_setEntry h

theorem kept_settleWait {t} (h : Kept s₀ s) : Kept s₀ (s.settleWait t) := kept_ite h (kept_updTile (kept_stall h))

theorem kept_startWait {t cause} (h : Kept s₀ s) : Kept s₀ (s.startWait t cause) := kept_updTile (kept_settleWait h)

theorem kept_endWait {t} (h : Kept s₀ s) : Kept s₀ (s.endWait t) := kept_updTile (kept_settleWait h)

theorem kept_countReplay {j} (h : Kept s₀ s) : Kept s₀ (s.countReplay j) := kept_ite (kept_updJob (kept_foldl (fun _ _ h1 => kept_stall h1) h)) h

theorem kept_settleJob {j} (h : Kept s₀ s) : Kept s₀ (s.settleJob j) := kept_countReplay (kept_foldl (fun _ _ h1 => kept_settleWait h1) h)

theorem kept_wakeTile {t} (h : Kept s₀ s) : Kept s₀ (s.wakeTile t) := kept_ite (kept_setEntry (kept_updTile (kept_ite h (kept_bump h)))) h

theorem kept_setRow {t r d} (h : Kept s₀ s) : Kept s₀ (s.setRow t r d) := kept_updTile h

theorem kept_setTag {t r g} (h : Kept s₀ s) : Kept s₀ (s.setTag t r g) := kept_updTile h

theorem kept_poisonRows {t first count} (h : Kept s₀ s) : Kept s₀ (s.poisonRows t first count) := kept_foldl (fun _ _ h1 => kept_setTag h1) h

theorem kept_completeRow {t r} (h : Kept s₀ s) : Kept s₀ (s.completeRow t r) := kept_ite (kept_updTile h) (kept_setTag h)

theorem kept_noteRowError {t r w} (h : Kept s₀ s) : Kept s₀ (s.noteRowError t r w) := kept_setEntry (kept_setEntry h)

theorem kept_correctedRow {t r w} (h : Kept s₀ s) : Kept s₀ (s.correctedRow t r w) := kept_updTile (kept_bump (kept_bump (kept_noteRowError h)))

theorem kept_uncorrectableRow {t r w} (h : Kept s₀ s) : Kept s₀ (s.uncorrectableRow t r w) :=
  kept_setTag (kept_bump (kept_bump (kept_noteRowError h)))

theorem kept_rowEcc {t r x4} (h : Kept s₀ s) : Kept s₀ (s.rowEcc t r x4) := by
  unfold State.rowEcc
  split
  · exact h
  · exact kept_correctedRow h
  · exact kept_uncorrectableRow h
  · exact kept_bump h

theorem kept_ownRowEcc {t r ecc} (h : Kept s₀ s) : Kept s₀ (s.ownRowEcc t r ecc) := by
  unfold State.ownRowEcc
  dsimp only
  split
  · exact kept_updTile (kept_rowEcc h)
  · exact kept_rowEcc h

theorem kept_cancelWriteBack {t r covers} (h : Kept s₀ s) : Kept s₀ (s.cancelWriteBack t r covers) := kept_updTile h

theorem kept_writeRow {t r d} (h : Kept s₀ s) : Kept s₀ (s.writeRow t r d) := kept_cancelWriteBack (kept_setRow h)

theorem kept_windowPutRow {t x d r} (h : Kept s₀ s) : Kept s₀ (s.windowPutRow t x d r) :=
  kept_ite (kept_completeRow (kept_updTile (kept_cancelWriteBack (kept_setRow h)))) (kept_updTile (kept_cancelWriteBack (kept_setRow h)))

theorem kept_windowPut {t x d} (h : Kept s₀ s) : Kept s₀ (s.windowPut t x d) := by
  unfold State.windowPut
  exact kept_foldl (fun _ _ h1 => kept_windowPutRow h1) h

theorem kept_putCoefficient {t c v} (h : Kept s₀ s) : Kept s₀ (s.putCoefficient t c v) := kept_cancelWriteBack (kept_setRow h)

theorem kept_noteNarrow {code g} (h : Kept s₀ s) : Kept s₀ (s.noteNarrow code g) := kept_setEntry (kept_setEntry h)

theorem kept_narrowReadOp {ecc} (h : Kept s₀ s) : Kept s₀ (s.narrowReadOp ecc).2.2 := by
  unfold State.narrowReadOp
  split
  · exact h
  · exact kept_noteNarrow (kept_rowEcc (kept_wakeTile h))

theorem kept_narrowWriteOp {v ecc} (h : Kept s₀ s) : Kept s₀ (s.narrowWriteOp v ecc).2 := by
  unfold State.narrowWriteOp
  split
  · exact h
  · exact kept_noteNarrow (kept_ite (kept_putCoefficient (kept_rowEcc (kept_wakeTile h))) (kept_rowEcc (kept_wakeTile h)))

theorem kept_rowTagClearOp {v} (h : Kept s₀ s) : Kept s₀ (s.rowTagClearOp v).2 :=
  kept_ite_2 h (kept_ite_2 h (kept_ite_2 h (kept_ite_2 h (kept_foldl (fun _ _ h1 => kept_ite (kept_setTag h1) h1) h))))

theorem kept_setBanks {t banks} (h : Kept s₀ s) : Kept s₀ (s.setBanks t banks) := kept_updTile h

/-! ### Abort -/

theorem kept_addTick {k} (h : Kept s₀ s) : Kept s₀ (s.addTick k) := kept_ite (kept_bump h) h

theorem kept_faultTick {j} (h : Kept s₀ s) : Kept s₀ (s.faultTick j) := kept_ite (kept_addTick h) h

theorem kept_abortJob {j code tile bundle} (h : Kept s₀ s) : Kept s₀ (s.abortJob j code tile bundle) :=
  kept_ite (kept_faultTick (kept_updJob (kept_settleJob h))) (kept_ite (kept_ite (kept_setJob (kept_bump h)) (kept_bump h)) h)

theorem kept_faultTile {t r} (h : Kept s₀ s) : Kept s₀ (s.faultTile t r) := by
  unfold State.faultTile
  split
  · exact h
  · exact kept_abortJob (kept_updTile h)

theorem kept_faultLop {t code op target kind} (h : Kept s₀ s) : Kept s₀ (s.faultLop t code op target kind) := kept_faultTile h

theorem kept_noteLedgerError {j code handle} (h : Kept s₀ s) : Kept s₀ (s.noteLedgerError j code handle) :=
  kept_ite h (kept_ite (kept_bump (kept_setEntry (kept_setEntry h))) (kept_ite (kept_bump (kept_setEntry (kept_setEntry h))) (kept_setEntry
    (kept_setEntry h))))

/-! ### Steps -/

theorem kept_noteMargin {j limit noise} (h : Kept s₀ s) : Kept s₀ (s.noteMargin j limit noise) := kept_ite (kept_setEntry h) h

theorem kept_consumeAsh {j hin hout} (h : Kept s₀ s) : Kept s₀ (s.consumeAsh j hin hout) :=
  kept_ite (kept_ite (kept_bump h) (kept_raise (kept_updJob (kept_bump h)))) (kept_updJob h)

theorem kept_acceptStep {j hout limit consumed} {x : Handle} (h : Kept s₀ s) : Kept s₀ (s.acceptStep j hout x limit consumed) := by
  have hNoted : Kept s₀ ((s.updJob j fun y => { y with handles := y.handles.set hout x }).noteMargin j limit x.noise) := kept_noteMargin (kept_updJob h)
  have hAsh := kept_ite (c := x.ash = true) (kept_bump (index := 0x2300) (sub := 1) (n := 1) (kept_bump (index := 0x2200 + j) (sub := 4) (n := 1) hNoted)) hNoted
  unfold State.acceptStep
  cases consumed with
  | some k => exact kept_consumeAsh hAsh
  | none => exact hAsh

theorem kept_ledgerStep {t j op x} (h : Kept s₀ s) : Kept s₀ (s.ledgerStep t j op x) := by
  unfold State.ledgerStep
  split
  · exact kept_faultLop (kept_noteLedgerError h)
  · exact kept_acceptStep h

/-! ### Engines -/

theorem kept_readGroup {t id consumed rows} (h : Kept s₀ s) : Kept s₀ (s.readGroup t id consumed rows) :=
  kept_ite (kept_foldl (fun _ _ h1 => kept_setTag h1) (kept_updTile h)) (kept_updTile h)

theorem kept_readGroups {t o l} (h : Kept s₀ s) : Kept s₀ (s.readGroups t o l) := by
  induction l generalizing s with
  | nil => exact h
  | cons g gs ih => exact kept_ite (ih (kept_readGroup h)) h

theorem kept_readSources {t j o} (h : Kept s₀ s) : Kept s₀ (s.readSources t j o) := by
  unfold State.readSources
  dsimp only
  split
  · exact kept_readGroups h
  · exact kept_updTile (kept_readGroups h)

theorem kept_readEngines {t} (h : Kept s₀ s) : Kept s₀ (s.readEngines t) := by
  unfold State.readEngines
  split
  · exact h
  · exact kept_ite (kept_foldl (fun _ _ h1 => kept_readSources h1) h) h

/-! ### Bundle -/

theorem kept_slot {t slot w} (h : Kept s₀ s) : Kept s₀ (s.slot t slot w) := kept_ite (kept_updTile h) h

theorem kept_applyDeferred {t x3} (h : Kept s₀ s) : Kept s₀ (s.applyDeferred t x3) := by
  unfold State.applyDeferred
  split
  · exact kept_updTile h
  · exact kept_updTile h
  · exact kept_updTile h
  · exact kept_updTile h
  · exact kept_setTag h
  · exact kept_updTile h
  · exact kept_putCoefficient h
  · exact kept_ownRowEcc h
  · exact kept_rowEcc h
  · exact kept_faultTile (kept_uncorrectableRow h)

theorem kept_advance {t} (h : Kept s₀ s) : Kept s₀ (s.advance t) := kept_updTile h

theorem kept_guaranteeMiss {t row} (h : Kept s₀ s) : Kept s₀ (s.guaranteeMiss t row) := by
  unfold State.guaranteeMiss
  split
  · exact h
  · exact kept_ite (kept_bump (kept_ite (kept_setEntry h) h)) (kept_raise (kept_updTile (kept_bump (kept_ite (kept_setEntry h) h))))

theorem kept_holdCycle {t cause rows} (h : Kept s₀ s) : Kept s₀ (s.holdCycle t cause rows) := kept_updTile (kept_stall h)

theorem kept_reportMisses {t still} (h : Kept s₀ s) : Kept s₀ (s.reportMisses t still) :=
  kept_updTile (kept_foldl (fun _ _ h1 => kept_guaranteeMiss h1) h)

theorem kept_failBundle {t f} (h : Kept s₀ s) : Kept s₀ (s.failBundle t f) := kept_faultTile (kept_poisonRows (kept_updTile h))

theorem kept_closeBundle {t c act} (h : Kept s₀ s) (hf : ∀ t, Kept s₀ t → Kept s₀ (act t)) : Kept s₀ (s.closeBundle t c act) :=
  kept_ite h (kept_ite (kept_updTile h) (kept_ite (kept_holdCycle (kept_updTile h)) (by
    split
    · exact kept_failBundle (kept_reportMisses h)
    · exact kept_holdCycle (kept_reportMisses h)
    · exact kept_failBundle (kept_reportMisses h)
    · exact kept_advance (kept_foldl (fun _ _ h1 => kept_applyDeferred h1) (hf _ (kept_reportMisses h))))))

/-! ### Convert -/

theorem kept_countConversion {job c} (h : Kept s₀ s) : Kept s₀ (s.countConversion job c) := by
  unfold State.countConversion
  dsimp only
  split
  · exact kept_bump (kept_bump (by
      split
      · exact kept_bump (kept_bump (by
          split
          · exact kept_bump (kept_bump (by
              split
              · exact kept_bump (kept_bump (by
                  split
                  · exact kept_bump (kept_bump h)
                  · exact kept_bump h))
              · exact kept_bump (by
                  split
                  · exact kept_bump (kept_bump h)
                  · exact kept_bump h)))
          · exact kept_bump (by
              split
              · exact kept_bump (kept_bump (by
                  split
                  · exact kept_bump (kept_bump h)
                  · exact kept_bump h))
              · exact kept_bump (by
                  split
                  · exact kept_bump (kept_bump h)
                  · exact kept_bump h))))
      · exact kept_bump (by
          split
          · exact kept_bump (kept_bump (by
              split
              · exact kept_bump (kept_bump (by
                  split
                  · exact kept_bump (kept_bump h)
                  · exact kept_bump h))
              · exact kept_bump (by
                  split
                  · exact kept_bump (kept_bump h)
                  · exact kept_bump h)))
          · exact kept_bump (by
              split
              · exact kept_bump (kept_bump (by
                  split
                  · exact kept_bump (kept_bump h)
                  · exact kept_bump h))
              · exact kept_bump (by
                  split
                  · exact kept_bump (kept_bump h)
                  · exact kept_bump h)))))
  · exact kept_bump (by
      split
      · exact kept_bump (kept_bump (by
          split
          · exact kept_bump (kept_bump (by
              split
              · exact kept_bump (kept_bump (by
                  split
                  · exact kept_bump (kept_bump h)
                  · exact kept_bump h))
              · exact kept_bump (by
                  split
                  · exact kept_bump (kept_bump h)
                  · exact kept_bump h)))
          · exact kept_bump (by
              split
              · exact kept_bump (kept_bump (by
                  split
                  · exact kept_bump (kept_bump h)
                  · exact kept_bump h))
              · exact kept_bump (by
                  split
                  · exact kept_bump (kept_bump h)
                  · exact kept_bump h))))
      · exact kept_bump (by
          split
          · exact kept_bump (kept_bump (by
              split
              · exact kept_bump (kept_bump (by
                  split
                  · exact kept_bump (kept_bump h)
                  · exact kept_bump h))
              · exact kept_bump (by
                  split
                  · exact kept_bump (kept_bump h)
                  · exact kept_bump h)))
          · exact kept_bump (by
              split
              · exact kept_bump (kept_bump (by
                  split
                  · exact kept_bump (kept_bump h)
                  · exact kept_bump h))
              · exact kept_bump (by
                  split
                  · exact kept_bump (kept_bump h)
                  · exact kept_bump h))))

/-! ### Fabric -/

theorem kept_closePort {p state} (h : Kept s₀ s) : Kept s₀ (s.closePort p state) := kept_updPort (kept_setEntry (kept_setEntry (kept_setEntry h)))

theorem kept_linkDown {p cause} (h : Kept s₀ s) : Kept s₀ (s.linkDown p cause) := kept_raise (kept_updPort (kept_bump (kept_closePort h)))

theorem kept_startTraining {p} (h : Kept s₀ s) : Kept s₀ (s.startTraining p) := kept_updPort (kept_closePort h)

theorem kept_applyPortEnable {v} (h : Kept s₀ s) : Kept s₀ (s.applyPortEnable v) :=
  kept_foldl (fun _ _ h1 => kept_ite (kept_ite (kept_startTraining h1) h1) (kept_ite h1 (kept_closePort h1))) h

theorem kept_sendFrame {p f} (h : Kept s₀ s) : Kept s₀ (s.sendFrame p f) := kept_emit (kept_setPort h)

theorem kept_forward {f} (h : Kept s₀ s) : Kept s₀ (s.forward f) :=
  kept_ite (kept_bump h) (by
    split
    · exact kept_sendFrame h
    · exact kept_bump h)

theorem kept_complete {f status operand data} (h : Kept s₀ s) : Kept s₀ (s.complete f status operand data) := by
  unfold State.complete
  dsimp only
  split
  · exact kept_sendFrame h
  · exact kept_bump h

theorem kept_emitHost {r i} (h : Kept s₀ s) : Kept s₀ (s.emitHost r i) := kept_emit h

theorem kept_takeHostTag {r i} (h : Kept s₀ s) : Kept s₀ (s.takeHostTag r i) := kept_ite (kept_emitHost h) (kept_bump h)

theorem kept_postHost {r i} (h : Kept s₀ s) : Kept s₀ (s.postHost r i) := kept_emitHost h

theorem kept_sendHost {r} (h : Kept s₀ s) : Kept s₀ (s.sendHost r) := kept_foldl (fun _ _ h1 => kept_ite (kept_postHost h1) (kept_takeHostTag h1)) h

theorem kept_advanceTriple {f} (h : Kept s₀ s) : Kept s₀ (s.advanceTriple f) := h

theorem kept_decideOp {f status operand data} (h : Kept s₀ s) : Kept s₀ (s.decideOp f status operand data) :=
  kept_complete (kept_advanceTriple (kept_ite (kept_bump h) h))

theorem kept_settleLanded {t} (h : Kept s₀ s) : Kept s₀ (s.settleLanded t) := kept_foldl (fun _ _ h1 => kept_decideOp h1) (kept_updTile h)

theorem kept_failLanded {t row} (h : Kept s₀ s) : Kept s₀ (s.failLanded t row) := kept_foldl (fun _ _ h1 => kept_decideOp h1) (kept_updTile h)

theorem kept_countFail {host code} (h : Kept s₀ s) : Kept s₀ (s.countFail host code) :=
  kept_ite (kept_ite (kept_bump h) (kept_bump h)) (kept_ite (kept_bump h) (kept_ite (kept_bump h) (kept_ite (kept_bump h) h)))

theorem kept_launchOp {r} (h : Kept s₀ s) : Kept s₀ (s.launchOp r) := by
  unfold State.launchOp
  split
  · exact h
  · exact kept_sendFrame (kept_bump h)

theorem kept_issueOp {node vl opcode address length operand data issuer job opId} (h : Kept s₀ s) : Kept s₀ (s.issueOp node vl opcode address length
  operand data issuer job opId) :=
  kept_ite (kept_sendHost (kept_bump h)) (by
    split
    · exact h
    · exact kept_ite h (kept_launchOp h))

theorem kept_releaseWaits {node vl} (h : Kept s₀ s) : Kept s₀ (s.releaseWaits node vl) := by
  unfold State.releaseWaits
  exact kept_foldl (fun _ _ h1 => kept_ite h1 (kept_launchOp (kept_with_remoteOps h1))) h

theorem kept_sendCopies {f fromPort status} (h : Kept s₀ s) : Kept s₀ (s.sendCopies f fromPort status) :=
  kept_with_mcastWaits (kept_foldl (fun _ _ h1 => kept_sendFrame h1) h)

theorem kept_mcastSend {group address data job slot} (h : Kept s₀ s) : Kept s₀ (s.mcastSend group address data job slot) :=
  kept_sendCopies (kept_bump h)

theorem kept_dropOp {tag} (h : Kept s₀ s) : Kept s₀ (s.dropOp tag) := h

theorem kept_orphanOps {lost} (h : Kept s₀ s) : Kept s₀ (s.orphanOps lost) := h

/-! ### Transfer -/

theorem kept_putPlace {p b} (h : Kept s₀ s) : Kept s₀ (s.putPlace p b) := by
  unfold State.putPlace
  split
  · exact kept_memWrite h
  · exact kept_cancelWriteBack (kept_setRow h)
  · exact h

theorem kept_writeBits {rel group bitAddr w v} (h : Kept s₀ s) : Kept s₀ (s.writeBits rel group bitAddr w v) :=
  kept_foldl (fun _ _ h1 => kept_putPlace h1) h

theorem kept_scatter {x group l} (h : Kept s₀ s) : Kept s₀ (s.scatter x group l) := kept_foldl (fun _ _ h1 => kept_writeBits h1) h

/-! ### Checks -/

theorem kept_putCheck {n state poly running length owner} (h : Kept s₀ s) : Kept s₀ (s.putCheck n state poly running length owner) :=
  kept_setEntry (kept_setEntry (kept_setEntry (kept_setEntry (kept_setEntry h))))

theorem kept_bindCheck {n poly owner} (h : Kept s₀ s) : Kept s₀ (s.bindCheck n poly owner) := kept_putCheck h

theorem kept_foldCheck {n running length} (h : Kept s₀ s) : Kept s₀ (s.foldCheck n running length) := kept_setEntry (kept_setEntry h)

theorem kept_endCheck {n} (h : Kept s₀ s) : Kept s₀ (s.endCheck n) := kept_ite (kept_setEntry (kept_setEntry h)) h

theorem kept_endChecks {j} (h : Kept s₀ s) : Kept s₀ (s.endChecks j) := kept_foldl (fun _ _ h1 => kept_endCheck h1) h

theorem kept_foldBody {n b} (h : Kept s₀ s) : Kept s₀ (s.foldBody n b) := kept_foldCheck h

theorem kept_savedCheck {n running length} (h : Kept s₀ s) : Kept s₀ (s.savedCheck n running length) := kept_putCheck h

/-! ### Lops -/

theorem kept_issueLop {t index sa code act} (h : Kept s₀ s) (hf : ∀ x0, ∀ x1, ∀ x2, ∀ t, Kept s₀ t → Kept s₀ (act x0 x1 x2 t)) : Kept s₀ (s.issueLop t
  index sa code act) := by
  unfold State.issueLop
  split
  · exact h
  · split
    · exact h
    · split
      · exact h
      · exact kept_ite h (kept_closeBundle h (fun _ h1 => hf _ _ _ _ h1))

theorem kept_enqueueLop {t o} (h : Kept s₀ s) : Kept s₀ (s.enqueueLop t o) := kept_updTile h

theorem kept_passStep {j ordinal level comps} (h : Kept s₀ s) : Kept s₀ (s.passStep j ordinal level comps) := kept_updJob h

theorem kept_enqueueGroup {t j o step hin after} (h : Kept s₀ s) (hf : ∀ t, Kept s₀ t → Kept s₀ (after t)) : Kept s₀ (s.enqueueGroup t j o step hin
  after) :=
  kept_ite (kept_ite (hf _ (kept_enqueueLop (kept_passStep (by
    split
    · exact kept_ledgerStep h
    · exact h)))) (by
    split
    · exact kept_ledgerStep h
    · exact h)) (kept_enqueueLop h)

theorem kept_startLop {t j o} (h : Kept s₀ s) : Kept s₀ (s.startLop t j o) := kept_updTile h

theorem kept_noteMiss {t o next} (h : Kept s₀ s) : Kept s₀ (s.noteMiss t o next) :=
  kept_ite h (kept_updTile (by
    split
    · exact kept_guaranteeMiss h
    · exact h))

theorem kept_waitCycle {t im o row} (h : Kept s₀ s) : Kept s₀ (s.waitCycle t im o row) := kept_noteMiss (kept_foldl (fun _ _ h1 => kept_stall h1) h)

theorem kept_poisonUnfinished {t o} (h : Kept s₀ s) : Kept s₀ (s.poisonUnfinished t o) := kept_poisonRows h

theorem kept_failLop {t code o target kind} (h : Kept s₀ s) : Kept s₀ (s.failLop t code o target kind) := kept_faultLop (kept_poisonUnfinished h)

theorem kept_waitRow {t im o row} (h : Kept s₀ s) : Kept s₀ (s.waitRow t im o row) := kept_ite (kept_failLop (kept_noteMiss h)) (kept_waitCycle h)

/-! ### KeyStream -/

theorem kept_holdRate {k} (h : Kept s₀ s) : Kept s₀ (s.holdRate k) := kept_ite h (kept_setStream (kept_bump h))

theorem kept_readWire {k n bytes} (h : Kept s₀ s) : Kept s₀ (s.readWire k n bytes) := by
  unfold State.readWire
  dsimp only
  split
  · exact kept_ite (kept_holdRate (kept_setStream (kept_foldCheck (kept_bump (kept_bump h))))) (kept_setStream (kept_foldCheck (kept_bump (kept_bump
    h))))
  · exact kept_setStream (kept_foldCheck (kept_bump (kept_bump h)))

theorem kept_poisonDestination {j e} (h : Kept s₀ s) : Kept s₀ (s.poisonDestination j e) := kept_foldl (fun _ _ h1 => kept_poisonRows h1) h

theorem kept_poisonGroupOp {j ordinal} (h : Kept s₀ s) : Kept s₀ (s.poisonGroupOp j ordinal) :=
  kept_foldl (fun _ _ h1 => kept_foldl (fun _ _ h2 => kept_poisonRows h2) h1) h

theorem kept_poisonConsumers {j entry} (h : Kept s₀ s) : Kept s₀ (s.poisonConsumers j entry) := kept_foldl (fun _ _ h1 => kept_poisonGroupOp h1) h

theorem kept_keyOutcome {j entry error} (h : Kept s₀ s) : Kept s₀ (s.keyOutcome j entry error) := by
  unfold State.keyOutcome
  dsimp only
  split
  · split
    · exact kept_bump (kept_setEntry (kept_setEntry h))
    · exact kept_setEntry (kept_setEntry h)
  · exact kept_abortJob (kept_ite (kept_poisonConsumers (kept_poisonDestination (by
      split
      · exact kept_bump (kept_setEntry (kept_setEntry h))
      · exact kept_setEntry (kept_setEntry h)))) (kept_poisonDestination (by
      split
      · exact kept_bump (kept_setEntry (kept_setEntry h))
      · exact kept_setEntry (kept_setEntry h))))

theorem kept_dropCredits {x} (h : Kept s₀ s) : Kept s₀ (s.dropCredits x) := by
  unfold State.dropCredits
  split
  · exact kept_ite h h
  · exact h

theorem kept_streamFail {k error} (h : Kept s₀ s) : Kept s₀ (s.streamFail k error) :=
  kept_keyOutcome (kept_dropCredits (kept_setStream (kept_ite (kept_endCheck h) h)))

theorem kept_releaseStream {k state} (h : Kept s₀ s) : Kept s₀ (s.releaseStream k state) := kept_endCheck (kept_updStream h)

theorem kept_cancelStreams {j normal} (h : Kept s₀ s) : Kept s₀ (s.cancelStreams j normal) :=
  kept_foldl (fun _ _ h1 => kept_ite h1 (kept_ite (kept_releaseStream h1) (kept_releaseStream (kept_dropCredits (kept_bump (by
    split
    · exact kept_ite h1 (kept_poisonDestination h1)
    · exact h1)))))) h

theorem kept_feed {t entry e fuel} (h : Kept s₀ s) : Kept s₀ (s.feed t entry e fuel) := by
  induction fuel generalizing s with
  | zero => exact h
  | succ fuel ih =>
    unfold State.feed
    split
    · exact h
    · exact kept_ite h (ih (kept_ite (kept_updTile h) (kept_setTag (kept_updTile h))))

theorem kept_feedTile {t} (h : Kept s₀ s) : Kept s₀ (s.feedTile t) := by
  unfold State.feedTile
  dsimp only
  split
  · exact kept_readEngines h
  · exact kept_foldl (fun _ _ h1 => kept_feed h1) (kept_readEngines h)

/-! ### Geyser -/

theorem kept_yieldSlot {k} (h : Kept s₀ s) : Kept s₀ (s.yieldSlot k) := h

theorem kept_meter {k e} (h : Kept s₀ s) : Kept s₀ (s.meter k e).2 := kept_ite_2 h (kept_holdRate h)

theorem kept_readAhead {k} (h : Kept s₀ s) : Kept s₀ (s.readAhead k) := by
  unfold State.readAhead
  dsimp only
  split
  · exact h
  · exact kept_ite h (kept_ite (kept_meter h) (kept_ite (kept_streamFail (kept_countFail h)) (kept_foldl (fun _ _ h1 => kept_issueOp h1)
    (kept_setStream h))))

theorem kept_geyserWait (h : Kept s₀ s) : Kept s₀ s.geyserWait := kept_ite (kept_geyserStall h) h

theorem kept_creditMcast {address source} (h : Kept s₀ s) : Kept s₀ (s.creditMcast address source) := by
  unfold State.creditMcast
  split
  · exact h
  · exact h

theorem kept_memberSignal {k e} (h : Kept s₀ s) : Kept s₀ (s.memberSignal k e) :=
  kept_ite (kept_creditMcast (kept_addCounter (kept_setStream h))) (kept_ite (kept_countFail (kept_setStream h)) (kept_issueOp (kept_setStream h)))

theorem kept_sendSignals {k} (h : Kept s₀ s) : Kept s₀ (s.sendSignals k) := by
  unfold State.sendSignals
  dsimp only
  split
  · exact h
  · exact kept_ite h (kept_foldl (fun _ _ h1 => kept_memberSignal h1) h)

theorem kept_useCredits {e} (h : Kept s₀ s) : Kept s₀ (s.useCredits e) := h

theorem kept_bindStream {k j entry im e out} (h : Kept s₀ s) : Kept s₀ (s.bindStream k j entry im e out) :=
  kept_ite (kept_readAhead (kept_sendSignals (kept_bump (kept_bump (kept_bindCheck (kept_setStream (kept_yieldSlot h))))))) (kept_streamFail
    (kept_bump (kept_bump (kept_bindCheck (kept_setStream (kept_yieldSlot h))))))

theorem kept_openStream {t j im o} (h : Kept s₀ s) : Kept s₀ (s.openStream t j im o) := by
  unfold State.openStream
  dsimp only
  split
  · exact h
  · exact kept_ite (kept_updTile (kept_updJob h)) (by
      split
      · exact kept_bindStream (kept_updJob (kept_updTile (kept_updJob h)))
      · exact kept_with_openWaits (kept_updTile (kept_updJob (kept_updTile (kept_updJob h)))))

theorem kept_slotBind (h : Kept s₀ s) : Kept s₀ s.slotBind := by
  unfold State.slotBind
  split
  · split
    · exact h
    · split
      · exact h
      · exact kept_bindStream (kept_updTile h)
  · exact h

theorem kept_nextWindows {m k} (h : Kept s₀ s) : Kept s₀ (s.nextWindows m k) := by
  unfold State.nextWindows
  dsimp only
  split
  · exact h
  · exact kept_readAhead (kept_setStream (kept_ite (kept_bump h) h))

theorem kept_checkHeader {k granule} (h : Kept s₀ s) : Kept s₀ (s.checkHeader k granule) := by
  unfold State.checkHeader
  dsimp only
  split
  · exact h
  · exact kept_ite h (kept_ite (kept_geyserWait h) (kept_ite (kept_streamFail h) (by
      split
      · exact kept_streamFail (kept_updStream (kept_readWire h))
      · exact kept_readAhead (kept_updJob (kept_updStream (kept_updStream (kept_readWire h)))))))

theorem kept_writeStored {k data} (h : Kept s₀ s) : Kept s₀ (s.writeStored k data) := by
  unfold State.writeStored
  dsimp only
  split
  · split
    · exact kept_ite h (kept_ite (kept_geyserWait h) (kept_ite (kept_meter h) (kept_ite (kept_streamFail h) (kept_ite (kept_updStream
      (kept_geyserStall h)) (kept_readAhead (kept_sendSignals (kept_foldl (fun _ _ h1 => kept_completeRow (kept_writeRow (kept_wakeTile h1)))
      (kept_updStream (kept_ite (kept_readWire h) (kept_bump (kept_readWire h)))))))))))
    · exact h
  · exact h

theorem kept_writeUniformOf {x t} (h : Kept s₀ s) : Kept s₀ (s.writeUniformOf x t).2 := by
  unfold State.writeUniformOf
  split
  · split
    · exact kept_ite_2 h (kept_ite_2 (kept_stall h) (kept_foldl (fun _ _ h1 => kept_completeRow (kept_writeRow (kept_wakeTile h1))) (kept_bump h)))
    · exact h
  · exact h

theorem kept_writeUniform {k t} (h : Kept s₀ s) : Kept s₀ (s.writeUniform k t) := by
  unfold State.writeUniform
  dsimp only
  split
  · exact kept_with_lateStreams (kept_writeUniformOf h)
  · exact kept_setStream (kept_writeUniformOf h)

theorem kept_checkTrailer {k trailer} (h : Kept s₀ s) : Kept s₀ (s.checkTrailer k trailer) := by
  unfold State.checkTrailer
  dsimp only
  split
  · exact h
  · exact kept_ite h (kept_ite (kept_streamFail h) (kept_ite (kept_releaseStream (kept_ite (kept_useCredits (kept_updJob (kept_updStream (kept_bump
    (kept_bump h))))) (kept_sendSignals (kept_updJob (kept_updStream (kept_bump (kept_bump h))))))) (kept_streamFail (kept_updStream (kept_bump
    (kept_bump h))))))

theorem kept_sendWindow {k} (h : Kept s₀ s) : Kept s₀ (s.sendWindow k) := by
  unfold State.sendWindow
  dsimp only
  split
  · exact h
  · exact kept_ite h (kept_ite (kept_meter h) (kept_ite (kept_streamFail h) (kept_foldl (fun _ _ h1 => kept_mcastSend h1) (kept_updStream
    (kept_readWire h)))))

theorem kept_mcastTimeout {k kind} (h : Kept s₀ s) : Kept s₀ (s.mcastTimeout k kind) := by
  unfold State.mcastTimeout
  dsimp only
  split
  · exact h
  · exact kept_ite (kept_streamFail h) h

theorem kept_residentFail {j entry} (h : Kept s₀ s) : Kept s₀ (s.residentFail j entry) := by
  unfold State.residentFail
  split
  · exact kept_streamFail h
  · exact kept_keyOutcome h

theorem kept_residentCheck {j im o} (h : Kept s₀ s) : Kept s₀ (s.residentCheck j im o) :=
  kept_foldl (fun _ _ h1 => by
    split
    · exact kept_ite h1 (kept_ite h1 (kept_residentFail h1))
    · exact h1) h

/-! ### LongRun -/

theorem kept_writeEngineRows {t first rows} (h : Kept s₀ s) : Kept s₀ (s.writeEngineRows t first rows) := by
  unfold State.writeEngineRows
  exact kept_foldl (fun _ _ h1 => kept_completeRow (kept_writeRow h1)) h

theorem kept_countBatch {t j o} (h : Kept s₀ s) : Kept s₀ (s.countBatch t j o) :=
  kept_ite (kept_updJob h) (kept_setEntry (kept_setEntry (kept_setEntry (kept_bump (kept_bump (kept_updJob h))))))

theorem kept_countLop {t j x o} (h : Kept s₀ s) : Kept s₀ (s.countLop t j x o) :=
  kept_ite (kept_countBatch (kept_bump (kept_bump h))) (kept_ite (kept_bump (kept_bump h)) (kept_ite (kept_ite (kept_bump (kept_bump h)) h) (kept_ite
    (kept_ite (kept_bump h) h) h)))

theorem kept_sourceEcc {t rows ecc} (h : Kept s₀ s) : Kept s₀ (s.sourceEcc t rows ecc).1 := by
  unfold State.sourceEcc
  split
  · exact h
  · exact kept_rowEcc h
  · exact by
      split
      · exact kept_ownRowEcc h
      · exact h
  · split
    · exact kept_ownRowEcc h
    · exact h

theorem kept_failOperand {t j o} (h : Kept s₀ s) : Kept s₀ (s.failOperand t j o) := kept_failLop (kept_poisonGroupOp (kept_ite (kept_bump h) h))

theorem kept_finishEngine {t j im o ecc} (h : Kept s₀ s) : Kept s₀ (s.finishEngine t j im o ecc) := by
  unfold State.finishEngine
  split
  · exact h
  · split
    · exact kept_waitRow h
    · exact kept_ite (kept_failOperand h) (by
        split
        · exact kept_waitRow h
        · exact kept_ite (kept_noteMiss h) (kept_ite (kept_stall (kept_noteMiss h)) (kept_ite (kept_noteMiss h) (kept_ite (kept_failLop
          (kept_sourceEcc (kept_noteMiss h))) (kept_feedTile (kept_updJob (kept_updTile (kept_countLop (kept_writeEngineRows (kept_sourceEcc
          (kept_noteMiss h)))))))))))

theorem kept_placeEcc {t p ecc} (h : Kept s₀ s) : Kept s₀ (s.placeEcc t p ecc) := by
  unfold State.placeEcc
  dsimp only
  split
  · exact kept_applyEcc h
  · exact kept_ite (kept_ownRowEcc h) (kept_rowEcc h)
  · exact h

theorem kept_fetchWait {t id row} (h : Kept s₀ s) : Kept s₀ (s.fetchWait t id row) := kept_updTile (kept_stall h)

theorem kept_bindVerify {t j o copy} (h : Kept s₀ s) : Kept s₀ (s.bindVerify t j o copy) := by
  unfold State.bindVerify
  split
  · exact kept_ite (kept_updTile (kept_foldBody (kept_bindCheck h))) h
  · exact h

theorem kept_takeCopy {t j im x o data} (h : Kept s₀ s) : Kept s₀ (s.takeCopy t j im x o data) := by
  unfold State.takeCopy
  refine kept_ite h ?_
  dsimp only
  split
  · exact kept_ite (kept_countConversion (kept_bindVerify (kept_updTile h))) (kept_bindVerify (kept_updTile h))
  · exact kept_bindVerify (kept_updTile h)

theorem kept_landRow {t j im x id row data} (h : Kept s₀ s) : Kept s₀ (s.landRow t j im x id row data) := by
  unfold State.landRow
  split
  · exact h
  · exact kept_feedTile (kept_updTile (kept_ite (kept_setTag (kept_writeRow h)) (kept_completeRow (kept_writeRow h))))

theorem kept_fetchRow {t opId data ecc} (h : Kept s₀ s) : Kept s₀ (s.fetchRow t opId data ecc) := by
  unfold State.fetchRow
  split
  · split
    · exact h
    · refine kept_ite h (kept_ite h (kept_ite (kept_fetchWait h) (kept_ite (kept_ite (kept_stall h) h) (kept_ite (kept_stall h) ?_))))
      split
      · exact kept_fetchWait h
      · cases ecc with
        | uncorrectable w => exact kept_failLop (kept_placeEcc h)
        | corrected w => exact kept_ite (kept_failLop (kept_placeEcc h)) (kept_placeEcc (kept_landRow (kept_takeCopy h)))
        | tagCopy => exact kept_ite (kept_failLop (kept_placeEcc h)) (kept_landRow (kept_takeCopy (kept_placeEcc h)))
        | clean => exact kept_ite (kept_failLop h) (kept_landRow (kept_takeCopy h))
  · exact h

theorem kept_countTransfer {t j x o dropped} (h : Kept s₀ s) : Kept s₀ (s.countTransfer t j x o dropped) :=
  kept_ite (kept_bump (kept_bump (kept_bump h))) (kept_bump (kept_bump h))

theorem kept_finishIn {t j im o} (h : Kept s₀ s) : Kept s₀ (s.finishIn t j im o) := kept_ite (kept_updTile (kept_countTransfer h)) h

theorem kept_verifyMatch {t opId} (h : Kept s₀ s) : Kept s₀ (s.verifyMatch t opId) := by
  unfold State.verifyMatch
  split
  · split
    · exact kept_ite h (kept_ite (kept_feedTile (kept_updTile (kept_foldl (fun _ _ h1 => kept_completeRow h1) (by
        split
        · exact kept_endCheck h
        · exact h)))) (kept_failLop (by
        split
        · exact kept_endCheck h
        · exact h)))
    · exact h
  · exact h

theorem kept_coverWindow {l} (h : Kept s₀ s) : Kept s₀ (s.coverWindow l) := by
  unfold State.coverWindow
  exact kept_foldl (fun _ _ h1 => kept_ite h1 (kept_ite (kept_feedTile (kept_completeRow (kept_updTile h1))) (kept_updTile h1))) h

theorem kept_writeOut {t j im x o} (h : Kept s₀ s) : Kept s₀ (s.writeOut t j im x o) :=
  kept_ite (kept_countConversion (kept_countTransfer (kept_coverWindow (kept_scatter h)))) (kept_countTransfer (kept_coverWindow (kept_scatter h)))

theorem kept_sendOut {t j im x o} (h : Kept s₀ s) : Kept s₀ (s.sendOut t j im x o) :=
  kept_ite (kept_failLop (kept_countFail h)) (kept_updTile (kept_foldl (fun _ _ h1 => kept_issueOp h1) (kept_ite (kept_countConversion
    (kept_countTransfer (kept_useFree h))) (kept_countTransfer (kept_useFree h)))))

theorem kept_finishOut {t j im o ecc} (h : Kept s₀ s) : Kept s₀ (s.finishOut t j im o ecc) := by
  have hEcc : Kept s₀ (s.sourceEcc t (s.sourceRows t j o) ecc).1 := kept_sourceEcc h
  unfold State.finishOut
  refine kept_ite (kept_ite h (kept_updTile h)) ?_
  generalize s.sourceEcc t (s.sourceRows t j o) ecc = e at hEcc
  split
  · exact kept_waitRow h
  · exact kept_failLop hEcc
  · refine kept_ite hEcc (kept_ite (kept_ite (kept_failLop hEcc) ?_) (kept_sendOut hEcc))
    split
    · exact kept_fetchWait hEcc
    · exact kept_updTile (kept_writeOut hEcc)

theorem kept_sendReads {t j im o} (h : Kept s₀ s) : Kept s₀ (s.sendReads t j im o) := by
  unfold State.sendReads
  split
  · exact h
  · exact kept_ite h (kept_ite (kept_failLop (kept_countFail h)) (kept_foldl (fun _ _ h1 => kept_foldl (fun _ _ h2 => kept_issueOp h2) h1) h))

theorem kept_finishSignal {t j o ecc} (h : Kept s₀ s) : Kept s₀ (s.finishSignal t j o ecc) :=
  kept_ite (kept_ite (kept_updTile (kept_addCounter (kept_ite (kept_placeEcc h) h))) (kept_failLop (kept_ite (kept_placeEcc h) h))) (kept_ite
    (kept_failLop (kept_countFail h)) (kept_updTile (kept_issueOp h)))

theorem kept_signalDone {t opId status} (h : Kept s₀ s) : Kept s₀ (s.signalDone t opId status) := by
  unfold State.signalDone
  exact kept_ite (kept_ite (kept_updTile (kept_foldl (fun _ _ h1 => kept_releaseWaits h1) h)) (kept_faultTile (kept_updTile (kept_foldl (fun _ _ h1 =>
    kept_releaseWaits h1) h)))) h

theorem kept_finishLop {t opId ecc} (h : Kept s₀ s) : Kept s₀ (s.finishLop t opId ecc) := by
  unfold State.finishLop
  split
  · split
    · exact h
    · exact kept_ite h (kept_ite (kept_finishIn h) (kept_ite (kept_finishOut h) (kept_ite (kept_finishSignal h) (kept_ite (kept_ite (kept_updTile h)
      h) (kept_ite h (kept_finishEngine h))))))
  · exact h

/-! ### Package -/

theorem kept_putPackage {slot a d} (h : Kept s₀ s) : Kept s₀ (s.putPackage slot a d) := h

theorem kept_growPackage {slot n} (h : Kept s₀ s) : Kept s₀ (s.growPackage slot n) := h

theorem kept_swapSlots (h : Kept s₀ s) : Kept s₀ s.swapSlots := kept_raise (kept_setEntry (kept_setEntry (kept_setEntry (kept_setEntry h))))

theorem kept_rejectPackage {reason} (h : Kept s₀ s) : Kept s₀ (s.rejectPackage reason) := kept_raise (kept_setEntry (kept_setEntry (kept_setEntry h)))

theorem kept_activatePending {types} (h : Kept s₀ s) : Kept s₀ (s.activatePending types) := by
  unfold State.activatePending
  dsimp only
  split
  · exact kept_swapSlots (kept_bump h)
  · exact kept_rejectPackage (kept_bump h)

theorem kept_commitSvnOp (h : Kept s₀ s) : Kept s₀ (s.commitSvnOp).2 := kept_ite_2 h (kept_raise (kept_setEntry h))

/-! ### Access -/

theorem kept_applyStackMode {v} (h : Kept s₀ s) : Kept s₀ (s.applyStackMode v) := by
  obtain ⟨hPending, hGrade, hEnabled, hForm⟩ := h
  have hMemory : Memory.wf s₀ = true → Memory.wf (s.applyStackMode v) = true := fun hw => Laws.memory_wf_applyStackMode v (hForm hw)
  by_cases hSame : v = s.entry 0x3010 1
  · rw [State.applyStackMode, if_pos hSame] at hMemory ⊢
    exact ⟨hPending, hGrade, hEnabled, hMemory⟩
  · rw [State.applyStackMode, if_neg hSame] at hMemory ⊢
    exact ⟨hPending, hGrade, hEnabled, hMemory⟩

theorem kept_wipePke (h : Kept s₀ s) : Kept s₀ s.wipePke := kept_setEntry (kept_with_pke (kept_ite (kept_setEntry h) h))

theorem kept_wipePkeOf {j} (h : Kept s₀ s) : Kept s₀ (s.wipePkeOf j) := kept_ite (kept_wipePke h) h

theorem kept_enterDeepIdle (h : Kept s₀ s) : Kept s₀ s.enterDeepIdle :=
  kept_setEntry (kept_foldl (fun _ _ h1 => kept_setDomain (kept_closePort h1)) h)

theorem kept_leaveDeepIdle (h : Kept s₀ s) : Kept s₀ s.leaveDeepIdle :=
  kept_setEntry (kept_with_heat (kept_foldl (fun _ _ h1 => kept_ite (kept_startTraining (kept_setDomain h1)) (kept_setDomain h1)) h))

theorem kept_saveContext {index sub v} (h : Kept s₀ s) : Kept s₀ (s.saveContext index sub v) := kept_setEntry (kept_setEntry h)

theorem kept_applyEntry {ctx index sub v} (h : Kept s₀ s) : Kept s₀ (s.applyEntry ctx index sub v).2 :=
  kept_ite_2 (kept_applyStackMode h) (kept_ite_2 (kept_applyPortEnable (kept_setEntry h)) (kept_ite_2 (kept_ite (kept_enterDeepIdle h) (kept_ite
    (kept_leaveDeepIdle h) h)) (kept_ite_2 (kept_ite_2 (kept_wipePke h) (kept_ite_2 h (kept_setEntry h))) (kept_ite_2 (kept_narrowWriteOp h)
    (kept_ite_2 (kept_saveContext h) (kept_setEntry h))))))

theorem kept_keepRecord {r} (h : Kept s₀ s) : Kept s₀ (s.keepRecord r) := h

theorem kept_sendRecord {ctx values} (h : Kept s₀ s) : Kept s₀ (s.sendRecord ctx values) := kept_ite h (kept_gateSend h)

theorem kept_sendContent {ctx key start old new} (h : Kept s₀ s) : Kept s₀ (s.sendContent ctx key start old new) := kept_gateSend h

theorem kept_storeContent {ctx index sub d} (h : Kept s₀ s) : Kept s₀ (s.storeContent ctx index sub d) := kept_sendContent h

theorem kept_storePersistent {ctx index sub v} (h : Kept s₀ s) : Kept s₀ (s.storePersistent ctx index sub v) :=
  kept_ite h (kept_ite (kept_keepRecord h) (kept_sendRecord h))

theorem kept_endGroup {g f} (h : Kept s₀ s) : Kept s₀ (s.endGroup g f) := kept_ite (kept_updContext h) h

theorem kept_discardGroup {g} (h : Kept s₀ s) : Kept s₀ (s.discardGroup g) := kept_raise (kept_endGroup h)

theorem kept_applyStaged {ctx staged} (h : Kept s₀ s) : Kept s₀ (s.applyStaged ctx staged) :=
  kept_foldl (fun _ _ h1 => kept_applyEntry h1) (kept_sendRecord h)

theorem kept_applyGroup {g} (h : Kept s₀ s) : Kept s₀ (s.applyGroup g) := kept_ite (kept_discardGroup h) (kept_endGroup (kept_applyStaged h))

theorem kept_commitGroup {ctx job staged} (h : Kept s₀ s) : Kept s₀ (s.commitGroup ctx job staged).2 :=
  kept_ite_2 (kept_updContext (kept_with_pendingGroups (kept_updContext h))) (kept_ite_2 (kept_discardGroup (kept_updContext h)) (kept_applyGroup
    (kept_updContext h)))

theorem kept_beginGroup {ctx snapshot} (h : Kept s₀ s) : Kept s₀ (s.beginGroup ctx snapshot) := kept_updContext h

theorem kept_implicitGroup {ctx index sub v} (h : Kept s₀ s) : Kept s₀ (s.implicitGroup ctx index sub v).2 :=
  kept_ite_2 h (kept_commitGroup (kept_beginGroup h))

theorem kept_stageWrite {ctx index sub v} (h : Kept s₀ s) : Kept s₀ (s.stageWrite ctx index sub v).2 :=
  kept_ite_2 h (kept_ite_2 (kept_updContext h) (kept_ite_2 h (kept_updContext h)))

theorem kept_writeLocal {ctx index sub v} (h : Kept s₀ s) : Kept s₀ (s.writeLocal ctx index sub v) := kept_updContext h

theorem kept_localOrFull {ctx} {x : Nat × State} (h : Kept s₀ s) (hx : Kept s₀ x.2) : Kept s₀ (s.localOrFull ctx x).2 :=
  kept_ite_2 h hx

theorem kept_decideWrite {r ctx index sub v take} (h : Kept s₀ s) (hf : ∀ t, Kept s₀ t → Kept s₀ (take t).2) :
    Kept s₀ (s.decideWrite r ctx index sub v take).2 := by
  unfold State.decideWrite
  refine kept_ite_2 h (kept_ite_2 h ?_)
  split
  · exact h
  · split
    · exact h
    · exact kept_ite_2 (kept_localOrFull h (hf _ h)) (kept_ite_2 h (kept_ite_2 (kept_ite_2 h (hf _ h))
        (kept_ite_2 (kept_stageWrite h) (kept_ite_2 (kept_implicitGroup h) (hf _ h)))))

theorem kept_inTurn {a f} (h : Kept s₀ s) (hf : ∀ t, Kept s₀ t → Kept s₀ (f t)) : Kept s₀ (s.inTurn a f) := kept_ite h (hf _ h)

theorem kept_askField {a} (h : Kept s₀ s) : Kept s₀ (s.askField a) := kept_gateSend h

theorem kept_takeWrite {a index sub v op} (hf : ∀ t, Kept s₀ t → Kept s₀ (op t).2) (h : Kept s₀ s) : Kept s₀ (State.takeWrite a index sub v op s).2 :=
  kept_ite_2 (kept_askField h) (hf _ (kept_storePersistent h))

theorem kept_writeResult {ctx index sub v op} (h : Kept s₀ s) (hf : ∀ t, Kept s₀ t → Kept s₀ (op t).2) : Kept s₀ (s.writeResult ctx index sub v op).2
  := by
  unfold State.writeResult
  split
  · exact h
  · split
    · exact h
    · exact kept_decideWrite h (fun _ h1 => kept_takeWrite (fun _ h2 => hf _ h2) h1)

theorem kept_refuseInsecureRead (h : Kept s₀ s) : Kept s₀ s.refuseInsecureRead := kept_emit (kept_bump h)

theorem kept_served {ctx f} (h : Kept s₀ s) (hf : ∀ t, Kept s₀ t → Kept s₀ (f t)) : Kept s₀ (s.served ctx f) :=
  kept_ite h (kept_ite (kept_bump h) (hf _ h))

theorem kept_writeEntry {ctx index sub v op} (h : Kept s₀ s) (hf : ∀ t, Kept s₀ t → Kept s₀ (op t).2) : Kept s₀ (s.writeEntry ctx index sub v op) :=
  kept_served h (fun _ h1 => kept_inTurn h1 (fun _ h2 => kept_record (kept_writeResult h2 (fun _ h3 => hf _ h3))))

/-! ### LongOps -/

theorem kept_dispatch {t e} (h : Kept s₀ s) : Kept s₀ (s.dispatch t e) := by
  unfold State.dispatch
  split
  · split
    · exact h
    · exact kept_ite (kept_feedTile (kept_sendReads (kept_updTile (kept_startLop h)))) h
  · exact h

theorem kept_waitTimeout {t unit row} (h : Kept s₀ s) : Kept s₀ (s.waitTimeout t unit row) := by
  unfold State.waitTimeout
  split
  · exact h
  · split
    · exact h
    · exact kept_ite h (kept_ite (kept_ite (kept_faultTile h) h) (by
        split
        · exact kept_failLop h
        · exact h))

/-! ### Heat -/

theorem kept_grantPower {d} (h : Kept s₀ s) : Kept s₀ (s.grantPower d) := kept_ite h h

theorem kept_switchStop {t j x} (h : Kept s₀ s) : Kept s₀ (s.switchStop t j x) :=
  kept_updTile (kept_foldl (fun _ _ h1 => kept_ite (kept_stall h1) h1) h)

theorem kept_switchClock {j x} (h : Kept s₀ s) : Kept s₀ (s.switchClock j x) :=
  kept_ite h (kept_foldl (fun _ _ h1 => kept_switchStop (kept_setEntry h1)) (kept_bump (kept_bump (kept_setEntry (kept_setEntry (kept_with_heat
    (kept_settleJob h)))))))

theorem kept_movePoint {j x} (h : Kept s₀ s) : Kept s₀ (s.movePoint j x) := kept_setEntry (kept_switchClock h)

theorem kept_resumeTile {t} (h : Kept s₀ s) : Kept s₀ (s.resumeTile t) := kept_updTile (kept_endWait (kept_wakeTile h))

theorem kept_letGo {j} (h : Kept s₀ s) : Kept s₀ (s.letGo j) := kept_foldl (fun _ _ h1 => kept_resumeTile h1) h

theorem kept_endHold {j} (h : Kept s₀ s) : Kept s₀ (s.endHold j) := by
  unfold State.endHold
  split
  · exact h
  · exact kept_updJob (kept_setEntry (kept_bump (kept_settleJob h)))

theorem kept_admitPhase {j phase x} (h : Kept s₀ s) : Kept s₀ (s.admitPhase j phase x) :=
  kept_letGo (kept_movePoint (kept_endHold (kept_setEntry (kept_grantPower h))))

theorem kept_holdRequest {j phase} (h : Kept s₀ s) : Kept s₀ (s.holdRequest j phase) :=
  kept_raise (kept_bump (kept_with_heat (kept_foldl (fun _ _ h1 => kept_updTile (kept_startWait h1)) (kept_updJob (kept_foldl (fun _ _ h1 =>
    kept_wakeTile h1) h)))))

theorem kept_requestPhase {j phase} (h : Kept s₀ s) : Kept s₀ (s.requestPhase j phase) :=
  kept_ite (kept_holdRequest h) (by
    split
    · exact kept_admitPhase h
    · exact kept_holdRequest h)

theorem kept_decideHeld {l} (h : Kept s₀ s) : Kept s₀ (s.decideHeld l) := by
  induction l generalizing s with
  | nil => exact h
  | cons q qs ih =>
    unfold State.decideHeld
    split
    · exact h
    · exact ih (kept_admitPhase (kept_with_heat h))

theorem kept_leaveLedger {j} (h : Kept s₀ s) : Kept s₀ (s.leaveLedger j) := kept_setEntry h

theorem kept_inputSample {mv ma} (h : Kept s₀ s) : Kept s₀ (s.inputSample mv ma) :=
  kept_ite (kept_setEntry (kept_with_heat_inputBackSince (kept_setEntry (kept_setEntry (kept_setEntry h))))) (kept_with_heat_inputBackSince
    (kept_setEntry (kept_setEntry (kept_setEntry h))))

theorem kept_powerSample {mw} (h : Kept s₀ s) : Kept s₀ (s.powerSample mw) :=
  kept_decideHeld (kept_ite (kept_bump (kept_setEntry h)) (kept_with_heat (kept_setEntry h)))

theorem kept_overBudgetStep (h : Kept s₀ s) : Kept s₀ s.overBudgetStep :=
  kept_ite h (kept_ite h (by
    split
    · exact kept_movePoint h
    · exact kept_ite h (kept_raise h)))

theorem kept_holdLimitExpiry (h : Kept s₀ s) : Kept s₀ s.holdLimitExpiry := by
  unfold State.holdLimitExpiry
  dsimp only
  split
  · exact h
  · exact kept_raise (kept_admitPhase h)

theorem kept_startRamp {j} (h : Kept s₀ s) : Kept s₀ (s.startRamp j) := kept_ite h (kept_with_heat (kept_grantPower h))

theorem kept_raiseCheck (h : Kept s₀ s) : Kept s₀ s.raiseCheck :=
  kept_ite h (kept_ite h (by
    split
    · exact kept_startRamp h
    · exact h))

theorem kept_pointChange {j} (h : Kept s₀ s) : Kept s₀ (s.pointChange j) := by
  unfold State.pointChange
  split
  · exact h
  · exact kept_ite h (kept_movePoint h)

theorem kept_thermalStep {t temp16} (h : Kept s₀ s) : Kept s₀ (s.thermalStep t temp16) := by
  unfold State.thermalStep
  dsimp only
  split
  · exact kept_setEntry h
  · exact kept_ite (kept_raise (kept_bump (kept_movePoint (kept_with_heat (kept_setEntry h))))) (kept_setEntry h)

theorem kept_tileOff {t} (h : Kept s₀ s) : Kept s₀ (s.tileOff t) := kept_settleLanded (kept_updTile (kept_setBanks h))

theorem kept_enterSleep {t n wake} (h : Kept s₀ s) : Kept s₀ (s.enterSleep t n wake) :=
  kept_setEntry (kept_updTile (kept_ite (kept_bump (kept_ite (kept_tileOff h) h)) (kept_ite (kept_tileOff h) h)))

theorem kept_sleepTile {t bundles} (h : Kept s₀ s) : Kept s₀ (s.sleepTile t bundles) :=
  kept_ite h (by
    split
    · exact h
    · exact kept_ite h (kept_ite (kept_enterSleep h) (kept_enterSleep (kept_wakeTile h))))

theorem kept_noteIdle (h : Kept s₀ s) : Kept s₀ s.noteIdle := kept_ite h h

/-! ### Admit -/

theorem kept_loadTile {im t} (h : Kept s₀ s) : Kept s₀ (s.loadTile im t) :=
  kept_updTile (kept_settleLanded (kept_setBanks (kept_resetEntries (kept_ite (kept_setEntry h) h))))

theorem kept_enterLoaded {j im base group rearm} (h : Kept s₀ s) : Kept s₀ (s.enterLoaded j im base group rearm) :=
  kept_foldl (fun _ _ h1 => kept_loadTile h1) (kept_setEntry (kept_setEntry (kept_setEntry (kept_resetEntries (kept_setJob h)))))

theorem kept_admissionCheck (h : Kept s₀ s) : Kept s₀ s.admissionCheck := by
  unfold State.admissionCheck
  split
  · exact h
  · dsimp only
    split
    · exact kept_setEntry (kept_setEntry (kept_touchOwn (kept_updJob (kept_with_admitQueue h))))
    · exact kept_enterLoaded (kept_touchOwn (kept_updJob (kept_with_admitQueue h)))

/-! ### Attest -/

theorem kept_prepareTree (h : Kept s₀ s) : Kept s₀ s.prepareTree := kept_ite h h

theorem kept_switchTree (h : Kept s₀ s) : Kept s₀ s.switchTree := kept_ite h (kept_raise (kept_with_hss (kept_prepareTree h)))

theorem kept_spendLeaf (h : Kept s₀ s) : Kept s₀ (s.spendLeaf).2.2 :=
  kept_ite_22 h (kept_ite_22 (kept_raise (kept_setEntry (kept_with_hss (kept_useFree (kept_switchTree h))))) (kept_bump (kept_with_hss (kept_setEntry
    (kept_with_hss (kept_useFree (kept_switchTree h)))))))

theorem kept_makeReport (h : Kept s₀ s) : Kept s₀ (s.makeReport).2 :=
  kept_ite_2 h (kept_ite_2 (kept_spendLeaf h) (kept_setBlob (kept_with_nonceFresh (kept_useFree (kept_spendLeaf h)))))

/-! ### Barriers -/

theorem kept_sendBarrier {opcode node b e} (h : Kept s₀ s) : Kept s₀ (s.sendBarrier opcode node b e) := by
  unfold State.sendBarrier
  split
  · exact h
  · exact kept_sendFrame h

theorem kept_reportArrival {j b} (h : Kept s₀ s) : Kept s₀ (s.reportArrival j b) := kept_ite (kept_sendBarrier (kept_setBarrier h)) h

theorem kept_arrive {t} (h : Kept s₀ s) : Kept s₀ (s.arrive t) := by
  unfold State.arrive
  split
  · exact kept_ite h (kept_reportArrival (kept_setBarrier (kept_updTile h)))
  · exact h

theorem kept_openSpan {j n} (h : Kept s₀ s) : Kept s₀ (s.openSpan j n) := by
  unfold State.openSpan
  split
  · exact h
  · split
    · exact h
    · exact kept_updJob h

theorem kept_closeSpan {j} (h : Kept s₀ s) : Kept s₀ (s.closeSpan j) := kept_updJob (kept_settleJob h)

theorem kept_takeTrap {j v} (h : Kept s₀ s) : Kept s₀ (s.takeTrap j v) :=
  kept_raise (kept_bump (kept_foldl (fun _ _ h1 => kept_updTile h1) (kept_updJob (kept_letGo h))))

theorem kept_refuseTrap {j x} (h : Kept s₀ s) : Kept s₀ (s.refuseTrap j x) := kept_abortJob (kept_noteLedgerError h)

theorem kept_applyPending {j} (h : Kept s₀ s) : Kept s₀ (s.applyPending j) := kept_foldl (fun _ _ h1 => kept_applyGroup h1) h

theorem kept_passRelease {j} (h : Kept s₀ s) : Kept s₀ (s.passRelease j) := by
  unfold State.passRelease
  dsimp only
  split
  · exact kept_requestPhase (kept_openSpan (kept_closeSpan (kept_updJob h)))
  · exact kept_letGo (kept_openSpan (kept_closeSpan (kept_updJob h)))

theorem kept_releaseBarrier {j b} (h : Kept s₀ s) : Kept s₀ (s.releaseBarrier j b) := by
  unfold State.releaseBarrier
  dsimp only
  split
  · exact kept_ite (kept_takeTrap (kept_foldl (fun _ _ h1 => kept_updTile h1) (kept_applyPending (kept_setBarrier (kept_foldl (fun _ _ h1 =>
    kept_sendBarrier h1) h))))) (kept_refuseTrap (kept_foldl (fun _ _ h1 => kept_updTile h1) (kept_applyPending (kept_setBarrier (kept_foldl (fun _ _
    h1 => kept_sendBarrier h1) h)))))
  · exact kept_passRelease (kept_foldl (fun _ _ h1 => kept_updTile h1) (kept_applyPending (kept_setBarrier (kept_foldl (fun _ _ h1 => kept_sendBarrier
    h1) h))))

theorem kept_barrierTimeout {b} (h : Kept s₀ s) : Kept s₀ (s.barrierTimeout b) := by
  unfold State.barrierTimeout
  split
  · exact h
  · exact kept_ite (kept_abortJob (kept_raise (kept_setEntry (kept_setBarrier h)))) h

/-! ### Jobs -/

theorem kept_load {j} (h : Kept s₀ s) : Kept s₀ (s.load j) := kept_setEntry (kept_updJob h)

theorem kept_start {j} (h : Kept s₀ s) : Kept s₀ (s.start j) := by
  unfold State.start
  dsimp only
  split
  · exact h
  · exact kept_foldl (fun _ _ h1 => kept_setEntry (kept_settleLanded (kept_updTile h1))) (kept_setEntry (kept_setEntry (kept_setEntry (kept_setJob
    (kept_touchStacks h)))))

theorem kept_refuseBinding {j x code} (h : Kept s₀ s) : Kept s₀ (s.refuseBinding j x code) := kept_abortJob (kept_noteLedgerError (kept_updJob h))

theorem kept_bindBytes {j x im b} (h : Kept s₀ s) : Kept s₀ (s.bindBytes j x im b) := by
  unfold State.bindBytes
  dsimp only
  split
  · exact kept_refuseBinding h
  · exact kept_updJob h

theorem kept_bindOne {j x im} (h : Kept s₀ s) : Kept s₀ (s.bindOne j x im) :=
  kept_ite (kept_updJob h) (kept_ite (kept_ite (kept_refuseBinding h) (kept_ite (kept_refuseBinding h) (kept_bindBytes h))) (kept_ite h (kept_ite
    (kept_refuseBinding (kept_countFail h)) (kept_issueOp h))))

theorem kept_bindFrom {j im fuel} (h : Kept s₀ s) : Kept s₀ (s.bindFrom j im fuel) := by
  induction fuel generalizing s with
  | zero => exact h
  | succ fuel ih =>
    unfold State.bindFrom
    split
    · exact h
    · exact kept_ite (kept_requestPhase (kept_updJob h)) (kept_ite (kept_bindOne h) (ih (kept_bindOne h)))

theorem kept_applyOwn {j} (h : Kept s₀ s) : Kept s₀ (s.applyOwn j) := kept_foldl (fun _ _ h1 => kept_applyGroup h1) h

theorem kept_discardOwn {j} (h : Kept s₀ s) : Kept s₀ (s.discardOwn j) := kept_foldl (fun _ _ h1 => kept_discardGroup h1) h

theorem kept_endJob {j completion status} (h : Kept s₀ s) : Kept s₀ (s.endJob j completion status) :=
  kept_ite (kept_raise (kept_setEntry (kept_setEntry (kept_setEntry (kept_setEntry (kept_setEntry (kept_updJob (kept_endChecks (kept_wipePkeOf
    (kept_leaveLedger (kept_with_barriers (kept_ite (kept_applyOwn (kept_settleJob h)) (kept_discardOwn (kept_settleJob h)))))))))))))) (kept_setEntry
    (kept_setEntry (kept_setEntry (kept_updJob (kept_endChecks (kept_wipePkeOf (kept_leaveLedger (kept_with_barriers (kept_ite (kept_applyOwn
    (kept_settleJob h)) (kept_discardOwn (kept_settleJob h)))))))))))

theorem kept_poisonOutputs {im t} (h : Kept s₀ s) : Kept s₀ (s.poisonOutputs im t) := kept_foldl (fun _ _ h1 => kept_poisonRows h1) h

theorem kept_quench {t} (h : Kept s₀ s) : Kept s₀ (s.quench t) :=
  kept_ite h (kept_bump (kept_updTile (kept_reportMisses (kept_endWait (kept_wakeTile h)))))

theorem kept_abortRows {im t} (h : Kept s₀ s) : Kept s₀ (s.abortRows im t) := kept_poisonOutputs (kept_foldl (fun _ _ h1 => kept_poisonRows h1) h)

theorem kept_revokeTile {t} (h : Kept s₀ s) : Kept s₀ (s.revokeTile t) := kept_bump (kept_with_sorters (kept_updTile h))

theorem kept_poisonDescriptor {im j x} (h : Kept s₀ s) : Kept s₀ (s.poisonDescriptor im j x) :=
  kept_ite (kept_ite (kept_memWrite h) h) (kept_ite (kept_bump (kept_countFail h)) (kept_issueOp h))

theorem kept_cleanUp {j im} (h : Kept s₀ s) : Kept s₀ (s.cleanUp j im) :=
  kept_updJob (kept_foldl (fun _ _ h1 => kept_poisonDescriptor h1) (kept_foldl (fun _ _ h1 => kept_markPoison h1) (kept_orphanOps (kept_foldl (fun _ _
    h1 => kept_revokeTile h1) (kept_wipePkeOf (kept_cancelStreams (kept_foldl (fun _ _ h1 => kept_abortRows (kept_quench h1)) (kept_bump h))))))))

theorem kept_abortCleanup {j} (h : Kept s₀ s) : Kept s₀ (s.abortCleanup j) := by
  unfold State.abortCleanup
  dsimp only
  split
  · exact h
  · exact kept_ite h (kept_ite (kept_ite h (kept_cleanUp h)) (kept_endJob (kept_ite h (kept_cleanUp h))))

theorem kept_freeTiles {group} (h : Kept s₀ s) : Kept s₀ (s.freeTiles group) := kept_foldl (fun _ _ h1 => kept_updTile h1) h

theorem kept_release {j} (h : Kept s₀ s) : Kept s₀ (s.release j) := kept_noteIdle (kept_setJob (kept_freeTiles h))

theorem kept_rearm {j} (h : Kept s₀ s) : Kept s₀ (s.rearm j) := by
  unfold State.rearm
  dsimp only
  split
  · exact h
  · exact kept_enterLoaded (kept_freeTiles h)

theorem kept_jobAct {j v} (h : Kept s₀ s) : Kept s₀ (s.jobAct j v) := by
  unfold State.jobAct
  split
  · exact kept_load h
  · exact kept_start h
  · exact kept_abortCleanup (kept_abortJob h)
  · exact kept_release h
  · exact kept_rearm h

theorem kept_jobControlOp {j v} (h : Kept s₀ s) : Kept s₀ (s.jobControlOp j v).2 := kept_ite_2 (kept_jobAct h) h

theorem kept_jobCommand {ctx j v} (h : Kept s₀ s) : Kept s₀ (s.jobCommand ctx j v) := kept_writeEntry h (fun _ h1 => kept_jobControlOp h1)

theorem kept_saveCommit {im j x} (h : Kept s₀ s) : Kept s₀ (s.saveCommit im j x) := by
  unfold State.saveCommit
  split
  · exact kept_ite (kept_savedCheck h) h
  · exact h

theorem kept_remotePut {node a b j x} (h : Kept s₀ s) : Kept s₀ (s.remotePut node a b j x) :=
  kept_ite (kept_issueOp (kept_issueOp h)) (kept_issueOp h)

theorem kept_commitFails {j x code} (h : Kept s₀ s) : Kept s₀ (s.commitFails j x code) := by
  unfold State.commitFails
  dsimp only
  split
  · exact kept_setJob h
  · exact kept_ite (kept_poisonDescriptor (kept_ite (kept_markPoison (kept_setJob h)) (kept_setJob h))) (kept_ite (kept_markPoison (kept_setJob h))
    (kept_setJob h))

theorem kept_settleValid {j x} (h : Kept s₀ s) : Kept s₀ (s.settleValid j x) := kept_ite (kept_updJob h) h

theorem kept_writeDescriptor {im j x off b} (h : Kept s₀ s) : Kept s₀ (s.writeDescriptor im j x off b) :=
  kept_ite (kept_ite (kept_commitFails h) (kept_memWrite h)) (kept_ite (kept_commitFails (kept_countFail h)) (kept_remotePut h))

theorem kept_bodyRead {im j x} (h : Kept s₀ s) : Kept s₀ (s.bodyRead im j x) :=
  kept_ite h (kept_ite (kept_commitFails (kept_countFail h)) (kept_issueOp h))

theorem kept_firstWrite {im j x} (h : Kept s₀ s) : Kept s₀ (s.firstWrite im j x) :=
  kept_bodyRead (kept_writeDescriptor (kept_useFree (kept_saveCommit (kept_updJob h))))

theorem kept_commit {j im} (h : Kept s₀ s) : Kept s₀ (s.commit j im) := kept_foldl (fun _ _ h1 => kept_firstWrite h1) (kept_updJob h)

theorem kept_validWrite {im j x} (h : Kept s₀ s) : Kept s₀ (s.validWrite im j x) := kept_settleValid (kept_writeDescriptor (kept_updJob h))

theorem kept_signalCompletion {j c} (h : Kept s₀ s) : Kept s₀ (s.signalCompletion j c) :=
  kept_ite h (kept_ite (kept_ite (kept_memWrite h) h) (kept_ite (kept_countFail h) (kept_issueOp h)))

theorem kept_endCommit {j im} (h : Kept s₀ s) : Kept s₀ (s.endCommit j im) :=
  kept_ite (kept_endJob (kept_cancelStreams (kept_signalCompletion h))) (kept_endJob (kept_cancelStreams (kept_setJob (kept_foldl (fun _ _ h1 =>
    kept_poisonDescriptor h1) h))))

theorem kept_cancelWaiting {t} (h : Kept s₀ s) : Kept s₀ (s.cancelWaiting t) := kept_updTile (kept_foldl (fun _ _ h1 => kept_poisonRows h1) h)

theorem kept_stopJob {j im} (h : Kept s₀ s) : Kept s₀ (s.stopJob j im) := by
  unfold State.stopJob
  refine kept_endJob (kept_foldl (fun _ _ => kept_markPoison) (kept_cancelStreams (kept_foldl (fun _ _ hStop => ?_) (kept_addTick h))))
  exact kept_poisonOutputs (kept_reportMisses (kept_cancelWaiting (kept_endWait (kept_wakeTile hStop))))

/-! ### CheckOps -/

theorem kept_foldInto {n b} (h : Kept s₀ s) : Kept s₀ (s.foldInto n b) := kept_foldCheck h

theorem kept_endRun {c status} (h : Kept s₀ s) : Kept s₀ (s.endRun c status) := kept_setEntry (kept_endCheck (kept_with_checkRun (kept_orphanOps h)))

theorem kept_checkReads {c} (h : Kept s₀ s) : Kept s₀ (s.checkReads c) :=
  kept_ite h (kept_ite (kept_endRun (kept_countFail h)) (kept_foldl (fun _ _ h1 => kept_issueOp h1) h))

theorem kept_checkBegin {resume} (h : Kept s₀ s) : Kept s₀ (s.checkBegin resume).2 :=
  kept_ite_2 h (kept_ite_2 h (kept_checkReads (kept_setEntry (kept_with_checkRun (kept_ite (kept_putCheck (kept_touchOwn h)) (kept_bindCheck
    (kept_touchOwn h)))))))

theorem kept_foldPart {c} (h : Kept s₀ s) : Kept s₀ (s.foldPart c) := kept_useFree (kept_foldInto h)

theorem kept_checkCancelOp (h : Kept s₀ s) : Kept s₀ (s.checkCancelOp).2 := by
  unfold State.checkCancelOp
  split
  · exact h
  · exact kept_endRun (kept_foldPart h)

theorem kept_endCheckOp {status} (h : Kept s₀ s) : Kept s₀ (s.endCheckOp status) := by
  unfold State.endCheckOp
  split
  · exact kept_ite h (kept_endRun (kept_foldPart h))
  · exact h

theorem kept_cyclePower {t} (h : Kept s₀ s) : Kept s₀ (s.cyclePower t) := kept_setEntry (kept_settleLanded (kept_updTile (kept_setBanks h)))

theorem kept_leaseTimeout {t granter} (h : Kept s₀ s) : Kept s₀ (s.leaseTimeout t granter) :=
  kept_ite h (kept_cyclePower (kept_raise (by
    split
    · exact kept_abortJob (kept_quench h)
    · exact kept_quench h)))

/-! ### Conversion -/

theorem kept_undefineDestination {c} (h : Kept s₀ s) : Kept s₀ (s.undefineDestination c) := kept_ite (kept_memWrite (kept_useFree h)) h

theorem kept_endConversion {c code} (h : Kept s₀ s) : Kept s₀ (s.endConversion c code) :=
  kept_noteIdle (kept_setEntry (kept_setEntry (kept_with_conversion (kept_orphanOps h))))

theorem kept_convFail {c code} (h : Kept s₀ s) : Kept s₀ (s.convFail c code) := kept_endConversion (kept_undefineDestination h)

theorem kept_convIssue {c code addr n b} (h : Kept s₀ s) : Kept s₀ (s.convIssue c code addr n b) :=
  kept_ite (kept_convFail (kept_countFail h)) (kept_foldl (fun _ _ h1 => kept_issueOp h1) h)

theorem kept_startConversion {t} (h : Kept s₀ s) : Kept s₀ (s.startConversion t) :=
  kept_ite (kept_convFail (kept_grantPower (kept_setEntry (kept_setEntry (kept_setEntry (kept_setEntry (kept_with_conversion (kept_touchOwn
    (kept_touchOwn h))))))))) (kept_ite (kept_grantPower (kept_setEntry (kept_setEntry (kept_setEntry (kept_setEntry (kept_with_conversion
    (kept_touchOwn (kept_touchOwn h)))))))) (kept_convIssue (kept_grantPower (kept_setEntry (kept_setEntry (kept_setEntry (kept_setEntry
    (kept_with_conversion (kept_touchOwn (kept_touchOwn h))))))))))

theorem kept_convStartOp (h : Kept s₀ s) : Kept s₀ (s.convStartOp).2 :=
  kept_ite_2 h (by
    split
    · exact h
    · exact kept_ite_2 h (kept_startConversion h))

theorem kept_convCancelOp (h : Kept s₀ s) : Kept s₀ (s.convCancelOp).2 := by
  unfold State.convCancelOp
  split
  · exact h
  · exact kept_convFail h

theorem kept_convWrite {c r} (h : Kept s₀ s) : Kept s₀ (s.convWrite c r) :=
  kept_ite (kept_endConversion (kept_memWrite (kept_memWrite (kept_countConversion (by
    split
    · exact kept_setEntry h
    · exact h))))) (kept_convIssue (kept_with_conversion (kept_countConversion (by
    split
    · exact kept_setEntry h
    · exact h))))

theorem kept_convHead {c} (h : Kept s₀ s) : Kept s₀ (s.convHead c) := kept_convIssue h

theorem kept_convAdvance {c status remote} (h : Kept s₀ s) : Kept s₀ (s.convAdvance c status remote) := by
  unfold State.convAdvance
  split
  · exact kept_ite (kept_convWrite h) (kept_convFail h)
  · exact kept_ite (kept_endConversion h) (kept_ite (kept_issueOp h) (kept_convHead h))
  · exact kept_convHead h
  · exact kept_endConversion h

/-! ### Issuer -/

theorem kept_endTileOp {r status} (h : Kept s₀ s) : Kept s₀ (s.endTileOp r status) :=
  kept_ite (by
    split
    · exact kept_ite (kept_convFail h) h
    · exact h) (kept_ite (kept_signalDone h) (kept_ite h (by
    split
    · exact kept_failLop h
    · exact h)))

theorem kept_endGeyserOp {r status} (h : Kept s₀ s) : Kept s₀ (s.endGeyserOp r status) := kept_ite (kept_streamFail h) h

theorem kept_endSupervisorOp {r status data} (h : Kept s₀ s) : Kept s₀ (s.endSupervisorOp r status data) := by
  unfold State.endSupervisorOp
  refine kept_ite (kept_bump h) (kept_ite h ?_)
  dsimp only
  split
  · exact h
  · exact kept_ite (kept_ite (kept_bindBytes h) (kept_refuseBinding h)) (kept_ite h (kept_ite (kept_commitFails h) (kept_settleValid h)))

theorem kept_endIssuer {r status data} (h : Kept s₀ s) : Kept s₀ (s.endIssuer r status data) :=
  kept_ite (kept_endTileOp h) (kept_ite (kept_endCheckOp h) (kept_ite (kept_endGeyserOp h) (kept_ite (kept_endSupervisorOp h) h)))

theorem kept_endOp {r status data} (h : Kept s₀ s) : Kept s₀ (s.endOp r status data) :=
  kept_ite (kept_endIssuer (kept_countFail (kept_dropOp h))) (kept_releaseWaits (kept_endIssuer (kept_countFail (kept_dropOp h))))

theorem kept_failHostOps (h : Kept s₀ s) : Kept s₀ s.failHostOps := kept_foldl (fun _ _ h1 => kept_endOp h1) h

/-! ### FabricLink -/

theorem kept_trainFail {p cause} (h : Kept s₀ s) : Kept s₀ (s.trainFail p cause) := kept_raise (kept_setEntry (kept_updPort (kept_closePort h)))

theorem kept_sendTrain {p} (h : Kept s₀ s) : Kept s₀ (s.sendTrain p) := kept_emit h

theorem kept_train {p node versions timeParent} (h : Kept s₀ s) : Kept s₀ (s.train p node versions timeParent) :=
  kept_ite h (kept_ite (kept_trainFail (kept_sendTrain h)) (by
    split
    · exact kept_trainFail (kept_sendTrain h)
    · exact kept_updPort (kept_setEntry (kept_setEntry (kept_setEntry (kept_sendTrain h))))))

theorem kept_setLane {p l x} (h : Kept s₀ s) : Kept s₀ (s.setLane p l x) := kept_updPort h

theorem kept_receive {p l seq ok} (h : Kept s₀ s) : Kept s₀ (s.receive p l seq ok) := kept_ite (kept_emit (kept_setLane h)) h

theorem kept_retransmit {p l} (h : Kept s₀ s) : Kept s₀ (s.retransmit p l) := by
  unfold State.retransmit
  dsimp only
  split
  · exact h
  · exact kept_ite h (kept_ite (kept_linkDown h) (kept_foldl (fun _ _ h1 => kept_emit h1) (kept_bump (kept_setLane h))))

theorem kept_timeStep {d} (h : Kept s₀ s) : Kept s₀ (s.timeStep d) := kept_raise (kept_setEntry (kept_setEntry h))

theorem kept_timeSlew {d} (h : Kept s₀ s) : Kept s₀ (s.timeSlew d) := kept_with_slewLeft (kept_ite h (kept_setEntry (kept_setEntry h)))

theorem kept_takeIdle {p time delay} (h : Kept s₀ s) : Kept s₀ (s.takeIdle p time delay) :=
  kept_ite (kept_setEntry h) (kept_ite (kept_timeSlew (kept_with_lastTimeIdle (kept_setEntry h))) (kept_timeStep (kept_with_lastTimeIdle
    (kept_setEntry h))))

/-! ### Restart -/

theorem kept_replayRecord {r} (h : Kept s₀ s) : Kept s₀ (s.replayRecord r) := by
  unfold State.replayRecord
  exact kept_foldl (fun _ _ h1 => kept_ite (kept_ite (kept_memWrite h1) h1) (kept_with_replayWrites h1)) (kept_foldl (fun _ _ h1 => kept_markPoison h1) h)

theorem kept_replayJournal {records} (h : Kept s₀ s) : Kept s₀ (s.replayJournal records) :=
  kept_ite h (kept_raise (kept_foldl (fun _ _ h1 => kept_replayRecord h1) h))

theorem kept_sendReplay (h : Kept s₀ s) : Kept s₀ s.sendReplay := kept_ite h (kept_foldl (fun _ _ h1 => kept_issueOp h1) h)

theorem kept_refuseHeld (h : Kept s₀ s) : Kept s₀ s.refuseHeld :=
  kept_foldl (fun _ _ h1 => kept_foldl (fun _ _ h2 => kept_complete h2) h1) (kept_foldl (fun _ _ h1 => kept_complete h1) h)

theorem kept_dropCopy (h : Kept s₀ s) : Kept s₀ s.dropCopy := by
  unfold State.dropCopy
  split
  · exact h
  · exact kept_resetEntries h

/-- A restart keeps the stacks' contents or clears them. -/
theorem kept_clearHost {kind} (h : Kept s₀ s) : Kept s₀ (s.clearHost kind) := by
  obtain ⟨hPending, hGrade, hEnabled, hForm⟩ := kept_dropCopy h
  unfold State.clearHost
  by_cases hStacks : keepsStacks kind
  · simp only [hStacks, if_true]
    exact kept_ite ⟨hPending, hGrade, hEnabled, hForm⟩ ⟨hPending, hGrade, hEnabled, hForm⟩
  · simp only [hStacks]
    exact kept_ite ⟨hPending, hGrade, hEnabled, fun _ => rfl⟩ ⟨hPending, hGrade, hEnabled, fun _ => rfl⟩

theorem kept_romBoot (h : Kept s₀ s) : Kept s₀ s.romBoot := by
  unfold State.romBoot
  split
  · exact kept_setEntry h
  · exact kept_ite h (kept_raise (kept_setEntry h))

theorem kept_countStart {kind} (h : Kept s₀ s) : Kept s₀ (s.countStart kind) := kept_ite (kept_bump h) (kept_ite (kept_bump h) h)

theorem kept_beginPower (h : Kept s₀ s) : Kept s₀ s.beginPower := by
  have hOff : Kept s₀ { s with hostPowered := false, domains := domainsOff } := h
  unfold State.beginPower
  dsimp only
  split
  · exact hOff
  next r _ =>
    have hLeft (l : List Nat) : Kept s₀ { s with hostPowered := false, domains := domainsOff, restart := some { r with powerLeft := l } } := h
    refine kept_ite (kept_setEntry (kept_with_restart (v := none) hOff)) ?_
    split
    · exact hLeft _
    · exact kept_sendPower (hLeft _)

theorem kept_beginRestart {kind cause pending downMs} (h : Kept s₀ s) : Kept s₀ (s.beginRestart kind cause pending downMs) :=
  kept_ite (kept_ite (kept_romBoot (kept_countStart (kept_setEntry (kept_with_restart (kept_ite (kept_with_thermalTripped
    (kept_with_starts_inputBackSince (kept_clearHost (kept_ite (kept_refuseHeld (kept_ite (kept_leaveDeepIdle h) h)) (kept_ite (kept_leaveDeepIdle h)
    h))))) (kept_with_starts_inputBackSince (kept_clearHost (kept_ite (kept_refuseHeld (kept_ite (kept_leaveDeepIdle h) h)) (kept_ite
    (kept_leaveDeepIdle h) h))))))))) (kept_countStart (kept_setEntry (kept_with_restart (kept_ite (kept_with_thermalTripped
    (kept_with_starts_inputBackSince (kept_clearHost (kept_ite (kept_refuseHeld (kept_ite (kept_leaveDeepIdle h) h)) (kept_ite (kept_leaveDeepIdle h)
    h))))) (kept_with_starts_inputBackSince (kept_clearHost (kept_ite (kept_refuseHeld (kept_ite (kept_leaveDeepIdle h) h)) (kept_ite
    (kept_leaveDeepIdle h) h))))))))) (kept_beginPower (kept_ite (kept_romBoot (kept_countStart (kept_setEntry (kept_with_restart (kept_ite
    (kept_with_thermalTripped (kept_with_starts_inputBackSince (kept_clearHost (kept_ite (kept_refuseHeld (kept_ite (kept_leaveDeepIdle h) h))
    (kept_ite (kept_leaveDeepIdle h) h))))) (kept_with_starts_inputBackSince (kept_clearHost (kept_ite (kept_refuseHeld (kept_ite (kept_leaveDeepIdle
    h) h)) (kept_ite (kept_leaveDeepIdle h) h))))))))) (kept_countStart (kept_setEntry (kept_with_restart (kept_ite (kept_with_thermalTripped
    (kept_with_starts_inputBackSince (kept_clearHost (kept_ite (kept_refuseHeld (kept_ite (kept_leaveDeepIdle h) h)) (kept_ite (kept_leaveDeepIdle h)
    h))))) (kept_with_starts_inputBackSince (kept_clearHost (kept_ite (kept_refuseHeld (kept_ite (kept_leaveDeepIdle h) h)) (kept_ite
    (kept_leaveDeepIdle h) h))))))))))

theorem kept_requestRestart {kind cause pending downMs} (h : Kept s₀ s) : Kept s₀ (s.requestRestart kind cause pending downMs) := by
  unfold State.requestRestart
  split
  · exact kept_beginRestart h
  · exact kept_ite (by
      split
      · exact h
      · exact kept_bump h) (kept_ite (kept_beginRestart h) (kept_bump h))

theorem kept_reportBadRecords (h : Kept s₀ s) : Kept s₀ s.reportBadRecords := kept_foldl (fun _ _ h1 => kept_raise h1) h

theorem kept_applyDefaults (h : Kept s₀ s) : Kept s₀ s.applyDefaults := kept_ite (kept_setEntry h) h

theorem kept_takeGeneration {kind old} (h : Kept s₀ s) : Kept s₀ (s.takeGeneration kind old) :=
  kept_ite (kept_foldl (fun _ _ h1 => kept_ite (kept_startTraining (kept_linkDown h1)) h1) (kept_setEntry h)) (kept_setEntry h)

theorem kept_startPorts {kind} (h : Kept s₀ s) : Kept s₀ (s.startPorts kind) :=
  kept_ite h (kept_foldl (fun _ _ h1 => kept_ite (kept_startTraining h1) (kept_setEntry h1)) h)

theorem kept_startTiles {kind} (h : Kept s₀ s) : Kept s₀ (s.startTiles kind) :=
  kept_foldl (fun _ _ h1 => kept_ite (kept_raise (kept_setEntry (kept_setEntry (kept_updTile h1)))) (kept_setEntry (kept_updTile h1))) h

theorem kept_reportCause {r} (h : Kept s₀ s) : Kept s₀ (s.reportCause r) := kept_ite (kept_raise h) (kept_ite (kept_raise h) h)

theorem kept_reportReady (h : Kept s₀ s) : Kept s₀ s.reportReady := kept_ite (kept_emit h) h

theorem kept_noteReady {r} (h : Kept s₀ s) : Kept s₀ (s.noteReady r) :=
  kept_setEntry (kept_setEntry (kept_setEntry (kept_setEntry (kept_setEntry (kept_setEntry h)))))

theorem kept_settlePackage {r} (h : Kept s₀ s) : Kept s₀ (s.settlePackage r) :=
  kept_ite (kept_activatePending h) (kept_ite (kept_activatePending h) h)

theorem kept_finishRestart {r} (h : Kept s₀ s) : Kept s₀ (s.finishRestart r) :=
  kept_flushVectors (kept_reportReady (kept_noteReady (kept_reportCause (kept_replayJournal (kept_startPorts (kept_startTiles (kept_takeGeneration
    (kept_applyDefaults (kept_reportBadRecords (kept_settlePackage (kept_with_watchdogAt_watchdogLimit_restart (kept_ite h h))))))))))))

theorem kept_runDeferred (h : Kept s₀ s) : Kept s₀ s.runDeferred := by
  unfold State.runDeferred
  split
  · exact h
  · exact kept_beginRestart h

theorem kept_restartTick (h : Kept s₀ s) : Kept s₀ s.restartTick := by
  unfold State.restartTick
  split
  · exact h
  · exact kept_ite h (kept_ite (kept_beginRestart h) (kept_runDeferred (kept_finishRestart h)))

theorem kept_hostOff (h : Kept s₀ s) : Kept s₀ s.hostOff :=
  kept_emit (kept_setEntry (kept_foldl (fun _ _ h1 => kept_setEntry h1) (kept_with_domains_hostPowered_restart_deferredRestart (kept_clearHost h))))

theorem kept_orderOff {cause} (h : Kept s₀ s) : Kept s₀ (s.orderOff cause) := kept_sendPower (kept_setEntry h)

theorem kept_resetOp {k} (h : Kept s₀ s) : Kept s₀ (s.resetOp k).2 :=
  kept_ite_2 (kept_ite_2 h (kept_requestRestart h)) (kept_ite_2 h (kept_ite_2 (kept_requestRestart h) (kept_ite_2 (kept_orderOff h)
    (kept_requestRestart h))))

theorem kept_activateOp {v} (h : Kept s₀ s) : Kept s₀ (s.activateOp v).2 :=
  kept_ite_2 h (kept_ite_2 (kept_sendReset (kept_requestRestart h)) (kept_requestRestart h))

theorem kept_takeSensors {r} (h : Kept s₀ s) : Kept s₀ (s.takeSensors r) := by
  have hBoard : Kept s₀ ((((s.setEntry 0xC010 1 (unsigned 64 r.coolantInlet)).setEntry 0xC010 2 (unsigned 64 r.coolantOutlet)).setEntry 0xC010 3
      (unsigned 64 r.fieldSide)).setEntry 0xC010 5 ((if r.coolantInlet < 240 then 1 else 0) + (if 720 < r.coolantInlet then 2 else 0)
        + (if 320 < r.coolantOutlet - r.coolantInlet then 4 else 0))) := kept_setEntry (kept_setEntry (kept_setEntry (kept_setEntry h)))
  unfold State.takeSensors
  dsimp only
  cases r.engineTemps[17]? with
  | none =>
    exact kept_ite hBoard (kept_foldl (fun _ _ => kept_setEntry) (kept_foldl (fun _ _ => kept_setEntry)
      (kept_foldl (fun _ _ h1 => kept_setEntry (kept_setEntry h1)) (kept_setEntry hBoard))))
  | some v =>
    exact kept_ite (kept_setEntry hBoard) (kept_foldl (fun _ _ => kept_setEntry) (kept_foldl (fun _ _ => kept_setEntry)
      (kept_foldl (fun _ _ h1 => kept_setEntry (kept_setEntry h1)) (kept_setEntry (kept_setEntry hBoard)))))

/-! ### HostLink -/

theorem kept_resetBar0 (h : Kept s₀ s) : Kept s₀ s.resetBar0 := kept_updContext h

theorem kept_functionReset (h : Kept s₀ s) : Kept s₀ s.functionReset :=
  kept_setEntry (kept_setEntry (kept_setEntry (kept_with_hostLink (kept_resetBar0 (kept_failHostOps h)))))

theorem kept_linkAway {st} (h : Kept s₀ s) : Kept s₀ (s.linkAway st) := kept_foldl (fun _ _ h1 => kept_setEntry h1) h

theorem kept_config {x2} (h : Kept s₀ s) : Kept s₀ (s.config x2) := by
  unfold State.config
  split
  · exact kept_emit h
  · exact kept_emit h
  · exact kept_emit (kept_setEntry h)
  · exact kept_emit h
  · exact kept_emit (kept_flushVectors h)
  · exact kept_emit h

theorem kept_freeHostTag {id} (h : Kept s₀ s) : Kept s₀ (s.freeHostTag id) := by
  unfold State.freeHostTag
  dsimp only
  split
  · exact h
  · exact kept_ite h (by
      split
      · exact kept_with_hostLink h
      · exact kept_emitHost (kept_with_hostLink (kept_with_hostLink h)))

theorem kept_leaveTx {tag} (h : Kept s₀ s) : Kept s₀ (s.leaveTx tag) := h

theorem kept_logAer {e} (h : Kept s₀ s) : Kept s₀ (s.logAer e) := h

theorem kept_cutRequests {tag} (h : Kept s₀ s) : Kept s₀ (s.cutRequests tag) := kept_leaveTx h

theorem kept_keepData {tag part d} (h : Kept s₀ s) : Kept s₀ (s.keepData tag part d) := h

theorem kept_hostCompleted {r part st d} (h : Kept s₀ s) : Kept s₀ (s.hostCompleted r part st d) :=
  kept_ite (kept_endOp (kept_cutRequests (kept_freeHostTag h))) (kept_ite (kept_endOp (kept_leaveTx (kept_freeHostTag h))) (kept_keepData
    (kept_freeHostTag h)))

theorem kept_hostOpTimeout {r} (h : Kept s₀ s) : Kept s₀ (s.hostOpTimeout r) := kept_endOp (kept_cutRequests h)

theorem kept_noteIde (h : Kept s₀ s) : Kept s₀ s.noteIde := kept_setEntry h

theorem kept_doe {f} (h : Kept s₀ s) (hf : ∀ t, Kept s₀ t → Kept s₀ (f t)) : Kept s₀ (s.doe f) := kept_ite (hf _ h) h

theorem kept_respond {name d} (h : Kept s₀ s) : Kept s₀ (s.respond name d) := kept_emit h

theorem kept_unexpected (h : Kept s₀ s) : Kept s₀ s.unexpected := kept_respond h

theorem kept_transcribe {d} (h : Kept s₀ s) : Kept s₀ (s.transcribe d) := h

theorem kept_negotiated {f} (h : Kept s₀ s) (hf : ∀ t, Kept s₀ t → Kept s₀ (f t)) : Kept s₀ (s.negotiated f) :=
  kept_doe h (fun _ h1 => kept_ite (hf _ h1) (kept_unexpected h1))

theorem kept_signedResponse {name request body} (h : Kept s₀ s) : Kept s₀ (s.signedResponse name request body) :=
  kept_ite (kept_respond h) (kept_ite (kept_respond (kept_spendLeaf h)) (kept_respond (kept_useFree (kept_transcribe (kept_spendLeaf h)))))

theorem kept_setSpdm {l} (h : Kept s₀ s) : Kept s₀ (s.setSpdm l) := kept_setEntry h

theorem kept_inSession {id f} (h : Kept s₀ s) (hf : ∀ t, Kept s₀ t → Kept s₀ (f t)) : Kept s₀ (s.inSession id f) :=
  kept_doe h (fun _ h1 => kept_ite (hf _ h1) (kept_unexpected h1))

theorem kept_bar2Read {x n secure ecc} (h : Kept s₀ s) : Kept s₀ (s.bar2Read x n secure ecc) :=
  kept_ite h (kept_ite (kept_refuseInsecureRead h) (kept_ite (kept_emit (kept_bump h)) (kept_ite (kept_emit (kept_applyEcc (kept_touchRange h)))
    (kept_emit (kept_applyEcc (kept_touchRange h))))))

theorem kept_bar2Write {x d secure} (h : Kept s₀ s) : Kept s₀ (s.bar2Write x d secure) :=
  kept_ite h (kept_ite (kept_bump h) (kept_ite (kept_bump h) (kept_memWrite (kept_touchRange h))))

/-! ### MemOps -/

theorem kept_memRequest {k r} (h : Kept s₀ s) : Kept s₀ (s.memRequest k r) :=
  kept_ite (kept_bump h) (kept_ite h (kept_ite (kept_refuseRequest h) (kept_ite h (kept_arriveRequest (kept_touchStack h)))))

theorem kept_serveRead {e ecc} (h : Kept s₀ s) : Kept s₀ (s.serveRead e ecc) := kept_emit (kept_applyEcc (kept_countRead h))

theorem kept_mendWord {k e w} (h : Kept s₀ s) : Kept s₀ (s.mendWord k e w) :=
  kept_stampWord (kept_foldl (fun _ _ h1 => kept_ite h1 (kept_putByte h1)) (kept_uncorrectableWord h))

theorem kept_serveWrite {k e named ecc} (h : Kept s₀ s) : Kept s₀ (s.serveWrite k e named ecc) := by
  unfold State.serveWrite
  dsimp only
  split
  · exact kept_ite (kept_bump h) (kept_bump (kept_bump h))
  · exact kept_ite (kept_bump h) (kept_bump (kept_bump h))
  · exact kept_ite (kept_correctedWord (kept_ite (kept_bump h) (kept_bump (kept_bump h)))) (kept_ite (kept_bump h) (kept_bump (kept_bump h)))
  · exact kept_ite (kept_mendWord (kept_ite (kept_bump h) (kept_bump (kept_bump h)))) (kept_ite (kept_bump h) (kept_bump (kept_bump h)))

theorem kept_serveBank {k channel bank ecc} (h : Kept s₀ s) : Kept s₀ (s.serveBank k channel bank ecc) :=
  kept_ite h (by
    split
    · exact h
    · exact kept_drainSorter (by
        split
        · exact kept_serveRead (kept_setSorter h)
        · exact kept_serveWrite (kept_setSorter h)))

theorem kept_admitMarking (h : Kept s₀ s) : Kept s₀ s.admitMarking := kept_foldl (fun _ _ h1 => kept_markPoison h1) h

theorem kept_retirePoison (h : Kept s₀ s) : Kept s₀ s.retirePoison := by
  unfold State.retirePoison
  split
  · exact h
  · exact kept_ite (kept_admitMarking (kept_setEntry (kept_with_poisonTable (kept_foldl (fun _ _ h1 => kept_poisonWord h1) h)))) h

theorem kept_poisonClearOp (h : Kept s₀ s) : Kept s₀ (s.poisonClearOp).2 := kept_setEntry h

theorem kept_notePoisonClear {code} (h : Kept s₀ s) : Kept s₀ (s.notePoisonClear code) := kept_ite (kept_setEntry h) h

theorem kept_writeNoted {ctx index sub v op note} (h : Kept s₀ s) (hf : ∀ t, Kept s₀ t → Kept s₀ (op t).2) (hf2 : ∀ t, Kept s₀ t → ∀ x1, Kept s₀ (note
  t x1)) : Kept s₀ (s.writeNoted ctx index sub v op note) :=
  kept_served h (fun _ h1 => kept_inTurn h1 (fun _ h2 => kept_record (hf2 _ (kept_writeResult h2 (fun _ h3 => hf _ h3)) _)))

theorem kept_endClear (h : Kept s₀ s) : Kept s₀ s.endClear := by
  unfold State.endClear
  split
  · exact h
  · exact kept_admitMarking (kept_setEntry (kept_setEntry (kept_with_poisonTable_clearWalk (kept_foldl (fun _ _ h1 => kept_stampWord (kept_putBytes
    h1)) h))))

theorem kept_deviceAreaError {k channel ecc} (h : Kept s₀ s) : Kept s₀ (s.deviceAreaError k channel ecc) := by
  unfold State.deviceAreaError
  split
  · exact h
  · exact h
  · exact kept_bump h
  · exact kept_raise (kept_setEntry (kept_bump h))

theorem kept_patrol {k channel ecc} (h : Kept s₀ s) : Kept s₀ (s.patrol k channel ecc) :=
  kept_ite h (by
    split
    · exact kept_applyEcc (kept_setSorter h)
    · exact kept_deviceAreaError (kept_setSorter h))

/-! ### Pke -/

theorem kept_putPkeSlot {i v secret} (h : Kept s₀ s) : Kept s₀ (s.putPkeSlot i v secret) := h

theorem kept_pkeCommandOp {v} (h : Kept s₀ s) : Kept s₀ (s.pkeCommandOp v).2 :=
  kept_ite_2 h (kept_ite_2 h (kept_setEntry (kept_with_pke (kept_ite (kept_useFree h) h))))

theorem kept_pkeWrite {ctx f} (h : Kept s₀ s) : Kept s₀ (s.pkeWrite ctx f) := kept_writeEntry h (fun _ h1 => kept_pkeCommandOp h1)

theorem kept_pkeFinish {r} (h : Kept s₀ s) : Kept s₀ (s.pkeFinish r) :=
  kept_bump (kept_setEntry (kept_with_pke (by
    split
    · exact kept_with_pke (by
        split
        · exact kept_putPkeSlot h
        · exact h)
    · exact kept_with_pke (by
        split
        · exact kept_putPkeSlot h
        · exact h)
    · split
      · exact kept_putPkeSlot h
      · exact h)))

theorem kept_storePkeSlot {i d} (h : Kept s₀ s) : Kept s₀ (s.storePkeSlot i d) := kept_putPkeSlot h

theorem kept_pkeSlotResult {ctx sub d} (h : Kept s₀ s) : Kept s₀ (s.pkeSlotResult ctx sub d).2 := by
  unfold State.pkeSlotResult
  split
  · exact h
  · exact kept_ite_2 h (by
      split
      · exact h
      · exact kept_storePkeSlot h)

/-! ### Reads -/

theorem kept_readRow {r ctx index sub sizeOk op} (h : Kept s₀ s) (hf : ∀ t, Kept s₀ t → Kept s₀ (op t).2.2) : Kept s₀ (s.readRow r ctx index sub
  sizeOk op).2.2 :=
  kept_ite_22 h (kept_ite_22 h (by
    split
    · exact h
    · exact kept_ite_22 h (hf _ h)))

theorem kept_takeRead {a r index sub op} (hf : ∀ t, Kept s₀ t → Kept s₀ (op t).2.2) (h : Kept s₀ s) : Kept s₀ (State.takeRead a r index sub op s).2.2
  :=
  kept_ite_22 (kept_askField h) (hf _ h)

theorem kept_readResult {ctx index sub sizeOk take} (h : Kept s₀ s) (hf : ∀ x0, ∀ t, Kept s₀ t → Kept s₀ (take x0 t).2.2) : Kept s₀ (s.readResult ctx
  index sub sizeOk take).2.2 := by
  unfold State.readResult
  split
  · exact h
  · split
    · exact h
    · exact kept_readRow h (fun _ h1 => hf _ _ h1)

theorem kept_touchContext {ctx index sub} (h : Kept s₀ s) : Kept s₀ (s.touchContext ctx index sub) := kept_ite (kept_updContext h) h

theorem kept_recordRead {ctx index sub code} (h : Kept s₀ s) : Kept s₀ (s.recordRead ctx index sub code) :=
  kept_ite (kept_touchContext h) (kept_record h)

theorem kept_answerWith {a code v} (h : Kept s₀ s) : Kept s₀ (s.answerWith a code v) := kept_ite h (kept_emit h)

theorem kept_answerRead {a index sub sizeOk op} (h : Kept s₀ s) (hf : ∀ t, Kept s₀ t → Kept s₀ (op t).2.2) : Kept s₀ (s.answerRead a index sub sizeOk
  op) :=
  kept_ite (kept_emit h) (kept_ite (kept_refuseInsecureRead h) (kept_inTurn h (fun _ h1 => kept_answerWith (kept_recordRead (kept_readResult h1 (fun _
    _ h2 => kept_takeRead (fun _ h3 => hf _ h3) h2))))))

/-! ### Snap -/

theorem kept_addTimed {k} (h : Kept s₀ s) : Kept s₀ (s.addTimed k) := kept_ite (kept_bump h) (kept_addTick h)

theorem kept_sendSnap {source ident target arrival} (h : Kept s₀ s) : Kept s₀ (s.sendSnap source ident target arrival) :=
  kept_foldl (fun _ _ h1 => kept_sendFrame h1) h

theorem kept_snapOp {v} (h : Kept s₀ s) : Kept s₀ (s.snapOp v).2 :=
  kept_ite_2 (kept_addTick h) (kept_ite_2 h (kept_ite_2 (kept_addTick h) (kept_addTick (kept_sendSnap h))))

theorem kept_capture {first ks} (h : Kept s₀ s) : Kept s₀ (s.capture first ks) := by
  unfold State.capture
  split
  · exact kept_bump h
  · exact kept_setEntry (kept_setEntry (kept_setEntry (kept_setEntry (kept_setEntry (kept_setEntry (kept_with_copying_captures_captureSeq_captureOrder
    (kept_useFree (kept_ite (kept_bump h) h))))))))

theorem kept_latch (h : Kept s₀ s) : Kept s₀ s.latch := by
  unfold State.latch
  split
  · exact h
  · exact kept_ite (kept_bump h) (kept_capture h)

/-! ### DictOps -/

theorem kept_openGroup {ctx} (h : Kept s₀ s) : Kept s₀ (s.openGroup ctx).2 := kept_ite_2 h (kept_ite_2 h (kept_beginGroup h))

theorem kept_dropGroup {ctx} (h : Kept s₀ s) : Kept s₀ (s.dropGroup ctx) := kept_ite (kept_updContext h) h

theorem kept_groupControl {ctx v} (h : Kept s₀ s) : Kept s₀ (s.groupControl ctx v).2 :=
  kept_ite_2 (kept_openGroup h) (kept_ite_2 h (kept_ite_2 (kept_commitGroup h) (kept_dropGroup h)))

theorem kept_groupCommand {ctx v} (h : Kept s₀ s) : Kept s₀ (s.groupCommand ctx v) := kept_writeEntry h (fun _ h1 => kept_groupControl h1)

theorem kept_noteLoad {code off} (h : Kept s₀ s) : Kept s₀ (s.noteLoad code off) :=
  kept_ite (kept_bump (kept_setEntry (kept_setEntry h))) (kept_setEntry (kept_setEntry h))

theorem kept_placeSet {slot r} (h : Kept s₀ s) : Kept s₀ (s.placeSet slot r) := kept_noteLoad (kept_setBlob (kept_setBlob h))

theorem kept_loadSet {d} (h : Kept s₀ s) : Kept s₀ (s.loadSet d).2 := by
  unfold State.loadSet
  split
  · exact kept_noteLoad h
  · dsimp only
    split
    · exact kept_ite_2 (kept_placeSet h) (kept_noteLoad h)
    · split
      · exact kept_placeSet h
      · exact kept_noteLoad h

theorem kept_unloadSet {id} (h : Kept s₀ s) : Kept s₀ (s.unloadSet id).2 := by
  unfold State.unloadSet
  split
  · exact h
  · exact kept_ite_2 h h

theorem kept_noteUnload {code} (h : Kept s₀ s) : Kept s₀ (s.noteUnload code) := kept_ite (kept_noteLoad h) h

theorem kept_dropTransfer {ctx} (h : Kept s₀ s) : Kept s₀ (s.dropTransfer ctx) := kept_ite (kept_setEntry (kept_updContext h)) (kept_updContext h)

theorem kept_startContent {ctx index sub} (h : Kept s₀ s) : Kept s₀ (s.startContent ctx index sub).2.2 := kept_ite_22 (kept_makeReport h) h

theorem kept_openRead {ctx} (h : Kept s₀ s) : Kept s₀ (s.openRead ctx).2 := by
  unfold State.openRead
  dsimp only
  split
  · exact h
  · exact kept_ite_2 (kept_startContent h) (kept_updContext (kept_dropTransfer (kept_startContent h)))

theorem kept_beginStaging {length} (h : Kept s₀ s) : Kept s₀ (s.beginStaging length) := kept_setEntry h

theorem kept_openTransfer {ctx a length} (h : Kept s₀ s) : Kept s₀ (s.openTransfer ctx a length).2 := by
  unfold State.openTransfer
  split
  · exact h
  · exact kept_ite (kept_beginStaging (kept_updContext (kept_dropTransfer h))) (kept_updContext (kept_dropTransfer h))

theorem kept_openWrite {ctx} (h : Kept s₀ s) : Kept s₀ (s.openWrite ctx).2 := kept_openTransfer h

theorem kept_sendBlock {ctx off d} (h : Kept s₀ s) : Kept s₀ (s.sendBlock ctx off d) := kept_gateSend h

theorem kept_storeSegment {ctx t off d} (h : Kept s₀ s) : Kept s₀ (s.storeSegment ctx t off d).2 :=
  kept_ite_2 h (kept_ite (kept_updContext h) (kept_ite (kept_growPackage (kept_putPackage (kept_updContext h))) (kept_sendBlock (kept_updContext h))))

theorem kept_commitWindow {ctx} (h : Kept s₀ s) : Kept s₀ (s.commitWindow ctx).2 := by
  unfold State.commitWindow
  dsimp only
  split
  · exact h
  · exact kept_ite_2 h (kept_ite_2 h (kept_ite_2 (kept_updContext (kept_storeSegment h)) (kept_storeSegment h)))

theorem kept_takeContent {ctx index sub d} (h : Kept s₀ s) : Kept s₀ (s.takeContent ctx index sub d).2 :=
  kept_ite_2 h (kept_ite_2 h (kept_ite_2 (kept_loadSet h) (kept_ite_2 (kept_ite_2 (kept_setEntry h) h) (kept_ite_2 (kept_pkeSlotResult h)
    (kept_setBlob (kept_ite (kept_with_nonceFresh (kept_ite (kept_storeContent h) h)) (kept_ite (kept_storeContent h) h)))))))

theorem kept_finishTransfer {ctx} (h : Kept s₀ s) : Kept s₀ (s.finishTransfer ctx).2 := by
  unfold State.finishTransfer
  split
  · exact h
  · exact kept_ite_2 (kept_dropTransfer h) (kept_ite_2 (kept_dropTransfer h) (kept_ite_2 (kept_dropTransfer (kept_takeContent h)) (kept_takeContent
    h)))

theorem kept_transferControl {ctx v} (h : Kept s₀ s) : Kept s₀ (s.transferControl ctx v).2 := by
  unfold State.transferControl
  split
  · exact kept_openRead h
  · exact kept_openWrite h
  · exact kept_commitWindow h
  · exact kept_finishTransfer h
  · exact kept_dropTransfer h

theorem kept_transferCommand {ctx v} (h : Kept s₀ s) : Kept s₀ (s.transferCommand ctx v) := kept_writeEntry h (fun _ h1 => kept_transferControl h1)

theorem kept_restoreOp (h : Kept s₀ s) : Kept s₀ (s.restoreOp).2 := h

theorem kept_writeOp {ctx index sub v} (h : Kept s₀ s) : Kept s₀ (s.writeOp ctx index sub v).2 :=
  kept_ite_2 (kept_groupControl h) (kept_ite_2 (kept_transferControl h) (kept_ite_2 (kept_writeLocal h) (kept_ite_2 (kept_restoreOp h) (kept_ite_2
    (kept_resetOp h) (kept_ite_2 (kept_unloadSet h) (kept_ite_2 (kept_ite_2 (kept_convStartOp h) (kept_convCancelOp h)) (kept_ite_2
    (kept_poisonClearOp h) (kept_ite_2 (kept_rowTagClearOp h) (kept_ite_2 (kept_jobControlOp h) (kept_ite_2 (kept_snapOp h) (kept_ite_2 (kept_ite_2
    (kept_activateOp h) (kept_commitSvnOp h)) (kept_ite_2 (kept_pkeCommandOp h) (kept_ite_2 (kept_ite_2 (kept_checkCancelOp h) (kept_checkBegin h))
    (kept_applyEntry h))))))))))))))

theorem kept_noteWrite {index sub code} (h : Kept s₀ s) : Kept s₀ (s.noteWrite index sub code) :=
  kept_ite (kept_noteUnload h) (kept_ite (kept_notePoisonClear h) h)

theorem kept_decideAny {ctx index sub v sizeOk take} (h : Kept s₀ s) (hf : ∀ t, Kept s₀ t → Kept s₀ (take t).2) : Kept s₀ (s.decideAny ctx index sub v
  sizeOk take).2 :=
  kept_noteWrite (by
    split
    · exact h
    · split
      · exact h
      · exact kept_ite_2 (kept_decideWrite h (fun _ h1 => hf _ h1)) h)

theorem kept_writeAny {a index sub v sizeOk} (h : Kept s₀ s) : Kept s₀ (s.writeAny a index sub v sizeOk).2 :=
  kept_decideAny h (fun _ h1 => kept_takeWrite (fun _ h2 => kept_writeOp h2) h1)

theorem kept_putMsixWord {k v} (h : Kept s₀ s) : Kept s₀ (s.putMsixWord k v) := kept_ite h (kept_flushVectors h)

theorem kept_readUpper {offset size} (h : Kept s₀ s) : Kept s₀ (s.readUpper offset size) := kept_ite (kept_refuseInsecureRead h) (kept_emit h)

theorem kept_writeUpper {offset size v} (h : Kept s₀ s) : Kept s₀ (s.writeUpper offset size v) :=
  kept_ite (kept_bump h) (kept_ite (kept_ite (kept_putMsixWord (kept_putMsixWord h)) (kept_putMsixWord h)) h)

theorem kept_readOp {ctx index sub} (h : Kept s₀ s) : Kept s₀ (s.readOp ctx index sub).2.2 := by
  unfold State.readOp
  split
  · exact h
  · exact kept_ite_22 (by
      split
      · exact h
      · exact kept_narrowReadOp h) h

theorem kept_dictRead {a} (h : Kept s₀ s) : Kept s₀ (s.dictRead a) :=
  kept_ite (kept_readUpper h) (kept_ite (kept_emit (kept_record h)) (kept_answerRead h (fun _ h1 => kept_readOp h1)))

theorem kept_dictWrite {a v} (h : Kept s₀ s) : Kept s₀ (s.dictWrite a v) :=
  kept_ite (kept_writeUpper h) (kept_ite (kept_record h) (kept_served h (fun _ h1 => kept_inTurn h1 (fun _ h2 => kept_record (kept_writeAny h2)))))

/-! ### FabricTarget -/

theorem kept_protectOp {f status} (h : Kept s₀ s) : Kept s₀ (s.protectOp f status) := kept_decideOp (kept_bump h)

theorem kept_dropLostSignals (h : Kept s₀ s) : Kept s₀ s.dropLostSignals := kept_foldl (fun _ _ h1 => kept_decideOp h1) h

theorem kept_failTriple {f} (h : Kept s₀ s) : Kept s₀ (s.failTriple f) := kept_dropLostSignals (kept_complete (kept_with_failedTriples (kept_bump h)))

theorem kept_decideArrived {f act} (h : Kept s₀ s) (hf : ∀ t, Kept s₀ t → Kept s₀ (act t)) : Kept s₀ (s.decideArrived f act) :=
  kept_ite (kept_complete (kept_advanceTriple h)) (kept_ite (kept_complete (kept_bump h)) (kept_ite (kept_failTriple h) (hf _ h)))

theorem kept_takeOp {f opcode ecc act} (h : Kept s₀ s) (hf : ∀ t, Kept s₀ t → Kept s₀ (act t)) : Kept s₀ (s.takeOp f opcode ecc act) :=
  kept_ite h (kept_ite h (kept_decideArrived h (fun _ h1 => hf _ h1)))

theorem kept_mirrorRefuse {f offset} (h : Kept s₀ s) : Kept s₀ (s.mirrorRefuse f offset) := kept_protectOp (kept_record h)

theorem kept_mirrorDone {f code data} (h : Kept s₀ s) : Kept s₀ (s.mirrorDone f code data) :=
  kept_ite h (kept_decideOp (kept_ite (kept_bump h) (kept_ite (kept_bump h) h)))

theorem kept_mirrorPut {f offset} (h : Kept s₀ s) : Kept s₀ (s.mirrorPut f offset) :=
  kept_ite (kept_mirrorRefuse h) (kept_inTurn h (fun _ h1 => kept_mirrorDone (kept_record (kept_writeAny h1))))

theorem kept_mirrorGet {f offset} (h : Kept s₀ s) : Kept s₀ (s.mirrorGet f offset) :=
  kept_ite (kept_mirrorRefuse h) (kept_inTurn h (fun _ h1 => kept_mirrorDone (kept_recordRead (kept_readResult h1 (fun _ _ h2 => kept_takeRead (fun _
    h3 => kept_readOp h3) h2)))))

theorem kept_landPut {t f} (h : Kept s₀ s) : Kept s₀ (s.landPut t f) :=
  kept_ite (kept_decideOp h) (kept_ite (kept_updTile (kept_feedTile (kept_windowPut h))) (kept_decideOp (kept_feedTile (kept_windowPut h))))

theorem kept_arrivePut {t f} (h : Kept s₀ s) : Kept s₀ (s.arrivePut t f) := kept_ite (kept_landPut (kept_wakeTile h)) (kept_updTile (kept_wakeTile h))

theorem kept_performPut {f} (h : Kept s₀ s) : Kept s₀ (s.performPut f) :=
  kept_ite (kept_protectOp h) (by
    split
    · exact kept_ite (kept_protectOp h) (kept_ite (kept_protectOp h) (kept_decideOp (kept_memWrite (kept_touchRange h))))
    · split
      · exact kept_protectOp (kept_ite (kept_bump h) h)
      · exact kept_ite (kept_protectOp h) (kept_arrivePut h)
    · exact kept_mirrorPut h
    · exact kept_protectOp h)

theorem kept_gotEcc {t rows x4} (h : Kept s₀ s) : Kept s₀ (s.gotEcc t rows x4) := by
  unfold State.gotEcc
  split
  · exact kept_rowEcc h
  · exact kept_rowEcc h
  · exact kept_rowEcc h

theorem kept_serveGet {t f ecc} (h : Kept s₀ s) : Kept s₀ (s.serveGet t f ecc) :=
  kept_ite (kept_decideOp h) (by
    split
    · exact kept_decideOp (kept_gotEcc h)
    · exact kept_decideOp (kept_gotEcc h))

theorem kept_arriveGet {t f ecc} (h : Kept s₀ s) : Kept s₀ (s.arriveGet t f ecc) :=
  kept_ite (kept_serveGet (kept_wakeTile h)) (kept_updTile (kept_wakeTile h))

theorem kept_stackGet {f ecc} (h : Kept s₀ s) : Kept s₀ (s.stackGet f ecc) :=
  kept_ite (kept_decideOp h) (kept_decideOp (kept_applyEcc (kept_touchRange h)))

theorem kept_performGet {f ecc} (h : Kept s₀ s) : Kept s₀ (s.performGet f ecc) :=
  kept_ite (kept_protectOp h) (by
    split
    · exact kept_ite (kept_protectOp h) (kept_stackGet h)
    · exact kept_ite (kept_protectOp h) (kept_ite (kept_protectOp h) (kept_ite (kept_protectOp h) (kept_arriveGet h)))
    · exact kept_mirrorGet h
    · exact kept_protectOp h)

theorem kept_atomic {f n aligned ecc act} (h : Kept s₀ s) (hf : ∀ t, Kept s₀ t → ∀ x1, Kept s₀ (act t x1)) : Kept s₀ (s.atomic f n aligned ecc act) :=
  by
  unfold State.atomic
  split
  · exact kept_mirrorRefuse h
  · exact kept_ite (kept_protectOp h) (kept_ite (hf _ (kept_applyEcc (kept_touchRange h)) _) (kept_decideOp (kept_applyEcc (kept_touchRange h))))

theorem kept_performAddmod {f ecc} (h : Kept s₀ s) : Kept s₀ (s.performAddmod f ecc) :=
  kept_atomic h (fun _ h1 _ => kept_ite (kept_decideOp h1) (kept_decideOp (kept_memWrite h1)))

theorem kept_performFetchadd {f ecc} (h : Kept s₀ s) : Kept s₀ (s.performFetchadd f ecc) :=
  kept_atomic h (fun _ h1 _ => kept_decideOp (kept_memWrite h1))

theorem kept_signalAdd {f} (h : Kept s₀ s) : Kept s₀ (s.signalAdd f) :=
  kept_ite (kept_decideOp h) (kept_decideOp (kept_creditMcast (kept_addCounter (kept_touchRange h))))

theorem kept_holdSignal {f} (h : Kept s₀ s) : Kept s₀ (s.holdSignal f) := kept_ite (kept_signalAdd h) (kept_ite (kept_decideOp (kept_bump h)) h)

theorem kept_performSignal {f} (h : Kept s₀ s) : Kept s₀ (s.performSignal f) := by
  unfold State.performSignal
  split
  · exact kept_mirrorRefuse h
  · exact kept_ite (kept_protectOp h) (kept_holdSignal h)

theorem kept_performByCode {f ecc} (h : Kept s₀ s) : Kept s₀ (s.performByCode f ecc) := by
  unfold State.performByCode
  split
  · exact kept_performPut h
  · exact kept_performGet h
  · exact kept_performAddmod h
  · exact kept_performFetchadd h
  · exact kept_performSignal h

theorem kept_nextBehind (h : Kept s₀ s) : Kept s₀ s.nextBehind := by
  unfold State.nextBehind
  split
  · exact h
  · exact kept_decideArrived h (fun _ h1 => kept_performByCode h1)

theorem kept_drainBehind (h : Kept s₀ s) : Kept s₀ s.drainBehind := kept_foldl (fun _ _ h1 => kept_nextBehind h1) h

theorem kept_mcastLocal {f} (h : Kept s₀ s) : Kept s₀ (s.mcastLocal f).2 :=
  kept_ite_2 h (kept_ite_2 h (by
    split
    · exact kept_ite_2 (kept_bump h) (kept_bump (kept_memWrite (kept_touchRange h)))
    · exact kept_bump h))

theorem kept_mcastDone {f port status} (h : Kept s₀ s) : Kept s₀ (s.mcastDone f port status) := kept_ite (kept_sendFrame h) (kept_bump h)

theorem kept_takeMcast {p f} (h : Kept s₀ s) : Kept s₀ (s.takeMcast p f) := by
  have hLocal : Kept s₀ (s.mcastLocal f).2 := kept_mcastLocal h
  unfold State.takeMcast
  refine kept_ite h (kept_ite (kept_mcastDone (kept_bump h)) (kept_ite (kept_mcastDone hLocal) (kept_ite (kept_bump hLocal) ?_)))
  dsimp only
  split
  · exact kept_sendCopies hLocal
  · exact kept_mcastDone (kept_with_mcastWaits (kept_sendCopies hLocal))

theorem kept_restartTriple {r} (h : Kept s₀ s) : Kept s₀ (s.restartTriple r) := h

theorem kept_mcastCopyDone {w port f} (h : Kept s₀ s) : Kept s₀ (s.mcastCopyDone w port f) :=
  kept_ite (kept_with_mcastWaits h) (kept_ite (by
    split
    · exact kept_endOp h
    · exact kept_bump h) (kept_mcastDone h))

theorem kept_completeOwn {f} (h : Kept s₀ s) : Kept s₀ (s.completeOwn f) := by
  unfold State.completeOwn
  split
  · exact kept_bump h
  · exact kept_ite h (kept_endOp (kept_ite (kept_restartTriple h) h))

/-! ### Serve -/

theorem kept_writeHere {ctx index sub v} (h : Kept s₀ s) : Kept s₀ (s.writeHere ctx index sub v).2 :=
  kept_decideAny h (fun _ h1 => kept_writeOp (kept_storePersistent h1))

theorem kept_readHere {ctx index sub} (h : Kept s₀ s) : Kept s₀ (s.readHere ctx index sub).2.2 := kept_readResult h (fun _ _ h1 => kept_readOp h1)

theorem kept_accessHere {ctx p} (h : Kept s₀ s) : Kept s₀ (s.accessHere ctx p).2.2 :=
  kept_ite_22 h (by
    split
    · exact kept_writeHere h
    · exact kept_readHere h)

theorem kept_accessEntry {ctx p} (h : Kept s₀ s) : Kept s₀ (s.accessEntry ctx p).2 :=
  kept_ite (kept_record (kept_accessHere h)) (kept_recordRead (kept_accessHere h))

theorem kept_accessAll {f l} (h : Kept s₀ s) (hf : ∀ t, Kept s₀ t → ∀ p, Kept s₀ (f t p).2) : Kept s₀ (s.accessAll f l).2 := by
  unfold State.accessAll
  suffices ∀ done : List (Nat × Nat), Kept s₀ (l.foldl (fun (a : List (Nat × Nat) × State) p => (a.1 ++ [(f a.2 p).1], (f a.2 p).2)) (done, s)).2 from
    this []
  induction l generalizing s with
  | nil => exact fun _ => h
  | cons p l ih => exact fun _ => ih (hf s h p) _

theorem kept_segmentSource {ctx key start} (h : Kept s₀ s) : Kept s₀ (s.segmentSource ctx key start).2 :=
  kept_ite_2 h (kept_openRead (kept_updContext h))

theorem kept_segmentRead {ctx offset start length} (h : Kept s₀ s) : Kept s₀ (s.segmentRead ctx offset start length).2.2 :=
  kept_record (kept_ite_2 h (kept_segmentSource h))

theorem kept_segmentTarget {ctx key length} (h : Kept s₀ s) : Kept s₀ (s.segmentTarget ctx key length).2 := kept_ite_2 h (kept_openTransfer h)

theorem kept_putSegment {ctx key start data last} (h : Kept s₀ s) : Kept s₀ (s.putSegment ctx key start data last).2 :=
  kept_ite_2 (kept_segmentTarget h) (by
    split
    · exact kept_segmentTarget h
    · exact kept_ite_2 (kept_storeSegment (kept_segmentTarget h)) (kept_finishTransfer (kept_storeSegment (kept_segmentTarget h))))

theorem kept_segmentWrite {ctx offset start data last} (h : Kept s₀ s) : Kept s₀ (s.segmentWrite ctx offset start data last).2 :=
  kept_record (kept_ite_2 h (kept_putSegment h))

theorem kept_serveHost {ctx a} (h : Kept s₀ s) : Kept s₀ (s.serveHost ctx a).2 := by
  unfold State.serveHost
  refine kept_ite_2 h ?_
  cases a with
  | entries l => exact kept_accessAll h (fun _ h1 _ => kept_accessEntry h1)
  | segmentRead o i n => exact kept_segmentRead (offset := o) (start := i) (length := n) h
  | segmentWrite o i d last => exact kept_segmentWrite (offset := o) (start := i) (data := d) (last := last) h
  | store l => exact h
  | storeSegment o i n d => exact h

theorem kept_storeValues {l} (h : Kept s₀ s) : Kept s₀ (s.storeValues l).2 := by
  unfold State.storeValues
  split
  · exact h
  · exact kept_keepRecord h

theorem kept_storeSegmentHere {offset start total d} (h : Kept s₀ s) : Kept s₀ (s.storeSegmentHere offset start total d).2 :=
  kept_ite_2 h (kept_ite_2 h (kept_ite_2 h (kept_keepRecord h)))

theorem kept_fieldEntry {ctx p} (h : Kept s₀ s) : Kept s₀ (s.fieldEntry ctx p).2 :=
  kept_ite_2 (kept_accessHere h) (by
    split
    · exact kept_storeValues h
    · exact kept_ite_2 h h)

theorem kept_serveField {ctx a} (h : Kept s₀ s) : Kept s₀ (s.serveField ctx a).2 := by
  unfold State.serveField
  cases a with
  | store l => exact kept_storeValues h
  | storeSegment o i n d => exact kept_storeSegmentHere (offset := o) (start := i) (total := n) (d := d) h
  | entries l => exact kept_ite_2 h (kept_accessAll h (fun _ h1 _ => kept_fieldEntry h1))
  | segmentRead o i n => exact kept_ite_2 h (kept_segmentRead (offset := o) (start := i) (length := n) h)
  | segmentWrite o i d last => exact h

/-! ### Dtp -/

theorem kept_closeSession {id} (h : Kept s₀ s) : Kept s₀ (s.closeSession id) :=
  kept_with_contexts_pendingGroups_sessions (kept_dropTransfer (kept_dropGroup h))

theorem kept_dropDatagram (h : Kept s₀ s) : Kept s₀ s.dropDatagram := h

theorem kept_refuseHello {port version status} (h : Kept s₀ s) : Kept s₀ (s.refuseHello port version status) := kept_emit h

theorem kept_openSession {port version id} (h : Kept s₀ s) : Kept s₀ (s.openSession port version id) := kept_useFree (kept_emit h)

theorem kept_sendReply {x id seq r} (h : Kept s₀ s) : Kept s₀ (s.sendReply x id seq r) := kept_emit h

theorem kept_setSession {id x} (h : Kept s₀ s) : Kept s₀ (s.setSession id x) := h

theorem kept_respondDtp {id seq reply} (h : Kept s₀ s) : Kept s₀ (s.respondDtp id seq reply) := by
  unfold State.respondDtp
  split
  · exact h
  · exact kept_ite (kept_closeSession (kept_sendReply h)) (kept_setSession (kept_sendReply h))

theorem kept_settleDtp {id w data} (h : Kept s₀ s) : Kept s₀ (s.settleDtp id w data) :=
  kept_ite (by
    split
    · exact h
    · exact kept_setSession h) (kept_respondDtp h)

theorem kept_askHost {id seq a} (h : Kept s₀ s) : Kept s₀ (s.askHost id seq a) := kept_gateSend h

/-- Reads of a request, one after another. -/
theorem kept_readsFold {ctx} {travels : Nat → Bool} {l : List Nat} {done : List (Option (Nat × Nat))} (h : Kept s₀ s) :
    Kept s₀ (l.foldl (fun (a : List (Option (Nat × Nat)) × State) o =>
      if travels o then (a.1 ++ [none], a.2) else ((a.1 ++ [some (a.2.accessEntry ctx (o, none)).1], (a.2.accessEntry ctx (o, none)).2))) (done, s)).2 := by
  induction l generalizing s done with
  | nil => exact h
  | cons o l ih =>
    rw [List.foldl_cons]
    split
    · exact ih h
    · exact ih (kept_accessEntry h)

theorem kept_runReads {id seq offsets} (h : Kept s₀ s) : Kept s₀ (s.runReads id seq offsets).1 := by
  unfold State.runReads
  exact kept_ite (kept_readsFold h) (kept_askHost (kept_readsFold h))

theorem kept_runWrites {n id w} (h : Kept s₀ s) : Kept s₀ (State.runWrites n s id w).1 := by
  induction n generalizing s w with
  | zero => exact h
  | succ n ih =>
    unfold State.runWrites
    split
    · exact h
    · exact kept_ite_1 (kept_askHost h) (ih (kept_accessEntry h))

theorem kept_dtpAnswered {id seq items data} (h : Kept s₀ s) : Kept s₀ (s.dtpAnswered id seq items data) := by
  unfold State.dtpAnswered
  split
  · exact h
  · split
    · exact h
    · exact kept_settleDtp (kept_runWrites h)

theorem kept_dtpGivenUp {id seq} (h : Kept s₀ s) : Kept s₀ (s.dtpGivenUp id seq) := by
  unfold State.dtpGivenUp
  split
  · exact h
  · split
    · exact h
    · exact kept_settleDtp h

theorem kept_onRequest {id seq f} (h : Kept s₀ s) (hf : ∀ t, Kept s₀ t → ∀ x, Kept s₀ (f t x)) : Kept s₀ (s.onRequest id seq f) := by
  unfold State.onRequest
  refine kept_ite h ?_
  split
  · exact kept_dropDatagram h
  · dsimp only
    split
    · exact kept_sendReply (kept_setSession h)
    · exact kept_ite (kept_setSession h) (kept_ite (kept_dropDatagram (kept_setSession h)) (hf _ (kept_setSession h) _))

theorem kept_segmentRequest {id w offset a here} (h : Kept s₀ s) (hf : ∀ t, Kept s₀ t → Kept s₀ (here t).2.2) : Kept s₀ (s.segmentRequest id w offset
  a here) :=
  kept_ite (kept_settleDtp (kept_askHost h)) (kept_settleDtp (hf _ h))

/-! ### Gate -/

theorem kept_gateAnswer {e seq p} (h : Kept s₀ s) : Kept s₀ (s.gateAnswer e seq p) := kept_ite h (kept_emit (kept_setGate h))

theorem kept_flushNotices (h : Kept s₀ s) : Kept s₀ s.flushNotices := kept_foldl (fun _ _ h1 => kept_gateSend h1) h

theorem kept_hear {e} (h : Kept s₀ s) : Kept s₀ (s.hear e).2 :=
  kept_ite_2 (kept_setGate h) (kept_ite_2 (kept_setGate h) (by
    split
    · exact kept_flushNotices (kept_setGate (kept_setGate h))
    · exact kept_sendReset (kept_setGate (kept_setGate h))))

theorem kept_onMessage {e f} (h : Kept s₀ s) (hf : ∀ t, Kept s₀ t → Kept s₀ (f t)) : Kept s₀ (s.onMessage e f) :=
  kept_ite (kept_ite (hf _ (kept_hear h)) (kept_hear h)) h

theorem kept_takeNumbered {e seq f} (h : Kept s₀ s) (hf : ∀ t, Kept s₀ t → Kept s₀ (f t).2) : Kept s₀ (s.takeNumbered e seq f) := by
  unfold State.takeNumbered
  split
  · exact kept_gateAnswer h
  · exact kept_gateAnswer (kept_setGate (hf _ h))

theorem kept_onNumbered {e seq f} (h : Kept s₀ s) (hf : ∀ t, Kept s₀ t → Kept s₀ (f t).2) : Kept s₀ (s.onNumbered e seq f) :=
  kept_onMessage h (fun _ h1 => kept_takeNumbered h1 (fun _ h2 => hf _ h2))

theorem kept_resume {a} (h : Kept s₀ s) : Kept s₀ (s.resume a) := by
  unfold State.resume
  split
  · exact kept_mirrorPut h
  · exact kept_mirrorGet h
  · exact kept_dictWrite h
  · exact kept_dictRead h

theorem kept_resumeHeld {ctx} (h : Kept s₀ s) : Kept s₀ (s.resumeHeld ctx) := kept_foldl (fun _ _ h1 => kept_resume h1) h

theorem kept_finishAccess {a code v} (h : Kept s₀ s) : Kept s₀ (s.finishAccess a code v) :=
  kept_resumeHeld (by
    split
    · exact kept_record h
    · exact kept_mirrorDone (kept_record h)
    · exact kept_answerWith (kept_recordRead h)
    · exact kept_mirrorDone (kept_recordRead h))

theorem kept_undoValues {ctx l status} (h : Kept s₀ s) : Kept s₀ (s.undoValues ctx l status) :=
  kept_foldl (fun _ _ h1 => kept_record (kept_ite (kept_applyEntry h1) h1)) h

theorem kept_undoContent {ctx key status old} (h : Kept s₀ s) : Kept s₀ (s.undoContent ctx key status old) := kept_record (kept_setBlob h)

theorem kept_powerNext (h : Kept s₀ s) : Kept s₀ s.powerNext := by
  unfold State.powerNext
  split
  · exact h
  · split
    · exact h
    · split
      · exact h
      · exact kept_sendPower h

theorem kept_reportFailed {p} (h : Kept s₀ s) : Kept s₀ (s.reportFailed p) := by
  unfold State.reportFailed
  dsimp only
  split
  · exact kept_ite (kept_emit h) (kept_hostOff (kept_emit h))
  · exact kept_emit h

theorem kept_messageFailed {m status} (h : Kept s₀ s) : Kept s₀ (s.messageFailed m status) := by
  unfold State.messageFailed
  split
  · exact kept_reportFailed h
  · exact kept_finishAccess h
  · exact kept_dtpGivenUp h
  · exact kept_undoValues h
  · exact kept_undoContent h
  · exact kept_record (kept_dropTransfer h)

theorem kept_messageAnswered {m items data} (h : Kept s₀ s) : Kept s₀ (s.messageAnswered m items data) := by
  unfold State.messageAnswered
  dsimp only
  split
  · exact kept_finishAccess h
  · exact kept_dtpAnswered h
  · exact kept_ite (kept_messageFailed h) (by
      split
      · exact kept_powerNext h
      · exact h)
  · exact kept_ite (kept_messageFailed h) (kept_ite (kept_sendContent h) h)
  · exact kept_ite (kept_messageFailed h) h

theorem kept_managementTrigger {target} (h : Kept s₀ s) : Kept s₀ (s.managementTrigger target) :=
  kept_ite (kept_bump h) (kept_ite h (kept_addTimed h))

theorem kept_portOff {p} (h : Kept s₀ s) : Kept s₀ (s.portOff p) := kept_closePort h

theorem kept_switchDomain {d on} (h : Kept s₀ s) : Kept s₀ (s.switchDomain d on) :=
  kept_ite (kept_ite h (kept_ite (kept_setEntry h) (kept_setEntry (kept_tileOff h)))) (kept_ite (kept_setDomain h) (kept_portOff (kept_setDomain h)))

theorem kept_powerDomains {mask on} (h : Kept s₀ s) : Kept s₀ (s.powerDomains mask on) :=
  kept_ite (kept_ite (kept_foldl (fun _ _ h1 => kept_switchDomain h1) (kept_ite (kept_requestRestart (kept_ite h h)) (kept_ite h h))) (kept_ite
    (kept_requestRestart (kept_ite h h)) (kept_ite h h))) (kept_ite (kept_ite (kept_hostOff h) h) (kept_foldl (fun _ _ h1 => kept_switchDomain h1) h))

theorem kept_resetCommand {kind cause} (h : Kept s₀ s) : Kept s₀ (s.resetCommand kind cause).2 :=
  kept_ite_2 h (kept_ite_2 h (kept_ite_2 h (kept_requestRestart (kept_ite (kept_bump h) h))))

theorem kept_placeBlock {offset data} (h : Kept s₀ s) : Kept s₀ (s.placeBlock offset data).2 := kept_ite_2 h (kept_ite_2 h (kept_putPackage h))

theorem kept_declareDown {e} (h : Kept s₀ s) : Kept s₀ (s.declareDown e) := kept_ite h (kept_ite (kept_emit (kept_setGate h)) (kept_setGate h))

/-! ### ScratchOps -/

theorem kept_keyRowFail {j row} (h : Kept s₀ s) : Kept s₀ (s.keyRowFail j row) := by
  unfold State.keyRowFail
  split
  · exact kept_streamFail h
  · split
    · exact kept_keyOutcome h
    · exact kept_abortJob h

theorem kept_verifyFail {t row} (h : Kept s₀ s) : Kept s₀ (s.verifyFail t row) := by
  unfold State.verifyFail
  dsimp only
  split
  · exact kept_failLanded (kept_bump (kept_setTag h))
  · exact kept_ite (kept_keyRowFail (kept_failLanded (kept_bump (kept_setTag h)))) (by
      split
      · exact kept_failLop (kept_failLanded (kept_bump (kept_setTag h)))
      · exact kept_faultTile (kept_failLanded (kept_bump (kept_setTag h))))

theorem kept_verifyRow {t row pass} (h : Kept s₀ s) : Kept s₀ (s.verifyRow t row pass) :=
  kept_ite (kept_ite (kept_settleLanded (kept_feedTile (kept_setTag (kept_updTile h)))) (kept_verifyFail (kept_updTile h))) h

theorem kept_scrubAdvance {t row} (h : Kept s₀ s) : Kept s₀ (s.scrubAdvance t row) :=
  kept_updTile (kept_ite (kept_setEntry (kept_bump h)) (kept_bump h))

theorem kept_scrub {t ecc} (h : Kept s₀ s) : Kept s₀ (s.scrub t ecc) := by
  unfold State.scrub
  split
  · exact h
  · split
    · exact kept_scrubAdvance h
    · exact kept_rowEcc (kept_scrubAdvance h)
    · exact kept_bump (kept_correctedRow (kept_scrubAdvance h))
    · exact kept_raise (kept_bump (kept_uncorrectableRow (kept_scrubAdvance h)))

/-! ### Slots -/

theorem kept_startLoop {t e} (h : Kept s₀ s) : Kept s₀ (s.startLoop t e) := kept_updTile h

theorem kept_landStore {t row} (h : Kept s₀ s) : Kept s₀ (s.landStore t row) := by
  unfold State.landStore
  split
  · exact h
  · exact kept_readEngines (kept_updTile (kept_setTag (kept_writeRow h)))

/-! ### Tick -/

theorem kept_slewStep (h : Kept s₀ s) : Kept s₀ s.slewStep := kept_ite h h

theorem kept_idleTick (h : Kept s₀ s) : Kept s₀ s.idleTick := kept_drainBehind (kept_sendReplay (kept_restartTick (kept_slewStep h)))

end Operations

end Sys2Proof.Proofs
end

section
/-! PROOFS. What a command or a step leaves alone: the queue, the grade and the enabled tiles (R3), and the canonical form of memory.
One lemma for each command, by the lemma of the operation that it performs. -/

namespace Sys2Proof.Proofs

open Sys2Proof.Machine

/-- Every next state of an outcome keeps what `Kept` names. -/
def KeptBy (s₀ : State) (o : Host.Outcome State Fault Refusal) : Prop := ∀ t, o = .next t → Kept s₀ t

section Commands

variable {s₀ s : State}

theorem keptBy_next (h : Kept s₀ s) : KeptBy s₀ (.next s) := by
  intro t ht
  cases ht
  exact h

theorem keptBy_onUnit {kind count n} {f : State → State} (h : Kept s₀ (f s)) : KeptBy s₀ (onUnit kind count n s f) := by
  intro t ht
  obtain ⟨-, rfl⟩ := Laws.onUnit_inv ht
  exact h

theorem keptBy_onTile {n} {f : State → State} (h : Kept s₀ (f s)) : KeptBy s₀ (onTile n s f) := keptBy_onUnit h

theorem keptBy_onJob {n} {f : State → State} (h : Kept s₀ (f s)) : KeptBy s₀ (onJob n s f) := keptBy_onUnit h

theorem keptBy_onPort {n} {f : State → State} (h : Kept s₀ (f s)) : KeptBy s₀ (onPort n s f) := keptBy_onUnit h

theorem keptBy_onStack {n} {f : State → State} (h : Kept s₀ (f s)) : KeptBy s₀ (onStack n s f) := keptBy_onUnit h

theorem keptBy_onStream {n} {f : State → State} (h : Kept s₀ (f s)) : KeptBy s₀ (onStream n s f) := keptBy_onUnit h

theorem keptBy_dictRequest {e seq ctx access} (h : Kept s₀ s) : KeptBy s₀ (execDictRequest e seq ctx access s) :=
  keptBy_next (kept_onNumbered h (fun _ h1 => by
    split
    · exact kept_serveHost h1
    · exact kept_serveField h1))

theorem keptBy_dictResponse {e seq items data} (h : Kept s₀ s) : KeptBy s₀ (execDictResponse e seq items data s) :=
  keptBy_next (kept_onMessage h (fun _ h1 => by
    dsimp only
    split
    · exact h1
    · exact kept_messageAnswered (kept_setGate h1)))

theorem keptBy_eventNotice {entry} (h : Kept s₀ s) : KeptBy s₀ (execEventNotice entry s) :=
  keptBy_next (kept_onMessage h (fun _ h1 => kept_ite (kept_sendReset h1) h1))

theorem keptBy_snapshotTrigger {target} (h : Kept s₀ s) : KeptBy s₀ (execSnapshotTrigger target s) :=
  keptBy_next (kept_onMessage h (fun _ h1 => kept_managementTrigger h1))

theorem keptBy_powerDomainCmd {seq mask on} (h : Kept s₀ s) : KeptBy s₀ (execPowerDomainCmd seq mask on s) :=
  keptBy_next (kept_ite h (kept_ite (kept_hear h) (kept_ite (kept_takeNumbered (kept_hear h) (fun _ h1 => h1)) (kept_powerDomains (kept_takeNumbered
    (kept_hear h) (fun _ h1 => h1))))))

theorem keptBy_resetCmd {seq kind cause} (h : Kept s₀ s) : KeptBy s₀ (execResetCmd seq kind cause s) :=
  keptBy_next (kept_onNumbered h (fun _ h1 => kept_resetCommand h1))

theorem keptBy_firmwareBlock {seq offset data} (h : Kept s₀ s) : KeptBy s₀ (execFirmwareBlock seq offset data s) :=
  keptBy_next (kept_ite h (kept_onNumbered h (fun _ h1 => kept_placeBlock h1)))

theorem keptBy_keepalive {e} (h : Kept s₀ s) : KeptBy s₀ (execKeepalive e s) := keptBy_next (kept_onMessage h (fun _ h1 => h1))

theorem keptBy_gateMessageDiscarded {e type length crcOk} (h : Kept s₀ s) : KeptBy s₀ (execGateMessageDiscarded e type length crcOk s) :=
  keptBy_next (kept_ite (kept_setGate h) h)

theorem keptBy_keepaliveSend {e} (h : Kept s₀ s) : KeptBy s₀ (execKeepaliveSend e s) := keptBy_next (kept_ite (kept_gateSend h) h)

theorem keptBy_gateResendTimeout {e seq} (h : Kept s₀ s) : KeptBy s₀ (execGateResendTimeout e seq s) :=
  keptBy_next (by
    dsimp only
    split
    · exact h
    · exact kept_ite h (kept_emit (kept_setGate h)))

theorem keptBy_gateMessageGivenUp {e seq} (h : Kept s₀ s) : KeptBy s₀ (execGateMessageGivenUp e seq s) :=
  keptBy_next (by
    dsimp only
    split
    · exact h
    · exact kept_ite h (kept_messageFailed (kept_declareDown (kept_setGate h))))

theorem keptBy_gateDown {e} (h : Kept s₀ s) : KeptBy s₀ (execGateDown e s) := keptBy_next (kept_ite (kept_declareDown h) h)

theorem keptBy_dictWrite {ctx offset size value} (h : Kept s₀ s) : KeptBy s₀ (execDictWrite ctx offset size value s) :=
  keptBy_next (kept_dictWrite h)

theorem keptBy_groupOpen {ctx} (h : Kept s₀ s) : KeptBy s₀ (execGroupOpen ctx s) := keptBy_next (kept_groupCommand h)

theorem keptBy_groupCommit {ctx} (h : Kept s₀ s) : KeptBy s₀ (execGroupCommit ctx s) := keptBy_next (kept_groupCommand h)

theorem keptBy_groupAbort {ctx} (h : Kept s₀ s) : KeptBy s₀ (execGroupAbort ctx s) := keptBy_next (kept_groupCommand h)

theorem keptBy_groupEpochTimeout {ctx} (h : Kept s₀ s) : KeptBy s₀ (execGroupEpochTimeout ctx s) :=
  keptBy_next (by
    split
    · exact h
    · exact kept_discardGroup h)

theorem keptBy_groupIdleTimeout {ctx} (h : Kept s₀ s) : KeptBy s₀ (execGroupIdleTimeout ctx s) := keptBy_next (kept_ite (kept_dropGroup h) h)

theorem keptBy_contextRelease {ctx} (h : Kept s₀ s) : KeptBy s₀ (execContextRelease ctx s) := keptBy_next (kept_ite h h)

theorem keptBy_transferIdleTimeout {ctx} (h : Kept s₀ s) : KeptBy s₀ (execTransferIdleTimeout ctx s) :=
  keptBy_next (kept_ite (kept_dropTransfer h) h)

theorem keptBy_persistRecordWrite (h : Kept s₀ s) : KeptBy s₀ (execPersistRecordWrite s) :=
  keptBy_next (by
    split
    · exact h
    · exact kept_ite h h)

theorem keptBy_startRead {ctx} (h : Kept s₀ s) : KeptBy s₀ (execStartRead ctx s) := keptBy_next (kept_transferCommand h)

theorem keptBy_startWrite {ctx} (h : Kept s₀ s) : KeptBy s₀ (execStartWrite ctx s) := keptBy_next (kept_transferCommand h)

theorem keptBy_commitSegment {ctx} (h : Kept s₀ s) : KeptBy s₀ (execCommitSegment ctx s) := keptBy_next (kept_transferCommand h)

theorem keptBy_segmentFinish {ctx} (h : Kept s₀ s) : KeptBy s₀ (execSegmentFinish ctx s) := keptBy_next (kept_transferCommand h)

theorem keptBy_segmentCancel {ctx} (h : Kept s₀ s) : KeptBy s₀ (execSegmentCancel ctx s) := keptBy_next (kept_transferCommand h)

theorem keptBy_restoreDefaults {ctx value} (h : Kept s₀ s) : KeptBy s₀ (execRestoreDefaults ctx value s) :=
  keptBy_next (kept_writeEntry h (fun _ h1 => kept_restoreOp h1))

theorem keptBy_setUnload {ctx id} (h : Kept s₀ s) : KeptBy s₀ (execSetUnload ctx id s) :=
  keptBy_next (kept_writeNoted h (fun _ h1 => kept_unloadSet h1) (fun _ h1 _ => kept_noteUnload h1))

theorem keptBy_dtpHello {port offered certificate ephemeral} (h : Kept s₀ s) : KeptBy s₀ (execDtpHello port offered certificate ephemeral s) :=
  keptBy_next (kept_ite h (kept_ite (kept_refuseHello h) (by
    split
    · exact kept_refuseHello h
    · exact kept_ite (kept_refuseHello h) (by
        split
        · exact kept_refuseHello h
        · exact kept_openSession h))))

theorem keptBy_dtpRead {session seq addrs} (h : Kept s₀ s) : KeptBy s₀ (execDtpRead session seq addrs s) :=
  keptBy_next (kept_onRequest h (fun _ h1 _ => kept_ite (kept_respondDtp h1) (kept_settleDtp (kept_runReads h1))))

theorem keptBy_dtpWrite {session seq pairs} (h : Kept s₀ s) : KeptBy s₀ (execDtpWrite session seq pairs s) :=
  keptBy_next (kept_onRequest h (fun _ h1 _ => kept_ite (kept_respondDtp h1) (kept_settleDtp (kept_runWrites h1))))

theorem keptBy_dtpSegmentRead {session seq addr offset length} (h : Kept s₀ s) : KeptBy s₀ (execDtpSegmentRead session seq addr offset length s) :=
  keptBy_next (kept_onRequest h (fun _ h1 _ => kept_ite (kept_respondDtp (kept_record h1)) (kept_segmentRequest h1 (fun _ h2 => kept_segmentRead
    h2))))

theorem keptBy_dtpSegmentWrite {session seq addr offset data last} (h : Kept s₀ s) : KeptBy s₀ (execDtpSegmentWrite session seq addr offset data last
  s) :=
  keptBy_next (kept_onRequest h (fun _ h1 _ => kept_ite (kept_respondDtp (kept_record h1)) (kept_segmentRequest h1 (fun _ h2 => kept_segmentWrite
    h2))))

theorem keptBy_dtpClose {session seq} (h : Kept s₀ s) : KeptBy s₀ (execDtpClose session seq s) :=
  keptBy_next (kept_ite h (by
    split
    · exact kept_dropDatagram h
    · exact kept_ite (kept_dropDatagram h) (kept_closeSession h)))

theorem keptBy_dtpDatagramRejected {session seq authentic} (h : Kept s₀ s) : KeptBy s₀ (execDtpDatagramRejected session seq authentic s) :=
  keptBy_next (kept_ite h (kept_ite (kept_dropDatagram h) (by
    split
    · exact kept_dropDatagram h
    · exact kept_ite (kept_dropDatagram h) h)))

theorem keptBy_dtpSessionIdleTimeout {session} (h : Kept s₀ s) : KeptBy s₀ (execDtpSessionIdleTimeout session s) :=
  keptBy_next (by
    split
    · exact h
    · exact kept_ite (kept_closeSession h) h)

theorem keptBy_jobLoad {ctx job} (h : Kept s₀ s) : KeptBy s₀ (execJobLoad ctx job s) := keptBy_next (kept_jobCommand h)

theorem keptBy_admissionCheck (h : Kept s₀ s) : KeptBy s₀ (execAdmissionCheck s) := keptBy_next (kept_ite (kept_admissionCheck h) h)

theorem keptBy_jobStart {ctx job} (h : Kept s₀ s) : KeptBy s₀ (execJobStart ctx job s) := keptBy_next (kept_jobCommand h)

theorem keptBy_descriptorBind {job} (h : Kept s₀ s) : KeptBy s₀ (execDescriptorBind job s) :=
  keptBy_onJob (by
    split
    · exact kept_ite (kept_bindFrom h) h
    · exact h)

theorem keptBy_jobAbort {ctx job} (h : Kept s₀ s) : KeptBy s₀ (execJobAbort ctx job s) := keptBy_next (kept_jobCommand h)

theorem keptBy_jobAbortCleanup {job} (h : Kept s₀ s) : KeptBy s₀ (execJobAbortCleanup job s) := keptBy_onJob (kept_abortCleanup h)

theorem keptBy_jobRelease {ctx job} (h : Kept s₀ s) : KeptBy s₀ (execJobRelease ctx job s) := keptBy_next (kept_jobCommand h)

theorem keptBy_jobRearm {ctx job} (h : Kept s₀ s) : KeptBy s₀ (execJobRearm ctx job s) := keptBy_next (kept_jobCommand h)

theorem keptBy_jobCommit {job} (h : Kept s₀ s) : KeptBy s₀ (execJobCommit job s) := by
  unfold execJobCommit
  refine keptBy_onJob ?_
  dsimp only
  split
  · exact kept_ite (kept_commit h) h
  · exact h

theorem keptBy_descriptorValidWrite {job handle} (h : Kept s₀ s) : KeptBy s₀ (execDescriptorValidWrite job handle s) := by
  unfold execDescriptorValidWrite
  refine keptBy_onJob ?_
  dsimp only
  split
  · exact kept_ite (kept_validWrite h) h
  · exact h

theorem keptBy_completionSignal {job} (h : Kept s₀ s) : KeptBy s₀ (execCompletionSignal job s) := by
  unfold execCompletionSignal
  refine keptBy_onJob ?_
  dsimp only
  split
  · exact kept_ite (kept_endCommit h) h
  · exact h

theorem keptBy_jobStopComplete {job} (h : Kept s₀ s) : KeptBy s₀ (execJobStopComplete job s) := by
  unfold execJobStopComplete
  refine keptBy_onJob ?_
  dsimp only
  split
  · exact kept_ite (kept_stopJob h) h
  · exact h

theorem keptBy_stopSettleTimeout {job} (h : Kept s₀ s) : KeptBy s₀ (execStopSettleTimeout job s) := by
  unfold execStopSettleTimeout
  refine keptBy_onJob ?_
  dsimp only
  split
  · exact kept_ite (kept_stopJob h) h
  · exact h

theorem keptBy_cnop {t} (h : Kept s₀ s) : KeptBy s₀ (execCnop t s) := keptBy_onTile (kept_closeBundle h (fun _ h1 => h1))

theorem keptBy_loop {t index} (h : Kept s₀ s) : KeptBy s₀ (execLoop t index s) :=
  keptBy_onTile (by
    split
    · exact kept_closeBundle h (fun _ h1 => kept_startLoop h1)
    · exact h)

theorem keptBy_waitr {t row count anyAccess} (h : Kept s₀ s) : KeptBy s₀ (execWaitr t row count anyAccess s) :=
  keptBy_onTile (kept_closeBundle h (fun _ h1 => h1))

theorem keptBy_waitall {t} (h : Kept s₀ s) : KeptBy s₀ (execWaitall t s) := keptBy_onTile (kept_closeBundle h (fun _ h1 => h1))

theorem keptBy_bar {t barrier} (h : Kept s₀ s) : KeptBy s₀ (execBar t barrier s) :=
  keptBy_onTile (kept_closeBundle h (fun _ h1 => kept_updTile (kept_startWait h1)))

theorem keptBy_halt {t} (h : Kept s₀ s) : KeptBy s₀ (execHalt t s) := keptBy_onTile (kept_closeBundle h (fun _ h1 => kept_updTile h1))

theorem keptBy_wnop {t} (h : Kept s₀ s) : KeptBy s₀ (execWnop t s) := keptBy_onTile (kept_slot h)

theorem keptBy_vadd {t vd va vb qm} (h : Kept s₀ s) : KeptBy s₀ (execVadd t vd va vb qm s) := keptBy_onTile (kept_slot h)

theorem keptBy_vsub {t vd va vb qm} (h : Kept s₀ s) : KeptBy s₀ (execVsub t vd va vb qm s) := keptBy_onTile (kept_slot h)

theorem keptBy_vneg {t vd va qm} (h : Kept s₀ s) : KeptBy s₀ (execVneg t vd va qm s) := keptBy_onTile (kept_slot h)

theorem keptBy_vred {t vd va qm} (h : Kept s₀ s) : KeptBy s₀ (execVred t vd va qm s) := keptBy_onTile (kept_slot h)

theorem keptBy_vaddk {t vd va sk qm} (h : Kept s₀ s) : KeptBy s₀ (execVaddk t vd va sk qm s) := keptBy_onTile (kept_slot h)

theorem keptBy_vmul {t vd va vb qm} (h : Kept s₀ s) : KeptBy s₀ (execVmul t vd va vb qm s) := keptBy_onTile (kept_slot h)

theorem keptBy_vmulk {t vd va sk qm} (h : Kept s₀ s) : KeptBy s₀ (execVmulk t vd va sk qm s) := keptBy_onTile (kept_slot h)

theorem keptBy_vmad {t vd va vb vc qm} (h : Kept s₀ s) : KeptBy s₀ (execVmad t vd va vb vc qm s) := keptBy_onTile (kept_slot h)

theorem keptBy_vmsb {t vd va vb vc qm} (h : Kept s₀ s) : KeptBy s₀ (execVmsb t vd va vb vc qm s) := keptBy_onTile (kept_slot h)

theorem keptBy_wResultWrite {t vd} (h : Kept s₀ s) : KeptBy s₀ (execWResultWrite t vd s) := keptBy_onTile (kept_updTile h)

theorem keptBy_mnop {t} (h : Kept s₀ s) : KeptBy s₀ (execMnop t s) := keptBy_onTile (kept_slot h)

theorem keptBy_mld {t v sb row consume ecc} (h : Kept s₀ s) : KeptBy s₀ (execMld t v sb row consume ecc s) := keptBy_onTile (kept_slot h)

theorem keptBy_mst {t v sb row waitEmpty} (h : Kept s₀ s) : KeptBy s₀ (execMst t v sb row waitEmpty s) := keptBy_onTile (kept_slot h)

theorem keptBy_mstWriteLand {t row} (h : Kept s₀ s) : KeptBy s₀ (execMstWriteLand t row s) := keptBy_onTile (kept_landStore h)

theorem keptBy_mrel {t sb row} (h : Kept s₀ s) : KeptBy s₀ (execMrel t sb row s) := keptBy_onTile (kept_slot h)

theorem keptBy_xnop {t} (h : Kept s₀ s) : KeptBy s₀ (execXnop t s) := keptBy_onTile (kept_slot h)

theorem keptBy_xli {t sd imm} (h : Kept s₀ s) : KeptBy s₀ (execXli t sd imm s) := keptBy_onTile (kept_slot h)

theorem keptBy_xlui {t sd imm} (h : Kept s₀ s) : KeptBy s₀ (execXlui t sd imm s) := keptBy_onTile (kept_slot h)

theorem keptBy_xaddi {t sd sa imm} (h : Kept s₀ s) : KeptBy s₀ (execXaddi t sd sa imm s) := keptBy_onTile (kept_slot h)

theorem keptBy_xadd {t sd sa sb} (h : Kept s₀ s) : KeptBy s₀ (execXadd t sd sa sb s) := keptBy_onTile (kept_slot h)

theorem keptBy_xsub {t sd sa sb} (h : Kept s₀ s) : KeptBy s₀ (execXsub t sd sa sb s) := keptBy_onTile (kept_slot h)

theorem keptBy_xmul {t sd sa sb} (h : Kept s₀ s) : KeptBy s₀ (execXmul t sd sa sb s) := keptBy_onTile (kept_slot h)

theorem keptBy_xand {t sd sa sb} (h : Kept s₀ s) : KeptBy s₀ (execXand t sd sa sb s) := keptBy_onTile (kept_slot h)

theorem keptBy_xor {t sd sa sb} (h : Kept s₀ s) : KeptBy s₀ (execXor t sd sa sb s) := keptBy_onTile (kept_slot h)

theorem keptBy_xxor {t sd sa sb} (h : Kept s₀ s) : KeptBy s₀ (execXxor t sd sa sb s) := keptBy_onTile (kept_slot h)

theorem keptBy_xshl {t sd sa imm} (h : Kept s₀ s) : KeptBy s₀ (execXshl t sd sa imm s) := keptBy_onTile (kept_slot h)

theorem keptBy_xshr {t sd sa imm} (h : Kept s₀ s) : KeptBy s₀ (execXshr t sd sa imm s) := keptBy_onTile (kept_slot h)

theorem keptBy_xidx {t sd level} (h : Kept s₀ s) : KeptBy s₀ (execXidx t sd level s) :=
  keptBy_onTile (by
    split
    · exact kept_slot h
    · exact h)

theorem keptBy_xldn {t sd sa imm ecc} (h : Kept s₀ s) : KeptBy s₀ (execXldn t sd sa imm ecc s) := keptBy_onTile (kept_slot h)

theorem keptBy_xstn {t sd sa imm ecc} (h : Kept s₀ s) : KeptBy s₀ (execXstn t sd sa imm ecc s) := keptBy_onTile (kept_slot h)

theorem keptBy_qload {t qd setId limb} (h : Kept s₀ s) : KeptBy s₀ (execQload t qd setId limb s) :=
  keptBy_onTile (by
    split
    · exact kept_ite (kept_slot h) h
    · exact h)

theorem keptBy_icacheLineFill {t line} (h : Kept s₀ s) : KeptBy s₀ (execIcacheLineFill t line s) := keptBy_onTile (kept_ite (kept_updTile h) h)

theorem keptBy_eccFreezeEnd {t} (h : Kept s₀ s) : KeptBy s₀ (execEccFreezeEnd t s) := keptBy_onTile (kept_ite (kept_updTile (kept_stall h)) h)

theorem keptBy_ntt {t index sa} (h : Kept s₀ s) : KeptBy s₀ (execNtt t index sa s) :=
  keptBy_onTile (kept_issueLop h (fun _ _ _ _ h1 => kept_enqueueLop h1))

theorem keptBy_automorph {t index sa} (h : Kept s₀ s) : KeptBy s₀ (execAutomorph t index sa s) :=
  keptBy_onTile (kept_issueLop h (fun _ _ _ _ h1 => kept_enqueueLop h1))

theorem keptBy_transpose {t index sa} (h : Kept s₀ s) : KeptBy s₀ (execTranspose t index sa s) :=
  keptBy_onTile (kept_issueLop h (fun _ _ _ _ h1 => kept_enqueueLop h1))

theorem keptBy_bconv {t index sa} (h : Kept s₀ s) : KeptBy s₀ (execBconv t index sa s) :=
  keptBy_onTile (kept_issueLop h (fun _ _ _ _ h1 => kept_enqueueLop h1))

theorem keptBy_rescale {t index sa} (h : Kept s₀ s) : KeptBy s₀ (execRescale t index sa s) :=
  keptBy_onTile (kept_issueLop h (fun _ _ _ _ h1 => kept_enqueueGroup h1 (fun _ h2 => h2)))

theorem keptBy_ksip {t index sa} (h : Kept s₀ s) : KeptBy s₀ (execKsip t index sa s) :=
  keptBy_onTile (kept_issueLop h (fun _ _ _ _ h1 => kept_enqueueGroup h1 (fun _ h2 => kept_residentCheck h2)))

theorem keptBy_moddown {t index sa} (h : Kept s₀ s) : KeptBy s₀ (execModdown t index sa s) :=
  keptBy_onTile (kept_issueLop h (fun _ _ _ _ h1 => kept_enqueueGroup h1 (fun _ h2 => h2)))

theorem keptBy_ledger {t index sa} (h : Kept s₀ s) : KeptBy s₀ (execLedger t index sa s) :=
  keptBy_onTile (kept_issueLop h (fun _ _ _ _ h1 => kept_ledgerStep (kept_updTile h1)))

theorem keptBy_xferIn {t index sa} (h : Kept s₀ s) : KeptBy s₀ (execXferIn t index sa s) :=
  keptBy_onTile (kept_issueLop h (fun _ _ _ _ h1 => kept_enqueueLop h1))

theorem keptBy_xferOut {t index sa} (h : Kept s₀ s) : KeptBy s₀ (execXferOut t index sa s) :=
  keptBy_onTile (kept_issueLop h (fun _ _ _ _ h1 => kept_enqueueLop h1))

theorem keptBy_keystreamOpen {t index sa} (h : Kept s₀ s) : KeptBy s₀ (execKeystreamOpen t index sa s) :=
  keptBy_onTile (kept_issueLop h (fun _ _ _ _ h1 => kept_openStream h1))

theorem keptBy_batchBootstrap {t index sa} (h : Kept s₀ s) : KeptBy s₀ (execBatchBootstrap t index sa s) :=
  keptBy_onTile (kept_issueLop h (fun _ _ _ _ h1 => kept_ite (kept_enqueueGroup (kept_ite (kept_updJob h1) h1) (fun _ h2 => h2)) (kept_enqueueGroup h1
    (fun _ h2 => kept_residentCheck h2))))

theorem keptBy_extract {t index sa} (h : Kept s₀ s) : KeptBy s₀ (execExtract t index sa s) :=
  keptBy_onTile (kept_issueLop h (fun _ _ _ _ h1 => kept_enqueueGroup h1 (fun _ h2 => kept_residentCheck h2)))

theorem keptBy_pack {t index sa} (h : Kept s₀ s) : KeptBy s₀ (execPack t index sa s) :=
  keptBy_onTile (kept_issueLop h (fun _ _ _ _ h1 => kept_enqueueGroup h1 (fun _ h2 => kept_residentCheck h2)))

theorem keptBy_modraise {t index sa} (h : Kept s₀ s) : KeptBy s₀ (execModraise t index sa s) :=
  keptBy_onTile (kept_issueLop h (fun _ _ _ _ h1 => kept_enqueueGroup h1 (fun _ h2 => h2)))

theorem keptBy_lopSignal {t index sa} (h : Kept s₀ s) : KeptBy s₀ (execLopSignal t index sa s) :=
  keptBy_onTile (kept_issueLop h (fun _ _ _ _ h1 => kept_enqueueLop h1))

theorem keptBy_lopFence {t index sa} (h : Kept s₀ s) : KeptBy s₀ (execLopFence t index sa s) :=
  keptBy_onTile (kept_issueLop h (fun _ _ _ _ h1 => kept_enqueueLop h1))

theorem keptBy_longOpDispatch {t engine} (h : Kept s₀ s) : KeptBy s₀ (execLongOpDispatch t engine s) := keptBy_onTile (kept_dispatch h)

theorem keptBy_longOpFinish {t opId ecc} (h : Kept s₀ s) : KeptBy s₀ (execLongOpFinish t opId ecc s) := keptBy_onTile (kept_finishLop h)

theorem keptBy_constantLineFill {t line} (h : Kept s₀ s) : KeptBy s₀ (execConstantLineFill t line s) :=
  keptBy_onTile (kept_ite (kept_updTile h) h)

theorem keptBy_fetchRowWrite {t opId data ecc} (h : Kept s₀ s) : KeptBy s₀ (execFetchRowWrite t opId data ecc s) :=
  keptBy_onTile (kept_fetchRow h)

theorem keptBy_xferVerifyMatch {t opId} (h : Kept s₀ s) : KeptBy s₀ (execXferVerifyMatch t opId s) := keptBy_onTile (kept_verifyMatch h)

theorem keptBy_signalCompletion {t opId status} (h : Kept s₀ s) : KeptBy s₀ (execSignalCompletion t opId status s) :=
  keptBy_onTile (kept_signalDone h)

theorem keptBy_waitTimeout {t unit row} (h : Kept s₀ s) : KeptBy s₀ (execWaitTimeout t unit row s) := keptBy_onTile (kept_waitTimeout h)

theorem keptBy_barrierArrive {t} (h : Kept s₀ s) : KeptBy s₀ (execBarrierArrive t s) := keptBy_onTile (kept_arrive h)

theorem keptBy_barrierRelease {job} (h : Kept s₀ s) : KeptBy s₀ (execBarrierRelease job s) :=
  keptBy_onJob (by
    split
    · exact h
    · exact kept_ite (kept_releaseBarrier h) h)

theorem keptBy_barrierTimeout {barrier} (h : Kept s₀ s) : KeptBy s₀ (execBarrierTimeout barrier s) := keptBy_onUnit (kept_barrierTimeout h)

theorem keptBy_convStart {ctx} (h : Kept s₀ s) : KeptBy s₀ (execConvStart ctx s) :=
  keptBy_next (kept_writeEntry h (fun _ h1 => kept_convStartOp h1))

theorem keptBy_convCancel {ctx} (h : Kept s₀ s) : KeptBy s₀ (execConvCancel ctx s) :=
  keptBy_next (kept_writeEntry h (fun _ h1 => kept_convCancelOp h1))

theorem keptBy_convComplete {status remote} (h : Kept s₀ s) : KeptBy s₀ (execConvComplete status remote s) :=
  keptBy_next (by
    split
    · exact h
    · exact kept_ite h (kept_convAdvance h))

theorem keptBy_streamSlotBind (h : Kept s₀ s) : KeptBy s₀ (execStreamSlotBind s) := keptBy_next (kept_slotBind h)

theorem keptBy_rateWindow (h : Kept s₀ s) : KeptBy s₀ (execRateWindow s) :=
  keptBy_next (kept_ite (kept_foldl (fun _ _ h1 => kept_nextWindows h1) h) h)

theorem keptBy_keyHeaderCheck {slot granule} (h : Kept s₀ s) : KeptBy s₀ (execKeyHeaderCheck slot granule s) :=
  keptBy_onStream (kept_checkHeader h)

theorem keptBy_keyRowWrite {slot data} (h : Kept s₀ s) : KeptBy s₀ (execKeyRowWrite slot data s) := keptBy_onStream (kept_writeStored h)

theorem keptBy_uniformRowWrite {slot t} (h : Kept s₀ s) : KeptBy s₀ (execUniformRowWrite slot t s) := keptBy_onStream (kept_writeUniform h)

theorem keptBy_keyTrailerCheck {slot trailer} (h : Kept s₀ s) : KeptBy s₀ (execKeyTrailerCheck slot trailer s) :=
  keptBy_onStream (kept_checkTrailer h)

theorem keptBy_streamReadFail {slot error} (h : Kept s₀ s) : KeptBy s₀ (execStreamReadFail slot error s) :=
  keptBy_onStream (kept_ite (kept_streamFail h) h)

theorem keptBy_mcastWindowSend {slot} (h : Kept s₀ s) : KeptBy s₀ (execMcastWindowSend slot s) := keptBy_onStream (kept_sendWindow h)

theorem keptBy_mcastCreditTimeout {slot} (h : Kept s₀ s) : KeptBy s₀ (execMcastCreditTimeout slot s) := keptBy_onStream (kept_mcastTimeout h)

theorem keptBy_mcastIdleTimeout {slot} (h : Kept s₀ s) : KeptBy s₀ (execMcastIdleTimeout slot s) := keptBy_onStream (kept_mcastTimeout h)

theorem keptBy_narrowRead {ctx ecc} (h : Kept s₀ s) : KeptBy s₀ (execNarrowRead ctx ecc s) :=
  keptBy_next (kept_answerRead h (fun _ h1 => by
    split
    · exact h1
    · exact kept_narrowReadOp h1))

theorem keptBy_narrowWrite {ctx value ecc} (h : Kept s₀ s) : KeptBy s₀ (execNarrowWrite ctx value ecc s) :=
  keptBy_next (kept_writeEntry h (fun _ h1 => kept_narrowWriteOp h1))

theorem keptBy_rowTagClear {ctx value} (h : Kept s₀ s) : KeptBy s₀ (execRowTagClear ctx value s) :=
  keptBy_next (kept_writeEntry h (fun _ h1 => kept_rowTagClearOp h1))

theorem keptBy_rowVerifyRead {t row pass} (h : Kept s₀ s) : KeptBy s₀ (execRowVerifyRead t row pass s) := keptBy_onTile (kept_verifyRow h)

theorem keptBy_rowEccWriteBack {t row word} (h : Kept s₀ s) : KeptBy s₀ (execRowEccWriteBack t row word s) := keptBy_onTile (kept_updTile h)

theorem keptBy_scrubRowRead {t ecc} (h : Kept s₀ s) : KeptBy s₀ (execScrubRowRead t ecc s) := keptBy_onTile (kept_scrub h)

theorem keptBy_windowPutLand {t} (h : Kept s₀ s) : KeptBy s₀ (execWindowPutLand t s) :=
  keptBy_onTile (by
    split
    · exact h
    · exact kept_landPut (kept_updTile h))

theorem keptBy_windowGetServe {t ecc} (h : Kept s₀ s) : KeptBy s₀ (execWindowGetServe t ecc s) :=
  keptBy_onTile (by
    split
    · exact h
    · exact kept_serveGet (kept_updTile h))

theorem keptBy_memRequest {controller req} (h : Kept s₀ s) : KeptBy s₀ (execMemRequest controller req s) := keptBy_onStack (kept_memRequest h)

theorem keptBy_bankService {controller channel bank ecc} (h : Kept s₀ s) : KeptBy s₀ (execBankService controller channel bank ecc s) :=
  keptBy_onStack (kept_serveBank h)

theorem keptBy_bankRefresh {controller channel bank} (h : Kept s₀ s) : KeptBy s₀ (execBankRefresh controller channel bank s) :=
  keptBy_onStack (kept_setSorter h)

theorem keptBy_stackEccWriteBack (h : Kept s₀ s) : KeptBy s₀ (execStackEccWriteBack s) :=
  keptBy_next (by
    split
    · exact h
    · exact kept_countWrite h)

theorem keptBy_poisonRetire (h : Kept s₀ s) : KeptBy s₀ (execPoisonRetire s) := keptBy_next (kept_retirePoison h)

theorem keptBy_poisonClear {ctx value} (h : Kept s₀ s) : KeptBy s₀ (execPoisonClear ctx value s) :=
  keptBy_next (kept_writeNoted h (fun _ h1 => kept_poisonClearOp h1) (fun _ h1 _ => kept_notePoisonClear h1))

theorem keptBy_poisonClearWalkEnd (h : Kept s₀ s) : KeptBy s₀ (execPoisonClearWalkEnd s) := keptBy_next (kept_endClear h)

theorem keptBy_patrolScrub {stack channel ecc} (h : Kept s₀ s) : KeptBy s₀ (execPatrolScrub stack channel ecc s) :=
  keptBy_onStack (kept_patrol h)

theorem keptBy_selfRefreshEntry {stack} (h : Kept s₀ s) : KeptBy s₀ (execSelfRefreshEntry stack s) :=
  keptBy_onStack (kept_ite (kept_setEntry h) h)

theorem keptBy_stackModeWrite {ctx value} (h : Kept s₀ s) : KeptBy s₀ (execStackModeWrite ctx value s) :=
  keptBy_next (kept_writeEntry h (fun _ h1 => kept_applyEntry h1))

theorem keptBy_bar2Read {offset length secure ecc} (h : Kept s₀ s) : KeptBy s₀ (execBar2Read offset length secure ecc s) :=
  keptBy_next (kept_ite (kept_bar2Read h) h)

theorem keptBy_bar2Write {offset data secure} (h : Kept s₀ s) : KeptBy s₀ (execBar2Write offset data secure s) :=
  keptBy_next (kept_ite (kept_bar2Write h) h)

theorem keptBy_trainExchange {port node versions timeParent} (h : Kept s₀ s) : KeptBy s₀ (execTrainExchange port node versions timeParent s) :=
  keptBy_onPort (kept_train h)

theorem keptBy_portRetrain {port} (h : Kept s₀ s) : KeptBy s₀ (execPortRetrain port s) := keptBy_onPort (kept_ite (kept_startTraining h) h)

theorem keptBy_frameReceive {port lane linkSeq linkOk frame} (h : Kept s₀ s) : KeptBy s₀ (execFrameReceive port lane linkSeq linkOk frame s) :=
  keptBy_onPort (kept_receive h)

theorem keptBy_frameAck {port lane linkSeq} (h : Kept s₀ s) : KeptBy s₀ (execFrameAck port lane linkSeq s) :=
  keptBy_onPort (kept_ite (kept_setLane h) h)

theorem keptBy_frameRetransmit {port lane} (h : Kept s₀ s) : KeptBy s₀ (execFrameRetransmit port lane s) := keptBy_onPort (kept_retransmit h)

theorem keptBy_frameForward {port frame} (h : Kept s₀ s) : KeptBy s₀ (execFrameForward port frame s) :=
  keptBy_onPort (kept_ite h (kept_forward h))

theorem keptBy_fabricPut {frame} (h : Kept s₀ s) : KeptBy s₀ (execFabricPut frame s) :=
  keptBy_next (kept_takeOp h (fun _ h1 => kept_performPut h1))

theorem keptBy_fabricGet {frame ecc} (h : Kept s₀ s) : KeptBy s₀ (execFabricGet frame ecc s) :=
  keptBy_next (kept_takeOp h (fun _ h1 => kept_performGet h1))

theorem keptBy_addmod {frame ecc} (h : Kept s₀ s) : KeptBy s₀ (execAddmod frame ecc s) :=
  keptBy_next (kept_takeOp h (fun _ h1 => kept_performAddmod h1))

theorem keptBy_fetchadd {frame ecc} (h : Kept s₀ s) : KeptBy s₀ (execFetchadd frame ecc s) :=
  keptBy_next (kept_takeOp h (fun _ h1 => kept_performFetchadd h1))

theorem keptBy_fabricSignal {frame} (h : Kept s₀ s) : KeptBy s₀ (execFabricSignal frame s) :=
  keptBy_next (kept_takeOp h (fun _ h1 => kept_performSignal h1))

theorem keptBy_signalPerform {source lane} (h : Kept s₀ s) : KeptBy s₀ (execSignalPerform source lane s) :=
  keptBy_next (by
    split
    · exact h
    · exact kept_signalAdd h)

theorem keptBy_mcastPut {port frame} (h : Kept s₀ s) : KeptBy s₀ (execMcastPut port frame s) := keptBy_onPort (kept_takeMcast h)

theorem keptBy_fabricCompletion {frame} (h : Kept s₀ s) : KeptBy s₀ (execFabricCompletion frame s) :=
  keptBy_next (kept_ite h (by
    split
    · exact kept_mcastCopyDone h
    · exact kept_ite (kept_completeOwn h) h))

theorem keptBy_completionTimeout {tag} (h : Kept s₀ s) : KeptBy s₀ (execCompletionTimeout tag s) :=
  keptBy_next (by
    split
    · exact h
    · exact kept_ite h (kept_ite (kept_hostOpTimeout h) (kept_endOp h)))

theorem keptBy_issuerFence {issuer} (h : Kept s₀ s) : KeptBy s₀ (execIssuerFence issuer s) :=
  keptBy_next (kept_ite h (by
    split
    · exact h
    · exact kept_updTile h))

theorem keptBy_arriveFrame {barrier epoch child} (h : Kept s₀ s) : KeptBy s₀ (execArriveFrame barrier epoch child s) :=
  keptBy_onUnit (by
    split
    · exact kept_bump h
    · exact kept_ite (kept_bump h) (kept_reportArrival (kept_ite h (kept_setBarrier h))))

theorem keptBy_releaseFrame {barrier epoch} (h : Kept s₀ s) : KeptBy s₀ (execReleaseFrame barrier epoch s) :=
  keptBy_onUnit (by
    split
    · exact kept_bump h
    · exact kept_ite (kept_bump h) (kept_ite (kept_releaseBarrier h) h))

theorem keptBy_snapFrame {port source ident target} (h : Kept s₀ s) : KeptBy s₀ (execSnapFrame port source ident target s) :=
  keptBy_onPort (kept_ite h (kept_ite (kept_addTimed (kept_sendSnap h)) (kept_ite (kept_bump (kept_sendSnap h)) (kept_sendSnap h))))

theorem keptBy_timeIdle {port time delay} (h : Kept s₀ s) : KeptBy s₀ (execTimeIdle port time delay s) :=
  keptBy_onPort (kept_ite (kept_takeIdle h) h)

theorem keptBy_timeLockLost (h : Kept s₀ s) : KeptBy s₀ (execTimeLockLost s) := keptBy_next (kept_ite (kept_setEntry h) h)

theorem keptBy_portEnableWrite {ctx value} (h : Kept s₀ s) : KeptBy s₀ (execPortEnableWrite ctx value s) :=
  keptBy_next (kept_writeEntry h (fun _ h1 => kept_applyEntry h1))

theorem keptBy_perstAssert (h : Kept s₀ s) : KeptBy s₀ (execPerstAssert s) :=
  keptBy_next (kept_ite h (kept_ite (kept_functionReset h) (kept_requestRestart (kept_emit (kept_with_hostLink (kept_linkAway (kept_functionReset
    h)))))))

theorem keptBy_perstRelease (h : Kept s₀ s) : KeptBy s₀ (execPerstRelease s) := keptBy_next (kept_reportReady h)

theorem keptBy_hotReset (h : Kept s₀ s) : KeptBy s₀ (execHotReset s) := keptBy_next (kept_ite (kept_linkAway (kept_functionReset h)) h)

theorem keptBy_functionLevelReset (h : Kept s₀ s) : KeptBy s₀ (execFunctionLevelReset s) := keptBy_next (kept_ite (kept_functionReset h) h)

theorem keptBy_configAccess {op} (h : Kept s₀ s) : KeptBy s₀ (execConfigAccess op s) :=
  keptBy_next (kept_ite h (kept_ite (kept_emit h) (kept_config h)))

theorem keptBy_hostPutAck {tag} (h : Kept s₀ s) : KeptBy s₀ (execHostPutAck tag s) :=
  keptBy_next (by
    split
    · exact kept_ite (kept_endOp (kept_leaveTx h)) h
    · exact h)

theorem keptBy_hostCompletion {tag part status data} (h : Kept s₀ s) : KeptBy s₀ (execHostCompletion tag part status data s) :=
  keptBy_next (kept_ite (kept_bump (kept_freeHostTag (kept_ite (kept_logAer h) h))) (kept_ite (kept_logAer (kept_ite (kept_logAer h) h)) (by
    split
    · exact kept_ite (kept_hostCompleted (kept_ite (kept_logAer h) h)) (kept_ite (kept_logAer h) h)
    · exact kept_freeHostTag (kept_ite (kept_logAer h) h))))

theorem keptBy_pcieCompletionTimeout {tag part} (h : Kept s₀ s) : KeptBy s₀ (execPcieCompletionTimeout tag part s) :=
  keptBy_next (kept_ite (kept_freeHostTag (kept_logAer h)) h)

theorem keptBy_interruptHoldoffEnd {vector} (h : Kept s₀ s) : KeptBy s₀ (execInterruptHoldoffEnd vector s) :=
  keptBy_next (kept_ite (kept_sendVector h) h)

theorem keptBy_ideCheckFailed {selective} (h : Kept s₀ s) : KeptBy s₀ (execIdeCheckFailed selective s) :=
  keptBy_next (kept_ite h (kept_raise (kept_bump (kept_noteIde h))))

theorem keptBy_doeDiscovery {index} (h : Kept s₀ s) : KeptBy s₀ (execDoeDiscovery index s) :=
  keptBy_next (kept_doe h (fun _ h1 => kept_ite (kept_respond h1) (kept_respond h1)))

theorem keptBy_getVersion (h : Kept s₀ s) : KeptBy s₀ (execGetVersion s) := keptBy_next (kept_doe h (fun _ h1 => kept_respond h1))

theorem keptBy_getCapabilities (h : Kept s₀ s) : KeptBy s₀ (execGetCapabilities s) :=
  keptBy_next (kept_doe h (fun _ h1 => kept_ite (kept_respond (kept_transcribe h1)) (kept_unexpected h1)))

theorem keptBy_negotiateAlgorithms {p384 sha384 secp384r1 aes256gcm} (h : Kept s₀ s) : KeptBy s₀ (execNegotiateAlgorithms p384 sha384 secp384r1
  aes256gcm s) :=
  keptBy_next (kept_doe h (fun _ h1 => kept_ite (kept_unexpected h1) (kept_ite (kept_respond h1) (kept_respond (kept_transcribe h1)))))

theorem keptBy_getDigests (h : Kept s₀ s) : KeptBy s₀ (execGetDigests s) :=
  keptBy_next (kept_negotiated h (fun _ h1 => kept_respond (kept_transcribe h1)))

theorem keptBy_getCertificate {slot offset length} (h : Kept s₀ s) : KeptBy s₀ (execGetCertificate slot offset length s) :=
  keptBy_next (kept_negotiated h (fun _ h1 => kept_ite (kept_respond h1) (kept_respond (kept_transcribe h1))))

theorem keptBy_challenge {slot nonce} (h : Kept s₀ s) : KeptBy s₀ (execChallenge slot nonce s) :=
  keptBy_next (kept_negotiated h (fun _ h1 => kept_ite (kept_respond h1) (kept_signedResponse h1)))

theorem keptBy_getMeasurements {index signed nonce} (h : Kept s₀ s) : KeptBy s₀ (execGetMeasurements index signed nonce s) :=
  keptBy_next (kept_negotiated h (fun _ h1 => by
    split
    · exact kept_respond h1
    · exact kept_ite (kept_signedResponse h1) (kept_respond (kept_transcribe h1))))

theorem keptBy_keyExchange {sessionId} (h : Kept s₀ s) : KeptBy s₀ (execKeyExchange sessionId s) :=
  keptBy_next (kept_negotiated h (fun _ h1 => kept_ite (kept_respond h1) (kept_ite (kept_setSpdm (kept_signedResponse (kept_setSpdm h1)))
    (kept_signedResponse (kept_setSpdm h1)))))

theorem keptBy_spdmFinish {sessionId verified} (h : Kept s₀ s) : KeptBy s₀ (execSpdmFinish sessionId verified s) :=
  keptBy_next (kept_negotiated h (fun _ h1 => by
    split
    · exact kept_respond h1
    · exact kept_ite (kept_unexpected h1) (kept_ite (kept_respond (kept_setSpdm h1)) (kept_respond (kept_setSpdm h1)))))

theorem keptBy_heartbeat {sessionId} (h : Kept s₀ s) : KeptBy s₀ (execHeartbeat sessionId s) :=
  keptBy_next (kept_inSession h (fun _ h1 => kept_respond h1))

theorem keptBy_keyUpdate {sessionId} (h : Kept s₀ s) : KeptBy s₀ (execKeyUpdate sessionId s) :=
  keptBy_next (kept_inSession h (fun _ h1 => kept_respond (kept_setSpdm h1)))

theorem keptBy_endSession {sessionId} (h : Kept s₀ s) : KeptBy s₀ (execEndSession sessionId s) :=
  keptBy_next (kept_inSession h (fun _ h1 => kept_respond (kept_setSpdm h1)))

theorem keptBy_vendorDefinedRequest {sessionId selective} (h : Kept s₀ s) : KeptBy s₀ (execVendorDefinedRequest sessionId selective s) :=
  keptBy_next (kept_inSession h (fun _ h1 => kept_respond (kept_noteIde h1)))

theorem keptBy_powerSample {inputMw voltageMv currentMa} (h : Kept s₀ s) : KeptBy s₀ (execPowerSample inputMw voltageMv currentMa s) :=
  keptBy_next (kept_ite (kept_powerSample (kept_inputSample h)) (kept_inputSample h))

theorem keptBy_overBudgetStep (h : Kept s₀ s) : KeptBy s₀ (execOverBudgetStep s) := keptBy_next (kept_overBudgetStep h)

theorem keptBy_holdLimitExpiry (h : Kept s₀ s) : KeptBy s₀ (execHoldLimitExpiry s) := keptBy_next (kept_holdLimitExpiry h)

theorem keptBy_raiseCheck (h : Kept s₀ s) : KeptBy s₀ (execRaiseCheck s) := keptBy_next (kept_raiseCheck h)

theorem keptBy_pointChange {job} (h : Kept s₀ s) : KeptBy s₀ (execPointChange job s) := keptBy_onJob (kept_pointChange h)

theorem keptBy_thermalStep {t temp16} (h : Kept s₀ s) : KeptBy s₀ (execThermalStep t temp16 s) :=
  keptBy_onTile (kept_ite (kept_thermalStep h) h)

theorem keptBy_thermalTrip {t temp16} (h : Kept s₀ s) : KeptBy s₀ (execThermalTrip t temp16 s) :=
  keptBy_onTile (kept_ite h (kept_with_thermalTripped (kept_orderOff (kept_countEvent h))))

theorem keptBy_tileSleepEntry {t bundlesToBar} (h : Kept s₀ s) : KeptBy s₀ (execTileSleepEntry t bundlesToBar s) :=
  keptBy_onTile (kept_sleepTile h)

theorem keptBy_tileWake {t} (h : Kept s₀ s) : KeptBy s₀ (execTileWake t s) := keptBy_onTile (kept_ite (kept_wakeTile h) h)

theorem keptBy_deepIdleEnter {ctx} (h : Kept s₀ s) : KeptBy s₀ (execDeepIdleEnter ctx s) :=
  keptBy_next (kept_writeEntry h (fun _ h1 => kept_applyEntry h1))

theorem keptBy_deepIdleLeave {ctx} (h : Kept s₀ s) : KeptBy s₀ (execDeepIdleLeave ctx s) :=
  keptBy_next (kept_writeEntry h (fun _ h1 => kept_applyEntry h1))

theorem keptBy_deepIdleAuto (h : Kept s₀ s) : KeptBy s₀ (execDeepIdleAuto s) := keptBy_next (kept_ite (kept_enterDeepIdle h) h)

theorem keptBy_hssTreePrepare (h : Kept s₀ s) : KeptBy s₀ (execHssTreePrepare s) := keptBy_next (kept_ite (kept_prepareTree h) h)

theorem keptBy_activateHost {ctx} (h : Kept s₀ s) : KeptBy s₀ (execActivateHost ctx s) :=
  keptBy_next (kept_writeEntry h (fun _ h1 => kept_activateOp h1))

theorem keptBy_activateFull {ctx} (h : Kept s₀ s) : KeptBy s₀ (execActivateFull ctx s) :=
  keptBy_next (kept_writeEntry h (fun _ h1 => kept_activateOp h1))

theorem keptBy_commitSvn {ctx value} (h : Kept s₀ s) : KeptBy s₀ (execCommitSvn ctx value s) :=
  keptBy_next (kept_writeEntry h (fun _ h1 => kept_commitSvnOp h1))

theorem keptBy_pkeClaim {ctx value} (h : Kept s₀ s) : KeptBy s₀ (execPkeClaim ctx value s) :=
  keptBy_next (kept_writeEntry h (fun _ h1 => kept_applyEntry h1))

theorem keptBy_pkeFree {ctx} (h : Kept s₀ s) : KeptBy s₀ (execPkeFree ctx s) :=
  keptBy_next (kept_writeEntry h (fun _ h1 => kept_applyEntry h1))

theorem keptBy_pkeSlotWrite {ctx slot data} (h : Kept s₀ s) : KeptBy s₀ (execPkeSlotWrite ctx slot data s) :=
  keptBy_next (kept_served h (fun _ h1 => kept_record (kept_ite_2 h1 (kept_pkeSlotResult h1))))

theorem keptBy_modAdd {ctx d a b m len} (h : Kept s₀ s) : KeptBy s₀ (execModAdd ctx d a b m len s) := keptBy_next (kept_pkeWrite h)

theorem keptBy_modSub {ctx d a b m len} (h : Kept s₀ s) : KeptBy s₀ (execModSub ctx d a b m len s) := keptBy_next (kept_pkeWrite h)

theorem keptBy_modMul {ctx d a b m len} (h : Kept s₀ s) : KeptBy s₀ (execModMul ctx d a b m len s) := keptBy_next (kept_pkeWrite h)

theorem keptBy_modInv {ctx d a m len} (h : Kept s₀ s) : KeptBy s₀ (execModInv ctx d a m len s) := keptBy_next (kept_pkeWrite h)

theorem keptBy_modExp {ctx d a b m len} (h : Kept s₀ s) : KeptBy s₀ (execModExp ctx d a b m len s) := keptBy_next (kept_pkeWrite h)

theorem keptBy_p384Add {ctx d a b} (h : Kept s₀ s) : KeptBy s₀ (execP384Add ctx d a b s) := keptBy_next (kept_pkeWrite h)

theorem keptBy_p384Double {ctx d a} (h : Kept s₀ s) : KeptBy s₀ (execP384Double ctx d a s) := keptBy_next (kept_pkeWrite h)

theorem keptBy_p384Mul {ctx d a b} (h : Kept s₀ s) : KeptBy s₀ (execP384Mul ctx d a b s) := keptBy_next (kept_pkeWrite h)

theorem keptBy_p384Check {ctx a} (h : Kept s₀ s) : KeptBy s₀ (execP384Check ctx a s) := keptBy_next (kept_pkeWrite h)

theorem keptBy_keyGenerate {ctx d handle persist} (h : Kept s₀ s) : KeptBy s₀ (execKeyGenerate ctx d handle persist s) :=
  keptBy_next (kept_pkeWrite h)

theorem keptBy_keyLoad {ctx d handle} (h : Kept s₀ s) : KeptBy s₀ (execKeyLoad ctx d handle s) := keptBy_next (kept_pkeWrite h)

theorem keptBy_keyErase {ctx handle} (h : Kept s₀ s) : KeptBy s₀ (execKeyErase ctx handle s) := keptBy_next (kept_pkeWrite h)

theorem keptBy_pkeCommandComplete (h : Kept s₀ s) : KeptBy s₀ (execPkeCommandComplete s) :=
  keptBy_next (by
    split
    · exact kept_ite (kept_pkeFinish h) h
    · exact h)

theorem keptBy_checkStart {ctx} (h : Kept s₀ s) : KeptBy s₀ (execCheckStart ctx s) :=
  keptBy_next (kept_writeEntry h (fun _ h1 => kept_checkBegin h1))

theorem keptBy_checkResume {ctx} (h : Kept s₀ s) : KeptBy s₀ (execCheckResume ctx s) :=
  keptBy_next (kept_writeEntry h (fun _ h1 => kept_checkBegin h1))

theorem keptBy_checkCancel {ctx} (h : Kept s₀ s) : KeptBy s₀ (execCheckCancel ctx s) :=
  keptBy_next (kept_writeEntry h (fun _ h1 => kept_checkCancelOp h1))

theorem keptBy_checkRunComplete {status remote} (h : Kept s₀ s) : KeptBy s₀ (execCheckRunComplete status remote s) :=
  keptBy_next (by
    split
    · exact h
    · exact kept_ite (kept_endRun h) (kept_ite h (kept_ite (kept_endRun (kept_foldPart h)) (kept_endRun (kept_setEntry (kept_foldInto h))))))

theorem keptBy_contextWrite {ctx context sub value} (h : Kept s₀ s) : KeptBy s₀ (execContextWrite ctx context sub value s) :=
  keptBy_next (kept_writeEntry h (fun _ h1 => kept_applyEntry h1))

theorem keptBy_leaseRenew {t} (h : Kept s₀ s) : KeptBy s₀ (execLeaseRenew t s) := keptBy_onTile (kept_ite (kept_updTile h) h)

theorem keptBy_leaseTimeout {t granter} (h : Kept s₀ s) : KeptBy s₀ (execLeaseTimeout t granter s) := keptBy_onTile (kept_leaseTimeout h)

theorem keptBy_tileRecoveryTimeout {t} (h : Kept s₀ s) : KeptBy s₀ (execTileRecoveryTimeout t s) :=
  keptBy_onTile (by
    split
    · exact h
    · exact kept_ite h (kept_raise (kept_setEntry (kept_setEntry (kept_updTile h)))))

theorem keptBy_watchdogKick (h : Kept s₀ s) : KeptBy s₀ (execWatchdogKick s) := keptBy_next (kept_ite h h)

theorem keptBy_watchdogExpiry (h : Kept s₀ s) : KeptBy s₀ (execWatchdogExpiry s) := keptBy_next (kept_ite h (kept_notice h))

theorem keptBy_snapImmediate {ctx} (h : Kept s₀ s) : KeptBy s₀ (execSnapImmediate ctx s) :=
  keptBy_next (kept_writeEntry h (fun _ h1 => kept_snapOp h1))

theorem keptBy_snapTimed {ctx} (h : Kept s₀ s) : KeptBy s₀ (execSnapTimed ctx s) :=
  keptBy_next (kept_writeEntry h (fun _ h1 => kept_snapOp h1))

theorem keptBy_snapBroadcast {ctx} (h : Kept s₀ s) : KeptBy s₀ (execSnapBroadcast ctx s) :=
  keptBy_next (kept_writeEntry h (fun _ h1 => kept_snapOp h1))

theorem keptBy_snapshotLatch (h : Kept s₀ s) : KeptBy s₀ (execSnapshotLatch s) := keptBy_next (kept_latch h)

theorem keptBy_snapshotCopyComplete (h : Kept s₀ s) : KeptBy s₀ (execSnapshotCopyComplete s) :=
  keptBy_next (by
    split
    · exact h
    · exact kept_setEntry h)

theorem keptBy_coldStart (h : Kept s₀ s) : KeptBy s₀ (execColdStart s) := keptBy_next (kept_ite h (kept_requestRestart h))

theorem keptBy_resetWarm {ctx} (h : Kept s₀ s) : KeptBy s₀ (execResetWarm ctx s) :=
  keptBy_next (kept_writeEntry h (fun _ h1 => kept_resetOp h1))

theorem keptBy_resetHostOff {ctx} (h : Kept s₀ s) : KeptBy s₀ (execResetHostOff ctx s) :=
  keptBy_next (kept_writeEntry h (fun _ h1 => kept_resetOp h1))

theorem keptBy_resetHostPower {ctx} (h : Kept s₀ s) : KeptBy s₀ (execResetHostPower ctx s) :=
  keptBy_next (kept_writeEntry h (fun _ h1 => kept_resetOp h1))

theorem keptBy_resetFull {ctx} (h : Kept s₀ s) : KeptBy s₀ (execResetFull ctx s) :=
  keptBy_next (kept_writeEntry h (fun _ h1 => kept_resetOp h1))

theorem keptBy_inputOutOfRange {millivolts} (h : Kept s₀ s) : KeptBy s₀ (execInputOutOfRange millivolts s) :=
  keptBy_next (kept_ite h (kept_ite (kept_with_fieldLog_inputBackSince (kept_bump (kept_setEntry h))) (kept_orderOff
    (kept_with_fieldLog_inputBackSince (kept_bump (kept_setEntry h))))))

theorem keptBy_inputRecovery (h : Kept s₀ s) : KeptBy s₀ (execInputRecovery s) := keptBy_next (kept_ite (kept_requestRestart h) h)

theorem keptBy_fieldPowerLoss (h : Kept s₀ s) : KeptBy s₀ (execFieldPowerLoss s) :=
  keptBy_next (kept_with_sessions_unstored_arriving_fieldPowered_restart (kept_ite h (kept_setEntry (kept_hostOff h))))

theorem keptBy_sensorUpdate {readings} (h : Kept s₀ s) : KeptBy s₀ (execSensorUpdate readings s) := keptBy_next (kept_takeSensors h)

theorem keptBy_dtpGroup {session seq op} (h : Kept s₀ s) : KeptBy s₀ (execDtpGroup session seq op s) :=
  keptBy_next (kept_onRequest h (fun _ h1 _ => kept_ite (kept_respondDtp (kept_record h1)) (kept_ite (kept_settleDtp (kept_askHost h1))
    (kept_settleDtp (kept_accessEntry h1)))))

theorem keptBy_dictRead {ctx offset size} (h : Kept s₀ s) : KeptBy s₀ (execDictRead ctx offset size s) := keptBy_next (kept_dictRead h)

theorem keptBy_hostLinkUp {speed width flit tagLimit} (h : Kept s₀ s) : KeptBy s₀ (execHostLinkUp speed width flit tagLimit s) :=
  keptBy_next (kept_ite (kept_flushVectors (kept_setEntry (kept_setEntry (kept_setEntry (kept_setEntry (kept_setEntry h)))))) h)

theorem keptBy_unsupportedRequest {kind} (h : Kept s₀ s) : KeptBy s₀ (execUnsupportedRequest kind s) :=
  keptBy_next (kept_ite (kept_logAer h) (kept_emit (kept_logAer (kept_logAer h))))

theorem keptBy_selfRefreshPatrolWake {stack} (h : Kept s₀ s) : KeptBy s₀ (execSelfRefreshPatrolWake stack s) :=
  keptBy_onStack (kept_ite (kept_setEntry (kept_setSorter h)) h)

end Commands

/-- No command touches what `Kept` names. -/
theorem keptBy_exec (c : Instr) (s : State) : KeptBy s (exec c s) := by
  have h := kept_refl s
  cases c with
  | dictRequest => exact keptBy_dictRequest h
  | dictResponse => exact keptBy_dictResponse h
  | eventNotice => exact keptBy_eventNotice h
  | snapshotTrigger => exact keptBy_snapshotTrigger h
  | powerDomainCmd => exact keptBy_powerDomainCmd h
  | resetCmd => exact keptBy_resetCmd h
  | firmwareBlock => exact keptBy_firmwareBlock h
  | keepalive => exact keptBy_keepalive h
  | gateMessageDiscarded => exact keptBy_gateMessageDiscarded h
  | keepaliveSend => exact keptBy_keepaliveSend h
  | gateResendTimeout => exact keptBy_gateResendTimeout h
  | gateMessageGivenUp => exact keptBy_gateMessageGivenUp h
  | gateDown => exact keptBy_gateDown h
  | dictWrite => exact keptBy_dictWrite h
  | groupOpen => exact keptBy_groupOpen h
  | groupCommit => exact keptBy_groupCommit h
  | groupAbort => exact keptBy_groupAbort h
  | groupEpochTimeout => exact keptBy_groupEpochTimeout h
  | groupIdleTimeout => exact keptBy_groupIdleTimeout h
  | contextRelease => exact keptBy_contextRelease h
  | transferIdleTimeout => exact keptBy_transferIdleTimeout h
  | persistRecordWrite => exact keptBy_persistRecordWrite h
  | startRead => exact keptBy_startRead h
  | startWrite => exact keptBy_startWrite h
  | commitSegment => exact keptBy_commitSegment h
  | segmentFinish => exact keptBy_segmentFinish h
  | segmentCancel => exact keptBy_segmentCancel h
  | restoreDefaults => exact keptBy_restoreDefaults h
  | setUnload => exact keptBy_setUnload h
  | dtpHello => exact keptBy_dtpHello h
  | dtpRead => exact keptBy_dtpRead h
  | dtpWrite => exact keptBy_dtpWrite h
  | dtpSegmentRead => exact keptBy_dtpSegmentRead h
  | dtpSegmentWrite => exact keptBy_dtpSegmentWrite h
  | dtpClose => exact keptBy_dtpClose h
  | dtpDatagramRejected => exact keptBy_dtpDatagramRejected h
  | dtpSessionIdleTimeout => exact keptBy_dtpSessionIdleTimeout h
  | jobLoad => exact keptBy_jobLoad h
  | admissionCheck => exact keptBy_admissionCheck h
  | jobStart => exact keptBy_jobStart h
  | descriptorBind => exact keptBy_descriptorBind h
  | jobAbort => exact keptBy_jobAbort h
  | jobAbortCleanup => exact keptBy_jobAbortCleanup h
  | jobRelease => exact keptBy_jobRelease h
  | jobRearm => exact keptBy_jobRearm h
  | jobCommit => exact keptBy_jobCommit h
  | descriptorValidWrite => exact keptBy_descriptorValidWrite h
  | completionSignal => exact keptBy_completionSignal h
  | jobStopComplete => exact keptBy_jobStopComplete h
  | stopSettleTimeout => exact keptBy_stopSettleTimeout h
  | cnop => exact keptBy_cnop h
  | loop => exact keptBy_loop h
  | waitr => exact keptBy_waitr h
  | waitall => exact keptBy_waitall h
  | bar => exact keptBy_bar h
  | halt => exact keptBy_halt h
  | wnop => exact keptBy_wnop h
  | vadd => exact keptBy_vadd h
  | vsub => exact keptBy_vsub h
  | vneg => exact keptBy_vneg h
  | vred => exact keptBy_vred h
  | vaddk => exact keptBy_vaddk h
  | vmul => exact keptBy_vmul h
  | vmulk => exact keptBy_vmulk h
  | vmad => exact keptBy_vmad h
  | vmsb => exact keptBy_vmsb h
  | wResultWrite => exact keptBy_wResultWrite h
  | mnop => exact keptBy_mnop h
  | mld => exact keptBy_mld h
  | mst => exact keptBy_mst h
  | mstWriteLand => exact keptBy_mstWriteLand h
  | mrel => exact keptBy_mrel h
  | xnop => exact keptBy_xnop h
  | xli => exact keptBy_xli h
  | xlui => exact keptBy_xlui h
  | xaddi => exact keptBy_xaddi h
  | xadd => exact keptBy_xadd h
  | xsub => exact keptBy_xsub h
  | xmul => exact keptBy_xmul h
  | xand => exact keptBy_xand h
  | xor => exact keptBy_xor h
  | xxor => exact keptBy_xxor h
  | xshl => exact keptBy_xshl h
  | xshr => exact keptBy_xshr h
  | xidx => exact keptBy_xidx h
  | xldn => exact keptBy_xldn h
  | xstn => exact keptBy_xstn h
  | qload => exact keptBy_qload h
  | icacheLineFill => exact keptBy_icacheLineFill h
  | eccFreezeEnd => exact keptBy_eccFreezeEnd h
  | ntt => exact keptBy_ntt h
  | automorph => exact keptBy_automorph h
  | transpose => exact keptBy_transpose h
  | bconv => exact keptBy_bconv h
  | rescale => exact keptBy_rescale h
  | ksip => exact keptBy_ksip h
  | moddown => exact keptBy_moddown h
  | ledger => exact keptBy_ledger h
  | xferIn => exact keptBy_xferIn h
  | xferOut => exact keptBy_xferOut h
  | keystreamOpen => exact keptBy_keystreamOpen h
  | batchBootstrap => exact keptBy_batchBootstrap h
  | extract => exact keptBy_extract h
  | pack => exact keptBy_pack h
  | modraise => exact keptBy_modraise h
  | lopSignal => exact keptBy_lopSignal h
  | lopFence => exact keptBy_lopFence h
  | longOpDispatch => exact keptBy_longOpDispatch h
  | longOpFinish => exact keptBy_longOpFinish h
  | constantLineFill => exact keptBy_constantLineFill h
  | fetchRowWrite => exact keptBy_fetchRowWrite h
  | xferVerifyMatch => exact keptBy_xferVerifyMatch h
  | signalCompletion => exact keptBy_signalCompletion h
  | waitTimeout => exact keptBy_waitTimeout h
  | barrierArrive => exact keptBy_barrierArrive h
  | barrierRelease => exact keptBy_barrierRelease h
  | barrierTimeout => exact keptBy_barrierTimeout h
  | convStart => exact keptBy_convStart h
  | convCancel => exact keptBy_convCancel h
  | convComplete => exact keptBy_convComplete h
  | streamSlotBind => exact keptBy_streamSlotBind h
  | rateWindow => exact keptBy_rateWindow h
  | keyHeaderCheck => exact keptBy_keyHeaderCheck h
  | keyRowWrite => exact keptBy_keyRowWrite h
  | uniformRowWrite => exact keptBy_uniformRowWrite h
  | keyTrailerCheck => exact keptBy_keyTrailerCheck h
  | streamReadFail => exact keptBy_streamReadFail h
  | mcastWindowSend => exact keptBy_mcastWindowSend h
  | mcastCreditTimeout => exact keptBy_mcastCreditTimeout h
  | mcastIdleTimeout => exact keptBy_mcastIdleTimeout h
  | narrowRead => exact keptBy_narrowRead h
  | narrowWrite => exact keptBy_narrowWrite h
  | rowTagClear => exact keptBy_rowTagClear h
  | rowVerifyRead => exact keptBy_rowVerifyRead h
  | rowEccWriteBack => exact keptBy_rowEccWriteBack h
  | scrubRowRead => exact keptBy_scrubRowRead h
  | windowPutLand => exact keptBy_windowPutLand h
  | windowGetServe => exact keptBy_windowGetServe h
  | memRequest => exact keptBy_memRequest h
  | bankService => exact keptBy_bankService h
  | bankRefresh => exact keptBy_bankRefresh h
  | stackEccWriteBack => exact keptBy_stackEccWriteBack h
  | poisonRetire => exact keptBy_poisonRetire h
  | poisonClear => exact keptBy_poisonClear h
  | poisonClearWalkEnd => exact keptBy_poisonClearWalkEnd h
  | patrolScrub => exact keptBy_patrolScrub h
  | selfRefreshEntry => exact keptBy_selfRefreshEntry h
  | stackModeWrite => exact keptBy_stackModeWrite h
  | bar2Read => exact keptBy_bar2Read h
  | bar2Write => exact keptBy_bar2Write h
  | trainExchange => exact keptBy_trainExchange h
  | portRetrain => exact keptBy_portRetrain h
  | frameReceive _ _ _ _ f => exact keptBy_frameReceive (frame := f) h
  | frameAck => exact keptBy_frameAck h
  | frameRetransmit => exact keptBy_frameRetransmit h
  | frameForward => exact keptBy_frameForward h
  | fabricPut => exact keptBy_fabricPut h
  | fabricGet => exact keptBy_fabricGet h
  | addmod => exact keptBy_addmod h
  | fetchadd => exact keptBy_fetchadd h
  | fabricSignal => exact keptBy_fabricSignal h
  | signalPerform => exact keptBy_signalPerform h
  | mcastPut => exact keptBy_mcastPut h
  | fabricCompletion => exact keptBy_fabricCompletion h
  | completionTimeout => exact keptBy_completionTimeout h
  | issuerFence => exact keptBy_issuerFence h
  | arriveFrame => exact keptBy_arriveFrame h
  | releaseFrame => exact keptBy_releaseFrame h
  | snapFrame => exact keptBy_snapFrame h
  | timeIdle => exact keptBy_timeIdle h
  | timeLockLost => exact keptBy_timeLockLost h
  | portEnableWrite => exact keptBy_portEnableWrite h
  | perstAssert => exact keptBy_perstAssert h
  | perstRelease => exact keptBy_perstRelease h
  | hotReset => exact keptBy_hotReset h
  | functionLevelReset => exact keptBy_functionLevelReset h
  | configAccess => exact keptBy_configAccess h
  | hostPutAck => exact keptBy_hostPutAck h
  | hostCompletion => exact keptBy_hostCompletion h
  | pcieCompletionTimeout => exact keptBy_pcieCompletionTimeout h
  | interruptHoldoffEnd => exact keptBy_interruptHoldoffEnd h
  | ideCheckFailed => exact keptBy_ideCheckFailed h
  | doeDiscovery => exact keptBy_doeDiscovery h
  | getVersion => exact keptBy_getVersion h
  | getCapabilities => exact keptBy_getCapabilities h
  | negotiateAlgorithms => exact keptBy_negotiateAlgorithms h
  | getDigests => exact keptBy_getDigests h
  | getCertificate => exact keptBy_getCertificate h
  | challenge => exact keptBy_challenge h
  | getMeasurements => exact keptBy_getMeasurements h
  | keyExchange => exact keptBy_keyExchange h
  | spdmFinish => exact keptBy_spdmFinish h
  | heartbeat => exact keptBy_heartbeat h
  | keyUpdate => exact keptBy_keyUpdate h
  | endSession => exact keptBy_endSession h
  | vendorDefinedRequest => exact keptBy_vendorDefinedRequest h
  | powerSample => exact keptBy_powerSample h
  | overBudgetStep => exact keptBy_overBudgetStep h
  | holdLimitExpiry => exact keptBy_holdLimitExpiry h
  | raiseCheck => exact keptBy_raiseCheck h
  | pointChange => exact keptBy_pointChange h
  | thermalStep => exact keptBy_thermalStep h
  | thermalTrip => exact keptBy_thermalTrip h
  | tileSleepEntry => exact keptBy_tileSleepEntry h
  | tileWake => exact keptBy_tileWake h
  | deepIdleEnter => exact keptBy_deepIdleEnter h
  | deepIdleLeave => exact keptBy_deepIdleLeave h
  | deepIdleAuto => exact keptBy_deepIdleAuto h
  | hssTreePrepare => exact keptBy_hssTreePrepare h
  | activateHost => exact keptBy_activateHost h
  | activateFull => exact keptBy_activateFull h
  | commitSvn => exact keptBy_commitSvn h
  | pkeClaim => exact keptBy_pkeClaim h
  | pkeFree => exact keptBy_pkeFree h
  | pkeSlotWrite => exact keptBy_pkeSlotWrite h
  | modAdd => exact keptBy_modAdd h
  | modSub => exact keptBy_modSub h
  | modMul => exact keptBy_modMul h
  | modInv => exact keptBy_modInv h
  | modExp => exact keptBy_modExp h
  | p384Add => exact keptBy_p384Add h
  | p384Double => exact keptBy_p384Double h
  | p384Mul => exact keptBy_p384Mul h
  | p384Check => exact keptBy_p384Check h
  | keyGenerate => exact keptBy_keyGenerate h
  | keyLoad => exact keptBy_keyLoad h
  | keyErase => exact keptBy_keyErase h
  | pkeCommandComplete => exact keptBy_pkeCommandComplete h
  | checkStart => exact keptBy_checkStart h
  | checkResume => exact keptBy_checkResume h
  | checkCancel => exact keptBy_checkCancel h
  | checkRunComplete => exact keptBy_checkRunComplete h
  | contextWrite => exact keptBy_contextWrite h
  | leaseRenew => exact keptBy_leaseRenew h
  | leaseTimeout => exact keptBy_leaseTimeout h
  | tileRecoveryTimeout => exact keptBy_tileRecoveryTimeout h
  | watchdogKick => exact keptBy_watchdogKick h
  | watchdogExpiry => exact keptBy_watchdogExpiry h
  | snapImmediate => exact keptBy_snapImmediate h
  | snapTimed => exact keptBy_snapTimed h
  | snapBroadcast => exact keptBy_snapBroadcast h
  | snapshotLatch => exact keptBy_snapshotLatch h
  | snapshotCopyComplete => exact keptBy_snapshotCopyComplete h
  | coldStart => exact keptBy_coldStart h
  | resetWarm => exact keptBy_resetWarm h
  | resetHostOff => exact keptBy_resetHostOff h
  | resetHostPower => exact keptBy_resetHostPower h
  | resetFull => exact keptBy_resetFull h
  | inputOutOfRange => exact keptBy_inputOutOfRange h
  | inputRecovery => exact keptBy_inputRecovery h
  | fieldPowerLoss => exact keptBy_fieldPowerLoss h
  | sensorUpdate => exact keptBy_sensorUpdate h
  | dtpGroup => exact keptBy_dtpGroup h
  | dictRead => exact keptBy_dictRead h
  | hostLinkUp => exact keptBy_hostLinkUp h
  | unsupportedRequest => exact keptBy_unsupportedRequest h
  | selfRefreshPatrolWake => exact keptBy_selfRefreshPatrolWake h

/-- Settles O4: the first three parts of the frame. -/
theorem commandsLeaveQueueAndFuses : Obligations.CommandsLeaveQueueAndFuses := by
  intro c s t hExec
  obtain ⟨hPending, hGrade, hEnabled, -⟩ := keptBy_exec c s t hExec
  exact ⟨hPending, hGrade, hEnabled⟩

/-- Settles O6: a command keeps the form with the queue's rest, and an idle step keeps it too. -/
theorem memoryStaysCanonical : Obligations.MemoryStaysCanonical := by
  intro s t hForm hStep
  cases hQueue : s.pending with
  | nil =>
    rw [step_idles hQueue] at hStep
    obtain ⟨-, -, -, hKept⟩ := keptBy_next (kept_idleTick (kept_refl s)) t hStep
    exact hKept hForm
  | cons c rest =>
    rw [stepRunsFront s c rest hQueue] at hStep
    obtain ⟨-, -, -, hKept⟩ := keptBy_exec c _ t hStep
    exact hKept ((Laws.memory_wf_congr rfl rfl).trans hForm)

end Sys2Proof.Proofs
end

section
/-! PROOFS. A well-formed command never stops: the commands on a unit name one that the module has, and every other has a next state (log entries 19, 60). -/

namespace Sys2Proof.Proofs

open Sys2Proof.Machine

/-- The outcome is a next state. -/
def Runs (o : Host.Outcome State Fault Refusal) : Prop := ∃ t, o = .next t

section Units

variable {s : State} {f : State → State} {n : Nat}

/-- A command on a unit that the module has goes on. -/
theorem runs_onUnit {kind : String} {count : Nat} (h : n < count) : Runs (onUnit kind count n s f) := ⟨f s, Laws.onUnit_next h⟩

theorem runs_onTile (h : n < 64) : Runs (onTile n s f) := runs_onUnit h

theorem runs_onJob (h : n < 16) : Runs (onJob n s f) := runs_onUnit h

theorem runs_onPort (h : n < 16) : Runs (onPort n s f) := runs_onUnit h

theorem runs_onStack (h : n < 8) : Runs (onStack n s f) := runs_onUnit h

theorem runs_onStream (h : n < 16) : Runs (onStream n s f) := runs_onUnit h

end Units

/-- Settles O3: by the kind of unit that the command names, if any. -/
theorem wellFormedCommandsRun : Obligations.WellFormedCommandsRun := by
  intro c s h
  change Runs (exec c s)
  delta exec
  cases c
  case cnop | loop | waitr | waitall | bar | halt | wnop | vadd | vsub | vneg | vred | vaddk | vmul | vmulk | vmad | vmsb | wResultWrite |
      mnop | mld | mst | mstWriteLand | mrel | xnop | xli | xlui | xaddi | xadd | xsub | xmul | xand | xor | xxor | xshl | xshr | xidx | xldn
      | xstn | qload | icacheLineFill | eccFreezeEnd | ntt | automorph | transpose | bconv | rescale | ksip | moddown | ledger | xferIn |
      xferOut | keystreamOpen | batchBootstrap | extract | pack | modraise | lopSignal | lopFence | longOpDispatch | longOpFinish |
      constantLineFill | fetchRowWrite | xferVerifyMatch | signalCompletion | waitTimeout | barrierArrive | rowVerifyRead | rowEccWriteBack |
      scrubRowRead | windowPutLand | windowGetServe | thermalStep | thermalTrip | tileSleepEntry | tileWake | leaseRenew | leaseTimeout |
      tileRecoveryTimeout =>
    simp only [Instr.wellFormed, isTile, Bool.and_eq_true, decide_eq_true_eq] at h
    refine runs_onTile ?_
    omega
  case descriptorBind | jobAbortCleanup | jobCommit | descriptorValidWrite | completionSignal | jobStopComplete | stopSettleTimeout |
      barrierRelease | pointChange =>
    simp only [Instr.wellFormed, isJob, decide_eq_true_eq] at h
    refine runs_onJob ?_
    omega
  case trainExchange | portRetrain | frameReceive | frameAck | frameRetransmit | frameForward | mcastPut | snapFrame | timeIdle =>
    simp only [Instr.wellFormed, isPort, Bool.and_eq_true, decide_eq_true_eq] at h
    refine runs_onPort ?_
    omega
  case memRequest | bankService | bankRefresh | patrolScrub | selfRefreshEntry | selfRefreshPatrolWake =>
    simp only [Instr.wellFormed, isStack, Bool.and_eq_true, decide_eq_true_eq] at h
    refine runs_onStack ?_
    omega
  case keyHeaderCheck | keyRowWrite | uniformRowWrite | keyTrailerCheck | streamReadFail | mcastWindowSend | mcastCreditTimeout |
      mcastIdleTimeout =>
    simp only [Instr.wellFormed, isStream, Bool.and_eq_true, decide_eq_true_eq] at h
    refine runs_onStream ?_
    omega
  case barrierTimeout | arriveFrame | releaseFrame =>
    simp only [Instr.wellFormed, isBarrier, decide_eq_true_eq] at h
    refine runs_onUnit ?_
    omega
  all_goals exact ⟨_, rfl⟩

end Sys2Proof.Proofs
end

section
/-! PROOFS. What the two ends of the crossing gate send and take (R13-R19). -/

namespace Sys2Proof.Proofs

open Sys2Proof.Machine

section Ends

variable {s : State} {e : GateEnd}

@[simp] theorem setGate_gateAt_self : s.setGate e (s.gateAt e) = s := by cases e <;> rfl

@[simp] theorem setGate_setGate (g g' : GateSide) : (s.setGate e g).setGate e g' = s.setGate e g' := by cases e <;> rfl

@[simp] theorem setGate_now (g : GateSide) : (s.setGate e g).now = s.now := by cases e <;> rfl
@[simp] theorem setGate_out (g : GateSide) : (s.setGate e g).out = s.out := by cases e <;> rfl
@[simp] theorem setGate_dict (g : GateSide) : (s.setGate e g).dict = s.dict := by cases e <;> rfl
@[simp] theorem setGate_mem (g : GateSide) : (s.setGate e g).mem = s.mem := by cases e <;> rfl
@[simp] theorem setGate_tiles (g : GateSide) : (s.setGate e g).tiles = s.tiles := by cases e <;> rfl
@[simp] theorem setGate_jobs (g : GateSide) : (s.setGate e g).jobs = s.jobs := by cases e <;> rfl
@[simp] theorem setGate_contexts (g : GateSide) : (s.setGate e g).contexts = s.contexts := by cases e <;> rfl

/-- An end that is not silent sends at once, with its next number (R13, R16). -/
theorem gateSend_of_open {p : GatePayload} {o : GateOrigin} (h : (s.gateAt e).quietUntil ≤ s.now) :
    s.gateSend e p o = (s.setGate e { s.gateAt e with
        nextSeq := ((s.gateAt e).nextSeq + 1) % 65536, lastTx := s.now
        outstanding := if p.asks then (s.gateAt e).outstanding ++ [{ seq := (s.gateAt e).nextSeq, payload := p, origin := o, sentAt := s.now }]
          else (s.gateAt e).outstanding }).emit (.gate (e = .host) (s.gateAt e).nextSeq p) := by
  rw [State.gateSend, if_neg (by exact Nat.not_lt.mpr h)]

/-- An end that is not silent answers at once (R14, R16). -/
theorem gateAnswer_of_open {seq : Nat} {p : GatePayload} (h : (s.gateAt e).quietUntil ≤ s.now) :
    s.gateAnswer e seq p = (s.setGate e { s.gateAt e with lastTx := s.now }).emit (.gate (e = .host) seq p) := by
  rw [State.gateAnswer, if_neg (by exact Nat.not_lt.mpr h)]

end Ends

/-! ### What arrives (R13-R16, R33, R47) -/

section Arrivals

variable {s : State} {e : GateEnd} {seq : Nat}

/-- A KEEPALIVE only marks the moment. -/
theorem keepalive_hears (h : Safety.hears s e = true) : exec (.keepalive e) s = .next (s.setGate e { s.gateAt e with lastRx := s.now }) :=
  congrArg Host.Outcome.next (Laws.onMessage_hears h)

/-- A DICT_RESPONSE retires the message that it answers, and the message's origin has its answer. -/
theorem dictResponse_hears {items : List (Nat × Word)} {data : List Byte} {m : GateMsg} (h : Safety.hears s e = true)
    (hm : ((s.gateAt e).outstanding.find? fun (m : GateMsg) => m.seq = seq) = some m) :
    exec (.dictResponse e seq items data) s = .next ((s.setGate e
      { s.gateAt e with lastRx := s.now, outstanding := (s.gateAt e).outstanding.filter fun (m : GateMsg) => m.seq ≠ seq }).messageAnswered m
        (items.map fun p => (p.1, p.2.toNat)) data) := by
  refine congrArg Host.Outcome.next ((Laws.onMessage_hears h).trans ?_)
  simp only [Laws.gateAt_setGate_same, hm, setGate_setGate]

/-- An OK leaves a message's origin nothing to do where no access, session or further segment waits for it. -/
theorem messageAnswered_onlyRetired {m : GateMsg} {v : Nat} {data : List Byte} (h : Safety.onlyRetired m = true) :
    s.messageAnswered m [(OK, v)] data = s := by
  obtain ⟨_, payload, origin, _, _⟩ := m
  cases origin with
  | values | block => simp [State.messageAnswered]
  | access | dtp | content => simp [Safety.onlyRetired] at h
  | fumarole =>
    cases payload with
    | reset => simp [State.messageAnswered]
    | _ => simp [Safety.onlyRetired] at h

theorem dictResponse_retires {m : GateMsg} {v : Word} {data : List Byte} (h : Safety.hears s e = true)
    (hm : ((s.gateAt e).outstanding.find? fun (m : GateMsg) => m.seq = seq) = some m) (hOnly : Safety.onlyRetired m = true) :
    exec (.dictResponse e seq [(OK, v)] data) s = .next (s.setGate e
      { s.gateAt e with lastRx := s.now, outstanding := (s.gateAt e).outstanding.filter fun (m : GateMsg) => m.seq ≠ seq }) := by
  rw [dictResponse_hears h hm]
  exact congrArg Host.Outcome.next (messageAnswered_onlyRetired hOnly)

/-- With no access held back, the end of an access lets none take its turn. -/
theorem resumeHeld_none {ctx : Nat} (h : s.heldAccesses = []) : s.resumeHeld ctx = { s with heldAccesses := [] } := by
  simp [State.resumeHeld, h]

/-- A host-side access that Fumarole answered with OK records it in its context; a read's value leaves (R16, R46). -/
theorem finishAccess_ok {a : EntryAccess} {v : Nat} (hHeld : s.heldAccesses = []) (hCtx : a.ctx < 16) (hFrame : a.frame = none)
    (hIndex : indexAt a.offset ≠ 0x1030) :
    s.finishAccess a OK v = { (if a.value.isSome then s.record a.ctx (indexAt a.offset) (subAt a.offset) OK
      else (s.record a.ctx (indexAt a.offset) (subAt a.offset) OK).emit (.dictRead a.ctx (narrowTo a.size v))) with heldAccesses := [] } := by
  have hRecord := Laws.record_eq (s := s) (i := indexAt a.offset) (sub := subAt a.offset) hCtx OK (by decide) (by decide)
  cases hValue : a.value with
  | none =>
    simp only [State.finishAccess, hValue, hFrame, State.recordRead, hIndex, false_and, if_false, State.answerWith]
    rw [resumeHeld_none (by simp [hRecord, hHeld])]
    simp
  | some w =>
    simp only [State.finishAccess, hValue, hFrame]
    rw [resumeHeld_none (by simp [hRecord, hHeld])]
    simp

theorem dictResponse_access {m : GateMsg} {a : EntryAccess} {v : Word} (h : Safety.hears s .host = true) (hHeld : s.heldAccesses = []) (hCtx : a.ctx < 16)
    (hFrame : a.frame = none) (hIndex : indexAt a.offset ≠ 0x1030)
    (hm : (s.hostGate.outstanding.find? fun (m : GateMsg) => m.seq = seq) = some m) (hOrigin : m.origin = .access a) :
    ∃ t, exec (.dictResponse .host seq [(OK, v)] []) s = .next t ∧ Safety.outcome t a.ctx (indexAt a.offset) (subAt a.offset) OK
      ∧ t.out = (if a.value.isSome then s.out else s.out ++ [.dictRead a.ctx (narrowTo a.size v.toNat)])
      ∧ (∀ m ∈ t.hostGate.outstanding, m.seq ≠ seq) ∧ t.dict = s.dict ∧ t.mem = s.mem ∧ t.tiles = s.tiles ∧ t.jobs = s.jobs := by
  rw [dictResponse_hears (e := .host) h hm]
  refine ⟨_, rfl, ?_⟩
  simp only [State.messageAnswered, hOrigin, List.map_cons, List.head?_cons, Option.map_some, Option.getD_some]
  rw [finishAccess_ok (by exact hHeld) hCtx hFrame hIndex, Laws.record_eq hCtx OK (by decide) (by decide)]
  cases a.value <;> simp [Safety.outcome, State.setGate, State.context, State.setContext, State.emit]

/-- A repeated request gets the answer that its first copy got. -/
theorem dictRequest_repeats {ctx : Nat} {a : GateAccess} {p : GatePayload} (h : Safety.hears s e = true) (hp : (s.gateAt e).answered.lookup seq = some p)
    (hOpen : (s.gateAt e).quietUntil ≤ s.now) :
    exec (.dictRequest e seq ctx a) s = .next ((s.setGate e { s.gateAt e with lastRx := s.now, lastTx := s.now }).emit (.gate (e = .host) seq p)) := by
  refine congrArg Host.Outcome.next ((Laws.onNumbered_repeat h hp).trans ?_)
  rw [gateAnswer_of_open (by simpa using hOpen)]
  simp

theorem gateMessageDiscarded_counts {type length : Nat} {crcOk : Bool} (h : s.gatePowered e = true)
    (hBad : crcOk = false ∨ 4104 < length ∨ gateAllowed e type = false) :
    exec (.gateMessageDiscarded e type length crcOk) s = .next (s.setGate e { s.gateAt e with discarded := (s.gateAt e).discarded + 1 }) :=
  congrArg Host.Outcome.next (if_pos ⟨h, by simpa using hBad⟩)

theorem eventNotice_logs {x : LogEntry} (h : Safety.hears s .field = true) (hx : x.code ≠ WATCHDOG_RESTART) :
    exec (.eventNotice x) s = .next { s with fieldGate := { s.fieldGate with lastRx := s.now }, fieldLog := s.fieldLog ++ [x] } := by
  refine congrArg Host.Outcome.next ((Laws.onMessage_hears h).trans ?_)
  simp only [hx, if_false]
  rfl

theorem eventNotice_watchdog {x : LogEntry} (h : Safety.hears s .field = true) (hx : x.code = WATCHDOG_RESTART) (hOpen : s.fieldGate.quietUntil ≤ s.now) :
    ∃ t, exec (.eventNotice x) s = .next t ∧ t.fieldLog = s.fieldLog ++ [x]
      ∧ t.out = s.out ++ [.gate false s.fieldGate.nextSeq (.reset kindWatchdog WATCHDOG_RESTART)]
      ∧ t.fieldGate.outstanding.map (fun (m : GateMsg) => (m.seq, m.payload)) =
          s.fieldGate.outstanding.map (fun (m : GateMsg) => (m.seq, m.payload)) ++ [(s.fieldGate.nextSeq, .reset kindWatchdog WATCHDOG_RESTART)]
      ∧ t.dict = s.dict ∧ t.mem = s.mem ∧ t.tiles = s.tiles ∧ t.jobs = s.jobs := by
  refine ⟨_, congrArg Host.Outcome.next ((Laws.onMessage_hears h).trans (if_pos hx)), ?_⟩
  rw [State.sendReset, gateSend_of_open (by exact hOpen)]
  simp [State.setGate, State.gateAt, State.emit, GatePayload.asks, GatePayload.type]

end Arrivals

/-- Settles O7: by what the end does with a message that it hears. -/
theorem gateArrivals : Obligations.GateArrivals :=
  ⟨fun _ _ => keepalive_hears, fun _ _ _ _ _ _ => dictResponse_retires, fun _ _ _ _ _ => dictResponse_access,
    fun _ _ _ _ _ => gateMessageDiscarded_counts, fun _ _ _ _ _ _ => dictRequest_repeats, fun _ _ => eventNotice_logs, fun _ _ => eventNotice_watchdog⟩

end Sys2Proof.Proofs
end

section
/-! PROOFS. Requests over the crossing gate (R14, R17, R18, R33, R53): how an end answers, and what a DTP session's context may do. -/

namespace Sys2Proof.Proofs

open Sys2Proof.Machine

/-! ### Offsets and keys (R10) -/

theorem indexAt_keyOffset {index sub : Nat} (h : sub < 256) : indexAt (keyOffset (entryKey index sub)) = index := by
  simp only [indexAt, keyOffset, entryKey]; omega

theorem subAt_keyOffset {index sub : Nat} (h : sub < 256) : subAt (keyOffset (entryKey index sub)) = sub := by
  simp only [subAt, keyOffset, entryKey]; omega

@[simp] theorem keyOffset_aligned (k : Nat) : keyOffset k % 8 = 0 := Nat.mul_mod_right 8 k

@[simp] theorem offsetKey_keyOffset (k : Nat) : offsetKey (keyOffset k) = k := Nat.mul_div_cancel_left k (by decide)

theorem entryKey_div {index sub : Nat} (h : sub < 256) : entryKey index sub / 256 = index := by
  simp only [entryKey]; omega

theorem entryKey_mod {index sub : Nat} (h : sub < 256) : entryKey index sub % 256 = sub := by
  simp only [entryKey]; omega

/-! ### The answer to a numbered message (R15) -/

/-- What an end leaves that gives its first answer to a numbered message: the answer is kept and sent. -/
def answeredState (e : GateEnd) (seq : Nat) (r : GatePayload × State) : State :=
  (r.2.setGate e { r.2.gateAt e with answered := ((seq, r.1) :: (r.2.gateAt e).answered).take 32768, lastTx := r.2.now }).emit (.gate (e = .host) seq r.1)

section Answered

variable {e : GateEnd} {seq : Nat} {r : GatePayload × State}

@[simp] theorem answeredState_out : (answeredState e seq r).out = r.2.out ++ [.gate (e = .host) seq r.1] := by cases e <;> rfl
@[simp] theorem answeredState_dict : (answeredState e seq r).dict = r.2.dict := by cases e <;> rfl
@[simp] theorem answeredState_blobs : (answeredState e seq r).blobs = r.2.blobs := by cases e <;> rfl
@[simp] theorem answeredState_contexts : (answeredState e seq r).contexts = r.2.contexts := by cases e <;> rfl
@[simp] theorem answeredState_context (c : Nat) : (answeredState e seq r).context c = r.2.context c := by cases e <;> rfl
@[simp] theorem answeredState_mem : (answeredState e seq r).mem = r.2.mem := by cases e <;> rfl
@[simp] theorem answeredState_tiles : (answeredState e seq r).tiles = r.2.tiles := by cases e <;> rfl
@[simp] theorem answeredState_jobs : (answeredState e seq r).jobs = r.2.jobs := by cases e <;> rfl
@[simp] theorem answeredState_pke : (answeredState e seq r).pke = r.2.pke := by cases e <;> rfl
@[simp] theorem answeredState_unstored : (answeredState e seq r).unstored = r.2.unstored := by cases e <;> rfl
@[simp] theorem answeredState_flash : (answeredState e seq r).flash = r.2.flash := by cases e <;> rfl

@[simp] theorem answeredState_blob (i k : Nat) : (answeredState e seq r).blob i k = r.2.blob i k := by cases e <;> rfl

@[simp] theorem answeredState_entry (i k : Nat) : (answeredState e seq r).entry i k = r.2.entry i k := by cases e <;> rfl

@[simp] theorem answeredState_restart : (answeredState e seq r).restart = r.2.restart := by cases e <;> rfl

theorem answeredState_answered : ((answeredState e seq r).gateAt e).answered.lookup seq = some r.1 := by
  cases e <;> simp [answeredState, State.setGate, State.gateAt, State.emit]

end Answered

section Requests

variable {s : State} {e : GateEnd} {seq ctx : Nat}

/-- A numbered message that is new takes effect and is answered, where its effect leaves the end open (R14-R16). -/
theorem onNumbered_answers {f : State → GatePayload × State} (h : Safety.hears s e = true) (hs : (s.gateAt e).answered.lookup seq = none)
    (hOpen : ((f (s.setGate e { s.gateAt e with lastRx := s.now })).2.gateAt e).quietUntil ≤ (f (s.setGate e { s.gateAt e with lastRx := s.now })).2.now) :
    s.onNumbered e seq f = answeredState e seq (f (s.setGate e { s.gateAt e with lastRx := s.now })) := by
  rw [Laws.onNumbered_fresh h hs, gateAnswer_of_open (by cases e <;> exact hOpen)]
  cases e <;> rfl

theorem accessAll_singleton {f : State → Nat × Option Word → (Nat × Nat) × State} {p : Nat × Option Word} : s.accessAll f [p] = ([(f s p).1], (f s p).2) := rfl

/-! ### Fumarole's end (R14, R18, R33) -/

theorem fieldEntry_persistent {index sub : Nat} (hSub : sub < 256) (hPersist : isPersistent index sub = true) (hField : isFieldServed index = false) :
    s.fieldEntry ctx (keyOffset (entryKey index sub), none) = ((OK, (s.recordOf (entryKey index sub)).getD (entryDefault index sub)), s) := by
  simp [State.fieldEntry, indexAt_keyOffset hSub, subAt_keyOffset hSub, hPersist, hField]

theorem dictRequest_reads_store {index sub : Nat} (h : Safety.hears s .field = true) (hOpen : s.fieldGate.quietUntil ≤ s.now) (hSub : sub < 256)
    (hCtx : isDtp ctx = false) (hs : s.fieldGate.answered.lookup seq = none) (hPersist : isPersistent index sub = true) (hField : isFieldServed index = false) :
    ∃ t, exec (.dictRequest .field seq ctx (.entries [(keyOffset (entryKey index sub), none)])) s = .next t
      ∧ t.out = s.out ++ [.gate false seq (.response [(OK, (s.recordOf (entryKey index sub)).getD (entryDefault index sub))] [])]
      ∧ t.dict = s.dict ∧ (t.fieldGate.answered.lookup seq).isSome := by
  have hServe (t : State) : t.serveField ctx (.entries [(keyOffset (entryKey index sub), none)])
      = (.response [(OK, (t.recordOf (entryKey index sub)).getD (entryDefault index sub))] [], t) := by
    simp [State.serveField, hCtx, accessAll_singleton, fieldEntry_persistent hSub hPersist hField]
  refine ⟨_, congrArg Host.Outcome.next (onNumbered_answers (e := .field) h hs ?_), ?_⟩
  · simp only [hServe]
    exact hOpen
  · simp only [hServe]
    refine ⟨by simp; rfl, by simp, ?_⟩
    exact Option.isSome_iff_exists.mpr ⟨_, answeredState_answered (e := .field)⟩

theorem storeValues_singleton {index sub : Nat} {v : Word} {r : EntryRow} (hSub : sub < 256) (hRow : lookupEntry index sub = some r)
    (hPersist : r.persist = true) (hContent : r.ty.isContent = false) (hRange : s.rangeRefusal r index sub v.toNat = none) :
    s.storeValues [(keyOffset (entryKey index sub), v)] = (OK, s.keepRecord { values := [(entryKey index sub, v.toNat)], contents := [] }) := by
  simp [State.storeValues, State.storeRefusal, indexAt_keyOffset hSub, subAt_keyOffset hSub, hRow, hPersist, hContent, hRange]

theorem dictRequest_stores {index sub : Nat} {v : Word} {r : EntryRow} (h : Safety.hears s .field = true) (hOpen : s.fieldGate.quietUntil ≤ s.now)
    (hSub : sub < 256) (hs : s.fieldGate.answered.lookup seq = none) (hRow : lookupEntry index sub = some r) (hPersist : r.persist = true)
    (hContent : r.ty.isContent = false) (hRange : s.rangeRefusal r index sub v.toNat = none) :
    ∃ t, exec (.dictRequest .field seq ctx (.store [(keyOffset (entryKey index sub), v)])) s = .next t
      ∧ t.out = s.out ++ [.gate false seq (answerOf OK 0)] ∧ t.dict = s.dict
      ∧ t.unstored = s.unstored ++ [{ values := [(entryKey index sub, v.toNat)], contents := [] }] := by
  have hServe := storeValues_singleton (s := s.setGate .field { s.fieldGate with lastRx := s.now }) hSub hRow hPersist hContent hRange
  refine ⟨_, congrArg Host.Outcome.next (onNumbered_answers (e := .field) h hs ?_), ?_⟩
  · simp only [State.serveField, State.gateAt, hServe]
    exact hOpen
  · simp only [State.serveField, State.gateAt, hServe]
    simp [State.keepRecord, State.setGate]

end Requests

/-! ### A DTP session's context (R36, R51, R437) -/

section Sessions

variable {s : State} {id i sub : Nat} {r : EntryRow}

theorem dtpReady_parts (h : Safety.dtpReady s id = true) :
    s.ready = true ∧ s.recovery = false ∧ s.hostGate.down = false ∧ s.fieldGate.down = false ∧ id ≤ 8 := by
  simpa [Safety.dtpReady, and_assoc] using h

/-- A session's context is a DTP context and no fabric node's. -/
theorem session_context (h : id ≤ 8) : isDtp (16 + id) = true ∧ isFabric (16 + id) = false := by
  constructor
  · simp [isDtp]; omega
  · simp [isFabric]; omega

theorem hasContext_session (h : id ≤ 8) : s.hasContext (16 + id) = true := by
  simp [State.hasContext, (session_context h).2]

/-- R17 keeps a session from device data and keys, whatever the access. -/
theorem accessRefusal_protected {ctx : Nat} (hCtx : isDtp ctx = true) (hProtected : gateProtected i sub = true) (w : Bool) :
    s.accessRefusal ctx i sub w = some ACCESS_PROTECT := by
  have h0 : ctx ≠ 0 := by
    rintro rfl
    simp [isDtp] at hCtx
  simp [State.accessRefusal, h0, hCtx, hProtected]

/-- Steps 1 to 4 of R437 pass. -/
theorem accessRefusal_session (h : Safety.dtpReady s id = true) (hProtected : gateProtected i sub = false) (hRow : lookupEntry i sub = some r)
    (hTile : ((tileOf i).any fun t => !s.tileEnabled t) = false) (w : Bool) : s.accessRefusal (16 + id) i sub w = none := by
  obtain ⟨-, -, -, -, hId⟩ := dtpReady_parts h
  obtain ⟨-, hFabric⟩ := session_context hId
  simp [State.accessRefusal, hProtected, hFabric, hRow, hTile]

/-- An entry that is not protected is not the engine's. -/
theorem unclaimed_session {ctx : Nat} (hProtected : gateProtected i sub = false) (w : Bool) : s.unclaimed ctx i sub w = false := by
  have h0 : i ≠ 0x9200 := by
    rintro rfl
    simp [gateProtected] at hProtected
  have h1 : i ≠ 0x9210 := by
    rintro rfl
    simp [gateProtected] at hProtected
  simp [State.unclaimed, h0, h1]

theorem unserved_session (h : Safety.dtpReady s id = true) (w : Bool) : s.unserved (16 + id) i w = false := by
  obtain ⟨hReady, hRecovery, -⟩ := dtpReady_parts h
  simp [State.unserved, hReady, hRecovery]

theorem gateConflict_session (h : Safety.dtpReady s id = true) (w : Bool) : s.gateConflict (16 + id) i sub w = false := by
  obtain ⟨-, -, hHost, hField, -⟩ := dtpReady_parts h
  simp [State.gateConflict, State.gateLost, hHost, hField]

theorem stateRefusal_session (h : Safety.dtpReady s id = true) (hProtected : gateProtected i sub = false) (w : Bool) :
    s.stateRefusal (16 + id) i sub w = none := by
  simp [State.stateRefusal, unclaimed_session hProtected, unserved_session h, gateConflict_session h]

/-- The outcome of a session's access is recorded in its context (R46). -/
theorem record_session (hId : id ≤ 8) {code : Nat} (hk : code ≠ STATE_CONFLICT) (hw : code ≠ WAITING) :
    s.record (16 + id) i sub code = s.setContext (16 + id)
      { s.context (16 + id) with lastStatus := code, lastEntry := entryKey i sub, lastAccess := s.now,
                                 errorCount := if isRefusal code then satAdd 0xFFFFFFFF (s.context (16 + id)).errorCount 1
                                   else (s.context (16 + id)).errorCount } := by
  simp [State.record, State.countConflict, hk, hw, State.reachesContext, hasContext_session hId]

/-- Marking the moment of a message does not change what a session may do. -/
theorem dtpReady_setGate (h : Safety.dtpReady s id = true) :
    Safety.dtpReady (s.setGate .host { s.hostGate with lastRx := s.now }) id = true := h

/-- A session reads an entry that is not protected. -/
theorem accessEntry_session_read (h : Safety.dtpReady s id = true) (hSub : sub < 256) (hRow : lookupEntry i sub = some r) (hAcc : r.acc ≠ .wo ∨ sub = 0)
    (hProtected : gateProtected i sub = false) (hIndex : i ≠ 0x1030) (hTile : ((tileOf i).any fun t => !s.tileEnabled t) = false) :
    s.accessEntry (16 + id) (keyOffset (entryKey i sub), none) = ((OK, s.readView (16 + id) r i sub), s.record (16 + id) i sub OK) := by
  obtain ⟨-, -, -, -, hId⟩ := dtpReady_parts h
  have hNarrow : i ≠ 0x3480 := by
    rintro rfl
    simp [gateProtected] at hProtected
  have hWo : ¬(r.acc = .wo ∧ ¬sub = 0) := fun hx => hAcc.elim (fun ha => ha hx.1) hx.2
  simp [State.accessEntry, State.accessHere, State.readHere, State.readResult, State.readRow, State.readOp, State.recordRead, State.contextFull,
    indexAt_keyOffset hSub, subAt_keyOffset hSub, accessRefusal_session h hProtected hRow hTile, stateRefusal_session h hProtected, hRow, hWo, hNarrow,
    hIndex, hasContext_session hId]

end Sessions

end Sys2Proof.Proofs
end

section
/-! PROOFS. What a DTP session's requests do at the host end (R17, R53, R54). -/

namespace Sys2Proof.Proofs

open Sys2Proof.Machine

section HostEnd

variable {s : State} {seq ctx id i sub : Nat} {r : EntryRow}

/-- The host end serves a session's entries one after another. -/
theorem serveHost_entry (hCtx : isDtp ctx = true) (p : Nat × Option Word) :
    s.serveHost ctx (.entries [p]) = (.response [(s.accessEntry ctx p).1] [], (s.accessEntry ctx p).2) := by
  simp [State.serveHost, hCtx, accessAll_singleton]

theorem dictRequest_reads (h : Safety.hears s .host = true) (hDtp : Safety.dtpReady s id = true) (hOpen : s.hostGate.quietUntil ≤ s.now)
    (hs : s.hostGate.answered.lookup seq = none) (hSub : sub < 256) (hRow : lookupEntry i sub = some r) (hAcc : r.acc ≠ .wo ∨ sub = 0)
    (hProtected : gateProtected i sub = false) (hIndex : i ≠ 0x1030) (hTile : ((tileOf i).any fun t => !s.tileEnabled t) = false) :
    ∃ t, exec (.dictRequest .host seq (16 + id) (.entries [(keyOffset (entryKey i sub), none)])) s = .next t
      ∧ t.out = s.out ++ [.gate true seq (.response [(OK, (s.setGate .host { s.hostGate with lastRx := s.now }).readView (16 + id) r i sub)] [])]
      ∧ Safety.outcome t (16 + id) i sub OK ∧ t.dict = s.dict ∧ t.mem = s.mem ∧ t.tiles = s.tiles ∧ t.jobs = s.jobs := by
  obtain ⟨-, -, -, -, hId⟩ := dtpReady_parts hDtp
  have hServe := serveHost_entry (s := s.setGate .host { s.hostGate with lastRx := s.now }) (session_context hId).1 (keyOffset (entryKey i sub), none)
  rw [accessEntry_session_read (dtpReady_setGate hDtp) hSub hRow hAcc hProtected hIndex hTile, record_session hId (by decide) (by decide)] at hServe
  refine ⟨_, congrArg Host.Outcome.next (onNumbered_answers (e := .host) h hs ?_), ?_⟩
  · simp only [State.gateAt, hServe]
    exact hOpen
  · simp only [State.gateAt, hServe]
    simp [Safety.outcome]

/-- An access that is no session's, or that is to device data or keys, is refused (R17). -/
theorem serveHost_refuses (h : gateProtected i sub = true ∨ isDtp ctx = false) (hSub : sub < 256) (v : Option Word) :
    ∃ x, s.serveHost ctx (.entries [(keyOffset (entryKey i sub), v)]) = (.response [(ACCESS_PROTECT, x)] [],
      if isDtp ctx then s.record ctx i sub ACCESS_PROTECT else s) := by
  cases hCtx : isDtp ctx with
  | false => exact ⟨allOnes, by simp [State.serveHost, hCtx, answerOf]⟩
  | true =>
    have hProtected : gateProtected i sub = true := by simpa [hCtx] using h
    rw [serveHost_entry hCtx]
    cases v with
    | none =>
      refine ⟨allOnes, ?_⟩
      simp [State.accessEntry, State.accessHere, State.readHere, State.readResult, State.recordRead, indexAt_keyOffset hSub, subAt_keyOffset hSub,
        accessRefusal_protected hCtx hProtected]
    | some w =>
      have hNote : s.noteWrite i sub ACCESS_PROTECT = s := by
        have h0 : i ≠ 0x2010 := by rintro rfl; simp [gateProtected] at hProtected
        have h1 : i ≠ 0x3030 := by rintro rfl; simp [gateProtected] at hProtected
        simp [State.noteWrite, h0, h1]
      have hGroup : i ≠ 0x1020 := by rintro rfl; simp [gateProtected] at hProtected
      refine ⟨0, ?_⟩
      simp [State.accessEntry, State.accessHere, State.writeHere, State.decideAny, indexAt_keyOffset hSub, subAt_keyOffset hSub,
        accessRefusal_protected hCtx hProtected, hNote, hGroup]

/-- An outcome but STATE_CONFLICT is recorded in the access's context alone, if at all (R46). -/
theorem record_eq_or_setContext {code : Nat} (hk : code ≠ STATE_CONFLICT) : s.record ctx i sub code = s ∨ ∃ c, s.record ctx i sub code = s.setContext ctx c := by
  simp only [State.record, State.countConflict, hk, if_false, State.updContext]
  split
  · exact .inl rfl
  · split
    · exact .inr ⟨_, rfl⟩
    · exact .inl rfl

theorem dictRequest_refuses (h : Safety.hears s .host = true) (hOpen : s.hostGate.quietUntil ≤ s.now) (hSub : sub < 256)
    (hs : s.hostGate.answered.lookup seq = none) (hRefused : gateProtected i sub = true ∨ isDtp ctx = false) (v : Option Word) :
    ∃ t x, exec (.dictRequest .host seq ctx (.entries [(keyOffset (entryKey i sub), v)])) s = .next t
      ∧ t.out = s.out ++ [.gate true seq (.response [(ACCESS_PROTECT, x)] [])]
      ∧ t.dict = s.dict ∧ t.tiles = s.tiles ∧ t.mem = s.mem ∧ t.pke = s.pke ∧ t.jobs = s.jobs ∧ t.blobs = s.blobs := by
  obtain ⟨x, hServe⟩ := serveHost_refuses (s := s.setGate .host { s.hostGate with lastRx := s.now }) hRefused hSub v
  have hRecord := record_eq_or_setContext (s := s.setGate .host { s.hostGate with lastRx := s.now }) (ctx := ctx) (i := i) (sub := sub) (code := ACCESS_PROTECT)
    (by decide)
  refine ⟨_, x, congrArg Host.Outcome.next (onNumbered_answers (e := .host) h hs ?_), ?_⟩
  · simp only [State.gateAt, hServe]
    split
    · rcases hRecord with hEq | ⟨c, hEq⟩
      · rw [hEq]; exact hOpen
      · rw [hEq]; exact hOpen
    · exact hOpen
  · simp only [State.gateAt, hServe]
    split
    · rcases hRecord with hEq | ⟨c, hEq⟩
      · rw [hEq]; simp [State.setGate]
      · rw [hEq]; simp [State.setGate]
    · simp [State.setGate]

/-! ### Segments (R54, R55) -/

/-- A transfer of a content entry of the host side may start in a session's context. -/
theorem startRefusal_session {write : Bool} {length : Nat} (h : Safety.dtpReady s id = true) (hClosed : (s.context (16 + id)).groupState ≠ 1) (hSub : 0 < sub)
    (hRow : lookupEntry i sub = some r) (hContent : r.ty.isContent = true) (hProtected : gateProtected i sub = false)
    (hTile : ((tileOf i).any fun t => !s.tileEnabled t) = false)
    (hWrite : write = true → r.acc ≠ .ro ∧ i ∉ [0x2010, 0x9030, 0x9100] ∧ length ≤ maxContent i sub)
    (hRead : write = false → ¬(0x8040 ≤ i ∧ i < 0x8048)) : s.startRefusal (16 + id) i sub write length = none := by
  have hForm : s.startForm r (16 + id) i sub write length = none := by
    cases write with
    | false => simp [State.startForm, hContent, hSub.ne']
    | true =>
      obtain ⟨hRo, hIndex, hLength⟩ := hWrite rfl
      simp only [List.mem_cons, List.not_mem_nil, or_false, not_or] at hIndex
      simp [State.startForm, hContent, hSub.ne', hRo, hIndex, hLength]
  have hSlots : i ≠ 0x9210 := by
    rintro rfl
    simp [gateProtected] at hProtected
  have hState : s.startState (16 + id) i sub write = none := by
    cases write with
    | false =>
      have hRead := hRead rfl
      simp [State.startState, unclaimed_session hProtected, unserved_session h, State.startLost, gateConflict_session h, hClosed, hSlots]
      omega
    | true =>
      obtain ⟨-, hIndex, -⟩ := hWrite rfl
      simp only [List.mem_cons, List.not_mem_nil, or_false, not_or] at hIndex
      simp [State.startState, unclaimed_session hProtected, unserved_session h, State.startLost, gateConflict_session h, hClosed, hIndex]
  simp [State.startRefusal, accessRefusal_session h hProtected hRow hTile, hRow, hForm, hState]

/-- The fields of a context's segment window do not show in any entry's content. -/
theorem content_updContext {f : Context → Context} (hf : (f (s.context ctx)).logReadFrom = (s.context ctx).logReadFrom) (k : Nat) :
    (s.updContext ctx f).content ctx i k = s.content ctx i k := by
  have hLog : (s.updContext ctx f).logWindow ctx = s.logWindow ctx := by
    simp only [State.logWindow, State.updContext, Laws.context_setContext_same, hf]
    rfl
  unfold State.content
  rw [hLog]
  rfl

end HostEnd

end Sys2Proof.Proofs
end

section
/-! PROOFS. Segmented transfers: how one starts, stores its segments and ends (R54, R55, R438). -/

namespace Sys2Proof.Proofs

open Sys2Proof.Machine

section Transfers

variable {s : State} {ctx i sub a length : Nat}

/-! ### Frames of a dropped transfer -/

/-- A dropped transfer changes its context, and PendingState at most. -/
theorem dropTransfer_eq : ∃ d, s.dropTransfer ctx = { (s.updContext ctx fun c => { c with transfer := none }) with dict := d } := by
  simp only [State.dropTransfer]
  split
  · exact ⟨_, rfl⟩
  · exact ⟨_, rfl⟩

@[simp] theorem dropTransfer_mem : (s.dropTransfer ctx).mem = s.mem := by
  obtain ⟨d, h⟩ := dropTransfer_eq (s := s) (ctx := ctx)
  rw [h]; rfl

@[simp] theorem dropTransfer_blobs : (s.dropTransfer ctx).blobs = s.blobs := by
  obtain ⟨d, h⟩ := dropTransfer_eq (s := s) (ctx := ctx)
  rw [h]; rfl

@[simp] theorem dropTransfer_out : (s.dropTransfer ctx).out = s.out := by
  obtain ⟨d, h⟩ := dropTransfer_eq (s := s) (ctx := ctx)
  rw [h]; rfl

@[simp] theorem dropTransfer_now : (s.dropTransfer ctx).now = s.now := by
  obtain ⟨d, h⟩ := dropTransfer_eq (s := s) (ctx := ctx)
  rw [h]; rfl

@[simp] theorem dropTransfer_tiles : (s.dropTransfer ctx).tiles = s.tiles := by
  obtain ⟨d, h⟩ := dropTransfer_eq (s := s) (ctx := ctx)
  rw [h]; rfl

@[simp] theorem dropTransfer_jobs : (s.dropTransfer ctx).jobs = s.jobs := by
  obtain ⟨d, h⟩ := dropTransfer_eq (s := s) (ctx := ctx)
  rw [h]; rfl

@[simp] theorem dropTransfer_flash : (s.dropTransfer ctx).flash = s.flash := by
  obtain ⟨d, h⟩ := dropTransfer_eq (s := s) (ctx := ctx)
  rw [h]; rfl

@[simp] theorem dropTransfer_gateAt (e : GateEnd) : (s.dropTransfer ctx).gateAt e = s.gateAt e := by
  obtain ⟨d, h⟩ := dropTransfer_eq (s := s) (ctx := ctx)
  rw [h]; rfl

@[simp] theorem dropTransfer_blob (k l : Nat) : (s.dropTransfer ctx).blob k l = s.blob k l := by
  obtain ⟨d, h⟩ := dropTransfer_eq (s := s) (ctx := ctx)
  rw [h]; rfl


@[simp] theorem dropTransfer_context : (s.dropTransfer ctx).context ctx = { s.context ctx with transfer := none } := by
  obtain ⟨d, h⟩ := dropTransfer_eq (s := s) (ctx := ctx)
  rw [h]
  exact Laws.context_setContext_same ..

/-- With no transfer to PendingImage open, dropping a transfer changes its context alone. -/
theorem dropTransfer_of_not_staging (h : (s.context ctx).transfer.any Transfer.stages = false) :
    s.dropTransfer ctx = s.updContext ctx fun c => { c with transfer := none } := by
  simp [State.dropTransfer, h]

/-! ### A read transfer -/

/-- The transfer that a read opens: a copy of the content at the start. -/
def readTransfer (a : Nat) (content : List Byte) : Transfer := { addr := a, write := false, length := content.length, content := content }

/-- START_READ of plain content copies it; the window is at its start (R54, R55). -/
theorem openRead_of_plain (ha : (s.context ctx).target = a) (hStart : s.startRefusal ctx (a / 256) (a % 256) false 0 = none) (hPlain : a / 256 ≠ 0x9010) :
    s.openRead ctx = (OK, (s.dropTransfer ctx).updContext ctx fun c =>
      { c with transfer := some (readTransfer a (s.content ctx (a / 256) (a % 256))), length := (s.content ctx (a / 256) (a % 256)).length, offset := 0 }) := by
  simp [State.openRead, ha, hStart, State.startContent, hPlain, readTransfer]

/-! ### A write transfer -/

/-- The transfer that a write opens. -/
def writeTransfer (a length : Nat) : Transfer := { addr := a, write := true, length := length }

theorem writeTransfer_stages (h : a / 256 ≠ 0x9100) : (writeTransfer a length).stages = false := by
  simp [writeTransfer, Transfer.stages, Transfer.index, h]

/-- A write transfer of an entry on the host side opens with nothing committed. -/
theorem openTransfer_of_plain (hStart : s.startRefusal ctx (a / 256) (a % 256) true length = none) (hPlain : a / 256 ≠ 0x9100) :
    s.openTransfer ctx a length = (OK, (s.dropTransfer ctx).updContext ctx fun c => { c with transfer := some (writeTransfer a length) }) := by
  have hStages := writeTransfer_stages (length := length) hPlain
  simp only [writeTransfer] at hStages
  simp [State.openTransfer, hStart, writeTransfer, hStages]

/-- A segment of a transfer that is not PendingImage's is kept in the transfer. -/
theorem storeSegment_of_plain {t : Transfer} (h : t.stages = false) (off : Nat) (d : List Byte) :
    s.storeSegment ctx t off d = (OK, s.updContext ctx fun c => { c with transfer := some (t.commit off d) }) := by
  simp [State.storeSegment, h]

/-! ### Committed bytes -/

section Committed

variable {d : List Byte}

/-- Bytes put one after another from an offset are read back there. -/
theorem get?_putBytes_zipIdx (d : List Byte) : ∀ (m : Tab Byte) (off k : Nat),
    Tab.get? ((d.zipIdx off).foldl (fun (m : Tab Byte) (p : Byte × Nat) => Tab.put m p.2 p.1) m) k =
      if off ≤ k ∧ k < off + d.length then d[k - off]? else Tab.get? m k := by
  induction d with
  | nil =>
    intro m off k
    rw [if_neg (by simp)]
    rfl
  | cons b d ih =>
    intro m off k
    rw [List.zipIdx_cons, List.foldl_cons, ih, List.length_cons]
    rcases Nat.lt_trichotomy k off with hk | hk | hk
    · rw [if_neg (by omega), if_neg (by omega), Laws.tab_get?_put_ne _ _ (by omega)]
    · subst hk
      rw [if_neg (by omega), if_pos (by omega), Laws.tab_get?_put_same]
      simp
    · obtain ⟨n, rfl⟩ := Nat.exists_eq_add_of_lt hk
      by_cases hIn : n < d.length
      · rw [if_pos (by omega), if_pos (by omega), show off + n + 1 - off = n + 1 by omega, show off + n + 1 - (off + 1) = n by omega,
          List.getElem?_cons_succ]
      · rw [if_neg (by omega), if_neg (by omega), Laws.tab_get?_put_ne _ _ (by omega)]

/-- A key above every listed one is added at the end. -/
theorem put_of_last {α : Type} (m : Tab α) (k : Nat) (v : α) (h : ∀ p ∈ m, p.1 < k) : Tab.put m k v = m ++ [(k, v)] := by
  induction m with
  | nil => rfl
  | cons p m ih =>
    obtain ⟨k', v'⟩ := p
    have hk : k' < k := h (k', v') (List.mem_cons_self ..)
    rw [Tab.put, if_neg (by omega), if_neg (by omega), ih fun q hq => h q (List.mem_cons_of_mem _ hq)]
    rfl

/-- Bytes put in order after all that are listed follow them. -/
theorem putBytes_zipIdx_of_last (d : List Byte) : ∀ (m : Tab Byte) (off : Nat), (∀ p ∈ m, p.1 < off) →
    (d.zipIdx off).foldl (fun (m : Tab Byte) (p : Byte × Nat) => Tab.put m p.2 p.1) m = m ++ (d.zipIdx off).map fun p => (p.2, p.1) := by
  induction d with
  | nil => simp
  | cons b d ih =>
    intro m off h
    rw [List.zipIdx_cons, List.foldl_cons, put_of_last m off b h, ih]
    · simp
    · intro p hp
      rcases List.mem_append.mp hp with hp | hp
      · exact Nat.lt_succ_of_lt (h p hp)
      · rw [List.mem_singleton.mp hp]; exact Nat.lt_succ_self off

/-- A transfer that one segment fills from its start holds the segment's bytes in order. -/
theorem committed_of_empty {t : Transfer} (h : t.committed = []) (d : List Byte) (off : Nat) :
    (t.commit off d).committed = (d.zipIdx off).map fun p => (p.2, p.1) := by
  rw [Transfer.commit, h]
  exact putBytes_zipIdx_of_last d [] off (by simp)

theorem bytes_commit_of_empty {t : Transfer} (h : t.committed = []) (d : List Byte) (off : Nat) : (t.commit off d).bytes = d := by
  rw [Transfer.bytes, committed_of_empty h, List.map_map]
  exact List.zipIdx_map_fst off d

/-- A committed segment is read back from its place. -/
theorem get?_commit {t : Transfer} (off : Nat) {k : Nat} (hk : k < d.length) :
    Tab.get? (t.commit off d).committed (off + k) = d[k]? := by
  rw [Transfer.commit, get?_putBytes_zipIdx, if_pos (by omega), Nat.add_sub_cancel_left]

end Committed

end Transfers

end Sys2Proof.Proofs
end

section
/-! PROOFS. A session's segments and its OPEN at the host end (R17, R37, R53-R55). -/

namespace Sys2Proof.Proofs

open Sys2Proof.Machine

section Segments

variable {s : State} {seq id i sub : Nat} {r : EntryRow}

/-! ### A segment read (R54) -/

/-- A session's segment read copies the content and returns its first bytes; beside its context, PendingState alone can change (log entry 28). -/
theorem segmentRead_session (len : Nat) (h : Safety.dtpReady s id = true) (hClosed : (s.context (16 + id)).groupState ≠ 1) (hSub : 0 < sub) (hSub' : sub < 256)
    (hRow : lookupEntry i sub = some r) (hContent : r.ty.isContent = true) (hPlain : i ≠ 0x9010) (hProtected : gateProtected i sub = false)
    (hCapture : ¬(0x8040 ≤ i ∧ i < 0x8048)) (hTile : ((tileOf i).any fun t => !s.tileEnabled t) = false) :
    ∃ cs d, s.segmentRead (16 + id) (keyOffset (entryKey i sub)) 0 len =
      (OK, (s.content (16 + id) i sub).take len, { s with contexts := cs, dict := d }) := by
  obtain ⟨-, -, -, -, hId⟩ := dtpReady_parts h
  let u := s.updContext (16 + id) fun c => { c with target := entryKey i sub }
  have hTarget : u.context (16 + id) = { s.context (16 + id) with target := entryKey i sub } := Laws.context_setContext_same ..
  have hStart : u.startRefusal (16 + id) (entryKey i sub / 256) (entryKey i sub % 256) false 0 = none := by
    rw [entryKey_div hSub', entryKey_mod hSub']
    exact startRefusal_session (s := u) h (by rw [hTarget]; exact hClosed) hSub hRow hContent hProtected hTile (by simp) fun _ => hCapture
  have hOpen := openRead_of_plain (s := u) (ctx := 16 + id) (by rw [hTarget]) hStart (by rwa [entryKey_div hSub'])
  rw [entryKey_div hSub', entryKey_mod hSub', content_updContext rfl] at hOpen
  obtain ⟨d, hDrop⟩ := dropTransfer_eq (s := u) (ctx := 16 + id)
  refine ⟨(s.segmentRead (16 + id) (keyOffset (entryKey i sub)) 0 len).2.2.contexts, d, ?_⟩
  simp only [State.segmentRead, keyOffset_aligned, ne_eq, not_true_eq_false, if_false, State.segmentSource, offsetKey_keyOffset, and_false]
  rw [show s.updContext (16 + id) (fun c => { c with target := entryKey i sub }) = u from rfl, hOpen]
  simp only [if_true, State.segmentBytes, State.updContext, Laws.context_setContext_same, readTransfer, List.drop_zero]
  rw [record_session hId (by decide) (by decide), hDrop]
  rfl

theorem dictRequest_segmentReads (len : Nat) (h : Safety.hears s .host = true) (hDtp : Safety.dtpReady s id = true) (hOpen : s.hostGate.quietUntil ≤ s.now)
    (hs : s.hostGate.answered.lookup seq = none) (hClosed : (s.context (16 + id)).groupState ≠ 1) (hSub : 0 < sub) (hSub' : sub < 256)
    (hRow : lookupEntry i sub = some r) (hContent : r.ty.isContent = true) (hPlain : i ≠ 0x9010) (hProtected : gateProtected i sub = false)
    (hCapture : ¬(0x8040 ≤ i ∧ i < 0x8048)) (hTile : ((tileOf i).any fun t => !s.tileEnabled t) = false) :
    ∃ t, exec (.dictRequest .host seq (16 + id) (.segmentRead (keyOffset (entryKey i sub)) 0 len)) s = .next t ∧ t.mem = s.mem ∧ t.blobs = s.blobs
      ∧ t.out = s.out ++ [.gate true seq (.response [(OK, 0)] (((s.setGate .host { s.hostGate with lastRx := s.now }).content (16 + id) i sub).take len))] := by
  obtain ⟨-, -, -, -, hId⟩ := dtpReady_parts hDtp
  obtain ⟨cs, d, hRead⟩ := segmentRead_session (s := s.setGate .host { s.hostGate with lastRx := s.now }) len (dtpReady_setGate hDtp) hClosed hSub hSub'
    hRow hContent hPlain hProtected hCapture hTile
  have hServe : (s.setGate .host { s.hostGate with lastRx := s.now }).serveHost (16 + id) (.segmentRead (keyOffset (entryKey i sub)) 0 len) =
      (.response [(OK, 0)] (((s.setGate .host { s.hostGate with lastRx := s.now }).content (16 + id) i sub).take len),
        { (s.setGate .host { s.hostGate with lastRx := s.now }) with contexts := cs, dict := d }) := by
    simp [State.serveHost, (session_context hId).1, hRead]
  refine ⟨_, congrArg Host.Outcome.next (onNumbered_answers (e := .host) h hs ?_), ?_⟩
  · simp only [State.gateAt, hServe]
    exact hOpen
  · simp only [State.gateAt, hServe]
    simp [State.setGate]

end Segments

end Sys2Proof.Proofs
end

section
/-! PROOFS. A session's segment writes and its OPEN at the host end (R17, R37, R53-R55). -/

namespace Sys2Proof.Proofs

open Sys2Proof.Machine

section SegmentWrites

variable {s : State} {seq id i sub off : Nat} {r : EntryRow} {data : List Byte} {last : Bool}

/-- A persistent entry's new content leaves with the first segment over the gate alone (R33). -/
theorem storeContent_eq (ctx : Nat) (d : List Byte) :
    s.storeContent ctx i sub d = { s with hostGate := (s.storeContent ctx i sub d).hostGate, out := (s.storeContent ctx i sub d).out } := by
  simp only [State.storeContent, State.sendContent, State.gateSend, State.gateAt]
  split
  · rfl
  · rfl

theorem storeContent_quietUntil (ctx : Nat) (d : List Byte) : (s.storeContent ctx i sub d).hostGate.quietUntil = s.hostGate.quietUntil := by
  simp only [State.storeContent, State.sendContent, State.gateSend, State.gateAt]
  split
  · rfl
  · rfl

/-- A session's content of an entry on the host side becomes the entry's; one that persists also leaves over the gate (R33, R55). -/
theorem takeContent_session (h : Safety.dtpReady s id = true) (hIndex : i ∉ [0x2010, 0x9030, 0x9100]) (hProtected : gateProtected i sub = false)
    (hValid : contentValid i data = true) : ∃ g o f, g.quietUntil = s.hostGate.quietUntil ∧
      s.takeContent (16 + id) i sub data = (OK, { s.setBlob i sub data with hostGate := g, out := o, nonceFresh := f }) := by
  have hSlots : i ≠ 0x9210 := by
    rintro rfl
    simp [gateProtected] at hProtected
  simp only [List.mem_cons, List.not_mem_nil, or_false, not_or] at hIndex
  simp only [State.takeContent, hValid, State.startLost, gateConflict_session h, Bool.false_and, Bool.not_true, Bool.false_eq_true, if_false, hIndex, hSlots]
  have hStore := storeContent_eq (s := s) (i := i) (sub := sub) (16 + id) data
  by_cases hPersist : isPersistent i sub = true
  · refine ⟨(s.storeContent (16 + id) i sub data).hostGate, (s.storeContent (16 + id) i sub data).out,
      if i = 0x9010 then true else s.nonceFresh, storeContent_quietUntil _ _, ?_⟩
    rw [if_pos hPersist, hStore]
    split
    · rfl
    · rfl
  · refine ⟨s.hostGate, s.out, if i = 0x9010 then true else s.nonceFresh, rfl, ?_⟩
    rw [if_neg hPersist]
    split
    · rfl
    · rfl

/-- The transfer that a session's first segment opens, with the segment in it. -/
def firstSegment (key off : Nat) (data : List Byte) : Transfer := ((writeTransfer key (off + data.length)).grow (off + data.length)).commit off data

/-- A session's first segment opens its transfer and is kept in it (R54, R55). -/
theorem putSegment_session (h : Safety.dtpReady s id = true) (hClosed : (s.context (16 + id)).groupState ≠ 1)
    (hNone : (s.context (16 + id)).transfer = none) (hSub : 0 < sub) (hSub' : sub < 256) (hRow : lookupEntry i sub = some r) (hContent : r.ty.isContent = true)
    (hAcc : r.acc ≠ .ro) (hIndex : i ∉ [0x2010, 0x9030, 0x9100]) (hProtected : gateProtected i sub = false) (hLength : off + data.length ≤ maxContent i sub)
    (hTile : ((tileOf i).any fun t => !s.tileEnabled t) = false) : ∃ cs,
      Tab.get cs {} (16 + id) = { s.context (16 + id) with transfer := some (firstSegment (entryKey i sub) off data) }
      ∧ s.putSegment (16 + id) (entryKey i sub) off data last =
        if last then ({ s with contexts := cs }).finishTransfer (16 + id) else (OK, { s with contexts := cs }) := by
  have hPlain : i ≠ 0x9100 := by
    simp only [List.mem_cons, List.not_mem_nil, or_false, not_or] at hIndex
    exact hIndex.2.2
  have hStart := startRefusal_session (write := true) (length := off + data.length) h hClosed hSub hRow hContent hProtected hTile
    (fun _ => ⟨hAcc, hIndex, hLength⟩) (fun hw => nomatch hw)
  have hOpen := openTransfer_of_plain (s := s) (ctx := 16 + id) (a := entryKey i sub) (length := off + data.length)
    (by rwa [entryKey_div hSub', entryKey_mod hSub']) (by rwa [entryKey_div hSub'])
  rw [dropTransfer_of_not_staging (by simp [hNone])] at hOpen
  have hStages : ((writeTransfer (entryKey i sub) (off + data.length)).grow (off + data.length)).stages = false :=
    writeTransfer_stages (a := entryKey i sub) (length := off + data.length) (by rwa [entryKey_div hSub'])
  have hTarget : s.segmentTarget (16 + id) (entryKey i sub) (off + data.length) = s.openTransfer (16 + id) (entryKey i sub) (off + data.length) := by
    simp [State.segmentTarget, Context.hasTransfer, hNone]
  refine ⟨(s.putSegment (16 + id) (entryKey i sub) off data false).2.contexts, ?_, ?_⟩
  · simp only [State.putSegment, hTarget, hOpen, State.updContext, Laws.context_setContext_same, storeSegment_of_plain hStages]
    simp [State.setContext, firstSegment, State.context]
  · simp only [State.putSegment, hTarget, hOpen, State.updContext, Laws.context_setContext_same, storeSegment_of_plain hStages]
    cases last <;> simp [State.setContext]

@[simp] theorem blob_setBlob_same : (s.setBlob i sub data).blob i sub = data := by
  simp [State.blob, State.setBlob]

/-- The segment that fills the transfer finishes it: the entry has the content (R55). -/
theorem finishTransfer_session (h : Safety.dtpReady s id = true) (hSub : sub < 256) (hIndex : i ∉ [0x2010, 0x9030, 0x9100])
    (hProtected : gateProtected i sub = false) (hValid : contentValid i data = true)
    (hTransfer : (s.context (16 + id)).transfer = some (firstSegment (entryKey i sub) 0 data)) : ∃ t, s.finishTransfer (16 + id) = (OK, t)
      ∧ t.hostGate.quietUntil = s.hostGate.quietUntil ∧ t.now = s.now ∧ t.mem = s.mem ∧ t.blob i sub = data ∧ (t.context (16 + id)).transfer = none := by
  have hBytes : (firstSegment (entryKey i sub) 0 data).bytes = data := bytes_commit_of_empty rfl data 0
  have hFull : ¬(firstSegment (entryKey i sub) 0 data).committed.length < (firstSegment (entryKey i sub) 0 data).length := by
    rw [firstSegment, committed_of_empty rfl]
    simp [Transfer.commit, Transfer.grow, writeTransfer]
  have hKeys : (firstSegment (entryKey i sub) 0 data).index = i ∧ (firstSegment (entryKey i sub) 0 data).sub = sub :=
    ⟨entryKey_div hSub, entryKey_mod hSub⟩
  obtain ⟨g, o, f, hg, hTake⟩ := takeContent_session h hIndex hProtected hValid
  refine ⟨({ s.setBlob i sub data with hostGate := g, out := o, nonceFresh := f } : State).dropTransfer (16 + id), ?_, ?_⟩
  · simp only [State.finishTransfer, hTransfer, hFull, if_false, hKeys, hBytes, hTake, if_true]
    rfl
  · obtain ⟨d, hDrop⟩ := dropTransfer_eq (s := { s.setBlob i sub data with hostGate := g, out := o, nonceFresh := f }) (ctx := 16 + id)
    refine ⟨?_, dropTransfer_now, dropTransfer_mem, ?_, by rw [dropTransfer_context]⟩
    · rw [hDrop]; exact hg
    · rw [dropTransfer_blob]
      exact blob_setBlob_same

theorem dictRequest_segmentWrites (h : Safety.hears s .host = true) (hDtp : Safety.dtpReady s id = true) (hOpen : s.hostGate.quietUntil ≤ s.now)
    (hs : s.hostGate.answered.lookup seq = none) (hClosed : (s.context (16 + id)).groupState ≠ 1)
    (hNone : (s.context (16 + id)).transfer = none) (hSub : 0 < sub) (hSub' : sub < 256) (hRow : lookupEntry i sub = some r) (hContent : r.ty.isContent = true)
    (hAcc : r.acc ≠ .ro) (hIndex : i ∉ [0x2010, 0x9030, 0x9100]) (hProtected : gateProtected i sub = false) (hLength : off + data.length ≤ maxContent i sub)
    (hTile : ((tileOf i).any fun t => !s.tileEnabled t) = false) (hLast : last = true → off = 0 ∧ contentValid i data = true) :
    ∃ t, exec (.dictRequest .host seq (16 + id) (.segmentWrite (keyOffset (entryKey i sub)) off data last)) s = .next t
      ∧ t.out.getLast? = some (.gate true seq (answerOf OK 0)) ∧ t.mem = s.mem
      ∧ (last = true → t.blob i sub = data ∧ (t.context (16 + id)).transfer = none)
      ∧ (last = false → t.blobs = s.blobs ∧ ∃ y, (t.context (16 + id)).transfer = some y ∧ y.addr = entryKey i sub ∧ y.write = true
          ∧ ∀ k, k < data.length → Tab.get? y.committed (off + k) = data[k]?) := by
  obtain ⟨-, -, -, -, hId⟩ := dtpReady_parts hDtp
  let u := s.setGate .host { s.hostGate with lastRx := s.now }
  obtain ⟨cs, hContext, hPut⟩ := putSegment_session (s := u) (last := last) (off := off) (data := data) (dtpReady_setGate hDtp) hClosed hNone hSub hSub'
    hRow hContent hAcc hIndex hProtected hLength hTile
  have hServe : u.serveHost (16 + id) (.segmentWrite (keyOffset (entryKey i sub)) off data last) =
      (answerOf (u.putSegment (16 + id) (entryKey i sub) off data last).1 0,
        (u.putSegment (16 + id) (entryKey i sub) off data last).2.record (16 + id) i sub (u.putSegment (16 + id) (entryKey i sub) off data last).1) := by
    simp [State.serveHost, (session_context hId).1, State.segmentWrite, indexAt_keyOffset hSub', subAt_keyOffset hSub']
  have hNext := fun hq => onNumbered_answers (s := s) (e := .host) (seq := seq)
    (f := fun s => s.serveHost (16 + id) (.segmentWrite (keyOffset (entryKey i sub)) off data last)) h hs hq
  simp only [State.gateAt] at hNext
  rw [show s.setGate .host { s.hostGate with lastRx := s.now } = u from rfl, hServe] at hNext
  cases last with
  | false =>
    rw [hPut] at hNext
    simp only [Bool.false_eq_true, if_false] at hNext
    rw [record_session hId (by decide) (by decide)] at hNext
    refine ⟨_, congrArg Host.Outcome.next (hNext hOpen), ?_⟩
    simp only [answeredState_out, answeredState_mem, answeredState_context, answeredState_blobs, Laws.context_setContext_same]
    exact ⟨by simp, rfl, nofun, fun _ => ⟨rfl, _, (congrArg Context.transfer hContext), rfl, rfl, fun k hk => get?_commit off hk⟩⟩
  | true =>
    obtain ⟨rfl, hValid⟩ := hLast rfl
    obtain ⟨t, hFinish, hQuiet, hNow, hMem, hBlob, hDone⟩ := finishTransfer_session (s := { u with contexts := cs }) hDtp hSub' hIndex hProtected hValid
      (congrArg Context.transfer hContext)
    rw [hPut] at hNext
    simp only [if_true] at hNext
    rw [hFinish] at hNext
    dsimp only at hNext
    rw [record_session hId (by decide) (by decide)] at hNext
    refine ⟨_, congrArg Host.Outcome.next (hNext ?_), ?_⟩
    · simp only [Laws.setContext_now, Laws.setContext_hostGate, hQuiet, hNow]
      exact hOpen
    · simp only [answeredState_out, answeredState_mem, answeredState_context, answeredState_blob, Laws.context_setContext_same]
      exact ⟨by simp, hMem, fun _ => ⟨hBlob, hDone⟩, nofun⟩

end SegmentWrites

/-! ### A session's OPEN (R37, R45) -/

section Open

variable {s : State} {seq id : Nat}

theorem lookupEntry_groupControl : ∃ r, lookupEntry 0x1020 1 = some r ∧ r.ty = .u8 ∧ r.acc = .wo ∧ r.min = 1 ∧ r.max = 3 ∧ r.index = 0x1020 :=
  ⟨(lookupEntry 0x1020 1).get (by decide), by simp, by decide, by decide, by decide, by decide, by decide⟩

/-- An OPEN in a session's context begins its group. -/
theorem writeHere_open (h : Safety.dtpReady s id = true) (hClosed : (s.context (16 + id)).groupState ≠ 1) (hCount : s.groupCount < 32) :
    s.writeHere (16 + id) 0x1020 1 1 = (OK, s.beginGroup (16 + id) (some (s.groupSnapshot (16 + id)))) := by
  obtain ⟨-, -, -, -, hId⟩ := dtpReady_parts h
  obtain ⟨r, hRow, hTy, hAcc, hMin, hMax, hIndex⟩ := lookupEntry_groupControl
  have hAccess : s.accessRefusal (16 + id) 0x1020 1 true = none := accessRefusal_session h (by decide) hRow rfl true
  have hState := stateRefusal_session h (i := 0x1020) (sub := 1) (by decide) true
  have hRange : s.rangeRefusal r 0x1020 1 1 = none := by
    simp [State.rangeRefusal, State.valueRefusal, hTy, hMin, hMax, hIndex, EntryType.max]
  have hNote (c : Nat) (t : State) : t.noteWrite 0x1020 1 c = t := by simp [State.noteWrite]
  have hVolatile : isPersistent 0x1020 1 = false := by decide
  simp [State.writeHere, State.decideAny, hAccess, hRow, State.decideWrite, hTy, EntryType.isContent, hAcc, hRange, hState, isContextLocal, hNote,
    State.storePersistent, hVolatile, State.writeOp, State.groupControl, State.openGroup, hClosed, hCount, State.localOrFull, State.contextFull, hasContext_session hId]

theorem dictRequest_opens (h : Safety.hears s .host = true) (hDtp : Safety.dtpReady s id = true) (hOpen : s.hostGate.quietUntil ≤ s.now)
    (hs : s.hostGate.answered.lookup seq = none) (hClosed : (s.context (16 + id)).groupState ≠ 1) (hCount : s.groupCount < 32) :
    ∃ t, exec (.dictRequest .host seq (16 + id) (.entries [(keyOffset (entryKey 0x1020 1), some 1)])) s = .next t ∧ (t.context (16 + id)).groupState = 1
      ∧ t.out = s.out ++ [.gate true seq (.response [(OK, 1)] [])] ∧ t.dict = s.dict ∧ t.mem = s.mem := by
  obtain ⟨-, -, -, -, hId⟩ := dtpReady_parts hDtp
  let u := s.setGate .host { s.hostGate with lastRx := s.now }
  have hWrite := writeHere_open (s := u) (dtpReady_setGate hDtp) hClosed hCount
  have hServe := serveHost_entry (s := u) (session_context hId).1 (keyOffset (entryKey 0x1020 1), some 1)
  have hKeys : indexAt (keyOffset (entryKey 0x1020 1)) = 0x1020 ∧ subAt (keyOffset (entryKey 0x1020 1)) = 1 := ⟨by decide, by decide⟩
  have hOne : (1 : Word).toNat = 1 := by decide
  simp only [State.accessEntry, State.accessHere, hKeys, keyOffset_aligned, ne_eq, not_true_eq_false, if_false, hOne, hWrite, if_true, Option.isSome_some,
    State.beginGroup, State.updContext, Laws.context_setContext_same] at hServe
  rw [record_session hId (by decide) (by decide)] at hServe
  refine ⟨_, congrArg Host.Outcome.next (onNumbered_answers (e := .host) h hs ?_), ?_⟩
  · simp only [State.gateAt]
    rw [show s.setGate .host { s.hostGate with lastRx := s.now } = u from rfl, hServe]
    exact hOpen
  · simp only [State.gateAt]
    rw [show s.setGate .host { s.hostGate with lastRx := s.now } = u from rfl, hServe]
    simp [u]

end Open

/-- Settles O8: each form of DICT_REQUEST at the end that serves it. -/
theorem gateRequests : Obligations.GateRequests := by
  unfold Obligations.GateRequests
  exact ⟨fun _ _ _ _ _ h hOpen hSub hCtx hs hPersist hField => dictRequest_reads_store h hOpen hSub hCtx hs hPersist hField,
    fun _ _ _ _ _ _ _ h hOpen hSub hs hRow hPersist hContent hRange => dictRequest_stores h hOpen hSub hs hRow hPersist hContent hRange,
    fun _ _ _ _ _ _ h hDtp hOpen hs hSub hRow hAcc hProtected hIndex hTile => dictRequest_reads h hDtp hOpen hs hSub hRow hAcc hProtected hIndex hTile,
    fun _ _ _ _ _ len _ h hDtp hOpen hs hClosed hSub hSub' hRow hContent hPlain hProtected hCapture hTile =>
      dictRequest_segmentReads len h hDtp hOpen hs hClosed hSub hSub' hRow hContent hPlain hProtected hCapture hTile,
    fun _ _ _ _ _ _ _ _ _ h hDtp hOpen hs hClosed hNone hSub hSub' hRow hContent hAcc hIndex hProtected hLength hTile hLast =>
      dictRequest_segmentWrites h hDtp hOpen hs hClosed hNone hSub hSub' hRow hContent hAcc hIndex hProtected hLength hTile hLast,
    fun _ _ _ h hDtp hOpen hs hClosed hCount => dictRequest_opens h hDtp hOpen hs hClosed hCount,
    fun _ _ _ _ _ v h hOpen hSub hs hRefused => dictRequest_refuses h hOpen hSub hs hRefused v⟩

end Sys2Proof.Proofs
end

section
/-! PROOFS. How an end of the gate keeps it up, repeats, gives up and declares it down (R15, R16, R19, R33), and what a recorded conflict changes (R35). -/

namespace Sys2Proof.Proofs

open Sys2Proof.Machine

/-! ### A recorded conflict (R35, R46) -/

section Conflicts

variable {s : State} {ctx i sub : Nat}

/-- A counted conflict changes the counters' entries alone. -/
theorem countConflict_eq (code d : Nat) : s.countConflict code d = { s with dict := (s.countConflict code d).dict } := by
  unfold State.countConflict State.raise
  split
  · rw [if_pos rfl]; rfl
  · rfl

theorem entry_countConflict_low (code d : Nat) {k l : Nat} (hk : k < 0xB000) (hl : l < 256) : (s.countConflict code d).entry k l = s.entry k l := by
  unfold State.countConflict State.raise
  split
  · rw [if_pos rfl, State.countEvent, Laws.entry_setEntry_index _ _ _ _ _ _ (by decide) hl (by omega),
      Laws.entry_setEntry_index _ _ _ _ _ _ (by decide) hl (by omega), Laws.bump_eq, Laws.entry_setEntry_index _ _ _ _ _ _ (by decide) hl (by omega)]
  · rfl

/-- A recorded outcome changes its context, and the entries that count conflicts. -/
theorem record_eq (code : Nat) :
    s.record ctx i sub code = { s with dict := (s.record ctx i sub code).dict, contexts := (s.record ctx i sub code).contexts } := by
  have hCount := countConflict_eq (s := s) code (entryKey i sub)
  unfold State.record
  dsimp only
  split
  · rfl
  · rw [hCount]; split <;> rfl

/-- The entries below the counters of Table 19-2 keep their values. -/
theorem entry_record_low (code : Nat) {k l : Nat} (hk : k < 0xB000) (hl : l < 256) : (s.record ctx i sub code).entry k l = s.entry k l := by
  have hCount := entry_countConflict_low (s := s) code (entryKey i sub) hk hl
  unfold State.record
  dsimp only
  split
  · rfl
  · split <;> exact hCount

/-- A context that stands shows the outcome; its group and its transfer stay. -/
theorem context_record (h : s.hasContext ctx = true) {code : Nat} (hw : code ≠ WAITING) :
    (s.record ctx i sub code).context ctx = { s.context ctx with
      lastStatus := code, lastEntry := entryKey i sub, lastAccess := s.now
      errorCount := if isRefusal code then satAdd 0xFFFFFFFF (s.context ctx).errorCount 1 else (s.context ctx).errorCount } := by
  have hCount := countConflict_eq (s := s) code (entryKey i sub)
  have hReach : (s.countConflict code (entryKey i sub)).reachesContext ctx i sub = true := by
    have : (s.countConflict code (entryKey i sub)).hasContext ctx = true := by rw [hCount]; exact h
    simp [State.reachesContext, this]
  simp only [State.record, hw, if_false, hReach, if_true, State.updContext, Laws.context_setContext_same]
  rw [hCount]
  rfl

theorem transfer_record (code : Nat) : ((s.record ctx i sub code).context ctx).transfer = (s.context ctx).transfer := by
  have hCount : (s.countConflict code (entryKey i sub)).context ctx = s.context ctx := by rw [countConflict_eq]; rfl
  unfold State.record
  dsimp only
  split
  · rfl
  · split
    · rw [State.updContext, Laws.context_setContext_same, hCount]
    · rw [hCount]

end Conflicts

section Timers

variable {s : State} {e : GateEnd} {seq : Nat} {m : GateMsg}

theorem keepaliveSend_sends (hPower : s.gatePowered e = true) (hTx : (s.gateAt e).lastTx + 10000 ≤ s.now) (hOpen : (s.gateAt e).quietUntil ≤ s.now) :
    ∃ t, exec (.keepaliveSend e) s = .next t ∧ t.out = s.out ++ [.gate (e = .host) (s.gateAt e).nextSeq .keepalive]
      ∧ t.gateAt e = { s.gateAt e with nextSeq := ((s.gateAt e).nextSeq + 1) % 65536, lastTx := s.now } ∧ t.dict = s.dict ∧ t.mem = s.mem := by
  have hSilent : GatePayload.keepalive.asks = false := by decide
  refine ⟨_, congrArg Host.Outcome.next ((if_pos ⟨hPower, hTx, hOpen⟩).trans (gateSend_of_open hOpen)), ?_⟩
  rw [hSilent]
  cases e <;> exact ⟨rfl, rfl, rfl, rfl⟩

/-- An unanswered message leaves again with its own number (R15). -/
theorem gateResendTimeout_resends (hPower : s.gatePowered e = true) (hm : ((s.gateAt e).outstanding.find? fun (m : GateMsg) => m.seq = seq) = some m)
    (hRepeats : m.repeats < 4) (hSent : m.sentAt + 100000 * (m.repeats + 1) ≤ s.now) (hOpen : (s.gateAt e).quietUntil ≤ s.now) :
    ∃ t, exec (.gateResendTimeout e seq) s = .next t ∧ t.out = s.out ++ [.gate (e = .host) m.seq m.payload]
      ∧ (t.gateAt e).nextSeq = (s.gateAt e).nextSeq
      ∧ ((t.gateAt e).outstanding.find? fun (m : GateMsg) => m.seq = seq) = some { m with repeats := m.repeats + 1 } := by
  have hDue : ¬((!s.gatePowered e) = true ∨ 4 ≤ m.repeats ∨ s.now < m.sentAt + 100000 * (m.repeats + 1) ∨ s.now < (s.gateAt e).quietUntil) := by
    rw [hPower]; simp only [Bool.not_true, Bool.false_eq_true, false_or]; omega
  refine ⟨(s.setGate e { s.gateAt e with
      outstanding := (s.gateAt e).outstanding.map fun (x : GateMsg) => if x.seq = seq then { x with repeats := x.repeats + 1 } else x
      lastTx := s.now }).emit (.gate (e = .host) m.seq m.payload), congrArg Host.Outcome.next ?_, ?_⟩
  · simp only [hm, if_neg hDue]
  · have hSeq : m.seq = seq := by simpa using List.find?_some hm
    have hFind : (((s.gateAt e).outstanding.map fun (x : GateMsg) => if x.seq = seq then { x with repeats := x.repeats + 1 } else x).find?
        fun (m : GateMsg) => m.seq = seq) = some { m with repeats := m.repeats + 1 } := by
      rw [List.find?_map, show ((fun (m : GateMsg) => decide (m.seq = seq)) ∘ fun (x : GateMsg) => if x.seq = seq then { x with repeats := x.repeats + 1 } else x)
        = fun (m : GateMsg) => decide (m.seq = seq) from ?_, hm]
      · simp [hSeq]
      · funext x
        by_cases hx : x.seq = seq <;> simp [hx]
    refine ⟨?_, ?_, ?_⟩
    · cases e <;> rfl
    · cases e <;> rfl
    · cases e <;> exact hFind

/-! ### A message given up (R16, R19) -/

/-- Declaring the gate down marks its end, and reports to the management port from Fumarole's. -/
theorem declareDown_eq : s.declareDown e = { s.setGate e ((s.declareDown e).gateAt e) with out := (s.declareDown e).out } := by
  unfold State.declareDown
  dsimp only
  split
  · cases e <;> rfl
  · cases e <;> rfl

theorem gateAt_declareDown : (s.declareDown e).gateAt e =
    { s.gateAt e with down := true, downSince := if (s.gateAt e).down then (s.gateAt e).downSince else s.now } := by
  unfold State.declareDown
  dsimp only
  split
  case isTrue h =>
    generalize s.gateAt e = g at h
    cases g
    cases h
    rfl
  case isFalse h => cases e <;> simp_all [State.setGate, State.gateAt, State.emit]

/-- What an end is after it gave a message up: the message is gone, the end silent for 1 ms, and the gate down. -/
theorem gateMessageGivenUp_fails (hPower : s.gatePowered e = true) (hm : ((s.gateAt e).outstanding.find? fun (m : GateMsg) => m.seq = seq) = some m)
    (hRepeats : 4 ≤ m.repeats) (hSent : m.sentAt + 500000 ≤ s.now) : ∃ g o, g.down = true ∧ g.quietUntil = s.now + 1000000 ∧ (∀ m ∈ g.outstanding, m.seq ≠ seq)
      ∧ exec (.gateMessageGivenUp e seq) s = .next (({ s.setGate e g with out := o } : State).messageFailed m STATE_CONFLICT) := by
  have hDue : ¬((!s.gatePowered e) = true ∨ m.repeats < 4 ∨ s.now < m.sentAt + 500000) := by
    rw [hPower]; simp only [Bool.not_true, Bool.false_eq_true, false_or]; omega
  let u := s.setGate e { s.gateAt e with
    outstanding := (s.gateAt e).outstanding.filter fun (x : GateMsg) => x.seq ≠ seq, quietUntil := s.now + 1000000 }
  have hGate : (u.declareDown e).gateAt e = { u.gateAt e with down := true, downSince := if (u.gateAt e).down then (u.gateAt e).downSince else u.now } :=
    gateAt_declareDown
  refine ⟨(u.declareDown e).gateAt e, (u.declareDown e).out, ?_, ?_, ?_, congrArg Host.Outcome.next ?_⟩
  · rw [hGate]
  · rw [hGate, Laws.gateAt_setGate_same]
  · rw [hGate, Laws.gateAt_setGate_same]
    intro m hm
    simpa using (List.mem_filter.mp hm).2
  · simp only [hm, if_neg hDue]
    rw [show s.setGate e { s.gateAt e with
      outstanding := (s.gateAt e).outstanding.filter fun (x : GateMsg) => x.seq ≠ seq, quietUntil := s.now + 1000000 } = u from rfl]
    conv_lhs => rw [declareDown_eq]
    cases e <;> rfl

theorem gateMessageGivenUp_block {ctx : Nat} (hPower : s.gatePowered e = true)
    (hm : ((s.gateAt e).outstanding.find? fun (m : GateMsg) => m.seq = seq) = some m) (hRepeats : 4 ≤ m.repeats) (hSent : m.sentAt + 500000 ≤ s.now)
    (hOrigin : m.origin = .block ctx) :
    ∃ t, exec (.gateMessageGivenUp e seq) s = .next t ∧ (t.gateAt e).down = true ∧ (t.gateAt e).quietUntil = s.now + 1000000
      ∧ (∀ m ∈ (t.gateAt e).outstanding, m.seq ≠ seq) ∧ (t.context ctx).transfer = none := by
  obtain ⟨g, o, hDown, hQuiet, hGone, hExec⟩ := gateMessageGivenUp_fails hPower hm hRepeats hSent
  refine ⟨_, hExec, ?_⟩
  simp only [State.messageFailed, hOrigin]
  have hGate : ((({ s.setGate e g with out := o } : State).dropTransfer ctx).record ctx 0x9100 1 STATE_CONFLICT).gateAt e = g := by
    rw [record_eq]
    exact (dropTransfer_gateAt e).trans (Laws.gateAt_setGate_same (s := s) g)
  refine ⟨by rw [hGate, hDown], by rw [hGate, hQuiet], by rw [hGate]; exact hGone, ?_⟩
  rw [transfer_record, dropTransfer_context]

/-- What is no command entry is none of those that start something by a write, and no context's own. -/
theorem commandEntry_false {i k : Nat} (h : Safety.commandEntry i k = false) :
    (∀ j ∈ [0x1020, 0x1030, 0x1038, 0x1070, 0x1110, 0x2010, 0x3480, 0x9110, 0x9200, 0x9210, 0xA040], i ≠ j) ∧ isContextLocal i k = false
      ∧ (∀ p ∈ [(0x2820, 5), (0x3010, 1), (0x3030, 3), (0x4010, 4), (0x8010, 1), (0xB180, 4)], ¬(i = p.1 ∧ k = p.2))
      ∧ ¬(0x6100 ≤ i ∧ i < 0x6110 ∧ k = 1) ∧ ¬(0xB100 ≤ i ∧ i < 0xB160) := by
  simp only [Safety.commandEntry, Bool.or_eq_false_iff, Bool.and_eq_false_iff, decide_eq_false_iff_not, List.contains_eq_mem, and_assoc] at h
  obtain ⟨hIndex, hLocal, hPairs, hJobs, hChecks⟩ := h
  refine ⟨fun j hj => ?_, hLocal, fun p hp => ?_, by tauto, by tauto⟩
  · rintro rfl
    exact hIndex hj
  · rintro ⟨rfl, rfl⟩
    exact hPairs hp

/-- An entry that no command starts anything by takes the value alone (R31, R35). -/
theorem applyEntry_plain {ctx i k v : Nat} (h : Safety.commandEntry i k = false) : s.applyEntry ctx i k v = (OK, s.setEntry i k v) := by
  obtain ⟨hIndex, -, hPairs, -, hChecks⟩ := commandEntry_false h
  have h1 : ¬(i = 0x3010 ∧ k = 1) := hPairs (0x3010, 1) (by decide)
  have h2 : ¬(i = 0x4010 ∧ k = 4) := hPairs (0x4010, 4) (by decide)
  have h3 : ¬(0xB100 ≤ i ∧ i < 0xB160 ∧ (k = 3 ∨ k = 4)) := fun hc => hChecks ⟨hc.1, hc.2.1⟩
  simp only [State.applyEntry, h1, h2, hIndex 0xA040 (by decide), hIndex 0x9200 (by decide), hIndex 0x3480 (by decide), h3, false_and, if_false]

theorem gateMessageGivenUp_values {ctx i k old : Nat} (hPower : s.gatePowered .host = true)
    (hm : (s.hostGate.outstanding.find? fun (m : GateMsg) => m.seq = seq) = some m) (hRepeats : 4 ≤ m.repeats) (hSent : m.sentAt + 500000 ≤ s.now)
    (hCtx : ctx < 16) (hk : k < 256) (hi : i < 0xB000) (hPlain : Safety.commandEntry i k = false) (hOrigin : m.origin = .values ctx [(entryKey i k, s.entry i k, old)]) :
    ∃ t, exec (.gateMessageGivenUp .host seq) s = .next t ∧ t.entry i k = old ∧ Safety.outcome t ctx i k STATE_CONFLICT ∧ t.hostGate.down = true := by
  obtain ⟨g, o, hDown, -, -, hExec⟩ := gateMessageGivenUp_fails (e := .host) hPower hm hRepeats hSent
  refine ⟨_, hExec, ?_⟩
  have hEntry : ({ s.setGate .host g with out := o } : State).entry i k = s.entry i k := rfl
  simp only [State.messageFailed, hOrigin, State.undoValues, List.foldl_cons, List.foldl_nil, entryKey_div hk, entryKey_mod hk, hEntry, if_true,
    applyEntry_plain hPlain]
  refine ⟨?_, ?_, ?_⟩
  · rw [entry_record_low _ hi hk, Laws.entry_setEntry_same]
  · rw [Safety.outcome, context_record (Laws.hasContext_small hCtx) (by decide)]
    exact ⟨rfl, rfl⟩
  · rw [record_eq]; exact hDown

theorem gateDown_declares (hPower : s.gatePowered e = true) (hRx : (s.gateAt e).lastRx + 1000000 ≤ s.now) :
    ∃ t, exec (.gateDown e) s = .next t ∧ (t.gateAt e).down = true ∧ t.dict = s.dict ∧ t.mem = s.mem ∧ t.tiles = s.tiles := by
  refine ⟨_, congrArg Host.Outcome.next (if_pos ⟨hPower, hRx⟩), ?_, ?_⟩
  · rw [gateAt_declareDown]
  · rw [declareDown_eq]
    cases e <;> exact ⟨rfl, rfl, rfl⟩

end Timers

/-- Settles O9: each timer of an end, and what it leaves. -/
theorem gateTimers : Obligations.GateTimers := by
  unfold Obligations.GateTimers
  exact ⟨fun _ _ hPower hTx hOpen => keepaliveSend_sends hPower hTx hOpen,
    fun _ _ _ _ hPower hm hRepeats hSent hOpen => gateResendTimeout_resends hPower hm hRepeats hSent hOpen,
    fun _ _ _ _ _ hPower hm hRepeats hSent hOrigin => gateMessageGivenUp_block hPower hm hRepeats hSent hOrigin,
    fun _ _ _ _ _ _ _ hPower hm hRepeats hSent hCtx hk hi _ hPlain hOrigin =>
      gateMessageGivenUp_values hPower hm hRepeats hSent hCtx hk hi hPlain hOrigin,
    fun _ _ hPower hRx => gateDown_declares hPower hRx⟩

end Sys2Proof.Proofs
end

section
/-! PROOFS. What Fumarole's commands do on the host side: triggers, restarts, power domains, firmware blocks (R13, R18, R342, R375, R403, R415). -/

namespace Sys2Proof.Proofs

open Sys2Proof.Machine

/-- What every step of a fold leaves alone, the fold leaves alone. -/
theorem foldl_keeps {α β : Type} {f : State → α → State} (g : State → β) (h : ∀ s x, g (f s x) = g s) (l : List α) : ∀ s, g (l.foldl f s) = g s := by
  induction l with
  | nil => intro s; rfl
  | cons x l ih => intro s; exact (ih _).trans (h s x)

section Commands

variable {s : State} {seq : Nat}

/-! ### A snapshot trigger (R403) -/

theorem snapshotTrigger_ticks (target : Nat) (h : Safety.hears s .host = true) (hReady : s.ready = true) (hTimed : s.timedTicks < 4) :
    ∃ t, exec (.snapshotTrigger target) s = .next t
      ∧ t.ticks.map (fun k => (k.time, k.source, k.timed)) =
          s.ticks.map (fun k => (k.time, k.source, k.timed)) ++ [(if target = 0 then s.fabricTime + 1000 else target, srcManagement, true)]
      ∧ t.dict = s.dict ∧ t.mem = s.mem := by
  let u := s.setGate .host { s.gateAt .host with lastRx := s.now }
  have hState : s.entry 0x1100 1 = 2 := by simpa [State.ready] using hReady
  have hUpdating : u.entry 0x1100 1 ≠ 7 := by
    rw [show u.entry 0x1100 1 = 2 from hState]
    decide
  have hRoom : ¬4 ≤ u.timedTicks := Nat.not_le.mpr hTimed
  have hReady' : u.ready = true := hReady
  have hTrigger : u.managementTrigger target = u.addTick
      { time := if target = 0 then u.fabricTime + 1000 else target, source := srcManagement, timed := true, origin := u.nodeId } := by
    simp only [State.managementTrigger, hUpdating, if_false, hReady', Bool.not_true, Bool.false_eq_true, State.addTimed, hRoom]
  refine ⟨_, congrArg Host.Outcome.next ((Laws.onMessage_hears h).trans hTrigger), ?_⟩
  simp only [State.addTick, hUpdating, if_false, List.map_append, List.map_cons, List.map_nil]
  exact ⟨rfl, rfl, rfl⟩

/-! ### A restart (R415, R416) -/

theorem complete_gate (f : Frame) (status operand : Nat) (data : List Byte) :
    (s.complete f status operand data).now = s.now ∧ (s.complete f status operand data).hostGate = s.hostGate := by
  unfold State.complete
  dsimp only
  split <;> exact ⟨rfl, rfl⟩

/-- The frames that a restart refuses leave the gate alone. -/
theorem refuseHeld_gate : s.refuseHeld.now = s.now ∧ s.refuseHeld.hostGate = s.hostGate := by
  refine Prod.mk.inj (?_ : (s.refuseHeld.now, s.refuseHeld.hostGate) = (s.now, s.hostGate))
  have hComplete (l : List Frame) (t : State) :
      ((l.foldl (fun s f => s.complete f STATE_CONFLICT 0 []) t).now, (l.foldl (fun s f => s.complete f STATE_CONFLICT 0 []) t).hostGate) = (t.now, t.hostGate) :=
    foldl_keeps (fun s => (s.now, s.hostGate)) (fun s f => congrArg₂ Prod.mk (complete_gate ..).1 (complete_gate ..).2) l t
  unfold State.refuseHeld
  dsimp only
  rw [foldl_keeps (fun s => (s.now, s.hostGate)) (fun s t => hComplete _ s)]
  exact hComplete _ _

theorem leaveDeepIdle_gate : s.leaveDeepIdle.now = s.now ∧ s.leaveDeepIdle.hostGate = s.hostGate := by
  refine Prod.mk.inj (?_ : (s.leaveDeepIdle.now, s.leaveDeepIdle.hostGate) = (s.now, s.hostGate))
  refine foldl_keeps (fun s => (s.now, s.hostGate)) (fun s p => ?_) (List.range 16) s
  dsimp only
  split <;> rfl

theorem dropCopy_gate : s.dropCopy.now = s.now ∧ s.dropCopy.hostGate = s.hostGate := by
  unfold State.dropCopy
  split <;> exact ⟨rfl, rfl⟩

theorem clearHost_gate_warm : (s.clearHost kindWarm).now = s.now ∧ (s.clearHost kindWarm).hostGate.quietUntil = s.hostGate.quietUntil := by
  obtain ⟨hNow, hGate⟩ := dropCopy_gate (s := s)
  exact ⟨hNow, (congrArg GateSide.quietUntil hGate :)⟩

theorem clearHost_gate_power : (s.clearHost kindHostPower).hostGate.quietUntil = 0 := rfl

theorem sendPower_frame (mask : Nat) (on : Bool) :
    (s.sendPower mask on).restart = s.restart ∧ (s.sendPower mask on).dict = s.dict ∧ (s.sendPower mask on).hostGate = s.hostGate := by
  unfold State.sendPower State.gateSend
  dsimp only
  split <;> exact ⟨rfl, rfl, rfl⟩

/-- Where Fumarole powers the domains one after another, the restart goes on in BOOT (R417). -/
theorem beginPower_commanded {r : Restart} (hr : s.restart = some r) (hKind : r.kind ≠ kindCold) :
    (s.beginPower.restart.map fun r => (r.kind, r.cause)) = some (r.kind, r.cause) ∧ s.beginPower.dict = s.dict ∧ s.beginPower.hostGate = s.hostGate := by
  unfold State.beginPower
  dsimp only
  split
  case h_1 h => exact absurd (hr.symm.trans h) nofun
  case h_2 x h =>
    obtain rfl : r = x := Option.some.inj (hr.symm.trans h)
    rw [if_neg fun hc => hKind hc.1]
    split
    · exact ⟨rfl, rfl, rfl⟩
    · next m _ _ =>
      obtain ⟨hRestart, hDict, hGate⟩ := sendPower_frame (s := { s with hostPowered := false, domains := domainsOff, restart := some { r with
        powerLeft := ({ s with hostPowered := false, domains := domainsOff } : State).powerOrder } }) m true
      exact ⟨congrArg (Option.map fun r : Restart => (r.kind, r.cause)) hRestart, hDict, hGate⟩

/-- A restart's counter is another entry than DeviceState. -/
theorem countStart_frame (kind : Nat) : (s.countStart kind).restart = s.restart ∧ (s.countStart kind).now = s.now ∧ (s.countStart kind).hostGate = s.hostGate
    ∧ (s.countStart kind).entry 0x1100 1 = s.entry 0x1100 1 := by
  unfold State.countStart
  split
  · exact ⟨rfl, rfl, rfl, Laws.entry_setEntry_sub _ _ _ _ _ (by decide)⟩
  · split
    · exact ⟨rfl, rfl, rfl, Laws.entry_setEntry_sub _ _ _ _ _ (by decide)⟩
    · exact ⟨rfl, rfl, rfl, rfl⟩

/-- A WARM restart begins in BOOT, with its cause; the host end of the gate stays as open as it was (R415, R416). -/
theorem beginRestart_warm {cause downMs : Nat} :
    ((s.beginRestart kindWarm cause false downMs).restart.map fun r => (r.kind, r.cause)) = some (kindWarm, cause)
      ∧ (s.beginRestart kindWarm cause false downMs).entry 0x1100 1 = 1
      ∧ (s.beginRestart kindWarm cause false downMs).now = s.now
      ∧ (s.beginRestart kindWarm cause false downMs).hostGate.quietUntil = s.hostGate.quietUntil := by
  let a := if s.deepIdle then s.leaveDeepIdle else s
  have hLeave : a.now = s.now ∧ a.hostGate = s.hostGate := by
    unfold a
    split
    · exact leaveDeepIdle_gate
    · exact ⟨rfl, rfl⟩
  obtain ⟨hNow, hGate⟩ := refuseHeld_gate (s := a)
  obtain ⟨hNow', hGate'⟩ := clearHost_gate_warm (s := a.refuseHeld)
  have hKeeps : keepsStacks kindWarm = true := by decide
  have hSide : restartsField kindWarm = false := by decide
  have hPower : kindWarm ≠ kindHostPower := by decide
  have hAct : kindWarm ≠ kindActivate := by decide
  simp only [State.beginRestart, hKeeps, hSide, hPower, hAct, true_and, if_true, if_false, Bool.false_eq_true, false_and]
  rw [show (if s.deepIdle = true then s.leaveDeepIdle else s) = a from rfl]
  generalize a.refuseHeld.clearHost kindWarm = y at hNow' hGate'
  refine ⟨?_, ?_, ?_, ?_⟩
  · rw [(countStart_frame _).1, Laws.setEntry_restart]; rfl
  · rw [(countStart_frame _).2.2.2, Laws.entry_setEntry_same]
  · rw [(countStart_frame _).2.1, Laws.setEntry_now]
    dsimp only
    rw [hNow', hNow, hLeave.1]
  · rw [(countStart_frame _).2.2.1, Laws.setEntry_hostGate]
    dsimp only
    rw [hGate', hGate, hLeave.2]

/-- A HOST_POWER restart that Fumarole commands begins in BOOT, with its cause; the host end of the gate is not silent (R415, R417). -/
theorem beginRestart_power {cause downMs : Nat} :
    ((s.beginRestart kindHostPower cause false downMs).restart.map fun r => (r.kind, r.cause)) = some (kindHostPower, cause)
      ∧ (s.beginRestart kindHostPower cause false downMs).entry 0x1100 1 = 1
      ∧ (s.beginRestart kindHostPower cause false downMs).hostGate.quietUntil = 0 := by
  have hKeeps : keepsStacks kindHostPower = false := by decide
  have hSide : restartsField kindHostPower = false := by decide
  have hAct : kindHostPower ≠ kindActivate := by decide
  have hClear := clearHost_gate_power (s := s)
  simp only [State.beginRestart, hKeeps, hSide, hAct, if_true, if_false, Bool.false_eq_true, false_and]
  generalize s.clearHost kindHostPower = y at hClear
  generalize hc : State.countStart _ kindHostPower = c
  have hRestart : ∃ r : Restart, c.restart = some r ∧ r.kind = kindHostPower ∧ r.cause = cause := by
    rw [← hc, (countStart_frame _).1, Laws.setEntry_restart]
    exact ⟨_, rfl, rfl, rfl⟩
  obtain ⟨r, hRestart, hKind, hCause⟩ := hRestart
  have hGate : c.hostGate = y.hostGate := by rw [← hc, (countStart_frame _).2.2.1, Laws.setEntry_hostGate]
  have hEntry : c.entry 0x1100 1 = 1 := by rw [← hc, (countStart_frame _).2.2.2, Laws.entry_setEntry_same]
  obtain ⟨hRestart', hDict, hGate'⟩ := beginPower_commanded hRestart (by rw [hKind]; decide)
  rw [hKind, hCause] at hRestart'
  refine ⟨hRestart', ?_, ?_⟩
  · rw [State.entry, hDict]; exact hEntry
  · rw [hGate', hGate]; exact hClear

theorem resetCmd_begins {kind cause : Nat} (h : Safety.hears s .host = true) (hs : s.hostGate.answered.lookup seq = none)
    (hOpen : s.hostGate.quietUntil ≤ s.now) (hRestart : s.restart = none) (hKind : kind = kindWarm ∨ kind = kindHostPower) :
    ∃ t, exec (.resetCmd seq kind cause) s = .next t ∧ Output.gate true seq (answerOf OK 0) ∈ t.out
      ∧ t.restart.map (fun r => (r.kind, r.cause)) = some (kind, cause) ∧ t.entry 0x1100 1 = 1 := by
  let u := s.setGate .host { s.gateAt .host with lastRx := s.now }
  have hRestart' : u.restart = none := hRestart
  have hCommand : ∃ downMs, u.resetCommand kind cause = (OK, u.beginRestart kind cause false downMs) := by
    rcases hKind with rfl | rfl
    · exact ⟨_, by simp [State.resetCommand, State.requestRestart, hRestart']; rfl⟩
    · exact ⟨_, by simp [State.resetCommand, State.requestRestart, hRestart']; rfl⟩
  obtain ⟨downMs, hCommand⟩ := hCommand
  have hBegin : ((u.beginRestart kind cause false downMs).restart.map fun r => (r.kind, r.cause)) = some (kind, cause)
      ∧ (u.beginRestart kind cause false downMs).entry 0x1100 1 = 1
      ∧ (u.beginRestart kind cause false downMs).hostGate.quietUntil ≤ (u.beginRestart kind cause false downMs).now := by
    rcases hKind with rfl | rfl
    · obtain ⟨hr, he, hn, hq⟩ := beginRestart_warm (s := u) (cause := cause) (downMs := downMs)
      exact ⟨hr, he, by rw [hn, hq]; exact hOpen⟩
    · obtain ⟨hr, he, hq⟩ := beginRestart_power (s := u) (cause := cause) (downMs := downMs)
      exact ⟨hr, he, by rw [hq]; exact Nat.zero_le _⟩
  obtain ⟨hr, he, hq⟩ := hBegin
  refine ⟨_, congrArg Host.Outcome.next (onNumbered_answers (e := .host) h hs ?_), ?_⟩
  · rw [hCommand]; exact hq
  · rw [hCommand]
    refine ⟨?_, ?_, ?_⟩
    · rw [answeredState_out]; simp
    · rw [answeredState_restart]; exact hr
    · rw [answeredState_entry]; exact he

/-! ### A tile's domain (R342) -/

/-- The one host-side domain of a tile's own mask. -/
theorem hostDomains_filter_tile {d : Nat} (hd : d < 64) : (hostDomains.filter fun k => bit (2 ^ d) k) = [d] := by
  have hBit (k : Nat) : bit (2 ^ d) k = decide (k = d) := by
    rw [show bit (2 ^ d) k = (2 ^ d).testBit k by simp [bit, Nat.testBit_eq_decide_div_mod_eq], Nat.testBit_two_pow]
    simp [eq_comm]
  have hOne : ∀ d < 64, (hostDomains.filter fun k => decide (k = d)) = [d] := by decide
  simp only [hBit]
  exact hOne d hd

theorem gateAnswer_frame {e : GateEnd} {p : GatePayload} :
    (s.gateAnswer e seq p).hostPowered = s.hostPowered ∧ (s.gateAnswer e seq p).enabled = s.enabled := by
  unfold State.gateAnswer
  cases e <;> dsimp only <;> split <;> exact ⟨rfl, rfl⟩

/-- A tile's domain switched, on a host side that has power. -/
theorem powerDomains_tile {d : Nat} (hd : d < 64) (hEnabled : s.tileEnabled d = true) (hPower : s.hostPowered = true) (on : Bool) :
    (s.powerDomains (2 ^ d) on).entry (0xA0C0 + d) 1 = if on then 0 else 4 := by
  have hCore : (bit (2 ^ d) 90 || bit (2 ^ d) 95) = false := by
    have h90 : bit (2 ^ d) 90 = false := by simp [bit, Nat.div_eq_of_lt (Nat.pow_lt_pow_right (by decide : 1 < 2) (by omega : d < 90))]
    have h95 : bit (2 ^ d) 95 = false := by simp [bit, Nat.div_eq_of_lt (Nat.pow_lt_pow_right (by decide : 1 < 2) (by omega : d < 95))]
    rw [h90, h95]; rfl
  have hSwitch (on : Bool) : (s.switchDomain d on).entry (0xA0C0 + d) 1 = if on then 0 else 4 := by
    cases on <;> simp [State.switchDomain, hd, hEnabled]
  cases on with
  | true => simpa [State.powerDomains, hCore, hPower, hostDomains_filter_tile hd] using hSwitch true
  | false => simpa [State.powerDomains, hCore, hostDomains_filter_tile hd] using hSwitch false

theorem powerDomainCmd_switches {d : Nat} (on : Bool) (h : Safety.hears s .host = true) (hs : s.hostGate.answered.lookup seq = none) (hd : d < 64)
    (hEnabled : s.tileEnabled d = true) :
    ∃ t, exec (.powerDomainCmd seq (2 ^ d) on) s = .next t ∧ t.entry (0xA0C0 + d) 1 = (if on then 0 else 4) := by
  obtain ⟨hPower, hDown⟩ := Laws.hears_parts h
  have hPowers : s.hostPowered = true ∧ s.fieldPowered = true := by simpa [State.gatePowered] using hPower
  let u := s.setGate .host { s.gateAt .host with lastRx := s.now }
  have hFresh : u.hostGate.answered.lookup seq = none := hs
  have hNone : (u.hostGate.answered.lookup seq).isSome = false := by rw [hFresh]; rfl
  obtain ⟨hHost, hMap⟩ := gateAnswer_frame (seq := seq) (e := .host) (p := answerOf OK 0)
    (s := u.setGate .host { u.gateAt .host with answered := ((seq, answerOf OK 0) :: (u.gateAt .host).answered).take 32768 })
  have hTake : u.takeNumbered .host seq (fun s => (answerOf OK 0, s)) =
      (u.setGate .host { u.gateAt .host with answered := ((seq, answerOf OK 0) :: (u.gateAt .host).answered).take 32768 }).gateAnswer .host seq (answerOf OK 0) := by
    simp only [State.takeNumbered]
    rw [show (u.gateAt .host).answered.lookup seq = none from hs]
  refine ⟨_, congrArg Host.Outcome.next ?_, powerDomains_tile (s := u.takeNumbered .host seq fun s => (answerOf OK 0, s)) hd ?_ ?_ on⟩
  · rw [hPowers.2, Laws.hear_up hDown]
    simp only [Bool.not_true, Bool.false_eq_true, if_false]
    rw [hNone]
    rfl
  · rw [hTake, State.tileEnabled, hMap]; exact hEnabled
  · rw [hTake, hHost]; exact hPowers.1

/-! ### A firmware block (R18, R375) -/

theorem firmwareBlock_placed {offset : Nat} {data : List Byte} (h : Safety.hears s .field = true) (hs : s.fieldGate.answered.lookup seq = none)
    (hOpen : s.fieldGate.quietUntil ≤ s.now) (hData : data ≠ []) (hSize : data.length ≤ 4096) (hRoom : offset + data.length ≤ packageMax)
    (hStaging : s.pendingState = 1) :
    ∃ t, exec (.firmwareBlock seq offset data) s = .next t ∧ t.out = s.out ++ [.gate false seq (answerOf OK 0)]
      ∧ ∀ i, i < data.length → Tab.get (Tab.get t.flash [] s.pendingSlot) 0 (offset + i) = data.getD i 0 := by
  let u := s.setGate .field { s.gateAt .field with lastRx := s.now }
  have hPlace : u.placeBlock offset data = (OK, u.putPackage u.pendingSlot offset data) := by
    have hForm : ¬(data.isEmpty = true ∨ packageMax < offset + data.length) := by
      simp [hData, hRoom]
    have hState : ¬u.pendingState ≠ 1 := fun hne => hne hStaging
    simp only [State.placeBlock, hForm, hState, if_false]
  refine ⟨_, (congrArg Host.Outcome.next (if_neg (Nat.not_lt.mpr hSize))).trans (congrArg Host.Outcome.next (onNumbered_answers (e := .field) h hs ?_)), ?_⟩
  · rw [hPlace]; exact hOpen
  · rw [hPlace]
    refine ⟨answeredState_out, fun i hi => ?_⟩
    rw [answeredState_flash, State.putPackage]
    rw [show u.pendingSlot = s.pendingSlot from rfl, Laws.tab_get_put_same, Tab.get, get?_putBytes_zipIdx, if_pos (by omega), Nat.add_sub_cancel_left,
      List.getD_eq_getElem?_getD]

end Commands

/-- Settles O10: each command of Fumarole's at the end that hears it. -/
theorem gateCommands : Obligations.GateCommands := by
  unfold Obligations.GateCommands
  exact ⟨fun _ target h hReady hTimed => snapshotTrigger_ticks target h hReady hTimed,
    fun _ _ _ _ h hs hOpen hRestart hKind => resetCmd_begins h hs hOpen hRestart hKind,
    fun _ _ _ on h hs hd hEnabled => powerDomainCmd_switches on h hs hd hEnabled,
    fun _ _ _ _ h hs hOpen hData hSize hRoom hStaging => firmwareBlock_placed h hs hOpen hData hSize hRoom hStaging⟩

end Sys2Proof.Proofs
end

section
/-! PROOFS. A BAR0 write and a BAR0 read of one entry (R29-R31, R35, R37, R46, R47, R53). -/

namespace Sys2Proof.Proofs

open Sys2Proof.Machine

section Bar0

variable {s : State} {i sub v : Nat} {r : EntryRow}

/-- The BAR0 access of an entry in its full width. -/
def bar0Access (i sub : Nat) (value : Option Nat) : EntryAccess := { ctx := 0, offset := 2048 * i + 8 * sub, size := 8, value := value }

theorem bar0_offset (hi : i < 65536) (hSub : sub < 256) :
    indexAt (2048 * i + 8 * sub) = i ∧ subAt (2048 * i + 8 * sub) = sub ∧ (2048 * i + 8 * sub) % 8 = 0 ∧ 2048 * i + 8 * sub < dictTop := by
  obtain ⟨hIndex, hKey⟩ := (indexAt_subAt_iff (o := 2048 * i + 8 * sub) (by omega) hSub).mpr rfl
  refine ⟨hIndex, hKey, by omega, ?_⟩
  unfold dictTop
  omega

theorem sizeAllowed_bar0 : sizeAllowed 0 (2048 * i + 8 * sub) 8 r = true := by
  simp [sizeAllowed, bar0SizeOk]
  omega

/-- BAR0 of a READY device takes a write of an entry in its full width to the dictionary. -/
theorem dictWrite_bar0 (h : Safety.served s 0 = true) (hi : i < 65536) (hSub : sub < 256) (hv : v < 2 ^ 64) :
    exec (.dictWrite 0 (2048 * i + 8 * sub) 8 (BitVec.ofNat 64 v)) s = .next (
      (s.writeAny (bar0Access i sub (some v)) i sub v (sizeAllowed 0 (2048 * i + 8 * sub) 8)).2.record 0 i sub
        (s.writeAny (bar0Access i sub (some v)) i sub v (sizeAllowed 0 (2048 * i + 8 * sub) 8)).1) := by
  obtain ⟨hIndex, hKey, -, hTop⟩ := bar0_offset hi hSub
  obtain ⟨hReady, -, -, hSecure, -, hAwaits⟩ := Laws.served_parts h
  have hValue : (BitVec.ofNat 64 v).toNat = v := by rw [BitVec.toNat_ofNat, Nat.mod_eq_of_lt hv]
  have hPaused : s.bar0Paused 0 = false := by simp [State.bar0Paused, hReady]
  rw [exec_dictWrite, dictWrite_entry rfl hTop, hValue]
  simp [State.served, hPaused, hSecure, State.inTurn, hAwaits, hIndex, hKey, widen, bar0Access]

/-- A write of an entry that exists is decided by R437's last steps. -/
theorem writeAny_row (h : Safety.served s 0 = true) (hRow : lookupEntry i sub = some r) (hTile : ((tileOf i).any fun t => !s.tileEnabled t) = false)
    (hPlain : Safety.commandEntry i sub = false) : s.writeAny (bar0Access i sub (some v)) i sub v (sizeAllowed 0 (2048 * i + 8 * sub) 8) =
      s.decideWrite r 0 i sub v (State.takeWrite (bar0Access i sub (some v)) i sub v fun s => s.writeOp 0 i sub v) := by
  obtain ⟨hIndex, -, hPairs, -⟩ := commandEntry_false hPlain
  have hNote (t : State) (c : Nat) : t.noteWrite i sub c = t := by
    have h1 : ¬(i = 0x3030 ∧ sub = 3) := hPairs (0x3030, 3) (by decide)
    have h2 : ¬(i = 0x3030 ∧ sub = 3 ∧ c ≠ OK) := fun hc => h1 ⟨hc.1, hc.2.1⟩
    simp only [State.noteWrite, hIndex 0x2010 (by decide), h2, false_and, if_false]
  have hAccess : s.accessRefusal 0 i sub true = none := Laws.accessRefusal_served true h hRow hTile
  simp only [State.writeAny, bar0Access, State.decideAny, hAccess, hRow, sizeAllowed_bar0, if_true, hNote]

/-- A value in range that takes effect at once is taken. -/
theorem decideWrite_taken {take : State → Nat × State} (h : Safety.direct s 0 = true) (hContent : r.ty.isContent = false) (hAcc : r.acc = .rw ∨ r.acc = .rws)
    (hPlain : Safety.commandEntry i sub = false) (hRange : s.rangeRefusal r i sub v = none) (hCls : r.cls ≠ .epoch)
    (hStopped : r.cls = .stopped → s.unitStopped i sub = true) : s.decideWrite r 0 i sub v take = take s := by
  obtain ⟨hServed, hClosed⟩ := Laws.direct_parts h
  obtain ⟨hIndex, hLocal, -⟩ := commandEntry_false hPlain
  have hState := Laws.stateRefusal_served (sub := sub) true hServed (hIndex 0x9200 (by decide)) (hIndex 0x9210 (by decide))
  have hAcc' : r.acc ≠ .ro ∧ r.acc ≠ .wo := by rcases hAcc with h | h <;> simp [h]
  have hUnit : ¬(r.cls = .stopped ∧ (!s.unitStopped i sub) = true) := fun hc => by
    rw [hStopped hc.1] at hc
    exact absurd hc.2 (by decide)
  simp only [State.decideWrite, hContent, hAcc'.1, hAcc'.2, hIndex 0x1038 (by decide), hRange, hState, hLocal, hUnit, hClosed, hCls, if_false,
    Bool.false_eq_true, false_or, and_false, ne_eq, not_true_eq_false]

/-- A persistent value that leaves for Fumarole changes the gate alone (R33). -/
theorem storePersistent_eq {ctx : Nat} : s.storePersistent ctx i sub v = { s with
    hostGate := (s.storePersistent ctx i sub v).hostGate, out := (s.storePersistent ctx i sub v).out
    unstored := (s.storePersistent ctx i sub v).unstored } := by
  unfold State.storePersistent
  split
  · rfl
  · split
    · rfl
    · unfold State.sendRecord State.gateSend
      split
      · rfl
      · dsimp only
        split <;> rfl

/-- The write of what is no command entry gives the entry its value (R31). -/
theorem writeOp_plain {ctx : Nat} (hPlain : Safety.commandEntry i sub = false) : s.writeOp ctx i sub v = (OK, s.setEntry i sub v) := by
  obtain ⟨hIndex, hLocal, hPairs, hJobs, -⟩ := commandEntry_false hPlain
  have hPair (a b : Nat) (hp : (a, b) ∈ [(0x2820, 5), (0x3010, 1), (0x3030, 3), (0x4010, 4), (0x8010, 1), (0xB180, 4)]) : ¬(i = a ∧ sub = b) := hPairs (a, b) hp
  simp only [State.writeOp, hIndex 0x1020 (by decide), hIndex 0x1038 (by decide), hLocal, hIndex 0x1070 (by decide), hIndex 0x1110 (by decide),
    hIndex 0x2010 (by decide), hPair 0x2820 5 (by decide), hPair 0x3030 3 (by decide), hIndex 0x3480 (by decide), hJobs, hPair 0x8010 1 (by decide),
    hIndex 0x9110 (by decide), hIndex 0x9200 (by decide), hPair 0xB180 4 (by decide), false_and, if_false, Bool.false_eq_true, applyEntry_plain hPlain]

theorem dictWrite_gives (h : Safety.direct s 0 = true) (hi : i < 65536) (hSub : sub < 256) (hv : v < 2 ^ 64) (hPlain : Safety.commandEntry i sub = false)
    (hHere : isFieldServed i = false) (hRow : lookupEntry i sub = some r) (hContent : r.ty.isContent = false) (hAcc : r.acc = .rw ∨ r.acc = .rws)
    (hCls : r.cls ≠ .epoch) (hTile : ((tileOf i).any fun t => !s.tileEnabled t) = false) (hRange : s.rangeRefusal r i sub v = none)
    (hStopped : r.cls = .stopped → s.unitStopped i sub = true) :
    ∃ t, exec (.dictWrite 0 (2048 * i + 8 * sub) 8 (BitVec.ofNat 64 v)) s = .next t ∧ t.entry i sub = v ∧ Safety.outcome t 0 i sub OK
      ∧ (∀ k l, entryKey k l ≠ entryKey i sub → t.entry k l = s.entry k l) ∧ t.mem = s.mem ∧ t.tiles = s.tiles ∧ t.jobs = s.jobs := by
  obtain ⟨hServed, -⟩ := Laws.direct_parts h
  have hCross : crosses 0 i = false := by simp [crosses, hHere]
  have hTake : State.takeWrite (bar0Access i sub (some v)) i sub v (fun s => s.writeOp 0 i sub v) s = (OK, (s.storePersistent 0 i sub v).setEntry i sub v) := by
    simp only [State.takeWrite, bar0Access, hCross, Bool.false_eq_true, if_false, writeOp_plain hPlain]
  refine ⟨_, dictWrite_bar0 hServed hi hSub hv, ?_⟩
  rw [writeAny_row hServed hRow hTile hPlain, decideWrite_taken h hContent hAcc hPlain hRange hCls hStopped, hTake]
  dsimp only
  rw [Laws.record_eq (by decide) _ (by decide) (by decide), storePersistent_eq]
  refine ⟨Laws.entry_setEntry_same .., ?_, fun k l hk => Laws.entry_setEntry_ne _ _ _ _ _ _ hk, rfl, rfl, rfl⟩
  simp [Safety.outcome]

/-! ### Across the gate (R14, R53) -/

/-- An access that leaves for Fumarole waits for its answer. -/
theorem askField_awaits {a : EntryAccess} (hOpen : s.hostGate.quietUntil ≤ s.now) : (s.askField a).awaits a.ctx = true
    ∧ (s.askField a).out = s.out ++ [.gate true s.hostGate.nextSeq (.request a.ctx (.entries [(a.offset, a.value.map fun v => BitVec.ofNat 64 v)]))]
    ∧ (s.askField a).dict = s.dict ∧ (s.askField a).contexts = s.contexts ∧ (s.askField a).mem = s.mem ∧ (s.askField a).tiles = s.tiles
    ∧ (s.askField a).jobs = s.jobs := by
  rw [State.askField, gateSend_of_open (e := .host) hOpen]
  refine ⟨?_, rfl, rfl, rfl, rfl, rfl, rfl⟩
  have hAsks : (GatePayload.request a.ctx (.entries [(a.offset, a.value.map fun v => BitVec.ofNat 64 v)])).asks = true := rfl
  simp [State.awaits, State.setGate, State.emit, hAsks]

/-- No entry that Fumarole serves is a tile's. -/
theorem tileOf_fieldServed (h : isFieldServed i = true) : tileOf i = none := by
  simp only [isFieldServed, Bool.or_eq_true, Bool.and_eq_true, decide_eq_true_eq] at h
  have hNone : ∀ b ∈ [0x6200, 0x3440, 0xA0C0, 0x8100], ¬(b ≤ i ∧ i < b + 64) := by
    simp only [List.mem_cons, List.not_mem_nil, or_false, forall_eq_or_imp, forall_eq]
    omega
  rw [tileOf, Option.map_eq_none_iff, List.find?_eq_none]
  intro b hb
  simpa using hNone b hb

theorem fieldServed_ne {j : Nat} (h : isFieldServed i = true) (hj : isFieldServed j = false) : i ≠ j := by
  rintro rfl
  rw [h] at hj
  exact absurd hj (by decide)

theorem dictWrite_crosses (h : Safety.direct s 0 = true) (hi : i < 65536) (hSub : sub < 256) (hv : v < 2 ^ 64) (hPlain : Safety.commandEntry i sub = false)
    (hField : isFieldServed i = true) (hRow : lookupEntry i sub = some r) (hContent : r.ty.isContent = false) (hAcc : r.acc = .rw ∨ r.acc = .rws)
    (hCls : r.cls ≠ .epoch) (hRange : s.rangeRefusal r i sub v = none)
    (hStopped : r.cls = .stopped → s.unitStopped i sub = true) (hOpen : s.hostGate.quietUntil ≤ s.now) :
    ∃ t, exec (.dictWrite 0 (2048 * i + 8 * sub) 8 (BitVec.ofNat 64 v)) s = .next t ∧ t.awaits 0 = true
      ∧ t.out = s.out ++ [.gate true s.hostGate.nextSeq (.request 0 (.entries [(2048 * i + 8 * sub, some (BitVec.ofNat 64 v))]))]
      ∧ t.dict = s.dict ∧ t.contexts = s.contexts ∧ t.mem = s.mem ∧ t.tiles = s.tiles ∧ t.jobs = s.jobs := by
  obtain ⟨hServed, -⟩ := Laws.direct_parts h
  have hCross : crosses (bar0Access i sub (some v)).ctx i = true := by simp [crosses, hField, bar0Access, isDtp]
  refine ⟨_, dictWrite_bar0 hServed hi hSub hv, ?_⟩
  rw [writeAny_row hServed hRow (by rw [tileOf_fieldServed hField]; rfl) hPlain, decideWrite_taken h hContent hAcc hPlain hRange hCls hStopped,
    Laws.takeWrite_crosses _ hCross]
  have hRecord (t : State) : t.record 0 i sub WAITING = t := by simp [State.record]
  dsimp only
  rw [hRecord]
  exact askField_awaits (a := bar0Access i sub (some v)) hOpen

/-! ### Reads (R29, R31, R37) -/

/-- BAR0 of a READY device takes a read of an entry in its full width to the dictionary. -/
theorem dictRead_bar0 (h : Safety.served s 0 = true) (hi : i < 65536) (hSub : sub < 256) :
    let x := s.readResult 0 i sub (sizeAllowed 0 (2048 * i + 8 * sub) 8) fun r => State.takeRead (bar0Access i sub none) r i sub fun s => s.readOp 0 i sub
    exec (.dictRead 0 (2048 * i + 8 * sub) 8) s = .next ((x.2.2.recordRead 0 i sub x.1).answerWith (bar0Access i sub none) x.1 x.2.1) := by
  obtain ⟨hIndex, hKey, -, hTop⟩ := bar0_offset hi hSub
  obtain ⟨hReady, -, -, hSecure, -, hAwaits⟩ := Laws.served_parts h
  have hPaused : s.bar0Paused 0 = false := by simp [State.bar0Paused, hReady]
  rw [exec_dictRead, dictRead_entry rfl hTop]
  simp [State.answerRead, hPaused, hSecure, State.inTurn, hAwaits, hIndex, hKey, bar0Access]

/-- A value that a read found leaves at once. -/
theorem answerWith_bar0 {code x : Nat} (hw : code ≠ WAITING) : s.answerWith (bar0Access i sub none) code x = s.emit (.dictRead 0 x) := by
  simp [State.answerWith, hw, bar0Access, narrowTo]

/-- A read of an entry that exists, and that is not WO, is performed. -/
theorem readResult_row {take : EntryRow → State → Nat × Nat × State} (h : Safety.served s 0 = true) (hEngine : i ∉ [0x9200, 0x9210])
    (hRow : lookupEntry i sub = some r) (hAcc : r.acc ≠ .wo ∨ sub = 0) (hTile : ((tileOf i).any fun t => !s.tileEnabled t) = false) :
    s.readResult 0 i sub (sizeAllowed 0 (2048 * i + 8 * sub) 8) take = take r s := by
  simp only [List.mem_cons, List.not_mem_nil, or_false, not_or] at hEngine
  have hAccess := Laws.accessRefusal_served false h hRow hTile
  have hState := Laws.stateRefusal_served (sub := sub) false h hEngine.1 hEngine.2
  have hWo : ¬(r.acc = .wo ∧ sub ≠ 0) := fun hx => hAcc.elim (fun ha => ha hx.1) hx.2
  have hFull : s.contextFull 0 = false := by simp [State.contextFull, Laws.hasContext_small (s := s) (by decide : 0 < 16)]
  simp only [State.readResult, hAccess, hRow, State.readRow, sizeAllowed_bar0, hState, hWo, hFull, if_false, Bool.not_true, Bool.false_eq_true, and_false]

theorem dictRead_answers (h : Safety.served s 0 = true) (hi : i < 65536) (hSub : sub < 256) (hIndex : i ∉ [0x1030, 0x9200, 0x9210])
    (hNarrow : (i, sub) ≠ (0x3480, 2)) (hHere : isFieldServed i = false) (hRow : lookupEntry i sub = some r) (hAcc : r.acc ≠ .wo ∨ sub = 0)
    (hTile : ((tileOf i).any fun t => !s.tileEnabled t) = false) :
    ∃ t, exec (.dictRead 0 (2048 * i + 8 * sub) 8) s = .next t ∧ Safety.outcome t 0 i sub OK
      ∧ t.out = s.out ++ [.dictRead 0 (s.readView 0 r i sub)] ∧ t.dict = s.dict ∧ t.mem = s.mem ∧ t.tiles = s.tiles := by
  simp only [List.mem_cons, List.not_mem_nil, or_false, not_or] at hIndex
  have hCross : crosses 0 i = false := by simp [crosses, hHere]
  have hNarrow' : ¬(i = 0x3480 ∧ sub = 2) := fun hc => hNarrow (by rw [hc.1, hc.2])
  have hTake : State.takeRead (bar0Access i sub none) r i sub (fun s => s.readOp 0 i sub) s = (OK, s.readView 0 r i sub, s) := by
    simp only [State.takeRead, bar0Access, hCross, Bool.false_and, Bool.false_eq_true, if_false, State.readOp, hRow, hNarrow']
  refine ⟨_, dictRead_bar0 h hi hSub, ?_⟩
  rw [readResult_row h (by simp [hIndex]) hRow hAcc hTile, hTake]
  dsimp only
  rw [answerWith_bar0 (by decide), State.recordRead, if_neg (fun hc => hIndex.1 hc.1), Laws.record_eq (by decide) _ (by decide) (by decide)]
  refine ⟨?_, rfl, rfl, rfl, rfl⟩
  simp [Safety.outcome, State.emit, State.context, State.setContext]

theorem dictRead_crosses (h : Safety.direct s 0 = true) (hi : i < 65536) (hSub : sub < 256) (hField : isFieldServed i = true)
    (hRow : lookupEntry i sub = some r) (hAcc : r.acc ≠ .wo ∨ sub = 0) (hOpen : s.hostGate.quietUntil ≤ s.now) :
    ∃ t, exec (.dictRead 0 (2048 * i + 8 * sub) 8) s = .next t ∧ t.awaits 0 = true
      ∧ t.out = s.out ++ [.gate true s.hostGate.nextSeq (.request 0 (.entries [(2048 * i + 8 * sub, none)]))] ∧ t.contexts = s.contexts ∧ t.dict = s.dict := by
  obtain ⟨hServed, hClosed⟩ := Laws.direct_parts h
  have hEngine : i ∉ [0x9200, 0x9210] := by simp [fieldServed_ne hField (j := 0x9200) (by decide), fieldServed_ne hField (j := 0x9210) (by decide)]
  have hCross : (crosses 0 i && !s.heldByGroup 0 i sub r) = true := by
    simp [crosses, hField, isDtp, State.heldByGroup, hClosed]
  have hTake : State.takeRead (bar0Access i sub none) r i sub (fun s => s.readOp 0 i sub) s = (WAITING, 0, s.askField (bar0Access i sub none)) := by
    simp only [State.takeRead, bar0Access, hCross, if_true]
  refine ⟨_, dictRead_bar0 hServed hi hSub, ?_⟩
  rw [readResult_row hServed hEngine hRow hAcc (by rw [tileOf_fieldServed hField]; rfl), hTake]
  have hRecord (t : State) : (t.recordRead 0 i sub WAITING).answerWith (bar0Access i sub none) WAITING 0 = t := by
    simp [State.recordRead, fieldServed_ne hField (j := 0x1030) (by decide), State.record, State.answerWith]
  dsimp only
  rw [hRecord]
  obtain ⟨hAwaits, hOut, hDict, hContexts, -⟩ := askField_awaits (a := bar0Access i sub none) hOpen
  exact ⟨hAwaits, hOut, hContexts, hDict⟩

/-- A stored entry reads as what is stored, while no group is open (R37). -/
theorem readView_stored (hClosed : (s.context 0).groupState ≠ 1) (hContent : r.ty.isContent = false) (hAcc : r.acc ≠ .wo) (hSub : sub ≠ 0)
    (hStored : s.computed 0 i sub = none) : s.readView 0 r i sub = s.entry i sub := by
  simp [State.readView, hClosed, State.view, hContent, hAcc, hSub, hStored]

/-- A refused read answers at once, and its context shows the refusal. -/
theorem dictRead_refused (h : Safety.served s 0 = true) (hi : i < 65536) (hSub : sub < 256) {code x : Nat} (hk : code ≠ STATE_CONFLICT) (hw : code ≠ WAITING)
    (hOk : code ≠ OK) (hResult : ∀ take, s.readResult 0 i sub (sizeAllowed 0 (2048 * i + 8 * sub) 8) take = (code, x, s)) :
    ∃ t, exec (.dictRead 0 (2048 * i + 8 * sub) 8) s = .next t ∧ t.out = s.out ++ [.dictRead 0 x] ∧ Safety.outcome t 0 i sub code := by
  refine ⟨_, dictRead_bar0 h hi hSub, ?_⟩
  rw [hResult]
  dsimp only
  rw [answerWith_bar0 hw, State.recordRead, if_neg (fun hc => hOk hc.2), Laws.record_eq (by decide) _ hk hw]
  refine ⟨rfl, ?_⟩
  simp [Safety.outcome, State.emit, State.context, State.setContext]

theorem dictRead_wo (h : Safety.served s 0 = true) (hi : i < 65536) (hPos : 0 < sub) (hSub : sub < 256) (hRow : lookupEntry i sub = some r)
    (hAcc : r.acc = .wo) (hTile : ((tileOf i).any fun t => !s.tileEnabled t) = false) :
    ∃ t, exec (.dictRead 0 (2048 * i + 8 * sub) 8) s = .next t ∧ t.out = s.out ++ [.dictRead 0 0] ∧ Safety.outcome t 0 i sub ACCESS_RIGHT := by
  refine dictRead_refused h hi hSub (by decide) (by decide) (by decide) fun take => ?_
  have hAccess := Laws.accessRefusal_served false h hRow hTile
  have hWo : r.acc = .wo ∧ sub ≠ 0 := ⟨hAcc, hPos.ne'⟩
  simp only [State.readResult, hAccess, hRow, State.readRow, sizeAllowed_bar0, if_pos hWo, Bool.not_true, Bool.false_eq_true, if_false]

theorem dictRead_absent (h : Safety.served s 0 = true) (hi : i < 65536) (hSub : sub < 256) (hRow : lookupEntry i sub = none) :
    ∃ t, exec (.dictRead 0 (2048 * i + 8 * sub) 8) s = .next t ∧ t.out = s.out ++ [.dictRead 0 allOnes] ∧ Safety.outcome t 0 i sub ENTRY_ABSENT := by
  refine dictRead_refused h hi hSub (by decide) (by decide) (by decide) fun take => ?_
  obtain ⟨hReady, -⟩ := Laws.served_parts h
  have hAccess : s.accessRefusal 0 i sub false = some ENTRY_ABSENT := by
    simp [State.accessRefusal, hReady, isDtp, isFabric, hRow]
  simp only [State.readResult, hAccess]

end Bar0

/-- Settles O11: an accepted write takes effect at once, or leaves for Fumarole. -/
theorem dictionaryWrite : Obligations.DictionaryWrite := by
  unfold Obligations.DictionaryWrite
  exact ⟨fun _ _ _ _ _ h hi hSub hv hPlain hHere hRow hContent hAcc hCls hTile hRange hStopped =>
      dictWrite_gives h hi hSub hv hPlain hHere hRow hContent hAcc hCls hTile hRange hStopped,
    fun _ _ _ _ _ h hi hSub hv hPlain hField hRow hContent hAcc hCls hRange hStopped hOpen =>
      dictWrite_crosses h hi hSub hv hPlain hField hRow hContent hAcc hCls hRange hStopped hOpen⟩

/-- Settles O12: an accepted read answers at once, or leaves for Fumarole; a WO entry and an absent one are refused. -/
theorem dictionaryRead : Obligations.DictionaryRead := by
  unfold Obligations.DictionaryRead
  exact ⟨fun _ _ _ _ h hi hSub hIndex hNarrow hHere hRow hAcc hTile => dictRead_answers h hi hSub hIndex hNarrow hHere hRow hAcc hTile,
    fun _ _ _ _ h hi hSub _ hField hRow hAcc hOpen => dictRead_crosses h hi hSub hField hRow hAcc hOpen,
    fun _ _ _ _ hClosed hContent hAcc hSub hStored => readView_stored hClosed hContent hAcc hSub hStored,
    fun _ _ _ _ h hi hPos hSub _ hRow hAcc hTile => dictRead_wo h hi hPos hSub hRow hAcc hTile,
    fun _ _ _ h hi hSub _ hRow => dictRead_absent h hi hSub hRow⟩

end Sys2Proof.Proofs
end

section
/-! PROOFS. Transaction groups: staging, OPEN, COMMIT and ABORT (R37-R43). -/

namespace Sys2Proof.Proofs

open Sys2Proof.Machine

section Groups

variable {s : State} {ctx i sub v : Nat} {r : EntryRow}

/-! ### Staging (R38, R39) -/

/-- A write of a stored entry inside an open group is staged. -/
theorem decideWrite_staged {take : State → Nat × State} (h : Safety.served s 0 = true) (hOpen : (s.context 0).groupState = 1) (hContent : r.ty.isContent = false)
    (hAcc : r.acc = .rw ∨ r.acc = .rws) (hPlain : Safety.commandEntry i sub = false) (hRange : s.rangeRefusal r i sub v = none)
    (hStopped : r.cls = .stopped → s.unitStopped i sub = true) : s.decideWrite r 0 i sub v take = s.stageWrite 0 i sub v := by
  obtain ⟨hIndex, hLocal, -⟩ := commandEntry_false hPlain
  have hState := Laws.stateRefusal_served (sub := sub) true h (hIndex 0x9200 (by decide)) (hIndex 0x9210 (by decide))
  have hAcc' : r.acc ≠ .ro ∧ r.acc ≠ .wo := by rcases hAcc with h | h <;> simp [h]
  have hUnit : ¬(r.cls = .stopped ∧ (!s.unitStopped i sub) = true) := fun hc => by
    rw [hStopped hc.1] at hc
    exact absurd hc.2 (by decide)
  simp only [State.decideWrite, hContent, hAcc'.1, hAcc'.2, hIndex 0x1038 (by decide), hRange, hState, hLocal, hUnit, hOpen, if_false, if_true,
    Bool.false_eq_true, false_or, false_and, and_false, ne_eq, not_true_eq_false]

/-- An entry that is new to a group with room joins it, where its owner fits (R39). -/
theorem stageWrite_joins (hNew : ((s.context ctx).staged.any fun p => p.1 = entryKey i sub) = false) (hRoom : (s.context ctx).staged.length < 256)
    (hOwner : (s.context ctx).groupOwner = 0xFF ∨ ownerJob i = none ∨ ownerJob i = some (s.context ctx).groupOwner) :
    s.stageWrite ctx i sub v = (PENDING, s.setContext ctx { s.context ctx with
      staged := (s.context ctx).staged ++ [(entryKey i sub, v)], groupOwner := (ownerJob i).getD (s.context ctx).groupOwner }) := by
  have hFits : ¬((s.context ctx).groupOwner ≠ 0xFF ∧ (ownerJob i).getD (s.context ctx).groupOwner ≠ (s.context ctx).groupOwner) := by
    rintro ⟨hSet, hOther⟩
    rcases hOwner with h | h | h
    · exact hSet h
    · exact hOther (by rw [h]; rfl)
    · exact hOther (by rw [h]; rfl)
  simp only [State.stageWrite, if_neg hFits, hNew, if_neg (Nat.not_le.mpr hRoom), Bool.false_eq_true, if_false, State.updContext]

/-- An entry of a second job slot is refused (R39). -/
theorem stageWrite_conflicts {j : Nat} (hSet : (s.context ctx).groupOwner ≠ 0xFF) (hOwner : ownerJob i = some j) (hOther : j ≠ (s.context ctx).groupOwner) :
    s.stageWrite ctx i sub v = (STATE_CONFLICT, s) := by
  have hFits : (s.context ctx).groupOwner ≠ 0xFF ∧ (ownerJob i).getD (s.context ctx).groupOwner ≠ (s.context ctx).groupOwner := by
    rw [hOwner]; exact ⟨hSet, hOther⟩
  simp only [State.stageWrite, if_pos hFits]

theorem dictWrite_stages (h : Safety.served s 0 = true) (hOpen : (s.context 0).groupState = 1) (hi : i < 65536) (hSub : sub < 256) (hv : v < 2 ^ 64)
    (hPlain : Safety.commandEntry i sub = false) (hRow : lookupEntry i sub = some r) (hContent : r.ty.isContent = false) (hAcc : r.acc = .rw ∨ r.acc = .rws)
    (hTile : ((tileOf i).any fun t => !s.tileEnabled t) = false) (hRange : s.rangeRefusal r i sub v = none)
    (hStopped : r.cls = .stopped → s.unitStopped i sub = true) (hNew : ((s.context 0).staged.any fun p => p.1 = entryKey i sub) = false)
    (hRoom : (s.context 0).staged.length < 256) :
    ∃ t, exec (.dictWrite 0 (2048 * i + 8 * sub) 8 (BitVec.ofNat 64 v)) s = .next t
      ∧ (((s.context 0).groupOwner = 0xFF ∨ ownerJob i = none ∨ ownerJob i = some (s.context 0).groupOwner) →
          (t.context 0).staged = (s.context 0).staged ++ [(entryKey i sub, v)] ∧ t.dict = s.dict ∧ Safety.outcome t 0 i sub PENDING
            ∧ (t.context 0).groupOwner = (ownerJob i).getD (s.context 0).groupOwner)
      ∧ (∀ j, (s.context 0).groupOwner ≠ 0xFF → ownerJob i = some j → j ≠ (s.context 0).groupOwner →
          (t.context 0).staged = (s.context 0).staged ∧ Safety.outcome t 0 i sub STATE_CONFLICT) := by
  refine ⟨_, dictWrite_bar0 h hi hSub hv, ?_⟩
  rw [writeAny_row h hRow hTile hPlain, decideWrite_staged h hOpen hContent hAcc hPlain hRange hStopped]
  refine ⟨fun hOwner => ?_, fun j hSet hOwner hOther => ?_⟩
  · rw [stageWrite_joins hNew hRoom hOwner]
    dsimp only
    rw [Laws.record_eq (by decide) _ (by decide) (by decide)]
    simp [Safety.outcome]
  · rw [stageWrite_conflicts hSet hOwner hOther]
    dsimp only
    rw [Safety.outcome, context_record (Laws.hasContext_small (by decide)) (by decide)]
    exact ⟨rfl, rfl, rfl⟩

/-! ### GroupControl (R37, R40) -/

/-- A command of GroupControl in a served context does what GroupControl does. -/
theorem groupCommand_served (h : Safety.served s ctx = true) (hv : 1 ≤ v) (hv' : v ≤ 3) :
    s.groupCommand ctx v = (s.groupControl ctx v).2.record ctx 0x1020 1 (s.groupControl ctx v).1 := by
  obtain ⟨r, hRow, hTy, hAcc, hMin, hMax, hIndex⟩ := lookupEntry_groupControl
  have hRange : s.rangeRefusal r 0x1020 1 v = none := by
    have hU8 : EntryType.u8.max = 255 := rfl
    simp only [State.rangeRefusal, hTy, hMin, hMax, hIndex, State.valueRefusal, hU8]
    rw [if_neg (by omega), if_neg (by omega)]
    simp
  obtain ⟨-, -, hCtx, -⟩ := Laws.served_parts h
  have hVolatile : isPersistent 0x1020 1 = false := by decide
  have hCross : crosses ctx 0x1020 = false := by simp [crosses, show isFieldServed 0x1020 = false by decide]
  rw [State.groupCommand, Laws.writeEntry_served h hRow rfl]
  rw [Laws.decideWrite_local h (by rw [hTy]; rfl) (by rw [hAcc]; decide) (by decide) hRange (Laws.stateRefusal_served true h (by decide) (by decide))
    (by decide) (fun hc => absurd hc (by decide)), Laws.takeWrite_here _ hCross hVolatile]

theorem groupOpen_opens (h : Safety.direct s ctx = true) (hCount : s.groupCount < 32) :
    ∃ t, exec (.groupOpen ctx) s = .next t ∧ (t.context ctx).groupState = 1 ∧ (t.context ctx).staged = [] ∧ (t.context ctx).groupOwner = 0xFF
      ∧ Safety.outcome t ctx 0x1020 1 OK ∧ t.dict = s.dict := by
  obtain ⟨hServed, hClosed⟩ := Laws.direct_parts h
  obtain ⟨-, -, hCtx, -⟩ := Laws.served_parts hServed
  have hOpens : s.groupControl ctx 1 = (OK, s.beginGroup ctx (some (s.groupSnapshot ctx))) := by
    simp [State.groupControl, State.openGroup, hClosed, hCount]
  refine ⟨_, congrArg Host.Outcome.next (groupCommand_served hServed (by decide) (by decide)), ?_⟩
  rw [hOpens]
  dsimp only
  rw [Laws.record_eq hCtx _ (by decide) (by decide)]
  simp [Safety.outcome, State.beginGroup]

theorem groupAbort_drops (h : Safety.served s ctx = true) (hOpen : (s.context ctx).groupState = 1) :
    ∃ t, exec (.groupAbort ctx) s = .next t ∧ (t.context ctx).groupState = 4 ∧ (t.context ctx).staged = [] ∧ Safety.outcome t ctx 0x1020 1 OK
      ∧ t.dict = s.dict ∧ t.mem = s.mem ∧ t.tiles = s.tiles ∧ t.jobs = s.jobs := by
  obtain ⟨-, -, hCtx, -⟩ := Laws.served_parts h
  have hDrops : s.groupControl ctx 3 = (OK, s.dropGroup ctx) := by
    simp [State.groupControl, hOpen]
  refine ⟨_, congrArg Host.Outcome.next (groupCommand_served h (by decide) (by decide)), ?_⟩
  rw [hDrops]
  dsimp only
  rw [Laws.record_eq hCtx _ (by decide) (by decide), State.dropGroup, if_pos hOpen]
  simp [Safety.outcome]

/-! ### COMMIT at one instant (R40, R43) -/

theorem applyStackMode_contexts : (s.applyStackMode v).contexts = s.contexts := by
  unfold State.applyStackMode
  dsimp only
  split <;> rfl

theorem applyPortEnable_contexts : (s.applyPortEnable v).contexts = s.contexts := by
  refine foldl_keeps State.contexts (fun s p => ?_) (List.range 16) s
  split
  · split <;> rfl
  · split <;> rfl

theorem enterDeepIdle_contexts : s.enterDeepIdle.contexts = s.contexts := by
  unfold State.enterDeepIdle
  dsimp only
  rw [Laws.setEntry_contexts]
  generalize List.range 16 = l
  refine foldl_keeps (fun s => s.contexts) ?_ l s
  intro s p
  rfl

theorem leaveDeepIdle_contexts : s.leaveDeepIdle.contexts = s.contexts := by
  unfold State.leaveDeepIdle
  dsimp only
  rw [Laws.setEntry_contexts]
  generalize List.range 16 = l
  refine foldl_keeps (fun s => s.contexts) (fun s p => ?_) l s
  split <;> rfl

theorem wipePke_contexts : s.wipePke.contexts = s.contexts := by
  unfold State.wipePke
  dsimp only
  split <;> rfl

theorem narrowWriteOp_contexts : (s.narrowWriteOp v .clean).2.contexts = s.contexts := by
  have hWake (t : Nat) : (s.wakeTile t).contexts = s.contexts := by
    unfold State.wakeTile
    dsimp only
    split
    · split <;> rfl
    · rfl
  have hNote (t : State) (c : Nat) (g : Tag) : (t.noteNarrow c g).contexts = t.contexts := rfl
  have hPut (t : State) (k c : Nat) : (t.putCoefficient k c v).contexts = t.contexts := rfl
  unfold State.narrowWriteOp
  split
  · rfl
  · dsimp only
    rw [hNote]
    split
    · rw [hPut]; exact hWake _
    · exact hWake _

/-- What an entry's value changes is no context's. -/
theorem applyEntry_contexts {c : Nat} : (s.applyEntry c i sub v).2.contexts = s.contexts := by
  unfold State.applyEntry
  split
  · exact applyStackMode_contexts
  split
  · exact applyPortEnable_contexts
  split
  · dsimp only
    split
    · exact enterDeepIdle_contexts
    · split
      · exact leaveDeepIdle_contexts
      · rfl
  split
  · split
    · exact wipePke_contexts
    · split <;> rfl
  split
  · exact narrowWriteOp_contexts
  · split <;> rfl

theorem applyStaged_contexts {c : Nat} (staged : List (Nat × Nat)) : (s.applyStaged c staged).contexts = s.contexts := by
  unfold State.applyStaged
  refine (foldl_keeps State.contexts (fun s p => applyEntry_contexts) staged _).trans ?_
  unfold State.sendRecord State.gateSend
  split
  · rfl
  · dsimp only
    split <;> rfl

/-- The group that a context's COMMIT applies. -/
def committedGroup (s : State) (ctx : Nat) : PendingGroup :=
  { ctx := ctx, id := (s.context ctx).groupId, job := (s.context ctx).groupOwner, staged := (s.context ctx).staged, deadline := s.now + 1000000 * s.entry 0x1040 1 }

/-- The state in which a context's COMMIT applies its group. -/
def committing (s : State) (ctx : Nat) : State :=
  s.setContext ctx { s.context ctx with commitTime := s.fabricTime, snapshot := none }

/-- COMMIT applies a group at once where no entry waits for a barrier and no unit runs (R40, R43). -/
theorem groupControl_commits (hOpen : (s.context ctx).groupState = 1)
    (hNow : ((s.context ctx).staged.any fun p => isEpochKey p.1) = false ∨ (s.job (s.context ctx).groupOwner).active = false)
    (hStopped : s.stagedConflict (s.context ctx).staged = false) :
    s.groupControl ctx 2 = (OK, ((committing s ctx).applyStaged ctx (s.context ctx).staged).endGroup (committedGroup s ctx)
      fun c => c.showState (committedGroup s ctx) 3) := by
  have hPending : ¬(((s.context ctx).staged.any fun p => isEpochKey p.1) = true ∧ (s.job (s.context ctx).groupOwner).active = true) := by
    rintro ⟨h1, h2⟩
    rcases hNow with h | h
    · rw [h] at h1; exact absurd h1 (by decide)
    · rw [h] at h2; exact absurd h2 (by decide)
  have hStopped' : (committing s ctx).stagedConflict (s.context ctx).staged = false := hStopped
  have hPending' : ¬(((s.context ctx).staged.any fun p => isEpochKey p.1) = true ∧ ((committing s ctx).job (s.context ctx).groupOwner).active = true) := hPending
  have hState : s.updContext ctx (fun c => { c with commitTime := s.fabricTime, groupOwner := (s.context ctx).groupOwner, staged := (s.context ctx).staged, snapshot := none }) =
    committing s ctx := rfl
  have hCommit : s.groupControl ctx 2 = s.commitGroup ctx (s.context ctx).groupOwner (s.context ctx).staged := by
    simp [State.groupControl, hOpen]
  rw [hCommit, State.commitGroup, hState, if_neg hPending', hStopped', if_neg (by decide), State.applyGroup, hStopped']
  rfl

/-- The context shows the group applied. -/
theorem context_endGroup {g : PendingGroup} (hCtx : ctx < 16) (hg : g.ctx = ctx) (hId : (s.context ctx).groupId = g.id) :
    s.endGroup g (fun c => c.showState g 3) =
      s.setContext ctx { s.context ctx with applyTime := s.fabricTime, staged := [], snapshot := none, groupState := 3 } := by
  have hHas : s.hasContext ctx = true := Laws.hasContext_small hCtx
  subst hg
  simp only [State.endGroup, hHas, if_true, State.updContext, hId, Context.showState]

theorem groupCommit_applies (h : Safety.served s ctx = true) (hOpen : (s.context ctx).groupState = 1)
    (hNow : ((s.context ctx).staged.any fun p => isEpochKey p.1) = false ∨ (s.job (s.context ctx).groupOwner).active = false)
    (hStopped : s.stagedConflict (s.context ctx).staged = false) :
    ∃ t, exec (.groupCommit ctx) s = .next t ∧ (t.context ctx).groupState = 3 ∧ (t.context ctx).staged = [] ∧ Safety.outcome t ctx 0x1020 1 OK
      ∧ ∀ i sub v, sub < 256 → (s.context ctx).staged = [(entryKey i sub, v)] → Safety.commandEntry i sub = false → t.entry i sub = v := by
  obtain ⟨-, -, hCtx, -⟩ := Laws.served_parts h
  have hContext : ((committing s ctx).applyStaged ctx (s.context ctx).staged).context ctx =
      { s.context ctx with commitTime := s.fabricTime, snapshot := none } := by
    rw [State.context, applyStaged_contexts]
    exact Laws.context_setContext_same ..
  refine ⟨_, congrArg Host.Outcome.next (groupCommand_served h (by decide) (by decide)), ?_⟩
  rw [groupControl_commits hOpen hNow hStopped]
  dsimp only
  rw [Laws.record_eq hCtx _ (by decide) (by decide), context_endGroup hCtx rfl (by rw [hContext]; rfl)]
  refine ⟨by simp, by simp, by simp [Safety.outcome], fun i sub v hSub hStaged hPlain => ?_⟩
  rw [hStaged]
  simp only [State.applyStaged, List.foldl_cons, List.foldl_nil, entryKey_div hSub, entryKey_mod hSub, applyEntry_plain hPlain]
  exact Laws.entry_setEntry_same ..

end Groups

/-- Settles O14: what a write stages, and each command of GroupControl. -/
theorem transactionGroups : Obligations.TransactionGroups := by
  unfold Obligations.TransactionGroups
  exact ⟨fun _ _ _ _ _ h hOpen hi hSub hv hPlain hRow hContent hAcc hTile hRange hStopped hNew hRoom =>
      dictWrite_stages h hOpen hi hSub hv hPlain hRow hContent hAcc hTile hRange hStopped hNew hRoom,
    fun _ _ h hCount => groupOpen_opens h hCount,
    fun _ _ h hOpen hNow hStopped => groupCommit_applies h hOpen hNow hStopped,
    fun _ _ h hOpen => groupAbort_drops h hOpen⟩

end Sys2Proof.Proofs
end

section
/-! PROOFS. What an event leaves alone (R399, R400): counters, the log, the gate and the vectors change, and no unit does. -/

namespace Sys2Proof.Proofs

open Sys2Proof.Machine

/-- `t` is `s` but for what events change: entries, the log, the notices and their gate end, the interrupt vectors, and what left the module. -/
def EventFrame (s t : State) : Prop :=
  ∃ d l n q g o h, t = { s with dict := d, log := l, logNext := n, notices := q, hostGate := g, out := o, hostLink := h }

namespace EventFrame

variable {s t u : State}

theorem refl (s : State) : EventFrame s s := ⟨_, _, _, _, _, _, _, rfl⟩

theorem trans (h : EventFrame s t) (h' : EventFrame t u) : EventFrame s u := by
  obtain ⟨d, l, n, q, g, o, x, rfl⟩ := h
  obtain ⟨d', l', n', q', g', o', x', rfl⟩ := h'
  exact ⟨d', l', n', q', g', o', x', rfl⟩

theorem setEntry (h : EventFrame s t) (i k v : Nat) : EventFrame s (t.setEntry i k v) := by
  obtain ⟨d, l, n, q, g, o, x, rfl⟩ := h
  exact ⟨_, l, n, q, g, o, x, rfl⟩

theorem emit (h : EventFrame s t) (x : Output) : EventFrame s (t.emit x) := by
  obtain ⟨d, l, n, q, g, o, y, rfl⟩ := h
  exact ⟨d, l, n, q, g, _, y, rfl⟩

theorem countEvent (h : EventFrame s t) (e d : Nat) : EventFrame s (t.countEvent e d) := ((h.setEntry ..).setEntry ..).setEntry ..

theorem logEvent (h : EventFrame s t) (e : LogEntry) : EventFrame s (t.logEvent e) := by
  obtain ⟨d, l, n, q, g, o, x, rfl⟩ := h
  unfold State.logEvent
  split
  · exact ⟨d, _, _, q, g, o, x, rfl⟩
  · exact ⟨_, _, _, q, g, o, x, rfl⟩

theorem notice (h : EventFrame s t) (e : LogEntry) : EventFrame s (t.notice e) := by
  obtain ⟨d, l, n, q, g, o, x, rfl⟩ := h
  unfold State.notice State.gateSend
  split
  · exact ⟨d, l, n, _, g, o, x, rfl⟩
  · dsimp only
    split
    · exact ⟨d, l, n, q, _, o, x, rfl⟩
    · exact ⟨d, l, n, q, _, _, x, rfl⟩

theorem interrupt (h : EventFrame s t) (k : Nat) : EventFrame s (t.interrupt k) := by
  obtain ⟨d, l, n, q, g, o, x, rfl⟩ := h
  unfold State.interrupt
  dsimp only
  split
  · exact ⟨_, l, n, q, g, _, _, rfl⟩
  · split
    · exact ⟨d, l, n, q, g, o, x, rfl⟩
    · exact ⟨d, l, n, q, g, o, _, rfl⟩

theorem raise (h : EventFrame s t) (e j c a b : Nat) : EventFrame s (t.raise e j c a b) := by
  unfold State.raise
  dsimp only
  split
  · exact h.countEvent ..
  · exact (((h.countEvent ..).logEvent _).notice _).interrupt _

theorem mem (h : EventFrame s t) : t.mem = s.mem := by obtain ⟨d, l, n, q, g, o, x, rfl⟩ := h; rfl
theorem tiles (h : EventFrame s t) : t.tiles = s.tiles := by obtain ⟨d, l, n, q, g, o, x, rfl⟩ := h; rfl
theorem jobs (h : EventFrame s t) : t.jobs = s.jobs := by obtain ⟨d, l, n, q, g, o, x, rfl⟩ := h; rfl
theorem contexts (h : EventFrame s t) : t.contexts = s.contexts := by obtain ⟨d, l, n, q, g, o, x, rfl⟩ := h; rfl
theorem pendingGroups (h : EventFrame s t) : t.pendingGroups = s.pendingGroups := by obtain ⟨d, l, n, q, g, o, x, rfl⟩ := h; rfl
theorem now (h : EventFrame s t) : t.now = s.now := by obtain ⟨d, l, n, q, g, o, x, rfl⟩ := h; rfl
theorem blobs (h : EventFrame s t) : t.blobs = s.blobs := by obtain ⟨d, l, n, q, g, o, x, rfl⟩ := h; rfl

theorem context (h : EventFrame s t) (c : Nat) : t.context c = s.context c := by rw [State.context, h.contexts]; rfl
theorem job (h : EventFrame s t) (j : Nat) : t.job j = s.job j := by rw [State.job, h.jobs]; rfl
theorem tile (h : EventFrame s t) (k : Nat) : t.tile k = s.tile k := by rw [State.tile, h.tiles]; rfl

end EventFrame

/-- An event changes entries of its own index, and those of the log and the vectors, alone. -/
theorem entry_raise {s : State} {e j c a b i k : Nat} (hk : k < 256) (hEvent : i ≠ e) (hLog : i ≠ 0xB001) (hVector : i ≠ 0x5030) :
    (s.raise e j c a b).entry i k = s.entry i k := by
  have hCount (t : State) (d : Nat) : (t.countEvent e d).entry i k = t.entry i k := by
    rw [State.countEvent, Laws.entry_setEntry_index _ _ _ _ _ _ (by decide) hk hEvent, Laws.entry_setEntry_index _ _ _ _ _ _ (by decide) hk hEvent,
      Laws.bump_eq, Laws.entry_setEntry_index _ _ _ _ _ _ (by decide) hk hEvent]
  have hLogged (t : State) (x : LogEntry) : (t.logEvent x).entry i k = t.entry i k := by
    unfold State.logEvent
    split
    · rfl
    · rw [Laws.bump_eq, Laws.entry_setEntry_index _ _ _ _ _ _ (by decide) hk hLog]; rfl
  have hNotice (t : State) (x : LogEntry) : (t.notice x).entry i k = t.entry i k := by
    unfold State.notice State.gateSend
    dsimp only
    split
    · simp only [State.entry]
    · split <;> rfl
  have hSent (t : State) (x : Nat) : (t.interrupt x).entry i k = t.entry i k := by
    unfold State.interrupt
    dsimp only
    split
    · exact Laws.entry_setEntry_index _ _ _ _ _ _ (by decide) hk hVector
    · split <;> rfl
  unfold State.raise
  dsimp only
  split
  · exact hCount ..
  · rw [hSent, hNotice, hLogged, hCount]

end Sys2Proof.Proofs
end

section
/-! PROOFS. What time does to contexts, the persistent store, and the writes of RestoreDefaults and SetUnload (R33, R42, R45, R55, R56, R67). -/

namespace Sys2Proof.Proofs

open Sys2Proof.Machine

section Timeouts

variable {s : State} {ctx : Nat}

/-- A group that its context still shows is discarded there, and no unit changes (R42). -/
theorem discardGroup_shows {g : PendingGroup} (hHas : s.hasContext g.ctx = true) (hId : (s.context g.ctx).groupId = g.id) :
    ((s.discardGroup g).context g.ctx).groupState = 4 ∧ ((s.discardGroup g).context g.ctx).lastStatus = GROUP_DISCARDED
      ∧ (s.discardGroup g).pendingGroups = s.pendingGroups ∧ (s.discardGroup g).mem = s.mem ∧ (s.discardGroup g).tiles = s.tiles := by
  have hFrame := (EventFrame.refl (s.endGroup g fun c => { c.showState g 4 with lastStatus := GROUP_DISCARDED })).raise 0xB0A0 0xFF GROUP_DISCARDED g.job g.staged.length
  rw [State.discardGroup, hFrame.context, hFrame.pendingGroups, hFrame.mem, hFrame.tiles]
  simp [State.endGroup, hHas, hId, Context.showState]

theorem groupEpochTimeout_discards {g : PendingGroup} (hDue : (s.pendingGroups.find? fun g => g.ctx = ctx && g.deadline ≤ s.now) = some g)
    (hHas : s.hasContext ctx = true) (hId : (s.context ctx).groupId = g.id) :
    ∃ t, exec (.groupEpochTimeout ctx) s = .next t ∧ (t.context ctx).groupState = 4 ∧ (t.context ctx).lastStatus = GROUP_DISCARDED
      ∧ t.pendingGroups = s.pendingGroups.erase g ∧ t.mem = s.mem ∧ t.tiles = s.tiles := by
  have hCtx : g.ctx = ctx := by
    have := List.find?_some hDue
    simp only [Bool.and_eq_true, decide_eq_true_eq] at this
    exact this.1
  subst hCtx
  have hExec : exec (.groupEpochTimeout g.ctx) s = .next (({ s with pendingGroups := s.pendingGroups.erase g } : State).discardGroup g) := by
    refine congrArg Host.Outcome.next ?_
    rw [hDue]
  exact ⟨_, hExec, discardGroup_shows (s := { s with pendingGroups := s.pendingGroups.erase g }) hHas hId⟩

theorem groupIdleTimeout_drops (hIdle : s.contextIdle ctx = true) (hOpen : (s.context ctx).groupState = 1) :
    exec (.groupIdleTimeout ctx) s = .next (s.setContext ctx
      { s.context ctx with groupState := 4, applyTime := s.fabricTime, staged := [], snapshot := none }) :=
  congrArg Host.Outcome.next ((if_pos hIdle).trans (if_pos hOpen))

/-- A dropped transfer leaves PendingState EMPTY or every entry alone. -/
theorem dropTransfer_dict : (s.dropTransfer ctx).entry 0x9100 2 = 0 ∨ (s.dropTransfer ctx).dict = s.dict := by
  unfold State.dropTransfer
  dsimp only
  split
  · exact .inl (Laws.entry_setEntry_same ..)
  · exact .inr rfl

theorem transferIdleTimeout_drops (hIdle : s.contextIdle ctx = true) :
    ∃ t, exec (.transferIdleTimeout ctx) s = .next t ∧ (t.context ctx).transfer = none ∧ t.mem = s.mem ∧ t.blobs = s.blobs
      ∧ (t.entry 0x9100 2 = 0 ∨ t.dict = s.dict) :=
  ⟨_, congrArg Host.Outcome.next (if_pos hIdle), by rw [dropTransfer_context], dropTransfer_mem, dropTransfer_blobs, dropTransfer_dict⟩

theorem contextRelease_releases (hFabric : isFabric ctx = true) (hIdle : s.contextIdle ctx = true) (hClosed : (s.context ctx).groupState ≠ 1)
    (hPending : (s.pendingGroups.any fun g => g.ctx = ctx) = false) :
    ∃ t, exec (.contextRelease ctx) s = .next t ∧ Tab.get? t.contexts ctx = none
      ∧ (∀ k, k ≠ ctx → Tab.get? t.contexts k = Tab.get? s.contexts k) ∧ t.dict = s.dict :=
  ⟨_, congrArg Host.Outcome.next (if_pos ⟨hFabric, hIdle, hClosed, by rw [hPending]; rfl⟩), Laws.tab_get?_erase_same .., fun _ hk => Laws.tab_get?_erase_ne _ hk, rfl⟩

theorem persistRecordWrite_stores {r : PersistRecord} {rest : List PersistRecord} (hWaits : s.unstored = r :: rest) (hPower : s.fieldPowered = true) :
    exec .persistRecordWrite s = .next { s with journal := s.journal ++ [r], unstored := rest } := by
  refine congrArg Host.Outcome.next ?_
  rw [hWaits]
  exact if_pos hPower

/-! ### RestoreDefaults and SetUnload (R56, R67) -/

theorem lookupEntry_restoreDefaults : ∃ r, lookupEntry 0x1070 1 = some r ∧ r.ty = .u32 ∧ r.acc = .wo ∧ r.min = 0x44454641 ∧ r.max = 0x44454641 ∧ r.index = 0x1070 :=
  ⟨(lookupEntry 0x1070 1).get (by decide), by simp, by decide, by decide, by decide, by decide, by decide⟩

theorem restoreDefaults_arms (h : Safety.direct s ctx = true) (hJobs : s.jobsLoaded = []) :
    ∃ t, exec (.restoreDefaults ctx 0x44454641) s = .next t ∧ t.restoreDefaults = true ∧ Safety.outcome t ctx 0x1070 1 OK ∧ t.dict = s.dict ∧ t.mem = s.mem := by
  obtain ⟨hServed, -⟩ := Laws.direct_parts h
  obtain ⟨hReady, -, hCtx, -⟩ := Laws.served_parts hServed
  obtain ⟨r, hRow, hTy, hAcc, hMin, hMax, hIndex⟩ := lookupEntry_restoreDefaults
  have hRange : s.rangeRefusal r 0x1070 1 0x44454641 = none := by
    have hU32 : EntryType.u32.max = 0xFFFFFFFF := rfl
    simp [State.rangeRefusal, hTy, hMin, hMax, hIndex, State.valueRefusal, hU32]
  have hStopped : r.cls = .stopped → s.unitStopped 0x1070 1 = true := fun _ => by
    simp [State.unitStopped, show ownerJob 0x1070 = none by decide, hReady, hJobs]
  have hCross : crosses ctx 0x1070 = false := by simp [crosses, show isFieldServed 0x1070 = false by decide]
  have hWrite : s.writeEntry ctx 0x1070 1 0x44454641 State.restoreOp = ({ s with restoreDefaults := true } : State).record ctx 0x1070 1 OK := by
    rw [Laws.writeEntry_served hServed hRow rfl,
      Laws.decideWrite_command h (by rw [hTy]; rfl) hAcc (by decide) hRange (Laws.stateRefusal_served true hServed (by decide) (by decide)) (by decide) hStopped,
      Laws.takeWrite_here _ hCross (by decide)]
    rfl
  refine ⟨_, congrArg Host.Outcome.next hWrite, ?_⟩
  rw [Laws.record_eq hCtx _ (by decide) (by decide)]
  exact ⟨rfl, by simp [Safety.outcome], rfl, rfl⟩

theorem lookupEntry_setUnload : ∃ r, lookupEntry 0x2010 2 = some r ∧ r.ty = .u8 ∧ r.acc = .wo ∧ r.min = 0 ∧ r.max = 255 ∧ r.index = 0x2010 ∧ r.cls = .immediate :=
  ⟨(lookupEntry 0x2010 2).get (by decide), by simp, by decide, by decide, by decide, by decide, by decide, by decide⟩

theorem setUnload_unloads {id slot : Nat} {p : ParamSet} (h : Safety.direct s ctx = true) (hId : id < 256) (hSet : s.findSet id = some (slot, p))
    (hRefs : s.setRefs id = 0) :
    ∃ t, exec (.setUnload ctx id) s = .next t ∧ Tab.get? t.sets slot = none ∧ (∀ k, k ≠ slot → Tab.get? t.sets k = Tab.get? s.sets k)
      ∧ t.entry 0x2010 3 = OK ∧ Safety.outcome t ctx 0x2010 2 OK ∧ t.mem = s.mem ∧ t.tiles = Tab.mapVal s.tiles fun _ x => x.forgetSet id := by
  obtain ⟨hServed, -⟩ := Laws.direct_parts h
  obtain ⟨hReady, -, hCtx, hSecure, -, hAwaits⟩ := Laws.served_parts hServed
  obtain ⟨r, hRow, hTy, hAcc, hMin, hMax, hIndex, hCls⟩ := lookupEntry_setUnload
  have hRange : s.rangeRefusal r 0x2010 2 id = none := by
    have hU8 : EntryType.u8.max = 255 := rfl
    simp only [State.rangeRefusal, hTy, hMin, hMax, hIndex, State.valueRefusal, hU8]
    rw [if_neg (by omega), if_neg (by omega)]
    simp
  have hCross : crosses ctx 0x2010 = false := by simp [crosses, show isFieldServed 0x2010 = false by decide]
  have hUnload : s.unloadSet id = (OK, { s with sets := Tab.erase s.sets slot, blobs := Tab.erase s.blobs (entryKey (0x2100 + slot) 2)
                                                tiles := Tab.mapVal s.tiles fun _ x => x.forgetSet id }) := by
    simp [State.unloadSet, hSet, hRefs]
  have hResult : s.writeResult ctx 0x2010 2 id (fun s => s.unloadSet id) = s.unloadSet id := by
    have hDecide := Laws.decideWrite_command (take := State.takeWrite (slotWrite ctx 0x2010 2 id) 0x2010 2 id fun s => s.unloadSet id) h (by rw [hTy]; rfl) hAcc
      (by decide) hRange (Laws.stateRefusal_served true hServed (by decide) (by decide)) (by decide) (fun hc => by rw [hCls] at hc; cases hc)
    simp only [State.writeResult, Laws.accessRefusal_served true hServed hRow rfl, hRow, hDecide]
    exact Laws.takeWrite_here _ hCross (by decide)
  have hWrite : s.writeNoted ctx 0x2010 2 id (fun s => s.unloadSet id) State.noteUnload =
      ((s.unloadSet id).2.noteUnload (s.unloadSet id).1).record ctx 0x2010 2 (s.unloadSet id).1 := by
    have hPaused : s.bar0Paused ctx = false := by simp [State.bar0Paused, hReady]
    have hTurn : s.awaits (slotWrite ctx 0x2010 2 id).ctx = false := hAwaits
    simp [State.writeNoted, State.served, hPaused, hSecure, State.inTurn, hTurn, hResult]
  refine ⟨_, congrArg Host.Outcome.next hWrite, ?_⟩
  rw [hUnload]
  dsimp only
  rw [Laws.record_eq hCtx _ (by decide) (by decide), State.noteUnload, if_pos (.inl rfl), State.noteLoad, if_neg (by decide)]
  refine ⟨Laws.tab_get?_erase_same .., fun k hk => Laws.tab_get?_erase_ne _ hk, ?_, by simp [Safety.outcome], rfl, rfl⟩
  exact (Laws.entry_setEntry_sub _ _ _ _ _ (by decide)).trans (Laws.entry_setEntry_same ..)

end Timeouts

/-- Settles O15: what each timeout and each store does. -/
theorem timeoutsAndStores : Obligations.TimeoutsAndStores := by
  unfold Obligations.TimeoutsAndStores
  exact ⟨fun _ _ _ hDue hHas hId => groupEpochTimeout_discards hDue hHas hId,
    fun _ _ hIdle hOpen => groupIdleTimeout_drops hIdle hOpen,
    fun _ _ hIdle => transferIdleTimeout_drops hIdle,
    fun _ _ hFabric hIdle hClosed hPending => contextRelease_releases hFabric hIdle hClosed hPending,
    fun _ _ _ hWaits hPower => persistRecordWrite_stores hWaits hPower,
    fun _ _ h hJobs => restoreDefaults_arms h hJobs,
    fun _ _ _ _ _ h hId hSet hRefs => setUnload_unloads h hId hSet hRefs⟩

end Sys2Proof.Proofs
end

section
/-! PROOFS. Segmented transfers through the window of a host-side context (R54, R55, R438). -/

namespace Sys2Proof.Proofs

open Sys2Proof.Machine

section Window

variable {s : State} {ctx i sub v : Nat} {r : EntryRow} {x : Transfer}

theorem lookupEntry_control : ∃ r, lookupEntry 0x1038 4 = some r ∧ r.ty = .u8 ∧ r.acc = .wo ∧ r.min = 1 ∧ r.max = 5 ∧ r.index = 0x1038 :=
  ⟨(lookupEntry 0x1038 4).get (by decide), by simp, by decide, by decide, by decide, by decide, by decide⟩

/-- A command of Control in a context with no open group does what Control does, and its outcome is recorded. -/
theorem transferCommand_direct (h : Safety.direct s ctx = true) (hv : 1 ≤ v) (hv' : v ≤ 5) :
    s.transferCommand ctx v = (s.transferControl ctx v).2.record ctx 0x1038 4 (s.transferControl ctx v).1 := by
  obtain ⟨hServed, hClosed⟩ := Laws.direct_parts h
  obtain ⟨r, hRow, hTy, hAcc, hMin, hMax, hIndex⟩ := lookupEntry_control
  have hRange : s.rangeRefusal r 0x1038 4 v = none := by
    have hU8 : EntryType.u8.max = 255 := rfl
    simp only [State.rangeRefusal, hTy, hMin, hMax, hIndex, State.valueRefusal, hU8]
    rw [if_neg (by omega), if_neg (by omega)]
    simp
  have hCross : crosses ctx 0x1038 = false := by simp [crosses, show isFieldServed 0x1038 = false by decide]
  rw [State.transferCommand, Laws.writeEntry_served hServed hRow rfl,
    Laws.decideWrite_local hServed (by rw [hTy]; rfl) (by rw [hAcc]; decide) (by decide) hRange (Laws.stateRefusal_served true hServed (by decide) (by decide))
      (by decide) (fun _ _ => hClosed), Laws.takeWrite_here _ hCross (by decide)]

/-- A transfer command that is carried out leaves OK, and its context as the transfer left it. -/
theorem transferCommand_ok {t : State} (h : Safety.direct s ctx = true) (hv : 1 ≤ v) (hv' : v ≤ 5) (hControl : s.transferControl ctx v = (OK, t)) :
    s.transferCommand ctx v = t.setContext ctx { t.context ctx with
      lastStatus := OK, lastEntry := entryKey 0x1038 4, lastAccess := t.now } := by
  obtain ⟨hServed, -⟩ := Laws.direct_parts h
  obtain ⟨-, -, hCtx, -⟩ := Laws.served_parts hServed
  rw [transferCommand_direct h hv hv', hControl]
  exact Laws.record_eq hCtx OK (by decide) (by decide)

/-! ### The start (R54, R438) -/

/-- A transfer of a content entry may start in a host-side context with no open group. -/
theorem startRefusal_direct {write : Bool} {length : Nat} (h : Safety.direct s ctx = true) (hSub : 0 < sub) (hRow : lookupEntry i sub = some r)
    (hContent : r.ty.isContent = true) (hEngine : i ≠ 0x9200 ∧ i ≠ 0x9210) (hTile : ((tileOf i).any fun t => !s.tileEnabled t) = false)
    (hWrite : write = true → r.acc ≠ .ro ∧ i ≠ 0x9100 ∧ length ≤ maxContent i sub) (hRead : write = false → ¬(0x8040 ≤ i ∧ i < 0x8048)) :
    s.startRefusal ctx i sub write length = none := by
  obtain ⟨hServed, hClosed⟩ := Laws.direct_parts h
  obtain ⟨hReady, hRecovery, hCtx, -, hGate, -⟩ := Laws.served_parts hServed
  obtain ⟨hDtp, -⟩ := Laws.small_context hCtx
  have hForm : s.startForm r ctx i sub write length = none := by
    cases write with
    | false => simp [State.startForm, hContent, hSub.ne']
    | true =>
      obtain ⟨hRo, -, hLength⟩ := hWrite rfl
      simp [State.startForm, hContent, hSub.ne', hRo, hDtp, hLength]
  have hState : s.startState ctx i sub write = none := by
    have hClaim : s.unclaimed ctx i sub write = false := by simp [State.unclaimed, hEngine]
    have hServes : s.unserved ctx i write = false := by simp [State.unserved, hRecovery, hReady]
    have hLost : s.startLost ctx i sub write = false := by simp [State.startLost, State.gateConflict, State.gateLost, hGate, hDtp]
    cases write with
    | false =>
      have hCapture : ¬(0x8040 ≤ i ∧ i < 0x8048 ∧ s.entry i 1 = 1) := fun hc => hRead rfl ⟨hc.1, hc.2.1⟩
      simp only [State.startState, hClaim, hServes, hLost, hClosed, hEngine.2, false_and, if_false, Bool.false_eq_true, or_self, Bool.not_false, true_and, hCapture]
    | true => simp [State.startState, hClaim, hServes, hLost, hClosed, hEngine.2, (hWrite rfl).2.1]
  simp [State.startRefusal, Laws.accessRefusal_served write hServed hRow hTile, hRow, hForm, hState]

theorem startRead_copies (h : Safety.direct s ctx = true) (hSub : 0 < sub) (hSub' : sub < 256) (hTarget : (s.context ctx).target = entryKey i sub)
    (hRow : lookupEntry i sub = some r) (hContent : r.ty.isContent = true) (hIndex : i ∉ [0x9010, 0x9200, 0x9210]) (hCapture : ¬(0x8040 ≤ i ∧ i < 0x8048))
    (hTile : ((tileOf i).any fun t => !s.tileEnabled t) = false) :
    ∃ t, exec (.startRead ctx) s = .next t ∧ Safety.outcome t ctx 0x1038 4 OK ∧ (t.context ctx).length = (s.content ctx i sub).length
      ∧ (t.context ctx).transfer = some { addr := entryKey i sub, write := false, length := (s.content ctx i sub).length, content := s.content ctx i sub } := by
  simp only [List.mem_cons, List.not_mem_nil, or_false, not_or] at hIndex
  have hStart := startRefusal_direct (write := false) (length := 0) h hSub hRow hContent hIndex.2 hTile (fun hw => nomatch hw) fun _ => hCapture
  have hOpen := openRead_of_plain hTarget (by rwa [entryKey_div hSub', entryKey_mod hSub']) (by rw [entryKey_div hSub']; exact hIndex.1)
  rw [entryKey_div hSub', entryKey_mod hSub'] at hOpen
  refine ⟨_, congrArg Host.Outcome.next (transferCommand_ok h (by decide) (by decide) hOpen), ?_⟩
  simp [Safety.outcome, readTransfer]

theorem startWrite_opens (h : Safety.direct s ctx = true) (hSub : 0 < sub) (hSub' : sub < 256) (hTarget : (s.context ctx).target = entryKey i sub)
    (hRow : lookupEntry i sub = some r) (hContent : r.ty.isContent = true) (hAcc : r.acc ≠ .ro) (hIndex : i ∉ [0x9100, 0x9200, 0x9210])
    (hLength : (s.context ctx).length ≤ maxContent i sub) (hTile : ((tileOf i).any fun t => !s.tileEnabled t) = false) :
    ∃ t, exec (.startWrite ctx) s = .next t ∧ Safety.outcome t ctx 0x1038 4 OK
      ∧ (t.context ctx).transfer = some { addr := entryKey i sub, write := true, length := (s.context ctx).length } := by
  simp only [List.mem_cons, List.not_mem_nil, or_false, not_or] at hIndex
  have hStart := startRefusal_direct (write := true) (length := (s.context ctx).length) h hSub hRow hContent hIndex.2 hTile (fun _ => ⟨hAcc, hIndex.1, hLength⟩)
    (fun hw => nomatch hw)
  have hOpen := openTransfer_of_plain (s := s) (ctx := ctx) (a := entryKey i sub) (length := (s.context ctx).length)
    (by rwa [entryKey_div hSub', entryKey_mod hSub']) (by rw [entryKey_div hSub']; exact hIndex.1)
  have hControl : s.transferControl ctx 2 = s.openTransfer ctx (entryKey i sub) (s.context ctx).length := by
    simp only [State.transferControl, State.openWrite, hTarget]
  rw [hOpen] at hControl
  refine ⟨_, congrArg Host.Outcome.next (transferCommand_ok h (by decide) (by decide) hControl), ?_⟩
  simp [Safety.outcome, writeTransfer]

/-! ### Segments and the end (R55) -/

/-- The window's bytes that a COMMIT_SEGMENT stores. -/
def windowBytes (x : Transfer) (off : Nat) : List Byte := (List.range (min 256 (x.length - off))).map fun i => x.byteAt (off + i)

theorem windowBytes_get {off k : Nat} (hk : k < 256) (hIn : off + k < x.length) : (windowBytes x off)[k]? = some (x.byteAt (off + k)) := by
  have hRange : k < min 256 (x.length - off) := by omega
  simp [windowBytes, hRange]

theorem commitSegment_stores (h : Safety.direct s ctx = true) (hTransfer : (s.context ctx).transfer = some x) (hWrite : x.write = true)
    (hStages : x.stages = false) (hOffset : (s.context ctx).offset < x.length) :
    ∃ t y, exec (.commitSegment ctx) s = .next t ∧ Safety.outcome t ctx 0x1038 4 OK ∧ (t.context ctx).offset = (s.context ctx).offset + 256
      ∧ (t.context ctx).transfer = some y ∧ t.dict = s.dict ∧ t.blobs = s.blobs
      ∧ ∀ k, k < 256 → (s.context ctx).offset + k < x.length → Tab.get? y.committed ((s.context ctx).offset + k) = some (x.byteAt ((s.context ctx).offset + k)) := by
  have hControl : s.transferControl ctx 3 = (OK, (s.updContext ctx fun c =>
      { c with transfer := some (x.commit (s.context ctx).offset (windowBytes x (s.context ctx).offset)) }).updContext ctx fun c => { c with offset := c.offset + 256 }) := by
    simp only [State.transferControl, State.commitWindow, hTransfer, hWrite, Bool.not_true, Bool.false_eq_true, if_false, Nat.not_le.mpr hOffset,
      storeSegment_of_plain hStages, if_true, windowBytes]
  refine ⟨_, x.commit (s.context ctx).offset (windowBytes x (s.context ctx).offset),
    congrArg Host.Outcome.next (transferCommand_ok h (by decide) (by decide) hControl), by simp [Safety.outcome], by simp, by simp, rfl, rfl, fun k hk hIn => ?_⟩
  have hLength : k < (windowBytes x (s.context ctx).offset).length := by
    simp [windowBytes]; omega
  rw [get?_commit _ hLength, windowBytes_get hk hIn]

/-- Content of an entry of the host side becomes the entry's; one that persists also leaves over the gate (R33, R55). -/
theorem takeContent_direct {d : List Byte} (h : Safety.direct s ctx = true) (hIndex : i ∉ [0x2010, 0x9100, 0x9210]) (hValid : contentValid i d = true) :
    ∃ g o f, s.takeContent ctx i sub d = (OK, { s.setBlob i sub d with hostGate := g, out := o, nonceFresh := f }) := by
  obtain ⟨hServed, -⟩ := Laws.direct_parts h
  obtain ⟨-, -, hCtx, -, hGate, -⟩ := Laws.served_parts hServed
  simp only [List.mem_cons, List.not_mem_nil, or_false, not_or] at hIndex
  have hLost : s.startLost ctx i sub true = false := by simp [State.startLost, State.gateConflict, State.gateLost, hGate, (Laws.small_context hCtx).1]
  simp only [State.takeContent, hValid, hLost, Bool.not_true, Bool.false_eq_true, if_false, hIndex]
  have hStore := storeContent_eq (s := s) (i := i) (sub := sub) ctx d
  by_cases hPersist : isPersistent i sub = true
  · refine ⟨(s.storeContent ctx i sub d).hostGate, (s.storeContent ctx i sub d).out, if i = 0x9010 then true else s.nonceFresh, ?_⟩
    rw [if_pos hPersist, hStore]
    split <;> rfl
  · refine ⟨s.hostGate, s.out, if i = 0x9010 then true else s.nonceFresh, ?_⟩
    rw [if_neg hPersist]
    split <;> rfl

theorem segmentFinish_gives (h : Safety.direct s ctx = true) (hTransfer : (s.context ctx).transfer = some x) (hWrite : x.write = true)
    (hFull : x.length ≤ x.committed.length) (hIndex : x.index ∉ [0x2010, 0x9100, 0x9210]) (hValid : contentValid x.index x.bytes = true) :
    ∃ t, exec (.segmentFinish ctx) s = .next t ∧ Safety.outcome t ctx 0x1038 4 OK ∧ (t.context ctx).transfer = none
      ∧ t.blob x.index x.sub = x.bytes ∧ t.dict = s.dict ∧ t.mem = s.mem := by
  obtain ⟨g, o, f, hTake⟩ := takeContent_direct (sub := x.sub) h hIndex hValid
  have hStages : (s.context ctx).transfer.any Transfer.stages = false := by
    simp only [List.mem_cons, List.not_mem_nil, or_false, not_or] at hIndex
    simp [hTransfer, Transfer.stages, hIndex]
  have hDrop := dropTransfer_of_not_staging (s := { s.setBlob x.index x.sub x.bytes with hostGate := g, out := o, nonceFresh := f }) (ctx := ctx) hStages
  have hControl : s.transferControl ctx 4 = (OK, ({ s.setBlob x.index x.sub x.bytes with hostGate := g, out := o, nonceFresh := f } : State).updContext ctx
      fun c => { c with transfer := none }) := by
    simp only [State.transferControl, State.finishTransfer, hTransfer, hWrite, Bool.not_true, Bool.false_eq_true, if_false, Nat.not_lt.mpr hFull, hTake, if_true, hDrop]
  refine ⟨_, congrArg Host.Outcome.next (transferCommand_ok h (by decide) (by decide) hControl), by simp [Safety.outcome], by simp, ?_, rfl, rfl⟩
  exact blob_setBlob_same

theorem segmentCancel_drops (h : Safety.direct s ctx = true) :
    ∃ t, exec (.segmentCancel ctx) s = .next t ∧ Safety.outcome t ctx 0x1038 4 OK ∧ (t.context ctx).transfer = none ∧ t.blobs = s.blobs ∧ t.mem = s.mem := by
  have hControl : s.transferControl ctx 5 = (OK, s.dropTransfer ctx) := rfl
  refine ⟨_, congrArg Host.Outcome.next (transferCommand_ok h (by decide) (by decide) hControl), by simp [Safety.outcome], by simp, ?_, ?_⟩
  · exact dropTransfer_blobs
  · exact dropTransfer_mem

end Window

/-- Settles O16: each command of Control in its legal state. -/
theorem segmentedTransfers : Obligations.SegmentedTransfers := by
  unfold Obligations.SegmentedTransfers
  exact ⟨fun _ _ _ _ _ h hSub hSub' hTarget hRow hContent hIndex hCapture hTile => startRead_copies h hSub hSub' hTarget hRow hContent hIndex hCapture hTile,
    fun _ _ _ _ _ h hSub hSub' hTarget hRow hContent hAcc hIndex hLength hTile =>
      startWrite_opens h hSub hSub' hTarget hRow hContent hAcc hIndex hLength hTile,
    fun _ _ _ h hTransfer hWrite hStages hOffset => commitSegment_stores h hTransfer hWrite hStages hOffset,
    fun _ _ _ h hTransfer hWrite hFull hIndex hValid => segmentFinish_gives h hTransfer hWrite hFull hIndex hValid,
    fun _ _ h => segmentCancel_drops h⟩

end Sys2Proof.Proofs
end

section
/-! PROOFS. DTP sessions open, close and idle out (R51-R53, R367). -/

namespace Sys2Proof.Proofs

open Sys2Proof.Machine

section Dtp

variable {s : State} {id seq : Nat} {x : Session}

theorem dtpHello_answers {port offered v k : Nat} {cert eph : List Byte} (hServed : s.dtpServed = true) (hPort : port = s.entry 0x1050 1)
    (hVersion : s.chooseVersion offered = some v) (hRoom : s.sessions.length < s.entry 0x1050 3) (hFree : s.freeSession = some k) :
    ∃ t, exec (.dtpHello port offered cert eph) s = .next t ∧ t.dict = s.dict ∧ t.mem = s.mem ∧ t.jobs = s.jobs
      ∧ (s.clientValid cert eph = true → t.session (k + 1) = some { version := v, port := port, lastSeen := s.now }
          ∧ ∃ d, d.length = 193 ∧ t.out = s.out ++ [.dtpHelloAck port v (k + 1) OK (s.blob 0x9000 5) d])
      ∧ (s.clientValid cert eph = false → t.sessions = s.sessions ∧ t.out = s.out ++ [.dtpHelloAck port 0 0 ACCESS_PROTECT [] []]) := by
  have hPass : ¬((!s.dtpServed) = true ∨ port ≠ s.entry 0x1050 1) := by simp [hServed, hPort]
  cases hValid : s.clientValid cert eph with
  | true =>
    have hOpen : exec (.dtpHello port offered cert eph) s = .next (s.openSession port v (k + 1)) := by
      refine congrArg Host.Outcome.next ?_
      rw [if_neg hPass, hValid, hVersion]
      simp only [Bool.not_true, Bool.false_eq_true, if_false, hFree, Nat.not_le.mpr hRoom]
    refine ⟨_, hOpen, rfl, rfl, rfl, fun _ => ⟨Laws.tab_get?_put_same .., _, ?_, rfl⟩, fun h => absurd h (by decide)⟩
    rw [List.length_map, List.length_range]
  | false =>
    have hRefuse : exec (.dtpHello port offered cert eph) s = .next (s.refuseHello port 0 ACCESS_PROTECT) := by
      refine congrArg Host.Outcome.next ?_
      rw [if_neg hPass, hValid]
      rfl
    exact ⟨_, hRefuse, rfl, rfl, rfl, fun h => absurd h (by decide), fun _ => ⟨rfl, rfl⟩⟩

theorem dtpHello_no_version {port offered : Nat} {cert eph : List Byte} (hServed : s.dtpServed = true) (hPort : port = s.entry 0x1050 1)
    (hVersion : s.chooseVersion offered = none) :
    ∃ t, exec (.dtpHello port offered cert eph) s = .next t ∧ t.sessions = s.sessions ∧ t.dict = s.dict
      ∧ t.out = s.out ++ [.dtpHelloAck port 0 0 (if s.clientValid cert eph then VALUE_RANGE else ACCESS_PROTECT) [] []] := by
  have hPass : ¬((!s.dtpServed) = true ∨ port ≠ s.entry 0x1050 1) := by simp [hServed, hPort]
  have hRefuse : exec (.dtpHello port offered cert eph) s = .next (s.refuseHello port 0 (if s.clientValid cert eph then VALUE_RANGE else ACCESS_PROTECT)) := by
    refine congrArg Host.Outcome.next ?_
    rw [if_neg hPass, hVersion]
    cases s.clientValid cert eph <;> rfl
  exact ⟨_, hRefuse, rfl, rfl, rfl⟩

/-! ### The end of a session (R42, R53) -/

/-- A closed session's group and transfer are dropped, and no unit changes. -/
theorem closeSession_eq : ∃ d, s.closeSession id = { s with
    dict := d, sessions := Tab.erase s.sessions id, contexts := (s.closeSession id).contexts, pendingGroups := (s.closeSession id).pendingGroups } := by
  obtain ⟨d, hDrop⟩ := dropTransfer_eq (s := s.dropGroup (dtpContext id)) (ctx := dtpContext id)
  have hGroup : s.dropGroup (dtpContext id) = { s with contexts := (s.dropGroup (dtpContext id)).contexts } := by
    unfold State.dropGroup
    split <;> rfl
  refine ⟨d, ?_⟩
  unfold State.closeSession
  rw [hDrop, hGroup]
  rfl

/-- What is left of a closed session: nothing, and nothing of another changes. -/
theorem closeSession_frame : (s.closeSession id).session id = none ∧ (s.closeSession id).out = s.out ∧ (∀ k, k ≠ id → (s.closeSession id).session k = s.session k)
    ∧ (s.closeSession id).mem = s.mem ∧ (s.closeSession id).tiles = s.tiles ∧ (s.closeSession id).jobs = s.jobs := by
  obtain ⟨d, h⟩ := closeSession_eq (s := s) (id := id)
  rw [h]
  exact ⟨Laws.tab_get?_erase_same .., rfl, fun k hk => Laws.tab_get?_erase_ne _ hk, rfl, rfl, rfl⟩

theorem dtpClose_closes (hServed : s.dtpServed = true) (hSession : s.session id = some x) (hHighest : (x.highest.any fun h => seq ≤ h) = false) :
    ∃ t, exec (.dtpClose id seq) s = .next t ∧ t.session id = none ∧ t.out = s.out ∧ (∀ k, k ≠ id → t.session k = s.session k)
      ∧ (t.context (16 + id)).transfer = none ∧ t.mem = s.mem ∧ t.tiles = s.tiles ∧ t.jobs = s.jobs := by
  have hClose : exec (.dtpClose id seq) s = .next (s.closeSession id) := by
    refine congrArg Host.Outcome.next ?_
    rw [hServed, hSession]
    simp only [Bool.not_true, Bool.false_eq_true, if_false, hHighest]
  obtain ⟨hNone, hOut, hOthers, hMem, hTiles, hJobs⟩ := closeSession_frame (s := s) (id := id)
  have hContext : ((s.closeSession id).context (16 + id)).transfer = none :=
    congrArg Context.transfer (Laws.tab_get_erase_same ((s.dropGroup (dtpContext id)).dropTransfer (dtpContext id)).contexts {} (dtpContext id))
  exact ⟨_, hClose, hNone, hOut, hOthers, hContext, hMem, hTiles, hJobs⟩

theorem dtpSessionIdleTimeout_closes (hSession : s.session id = some x) (hIdle : x.lastSeen + 1000000000 * s.entry 0x1050 4 ≤ s.now) :
    ∃ t, exec (.dtpSessionIdleTimeout id) s = .next t ∧ t.session id = none ∧ t.out = s.out ∧ (∀ k, k ≠ id → t.session k = s.session k)
      ∧ t.mem = s.mem ∧ t.tiles = s.tiles ∧ t.jobs = s.jobs := by
  have hClose : exec (.dtpSessionIdleTimeout id) s = .next (s.closeSession id) := by
    refine congrArg Host.Outcome.next ?_
    rw [hSession]
    exact if_pos hIdle
  exact ⟨_, hClose, closeSession_frame⟩

theorem dtpDatagramRejected_counts (hServed : s.dtpServed = true) :
    exec (.dtpDatagramRejected id seq false) s = .next { s with dtpDropped := s.dtpDropped + 1 } := by
  refine congrArg Host.Outcome.next ?_
  rw [hServed]
  rfl

/-! ### Requests with a new number (R53) -/

/-- A request with a number that is new to its session is performed, with the session marked as seen. -/
theorem onRequest_fresh {f : State → Session → State} (h : Safety.fresh s id seq x) :
    s.onRequest id seq f = f (s.setSession id { x with lastSeen := s.now }) { x with lastSeen := s.now } := by
  obtain ⟨hServed, -, hSession, hKept, hWaiting, hHighest, -⟩ := h
  simp [State.onRequest, hServed, hSession, hKept, hWaiting, hHighest]

theorem session_setSession (y : Session) : (s.setSession id y).session id = some y := Laws.tab_get?_put_same ..

/-- A response leaves, is kept, and its number is the session's highest; the session stays open while numbers are left (R53, R367). -/
theorem respondDtp_replies {y : Session} {reply : DtpReply} (hSession : s.session id = some y) (hSeq : seq ≠ 0xFFFFFFFF) :
    s.respondDtp id seq reply = (s.sendReply y id seq reply).setSession id
      { y with highest := some (max seq (y.highest.getD 0)), kept := ((seq, reply) :: y.kept).take 16, waiting := y.waiting.filter fun w => w.seq ≠ seq } := by
  simp only [State.respondDtp, hSession, if_neg hSeq]

/-- A number above every one answered is the highest. -/
theorem max_highest (h : (x.highest.any fun h => seq ≤ h) = false) : max seq (x.highest.getD 0) = seq := by
  cases hHigh : x.highest with
  | none => simp
  | some k =>
    rw [hHigh] at h
    simp only [Option.any_some, decide_eq_false_iff_not] at h
    simp only [Option.getD_some]
    omega

end Dtp

end Sys2Proof.Proofs
end

section
/-! PROOFS. The requests of a DTP session: what Fumarole answers itself, what leaves for the host side, and the answer to it (R53). -/

namespace Sys2Proof.Proofs

open Sys2Proof.Machine

section Requests

variable {s : State} {id seq i sub : Nat} {x y : Session} {r : EntryRow} {w : DtpWait}

/-- Fumarole decides an access to its own entries itself. -/
theorem travels_fieldServed (hId : id ≤ 8) (hField : isFieldServed i = true) (hSub : sub < 256) : s.travels (16 + id) (keyOffset (entryKey i sub)) = false := by
  simp [State.travels, State.acrossGate, (session_context hId).1, indexAt_keyOffset hSub, hField]

/-- What Fumarole serves is neither device data nor keys. -/
theorem fieldServed_unprotected (hField : isFieldServed i = true) : gateProtected i sub = false := by
  simp only [isFieldServed, Bool.or_eq_true, Bool.and_eq_true, decide_eq_true_eq] at hField
  simp only [gateProtected, Bool.or_eq_false_iff, Bool.and_eq_false_iff, decide_eq_false_iff_not]
  omega

/-- A request that waits for nothing is answered in its session. -/
theorem settleDtp_answers {data : List Byte} (hDone : w.awaits = false) (hSession : s.session id = some y) (hSeq : w.seq ≠ 0xFFFFFFFF) :
    s.settleDtp id w data = (s.sendReply y id w.seq (w.reply data)).setSession id
      { y with highest := some (max w.seq (y.highest.getD 0)), kept := ((w.seq, w.reply data) :: y.kept).take 16
               waiting := y.waiting.filter fun v => v.seq ≠ w.seq } := by
  rw [State.settleDtp, hDone]
  exact respondDtp_replies hSession hSeq

theorem fresh_parts (h : Safety.fresh s id seq x) : s.dtpServed = true ∧ id ≤ 8 ∧ s.session id = some x ∧ x.kept.lookup seq = none
    ∧ (x.waiting.any fun w => w.seq = seq) = false ∧ (x.highest.any fun h => seq ≤ h) = false ∧ seq ≠ 0xFFFFFFFF := by
  obtain ⟨h1, h2, h3, h4, h5, h6, h7⟩ := h
  exact ⟨h1, h2, h3, h4, h5, h6, by omega⟩

theorem countOk_one (v : Nat) : countOk v 1 = true := by simp [countOk]

/-! ### Fumarole's own entries -/

theorem dtpRead_answers (h : Safety.fresh s id seq x) (hDtp : Safety.dtpReady s id = true) (hSub : sub < 256) (hField : isFieldServed i = true)
    (hRow : lookupEntry i sub = some r) (hAcc : r.acc ≠ .wo ∨ sub = 0) :
    ∃ t, exec (.dtpRead id seq [keyOffset (entryKey i sub)]) s = .next t
      ∧ t.out = s.out ++ [.dtp x.port (Safety.replyHeader x id seq 0x11 10)
          { type := 0x11, status := OK, items := [(OK, (s.setSession id { x with lastSeen := s.now }).readView (16 + id) r i sub)] }]
      ∧ ((t.session id).bind fun y => y.highest) = some seq ∧ t.dict = s.dict ∧ t.mem = s.mem ∧ t.tiles = s.tiles := by
  obtain ⟨-, hId, -, -, -, hHighest, hSeq⟩ := fresh_parts h
  let u := s.setSession id { x with lastSeen := s.now }
  have hDtp' : Safety.dtpReady u id = true := hDtp
  have hRead := accessEntry_session_read hDtp' hSub hRow hAcc (fieldServed_unprotected hField) (fieldServed_ne hField (by decide))
    (by rw [tileOf_fieldServed hField]; rfl)
  rw [record_session hId (by decide) (by decide)] at hRead
  have hRuns : u.runReads id seq [keyOffset (entryKey i sub)] = ((u.accessEntry (16 + id) (keyOffset (entryKey i sub), none)).2,
      { seq := seq, type := 0x11, done := [some (u.accessEntry (16 + id) (keyOffset (entryKey i sub), none)).1] }) := by
    simp [State.runReads, dtpContext, travels_fieldServed hId hField hSub]
  refine ⟨_, congrArg Host.Outcome.next ((onRequest_fresh h).trans (if_neg (by simp [countOk_one]))), ?_⟩
  rw [show s.setSession id { x with lastSeen := s.now } = u from rfl, hRuns, hRead]
  dsimp only
  rw [settleDtp_answers (y := { x with lastSeen := s.now }) ?_ ?_ ?_]
  · refine ⟨rfl, ?_, rfl, rfl, rfl⟩
    rw [session_setSession, Option.bind_some]
    exact congrArg some (max_highest hHighest)
  · rfl
  · exact session_setSession ..
  · exact hSeq

/-- A session's value in range that takes effect at once is taken. -/
theorem decideWrite_session {v : Nat} {take : State → Nat × State} (h : Safety.dtpReady s id = true) (hClosed : (s.context (16 + id)).groupState ≠ 1)
    (hProtected : gateProtected i sub = false) (hAnchors : i ≠ 0x9030) (hContent : r.ty.isContent = false) (hAcc : r.acc = .rw ∨ r.acc = .rws)
    (hPlain : Safety.commandEntry i sub = false) (hRange : s.rangeRefusal r i sub v = none) (hCls : r.cls ≠ .epoch)
    (hStopped : r.cls = .stopped → s.unitStopped i sub = true) : s.decideWrite r (16 + id) i sub v take = take s := by
  obtain ⟨hIndex, hLocal, -⟩ := commandEntry_false hPlain
  have hState := stateRefusal_session h hProtected true
  have hAcc' : r.acc ≠ .ro ∧ r.acc ≠ .wo := by rcases hAcc with h | h <;> simp [h]
  have hUnit : ¬(r.cls = .stopped ∧ (!s.unitStopped i sub) = true) := fun hc => by
    rw [hStopped hc.1] at hc
    exact absurd hc.2 (by decide)
  simp only [State.decideWrite, hContent, hAcc'.1, hAcc'.2, hIndex 0x1038 (by decide), hAnchors, hRange, hState, hLocal, hUnit, hClosed, hCls, if_false,
    Bool.false_eq_true, false_or, false_and]

/-- A session writes one of Fumarole's own entries: it has the value, and a persistent one waits for the store (R33). -/
theorem accessEntry_session_write {v : Word} (h : Safety.dtpReady s id = true) (hSub : sub < 256) (hField : isFieldServed i = true)
    (hClosed : (s.context (16 + id)).groupState ≠ 1) (hPlain : Safety.commandEntry i sub = false) (hRow : lookupEntry i sub = some r)
    (hContent : r.ty.isContent = false) (hAcc : r.acc = .rw ∨ r.acc = .rws) (hCls : r.cls ≠ .epoch) (hRange : s.rangeRefusal r i sub v.toNat = none)
    (hStopped : r.cls = .stopped → s.unitStopped i sub = true) :
    s.accessEntry (16 + id) (keyOffset (entryKey i sub), some v) =
      ((OK, 0), ((if r.persist then s.keepRecord { values := [(entryKey i sub, v.toNat)], contents := [] } else s).setEntry i sub v.toNat).record (16 + id) i sub OK) := by
  obtain ⟨hIndex, -, hPairs, -⟩ := commandEntry_false hPlain
  have hProtected : gateProtected i sub = false := fieldServed_unprotected hField
  have hNote (t : State) (c : Nat) : t.noteWrite i sub c = t := by
    simp only [State.noteWrite, hIndex 0x2010 (by decide), fieldServed_ne hField (j := 0x3030) (by decide), false_and, if_false]
  have hAccess : s.accessRefusal (16 + id) i sub true = none := accessRefusal_session h hProtected hRow (by rw [tileOf_fieldServed hField]; rfl) true
  have hPersist : isPersistent i sub = r.persist := by simp [isPersistent, hRow]
  have hStore : s.storePersistent (16 + id) i sub v.toNat = if r.persist then s.keepRecord { values := [(entryKey i sub, v.toNat)], contents := [] } else s := by
    rw [State.storePersistent, hPersist, hField]
    cases r.persist <;> rfl
  have hWrite : s.writeHere (16 + id) i sub v.toNat =
      (OK, (if r.persist then s.keepRecord { values := [(entryKey i sub, v.toNat)], contents := [] } else s).setEntry i sub v.toNat) := by
    simp only [State.writeHere, State.decideAny, hAccess, hRow, if_true, hNote, writeOp_plain hPlain,
      decideWrite_session h hClosed hProtected (fieldServed_ne hField (j := 0x9030) (by decide)) hContent hAcc hPlain hRange hCls hStopped, hStore]
  simp only [State.accessEntry, State.accessHere, indexAt_keyOffset hSub, subAt_keyOffset hSub, keyOffset_aligned, ne_eq, not_true_eq_false, if_false, hWrite,
    hIndex 0x1020 (by decide), Option.isSome_some, if_true]

theorem dtpWrite_answers {v : Word} (h : Safety.fresh s id seq x) (hDtp : Safety.dtpReady s id = true) (hSub : sub < 256) (hField : isFieldServed i = true)
    (hClosed : (s.context (16 + id)).groupState ≠ 1) (hPlain : Safety.commandEntry i sub = false) (hRow : lookupEntry i sub = some r)
    (hContent : r.ty.isContent = false) (hAcc : r.acc = .rw ∨ r.acc = .rws) (hCls : r.cls ≠ .epoch) (hRange : s.rangeRefusal r i sub v.toNat = none)
    (hStopped : r.cls = .stopped → s.unitStopped i sub = true) :
    ∃ t, exec (.dtpWrite id seq [(keyOffset (entryKey i sub), v)]) s = .next t ∧ t.entry i sub = v.toNat
      ∧ t.out = s.out ++ [.dtp x.port (Safety.replyHeader x id seq 0x13 2) { type := 0x13, status := OK, items := [(OK, 0)] }]
      ∧ (r.persist = true → t.unstored = s.unstored ++ [{ values := [(entryKey i sub, v.toNat)], contents := [] }])
      ∧ t.mem = s.mem ∧ t.tiles = s.tiles ∧ (∀ k l, entryKey k l ≠ entryKey i sub → t.entry k l = s.entry k l) := by
  obtain ⟨-, hId, -, -, -, hHighest, hSeq⟩ := fresh_parts h
  let u := s.setSession id { x with lastSeen := s.now }
  have hWrite := accessEntry_session_write (s := u) (v := v) hDtp hSub hField hClosed hPlain hRow hContent hAcc hCls hRange hStopped
  rw [record_session hId (by decide) (by decide)] at hWrite
  have hRuns : u.runWrites 1 id { seq := seq, type := 0x13, todo := [(keyOffset (entryKey i sub), v.toNat)] } =
      ((u.accessEntry (16 + id) (keyOffset (entryKey i sub), some v)).2,
        { seq := seq, type := 0x13, done := [some (u.accessEntry (16 + id) (keyOffset (entryKey i sub), some v)).1] }) := by
    simp [State.runWrites, dtpContext, travels_fieldServed hId hField hSub]
  refine ⟨_, congrArg Host.Outcome.next ((onRequest_fresh h).trans (if_neg (by simp [countOk_one]))), ?_⟩
  simp only [List.map_cons, List.map_nil, List.length_singleton]
  rw [show s.setSession id { x with lastSeen := s.now } = u from rfl, hRuns, hWrite]
  dsimp only
  cases hPersist : r.persist with
  | true =>
    rw [settleDtp_answers (y := { x with lastSeen := s.now }) ?_ ?_ ?_]
    · exact ⟨Laws.entry_setEntry_same .., rfl, fun _ => rfl, rfl, rfl, fun k l hk => Laws.entry_setEntry_ne _ _ _ _ _ _ hk⟩
    · rfl
    · exact session_setSession ..
    · exact hSeq
  | false =>
    rw [settleDtp_answers (y := { x with lastSeen := s.now }) ?_ ?_ ?_]
    · exact ⟨Laws.entry_setEntry_same .., rfl, fun hc => absurd hc (by decide), rfl, rfl, fun k l hk => Laws.entry_setEntry_ne _ _ _ _ _ _ hk⟩
    · rfl
    · exact session_setSession ..
    · exact hSeq

end Requests

end Sys2Proof.Proofs
end

section
/-! PROOFS. Segments of PendingImage over DTP, requests that leave as DICT_REQUEST, and the answer to one (R53, R375). -/

namespace Sys2Proof.Proofs

open Sys2Proof.Machine

section Staging

variable {s : State} {id seq : Nat} {x : Session} {data : List Byte}

theorem lookupEntry_pendingImage : ∃ r, lookupEntry 0x9100 1 = some r ∧ r.ty = .domain ∧ r.acc = .rw :=
  ⟨(lookupEntry 0x9100 1).get (by decide), by simp, by decide, by decide⟩

/-- A session's transfer to PendingImage may start where no other context stages one (R375). -/
theorem startRefusal_pendingImage {length : Nat} (h : Safety.dtpReady s id = true) (hClosed : (s.context (16 + id)).groupState ≠ 1)
    (hAlone : s.stagedElsewhere (16 + id) = false) (hLength : length ≤ packageMax) : s.startRefusal (16 + id) 0x9100 1 true length = none := by
  obtain ⟨r, hRow, hTy, hAcc⟩ := lookupEntry_pendingImage
  obtain ⟨hReady, -⟩ := dtpReady_parts h
  have hAccess : s.accessRefusal (16 + id) 0x9100 1 true = none := accessRefusal_session h (by decide) hRow rfl true
  have hMax : ¬maxContent 0x9100 1 < length := Nat.not_lt.mpr (by simpa [maxContent, packageMax] using hLength)
  have hForm : s.startForm r (16 + id) 0x9100 1 true length = none := by
    simp [State.startForm, hTy, EntryType.isContent, hAcc, hMax]
  have hState : s.entry 0x1100 1 = 2 := by simpa [State.ready] using hReady
  have hStart : s.startState (16 + id) 0x9100 1 true = none := by
    simp [State.startState, unclaimed_session (i := 0x9100) (sub := 1) (by decide), unserved_session h, State.startLost, gateConflict_session h, hClosed, hAlone, hState]
  simp [State.startRefusal, hAccess, hRow, hForm, hStart]

theorem stages_pendingImage {y : Transfer} (hAddr : y.addr = entryKey 0x9100 1) (hWrite : y.write = true) : y.stages = true := by
  rw [Transfer.stages, Transfer.index, hAddr, entryKey_div (by omega), hWrite]
  rfl

/-- A session's transfer to PendingImage empties the pending slot, which is STAGING (R375). -/
theorem openTransfer_pendingImage {n : Nat} (h : Safety.dtpReady s id = true) (hClosed : (s.context (16 + id)).groupState ≠ 1)
    (hNone : (s.context (16 + id)).transfer = none) (hAlone : s.stagedElsewhere (16 + id) = false) (hLength : n ≤ packageMax) :
    ∃ cs, s.openTransfer (16 + id) (entryKey 0x9100 1) n = (OK, ({ s with contexts := cs } : State).beginStaging n)
      ∧ Tab.get cs {} (16 + id) = { s.context (16 + id) with transfer := some (writeTransfer (entryKey 0x9100 1) n) } := by
  have hStart := startRefusal_pendingImage h hClosed hAlone hLength
  have hStages : (writeTransfer (entryKey 0x9100 1) n).stages = true := stages_pendingImage rfl rfl
  have hDrop := dropTransfer_of_not_staging (s := s) (ctx := 16 + id) (by simp [hNone])
  have hKeys : entryKey 0x9100 1 / 256 = 0x9100 ∧ entryKey 0x9100 1 % 256 = 1 := ⟨entryKey_div (by omega), entryKey_mod (by omega)⟩
  have hOpened : s.openTransfer (16 + id) (entryKey 0x9100 1) n = (OK, ((s.updContext (16 + id) fun c => { c with transfer := none }).updContext (16 + id) fun c =>
      { c with transfer := some (writeTransfer (entryKey 0x9100 1) n) }).beginStaging n) := by
    rw [State.openTransfer, hKeys.1, hKeys.2, hStart, hDrop]
    exact congrArg (Prod.mk OK) (if_pos hStages)
  refine ⟨((s.updContext (16 + id) fun c => { c with transfer := none }).updContext (16 + id) fun c =>
    { c with transfer := some (writeTransfer (entryKey 0x9100 1) n) }).contexts, hOpened, ?_⟩
  simp [State.updContext, State.setContext, State.context]

/-- A segment of PendingImage over DTP reaches the pending slot (R375). -/
theorem storeSegment_pendingImage {ctx : Nat} {y : Transfer} (hCtx : isDtp ctx = true) (hStages : y.stages = true) (hPending : s.pendingState = 1) (off : Nat) :
    s.storeSegment ctx y off data = (OK, ((s.updContext ctx fun c => { c with transfer := some (y.commit off data) }).putPackage s.pendingSlot off data).growPackage
      s.pendingSlot y.length) := by
  have hTaken : ¬(y.stages = true ∧ (s.pendingState ≠ 1 ∨ s.hostGate.down = true ∧ (!isDtp ctx) = true)) := by
    rw [hPending, hCtx]
    simp
  rw [State.storeSegment, if_neg hTaken, hStages, hCtx]
  rfl

theorem flash_putPackage (slot a : Nat) {k : Nat} (hk : k < data.length) :
    Tab.get (Tab.get (s.putPackage slot a data).flash [] slot) 0 (a + k) = data.getD k 0 := by
  rw [State.putPackage, Laws.tab_get_put_same, Tab.get, get?_putBytes_zipIdx, if_pos (by omega), Nat.add_sub_cancel_left, List.getD_eq_getElem?_getD]

/-- The first segment of PendingImage opens the transfer and reaches the pending slot (R375). -/
theorem putSegment_pendingImage (h : Safety.dtpReady s id = true) (hClosed : (s.context (16 + id)).groupState ≠ 1)
    (hNone : (s.context (16 + id)).transfer = none) (hAlone : s.stagedElsewhere (16 + id) = false) (hLength : data.length ≤ packageMax) :
    ∃ t, s.putSegment (16 + id) (entryKey 0x9100 1) 0 data false = (OK, t) ∧ t.pendingState = 1 ∧ t.out = s.out ∧ t.mem = s.mem ∧ t.sessions = s.sessions
      ∧ ∀ k, k < data.length → Tab.get (Tab.get t.flash [] s.pendingSlot) 0 k = data.getD k 0 := by
  obtain ⟨-, -, -, -, hId⟩ := dtpReady_parts h
  obtain ⟨cs, hOpen, hContext⟩ := openTransfer_pendingImage h hClosed hNone hAlone hLength
  have hTarget : s.segmentTarget (16 + id) (entryKey 0x9100 1) (0 + data.length) = (OK, ({ s with contexts := cs } : State).beginStaging data.length) := by
    rw [Nat.zero_add, ← hOpen]
    simp [State.segmentTarget, Context.hasTransfer, hNone]
  have hTransfer : ((({ s with contexts := cs } : State).beginStaging data.length).context (16 + id)).transfer =
      some (writeTransfer (entryKey 0x9100 1) data.length) := congrArg Context.transfer hContext
  have hStages : ((writeTransfer (entryKey 0x9100 1) data.length).grow (0 + data.length)).stages = true :=
    stages_pendingImage rfl rfl
  have hPending : (({ s with contexts := cs } : State).beginStaging data.length).pendingState = 1 := by
    rw [State.pendingState, State.beginStaging, Laws.entry_setEntry_same]
  have hSlot : (({ s with contexts := cs } : State).beginStaging data.length).pendingSlot = s.pendingSlot := by
    rw [State.pendingSlot, State.activeSlot, State.beginStaging, Laws.entry_setEntry_sub _ _ _ _ _ (by decide)]
    rfl
  generalize hv : ({ s with contexts := cs } : State).beginStaging data.length = v at hTarget hTransfer hPending hSlot
  have hStore := storeSegment_pendingImage (data := data) (session_context hId).1 hStages hPending 0
  rw [hSlot] at hStore
  generalize hw : State.growPackage _ _ _ = w at hStore
  refine ⟨w, ?_, ?_, ?_, ?_, ?_, fun k hk => ?_⟩
  · simp only [State.putSegment, hTarget, ne_eq, not_true_eq_false, if_false, hTransfer, hStore, Bool.not_false, or_true, if_true]
  · rw [← hw]; exact hPending
  · rw [← hw, ← hv]; rfl
  · rw [← hw, ← hv]; rfl
  · rw [← hw, ← hv]; rfl
  · have hFlash := flash_putPackage (s := v.updContext (16 + id) fun c =>
      { c with transfer := some (((writeTransfer (entryKey 0x9100 1) data.length).grow (0 + data.length)).commit 0 data) }) s.pendingSlot 0 hk
    rw [Nat.zero_add k] at hFlash
    rw [← hw]
    exact hFlash

theorem dtpSegmentWrite_stages (h : Safety.fresh s id seq x) (hDtp : Safety.dtpReady s id = true) (hClosed : (s.context (16 + id)).groupState ≠ 1)
    (hNone : (s.context (16 + id)).transfer = none) (hAlone : s.stagedElsewhere (16 + id) = false) (hLength : data.length ≤ segmentSize x.version) :
    ∃ t, exec (.dtpSegmentWrite id seq (keyOffset (entryKey 0x9100 1)) 0 data false) s = .next t ∧ t.pendingState = 1
      ∧ t.out = s.out ++ [.dtp x.port (Safety.replyHeader x id seq 0x23 2) { type := 0x23, status := OK }]
      ∧ (∀ k, k < data.length → Tab.get (Tab.get t.flash [] s.pendingSlot) 0 k = data.getD k 0) ∧ t.mem = s.mem := by
  obtain ⟨-, hId, -, -, -, -, hSeq⟩ := fresh_parts h
  let u := s.setSession id { x with lastSeen := s.now }
  have hFits : data.length ≤ packageMax := by
    unfold segmentSize at hLength
    unfold packageMax
    split at hLength <;> omega
  obtain ⟨t, hPut, hPending, hOut, hMem, hSessions, hFlash⟩ := putSegment_pendingImage (s := u) hDtp hClosed hNone hAlone hFits
  have hWrite : u.segmentWrite (16 + id) (keyOffset (entryKey 0x9100 1)) 0 data false = (OK, t.record (16 + id) 0x9100 1 OK) := by
    simp only [State.segmentWrite, keyOffset_aligned, ne_eq, not_true_eq_false, if_false, offsetKey_keyOffset, hPut]
    rfl
  rw [record_session hId (by decide) (by decide)] at hWrite
  refine ⟨_, congrArg Host.Outcome.next ((onRequest_fresh h).trans (if_neg (Nat.not_lt.mpr hLength))), ?_⟩
  rw [show s.setSession id { x with lastSeen := s.now } = u from rfl]
  simp only [State.segmentRequest, dtpContext, travels_fieldServed hId (show isFieldServed 0x9100 = true by decide) (show 1 < 256 by decide), Bool.false_eq_true,
    if_false, hWrite]
  rw [settleDtp_answers (y := { x with lastSeen := s.now }) ?_ ?_ ?_]
  · exact ⟨hPending, congrArg (· ++ _) hOut, hFlash, hMem⟩
  · rfl
  · exact (congrArg (Tab.get? · id) hSessions).trans (session_setSession ..)
  · exact hSeq

end Staging

/-! ### Requests that travel the gate (R53) -/

section Travelling

variable {s : State} {id seq o : Nat} {x : Session}

/-- What a DICT_REQUEST for a session's request leaves: the message and its place among the unanswered ones. -/
theorem askHost_sends {a : GateAccess} (hOpen : s.fieldGate.quietUntil ≤ s.now) : s.askHost id seq a =
    (s.setGate .field { s.fieldGate with
      nextSeq := (s.fieldGate.nextSeq + 1) % 65536, lastTx := s.now
      outstanding := s.fieldGate.outstanding ++
        [{ seq := s.fieldGate.nextSeq, payload := .request (dtpContext id) a, origin := .dtp id seq, sentAt := s.now }] }).emit
      (.gate false s.fieldGate.nextSeq (.request (dtpContext id) a)) := by
  rw [State.askHost, gateSend_of_open (e := .field) hOpen]
  rfl

theorem travels_open {ctx : Nat} (h : s.travels ctx o = true) : s.fieldGate.quietUntil ≤ s.now := by
  simp only [State.travels, State.gateServes, Bool.and_eq_true, decide_eq_true_eq] at h
  exact h.2.2

/-- A request of which an entry travels waits for the answer, and nothing of it is performed yet. -/
theorem askHost_waits {a : GateAccess} {w : DtpWait} (hSession : s.session id = some x) (hOpen : s.fieldGate.quietUntil ≤ s.now) (hWaits : w.awaits = true)
    (hSeq : w.seq = seq) : Safety.askedHost s ((s.askHost id seq a).settleDtp id w []) id seq a := by
  have hSession' : (s.askHost id seq a).session id = some x := by rw [askHost_sends hOpen]; exact hSession
  have hSettle : (s.askHost id seq a).settleDtp id w [] = (s.askHost id seq a).setSession id { x with waiting := w :: x.waiting.filter fun y => y.seq ≠ w.seq } := by
    simp only [State.settleDtp, hWaits, if_true, hSession']
  rw [hSettle, Safety.askedHost, session_setSession, askHost_sends hOpen]
  refine ⟨rfl, ?_, ?_, rfl, rfl, rfl, rfl, rfl⟩
  · simp [hSeq]
  · simp [State.setSession, State.setGate, State.emit]

/-- The same, from the state in which the session's request was taken. -/
theorem askedHost_of_seen {t : State} {a : GateAccess} {y : Session} (h : Safety.askedHost (s.setSession id y) t id seq a) : Safety.askedHost s t id seq a := h

theorem requests_travel {n i : Nat} {v : Word} {data : List Byte} {last : Bool} (h : Safety.fresh s id seq x) (hTravels : s.travels (16 + id) o = true)
    (hRead : n ≤ segmentSize x.version) (hData : data.length ≤ segmentSize x.version) :
    (∃ t, exec (.dtpRead id seq [o]) s = .next t ∧ Safety.askedHost s t id seq (.entries [(o, none)]))
      ∧ (∃ t, exec (.dtpWrite id seq [(o, v)]) s = .next t ∧ Safety.askedHost s t id seq (.entries [(o, some v)]))
      ∧ (∃ t, exec (.dtpSegmentRead id seq o i n) s = .next t ∧ Safety.askedHost s t id seq (.segmentRead o i n))
      ∧ (∃ t, exec (.dtpSegmentWrite id seq o i data last) s = .next t ∧ Safety.askedHost s t id seq (.segmentWrite o i data last)) := by
  let u := s.setSession id { x with lastSeen := s.now }
  have hTravels' : u.travels (dtpContext id) o = true := hTravels
  have hOpen : u.fieldGate.quietUntil ≤ u.now := travels_open hTravels
  have hSession : u.session id = some { x with lastSeen := s.now } := session_setSession _
  refine ⟨?_, ?_, ?_, ?_⟩
  · have hRuns : u.runReads id seq [o] = (u.askHost id seq (.entries [(o, none)]), { seq := seq, type := 0x11, done := [none] }) := by
      simp [State.runReads, hTravels']
    refine ⟨_, congrArg Host.Outcome.next ((onRequest_fresh h).trans (if_neg (by simp [countOk_one]))), askedHost_of_seen (y := { x with lastSeen := s.now }) ?_⟩
    rw [show s.setSession id { x with lastSeen := s.now } = u from rfl, hRuns]
    exact askHost_waits hSession hOpen rfl rfl
  · have hRuns : u.runWrites 1 id { seq := seq, type := 0x13, todo := [(o, v.toNat)] } =
        (u.askHost id seq (.entries [(o, some v)]), { seq := seq, type := 0x13, done := [none] }) := by
      simp [State.runWrites, hTravels']
    refine ⟨_, congrArg Host.Outcome.next ((onRequest_fresh h).trans (if_neg (by simp [countOk_one]))), askedHost_of_seen (y := { x with lastSeen := s.now }) ?_⟩
    simp only [List.map_cons, List.map_nil, List.length_singleton]
    rw [show s.setSession id { x with lastSeen := s.now } = u from rfl, hRuns]
    exact askHost_waits hSession hOpen rfl rfl
  · refine ⟨_, congrArg Host.Outcome.next ((onRequest_fresh h).trans (if_neg (Nat.not_lt.mpr hRead))), askedHost_of_seen (y := { x with lastSeen := s.now }) ?_⟩
    rw [show s.setSession id { x with lastSeen := s.now } = u from rfl, State.segmentRequest, if_pos hTravels']
    exact askHost_waits hSession hOpen rfl rfl
  · refine ⟨_, congrArg Host.Outcome.next ((onRequest_fresh h).trans (if_neg (Nat.not_lt.mpr hData))), askedHost_of_seen (y := { x with lastSeen := s.now }) ?_⟩
    rw [show s.setSession id { x with lastSeen := s.now } = u from rfl, State.segmentRequest, if_pos hTravels']
    exact askHost_waits hSession hOpen rfl rfl

theorem dtpGroup_travels {op : GroupOp} (h : Safety.fresh s id seq x) (hVersion : x.version = 2)
    (hTravels : s.travels (16 + id) (keyOffset (entryKey 0x1020 1)) = true) :
    ∃ t, exec (.dtpGroup id seq op) s = .next t
      ∧ Safety.askedHost s t id seq (.entries [(keyOffset (entryKey 0x1020 1), some (BitVec.ofNat 64 (GroupOp.code op)))]) := by
  let u := s.setSession id { x with lastSeen := s.now }
  have hTravels' : u.travels (dtpContext id) (keyOffset (entryKey 0x1020 1)) = true := hTravels
  refine ⟨_, congrArg Host.Outcome.next ((onRequest_fresh h).trans (if_neg (not_not.mpr hVersion))), askedHost_of_seen (y := { x with lastSeen := s.now }) ?_⟩
  rw [show s.setSession id { x with lastSeen := s.now } = u from rfl, if_pos hTravels']
  exact askHost_waits (session_setSession _) (travels_open (s := u) hTravels) rfl rfl

/-! ### The answer (R53) -/

theorem dictResponse_answers {gate status : Nat} {v : Word} {data : List Byte} {w : DtpWait} {m : GateMsg} (h : Safety.hears s .field = true)
    (hm : (s.fieldGate.outstanding.find? fun (m : GateMsg) => m.seq = gate) = some m) (hOrigin : m.origin = .dtp id seq) (hSession : s.session id = some x)
    (hWait : (x.waiting.find? fun w => w.seq = seq) = some w) (hw : w.seq = seq) (hDone : w.done = [none]) (hTodo : w.todo = []) (hSeq : seq ≠ 0xFFFFFFFF) :
    ∃ t y, exec (.dictResponse .field gate [(status, v)] data) s = .next t ∧ y = { w with done := [some (status, v.toNat)] }.reply data
      ∧ t.out = s.out ++ [.dtp x.port (Safety.replyHeader x id seq y.type y.payloadLength) y]
      ∧ ((t.session id).map fun z => (z.kept.lookup seq, z.waiting.any fun w => w.seq = seq)) = some (some y, false) ∧ t.dict = s.dict ∧ t.mem = s.mem := by
  refine ⟨_, _, dictResponse_hears (e := .field) h hm, rfl, ?_⟩
  have hSession' (g : GateSide) : (s.setGate .field g).session id = some x := hSession
  simp only [State.messageAnswered, hOrigin, List.map_cons, List.map_nil, State.dtpAnswered, hSession', hWait, hTodo, List.length_nil, State.runWrites, hDone, fillDone]
  rw [settleDtp_answers (y := x) ?_ ?_ ?_]
  · dsimp only
    rw [session_setSession, hw]
    refine ⟨rfl, ?_, rfl, rfl⟩
    simp [List.take]
  · rfl
  · exact hSession
  · rw [← hw] at hSeq; exact hSeq

end Travelling

/-- Settles O17: sessions, and each request by the end that serves it. -/
theorem managementPort : Obligations.ManagementPort := by
  unfold Obligations.ManagementPort
  exact ⟨fun _ _ _ _ _ _ _ hServed hPort hVersion hRoom hFree => dtpHello_answers hServed hPort hVersion hRoom hFree,
    fun _ _ _ _ _ hServed hPort hVersion => dtpHello_no_version hServed hPort hVersion,
    fun _ _ _ _ hServed hSession hHighest => dtpClose_closes hServed hSession hHighest,
    fun _ _ _ hSession hIdle => dtpSessionIdleTimeout_closes hSession hIdle,
    fun _ _ _ hServed => dtpDatagramRejected_counts hServed,
    fun _ _ _ _ _ _ _ h hDtp hSub hField hRow hAcc => dtpRead_answers h hDtp hSub hField hRow hAcc,
    fun _ _ _ _ _ _ _ _ h hDtp hSub hField hClosed hPlain hRow hContent hAcc hCls hRange hStopped =>
      dtpWrite_answers h hDtp hSub hField hClosed hPlain hRow hContent hAcc hCls hRange hStopped,
    fun _ _ _ _ _ h hDtp hClosed hNone hAlone hLength => dtpSegmentWrite_stages h hDtp hClosed hNone hAlone hLength,
    fun _ _ _ _ _ _ _ _ _ _ h hTravels hRead hData => requests_travel h hTravels hRead hData,
    fun _ _ _ _ _ h hVersion hTravels => dtpGroup_travels h hVersion hTravels,
    fun _ _ _ _ _ _ _ _ _ _ h hm hOrigin hSession hWait hw hDone hTodo hSeq => dictResponse_answers h hm hOrigin hSession hWait hw hDone hTodo hSeq⟩

end Sys2Proof.Proofs
end

section
/-! PROOFS. Issuing a bundle: what the advance leaves, and one slot command closed by CNOP (R195, R208, R214). -/

namespace Sys2Proof.Proofs

open Sys2Proof.Machine

variable {s : State} {t : Nat}

/-- The tile `y` is the tile `x` but for its instruction cache and the lines it has asked for. -/
def CacheFrame (x y : Tile) : Prop := ∃ ic lw lf, y = { x with icache := ic, lineWait := lw, lineFetches := lf }

theorem CacheFrame.refl (x : Tile) : CacheFrame x x := ⟨_, _, _, rfl⟩

theorem CacheFrame.trans {x y z : Tile} (h : CacheFrame x y) (h' : CacheFrame y z) : CacheFrame x z := by
  obtain ⟨_, _, _, rfl⟩ := h
  obtain ⟨_, _, _, rfl⟩ := h'
  exact ⟨_, _, _, rfl⟩

theorem CacheFrame.touchLine (x : Tile) (line : Nat) : CacheFrame x (x.touchLine line) := ⟨_, _, _, rfl⟩

theorem CacheFrame.requestLine (x : Tile) (line lines : Nat) : CacheFrame x (x.requestLine line lines) := by
  unfold Tile.requestLine
  split
  · exact ⟨_, _, _, rfl⟩
  · exact .refl x

/-- What a tile is after its bundle has issued, but for the instruction cache (R198, R208, R257). -/
def issuedTile (x : Tile) (stop now : Nat) : Tile :=
  { x.unpresent with
      sched := x.sched + 1, nextBundle := (afterBundle x.nextBundle x.loops).1, loops := (afterBundle x.nextBundle x.loops).2
      lastLine := some (x.nextBundle / 4), run := if x.run = .halted then .halted else .issuing, holdCause := 255
      landNow := none, lastIssue := now, heldRows := []
      stores := x.stores.filter fun m => !(m.landed && m.completes ≤ x.sched + 1)
      stopped := stop ≠ 0 && stop ≤ x.sched + 1 }

theorem CacheFrame.issued {x y : Tile} (h : CacheFrame x y) (stop now : Nat) : CacheFrame (issuedTile x stop now) (issuedTile y stop now) := by
  obtain ⟨_, _, _, rfl⟩ := h
  exact ⟨_, _, _, rfl⟩

/-- The advance leaves its tile issued, in every field but the instruction cache. -/
theorem advance_tile : CacheFrame (issuedTile (s.tile t) (s.stopAfter t) s.now) ((s.advance t).tile t) := by
  have h1 : CacheFrame (s.tile t) ((s.tile t).touchLine ((s.tile t).nextBundle / 4)) := .touchLine ..
  have h2 : CacheFrame (s.tile t) (if (s.tile t).lastLine = some ((s.tile t).nextBundle / 4) then (s.tile t).touchLine ((s.tile t).nextBundle / 4)
      else ((s.tile t).touchLine ((s.tile t).nextBundle / 4)).requestLine ((s.tile t).nextBundle / 4 + 1) (s.codeLines t)) := by
    split
    · exact h1
    · exact h1.trans (.requestLine ..)
  have h3 := h2.trans (.requestLine _ ((afterBundle (s.tile t).nextBundle (s.tile t).loops).1 / 4) (s.codeLines t))
  obtain ⟨ic, lw, lf, he⟩ := h3
  refine ⟨ic, lw, lf, ?_⟩
  rw [State.advance, Laws.tile_updTile_same]
  dsimp only
  rw [he]
  rfl

/-- The advance touches no register, row, tag or operation of its tile. -/
theorem advance_keeps : ((s.advance t).tile t).rows = (s.tile t).rows ∧ ((s.advance t).tile t).bankEpochs = (s.tile t).bankEpochs
    ∧ ((s.advance t).tile t).tags = (s.tile t).tags ∧ ((s.advance t).tile t).sregs = (s.tile t).sregs ∧ ((s.advance t).tile t).qregs = (s.tile t).qregs
    ∧ ((s.advance t).tile t).flight = (s.tile t).flight ∧ ((s.advance t).tile t).sched = (s.tile t).sched + 1 := by
  obtain ⟨_, _, _, he⟩ := advance_tile (s := s) (t := t)
  rw [he]
  exact ⟨rfl, rfl, rfl, rfl, rfl, rfl, rfl⟩

/-- The state in which an open bundle that one slot has joined is about to issue. -/
def opened (s : State) (t slot : Nat) (w : SlotWork) : State :=
  (s.updTile t fun x => x.present slot w).updTile t fun x => { x with missAt := [] }

/-- What the tile of an opened bundle holds beside what it held. -/
theorem opened_tile (h : Safety.bundleOpen s t) (slot : Nat) (w : SlotWork) (hh : w.hold = none) (hf : w.fault = none) :
    (opened s t slot w).tile t = { s.tile t with
      presented := [slot], deferred := w.writes, landNow := if w.land.isSome then w.land else (s.tile t).landNow, missRows := w.miss.toList } := by
  obtain ⟨-, -, hp, hd, hhold, hfault, hm, ha, -⟩ := h
  rw [opened, Laws.tile_updTile_same, Laws.tile_updTile_same]
  generalize s.tile t = x at *
  cases x
  subst hp hd hhold hfault hm ha
  simp [Tile.present, hh, hf, firstFault]

theorem opened_tile_ne (slot : Nat) (w : SlotWork) {u : Nat} (h : u ≠ t) : (opened s t slot w).tile u = s.tile u := by
  rw [opened, Laws.tile_updTile_ne _ h, Laws.tile_updTile_ne _ h]

@[simp] theorem opened_mem (slot : Nat) (w : SlotWork) : (opened s t slot w).mem = s.mem := rfl
@[simp] theorem opened_jobs (slot : Nat) (w : SlotWork) : (opened s t slot w).jobs = s.jobs := rfl
@[simp] theorem opened_dict (slot : Nat) (w : SlotWork) : (opened s t slot w).dict = s.dict := rfl

/-- Whether a tile may issue is read of its run state, its barrier wait, its stop and its job. -/
theorem mayIssue_updTile (f : Tile → Tile) (hr : (f (s.tile t)).run = (s.tile t).run) (hb : (f (s.tile t)).barWait = (s.tile t).barWait)
    (hs : (f (s.tile t)).stopped = (s.tile t).stopped) : (s.updTile t f).mayIssue t = s.mayIssue t := by
  have hj : (s.updTile t f).jobOfTile t = s.jobOfTile t := rfl
  have he : (s.updTile t f).tileEnabled t = s.tileEnabled t := rfl
  simp only [State.mayIssue, Laws.tile_updTile_same, hr, hb, hs, hj, he]
  rfl

/-- One slot and CNOP: the bundle issues, and what the slot writes takes place before the tile advances (R195, R208). -/
theorem cnop_issues (h : Safety.bundleOpen s t) (slot : Nat) (w : SlotWork) (hh : w.hold = none) (hf : w.fault = none) :
    exec (.cnop t) (s.slot t slot w) =
      .next ((w.writes.foldl (fun s d => s.applyDeferred t d) (opened s t slot w)).advance t) := by
  rw [Laws.slot_open h]
  obtain ⟨ht, hm, hp, hd, hhold, hfault, hmr, ha, hz, hc⟩ := h
  have hx : exec (.cnop t) (s.updTile t fun x => x.present slot w)
      = .next ((s.updTile t fun x => x.present slot w).closeBundle t {} fun s => s) := Laws.onTile_next ht
  rw [hx, Laws.closeBundle_issues ((mayIssue_updTile _ rfl rfl rfl).trans hm) ?_ ?_ ?_ ?_ ?_ rfl rfl]
  · simp only [Laws.tile_updTile_same, Tile.present, hd, List.nil_append, List.append_nil]
    rfl
  all_goals rw [Laws.tile_updTile_same]
  · exact hz
  · exact hc
  · simp [Tile.present, hhold, hh]
  · simp [Tile.present, hfault, hf, firstFault]
  · exact ha

/-- One slot and CNOP, where what the slot writes leaves the state `u`: the tile of `u` is issued. -/
theorem issuedWith_of {i : Instr} {slot : Nat} {w : SlotWork} {u : State} (h : Safety.bundleOpen s t)
    (hi : exec i s = .next (s.slot t slot w)) (hh : w.hold = none) (hf : w.fault = none)
    (hu : w.writes.foldl (fun s d => s.applyDeferred t d) (opened s t slot w) = u)
    (hsched : (u.tile t).sched = (s.tile t).sched) (hmem : u.mem = s.mem) (hjobs : u.jobs = s.jobs) (ho : ∀ v, v ≠ t → u.tile v = s.tile v) :
    Safety.issuedWith i s t (u.advance t) := by
  obtain ⟨-, -, -, -, -, -, hadv⟩ := advance_keeps (s := u) (t := t)
  exact ⟨_, hi, (cnop_issues h slot w hh hf).trans (by rw [hu]), hadv.trans (by rw [hsched]), hmem, hjobs,
    fun v hv => (Laws.advance_tile_ne hv).trans (ho v hv)⟩

/-- What a write of a slot makes of its tile, where it touches nothing else. -/
def deferredTile (x : Tile) : Deferred → Tile
  | .sreg r v => x.setSreg r v
  | .qreg q v => { x with qregs := Tab.put x.qregs q v }
  | .vreg v ready d => x.addResult v ready d
  | .store row completes d => x.addStore row completes d
  | .release row => { x with tags := Tab.put x.tags row .empty, coverage := Tab.erase x.coverage row }
  | .wide => { x with running := x.running.map fun (o : LopInst) => if o.op.code = lopBatch then { o with wides := o.wides + 1 } else o }
  | _ => x

/-- The writes that touch their tile's registers, pipelines and tags alone. -/
def isTileWrite : Deferred → Bool
  | .narrow .. | .corrected .. | .uncorrectable .. | .tagCopy => false
  | _ => true

theorem applyDeferred_tileWrite (s : State) (t : Nat) {d : Deferred} (h : isTileWrite d = true) :
    s.applyDeferred t d = s.updTile t fun x => deferredTile x d := by
  cases d <;> first | rfl | cases h

/-- A sequencer register written leaves every field but the registers. -/
theorem setSreg_eq (x : Tile) (r : Nat) (v : Word) : x.setSreg r v = { x with sregs := (x.setSreg r v).sregs } := by
  unfold Tile.setSreg
  split <;> rfl

theorem deferredTile_sched (x : Tile) (d : Deferred) : (deferredTile x d).sched = x.sched := by
  cases d with
  | sreg r v => rw [deferredTile, setSreg_eq]
  | _ => rfl

/-- The writes of a slot, one by one, where each touches the tile alone. -/
theorem applyDeferreds_tile {l : List Deferred} (hl : l.all isTileWrite = true) (s : State) :
    let u := l.foldl (fun s d => s.applyDeferred t d) s
    u.tile t = l.foldl deferredTile (s.tile t) ∧ (u.tile t).sched = (s.tile t).sched ∧ u.mem = s.mem ∧ u.jobs = s.jobs ∧ u.dict = s.dict
      ∧ ∀ v, v ≠ t → u.tile v = s.tile v := by
  induction l generalizing s with
  | nil => exact ⟨rfl, rfl, rfl, rfl, rfl, fun _ _ => rfl⟩
  | cons d l ih =>
    obtain ⟨hd, hl⟩ := (Bool.and_eq_true _ _).mp hl
    obtain ⟨h1, h2, h3, h4, h5, h6⟩ := ih hl (s.applyDeferred t d)
    have hs : (s.applyDeferred t d).tile t = deferredTile (s.tile t) d := by rw [applyDeferred_tileWrite s t hd, Laws.tile_updTile_same]
    refine ⟨h1.trans (by rw [hs, List.foldl_cons]), h2.trans (by rw [hs, deferredTile_sched]), h3.trans ?_, h4.trans ?_, h5.trans ?_,
      fun v hv => (h6 v hv).trans ?_⟩ <;> rw [applyDeferred_tileWrite s t hd]
    · rfl
    · rfl
    · rfl
    · exact Laws.tile_updTile_ne _ hv

/-- The tile in which one slot has joined an open bundle. -/
def openedTile (x : Tile) (slot : Nat) (w : SlotWork) : Tile :=
  { x with presented := [slot], deferred := w.writes, landNow := if w.land.isSome then w.land else x.landNow, missRows := w.miss.toList }

/-- One slot and CNOP: a slot whose writes touch the tile alone leaves the tile issued with them (R195, R208). -/
theorem slot_issues {i : Instr} {slot : Nat} {w : SlotWork} (h : Safety.bundleOpen s t) (hi : exec i s = .next (s.slot t slot w))
    (hh : w.hold = none) (hf : w.fault = none) (hw : w.writes.all isTileWrite = true) :
    ∃ s2, Safety.issuedWith i s t s2 ∧ s2.dict = s.dict
      ∧ ∃ stop now, CacheFrame (issuedTile (w.writes.foldl deferredTile (openedTile (s.tile t) slot w)) stop now) (s2.tile t) := by
  obtain ⟨htile, hsched, hmem, hjobs, hdict, hother⟩ := applyDeferreds_tile (t := t) hw (opened s t slot w)
  rw [opened_tile h slot w hh hf] at htile hsched
  generalize hu : w.writes.foldl (fun s d => s.applyDeferred t d) (opened s t slot w) = u at *
  have hcache := advance_tile (s := u) (t := t)
  rw [htile] at hcache
  exact ⟨u.advance t, issuedWith_of h hi hh hf hu hsched hmem hjobs fun v hv => (hother v hv).trans (opened_tile_ne _ _ hv), hdict, _, _, hcache⟩

/-! ### Scalar results -/

/-- A sequencer register written is read back; S0 keeps reading zero (R193). -/
theorem sreg_setSreg_same (x : Tile) (r : Nat) (v : Word) : (x.setSreg r v).sreg r = if r = 0 then 0 else v := by
  by_cases h : r = 0 <;> simp [Tile.sreg, Tile.setSreg, h]

theorem sreg_setSreg_ne (x : Tile) {r k : Nat} (v : Word) (h : k ≠ r) : (x.setSreg r v).sreg k = x.sreg k := by
  by_cases hr : r = 0 <;> simp [Tile.sreg, Tile.setSreg, hr, h]

/-- A slot whose one write is a sequencer register, closed by CNOP (R193, R195). -/
theorem scalar_issues {i : Instr} {sd : Nat} {v : Word} {w : SlotWork} (h : Safety.bundleOpen s t) (hi : exec i s = .next (s.slot t slotX w))
    (hh : w.hold = none) (hf : w.fault = none) (hw : w.writes = [.sreg sd v]) : Safety.scalarIssue i s t sd v := by
  obtain ⟨s2, hissued, hdict, stop, now, _, _, _, he⟩ := slot_issues h hi hh hf (by rw [hw]; rfl)
  have hframe : w.writes.foldl deferredTile (openedTile (s.tile t) slotX w)
      = { openedTile (s.tile t) slotX w with sregs := ((s.tile t).setSreg sd v).sregs } := by
    rw [hw]
    simp only [List.foldl_cons, List.foldl_nil, deferredTile, Tile.setSreg, openedTile]
    split <;> rfl
  rw [hframe] at he
  have hs : (s2.tile t).sregs = ((s.tile t).setSreg sd v).sregs := by rw [he]; rfl
  refine ⟨s2, hissued, ?_, fun k hk => ?_, ?_⟩
  · rw [← sreg_setSreg_same (s.tile t) sd v]
    exact congrArg (fun r => if sd = 0 then 0 else Tab.get r 0 sd) hs
  · rw [← sreg_setSreg_ne (s.tile t) v hk]
    exact congrArg (fun r => if k = 0 then 0 else Tab.get r 0 k) hs
  · rw [he]
    exact ⟨rfl, rfl, rfl, rfl, rfl, hdict⟩

/-- Settles O23: each scalar command presents one register write, which takes place as the bundle issues. -/
theorem scalarSlots : Obligations.ScalarSlots := by
  unfold Obligations.ScalarSlots
  intro s t sd sa sb imm n level h
  refine ⟨scalar_issues h (Laws.onTile_next h.1) rfl rfl rfl, scalar_issues h (Laws.onTile_next h.1) rfl rfl rfl,
    scalar_issues h (Laws.onTile_next h.1) rfl rfl rfl, scalar_issues h (Laws.onTile_next h.1) rfl rfl rfl,
    scalar_issues h (Laws.onTile_next h.1) rfl rfl rfl, scalar_issues h (Laws.onTile_next h.1) rfl rfl rfl,
    scalar_issues h (Laws.onTile_next h.1) rfl rfl rfl, scalar_issues h (Laws.onTile_next h.1) rfl rfl rfl,
    scalar_issues h (Laws.onTile_next h.1) rfl rfl rfl, scalar_issues h (Laws.onTile_next h.1) rfl rfl rfl,
    scalar_issues h (Laws.onTile_next h.1) rfl rfl rfl, fun i hi => scalar_issues (w := scalar sd (BitVec.ofNat 64 i)) h ?_ rfl rfl rfl⟩
  show execXidx t sd level s = _
  rw [execXidx, Laws.onTile_next h.1, hi]

end Sys2Proof.Proofs
end

section
/-! PROOFS. The wide-lane commands: every lane reduced once, readable after the latency (R90-R93, R209). -/

namespace Sys2Proof.Proofs

open Sys2Proof.Machine

variable {s : State} {t : Nat}

/-- A lane of a row computed lane by lane. -/
theorem lane_rowMap (f : Nat → Nat) {l : Nat} (h : l < 1024) : Row.lane (rowMap f) l = f l := by
  simp [Row.lane, rowMap, List.getD, h]

/-- The canonical residue is the remainder (R89). -/
theorem reduceInt_cast {q : Nat} (hq : 0 < q) (x : Int) : (reduceInt q x : Int) = x % (q : Int) :=
  Int.toNat_of_nonneg (Int.emod_nonneg _ (by omega))

/-- A vector register that is readable does not slip (R209). -/
theorem vregSlip_none {x : Tile} {slot v : Nat} (h : x.readyAt v ≤ x.sched) : x.vregSlip slot v = none := if_neg (by omega)

theorem qregCheck_none {x : Tile} {slot q : Nat} (h : (x.qreg q).valid = true) : x.qregCheck slot q = none := if_pos h

/-- A lane of source register `i` of a W slot. -/
def sourceLane (x : Tile) (vs : List Nat) (i l : Nat) : Nat := Row.lane (match vs[i]? with | some v => x.vreg v | none => []) l

/-- A lane of the second operand: the constant, where one is given (R92). -/
def secondLane (x : Tile) (vs : List Nat) (k : Option Nat) (l : Nat) : Nat := match k with | some n => n | none => sourceLane x vs 1 l

/-- What the two writes of a W slot leave of a tile: its pipelines and the marks of its running operations alone. -/
theorem wideWrites_tile (x : Tile) (v ready : Nat) (d : Row) : ∃ ru fl, [Deferred.wide, .vreg v ready d].foldl deferredTile x
    = { x with running := ru, flight := fl ++ [{ reg := v, issued := x.sched, ready := ready, value := d }], ready := Tab.put x.ready v ready } :=
  ⟨_, _, rfl⟩

/-- A result enters the pipeline as its bundle issues (R93, R209). -/
theorem wide_issues {i : Instr} {vd qm lat : Nat} {vs : List Nat} {k : Option Nat} {f : Int → Int → Int → Int} {g : Nat → Int}
    (h : Safety.bundleOpen s t) (hq : Safety.modulusReady s t qm) (hi : exec i s = .next (s.slot t slotW (s.wideOp t vd qm lat vs k f)))
    (hv : ∀ v ∈ vs, (s.tile t).readyAt v ≤ (s.tile t).sched)
    (hg : ∀ l, let q := ((s.tile t).qreg qm).qval
      f ((sourceLane (s.tile t) vs 0 l % q : Nat) : Int) ((secondLane (s.tile t) vs k l % q : Nat) : Int) ((sourceLane (s.tile t) vs 2 l % q : Nat) : Int)
        ≡ g l [ZMOD q]) :
    Safety.wideIssue i s t vd qm lat g := by
  have hslip : (vs.findSome? fun v => (s.tile t).vregSlip slotW v) = none := List.findSome?_eq_none_iff.2 fun v hm => vregSlip_none (hv v hm)
  have hf : (s.wideOp t vd qm lat vs k f).fault = none := by
    show firstFault (vs.findSome? fun v => (s.tile t).vregSlip slotW v) _ = none
    rw [hslip, qregCheck_none hq.1]
    rfl
  obtain ⟨d, hd, hlane⟩ : ∃ d, (s.wideOp t vd qm lat vs k f).writes = [.wide, .vreg vd ((s.tile t).sched + lat) d]
      ∧ ∀ l, l < 1024 → (Row.lane d l : Int) = g l % (((s.tile t).qreg qm).qval : Int) :=
    ⟨_, rfl, fun l hl => by rw [lane_rowMap _ hl, reduceInt_cast hq.2]; exact hg l⟩
  have hh : (s.wideOp t vd qm lat vs k f).hold = none := rfl
  generalize s.wideOp t vd qm lat vs k f = w at hi hf hd hh
  obtain ⟨s2, hissued, hdict, stop, now, _, _, _, he⟩ := slot_issues h hi hh hf (by rw [hd]; rfl)
  obtain ⟨ru, fl, hframe⟩ := wideWrites_tile (openedTile (s.tile t) slotW w) vd ((s.tile t).sched + lat) d
  rw [hd, hframe] at he
  refine ⟨s2, d, hissued, ?_, hlane, ?_, fun j hj => ?_, ?_⟩ <;> rw [he]
  · exact List.getLast?_concat
  · exact Laws.tab_get_put_same ..
  · exact Laws.tab_get_put_ne _ _ _ hj
  · exact ⟨rfl, rfl, rfl, rfl, rfl, hdict⟩

/-- The remainder of a lane stands for the lane. -/
theorem lane_modEq (n q : Nat) : ((n % q : Nat) : Int) ≡ n [ZMOD q] := by
  rw [Int.natCast_mod]
  exact Int.mod_modEq _ _

/-- The constant operand: bits 35 to 0 of the register (R92). -/
theorem constant_cast (w : Word) : ((w.toNat % 2 ^ 36 : Nat) : Int) = w.toNat % 2 ^ 36 := by push_cast; rfl

/-- Settles O24: each operation presents one result, whose lanes are congruent to the operation's value because each source lane is congruent to its remainder. -/
theorem wideSlots : Obligations.WideSlots := by
  unfold Obligations.WideSlots
  intro s t vd va vb vc sk qm h hq ha hb hc a b c k
  have h1 : ∀ v ∈ [va], (s.tile t).readyAt v ≤ (s.tile t).sched := by simpa using ha
  have h2 : ∀ v ∈ [va, vb], (s.tile t).readyAt v ≤ (s.tile t).sched := by simpa using ⟨ha, hb⟩
  have h3 : ∀ v ∈ [va, vb, vc], (s.tile t).readyAt v ≤ (s.tile t).sched := by simpa using ⟨ha, hb, hc⟩
  have hk : ((((s.tile t).sreg sk).toNat % 2 ^ 36 % ((s.tile t).qreg qm).qval : Nat) : Int) ≡ k [ZMOD ((s.tile t).qreg qm).qval] := by
    have := lane_modEq (((s.tile t).sreg sk).toNat % 2 ^ 36) ((s.tile t).qreg qm).qval
    rwa [constant_cast] at this
  refine ⟨wide_issues h hq (Laws.onTile_next h.1) h2 fun l => (lane_modEq ..).add (lane_modEq ..),
    wide_issues h hq (Laws.onTile_next h.1) h2 fun l => (lane_modEq ..).sub (lane_modEq ..),
    wide_issues h hq (Laws.onTile_next h.1) h1 fun l => (lane_modEq ..).neg,
    wide_issues h hq (Laws.onTile_next h.1) h1 fun l => lane_modEq ..,
    wide_issues h hq (Laws.onTile_next h.1) h1 fun l => (lane_modEq ..).add hk,
    wide_issues h hq (Laws.onTile_next h.1) h2 fun l => (lane_modEq ..).mul (lane_modEq ..),
    wide_issues h hq (Laws.onTile_next h.1) h1 fun l => (lane_modEq ..).mul hk,
    wide_issues h hq (Laws.onTile_next h.1) h3 fun l => ((lane_modEq ..).mul (lane_modEq ..)).add (lane_modEq ..),
    wide_issues h hq (Laws.onTile_next h.1) h3 fun l => (lane_modEq ..).sub ((lane_modEq ..).mul (lane_modEq ..))⟩

end Sys2Proof.Proofs
end

section
/-! PROOFS. The movement commands, the landings, the narrow view and QLOAD (R88, R93, R201, R202, R206, R209, R210, R265). -/

namespace Sys2Proof.Proofs

open Sys2Proof.Machine

variable {s : State} {t : Nat}

/-! ### The checks of a free row -/

theorem rowCheck_free {slot r : Nat} (h : Safety.rowFree s t r) : s.rowCheck t slot r = none := by
  obtain ⟨hr, hd, hk, -⟩ := h
  simp [State.rowCheck, hr, hd, hk]

theorem landing_free {r : Nat} (h : Safety.rowFree s t r) : (s.tile t).landing r = false := by
  obtain ⟨-, -, -, hs⟩ := h
  rw [List.any_eq_false] at hs
  refine List.any_eq_false.2 fun m hm hl => hs m hm ?_
  exact ((Bool.and_eq_true _ _).mp hl).1

theorem rowSlip_free {r : Nat} (h : Safety.rowFree s t r) : (s.tile t).rowSlip r = none := by
  obtain ⟨-, -, -, hs⟩ := h
  rw [List.any_eq_false] at hs
  refine Option.map_eq_none_iff.2 (List.find?_eq_none.2 fun m hm hl => hs m hm ?_)
  exact ((Bool.and_eq_true _ _).mp hl).1

/-! ### MLD, MST and MREL -/

theorem mld_takes {v sb row r : Nat} {consume : Bool} (h : Safety.bundleOpen s t) (hr : s.targetRow t sb row = r) (hfree : Safety.rowFree s t r)
    (htag : s.tag t r = .full) (hcov : (s.tile t).covered r 1 [.write] = false) :
    ∃ s2, Safety.issuedWith (.mld t v sb row consume .clean) s t s2
      ∧ (s2.tile t).flight.getLast? = some { reg := v, issued := (s.tile t).sched, ready := (s.tile t).sched + s.latency t 4 5, value := s.rowData t r }
      ∧ (s2.tile t).readyAt v = (s.tile t).sched + s.latency t 4 5 ∧ s2.tag t r = (if consume then .empty else .full) ∧ (∀ k, k ≠ r → s2.tag t k = s.tag t k)
      ∧ (s2.tile t).rows = (s.tile t).rows ∧ (s2.tile t).sregs = (s.tile t).sregs ∧ (s2.tile t).qregs = (s.tile t).qregs := by
  have hi : exec (.mld t v sb row consume .clean) s = .next (s.slot t slotM (s.loadRow t v (s.targetRow t sb row) consume .clean)) := Laws.onTile_next h.1
  have hh : (s.loadRow t v r consume .clean).hold = none := by simp [State.loadRow, hcov, htag, landing_free hfree]
  have hf : (s.loadRow t v r consume .clean).fault = none := by
    simp [State.loadRow, rowSlip_free hfree, rowCheck_free hfree, State.poisonCheck, htag, firstFault]
  have hw : (s.loadRow t v r consume .clean).writes
      = .vreg v ((s.tile t).sched + s.latency t 4 5) (s.rowData t r) :: if consume then [.release r] else [] := rfl
  rw [hr] at hi
  generalize s.loadRow t v r consume .clean = w at hi hh hf hw
  generalize s.latency t 4 5 = lat at hw ⊢
  cases consume
  · obtain ⟨s2, hissued, hdict, stop, now, _, _, _, he⟩ := slot_issues h hi hh hf (by rw [hw]; rfl)
    rw [hw] at he
    have ht : (s2.tile t).tags = (s.tile t).tags := by rw [he]; rfl
    refine ⟨s2, hissued, ?_, ?_, ?_, fun k hk => ?_, ?_⟩
    · rw [he]; exact List.getLast?_concat
    · rw [he]; exact Laws.tab_get_put_same ..
    · rw [State.tag, ht]; exact htag
    · rw [State.tag, ht]; rfl
    · rw [he]; exact ⟨rfl, rfl, rfl⟩
  · obtain ⟨s2, hissued, hdict, stop, now, _, _, _, he⟩ := slot_issues h hi hh hf (by rw [hw]; rfl)
    rw [hw] at he
    have ht : (s2.tile t).tags = Tab.put (s.tile t).tags r .empty := by rw [he]; rfl
    refine ⟨s2, hissued, ?_, ?_, ?_, fun k hk => ?_, ?_⟩
    · rw [he]; exact List.getLast?_concat
    · rw [he]; exact Laws.tab_get_put_same ..
    · rw [State.tag, ht]; exact Laws.tab_get_put_same ..
    · rw [State.tag, ht]; exact Laws.tab_get_put_ne _ _ _ hk
    · rw [he]; exact ⟨rfl, rfl, rfl⟩

/-- The store that joined last stays in flight: it has not landed. -/
theorem issued_store_last (x : Tile) (l : List Store) (m : Store) (stop now : Nat) (hs : x.stores = l ++ [m]) (hm : m.landed = false) :
    (issuedTile x stop now).stores.getLast? = some m := by
  show (x.stores.filter fun m => !(m.landed && m.completes ≤ x.sched + 1)).getLast? = some m
  rw [hs, List.filter_append, List.filter_cons_of_pos (by simp [hm])]
  exact List.getLast?_concat

theorem mst_stores {v sb row r : Nat} {waitEmpty : Bool} (h : Safety.bundleOpen s t) (hr : s.targetRow t sb row = r) (hfree : Safety.rowFree s t r)
    (hv : (s.tile t).readyAt v ≤ (s.tile t).sched) (hcov : (s.tile t).covered r 1 [.read, .write, .tagged] = false)
    (hwait : waitEmpty = true → s.tag t r = .empty) :
    ∃ s2, Safety.issuedWith (.mst t v sb row waitEmpty) s t s2
      ∧ (s2.tile t).stores.getLast? = some { row := r, issued := (s.tile t).sched, completes := (s.tile t).sched + s.latency t 3 4, value := (s.tile t).vreg v }
      ∧ (s2.tile t).tags = (s.tile t).tags ∧ (s2.tile t).rows = (s.tile t).rows ∧ (s2.tile t).flight = (s.tile t).flight
      ∧ (s2.tile t).sregs = (s.tile t).sregs ∧ (s2.tile t).qregs = (s.tile t).qregs := by
  have hi : exec (.mst t v sb row waitEmpty) s = .next (s.slot t slotM (s.storeRow t v (s.targetRow t sb row) waitEmpty)) := Laws.onTile_next h.1
  have hh : (s.storeRow t v r waitEmpty).hold = none := by
    simp only [State.storeRow, hcov, landing_free hfree]
    simp only [Bool.false_eq_true, if_false, or_false]
    exact if_neg fun ⟨h1, h2⟩ => h2 (hwait h1)
  have hf : (s.storeRow t v r waitEmpty).fault = none := by
    simp [State.storeRow, rowSlip_free hfree, rowCheck_free hfree, vregSlip_none hv, firstFault]
  have hw : (s.storeRow t v r waitEmpty).writes = [.store r ((s.tile t).sched + s.latency t 3 4) ((s.tile t).vreg v)] := rfl
  rw [hr] at hi
  generalize s.storeRow t v r waitEmpty = w at hi hh hf hw
  generalize s.latency t 3 4 = lat at hw ⊢
  obtain ⟨s2, hissued, hdict, stop, now, _, _, _, he⟩ := slot_issues h hi hh hf (by rw [hw]; rfl)
  rw [hw] at he
  refine ⟨s2, hissued, ?_, ?_⟩ <;> rw [he]
  · exact issued_store_last _ _ _ stop now rfl rfl
  · exact ⟨rfl, rfl, rfl, rfl, rfl⟩

theorem mrel_releases {sb row r : Nat} (h : Safety.bundleOpen s t) (hr : s.targetRow t sb row = r) (hfree : Safety.rowFree s t r)
    (hcov : (s.tile t).covered r 1 [.read, .write, .tagged] = false) :
    ∃ s2, Safety.issuedWith (.mrel t sb row) s t s2 ∧ s2.tag t r = .empty ∧ (∀ k, k ≠ r → s2.tag t k = s.tag t k)
      ∧ (s2.tile t).rows = (s.tile t).rows ∧ (s2.tile t).sregs = (s.tile t).sregs ∧ (s2.tile t).qregs = (s.tile t).qregs := by
  have hi : exec (.mrel t sb row) s = .next (s.slot t slotM (s.releaseRow t (s.targetRow t sb row))) := Laws.onTile_next h.1
  have hh : (s.releaseRow t r).hold = none := by simp [State.releaseRow, hcov, landing_free hfree]
  have hf : (s.releaseRow t r).fault = none := by simp [State.releaseRow, rowSlip_free hfree, rowCheck_free hfree, firstFault]
  have hw : (s.releaseRow t r).writes = [.release r] := rfl
  rw [hr] at hi
  generalize s.releaseRow t r = w at hi hh hf hw
  obtain ⟨s2, hissued, hdict, stop, now, _, _, _, he⟩ := slot_issues h hi hh hf (by rw [hw]; rfl)
  rw [hw] at he
  have ht : (s2.tile t).tags = Tab.put (s.tile t).tags r .empty := by rw [he]; rfl
  refine ⟨s2, hissued, ?_, fun k hk => ?_, ?_⟩
  · rw [State.tag, ht]; exact Laws.tab_get_put_same ..
  · rw [State.tag, ht]; exact Laws.tab_get_put_ne _ _ _ hk
  · rw [he]; exact ⟨rfl, rfl, rfl⟩

/-! ### Rows and what lands -/

/-- The contents of a tile's rows are read of its rows and the epochs of their banks. -/
theorem rowData_congr {u : State} (hrows : (u.tile t).rows = (s.tile t).rows) (he : (u.tile t).bankEpochs = (s.tile t).bankEpochs) (r : Nat) :
    u.rowData t r = s.rowData t r := by
  simp only [State.rowData, hrows, he]

/-- A row put is read back, and every other row reads as before. -/
theorem rowData_put {u : State} {r : Nat} {d : Row} (hrows : (u.tile t).rows = Tab.put (s.tile t).rows r d)
    (he : (u.tile t).bankEpochs = (s.tile t).bankEpochs) : u.rowData t r = d ∧ ∀ k, k ≠ r → u.rowData t k = s.rowData t k := by
  constructor
  · simp only [State.rowData, hrows, Laws.tab_get?_put_same]
  · intro k hk
    simp only [State.rowData, hrows, he, Laws.tab_get?_put_ne _ _ hk]

/-- With nothing running, no engine reads a row. -/
theorem readEngines_idle {u : State} (h : (u.tile t).running = []) : u.readEngines t = u := by
  unfold State.readEngines
  split
  · rfl
  · rw [h, List.foldl_nil, ite_self]

/-- The tile after a store has landed (R202, R210). -/
def landedTile (x : Tile) (row : Nat) (m : Store) : Tile :=
  { x with
      rows := Tab.put x.rows row (rowMap fun l => Row.lane m.value l % 2 ^ 36), tags := Tab.put x.tags row .full, coverage := Tab.erase x.coverage row
      writeBacks := x.writeBacks.filter fun p => !(p.1 = row && true)
      stores := (x.stores.map fun y => if y = m then { m with landed := true } else y).filter fun y => !(y.landed && y.completes ≤ x.sched) }

theorem mstWriteLand_lands {row : Nat} {m : Store} (ht : t < 64) (hrun : (s.tile t).running = [])
    (hm : ((s.tile t).stores.find? fun m => m.row = row && (s.tile t).storeDue m) = some m) :
    ∃ s2, exec (.mstWriteLand t row) s = .next s2 ∧ (∀ l, l < 1024 → Row.lane (s2.rowData t row) l = Row.lane m.value l % 2 ^ 36)
      ∧ s2.tag t row = .full ∧ (∀ k, k ≠ row → s2.rowData t k = s.rowData t k ∧ s2.tag t k = s.tag t k) ∧ s2.mem = s.mem ∧ s2.dict = s.dict
      ∧ ∀ u, u ≠ t → s2.tile u = s.tile u := by
  obtain ⟨u, hudef⟩ : ∃ u, u = ((s.writeRow t row m.value).setTag t row .full).updTile t fun x =>
      { x with stores := (x.stores.map fun y => if y = m then { m with landed := true } else y).filter fun y => !(y.landed && y.completes ≤ x.sched) } :=
    ⟨_, rfl⟩
  have hu : u.tile t = landedTile (s.tile t) row m := by
    simp only [hudef, State.writeRow, State.setRow, State.cancelWriteBack, State.setTag, Laws.tile_updTile_same]
    rfl
  have hx : exec (.mstWriteLand t row) s = .next u := by
    have hland : exec (.mstWriteLand t row) s = .next (s.landStore t row) := Laws.onTile_next (f := fun s => s.landStore t row) ht
    have hrest : (u.tile t).running = [] := by rw [hu]; exact hrun
    rw [hland, State.landStore, hm]
    dsimp only
    rw [← hudef, readEngines_idle hrest]
  have hrows : (u.tile t).rows = Tab.put (s.tile t).rows row (rowMap fun l => Row.lane m.value l % 2 ^ 36) := by rw [hu]; rfl
  have htags : (u.tile t).tags = Tab.put (s.tile t).tags row .full := by rw [hu]; rfl
  obtain ⟨hsame, hne⟩ := rowData_put (s := s) (u := u) hrows (by rw [hu]; rfl)
  refine ⟨u, hx, fun l hl => ?_, ?_, fun k hk => ⟨hne k hk, ?_⟩, by rw [hudef]; rfl, by rw [hudef]; rfl, fun v hv => ?_⟩
  · rw [hsame, lane_rowMap _ hl]
  · rw [State.tag, htags]; exact Laws.tab_get_put_same ..
  · rw [State.tag, htags]; exact Laws.tab_get_put_ne _ _ _ hk
  · simp only [hudef, State.writeRow, State.setRow, State.cancelWriteBack, State.setTag, Laws.tile_updTile_ne _ hv]

/-- Settles O25: each movement command's checks pass on a free row, and what lands is written in the tile alone. -/
theorem movementSlots : Obligations.MovementSlots := by
  unfold Obligations.MovementSlots
  refine ⟨fun s t v sb row r consume h hr hfree htag hcov => mld_takes h hr hfree htag hcov,
    fun s t v sb row r waitEmpty h hr hfree hv hcov hw => mst_stores h hr hfree hv hcov hw,
    fun s t sb row r h hr hfree hcov => mrel_releases h hr hfree hcov,
    fun s t row m ht hrun hm => mstWriteLand_lands ht hrun hm, fun s t vd r ht hr => ?_⟩
  have hx : exec (.wResultWrite t vd) s = .next (s.updTile t fun x => x.landResult vd) :=
    Laws.onTile_next (f := fun s => s.updTile t fun x => x.landResult vd) ht
  rw [hx, State.updTile, Tile.landResult, hr]

/-! ### The narrow view and QLOAD -/

/-- The index check passes in a free row (R206). -/
theorem narrowCheck_free {c : Nat} (h : Safety.rowFree s t (c / 1024)) : s.narrowCheck t c = none := by
  have hc : c < 3145728 := by have := h.1; omega
  rw [State.narrowCheck, if_pos hc, rowCheck_free h]

theorem xldn_reads {sd sa c : Nat} {imm : BitVec 16} (h : Safety.bundleOpen s t) (hc : s.narrowTarget t sa imm = c)
    (hfree : Safety.rowFree s t (c / 1024)) (htag : s.tag t (c / 1024) = .full) :
    Safety.scalarIssue (.xldn t sd sa imm .clean) s t sd (BitVec.ofNat 64 (s.coefficient t c)) := by
  have hi : exec (.xldn t sd sa imm .clean) s = .next (s.slot t slotX (s.narrowLoad t sd (s.narrowTarget t sa imm) .clean)) := Laws.onTile_next h.1
  rw [hc] at hi
  refine scalar_issues h hi ?_ ?_ rfl
  · simp [State.narrowLoad, landing_free hfree, htag]
  · simp [State.narrowLoad, narrowCheck_free hfree, State.poisonCheck, htag, firstFault]

/-- A coefficient written: that coefficient alone takes the value, and of the tile only its rows and write-backs change (R265). -/
theorem putCoefficient_writes (c v : Nat) : (s.putCoefficient t c v).coefficient t c = v % 2 ^ 36
    ∧ (∀ d, d ≠ c → (s.putCoefficient t c v).coefficient t d % 2 ^ 36 = s.coefficient t d % 2 ^ 36)
    ∧ ∃ rows wb, (s.putCoefficient t c v).tile t = { s.tile t with rows := rows, writeBacks := wb } := by
  have htile : (s.putCoefficient t c v).tile t = { s.tile t with
      rows := Tab.put (s.tile t).rows (c / 1024) (rowMap fun l =>
        Row.lane (rowMap fun l => if l = c % 1024 then v % 2 ^ 36 else Row.lane (s.rowData t (c / 1024)) l) l % 2 ^ 36)
      writeBacks := (s.tile t).writeBacks.filter fun p => !(p.1 = c / 1024 && p.2 = c % 1024 / 4) } := by
    simp only [State.putCoefficient, State.setRow, State.cancelWriteBack, Laws.tile_updTile_same]
  obtain ⟨hsame, hne⟩ := rowData_put (s := s) (u := s.putCoefficient t c v) (by rw [htile]) (by rw [htile])
  have hmod (k : Nat) : k % 1024 < 1024 := Nat.mod_lt _ (by omega)
  refine ⟨?_, fun d hd => ?_, _, _, htile⟩
  · rw [State.coefficient, hsame, lane_rowMap _ (hmod c), lane_rowMap _ (hmod c), if_pos rfl, Nat.mod_mod]
  · by_cases hrow : d / 1024 = c / 1024
    · have hlane : d % 1024 ≠ c % 1024 := by omega
      rw [State.coefficient, hrow, hsame, lane_rowMap _ (hmod d), lane_rowMap _ (hmod d), if_neg hlane, Nat.mod_mod, State.coefficient, hrow]
    · rw [State.coefficient, hne _ hrow, State.coefficient]

/-- A coefficient written touches its tile alone. -/
theorem putCoefficient_frame (c v : Nat) : (s.putCoefficient t c v).mem = s.mem ∧ (s.putCoefficient t c v).jobs = s.jobs
    ∧ (s.putCoefficient t c v).dict = s.dict ∧ ∀ u, u ≠ t → (s.putCoefficient t c v).tile u = s.tile u := by
  refine ⟨?_, ?_, ?_, fun u hu => ?_⟩
  · simp only [State.putCoefficient, State.cancelWriteBack, State.setRow, State.updTile, Laws.setTile_mem]
  · simp only [State.putCoefficient, State.cancelWriteBack, State.setRow, State.updTile, Laws.setTile_jobs]
  · simp only [State.putCoefficient, State.cancelWriteBack, State.setRow, State.updTile, Laws.setTile_dict]
  · simp only [State.putCoefficient, State.cancelWriteBack, State.setRow, Laws.tile_updTile_ne _ hu]

theorem xstn_writes {sd sa c : Nat} {imm : BitVec 16} (h : Safety.bundleOpen s t) (hc : s.narrowTarget t sa imm = c) (hfree : Safety.rowFree s t (c / 1024)) :
    ∃ s2, Safety.issuedWith (.xstn t sd sa imm .clean) s t s2 ∧ s2.coefficient t c = ((s.tile t).sreg sd).toNat % 2 ^ 36
      ∧ (∀ d, d ≠ c → s2.coefficient t d % 2 ^ 36 = s.coefficient t d % 2 ^ 36) ∧ (s2.tile t).tags = (s.tile t).tags
      ∧ (s2.tile t).sregs = (s.tile t).sregs ∧ (s2.tile t).qregs = (s.tile t).qregs ∧ (s2.tile t).flight = (s.tile t).flight ∧ s2.dict = s.dict := by
  have hi : exec (.xstn t sd sa imm .clean) s = .next (s.slot t slotX (s.narrowStore t sd (s.narrowTarget t sa imm) .clean)) := Laws.onTile_next h.1
  rw [hc] at hi
  have hh : (s.narrowStore t sd c .clean).hold = none := by simp [State.narrowStore, landing_free hfree]
  have hf : (s.narrowStore t sd c .clean).fault = none := by simp [State.narrowStore, narrowCheck_free hfree]
  have hw : (s.narrowStore t sd c .clean).writes = [.narrow (c / 1024) (c % 1024) ((s.tile t).sreg sd).toNat] := rfl
  generalize s.narrowStore t sd c .clean = w at hi hh hf hw
  have hplace : c / 1024 * 1024 + c % 1024 = c := by omega
  obtain ⟨hsame, hne, rows, wb, htile⟩ := putCoefficient_writes (s := opened s t slotX w) (t := t) c ((s.tile t).sreg sd).toNat
  have hopen : ∀ d, (opened s t slotX w).coefficient t d = s.coefficient t d := fun d =>
    congrArg (Row.lane · _) (rowData_congr (by rw [opened_tile h slotX w hh hf]) (by rw [opened_tile h slotX w hh hf]) _)
  obtain ⟨hmem, hjobs, hdict, hother⟩ := putCoefficient_frame (s := opened s t slotX w) (t := t) c ((s.tile t).sreg sd).toNat
  rw [opened_tile h slotX w hh hf] at htile
  generalize hu : (opened s t slotX w).putCoefficient t c ((s.tile t).sreg sd).toNat = u at hsame hne htile hmem hjobs hdict hother
  have hfold : w.writes.foldl (fun s d => s.applyDeferred t d) (opened s t slotX w) = u := by
    rw [hw, List.foldl_cons, List.foldl_nil, State.applyDeferred, hplace, hu]
  obtain ⟨hrows, hbanks, htags, hsregs, hqregs, hflight, -⟩ := advance_keeps (s := u) (t := t)
  have hcoef : ∀ d, (u.advance t).coefficient t d = u.coefficient t d := fun d => congrArg (Row.lane · _) (rowData_congr hrows hbanks _)
  refine ⟨u.advance t, issuedWith_of h hi hh hf hfold (by rw [htile]) hmem hjobs fun v hv => (hother v hv).trans (opened_tile_ne _ _ hv), (hcoef c).trans hsame,
    fun d hd => by rw [hcoef, hne d hd, hopen], htags.trans (by rw [htile]), hsregs.trans (by rw [htile]), hqregs.trans (by rw [htile]),
    hflight.trans (by rw [htile]), (Laws.advance_dict).trans hdict⟩

/-- QLOAD's one write leaves every other modulus register (R88). -/
theorem qload_writes {qd setId limb : Nat} {p : ParamSet} (h : Safety.bundleOpen s t) (hp : s.set? setId = some p) (hl : limb < p.limbs + p.special) :
    ∃ s2, Safety.issuedWith (.qload t qd setId limb) s t s2 ∧ (s2.tile t).qreg qd = p.modReg limb
      ∧ (∀ k, k ≠ qd → (s2.tile t).qreg k = (s.tile t).qreg k) ∧ (s2.tile t).sregs = (s.tile t).sregs ∧ (s2.tile t).rows = (s.tile t).rows
      ∧ (s2.tile t).tags = (s.tile t).tags ∧ (s2.tile t).flight = (s.tile t).flight ∧ s2.dict = s.dict := by
  obtain ⟨w, hi, hh, hf, hw⟩ : ∃ w : SlotWork, exec (.qload t qd setId limb) s = .next (s.slot t slotX w) ∧ w.hold = none ∧ w.fault = none
      ∧ w.writes = [.qreg qd (p.modReg limb)] := by
    refine ⟨{ writes := [.qreg qd (p.modReg limb)] }, ?_, rfl, rfl, rfl⟩
    show execQload t qd setId limb s = _
    rw [execQload, Laws.onTile_next h.1, hp]
    exact congrArg _ (if_pos hl)
  obtain ⟨s2, hissued, hdict, stop, now, _, _, _, he⟩ := slot_issues h hi hh hf (by rw [hw]; rfl)
  rw [hw] at he
  have hq : (s2.tile t).qregs = Tab.put (s.tile t).qregs qd (p.modReg limb) := by rw [he]; rfl
  refine ⟨s2, hissued, ?_, fun k hk => ?_, ?_⟩
  · rw [Tile.qreg, hq]; exact Laws.tab_get_put_same ..
  · rw [Tile.qreg, hq]; exact Laws.tab_get_put_ne _ _ _ hk
  · rw [he]; exact ⟨rfl, rfl, rfl, rfl, hdict⟩

/-- Settles O26: XLDN presents one register write, XSTN one coefficient, QLOAD one modulus register. -/
theorem narrowSlots : Obligations.NarrowSlots := by
  unfold Obligations.NarrowSlots
  exact ⟨fun s t sd sa c imm h hc hfree htag => xldn_reads h hc hfree htag, fun s t sd sa c imm h hc hfree => xstn_writes h hc hfree,
    fun s t qd setId limb p h hp hl => qload_writes h hp hl⟩

end Sys2Proof.Proofs
end

section
/-! PROOFS. The control slots: a replay counts no frozen cycle as ECC_FREEZE (R80, R213, R411). -/

namespace Sys2Proof.Proofs

open Sys2Proof.Machine

/-- Tile 0 of a job whose trap is being replayed, frozen for one cycle (R80, R213). -/
def frozenReplay : State :=
  (State.reset.setJob 0 { State.reset.job 0 with state := .running, group := [0], replayed := true }).setTile 0 { State.reset.tile 0 with freeze := 1 }

theorem frozenReplay_replaying : frozenReplay.replaying 0 = true := by decide

theorem frozenReplay_freeze : (frozenReplay.tile 0).freeze = 1 := by decide

theorem frozenReplay_uncounted : frozenReplay.entry 0x8100 5 = 0 := by decide

/-- During a replay the sequencer counts LEDGER_TRAP alone (R80, R411). -/
theorem stall_replaying {s : State} {t cause : Nat} (h : s.replaying t = true) (hc : cause ≠ causeTrap) (n : Nat) : s.stall t 0 cause n = s :=
  if_pos ⟨rfl, hc, h⟩

/-- The end of a freeze counts nothing there. -/
theorem frozenReplay_ends : ∃ s2, exec (.eccFreezeEnd 0) frozenReplay = .next s2 ∧ s2.entry 0x8100 5 = 0 := by
  refine ⟨frozenReplay.updTile 0 fun x => { x with freeze := 0, frozen := if x.waitCause = 255 then 0 else x.frozen + 1 }, ?_, frozenReplay_uncounted⟩
  show execEccFreezeEnd 0 frozenReplay = _
  rw [execEccFreezeEnd, Laws.onTile_next (by decide)]
  dsimp only
  rw [frozenReplay_freeze, if_pos (by decide), stall_replaying frozenReplay_replaying (by decide)]

/-- Refutes O27: the frozen cycles of a tile whose job replays a trap are not counted as ECC_FREEZE. -/
theorem not_controlSlots : ¬ Obligations.ControlSlots := by
  unfold Obligations.ControlSlots
  rintro ⟨-, -, -, -, hfreeze⟩
  obtain ⟨s2, hx, -, -, hcount, -⟩ := hfreeze frozenReplay 0 (by decide) (by rw [frozenReplay_freeze]; decide)
  obtain ⟨s3, hy, hzero⟩ := frozenReplay_ends
  rw [hx] at hy
  injection hy with hy
  rw [hy, hzero, frozenReplay_uncounted, frozenReplay_freeze] at hcount
  exact absurd hcount (by decide)

end Sys2Proof.Proofs
end

section
/-! PROOFS. What a settled wait leaves, and how a fault ends a job (R209, R211, R255, R396, R411). -/

namespace Sys2Proof.Proofs

open Sys2Proof.Machine

/-- Of the state only the counters above 0x8000, the ticks, how far each tile's wait is counted and how far each replay is counted may differ. -/
structure Settled (s u : State) : Prop where
  shape : ∃ d tl jb ti, u = { s with dict := d, tiles := tl, jobs := jb, ticks := ti }
  tiles : ∀ t, ∃ a f, u.tile t = { s.tile t with waitAt := a, frozen := f }
  jobs : ∀ j, ∃ a, u.job j = { s.job j with trapAt := a }
  entries : ∀ i k, i < 0x8000 → k < 256 → u.entry i k = s.entry i k

namespace Settled

variable {s u v : State}

theorem refl (s : State) : Settled s s := ⟨⟨_, _, _, _, rfl⟩, fun _ => ⟨_, _, rfl⟩, fun _ => ⟨_, rfl⟩, fun _ _ _ _ => rfl⟩

theorem trans (h : Settled s u) (h' : Settled u v) : Settled s v where
  shape := by
    obtain ⟨_, _, _, _, rfl⟩ := h.shape
    obtain ⟨_, _, _, _, rfl⟩ := h'.shape
    exact ⟨_, _, _, _, rfl⟩
  tiles t := by
    obtain ⟨_, _, e⟩ := h.tiles t
    obtain ⟨a, f, e'⟩ := h'.tiles t
    exact ⟨a, f, by rw [e', e]⟩
  jobs j := by
    obtain ⟨_, e⟩ := h.jobs j
    obtain ⟨a, e'⟩ := h'.jobs j
    exact ⟨a, by rw [e', e]⟩
  entries i k hi hk := (h'.entries i k hi hk).trans (h.entries i k hi hk)

theorem mem (h : Settled s u) : u.mem = s.mem := by
  obtain ⟨_, _, _, _, rfl⟩ := h.shape
  rfl

/-- An entry above 0x8000 replaced. -/
theorem setEntry (h : Settled s u) {i : Nat} (hi : 0x8000 ≤ i) (k v : Nat) : Settled s (u.setEntry i k v) :=
  h.trans ⟨⟨_, _, _, _, rfl⟩, fun _ => ⟨_, _, rfl⟩, fun _ => ⟨_, rfl⟩, fun i' k' hi' hk' =>
    Laws.entry_setEntry_ne _ _ _ _ _ _ (by simp only [entryKey]; omega)⟩

theorem bump (h : Settled s u) {i : Nat} (hi : 0x8000 ≤ i) (k n : Nat) : Settled s (u.bump i k n) := h.setEntry hi ..

theorem stall (h : Settled s u) (t e cause n : Nat) : Settled s (u.stall t e cause n) := by
  unfold State.stall
  split
  · exact h
  · exact h.setEntry (by omega) ..

/-- How far a tile's wait is counted. -/
theorem waited (h : Settled s u) (t : Nat) (f g : Tile → Nat) : Settled s (u.updTile t fun x => { x with waitAt := f x, frozen := g x }) :=
  h.trans ⟨⟨_, _, _, _, rfl⟩, fun k => by
    by_cases hk : k = t
    · subst hk; exact ⟨_, _, Laws.tile_updTile_same _⟩
    · exact ⟨_, _, Laws.tile_updTile_ne _ hk⟩, fun _ => ⟨_, rfl⟩, fun _ _ _ _ => rfl⟩

/-- How far a job's replay is counted. -/
theorem replayCounted (h : Settled s u) (j a : Nat) : Settled s (u.updJob j fun x => { x with trapAt := a }) :=
  h.trans ⟨⟨_, _, _, _, rfl⟩, fun _ => ⟨_, _, rfl⟩, fun k => by
    by_cases hk : k = j
    · subst hk; exact ⟨a, Laws.job_setJob_same _ _ _⟩
    · exact ⟨_, Laws.job_setJob_ne _ _ _ _ hk⟩, fun _ _ _ _ => rfl⟩

theorem settleWait (h : Settled s u) (t : Nat) : Settled s (u.settleWait t) := by
  unfold State.settleWait
  dsimp only
  split
  · exact h
  · exact (h.stall ..).waited t _ _

theorem foldl {α : Type} {f : State → α → State} (hf : ∀ u x, Settled u (f u x)) (l : List α) : ∀ {u}, Settled s u → Settled s (l.foldl f u) := by
  induction l with
  | nil => exact fun h => h
  | cons x l ih => exact fun h => ih (h.trans (hf _ x))

theorem countReplay (h : Settled s u) (j : Nat) : Settled s (u.countReplay j) := by
  unfold State.countReplay
  dsimp only
  split
  · exact (foldl (fun u t => (refl u).stall ..) _ h).replayCounted ..
  · exact h

theorem settleJob (h : Settled s u) (j : Nat) : Settled s (u.settleJob j) :=
  (foldl (fun u t => (refl u).settleWait t) _ h).countReplay j

theorem addTick (h : Settled s u) (k : LatchTick) : Settled s (u.addTick k) := by
  unfold State.addTick
  split
  · exact h.bump (by omega) ..
  · exact h.trans ⟨⟨_, _, _, _, rfl⟩, fun _ => ⟨_, _, rfl⟩, fun _ => ⟨_, rfl⟩, fun _ _ _ _ => rfl⟩

theorem faultTick (h : Settled s u) (j : Nat) : Settled s (u.faultTick j) := by
  unfold State.faultTick
  split
  · exact h.addTick _
  · exact h

end Settled

/-- A state whose job `j` has been ended by its first fault (R255). -/
structure Aborted (s u : State) (j code tile bundle : Nat) : Prop where
  mem : u.mem = s.mem
  tiles : ∀ t, ∃ a f, u.tile t = { s.tile t with waitAt := a, frozen := f }
  others : ∀ k, k ≠ j → ∃ a, u.job k = { s.job k with trapAt := a }
  entries : ∀ i k, i < 0x8000 → k < 256 → u.entry i k = s.entry i k
  job : ∃ a, u.job j = { s.job j with
    state := .draining, drain := .abort, abortCode := code, abortTile := tile, abortBundle := bundle, drainedAt := s.now, trapPending := none
    replayed := false, trapAt := a, commits := (s.job j).commits.filter fun c => c.validWritten }

/-- What the job shows of its end. -/
theorem Aborted.ended {s u : State} {j code tile bundle : Nat} (h : Aborted s u j code tile bundle) :
    (u.job j).state = .draining ∧ (u.job j).drain = .abort ∧ (u.job j).abortCode = code ∧ (u.job j).abortTile = tile
      ∧ (u.job j).abortBundle = bundle ∧ (u.job j).handles = (s.job j).handles := by
  obtain ⟨_, e⟩ := h.job
  rw [e]
  exact ⟨rfl, rfl, rfl, rfl, rfl, rfl⟩

/-- The first fault of a running job ends it (R255). -/
theorem abortJob_running {s : State} {j : Nat} (code tile bundle : Nat) (h : (s.job j).state = .running) :
    Aborted s (s.abortJob j code tile bundle) j code tile bundle := by
  have hs := (Settled.refl s).settleJob j
  have he : s.abortJob j code tile bundle = (((s.settleJob j).updJob j fun x =>
      { x with state := .draining, drain := .abort, abortCode := code, abortTile := tile, abortBundle := bundle, drainedAt := s.now, trapPending := none
               replayed := false, commits := x.commits.filter fun c => c.validWritten })).faultTick j := if_pos (.inl h)
  rw [he]
  generalize s.settleJob j = u at hs
  have hv := (Settled.refl (u.updJob j fun x =>
      { x with state := .draining, drain := .abort, abortCode := code, abortTile := tile, abortBundle := bundle, drainedAt := s.now, trapPending := none
               replayed := false, commits := x.commits.filter fun c => c.validWritten })).faultTick j
  generalize (u.updJob j _).faultTick j = v at hv
  refine ⟨hv.mem.trans hs.mem, fun t => ?_, fun k hk => ?_, fun i k hi hk => (hv.entries i k hi hk).trans (hs.entries i k hi hk), ?_⟩
  · obtain ⟨_, _, e⟩ := hs.tiles t
    obtain ⟨a, f, e'⟩ := hv.tiles t
    exact ⟨a, f, e'.trans (by rw [show (u.updJob j _).tile t = u.tile t from rfl, e])⟩
  · obtain ⟨_, e⟩ := hs.jobs k
    obtain ⟨a, e'⟩ := hv.jobs k
    exact ⟨a, e'.trans (by rw [State.updJob, Laws.job_setJob_ne _ _ _ _ hk, e])⟩
  · obtain ⟨_, e⟩ := hs.jobs j
    obtain ⟨a, e'⟩ := hv.jobs j
    exact ⟨a, e'.trans (by rw [State.updJob, Laws.job_setJob_same, e])⟩

end Sys2Proof.Proofs
end

section
/-! PROOFS. A bundle whose first check fails ends its job before it has any effect (R209, R211). -/

namespace Sys2Proof.Proofs

open Sys2Proof.Machine

variable {s : State} {t j : Nat}

/-- The record of a failing slot (R211, Table 19-6). -/
def slotRecord (x : Tile) (f : SlotFault) : FaultRecord :=
  { ready := f.ready, count := x.sched, bundle := x.nextBundle, code := f.code, target := f.target, slot := f.slot, targetKind := f.targetKind }

/-- CNOP on an open bundle that one slot has joined with a failing check of order 1 to 3 (R211). -/
theorem cnop_fails (h : Safety.bundleOpen s t) (slot : Nat) (w : SlotWork) {f : SlotFault} (hf : w.fault = some f) (hcheck : f.check ≤ 3) :
    exec (.cnop t) (s.slot t slot w) = .next ((opened s t slot w).failBundle t f) := by
  rw [Laws.slot_open h]
  obtain ⟨ht, hm, hp, hd, hhold, hfault, hmr, ha, hz, hc⟩ := h
  have hx : exec (.cnop t) (s.updTile t fun x => x.present slot w)
      = .next ((s.updTile t fun x => x.present slot w).closeBundle t {} fun s => s) := Laws.onTile_next ht
  have hmay : (s.updTile t fun x => x.present slot w).mayIssue t = true := (mayIssue_updTile _ rfl rfl rfl).trans hm
  have hmiss : ((s.updTile t fun x => x.present slot w).tile t).missAt = [] := by rw [Laws.tile_updTile_same]; exact ha
  have e1 : (((s.updTile t fun x => x.present slot w).tile t).present slotC {}).freeze = 0 := by rw [Laws.tile_updTile_same]; exact hz
  have e2 : (((s.updTile t fun x => x.present slot w).tile t).present slotC {}).cached
      ((((s.updTile t fun x => x.present slot w).tile t).present slotC {}).nextBundle / 4) = true := by rw [Laws.tile_updTile_same]; exact hc
  have e3 : (((s.updTile t fun x => x.present slot w).tile t).present slotC {}).slotFault = some f := by
    rw [Laws.tile_updTile_same]
    simp [Tile.present, hfault, hf, firstFault]
  rw [hx, State.closeBundle]
  generalize ((s.updTile t fun x => x.present slot w).tile t).present slotC {} = y at e1 e2 e3
  simp only [hmay, e1, e2, e3, Bool.not_true, Bool.false_eq_true, if_false, Nat.lt_irrefl, Option.filter, decide_eq_true hcheck, if_true,
    Laws.reportMisses_none _ hmiss]
  rfl

/-- A failing bundle that poisons nothing ends the job of its tile; of the tile, beside what was presented, the record alone changes (R211). -/
theorem failBundle_ends {u : State} {f : SlotFault} (hp : f.poison = (0, 0)) (hj : u.jobOfTile t = some j) (hrun : (u.job j).state = .running) :
    ∃ v, v.mem = u.mem ∧ v.jobs = u.jobs ∧ v.tile t = { (u.tile t).unpresent with record := slotRecord (u.tile t) f }
      ∧ Aborted v (u.failBundle t f) j f.code t (u.tile t).nextBundle := by
  refine ⟨(u.updTile t Tile.unpresent).updTile t fun x => { x with record := slotRecord (u.tile t) f }, rfl, rfl, ?_, ?_⟩
  · rw [Laws.tile_updTile_same, Laws.tile_updTile_same]
  · have he : u.failBundle t f
        = ((u.updTile t Tile.unpresent).updTile t fun x => { x with record := slotRecord (u.tile t) f }).abortJob j f.code t (u.tile t).nextBundle := by
      have hj' : (u.updTile t Tile.unpresent).jobOfTile t = some j := hj
      rw [State.failBundle, hp, State.poisonRows, List.range_zero, List.foldl_nil, State.faultTile, hj']
      rfl
    rw [he]
    exact abortJob_running _ _ _ hrun

/-- A tile that may issue belongs to a running job. -/
theorem mayIssue_running (h : s.mayIssue t = true) (hj : s.jobOfTile t = some j) : (s.job j).state = .running := by
  simp only [State.mayIssue, hj, Option.any_some, Bool.and_eq_true, decide_eq_true_eq] at h
  obtain ⟨⟨⟨⟨-, hrun, -⟩, -⟩, -⟩, -⟩ := h
  exact hrun

/-- Settles O28: the slot joins the bundle with its slip, which ends the job as the C slot closes it. -/
theorem slipsEndTheJob : Obligations.SlipsEndTheJob := by
  unfold Obligations.SlipsEndTheJob
  intro s t j vd va vb qm h hj hslip
  have hi : exec (.vadd t vd va vb qm) s
      = .next (s.slot t slotW (s.wideOp t vd qm (s.latency t 2 3) [va, vb] none fun a b _c => a + b)) := Laws.onTile_next h.1
  have hf : (s.wideOp t vd qm (s.latency t 2 3) [va, vb] none fun a b _c => a + b).fault
      = some (slipFault slotW va 1 ((s.tile t).readyAt va)) := by
    have hfirst : ([va, vb].findSome? fun v => (s.tile t).vregSlip slotW v) = some (slipFault slotW va 1 ((s.tile t).readyAt va)) := by
      rw [List.findSome?_cons, Tile.vregSlip, if_pos hslip]
    show firstFault ([va, vb].findSome? fun v => (s.tile t).vregSlip slotW v) _ = _
    rw [hfirst, Tile.qregCheck]
    split <;> rfl
  generalize s.wideOp t vd qm (s.latency t 2 3) [va, vb] none (fun a b _c => a + b) = w at hi hf
  obtain ⟨v, hmem, hjobs, htile, hab⟩ := failBundle_ends (u := opened s t slotW w) (f := slipFault slotW va 1 ((s.tile t).readyAt va)) rfl hj
    (mayIssue_running (s := s) h.2.1 hj)
  have hopen : (opened s t slotW w).tile t = { (s.tile t).present slotW w with missAt := [] } := by
    rw [opened, Laws.tile_updTile_same, Laws.tile_updTile_same]
  obtain ⟨hstate, hdrain, hcode, habtile, -, -⟩ := hab.ended
  obtain ⟨_, _, hkeep⟩ := hab.tiles t
  rw [htile, hopen] at hkeep
  refine ⟨_, _, hi, cnop_fails h slotW w hf (show 1 ≤ 3 by decide), hstate, hdrain, hcode, habtile, ?_⟩
  rw [hkeep]
  exact ⟨rfl, rfl, rfl, rfl, rfl, rfl, hab.mem.trans hmem⟩

end Sys2Proof.Proofs
end

section
/-! PROOFS. Long operations without a ledger step enter their tile's queue (R217-R223). -/

namespace Sys2Proof.Proofs

open Sys2Proof.Machine

variable {s : State} {t index sa j code : Nat} {im : Image} {op : LongOp} {o : LopInst}

/-- The state in which a LOP bundle acts: no miss is pending. -/
def settledMisses (s : State) (t : Nat) : State := s.updTile t fun x => { x with missAt := [] }

theorem settledMisses_tile (h : Safety.bundleOpen s t) : (settledMisses s t).tile t = s.tile t := by
  obtain ⟨-, -, -, -, -, -, -, ha, -⟩ := h
  exact Laws.updTile_missAt ha

/-- A LOP bundle that names an entry of its own code closes with the entry's operation (R217). -/
theorem issueLop_closes (hj : s.jobOfTile t = some j) (him : (s.job j).image = some im) (hop : im.longOps[index]? = some op)
    (ho : o = (s.tile t).instanceOf index op ((s.tile t).sreg sa)) (hc : op.code = code) (act : Nat → Image → LopInst → State → State) :
    s.issueLop t index sa code act =
      s.closeBundle t { hold := (s.tile t).lopHold o, fault := firstFault (s.lopParams t j im o) (s.lopAccess t j im o) } fun s => act j im o s := by
  unfold State.issueLop
  rw [hj]
  dsimp only
  rw [him]
  dsimp only
  rw [hop]
  dsimp only
  rw [if_neg (not_not.2 hc), ho]

/-- A LOP bundle whose checks pass and that nothing holds issues, and acts (R217, R221). -/
theorem issueLop_issues (h : Safety.lopReady s t index sa j im op o) (hc : op.code = code) (act : Nat → Image → LopInst → State → State) :
    s.issueLop t index sa code act = (act j im o (settledMisses s t)).advance t := by
  obtain ⟨⟨ht, hm, hp, hd, hhold, hfault, hmr, ha, hz, hl⟩, hj, him, hop, ho, hparams, haccess, hlop⟩ := h
  rw [issueLop_closes hj him hop ho hc, Laws.closeBundle_issues hm hz hl hhold hfault ha hlop (by rw [hparams, haccess]; rfl), hd]
  rfl

/-- The tile in which an operation has entered the queue as its bundle issued. -/
theorem enqueueLop_tile (h : Safety.bundleOpen s t) : ((settledMisses s t).enqueueLop t o).tile t = (s.tile t).enqueue o := by
  rw [State.enqueueLop, Laws.tile_updTile_same, settledMisses_tile h]

/-- The bundle of an operation that only enters the queue. -/
theorem lopQueued_of {i : Instr} (h : Safety.bundleOpen s t) (hi : exec i s = .next (((settledMisses s t).enqueueLop t o).advance t)) :
    Safety.lopQueued i s t o := by
  obtain ⟨_, _, _, he⟩ := advance_tile (s := (settledMisses s t).enqueueLop t o) (t := t)
  rw [enqueueLop_tile h] at he
  refine ⟨_, hi, ?_⟩
  rw [he]
  refine ⟨rfl, rfl, rfl, rfl, rfl, rfl, rfl, rfl, rfl, rfl, rfl, fun u hu => ?_⟩
  rw [Laws.advance_tile_ne hu, State.enqueueLop, Laws.tile_updTile_ne _ hu, settledMisses, Laws.tile_updTile_ne _ hu]

/-- An operation without a step of its own enters the queue (R221). -/
theorem issueLop_enqueues {i : Instr} (h : Safety.lopReady s t index sa j im op o) (hc : op.code = code)
    (hi : exec i s = onTile t s fun s => s.issueLop t index sa code fun _j _im o s => s.enqueueLop t o) : Safety.lopQueued i s t o :=
  lopQueued_of h.1 (hi.trans ((Laws.onTile_next h.1.1).trans (congrArg Host.Outcome.next (issueLop_issues h hc _))))

/-- A group operation on a tile that does not lead enters the queue (R219). -/
theorem issueLop_follows {i : Instr} (h : Safety.lopReady s t index sa j im op o) (hc : op.code = code) (hlead : t ≠ (s.job j).lead)
    {step : Nat → Image → LopInst → State → Option StepArgs} {hin : LopInst → Nat} {after : Nat → Image → LopInst → State → State}
    (hi : exec i s = onTile t s fun s => s.issueLop t index sa code fun j im o s => s.enqueueGroup t j o (step j im o s) (hin o) (after j im o)) :
    Safety.lopQueued i s t o := by
  refine lopQueued_of h.1 (hi.trans ((Laws.onTile_next h.1.1).trans (congrArg Host.Outcome.next ((issueLop_issues h hc _).trans ?_))))
  exact congrArg (fun u : State => u.advance t) (if_neg (show t ≠ ((settledMisses s t).job j).lead from hlead))

/-- A batch on a tile that does not lead enters the queue, as a standby where it is one (R80, R219). -/
theorem batch_follows (h : Safety.lopReady s t index sa j im op o) (hc : op.code = lopBatch) (hlead : t ≠ (s.job j).lead) :
    ((s.job j).isStandby im index = false → Safety.lopQueued (.batchBootstrap t index sa) s t o)
    ∧ ((s.job j).isStandby im index = true → Safety.lopQueued (.batchBootstrap t index sa) s t { o with standby := true }) := by
  have hx : exec (.batchBootstrap t index sa) s = .next _ :=
    (show exec (.batchBootstrap t index sa) s = execBatchBootstrap t index sa s from rfl).trans
      ((Laws.onTile_next h.1.1).trans (congrArg Host.Outcome.next (issueLop_issues h hc _)))
  have hlead' : t ≠ ((settledMisses s t).job j).lead := hlead
  refine ⟨fun hs => lopQueued_of h.1 (hx.trans ?_), fun hs => lopQueued_of h.1 (hx.trans ?_)⟩
  · have hs' : ((settledMisses s t).job j).isStandby im index = false := hs
    simp only [hs', Bool.false_eq_true, if_false, State.enqueueGroup, if_neg hlead']
  · have hs' : ((settledMisses s t).job j).isStandby im index = true := hs
    simp only [hs', if_true, if_neg hlead', State.enqueueGroup]

/-- Settles O29: a bundle whose checks pass issues, and its operation enters the queue. -/
theorem longOpsQueue : Obligations.LongOpsQueue := by
  unfold Obligations.LongOpsQueue
  intro s t index sa j im op o h
  refine ⟨fun hc => issueLop_enqueues h hc rfl, fun hc => issueLop_enqueues h hc rfl, fun hc => issueLop_enqueues h hc rfl,
    fun hc => issueLop_enqueues h hc rfl, fun hc => issueLop_enqueues h hc rfl, fun hc => issueLop_enqueues h hc rfl,
    fun hc => issueLop_enqueues h hc rfl, fun hc => issueLop_enqueues h hc rfl, fun hlead => ?_⟩
  refine ⟨fun hc => issueLop_follows (step := fun _ _ o _ => some (rescaleStep o)) (hin := fun o => o.op.hina) (after := fun _ _ _ => id) h hc hlead rfl,
    fun hc => issueLop_follows (step := fun _ im o _ => some (ksipStep im o)) (hin := fun o => o.op.hina)
      (after := fun j im o s => s.residentCheck j im o) h hc hlead rfl,
    fun hc => issueLop_follows (step := fun _ _ _ _ => none) (hin := fun o => o.op.hout) (after := fun _ _ _ => id) h hc hlead rfl,
    fun hc => (batch_follows h hc hlead).1, fun hc => (batch_follows h hc hlead).2,
    fun hc => issueLop_follows (step := fun j _ o s => some (extractStep o (s.positionsValid t j o))) (hin := fun o => o.op.hina)
      (after := fun j im o s => s.residentCheck j im o) h hc hlead rfl,
    fun hc => issueLop_follows (step := fun _ im o _ => some (packStep im o)) (hin := fun o => o.op.hina)
      (after := fun j im o s => s.residentCheck j im o) h hc hlead rfl,
    fun hc => issueLop_follows (step := fun _ _ o _ => some (modraiseStep o)) (hin := fun o => o.op.hina) (after := fun _ _ _ => id) h hc hlead rfl⟩

end Sys2Proof.Proofs
end

section
/-! PROOFS. The ledger step of an operation on the lead tile: accepted or refused (R74, R76-R80, R218, R219, R222). -/

namespace Sys2Proof.Proofs

open Sys2Proof.Machine

variable {s : State} {t index sa j code handle : Nat} {im : Image} {op : LongOp} {o : LopInst} {x : StepArgs} {h : Handle} {limit : Nat} {used : Option Nat}

/-- The job of a tile is one of the 16 slots. -/
theorem jobOfTile_small (hj : s.jobOfTile t = some j) : j < 16 := List.mem_range.1 (List.mem_of_find?_eq_some hj)

/-- Which job holds a tile is read of the jobs. -/
theorem jobOfTile_congr {u : State} (h : u.jobs = s.jobs) : u.jobOfTile t = s.jobOfTile t := by
  unfold State.jobOfTile State.job
  rw [h]

/-! ### A refused step -/

/-- A step is refused with PARAM_MISMATCH or LEDGER_ASH (R75, R77). -/
theorem judgeStep_refusal (hr : s.judgeStep j x = .refused code handle) : code = PARAM_MISMATCH ∨ code = LEDGER_ASH := by
  unfold State.judgeStep at hr
  dsimp only at hr
  repeat' split at hr
  all_goals cases hr
  all_goals first | exact .inl rfl | exact .inr rfl

/-- The error and the handle of a refused step are recorded (R74, Table 3-8). -/
theorem noteLedgerError_shows (hj : j < 16) (hc : code = PARAM_MISMATCH ∨ code = LEDGER_ASH) :
    EventFrame s (s.noteLedgerError j code handle) ∧ (s.noteLedgerError j code handle).entry (0x2200 + j) 6 = code
      ∧ (s.noteLedgerError j code handle).entry (0x2200 + j) 7 = handle := by
  have hset : ((s.setEntry (0x2200 + j) 6 code).setEntry (0x2200 + j) 7 handle).entry (0x2200 + j) 6 = code := by
    rw [Laws.entry_setEntry_sub _ _ _ _ _ (by decide), Laws.entry_setEntry_same]
  have hkeep : ∀ (u : State) i n k, k < 256 → i < 256 → (u.bump 0x2300 i n).entry (0x2200 + j) k = u.entry (0x2200 + j) k := fun u i n k hk hi =>
    Laws.entry_setEntry_index _ _ _ _ _ _ hi hk (by omega)
  rcases hc with rfl | rfl
  · have he : s.noteLedgerError j PARAM_MISMATCH handle = ((s.setEntry (0x2200 + j) 6 PARAM_MISMATCH).setEntry (0x2200 + j) 7 handle).bump 0x2300 2 1 := rfl
    rw [he, hkeep _ _ _ _ (by decide) (by decide), hkeep _ _ _ _ (by decide) (by decide), hset]
    exact ⟨(((EventFrame.refl s).setEntry ..).setEntry ..).setEntry .., rfl, Laws.entry_setEntry_same ..⟩
  · have he : s.noteLedgerError j LEDGER_ASH handle = ((s.setEntry (0x2200 + j) 6 LEDGER_ASH).setEntry (0x2200 + j) 7 handle).bump 0x2300 4 1 := rfl
    rw [he, hkeep _ _ _ _ (by decide) (by decide), hkeep _ _ _ _ (by decide) (by decide), hset]
    exact ⟨(((EventFrame.refl s).setEntry ..).setEntry ..).setEntry .., rfl, Laws.entry_setEntry_same ..⟩

/-- A fault of a tile writes its record and ends its running job (R211). -/
theorem faultTile_ends (r : FaultRecord) (hj : s.jobOfTile t = some j) (hrun : (s.job j).state = .running) :
    Aborted (s.updTile t fun x => { x with record := r }) (s.faultTile t r) j r.code t r.bundle := by
  have he : s.faultTile t r = (s.updTile t fun x => { x with record := r }).abortJob j r.code t r.bundle := by rw [State.faultTile, hj]
  rw [he]
  exact abortJob_running _ _ _ hrun

/-- A step that is refused ends the job, with its error and handle recorded; no arithmetic starts (R74). -/
theorem ledgerStep_refuses (hj : s.jobOfTile t = some j) (hrun : (s.job j).state = .running) (hr : s.judgeStep j x = .refused code handle) :
    ∃ v, Aborted v (s.ledgerStep t j o x) j code t o.bundle ∧ v.mem = s.mem ∧ v.jobs = s.jobs ∧ v.entry (0x2200 + j) 6 = code ∧ v.entry (0x2200 + j) 7 = handle
      ∧ ∃ r, v.tile t = { s.tile t with record := r } := by
  obtain ⟨hframe, h6, h7⟩ := noteLedgerError_shows (s := s) (handle := handle) (jobOfTile_small hj) (judgeStep_refusal hr)
  have he : s.ledgerStep t j o x = (s.noteLedgerError j code handle).faultLop t code o 0 0 := by rw [State.ledgerStep, hr]
  have hj' : (s.noteLedgerError j code handle).jobOfTile t = some j := (jobOfTile_congr hframe.jobs).trans hj
  obtain ⟨r, hr, hcode, hbundle⟩ : ∃ r, (s.noteLedgerError j code handle).faultLop t code o 0 0 = (s.noteLedgerError j code handle).faultTile t r
      ∧ r.code = code ∧ r.bundle = o.bundle := ⟨_, rfl, rfl, rfl⟩
  have hend := faultTile_ends r hj' ((congrArg Job.state (hframe.job j)).trans hrun)
  rw [hcode, hbundle, ← hr, ← he] at hend
  refine ⟨_, hend, hframe.mem, hframe.jobs, h6, h7, r, ?_⟩
  rw [Laws.tile_updTile_same, hframe.tile t]

/-! ### An accepted step -/

/-- Beside entries and events only the marks of a consumed ASH of job `j` may differ. -/
structure AshFrame (s u : State) (j : Nat) : Prop where
  mem : u.mem = s.mem
  tiles : u.tiles = s.tiles
  job : ∃ p q, u.job j = { s.job j with propagated := p, trapPending := q }

theorem AshFrame.of_event {u : State} (h : EventFrame s u) : AshFrame s u j := ⟨h.mem, h.tiles, _, _, h.job j⟩

theorem AshFrame.trans {u v : State} (h : AshFrame s u j) (h' : AshFrame u v j) : AshFrame s v j := by
  obtain ⟨_, _, e⟩ := h.job
  obtain ⟨p, q, e'⟩ := h'.job
  exact ⟨h'.mem.trans h.mem, h'.tiles.trans h.tiles, p, q, by rw [e', e]⟩

theorem AshFrame.marked (p : Bool) (q : Option Nat) : AshFrame s (s.updJob j fun x => { x with propagated := p, trapPending := q }) j :=
  ⟨rfl, rfl, p, q, Laws.job_setJob_same ..⟩

theorem consumeAsh_frame (hin hout : Nat) : AshFrame s (s.consumeAsh j hin hout) j := by
  unfold State.consumeAsh
  split
  · have hb : EventFrame s (s.bump (0x2200 + j) 5 1) := (EventFrame.refl s).setEntry ..
    dsimp only
    split
    · exact .of_event hb
    · exact (AshFrame.of_event hb).trans ((AshFrame.marked true _).trans (.of_event ((EventFrame.refl _).raise ..)))
  · exact AshFrame.marked _ _

theorem noteMargin_frame (noise : Nat) : EventFrame s (s.noteMargin j limit noise) := by
  have hset : ∀ (c : Prop) [Decidable c] (v : Nat), EventFrame s (if c then s.setEntry (0x2200 + j) 9 v else s) := fun c _ v => by
    split
    · exact (EventFrame.refl s).setEntry ..
    · exact .refl s
  exact hset _ _

/-- A step that is accepted gives the output handle its new row (R74, R76, R77, R80). -/
theorem acceptStep_frame (hout : Nat) :
    AshFrame (s.updJob j fun x => { x with handles := x.handles.set hout h }) (s.acceptStep j hout h limit used) j := by
  have hm := noteMargin_frame (s := s.updJob j fun x => { x with handles := x.handles.set hout h }) (j := j) (limit := limit) h.noise
  unfold State.acceptStep
  dsimp only
  generalize State.noteMargin _ j limit h.noise = u at hm ⊢
  have hash : EventFrame (s.updJob j fun x => { x with handles := x.handles.set hout h })
      (if h.ash = true then (u.bump (0x2200 + j) 4 1).bump 0x2300 1 1 else u) := by
    split
    · exact (hm.setEntry ..).setEntry ..
    · exact hm
  split
  · exact (AshFrame.of_event hash).trans (consumeAsh_frame ..)
  · exact .of_event hash

/-- What the job and the tiles show of an accepted step. -/
theorem ledgerStep_accepts (hr : s.judgeStep j x = .ok h limit used) :
    (s.ledgerStep t j o x).mem = s.mem ∧ (s.ledgerStep t j o x).tiles = s.tiles ∧ ((s.ledgerStep t j o x).job j).state = (s.job j).state
      ∧ ((s.ledgerStep t j o x).job j).handles = (s.job j).handles.set x.hout h := by
  have he : s.ledgerStep t j o x = s.acceptStep j x.hout h limit used := by rw [State.ledgerStep, hr]
  obtain ⟨hmem, htiles, _, _, hjob⟩ := acceptStep_frame (s := s) (j := j) (h := h) (limit := limit) (used := used) x.hout
  rw [State.updJob, Laws.job_setJob_same] at hjob
  rw [he, hjob]
  exact ⟨hmem, htiles, rfl, rfl⟩

/-! ### LOP bundles of the lead tile -/

theorem settledMisses_positions (hopen : Safety.bundleOpen s t) : (settledMisses s t).positionsValid t j o = s.positionsValid t j o := by
  have ht := settledMisses_tile hopen
  have htag : ∀ r, (settledMisses s t).tag t r = s.tag t r := fun r => by rw [State.tag, ht]; rfl
  have hrow : ∀ r, (settledMisses s t).rowData t r = s.rowData t r := rowData_congr (by rw [ht]) (by rw [ht])
  have hat : (settledMisses s t).rowsAt t o.rgnB = s.rowsAt t o.rgnB := by
    rw [State.rowsAt, State.rowsAt]
    exact List.map_congr_left fun r _ => hrow r
  unfold State.positionsValid
  rw [hat]
  simp only [htag]
  rfl

/-- A tile that leads acts on its ledger step in a state that holds the same jobs, memory, rows and queue as before the bundle. -/
structure ActsIn (s b : State) (t : Nat) : Prop where
  mem : b.mem = s.mem
  jobs : b.jobs = s.jobs
  queue : (b.tile t).queue = (s.tile t).queue
  rows : (b.tile t).rows = (s.tile t).rows
  tags : (b.tile t).tags = (s.tile t).tags
  sched : (b.tile t).sched = (s.tile t).sched

theorem ActsIn.settled (hopen : Safety.bundleOpen s t) : ActsIn s (settledMisses s t) t := by
  have ht := settledMisses_tile hopen
  exact ⟨rfl, rfl, by rw [ht], by rw [ht], by rw [ht], by rw [ht]⟩

theorem ActsIn.numbered {b : State} (hb : ActsIn s b t) : ActsIn s (b.updTile t fun x => { x with nextOp := x.nextOp + 1 }) t := by
  obtain ⟨h1, h2, h3, h4, h5, h6⟩ := hb
  exact ⟨h1, h2, by rw [Laws.tile_updTile_same]; exact h3, by rw [Laws.tile_updTile_same]; exact h4, by rw [Laws.tile_updTile_same]; exact h5,
    by rw [Laws.tile_updTile_same]; exact h6⟩

/-- A LOP bundle whose step is refused (R74). -/
theorem stepRefused_of {i : Instr} {b : State} (hb : ActsIn s b t) (hi : exec i s = .next ((b.ledgerStep t j o x).advance t))
    (hj : s.jobOfTile t = some j) (hrun : (s.job j).state = .running) (hr : b.judgeStep j x = .refused code handle) :
    Safety.stepRefused i s t j code handle := by
  have hjob : ∀ k, b.job k = s.job k := fun k => by rw [State.job, hb.jobs]; rfl
  obtain ⟨v, hab, hmem, hjobs, h6, h7, r, htile⟩ := ledgerStep_refuses (o := o) ((jobOfTile_congr hb.jobs).trans hj) (by rw [hjob]; exact hrun) hr
  obtain ⟨hstate, hdrain, hcode, habtile, -, hhandles⟩ := hab.ended
  obtain ⟨_, _, hkeep⟩ := hab.tiles t
  rw [htile] at hkeep
  generalize b.ledgerStep t j o x = u at *
  obtain ⟨_, _, _, he⟩ := advance_tile (s := u) (t := t)
  have hj16 := jobOfTile_small hj
  refine ⟨_, hi, hstate, hdrain, hcode, habtile, (hab.entries _ _ (by omega) (by decide)).trans h6, (hab.entries _ _ (by omega) (by decide)).trans h7,
    hhandles.trans (by rw [State.job, hjobs]; exact congrArg Job.handles (hjob j)), ?_⟩
  rw [he]
  have hq : (u.tile t).queue = (s.tile t).queue := by rw [hkeep]; exact hb.queue
  have hrows : (u.tile t).rows = (s.tile t).rows := by rw [hkeep]; exact hb.rows
  have htags : (u.tile t).tags = (s.tile t).tags := by rw [hkeep]; exact hb.tags
  exact ⟨hq, hrows, htags, hab.mem.trans (hmem.trans hb.mem)⟩

/-- The lead tile's group operation, its step taken in a running job: it waits in its queue, and its instances may pass (R218, R219). -/
theorem enqueueGroup_leads {b : State} {step : Option StepArgs} {hin : Nat} (hlead : t = (b.job j).lead) {u : State}
    (hu : (match step with | some x => b.ledgerStep t j o x | none => b) = u) (hrun : (u.job j).state = .running) :
    ∃ level comps, b.enqueueGroup t j o step hin id = (u.passStep j o.ordinal level comps).enqueueLop t o := by
  subst hu
  exact ⟨_, _, (if_pos hlead).trans (if_pos hrun)⟩

/-- One whose step is refused does not wait there (R74). -/
theorem enqueueGroup_refused {b : State} {hin : Nat} {after : State → State} (hlead : t = (b.job j).lead)
    (hrun : ((b.ledgerStep t j o x).job j).state ≠ .running) : b.enqueueGroup t j o (some x) hin after = b.ledgerStep t j o x :=
  (if_pos hlead).trans (if_neg hrun)

/-- What the tile and the job show of an operation that waits with its step passed. -/
theorem passed_waits {i : Instr} {u : State} {level comps : Nat} (hi : exec i s = .next (((u.passStep j o.ordinal level comps).enqueueLop t o).advance t))
    (hmem : u.mem = s.mem) (hq : (u.tile t).queue = (s.tile t).queue) :
    ∃ s2, exec i s = .next s2 ∧ (s2.job j).handles = (u.job j).handles ∧ (s2.tile t).queue = (s.tile t).queue ++ [o]
      ∧ ((s2.job j).groupSteps.any fun p => p.1 = o.ordinal) = true ∧ s2.mem = s.mem := by
  obtain ⟨_, _, _, he⟩ := advance_tile (s := (u.passStep j o.ordinal level comps).enqueueLop t o) (t := t)
  have hj : (((u.passStep j o.ordinal level comps).enqueueLop t o).advance t).job j
      = { u.job j with groupSteps := (u.job j).groupSteps ++ [(o.ordinal, level, comps)] } := Laws.job_setJob_same ..
  refine ⟨_, hi, by rw [hj], ?_, by rw [hj]; simp, hmem⟩
  rw [he, State.enqueueLop, Laws.tile_updTile_same]
  exact congrArg (· ++ [o]) hq

/-- A group operation of the lead tile whose step is accepted (R74, R218, R219). -/
theorem group_accepts {i : Instr} {hin : Nat} (hr : Safety.lopReady s t index sa j im op o) (hlead : t = (s.job j).lead)
    (hi : exec i s = .next (((settledMisses s t).enqueueGroup t j o (some x) hin id).advance t)) (hok : s.judgeStep j x = .ok h limit used) :
    ∃ s2, exec i s = .next s2 ∧ (s2.job j).handles = (s.job j).handles.set x.hout h
      ∧ (s2.tile t).queue = (s.tile t).queue ++ [o] ∧ ((s2.job j).groupSteps.any fun p => p.1 = o.ordinal) = true ∧ s2.mem = s.mem := by
  obtain ⟨hopen, hj, -⟩ := hr
  obtain ⟨hmem, htiles, hstate, hhandles⟩ := ledgerStep_accepts (s := settledMisses s t) (t := t) (o := o) (show (settledMisses s t).judgeStep j x = _ from hok)
  obtain ⟨level, comps, he⟩ := enqueueGroup_leads (b := settledMisses s t) (o := o) (step := some x) (hin := hin) hlead rfl
    (hstate.trans (mayIssue_running (s := s) hopen.2.1 hj))
  rw [he] at hi
  have hq : (((settledMisses s t).ledgerStep t j o x).tile t).queue = (s.tile t).queue := by
    rw [State.tile, htiles]
    exact congrArg Tile.queue (settledMisses_tile hopen)
  obtain ⟨s2, hx, hh, hrest⟩ := passed_waits hi hmem hq
  exact ⟨s2, hx, hh.trans hhandles, hrest⟩

/-- One whose step is refused (R74). -/
theorem group_refused {i : Instr} {hin : Nat} {after : State → State} (hr : Safety.lopReady s t index sa j im op o) (hlead : t = (s.job j).lead)
    (hi : exec i s = .next (((settledMisses s t).enqueueGroup t j o (some x) hin after).advance t)) (hno : s.judgeStep j x = .refused code handle) :
    Safety.stepRefused i s t j code handle := by
  obtain ⟨hopen, hj, -⟩ := hr
  have hno' : (settledMisses s t).judgeStep j x = .refused code handle := hno
  have hrun := mayIssue_running hopen.2.1 hj
  obtain ⟨v, hab, -⟩ := ledgerStep_refuses (o := o) (show (settledMisses s t).jobOfTile t = some j from hj) hrun hno'
  rw [enqueueGroup_refused (b := settledMisses s t) hlead (by rw [hab.ended.1]; decide)] at hi
  exact stepRefused_of (.settled hopen) hi hj hrun hno'

/-- MODDOWN has no step of its own (R105, R218). -/
theorem moddown_passes (hr : Safety.lopReady s t index sa j im op o) (hlead : t = (s.job j).lead) (hc : op.code = lopModdown) :
    ∃ s2, exec (.moddown t index sa) s = .next s2 ∧ (s2.tile t).queue = (s.tile t).queue ++ [o]
      ∧ ((s2.job j).groupSteps.any fun p => p.1 = o.ordinal) = true ∧ (s2.job j).handles = (s.job j).handles ∧ s2.mem = s.mem := by
  have hi : exec (.moddown t index sa) s = .next _ := (show exec (.moddown t index sa) s = execModdown t index sa s from rfl).trans
    ((Laws.onTile_next hr.1.1).trans (congrArg Host.Outcome.next (issueLop_issues hr hc _)))
  obtain ⟨hopen, hj, -⟩ := hr
  obtain ⟨level, comps, he⟩ := enqueueGroup_leads (b := settledMisses s t) (o := o) (step := none) (hin := o.op.hout) hlead rfl
    (mayIssue_running (s := s) hopen.2.1 hj)
  rw [he] at hi
  obtain ⟨s2, hx, hh, hq, hg, hm⟩ := passed_waits hi rfl (by rw [settledMisses_tile hopen])
  exact ⟨s2, hx, hq, hg, hh, hm⟩

/-- What a LEDGER of the right code does as its bundle issues: its number is taken and its step evaluated (R222). -/
theorem ledger_acts (hr : Safety.lopReady s t index sa j im op o) (hc : op.code = lopLedger) :
    exec (.ledger t index sa) s
      = .next ((((settledMisses s t).updTile t fun x => { x with nextOp := x.nextOp + 1 }).ledgerStep t j o (explicitStep o)).advance t) :=
  (show exec (.ledger t index sa) s = execLedger t index sa s from rfl).trans
    ((Laws.onTile_next hr.1.1).trans (congrArg Host.Outcome.next (issueLop_issues hr hc _)))

theorem ledger_accepts (hr : Safety.lopReady s t index sa j im op o) (hc : op.code = lopLedger) (hok : s.judgeStep j (explicitStep o) = .ok h limit used) :
    ∃ s2, exec (.ledger t index sa) s = .next s2 ∧ (s2.job j).handles = (s.job j).handles.set o.op.hout h
      ∧ (s2.tile t).queue = (s.tile t).queue ∧ (s2.tile t).nextOp = (s.tile t).nextOp + 1 ∧ (s2.tile t).sched = (s.tile t).sched + 1 ∧ s2.mem = s.mem := by
  have hi := ledger_acts hr hc
  obtain ⟨hopen, hj, -⟩ := hr
  obtain ⟨b, hb⟩ : ∃ b, b = (settledMisses s t).updTile t fun x => { x with nextOp := x.nextOp + 1 } := ⟨_, rfl⟩
  have hok' : b.judgeStep j (explicitStep o) = .ok h limit used := by rw [hb]; exact hok
  have hbt : b.tile t = { s.tile t with nextOp := (s.tile t).nextOp + 1 } := by rw [hb, Laws.tile_updTile_same, settledMisses_tile hopen]
  obtain ⟨hmem, htiles, -, hhandles⟩ := ledgerStep_accepts (t := t) (o := o) hok'
  rw [← hb] at hi
  have ht : (b.ledgerStep t j o (explicitStep o)).tile t = { s.tile t with nextOp := (s.tile t).nextOp + 1 } := by rw [State.tile, htiles]; exact hbt
  generalize b.ledgerStep t j o (explicitStep o) = u at *
  obtain ⟨_, _, _, he⟩ := advance_tile (s := u) (t := t)
  rw [ht] at he
  refine ⟨_, hi, hhandles.trans (by rw [hb]; rfl), ?_⟩
  rw [he]
  exact ⟨rfl, rfl, rfl, hmem.trans (by rw [hb]; rfl)⟩

theorem ledger_refused (hr : Safety.lopReady s t index sa j im op o) (hc : op.code = lopLedger)
    (hno : s.judgeStep j (explicitStep o) = .refused code handle) : Safety.stepRefused (.ledger t index sa) s t j code handle := by
  have hi := ledger_acts hr hc
  obtain ⟨hopen, hj, -⟩ := hr
  exact stepRefused_of (ActsIn.settled hopen).numbered hi hj (mayIssue_running hopen.2.1 hj) hno

/-- Settles O30: the step is judged in the state before the bundle; accepted it gives the output handle its row, refused it ends the job. -/
theorem leadTileSteps : Obligations.LeadTileSteps := by
  unfold Obligations.LeadTileSteps
  intro s t index sa j im op o hr
  have hop : o.op = op := by rw [hr.2.2.2.2.1]; rfl
  have hx : ∀ {i : Instr} {code : Nat} {act : Nat → Image → LopInst → State → State}, op.code = code →
      exec i s = onTile t s (fun s => s.issueLop t index sa code act) → exec i s = .next ((act j im o (settledMisses s t)).advance t) := fun hc hi =>
    hi.trans ((Laws.onTile_next hr.1.1).trans (congrArg Host.Outcome.next (issueLop_issues hr hc _)))
  refine ⟨fun hc h limit used hok => hop ▸ ledger_accepts hr hc hok, fun hc code handle hno => ledger_refused hr hc hno, fun hlead => ⟨?_, ?_, ?_, ?_⟩⟩
  · exact fun hc h limit used hok => hop ▸ group_accepts hr hlead
      (hx (act := fun j _im o s => s.enqueueGroup t j o (some (rescaleStep o)) o.op.hina id) hc rfl) hok
  · exact fun hc h limit used hok => hop ▸ group_accepts hr hlead
      (hx (act := fun j _im o s => s.enqueueGroup t j o (some (modraiseStep o)) o.op.hina id) hc rfl) hok
  · exact fun hc => moddown_passes hr hlead hc
  · refine fun code handle => ⟨
      fun hc hno => group_refused hr hlead
        (hx (act := fun j _im o s => s.enqueueGroup t j o (some (rescaleStep o)) o.op.hina id) hc rfl) hno,
      fun hc hno => group_refused hr hlead
        (hx (act := fun j im o s => s.enqueueGroup t j o (some (ksipStep im o)) o.op.hina fun s => s.residentCheck j im o) hc rfl) hno,
      fun hc hno => group_refused hr hlead
        (hx (act := fun j im o s => s.enqueueGroup t j o (some (extractStep o (s.positionsValid t j o))) o.op.hina fun s => s.residentCheck j im o)
          hc rfl) ?_,
      fun hc hno => group_refused hr hlead
        (hx (act := fun j im o s => s.enqueueGroup t j o (some (packStep im o)) o.op.hina fun s => s.residentCheck j im o) hc rfl) hno,
      fun hc hno => group_refused hr hlead
        (hx (act := fun j _im o s => s.enqueueGroup t j o (some (modraiseStep o)) o.op.hina id) hc rfl) hno⟩
    rw [settledMisses_positions hr.1]
    exact hno

end Sys2Proof.Proofs
end

section
/-! PROOFS. Dispatch reads its operation back by its number: where two operations share one, the wrong one is served (R222). -/

namespace Sys2Proof.Proofs

open Sys2Proof.Machine

/-- A TRANSPOSE that waits. -/
def waitingTranspose : LopInst := { id := 0, index := 0, op := { (default : LongOp) with code := lopTranspose }, sa := 0 }

/-- A transfer from a node that nothing leads to, running under the same number. -/
def strandedTransfer : LopInst := { id := 0, index := 0, op := { (default : LongOp) with code := lopXferIn, a64 := 5 * 2 ^ 48 }, sa := 0 }

/-- Tile 0 of a running job, with the TRANSPOSE in its queue and the transfer running. -/
def sharedNumber : State :=
  (State.reset.setJob 0 { State.reset.job 0 with state := .running, group := [0], image := some default }).setTile 0
    { State.reset.tile 0 with queue := [waitingTranspose], running := [strandedTransfer] }

/-- The dispatch of the TRANSPOSE sends the reads of the operation with its number: the transfer fails, and the job ends. -/
theorem sharedNumber_ends :
    (match exec (.longOpDispatch 0 .exchange) sharedNumber with | .next u => (u.job 0).state | _ => .ready) = .draining := by
  decide

/-- Refutes O31: where a running operation has the number of the one that dispatches, the dispatch can end the job; the statement keeps every job. -/
theorem not_longOpsRun : ¬ Obligations.LongOpsRun := by
  unfold Obligations.LongOpsRun
  rintro ⟨hdispatch, -⟩
  obtain ⟨s2, hx, -, -, -, -, -, hjobs, -⟩ := hdispatch sharedNumber 0 0 .exchange default waitingTranspose _ (by decide) (by decide) (by decide) (by decide)
    (by decide) (by decide) rfl (fun h => absurd h (by decide))
  have hstate := sharedNumber_ends
  rw [hx] at hstate
  have hjob : s2.job 0 = sharedNumber.job 0 := by rw [State.job, hjobs]; rfl
  dsimp only at hstate
  rw [hjob] at hstate
  exact absurd hstate (by decide)

end Sys2Proof.Proofs
end

section
/-! PROOFS. What engines read as rows turn FULL leaves of a tile; TRANSPOSE (R143, R181, R222, R227, R228). -/

namespace Sys2Proof.Proofs

open Sys2Proof.Machine

/-- What identifies a running operation and how far it has come, beside what it has taken. -/
def progressOf (o : LopInst) : Nat × LongOp × Nat × Bool := (o.id, o.op, o.rowsDone, o.sent)

/-- Of the state only tile `t` differs, and of it only its tags, its scoreboard and what its running operations have taken. -/
structure Fed (t : Nat) (s u : State) : Prop where
  shape : ∃ tl, u = { s with tiles := tl }
  others : ∀ k, k ≠ t → u.tile k = s.tile k
  tile : ∃ r g c b, u.tile t = { s.tile t with running := r, tags := g, coverage := c, scoreboard := b }
  progress : (u.tile t).running.map progressOf = (s.tile t).running.map progressOf
  scoreboard : ∀ b ∈ (s.tile t).scoreboard, b.mode ≠ .read → b ∈ (u.tile t).scoreboard
  fewer : ∀ b ∈ (u.tile t).scoreboard, b ∈ (s.tile t).scoreboard

namespace Fed

variable {s u v : State} {t : Nat}

theorem refl (s : State) : Fed t s s := ⟨⟨_, rfl⟩, fun _ _ => rfl, ⟨_, _, _, _, rfl⟩, rfl, fun _ h _ => h, fun _ h => h⟩

theorem trans (h : Fed t s u) (h' : Fed t u v) : Fed t s v where
  shape := by
    obtain ⟨_, rfl⟩ := h.shape
    obtain ⟨_, rfl⟩ := h'.shape
    exact ⟨_, rfl⟩
  others k hk := (h'.others k hk).trans (h.others k hk)
  tile := by
    obtain ⟨_, _, _, _, e⟩ := h.tile
    obtain ⟨r, g, c, b, e'⟩ := h'.tile
    exact ⟨r, g, c, b, by rw [e', e]⟩
  progress := h'.progress.trans h.progress
  scoreboard b hb hm := h'.scoreboard b (h.scoreboard b hb hm) hm
  fewer b hb := h.fewer b (h'.fewer b hb)

/-- A tag set. -/
theorem setTag (h : Fed t s u) (r : Nat) (g : Tag) : Fed t s (u.setTag t r g) := by
  have e : (u.setTag t r g).tile t = { u.tile t with tags := Tab.put (u.tile t).tags r g, coverage := Tab.erase (u.tile t).coverage r } :=
    Laws.tile_updTile_same _
  exact h.trans ⟨⟨_, rfl⟩, fun k hk => Laws.tile_updTile_ne _ hk, ⟨_, _, _, _, e⟩, by rw [e], fun b hb _ => by rw [e]; exact hb,
    fun b hb => by rw [e] at hb; exact hb⟩

/-- A running operation changed, but for its number, what it is and how far it has come. -/
theorem updOp (h : Fed t s u) (id : Nat) {f : LopInst → LopInst} (hf : ∀ o, progressOf (f o) = progressOf o) :
    Fed t s (u.updTile t fun y => y.updOp id f) := by
  have e : (u.updTile t fun y => y.updOp id f).tile t = { u.tile t with running := (u.tile t).running.map fun o => if o.id = id then f o else o } :=
    Laws.tile_updTile_same _
  refine h.trans ⟨⟨_, rfl⟩, fun k hk => Laws.tile_updTile_ne _ hk, ⟨_, _, _, _, e⟩, ?_, fun b hb _ => by rw [e]; exact hb,
    fun b hb => by rw [e] at hb; exact hb⟩
  rw [e, List.map_map]
  refine List.map_congr_left fun o _ => ?_
  show progressOf (if o.id = id then f o else o) = progressOf o
  split
  · exact hf o
  · rfl

theorem foldl {α : Type} {f : State → α → State} (hf : ∀ u x, Fed t u (f u x)) (l : List α) : ∀ {u}, Fed t s u → Fed t s (l.foldl f u) := by
  induction l with
  | nil => exact fun h => h
  | cons x l ih => exact fun h => ih (h.trans (hf _ x))

theorem readGroup (h : Fed t s u) (id : Nat) (consumed : Bool) (rows : List Nat) : Fed t s (u.readGroup t id consumed rows) := by
  unfold State.readGroup
  dsimp only
  have hop := h.updOp id (f := fun o => { o with taken := o.taken ++ rows.map fun r => u.rowData t r, groupsRead := o.groupsRead + 1, waitAt := u.now })
    (fun _ => rfl)
  split
  · exact foldl (fun u r => (refl u).setTag r .empty) rows hop
  · exact hop

theorem readGroups (gs : List (SourceRegion × List Nat)) (o : LopInst) : ∀ {u}, Fed t s u → Fed t s (u.readGroups t o gs) := by
  induction gs with
  | nil => exact fun h => h
  | cons g gs ih =>
    intro u h
    unfold State.readGroups
    split
    · exact ih (h.readGroup ..)
    · exact h

/-- The READ entries of regions read are released (R224). -/
theorem releaseReads (h : Fed t s u) (o : LopInst) (left : List SourceRegion) : Fed t s (u.updTile t fun x => x.releaseReads o left) := by
  have e : (u.updTile t fun x => x.releaseReads o left).tile t = (u.tile t).releaseReads o left := Laws.tile_updTile_same _
  refine h.trans ⟨⟨_, rfl⟩, fun k hk => Laws.tile_updTile_ne _ hk, ⟨_, _, _, _, e⟩, by rw [e]; rfl, fun b hb hm => ?_, fun b hb => ?_⟩
  · rw [e]
    exact List.mem_filter.2 ⟨hb, by simp [hm]⟩
  · rw [e] at hb
    exact (List.mem_filter.1 hb).1

theorem readSources (h : Fed t s u) (j : Nat) (o : LopInst) : Fed t s (u.readSources t j o) := by
  unfold State.readSources
  dsimp only
  have hg := readGroups (u.unread t j o) o h
  split
  · exact hg
  · exact hg.releaseReads ..

theorem readEngines (h : Fed t s u) : Fed t s (u.readEngines t) := by
  unfold State.readEngines
  split
  · exact h
  · split
    · exact foldl (fun u o => (refl u).readSources _ o) _ h
    · exact h

theorem feed (entry : Nat) (e : StreamEntry) (fuel : Nat) : ∀ {u}, Fed t s u → Fed t s (u.feed t entry e fuel) := by
  induction fuel with
  | zero => exact fun h => h
  | succ fuel ih =>
    intro u h
    unfold State.feed
    split
    · exact h
    next o _ =>
      dsimp only
      generalize (if o.firstKey entry = true then o.keyRows else o.keyRows2) = taken
      split
      · exact h
      · refine ih ?_
        split
        · exact h.updOp o.id (fun _ => by split <;> rfl)
        · exact (h.updOp o.id (fun _ => by split <;> rfl)).setTag ..

theorem feedTile (h : Fed t s u) : Fed t s (u.feedTile t) := by
  unfold State.feedTile
  dsimp only
  split
  · exact h.readEngines
  · exact foldl (fun u _ => feed _ _ _ (refl u)) _ h.readEngines

end Fed

variable {s : State} {t : Nat}

theorem Fed.rowData {u : State} (h : Fed t s u) (r : Nat) : u.rowData t r = s.rowData t r := by
  obtain ⟨_, _, _, _, e⟩ := h.tile
  exact rowData_congr (by rw [e]) (by rw [e]) r

theorem Fed.numbers {u : State} (h : Fed t s u) : (u.tile t).running.map (fun o => o.id) = (s.tile t).running.map fun o => o.id := by
  simpa [progressOf, Function.comp_def] using congrArg (List.map fun k => k.1) h.progress

theorem Fed.ops {u : State} (h : Fed t s u) : (u.tile t).running.map (fun o => o.op) = (s.tile t).running.map fun o => o.op := by
  simpa [progressOf, Function.comp_def] using congrArg (List.map fun k => k.2.1) h.progress

/-- How far a running operation has come. -/
theorem Fed.runningOp {u : State} (h : Fed t s u) (id : Nat) : ((u.tile t).runningOp id).map progressOf = ((s.tile t).runningOp id).map progressOf := by
  have hfind : ∀ x : Tile, (x.runningOp id).map progressOf = (x.running.map progressOf).find? fun k => k.1 = id := fun x => by
    rw [List.find?_map]
    rfl
  rw [hfind, hfind, h.progress]

/-- Whether an operation runs is read of the running operations' numbers. -/
theorem runningOp_none {x : Tile} {id : Nat} : x.runningOp id = none ↔ id ∉ x.running.map fun o => o.id := by
  simp [Tile.runningOp, List.find?_eq_none]

/-- An operation that no longer runs stays so. -/
theorem Fed.notRunning {u : State} (h : Fed t s u) {id : Nat} (hn : (s.tile t).runningOp id = none) : (u.tile t).runningOp id = none := by
  rw [runningOp_none, h.numbers]
  exact runningOp_none.1 hn

/-! ### TRANSPOSE reads its rows -/

/-- The first `m` groups of 32 of `k` rows are its first rows. -/
theorem chunked_rows (a k m : Nat) : (List.range m).flatMap (fun i => (List.range (min 32 (k - i * 32))).map fun y => a + i * 32 + y)
    = (List.range (min k (m * 32))).map fun i => a + i := by
  induction m with
  | zero => simp
  | succ m ih =>
    have hsplit : min k ((m + 1) * 32) = min k (m * 32) + min 32 (k - m * 32) := by omega
    rw [List.range_succ, List.flatMap_append, ih, hsplit, List.range_add, List.map_append, List.flatMap_singleton, List.map_map]
    congr 1
    refine List.map_congr_left fun y hy => ?_
    have := List.mem_range.1 hy
    show a + m * 32 + y = a + (min k (m * 32) + y)
    omega

/-- The rows of the groups of 32 that a region is read in are the region's rows. -/
theorem rowGroups_rows (g : SourceRegion) (r : Nat × Nat) :
    (rowGroups g r r.2 32).flatMap (fun g => g.2) = (List.range r.2).map fun i => r.1 + i := by
  have hmin : min r.2 (ceilDiv r.2 32 * 32) = r.2 := by unfold ceilDiv; omega
  have hchunk := chunked_rows r.1 r.2 (ceilDiv r.2 32)
  rw [hmin] at hchunk
  rw [← hchunk]
  simp only [rowGroups, Nat.min_self, List.flatMap_map, show max 1 32 = 32 from rfl]

/-- A tile on which one operation alone runs. -/
def RunsAlone (s : State) (t : Nat) (o : LopInst) (taken : List Row) : Prop :=
  ∃ p, (s.tile t).running = [p] ∧ p.id = o.id ∧ p.op = o.op ∧ p.taken = taken

/-- Rows that turn EMPTY change no other field of the tile, and no other tag. -/
theorem emptied_tile (rows : List Nat) : ∀ s : State, (∃ g c, (rows.foldl (fun s r => s.setTag t r .empty) s).tile t = { s.tile t with tags := g, coverage := c })
    ∧ ∀ r, r ∉ rows → (rows.foldl (fun s r => s.setTag t r .empty) s).tag t r = s.tag t r := by
  induction rows with
  | nil => exact fun s => ⟨⟨_, _, rfl⟩, fun _ _ => rfl⟩
  | cons k rows ih =>
    intro s
    have hk : (s.setTag t k .empty).tile t = { s.tile t with tags := Tab.put (s.tile t).tags k .empty, coverage := Tab.erase (s.tile t).coverage k } :=
      Laws.tile_updTile_same _
    obtain ⟨⟨g, c, e⟩, htags⟩ := ih (s.setTag t k .empty)
    refine ⟨⟨g, c, by rw [List.foldl_cons, e, hk]⟩, fun r hr => ?_⟩
    obtain ⟨hne, hr⟩ := not_or.1 (fun h => hr (List.mem_cons.2 h))
    rw [List.foldl_cons, htags r hr, State.tag, hk]
    exact Laws.tab_get_put_ne _ _ _ hne

/-- One group read: its rows are taken as they stand, and no tag outside it changes (R227). -/
theorem readGroup_takes {o : LopInst} {taken : List Row} (h : RunsAlone s t o taken) (consumed : Bool) (rows : List Nat) :
    RunsAlone (s.readGroup t o.id consumed rows) t o (taken ++ rows.map fun r => s.rowData t r)
      ∧ ∀ r, r ∉ rows → (s.readGroup t o.id consumed rows).tag t r = s.tag t r := by
  obtain ⟨p, hp, hid, hop, htaken⟩ := h
  obtain ⟨u, hu⟩ : ∃ u, u = s.updTile t fun y => y.updOp o.id fun o =>
      { o with taken := o.taken ++ rows.map fun r => s.rowData t r, groupsRead := o.groupsRead + 1, waitAt := s.now } := ⟨_, rfl⟩
  have hut : u.tile t = (s.tile t).updOp o.id fun o =>
      { o with taken := o.taken ++ rows.map fun r => s.rowData t r, groupsRead := o.groupsRead + 1, waitAt := s.now } := by
    rw [hu, Laws.tile_updTile_same]
  have hrun : RunsAlone u t o (taken ++ rows.map fun r => s.rowData t r) := by
    refine ⟨{ p with taken := p.taken ++ rows.map fun r => s.rowData t r, groupsRead := p.groupsRead + 1, waitAt := s.now }, ?_, hid, hop, by rw [htaken]⟩
    rw [hut, Tile.updOp, hp]
    simp [hid]
  have htag : ∀ r, u.tag t r = s.tag t r := fun r => by rw [State.tag, hut]; rfl
  have he : s.readGroup t o.id consumed rows = if consumed then rows.foldl (fun s r => s.setTag t r .empty) u else u := by rw [hu]; rfl
  rw [he]
  split
  · obtain ⟨⟨g, c, e⟩, htags⟩ := emptied_tile (t := t) rows u
    obtain ⟨q, hq⟩ := hrun
    exact ⟨⟨q, by rw [e]; exact hq⟩, fun r hr => (htags r hr).trans (htag r)⟩
  · exact ⟨hrun, fun r _ => htag r⟩

/-- Groups whose rows are all FULL, no row twice, are all read, and their rows taken as they stand (R228). -/
theorem readGroups_takes (o : LopInst) (gs : List (SourceRegion × List Nat)) : ∀ {s : State} {taken : List Row}, RunsAlone s t o taken →
    (gs.flatMap fun g => g.2).Nodup → (∀ r ∈ gs.flatMap (fun g => g.2), s.tag t r = .full) →
    RunsAlone (s.readGroups t o gs) t o (taken ++ (gs.flatMap fun g => g.2).map fun r => s.rowData t r) := by
  induction gs with
  | nil => intro s taken h _ _; simpa [State.readGroups] using h
  | cons g gs ih =>
    intro s taken h hnd hfull
    rw [List.flatMap_cons] at hnd hfull ⊢
    obtain ⟨-, hnd', hdisj⟩ := List.nodup_append.1 hnd
    have hall : g.2.all (fun r => s.tag t r = .full) = true :=
      List.all_eq_true.2 fun r hr => decide_eq_true (hfull r (List.mem_append_left _ hr))
    obtain ⟨hrun, htags⟩ := readGroup_takes h (o.consumes g.1) g.2
    have hrow : ∀ r, (s.readGroup t o.id (o.consumes g.1) g.2).rowData t r = s.rowData t r := ((Fed.refl s).readGroup ..).rowData
    have hrest := ih hrun hnd' fun r hr => by
      rw [htags r fun hg => hdisj r hg r hr rfl]
      exact hfull r (List.mem_append_right _ hr)
    rw [State.readGroups, if_pos hall, List.map_append, ← List.append_assoc]
    simpa only [hrow] using hrest

end Sys2Proof.Proofs
end

section
/-! PROOFS. TRANSPOSE: its rows as they stand at dispatch, and its result rows (R143, R222, R228). -/

namespace Sys2Proof.Proofs

open Sys2Proof.Machine

variable {s : State} {t j : Nat} {im : Image} {o : LopInst}

/-- A TRANSPOSE reads its region in groups of 32 rows (R228). -/
theorem sourceGroups_transpose (hc : o.op.code = lopTranspose) : s.sourceGroups t j o = rowGroups .a o.rgnA o.rgnA.2 32 := by
  have hmem : lopTranspose ∈ [lopTranspose, lopXferIn, lopXferOut, lopSignalCode, lopFenceCode] := by decide
  simp only [State.sourceGroups, State.runShape, hc, if_pos hmem, Option.map_some, if_true]

/-- A TRANSPOSE consumes no key. -/
theorem keyEntries_transpose (hc : o.op.code = lopTranspose) : o.op.keyEntries = [] := by
  rw [LongOp.keyEntries, hc]
  rfl

/-- Streams feed no operation that consumes no key. -/
theorem feed_idle {entry fuel : Nat} {e : StreamEntry} (h : ∀ p ∈ (s.tile t).running, p.op.keyEntries = []) : s.feed t entry e fuel = s := by
  have hn : (s.tile t).consumerOf entry = none := List.find?_eq_none.2 fun p hp => by simp [h p hp]
  cases fuel with
  | zero => rfl
  | succ fuel => rw [State.feed, hn]

/-- A tile whose one running operation consumes no key: it reads its source rows, and no stream feeds it. -/
theorem feedTile_alone {p : LopInst} (hp : (s.tile t).running = [p]) (hk : p.op.keyEntries = []) (hj : s.jobOfTile t = some j)
    (hrun : (s.job j).state = .running) : s.feedTile t = s.readSources t j p := by
  have he : s.readEngines t = s.readSources t j p := by
    unfold State.readEngines
    rw [hj]
    dsimp only
    rw [if_pos hrun, hp, List.foldl_cons, List.foldl_nil]
  have hops := ((Fed.refl s).readSources (t := t) j p).ops
  rw [hp] at hops
  have hidle : ∀ q ∈ ((s.readSources t j p).tile t).running, q.op.keyEntries = [] := fun q hq => by
    have hmem := List.mem_map_of_mem (f := fun o : LopInst => o.op) hq
    rw [hops] at hmem
    rw [List.mem_singleton.1 hmem, hk]
  unfold State.feedTile
  dsimp only
  rw [he]
  generalize s.readSources t j p = u at hidle
  split
  · rfl
  next im _ =>
    generalize List.range im.streams.length = l
    induction l with
    | nil => rfl
    | cons i l ih => rw [List.foldl_cons, feed_idle hidle]; exact ih

/-- A TRANSPOSE that runs alone over FULL rows reads them all as they stand (R228). -/
theorem readSources_transpose {p : LopInst} (hp : (s.tile t).running = [p]) (hc : p.op.code = lopTranspose) (hg : p.groupsRead = 0) (ht : p.taken = [])
    (hfull : ∀ i, i < p.rgnA.2 → s.tag t (p.rgnA.1 + i) = .full) :
    (((s.readSources t j p).tile t).runningOp p.id).map (fun o => o.taken) = some ((List.range p.rgnA.2).map fun i => s.rowData t (p.rgnA.1 + i)) := by
  have hrows := rowGroups_rows .a p.rgnA
  have hun : s.unread t j p = rowGroups .a p.rgnA p.rgnA.2 32 := by rw [State.unread, sourceGroups_transpose hc, hg, List.drop_zero]
  have hnd : ((List.range p.rgnA.2).map fun i => p.rgnA.1 + i).Nodup := List.Nodup.map (fun a b h => Nat.add_left_cancel h) List.nodup_range
  obtain ⟨q, hq, hid, -, htaken⟩ := readGroups_takes (s := s) (t := t) p (rowGroups .a p.rgnA p.rgnA.2 32) ⟨p, hp, rfl, rfl, rfl⟩ (by rw [hrows]; exact hnd)
    fun r hr => by
      rw [hrows] at hr
      obtain ⟨i, hi, rfl⟩ := List.mem_map.1 hr
      exact hfull i (List.mem_range.1 hi)
  have hfind : ((s.readGroups t p (rowGroups .a p.rgnA p.rgnA.2 32)).tile t).runningOp p.id = some q := by
    rw [Tile.runningOp, hq, List.find?_cons, decide_eq_true hid]
  unfold State.readSources
  dsimp only
  rw [hun]
  generalize s.readGroups t p (rowGroups .a p.rgnA p.rgnA.2 32) = u at hfind
  rw [hfind]
  dsimp only
  rw [Laws.tile_updTile_same]
  have hkeep : ((u.tile t).releaseReads q ((u.unread t j q).map fun g => g.1)).runningOp p.id = some q := hfind
  rw [hkeep, Option.map_some, htaken, ht, hrows, List.map_map, List.nil_append]
  rfl

/-- Twiddle entries used leave every other field of a tile. -/
theorem useTwiddles_tile (l : List (Nat × Nat)) : ∀ x : Tile, ∃ w, l.foldl (fun x e => x.useTwiddle e.1 e.2) x = { x with twiddles := w } := by
  induction l with
  | nil => exact fun x => ⟨_, rfl⟩
  | cons e l ih =>
    intro x
    obtain ⟨w, hw⟩ := ih (x.useTwiddle e.1 e.2)
    exact ⟨w, hw⟩

/-- What the dispatch of an operation leaves of its tile (R222). -/
theorem startLop_tile : ∃ share, (s.startLop t j o).tile t = { s.tile t with
    queue := (s.tile t).queue.filter fun e => e.id ≠ o.id
    running := (s.tile t).running ++ [{ (s.job j).fillStep o with waitAt := s.now, share := share }] } := ⟨_, Laws.tile_updTile_same _⟩

/-- An operation that is no group operation takes no level from the lead tile (R218). -/
theorem fillStep_plain {x : Job} (h : o.op.isGroup = false) : x.fillStep o = o := by
  unfold Job.fillStep
  split
  · rw [h]; rfl
  · rfl

/-- A local operation sends no reads (R231). -/
theorem sendReads_none {p : LopInst} (hp : (s.tile t).runningOp o.id = some p) (hc : p.op.code ≠ lopXferIn) : s.sendReads t j im o = s := by
  unfold State.sendReads
  rw [hp]
  exact if_pos (.inl hc)

/-- TRANSPOSE takes its rows as they stand at its dispatch, where they are FULL (R228). -/
theorem transpose_dispatch (ht : t < 64) (hold : (s.tile t).oldestFor .exchange = some o) (hj : s.jobOfTile t = some j) (him : (s.job j).image = some im)
    (hrun : (s.job j).state = .running) (hmay : s.mayDispatch t j im o = true) (hc : o.op.code = lopTranspose) (hidle : (s.tile t).running = [])
    (hg : o.groupsRead = 0) (htaken : o.taken = []) (hfull : ∀ i, i < o.rgnA.2 → s.tag t (o.rgnA.1 + i) = .full) :
    ∃ s2, exec (.longOpDispatch t .exchange) s = .next s2
      ∧ ((s2.tile t).runningOp o.id).map (fun o => o.taken) = some ((List.range o.rgnA.2).map fun i => s.rowData t (o.rgnA.1 + i)) := by
  have hx : exec (.longOpDispatch t .exchange) s = .next (s.dispatch t .exchange) := Laws.onTile_next (f := fun s => s.dispatch t .exchange) ht
  obtain ⟨share, hstart⟩ := startLop_tile (s := s) (t := t) (j := j) (o := o)
  rw [hidle, List.nil_append, fillStep_plain (by rw [LongOp.isGroup, hc]; rfl)] at hstart
  obtain ⟨u, hu⟩ : ∃ u, u = (s.startLop t j o).updTile t fun x => (s.twiddlesOf t j o).foldl (fun x e => x.useTwiddle e.1 e.2) x := ⟨_, rfl⟩
  obtain ⟨w, hw⟩ := useTwiddles_tile (s.twiddlesOf t j o) ((s.startLop t j o).tile t)
  have hut : u.tile t = { (s.startLop t j o).tile t with twiddles := w } := by rw [hu, Laws.tile_updTile_same, hw]
  rw [hstart] at hut
  have hrunning : (u.tile t).running = [{ o with waitAt := s.now, share := share }] := by rw [hut]
  have hfind : (u.tile t).runningOp o.id = some { o with waitAt := s.now, share := share } := by rw [Tile.runningOp, hrunning]; simp
  have hujob : u.jobOfTile t = some j ∧ (u.job j).state = .running := by rw [hu]; exact ⟨hj, hrun⟩
  have hdispatch : s.dispatch t .exchange = u.readSources t j { o with waitAt := s.now, share := share } := by
    unfold State.dispatch
    rw [hold, hj]
    dsimp only
    rw [him]
    dsimp only
    rw [hrun, hmay, if_pos (by rfl), ← hu, sendReads_none hfind (by rw [hc]; decide)]
    exact feedTile_alone hrunning (keyEntries_transpose hc) hujob.1 hujob.2
  have htag : ∀ r, u.tag t r = s.tag t r := fun r => by rw [State.tag, hut]; rfl
  have hrow : ∀ r, u.rowData t r = s.rowData t r := rowData_congr (by rw [hut]) (by rw [hut])
  refine ⟨_, hx.trans (by rw [hdispatch]), (readSources_transpose hrunning hc hg htaken fun i hi => (htag _).trans (hfull i hi)).trans ?_⟩
  simp only [hrow]

end Sys2Proof.Proofs
end

section
/-! PROOFS. The result rows of an engine operation, and of TRANSPOSE (R143, R218, R224, R227). -/

namespace Sys2Proof.Proofs

open Sys2Proof.Machine

/-- Of the state only tile `t` differs, and of it only its rows with their tags, coverage, write-backs and verify reads. -/
structure RowsFrame (t : Nat) (s u : State) : Prop where
  shape : ∃ tl, u = { s with tiles := tl }
  others : ∀ k, k ≠ t → u.tile k = s.tile k
  tile : ∃ r g c w v, u.tile t = { s.tile t with rows := r, tags := g, coverage := c, writeBacks := w, verifyDue := v }

namespace RowsFrame

variable {s u v : State} {t : Nat}

theorem refl (s : State) : RowsFrame t s s := ⟨⟨_, rfl⟩, fun _ _ => rfl, ⟨_, _, _, _, _, rfl⟩⟩

theorem trans (h : RowsFrame t s u) (h' : RowsFrame t u v) : RowsFrame t s v where
  shape := by
    obtain ⟨_, rfl⟩ := h.shape
    obtain ⟨_, rfl⟩ := h'.shape
    exact ⟨_, rfl⟩
  others k hk := (h'.others k hk).trans (h.others k hk)
  tile := by
    obtain ⟨_, _, _, _, _, e⟩ := h.tile
    obtain ⟨r, g, c, w, v, e'⟩ := h'.tile
    exact ⟨r, g, c, w, v, by rw [e', e]⟩

theorem setTag (h : RowsFrame t s u) (r : Nat) (g : Tag) : RowsFrame t s (u.setTag t r g) :=
  h.trans ⟨⟨_, rfl⟩, fun _ hk => Laws.tile_updTile_ne _ hk, ⟨_, _, _, _, _, Laws.tile_updTile_same _⟩⟩

theorem completeRow (h : RowsFrame t s u) (r : Nat) : RowsFrame t s (u.completeRow t r) := by
  unfold State.completeRow
  split
  · exact h.trans ⟨⟨_, rfl⟩, fun _ hk => Laws.tile_updTile_ne _ hk, ⟨_, _, _, _, _, Laws.tile_updTile_same _⟩⟩
  · exact h.setTag ..

theorem setRow (h : RowsFrame t s u) (r : Nat) (d : Row) : RowsFrame t s (u.setRow t r d) :=
  h.trans ⟨⟨_, rfl⟩, fun _ hk => Laws.tile_updTile_ne _ hk, ⟨_, _, _, _, _, Laws.tile_updTile_same _⟩⟩

theorem cancelWriteBack (h : RowsFrame t s u) (r : Nat) (f : Nat → Bool) : RowsFrame t s (u.cancelWriteBack t r f) :=
  h.trans ⟨⟨_, rfl⟩, fun _ hk => Laws.tile_updTile_ne _ hk, ⟨_, _, _, _, _, Laws.tile_updTile_same _⟩⟩

theorem writeRow (h : RowsFrame t s u) (r : Nat) (d : Row) : RowsFrame t s (u.writeRow t r d) := (h.setRow r d).cancelWriteBack ..

end RowsFrame

variable {s : State} {t j : Nat} {im : Image} {o : LopInst} {x : RunShape}

/-- A row's completion changes no row (R227). -/
theorem completeRow_rows (r : Nat) : ((s.completeRow t r).tile t).rows = (s.tile t).rows ∧ ((s.completeRow t r).tile t).bankEpochs = (s.tile t).bankEpochs := by
  unfold State.completeRow
  split <;> simp only [State.setTag, Laws.tile_updTile_same, and_self]

/-- A row written whole holds the data's low 36 bits, and every other row reads as before (R261). -/
theorem rowData_writeRow (r : Nat) (d : Row) : (s.writeRow t r d).rowData t r = rowMap (fun l => Row.lane d l % 2 ^ 36)
    ∧ ∀ k, k ≠ r → (s.writeRow t r d).rowData t k = s.rowData t k := by
  have e : (s.writeRow t r d).tile t = { s.tile t with
      rows := Tab.put (s.tile t).rows r (rowMap fun l => Row.lane d l % 2 ^ 36), writeBacks := (s.tile t).writeBacks.filter fun p => !(p.1 = r && true) } := by
    simp only [State.writeRow, State.setRow, State.cancelWriteBack, Laws.tile_updTile_same]
  exact rowData_put (by rw [e]) (by rw [e])

/-- One engine row written and complete. -/
theorem rowData_engineRow (r : Nat) (d : Row) : ((s.writeRow t r d).completeRow t r).rowData t r = rowMap (fun l => Row.lane d l % 2 ^ 36)
    ∧ ∀ k, k ≠ r → ((s.writeRow t r d).completeRow t r).rowData t k = s.rowData t k := by
  obtain ⟨hrows, hbanks⟩ := completeRow_rows (s := s.writeRow t r d) (t := t) r
  obtain ⟨hsame, hne⟩ := rowData_writeRow (s := s) (t := t) r d
  exact ⟨(rowData_congr hrows hbanks r).trans hsame, fun k hk => (rowData_congr hrows hbanks k).trans (hne k hk)⟩

/-- Rows written from a first row on: each holds its data, and every other row reads as before (R227). -/
theorem writeEngineRows_writes (first : Nat) (rows : List Row) : RowsFrame t s (s.writeEngineRows t first rows)
    ∧ (∀ i, i < rows.length → (s.writeEngineRows t first rows).rowData t (first + i) = rowMap fun l => Row.lane (rows.getD i []) l % 2 ^ 36)
    ∧ ∀ r, ¬(first ≤ r ∧ r < first + rows.length) → (s.writeEngineRows t first rows).rowData t r = s.rowData t r := by
  unfold State.writeEngineRows
  generalize rows.length = n
  induction n with
  | zero => exact ⟨.refl s, fun i hi => absurd hi (Nat.not_lt_zero i), fun _ _ => rfl⟩
  | succ n ih =>
    rw [List.range_succ, List.foldl_append, List.foldl_cons, List.foldl_nil]
    obtain ⟨hframe, hin, hout⟩ := ih
    generalize (List.range n).foldl (fun s i => (s.writeRow t (first + i) (rows.getD i [])).completeRow t (first + i)) s = u at hframe hin hout
    obtain ⟨hsame, hne⟩ := rowData_engineRow (s := u) (t := t) (first + n) (rows.getD n [])
    refine ⟨(hframe.writeRow ..).completeRow _, fun i hi => ?_, fun r hr => ?_⟩
    · rcases Nat.lt_succ_iff_lt_or_eq.1 hi with hi | rfl
      · exact (hne _ (by omega)).trans (hin i hi)
      · exact hsame
    · exact (hne r (by omega)).trans (hout r (by omega))

/-- An engine operation that has read its rows, waits for no key and no constant, and whose operands are in range: it writes its result rows (R218, R227, R228). -/
theorem finishEngine_writes (hx : s.runShape t j o = some x) (hun : s.unread t j o = []) (hop : s.operandFault t j x o = false)
    (hkeys : ((if o.standby then [] else o.op.keyEntries).findSome? fun k => s.keyWait t j im o k) = none) (hdue : s.trailerDue j o = false)
    (hmiss : o.missRow = none) (hconst : s.constWait t x o = []) (hc : o.op.code ≠ lopModdown) :
    s.finishEngine t j im o .clean =
      (((((s.writeEngineRows t o.rgnD.1 ((s.resultRows t j im x o).take o.rgnD.2)).countLop t j x o).updTile t fun y => (y.retire o.id).noteOutputs o).updJob j
        fun y => y.leaveRows t o).feedTile t) := by
  have hwait : s.firstWait t j o = none := by rw [State.firstWait, hun]; rfl
  have hnote : s.noteMiss t o none = s := if_pos hmiss
  unfold State.finishEngine
  rw [hx]
  dsimp only
  rw [hwait]
  dsimp only
  rw [hop, hkeys]
  dsimp only
  rw [hnote, hdue, hconst]
  simp only [hc, false_and, if_false, Bool.false_eq_true, List.isEmpty_nil, Bool.not_true, State.sourceEcc]

/-- The result of TRANSPOSE, row by row (R143). -/
theorem lane_opTranspose (a : List Row) {r k : Nat} (hr : r < a.length) (hk : k < 1024) :
    Row.lane ((opTranspose a).getD r []) k = Row.lane (a.getD (32 * (r / 32) + k % 32) []) (32 * (k / 32) + r % 32) := by
  have hrow : (opTranspose a).getD r [] = rowMap fun k => laneAt a (r / 32 * 32 + k % 32) (k / 32 * 32 + r % 32) := by
    simp [opTranspose, zipLanes, List.getD, hr]
  rw [hrow, lane_rowMap _ hk, laneAt, Nat.mul_comm (r / 32), Nat.mul_comm (k / 32)]

/-- A TRANSPOSE that has read its rows writes each coefficient to its transposed place (R143). -/
theorem transpose_finish {opId : Nat} (h : Safety.lopRuns s t opId j im o) (hc : o.op.code = lopTranspose)
    (hlen : o.taken.length = o.rgnD.2) (hun : s.unread t j o = []) (hmiss : o.missRow = none) :
    ∃ s2, exec (.longOpFinish t opId .clean) s = .next s2 ∧ (s2.tile t).runningOp opId = none ∧ ∀ r k, r < o.taken.length → k < 1024 →
      Row.lane (s2.rowData t (o.rgnD.1 + r)) k = Row.lane (o.taken.getD (32 * (r / 32) + k % 32) []) (32 * (k / 32) + r % 32) % 2 ^ 36 := by
  obtain ⟨ht, hop, hj, him, hrun⟩ := h
  have hid : o.id = opId := by simpa using List.find?_some hop
  have hx : exec (.longOpFinish t opId .clean) s = .next (s.finishLop t opId .clean) := Laws.onTile_next (f := fun s => s.finishLop t opId .clean) ht
  obtain ⟨x, hshape⟩ : ∃ x, s.runShape t j o = some x := by
    have hmem : lopTranspose ∈ [lopTranspose, lopXferIn, lopXferOut, lopSignalCode, lopFenceCode] := by decide
    exact ⟨_, by rw [State.runShape, hc, if_pos hmem]; rfl⟩
  have hkeys := keyEntries_transpose hc
  have hlop : s.finishLop t opId .clean = s.finishEngine t j im o .clean := by
    unfold State.finishLop
    rw [hop, hj]
    dsimp only
    rw [him]
    dsimp only
    rw [hrun, hc]
    rfl
  have hrows : (s.resultRows t j im x o).take o.rgnD.2 = opTranspose o.taken := by
    have : s.resultRows t j im x o = opTranspose o.taken := by rw [State.resultRows, hc]; rfl
    rw [this, List.take_of_length_le]
    simp [opTranspose, zipLanes, hlen]
  have hcount : ∀ u : State, u.countLop t j x o = u := fun u => by rw [State.countLop, hc]; rfl
  have hfinish := finishEngine_writes (im := im) hshape hun (by rw [State.operandFault, hc]; rfl) (by rw [hkeys, ite_self]; rfl)
    (by rw [State.trailerDue, hkeys]; simp) hmiss (by rw [State.constWait, hc]; rfl) (by rw [hc]; decide)
  rw [hrows, hcount] at hfinish
  obtain ⟨-, hin, -⟩ := writeEngineRows_writes (s := s) (t := t) o.rgnD.1 (opTranspose o.taken)
  generalize s.writeEngineRows t o.rgnD.1 (opTranspose o.taken) = u at hfinish hin
  obtain ⟨v, hv⟩ : ∃ v, v = (u.updTile t fun y => (y.retire o.id).noteOutputs o).updJob j fun y => y.leaveRows t o := ⟨_, rfl⟩
  rw [← hv] at hfinish
  have hvt : v.tile t = (u.tile t).retire o.id := by
    have : v.tile t = ((u.tile t).retire o.id).noteOutputs o := by
      rw [hv]
      exact Laws.tile_updTile_same (s := u) fun y => (y.retire o.id).noteOutputs o
    rw [this, Tile.noteOutputs, hkeys]
    rfl
  have hfed := (Fed.refl v).feedTile (t := t)
  have hgone : (v.tile t).runningOp opId = none := by
    rw [hvt, runningOp_none, ← hid]
    intro hmem
    obtain ⟨p, hp, he⟩ := List.mem_map.1 hmem
    exact absurd he (of_decide_eq_true (List.mem_filter.1 hp).2)
  have hlength : (opTranspose o.taken).length = o.taken.length := by simp [opTranspose, zipLanes]
  refine ⟨_, hx.trans (by rw [hlop, hfinish]), hfed.notRunning hgone, fun r k hr hk => ?_⟩
  have hrow : (v.feedTile t).rowData t (o.rgnD.1 + r) = u.rowData t (o.rgnD.1 + r) :=
    (hfed.rowData _).trans (rowData_congr (by rw [hvt]; rfl) (by rw [hvt]; rfl) _)
  rw [hrow, hin r (by rw [hlength]; exact hr), lane_rowMap _ hk, lane_opTranspose _ hr hk]

/-- Settles O32: the rows taken at dispatch are the rows as they stand, and the finish writes the transposed rows from them. -/
theorem transposeRows : Obligations.TransposeRows := by
  unfold Obligations.TransposeRows
  exact ⟨fun s t j im o ht hold hj him hrun hmay hc hidle hg htaken hfull => transpose_dispatch ht hold hj him hrun hmay hc hidle hg htaken hfull,
    fun s t opId j im o h hc _ hlen hun hmiss => transpose_finish h hc hlen hun hmiss⟩

end Sys2Proof.Proofs
end

section
/-! PROOFS. What reaches a running long operation (R102, R229, R230, R232, R233, R235). -/

namespace Sys2Proof.Proofs

open Sys2Proof.Machine

variable {s : State} {t j opId : Nat} {im : Image} {o : LopInst}

/-! ### A constant line -/

/-- The constant cache holds the line that entered it, and at most 16 (R102). -/
theorem fillConstLine_holds (x : Tile) (line : Nat) : line ∈ (x.fillConstLine line).constLines ∧ (x.fillConstLine line).constLines.length ≤ 16 := by
  have hl : (x.fillConstLine line).constLines
      = (x.constLines.erase line ++ [line]).drop ((x.constLines.erase line ++ [line]).length - 16) := rfl
  rw [hl]
  constructor
  · rw [List.drop_append_of_le_length (by simp)]
    simp
  · rw [List.length_drop]
    omega

theorem constantLineFill_enters {line : Nat} (ht : t < 64) (hw : s.awaitsLine t line = true) :
    ∃ s2, exec (.constantLineFill t line) s = .next s2 ∧ line ∈ (s2.tile t).constLines ∧ (s2.tile t).constLines.length ≤ 16
      ∧ (s2.tile t).running = (s.tile t).running ∧ (s2.tile t).rows = (s.tile t).rows ∧ s2.mem = s.mem ∧ s2.dict = s.dict := by
  have hx : exec (.constantLineFill t line) s = .next (if s.awaitsLine t line then s.updTile t fun x => x.fillConstLine line else s) :=
    Laws.onTile_next (f := fun s => if s.awaitsLine t line then s.updTile t fun x => x.fillConstLine line else s) ht
  rw [if_pos hw] at hx
  obtain ⟨hin, hlen⟩ := fillConstLine_holds (s.tile t) line
  refine ⟨_, hx, ?_⟩
  rw [Laws.tile_updTile_same]
  exact ⟨hin, hlen, rfl, rfl, rfl, rfl⟩

/-! ### A row of a transfer -/

/-- A transfer in reads no scratchpad row and no key. -/
theorem xferIn_sources (hc : o.op.code = lopXferIn) : s.sourceGroups t j o = [] ∧ o.op.keyEntries = [] := by
  constructor
  · have hmem : lopXferIn ∈ [lopTranspose, lopXferIn, lopXferOut, lopSignalCode, lopFenceCode] := by decide
    simp [State.sourceGroups, State.runShape, hc]
  · rw [LongOp.keyEntries, hc]
    rfl

/-- Where a transfer in runs alone, nothing else of the tile takes a row: no tag changes. -/
theorem feedTile_xferIn {p : LopInst} (hp : (s.tile t).running = [p]) (hc : p.op.code = lopXferIn) (hj : s.jobOfTile t = some j)
    (hrun : (s.job j).state = .running) (r : Nat) : (s.feedTile t).tag t r = s.tag t r := by
  obtain ⟨hsrc, hkeys⟩ := xferIn_sources (s := s) (t := t) (j := j) hc
  have hun : s.unread t j p = [] := by rw [State.unread, hsrc, List.drop_nil]
  rw [feedTile_alone hp hkeys hj hrun]
  unfold State.readSources
  dsimp only
  rw [hun, State.readGroups]
  split
  · rfl
  · rw [State.tag, Laws.tile_updTile_same]
    rfl

/-- What a running operation shows after an update of it (R218). -/
theorem runningOp_updOp {x : Tile} {f : LopInst → LopInst} (hop : x.runningOp opId = some o) (hid : ∀ p, (f p).id = p.id) :
    (x.updOp opId f).runningOp opId = some (f o) := by
  have hp : ((fun p : LopInst => decide (p.id = opId)) ∘ fun p => if p.id = opId then f p else p) = fun p => decide (p.id = opId) := by
    funext p
    by_cases h : p.id = opId <;> simp [h, hid]
  have ho : o.id = opId := by simpa using List.find?_some hop
  have hmap : (x.updOp opId f).runningOp opId = (x.runningOp opId).map fun p => if p.id = opId then f p else p := by
    show (x.running.map fun p => if p.id = opId then f p else p).find? _ = _
    rw [List.find?_map, hp]
    rfl
  rw [hmap, hop, Option.map_some, if_pos ho]

/-- The landing of a transfer's row changes its own row alone, and the transfer counts it (R227, R230). -/
theorem landRow_writes {x : Shape × Nat} {row : Nat} {data : List Byte} (hop : (s.tile t).runningOp opId = some o) (hv : o.op.verifies = false) :
    ∃ u w, s.landRow t j im x opId row data = w.feedTile t ∧ u = s.writeRow t row (s.fetchedRow t j im x o o.rowsDone data)
      ∧ w = (u.completeRow t row).updTile t (fun y => y.updOp opId fun o => { o with rowsDone := o.rowsDone + 1, waitRow := none }) := by
  refine ⟨_, _, ?_, rfl, rfl⟩
  unfold State.landRow
  rw [hop]
  dsimp only
  rw [hv, if_neg Bool.false_ne_true]

theorem fetchRow_lands {x : Shape × Nat} {row : Nat} {data : List Byte} (h : Safety.lopRuns s t opId j im o) (hc : o.op.code = lopXferIn)
    (hcopy : o.op.copies = false) (hmore : o.rowsDone < o.inRows) (hturn : (s.tile t).earlierUnwritten opId = false) (hrow : row = o.rgnD.1 + o.rowsDone)
    (hempty : o.op.overwrites = true ∨ (s.tag t row = .empty ∧ (s.tile t).verifyDue.contains row = false)) (hx : x = s.transferShape j im o)
    (hself : s.isSelf (nodeOf x.2) = true → ((s.sourceWords t j x o o.rowsDone).any fun p => (s.placeWaits p).isSome || s.placePoisoned p) = false)
    (hremote : s.isSelf (nodeOf x.2) = false → (s.remoteOps.any fun r => r.issuer = t && r.opId = opId) = false) :
    s.fetchRow t opId data .clean = s.landRow t j im x opId row data := by
  obtain ⟨-, hop, hj, him, hrun⟩ := h
  have hvf : o.op.verifies = false := by
    simp only [LongOp.copies, Bool.or_eq_false_iff] at hcopy
    exact hcopy.2
  have hwaits : s.verifyWaits j o = false := by rw [State.verifyWaits, hvf]; rfl
  have htake : s.takeCopy t j im x o data = s := if_pos (.inl (by rw [hcopy]; rfl))
  have hgate : ¬(!o.op.overwrites ∧ (s.tag t row ≠ .empty ∨ (s.tile t).verifyDue.contains row)) := by
    rcases hempty with h | ⟨h1, h2⟩ <;> simp_all
  obtain ⟨words, hwords⟩ : ∃ words, words = if !s.isSelf (nodeOf x.2) then [] else s.sourceWords t j x o o.rowsDone := ⟨_, rfl⟩
  have hclear : (words.any fun p => (s.placeWaits p).isSome || s.placePoisoned p) = false := by
    cases hs : s.isSelf (nodeOf x.2)
    · rw [hwords, hs]; rfl
    · rw [hwords, hs]; exact hself hs
  rw [List.any_eq_false] at hclear
  have hnone : words.findSome? s.placeWaits = none := List.findSome?_eq_none_iff.2 fun p hp => by
    have := hclear p hp
    simp only [Bool.or_eq_true, not_or, Bool.not_eq_true, Option.isSome_eq_false_iff, Option.isNone_iff_eq_none] at this
    exact this.1
  have hpoison : words.any s.placePoisoned = false := List.any_eq_false.2 fun p hp => by
    have := hclear p hp
    simp only [Bool.or_eq_true, not_or] at this
    exact this.2
  have hout : ¬((!s.isSelf (nodeOf x.2)) = true ∧ (s.remoteOps.any fun r => r.issuer = t && r.opId = opId) = true) := fun ⟨h1, h2⟩ => by
    rw [hremote (by simpa using h1)] at h2
    cases h2
  unfold State.fetchRow
  rw [hop, hj]
  dsimp only
  rw [him]
  dsimp only
  rw [if_neg (by rw [hc, hrun]; simp; omega), hturn, if_neg Bool.false_ne_true, ← hrow, ← hx, if_neg hgate, if_neg hout, hwaits, if_neg Bool.false_ne_true,
    ← hwords, hnone]
  dsimp only
  rw [hpoison, if_neg Bool.false_ne_true, htake]

/-- A row's completion leaves the tags of the others, and turns an unprotected row FULL (R227, R272). -/
theorem completeRow_tags (r : Nat) : (s.isProtectedRow t r = false → (s.completeRow t r).tag t r = .full) ∧ ∀ k, k ≠ r → (s.completeRow t r).tag t k = s.tag t k := by
  unfold State.completeRow
  split
  next hp =>
    refine ⟨fun h => absurd hp (by rw [h]; decide), fun k _ => ?_⟩
    rw [State.tag, Laws.tile_updTile_same]
    rfl
  next hp =>
    refine ⟨fun _ => ?_, fun k hk => ?_⟩ <;> rw [State.tag, State.setTag, Laws.tile_updTile_same]
    · exact Laws.tab_get_put_same ..
    · exact Laws.tab_get_put_ne _ _ _ hk

/-- A row written changes no tag. -/
theorem tag_writeRow (r : Nat) (d : Row) (k : Nat) : (s.writeRow t r d).tag t k = s.tag t k := by
  simp only [State.tag, State.writeRow, State.setRow, State.cancelWriteBack, Laws.tile_updTile_same]

theorem fetchRowWrite_lands {x : Shape × Nat} {row : Nat} {data : List Byte} (h : Safety.lopRuns s t opId j im o) (hc : o.op.code = lopXferIn)
    (hcopy : o.op.copies = false) (hmore : o.rowsDone < o.inRows) (hturn : (s.tile t).earlierUnwritten opId = false) (hrow : row = o.rgnD.1 + o.rowsDone)
    (hempty : o.op.overwrites = true ∨ (s.tag t row = .empty ∧ (s.tile t).verifyDue.contains row = false)) (hx : x = s.transferShape j im o)
    (hself : s.isSelf (nodeOf x.2) = true → ((s.sourceWords t j x o o.rowsDone).any fun p => (s.placeWaits p).isSome || s.placePoisoned p) = false)
    (hremote : s.isSelf (nodeOf x.2) = false → (s.remoteOps.any fun r => r.issuer = t && r.opId = opId) = false) :
    ∃ s2, exec (.fetchRowWrite t opId data .clean) s = .next s2
      ∧ (∀ l, l < 1024 → Row.lane (s2.rowData t row) l = Row.lane (s.fetchedRow t j im x o o.rowsDone data) l % 2 ^ 36)
      ∧ ((s2.tile t).runningOp opId).map (fun o => o.rowsDone) = some (o.rowsDone + 1) ∧ (∀ r, r ≠ row → s2.rowData t r = s.rowData t r) ∧ s2.mem = s.mem
      ∧ ((s.tile t).running = [o] → (s.isProtectedRow t row = false → s2.tag t row = .full) ∧ ∀ r, r ≠ row → s2.tag t r = s.tag t r) := by
  have hland := fetchRow_lands (data := data) h hc hcopy hmore hturn hrow hempty hx hself hremote
  obtain ⟨ht, hop, hj, him, hrun⟩ := h
  have hid : o.id = opId := by simpa using List.find?_some hop
  have hvf : o.op.verifies = false := by
    simp only [LongOp.copies, Bool.or_eq_false_iff] at hcopy
    exact hcopy.2
  have hexec : exec (.fetchRowWrite t opId data .clean) s = .next (s.fetchRow t opId data .clean) :=
    Laws.onTile_next (f := fun s => s.fetchRow t opId data .clean) ht
  obtain ⟨u, w, hfed, hu, hw⟩ := landRow_writes (s := s) (t := t) (j := j) (im := im) (x := x) (row := row) (data := data) hop hvf
  obtain ⟨hsame, hne⟩ := rowData_engineRow (s := s) (t := t) row (s.fetchedRow t j im x o o.rowsDone data)
  have hframe := (((RowsFrame.refl s).writeRow (t := t) row (s.fetchedRow t j im x o o.rowsDone data)).completeRow row)
  obtain ⟨hfull, hothers⟩ := completeRow_tags (s := u) (t := t) row
  rw [← hu] at hsame hne hframe
  obtain ⟨_, hshape⟩ := hframe.shape
  obtain ⟨_, _, _, _, _, htile⟩ := hframe.tile
  have hwt : w.tile t = ((u.completeRow t row).tile t).updOp opId fun o => { o with rowsDone := o.rowsDone + 1, waitRow := none } := by
    rw [hw]; exact Laws.tile_updTile_same _
  have hwrow : ∀ r, w.rowData t r = (u.completeRow t row).rowData t r := rowData_congr (by rw [hwt]; rfl) (by rw [hwt]; rfl)
  have hwtag : ∀ r, w.tag t r = (u.completeRow t row).tag t r := fun r => by rw [State.tag, hwt]; rfl
  have hutag : ∀ r, u.tag t r = s.tag t r := fun r => by rw [hu]; exact tag_writeRow ..
  have hf := (Fed.refl w).feedTile (t := t)
  have hrunning : (w.tile t).runningOp opId = some { o with rowsDone := o.rowsDone + 1, waitRow := none } := by
    rw [hwt]
    exact runningOp_updOp (f := fun o => { o with rowsDone := o.rowsDone + 1, waitRow := none }) (by rw [htile]; exact hop) (fun _ => rfl)
  refine ⟨w.feedTile t, hexec.trans (by rw [hland, hfed]), fun l hl => ?_, ?_, fun r hr => ?_, ?_, fun halone => ?_⟩
  · rw [hf.rowData, hwrow, hsame, lane_rowMap _ hl]
  · have := congrArg (Option.map fun k => k.2.2.1) (hf.runningOp opId)
    rw [hrunning] at this
    simpa [progressOf, Function.comp_def] using this
  · rw [hf.rowData, hwrow, hne r hr]
  · obtain ⟨_, e⟩ := hf.shape
    rw [e, hw, State.updTile, Laws.setTile_mem, hshape]
  · have hone : (w.tile t).running = [{ o with rowsDone := o.rowsDone + 1, waitRow := none }] := by
      rw [hwt, htile, Tile.updOp, halone]
      simp [hid]
    have hwj : w.jobOfTile t = some j ∧ (w.job j).state = .running := by
      rw [hw, hshape]
      exact ⟨hj, hrun⟩
    have htags : ∀ r, (w.feedTile t).tag t r = w.tag t r := feedTile_xferIn hone hc hwj.1 hwj.2
    refine ⟨fun hp => ?_, fun r hr => ?_⟩
    · rw [htags, hwtag]
      refine hfull ?_
      rw [hu]
      exact hp
    · rw [htags, hwtag, hothers r hr, hutag]

/-! ### The check of a verified body -/

/-- The end of a check-value context touches entries alone (R388). -/
theorem endCheck_frame (n : Nat) : EventFrame s (s.endCheck n) := by
  unfold State.endCheck
  split
  · exact ((EventFrame.refl s).setEntry ..).setEntry ..
  · exact .refl s

/-- Rows marked POISON: each row of the range reads so, and of the state only tags and coverage of the tile change. -/
theorem poisonRows_marks (first n : Nat) : (∃ tl, s.poisonRows t first n = { s with tiles := tl })
    ∧ (∃ g c, (s.poisonRows t first n).tile t = { s.tile t with tags := g, coverage := c })
    ∧ ∀ i, i < n → (s.poisonRows t first n).tag t (first + i) = .poison := by
  unfold State.poisonRows
  induction n with
  | zero => exact ⟨⟨_, rfl⟩, ⟨_, _, rfl⟩, fun i hi => absurd hi (Nat.not_lt_zero i)⟩
  | succ n ih =>
    rw [List.range_succ, List.foldl_append, List.foldl_cons, List.foldl_nil]
    obtain ⟨⟨tl, hs⟩, ⟨g, c, ht⟩, htags⟩ := ih
    generalize (List.range n).foldl (fun s i => s.setTag t (first + i) .poison) s = u at hs ht htags
    have hu : (u.setTag t (first + n) .poison).tile t
        = { u.tile t with tags := Tab.put (u.tile t).tags (first + n) .poison, coverage := Tab.erase (u.tile t).coverage (first + n) } := Laws.tile_updTile_same _
    refine ⟨⟨_, by rw [hs]; rfl⟩, ⟨_, _, by rw [hu, ht]⟩, fun i hi => ?_⟩
    rw [State.tag, hu]
    rcases Nat.lt_succ_iff_lt_or_eq.1 hi with hi | rfl
    · exact (Laws.tab_get_put_ne _ _ _ (by omega)).trans (htags i hi)
    · exact Laws.tab_get_put_same ..

/-- The rows of a matched body turn FULL together, but those that await a verify read (R233, R272). -/
theorem completeRows_full (first n : Nat) :
    RowsFrame t s ((List.range n).foldl (fun s i => s.completeRow t (first + i)) s)
    ∧ ((List.range n).foldl (fun s i => s.completeRow t (first + i)) s |>.tile t).rows = (s.tile t).rows
    ∧ ∀ i, i < n → s.isProtectedRow t (first + i) = false → ((List.range n).foldl (fun s i => s.completeRow t (first + i)) s).tag t (first + i) = .full := by
  induction n with
  | zero => exact ⟨.refl s, rfl, fun i hi => absurd hi (Nat.not_lt_zero i)⟩
  | succ n ih =>
    rw [List.range_succ, List.foldl_append, List.foldl_cons, List.foldl_nil]
    obtain ⟨hframe, hrows, htags⟩ := ih
    generalize (List.range n).foldl (fun s i => s.completeRow t (first + i)) s = u at hframe hrows htags
    obtain ⟨hfull, hothers⟩ := completeRow_tags (s := u) (t := t) (first + n)
    refine ⟨hframe.completeRow _, (completeRow_rows _).1.trans hrows, fun i hi hp => ?_⟩
    rcases Nat.lt_succ_iff_lt_or_eq.1 hi with hi | rfl
    · exact (hothers _ (by omega)).trans (htags i hi hp)
    · obtain ⟨_, e⟩ := hframe.shape
      refine hfull ?_
      rw [e]
      exact hp

/-- A fault of a running operation poisons the rows it has not finished and ends the job (R228, R229). -/
theorem failLop_ends {code target kind : Nat} {p : LopInst} (hj : s.jobOfTile t = some j) (hrun : (s.job j).state = .running) :
    ∃ v, Aborted v (s.failLop t code p target kind) j code t p.bundle ∧ v.mem = s.mem ∧ (v.tile t).rows = (s.tile t).rows
      ∧ (v.tile t).tags = ((s.poisonUnfinished t p).tile t).tags := by
  obtain ⟨⟨tl, hs⟩, ⟨g, c, ht⟩, -⟩ := poisonRows_marks (s := s) (t := t) (p.rgnD.1 + if p.op.verifies && !p.sent then 0 else p.rowsDone)
    (p.rgnD.2 - if p.op.verifies && !p.sent then 0 else p.rowsDone)
  have hu : s.poisonUnfinished t p = s.poisonRows t (p.rgnD.1 + if p.op.verifies && !p.sent then 0 else p.rowsDone)
    (p.rgnD.2 - if p.op.verifies && !p.sent then 0 else p.rowsDone) := rfl
  rw [← hu] at hs ht
  obtain ⟨r, hr, hcode, hbundle⟩ : ∃ r, s.failLop t code p target kind = (s.poisonUnfinished t p).faultTile t r ∧ r.code = code ∧ r.bundle = p.bundle :=
    ⟨_, rfl, rfl, rfl⟩
  have hend := faultTile_ends r (s := s.poisonUnfinished t p) (t := t) (j := j) (by rw [hs]; exact hj) (by rw [hs]; exact hrun)
  rw [hcode, hbundle, ← hr] at hend
  refine ⟨_, hend, by rw [hs]; rfl, ?_, ?_⟩ <;> rw [Laws.tile_updTile_same]
  rw [ht]

theorem xferVerifyMatch_decides {h : Handle} (hr : Safety.lopRuns s t opId j im o) (hc : o.op.code = lopXferIn) (hv : o.op.verifies = true)
    (hh : (s.job j).handle? o.op.hina = some h) (hrows : o.inRows ≠ 0) (hdone : o.rowsDone = o.inRows) (hsent : o.sent = false) :
    ∃ s2, exec (.xferVerifyMatch t opId) s = .next s2 ∧ s2.mem = s.mem ∧ (s2.tile t).rows = (s.tile t).rows
      ∧ (crc64 o.copy = h.bodyCrc → ((s2.tile t).runningOp opId).map (fun o => o.sent) = some true)
      ∧ (crc64 o.copy = h.bodyCrc → (s.tile t).running = [o] → ∀ i, i < o.inRows → s.isProtectedRow t (o.rgnD.1 + i) = false → s2.tag t (o.rgnD.1 + i) = .full)
      ∧ (crc64 o.copy ≠ h.bodyCrc → (s2.job j).state = .draining ∧ (s2.job j).abortCode = DATA_CRC
          ∧ ∀ i, i < o.rgnD.2 → s2.tag t (o.rgnD.1 + i) = .poison) := by
  obtain ⟨ht, hop, hj, him, hrun⟩ := hr
  have hid : o.id = opId := by simpa using List.find?_some hop
  have hexec : exec (.xferVerifyMatch t opId) s = .next (s.verifyMatch t opId) := Laws.onTile_next (f := fun s => s.verifyMatch t opId) ht
  obtain ⟨u, hu, hframe⟩ : ∃ u, u = (match o.check with | some c => s.endCheck c | none => s) ∧ EventFrame s u := by
    refine ⟨_, rfl, ?_⟩
    split
    · exact endCheck_frame _
    · exact .refl s
  have huj : u.jobOfTile t = some j ∧ (u.job j).state = .running := ⟨(jobOfTile_congr hframe.jobs).trans hj, (congrArg Job.state (hframe.job j)).trans hrun⟩
  have hmatch : s.verifyMatch t opId = if crc64 o.copy = h.bodyCrc then
      (((List.range o.inRows).foldl (fun s i => s.completeRow t (o.rgnD.1 + i)) u).updTile t fun y => y.updOp opId fun o => { o with sent := true }).feedTile t
      else u.failLop t DATA_CRC o 0 0 := by
    unfold State.verifyMatch
    rw [hop, hj]
    dsimp only
    rw [hh]
    dsimp only
    refine (if_neg (by simp [hc, hv, hrows, hdone, hsent])).trans ?_
    subst hu
    rfl
  by_cases hcrc : crc64 o.copy = h.bodyCrc
  · rw [if_pos hcrc] at hmatch
    obtain ⟨hrf, hkeep, hfull⟩ := completeRows_full (s := u) (t := t) o.rgnD.1 o.inRows
    obtain ⟨v, hv'⟩ : ∃ v, v = (List.range o.inRows).foldl (fun s i => s.completeRow t (o.rgnD.1 + i)) u := ⟨_, rfl⟩
    rw [← hv'] at hmatch hrf hkeep hfull
    obtain ⟨_, hshape⟩ := hrf.shape
    obtain ⟨_, _, _, _, _, htile⟩ := hrf.tile
    obtain ⟨w, hw⟩ : ∃ w, w = v.updTile t fun y => y.updOp opId fun o => { o with sent := true } := ⟨_, rfl⟩
    have hwt : w.tile t = (v.tile t).updOp opId fun o => { o with sent := true } := by rw [hw]; exact Laws.tile_updTile_same _
    have hvrun : (v.tile t).running = (s.tile t).running := by rw [htile, hframe.tile t]
    have hf := (Fed.refl w).feedTile (t := t)
    obtain ⟨_, hfs⟩ := hf.shape
    obtain ⟨_, _, _, _, hft⟩ := hf.tile
    rw [← hw] at hmatch
    refine ⟨_, hexec.trans (by rw [hmatch]), ?_, ?_, fun _ => ?_, fun _ halone i hi hp => ?_, fun hne => absurd hcrc hne⟩
    · rw [hfs, hw, State.updTile, Laws.setTile_mem, hshape]
      exact hframe.mem
    · rw [hft, hwt]
      exact hkeep.trans (by rw [hframe.tile t])
    · have hrunning : (w.tile t).runningOp opId = some { o with sent := true } := by
        rw [hwt]
        exact runningOp_updOp (f := fun o => { o with sent := true }) (by rw [Tile.runningOp, hvrun]; exact hop) (fun _ => rfl)
      have := congrArg (Option.map fun k => k.2.2.2) (hf.runningOp opId)
      rw [hrunning] at this
      simpa [progressOf, Function.comp_def] using this
    · have hone : (w.tile t).running = [{ o with sent := true }] := by
        rw [hwt, Tile.updOp, hvrun, halone]
        simp [hid]
      have hwj : w.jobOfTile t = some j ∧ (w.job j).state = .running := by
        rw [hw, hshape]
        exact huj
      have hpu : u.isProtectedRow t (o.rgnD.1 + i) = false := by
        rw [← hp]
        unfold State.isProtectedRow State.rowRegion
        rw [jobOfTile_congr hframe.jobs, hj]
        dsimp only
        rw [hframe.job j]
      rw [feedTile_xferIn hone hc hwj.1 hwj.2, State.tag, hwt]
      exact hfull i hi hpu
  · rw [if_neg hcrc] at hmatch
    obtain ⟨v, hab, hmem, hvrows, htags⟩ := failLop_ends (code := DATA_CRC) (target := 0) (kind := 0) (p := o) huj.1 huj.2
    obtain ⟨hstate, -, hcode, -, -, -⟩ := hab.ended
    obtain ⟨_, _, hkeep⟩ := hab.tiles t
    have hpoison : u.poisonUnfinished t o = u.poisonRows t o.rgnD.1 o.rgnD.2 := by
      simp [State.poisonUnfinished, hv, hsent]
    obtain ⟨-, -, hmarks⟩ := poisonRows_marks (s := u) (t := t) o.rgnD.1 o.rgnD.2
    refine ⟨_, hexec.trans (by rw [hmatch]), hab.mem.trans (hmem.trans hframe.mem), ?_, fun h => absurd h hcrc, fun h => absurd h hcrc,
      fun _ => ⟨hstate, hcode, fun i hi => ?_⟩⟩
    · rw [hkeep]
      exact hvrows.trans (by rw [hframe.tile t])
    · rw [State.tag, hkeep]
      dsimp only
      rw [htags, hpoison]
      exact hmarks i hi

/-! ### A SIGNAL's completion, and a hold that outlasts the bound -/

/-- With no operation waiting for room in its triple, none leaves (R311). -/
theorem releaseWaits_none {node vl : Nat} (h : (s.remoteOps.any fun r => r.waits) = false) : s.releaseWaits node vl = s := by
  have hnone : (s.remoteOps.filter fun o => o.waits && o.target = node && o.vl = vl) = [] := by
    rw [List.any_eq_false] at h
    exact List.filter_eq_nil_iff.2 fun r hr => by simp [h r hr]
  rw [State.releaseWaits, hnone, List.foldl_nil]

theorem signalCompletion_frees (ht : t < 64) (hsig : (s.tile t).signalsOut.contains opId = true) (hw : (s.remoteOps.any fun r => r.waits) = false) :
    ∃ s2, exec (.signalCompletion t opId OK) s = .next s2 ∧ (s2.tile t).signalsOut = (s.tile t).signalsOut.erase opId
      ∧ s2.remoteOps = (s.remoteOps.filter fun r => !(r.issuer = t && r.opId = opId)) ∧ s2.mem = s.mem ∧ s2.jobs = s.jobs := by
  have hexec : exec (.signalCompletion t opId OK) s = .next (s.signalDone t opId OK) := Laws.onTile_next (f := fun s => s.signalDone t opId OK) ht
  obtain ⟨u, hu⟩ : ∃ u : State, u = { s with remoteOps := s.remoteOps.filter fun r => !(r.issuer = t && r.opId = opId) } := ⟨_, rfl⟩
  have huw : (u.remoteOps.any fun r => r.waits) = false := by
    rw [List.any_eq_false] at hw ⊢
    rw [hu]
    exact fun r hr => hw r (List.mem_of_mem_filter hr)
  have hfold : ∀ l : List RemoteOp, l.foldl (fun s r => s.releaseWaits r.target r.vl) u = u := fun l => by
    induction l with
    | nil => rfl
    | cons r l ih => rw [List.foldl_cons, releaseWaits_none huw, ih]
  have hnowait : (!(s.remoteOps.any fun r => (r.issuer = t && r.opId = opId) && r.waits)) = true := by
    rw [List.any_eq_false] at hw
    rw [Bool.not_eq_true', List.any_eq_false]
    intro r hr h
    exact hw r hr ((Bool.and_eq_true _ _).mp h).2
  have hdone : s.signalDone t opId OK = u.updTile t fun x => { x with signalsOut := x.signalsOut.erase opId } := by
    unfold State.signalDone
    dsimp only
    rw [if_pos ⟨hsig, hnowait⟩, ← hu, hfold, if_pos rfl]
  refine ⟨_, hexec.trans (by rw [hdone]), ?_, by rw [hu]; rfl, by rw [hu]; rfl, by rw [hu]; rfl⟩
  rw [Laws.tile_updTile_same, hu]
  rfl

theorem waitTimeout_ends {row since : Nat} (ht : t < 64) (hj : s.jobOfTile t = some j) (him : (s.job j).image = some im) (hrun : (s.job j).state = .running)
    (hheld : (s.tile t).run = .held) (hrow : Tab.get? (s.tile t).heldRows row = some since) (hlate : since + s.durationBound j < s.now) :
    ∃ s2, exec (.waitTimeout t 0 row) s = .next s2 ∧ (s2.job j).state = .draining ∧ (s2.job j).drain = .abort ∧ (s2.job j).abortCode = WAIT_TIMEOUT
      ∧ (s2.job j).abortTile = t ∧ (s2.tile t).record.code = WAIT_TIMEOUT ∧ (s2.tile t).record.target = row ∧ s2.mem = s.mem := by
  have hexec : exec (.waitTimeout t 0 row) s = .next (s.waitTimeout t 0 row) := Laws.onTile_next (f := fun s => s.waitTimeout t 0 row) ht
  have htimeout : s.waitTimeout t 0 row = s.faultTile t
      { count := (s.tile t).sched, bundle := (s.tile t).nextBundle, code := WAIT_TIMEOUT, target := row, slot := slotM, targetKind := 2 } := by
    unfold State.waitTimeout
    rw [hj]
    dsimp only
    rw [him]
    dsimp only
    rw [hrow, if_neg (not_not.2 hrun), if_pos rfl, if_pos ⟨hheld, decide_eq_true hlate⟩]
  have hab := faultTile_ends
    { count := (s.tile t).sched, bundle := (s.tile t).nextBundle, code := WAIT_TIMEOUT, target := row, slot := slotM, targetKind := 2 } hj hrun
  obtain ⟨hstate, hdrain, hcode, htile, -, -⟩ := hab.ended
  obtain ⟨_, _, hkeep⟩ := hab.tiles t
  rw [Laws.tile_updTile_same] at hkeep
  refine ⟨_, hexec.trans (by rw [htimeout]), hstate, hdrain, hcode, htile, ?_, ?_, hab.mem⟩ <;> rw [hkeep]

/-- Settles O33: each arrival meets its operation's conditions, and changes what the statement names alone. -/
theorem longOpsProgress : Obligations.LongOpsProgress := by
  unfold Obligations.LongOpsProgress
  exact ⟨fun s t line ht hw _ => constantLineFill_enters ht hw,
    fun s t opId j row im o x data h hc hcopy hmore hturn hrow hempty hx hself hremote =>
      fetchRowWrite_lands h hc hcopy hmore hturn hrow hempty hx hself hremote,
    fun s t opId j im o h hr hc hv hh hrows hdone hsent => xferVerifyMatch_decides hr hc hv hh hrows hdone hsent,
    fun s t opId ht hsig hw => signalCompletion_frees ht hsig hw,
    fun s t j row since im ht hj him hrun hheld hrow hlate => waitTimeout_ends ht hj him hrun hheld hrow hlate⟩

end Sys2Proof.Proofs
end

section
/-! PROOFS. Barriers: what a release leaves of the state and of each tile (R40, R236, R245, R320). -/

namespace Sys2Proof.Proofs

open Sys2Proof.Machine

/-- Of the state only tiles and the entries above 0x8000 may differ. -/
structure CountFrame (s u : State) : Prop where
  shape : ∃ d tl, u = { s with dict := d, tiles := tl }
  entries : ∀ i k, i < 0x8000 → k < 256 → u.entry i k = s.entry i k

namespace CountFrame

variable {s u v : State}

theorem refl (s : State) : CountFrame s s := ⟨⟨_, _, rfl⟩, fun _ _ _ _ => rfl⟩

theorem trans (h : CountFrame s u) (h' : CountFrame u v) : CountFrame s v where
  shape := by
    obtain ⟨_, _, rfl⟩ := h.shape
    obtain ⟨_, _, rfl⟩ := h'.shape
    exact ⟨_, _, rfl⟩
  entries i k hi hk := (h'.entries i k hi hk).trans (h.entries i k hi hk)

theorem setEntry (h : CountFrame s u) {i : Nat} (hi : 0x8000 ≤ i) (k v : Nat) : CountFrame s (u.setEntry i k v) :=
  h.trans ⟨⟨_, _, rfl⟩, fun i' k' hi' hk' => Laws.entry_setEntry_ne _ _ _ _ _ _ (by simp only [entryKey]; omega)⟩

theorem updTile (h : CountFrame s u) (t : Nat) (f : Tile → Tile) : CountFrame s (u.updTile t f) := h.trans ⟨⟨_, _, rfl⟩, fun _ _ _ _ => rfl⟩

theorem stall (h : CountFrame s u) (t e cause n : Nat) : CountFrame s (u.stall t e cause n) := by
  unfold State.stall
  split
  · exact h
  · exact h.setEntry (by omega) ..

theorem settleWait (h : CountFrame s u) (t : Nat) : CountFrame s (u.settleWait t) := by
  unfold State.settleWait
  dsimp only
  split
  · exact h
  · exact (h.stall ..).updTile ..

theorem wakeTile (h : CountFrame s u) (t : Nat) : CountFrame s (u.wakeTile t) := by
  unfold State.wakeTile
  dsimp only
  split
  · split
    · exact (h.updTile ..).setEntry (by omega) ..
    · exact ((h.setEntry (by omega) ..).updTile ..).setEntry (by omega) ..
  · exact h

theorem resumeTile (h : CountFrame s u) (t : Nat) : CountFrame s (u.resumeTile t) :=
  (((h.wakeTile t).settleWait t).updTile ..).updTile ..

theorem foldl {α : Type} {f : State → α → State} (hf : ∀ u x, CountFrame u (f u x)) (l : List α) : ∀ {u}, CountFrame s u → CountFrame s (l.foldl f u) := by
  induction l with
  | nil => exact fun h => h
  | cons x l ih => exact fun h => ih (h.trans (hf _ x))

theorem letGo (h : CountFrame s u) (j : Nat) : CountFrame s (u.letGo j) := foldl (fun u t => (refl u).resumeTile t) _ h

end CountFrame

variable {s : State} {t j : Nat}

/-- What the settling of a wait leaves of each tile's issue. -/
def issueOf (x : Tile) : TileRun × BarWait × Nat := (x.run, x.barWait, x.sched)

/-- A tile field that an update of a tile keeps is kept of every tile. -/
theorem updTile_keeps {β : Type} (g : Tile → β) {f : Tile → Tile} (hf : ∀ x, g (f x) = g x) (k : Nat) : g ((s.updTile t f).tile k) = g (s.tile k) := by
  by_cases hk : k = t
  · subst hk; rw [Laws.tile_updTile_same, hf]
  · rw [Laws.tile_updTile_ne _ hk]

theorem stall_tile (e cause n k : Nat) : (s.stall t e cause n).tile k = s.tile k := by
  unfold State.stall
  split <;> rfl

theorem settleWait_issue (k : Nat) : issueOf ((s.settleWait t).tile k) = issueOf (s.tile k) := by
  unfold State.settleWait
  dsimp only
  split
  · rfl
  · refine (updTile_keeps issueOf ?_ k).trans (congrArg issueOf (stall_tile ..))
    exact fun _ => rfl

theorem wakeTile_issue (k : Nat) : issueOf ((s.wakeTile t).tile k) = issueOf (s.tile k) := by
  unfold State.wakeTile
  dsimp only
  split
  · split <;> exact updTile_keeps issueOf (f := fun x => { x with wakeAt := none }) (fun _ => rfl) k
  · rfl

/-- A tile that resumes issues, at no barrier, at its schedule count; no other tile's issue changes (R236, R351). -/
theorem resumeTile_issue (k : Nat) : issueOf ((s.resumeTile t).tile k)
    = if k = t then (.issuing, .none, (s.tile k).sched) else issueOf (s.tile k) := by
  have hend : issueOf (((s.wakeTile t).endWait t).tile k) = issueOf (s.tile k) :=
    (updTile_keeps issueOf (f := fun x => { x with waitCause := 255 }) (fun _ => rfl) k).trans ((settleWait_issue k).trans (wakeTile_issue k))
  unfold State.resumeTile
  split
  next hk =>
    subst hk
    rw [Laws.tile_updTile_same]
    exact congrArg (fun p : TileRun × BarWait × Nat => (TileRun.issuing, BarWait.none, p.2.2)) hend
  next hk => rw [Laws.tile_updTile_ne _ hk, hend]

/-- Every tile of the group issues again (R236). -/
theorem letGo_issue {k : Nat} (hk : k ∈ (s.job j).group) : issueOf ((s.letGo j).tile k) = (.issuing, .none, (s.tile k).sched) := by
  unfold State.letGo
  generalize (s.job j).group = l at hk
  have hkeep : ∀ (l : List Nat) (s : State), issueOf ((l.foldl (fun s t => s.resumeTile t) s).tile k)
      = if k ∈ l then (.issuing, .none, (s.tile k).sched) else issueOf (s.tile k) := by
    intro l
    induction l with
    | nil => exact fun s => rfl
    | cons t l ih =>
      intro s
      have hone := resumeTile_issue (s := s) (t := t) k
      have hsched : ((s.resumeTile t).tile k).sched = (s.tile k).sched := by
        have := congrArg (fun p : TileRun × BarWait × Nat => p.2.2) hone
        by_cases h : k = t <;> simpa [h, issueOf] using this
      rw [List.foldl_cons, ih, hsched, hone]
      by_cases h1 : k ∈ l <;> by_cases h2 : k = t <;> simp [h1, h2]
  rw [hkeep, if_pos hk]

/-! ### The release -/

variable {b : Nat} {im : Image}

/-- A frame sent touches its port and the module's output alone. -/
structure SendFrame (s u : State) : Prop where
  shape : ∃ p o, u = { s with ports := p, out := o }

theorem SendFrame.trans {u v : State} (h : SendFrame s u) (h' : SendFrame u v) : SendFrame s v := by
  obtain ⟨_, _, rfl⟩ := h.shape
  obtain ⟨_, _, rfl⟩ := h'.shape
  exact ⟨_, _, rfl⟩

theorem sendBarrier_frame (opcode node e : Nat) : SendFrame s (s.sendBarrier opcode node b e) := by
  unfold State.sendBarrier
  split
  · exact ⟨_, _, rfl⟩
  · exact ⟨_, _, rfl⟩

theorem reportArrival_frame : (s.reportArrival j b).tiles = s.tiles ∧ (s.reportArrival j b).jobs = s.jobs ∧ (s.reportArrival j b).mem = s.mem
    ∧ ((s.reportArrival j b).barrier b) = { s.barrier b with sent := ((s.reportArrival j b).barrier b).sent } := by
  unfold State.reportArrival
  split
  · obtain ⟨_, _, e⟩ := (sendBarrier_frame (s := s.setBarrier b { s.barrier b with sent := true }) (b := b) 0x10 (s.entry (0x4400 + b) 1) (s.barrierEpoch b)).shape
    rw [e]
    have hb : (s.setBarrier b { s.barrier b with sent := true }).barrier b = { s.barrier b with sent := true } := Laws.barrier_setBarrier_same ..
    refine ⟨rfl, rfl, rfl, ?_⟩
    exact hb.trans (congrArg (fun v => { s.barrier b with sent := v }) (congrArg Barrier.sent hb).symm)
  · exact ⟨rfl, rfl, rfl, rfl⟩

/-- The release up to where its tiles go on: of the job only its count of releases, its span and how far its replay is counted change. -/
structure Passed (s u : State) (j : Nat) : Prop where
  shape : ∃ d tl jb ti, u = { s with dict := d, tiles := tl, jobs := jb, ticks := ti }
  tiles : ∀ t, issueOf (u.tile t) = issueOf (s.tile t)
  job : ∃ a, u.job j = { s.job j with releases := (s.job j).releases + 1, trapAt := a, span := none, armed := false, replayed := false }
  entries : ∀ i k, i < 0x8000 → k < 256 → u.entry i k = s.entry i k

/-- The release with no span to open and no phase to begin: its job counts it and the tiles of its group go on (R236). -/
theorem passRelease_lets (him : (s.job j).image = some im) (hspans : im.spans = []) (hphases : im.phases = []) :
    ∃ u, Passed s u j ∧ s.passRelease j = u.letGo j := by
  have hset := (Settled.refl (s.updJob j fun x => { x with releases := (s.job j).releases + 1 })).settleJob j
  have hspan : ∀ n, im.spanAt n = none := fun n => by simp [Image.spanAt, hspans]
  have hphase : ∀ n, im.phaseAt n = none := fun n => by simp [Image.phaseAt, hphases]
  obtain ⟨v, hv⟩ : ∃ v, v = (s.updJob j fun x => { x with releases := (s.job j).releases + 1 }).settleJob j := ⟨_, rfl⟩
  rw [← hv] at hset
  obtain ⟨u, hu⟩ : ∃ u, u = v.updJob j fun x => { x with span := none, armed := false, replayed := false } := ⟨_, rfl⟩
  have hjob : ∃ a, u.job j = { s.job j with releases := (s.job j).releases + 1, trapAt := a, span := none, armed := false, replayed := false } := by
    obtain ⟨a, ha⟩ := hset.jobs j
    have hone : (s.updJob j fun x => { x with releases := (s.job j).releases + 1 }).job j = { s.job j with releases := (s.job j).releases + 1 } :=
      Laws.job_setJob_same ..
    rw [hone] at ha
    refine ⟨a, hu ▸ (Laws.job_setJob_same ..).trans ?_⟩
    rw [ha]
  have hopen : u.openSpan j ((s.job j).releases + 1) = u := by
    obtain ⟨a, ha⟩ := hjob
    rw [State.openSpan, ha]
    dsimp only
    rw [him]
    dsimp only
    rw [hspan]
  refine ⟨u, ⟨?_, fun t => ?_, hjob, fun i k hi hk => ?_⟩, ?_⟩
  · obtain ⟨_, _, _, _, e⟩ := hset.shape
    rw [hu, e]
    exact ⟨_, _, _, _, rfl⟩
  · obtain ⟨_, _, e⟩ := hset.tiles t
    exact (congrArg issueOf ((congrArg (fun x => x.tile t) hu).trans e)).trans rfl
  · exact (congrArg (fun x => x.entry i k) hu).trans (hset.entries i k hi hk)
  · rw [State.passRelease]
    rw [State.closeSpan, ← hv, ← hu, hopen]
    obtain ⟨a, ha⟩ := hjob
    rw [ha, him, Option.bind_some, hphase]

theorem CountFrame.barrier {u : State} (h : CountFrame s u) (b : Nat) : u.barrier b = s.barrier b := by
  obtain ⟨_, _, rfl⟩ := h.shape
  rfl

/-- What a release that passes leaves behind it (R236). -/
theorem Passed.lets {w u : State} (h : Passed w u j) : ((u.letGo j).job j).releases = (w.job j).releases + 1 ∧ (u.letGo j).barrier b = w.barrier b
    ∧ (u.letGo j).mem = w.mem ∧ (u.letGo j).pendingGroups = w.pendingGroups ∧ (u.letGo j).contexts = w.contexts
    ∧ (∀ i k, i < 0x8000 → k < 256 → (u.letGo j).entry i k = w.entry i k)
    ∧ ∀ t ∈ (w.job j).group, ((u.letGo j).tile t).run = .issuing ∧ ((u.letGo j).tile t).barWait = .none ∧ ((u.letGo j).tile t).sched = (w.tile t).sched := by
  have hgo := (CountFrame.refl u).letGo j
  have hshape : ∃ d tl jb ti, u.letGo j = { w with dict := d, tiles := tl, jobs := jb, ticks := ti } := by
    obtain ⟨_, _, _, _, hu⟩ := h.shape
    obtain ⟨_, _, hv⟩ := hgo.shape
    exact ⟨_, _, _, _, by rw [hv, hu]⟩
  have hjob : (u.letGo j).job j = u.job j := by
    obtain ⟨_, _, hv⟩ := hgo.shape
    rw [hv]
    rfl
  obtain ⟨a, ha⟩ := h.job
  refine ⟨by rw [hjob, ha], ?_, ?_, ?_, ?_, fun i k hi hk => (hgo.entries i k hi hk).trans (h.entries i k hi hk), fun t ht => ?_⟩
  case refine_5 =>
    have hone := letGo_issue (s := u) (j := j) (k := t) (by rw [ha]; exact ht)
    have hsched : (u.tile t).sched = (w.tile t).sched := congrArg (fun p : TileRun × BarWait × Nat => p.2.2) (h.tiles t)
    rw [hsched] at hone
    simpa [issueOf] using hone
  case refine_1 =>
    obtain ⟨_, _, _, _, e⟩ := hshape
    rw [e]
    rfl
  all_goals
    obtain ⟨_, _, _, _, e⟩ := hshape
    rw [e]

/-- A barrier whose job has no span open, releases its tiles once its pending groups are applied (R236, R320). -/
theorem releaseBarrier_passes {w : State} (him : (s.job j).image = some im) (hspans : im.spans = []) (hphases : im.phases = []) (hspan : (s.job j).span = none)
    (hjobs : w.jobs = s.jobs) (htiles : w.tiles = s.tiles)
    (hw : (((s.barrier b).children.foldl (fun s c => s.sendBarrier 0x11 c b (s.barrierEpoch b)) s).setBarrier b {}).applyPending j = w) :
    ∃ w' u, (∃ tl, w' = { w with tiles := tl }) ∧ (∀ t, issueOf (w'.tile t) = issueOf (s.tile t)) ∧ Passed w' u j ∧ s.releaseBarrier j b = u.letGo j := by
  obtain ⟨w', hw'⟩ : ∃ w', w' = (w.job j).group.foldl (fun s t => s.updTile t fun x => { x with keyOuts := [] }) w := ⟨_, rfl⟩
  have hfold : (∃ tl, w' = { w with tiles := tl }) ∧ ∀ t, issueOf (w'.tile t) = issueOf (w.tile t) := by
    rw [hw']
    generalize (w.job j).group = l
    clear hw' hw hjobs htiles
    induction l generalizing w with
    | nil => exact ⟨⟨_, rfl⟩, fun _ => rfl⟩
    | cons t l ih =>
      obtain ⟨⟨tl, h1⟩, h2⟩ := ih (w := w.updTile t fun x => { x with keyOuts := [] })
      exact ⟨⟨tl, h1⟩, fun k => (h2 k).trans (updTile_keeps issueOf (f := fun x => { x with keyOuts := [] }) (fun _ => rfl) k)⟩
  obtain ⟨⟨tl, hshape⟩, hissue⟩ := hfold
  have hjob : w'.job j = s.job j := by
    have : w'.jobs = s.jobs := by rw [hshape]; exact hjobs
    rw [State.job, this]
    rfl
  obtain ⟨u, hpassed, hu⟩ := passRelease_lets (s := w') (by rw [hjob]; exact him) hspans hphases
  refine ⟨w', u, ⟨tl, hshape⟩, fun t => (hissue t).trans (by rw [State.tile, htiles]; rfl), hpassed, ?_⟩
  rw [State.releaseBarrier]
  rw [hw, ← hw', hjob, hspan]
  exact hu

/-- RELEASE to the children touches the links alone. -/
theorem sendReleases_frame (l : List Nat) : SendFrame s (l.foldl (fun s c => s.sendBarrier 0x11 c b (s.barrierEpoch b)) s) := by
  induction l generalizing s with
  | nil => exact ⟨_, _, rfl⟩
  | cons c l ih =>
    exact (sendBarrier_frame 0x11 c (s.barrierEpoch b)).trans ih

theorem applyPending_none (h : (s.pendingGroups.any fun g => g.job = j) = false) : s.applyPending j = s := by
  have hne : ∀ g ∈ s.pendingGroups, g.job ≠ j := fun g hg hj => by
    rw [List.any_eq_false] at h
    exact h g hg (by simp [hj])
  have hnone : (s.pendingGroups.filter fun g => g.job = j) = [] := by
    rw [List.filter_eq_nil_iff]
    exact fun g hg => by simpa using hne g hg
  have hall : (s.pendingGroups.filter fun g => g.job ≠ j) = s.pendingGroups := by
    rw [List.filter_eq_self]
    exact fun g hg => by simpa using hne g hg
  rw [State.applyPending]
  rw [hnone, hall]
  rfl

/-- A barrier with no group pending on its job lets every tile of the job issue again (R236). -/
theorem releaseBarrier_lets (him : (s.job j).image = some im) (hspans : im.spans = []) (hphases : im.phases = []) (hspan : (s.job j).span = none)
    (hgroups : (s.pendingGroups.any fun g => g.job = j) = false) :
    ((s.releaseBarrier j b).job j).releases = (s.job j).releases + 1 ∧ (s.releaseBarrier j b).barrier b = {} ∧ (s.releaseBarrier j b).mem = s.mem
      ∧ ∀ t ∈ (s.job j).group, ((s.releaseBarrier j b).tile t).run = .issuing ∧ ((s.releaseBarrier j b).tile t).barWait = .none
          ∧ ((s.releaseBarrier j b).tile t).sched = (s.tile t).sched := by
  obtain ⟨p, o, hsent⟩ := (sendReleases_frame (s := s) (b := b) (s.barrier b).children).shape
  obtain ⟨w, hw⟩ : ∃ w, w = State.setBarrier { s with ports := p, out := o } b {} := ⟨_, rfl⟩
  have happly : (((s.barrier b).children.foldl (fun s c => s.sendBarrier 0x11 c b (s.barrierEpoch b)) s).setBarrier b {}).applyPending j = w := by
    rw [hsent, ← hw]
    exact applyPending_none (by rw [hw]; exact hgroups)
  obtain ⟨w', u, ⟨tl, hw'⟩, hissue, hpassed, hu⟩ := releaseBarrier_passes him hspans hphases hspan (by rw [hw]; rfl) (by rw [hw]; rfl) happly
  have hjob : w'.job j = s.job j := by rw [hw', hw]; rfl
  have hbar : w'.barrier b = {} := by
    rw [hw', hw]
    exact Laws.barrier_setBarrier_same ..
  have hmem : w'.mem = s.mem := by rw [hw', hw]; rfl
  obtain ⟨h1, h2, h3, -, -, -, h4⟩ := hpassed.lets (b := b)
  rw [hu]
  rw [hjob] at h1 h4
  refine ⟨h1, h2.trans hbar, h3.trans hmem, fun t ht => ?_⟩
  obtain ⟨hrun, hwait, hsched⟩ := h4 t ht
  exact ⟨hrun, hwait, hsched.trans (congrArg (fun p : TileRun × BarWait × Nat => p.2.2) (hissue t))⟩

theorem barrierRelease_releases (hj : j < 16) (hb : s.waitingAt j = some b) (hrun : (s.job j).state = .running) (him : (s.job j).image = some im)
    (hdev : im.cert.devices ≤ 1) : exec (.barrierRelease j) s = .next (s.releaseBarrier j b) := by
  have hspans : (s.job j).spansDevices = false := by
    rw [Job.spansDevices, him]
    simpa using hdev
  have hroot : s.isRoot j b = true := by simp [State.isRoot, hspans]
  have hin : s.childrenIn j b = true := by simp [State.childrenIn, hspans]
  change execBarrierRelease j s = _
  rw [execBarrierRelease, Laws.onJob_next hj, hb]
  exact congrArg _ (if_pos ⟨hrun, hroot, hin⟩)

theorem releaseFrame_releases (hb : b < 64) (hj : s.barrierJob b = some j) (hsent : (s.barrier b).sent = true) :
    exec (.releaseFrame b (s.barrierEpoch b)) s = .next (s.releaseBarrier j b) := by
  change execReleaseFrame b _ s = _
  rw [execReleaseFrame, Laws.onUnit_next hb, hj]
  dsimp only
  rw [if_neg (by simp), if_pos hsent]

/-! ### Arrival and timeout (R237, R320, R321) -/

theorem barrierArrive_arrives (ht : t < 64) (hj : s.jobOfTile t = some j) (hb : (s.tile t).barWait = .issued b) (hrun : (s.job j).state = .running)
    (hqueue : (s.tile t).queue = []) (hnone : (s.tile t).running = []) :
    ∃ s2, exec (.barrierArrive t) s = .next s2 ∧ (s2.tile t).barWait = .arrived b ∧ (s2.barrier b).arrived = (s.barrier b).arrived ++ [t]
      ∧ (s2.barrier b).lastArrival = s.now ∧ (s2.barrier b).limit = 1000 * s.entry 0x4010 3 ∧ s2.mem = s.mem ∧ s2.jobs = s.jobs := by
  obtain ⟨u, hu⟩ : ∃ u, u = (s.updTile t fun x => { x with barWait := .arrived b }).setBarrier b
    { s.barrier b with arrived := (s.barrier b).arrived ++ [t], lastArrival := s.now, limit := 1000 * s.entry 0x4010 3 } := ⟨_, rfl⟩
  have hbar : u.barrier b = { s.barrier b with arrived := (s.barrier b).arrived ++ [t], lastArrival := s.now, limit := 1000 * s.entry 0x4010 3 } := by
    rw [hu]
    exact Laws.barrier_setBarrier_same ..
  have hx : exec (.barrierArrive t) s = .next (u.reportArrival j b) := by
    change execBarrierArrive t s = _
    rw [execBarrierArrive, Laws.onTile_next ht, State.arrive, hj, hb]
    dsimp only
    rw [hrun, hqueue, hnone, hu]
    rfl
  obtain ⟨htiles, hjobs, hmem, hreport⟩ := reportArrival_frame (s := u) (j := j) (b := b)
  refine ⟨_, hx, ?_, ?_, ?_, ?_, hmem.trans (by rw [hu]; rfl), hjobs.trans (by rw [hu]; rfl)⟩
  · rw [State.tile, htiles, hu]
    exact congrArg Tile.barWait (Laws.tile_updTile_same (s := s) (t := t) (fun x => { x with barWait := .arrived b }))
  all_goals rw [hreport, hbar]

theorem arriveFrame_counts {child : Nat} (hb : b < 64) (hj : s.barrierJob b = some j) (hnew : (s.barrier b).children.contains child = false) :
    ∃ s2, exec (.arriveFrame b (s.barrierEpoch b) child) s = .next s2 ∧ (s2.barrier b).children = (s.barrier b).children ++ [child]
      ∧ (s2.barrier b).arrived = (s.barrier b).arrived ∧ s2.tiles = s.tiles ∧ s2.jobs = s.jobs ∧ s2.mem = s.mem := by
  obtain ⟨u, hu⟩ : ∃ u, u = s.setBarrier b { s.barrier b with children := (s.barrier b).children ++ [child] } := ⟨_, rfl⟩
  have hbar : u.barrier b = { s.barrier b with children := (s.barrier b).children ++ [child] } := hu ▸ Laws.barrier_setBarrier_same ..
  have hx : exec (.arriveFrame b (s.barrierEpoch b) child) s = .next (u.reportArrival j b) := by
    change execArriveFrame b _ child s = _
    rw [execArriveFrame, Laws.onUnit_next hb, hj]
    dsimp only
    rw [if_neg (by simp), if_neg (by rw [hnew]; decide), hu]
  obtain ⟨htiles, hjobs, hmem, hreport⟩ := reportArrival_frame (s := u) (j := j) (b := b)
  refine ⟨_, hx, ?_, ?_, htiles.trans (by rw [hu]; rfl), hjobs.trans (by rw [hu]; rfl), hmem.trans (by rw [hu]; rfl)⟩
  all_goals rw [hreport, hbar]

theorem staleFrames_drop {epoch child : Nat} (hb : b < 64) (hj : s.barrierJob b = some j) (hepoch : epoch ≠ s.barrierEpoch b) :
    exec (.arriveFrame b epoch child) s = .next (s.bump (0x4400 + b) 5 1) ∧ exec (.releaseFrame b epoch) s = .next (s.bump (0x4400 + b) 5 1) := by
  constructor
  · change execArriveFrame b _ child s = _
    rw [execArriveFrame, Laws.onUnit_next hb, hj]
    exact congrArg _ (if_pos hepoch)
  · change execReleaseFrame b _ s = _
    rw [execReleaseFrame, Laws.onUnit_next hb, hj]
    exact congrArg _ (if_pos hepoch)

theorem abortJob_shape {code tile bundle : Nat} : ∃ d tl jb ti, s.abortJob j code tile bundle = { s with dict := d, tiles := tl, jobs := jb, ticks := ti } := by
  unfold State.abortJob
  dsimp only
  split
  · obtain ⟨_, _, _, _, h⟩ := ((Settled.refl s).settleJob j).shape
    rw [h]
    exact ((Settled.refl _).faultTick j).shape.imp fun _ => Exists.imp fun _ => Exists.imp fun _ => Exists.imp fun _ e => e
  · split
    · split <;> exact ⟨_, _, _, _, rfl⟩
    · exact ⟨_, _, _, _, rfl⟩

theorem barrierTimeout_aborts (hb : b < 64) (hj : s.barrierJob b = some j) (hall : s.allArrived j b = true)
    (hdue : (s.barrier b).lastArrival + (s.barrier b).limit ≤ s.now) (hrun : (s.job j).state = .running) :
    ∃ s2, exec (.barrierTimeout b) s = .next s2 ∧ (s2.job j).state = .draining ∧ (s2.job j).drain = .abort ∧ (s2.job j).abortCode = FABRIC_TIMEOUT
      ∧ s2.barrierEpoch b = (s.barrierEpoch b + 1) % 65536 ∧ s2.barrier b = {} ∧ s2.mem = s.mem ∧ Safety.tilesKeep s s2 := by
  obtain ⟨v, hv⟩ : ∃ v, v = (s.setBarrier b {}).setEntry (0x4400 + b) 3 ((s.barrierEpoch b + 1) % 65536) := ⟨_, rfl⟩
  have hevent := (EventFrame.refl v).raise 0xB0E2 0xFF FABRIC_TIMEOUT b (s.barrierEpoch b)
  have hepoch : (v.raise 0xB0E2 0xFF FABRIC_TIMEOUT b (s.barrierEpoch b)).entry (0x4400 + b) 3 = (s.barrierEpoch b + 1) % 65536 := by
    rw [entry_raise (by decide) (by omega) (by omega) (by omega), hv]
    exact Laws.entry_setEntry_same ..
  have hbar : (v.raise 0xB0E2 0xFF FABRIC_TIMEOUT b (s.barrierEpoch b)).barrier b = {} := by
    obtain ⟨_, _, _, _, _, _, _, e⟩ := hevent
    rw [e, hv]
    exact Laws.barrier_setBarrier_same ..
  have hx : exec (.barrierTimeout b) s = .next ((v.raise 0xB0E2 0xFF FABRIC_TIMEOUT b (s.barrierEpoch b)).abortJob j FABRIC_TIMEOUT 0xFF 0) := by
    change execBarrierTimeout b s = _
    rw [execBarrierTimeout, Laws.onUnit_next hb, State.barrierTimeout, hj]
    dsimp only
    rw [if_pos ⟨hall, hdue⟩, hv]
  have hmem : (v.raise 0xB0E2 0xFF FABRIC_TIMEOUT b (s.barrierEpoch b)).mem = s.mem := hevent.mem.trans (by rw [hv]; rfl)
  have htile : ∀ k, (v.raise 0xB0E2 0xFF FABRIC_TIMEOUT b (s.barrierEpoch b)).tile k = s.tile k := fun k => (hevent.tile k).trans (by rw [hv]; rfl)
  have hjob : (v.raise 0xB0E2 0xFF FABRIC_TIMEOUT b (s.barrierEpoch b)).job j = s.job j := (hevent.job j).trans (by rw [hv]; rfl)
  generalize v.raise 0xB0E2 0xFF FABRIC_TIMEOUT b (s.barrierEpoch b) = w at hepoch hbar hx hmem htile hjob
  have hend := abortJob_running FABRIC_TIMEOUT 0xFF 0 (by rw [hjob]; exact hrun)
  obtain ⟨hstate, hdrain, hcode, -⟩ := hend.ended
  refine ⟨_, hx, hstate, hdrain, hcode, (hend.entries _ _ (by omega) (by decide)).trans hepoch, ?_, hend.mem.trans hmem, fun k => ?_⟩
  · obtain ⟨_, _, _, _, e⟩ := abortJob_shape (s := w) (j := j) (code := FABRIC_TIMEOUT) (tile := 0xFF) (bundle := 0)
    rw [e]
    exact hbar
  · obtain ⟨_, _, e⟩ := hend.tiles k
    rw [e, htile]
    exact ⟨rfl, rfl, rfl, rfl, rfl, rfl, rfl, rfl, rfl, rfl⟩

/-! ### A group pending on the job (R40) -/

theorem policy_row : ∀ j < 16, isPersistent (0x2200 + j) 1 = false ∧ ((lookupEntry (0x2200 + j) 1).map fun r => decide (r.cls = .stopped)) = some false
    ∧ Safety.commandEntry (0x2200 + j) 1 = false := by decide

/-- The job's one pending group, which sets its policy, is applied and gone (R40). -/
theorem applyPending_policy {v ctx id d : Nat} (hj : j < 16) (hctx : s.hasContext ctx = true) (hid : (s.context ctx).groupId = id)
    (hgroups : s.pendingGroups = [{ ctx := ctx, id := id, job := j, staged := [(entryKey (0x2200 + j) 1, v)], deadline := d }]) :
    s.applyPending j = ({ s with pendingGroups := [] }.setEntry (0x2200 + j) 1 v).setContext ctx
      { s.context ctx with applyTime := s.fabricTime, staged := [], snapshot := none, groupState := 3 } := by
  obtain ⟨hvolatile, hepoch, hplain⟩ := policy_row j hj
  have hmine : (s.pendingGroups.filter fun g => g.job = j) = s.pendingGroups := by simp [hgroups]
  have hothers : (s.pendingGroups.filter fun g => g.job ≠ j) = [] := by simp [hgroups]
  have hfree : { s with pendingGroups := [] }.stagedConflict [(entryKey (0x2200 + j) 1, v)] = false := by
    simp only [State.stagedConflict, List.any_cons, List.any_nil, entryKey_div (show (1 : Nat) < 256 by decide), entryKey_mod (show (1 : Nat) < 256 by decide), hepoch]
    rfl
  rw [State.applyPending, hmine, hothers, hgroups]
  simp only [List.foldl_cons, List.foldl_nil, State.applyGroup, hfree, Bool.false_eq_true, if_false, State.applyStaged, entryKey_div (show (1 : Nat) < 256 by decide),
    entryKey_mod (show (1 : Nat) < 256 by decide), applyEntry_plain hplain, List.filter_cons, hvolatile, List.filter_nil, State.sendRecord, List.isEmpty_nil, if_true]
  rw [State.endGroup]
  rw [if_pos (show State.hasContext (State.setEntry { s with pendingGroups := [] } (0x2200 + j) 1 v) ctx = true from hctx), State.updContext]
  rw [show State.context (State.setEntry { s with pendingGroups := [] } (0x2200 + j) 1 v) ctx = s.context ctx from rfl, if_pos hid, Context.showState, if_pos hid]
  rfl

theorem barrierRelease_applies {v ctx id d : Nat} (hj : j < 16) (hb : s.waitingAt j = some b) (hrun : (s.job j).state = .running) (him : (s.job j).image = some im)
    (hdev : im.cert.devices ≤ 1) (hspans : im.spans = []) (hphases : im.phases = []) (hspan : (s.job j).span = none)
    (hctx : s.hasContext ctx = true) (hid : (s.context ctx).groupId = id)
    (hgroups : s.pendingGroups = [{ ctx := ctx, id := id, job := j, staged := [(entryKey (0x2200 + j) 1, v)], deadline := d }]) :
    ∃ s2, exec (.barrierRelease j) s = .next s2 ∧ s2.entry (0x2200 + j) 1 = v ∧ s2.pendingGroups = [] ∧ (s2.context ctx).groupState = 3
      ∧ s2.mem = s.mem ∧ ∀ t ∈ (s.job j).group, (s2.tile t).run = .issuing := by
  obtain ⟨p, o, hsent⟩ := (sendReleases_frame (s := s) (b := b) (s.barrier b).children).shape
  obtain ⟨w, hw⟩ : ∃ w, w = (State.setBarrier { s with ports := p, out := o } b {}).applyPending j := ⟨_, rfl⟩
  have happly : (((s.barrier b).children.foldl (fun s c => s.sendBarrier 0x11 c b (s.barrierEpoch b)) s).setBarrier b {}).applyPending j = w := by
    rw [hsent, ← hw]
  rw [applyPending_policy (s := State.setBarrier { s with ports := p, out := o } b {}) hj hctx hid hgroups] at hw
  obtain ⟨w', u, ⟨tl, hw'⟩, -, hpassed, hu⟩ := releaseBarrier_passes him hspans hphases hspan (by rw [hw]; rfl) (by rw [hw]; rfl) happly
  obtain ⟨-, -, hmem, hnone, hcontexts, hentries, htiles⟩ := hpassed.lets (b := b)
  have hgroup : (w'.job j).group = (s.job j).group := by rw [hw', hw]; rfl
  rw [hgroup] at htiles
  refine ⟨_, barrierRelease_releases hj hb hrun him hdev, ?_, ?_, ?_, ?_, fun t ht => hu ▸ (htiles t ht).1⟩
  · rw [hu, hentries _ _ (by omega) (by decide), hw', hw]
    exact Laws.entry_setEntry_same ..
  · rw [hu, hnone, hw', hw]
    rfl
  · rw [hu, State.context, hcontexts, hw', hw]
    exact congrArg Context.groupState (Laws.context_setContext_same ..)
  · rw [hu, hmem, hw', hw]
    rfl

/-- Settles O34: a tile's arrival, a barrier's release with and without a group pending on the job, the frames of a barrier and its timeout. -/
theorem barriersMeet : Obligations.BarriersMeet := by
  unfold Obligations.BarriersMeet
  refine ⟨fun _ _ _ _ ht hj hb hrun hqueue hnone => barrierArrive_arrives ht hj hb hrun hqueue hnone,
    fun _ _ _ _ hj hb hrun him hdev hspans hphases hspan hgroups =>
      ⟨_, barrierRelease_releases hj hb hrun him hdev, releaseBarrier_lets him hspans hphases hspan hgroups⟩,
    fun _ _ _ _ hb hj him hsent hspans hphases hspan hgroups =>
      ⟨_, releaseFrame_releases hb hj hsent, releaseBarrier_lets him hspans hphases hspan hgroups⟩,
    fun _ _ _ _ hb hj hnew => arriveFrame_counts hb hj hnew,
    fun _ _ _ _ _ hb hj hepoch => staleFrames_drop hb hj hepoch,
    fun _ _ _ hb hj hall hdue hrun => barrierTimeout_aborts hb hj hall hdue hrun,
    fun _ _ _ _ _ _ _ _ hj hb hrun him hdev hspans hphases hspan _ hctx hid hgroups =>
      barrierRelease_applies hj hb hrun him hdev hspans hphases hspan hctx hid hgroups⟩

end Sys2Proof.Proofs
end

section
/-! PROOFS. The direct conversion: what a conversion that fails writes beside its destination (R120, R294). -/

namespace Sys2Proof.Proofs

open Sys2Proof.Machine

/-- A write leaves a byte outside its range as the zeroing of the poisoned words leaves it (R294). -/
theorem memByte_memWrite_outside {s : State} {a x : Nat} {bs : List Byte} (hx : ¬(a ≤ x ∧ x < a + bs.length)) :
    (s.memWrite a bs).memByte x = ((wordsOf a bs.length).foldl State.zeroPoisoned s).memByte x := by
  have hStamp (l : List Nat) (t : State) : (l.foldl State.stampWord t).memByte x = t.memByte x :=
    foldl_keeps (f := State.stampWord) (fun t => t.memByte x) (fun _ _ => rfl) l t
  rw [State.memWrite, hStamp, Laws.memByte_putBytes, if_neg hx]

/-- The conversion of one FP32 element at the start of memory into the four bytes behind the first. -/
def edgeConversion : Conversion :=
  { tile := 0, source := 0xFFFF000000000000, destination := 0xFFFF000000000001, count := 1, word := 65 }

/-- It runs, and its source and its destination share a poisoned word, whose first byte is 1. -/
def poisonedEdge : State :=
  { State.reset with conversion := some edgeConversion, mem := [(0, 1)], wordPoison := [0] }

theorem poisonedEdge_status : poisonedEdge.convStatus edgeConversion OK = SLOT_POISON := by decide

theorem poisonedEdge_outside : ¬(localOf edgeConversion.destination ≤ 0
    ∧ 0 < localOf edgeConversion.destination + edgeConversion.destLength (poisonedEdge.convSet edgeConversion)) := by decide

theorem poisonedEdge_byte : poisonedEdge.memByte 0 = 1 := by decide

theorem poisonedEdge_zeroed : ((wordsOf 1 4).foldl State.zeroPoisoned poisonedEdge.useFree).memByte 0 = 0 := by decide

theorem memByte_endConversion {s : State} (c : Conversion) (code x : Nat) : (s.endConversion c code).memByte x = s.memByte x := by
  unfold State.endConversion State.noteIdle
  split <;> rfl

/-- The write of the destination's undefined bytes zeroes the rest of the poisoned word (R294). -/
theorem poisonedEdge_fails : ∃ s2, exec (.convComplete OK []) poisonedEdge = .next s2 ∧ s2.memByte 0 = 0 := by
  refine ⟨poisonedEdge.convFail edgeConversion SLOT_POISON, ?_, ?_⟩
  · change execConvComplete OK [] poisonedEdge = _
    rw [execConvComplete, show poisonedEdge.conversion = some edgeConversion from rfl]
    dsimp only
    rw [show poisonedEdge.remoteOps = [] from rfl, State.convAdvance, show edgeConversion.stage = .reading from rfl]
    dsimp only
    rw [poisonedEdge_status, List.any_nil, if_neg (by decide), if_neg (by decide)]
  · have hReach : poisonedEdge.isSelf (nodeOf edgeConversion.destination) = true ∧ poisonedEdge.convReach edgeConversion = true := by decide
    rw [State.convFail, memByte_endConversion, State.undefineDestination, if_pos hReach, memByte_memWrite_outside
      (by rw [List.length_map, List.length_range]; exact poisonedEdge_outside), List.length_map, List.length_range]
    exact poisonedEdge_zeroed

/-- Refutes O35: where a conversion fails, a poisoned word that its destination covers in part loses its other bytes. -/
theorem not_directConversion : ¬ Obligations.DirectConversion := by
  unfold Obligations.DirectConversion
  rintro ⟨-, -, -, -, hFails⟩
  obtain ⟨s2, hx, -, -, hOutside, -⟩ := hFails poisonedEdge edgeConversion SLOT_POISON OK [] rfl rfl rfl poisonedEdge_status (by decide)
  obtain ⟨s3, hy, hZero⟩ := poisonedEdge_fails
  rw [hx] at hy
  injection hy with hy
  rw [← hy, hOutside 0 poisonedEdge_outside, poisonedEdge_byte] at hZero
  exact absurd hZero (by decide)

end Sys2Proof.Proofs
end

section
/-! PROOFS. Writes of command entries, and snapshots (R30, R37, R46, R402-R406). -/

namespace Sys2Proof.Proofs
open Sys2Proof.Machine

section CommandRows

/-- The row of an entry whose accepted write is carried out by the host side at once and starts something: no content, not context-local, not served by
Fumarole, not persistent, of no tile. -/
structure CommandRow (i sub : Nat) (r : EntryRow) : Prop where
  row : lookupEntry i sub = some r
  content : r.ty.isContent = false
  places : isContextLocal i sub = false ∧ isFieldServed i = false ∧ isPersistent i sub = false ∧ tileOf i = none
  index : i ≠ 0x9030 ∧ i ≠ 0x1038
  takes : r.acc = .wo ∨ ((r.acc = .rw ∨ r.acc = .rws) ∧ r.cls ≠ .epoch)

variable {s : State} {ctx i sub v : Nat} {r : EntryRow} {op : State → Nat × State}

/-- A command in range, in a state that lets it through, is carried out. -/
theorem writeResult_command (h : Safety.direct s ctx = true) (hr : CommandRow i sub r) (hRange : s.rangeRefusal r i sub v = none)
    (hState : s.stateRefusal ctx i sub true = none) (hStopped : r.cls = .stopped → s.unitStopped i sub = true) : s.writeResult ctx i sub v op = op s := by
  obtain ⟨hServed, -⟩ := Laws.direct_parts h
  obtain ⟨hLocal, hField, hPersist, hTile⟩ := hr.places
  have hCross : crosses ctx i = false := by simp [crosses, hField]
  have hTiles : ((tileOf i).any fun t => !s.tileEnabled t) = false := by rw [hTile]; rfl
  have hTake : State.takeWrite (slotWrite ctx i sub v) i sub v op s = op s := Laws.takeWrite_here _ hCross hPersist
  have hDecide : s.decideWrite r ctx i sub v (State.takeWrite (slotWrite ctx i sub v) i sub v op) = op s := by
    rcases hr.takes with hAcc | ⟨hAcc, hCls⟩
    · exact (Laws.decideWrite_command h hr.content hAcc hr.index hRange hState hLocal hStopped).trans hTake
    · exact (Laws.decideWrite_value h hr.content hAcc hr.index hRange hState hLocal hCls hStopped).trans hTake
  simp only [State.writeResult, Laws.accessRefusal_served true hServed hr.row hTiles, hr.row, hDecide]

/-- Its outcome is recorded. -/
theorem writeEntry_command (h : Safety.direct s ctx = true) (hr : CommandRow i sub r) (hRange : s.rangeRefusal r i sub v = none)
    (hState : s.stateRefusal ctx i sub true = none) (hStopped : r.cls = .stopped → s.unitStopped i sub = true) :
    s.writeEntry ctx i sub v op = (op s).2.record ctx i sub (op s).1 := by
  obtain ⟨hServed, -⟩ := Laws.direct_parts h
  obtain ⟨hReady, -, -, hSecure, -, hAwaits⟩ := Laws.served_parts hServed
  have hPaused : s.bar0Paused ctx = false := by simp [State.bar0Paused, hReady]
  have hTurn : s.awaits (slotWrite ctx i sub v).ctx = false := hAwaits
  simp only [State.writeEntry, State.served, hPaused, hSecure, State.inTurn, hTurn, writeResult_command h hr hRange hState hStopped, Bool.false_eq_true, if_false]

/-- A value within its row's range meets no refusal, at an entry that no rule of its own bounds further. -/
theorem rangeRefusal_none (hMax : v ≤ r.ty.max) (hRow : r.min ≤ v ∧ v ≤ r.max)
    (hJob : r.index ≠ 0x6100 ∨ sub ≠ 1 ∨ (v ≠ 0 ∧ v ≤ 5)) (hValue : s.valueRefusal i sub v = none) : s.rangeRefusal r i sub v = none := by
  unfold State.rangeRefusal
  rw [if_neg (by omega), if_neg (by omega)]
  exact hValue

/-- The context of an access shows its outcome. -/
theorem outcome_record (hc : ctx < 16) {code : Nat} (hw : code ≠ WAITING) : Safety.outcome (s.record ctx i sub code) ctx i sub code := by
  unfold Safety.outcome
  rw [context_record (Laws.hasContext_small hc) hw]
  exact ⟨rfl, rfl⟩

end CommandRows

section Snapshots

variable {s : State} {ctx v : Nat}

theorem snapTrigger_row : ∃ r, CommandRow 0x8010 1 r ∧ r.ty = .u8 ∧ r.min = 1 ∧ r.max = 3 ∧ r.index = 0x8010 ∧ r.cls = .immediate :=
  ⟨(lookupEntry 0x8010 1).get (by decide), ⟨by simp, by decide, by decide, by decide, by decide⟩, by decide, by decide, by decide, by decide, by decide⟩

/-- The outcomes of a trigger are no wait. -/
theorem ok_ne_waiting : OK ≠ WAITING := by decide

theorem conflict_ne_waiting : STATE_CONFLICT ≠ WAITING := by decide

/-- A trigger that SnapTrigger takes is carried out, and its outcome recorded. -/
theorem snapTrigger_taken (h : Safety.direct s ctx = true) (hv : 1 ≤ v ∧ v ≤ 3) {op : State → Nat × State} :
    s.writeEntry ctx 0x8010 1 v op = (op s).2.record ctx 0x8010 1 (op s).1 := by
  obtain ⟨r, hr, hTy, hMin, hMax, hIndex, hCls⟩ := snapTrigger_row
  obtain ⟨hServed, -⟩ := Laws.direct_parts h
  have hU8 : EntryType.u8.max = 255 := rfl
  have hRange : s.rangeRefusal r 0x8010 1 v = none :=
    rangeRefusal_none (by rw [hTy, hU8]; omega) (by omega) (.inl (by rw [hIndex]; decide)) (by simp [State.valueRefusal])
  exact writeEntry_command h hr hRange (Laws.stateRefusal_served true hServed (by decide) (by decide)) (fun hc => by rw [hCls] at hc; cases hc)

/-- Outside UPDATING a trigger's tick joins the pending ones. -/
theorem addTick_appends {k : LatchTick} (h : s.entry 0x1100 1 ≠ 7) :
    s.addTick k = { s with ticks := s.ticks ++ [{ k with accepted := s.fabricTime, late := k.timed && k.time < s.fabricTime }] } := if_neg h

theorem direct_state (h : Safety.direct s ctx = true) : s.entry 0x1100 1 = 2 := by
  obtain ⟨hServed, -⟩ := Laws.direct_parts h
  obtain ⟨hReady, -⟩ := Laws.served_parts hServed
  simpa [State.ready] using hReady

/-- A trigger that is accepted leaves one tick more and its outcome, and what else it changes is no entry, tile, job or byte. -/
theorem ticked_record {u : State} {k : LatchTick} (hc : ctx < 16) (hState : s.entry 0x1100 1 = 2)
    (hu : u.ticks = s.ticks ∧ u.dict = s.dict ∧ u.tiles = s.tiles ∧ u.jobs = s.jobs ∧ u.mem = s.mem) :
    Safety.ticked s ((u.addTick k).record ctx 0x8010 1 OK) k.time k.source k.timed := by
  obtain ⟨hTicks, hDict, hTiles, hJobs, hMem⟩ := hu
  have hUpdating : u.entry 0x1100 1 ≠ 7 := by
    rw [State.entry, hDict, show Tab.get s.dict _ _ = s.entry 0x1100 1 from rfl, hState]
    decide
  rw [addTick_appends hUpdating, Laws.record_eq hc _ (by decide) (by decide)]
  refine ⟨?_, hDict, hTiles, hJobs, hMem⟩
  change (u.ticks ++ [_]).map _ = _
  rw [hTicks, List.map_append]
  rfl

theorem snapImmediate_ticks (h : Safety.direct s ctx = true) :
    ∃ s2, exec (.snapImmediate ctx) s = .next s2 ∧ Safety.ticked s s2 (s.fabricTime + 1000) srcImmediate false ∧ Safety.outcome s2 ctx 0x8010 1 OK := by
  obtain ⟨hServed, -⟩ := Laws.direct_parts h
  obtain ⟨-, -, hCtx, -⟩ := Laws.served_parts hServed
  exact ⟨_, congrArg Host.Outcome.next (snapTrigger_taken h (by decide)),
    ticked_record hCtx (direct_state h) ⟨rfl, rfl, rfl, rfl, rfl⟩, outcome_record hCtx ok_ne_waiting⟩

theorem snapTimed_ticks (h : Safety.direct s ctx = true) (hRoom : s.timedTicks < 4) :
    ∃ s2, exec (.snapTimed ctx) s = .next s2 ∧ Safety.ticked s s2 (s.entry 0x8010 2) srcTimed true ∧ Safety.outcome s2 ctx 0x8010 1 OK := by
  obtain ⟨hServed, -⟩ := Laws.direct_parts h
  obtain ⟨-, -, hCtx, -⟩ := Laws.served_parts hServed
  have hOp : s.snapOp 2 = (OK, s.addTick { time := s.entry 0x8010 2, source := srcTimed, timed := true, origin := s.nodeId }) := by
    simp [State.snapOp, Nat.not_le.mpr hRoom]
  refine ⟨_, congrArg Host.Outcome.next (snapTrigger_taken h (by decide)), ?_⟩
  rw [hOp]
  exact ⟨ticked_record hCtx (direct_state h) ⟨rfl, rfl, rfl, rfl, rfl⟩, outcome_record hCtx ok_ne_waiting⟩

theorem snapTimed_refused (h : Safety.direct s ctx = true) (hFull : 4 ≤ s.timedTicks) :
    ∃ s2, exec (.snapTimed ctx) s = .next s2 ∧ s2.ticks = s.ticks ∧ Safety.outcome s2 ctx 0x8010 1 STATE_CONFLICT := by
  obtain ⟨hServed, -⟩ := Laws.direct_parts h
  obtain ⟨-, -, hCtx, -⟩ := Laws.served_parts hServed
  have hOp : s.snapOp 2 = (STATE_CONFLICT, s) := by simp [State.snapOp, hFull]
  refine ⟨_, congrArg Host.Outcome.next (snapTrigger_taken h (by decide)), ?_⟩
  rw [hOp]
  refine ⟨?_, outcome_record hCtx conflict_ne_waiting⟩
  rw [record_eq]

/-- SNAP frames leave by the ports, and nothing else changes. -/
theorem sendSnap_frame (source ident target : Nat) (arrival : Option Nat) : SendFrame s (s.sendSnap source ident target arrival) := by
  unfold State.sendSnap
  dsimp only
  generalize (List.range 16).filter _ = ports
  induction ports using List.reverseRecOn with
  | nil => exact ⟨_, _, rfl⟩
  | append_singleton l p ih =>
    rw [List.foldl_append]
    exact ih.trans ⟨_, _, rfl⟩

/-- The state that SnapTrigger's broadcast sends its frames from. -/
abbrev broadcastSeen (s : State) : State := { s with snapsSeen := s.snapsSeen ++ [(s.nodeId, s.entry 0x8010 3)] }

theorem snapBroadcast_ticks (h : Safety.direct s ctx = true) (hRoom : s.timedTicks < 4) :
    ∃ s2, exec (.snapBroadcast ctx) s = .next s2 ∧ Safety.ticked s s2 (s.entry 0x8010 2) srcTimed true ∧ Safety.outcome s2 ctx 0x8010 1 OK
      ∧ s2.snapsSeen = s.snapsSeen ++ [(s.nodeId, s.entry 0x8010 3)] := by
  obtain ⟨hServed, -⟩ := Laws.direct_parts h
  obtain ⟨-, -, hCtx, -⟩ := Laws.served_parts hServed
  have hSent := sendSnap_frame (s := broadcastSeen s) s.nodeId (s.entry 0x8010 3) (s.entry 0x8010 2) none
  have hOp : s.snapOp 3 = (OK, ((broadcastSeen s).sendSnap s.nodeId (s.entry 0x8010 3) (s.entry 0x8010 2) none).addTick
      { time := s.entry 0x8010 2, source := srcTimed, timed := true, ident := s.entry 0x8010 3, origin := s.nodeId }) := by
    simp [State.snapOp, Nat.not_le.mpr hRoom]
  generalize (broadcastSeen s).sendSnap s.nodeId (s.entry 0x8010 3) (s.entry 0x8010 2) none = u at hSent hOp
  have hKeeps : u.ticks = s.ticks ∧ u.dict = s.dict ∧ u.tiles = s.tiles ∧ u.jobs = s.jobs ∧ u.mem = s.mem ∧ u.snapsSeen = (broadcastSeen s).snapsSeen := by
    obtain ⟨p, o, e⟩ := hSent.shape
    rw [e]
    exact ⟨rfl, rfl, rfl, rfl, rfl, rfl⟩
  obtain ⟨hTicks, hDict, hTiles, hJobs, hMem, hSeen⟩ := hKeeps
  have hUpdating : u.entry 0x1100 1 ≠ 7 := by
    have he : u.entry 0x1100 1 = s.entry 0x1100 1 := by rw [State.entry, hDict]; rfl
    rw [he, direct_state h]
    decide
  refine ⟨_, congrArg Host.Outcome.next (snapTrigger_taken h (by decide)), ?_⟩
  rw [hOp]
  refine ⟨ticked_record hCtx (direct_state h) ⟨hTicks, hDict, hTiles, hJobs, hMem⟩, outcome_record hCtx ok_ne_waiting, ?_⟩
  rw [addTick_appends hUpdating, record_eq]
  exact hSeen

/-! ### The latch and the copy (R404-R406) -/

/-- A capture takes its slot, and changes no tile, no job and no byte of memory. -/
theorem capture_takes {first : LatchTick} {ks : List LatchTick} {n : Nat} (hSlot : s.captureSlot = some n) :
    (s.capture first ks).copying = some (n, first.time) ∧ (s.capture first ks).entry (0x8040 + n) 1 = 1 ∧ (s.capture first ks).entry (0x8040 + n) 2 = s.captureSeq
      ∧ (s.capture first ks).entry (0x8040 + n) 4 = first.time ∧ (s.capture first ks).captureSeq = s.captureSeq + 1 ∧ (s.capture first ks).ticks = s.ticks
      ∧ (Tab.get? (s.capture first ks).captures n).isSome = true ∧ (s.capture first ks).tiles = s.tiles ∧ (s.capture first ks).mem = s.mem
      ∧ (s.capture first ks).jobs = s.jobs := by
  have hHead : 0x8040 + n ≠ 0x8010 := by omega
  obtain ⟨d, hd⟩ : ∃ d, (if s.entry (0x8040 + n) 1 = 2 then s.bump 0x8010 8 1 else s) = { s with dict := d } := by
    split
    · exact ⟨_, rfl⟩
    · exact ⟨_, rfl⟩
  simp only [State.capture, hSlot, hd]
  refine ⟨rfl, ?_, ?_, ?_, rfl, rfl, ?_, rfl, rfl, rfl⟩
  · simp [hHead]
  · simp [hHead, State.captureOf]
  · simp [hHead, State.captureOf]
  · exact congrArg Option.isSome (Laws.tab_get?_put_same ..)

theorem snapshotLatch_captures {k : LatchTick} {n : Nat} (hDue : s.dueTick = some k) (hCopy : s.copying = none) (hSlot : s.captureSlot = some n) :
    ∃ s2, exec .snapshotLatch s = .next s2 ∧ s2.copying = some (n, k.time) ∧ s2.entry (0x8040 + n) 1 = 1 ∧ s2.entry (0x8040 + n) 2 = s.captureSeq
      ∧ s2.entry (0x8040 + n) 4 = k.time ∧ s2.captureSeq = s.captureSeq + 1 ∧ (∀ m ∈ s2.ticks, ¬(m.time = k.time ∧ m.wasDeferred = k.wasDeferred))
      ∧ (Tab.get? s2.captures n).isSome = true ∧ s2.tiles = s.tiles ∧ s2.mem = s.mem ∧ s2.jobs = s.jobs := by
  have hLatch : s.latch = ({ s with ticks := s.ticks.filter fun m => !(m.time = k.time && m.wasDeferred = k.wasDeferred : Bool) } : State).capture k
      (s.ticks.filter fun m => m.time = k.time && m.wasDeferred = k.wasDeferred) := by
    unfold State.latch
    rw [hDue, hCopy]
    rfl
  obtain ⟨hCopying, hState, hSeq, hTime, hNext, hTicks, hCapture, hTiles, hMem, hJobs⟩ :=
    capture_takes (s := { s with ticks := s.ticks.filter fun m => !(m.time = k.time && m.wasDeferred = k.wasDeferred : Bool) }) (first := k)
      (ks := s.ticks.filter fun m => m.time = k.time && m.wasDeferred = k.wasDeferred) (n := n) hSlot
  refine ⟨_, congrArg Host.Outcome.next hLatch, hCopying, hState, hSeq, hTime, hNext, fun m hm => ?_, hCapture, hTiles, hMem, hJobs⟩
  rw [hTicks, List.mem_filter] at hm
  have hOther : ¬m.time = k.time ∨ ¬m.wasDeferred = k.wasDeferred := by simpa using hm.2
  exact fun hSame => hOther.elim (· hSame.1) (· hSame.2)

theorem snapshotLatch_waits (hDue : s.dueTick = none) : exec .snapshotLatch s = .next s := by
  refine congrArg Host.Outcome.next ?_
  unfold State.latch
  rw [hDue]

theorem snapshotCopyComplete_ready {n time : Nat} (hCopy : s.copying = some (n, time)) :
    ∃ s2, exec .snapshotCopyComplete s = .next s2 ∧ s2.copying = none ∧ s2.entry (0x8040 + n) 1 = 2 ∧ s2.captures = s.captures ∧ s2.tiles = s.tiles
      ∧ s2.mem = s.mem := by
  refine ⟨({ s with copying := none } : State).setEntry (0x8040 + n) 1 2, ?_, rfl, Laws.entry_setEntry_same .., rfl, rfl, rfl⟩
  refine congrArg Host.Outcome.next ?_
  rw [hCopy]

end Snapshots

/-- Settles O56: triggers, the latch, a copy's end. -/
theorem snapshotsTake : Obligations.SnapshotsTake := by
  unfold Obligations.SnapshotsTake
  exact ⟨fun _ _ h => ⟨snapImmediate_ticks h, fun hRoom => ⟨snapTimed_ticks h hRoom, snapBroadcast_ticks h hRoom⟩, snapTimed_refused h⟩,
    fun _ _ _ => snapshotLatch_captures, fun _ => snapshotLatch_waits, fun _ _ _ => snapshotCopyComplete_ready⟩

end Sys2Proof.Proofs
end

section
/-! PROOFS. Global time and SNAP frames (R322, R323, R403). -/

namespace Sys2Proof.Proofs
open Sys2Proof.Machine

section GlobalTime

variable {s : State} {p time delay source ident target : Nat}

/-- An event changes neither the offset of fabric time nor the lock. -/
theorem EventFrame.clock {t : State} (h : EventFrame s t) : t.now = s.now ∧ t.timeOffset = s.timeOffset ∧ t.everLocked = s.everLocked
    ∧ t.lastTimeIdle = s.lastTimeIdle := by
  obtain ⟨d, l, n, q, g, o, x, rfl⟩ := h
  exact ⟨rfl, rfl, rfl, rfl⟩

/-- The first lock steps the device's time by the difference. -/
theorem timeStep_locks (d : Int) : (s.timeStep d).timeOffset = s.timeOffset + d ∧ (s.timeStep d).everLocked = true ∧ (s.timeStep d).now = s.now
    ∧ (s.timeStep d).lastTimeIdle = s.lastTimeIdle ∧ (s.timeStep d).mem = s.mem ∧ (s.timeStep d).entry 0x4020 2 = 1
    ∧ ∀ i k, k < 256 → i ≠ 0x4020 → i ≠ 0xB0E3 → i ≠ 0xB001 → i ≠ 0x5030 → (s.timeStep d).entry i k = s.entry i k := by
  have hFrame := (EventFrame.refl ((({ s with timeOffset := s.timeOffset + d, everLocked := true, slewLeft := 0 } : State).setEntry 0x4020 2 1).setEntry 0x4020 3
    (unsigned 64 d))).raise 0xB0E3 0xFF 0 (unsigned 64 d) 0
  obtain ⟨hNow, hOffset, hLocked, hIdle⟩ := hFrame.clock
  unfold State.timeStep
  refine ⟨hOffset, hLocked, hNow, hIdle, hFrame.mem, ?_, fun i k hk h h1 h2 h3 => ?_⟩
  · rw [entry_raise (by decide) (by decide) (by decide) (by decide), Laws.entry_setEntry_sub _ _ _ _ _ (by decide), Laws.entry_setEntry_same]
  · rw [entry_raise hk h1 h2 h3, Laws.entry_setEntry_index _ _ _ _ _ _ (by decide) hk h, Laws.entry_setEntry_index _ _ _ _ _ _ (by decide) hk h]
    rfl

/-- A later lock leaves the difference to the slew. -/
theorem timeSlew_slews (d : Int) : (s.timeSlew d).timeOffset = s.timeOffset ∧ (s.timeSlew d).slewLeft = d ∧ (s.timeSlew d).lastTimeIdle = s.lastTimeIdle
    ∧ (s.timeSlew d).mem = s.mem ∧ (s.timeSlew d).entry 0x4020 2 = 1
    ∧ ∀ i k, k < 256 → i ≠ 0x4020 → (s.timeSlew d).entry i k = s.entry i k := by
  unfold State.timeSlew
  dsimp only
  split
  · next h => exact ⟨rfl, rfl, rfl, rfl, h, fun _ _ _ _ => rfl⟩
  · refine ⟨rfl, rfl, rfl, rfl, ?_, fun i k hk h => ?_⟩
    · exact (Laws.entry_setEntry_sub _ _ _ _ _ (by decide)).trans (Laws.entry_setEntry_same ..)
    · exact (Laws.entry_setEntry_index _ _ _ _ _ _ (by decide) hk h).trans (Laws.entry_setEntry_index _ _ _ _ _ _ (by decide) hk h)

/-- The parent's idle, once the link delay is measured. -/
theorem takeIdle_parent (hp : p < 16) (hRoot : s.entry 0x4010 6 ≠ 1) (hParent : s.entry 0x4010 7 = p) :
    s.takeIdle p time delay = (let u : State := { s.setEntry (0x4040 + p) 5 delay with lastTimeIdle := s.now }
      if s.everLocked then u.timeSlew ((time : Int) - delay - s.fabricTime) else u.timeStep ((time : Int) - delay - s.fabricTime)) := by
  have hNe : 0x4010 ≠ 0x4040 + p := by omega
  have hParent' : ¬((s.setEntry (0x4040 + p) 5 delay).entry 0x4010 6 = 1 ∨ (s.setEntry (0x4040 + p) 5 delay).entry 0x4010 7 ≠ p) := by
    rw [Laws.entry_setEntry_index _ _ _ _ _ _ (by decide) (by decide) hNe, Laws.entry_setEntry_index _ _ _ _ _ _ (by decide) (by decide) hNe]
    exact fun h => h.elim hRoot (· hParent)
  unfold State.takeIdle
  exact if_neg hParent'

theorem timeIdle_locks (hp : p < 16) (hUp : s.portState p = portUp) (hRoot : s.entry 0x4010 6 ≠ 1) (hParent : s.entry 0x4010 7 = p) (hDelay : delay ≤ time)
    (hTime : 0 ≤ (s.now : Int) + s.timeOffset) :
    ∃ s2, exec (.timeIdle p time delay) s = .next s2 ∧ s2.entry (0x4040 + p) 5 = delay ∧ s2.entry 0x4020 2 = 1 ∧ s2.lastTimeIdle = s.now ∧ s2.mem = s.mem
      ∧ (s.everLocked = false → s2.fabricTime = time - delay ∧ s2.everLocked = true)
      ∧ (s.everLocked = true → s2.timeOffset = s.timeOffset ∧ s2.slewLeft = (time : Int) - delay - s.fabricTime) := by
  have hStep : exec (.timeIdle p time delay) s = .next (s.takeIdle p time delay) := by
    change execTimeIdle p time delay s = _
    rw [execTimeIdle, Laws.onPort_next hp, if_pos hUp]
  have hFabric : (s.fabricTime : Int) = s.now + s.timeOffset := Int.toNat_of_nonneg hTime
  refine ⟨_, hStep, ?_⟩
  rw [takeIdle_parent hp hRoot hParent]
  obtain ⟨u, hu⟩ : ∃ u : State, u = { s.setEntry (0x4040 + p) 5 delay with lastTimeIdle := s.now } := ⟨_, rfl⟩
  rw [← hu]
  have hDelayed : u.entry (0x4040 + p) 5 = delay := by rw [hu]; exact Laws.entry_setEntry_same ..
  have hKeeps : u.timeOffset = s.timeOffset ∧ u.now = s.now ∧ u.lastTimeIdle = s.now ∧ u.mem = s.mem := by rw [hu]; exact ⟨rfl, rfl, rfl, rfl⟩
  obtain ⟨hOffset, hNow, hIdle, hMem⟩ := hKeeps
  dsimp only
  split
  · next hLocked =>
    obtain ⟨hOffset', hSlew, hIdle', hMem', hLock, hOther⟩ := timeSlew_slews (s := u) ((time : Int) - delay - s.fabricTime)
    exact ⟨(hOther _ _ (by decide) (by omega)).trans hDelayed, hLock, hIdle'.trans hIdle, hMem'.trans hMem,
      fun h => absurd hLocked (by simp [h]), fun _ => ⟨hOffset'.trans hOffset, hSlew⟩⟩
  · next hNever =>
    obtain ⟨hOffset', hLocked, hNow', hIdle', hMem', hLock, hOther⟩ := timeStep_locks (s := u) ((time : Int) - delay - s.fabricTime)
    refine ⟨(hOther _ _ (by decide) (by omega) (by omega) (by omega) (by omega)).trans hDelayed, hLock, hIdle'.trans hIdle, hMem'.trans hMem, fun _ => ⟨?_, hLocked⟩,
      fun h => absurd h hNever⟩
    rw [State.fabricTime, hOffset', hNow', hOffset, hNow]
    omega

theorem timeLockLost_unlocks (hRoot : s.entry 0x4010 6 = 0) (hLate : s.lastTimeIdle + 1000000000 ≤ s.now) (hLocked : s.entry 0x4020 2 = 1) :
    exec .timeLockLost s = .next (s.setEntry 0x4020 2 0) :=
  congrArg Host.Outcome.next (if_pos ⟨hLocked, hRoot, hLate⟩)

theorem snapFrame_latches (hp : p < 16) (hUp : s.portState p = portUp) (hNew : s.snapsSeen.contains (source, ident) = false) (hReady : s.ready = true)
    (hEnabled : s.entry 0x8010 5 = 1) (hRoom : s.timedTicks < 4) :
    ∃ s2, exec (.snapFrame p source ident target) s = .next s2 ∧ s2.snapsSeen = s.snapsSeen ++ [(source, ident)] ∧ s2.mem = s.mem ∧ s2.dict = s.dict
      ∧ s2.ticks.map (fun k => (k.time, k.source, k.timed, k.origin)) =
          s.ticks.map (fun k => (k.time, k.source, k.timed, k.origin)) ++ [(target, srcRemote, true, source)] := by
  have hState : s.entry 0x1100 1 = 2 := by simpa [State.ready] using hReady
  have hSent := sendSnap_frame (s := { s with snapsSeen := s.snapsSeen ++ [(source, ident)] }) source ident target (some p)
  have hStep : exec (.snapFrame p source ident target) s = .next
      (let u := ({ s with snapsSeen := s.snapsSeen ++ [(source, ident)] } : State).sendSnap source ident target (some p)
      if u.ready ∧ u.entry 0x8010 5 = 1 then u.addTimed { time := target, source := srcRemote, timed := true, ident := ident, origin := source }
      else if u.entry 0x1100 1 = 7 ∧ u.entry 0x8010 5 = 1 then u.bump 0x8010 7 1
      else u) := by
    change execSnapFrame p source ident target s = _
    rw [execSnapFrame, Laws.onPort_next hp, if_neg (by rw [hNew]; simp [hUp])]
  generalize ({ s with snapsSeen := s.snapsSeen ++ [(source, ident)] } : State).sendSnap source ident target (some p) = u at hSent hStep
  have hKeeps : u.snapsSeen = s.snapsSeen ++ [(source, ident)] ∧ u.mem = s.mem ∧ u.dict = s.dict ∧ u.ticks = s.ticks := by
    obtain ⟨q, o, e⟩ := hSent.shape
    rw [e]
    exact ⟨rfl, rfl, rfl, rfl⟩
  obtain ⟨hSeen, hMem, hDict, hTicks⟩ := hKeeps
  have hEntry (i k : Nat) : u.entry i k = s.entry i k := by rw [State.entry, hDict]; rfl
  have hTake : u.ready = true ∧ u.entry 0x8010 5 = 1 := by
    rw [State.ready, hEntry, hEntry, hState]
    exact ⟨by decide, hEnabled⟩
  have hRoom' : ¬4 ≤ u.timedTicks := by
    rw [State.timedTicks, hTicks]
    exact Nat.not_le.mpr hRoom
  refine ⟨_, hStep, ?_⟩
  rw [if_pos hTake, State.addTimed, if_neg hRoom', addTick_appends (by rw [hEntry, hState]; decide)]
  refine ⟨hSeen, hMem, hDict, ?_⟩
  change (u.ticks ++ [_]).map _ = _
  rw [hTicks, List.map_append]
  rfl

theorem snapFrame_repeated (hp : p < 16) (hSeen : s.snapsSeen.contains (source, ident) = true) : exec (.snapFrame p source ident target) s = .next s := by
  change execSnapFrame p source ident target s = _
  rw [execSnapFrame, Laws.onPort_next hp, if_pos (.inr hSeen)]

end GlobalTime

/-- Settles O43: the lock, the slew, the lost lock, and SNAP frames. -/
theorem timeAndSnap : Obligations.TimeAndSnap := by
  unfold Obligations.TimeAndSnap
  exact ⟨fun _ _ _ _ => timeIdle_locks, fun _ => timeLockLost_unlocks, fun _ _ _ _ _ hp hUp => ⟨snapFrame_latches hp hUp, snapFrame_repeated hp⟩⟩

end Sys2Proof.Proofs
end

section
/-! PROOFS. Restarts that clear the host side: what they leave, and how far they come at once (R373, R415-R420). -/

namespace Sys2Proof.Proofs
open Sys2Proof.Machine

/-- `u` is `s` in what a start goes through without a change: memory, jobs, tiles, sessions, contexts and the field side's power. -/
structure StartFrame (s u : State) : Prop where
  mem : u.mem = s.mem
  jobs : u.jobs = s.jobs
  tiles : u.tiles = s.tiles
  sessions : u.sessions = s.sessions
  contexts : u.contexts = s.contexts
  fieldPowered : u.fieldPowered = s.fieldPowered
  thermalTripped : u.thermalTripped = s.thermalTripped

section Restarts

variable {s t u : State} {kind cause downMs : Nat}

theorem StartFrame.refl (s : State) : StartFrame s s := ⟨rfl, rfl, rfl, rfl, rfl, rfl, rfl⟩

theorem StartFrame.trans (h : StartFrame s t) (h' : StartFrame t u) : StartFrame s u :=
  ⟨h'.mem.trans h.mem, h'.jobs.trans h.jobs, h'.tiles.trans h.tiles, h'.sessions.trans h.sessions, h'.contexts.trans h.contexts,
    h'.fieldPowered.trans h.fieldPowered, h'.thermalTripped.trans h.thermalTripped⟩

theorem EventFrame.start (h : EventFrame s t) : StartFrame s t ∧ t.restart = s.restart ∧ t.recovery = s.recovery := by
  obtain ⟨d, l, n, q, g, o, x, rfl⟩ := h
  exact ⟨⟨rfl, rfl, rfl, rfl, rfl, rfl, rfl⟩, rfl, rfl⟩

/-- A POWER_DOMAIN_CMD changes the field end of the gate, and what left the module. -/
theorem sendPower_shape (mask : Nat) (on : Bool) : ∃ g o, s.sendPower mask on = { s with fieldGate := g, out := o } := by
  unfold State.sendPower State.gateSend
  dsimp only
  split
  · exact ⟨_, _, rfl⟩
  · exact ⟨_, _, rfl⟩

/-! ### The power of the host side (R13, R417, R418) -/

theorem beginPower_frame : StartFrame s s.beginPower ∧ s.beginPower.hostPowered = false ∧ s.beginPower.recovery = s.recovery := by
  unfold State.beginPower
  dsimp only
  split
  · exact ⟨⟨rfl, rfl, rfl, rfl, rfl, rfl, rfl⟩, rfl, rfl⟩
  · split
    · exact ⟨⟨rfl, rfl, rfl, rfl, rfl, rfl, rfl⟩, rfl, rfl⟩
    · split
      · exact ⟨⟨rfl, rfl, rfl, rfl, rfl, rfl, rfl⟩, rfl, rfl⟩
      · obtain ⟨g, o, e⟩ := sendPower_shape (s := { s with hostPowered := false, domains := domainsOff, restart := some { ‹Restart› with
          powerLeft := ({ s with hostPowered := false, domains := domainsOff } : State).powerOrder } }) ‹Nat› true
        rw [e]
        exact ⟨⟨rfl, rfl, rfl, rfl, rfl, rfl, rfl⟩, rfl, rfl⟩

/-- Nothing goes on where no restart is under way. -/
theorem beginPower_none (h : s.restart = none) : s.beginPower = { s with hostPowered := false, domains := domainsOff } := by
  unfold State.beginPower
  dsimp only
  rw [h]

/-- A COLD start with PowerOnPolicy 1 ends with the host side OFF. -/
theorem beginPower_stops {r : Restart} (h : s.restart = some r) (hKind : r.kind = kindCold) (hPolicy : s.entry 0x1120 1 = 1) :
    s.beginPower = ({ s with hostPowered := false, domains := domainsOff, restart := none } : State).setEntry 0x1100 1 0 := by
  unfold State.beginPower
  dsimp only
  rw [h]
  exact if_pos ⟨hKind, hPolicy⟩

/-- Otherwise the restart goes on. -/
theorem beginPower_continues {r : Restart} (h : s.restart = some r) (hOn : ¬(r.kind = kindCold ∧ s.entry 0x1120 1 = 1)) :
    s.beginPower.restart.map (fun r => (r.kind, r.cause)) = some (r.kind, r.cause) ∧ s.beginPower.dict = s.dict := by
  unfold State.beginPower
  dsimp only
  split
  case h_1 hNone => exact absurd (h.symm.trans hNone) nofun
  case h_2 x hx =>
    obtain rfl : r = x := Option.some.inj (h.symm.trans hx)
    split
    · next hStop => exact absurd hStop hOn
    · split
      · exact ⟨rfl, rfl⟩
      · obtain ⟨g, o, e⟩ := sendPower_shape (s := { s with hostPowered := false, domains := domainsOff, restart := some { r with
          powerLeft := ({ s with hostPowered := false, domains := domainsOff } : State).powerOrder } }) ‹Nat› true
        rw [e]
        exact ⟨rfl, rfl⟩

/-! ### The ROM (R373) -/

/-- The ROM stays in recovery, or starts a slot; the other entries of DeviceState's and of the policy's index stay. -/
theorem romBoot_boots : StartFrame s s.romBoot ∧ s.romBoot.hostPowered = s.hostPowered
    ∧ ((s.romBoot.recovery = true ∧ s.romBoot.restart = none ∧ s.romBoot.entry 0x1100 1 = 0)
      ∨ (s.romBoot.recovery = false ∧ s.romBoot.restart = s.restart ∧ s.romBoot.entry 0x1100 1 = s.entry 0x1100 1
        ∧ s.romBoot.entry 0x1120 1 = s.entry 0x1120 1)) := by
  unfold State.romBoot
  split
  · exact ⟨⟨rfl, rfl, rfl, rfl, rfl, rfl, rfl⟩, rfl, .inl ⟨rfl, rfl, Laws.entry_setEntry_same ..⟩⟩
  · next k _ =>
    dsimp only
    split
    · exact ⟨⟨rfl, rfl, rfl, rfl, rfl, rfl, rfl⟩, rfl, .inr ⟨rfl, rfl, rfl, rfl⟩⟩
    · generalize State.packageReject _ _ _ = d
      have hFrame := (EventFrame.refl (({ s with recovery := false } : State).setEntry 0x9100 3 k)).raise 0xB0C0 0xFF IMAGE_VERIFY d (1 - k)
      obtain ⟨hStart, hRestart, hRecovery⟩ := hFrame.start
      have hEntry (i : Nat) (h : i ≠ 0xB0C0) (h1 : i ≠ 0xB001) (h2 : i ≠ 0x5030) (h3 : i ≠ 0x9100) :
          ((({ s with recovery := false } : State).setEntry 0x9100 3 k).raise 0xB0C0 0xFF IMAGE_VERIFY d (1 - k)).entry i 1 = s.entry i 1 :=
        (entry_raise (by decide) h h1 h2).trans (Laws.entry_setEntry_index _ _ _ _ _ _ (by decide) (by decide) h3)
      refine ⟨⟨hStart.mem, hStart.jobs, hStart.tiles, hStart.sessions, hStart.contexts, hStart.fieldPowered, hStart.thermalTripped⟩, ?_, .inr ⟨hRecovery, hRestart,
        hEntry _ (by decide) (by decide) (by decide) (by decide), hEntry _ (by decide) (by decide) (by decide) (by decide)⟩⟩
      obtain ⟨_, _, _, _, _, _, _, e⟩ := hFrame
      rw [e]
      rfl

/-! ### The start as a whole (R415, R416, R419) -/

/-- A kind that does not keep the stacks clears memory, jobs and tiles; one that restarts the field side ends its sessions. -/
theorem clearHost_bare (h : keepsStacks kind = false) : (s.clearHost kind).mem = [] ∧ (s.clearHost kind).jobs = [] ∧ (s.clearHost kind).tiles = []
    ∧ (s.clearHost kind).fieldPowered = s.fieldPowered ∧ (restartsField kind = true → (s.clearHost kind).sessions = []) := by
  have hDrop : s.dropCopy.fieldPowered = s.fieldPowered := by
    unfold State.dropCopy
    split <;> rfl
  unfold State.clearHost
  dsimp only
  rw [h]
  split
  · exact ⟨rfl, rfl, rfl, hDrop, fun _ => rfl⟩
  · next hNot => exact ⟨rfl, rfl, rfl, hDrop, fun hc => absurd hc hNot⟩

theorem countStart_start (kind : Nat) : StartFrame s (s.countStart kind) ∧ (s.countStart kind).entry 0x1120 1 = s.entry 0x1120 1 := by
  unfold State.countStart
  split
  · exact ⟨⟨rfl, rfl, rfl, rfl, rfl, rfl, rfl⟩, Laws.entry_setEntry_index _ _ _ _ _ _ (by decide) (by decide) (by decide)⟩
  · split
    · exact ⟨⟨rfl, rfl, rfl, rfl, rfl, rfl, rfl⟩, Laws.entry_setEntry_index _ _ _ _ _ _ (by decide) (by decide) (by decide)⟩
    · exact ⟨⟨rfl, rfl, rfl, rfl, rfl, rfl, rfl⟩, rfl⟩

/-- A host side in BOOT, with its restart under way and counted. -/
theorem countStart_begun {r : Restart} (kind : Nat) : StartFrame s ((({ s with restart := some r } : State).setEntry 0x1100 1 1).countStart kind)
    ∧ ((({ s with restart := some r } : State).setEntry 0x1100 1 1).countStart kind).entry 0x1100 1 = 1
    ∧ ((({ s with restart := some r } : State).setEntry 0x1100 1 1).countStart kind).restart = some r := by
  obtain ⟨h, -⟩ := countStart_start (s := ({ s with restart := some r } : State).setEntry 0x1100 1 1) kind
  obtain ⟨hRestart, -, -, hEntry⟩ := countStart_frame (s := ({ s with restart := some r } : State).setEntry 0x1100 1 1) kind
  exact ⟨⟨h.mem, h.jobs, h.tiles, h.sessions, h.contexts, h.fieldPowered, h.thermalTripped⟩, hEntry.trans (Laws.entry_setEntry_same ..), hRestart⟩

/-- A start that clears the stacks, up to the choice of the slot and the power. -/
theorem beginRestart_cleared (hKeeps : keepsStacks kind = false) (hAct : kind ≠ kindActivate) : ∃ c : State,
    s.beginRestart kind cause false downMs = (if restartsField kind then c.romBoot else c).beginPower
      ∧ c.mem = [] ∧ c.jobs = [] ∧ c.tiles = [] ∧ c.fieldPowered = s.fieldPowered ∧ (restartsField kind = true → c.sessions = [])
      ∧ (kind = kindHostPower → c.thermalTripped = false) ∧ c.entry 0x1100 1 = 1
      ∧ ∃ r, c.restart = some r ∧ r.kind = kind ∧ r.cause = cause := by
  obtain ⟨hMem, hJobs, hTiles, hField, hSessions⟩ := clearHost_bare (s := s) hKeeps
  rcases eq_or_ne kind kindHostPower with rfl | hPower
  · simp only [State.beginRestart, hKeeps, hAct, if_true, if_false, Bool.false_eq_true, false_and, Bool.not_false, and_true]
    refine ⟨_, rfl, ?_⟩
    obtain ⟨h, hEntry, hRestart⟩ := countStart_begun (s := { s.clearHost kindHostPower with starts := s.starts + 1, inputBackSince := none, thermalTripped := false })
      (r := { kind := kindHostPower, cause := cause, began := (s.clearHost kindHostPower).now, due := (s.clearHost kindHostPower).now + State.restartTime { s.clearHost kindHostPower with starts := s.starts + 1, inputBackSince := none, thermalTripped := false } kindHostPower, downMs := downMs }) kindHostPower
    exact ⟨h.mem.trans hMem, h.jobs.trans hJobs, h.tiles.trans hTiles, h.fieldPowered.trans hField, fun hc => h.sessions.trans (hSessions hc),
      fun _ => h.thermalTripped, hEntry, _, hRestart, rfl, rfl⟩
  · simp only [State.beginRestart, hKeeps, hAct, hPower, if_false, Bool.false_eq_true, false_and, Bool.not_false, and_true]
    refine ⟨_, rfl, ?_⟩
    obtain ⟨h, hEntry, hRestart⟩ := countStart_begun (s := { s.clearHost kind with starts := s.starts + 1, inputBackSince := none })
      (r := { kind := kind, cause := cause, began := (s.clearHost kind).now, due := (s.clearHost kind).now + State.restartTime { s.clearHost kind with starts := s.starts + 1, inputBackSince := none } kind, downMs := downMs }) kind
    exact ⟨h.mem.trans hMem, h.jobs.trans hJobs, h.tiles.trans hTiles, h.fieldPowered.trans hField, fun hc => h.sessions.trans (hSessions hc),
      fun hc => hc.elim, hEntry, _, hRestart, rfl, rfl⟩

/-- What a cleared start leaves: no memory, job or tile, and a host side without power. -/
theorem beginRestart_bare (hKeeps : keepsStacks kind = false) (hAct : kind ≠ kindActivate) :
    (s.beginRestart kind cause false downMs).mem = [] ∧ (s.beginRestart kind cause false downMs).jobs = []
      ∧ (s.beginRestart kind cause false downMs).tiles = [] ∧ (s.beginRestart kind cause false downMs).hostPowered = false
      ∧ (s.beginRestart kind cause false downMs).fieldPowered = s.fieldPowered
      ∧ (restartsField kind = true → (s.beginRestart kind cause false downMs).sessions = []) := by
  obtain ⟨c, hStart, hMem, hJobs, hTiles, hField, hSessions, -, -, -⟩ := beginRestart_cleared (s := s) (cause := cause) (downMs := downMs) hKeeps hAct
  rw [hStart]
  have hBoot : StartFrame c (if restartsField kind then c.romBoot else c) := by
    split
    · exact romBoot_boots.1
    · exact StartFrame.refl c
  obtain ⟨h, hOff, -⟩ := beginPower_frame (s := if restartsField kind then c.romBoot else c)
  have h' := hBoot.trans h
  exact ⟨h'.mem.trans hMem, h'.jobs.trans hJobs, h'.tiles.trans hTiles, hOff, h'.fieldPowered.trans hField, fun hc => h'.sessions.trans (hSessions hc)⟩

/-- A HOST_POWER start forgets a thermal trip. -/
theorem beginRestart_untripped : (s.beginRestart kindHostPower cause false downMs).thermalTripped = false := by
  obtain ⟨c, hStart, -, -, -, -, -, hTripped, -⟩ := beginRestart_cleared (s := s) (cause := cause) (downMs := downMs) (kind := kindHostPower) (by decide) (by decide)
  rw [hStart]
  exact beginPower_frame.1.thermalTripped.trans (hTripped rfl)

/-- A start with the field side goes on in BOOT, stays in recovery, or ends OFF where it is COLD and the policy says so (R373, R418). -/
theorem beginRestart_field (hKind : kind = kindCold ∨ kind = kindFull) (u : State) (hu : u = s.beginRestart kind cause false downMs) :
    (u.recovery = true ∧ u.restart = none ∧ u.entry 0x1100 1 = 0)
      ∨ (u.recovery = false ∧ u.restart.map (fun r => r.kind) = some kind ∧ u.entry 0x1100 1 = 1 ∧ (kind = kindCold → u.entry 0x1120 1 ≠ 1))
      ∨ (kind = kindCold ∧ u.recovery = false ∧ u.restart = none ∧ u.entry 0x1100 1 = 0 ∧ u.entry 0x1120 1 = 1) := by
  have hKinds : keepsStacks kind = false ∧ restartsField kind = true ∧ kind ≠ kindActivate := by rcases hKind with rfl | rfl <;> decide
  obtain ⟨hKeeps, hSide, hAct⟩ := hKinds
  obtain ⟨c, hStart, -, -, -, -, -, -, hEntry, r, hRestart, hIs, -⟩ := beginRestart_cleared (s := s) (cause := cause) (downMs := downMs) hKeeps hAct
  rw [hSide, if_pos rfl] at hStart
  rw [hu, hStart]
  obtain ⟨-, -, hStay⟩ := beginPower_frame (s := c.romBoot)
  obtain ⟨-, -, hBoot⟩ := romBoot_boots (s := c)
  generalize c.romBoot = d at hBoot hStay
  rcases hBoot with ⟨hRecovery, hNone, hOff⟩ | ⟨hRecovery, hGoes, hState, hPolicy⟩
  · refine .inl ⟨hStay.trans hRecovery, ?_⟩
    rw [beginPower_none hNone]
    exact ⟨hNone, hOff⟩
  · refine .inr ?_
    by_cases hStop : r.kind = kindCold ∧ d.entry 0x1120 1 = 1
    · refine .inr ⟨hIs ▸ hStop.1, hStay.trans hRecovery, ?_⟩
      rw [beginPower_stops (hGoes.trans hRestart) hStop.1 hStop.2]
      exact ⟨rfl, Laws.entry_setEntry_same .., (Laws.entry_setEntry_index _ _ _ _ _ _ (by decide) (by decide) (by decide)).trans hStop.2⟩
    · obtain ⟨hOn, hDict⟩ := beginPower_continues (hGoes.trans hRestart) hStop
      have hKept (i : Nat) : d.beginPower.entry i 1 = d.entry i 1 := by rw [State.entry, hDict]; rfl
      refine .inl ⟨hStay.trans hRecovery, ?_, (hKept _).trans (hState.trans hEntry), fun hCold hOne => hStop ⟨hIs.trans hCold, (hKept _).symm.trans hOne⟩⟩
      rw [show (fun r : Restart => r.kind) = Prod.fst ∘ fun r => (r.kind, r.cause) from rfl, ← Option.map_map, hOn, hIs]
      rfl

end Restarts

end Sys2Proof.Proofs
end

section
/-! PROOFS. Input voltage, field power and the sensors (R420, R429, R430, R436). -/

namespace Sys2Proof.Proofs
open Sys2Proof.Machine

section Indexed

variable {s : State} {f : State → Int × Nat → State} {β : Type} {g : State → β} {l : List Int}

/-- What no reading of a list changes stays. -/
theorem foldl_zipIdx_keeps (h : ∀ s v j, j < l.length → g (f s (v, j)) = g s) : g (l.zipIdx.foldl f s) = g s := by
  induction l using List.reverseRecOn with
  | nil => rfl
  | append_singleton l v ih =>
    rw [List.zipIdx_append, List.foldl_append]
    refine (h _ _ _ (by simp)).trans (ih fun s v j hj => h s v j ?_)
    rw [List.length_append]
    exact Nat.lt_add_right _ hj

/-- What the k-th reading alone sets is set by it. -/
theorem foldl_zipIdx_sets {k : Nat} {v : Int} {w : β} (hv : l[k]? = some v) (hPut : ∀ s, g (f s (v, k)) = w)
    (hKeep : ∀ s u j, j < l.length → j ≠ k → g (f s (u, j)) = g s) : g (l.zipIdx.foldl f s) = w := by
  induction l using List.reverseRecOn with
  | nil => exact absurd hv nofun
  | append_singleton l u ih =>
    rw [List.zipIdx_append, List.foldl_append]
    have hNext : g (f (l.zipIdx.foldl f s) (u, l.length)) = w := by
      by_cases hk : k = l.length
      · subst hk
        rw [List.getElem?_concat_length] at hv
        rw [Option.some.inj hv]
        exact hPut _
      · have hLt : k < l.length := by
          have := (List.getElem?_eq_some_iff.1 hv).1
          rw [List.length_append, List.length_singleton] at this
          omega
        rw [List.getElem?_append_left hLt] at hv
        refine (hKeep _ _ _ (by simp) (Ne.symm hk)).trans (ih hv fun s x j hj hne => hKeep s x j ?_ hne)
        rw [List.length_append]
        exact Nat.lt_add_right _ hj
    simpa using hNext

end Indexed

section Inputs

variable {s : State} {mv : Nat}

/-- Fumarole's order to power the host side off leaves at once where its end of the gate is open; the power itself has not gone yet. -/
theorem orderOff_sends (cause : Nat) (hOpen : s.fieldGate.quietUntil ≤ s.now) : ∃ g, s.orderOff cause = { s.setEntry 0x1100 4 cause with
    fieldGate := g, out := s.out ++ [.gate false s.fieldGate.nextSeq (.power hostMask false)] } := by
  refine ⟨_, (gateSend_of_open (s := s.setEntry 0x1100 4 cause) (e := .field) hOpen).trans rfl⟩

/-- The state in which an input out of range is noted, and the host side not yet ordered off. -/
def inputNoted (s : State) (mv : Nat) : State :=
  { (s.setEntry 0xC000 3 (if mv < 50000 then 1 else 2)).bump 0xC000 5 1 with
    fieldLog := s.fieldLog ++ [{ event := 0, job := 0xFF, code := INPUT_RANGE, seq := 0, time := s.fabricTime, detail0 := mv, detail1 := 0 }], inputBackSince := none }

theorem inputOutOfRange_orders (hRange : mv < 50000 ∨ 60000 < mv) (hSamples : 10 ≤ s.heat.outSamples) (hFirst : s.entry 0xC000 3 = 0) (hOn : s.entry 0x1100 1 ≠ 0)
    (hOpen : s.fieldGate.quietUntil ≤ s.now) :
    ∃ s2, exec (.inputOutOfRange mv) s = .next s2 ∧ s2.out = s.out ++ [.gate false s.fieldGate.nextSeq (.power hostMask false)]
      ∧ s2.entry 0x1100 4 = INPUT_RANGE ∧ s2.entry 0xC000 3 = (if mv < 50000 then 1 else 2) ∧ s2.mem = s.mem ∧ s2.jobs = s.jobs ∧ s2.tiles = s.tiles
      ∧ s2.fieldLog.map (fun e => e.code) = s.fieldLog.map (fun e => e.code) ++ [INPUT_RANGE] := by
  have hNoted (i k : Nat) (hk : k < 256) (hi : i ≠ 0xC000) : (inputNoted s mv).entry i k = s.entry i k := by
    unfold inputNoted
    exact (Laws.entry_setEntry_index _ _ _ _ _ _ (by decide) hk hi).trans (Laws.entry_setEntry_index _ _ _ _ _ _ (by decide) hk hi)
  have hStep : exec (.inputOutOfRange mv) s = .next ((inputNoted s mv).orderOff INPUT_RANGE) := by
    refine congrArg Host.Outcome.next ((if_neg ?_).trans (if_neg ?_))
    · exact fun hc => hc.elim (fun h => by omega) fun h => h.elim (fun h => by omega) (· hFirst)
    · exact fun hc => hOn ((hNoted 0x1100 1 (by decide) (by decide)).symm.trans hc)
  obtain ⟨g, e⟩ := orderOff_sends (s := inputNoted s mv) INPUT_RANGE hOpen
  refine ⟨_, hStep, ?_⟩
  rw [e]
  refine ⟨rfl, Laws.entry_setEntry_same .., ?_, rfl, rfl, rfl, ?_⟩
  · refine (Laws.entry_setEntry_index _ _ _ _ _ _ (by decide) (by decide) (by decide)).trans ?_
    exact (Laws.entry_setEntry_sub _ _ _ _ _ (by decide)).trans (Laws.entry_setEntry_same ..)
  · exact List.map_append ..

theorem inputRecovery_restarts {t : Nat} (hBack : s.inputBackSince = some t) (hOff : s.entry 0x1100 1 = 0) (hCause : s.entry 0x1100 4 = INPUT_RANGE)
    (hPolicy : s.entry 0x1120 2 = 1) (hTrip : s.thermalTripped = false) (hRecovery : s.recovery = false) (hRestart : s.restart = none) :
    (t + 100000000 ≤ s.now → ∃ s2, exec .inputRecovery s = .next s2 ∧ s2.restart.map (fun r => (r.kind, r.cause)) = some (kindHostPower, INPUT_RANGE)
      ∧ s2.entry 0x1100 1 = 1 ∧ s2.hostPowered = false ∧ s2.mem = [])
    ∧ (s.now < t + 100000000 → exec .inputRecovery s = .next s) := by
  have hAny : (s.inputBackSince.any fun t => t + 100000000 ≤ s.now) = decide (t + 100000000 ≤ s.now) := by rw [hBack, Option.any_some]
  constructor
  · intro hDue
    have hStep : exec .inputRecovery s = .next (s.beginRestart kindHostPower INPUT_RANGE false 0) := by
      change execInputRecovery s = _
      simp only [execInputRecovery, hAny, decide_eq_true hDue, hOff, hCause, hPolicy, hTrip, hRecovery, Bool.not_false, true_and, if_true, State.requestRestart, hRestart]
    obtain ⟨hGoes, hBoot, -⟩ := beginRestart_power (s := s) (cause := INPUT_RANGE) (downMs := 0)
    obtain ⟨hMem, -, -, hPower, -⟩ := beginRestart_bare (s := s) (kind := kindHostPower) (cause := INPUT_RANGE) (downMs := 0) (by decide) (by decide)
    exact ⟨_, hStep, hGoes, hBoot, hPower, hMem⟩
  · intro hEarly
    have hNot : decide (t + 100000000 ≤ s.now) = false := decide_eq_false (Nat.not_le.mpr hEarly)
    change execInputRecovery s = _
    simp only [execInputRecovery, hAny, hNot, Bool.false_eq_true, false_and, if_false]

/-- The host side off: OFF shows, and Fumarole's stores stay. -/
theorem hostOff_off : s.hostOff.entry 0x1100 1 = 0 ∧ s.hostOff.flash = s.flash ∧ s.hostOff.hss = s.hss := by
  have hDrop : s.dropCopy.flash = s.flash ∧ s.dropCopy.hss = s.hss := by
    unfold State.dropCopy
    split <;> exact ⟨rfl, rfl⟩
  have hClear : (s.clearHost kindHostPower).flash = s.flash ∧ (s.clearHost kindHostPower).hss = s.hss := hDrop
  have hFold (f : State → Nat → State) (hf : ∀ u p, (f u p).flash = u.flash ∧ (f u p).hss = u.hss) (l : List Nat) (u : State) :
      (l.foldl f u).flash = u.flash ∧ (l.foldl f u).hss = u.hss :=
    ⟨foldl_keeps (fun u => u.flash) (fun u p => (hf u p).1) l u, foldl_keeps (fun u => u.hss) (fun u p => (hf u p).2) l u⟩
  unfold State.hostOff
  dsimp only
  have hPorts := hFold (fun s p => s.setEntry (0x4040 + p) 1 portDisabled) (fun _ _ => ⟨rfl, rfl⟩) (List.range 16)
    { s.clearHost kindHostPower with hostPowered := false, restart := none, deferredRestart := none, domains := domainsOff }
  generalize List.foldl _ _ _ = u at hPorts
  exact ⟨Laws.entry_setEntry_same .., hPorts.1.trans hClear.1, hPorts.2.trans hClear.2⟩

theorem fieldPowerLoss_loses :
    ∃ s2, exec .fieldPowerLoss s = .next s2 ∧ s2.fieldPowered = false ∧ s2.unstored = [] ∧ s2.sessions = [] ∧ s2.restart = none ∧ s2.entry 0x1100 1 = 0
      ∧ s2.flash = s.flash ∧ s2.hss = s.hss := by
  obtain ⟨u, hu, hOff, hFlash, hHss⟩ : ∃ u, (if s.entry 0x1100 1 = 0 then s else ({ s with unstored := [] } : State).hostOff.setEntry 0x1100 4 0) = u
      ∧ u.entry 0x1100 1 = 0 ∧ u.flash = s.flash ∧ u.hss = s.hss := by
    refine ⟨_, rfl, ?_⟩
    split
    · next hOff => exact ⟨hOff, rfl, rfl⟩
    · obtain ⟨hEntry, hFlash, hHss⟩ := hostOff_off (s := { s with unstored := [] })
      generalize State.hostOff _ = v at hEntry hFlash hHss
      exact ⟨(Laws.entry_setEntry_sub _ _ _ _ _ (by decide)).trans hEntry, hFlash, hHss⟩
  refine ⟨{ u with fieldPowered := false, unstored := [], arriving := [], sessions := [], restart := none }, ?_, rfl, rfl, rfl, rfl, hOff, hFlash, hHss⟩
  change execFieldPowerLoss s = _
  rw [execFieldPowerLoss, hu]

end Inputs

section Sensors

variable {s : State} {r : SensorReadings}

/-- A stack's reading: its temperature, and whether it is over its limit. -/
def readStack (s : State) (p : Int × Nat) : State :=
  (s.setEntry (0xC040 + p.2) 1 (unsigned 64 p.1)).setEntry (0x3040 + p.2) 2 (if 1360 < p.1 then 1 else 0)

/-- The readings that the field side takes whatever the host side's power. -/
def readField (s : State) (r : SensorReadings) (alarm : Nat) : State :=
  let s := (((s.setEntry 0xC010 1 (unsigned 64 r.coolantInlet)).setEntry 0xC010 2 (unsigned 64 r.coolantOutlet)).setEntry 0xC010 3
    (unsigned 64 r.fieldSide)).setEntry 0xC010 5 alarm
  match r.engineTemps[17]? with
  | some v => s.setEntry 0xC071 1 (unsigned 64 v)
  | none => s

/-- The readings of the stacks, of the engines and of the tiles. -/
def readStacks (s : State) (l : List Int) : State := (l.take 8).zipIdx.foldl readStack s

def readEngineTemps (s : State) (l : List Int) : State := (l.take 17).zipIdx.foldl (fun s p => s.setEntry (0xC060 + p.2) 1 (unsigned 64 p.1)) s

def readJunctions (s : State) (l : List Int) : State := (l.take 64).zipIdx.foldl (fun s p => s.setEntry (0xA0C0 + p.2) 5 (unsigned 64 p.1)) s

/-- The readings of a host side that is on, in their order. -/
def readHost (s : State) (r : SensorReadings) : State :=
  readJunctions (readEngineTemps (readStacks (s.setEntry 0xC010 4 (unsigned 64 r.boardMax)) r.stackTemps) r.engineTemps) r.junctionTemps

theorem takeSensors_reads (hOn : s.entry 0x1100 1 ≠ 0) : ∃ alarm, s.takeSensors r = readHost (readField s r alarm) r := by
  refine ⟨_, (if_neg (fun hc => hOn (Eq.trans ?_ hc))).trans rfl⟩
  cases r.engineTemps[17]? <;> simp

/-- The field side's readings stand in their entries; other indices stay. -/
theorem readField_shows (alarm : Nat) : (readField s r alarm).entry 0xC010 1 = unsigned 64 r.coolantInlet
    ∧ (readField s r alarm).entry 0xC010 2 = unsigned 64 r.coolantOutlet ∧ (readField s r alarm).entry 0xC010 3 = unsigned 64 r.fieldSide
    ∧ (readField s r alarm).mem = s.mem ∧ (readField s r alarm).tiles = s.tiles ∧ (readField s r alarm).jobs = s.jobs := by
  unfold readField
  split
  · simp
  · simp

theorem take_bound {n j : Nat} {l : List Int} (h : j < (l.take n).length) : j < n := by
  rw [List.length_take] at h
  omega

theorem take_get {n k : Nat} {l : List Int} {v : Int} (hk : k < n) (h : l[k]? = some v) : (l.take n)[k]? = some v := by
  rw [List.getElem?_take_of_lt hk, h]

theorem readStacks_other {i k : Nat} {l : List Int} (hk : k < 256) (hTemp : ∀ j < 8, i ≠ 0xC040 + j) (hOver : ∀ j < 8, i ≠ 0x3040 + j) :
    (readStacks s l).entry i k = s.entry i k :=
  foldl_zipIdx_keeps (g := fun s => s.entry i k) fun _ _ j hj =>
    (Laws.entry_setEntry_index _ _ _ _ _ _ (by decide) hk (hOver j (take_bound hj))).trans
      (Laws.entry_setEntry_index _ _ _ _ _ _ (by decide) hk (hTemp j (take_bound hj)))

theorem readEngineTemps_other {i k : Nat} {l : List Int} (hk : k < 256) (h : ∀ j < 17, i ≠ 0xC060 + j) : (readEngineTemps s l).entry i k = s.entry i k :=
  foldl_zipIdx_keeps (g := fun s => s.entry i k) fun _ _ j hj => Laws.entry_setEntry_index _ _ _ _ _ _ (by decide) hk (h j (take_bound hj))

theorem readJunctions_other {i k : Nat} {l : List Int} (hk : k < 256) (h : ∀ j < 64, i ≠ 0xA0C0 + j) : (readJunctions s l).entry i k = s.entry i k :=
  foldl_zipIdx_keeps (g := fun s => s.entry i k) fun _ _ j hj => Laws.entry_setEntry_index _ _ _ _ _ _ (by decide) hk (h j (take_bound hj))

theorem readStacks_shows {k : Nat} {l : List Int} {v : Int} (hk : k < 8) (hv : l[k]? = some v) :
    (readStacks s l).entry (0xC040 + k) 1 = unsigned 64 v ∧ (readStacks s l).entry (0x3040 + k) 2 = if 1360 < v then 1 else 0 := by
  constructor
  · refine foldl_zipIdx_sets (g := fun s => s.entry (0xC040 + k) 1) (take_get hk hv) (fun s => ?_) fun s u j hj hne => ?_
    · exact (Laws.entry_setEntry_index _ _ _ _ _ _ (by decide) (by decide) (by omega)).trans (Laws.entry_setEntry_same ..)
    · have := take_bound hj
      exact (Laws.entry_setEntry_index _ _ _ _ _ _ (by decide) (by decide) (by omega)).trans
        (Laws.entry_setEntry_index _ _ _ _ _ _ (by decide) (by decide) (by omega))
  · refine foldl_zipIdx_sets (g := fun s => s.entry (0x3040 + k) 2) (take_get hk hv) (fun s => Laws.entry_setEntry_same ..) fun s u j hj hne => ?_
    have := take_bound hj
    exact (Laws.entry_setEntry_index _ _ _ _ _ _ (by decide) (by decide) (by omega)).trans
      (Laws.entry_setEntry_index _ _ _ _ _ _ (by decide) (by decide) (by omega))

theorem readEngineTemps_shows {k : Nat} {l : List Int} {v : Int} (hk : k < 17) (hv : l[k]? = some v) :
    (readEngineTemps s l).entry (0xC060 + k) 1 = unsigned 64 v :=
  foldl_zipIdx_sets (g := fun s => s.entry (0xC060 + k) 1) (take_get hk hv) (fun _ => Laws.entry_setEntry_same ..) fun _ _ _ _ _ =>
    Laws.entry_setEntry_index _ _ _ _ _ _ (by decide) (by decide) (by omega)

theorem readJunctions_shows {k : Nat} {l : List Int} {v : Int} (hk : k < 64) (hv : l[k]? = some v) :
    (readJunctions s l).entry (0xA0C0 + k) 5 = unsigned 64 v :=
  foldl_zipIdx_sets (g := fun s => s.entry (0xA0C0 + k) 5) (take_get hk hv) (fun _ => Laws.entry_setEntry_same ..) fun _ _ _ _ _ =>
    Laws.entry_setEntry_index _ _ _ _ _ _ (by decide) (by decide) (by omega)

/-- Readings change no memory, tile or job. -/
theorem readHost_frame : (readHost s r).mem = s.mem ∧ (readHost s r).tiles = s.tiles ∧ (readHost s r).jobs = s.jobs := by
  have hAll {β : Type} (g : State → β) (hg : ∀ (s : State) i k v, g (s.setEntry i k v) = g s) : g (readHost s r) = g s :=
    ((foldl_keeps g (fun _ _ => hg ..) _ _).trans (foldl_keeps g (fun _ _ => hg ..) _ _)).trans
      ((foldl_keeps g (fun _ _ => (hg ..).trans (hg ..)) _ _).trans (hg ..))
  exact ⟨hAll (fun s => s.mem) fun _ _ _ _ => rfl, hAll (fun s => s.tiles) fun _ _ _ _ => rfl, hAll (fun s => s.jobs) fun _ _ _ _ => rfl⟩

theorem sensorUpdate_shows (hOn : s.entry 0x1100 1 ≠ 0) :
    ∃ s2, exec (.sensorUpdate r) s = .next s2 ∧ s2.entry 0xC010 1 = unsigned 64 r.coolantInlet ∧ s2.entry 0xC010 2 = unsigned 64 r.coolantOutlet
      ∧ s2.entry 0xC010 3 = unsigned 64 r.fieldSide ∧ s2.entry 0xC010 4 = unsigned 64 r.boardMax
      ∧ (∀ k v, k < 8 → r.stackTemps[k]? = some v → s2.entry (0xC040 + k) 1 = unsigned 64 v ∧ s2.entry (0x3040 + k) 2 = if 1360 < v then 1 else 0)
      ∧ (∀ k v, k < 17 → r.engineTemps[k]? = some v → s2.entry (0xC060 + k) 1 = unsigned 64 v)
      ∧ (∀ t v, t < 64 → r.junctionTemps[t]? = some v → s2.entry (0xA0C0 + t) 5 = unsigned 64 v) ∧ s2.mem = s.mem ∧ s2.tiles = s.tiles ∧ s2.jobs = s.jobs := by
  obtain ⟨alarm, hRead⟩ := takeSensors_reads (r := r) hOn
  obtain ⟨hInlet, hOutlet, hField, hMem, hTiles, hJobs⟩ := readField_shows (s := s) (r := r) alarm
  generalize readField s r alarm = u at *
  obtain ⟨hMem', hTiles', hJobs'⟩ := readHost_frame (s := u) (r := r)
  have hBoard (k : Nat) (hk : k < 256) : (readHost u r).entry 0xC010 k = (u.setEntry 0xC010 4 (unsigned 64 r.boardMax)).entry 0xC010 k :=
    (readJunctions_other hk (by omega)).trans ((readEngineTemps_other hk (by omega)).trans (readStacks_other hk (by omega) (by omega)))
  have hKeep (k : Nat) (hk : k < 4) : (readHost u r).entry 0xC010 k = u.entry 0xC010 k :=
    (hBoard k (by omega)).trans (Laws.entry_setEntry_sub _ _ _ _ _ (by omega))
  refine ⟨_, congrArg Host.Outcome.next hRead, (hKeep 1 (by decide)).trans hInlet, (hKeep 2 (by decide)).trans hOutlet, (hKeep 3 (by decide)).trans hField,
    (hBoard 4 (by decide)).trans (Laws.entry_setEntry_same ..), fun k v hk hv => ?_, fun k v hk hv => ?_, fun t v ht hv => readJunctions_shows ht hv,
    hMem'.trans hMem, hTiles'.trans hTiles, hJobs'.trans hJobs⟩
  · obtain ⟨hTemp, hOver⟩ := readStacks_shows (s := u.setEntry 0xC010 4 (unsigned 64 r.boardMax)) hk hv
    exact ⟨(readJunctions_other (by decide) (by omega)).trans ((readEngineTemps_other (by decide) (by omega)).trans hTemp),
      (readJunctions_other (by decide) (by omega)).trans ((readEngineTemps_other (by decide) (by omega)).trans hOver)⟩
  · exact (readJunctions_other (by decide) (by omega)).trans (readEngineTemps_shows hk hv)

end Sensors

/-- Settles O58: the input's range and recovery, the loss of field power, the sensors. -/
theorem inputsAndSensors : Obligations.InputsAndSensors := by
  unfold Obligations.InputsAndSensors
  exact ⟨fun _ _ => inputOutOfRange_orders, fun _ _ => inputRecovery_restarts, fun _ => fieldPowerLoss_loses, fun _ _ => sensorUpdate_shows⟩

end Sys2Proof.Proofs
end

section
/-! PROOFS. Restarts: requests from either side, the power commands, the cold start (R13, R373, R415, R418-R420, R424). -/

namespace Sys2Proof.Proofs
open Sys2Proof.Machine

section Requests

variable {s : State} {ctx k : Nat}

theorem resetRequest_row : ∃ r, lookupEntry 0x1110 1 = some r ∧ r.ty = .u32 ∧ r.acc = .wo ∧ r.min = 0 ∧ r.max = 4294967295 ∧ r.index = 0x1110 ∧ r.cls = .immediate :=
  ⟨(lookupEntry 0x1110 1).get (by decide), by simp, by decide, by decide, by decide, by decide, by decide, by decide⟩

/-- The four requests are in range (R424). -/
theorem resetRequest_range {r : EntryRow} (hk : k ∈ [1, 2, 3, 4]) (hTy : r.ty = .u32) (hMin : r.min = 0) (hMax : r.max = 4294967295) (hIndex : r.index = 0x1110) :
    s.rangeRefusal r 0x1110 1 (resetValue k) = none := by
  have hU32 : EntryType.u32.max = 0xFFFFFFFF := rfl
  have hValue : ∀ j ∈ [1, 2, 3, 4], resetValue j ≤ 0xFFFFFFFF ∧ ¬(bits (resetValue j) 16 16 ≠ 0x5253 ∨ bits (resetValue j) 8 8 ≠ 0 ∨ bits (resetValue j) 0 8 = 0
    ∨ 4 < bits (resetValue j) 0 8) := by decide
  obtain ⟨hTop, hBits⟩ := hValue k hk
  refine rangeRefusal_none (by rw [hTy, hU32]; exact hTop) (by rw [hMin, hMax]; exact ⟨Nat.zero_le _, hTop⟩) (.inl (by rw [hIndex]; decide)) ?_
  simp [State.valueRefusal, hBits]

/-- A host-side context's request leaves for Fumarole (R53, R424). -/
theorem resetRequest_crosses (h : Safety.direct s ctx = true) (hk : k ∈ [1, 2, 3, 4]) {op : State → Nat × State} :
    (s.writeEntry ctx 0x1110 1 (resetValue k) op) = s.askField (slotWrite ctx 0x1110 1 (resetValue k)) := by
  obtain ⟨hServed, -⟩ := Laws.direct_parts h
  obtain ⟨-, -, hCtx, -⟩ := Laws.served_parts hServed
  obtain ⟨r, hRow, hTy, hAcc, hMin, hMax, hIndex, hCls⟩ := resetRequest_row
  have hCross : crosses (slotWrite ctx 0x1110 1 (resetValue k)).ctx 0x1110 = true := by
    change crosses ctx 0x1110 = true
    rw [crosses, (Laws.small_context hCtx).1]
    decide
  rw [Laws.writeEntry_served hServed hRow rfl,
    Laws.decideWrite_command h (by rw [hTy]; rfl) hAcc (by decide) (resetRequest_range hk hTy hMin hMax hIndex)
      (Laws.stateRefusal_served true hServed (by decide) (by decide)) (by decide) (fun hc => by rw [hCls] at hc; cases hc),
    Laws.takeWrite_crosses _ hCross]
  exact if_pos rfl

theorem resetRequest_asks (h : Safety.direct s ctx = true) (hOpen : s.hostGate.quietUntil ≤ s.now) (hk : k ∈ [1, 2, 3, 4]) {op : State → Nat × State} {c : Instr}
    (hc : exec c s = .next (s.writeEntry ctx 0x1110 1 (resetValue k) op)) :
    ∃ s2, exec c s = .next s2 ∧ s2.awaits ctx = true ∧ s2.dict = s.dict ∧ s2.mem = s.mem ∧ s2.jobs = s.jobs
      ∧ s2.out = s.out ++ [.gate true s.hostGate.nextSeq (.request ctx (.entries [(2048 * 0x1110 + 8, some (BitVec.ofNat 64 (resetValue k)))]))] := by
  obtain ⟨hAwaits, hOut, hDict, -, hMem, -, hJobs⟩ := askField_awaits (s := s) (a := slotWrite ctx 0x1110 1 (resetValue k)) hOpen
  exact ⟨_, hc.trans (congrArg _ (resetRequest_crosses h hk)), hAwaits, hDict, hMem, hJobs, hOut⟩

theorem resetCommands_ask {c : Instr} (h : Safety.direct s ctx = true) (hOpen : s.hostGate.quietUntil ≤ s.now)
    (hc : (k, c) ∈ [(1, Instr.resetWarm ctx), (2, .resetHostOff ctx), (3, .resetHostPower ctx), (4, .resetFull ctx)]) :
    ∃ s2, exec c s = .next s2 ∧ s2.awaits ctx = true ∧ s2.dict = s.dict ∧ s2.mem = s.mem ∧ s2.jobs = s.jobs
      ∧ s2.out = s.out ++ [.gate true s.hostGate.nextSeq (.request ctx (.entries [(2048 * 0x1110 + 8, some (BitVec.ofNat 64 (resetValue k)))]))] := by
  simp only [List.mem_cons, Prod.mk.injEq, List.not_mem_nil, or_false] at hc
  rcases hc with ⟨rfl, rfl⟩ | ⟨rfl, rfl⟩ | ⟨rfl, rfl⟩ | ⟨rfl, rfl⟩
  · exact resetRequest_asks h hOpen (by decide) rfl
  · exact resetRequest_asks h hOpen (by decide) rfl
  · exact resetRequest_asks h hOpen (by decide) rfl
  · exact resetRequest_asks h hOpen (by decide) rfl

/-- A DTP session's request is carried out whatever DeviceState reads (R416, R424). -/
theorem resetRequest_acts (hDtp : isDtp ctx = true) (hClosed : (s.context ctx).groupState ≠ 1) (hTurn : s.awaits ctx = false) (hRecovery : s.recovery = false)
    (hk : k ∈ [1, 2, 3, 4]) {op : State → Nat × State} :
    s.writeEntry ctx 0x1110 1 (resetValue k) op = (op s).2.record ctx 0x1110 1 (op s).1 := by
  have hBounds : 16 ≤ ctx ∧ ctx < 0x10000 := by simpa [isDtp] using hDtp
  obtain ⟨r, hRow, hTy, hAcc, hMin, hMax, hIndex, hCls⟩ := resetRequest_row
  have hNotBar : ctx ≠ 0 := by omega
  have hNotFabric : isFabric ctx = false := by simp [isFabric]; omega
  have hAccess : s.accessRefusal ctx 0x1110 1 true = none := by
    simp [State.accessRefusal, hNotBar, hNotFabric, hRow, show gateProtected 0x1110 1 = false by decide, show tileOf 0x1110 = none by decide]
  have hField : isFieldServed 0x1110 = true := by decide
  have hState : s.stateRefusal ctx 0x1110 1 true = none := by
    simp [State.stateRefusal, State.unclaimed, State.unserved, hRecovery, hDtp, hField, State.gateConflict, State.acrossGate, show isPersistent 0x1110 1 = false by decide]
  have hCross : crosses ctx 0x1110 = false := by simp [crosses, hDtp]
  have hDecide : s.decideWrite r ctx 0x1110 1 (resetValue k) (State.takeWrite (slotWrite ctx 0x1110 1 (resetValue k)) 0x1110 1 (resetValue k) op) = op s := by
    have hTake : State.takeWrite (slotWrite ctx 0x1110 1 (resetValue k)) 0x1110 1 (resetValue k) op s = op s := Laws.takeWrite_here _ hCross (by decide)
    simp [State.decideWrite, hTy, hAcc, hCls, resetRequest_range hk hTy hMin hMax hIndex, hState, hClosed, hTake, EntryType.isContent,
      show isContextLocal 0x1110 1 = false by decide]
  have hTurn' : s.awaits (slotWrite ctx 0x1110 1 (resetValue k)).ctx = false := hTurn
  simp [State.writeEntry, State.served, State.bar0Paused, State.bar0Insecure, hNotBar, State.inTurn, hTurn', State.writeResult, hAccess, hRow, hDecide]

end Requests

section Begins

variable {s : State} {ctx cause downMs : Nat}

/-- A WARM restart keeps memory, and no job or tile survives it (R415, R419). -/
theorem beginRestart_warm_keeps : (s.beginRestart kindWarm cause false downMs).mem = s.mem ∧ (s.beginRestart kindWarm cause false downMs).jobs = []
    ∧ (s.beginRestart kindWarm cause false downMs).tiles = [] := by
  have hComplete (f : Frame) (u : State) : (u.complete f STATE_CONFLICT 0 []).mem = u.mem := by
    unfold State.complete
    dsimp only
    split <;> rfl
  have hRefuse (u : State) : u.refuseHeld.mem = u.mem := by
    unfold State.refuseHeld
    dsimp only
    refine (foldl_keeps (fun s => s.mem) (fun u t => foldl_keeps (fun s => s.mem) (fun u f => hComplete f u) _ u) tileNumbers _).trans ?_
    exact foldl_keeps (fun s => s.mem) (fun u f => hComplete f u) _ _
  have hLeave : s.leaveDeepIdle.mem = s.mem := by
    refine foldl_keeps (fun s => s.mem) (fun u p => ?_) (List.range 16) s
    dsimp only
    split <;> rfl
  have hKeeps : keepsStacks kindWarm = true := by decide
  have hSide : restartsField kindWarm = false := by decide
  have hClear (u : State) : (u.clearHost kindWarm).mem = u.mem ∧ (u.clearHost kindWarm).jobs = [] ∧ (u.clearHost kindWarm).tiles = [] := by
    have hDrop : u.dropCopy.mem = u.mem := by
      unfold State.dropCopy
      split <;> rfl
    exact ⟨hDrop, rfl, rfl⟩
  have hPower : kindWarm ≠ kindHostPower := by decide
  have hAct : kindWarm ≠ kindActivate := by decide
  obtain ⟨a, ha, hMem⟩ : ∃ a, (if s.deepIdle = true then s.leaveDeepIdle else s) = a ∧ a.mem = s.mem := by
    refine ⟨_, rfl, ?_⟩
    split
    · exact hLeave
    · rfl
  simp only [State.beginRestart, hKeeps, hSide, hPower, hAct, true_and, if_true, if_false, Bool.false_eq_true, false_and]
  rw [ha]
  obtain ⟨hMem', hJobs, hTiles⟩ := hClear a.refuseHeld
  have hMem'' := hRefuse a
  generalize a.refuseHeld = b at *
  generalize b.clearHost kindWarm = c at *
  obtain ⟨h, -⟩ := countStart_start (s := State.setEntry _ 0x1100 1 1) kindWarm
  exact ⟨h.mem.trans (hMem'.trans (hMem''.trans hMem)), h.jobs.trans hJobs, h.tiles.trans hTiles⟩

/-- A recorded outcome leaves what a restart set. -/
theorem record_frame (i sub code : Nat) : StartFrame s { s.record ctx i sub code with contexts := s.contexts } ∧ (s.record ctx i sub code).restart = s.restart
    ∧ (s.record ctx i sub code).recovery = s.recovery ∧ (s.record ctx i sub code).hostPowered = s.hostPowered ∧ (s.record ctx i sub code).out = s.out
    ∧ (s.record ctx i sub code).entry 0x1100 1 = s.entry 0x1100 1 ∧ (s.record ctx i sub code).entry 0x1100 4 = s.entry 0x1100 4 := by
  have h := record_eq (s := s) (ctx := ctx) (i := i) (sub := sub) code
  have hLow (k : Nat) (hk : k < 256) := entry_record_low (s := s) (ctx := ctx) (i := i) (sub := sub) code (k := 0x1100) (l := k) (by decide) hk
  generalize s.record ctx i sub code = u at h hLow
  rw [h] at hLow ⊢
  exact ⟨⟨rfl, rfl, rfl, rfl, rfl, rfl, rfl⟩, rfl, rfl, rfl, rfl, hLow 1 (by decide), hLow 4 (by decide)⟩

theorem session_outcome {u : State} (hDtp : isDtp ctx = true) {i sub code : Nat} (hw : code ≠ WAITING) : Safety.outcome (u.record ctx i sub code) ctx i sub code := by
  have hBounds : 16 ≤ ctx ∧ ctx < 0x10000 := by simpa [isDtp] using hDtp
  have hHas : u.hasContext ctx = true := by simp [State.hasContext, isFabric]; omega
  unfold Safety.outcome
  rw [context_record hHas hw]
  exact ⟨rfl, rfl⟩

theorem resetWarm_begins (hDtp : isDtp ctx = true) (hClosed : (s.context ctx).groupState ≠ 1) (hTurn : s.awaits ctx = false) (hRestart : s.restart = none)
    (hRecovery : s.recovery = false) (hOn : s.entry 0x1100 1 ≠ 0) :
    ∃ s2, exec (.resetWarm ctx) s = .next s2 ∧ s2.restart.map (fun r => (r.kind, r.cause)) = some (kindWarm, 0) ∧ s2.entry 0x1100 1 = 1 ∧ s2.mem = s.mem
      ∧ s2.jobs = [] ∧ s2.tiles = [] ∧ Safety.outcome s2 ctx 0x1110 1 OK := by
  have hOp : s.resetOp 1 = (OK, s.beginRestart kindWarm 0 false 0) := by
    simp [State.resetOp, hOn, State.requestRestart, hRestart]
  refine ⟨_, congrArg Host.Outcome.next (resetRequest_acts (k := 1) hDtp hClosed hTurn hRecovery (by decide)), ?_⟩
  rw [hOp]
  obtain ⟨hGoes, hBoot, -⟩ := beginRestart_warm (s := s) (cause := 0) (downMs := 0)
  obtain ⟨hMem, hJobs, hTiles⟩ := beginRestart_warm_keeps (s := s) (cause := 0) (downMs := 0)
  generalize s.beginRestart kindWarm 0 false 0 = u at *
  obtain ⟨h, hR, -, -, -, hEntry, -⟩ := record_frame (s := u) (ctx := ctx) 0x1110 1 OK
  exact ⟨(congrArg _ hR).trans hGoes, hEntry.trans hBoot, h.mem.trans hMem, h.jobs.trans hJobs, h.tiles.trans hTiles, session_outcome hDtp ok_ne_waiting⟩

theorem resetHostOff_orders (hDtp : isDtp ctx = true) (hClosed : (s.context ctx).groupState ≠ 1) (hTurn : s.awaits ctx = false)
    (hRecovery : s.recovery = false) (hOn : s.entry 0x1100 1 ≠ 0) (hOpen : s.fieldGate.quietUntil ≤ s.now) :
    ∃ s2, exec (.resetHostOff ctx) s = .next s2 ∧ s2.out = s.out ++ [.gate false s.fieldGate.nextSeq (.power hostMask false)] ∧ s2.entry 0x1100 4 = 0
      ∧ Safety.outcome s2 ctx 0x1110 1 OK ∧ s2.mem = s.mem ∧ s2.jobs = s.jobs ∧ s2.tiles = s.tiles := by
  have hOp : s.resetOp 2 = (OK, s.orderOff 0) := by simp [State.resetOp, hOn]
  refine ⟨_, congrArg Host.Outcome.next (resetRequest_acts (k := 2) hDtp hClosed hTurn hRecovery (by decide)), ?_⟩
  rw [hOp]
  obtain ⟨g, e⟩ := orderOff_sends (s := s) 0 hOpen
  obtain ⟨u, hu⟩ : ∃ u, u = s.orderOff 0 := ⟨_, rfl⟩
  rw [← hu] at e ⊢
  have hu' : u.out = s.out ++ [.gate false s.fieldGate.nextSeq (.power hostMask false)] ∧ u.entry 0x1100 4 = 0 ∧ u.mem = s.mem ∧ u.jobs = s.jobs ∧ u.tiles = s.tiles := by
    rw [e]
    exact ⟨rfl, Laws.entry_setEntry_same .., rfl, rfl, rfl⟩
  obtain ⟨hOut, hCause, hMem, hJobs, hTiles⟩ := hu'
  obtain ⟨h, -, -, -, hOut', -, hEntry⟩ := record_frame (s := u) (ctx := ctx) 0x1110 1 OK
  exact ⟨hOut'.trans hOut, hEntry.trans hCause, session_outcome hDtp ok_ne_waiting, h.mem.trans hMem, h.jobs.trans hJobs, h.tiles.trans hTiles⟩

theorem resetFull_begins (hDtp : isDtp ctx = true) (hClosed : (s.context ctx).groupState ≠ 1) (hTurn : s.awaits ctx = false) (hRestart : s.restart = none)
    (hRecovery : s.recovery = false) (hOn : s.entry 0x1100 1 ≠ 0) :
    ∃ s2, exec (.resetFull ctx) s = .next s2 ∧ s2.mem = [] ∧ s2.jobs = [] ∧ s2.tiles = [] ∧ s2.hostPowered = false ∧ Safety.outcome s2 ctx 0x1110 1 OK
      ∧ ((s2.recovery = false ∧ s2.restart.map (fun r => r.kind) = some kindFull ∧ s2.entry 0x1100 1 = 1)
        ∨ (s2.recovery = true ∧ s2.restart = none ∧ s2.entry 0x1100 1 = 0)) := by
  have hOp : s.resetOp 4 = (OK, s.beginRestart kindFull 0 false 0) := by
    simp [State.resetOp, hOn, State.requestRestart, hRestart]
  refine ⟨_, congrArg Host.Outcome.next (resetRequest_acts (k := 4) hDtp hClosed hTurn hRecovery (by decide)), ?_⟩
  rw [hOp]
  obtain ⟨hMem, hJobs, hTiles, hPower, -, -⟩ := beginRestart_bare (s := s) (kind := kindFull) (cause := 0) (downMs := 0) (by decide) (by decide)
  have hBoot := beginRestart_field (s := s) (kind := kindFull) (cause := 0) (downMs := 0) (.inr rfl) _ rfl
  generalize s.beginRestart kindFull 0 false 0 = u at *
  obtain ⟨h, hR, hStay, hPower', -, hEntry, -⟩ := record_frame (s := u) (ctx := ctx) 0x1110 1 OK
  refine ⟨h.mem.trans hMem, h.jobs.trans hJobs, h.tiles.trans hTiles, hPower'.trans hPower, session_outcome hDtp ok_ne_waiting, ?_⟩
  rcases hBoot with ⟨hIn, hNone, hOff⟩ | ⟨hOut, hGoes, hState, -⟩ | ⟨hCold, -⟩
  · exact .inr ⟨hStay.trans hIn, hR.trans hNone, hEntry.trans hOff⟩
  · exact .inl ⟨hStay.trans hOut, (congrArg _ hR).trans hGoes, hEntry.trans hState⟩
  · exact absurd hCold (by decide)

/-- The kind alone of a restart with its cause. -/
theorem restart_kind {u : State} {kind cause : Nat} (h : u.restart.map (fun r => (r.kind, r.cause)) = some (kind, cause)) :
    u.restart.map (fun r => r.kind) = some kind := by
  rw [show (fun r : Restart => r.kind) = Prod.fst ∘ fun r => (r.kind, r.cause) from rfl, ← Option.map_map, h]
  rfl

theorem resetHostPower_begins (hDtp : isDtp ctx = true) (hClosed : (s.context ctx).groupState ≠ 1) (hTurn : s.awaits ctx = false) (hRestart : s.restart = none)
    (hRecovery : s.recovery = false) (hOff : s.entry 0x1100 1 = 0) :
    ∃ s2, exec (.resetHostPower ctx) s = .next s2 ∧ s2.restart.map (fun r => r.kind) = some kindHostPower ∧ s2.entry 0x1100 1 = 1 ∧ s2.hostPowered = false
      ∧ s2.thermalTripped = false ∧ s2.mem = [] ∧ Safety.outcome s2 ctx 0x1110 1 OK := by
  have hOp : s.resetOp 3 = (OK, s.beginRestart kindHostPower (s.entry 0x1100 4) false 0) := by
    simp [State.resetOp, hOff, hRecovery, State.requestRestart, hRestart]
  refine ⟨_, congrArg Host.Outcome.next (resetRequest_acts (k := 3) hDtp hClosed hTurn hRecovery (by decide)), ?_⟩
  rw [hOp]
  obtain ⟨hGoes, hBoot, -⟩ := beginRestart_power (s := s) (cause := s.entry 0x1100 4) (downMs := 0)
  obtain ⟨hMem, -, -, hPower, -, -⟩ := beginRestart_bare (s := s) (kind := kindHostPower) (cause := s.entry 0x1100 4) (downMs := 0) (by decide) (by decide)
  have hTrip := beginRestart_untripped (s := s) (cause := s.entry 0x1100 4) (downMs := 0)
  generalize s.beginRestart kindHostPower (s.entry 0x1100 4) false 0 = u at *
  obtain ⟨h, hR, -, hPower', -, hEntry, -⟩ := record_frame (s := u) (ctx := ctx) 0x1110 1 OK
  exact ⟨(congrArg _ hR).trans (restart_kind hGoes), hEntry.trans hBoot, hPower'.trans hPower, h.thermalTripped.trans hTrip, h.mem.trans hMem,
    session_outcome hDtp ok_ne_waiting⟩

/-! ### The power commands at the host end (R13, R342) -/

theorem gateAnswer_host_shape {seq : Nat} {p : GatePayload} : ∃ g o, s.gateAnswer .host seq p = { s with hostGate := g, out := o } := by
  unfold State.gateAnswer
  dsimp only
  split
  · exact ⟨_, _, rfl⟩
  · exact ⟨_, _, rfl⟩

/-- A new POWER_DOMAIN_CMD is answered, and then carried out. -/
theorem powerDomainCmd_acts {seq mask : Nat} {on : Bool} (hPower : s.fieldPowered = true) (hUp : s.hostGate.down = false)
    (hNew : s.hostGate.answered.lookup seq = none) : ∃ g o, exec (.powerDomainCmd seq mask on) s = .next (({ s with hostGate := g, out := o } : State).powerDomains mask on) := by
  have hHear : s.hear .host = (true, s.setGate .host { s.hostGate with lastRx := s.now }) := Laws.hear_up hUp
  have hTake : ∃ g o, (s.setGate .host { s.hostGate with lastRx := s.now }).takeNumbered .host seq (fun s => (answerOf OK 0, s)) = { s with hostGate := g, out := o } := by
    unfold State.takeNumbered
    rw [show ((s.setGate .host { s.hostGate with lastRx := s.now }).gateAt .host).answered.lookup seq = none from hNew]
    dsimp only
    obtain ⟨g, o, e⟩ := gateAnswer_host_shape (s := (s.setGate .host { s.hostGate with lastRx := s.now }).setGate .host
      { (s.setGate .host { s.hostGate with lastRx := s.now }).gateAt .host with
        answered := ((seq, answerOf OK 0) :: ((s.setGate .host { s.hostGate with lastRx := s.now }).gateAt .host).answered).take 32768 }) (seq := seq) (p := answerOf OK 0)
    exact ⟨g, o, e⟩
  obtain ⟨g, o, hTake⟩ := hTake
  refine ⟨g, o, ?_⟩
  change execPowerDomainCmd seq mask on s = _
  have hNone : ((s.setGate .host { s.hostGate with lastRx := s.now }).hostGate.answered.lookup seq).isSome = false := congrArg Option.isSome hNew
  simp only [execPowerDomainCmd, hPower, hHear, Bool.not_true, Bool.false_eq_true, if_false, hNone, hTake]

/-- A host side that is ordered off loses all that it held (R420). -/
theorem hostOff_bare : s.hostOff.hostPowered = false ∧ s.hostOff.restart = none ∧ s.hostOff.mem = [] ∧ s.hostOff.jobs = [] ∧ s.hostOff.tiles = [] := by
  have hAll {β : Type} (g : State → β) (hg : ∀ (s : State) i k v, g (s.setEntry i k v) = g s) (he : ∀ (s : State) o, g (s.emit o) = g s) :
      g s.hostOff = g { s.clearHost kindHostPower with hostPowered := false, restart := none, deferredRestart := none, domains := domainsOff } :=
    (he ..).trans ((hg ..).trans (foldl_keeps g (fun _ _ => hg ..) _ _))
  exact ⟨hAll (fun s => s.hostPowered) (fun _ _ _ _ => rfl) fun _ _ => rfl, hAll (fun s => s.restart) (fun _ _ _ _ => rfl) fun _ _ => rfl,
    hAll (fun s => s.mem) (fun _ _ _ _ => rfl) fun _ _ => rfl, hAll (fun s => s.jobs) (fun _ _ _ _ => rfl) fun _ _ => rfl,
    hAll (fun s => s.tiles) (fun _ _ _ _ => rfl) fun _ _ => rfl⟩

theorem powerDomainCmd_off {seq mask : Nat} (hPower : s.fieldPowered = true) (hUp : s.hostGate.down = false) (hNew : s.hostGate.answered.lookup seq = none)
    (hCore : (bit mask 90 || bit mask 95) = true) (hOn : s.hostPowered = true) :
    ∃ s2, exec (.powerDomainCmd seq mask false) s = .next s2 ∧ s2.hostPowered = false ∧ s2.entry 0x1100 1 = 0 ∧ s2.restart = none
      ∧ s2.mem = [] ∧ s2.jobs = [] ∧ s2.tiles = [] := by
  obtain ⟨g, o, hStep⟩ := powerDomainCmd_acts (mask := mask) (on := false) hPower hUp hNew
  refine ⟨_, hStep, ?_⟩
  have hOff : ({ s with hostGate := g, out := o } : State).powerDomains mask false = ({ s with hostGate := g, out := o } : State).hostOff := by
    simp [State.powerDomains, hCore, hOn]
  rw [hOff]
  generalize ({ s with hostGate := g, out := o } : State) = u
  obtain ⟨hPowered, hRestart, hMem, hJobs, hTiles⟩ := hostOff_bare (s := u)
  exact ⟨hPowered, hostOff_off.1, hRestart, hMem, hJobs, hTiles⟩

/-- Power for the supervisor's domain starts a host side that is off, outside a start that Fumarole runs already. -/
theorem powerDomains_starts {mask : Nat} (hCore : (bit mask 90 || bit mask 95) = true) (hHost : s.hostPowered = false) (hOff : s.entry 0x1100 1 = 0)
    (hRestart : s.restart = none) (hRecovery : s.recovery = false) :
    s.powerDomains mask true = ({ s with hostPowered := true } : State).beginRestart kindHostPower (s.entry 0x1100 4) false 0 := by
  obtain ⟨u, hu, hKept⟩ : ∃ u : State, { s with hostPowered := true } = u ∧ u.restart = none ∧ u.entry 0x1100 1 = 0
      ∧ u.entry 0x1100 4 = s.entry 0x1100 4 := ⟨_, rfl, hRestart, hOff, rfl⟩
  obtain ⟨hRestart', hOff', hCause⟩ := hKept
  obtain ⟨-, -, -, hDark, -, -⟩ := beginRestart_bare (s := u) (kind := kindHostPower) (cause := s.entry 0x1100 4) (downMs := 0) (by decide) (by decide)
  simp only [State.powerDomains, hCore, hHost, Bool.not_false, and_self, if_true]
  rw [hu]
  simp only [hRestart', hRestart, Option.isNone_none, hOff', hRecovery, Bool.not_false, and_self, if_true, State.requestRestart, hCause, hDark, Bool.false_eq_true, if_false]

theorem powerDomainCmd_on {seq mask : Nat} (hPower : s.fieldPowered = true) (hUp : s.hostGate.down = false) (hNew : s.hostGate.answered.lookup seq = none)
    (hCore : (bit mask 90 || bit mask 95) = true) (hHost : s.hostPowered = false) (hOff : s.entry 0x1100 1 = 0) (hRestart : s.restart = none)
    (hRecovery : s.recovery = false) :
    ∃ s2, exec (.powerDomainCmd seq mask true) s = .next s2 ∧ s2.restart.map (fun r => r.kind) = some kindHostPower ∧ s2.entry 0x1100 1 = 1 := by
  obtain ⟨g, o, hStep⟩ := powerDomainCmd_acts (mask := mask) (on := true) hPower hUp hNew
  refine ⟨_, hStep, ?_⟩
  rw [powerDomains_starts (s := { s with hostGate := g, out := o }) hCore hHost hOff hRestart hRecovery]
  obtain ⟨hGoes, hBoot, -⟩ := beginRestart_power (s := { s with hostGate := g, out := o, hostPowered := true })
    (cause := ({ s with hostGate := g, out := o } : State).entry 0x1100 4) (downMs := 0)
  exact ⟨restart_kind hGoes, hBoot⟩

/-! ### The cold start (R373, R415, R418) -/

theorem coldStart_begins (hField : s.fieldPowered = false) :
    ∃ s2, exec .coldStart s = .next s2 ∧ s2.fieldPowered = true ∧ s2.mem = [] ∧ s2.jobs = [] ∧ s2.tiles = [] ∧ s2.sessions = [] ∧ s2.hostPowered = false
      ∧ ((s2.restart.map (fun r => r.kind) = some kindCold ∧ s2.entry 0x1100 1 = 1 ∧ s2.entry 0x1120 1 ≠ 1)
        ∨ (s2.restart = none ∧ s2.entry 0x1100 1 = 0 ∧ (s2.recovery = true ∨ s2.entry 0x1120 1 = 1))) := by
  obtain ⟨u, hu⟩ : ∃ u : State, u = { s with fieldPowered := true } := ⟨_, rfl⟩
  have hNow : u.fieldPowered = true := by rw [hu]
  have hStep : exec .coldStart s = .next (u.beginRestart kindCold 0 false 0) := by
    change execColdStart s = _
    rw [execColdStart, hField, if_neg nofun, ← hu]
    unfold State.requestRestart
    split
    · rfl
    · rw [if_neg (fun hc => absurd hc.2 (by decide)), if_pos (.inl rfl)]
  obtain ⟨hMem, hJobs, hTiles, hPower, hField', hSessions⟩ := beginRestart_bare (s := u) (kind := kindCold) (cause := 0) (downMs := 0) (by decide) (by decide)
  have hBoot := beginRestart_field (s := u) (kind := kindCold) (cause := 0) (downMs := 0) (.inl rfl) _ rfl
  refine ⟨_, hStep, hField'.trans hNow, hMem, hJobs, hTiles, hSessions (by decide), hPower, ?_⟩
  rcases hBoot with ⟨hIn, hNone, hOff⟩ | ⟨-, hGoes, hState, hPolicy⟩ | ⟨-, -, hNone, hOff, hPolicy⟩
  · exact .inr ⟨hNone, hOff, .inl hIn⟩
  · exact .inl ⟨hGoes, hState, hPolicy rfl⟩
  · exact .inr ⟨hNone, hOff, .inr hPolicy⟩

end Begins

/-- Settles O57: requests from a host-side context and from a session, the power commands, the cold start. -/
theorem restartsBegin : Obligations.RestartsBegin := by
  unfold Obligations.RestartsBegin
  refine ⟨fun _ _ _ _ => resetCommands_ask, fun _ _ hDtp hClosed hTurn hRestart hRecovery hOn =>
      ⟨resetWarm_begins hDtp hClosed hTurn hRestart hRecovery hOn, resetHostOff_orders hDtp hClosed hTurn hRecovery hOn,
        resetFull_begins hDtp hClosed hTurn hRestart hRecovery hOn⟩,
    fun _ _ => resetHostPower_begins, fun _ _ _ on hPower hUp hNew hCore => ⟨?_, ?_⟩, fun _ => coldStart_begins⟩
  · rintro rfl
    exact powerDomainCmd_off hPower hUp hNew hCore
  · rintro rfl
    exact powerDomainCmd_on hPower hUp hNew hCore

end Sys2Proof.Proofs
end

section
/-! PROOFS. Poison: retirement, the clear and its walk (R294-R296). -/

namespace Sys2Proof.Proofs
open Sys2Proof.Machine

/-- The words of a range of granules. -/
def inGranules (first count w : Nat) : Prop := first ≤ w / 8 ∧ w / 8 < first + count

section Poison

variable {s : State} {first count w : Nat}

theorem mem_poisonedIn : w ∈ s.poisonedIn first count ↔ inGranules first count w ∧ s.wordPoisoned w = true := by
  unfold State.poisonedIn inGranules
  rw [List.mem_filter, List.mem_map]
  refine and_congr_left fun _ => ⟨?_, fun h => ⟨w - 8 * first, by rw [List.mem_range]; omega, by omega⟩⟩
  rintro ⟨i, hi, rfl⟩
  rw [List.mem_range] at hi
  omega

/-- With nothing waiting, a free place of the table goes to nobody. -/
theorem admitMarking_none (h : s.poisonWaits = []) : s.admitMarking = { s with poisonWaits := [] } := by
  unfold State.admitMarking
  dsimp only
  rw [h, List.take_nil, List.drop_nil]
  rfl

/-- Setting POISON bits changes the bits of those words alone. -/
theorem poisonWords_shape (l : List Nat) : ∃ p, l.foldl State.poisonWord s = { s with wordPoison := p } ∧ ∀ w, w ∈ p ↔ w ∈ s.wordPoison ∨ w ∈ l := by
  induction l generalizing s with
  | nil => exact ⟨_, rfl, fun w => by simp⟩
  | cons x l ih =>
    obtain ⟨p, hp, hIn⟩ : ∃ p, s.poisonWord x = { s with wordPoison := p } ∧ ∀ w, w ∈ p ↔ w ∈ s.wordPoison ∨ w = x := by
      unfold State.poisonWord
      split
      · next hx =>
        rw [List.contains_iff_mem] at hx
        exact ⟨_, rfl, fun w => ⟨.inl, fun h => h.elim id fun e => e ▸ hx⟩⟩
      · exact ⟨_, rfl, fun w => by rw [List.mem_cons, or_comm]⟩
    obtain ⟨q, hq, hIn'⟩ := ih (s := s.poisonWord x)
    refine ⟨q, ?_, fun w => ?_⟩
    · rw [List.foldl_cons, hq, hp]
    · rw [hIn' w, hp, List.mem_cons]
      change w ∈ p ∨ w ∈ l ↔ _
      rw [hIn w, or_assoc]

theorem poisonRetire_retires {e : PoisonEntry} {rest : List PoisonEntry} (hTable : s.poisonTable = e :: rest) (hWaits : s.poisonWaits = [])
    (hDue : s.retireDue e = true) :
    ∃ s2, exec .poisonRetire s = .next s2 ∧ s2.poisonTable = rest ∧ (∀ w, s2.wordPoisoned w = s.wordPoisoned w) ∧ s2.entry 0x3030 5 = rest.length
      ∧ s2.mem = s.mem ∧ s2.tiles = s.tiles ∧ s2.jobs = s.jobs := by
  obtain ⟨p, hp, hIn⟩ := poisonWords_shape (s := s) (s.poisonedIn e.first e.count)
  have hRetire : s.retirePoison = { (({ s with wordPoison := p, poisonTable := rest } : State).setEntry 0x3030 5 rest.length) with poisonWaits := [] } := by
    unfold State.retirePoison
    rw [hTable]
    dsimp only
    rw [if_pos hDue, hp]
    exact admitMarking_none hWaits
  refine ⟨_, congrArg Host.Outcome.next hRetire, rfl, fun w => ?_, Laws.entry_setEntry_same .., rfl, rfl, rfl⟩
  change (p.contains w || rest.any (s.tablePoisons w)) = (s.wordPoison.contains w || s.poisonTable.any (s.tablePoisons w))
  rw [Bool.eq_iff_iff, hTable, List.any_cons]
  simp only [Bool.or_eq_true, List.contains_iff_mem, hIn, mem_poisonedIn]
  constructor
  · rintro ((h | ⟨-, h⟩) | h)
    · exact .inl h
    · rwa [State.wordPoisoned, hTable, List.any_cons, Bool.or_eq_true, Bool.or_eq_true, List.contains_iff_mem] at h
    · exact .inr (.inr h)
  · rintro (h | h | h)
    · exact .inl (.inl h)
    · refine .inl (.inr ⟨?_, ?_⟩)
      · simp only [State.tablePoisons, Bool.and_eq_true, decide_eq_true_eq] at h
        exact h.1
      · rw [State.wordPoisoned, hTable, List.any_cons, h, Bool.true_or, Bool.or_true]
    · exact .inr h

/-! ### The clear (R296) -/

theorem poisonClear_row : ∃ r, CommandRow 0x3030 3 r ∧ r.ty = .u8 ∧ r.min = 1 ∧ r.max = 1 ∧ r.index = 0x3030 :=
  ⟨(lookupEntry 0x3030 3).get (by decide), ⟨by simp, by decide, by decide, by decide, by decide⟩, by decide, by decide, by decide, by decide⟩

theorem poisonClear_starts {ctx : Nat} (h : Safety.direct s ctx = true) (hIdle : s.clearWalk = none) (hBase : s.entry 0x3030 1 % 256 = 0)
    (hLength : s.entry 0x3030 2 % 256 = 0) (hStack : inStack (s.entry 0x3030 1) (s.entry 0x3030 2) = true)
    (hFree : s.regionHeld (s.entry 0x3030 1) (s.entry 0x3030 2) = false) :
    ∃ s2, exec (.poisonClear ctx 1) s = .next s2 ∧ s2.clearWalk = some { base := s.entry 0x3030 1, length := s.entry 0x3030 2 }
      ∧ s2.entry 0x3030 4 = PENDING ∧ Safety.outcome s2 ctx 0x3030 3 OK ∧ s2.mem = s.mem ∧ s2.poisonTable = s.poisonTable := by
  obtain ⟨hServed, -⟩ := Laws.direct_parts h
  obtain ⟨hReady, -, hCtx, hSecure, -, hAwaits⟩ := Laws.served_parts hServed
  obtain ⟨r, hr, hTy, hMin, hMax, hIndex⟩ := poisonClear_row
  have hU8 : EntryType.u8.max = 255 := rfl
  have hRange : s.rangeRefusal r 0x3030 3 1 = none :=
    rangeRefusal_none (by rw [hTy, hU8]; decide) (by rw [hMin, hMax]; decide) (.inl (by rw [hIndex]; decide)) (by simp [State.valueRefusal, hBase, hLength, hStack])
  have hStopped : s.unitStopped 0x3030 3 = true := by
    simp [State.unitStopped, show ownerJob 0x3030 = none by decide, hIdle, hFree]
  have hResult : s.writeResult ctx 0x3030 3 1 State.poisonClearOp = s.poisonClearOp :=
    writeResult_command h hr hRange (Laws.stateRefusal_served true hServed (by decide) (by decide)) fun _ => hStopped
  have hPaused : s.bar0Paused ctx = false := by simp [State.bar0Paused, hReady]
  have hTurn : s.awaits (slotWrite ctx 0x3030 3 1).ctx = false := hAwaits
  have hOne : (1 : Word).toNat = 1 := rfl
  have hWrite : exec (.poisonClear ctx 1) s = .next ((s.poisonClearOp.2.notePoisonClear OK).record ctx 0x3030 3 OK) := by
    change execPoisonClear ctx 1 s = _
    simp only [execPoisonClear, hOne, State.writeNoted, State.served, hPaused, hSecure, State.inTurn, hTurn, hResult, Bool.false_eq_true, if_false]
    rfl
  refine ⟨_, hWrite, ?_⟩
  rw [State.notePoisonClear, if_neg (fun hc => hc.1.elim nofun nofun)]
  refine ⟨?_, ?_, outcome_record hCtx ok_ne_waiting, ?_, ?_⟩
  · rw [Laws.record_eq hCtx _ (by decide) (by decide)]; rfl
  · rw [entry_record_low _ (by decide) (by decide)]
    exact Laws.entry_setEntry_same ..
  · rw [Laws.record_eq hCtx _ (by decide) (by decide)]; rfl
  · rw [Laws.record_eq hCtx _ (by decide) (by decide)]; rfl

/-- Bytes stored change memory alone. -/
theorem putBytes_shape (a : Nat) (bs : List Byte) : ∃ m, s.putBytes a bs = { s with mem := m } := by
  induction bs generalizing s a with
  | nil => exact ⟨_, rfl⟩
  | cons b bs ih =>
    obtain ⟨m, hm⟩ := ih (s := s.putByte a b) (a + 1)
    exact ⟨m, hm⟩

theorem memByte_stampWord (k x : Nat) : (s.stampWord k).memByte x = s.memByte x := rfl

/-- The walk's words hold zero, carry no POISON bit, and no other word changes. -/
theorem clearWords_shape (l : List Nat) : ∃ m p e, l.foldl (fun s w => (s.putBytes (32 * w) (List.replicate 32 0)).stampWord w) s
      = { s with mem := m, wordPoison := p, wordEpoch := e } ∧ (∀ w, w ∈ p ↔ w ∈ s.wordPoison ∧ w ∉ l)
      ∧ (∀ w, w ∉ l → Tab.get e 0 w = Tab.get s.wordEpoch 0 w)
      ∧ ∀ x, ({ s with mem := m, wordPoison := p, wordEpoch := e } : State).memByte x = if x / 32 ∈ l then 0 else s.memByte x := by
  induction l generalizing s with
  | nil => exact ⟨_, _, _, rfl, fun w => by simp, fun _ _ => rfl, fun x => by simp⟩
  | cons k l ih =>
    obtain ⟨u, hu⟩ : ∃ u, (s.putBytes (32 * k) (List.replicate 32 0)).stampWord k = u := ⟨_, rfl⟩
    obtain ⟨m, p, e, hFold, hPoison, hEpoch, hByte⟩ := ih (s := u)
    obtain ⟨m', hm'⟩ := putBytes_shape (s := s) (32 * k) (List.replicate 32 0)
    have hu' : u = { s with mem := m', wordPoison := s.wordPoison.filter fun x => x ≠ k, wordEpoch := Tab.put s.wordEpoch k s.poisonEpoch } := by
      rw [← hu, hm']
      rfl
    have hFirst (x : Nat) : u.memByte x = if x / 32 = k then 0 else s.memByte x := by
      rw [← hu, memByte_stampWord, Laws.memByte_putBytes, List.length_replicate]
      by_cases hx : x / 32 = k
      · rw [if_pos hx, if_pos (by omega), List.getD_eq_getElem?_getD, List.getElem?_replicate, if_pos (by omega), Option.getD_some]
      · rw [if_neg hx, if_neg (by omega)]
    have hShape : ({ u with mem := m, wordPoison := p, wordEpoch := e } : State) = { s with mem := m, wordPoison := p, wordEpoch := e } := by rw [hu']
    refine ⟨m, p, e, ?_, fun w => ?_, fun w hw => ?_, fun x => ?_⟩
    · rw [List.foldl_cons, hu, hFold, hShape]
    · rw [hPoison, hu', List.mem_cons, not_or]
      simp [and_assoc]
    · rw [List.mem_cons, not_or] at hw
      rw [hEpoch w hw.2, hu']
      exact Laws.tab_get_put_ne _ _ _ hw.1
    · rw [← hShape, hByte, hFirst]
      by_cases hk : x / 32 = k
      · rw [if_pos hk, if_pos (List.mem_cons.2 (.inl hk))]
        exact ite_self _
      · rw [if_neg hk]
        by_cases hl : x / 32 ∈ l
        · rw [if_pos hl, if_pos (List.mem_cons_of_mem _ hl)]
        · rw [if_neg hl, if_neg fun hc => (List.mem_cons.1 hc).elim hk hl]

/-- What trimming leaves of an entry poisons its words outside the range. -/
theorem trim_poisons {e : PoisonEntry} : (e.trim first count).any (s.tablePoisons w) = true ↔ s.tablePoisons w e = true ∧ ¬inGranules first count w := by
  unfold PoisonEntry.trim inGranules
  dsimp only
  have hCover (x : PoisonEntry) : s.tablePoisons w x = true ↔ (x.first ≤ w / 8 ∧ w / 8 < x.first + x.count) ∧ epochPrecedes (Tab.get s.wordEpoch 0 w) x.epoch = true := by
    simp [State.tablePoisons, and_assoc]
  split
  · rw [List.any_cons, List.any_nil, Bool.or_false, hCover]
    exact ⟨fun h => ⟨h, fun hc => by omega⟩, And.left⟩
  · rw [List.any_append, Bool.or_eq_true, hCover]
    constructor
    · rintro (h | h)
      · split at h
        · rw [List.any_cons, List.any_nil, Bool.or_false, hCover] at h
          obtain ⟨hIn, hEpoch⟩ := h
          dsimp only at hIn hEpoch
          exact ⟨⟨by omega, hEpoch⟩, by omega⟩
        · exact absurd h nofun
      · split at h
        · rw [List.any_cons, List.any_nil, Bool.or_false, hCover] at h
          obtain ⟨hIn, hEpoch⟩ := h
          dsimp only at hIn hEpoch
          exact ⟨⟨by omega, hEpoch⟩, by omega⟩
        · exact absurd h nofun
    · rintro ⟨⟨hIn, hEpoch⟩, hOut⟩
      by_cases hBefore : w / 8 < first
      · left
        rw [if_pos (by omega), List.any_cons, List.any_nil, Bool.or_false, hCover]
        exact ⟨by dsimp only; omega, hEpoch⟩
      · right
        rw [if_pos (by omega), List.any_cons, List.any_nil, Bool.or_false, hCover]
        exact ⟨by dsimp only; omega, hEpoch⟩

/-- A word's bytes, where each byte of it follows one rule. -/
theorem memBytes_congr {t u : State} {a n : Nat} (h : ∀ i < n, t.memByte (a + i) = u.memByte (a + i)) : t.memBytes a n = u.memBytes a n := by
  unfold State.memBytes
  exact List.map_congr_left fun i hi => h i (List.mem_range.1 hi)

theorem memBytes_zero {t : State} {a n : Nat} (h : ∀ i < n, t.memByte (a + i) = 0) : t.memBytes a n = List.replicate n 0 := by
  unfold State.memBytes
  rw [List.map_congr_left fun i hi => h i (List.mem_range.1 hi), List.map_const', List.length_range]

theorem poisonClearWalkEnd_clears {c : ClearWalk} (hWalk : s.clearWalk = some c) (hWaits : s.poisonWaits = []) :
    ∃ s2, exec .poisonClearWalkEnd s = .next s2 ∧ s2.clearWalk = none ∧ s2.entry 0x3030 4 = OK ∧ s2.tiles = s.tiles ∧ s2.jobs = s.jobs
      ∧ (∀ w, c.base / 256 ≤ w / 8 ∧ w / 8 < c.base / 256 + c.length / 256 →
          s2.wordPoisoned w = false ∧ s2.memBytes (32 * w) 32 = if s.wordPoisoned w then List.replicate 32 0 else s.memBytes (32 * w) 32)
      ∧ (∀ w, ¬(c.base / 256 ≤ w / 8 ∧ w / 8 < c.base / 256 + c.length / 256) →
          s2.wordPoisoned w = s.wordPoisoned w ∧ s2.memBytes (32 * w) 32 = s.memBytes (32 * w) 32) := by
  obtain ⟨m, p, e, hFold, hPoison, hEpoch, hByte⟩ := clearWords_shape (s := s) (s.poisonedIn (c.base / 256) (c.length / 256))
  obtain ⟨table, hTable⟩ : ∃ l, l = s.poisonTable.flatMap fun e => e.trim (c.base / 256) (c.length / 256) := ⟨_, rfl⟩
  obtain ⟨u, hu⟩ : ∃ u : State, u = { s with mem := m, wordPoison := p, wordEpoch := e } := ⟨_, rfl⟩
  rw [← hu] at hFold hByte
  have hEnd : s.endClear = { ((({ u with poisonTable := table, clearWalk := none } : State).setEntry 0x3030 5 table.length).setEntry 0x3030 4 OK) with poisonWaits := [] } := by
    unfold State.endClear
    rw [hWalk]
    dsimp only
    rw [hFold, hTable, hu]
    exact admitMarking_none hWaits
  refine ⟨_, congrArg Host.Outcome.next hEnd, rfl, Laws.entry_setEntry_same .., by rw [hu]; rfl, by rw [hu]; rfl, ?_⟩
  obtain ⟨v, hv⟩ : ∃ v : State, v = { ((({ u with poisonTable := table, clearWalk := none } : State).setEntry 0x3030 5 table.length).setEntry 0x3030 4 OK) with poisonWaits := [] } :=
    ⟨_, rfl⟩
  rw [← hv]
  have hBytes (x : Nat) : v.memByte x = u.memByte x := by rw [hv]; rfl
  have hPoisoned (w : Nat) : v.wordPoisoned w = true ↔ s.wordPoisoned w = true ∧ ¬inGranules (c.base / 256) (c.length / 256) w := by
    have hAny : table.any (v.tablePoisons w) = true ↔ s.poisonTable.any (v.tablePoisons w) = true ∧ ¬inGranules (c.base / 256) (c.length / 256) w := by
      rw [hTable, List.any_flatMap]
      rw [List.any_eq_true, List.any_eq_true]
      exact ⟨fun ⟨x, hx, h⟩ => ⟨⟨x, hx, (trim_poisons.1 h).1⟩, (trim_poisons.1 h).2⟩, fun ⟨⟨x, hx, h⟩, hOut⟩ => ⟨x, hx, trim_poisons.2 ⟨h, hOut⟩⟩⟩
    have hNew : v.wordPoisoned w = true ↔ w ∈ p ∨ table.any (v.tablePoisons w) = true := by
      have : v.wordPoisoned w = (p.contains w || table.any (v.tablePoisons w)) := by rw [State.wordPoisoned, hv, hu]; rfl
      rw [this, Bool.or_eq_true, List.contains_iff_mem]
    have hOld : s.wordPoisoned w = true ↔ w ∈ s.wordPoison ∨ s.poisonTable.any (s.tablePoisons w) = true := by
      rw [State.wordPoisoned, Bool.or_eq_true, List.contains_iff_mem]
    rw [hNew, hPoison, hAny, hOld, mem_poisonedIn]
    have hSame (h : ¬inGranules (c.base / 256) (c.length / 256) w) : v.tablePoisons w = s.tablePoisons w := by
      have hv' : v.wordEpoch = e := by rw [hv, hu]; rfl
      funext x
      rw [State.tablePoisons, State.tablePoisons, hv', hEpoch w fun hc => h (mem_poisonedIn.1 hc).1]
    constructor
    · rintro (⟨hIn, hNot⟩ | ⟨hIn, hOut⟩)
      · exact ⟨.inl hIn, fun hc => hNot ⟨hc, hOld.2 (.inl hIn)⟩⟩
      · exact ⟨.inr (hSame hOut ▸ hIn), hOut⟩
    · rintro ⟨hIn | hIn, hOut⟩
      · exact .inl ⟨hIn, fun hc => hOut hc.1⟩
      · exact .inr ⟨(hSame hOut).symm ▸ hIn, hOut⟩
  have hWord (w i : Nat) (hi : i < 32) : (32 * w + i) / 32 = w := by omega
  refine ⟨fun w hIn => ⟨?_, ?_⟩, fun w hOut => ⟨?_, ?_⟩⟩
  · rw [Bool.eq_false_iff]
    exact fun hc => ((hPoisoned w).1 hc).2 hIn
  · split
    · next hBad =>
      refine memBytes_zero fun i hi => ?_
      rw [hBytes, hByte, hWord w i hi, if_pos (mem_poisonedIn.2 ⟨hIn, hBad⟩)]
    · next hGood =>
      refine memBytes_congr fun i hi => ?_
      rw [hBytes, hByte, hWord w i hi, if_neg fun hc => hGood (mem_poisonedIn.1 hc).2]
  · rw [Bool.eq_iff_iff, hPoisoned w]
    exact ⟨And.left, fun h => ⟨h, hOut⟩⟩
  · refine memBytes_congr fun i hi => ?_
    rw [hBytes, hByte, hWord w i hi, if_neg fun hc => hOut (mem_poisonedIn.1 hc).1]

end Poison

/-- Settles O41: retirement, the start of a clear, the end of its walk. -/
theorem poisonLives : Obligations.PoisonLives := by
  unfold Obligations.PoisonLives
  exact ⟨fun _ _ _ => poisonRetire_retires, fun _ _ => poisonClear_starts, fun _ _ => poisonClearWalkEnd_clears⟩

end Sys2Proof.Proofs
end

section
/-! PROOFS. A clock switch counts the group's waits, and a wait's cause may name another group's entry (R345, R411). -/

namespace Sys2Proof.Proofs
open Sys2Proof.Machine

/-- The cause whose counter in tile 0 would be GroupPoint of group 1. -/
def strayCause : Nat := 256 * (0xA081 - 0x8100) + 1

/-- Tile 0, in T0, runs job 0, and waits with that cause since 1 ms; a step of its group to point 1 has its voltage. -/
def strayWait : State :=
  { State.reset.setEntry 0xA0C0 1 0 with
    now := 1000000
    enabled := 1
    tiles := [(0, { waitCause := strayCause })]
    jobs := [(0, { state := .running, group := [0] })]
    heat := { ramps := [{ job := 0, target := 1, startedAt := 0 }] } }

theorem strayWait_counts : (strayWait.movePoint 0 1).groupPoint 1 = 1050000 := by decide

theorem strayWait_point : strayWait.groupPoint 1 = 0 := by decide

/-- The step of the group by its sensor is the same move, noted in other entries. -/
theorem strayWait_thermal : (strayWait.thermalStep 0 1000000).groupPoint 1 = 1050000 := by decide

/-- A step up whose voltage is reached switches the clock of a group that is awake. -/
theorem pointChange_moves {s : State} {j : Nat} {r : Ramp} (hRamp : (s.heat.ramps.find? fun r => r.job = j) = some r)
    (hDue : r.startedAt + 100 * (pointMv r.target - pointMv (s.groupPoint j)) ≤ s.now) (hAwake : ((s.job j).group.any fun t => 2 ≤ s.tileState t) = false) :
    s.pointChange j = s.movePoint j r.target := by
  unfold State.pointChange
  rw [hRamp]
  exact if_neg fun hc => hc.elim (fun h => by omega) fun h => by rw [hAwake] at h; cases h

theorem strayWait_change : exec (.pointChange 0) strayWait = .next (strayWait.movePoint 0 1) := by
  change execPointChange 0 strayWait = _
  rw [execPointChange, Laws.onJob_next (by decide)]
  exact congrArg Host.Outcome.next (pointChange_moves (r := { job := 0, target := 1, startedAt := 0 }) rfl (by decide) (by decide))

theorem strayWait_step : exec (.thermalStep 0 1000000) strayWait = .next (strayWait.thermalStep 0 1000000) := by
  change execThermalStep 0 1000000 strayWait = _
  rw [execThermalStep, Laws.onTile_next (by decide)]
  exact congrArg Host.Outcome.next (if_pos (by decide))

/-- A move of group 0 that counts the stray wait changes group 1's point. -/
theorem not_moved_of_stray {s2 : State} {x : Nat} (h : s2.groupPoint 1 = 1050000) : ¬ Safety.moved strayWait s2 0 x := by
  rintro ⟨-, -, -, hOthers, -⟩
  have := hOthers 1 (by decide) (by decide)
  rw [h, strayWait_point] at this
  exact absurd this (by decide)

/-- Refutes O49: a clock switch first counts the waits of the group's tiles, and a wait's cause, which no bound holds in a tile's state, can name GroupPoint of
another group as its counter. -/
theorem not_ledgerActs : ¬ Obligations.LedgerActs := by
  unfold Obligations.LedgerActs
  rintro ⟨-, -, -, -, -, -, hChange, -⟩
  obtain ⟨s2, hx, hMoved, -⟩ := hChange strayWait 0 1 0 (by decide) rfl (by decide) (by decide) (by decide) (by decide)
  rw [strayWait_change] at hx
  injection hx with hx
  exact not_moved_of_stray (hx ▸ strayWait_counts) hMoved

/-- Refutes O50: a thermal step moves the group's point, and so counts the waits of the group's tiles, by a cause that can name another group's GroupPoint. -/
theorem not_heatAndSleep : ¬ Obligations.HeatAndSleep := by
  unfold Obligations.HeatAndSleep
  rintro ⟨hThermal, -⟩
  obtain ⟨s2, hx, hMoved, -⟩ := (hThermal strayWait 0 0 1000000 (by decide) (by decide) (by decide)).1 (by decide) (by decide) (by decide) rfl (by decide)
  rw [strayWait_step] at hx
  injection hx with hx
  exact not_moved_of_stray (hx ▸ strayWait_thermal) hMoved

end Sys2Proof.Proofs
end

section
/-! PROOFS. What touching the stacks and completing a frame change (R298, R315, R272). -/

namespace Sys2Proof.Proofs
open Sys2Proof.Machine

/-- `u` is `s` but for the stacks' request times and their power states (R298). -/
structure TouchFrame (s u : State) : Prop where
  shape : ∃ d q, u = { s with dict := d, sorters := q }
  entries : ∀ i k, k < 256 → i < 0x3040 ∨ 0x3048 ≤ i → u.entry i k = s.entry i k

/-- `u` is `s` but for what an operation's completion changes: ports, what left the module, counters of 0x4038, the expected sequence numbers (R315). -/
structure WireFrame (s u : State) : Prop where
  shape : ∃ p o d q, u = { s with ports := p, out := o, dict := d, seqExpected := q }
  entries : ∀ i k, k < 256 → i ≠ 0x4038 → u.entry i k = s.entry i k

section Frames

variable {s t u : State}

namespace TouchFrame

theorem refl (s : State) : TouchFrame s s := ⟨⟨_, _, rfl⟩, fun _ _ _ _ => rfl⟩

theorem trans (h : TouchFrame s t) (h' : TouchFrame t u) : TouchFrame s u where
  shape := by
    obtain ⟨_, _, rfl⟩ := h.shape
    obtain ⟨_, _, rfl⟩ := h'.shape
    exact ⟨_, _, rfl⟩
  entries i k hk hi := (h'.entries i k hk hi).trans (h.entries i k hk hi)

theorem mem (h : TouchFrame s u) : u.mem = s.mem := by obtain ⟨_, _, rfl⟩ := h.shape; rfl
theorem tiles (h : TouchFrame s u) : u.tiles = s.tiles := by obtain ⟨_, _, rfl⟩ := h.shape; rfl
theorem jobs (h : TouchFrame s u) : u.jobs = s.jobs := by obtain ⟨_, _, rfl⟩ := h.shape; rfl
theorem job (h : TouchFrame s u) (j : Nat) : u.job j = s.job j := by obtain ⟨_, _, rfl⟩ := h.shape; rfl
theorem tile (h : TouchFrame s u) (t : Nat) : u.tile t = s.tile t := by obtain ⟨_, _, rfl⟩ := h.shape; rfl
theorem memByte (h : TouchFrame s u) (x : Nat) : u.memByte x = s.memByte x := by obtain ⟨_, _, rfl⟩ := h.shape; rfl

theorem touchStack {k : Nat} (hk : k < 8) (h : TouchFrame s u) : TouchFrame s (u.touchStack k) := by
  refine h.trans ?_
  unfold State.touchStack
  dsimp only
  split
  · exact ⟨⟨_, _, rfl⟩, fun i l hl hi => Laws.entry_setEntry_index _ _ _ _ _ _ (by decide) hl (by omega)⟩
  · exact ⟨⟨_, _, rfl⟩, fun _ _ _ _ => rfl⟩

/-- An address of the visible range lies in one of the eight stacks. -/
theorem mapAddress_stack {a : Nat} (ha : a < visibleTop) : (s.mapAddress a).1 < 8 := by
  have hHashed (i : Nat) : s.hashedStacks.getD i 0 < 8 := by
    rw [List.getD_eq_getElem?_getD]
    cases h : s.hashedStacks[i]? with
    | none => exact Nat.zero_lt_succ _
    | some k =>
      have := List.mem_of_getElem? h
      rw [State.hashedStacks, List.mem_filter, List.mem_range] at this
      exact this.1
  have hTop : visibleTop = 8 * stackWindow := by decide
  unfold State.mapAddress
  dsimp only
  split
  · exact Nat.div_lt_of_lt_mul (by rw [Nat.mul_comm, ← hTop]; exact ha)
  · exact hHashed _

theorem touchRange {a n : Nat} (hIn : inStack a n = true) (h : TouchFrame s u) : TouchFrame s (u.touchRange a n) := by
  refine h.trans ?_
  unfold State.touchRange
  split
  · exact refl _
  · next hn =>
    have hTop : a + n ≤ visibleTop := by simpa [inStack] using hIn
    have hAll : ∀ k ∈ ((List.range ((a + n - 1) / 256 - a / 256 + 1)).map fun i => (u.mapAddress ((a / 256 + i) * 256)).1).eraseDups, k < 8 := by
      intro k hk
      rw [List.mem_eraseDups, List.mem_map] at hk
      obtain ⟨i, hi, rfl⟩ := hk
      rw [List.mem_range] at hi
      exact mapAddress_stack (by omega)
    generalize List.eraseDups (α := Nat) _ = l at hAll ⊢
    clear hTop hIn
    have hFold : ∀ l : List Nat, (∀ k ∈ l, k < 8) → ∀ v, TouchFrame u v → TouchFrame u (l.foldl State.touchStack v) := by
      intro l
      induction l with
      | nil => exact fun _ _ hv => hv
      | cons k l ih => exact fun hl v hv => ih (fun k hk => hl k (List.mem_cons_of_mem _ hk)) _ (hv.touchStack (hl k List.mem_cons_self))
    exact hFold l hAll u (refl u)

theorem touchOwn {g n : Nat} (h : TouchFrame s u) : TouchFrame s (u.touchOwn g n) := by
  unfold State.touchOwn
  split
  · next hIn => exact h.touchRange hIn.2
  · exact h

end TouchFrame

namespace WireFrame

theorem refl (s : State) : WireFrame s s := ⟨⟨_, _, _, _, rfl⟩, fun _ _ _ _ => rfl⟩

theorem trans (h : WireFrame s t) (h' : WireFrame t u) : WireFrame s u where
  shape := by
    obtain ⟨_, _, _, _, rfl⟩ := h.shape
    obtain ⟨_, _, _, _, rfl⟩ := h'.shape
    exact ⟨_, _, _, _, rfl⟩
  entries i k hk hi := (h'.entries i k hk hi).trans (h.entries i k hk hi)

theorem mem (h : WireFrame s u) : u.mem = s.mem := by obtain ⟨_, _, _, _, rfl⟩ := h.shape; rfl
theorem tiles (h : WireFrame s u) : u.tiles = s.tiles := by obtain ⟨_, _, _, _, rfl⟩ := h.shape; rfl
theorem jobs (h : WireFrame s u) : u.jobs = s.jobs := by obtain ⟨_, _, _, _, rfl⟩ := h.shape; rfl

theorem bump (h : WireFrame s u) (k n : Nat) (hk : k < 256) : WireFrame s (u.bump 0x4038 k n) :=
  h.trans ⟨⟨_, _, _, _, rfl⟩, fun _ _ hl hi => Laws.entry_setEntry_index _ _ _ _ _ _ hk hl hi⟩

theorem sendFrame (h : WireFrame s u) (p : Nat) (f : Frame) : WireFrame s (u.sendFrame p f) :=
  h.trans ⟨⟨_, _, _, _, rfl⟩, fun _ _ _ _ => rfl⟩

theorem complete (h : WireFrame s u) (f : Frame) (status operand : Nat) (data : List Byte) : WireFrame s (u.complete f status operand data) := by
  unfold State.complete
  dsimp only
  split
  · exact h.sendFrame ..
  · exact h.bump 7 1 (by decide)

theorem decideOp (h : WireFrame s u) (f : Frame) (status operand : Nat) (data : List Byte) : WireFrame s (u.decideOp f status operand data) := by
  unfold State.decideOp
  dsimp only
  have hBump : WireFrame s (if status = OK then u.bump 0x4038 2 1 else u) := by
    split
    · exact h.bump 2 1 (by decide)
    · exact h
  exact (hBump.trans ⟨⟨_, _, _, _, rfl⟩, fun _ _ _ _ => rfl⟩ : WireFrame s (State.advanceTriple _ f)).complete ..

theorem foldl {α : Type} {f : State → α → State} (hf : ∀ u x, WireFrame u (f u x)) (l : List α) : ∀ {u}, WireFrame s u → WireFrame s (l.foldl f u) := by
  induction l with
  | nil => exact fun h => h
  | cons x l ih => exact fun h => ih (h.trans (hf _ x))

end WireFrame

/-- Of the tiles, settled window PUTs change the tile's own list of landed ones alone. -/
theorem settleLanded_frame (t : Nat) : WireFrame (s.updTile t fun x => { x with windowLanded := x.windowLanded.filter (fun f =>
    (frameRows f f.payload.length).any fun r => (s.tile t).verifyDue.contains r) }) (s.settleLanded t) := by
  unfold State.settleLanded
  exact WireFrame.foldl (fun u f => (WireFrame.refl u).decideOp ..) _ (WireFrame.refl _)

end Frames

end Sys2Proof.Proofs
end

section
/-! PROOFS. The admission check (R247, R250, R274). -/

namespace Sys2Proof.Proofs
open Sys2Proof.Machine

section Admission

variable {s t u : State} {j i k : Nat}

/-- Entries that are not reset keep their values. -/
theorem entry_resetEntries_ne {keys : List (Nat × Nat)} (h : ∀ p ∈ keys, entryKey i k ≠ entryKey p.1 p.2) : (s.resetEntries keys).entry i k = s.entry i k := by
  have hFold : ∀ (l : List (Nat × Nat)) (d : Tab Nat), (∀ p ∈ l, entryKey i k ≠ entryKey p.1 p.2) →
      Tab.get? (l.foldl (fun d p => Tab.erase d (entryKey p.1 p.2)) d) (entryKey i k) = Tab.get? d (entryKey i k) := by
    intro l
    induction l with
    | nil => exact fun _ _ => rfl
    | cons p l ih =>
      intro d hl
      rw [List.foldl_cons, ih _ fun q hq => hl q (List.mem_cons_of_mem _ hq)]
      exact Laws.tab_get?_erase_ne _ (hl p List.mem_cons_self)
  unfold State.entry State.resetEntries
  rw [Tab.get, Tab.get, hFold keys s.dict h]

/-- What loading a tile changes: the tile, its power state and counters, and what the completion of its landed window PUTs changes. -/
structure LoadFrame (s u : State) : Prop where
  shape : ∃ p o d q g, u = { s with ports := p, out := o, dict := d, seqExpected := q, tiles := g }
  entries : ∀ i k, k < 256 → i ≠ 0x4038 → i < 0x8100 ∨ 0x8140 ≤ i → i < 0xA0C0 ∨ 0xA100 ≤ i → u.entry i k = s.entry i k

theorem LoadFrame.refl (s : State) : LoadFrame s s := ⟨⟨_, _, _, _, _, rfl⟩, fun _ _ _ _ _ _ => rfl⟩

theorem LoadFrame.trans (h : LoadFrame s t) (h' : LoadFrame t u) : LoadFrame s u where
  shape := by
    obtain ⟨_, _, _, _, _, rfl⟩ := h.shape
    obtain ⟨_, _, _, _, _, rfl⟩ := h'.shape
    exact ⟨_, _, _, _, _, rfl⟩
  entries i k hk h1 h2 h3 := (h'.entries i k hk h1 h2 h3).trans (h.entries i k hk h1 h2 h3)

theorem WireFrame.load (h : WireFrame s u) : LoadFrame s u where
  shape := by
    obtain ⟨_, _, _, _, rfl⟩ := h.shape
    exact ⟨_, _, _, _, _, rfl⟩
  entries i k hk h1 _ _ := h.entries i k hk h1

theorem LoadFrame.updTile (h : LoadFrame s u) (g : Nat) (f : Tile → Tile) : LoadFrame s (u.updTile g f) :=
  h.trans ⟨⟨_, _, _, _, _, rfl⟩, fun _ _ _ _ _ _ => rfl⟩

theorem LoadFrame.settleLanded (h : LoadFrame s u) (g : Nat) : LoadFrame s (u.settleLanded g) :=
  (h.updTile ..).trans (settleLanded_frame g).load

theorem loadTile_frame (im : Image) {g : Nat} (hg : g < 64) : LoadFrame s (s.loadTile im g) := by
  have hState : LoadFrame s (if s.tileState g = 4 then s.setEntry (0xA0C0 + g) 1 1 else s) := by
    split
    · exact ⟨⟨_, _, _, _, _, rfl⟩, fun i k hk _ _ h => Laws.entry_setEntry_index _ _ _ _ _ _ (by decide) hk (by omega)⟩
    · exact LoadFrame.refl s
  have hCounters (u : State) : LoadFrame u (u.resetEntries ((List.range 60).map fun i => (0x8100 + g, i + 1))) := by
    refine ⟨⟨_, _, _, _, _, rfl⟩, fun i k hk _ h _ => entry_resetEntries_ne fun p hp => ?_⟩
    obtain ⟨n, hn, rfl⟩ := List.mem_map.1 hp
    rw [List.mem_range] at hn
    simp only [entryKey]
    omega
  unfold State.loadTile
  exact (((hState.trans (hCounters _)).updTile ..).settleLanded g).updTile ..

theorem loadTiles_frame (im : Image) {l : List Nat} (hl : ∀ g ∈ l, g < 64) : ∀ {u}, LoadFrame s u → LoadFrame s (l.foldl (fun s g => s.loadTile im g) u) := by
  induction l with
  | nil => exact fun h => h
  | cons g l ih =>
    exact fun h => ih (fun x hx => hl x (List.mem_cons_of_mem _ hx)) (h.trans (loadTile_frame im (hl g List.mem_cons_self)))

/-- A job as it enters LOADED. -/
def loadedJob (s : State) (j : Nat) (im : Image) (base : Nat) (group : List Nat) : Job :=
  { state := .loaded, image := some im, imageBase := base, group := group, handles := im.handles.map fun h => s.declaredHandle im h,
    products := (im.trace j 0).products, openOuts := im.openOuts (im.trace j 0), terms := im.boundTerms s.set? j }

/-- The job and its entries loaded, and not yet its tiles. -/
def loadedEntries (s : State) (j : Nat) (im : Image) (base : Nat) (group : List Nat) (rearm : Bool) : State :=
  ((((s.setJob j (loadedJob s j im base group)).resetEntries (jobEntries j rearm)).setEntry (0x2200 + j) 2 im.cert.ashTraps).setEntry (0x2200 + j) 8
    im.handles.length).setEntry (0x6100 + j) 8 ((group.map fun t => 2 ^ t).sum)

theorem enterLoaded_eq (im : Image) (base : Nat) (group : List Nat) (rearm : Bool) :
    s.enterLoaded j im base group rearm = group.foldl (fun s t => s.loadTile im t) (loadedEntries s j im base group rearm) := rfl

theorem loadedEntries_job (im : Image) (base : Nat) (group : List Nat) (rearm : Bool) : (loadedEntries s j im base group rearm).job j = loadedJob s j im base group
    ∧ (∀ k, k ≠ j → (loadedEntries s j im base group rearm).job k = s.job k) ∧ (loadedEntries s j im base group rearm).mem = s.mem
    ∧ (loadedEntries s j im base group rearm).admitQueue = s.admitQueue ∧ (loadedEntries s j im base group rearm).contexts = s.contexts := by
  generalize hJob : loadedJob s j im base group = x
  refine ⟨?_, fun k hk => ?_, ?_, ?_, ?_⟩
  all_goals simp [loadedEntries, hJob]
  exact Laws.job_setJob_ne _ _ _ _ hk

/-- A job that enters LOADED with a group of the device's tiles. -/
theorem enterLoaded_loads (im : Image) (base : Nat) {group : List Nat} (hg : ∀ g ∈ group, g < 64) (rearm : Bool) :
    (s.enterLoaded j im base group rearm).job j = loadedJob s j im base group
      ∧ (∀ k, k ≠ j → (s.enterLoaded j im base group rearm).job k = s.job k) ∧ (s.enterLoaded j im base group rearm).mem = s.mem
      ∧ (s.enterLoaded j im base group rearm).admitQueue = s.admitQueue ∧ (s.enterLoaded j im base group rearm).contexts = s.contexts
      ∧ ∀ i k, k < 256 → i ≠ 0x4038 → i < 0x8100 ∨ 0x8140 ≤ i → i < 0xA0C0 ∨ 0xA100 ≤ i →
          (s.enterLoaded j im base group rearm).entry i k = (loadedEntries s j im base group rearm).entry i k := by
  have h := loadTiles_frame im hg (LoadFrame.refl (loadedEntries s j im base group rearm))
  obtain ⟨hJob, hOthers, hMem, hQueue, hContexts⟩ := loadedEntries_job (s := s) (j := j) im base group rearm
  rw [enterLoaded_eq]
  generalize loadedEntries s j im base group rearm = v at *
  refine ⟨?_, fun k hk => ?_, ?_, ?_, ?_, h.entries⟩
  all_goals
    obtain ⟨p, o, d, q, g, e⟩ := h.shape
    rw [e]
  · exact hJob
  · exact hOthers k hk
  · exact hMem
  · exact hQueue
  · exact hContexts

/-- The group of an image is of the device's tiles. -/
theorem groupFor_tiles {im : Image} {group : List Nat} (h : s.groupFor im = some group) : ∀ g ∈ group, g < 64 := by
  have hTile {p : Nat → Bool} {g : Nat} (hg : g ∈ tileNumbers.filter p) : g < 64 := List.mem_range.1 (List.mem_filter.1 hg).1
  unfold State.groupFor at h
  dsimp only at h
  split at h
  · split at h
    · obtain rfl := Option.some.inj h
      exact fun g => hTile
    · cases h
  · split at h
    · obtain rfl := Option.some.inj h
      exact fun g hg => hTile (List.mem_of_mem_take hg)
    · cases h

/-- What the judgement of an image can be. -/
def Admission.sound (a : Admission) : Prop :=
  match a with
  | .refused check code _ => 1 ≤ check ∧ code ∈ [ADMIT_RESOURCE, ADMIT_CERT_INVALID, ADMIT_TIMING]
  | .granted _ _ group => ∀ g ∈ group, g < 64

theorem judgeImage_sound (b : List Byte) (base : Nat) : Admission.sound (s.judgeImage j b base) := by
  unfold State.judgeImage
  dsimp only
  split
  · exact ⟨by decide, by decide⟩
  · split
    · exact ⟨by decide, by decide⟩
    · split
      · exact ⟨by decide, by decide⟩
      · next hGroup =>
        split
        · exact ⟨by decide, by decide⟩
        · split
          · exact ⟨by decide, by decide⟩
          · exact groupFor_tiles hGroup

theorem judge_sound (addr len : Nat) : Admission.sound (s.judge j addr len) := by
  unfold State.judge
  split
  · exact ⟨by decide, by decide⟩
  · dsimp only
    split
    · exact ⟨by decide, by decide⟩
    · split
      · exact ⟨by decide, by decide⟩
      · exact judgeImage_sound ..

/-- What the verdict on slot j's image leaves. -/
def afterVerdict (s : State) (j : Nat) : Admission → State
  | .refused check code c => (s.setEntry (0x6100 + j) 5 code).setEntry (0x6100 + j) 6 (admitDetail check c)
  | .granted im base group => s.enterLoaded j im base group false

/-- The check takes the head of the queue: it refuses its image, or loads it. -/
theorem admissionCheck_decides {rest : List Nat} (hQueue : s.admitQueue = j :: rest) (hj : j < 16) :
    ∃ u : State, u.admitQueue = rest ∧ (u.job j) = { s.job j with checking := false } ∧ u.mem = s.mem ∧ u.tiles = s.tiles
      ∧ (∀ k, k < 256 → u.entry (0x6100 + j) k = s.entry (0x6100 + j) k)
      ∧ s.admissionCheck = afterVerdict u j (u.judge j (s.entry (0x6100 + j) 3) (s.entry (0x6100 + j) 4)) := by
  obtain ⟨v, hv⟩ : ∃ v, v = ({ s with admitQueue := rest } : State).updJob j fun x => { x with checking := false } := ⟨_, rfl⟩
  have hTouch := (TouchFrame.refl v).touchOwn (g := v.entry (0x6100 + j) 3) (n := v.entry (0x6100 + j) 4)
  have hEntry (k : Nat) : v.entry (0x6100 + j) k = s.entry (0x6100 + j) k := by rw [hv]; rfl
  refine ⟨v.touchOwn (v.entry (0x6100 + j) 3) (v.entry (0x6100 + j) 4), ?_, ?_, hTouch.mem.trans (by rw [hv]; rfl), hTouch.tiles.trans (by rw [hv]; rfl),
    fun k hk => (hTouch.entries _ k hk (by omega)).trans (hEntry k), ?_⟩
  · obtain ⟨d, q, e⟩ := hTouch.shape
    rw [e, hv]
    rfl
  · rw [hTouch.job, hv]
    exact Laws.job_setJob_same ..
  · have hThree := hTouch.entries (0x6100 + j) 3 (by decide) (by omega)
    have hFour := hTouch.entries (0x6100 + j) 4 (by decide) (by omega)
    unfold State.admissionCheck
    rw [hQueue]
    dsimp only
    rw [← hv, hThree, hFour, hEntry, hEntry]
    generalize State.judge _ j _ _ = a
    cases a with
    | refused check code c => rfl
    | granted im base group => rfl

theorem admissionCheck_outcomes {rest : List Nat} (hReady : s.ready = true) (hQueue : s.admitQueue = j :: rest) (hj : j < 16) (hState : (s.job j).state = .ready) :
    ∃ t, exec .admissionCheck s = .next t ∧ t.admitQueue = rest ∧ (t.job j).checking = false ∧ t.mem = s.mem
      ∧ (((t.job j).state = .loaded ∧ t.entry (0x6100 + j) 8 = ((t.job j).group.map fun g => 2 ^ g).sum)
        ∨ ((t.job j).state = .ready ∧ t.tiles = s.tiles ∧ t.entry (0x6100 + j) 5 ∈ [ADMIT_RESOURCE, ADMIT_CERT_INVALID, ADMIT_TIMING]
            ∧ 1 ≤ t.entry (0x6100 + j) 6 / 2 ^ 56)) := by
  obtain ⟨u, hRest, hJob, hMem, hTiles, -, hCheck⟩ := admissionCheck_decides hQueue hj
  have hStep : exec .admissionCheck s = .next s.admissionCheck := congrArg Host.Outcome.next (if_pos hReady)
  have hSound := judge_sound (s := u) (j := j) (s.entry (0x6100 + j) 3) (s.entry (0x6100 + j) 4)
  refine ⟨_, hStep, ?_⟩
  rw [hCheck]
  cases hVerdict : u.judge j (s.entry (0x6100 + j) 3) (s.entry (0x6100 + j) 4) with
  | refused check code c =>
    rw [hVerdict] at hSound
    obtain ⟨hPos, hCode⟩ := hSound
    refine ⟨hRest, congrArg Job.checking hJob, hMem, .inr ⟨(congrArg Job.state hJob).trans hState, hTiles, ?_, ?_⟩⟩
    · rw [afterVerdict, Laws.entry_setEntry_sub _ _ _ _ _ (by decide), Laws.entry_setEntry_same]
      exact hCode
    · rw [afterVerdict, Laws.entry_setEntry_same, admitDetail, Nat.le_div_iff_mul_le (by decide)]
      omega
  | granted im base group =>
    rw [hVerdict] at hSound
    obtain ⟨hLoaded, -, hMem', hQueue', -, hEntries⟩ := enterLoaded_loads (s := u) (j := j) im base hSound false
    refine ⟨hQueue'.trans hRest, congrArg Job.checking hLoaded, hMem'.trans hMem, .inl ⟨congrArg Job.state hLoaded, ?_⟩⟩
    rw [afterVerdict, hEntries _ _ (by decide) (by omega) (by omega) (by omega), hLoaded]
    exact Laws.entry_setEntry_same ..

theorem admissionCheck_short {rest : List Nat} (hReady : s.ready = true) (hQueue : s.admitQueue = j :: rest) (hj : j < 16) (hShort : s.entry (0x6100 + j) 4 < 264) :
    ∃ t, exec .admissionCheck s = .next t ∧ t.admitQueue = rest ∧ t.entry (0x6100 + j) 5 = ADMIT_CERT_INVALID
      ∧ t.entry (0x6100 + j) 6 / 2 ^ 56 = 1 ∧ t.tiles = s.tiles ∧ t.mem = s.mem := by
  obtain ⟨u, hRest, -, hMem, hTiles, -, hCheck⟩ := admissionCheck_decides hQueue hj
  have hStep : exec .admissionCheck s = .next s.admissionCheck := congrArg Host.Outcome.next (if_pos hReady)
  have hVerdict : u.judge j (s.entry (0x6100 + j) 3) (s.entry (0x6100 + j) 4) = .refused 1 ADMIT_CERT_INVALID (wholeImage false) := by
    unfold State.judge
    refine if_pos ?_
    have hNot : ¬264 ≤ s.entry (0x6100 + j) 4 := Nat.not_le.mpr hShort
    simp [State.imageLocated, hNot]
  refine ⟨_, hStep, ?_⟩
  rw [hCheck, hVerdict]
  refine ⟨hRest, ?_, ?_, hTiles, hMem⟩
  · exact (Laws.entry_setEntry_sub _ _ _ _ _ (by decide)).trans (Laws.entry_setEntry_same ..)
  · rw [afterVerdict, Laws.entry_setEntry_same]
    decide

end Admission

/-- Settles O19: the verdict on the image at the head of the queue. -/
theorem admissionDecides : Obligations.AdmissionDecides := by
  unfold Obligations.AdmissionDecides
  exact ⟨fun _ _ _ => admissionCheck_outcomes, fun _ _ _ => admissionCheck_short⟩

end Sys2Proof.Proofs
end

section
/-! PROOFS. Tile leases and the watchdog (R392-R394, R397). -/

namespace Sys2Proof.Proofs
open Sys2Proof.Machine

/-- `u` is `s` but for tile t and what events and counters change. -/
structure OwnTile (t : Nat) (s u : State) : Prop where
  shape : ∃ d tl l n q g o h, u = { s with dict := d, tiles := tl, log := l, logNext := n, notices := q, hostGate := g, out := o, hostLink := h }
  others : ∀ k, k ≠ t → u.tile k = s.tile k

namespace OwnTile

variable {s u v : State} {t : Nat}

theorem refl (s : State) : OwnTile t s s := ⟨⟨_, _, _, _, _, _, _, _, rfl⟩, fun _ _ => rfl⟩

theorem trans (h : OwnTile t s u) (h' : OwnTile t u v) : OwnTile t s v where
  shape := by
    obtain ⟨_, _, _, _, _, _, _, _, rfl⟩ := h.shape
    obtain ⟨_, _, _, _, _, _, _, _, rfl⟩ := h'.shape
    exact ⟨_, _, _, _, _, _, _, _, rfl⟩
  others k hk := (h'.others k hk).trans (h.others k hk)

theorem event (h : OwnTile t s u) (h' : EventFrame u v) : OwnTile t s v := by
  refine h.trans ⟨?_, fun k _ => h'.tile k⟩
  obtain ⟨_, _, _, _, _, _, _, rfl⟩ := h'
  exact ⟨_, _, _, _, _, _, _, _, rfl⟩

theorem setEntry (h : OwnTile t s u) (i k x : Nat) : OwnTile t s (u.setEntry i k x) := h.event ((EventFrame.refl u).setEntry ..)

theorem bump (h : OwnTile t s u) (i k x : Nat) : OwnTile t s (u.bump i k x) := h.setEntry ..

theorem updTile (h : OwnTile t s u) (f : Tile → Tile) : OwnTile t s (u.updTile t f) :=
  h.trans ⟨⟨_, _, _, _, _, _, _, _, rfl⟩, fun _ hk => Laws.tile_updTile_ne _ hk⟩

theorem stall (h : OwnTile t s u) (k e cause n : Nat) : OwnTile t s (u.stall k e cause n) := by
  unfold State.stall
  split
  · exact h
  · exact h.setEntry ..

theorem settleWait (h : OwnTile t s u) : OwnTile t s (u.settleWait t) := by
  unfold State.settleWait
  dsimp only
  split
  · exact h
  · exact (h.stall ..).updTile _

theorem endWait (h : OwnTile t s u) : OwnTile t s (u.endWait t) := h.settleWait.updTile _

theorem wakeTile (h : OwnTile t s u) : OwnTile t s (u.wakeTile t) := by
  unfold State.wakeTile
  dsimp only
  split
  · split
    · exact (h.updTile _).setEntry ..
    · exact ((h.bump ..).updTile _).setEntry ..
  · exact h

theorem guaranteeMiss (h : OwnTile t s u) (row : Nat) : OwnTile t s (u.guaranteeMiss t row) := by
  unfold State.guaranteeMiss
  split
  · exact h
  · dsimp only
    obtain ⟨w, hw, hFrame⟩ : ∃ w, (if 0 < (u.now - (u.job ‹Nat›).startedAt) + Config.remainingBound (u.job ‹Nat›).terms ((u.job ‹Nat›).group.map fun t => (u.tile t).sched)
        - u.durationBound ‹Nat› then u.setEntry (0x6100 + ‹Nat›) 0x0C 1 else u) = w ∧ OwnTile t s w := by
      refine ⟨_, rfl, ?_⟩
      split
      · exact h.setEntry ..
      · exact h
    rw [hw]
    split
    · exact hFrame.bump ..
    · exact ((hFrame.bump ..).updTile _).event ((EventFrame.refl _).raise ..)

theorem foldl {α : Type} {f : State → α → State} (hf : ∀ u x, OwnTile t u (f u x)) (l : List α) : ∀ {u}, OwnTile t s u → OwnTile t s (l.foldl f u) := by
  induction l with
  | nil => exact fun h => h
  | cons x l ih => exact fun h => ih (h.trans (hf _ x))

theorem reportMisses (h : OwnTile t s u) (still : List Nat) : OwnTile t s (u.reportMisses t still) :=
  (foldl (fun u r => (refl u).guaranteeMiss r) _ h).updTile _

theorem quench (h : OwnTile t s u) : OwnTile t s (u.quench t) := by
  unfold State.quench
  split
  · exact h
  · exact (((h.wakeTile.endWait).reportMisses []).updTile _).bump ..

theorem mem (h : OwnTile t s u) : u.mem = s.mem := by obtain ⟨_, _, _, _, _, _, _, _, rfl⟩ := h.shape; rfl
theorem now (h : OwnTile t s u) : u.now = s.now := by obtain ⟨_, _, _, _, _, _, _, _, rfl⟩ := h.shape; rfl
theorem jobs (h : OwnTile t s u) : u.jobs = s.jobs := by obtain ⟨_, _, _, _, _, _, _, _, rfl⟩ := h.shape; rfl
theorem contexts (h : OwnTile t s u) : u.contexts = s.contexts := by obtain ⟨_, _, _, _, _, _, _, _, rfl⟩ := h.shape; rfl
theorem job (h : OwnTile t s u) (j : Nat) : u.job j = s.job j := by rw [State.job, h.jobs]; rfl

end OwnTile

section Leases

variable {s : State} {t j : Nat}

theorem leaseRenew_renews (ht : t < 64) (hEnabled : s.tileEnabled t = true) :
    ∃ s2, exec (.leaseRenew t) s = .next s2 ∧ (s2.tile t).leaseAt = s.now ∧ (s2.tile t).recoverBy = none ∧ (s2.tile t).rows = (s.tile t).rows
      ∧ (∀ u, u ≠ t → s2.tile u = s.tile u) ∧ s2.dict = s.dict ∧ s2.mem = s.mem := by
  have hStep : exec (.leaseRenew t) s = .next (s.updTile t fun x => { x with leaseAt := s.now, recoverBy := none }) := by
    change execLeaseRenew t s = _
    rw [execLeaseRenew, Laws.onTile_next ht, if_pos hEnabled]
  refine ⟨_, hStep, ?_, ?_, ?_, fun u hu => Laws.tile_updTile_ne _ hu, rfl, rfl⟩
  all_goals rw [Laws.tile_updTile_same]

/-- A tile whose power was cycled: it holds nothing, is in T0, and has 1 ms and its reload to renew. -/
theorem cyclePower_loses : (∃ p o d q g, s.cyclePower t = { s with ports := p, out := o, dict := d, seqExpected := q, tiles := g })
    ∧ ((s.cyclePower t).tile t).rows = [] ∧ ((s.cyclePower t).tile t).recoverBy = some (s.now + 1080000) ∧ (s.cyclePower t).tileState t = 0
    ∧ ∀ k, k ≠ t → (s.cyclePower t).tile k = s.tile k := by
  obtain ⟨u, hCycle, hShape, hTile, hOthers⟩ : ∃ u, s.cyclePower t = (u.settleLanded t).setEntry (0xA0C0 + t) 1 0
      ∧ (∃ g, u = { s with tiles := g }) ∧ ((u.tile t).rows = [] ∧ (u.tile t).recoverBy = some (s.now + 80000 + 1000000)) ∧ ∀ k, k ≠ t → u.tile k = s.tile k := by
    refine ⟨_, rfl, ⟨_, rfl⟩, ?_, fun k hk => (Laws.tile_updTile_ne _ hk).trans (Laws.tile_updTile_ne _ hk)⟩
    rw [Laws.tile_updTile_same]
    exact ⟨rfl, rfl⟩
  obtain ⟨hRows, hRecover⟩ := hTile
  obtain ⟨g, hu⟩ := hShape
  have hLanded := settleLanded_frame (s := u) t
  have hTiles (k : Nat) : (u.settleLanded t).tile k = (u.updTile t fun x => { x with windowLanded := x.windowLanded.filter (fun f =>
      (frameRows f f.payload.length).any fun r => (u.tile t).verifyDue.contains r) }).tile k := by
    rw [State.tile, hLanded.tiles]
    rfl
  rw [hCycle]
  refine ⟨?_, ?_, ?_, Laws.entry_setEntry_same .., fun k hk => ?_⟩
  · obtain ⟨p, o, d, q, e⟩ := hLanded.shape
    rw [e, hu]
    exact ⟨_, _, _, _, _, rfl⟩
  · change ((u.settleLanded t).tile t).rows = []
    rw [hTiles, Laws.tile_updTile_same]
    exact hRows
  · change ((u.settleLanded t).tile t).recoverBy = _
    rw [hTiles, Laws.tile_updTile_same, ← Nat.add_assoc s.now 80000 1000000]
    exact hRecover
  · change (u.settleLanded t).tile k = _
    rw [hTiles, Laws.tile_updTile_ne _ hk]
    exact hOthers k hk

/-- A tile that stops renewing is quenched, its job ends, and its power is cycled. -/
theorem leaseTimeout_recovers {g : Nat} (ht : t < 64) (hEnabled : s.tileEnabled t = true) (hRenewed : s.renewedByLedger t = false)
    (hLate : (s.tile t).leaseAt + 8000 ≤ s.now) (hFirst : (s.tile t).recoverBy = none) (hSound : bit (s.entry 0xB190 2) t = false)
    (hj : s.jobOfTile t = some j) (hRun : (s.job j).state = .running) :
    ∃ s2, exec (.leaseTimeout t g) s = .next s2 ∧ (s2.job j).state = .draining ∧ (s2.job j).abortCode = TILE_UNRESPONSIVE ∧ (s2.job j).abortTile = t
      ∧ (s2.tile t).rows = [] ∧ (s2.tile t).recoverBy = some (s.now + 1080000) ∧ s2.tileState t = 0 ∧ s2.mem = s.mem
      ∧ ∀ u, u ≠ t → (s2.tile u).rows = (s.tile u).rows ∧ (s2.tile u).tags = (s.tile u).tags ∧ (s2.tile u).sregs = (s.tile u).sregs
        ∧ (s2.tile u).run = (s.tile u).run ∧ (s2.tile u).queue = (s.tile u).queue ∧ (s2.tile u).running = (s.tile u).running := by
  have hq := (OwnTile.refl s).quench (t := t)
  have hjq : (s.quench t).jobOfTile t = some j := (jobOfTile_congr hq.jobs).trans hj
  have hRunq : ((s.quench t).job j).state = .running := by rw [hq.job]; exact hRun
  have hab := abortJob_running (s := s.quench t) TILE_UNRESPONSIVE t (s.tile t).nextBundle hRunq
  have hnow : ((s.quench t).abortJob j TILE_UNRESPONSIVE t (s.tile t).nextBundle).now = s.now := by
    obtain ⟨_, _, _, _, e⟩ := abortJob_shape (s := s.quench t) (j := j) (code := TILE_UNRESPONSIVE) (tile := t) (bundle := (s.tile t).nextBundle)
    rw [e]
    exact hq.now
  have hr := (EventFrame.refl ((s.quench t).abortJob j TILE_UNRESPONSIVE t (s.tile t).nextBundle)).raise 0xB030 0xFF TILE_UNRESPONSIVE t g
  obtain ⟨hState, -, hCode, hTile, -, -⟩ := hab.ended
  have hStep : exec (.leaseTimeout t g) s = .next ((((s.quench t).abortJob j TILE_UNRESPONSIVE t (s.tile t).nextBundle).raise 0xB030 0xFF TILE_UNRESPONSIVE t g).cyclePower t) := by
    change execLeaseTimeout t g s = _
    rw [execLeaseTimeout, Laws.onTile_next ht, State.leaseTimeout]
    dsimp only
    rw [hEnabled, hRenewed, hFirst, hSound, if_neg (by simp; omega), hjq]
  refine ⟨_, hStep, ?_⟩
  generalize (s.quench t).abortJob j TILE_UNRESPONSIVE t (s.tile t).nextBundle = v at *
  generalize v.raise 0xB030 0xFF TILE_UNRESPONSIVE t g = w at *
  obtain ⟨hShape, hRows, hRecover, hPower, hOthers⟩ := cyclePower_loses (s := w) (t := t)
  have hKept : (w.cyclePower t).mem = w.mem ∧ ∀ k, (w.cyclePower t).job k = w.job k := by
    obtain ⟨_, _, _, _, _, e⟩ := hShape
    rw [e]
    exact ⟨rfl, fun _ => rfl⟩
  obtain ⟨hMem, hJob⟩ := hKept
  rw [hJob, hr.job, hRows, hRecover, hPower, hMem, hr.now, hnow, hr.mem, hab.mem, hq.mem]
  refine ⟨hState, hCode, hTile, rfl, rfl, rfl, rfl, fun k hk => ?_⟩
  obtain ⟨_, _, e⟩ := hab.tiles k
  rw [hOthers k hk, hr.tile, e, hq.others k hk]
  exact ⟨rfl, rfl, rfl, rfl, rfl, rfl⟩

theorem leaseTimeout_early {g : Nat} (ht : t < 64) (hEarly : s.now < (s.tile t).leaseAt + 8000) : exec (.leaseTimeout t g) s = .next s := by
  change execLeaseTimeout t g s = _
  rw [execLeaseTimeout, Laws.onTile_next ht, State.leaseTimeout]
  exact congrArg Host.Outcome.next (if_pos (.inr (.inr (.inl hEarly))))

/-- Setting a bit that is clear adds its value. -/
theorem bit_add_two_pow {n : Nat} (h : bit n t = false) : bit (n + 2 ^ t) t = true := by
  have hClear : n / 2 ^ t % 2 = 0 := by simpa [bit] using h
  simp [bit]
  omega

theorem tileRecoveryTimeout_fails {d : Nat} (ht : t < 64) (hRecover : (s.tile t).recoverBy = some d) :
    (d ≤ s.now → ∃ s2, exec (.tileRecoveryTimeout t) s = .next s2 ∧ bit (s2.entry 0xB190 2) t = true ∧ s2.tileState t = 4 ∧ (s2.tile t).recoverBy = none
      ∧ s2.mem = s.mem ∧ s2.jobs = s.jobs)
    ∧ (s.now < d → exec (.tileRecoveryTimeout t) s = .next s) := by
  have hMatch : exec (.tileRecoveryTimeout t) s = .next (if s.now < d then s else
      let failed := if bit (s.entry 0xB190 2) t then s.entry 0xB190 2 else s.entry 0xB190 2 + 2 ^ t
      (((s.updTile t fun x => { x with recoverBy := none }).setEntry 0xB190 2 failed).setEntry (0xA0C0 + t) 1 4).raise 0xB031 0xFF TILE_UNRESPONSIVE t failed) := by
    change execTileRecoveryTimeout t s = _
    rw [execTileRecoveryTimeout, Laws.onTile_next ht, hRecover]
  constructor
  · intro hDue
    obtain ⟨failed, hf, hBit⟩ : ∃ failed, (if bit (s.entry 0xB190 2) t = true then s.entry 0xB190 2 else s.entry 0xB190 2 + 2 ^ t) = failed ∧ bit failed t = true := by
      refine ⟨_, rfl, ?_⟩
      split
      · assumption
      · next h => exact bit_add_two_pow (by simpa using h)
    rw [if_neg (Nat.not_lt.mpr hDue)] at hMatch
    dsimp only at hMatch
    rw [hf] at hMatch
    have hr := (EventFrame.refl (((s.updTile t fun x => { x with recoverBy := none }).setEntry 0xB190 2 failed).setEntry (0xA0C0 + t) 1 4)).raise 0xB031 0xFF
      TILE_UNRESPONSIVE t failed
    refine ⟨_, hMatch, ?_, ?_, ?_, hr.mem, hr.jobs⟩
    · rw [entry_raise (by decide) (by decide) (by decide) (by decide), Laws.entry_setEntry_index _ _ _ _ _ _ (by decide) (by decide) (by omega),
        Laws.entry_setEntry_same]
      exact hBit
    · rw [State.tileState, entry_raise (by decide) (by omega) (by omega) (by omega), Laws.entry_setEntry_same]
    · rw [hr.tile]
      change ((s.updTile t fun x => { x with recoverBy := none }).tile t).recoverBy = none
      rw [Laws.tile_updTile_same]
  · intro hEarly
    rw [hMatch, if_pos hEarly]

theorem watchdogExpiry_reports {e : LogEntry} (hReady : s.ready = true) (hUp : s.hostGate.down = false) (hOpen : s.hostGate.quietUntil ≤ s.now)
    (he : e = { event := 0x40, job := 0xFF, code := WATCHDOG_RESTART, seq := s.logNext, time := s.fabricTime, detail0 := s.entry 0xB190 1, detail1 := 0 }) :
    (s.watchdogAt + s.watchdogLimit ≤ s.now → ∃ s2, exec .watchdogExpiry s = .next s2 ∧ s2.watchdogAt = s.now
      ∧ s2.out = s.out ++ [.gate true s.hostGate.nextSeq (.notice e)] ∧ s2.dict = s.dict ∧ s2.mem = s.mem)
    ∧ (s.now < s.watchdogAt + s.watchdogLimit → exec .watchdogExpiry s = .next s) := by
  constructor
  · intro hDue
    have hStep : exec .watchdogExpiry s = .next (({ s with watchdogAt := s.now } : State).gateSend .host (.notice e) .fumarole) := by
      refine congrArg Host.Outcome.next ((if_neg ?_).trans ?_)
      · rw [hReady]
        simp
        omega
      · rw [he]
        exact if_neg (by rw [hUp]; decide)
    refine ⟨_, hStep, ?_⟩
    rw [gateSend_of_open (s := { s with watchdogAt := s.now }) (e := .host) hOpen]
    exact ⟨rfl, rfl, rfl, rfl⟩
  · intro hEarly
    exact congrArg Host.Outcome.next (if_pos (.inr hEarly))

end Leases

/-- Settles O55: renewal, the timeout, the recovery's end, the watchdog. -/
theorem leasesAndWatchdog : Obligations.LeasesAndWatchdog := by
  unfold Obligations.LeasesAndWatchdog
  exact ⟨fun _ _ => leaseRenew_renews, fun _ _ _ _ => leaseTimeout_recovers, fun _ _ _ => leaseTimeout_early, fun _ _ _ => tileRecoveryTimeout_fails,
    fun _ hReady => congrArg Host.Outcome.next (if_pos hReady), fun _ _ => watchdogExpiry_reports⟩

end Sys2Proof.Proofs
end

section
/-! PROOFS. The signing tree, activation and CommitSvn (R364, R374, R376, R380). -/

namespace Sys2Proof.Proofs
open Sys2Proof.Machine

section Flash

variable {s : State}

theorem complete_flash (f : Frame) (status operand : Nat) (data : List Byte) : (s.complete f status operand data).flash = s.flash := by
  obtain ⟨_, _, _, _, e⟩ := ((WireFrame.refl s).complete f status operand data).shape
  rw [e]

theorem refuseHeld_keeps : s.refuseHeld.flash = s.flash ∧ s.refuseHeld.mem = s.mem := by
  have hAll {β : Type} (g : State → β) (hg : ∀ (u : State) f, g (u.complete f STATE_CONFLICT 0 []) = g u) (h0 : g { s with heldFrames := [], behind := [] } = g s) :
      g s.refuseHeld = g s := by
    unfold State.refuseHeld
    dsimp only
    refine (foldl_keeps g (fun u t => foldl_keeps g (fun u f => hg u f) _ u) tileNumbers _).trans ?_
    exact (foldl_keeps g (fun u f => hg u f) _ _).trans h0
  exact ⟨hAll (fun s => s.flash) (fun u f => complete_flash ..) rfl, hAll (fun s => s.mem) (fun u f => ((WireFrame.refl u).complete ..).mem) rfl⟩

theorem leaveDeepIdle_keeps : s.leaveDeepIdle.flash = s.flash ∧ s.leaveDeepIdle.mem = s.mem := by
  have hAll {β : Type} (g : State → β) (h : ∀ (u : State) p, g (let u := u.setDomain (72 + p) .on; if u.portEnabled p then u.startTraining p else u) = g u)
      (h0 : ∀ (u : State) x v, g (({ u with heat := x } : State).setEntry 0xA040 1 v) = g u) : g s.leaveDeepIdle = g s :=
    (h0 ..).trans (foldl_keeps g h (List.range 16) s)
  refine ⟨hAll (fun s => s.flash) (fun u p => ?_) fun _ _ _ => rfl, hAll (fun s => s.mem) (fun u p => ?_) fun _ _ _ => rfl⟩
  · dsimp only
    split <;> rfl
  · dsimp only
    split <;> rfl

theorem clearHost_flash (kind : Nat) : (s.clearHost kind).flash = s.flash := by
  have hDrop : s.dropCopy.flash = s.flash := by
    unfold State.dropCopy
    split <;> rfl
  unfold State.clearHost
  dsimp only
  cases keepsStacks kind with
  | true => split <;> exact hDrop
  | false => split <;> exact hDrop

theorem countStart_flash (kind : Nat) : (s.countStart kind).flash = s.flash := by
  unfold State.countStart
  split
  · rfl
  · split <;> rfl

/-- A power command leaves the restart as it stands, but for what is left of its order, and Fumarole's store. -/
theorem beginPower_pending {r : Restart} (h : s.restart = some r) (hKind : r.kind ≠ kindCold) :
    s.beginPower.restart.map (fun r => (r.kind, r.pending)) = some (r.kind, r.pending) ∧ s.beginPower.dict = s.dict ∧ s.beginPower.flash = s.flash := by
  unfold State.beginPower
  dsimp only
  split
  case h_1 hNone => exact absurd (h.symm.trans hNone) nofun
  case h_2 x hx =>
    obtain rfl : r = x := Option.some.inj (h.symm.trans hx)
    split
    · next hStop => exact absurd hStop.1 hKind
    · split
      · exact ⟨rfl, rfl, rfl⟩
      · obtain ⟨g, o, e⟩ := sendPower_shape (s := { s with hostPowered := false, domains := domainsOff, restart := some { r with
          powerLeft := ({ s with hostPowered := false, domains := domainsOff } : State).powerOrder } }) ‹Nat› true
        rw [e]
        exact ⟨rfl, rfl, rfl⟩

/-- An activation of the host side begins its pause: memory stays, no job does (R379, R380). -/
theorem beginRestart_activate : (s.beginRestart kindActivate 0 true 0).restart.map (fun r => (r.kind, r.pending)) = some (kindActivate, true)
    ∧ (s.beginRestart kindActivate 0 true 0).entry 0x1100 1 = 7 ∧ (s.beginRestart kindActivate 0 true 0).mem = s.mem
    ∧ (s.beginRestart kindActivate 0 true 0).jobs = [] ∧ (s.beginRestart kindActivate 0 true 0).flash = s.flash := by
  have hKeeps : keepsStacks kindActivate = true := by decide
  have hSide : restartsField kindActivate = false := by decide
  have hPower : kindActivate ≠ kindHostPower := by decide
  obtain ⟨a, ha, hFlash, hMem⟩ : ∃ a, (if s.deepIdle = true then s.leaveDeepIdle else s) = a ∧ a.flash = s.flash ∧ a.mem = s.mem := by
    refine ⟨_, rfl, ?_⟩
    split
    · exact leaveDeepIdle_keeps
    · exact ⟨rfl, rfl⟩
  obtain ⟨hFlash', hMem'⟩ := refuseHeld_keeps (s := a)
  have hClear (u : State) : (u.clearHost kindActivate).mem = u.mem ∧ (u.clearHost kindActivate).jobs = [] := by
    have hDrop : u.dropCopy.mem = u.mem := by
      unfold State.dropCopy
      split <;> rfl
    exact ⟨hDrop, rfl⟩
  obtain ⟨hMem'', hJobs⟩ := hClear a.refuseHeld
  have hFlash'' := clearHost_flash (s := a.refuseHeld) kindActivate
  simp only [State.beginRestart, hKeeps, hSide, hPower, true_and, if_true, if_false, Bool.false_eq_true, false_and]
  rw [ha]
  generalize a.refuseHeld.clearHost kindActivate = y at *
  obtain ⟨h, -⟩ := countStart_start (s := State.setEntry _ 0x1100 1 7) kindActivate
  obtain ⟨hRestart, -, -, hEntry⟩ := countStart_frame (s := State.setEntry _ 0x1100 1 7) kindActivate
  exact ⟨congrArg (Option.map fun r : Restart => (r.kind, r.pending)) hRestart, hEntry.trans (Laws.entry_setEntry_same ..), h.mem.trans (hMem''.trans (hMem'.trans hMem)), h.jobs.trans hJobs,
    (countStart_flash _).trans (hFlash''.trans (hFlash'.trans hFlash))⟩

/-- A full restart with the pending package clears memory and starts from it (R376). -/
theorem beginRestart_package : (s.beginRestart kindFull 0 true 0).restart.map (fun r => (r.kind, r.pending)) = some (kindFull, true)
    ∧ (s.beginRestart kindFull 0 true 0).entry 0x1100 1 = 1 ∧ (s.beginRestart kindFull 0 true 0).mem = []
    ∧ (s.beginRestart kindFull 0 true 0).jobs = [] ∧ (s.beginRestart kindFull 0 true 0).flash = s.flash := by
  have hKeeps : keepsStacks kindFull = false := by decide
  have hSide : restartsField kindFull = true := by decide
  have hPower : kindFull ≠ kindHostPower := by decide
  have hAct : kindFull ≠ kindActivate := by decide
  obtain ⟨hMem, hJobs, -⟩ := clearHost_bare (s := s) hKeeps
  have hFlash := clearHost_flash (s := s) kindFull
  simp only [State.beginRestart, hKeeps, hSide, hPower, hAct, if_false, Bool.false_eq_true, false_and, Bool.not_true, and_false]
  generalize s.clearHost kindFull = y at *
  generalize hc : State.countStart _ kindFull = c
  obtain ⟨hRestart, hEntry, hMem', hJobs', hFlash'⟩ :
      (∃ r, c.restart = some r ∧ r.kind = kindFull ∧ r.pending = true) ∧ c.entry 0x1100 1 = 1 ∧ c.mem = [] ∧ c.jobs = [] ∧ c.flash = s.flash := by
    rw [← hc]
    obtain ⟨h, -⟩ := countStart_start (s := State.setEntry _ 0x1100 1 1) kindFull
    obtain ⟨hRestart, -, -, hEntry⟩ := countStart_frame (s := State.setEntry _ 0x1100 1 1) kindFull
    exact ⟨⟨_, hRestart, rfl, rfl⟩, hEntry.trans (Laws.entry_setEntry_same ..), h.mem.trans hMem, h.jobs.trans hJobs, (countStart_flash ..).trans hFlash⟩
  obtain ⟨r, hr, hKind, hPending⟩ := hRestart
  obtain ⟨hGoes, hDict, hStore⟩ := beginPower_pending hr (by rw [hKind]; decide)
  obtain ⟨hFrame, -⟩ := beginPower_frame (s := c)
  rw [hKind, hPending] at hGoes
  exact ⟨hGoes, by rw [State.entry, hDict]; exact hEntry, hFrame.mem.trans hMem', hFrame.jobs.trans hJobs', hStore.trans hFlash'⟩

end Flash

section Firmware

variable {s : State} {ctx v : Nat}

theorem activate_row : ∃ r, CommandRow 0x9110 1 r ∧ r.ty = .u8 ∧ r.min = 1 ∧ r.max = 2 ∧ r.index = 0x9110 :=
  ⟨(lookupEntry 0x9110 1).get (by decide), ⟨by simp, by decide, by decide, by decide, by decide⟩, by decide, by decide, by decide, by decide⟩

theorem commitSvn_row : ∃ r, CommandRow 0x9110 2 r ∧ r.ty = .u8 ∧ r.min = 1 ∧ r.max = 1 ∧ r.index = 0x9110 :=
  ⟨(lookupEntry 0x9110 2).get (by decide), ⟨by simp, by decide, by decide, by decide, by decide⟩, by decide, by decide, by decide, by decide⟩

theorem firmware_stopped (sub : Nat) (hIdle : s.idle = true) : s.unitStopped 0x9110 sub = true := by
  simp [State.unitStopped, show ownerJob 0x9110 = none by decide, hIdle]

/-- An activation that no range refuses is carried out on an idle device (R376). -/
theorem activate_taken (h : Safety.direct s ctx = true) (hIdle : s.idle = true) (hv : 1 ≤ v ∧ v ≤ 2)
    (hValue : s.valueRefusal 0x9110 1 v = none) {op : State → Nat × State} : s.writeEntry ctx 0x9110 1 v op = (op s).2.record ctx 0x9110 1 (op s).1 := by
  obtain ⟨hServed, -⟩ := Laws.direct_parts h
  obtain ⟨r, hr, hTy, hMin, hMax, hIndex⟩ := activate_row
  have hU8 : EntryType.u8.max = 255 := rfl
  have hRange : s.rangeRefusal r 0x9110 1 v = none := rangeRefusal_none (by rw [hTy, hU8]; omega) (by omega) (.inl (by rw [hIndex]; decide)) hValue
  exact writeEntry_command h hr hRange (Laws.stateRefusal_served true hServed (by decide) (by decide)) fun _ => firmware_stopped 1 hIdle

theorem activateHost_pauses (h : Safety.direct s ctx = true) (hIdle : s.idle = true) (hPackage : s.packageReady = true) (hRestart : s.restart = none)
    (hSame : s.sameFieldFirmware = true) :
    ∃ s2, exec (.activateHost ctx) s = .next s2 ∧ s2.restart.map (fun r => (r.kind, r.pending)) = some (kindActivate, true)
      ∧ s2.entry 0x1100 1 = 7 ∧ Safety.outcome s2 ctx 0x9110 1 OK ∧ s2.mem = s.mem ∧ s2.jobs = [] ∧ s2.flash = s.flash := by
  obtain ⟨hServed, -⟩ := Laws.direct_parts h
  obtain ⟨-, -, hCtx, -⟩ := Laws.served_parts hServed
  have hOp : s.activateOp 1 = (OK, (s.beginRestart kindActivate 0 true 0).sendReset kindActivate 0) := by
    simp only [State.activateOp, hPackage, Bool.not_true, Bool.false_eq_true, if_false, if_true, State.requestRestart, hRestart]
  obtain ⟨hGoes, hState, hMem, hJobs, hFlash⟩ := beginRestart_activate (s := s)
  refine ⟨_, congrArg Host.Outcome.next (activate_taken h hIdle (by decide) (by simp [State.valueRefusal, hSame])), ?_⟩
  rw [hOp]
  generalize s.beginRestart kindActivate 0 true 0 = u at *
  have hSent : ∃ g o, u.sendReset kindActivate 0 = { u with fieldGate := g, out := o } := by
    unfold State.sendReset State.gateSend
    dsimp only
    split
    · exact ⟨_, _, rfl⟩
    · exact ⟨_, _, rfl⟩
  obtain ⟨g, o, e⟩ := hSent
  rw [e]
  dsimp only
  rw [Laws.record_eq hCtx _ (by decide) (by decide)]
  exact ⟨hGoes, hState, by simp [Safety.outcome], hMem, hJobs, hFlash⟩

theorem activateHost_refused (h : Safety.direct s ctx = true) (hPackage : s.packageReady = true) (hOther : s.sameFieldFirmware = false) :
    ∃ s2, exec (.activateHost ctx) s = .next s2 ∧ Safety.outcome s2 ctx 0x9110 1 VALUE_RANGE ∧ s2.mem = s.mem ∧ s2.dict = s.dict := by
  obtain ⟨hServed, -⟩ := Laws.direct_parts h
  obtain ⟨-, -, hCtx, -⟩ := Laws.served_parts hServed
  obtain ⟨r, hr, hTy, hMin, hMax, hIndex⟩ := activate_row
  have hRange : s.rangeRefusal r 0x9110 1 1 = some VALUE_RANGE := by
    have hU8 : EntryType.u8.max = 255 := rfl
    simp [State.rangeRefusal, hTy, hMin, hMax, hIndex, State.valueRefusal, hU8, hPackage, hOther]
  have hWrite : s.writeEntry ctx 0x9110 1 1 (fun s => s.activateOp 1) = s.record ctx 0x9110 1 VALUE_RANGE := by
    rw [Laws.writeEntry_served hServed hr.row rfl]
    have hAcc : r.acc ≠ .ro := by
      rcases hr.takes with hWo | ⟨hRw | hRws, -⟩
      · simp [hWo]
      · simp [hRw]
      · simp [hRws]
    simp only [State.decideWrite, hr.content, hAcc, hRange, Bool.false_eq_true, false_or, show ¬((0x9110 : Nat) = 0x9030 ∧ (1 : Nat) = 2 ∧ ctx ≠ 0) by omega,
      show ¬((0x9110 : Nat) = 0x1038 ∧ (1 : Nat) = 4 ∧ (s.context ctx).groupState = 1) by omega, if_false]
  refine ⟨_, congrArg Host.Outcome.next hWrite, outcome_record hCtx (by decide), ?_⟩
  rw [Laws.record_eq hCtx _ (by decide) (by decide)]
  exact ⟨rfl, rfl⟩

theorem activateFull_restarts (h : Safety.direct s ctx = true) (hIdle : s.idle = true) (hPackage : s.packageReady = true) (hRestart : s.restart = none) :
    ∃ s2, exec (.activateFull ctx) s = .next s2 ∧ s2.restart.map (fun r => (r.kind, r.pending)) = some (kindFull, true)
      ∧ s2.entry 0x1100 1 = 1 ∧ Safety.outcome s2 ctx 0x9110 1 OK ∧ s2.mem = [] ∧ s2.jobs = [] ∧ s2.flash = s.flash := by
  obtain ⟨hServed, -⟩ := Laws.direct_parts h
  obtain ⟨-, -, hCtx, -⟩ := Laws.served_parts hServed
  have hOp : s.activateOp 2 = (OK, s.beginRestart kindFull 0 true 0) := by
    simp only [State.activateOp, hPackage, Bool.not_true, Bool.false_eq_true, if_false, State.requestRestart, hRestart, OfNat.ofNat_ne_one]
  obtain ⟨hGoes, hState, hMem, hJobs, hFlash⟩ := beginRestart_package (s := s)
  refine ⟨_, congrArg Host.Outcome.next (activate_taken h hIdle (by decide) (by simp [State.valueRefusal])), ?_⟩
  rw [hOp]
  generalize s.beginRestart kindFull 0 true 0 = u at *
  dsimp only
  rw [Laws.record_eq hCtx _ (by decide) (by decide)]
  exact ⟨hGoes, hState, by simp [Safety.outcome], hMem, hJobs, hFlash⟩

theorem commitSvn_fuses (h : Safety.direct s ctx = true) (hIdle : s.idle = true) :
    ∃ s2, exec (.commitSvn ctx 1) s = .next s2 ∧ s2.entry 0x9000 1 = max (s.entry 0x9000 1) (s.packageSvn s.activeSlot) ∧ Safety.outcome s2 ctx 0x9110 2 OK
      ∧ s2.mem = s.mem ∧ s2.tiles = s.tiles ∧ s2.jobs = s.jobs := by
  obtain ⟨hServed, -⟩ := Laws.direct_parts h
  obtain ⟨-, -, hCtx, -⟩ := Laws.served_parts hServed
  obtain ⟨r, hr, hTy, hMin, hMax, hIndex⟩ := commitSvn_row
  have hU8 : EntryType.u8.max = 255 := rfl
  have hRange : s.rangeRefusal r 0x9110 2 1 = none :=
    rangeRefusal_none (by rw [hTy, hU8]; decide) (by omega) (.inl (by rw [hIndex]; decide)) (by simp [State.valueRefusal])
  have hWrite : exec (.commitSvn ctx 1) s = .next (s.commitSvnOp.2.record ctx 0x9110 2 s.commitSvnOp.1) :=
    congrArg Host.Outcome.next (writeEntry_command h hr hRange (Laws.stateRefusal_served true hServed (by decide) (by decide)) fun _ => firmware_stopped 2 hIdle)
  obtain ⟨u, hu, hEntry, hMem, hTiles, hJobs⟩ : ∃ u, s.commitSvnOp = (OK, u) ∧ u.entry 0x9000 1 = max (s.entry 0x9000 1) (s.packageSvn s.activeSlot)
      ∧ u.mem = s.mem ∧ u.tiles = s.tiles ∧ u.jobs = s.jobs := by
    unfold State.commitSvnOp
    dsimp only
    split
    · next hLow => exact ⟨_, rfl, (max_eq_left hLow).symm, rfl, rfl, rfl⟩
    · next hHigh =>
      have hFrame := (EventFrame.refl (s.setEntry 0x9000 1 (s.packageSvn s.activeSlot))).raise 0xB0C2 0xFF 0 (s.packageSvn s.activeSlot) 0
      refine ⟨_, rfl, ?_, hFrame.mem, hFrame.tiles, hFrame.jobs⟩
      rw [entry_raise (by decide) (by decide) (by decide) (by decide), Laws.entry_setEntry_same]
      exact (max_eq_right (by omega)).symm
  refine ⟨_, hWrite, ?_⟩
  rw [hu]
  dsimp only
  rw [Laws.record_eq hCtx _ (by decide) (by decide)]
  exact ⟨hEntry, by simp [Safety.outcome], hMem, hTiles, hJobs⟩

theorem hssTreePrepare_prepares (hLow : s.leavesLeft < 65536) (hFirst : s.hss.prepared = false) (hTop : s.hss.topNext < 2 ^ 20) :
    exec .hssTreePrepare s = .next { s with hss := { s.hss with prepared := true, topNext := s.hss.topNext + 1 } } :=
  congrArg Host.Outcome.next ((if_pos hLow).trans (if_pos ⟨by rw [hFirst]; rfl, hTop⟩))

theorem hssTreePrepare_waits (h : 65536 ≤ s.leavesLeft ∨ s.hss.prepared = true) : exec .hssTreePrepare s = .next s := by
  refine congrArg Host.Outcome.next ?_
  rcases h with hMany | hDone
  · exact if_neg (Nat.not_lt.mpr hMany)
  · have hKeeps : s.prepareTree = s := if_neg fun hc => by
      rw [hDone] at hc
      exact absurd hc.1 (by decide)
    rw [hKeeps, ite_self]

end Firmware

/-- Settles O53: the tree, both activations, CommitSvn. -/
theorem firmwareActs : Obligations.FirmwareActs := by
  unfold Obligations.FirmwareActs
  exact ⟨fun _ => hssTreePrepare_prepares, fun _ => hssTreePrepare_waits, fun _ _ h hIdle hPackage hRestart =>
    ⟨activateHost_pauses h hIdle hPackage hRestart, activateHost_refused h hPackage, activateFull_restarts h hIdle hPackage hRestart⟩, fun _ _ => commitSvn_fuses⟩

end Sys2Proof.Proofs
end

section
/-! PROOFS. Check-value contexts run, save and record (R387-R390). -/

namespace Sys2Proof.Proofs
open Sys2Proof.Machine

/-! ### Operations of the module to other nodes and to the host -/

/-- `u` is `s` but for what the issue of an operation changes: the operations under way, what waits at the links and leaves, and counters (R311, R333). -/
structure IssueFrame (s u : State) : Prop where
  shape : ∃ r n h o p q d, u = { s with remoteOps := r, nextTag := n, hostLink := h, out := o, ports := p, seqNext := q, dict := d }
  entries : ∀ i k, k < 256 → i ≠ 0x4038 → i ≠ 0x5040 → u.entry i k = s.entry i k

section Issue

variable {s t u : State}

namespace IssueFrame

theorem refl (s : State) : IssueFrame s s := ⟨⟨_, _, _, _, _, _, _, rfl⟩, fun _ _ _ _ _ => rfl⟩

theorem trans (h : IssueFrame s t) (h' : IssueFrame t u) : IssueFrame s u where
  shape := by
    obtain ⟨_, _, _, _, _, _, _, rfl⟩ := h.shape
    obtain ⟨_, _, _, _, _, _, _, rfl⟩ := h'.shape
    exact ⟨_, _, _, _, _, _, _, rfl⟩
  entries i k hk hi hi' := (h'.entries i k hk hi hi').trans (h.entries i k hk hi hi')

theorem mem (h : IssueFrame s u) : u.mem = s.mem := by obtain ⟨_, _, _, _, _, _, _, rfl⟩ := h.shape; rfl
theorem tiles (h : IssueFrame s u) : u.tiles = s.tiles := by obtain ⟨_, _, _, _, _, _, _, rfl⟩ := h.shape; rfl
theorem jobs (h : IssueFrame s u) : u.jobs = s.jobs := by obtain ⟨_, _, _, _, _, _, _, rfl⟩ := h.shape; rfl
theorem checkRun (h : IssueFrame s u) : u.checkRun = s.checkRun := by obtain ⟨_, _, _, _, _, _, _, rfl⟩ := h.shape; rfl

/-- A step that leaves the dictionary alone keeps every entry. -/
theorem of_shape {r n h o p q} : IssueFrame s { s with remoteOps := r, nextTag := n, hostLink := h, out := o, ports := p, seqNext := q } :=
  ⟨⟨_, _, _, _, _, _, _, rfl⟩, fun _ _ _ _ _ => rfl⟩

theorem bump (i k n : Nat) (hk : k < 256) (hi : i = 0x4038 ∨ i = 0x5040) : IssueFrame s (s.bump i k n) :=
  ⟨⟨_, _, _, _, _, _, _, rfl⟩, fun _ _ hl h1 h2 => Laws.entry_setEntry_index _ _ _ _ _ _ hk hl fun e => by omega⟩

theorem foldl {α : Type} {f : State → α → State} (hf : ∀ u x, IssueFrame u (f u x)) (l : List α) : ∀ {u}, IssueFrame s u → IssueFrame s (l.foldl f u) := by
  induction l with
  | nil => exact fun h => h
  | cons x l ih => exact fun h => ih (h.trans (hf _ x))

theorem takeHostTag (r : RemoteOp) (i : Nat) : IssueFrame s (s.takeHostTag r i) := by
  unfold State.takeHostTag
  dsimp only
  split
  · exact of_shape
  · exact (of_shape (s := s)).trans (bump 0x5040 10 1 (by decide) (.inr rfl))

theorem sendHost (r : RemoteOp) : IssueFrame s (s.sendHost r) := by
  refine foldl (fun u i => ?_) _ (refl s)
  split
  · exact of_shape
  · exact takeHostTag r i

theorem launchOp (r : RemoteOp) : IssueFrame s (s.launchOp r) := by
  unfold State.launchOp
  split
  · exact refl s
  · exact ((of_shape (s := s)).trans (bump 0x4038 1 1 (by decide) (.inl rfl))).trans of_shape

theorem issueOp (node vl opcode address length operand : Nat) (data : List Byte) (issuer job opId : Nat) :
    IssueFrame s (s.issueOp node vl opcode address length operand data issuer job opId) := by
  unfold State.issueOp
  dsimp only
  split
  · exact ((of_shape (s := s)).trans (bump 0x5040 7 1 (by decide) (.inr rfl))).trans (sendHost _)
  · split
    · exact refl s
    · split
      · exact of_shape
      · exact (of_shape (s := s)).trans (launchOp _)

end IssueFrame

/-- Whether an operation to a node starts rests on the link states, the routes and the host link's enables alone (R302, R332). -/
theorem issueStatus_congr (hLink : u.hostLink = s.hostLink) (hBlobs : u.blobs = s.blobs)
    (hEntries : ∀ i k, k < 256 → 0x4000 ≤ i → i < 0x6000 → u.entry i k = s.entry i k) (node opcode address : Nat) :
    u.issueStatus node opcode address = s.issueStatus node opcode address := by
  have hNode : u.route node = s.route node := by unfold State.route; rw [hBlobs]
  have hRoute : u.routePort node = s.routePort node := by
    simp only [State.routePort, hNode]
    by_cases hp : s.route node < 16
    · have hState : u.portState (s.route node) = s.portState (s.route node) := hEntries _ 1 (by decide) (by omega) (by omega)
      rw [hState]
    · rw [if_neg fun h => hp h.1, if_neg fun h => hp h.1]
  have hHost : u.hostRefusal opcode address = s.hostRefusal opcode address := by
    unfold State.hostRefusal State.hostUp State.secureStream
    rw [hLink, hEntries 0x5040 1 (by decide) (by decide) (by decide), hEntries 0x5010 2 (by decide) (by decide) (by decide)]
  unfold State.issueStatus State.routeRefusal
  rw [hHost, hRoute]

end Issue

/-! ### The contexts -/

section Contexts

variable {s u : State} {ctx n k : Nat}

theorem checkControl_row : ∃ r, CommandRow 0xB180 4 r ∧ r.ty = .u8 ∧ r.min = 1 ∧ r.max = 3 ∧ r.index = 0xB180 ∧ r.cls = .immediate :=
  ⟨(lookupEntry 0xB180 4).get (by decide), ⟨by simp, by decide, by decide, by decide, by decide⟩, by decide, by decide, by decide, by decide, by decide⟩

/-- What CheckControl orders is carried out, and its outcome recorded. -/
theorem checkControl_taken (h : Safety.direct s ctx = true) {v : Nat} (hv : 1 ≤ v ∧ v ≤ 3) {op : State → Nat × State} :
    s.writeEntry ctx 0xB180 4 v op = (op s).2.record ctx 0xB180 4 (op s).1 := by
  obtain ⟨r, hr, hTy, hMin, hMax, hIndex, hCls⟩ := checkControl_row
  obtain ⟨hServed, -⟩ := Laws.direct_parts h
  have hU8 : EntryType.u8.max = 255 := rfl
  have hRange : s.rangeRefusal r 0xB180 4 v = none :=
    rangeRefusal_none (by rw [hTy, hU8]; omega) (by omega) (.inl (by rw [hIndex]; decide)) (by simp [State.valueRefusal])
  exact writeEntry_command h hr hRange (Laws.stateRefusal_served true hServed (by decide) (by decide)) (fun hc => by rw [hCls] at hc; cases hc)

/-- What the rows of a check-value context's entries say of a write of one of them. -/
def contextRow (i k : Nat) (r : EntryRow) : Bool :=
  !r.ty.isContent && !isContextLocal i k && !isFieldServed i && !isPersistent i k && (tileOf i).isNone && (r.acc == .rws) && (r.cls == .stopped) && r.min == 0
    && (r.max == if k = 2 then 1 else 2 ^ 64 - 1) && decide (r.max ≤ r.ty.max) && r.index == 0xB100

theorem contextRow_all : ∀ n < 96, ∀ k < 5, 2 ≤ k → ((lookupEntry (0xB100 + n) k).any (contextRow (0xB100 + n) k) && (ownerJob (0xB100 + n)).isNone) = true := by
  decide

/-- The row of an entry of a check-value context that a write may name. -/
theorem contextEntry_row (hn : n < 96) (hk : 2 ≤ k ∧ k ≤ 4) : ∃ r, CommandRow (0xB100 + n) k r ∧ r.cls = .stopped ∧ r.min = 0
    ∧ r.max = (if k = 2 then 1 else 2 ^ 64 - 1) ∧ r.max ≤ r.ty.max ∧ r.index = 0xB100 := by
  have hAll := contextRow_all n hn k (by omega) hk.1
  rw [Bool.and_eq_true, Option.any_eq_true] at hAll
  obtain ⟨⟨r, hRow, hIs⟩, -⟩ := hAll
  simp only [contextRow, Bool.and_eq_true, Bool.not_eq_true', beq_iff_eq, decide_eq_true_eq, Option.isNone_iff_eq_none] at hIs
  obtain ⟨⟨⟨⟨⟨⟨⟨⟨⟨⟨hContent, hLocal⟩, hField⟩, hPersist⟩, hTile⟩, hAcc⟩, hCls⟩, hMin⟩, hMax⟩, hTy⟩, hIndex⟩ := hIs
  exact ⟨r, ⟨hRow, hContent, ⟨hLocal, hField, hPersist, hTile⟩, ⟨by omega, by omega⟩, .inr ⟨.inr hAcc, by rw [hCls]; decide⟩⟩, hCls, hMin, hMax, hTy, hIndex⟩

/-- A write in range of an entry of a context that is not BOUND takes the value (R389). -/
theorem contextWrite_taken (h : Safety.direct s ctx = true) (hn : n < 96) (hFree : s.entry (0xB100 + n) 1 ≠ 1) (hk : 2 ≤ k ∧ k ≤ 4) {v : Nat}
    (hv : v ≤ if k = 2 then 1 else 2 ^ 64 - 1) : exec (.contextWrite ctx n k (BitVec.ofNat 64 v)) s
      = .next ((s.applyEntry ctx (0xB100 + n) k v).2.record ctx (0xB100 + n) k (s.applyEntry ctx (0xB100 + n) k v).1) := by
  obtain ⟨r, hr, hCls, hMin, hMax, hTy, hIndex⟩ := contextEntry_row hn hk
  obtain ⟨hServed, -⟩ := Laws.direct_parts h
  have hAll := contextRow_all n hn k (by omega) hk.1
  rw [Bool.and_eq_true, Option.isNone_iff_eq_none] at hAll
  have hWide : v < 2 ^ 64 := by
    have : (if k = 2 then 1 else 2 ^ 64 - 1) < 2 ^ 64 := by split <;> decide
    omega
  have hValue : s.valueRefusal (0xB100 + n) k v = none := by
    unfold State.valueRefusal
    repeat rw [if_neg (by omega)]
  have hRange : s.rangeRefusal r (0xB100 + n) k v = none :=
    rangeRefusal_none (by omega) (by omega) (.inl (by rw [hIndex]; decide)) hValue
  have hStopped : s.unitStopped (0xB100 + n) k = true := by
    unfold State.unitStopped
    rw [hAll.2]
    dsimp only
    repeat rw [if_neg (by omega)]
    rw [if_pos (by omega)]
    exact decide_eq_true hFree
  have hWord : (BitVec.ofNat 64 v).toNat = v := by rw [BitVec.toNat_ofNat, Nat.mod_eq_of_lt hWide]
  change Host.Outcome.next (s.writeEntry ctx (0xB100 + min n 96) k (BitVec.ofNat 64 v).toNat fun s => s.applyEntry ctx (0xB100 + min n 96) k (BitVec.ofNat 64 v).toNat) = _
  rw [hWord, Nat.min_eq_left (by omega), writeEntry_command h hr hRange (Laws.stateRefusal_served true hServed (by omega) (by omega)) fun _ => hStopped]

/-- What a written entry of a context leaves (R389). -/
theorem applyEntry_context (hn : n < 96) (hk : 2 ≤ k ∧ k ≤ 4) {v : Nat} :
    s.applyEntry ctx (0xB100 + n) k v = (OK, if k = 2 then s.setEntry (0xB100 + n) k v else s.saveContext (0xB100 + n) k v) := by
  unfold State.applyEntry
  rw [if_neg (by omega), if_neg (by omega), if_neg (by omega), if_neg (by omega), if_neg (by omega)]
  by_cases h2 : k = 2
  · rw [if_neg (by omega), if_pos h2]
  · rw [if_pos (by omega), if_neg h2]

theorem contextPoly_written (h : Safety.direct s ctx = true) (hn : n < 96) (hFree : s.entry (0xB100 + n) 1 ≠ 1) {v : Nat} (hv : v < 2) :
    ∃ s2, exec (.contextWrite ctx n 2 (BitVec.ofNat 64 v)) s = .next s2 ∧ s2.entry (0xB100 + n) 2 = v ∧ Safety.outcome s2 ctx (0xB100 + n) 2 OK := by
  obtain ⟨hServed, -⟩ := Laws.direct_parts h
  obtain ⟨-, -, hCtx, -⟩ := Laws.served_parts hServed
  refine ⟨_, contextWrite_taken h hn hFree (by decide) (by rw [if_pos rfl]; omega), ?_, ?_⟩
  · rw [applyEntry_context hn (by decide), if_pos rfl, Laws.record_eq hCtx _ (by dsimp only; decide) (by dsimp only; decide)]
    exact Laws.entry_setEntry_same s _ _ _
  · rw [applyEntry_context hn (by decide)]
    exact outcome_record hCtx ok_ne_waiting

theorem contextValue_written (h : Safety.direct s ctx = true) (hn : n < 96) (hFree : s.entry (0xB100 + n) 1 ≠ 1) (hk : k = 3 ∨ k = 4) {v : Nat} (hv : v < 2 ^ 64) :
    ∃ s2, exec (.contextWrite ctx n k (BitVec.ofNat 64 v)) s = .next s2 ∧ s2.entry (0xB100 + n) k = v ∧ s2.entry (0xB100 + n) 1 = 2
      ∧ Safety.outcome s2 ctx (0xB100 + n) k OK ∧ s2.mem = s.mem := by
  obtain ⟨hServed, -⟩ := Laws.direct_parts h
  obtain ⟨-, -, hCtx, -⟩ := Laws.served_parts hServed
  have hNot : k ≠ 2 := by omega
  refine ⟨_, contextWrite_taken h hn hFree (by omega) (by rw [if_neg hNot]; omega), ?_⟩
  rw [applyEntry_context hn (by omega), if_neg hNot, Laws.record_eq hCtx _ (by dsimp only; decide) (by dsimp only; decide)]
  refine ⟨?_, Laws.entry_setEntry_same _ _ _ _, by simp [Safety.outcome], rfl⟩
  exact (Laws.entry_setEntry_sub _ _ _ _ _ (by omega)).trans (Laws.entry_setEntry_same s _ _ _)

/-! ### Runs -/

theorem putCheck_entries (a b c d e : Nat) : (s.putCheck n a b c d e).entry (0xB100 + n) 1 = a ∧ (s.putCheck n a b c d e).entry (0xB100 + n) 2 = b
    ∧ (s.putCheck n a b c d e).entry (0xB100 + n) 3 = c ∧ (s.putCheck n a b c d e).entry (0xB100 + n) 4 = d := by
  simp [State.putCheck]

theorem putCheck_other (a b c d e : Nat) {i l : Nat} (hi : i ≠ 0xB100 + n) (hl : l < 256) : (s.putCheck n a b c d e).entry i l = s.entry i l := by
  simp [State.putCheck, hi, hl]

theorem putCheck_shape (a b c d e : Nat) : ∃ x, s.putCheck n a b c d e = { s with dict := x } :=
  ⟨_, by unfold State.putCheck State.setEntry; rfl⟩

/-- The reads of a run leave as operations, or none does, where the source is this device's or the operations start. -/
theorem checkReads_issues {c : CheckRun} (hSource : s.isSelf (nodeOf c.source) = true ∨ s.issueStatus (nodeOf c.source) 2 (localOf c.source) = OK) :
    IssueFrame s (s.checkReads c) := by
  unfold State.checkReads
  dsimp only
  split
  · exact .refl s
  · next hRemote =>
    have hOk := hSource.resolve_left fun h => hRemote (.inl h)
    rw [if_neg fun h => h hOk]
    exact .foldl (fun _ _ => .issueOp ..) _ (.refl s)

/-- A run that fits its context begins: fresh, or from what the context holds (R390). -/
theorem checkBegin_begins (resume : Bool) (hn : n = s.entry 0xB180 3) (hLess : n < 96) (hFits : s.checkContextFits (s.entry 0xB180 1) n = true)
    (hRun : s.checkRun = none) (hFree : s.contextBound n = false)
    (hSource : s.isSelf (nodeOf (s.entry 0xB180 1)) = true ∨ s.issueStatus (nodeOf (s.entry 0xB180 1)) 2 (localOf (s.entry 0xB180 1)) = OK) :
    ∃ u, s.checkBegin resume = (OK, u) ∧ u.checkRun = some { source := s.entry 0xB180 1, length := s.entry 0xB180 2, context := n }
      ∧ u.entry 0xB180 5 = PENDING ∧ u.entry (0xB100 + n) 1 = 1 ∧ u.entry (0xB100 + n) 2 = s.entry (0xB100 + n) 2
      ∧ u.entry (0xB100 + n) 3 = (if resume then s.entry (0xB100 + n) 3 else 2 ^ 64 - 1) ∧ u.entry (0xB100 + n) 4 = (if resume then s.entry (0xB100 + n) 4 else 0)
      ∧ u.mem = s.mem ∧ u.tiles = s.tiles ∧ u.jobs = s.jobs := by
  unfold State.checkBegin
  dsimp only
  rw [← hn, hFits, hRun, hFree, if_neg (by decide), if_neg (by decide)]
  have hTouch := (TouchFrame.refl s).touchOwn (g := s.entry 0xB180 1) (n := s.entry 0xB180 2)
  generalize s.touchOwn (s.entry 0xB180 1) (s.entry 0xB180 2) = t at hTouch
  obtain ⟨_, _, hShape⟩ := hTouch.shape
  have hBind : (if resume then t.putCheck n 1 (s.entry (0xB100 + n) 2) (t.entry (0xB100 + n) 3) (t.entry (0xB100 + n) 4) 0xFE
        else t.bindCheck n (s.entry (0xB100 + n) 2) 0xFE)
      = t.putCheck n 1 (s.entry (0xB100 + n) 2) (if resume then s.entry (0xB100 + n) 3 else 2 ^ 64 - 1) (if resume then s.entry (0xB100 + n) 4 else 0) 0xFE := by
    rw [hTouch.entries _ 3 (by decide) (by omega), hTouch.entries _ 4 (by decide) (by omega)]
    cases resume <;> rfl
  rw [hBind]
  generalize (if resume then s.entry (0xB100 + n) 3 else 2 ^ 64 - 1) = running
  generalize (if resume then s.entry (0xB100 + n) 4 else 0) = length
  obtain ⟨hState, hPoly, hRunning, hLength⟩ := putCheck_entries (s := t) (n := n) 1 (s.entry (0xB100 + n) 2) running length 0xFE
  have hOther {i l : Nat} := putCheck_other (s := t) (n := n) (i := i) (l := l) 1 (s.entry (0xB100 + n) 2) running length 0xFE
  obtain ⟨x, hx⟩ := putCheck_shape (s := t) (n := n) 1 (s.entry (0xB100 + n) 2) running length 0xFE
  generalize t.putCheck n 1 (s.entry (0xB100 + n) 2) running length 0xFE = b at *
  obtain ⟨v, hv⟩ : ∃ v, v = State.setEntry { b with checkRun := some { source := s.entry 0xB180 1, length := s.entry 0xB180 2, context := n } } 0xB180 5 PENDING :=
    ⟨_, rfl⟩
  have hLow {i l : Nat} (hl : l < 256) (hi : i ≠ 0xB180) : v.entry i l = b.entry i l := by
    rw [hv]
    exact Laws.entry_setEntry_index _ _ _ _ _ _ (by decide) hl hi
  have hPorts : ∀ i l, l < 256 → 0x4000 ≤ i → i < 0x6000 → v.entry i l = s.entry i l := fun i l hl h1 h2 =>
    (hLow hl (by omega)).trans ((hOther (by omega) hl).trans (hTouch.entries i l hl (by omega)))
  have hSelf (node : Nat) : v.isSelf node = s.isSelf node := by
    unfold State.isSelf
    rw [hPorts 0x4010 1 (by decide) (by decide) (by decide)]
  have hv' : v.hostLink = s.hostLink ∧ v.blobs = s.blobs ∧ v.mem = s.mem ∧ v.tiles = s.tiles ∧ v.jobs = s.jobs := by
    rw [hv, hx, hShape]
    exact ⟨rfl, rfl, rfl, rfl, rfl⟩
  obtain ⟨hLink, hBlobs, hMem, hTiles, hJobs⟩ := hv'
  have hIssue := checkReads_issues (s := v) (c := { source := s.entry 0xB180 1, length := s.entry 0xB180 2, context := n })
    (by rw [hSelf, issueStatus_congr hLink hBlobs hPorts]; exact hSource)
  rw [← hv]
  have hIn {l : Nat} (hl : l < 256) := (hIssue.entries (0xB100 + n) l hl (by omega) (by omega)).trans (hLow hl (by omega))
  refine ⟨_, rfl, hIssue.checkRun.trans (by rw [hv]; rfl), (hIssue.entries _ _ (by decide) (by decide) (by decide)).trans (by rw [hv]; exact Laws.entry_setEntry_same ..),
    (hIn (by decide)).trans hState, (hIn (by decide)).trans hPoly, (hIn (by decide)).trans hRunning, (hIn (by decide)).trans hLength, hIssue.mem.trans hMem,
    hIssue.tiles.trans hTiles, hIssue.jobs.trans hJobs⟩

/-- A run that begins by CheckControl. -/
theorem checkControl_begins (h : Safety.direct s ctx = true) (resume : Bool) {v : Nat} (hv : 1 ≤ v ∧ v ≤ 3) (hn : n = s.entry 0xB180 3) (hLess : n < 96)
    (hFits : s.checkContextFits (s.entry 0xB180 1) n = true) (hRun : s.checkRun = none) (hFree : s.contextBound n = false)
    (hSource : s.isSelf (nodeOf (s.entry 0xB180 1)) = true ∨ s.issueStatus (nodeOf (s.entry 0xB180 1)) 2 (localOf (s.entry 0xB180 1)) = OK) :
    ∃ s2, s.writeEntry ctx 0xB180 4 v (fun s => s.checkBegin resume) = s2 ∧ Safety.checkStarted s s2 ctx n
      ∧ s2.entry (0xB100 + n) 3 = (if resume then s.entry (0xB100 + n) 3 else 2 ^ 64 - 1)
      ∧ s2.entry (0xB100 + n) 4 = (if resume then s.entry (0xB100 + n) 4 else 0) := by
  obtain ⟨hServed, -⟩ := Laws.direct_parts h
  obtain ⟨-, -, hCtx, -⟩ := Laws.served_parts hServed
  obtain ⟨u, hu, hRuns, hStatus, hState, hPoly, hRunning, hLength, hMem, hTiles, hJobs⟩ := checkBegin_begins resume hn hLess hFits hRun hFree hSource
  refine ⟨_, checkControl_taken h hv, ?_⟩
  rw [hu]
  dsimp only
  rw [Laws.record_eq hCtx _ (by decide) (by decide)]
  exact ⟨⟨hRuns, hStatus, hState, hPoly, by simp [Safety.outcome], hMem, hTiles, hJobs⟩, hRunning, hLength⟩

/-- What the end of a run leaves (R388, R390). -/
theorem endRun_ends {c : CheckRun} {status : Nat} (hn : n = c.context) (hLess : n < 96) (hBound : s.contextBound n = true) :
    (s.endRun c status).checkRun = none ∧ (s.endRun c status).entry 0xB180 5 = status ∧ (s.endRun c status).entry (0xB100 + n) 1 = 2
      ∧ (∀ i k, k < 256 → (i = 0xB100 + n → k ≠ 1 ∧ k ≠ 5) → (i = 0xB180 → k ≠ 5) → (s.endRun c status).entry i k = s.entry i k)
      ∧ (s.endRun c status).mem = s.mem ∧ (s.endRun c status).tiles = s.tiles := by
  obtain ⟨v, hv, hEntries, hNone, hMem, hTiles⟩ : ∃ v, v = { s.orphanOps (fun r => r.issuer = issuerCheck) with checkRun := none } ∧ (∀ i k, v.entry i k = s.entry i k)
      ∧ v.checkRun = none ∧ v.mem = s.mem ∧ v.tiles = s.tiles := ⟨_, rfl, fun _ _ => rfl, rfl, rfl, rfl⟩
  have hEnds : s.endRun c status = ((v.setEntry (0xB100 + n) 1 2).setEntry (0xB100 + n) 5 0xFF).setEntry 0xB180 5 status := by
    unfold State.endRun State.endCheck
    rw [← hv, ← hn, if_pos (show v.contextBound n = true by simpa [State.contextBound, hEntries] using hBound)]
  rw [hEnds]
  refine ⟨hNone, Laws.entry_setEntry_same .., ?_, fun i k hk hi hi' => ?_, hMem, hTiles⟩
  · rw [Laws.entry_setEntry_index _ _ _ _ _ _ (by decide) (by decide) (by omega), Laws.entry_setEntry_sub _ _ _ _ _ (by decide), Laws.entry_setEntry_same]
  · rw [Laws.entry_setEntry_ne _ _ _ _ _ _ (fun e => by rw [Laws.entryKey_inj hk (by decide)] at e; exact hi' e.1 e.2),
      Laws.entry_setEntry_ne _ _ _ _ _ _ (fun e => by rw [Laws.entryKey_inj hk (by decide)] at e; exact (hi e.1).2 e.2),
      Laws.entry_setEntry_ne _ _ _ _ _ _ (fun e => by rw [Laws.entryKey_inj hk (by decide)] at e; exact (hi e.1).1 e.2), hEntries]

theorem foldCheck_folds (running length : Nat) : (s.foldCheck n running length).entry (0xB100 + n) 3 = running
    ∧ (s.foldCheck n running length).entry (0xB100 + n) 4 = length
    ∧ (∀ i k, k < 256 → i ≠ 0xB100 + n ∨ (k ≠ 3 ∧ k ≠ 4) → (s.foldCheck n running length).entry i k = s.entry i k) := by
  refine ⟨?_, Laws.entry_setEntry_same .., fun i k hk hi => ?_⟩
  · exact (Laws.entry_setEntry_sub _ _ _ _ _ (by decide)).trans (Laws.entry_setEntry_same ..)
  · exact (Laws.entry_setEntry_ne _ _ _ _ _ _ (fun e => by rw [Laws.entryKey_inj hk (by decide)] at e; omega)).trans
      (Laws.entry_setEntry_ne _ _ _ _ _ _ (fun e => by rw [Laws.entryKey_inj hk (by decide)] at e; omega))

/-- Bytes folded through a context change its RUNNING and LENGTH alone. -/
theorem foldInto_folds (b : List Byte) : (s.foldInto n b).entry (0xB100 + n) 3
      = (if s.entry (0xB100 + n) 2 = 1 then crc32cRun (s.entry (0xB100 + n) 3) b else crc64Run (s.entry (0xB100 + n) 3) b)
    ∧ (s.foldInto n b).entry (0xB100 + n) 4 = (s.entry (0xB100 + n) 4 + b.length) % 2 ^ 64
    ∧ (∀ i k, k < 256 → i ≠ 0xB100 + n ∨ (k ≠ 3 ∧ k ≠ 4) → (s.foldInto n b).entry i k = s.entry i k) :=
  foldCheck_folds _ _

/-- A run that stops before its end has folded bytes through its context and nothing else. -/
theorem foldPart_keeps {c : CheckRun} (hn : n = c.context) : (∀ i k, k < 256 → i ≠ 0xB100 + n ∨ (k ≠ 3 ∧ k ≠ 4) → (s.foldPart c).entry i k = s.entry i k)
    ∧ (s.foldPart c).mem = s.mem ∧ (s.foldPart c).tiles = s.tiles := by
  subst hn
  unfold State.foldPart
  dsimp only
  generalize s.checkBytes c _ = b
  obtain ⟨-, -, hOther⟩ := foldInto_folds (s := s) (n := c.context) b
  exact ⟨hOther, rfl, rfl⟩

/-- A run that stops before its end is over: its status, its context SAVED (R390). -/
theorem foldPart_ends {c : CheckRun} {status : Nat} (hn : n = c.context) (hLess : n < 96) (hBound : s.contextBound n = true) :
    ((s.foldPart c).endRun c status).checkRun = none ∧ ((s.foldPart c).endRun c status).entry 0xB180 5 = status
      ∧ ((s.foldPart c).endRun c status).entry (0xB100 + n) 1 = 2 ∧ ((s.foldPart c).endRun c status).entry 0xB180 6 = s.entry 0xB180 6
      ∧ ((s.foldPart c).endRun c status).mem = s.mem := by
  obtain ⟨hEntries, hMem, -⟩ := foldPart_keeps (s := s) hn
  have hBound' : (s.foldPart c).contextBound n = true := by
    unfold State.contextBound at hBound ⊢
    rw [hEntries _ 1 (by decide) (.inr (by decide))]
    exact hBound
  obtain ⟨hNone, hStatus, hSaved, hOthers, hMem', -⟩ := endRun_ends (status := status) hn hLess hBound'
  exact ⟨hNone, hStatus, hSaved, (hOthers _ _ (by decide) (by omega) (fun _ => by decide)).trans (hEntries _ _ (by decide) (.inl (by omega))), hMem'.trans hMem⟩

theorem checkCancel_ends {c : CheckRun} (h : Safety.direct s ctx = true) (hRun : s.checkRun = some c) (hLess : c.context < 96) (hBound : s.contextBound c.context = true) :
    ∃ s2, exec (.checkCancel ctx) s = .next s2 ∧ s2.checkRun = none ∧ s2.entry 0xB180 5 = GROUP_DISCARDED ∧ s2.entry (0xB100 + c.context) 1 = 2
      ∧ Safety.outcome s2 ctx 0xB180 4 OK ∧ s2.mem = s.mem := by
  obtain ⟨hServed, -⟩ := Laws.direct_parts h
  obtain ⟨-, -, hCtx, -⟩ := Laws.served_parts hServed
  have hOp : s.checkCancelOp = (OK, (s.foldPart c).endRun c GROUP_DISCARDED) := by
    unfold State.checkCancelOp
    rw [hRun]
  obtain ⟨hNone, hStatus, hSaved, -, hMem⟩ := foldPart_ends (s := s) (status := GROUP_DISCARDED) rfl hLess hBound
  refine ⟨_, congrArg Host.Outcome.next (checkControl_taken h (by decide)), ?_⟩
  rw [hOp]
  generalize (s.foldPart c).endRun c GROUP_DISCARDED = u at *
  dsimp only
  rw [Laws.record_eq hCtx _ (by decide) (by decide)]
  exact ⟨hNone, hStatus, hSaved, by simp [Safety.outcome], hMem⟩

theorem checkRun_completes {c : CheckRun} {b remote : List Byte} (hRun : s.checkRun = some c) (hn : n = c.context) (hLess : n < 96) (hBound : s.contextBound n = true)
    (hMay : s.checkForbidden c = false) (hDone : s.issuerBusy issuerCheck = false) (hWide : s.entry (0xB100 + n) 4 + c.length < 2 ^ 64)
    (hClean : s.isSelf (nodeOf c.source) = false ∨ s.rangePoisoned (localOf c.source) c.length = false)
    (hb : b = (if s.isSelf (nodeOf c.source) then s.memBytes (localOf c.source) c.length else sliceBytes remote 0 c.length)) :
    ∃ s2, exec (.checkRunComplete OK remote) s = .next s2 ∧ s2.checkRun = none ∧ s2.entry 0xB180 5 = OK ∧ s2.entry (0xB100 + n) 1 = 2
      ∧ s2.entry (0xB100 + n) 4 = s.entry (0xB100 + n) 4 + c.length
      ∧ s2.entry 0xB180 6 = (if s.entry (0xB100 + n) 2 = 1 then crc32cValue (crc32cRun (s.entry (0xB100 + n) 3) b)
          else crc64Value (crc64Run (s.entry (0xB100 + n) 3) b)) ∧ s2.mem = s.mem ∧ s2.tiles = s.tiles := by
  have hCode : s.checkStatus c OK = OK := by
    unfold State.checkStatus
    rcases hClean with hRemote | hSound
    · rw [hRemote]; rfl
    · rw [hSound, ite_eq_left_iff.mpr fun _ => by rfl]
  have hLength : b.length = c.length := by
    rw [hb]
    split
    · exact (List.length_map _).trans List.length_range
    · exact (List.length_map _).trans List.length_range
  obtain ⟨hRunning, hCount, hOther⟩ := foldInto_folds (s := s) (n := n) b
  obtain ⟨w, hw, hMem, hTiles⟩ : ∃ w, w = s.foldInto n b ∧ w.mem = s.mem ∧ w.tiles = s.tiles := ⟨_, rfl, rfl, rfl⟩
  rw [← hw] at hRunning hCount hOther
  have hExec : exec (.checkRunComplete OK remote) s = .next ((w.setEntry 0xB180 6 (w.checkValue n)).endRun c OK) := by
    change execCheckRunComplete OK remote s = _
    unfold execCheckRunComplete
    simp only [hRun, hMay, hDone, hCode, Bool.false_eq_true, if_false, ne_eq, not_true_eq_false, ← hb, ← hn, ← hw]
  have hKeep {i k : Nat} (hk : k < 256) (hi : i ≠ 0xB180) : (w.setEntry 0xB180 6 (w.checkValue n)).entry i k = w.entry i k :=
    Laws.entry_setEntry_index _ _ _ _ _ _ (by decide) hk hi
  have hBound' : (w.setEntry 0xB180 6 (w.checkValue n)).contextBound n = true := by
    unfold State.contextBound at hBound ⊢
    rw [hKeep (by decide) (by omega), hOther _ 1 (by decide) (.inr (by decide))]
    exact hBound
  obtain ⟨hNone, hStatus, hSaved, hOthers, hMem', hTiles'⟩ := endRun_ends (status := OK) hn hLess hBound'
  refine ⟨_, hExec, hNone, hStatus, hSaved, ?_, ?_, hMem'.trans hMem, hTiles'.trans hTiles⟩
  · rw [hOthers _ _ (by decide) (fun _ => by decide) (by omega), hKeep (by decide) (by omega), hCount, hLength, Nat.mod_eq_of_lt hWide]
  · rw [hOthers _ _ (by decide) (by omega) (fun _ => by decide), Laws.entry_setEntry_same, State.checkValue, hRunning, hOther _ 2 (by decide) (.inr (by decide))]
    split <;> rfl

theorem checkRun_forbidden {c : CheckRun} {remote : List Byte} (hRun : s.checkRun = some c) (hn : n = c.context) (hLess : n < 96) (hBound : s.contextBound n = true)
    (hMay : s.checkForbidden c = true) : ∃ s2, exec (.checkRunComplete OK remote) s = .next s2 ∧ s2.checkRun = none ∧ s2.entry 0xB180 5 = ACCESS_PROTECT
      ∧ s2.entry (0xB100 + n) 1 = 2 ∧ s2.entry (0xB100 + n) 3 = s.entry (0xB100 + n) 3 ∧ s2.mem = s.mem := by
  have hExec : exec (.checkRunComplete OK remote) s = .next (s.endRun c ACCESS_PROTECT) := by
    change execCheckRunComplete OK remote s = _
    unfold execCheckRunComplete
    simp only [hRun, hMay, if_true]
  obtain ⟨hNone, hStatus, hSaved, hOthers, hMem, -⟩ := endRun_ends (status := ACCESS_PROTECT) hn hLess hBound
  exact ⟨_, hExec, hNone, hStatus, hSaved, hOthers _ _ (by decide) (fun _ => by decide) (by omega), hMem⟩

theorem checkRun_poisoned {c : CheckRun} {remote : List Byte} (hRun : s.checkRun = some c) (hn : n = c.context) (hLess : n < 96) (hBound : s.contextBound n = true)
    (hMay : s.checkForbidden c = false) (hDone : s.issuerBusy issuerCheck = false) (hSelf : s.isSelf (nodeOf c.source) = true)
    (hPoison : s.rangePoisoned (localOf c.source) c.length = true) : ∃ s2, exec (.checkRunComplete OK remote) s = .next s2 ∧ s2.checkRun = none
      ∧ s2.entry 0xB180 5 = SLOT_POISON ∧ s2.entry (0xB100 + n) 1 = 2 ∧ s2.entry 0xB180 6 = s.entry 0xB180 6 ∧ s2.mem = s.mem := by
  have hCode : s.checkStatus c OK = SLOT_POISON := by
    unfold State.checkStatus
    rw [hSelf, hPoison]
    rfl
  have hExec : exec (.checkRunComplete OK remote) s = .next ((s.foldPart c).endRun c SLOT_POISON) := by
    change execCheckRunComplete OK remote s = _
    unfold execCheckRunComplete
    simp only [hRun, hMay, hDone, hCode, Bool.false_eq_true, if_false]
    rfl
  exact ⟨_, hExec, foldPart_ends hn hLess hBound⟩

end Contexts

/-- Settles O54: what each command does to the run and to its context's entries. -/
theorem checksRun : Obligations.ChecksRun := by
  unfold Obligations.ChecksRun
  refine ⟨fun s ctx n h hn hLess hFits hRun hFree hSource => ⟨?_, ?_⟩, fun _ _ _ => checkCancel_ends, fun _ _ _ _ _ => checkRun_completes,
    fun _ _ _ _ hRun hn hLess hBound => ⟨checkRun_forbidden hRun hn hLess hBound, checkRun_poisoned hRun hn hLess hBound⟩,
    fun _ _ _ _ h hn hFree => ⟨contextPoly_written h hn hFree, fun _ hk => contextValue_written h hn hFree hk⟩⟩
  · obtain ⟨s2, hs, hStarted, hRunning, hLength⟩ := checkControl_begins h false (v := 1) (by decide) hn hLess hFits hRun hFree hSource
    exact ⟨s2, congrArg Host.Outcome.next hs, hStarted, hRunning, hLength⟩
  · obtain ⟨s2, hs, hStarted, hRunning, hLength⟩ := checkControl_begins h true (v := 2) (by decide) hn hLess hFits hRun hFree hSource
    exact ⟨s2, congrArg Host.Outcome.next hs, hStarted, hRunning, hLength⟩

end Sys2Proof.Proofs
end

section
/-! PROOFS. The narrow view, row tags, verify reads and scrubbing (R265-R273). -/

namespace Sys2Proof.Proofs
open Sys2Proof.Machine

section Rows

variable {s u : State} {ctx t c row : Nat}

/-- A step that changes no tile changes no row and no tag. -/
theorem rows_of_tiles (h : u.tiles = s.tiles) (k r : Nat) : u.rowData k r = s.rowData k r ∧ u.tag k r = s.tag k r := by
  have hTile : u.tile k = s.tile k := by rw [State.tile, h]; rfl
  exact ⟨rowData_congr (by rw [hTile]) (by rw [hTile]) r, by rw [State.tag, hTile]; rfl⟩

/-! ### The narrow view -/

/-- A tile that wakes changes its time of waking and entries of its own (R350). -/
theorem wakeTile_shape : ∃ d tl, s.wakeTile t = { s with dict := d, tiles := tl } ∧ ∀ k, ∃ a, (s.wakeTile t).tile k = { s.tile k with wakeAt := a } := by
  unfold State.wakeTile
  dsimp only
  have hUpd (v : State) (k : Nat) (hv : v.tiles = s.tiles) : ∃ a, (v.updTile t fun x => { x with wakeAt := none }).tile k = { s.tile k with wakeAt := a } := by
    have hTile : ∀ k, v.tile k = s.tile k := fun k => by rw [State.tile, hv]; rfl
    by_cases hk : k = t
    · rw [hk, Laws.tile_updTile_same, hTile]
      exact ⟨_, rfl⟩
    · rw [Laws.tile_updTile_ne _ hk, hTile]
      exact ⟨_, rfl⟩
  split
  · split
    · exact ⟨_, _, rfl, fun k => hUpd s k rfl⟩
    · exact ⟨_, _, rfl, fun k => hUpd (s.bump ..) k rfl⟩
  · exact ⟨_, _, rfl, fun _ => ⟨_, rfl⟩⟩

/-- Waking keeps the tile's rows and tags. -/
theorem wakeTile_rows (k r : Nat) : (s.wakeTile t).rowData k r = s.rowData k r ∧ (s.wakeTile t).tag k r = s.tag k r := by
  obtain ⟨_, _, -, hTile⟩ := wakeTile_shape (s := s) (t := t)
  obtain ⟨_, hk⟩ := hTile k
  exact ⟨rowData_congr (by rw [hk]) (by rw [hk]) r, by rw [State.tag, hk]; rfl⟩

theorem noteNarrow_notes (code : Nat) (g : Tag) : (s.noteNarrow code g).entry 0x3480 3 = g.code ∧ (s.noteNarrow code g).entry 0x3480 4 = code :=
  ⟨(Laws.entry_setEntry_sub _ _ _ _ _ (by decide)).trans (Laws.entry_setEntry_same s _ _ _), Laws.entry_setEntry_same _ _ _ _⟩

theorem narrowData_row : ∃ r, CommandRow 0x3480 2 r ∧ r.acc ≠ .wo ∧ r.ty = .u64 ∧ r.min = 0 ∧ r.max = 2 ^ 64 - 1 ∧ r.index = 0x3480 :=
  ⟨(lookupEntry 0x3480 2).get (by decide), ⟨by simp, by decide, by decide, by decide, by decide⟩, by decide, by decide, by decide, by decide, by decide⟩

/-- A read of an entry that is served here does what its operation does, and answers with the value. -/
theorem answerRead_takes {i k v : Nat} {r : EntryRow} {op : State → Nat × Nat × State} (h : Safety.direct s ctx = true) (hr : CommandRow i k r) (hAcc : r.acc ≠ .wo)
    (hIndex : i ≠ 0x1030 ∧ i ≠ 0x9200 ∧ i ≠ 0x9210) (hOp : op s = (OK, v, u)) :
    s.answerRead { ctx := ctx, offset := keyOffset (entryKey i k) } i k (fun _ => true) op = (u.record ctx i k OK).emit (.dictRead ctx v) := by
  obtain ⟨hServed, -⟩ := Laws.direct_parts h
  obtain ⟨hReady, -, hCtx, hSecure, -, hAwaits⟩ := Laws.served_parts hServed
  obtain ⟨hLocal, hField, -, hTile⟩ := hr.places
  have hPaused : s.bar0Paused ctx = false := by simp [State.bar0Paused, hReady]
  have hCross : crosses ctx i = false := by simp [crosses, hField]
  have hAccess := Laws.accessRefusal_served false hServed hr.row (by rw [hTile]; rfl)
  have hState := Laws.stateRefusal_served (i := i) (sub := k) false hServed hIndex.2.1 hIndex.2.2
  have hResult : s.readResult ctx i k (fun _ => true) (fun r => State.takeRead { ctx := ctx, offset := keyOffset (entryKey i k) } r i k op) = (OK, v, u) := by
    simp only [State.readResult, hAccess, hr.row, State.readRow, hState, Bool.not_true, Bool.false_eq_true, if_false, hAcc, false_and,
      State.takeRead, hCross, Bool.false_and, hLocal, hOp]
  unfold State.answerRead State.inTurn
  dsimp only
  rw [hPaused, hSecure, hAwaits, hResult]
  dsimp only
  rw [if_neg Bool.false_ne_true, if_neg Bool.false_ne_true, if_neg Bool.false_ne_true, State.recordRead, if_neg fun hc => hIndex.1 hc.1]
  rfl

theorem narrowRead_answers (h : Safety.direct s ctx = true) (hT : t = s.narrowTile) (hC : c = s.narrowIndex) (hMay : s.narrowRefusal = none) :
    ∃ s2, exec (.narrowRead ctx .clean) s = .next s2 ∧ s2.out = s.out ++ [.dictRead ctx (s.coefficient t c)] ∧ Safety.outcome s2 ctx 0x3480 2 OK
      ∧ s2.entry 0x3480 3 = (s.tag t (c / 1024)).code ∧ s2.entry 0x3480 4 = OK ∧ s2.mem = s.mem ∧ s2.jobs = s.jobs
      ∧ ∀ u r, s2.rowData u r = s.rowData u r ∧ s2.tag u r = s.tag u r := by
  obtain ⟨hServed, hClosed⟩ := Laws.direct_parts h
  obtain ⟨-, -, hCtx, -⟩ := Laws.served_parts hServed
  obtain ⟨r, hr, hAcc, -⟩ := narrowData_row
  have hStaged : s.stagedValue ctx 0x3480 2 = none := if_neg hClosed
  obtain ⟨w, hw, hRead⟩ : ∃ w, w = s.wakeTile t ∧ s.narrowReadOp .clean = (OK, w.coefficient t c, w.noteNarrow OK (w.tag t (c / 1024))) := by
    refine ⟨_, rfl, ?_⟩
    unfold State.narrowReadOp
    rw [hMay, ← hT, ← hC]
    rfl
  have hRows := wakeTile_rows (s := s) (t := t)
  obtain ⟨d, tl, hShape, -⟩ := wakeTile_shape (s := s) (t := t)
  rw [← hw] at hRows hShape
  have hOp : s.narrowReadOp .clean = (OK, s.coefficient t c, w.noteNarrow OK (s.tag t (c / 1024))) := by
    rw [hRead, (hRows _ _).2, State.coefficient, (hRows _ _).1]
    rfl
  obtain ⟨hTag, hStatus⟩ := noteNarrow_notes (s := w) OK (s.tag t (c / 1024))
  obtain ⟨d', hd'⟩ : ∃ d', w.noteNarrow OK (s.tag t (c / 1024)) = { w with dict := d' } := ⟨_, rfl⟩
  refine ⟨_, congrArg Host.Outcome.next (answerRead_takes h hr hAcc (by decide) (by rw [hStaged]; exact hOp)), ?_⟩
  rw [Laws.record_eq hCtx _ (by decide) (by decide)]
  generalize w.noteNarrow OK (s.tag t (c / 1024)) = v at *
  have hTiles : v.tiles = w.tiles := by rw [hd']
  have hOut : v.out = s.out ∧ v.mem = s.mem ∧ v.jobs = s.jobs := by
    rw [hd', hShape]
    exact ⟨rfl, rfl, rfl⟩
  obtain ⟨hOut, hMem, hJobs⟩ := hOut
  refine ⟨congrArg (· ++ _) hOut, by simp [Safety.outcome, State.context, State.setContext, State.emit], hTag, hStatus, hMem, hJobs, fun k r => ?_⟩
  have hv := rows_of_tiles hTiles k r
  exact ⟨(rows_of_tiles rfl k r).1.trans (hv.1.trans (hRows k r).1), (rows_of_tiles rfl k r).2.trans (hv.2.trans (hRows k r).2)⟩

theorem narrowWrite_writes {v : Word} (h : Safety.direct s ctx = true) (hT : t = s.narrowTile) (hC : c = s.narrowIndex) (hMay : s.narrowRefusal = none)
    (hStopped : s.unitStopped 0x3480 2 = true) :
    ∃ s2, exec (.narrowWrite ctx v .clean) s = .next s2 ∧ s2.coefficient t c = v.toNat % 2 ^ 36 ∧ Safety.outcome s2 ctx 0x3480 2 OK
      ∧ (∀ k, k ≠ c → s2.coefficient t k % 2 ^ 36 = s.coefficient t k % 2 ^ 36) ∧ (∀ u r, s2.tag u r = s.tag u r)
      ∧ (∀ u r, u ≠ t → s2.rowData u r = s.rowData u r) ∧ s2.mem = s.mem ∧ s2.jobs = s.jobs := by
  obtain ⟨hServed, -⟩ := Laws.direct_parts h
  obtain ⟨-, -, hCtx, -⟩ := Laws.served_parts hServed
  obtain ⟨r, hr, -, hTy, hMin, hMax, hIndex⟩ := narrowData_row
  have hU64 : EntryType.u64.max = 2 ^ 64 - 1 := rfl
  have hWord := v.isLt
  have hRange : s.rangeRefusal r 0x3480 2 v.toNat = none :=
    rangeRefusal_none (by rw [hTy, hU64]; omega) (by omega) (.inl (by rw [hIndex]; decide)) (by simp [State.valueRefusal])
  obtain ⟨w, hw, hOp⟩ : ∃ w, w = s.wakeTile t ∧ s.narrowWriteOp v.toNat .clean = (OK, (w.putCoefficient t c v.toNat).noteNarrow OK (w.tag t (c / 1024))) := by
    refine ⟨_, rfl, ?_⟩
    unfold State.narrowWriteOp
    rw [hMay, ← hT, ← hC]
    rfl
  have hRows := wakeTile_rows (s := s) (t := t)
  obtain ⟨_, _, hShape, -⟩ := wakeTile_shape (s := s) (t := t)
  rw [← hw] at hRows hShape
  obtain ⟨hSame, hOthers, _, _, hTile⟩ := putCoefficient_writes (s := w) (t := t) c v.toNat
  obtain ⟨hMem, hJobs, -, hTiles⟩ := putCoefficient_frame (s := w) (t := t) c v.toNat
  obtain ⟨d', hd'⟩ : ∃ d', (w.putCoefficient t c v.toNat).noteNarrow OK (w.tag t (c / 1024)) = { w.putCoefficient t c v.toNat with dict := d' } := ⟨_, rfl⟩
  refine ⟨_, congrArg Host.Outcome.next (writeEntry_command h hr hRange (Laws.stateRefusal_served true hServed (by decide) (by decide)) fun _ => hStopped), ?_⟩
  rw [hOp, hd']
  generalize w.putCoefficient t c v.toNat = x at *
  have hLeft : x.mem = s.mem ∧ x.jobs = s.jobs := by
    rw [hMem, hJobs, hShape]
    exact ⟨rfl, rfl⟩
  have hFar (k r : Nat) (hk : k ≠ t) : x.rowData k r = s.rowData k r ∧ x.tag k r = s.tag k r :=
    ⟨(rowData_congr (by rw [hTiles k hk]) (by rw [hTiles k hk]) r).trans (hRows k r).1, (by rw [State.tag, hTiles k hk]; rfl : x.tag k r = w.tag k r).trans (hRows k r).2⟩
  have hTag (k r : Nat) : x.tag k r = s.tag k r := by
    by_cases hk : k = t
    · rw [hk, ← (hRows t r).2, State.tag, hTile]
      rfl
    · exact (hFar k r hk).2
  have hCoefficient (k : Nat) : w.coefficient t k = s.coefficient t k := congrArg (Row.lane · _) (hRows t _).1
  dsimp only
  rw [Laws.record_eq hCtx _ (by decide) (by decide)]
  exact ⟨hSame, by simp [Safety.outcome], fun k hk => (hOthers k hk).trans (by rw [hCoefficient]), hTag, fun k r hk => (hFar k r hk).1, hLeft⟩

/-! ### Row tags -/

/-- Beside tags and coverage the rows of a scratchpad stay as they were. -/
structure TagFrame (t : Nat) (s u : State) : Prop where
  shape : ∃ tl, u = { s with tiles := tl }
  tile : ∃ g c, u.tile t = { s.tile t with tags := g, coverage := c }
  others : ∀ k, k ≠ t → u.tile k = s.tile k

namespace TagFrame

theorem refl (s : State) : TagFrame t s s := ⟨⟨_, rfl⟩, ⟨_, _, rfl⟩, fun _ _ => rfl⟩

theorem setTag (h : TagFrame t s u) (r : Nat) (g : Tag) : TagFrame t s (u.setTag t r g) where
  shape := by
    obtain ⟨_, rfl⟩ := h.shape
    exact ⟨_, rfl⟩
  tile := by
    obtain ⟨_, _, e⟩ := h.tile
    rw [State.setTag, Laws.tile_updTile_same, e]
    exact ⟨_, _, rfl⟩
  others k hk := (Laws.tile_updTile_ne _ hk).trans (h.others k hk)

theorem rowData (h : TagFrame t s u) (k r : Nat) : u.rowData k r = s.rowData k r := by
  by_cases hk : k = t
  · obtain ⟨_, _, e⟩ := h.tile
    rw [hk]
    exact rowData_congr (by rw [e]) (by rw [e]) r
  · exact rowData_congr (by rw [h.others k hk]) (by rw [h.others k hk]) r

end TagFrame

theorem tag_setTag (k r r' : Nat) (g : Tag) : (s.setTag t r g).tag k r' = if k = t ∧ r' = r then g else s.tag k r' := by
  unfold State.setTag State.tag
  by_cases hk : k = t
  · rw [hk, Laws.tile_updTile_same]
    by_cases hr : r' = r
    · rw [if_pos ⟨rfl, hr⟩, hr]
      exact Laws.tab_get_put_same ..
    · rw [if_neg fun h => hr h.2]
      exact Laws.tab_get_put_ne _ _ _ hr
  · rw [if_neg fun h => hk h.1, Laws.tile_updTile_ne _ hk]

/-- The POISON rows of a range turned EMPTY (R271). -/
def clearTags (t first n : Nat) (s : State) : State :=
  (List.range n).foldl (fun s i => if s.tag t (first + i) = .poison then s.setTag t (first + i) .empty else s) s

theorem clearTags_clears (first n : Nat) : TagFrame t s (clearTags t first n s)
    ∧ ∀ k r, (clearTags t first n s).tag k r = if k = t ∧ first ≤ r ∧ r < first + n ∧ s.tag k r = .poison then .empty else s.tag k r := by
  unfold clearTags
  induction n with
  | zero => exact ⟨.refl s, fun k r => (if_neg fun h => by omega).symm⟩
  | succ n ih =>
    rw [List.range_succ, List.foldl_append, List.foldl_cons, List.foldl_nil]
    obtain ⟨hFrame, hTags⟩ := ih
    generalize (List.range n).foldl _ s = v at hFrame hTags
    have hHere : v.tag t (first + n) = s.tag t (first + n) := by rw [hTags, if_neg (by omega)]
    split
    · next hPoison =>
      refine ⟨hFrame.setTag .., fun k r => ?_⟩
      rw [tag_setTag, hTags]
      by_cases hAt : k = t ∧ r = first + n
      · rw [if_pos hAt, if_pos ⟨hAt.1, by omega, by omega, by rw [hAt.1, hAt.2, ← hHere]; exact hPoison⟩]
      · rw [if_neg hAt]
        by_cases hIn : k = t ∧ first ≤ r ∧ r < first + n ∧ s.tag k r = .poison
        · rw [if_pos hIn, if_pos ⟨hIn.1, hIn.2.1, by omega, hIn.2.2.2⟩]
        · rw [if_neg hIn, if_neg fun h => hIn ⟨h.1, h.2.1, Nat.lt_of_le_of_ne (by omega) fun e => hAt ⟨h.1, e⟩, h.2.2.2⟩]
    · next hPoison =>
      refine ⟨hFrame, fun k r => ?_⟩
      rw [hTags]
      by_cases hIn : k = t ∧ first ≤ r ∧ r < first + n ∧ s.tag k r = .poison
      · rw [if_pos hIn, if_pos ⟨hIn.1, hIn.2.1, by omega, hIn.2.2.2⟩]
      · rw [if_neg hIn, if_neg fun h => hIn ⟨h.1, h.2.1, Nat.lt_of_le_of_ne (by omega) fun e => hPoison ?_, h.2.2.2⟩]
        rw [hHere, ← e, ← h.1]
        exact h.2.2.2

theorem tagClear_row : ∃ r, CommandRow 0x3480 5 r ∧ r.ty = .u32 ∧ r.min = 0 ∧ r.max = 2 ^ 32 - 1 ∧ r.index = 0x3480 :=
  ⟨(lookupEntry 0x3480 5).get (by decide), ⟨by simp, by decide, by decide, by decide, by decide⟩, by decide, by decide, by decide, by decide⟩

theorem rowTagClear_clears {first count : Nat} (h : Safety.direct s ctx = true) (hEnabled : s.tileEnabled t = true) (hAwake : s.tileState t ≠ 4) (hSome : 0 < count)
    (hTop : first + count ≤ 3072) (hFree : ((s.jobOfTile t).any fun j => (s.job j).active) = false) :
    ∃ s2, exec (.rowTagClear ctx (BitVec.ofNat 64 (t * 2 ^ 24 + first * 2 ^ 12 + count))) s = .next s2 ∧ Safety.outcome s2 ctx 0x3480 5 OK
      ∧ (∀ u r, s2.tag u r = if u = t ∧ first ≤ r ∧ r < first + count ∧ s.tag u r = .poison then .empty else s.tag u r)
      ∧ (∀ u r, s2.rowData u r = s.rowData u r) ∧ s2.mem = s.mem ∧ s2.jobs = s.jobs ∧ s2.dict = s.dict := by
  obtain ⟨hServed, -⟩ := Laws.direct_parts h
  obtain ⟨-, -, hCtx, -⟩ := Laws.served_parts hServed
  obtain ⟨r, hr, hTy, hMin, hMax, hIndex⟩ := tagClear_row
  have hLess : t < 64 := by
    simp only [State.tileEnabled, Bool.and_eq_true, decide_eq_true_eq] at hEnabled
    exact hEnabled.1
  have hWord : (BitVec.ofNat 64 (t * 2 ^ 24 + first * 2 ^ 12 + count)).toNat = t * 2 ^ 24 + first * 2 ^ 12 + count := by
    rw [BitVec.toNat_ofNat, Nat.mod_eq_of_lt (by omega)]
  have hU32 : EntryType.u32.max = 2 ^ 32 - 1 := rfl
  obtain ⟨v, hv⟩ : ∃ v, v = t * 2 ^ 24 + first * 2 ^ 12 + count := ⟨_, rfl⟩
  have hRange : s.rangeRefusal r 0x3480 5 v = none :=
    rangeRefusal_none (by rw [hTy, hU32]; omega) (by omega) (.inl (by rw [hIndex]; decide)) (by simp [State.valueRefusal])
  have hT : bits v 24 8 = t := by simp only [bits]; omega
  have hFirst : bits v 12 12 = first := by simp only [bits]; omega
  have hCount : bits v 0 12 = count := by simp only [bits]; omega
  have hOp : s.rowTagClearOp v = (OK, clearTags t first count s) := by
    unfold State.rowTagClearOp
    dsimp only
    rw [hT, hFirst, hCount, if_neg (by omega), hEnabled, if_neg (by decide), if_neg (by omega),
      if_neg (fun hBad => hBad.elim (fun hJob => by rw [hFree] at hJob; cases hJob) hAwake)]
    rfl
  rw [hWord.trans hv.symm |> fun e => show exec (.rowTagClear ctx (BitVec.ofNat 64 (t * 2 ^ 24 + first * 2 ^ 12 + count))) s
    = .next (s.writeEntry ctx 0x3480 5 v fun s => s.rowTagClearOp v) from by rw [← e]; rfl]
  refine ⟨_, congrArg Host.Outcome.next (writeEntry_command h hr hRange (Laws.stateRefusal_served true hServed (by decide) (by decide)) fun _ => rfl), ?_⟩
  rw [hOp]
  obtain ⟨hFrame, hTags⟩ := clearTags_clears (s := s) (t := t) first count
  have hRows := hFrame.rowData
  obtain ⟨_, hShape⟩ := hFrame.shape
  generalize clearTags t first count s = x at *
  dsimp only
  rw [Laws.record_eq hCtx _ (by decide) (by decide)]
  exact ⟨by simp [Safety.outcome], hTags, hRows, by rw [hShape]; rfl, by rw [hShape]; rfl, by rw [hShape]; rfl⟩

/-! ### Verify reads -/

/-- A tile with nothing running is fed nothing. -/
theorem feedTile_none (h : (s.tile t).running = []) : s.feedTile t = s := by
  unfold State.feedTile
  dsimp only
  rw [readEngines_idle h]
  split
  · rfl
  · next im _ =>
    generalize List.range im.streams.length = l
    induction l with
    | nil => rfl
    | cons i l ih => rw [List.foldl_cons, feed_idle fun p hp => by rw [h] at hp; cases hp]; exact ih

/-- Where no window PUT has landed none is settled. -/
theorem settleLanded_none (h : (s.tile t).windowLanded = []) : s.settleLanded t = s.updTile t fun x => { x with windowLanded := [] } := by
  unfold State.settleLanded State.updTile
  simp only [h, List.filter_nil, List.foldl_nil]

theorem failLanded_none (h : (s.tile t).windowLanded = []) : s.failLanded t row = s.updTile t fun x => { x with windowLanded := [] } := by
  unfold State.failLanded State.updTile
  simp only [h, List.filter_nil, List.foldl_nil]

theorem rowVerifyRead_passes (ht : t < 64) (hDue : (s.tile t).verifyDue.contains row = true) (hIdle : (s.tile t).running = []) (hLanded : (s.tile t).windowLanded = []) :
    ∃ s2, exec (.rowVerifyRead t row true) s = .next s2 ∧ s2.tag t row = .full ∧ (s2.tile t).verifyDue = (s.tile t).verifyDue.erase row
      ∧ (∀ u r, s2.rowData u r = s.rowData u r) ∧ (∀ u r, (u, r) ≠ (t, row) → s2.tag u r = s.tag u r) ∧ s2.mem = s.mem ∧ s2.dict = s.dict := by
  obtain ⟨v, hv⟩ : ∃ v, v = (s.updTile t fun x => { x with verifyDue := x.verifyDue.erase row }).setTag t row .full := ⟨_, rfl⟩
  have hTile : v.tile t = { s.tile t with verifyDue := (s.tile t).verifyDue.erase row, tags := Tab.put (s.tile t).tags row .full
                                          coverage := Tab.erase (s.tile t).coverage row } := by
    rw [hv, State.setTag, Laws.tile_updTile_same, Laws.tile_updTile_same]
  have hOthers (k : Nat) (hk : k ≠ t) : v.tile k = s.tile k := by
    rw [hv, State.setTag, Laws.tile_updTile_ne _ hk, Laws.tile_updTile_ne _ hk]
  have hExec : exec (.rowVerifyRead t row true) s = .next (v.updTile t fun x => { x with windowLanded := [] }) := by
    change execRowVerifyRead t row true s = _
    rw [execRowVerifyRead, Laws.onTile_next ht, State.verifyRow, if_pos hDue, if_pos rfl, ← hv, feedTile_none (by rw [hTile]; exact hIdle),
      settleLanded_none (by rw [hTile]; exact hLanded)]
  have hEnd : (v.updTile t fun x => { x with windowLanded := [] }).tile t = { v.tile t with windowLanded := [] } := Laws.tile_updTile_same _
  have hFar (k : Nat) (hk : k ≠ t) : (v.updTile t fun x => { x with windowLanded := [] }).tile k = s.tile k := (Laws.tile_updTile_ne _ hk).trans (hOthers k hk)
  refine ⟨_, hExec, ?_, ?_, fun k r => ?_, fun k r hkr => ?_, by rw [hv]; rfl, by rw [hv]; rfl⟩
  · rw [State.tag, hEnd, hTile]
    exact Laws.tab_get_put_same ..
  · rw [hEnd, hTile]
  · by_cases hk : k = t
    · rw [hk]
      exact rowData_congr (by rw [hEnd, hTile]) (by rw [hEnd, hTile]) r
    · exact rowData_congr (by rw [hFar k hk]) (by rw [hFar k hk]) r
  · by_cases hk : k = t
    · rw [hk, State.tag, hEnd, hTile]
      exact Laws.tab_get_put_ne _ _ _ fun hr => hkr (by rw [hk, hr])
    · rw [State.tag, hFar k hk]
      rfl

theorem poisonRows_keeps (first n : Nat) {k r : Nat} (h : s.tag k r = .poison) : (s.poisonRows t first n).tag k r = .poison := by
  unfold State.poisonRows
  induction n with
  | zero => exact h
  | succ n ih =>
    rw [List.range_succ, List.foldl_append, List.foldl_cons, List.foldl_nil, tag_setTag, ih, ite_self]

/-- Beside entries and tiles nothing changes. -/
def ScratchOnly (s u : State) : Prop := ∃ d tl, u = { s with dict := d, tiles := tl }

namespace ScratchOnly

theorem refl (s : State) : ScratchOnly s s := ⟨_, _, rfl⟩

theorem setEntry (h : ScratchOnly s u) (i k v : Nat) : ScratchOnly s (u.setEntry i k v) := by
  obtain ⟨_, _, rfl⟩ := h
  exact ⟨_, _, rfl⟩

theorem bump (h : ScratchOnly s u) (i k n : Nat) : ScratchOnly s (u.bump i k n) := h.setEntry ..

theorem updTile (h : ScratchOnly s u) (t : Nat) (f : Tile → Tile) : ScratchOnly s (u.updTile t f) := by
  obtain ⟨_, _, rfl⟩ := h
  exact ⟨_, _, rfl⟩

theorem noteRowError (h : ScratchOnly s u) (t row w : Nat) : ScratchOnly s (u.noteRowError t row w) := (h.setEntry ..).setEntry ..

end ScratchOnly

/-- A failed verify read marks its row and counts, before anyone is told (R272). -/
structure VerifyMarked (t row : Nat) (s u : State) : Prop where
  shape : ScratchOnly s u
  tag : u.tag t row = .poison
  running : (u.tile t).running = (s.tile t).running
  count : u.entry 0x3420 5 = satAdd (2 ^ 32 - 1) (s.entry 0x3420 5) 1

theorem verifyFail_marks (hLanded : (s.tile t).windowLanded = []) : VerifyMarked t row s
    (((State.setTag (s.updTile t fun x => { x with verifyDue := x.verifyDue.erase row }) t row .poison).bump 0x3420 5 1).failLanded t row) := by
  have hTile : ((State.setTag (s.updTile t fun x => { x with verifyDue := x.verifyDue.erase row }) t row .poison).bump 0x3420 5 1).tile t
      = { s.tile t with verifyDue := (s.tile t).verifyDue.erase row, tags := Tab.put (s.tile t).tags row .poison
                        coverage := Tab.erase (s.tile t).coverage row } := by
    rw [show ∀ v : State, (v.bump 0x3420 5 1).tile t = v.tile t from fun _ => rfl, State.setTag, Laws.tile_updTile_same, Laws.tile_updTile_same]
  rw [failLanded_none (by rw [hTile]; exact hLanded)]
  refine ⟨((((ScratchOnly.refl s).updTile ..).updTile ..).bump ..).updTile .., ?_, ?_, ?_⟩
  · rw [State.tag, Laws.tile_updTile_same, hTile]
    exact Laws.tab_get_put_same ..
  · rw [Laws.tile_updTile_same, hTile]
  · change (State.bump _ 0x3420 5 1).entry 0x3420 5 = _
    rw [Laws.bump_eq, Laws.entry_setEntry_same]
    rfl

/-- A failing operation ends its tile's job; what was POISON stays so, and entries below 0x8000 stay (R229, R272). -/
theorem failLop_shape {code target kind j : Nat} {o : LopInst} (hj : s.jobOfTile t = some j) (hRun : (s.job j).state = .running) :
    ∃ v, Aborted v (s.failLop t code o target kind) j code t o.bundle ∧ (∃ tl, v = { s with tiles := tl })
      ∧ ∀ k r, s.tag k r = .poison → v.tag k r = .poison := by
  obtain ⟨⟨tl, hShape⟩, -, -⟩ := poisonRows_marks (s := s) (t := t) (o.rgnD.1 + if o.op.verifies && !o.sent then 0 else o.rowsDone)
    (o.rgnD.2 - if o.op.verifies && !o.sent then 0 else o.rowsDone)
  have hKeeps {k r : Nat} (h : s.tag k r = .poison) : (s.poisonUnfinished t o).tag k r = .poison := poisonRows_keeps _ _ h
  have hx : s.poisonUnfinished t o = { s with tiles := tl } := hShape
  obtain ⟨r, hr, hCode, hBundle⟩ : ∃ r, (s.failLop t code o target kind = (s.poisonUnfinished t o).faultTile t r) ∧ r.code = code ∧ r.bundle = o.bundle :=
    ⟨_, rfl, rfl, rfl⟩
  generalize s.poisonUnfinished t o = x at hKeeps hx hr
  have hEnds := faultTile_ends (s := x) (t := t) (j := j) r (by rw [hx]; exact hj) (by rw [hx]; exact hRun)
  rw [← hr, hCode, hBundle] at hEnds
  refine ⟨_, hEnds, ⟨_, by rw [hx]; rfl⟩, fun k r hTag => ?_⟩
  have hOld := hKeeps hTag
  by_cases hk : k = t
  · rw [hk, State.tag, Laws.tile_updTile_same]
    rw [hk] at hOld
    exact hOld
  · rw [State.tag, Laws.tile_updTile_ne _ hk]
    exact hOld

theorem rowVerifyRead_fails {j : Nat} {o : LopInst} (ht : t < 64) (hDue : (s.tile t).verifyDue.contains row = true) (hj : s.jobOfTile t = some j)
    (hRun : (s.job j).state = .running) (hPlain : s.isKeyRow t row = false) (hLanded : (s.tile t).windowLanded = []) (hWriter : (s.tile t).writerOf row = some o) :
    ∃ s2, exec (.rowVerifyRead t row false) s = .next s2 ∧ s2.tag t row = .poison ∧ (s2.job j).state = .draining ∧ (s2.job j).abortCode = DATA_CRC
      ∧ s2.entry 0x3420 5 = satAdd (2 ^ 32 - 1) (s.entry 0x3420 5) 1 ∧ s2.mem = s.mem := by
  have hMarked := verifyFail_marks (row := row) hLanded
  obtain ⟨v, hv⟩ : ∃ v, v = ((State.setTag (s.updTile t fun x => { x with verifyDue := x.verifyDue.erase row }) t row .poison).bump 0x3420 5 1).failLanded t row :=
    ⟨_, rfl⟩
  rw [← hv] at hMarked
  obtain ⟨d, tl, hShape⟩ := hMarked.shape
  have hjv : v.jobOfTile t = some j := by rw [hShape]; exact hj
  have hRunv : (v.job j).state = .running := by rw [hShape]; exact hRun
  have hPlainv : v.isKeyRow t row = false := by rw [hShape]; exact hPlain
  have hWriterv : (v.tile t).writerOf row = some o := by
    unfold Tile.writerOf at hWriter ⊢
    rw [hMarked.running]
    exact hWriter
  have hExec : exec (.rowVerifyRead t row false) s = .next (v.failLop t DATA_CRC o row 2) := by
    change execRowVerifyRead t row false s = _
    rw [execRowVerifyRead, Laws.onTile_next ht, State.verifyRow, if_pos hDue, if_neg (by decide), State.verifyFail, ← hv]
    simp only [hjv, hPlainv, Bool.false_eq_true, if_false, hWriterv]
  obtain ⟨w, hEnds, ⟨tl', hw⟩, hTags⟩ := failLop_shape (code := DATA_CRC) (target := row) (kind := 2) (o := o) hjv hRunv
  obtain ⟨hState, -, hCode, -⟩ := hEnds.ended
  refine ⟨_, hExec, ?_, hState, hCode, (hEnds.entries _ _ (by decide) (by decide)).trans ?_, hEnds.mem.trans (by rw [hw, hShape])⟩
  · obtain ⟨_, _, hTile⟩ := hEnds.tiles t
    rw [State.tag, hTile]
    exact hTags t row hMarked.tag
  · rw [hw]
    exact hMarked.count

/-! ### A stream that fails -/

/-- Beside tiles nothing changes. -/
def TilesOnly (s u : State) : Prop := ∃ tl, u = { s with tiles := tl }

namespace TilesOnly

theorem refl (s : State) : TilesOnly s s := ⟨_, rfl⟩

theorem poisonRows (h : TilesOnly s u) (t first n : Nat) : TilesOnly s (u.poisonRows t first n) := by
  obtain ⟨_, rfl⟩ := h
  obtain ⟨⟨tl, e⟩, -, -⟩ := poisonRows_marks (s := { s with tiles := _ }) (t := t) first n
  exact ⟨tl, e⟩

theorem foldl {α : Type} {f : State → α → State} (hf : ∀ u x, TilesOnly s u → TilesOnly s (f u x)) (l : List α) : ∀ {u}, TilesOnly s u → TilesOnly s (l.foldl f u) := by
  induction l with
  | nil => exact fun h => h
  | cons x l ih => exact fun h => ih (hf _ x h)

theorem poisonDestination (h : TilesOnly s u) (j : Nat) (e : StreamEntry) : TilesOnly s (u.poisonDestination j e) :=
  foldl (fun _ t hu => hu.poisonRows t _ _) _ h

theorem poisonConsumers (h : TilesOnly s u) (j entry : Nat) : TilesOnly s (u.poisonConsumers j entry) :=
  foldl (fun _ _ hu => foldl (fun _ _ hv => foldl (fun _ _ hw => hw.poisonRows ..) _ hv) _ hu) _ h

end TilesOnly

/-- A key error recorded for its job and counted (R179). -/
def keyErrorNoted (s : State) (j entry error : Nat) : State :=
  match keyErrorCounter error with
  | some i => ((s.setEntry (0x7080 + j) 3 error).setEntry (0x7080 + j) 4 entry).bump 0x7020 i 1
  | none => (s.setEntry (0x7080 + j) 3 error).setEntry (0x7080 + j) 4 entry

theorem keyErrorCounter_small {error i : Nat} (h : keyErrorCounter error = some i) : i < 256 := by
  unfold keyErrorCounter at h
  split at h
  · cases h; decide
  · split at h
    · cases h; decide
    · split at h
      · cases h; decide
      · cases h

theorem keyErrorNoted_notes (j entry error : Nat) : (∃ d, keyErrorNoted s j entry error = { s with dict := d })
    ∧ ∀ i k, i < 0x7000 → k < 256 → (keyErrorNoted s j entry error).entry i k = s.entry i k := by
  have hSet (i k : Nat) (hi : i < 0x7000) (hk : k < 256) : ((s.setEntry (0x7080 + j) 3 error).setEntry (0x7080 + j) 4 entry).entry i k = s.entry i k := by
    rw [Laws.entry_setEntry_index _ _ _ _ _ _ (by decide) hk (by omega), Laws.entry_setEntry_index _ _ _ _ _ _ (by decide) hk (by omega)]
  unfold keyErrorNoted
  split
  · next c hc =>
    exact ⟨⟨_, rfl⟩, fun i k hi hk => (Laws.entry_setEntry_index _ _ _ _ _ _ (keyErrorCounter_small hc) hk (by omega)).trans (hSet i k hi hk)⟩
  · exact ⟨⟨_, rfl⟩, hSet⟩

/-- A key error of a job's stream marks its rows and ends the job (R179, R182). -/
theorem keyOutcome_eq {j entry error : Nat} {im : Image} {e : StreamEntry} (hImage : (s.job j).image = some im) (hEntry : im.streams[entry]? = some e) :
    s.keyOutcome j entry error = (if error = KEY_CRC then ((keyErrorNoted s j entry error).poisonDestination j e).poisonConsumers j entry
      else (keyErrorNoted s j entry error).poisonDestination j e).abortJob j error 0xFF 0 := by
  have hBind (v : State) (hv : v.jobs = s.jobs) : (((v.job j).image).bind fun im => im.streams[entry]?) = some e := by
    rw [State.job, hv, show Tab.get s.jobs {} j = s.job j from rfl, hImage]
    exact hEntry
  unfold State.keyOutcome keyErrorNoted
  cases keyErrorCounter error with
  | none =>
    dsimp only
    rw [hBind ((s.setEntry (0x7080 + j) 3 error).setEntry (0x7080 + j) 4 entry) rfl]
  | some c =>
    dsimp only
    rw [hBind (((s.setEntry (0x7080 + j) 3 error).setEntry (0x7080 + j) 4 entry).bump 0x7020 c 1) rfl]

/-- The state in which a key error ends its job differs from the one before in tiles, and in entries above the key engine's alone. -/
theorem keyOutcome_ends {j entry error : Nat} {im : Image} {e : StreamEntry} (hImage : (s.job j).image = some im) (hEntry : im.streams[entry]? = some e) :
    ∃ v, s.keyOutcome j entry error = v.abortJob j error 0xFF 0 ∧ (∃ d tl, v = { s with dict := d, tiles := tl })
      ∧ ∀ i k, i < 0x7000 → k < 256 → v.entry i k = s.entry i k := by
  obtain ⟨⟨d, hd⟩, hEntries⟩ := keyErrorNoted_notes (s := s) j entry error
  have hTiles : TilesOnly (keyErrorNoted s j entry error) (if error = KEY_CRC then ((keyErrorNoted s j entry error).poisonDestination j e).poisonConsumers j entry
      else (keyErrorNoted s j entry error).poisonDestination j e) := by
    split
    · exact ((TilesOnly.refl _).poisonDestination j e).poisonConsumers j entry
    · exact (TilesOnly.refl _).poisonDestination j e
  obtain ⟨tl, hTl⟩ := hTiles
  refine ⟨_, keyOutcome_eq hImage hEntry, ⟨d, tl, by rw [hTl, hd]⟩, fun i k hi hk => ?_⟩
  rw [hTl]
  exact hEntries i k hi hk

theorem dropCredits_shape (x : Stream) : ∃ a b, s.dropCredits x = { s with mcastCredits := a, mcastUsed := b } := by
  unfold State.dropCredits
  split
  · split
    · exact ⟨_, _, rfl⟩
    · exact ⟨_, _, rfl⟩
  · exact ⟨_, _, rfl⟩

theorem endCheck_entries (n : Nat) : (∃ d, s.endCheck n = { s with dict := d }) ∧ ∀ i k, i < 0x7000 → k < 256 → (s.endCheck n).entry i k = s.entry i k := by
  unfold State.endCheck
  split
  · refine ⟨⟨_, rfl⟩, fun i k hi hk => ?_⟩
    rw [Laws.entry_setEntry_index _ _ _ _ _ _ (by decide) hk (by omega), Laws.entry_setEntry_index _ _ _ _ _ _ (by decide) hk (by omega)]
  · exact ⟨⟨_, rfl⟩, fun _ _ _ _ => rfl⟩

/-- A stream of a running job that fails is FAILED with its error, which ends the job (R179, R182). -/
theorem streamFail_ends {k error : Nat} {im : Image} {e : StreamEntry} (hRun : (s.job (s.stream k).job).state = .running)
    (hEntry : s.streamEntry (s.stream k) = some (im, e)) : ∃ v, Aborted v (s.streamFail k error) (s.stream k).job error 0xFF 0
      ∧ ((s.streamFail k error).stream k).state = 5 ∧ ((s.streamFail k error).stream k).error = error ∧ v.mem = s.mem ∧ v.jobs = s.jobs
      ∧ ∀ i l, i < 0x7000 → l < 256 → v.entry i l = s.entry i l := by
  have hParts : (s.job (s.stream k).job).image = some im ∧ im.streams[(s.stream k).entry]? = some e := by
    unfold State.streamEntry at hEntry
    cases hIm : (s.job (s.stream k).job).image with
    | none => rw [hIm] at hEntry; cases hEntry
    | some im' =>
      rw [hIm, Option.bind_some, Option.map_eq_some_iff] at hEntry
      obtain ⟨e', hAt, hPair⟩ := hEntry
      obtain ⟨rfl, rfl⟩ := Prod.mk.inj hPair
      exact ⟨rfl, hAt⟩
  obtain ⟨hImage, hAt⟩ := hParts
  obtain ⟨c, hc, ⟨d, hd⟩, hcEntries⟩ : ∃ c, (if (s.stream k).bound then s.endCheck (streamContext k) else s) = c ∧ (∃ d, c = { s with dict := d })
      ∧ ∀ i l, i < 0x7000 → l < 256 → c.entry i l = s.entry i l := by
    refine ⟨_, rfl, ?_⟩
    split
    · exact endCheck_entries _
    · exact ⟨⟨_, rfl⟩, fun _ _ _ _ => rfl⟩
  obtain ⟨a, b, hDrop⟩ := dropCredits_shape (s := c.setStream k { s.stream k with state := 5, error := error }) (s.stream k)
  have hFail : s.streamFail k error = State.keyOutcome { c.setStream k { s.stream k with state := 5, error := error } with mcastCredits := a, mcastUsed := b }
      (s.stream k).job (s.stream k).entry error := by
    unfold State.streamFail
    dsimp only
    rw [hc, hDrop]
  generalize hx : { c.setStream k { s.stream k with state := 5, error := error } with mcastCredits := a, mcastUsed := b } = x at hFail
  have hJobs : x.jobs = s.jobs := by rw [← hx, hd]; rfl
  obtain ⟨v, hv, ⟨d', tl, hShape⟩, hEntries⟩ := keyOutcome_ends (s := x) (j := (s.stream k).job) (entry := (s.stream k).entry) (error := error)
    (by rw [State.job, hJobs]; exact hImage) hAt
  have hvJobs : v.jobs = s.jobs := by rw [hShape]; exact hJobs
  obtain ⟨_, _, _, _, hAbort⟩ := abortJob_shape (s := v) (j := (s.stream k).job) (code := error) (tile := 0xFF) (bundle := 0)
  have hStream : (s.streamFail k error).stream k = { s.stream k with state := 5, error := error } := by
    rw [hFail, hv, hAbort]
    change v.stream k = _
    rw [hShape, ← hx]
    exact Laws.tab_get_put_same ..
  refine ⟨v, ?_, by rw [hStream], by rw [hStream], ?_, hvJobs, fun i l hi hl => (hEntries i l hi hl).trans ?_⟩
  · rw [hFail, hv]
    exact abortJob_running _ _ _ (by rw [State.job, hvJobs]; exact hRun)
  · rw [hShape, ← hx, hd]
    rfl
  · rw [← hcEntries i l hi hl, ← hx]
    rfl

theorem rowVerifyRead_failsKey {j k : Nat} (ht : t < 64) (hDue : (s.tile t).verifyDue.contains row = true) (hj : s.jobOfTile t = some j)
    (hRun : (s.job j).state = .running) (hKey : s.isKeyRow t row = true) (hLanded : (s.tile t).windowLanded = []) (hStream : s.streamOfRow j row true = some k) :
    ∃ s2, exec (.rowVerifyRead t row false) s = .next s2 ∧ (s2.stream k).state = 5 ∧ (s2.stream k).error = KEY_CRC ∧ (s2.job j).state = .draining
      ∧ (s2.job j).abortCode = KEY_CRC ∧ s2.entry 0x3420 5 = satAdd (2 ^ 32 - 1) (s.entry 0x3420 5) 1 ∧ s2.mem = s.mem := by
  have hFills := List.find?_some hStream
  simp only [if_true, Bool.and_eq_true, decide_eq_true_eq] at hFills
  obtain ⟨⟨hJob, -⟩, hFills⟩ := hFills
  unfold State.fillsRow at hFills
  rw [Option.any_eq_true] at hFills
  obtain ⟨⟨im, e⟩, hEntry, -⟩ := hFills
  have hMarked := verifyFail_marks (row := row) hLanded
  obtain ⟨v, hv⟩ : ∃ v, v = ((State.setTag (s.updTile t fun x => { x with verifyDue := x.verifyDue.erase row }) t row .poison).bump 0x3420 5 1).failLanded t row :=
    ⟨_, rfl⟩
  rw [← hv] at hMarked
  obtain ⟨d, tl, hShape⟩ := hMarked.shape
  have hjv : v.jobOfTile t = some j := by rw [hShape]; exact hj
  have hKeyv : v.isKeyRow t row = true := by rw [hShape]; exact hKey
  have hStreamv : v.streamOfRow j row true = some k := by rw [hShape]; exact hStream
  have hAt : v.stream k = s.stream k := by rw [hShape]; rfl
  have hExec : exec (.rowVerifyRead t row false) s = .next (v.streamFail k KEY_CRC) := by
    change execRowVerifyRead t row false s = _
    rw [execRowVerifyRead, Laws.onTile_next ht, State.verifyRow, if_pos hDue, if_neg (by decide), State.verifyFail, ← hv]
    simp only [hjv, hKeyv, if_true, State.keyRowFail, hStreamv, Option.some_or]
  obtain ⟨w, hEnds, hFailed, hError, hMem, -, hEntries⟩ := streamFail_ends (s := v) (k := k) (error := KEY_CRC) (im := im) (e := e)
    (by rw [hAt, hJob, hShape]; exact hRun) (by rw [hAt, hShape]; exact hEntry)
  rw [hAt, hJob] at hEnds
  obtain ⟨hState, -, hCode, -⟩ := hEnds.ended
  refine ⟨_, hExec, hFailed, hError, hState, hCode, ?_, hEnds.mem.trans (hMem.trans (by rw [hShape]))⟩
  exact (hEnds.entries _ _ (by decide) (by decide)).trans ((hEntries _ _ (by decide) (by decide)).trans hMarked.count)

/-! ### Write-back and scrubbing -/

theorem rowEccWriteBack_retires {word : Nat} (ht : t < 64) :
    ∃ s2, exec (.rowEccWriteBack t row word) s = .next s2 ∧ (s2.tile t).writeBacks = (s.tile t).writeBacks.erase (row, word)
      ∧ (∀ u r, s2.rowData u r = s.rowData u r ∧ s2.tag u r = s.tag u r) ∧ s2.mem = s.mem ∧ s2.dict = s.dict := by
  have hTile : (s.updTile t fun x => { x with writeBacks := x.writeBacks.erase (row, word) }).tile t
      = { s.tile t with writeBacks := (s.tile t).writeBacks.erase (row, word) } := Laws.tile_updTile_same _
  have hExec : exec (.rowEccWriteBack t row word) s = .next (s.updTile t fun x => { x with writeBacks := x.writeBacks.erase (row, word) }) := by
    change execRowEccWriteBack t row word s = _
    rw [execRowEccWriteBack, Laws.onTile_next ht]
  refine ⟨_, hExec, by rw [hTile], fun k r => ?_, rfl, rfl⟩
  by_cases hk : k = t
  · rw [hk]
    exact ⟨rowData_congr (by rw [hTile]) (by rw [hTile]) r, by rw [State.tag, hTile]; rfl⟩
  · have hOther := Laws.tile_updTile_ne (s := s) (t := t) (fun x => { x with writeBacks := x.writeBacks.erase (row, word) }) hk
    exact ⟨rowData_congr (by rw [hOther]) (by rw [hOther]) r, by rw [State.tag, hOther]; rfl⟩

/-- What a scrub read of a row leaves before its word's error is handled (R273). -/
structure Scrubbed (t row : Nat) (s u : State) : Prop where
  shape : ∃ d tl, u = { s with dict := d, tiles := tl }
  place : (u.tile t).scrubRow = (row + 1) % 3072
  tile : ∃ a b c e, u.tile t = { s.tile t with scrubRow := a, scrubStart := b, scrubPeriods := c, scrubbed := e }
  others : ∀ k, k ≠ t → u.tile k = s.tile k

theorem scrubAdvance_reads : Scrubbed t row s (s.scrubAdvance t row) := by
  unfold State.scrubAdvance
  dsimp only
  obtain ⟨d, hd⟩ : ∃ d, (if (row < (s.tile t).scrubRow || row = 3071) = true then
      (s.bump 0x3420 6 (s.missedPasses t row)).setEntry (0x3440 + t) 6 (((s.bump 0x3420 6 (s.missedPasses t row)).now - (s.tile t).scrubStart) / 1000)
      else s.bump 0x3420 6 (s.missedPasses t row)) = { s with dict := d } := by
    split
    · exact ⟨_, rfl⟩
    · exact ⟨_, rfl⟩
  rw [hd]
  refine ⟨⟨_, _, rfl⟩, ?_, ?_, fun k hk => Laws.tile_updTile_ne _ hk⟩
  · rw [Laws.tile_updTile_same]
  · rw [Laws.tile_updTile_same]
    exact ⟨_, _, _, _, rfl⟩

theorem Scrubbed.rows (h : Scrubbed t row s u) (k r : Nat) : u.rowData k r = s.rowData k r ∧ u.tag k r = s.tag k r := by
  by_cases hk : k = t
  · obtain ⟨_, _, _, _, hTile⟩ := h.tile
    rw [hk]
    exact ⟨rowData_congr (by rw [hTile]) (by rw [hTile]) r, by rw [State.tag, hTile]; rfl⟩
  · have hTile := h.others k hk
    exact ⟨rowData_congr (by rw [hTile]) (by rw [hTile]) r, by rw [State.tag, hTile]; rfl⟩

theorem noteRowError_notes (w : Nat) : (s.noteRowError t row w).entry (0x3440 + t) 4 = row ∧ (s.noteRowError t row w).entry (0x3440 + t) 5 = w :=
  ⟨(Laws.entry_setEntry_sub _ _ _ _ _ (by decide)).trans (Laws.entry_setEntry_same s _ _ _), Laws.entry_setEntry_same _ _ _ _⟩

/-- A count of its tile's errors and one of all leave the place of the last error. -/
theorem entry_counted {k l : Nat} (hk : k = 2 ∨ k = 3) (hl : l < 256) (i : Nat) (hi : i = 4 ∨ i = 5) (ht : t < 64) :
    ((s.bump (0x3440 + t) k 1).bump 0x3420 l 1).entry (0x3440 + t) i = s.entry (0x3440 + t) i :=
  (Laws.entry_setEntry_index _ _ _ _ _ _ hl (by omega) (by omega)).trans (Laws.entry_setEntry_sub _ _ _ _ _ (by omega))

/-- A corrected word is due for its write-back, and its place is noted (R269). -/
theorem correctedRow_corrects (w : Nat) (ht : t < 64) : ScratchOnly s (s.correctedRow t row w)
    ∧ (∃ l, (s.correctedRow t row w).tile t = { s.tile t with writeBacks := l } ∧ l.contains (row, w) = true)
    ∧ (s.correctedRow t row w).entry (0x3440 + t) 4 = row ∧ (s.correctedRow t row w).entry (0x3440 + t) 5 = w := by
  obtain ⟨hRow, hWord⟩ := noteRowError_notes (s := s) (t := t) (row := row) w
  have hEntry (i : Nat) (hi : i = 4 ∨ i = 5) := entry_counted (s := s.noteRowError t row w) (l := 1) (.inl rfl) (by decide) i hi ht
  have hTile : (((s.noteRowError t row w).bump (0x3440 + t) 2 1).bump 0x3420 1 1).tile t = s.tile t := rfl
  have hShape : ScratchOnly s (((s.noteRowError t row w).bump (0x3440 + t) 2 1).bump 0x3420 1 1) := (((ScratchOnly.refl s).noteRowError ..).bump ..).bump ..
  unfold State.correctedRow
  dsimp only
  generalize ((s.noteRowError t row w).bump (0x3440 + t) 2 1).bump 0x3420 1 1 = v at hEntry hTile hShape
  refine ⟨hShape.updTile .., ⟨_, by rw [Laws.tile_updTile_same, hTile], ?_⟩, (hEntry 4 (.inl rfl)).trans hRow, (hEntry 5 (.inr rfl)).trans hWord⟩
  split
  · assumption
  · rw [List.contains_iff_mem, List.mem_append]
    exact .inr (List.mem_singleton.2 rfl)

/-- An uncorrectable word poisons its row, and its place is noted (R270). -/
theorem uncorrectableRow_poisons (w : Nat) (ht : t < 64) : ScratchOnly s (s.uncorrectableRow t row w)
    ∧ (∀ k r, (s.uncorrectableRow t row w).tag k r = if k = t ∧ r = row then .poison else s.tag k r)
    ∧ (s.uncorrectableRow t row w).entry (0x3440 + t) 4 = row ∧ (s.uncorrectableRow t row w).entry (0x3440 + t) 5 = w := by
  obtain ⟨hRow, hWord⟩ := noteRowError_notes (s := s) (t := t) (row := row) w
  have hEntry (i : Nat) (hi : i = 4 ∨ i = 5) := entry_counted (s := s.noteRowError t row w) (l := 2) (.inr rfl) (by decide) i hi ht
  have hShape : ScratchOnly s (((s.noteRowError t row w).bump (0x3440 + t) 3 1).bump 0x3420 2 1) := (((ScratchOnly.refl s).noteRowError ..).bump ..).bump ..
  have hTile : ∀ k, (((s.noteRowError t row w).bump (0x3440 + t) 3 1).bump 0x3420 2 1).tile k = s.tile k := fun _ => rfl
  unfold State.uncorrectableRow
  generalize ((s.noteRowError t row w).bump (0x3440 + t) 3 1).bump 0x3420 2 1 = v at hEntry hShape hTile
  refine ⟨hShape.updTile .., fun k r => ?_, (hEntry 4 (.inl rfl)).trans hRow, (hEntry 5 (.inr rfl)).trans hWord⟩
  rw [tag_setTag, State.tag, hTile]
  rfl

/-- The scrub read of a row, by what its error code says (R273). -/
def scrubbedAs (v : State) (t row : Nat) : Ecc → State
  | .clean => v
  | .tagCopy => v.rowEcc t row .tagCopy
  | .corrected w => (v.correctedRow t row w).bump 0x3420 3 1
  | .uncorrectable w => ((v.uncorrectableRow t row w).bump 0x3420 4 1).raise 0xB0D0 0xFF MEM_UNCORRECTABLE (t * 65536 + row) w

theorem scrub_reads (hNext : s.nextScrubRow t = some row) (ecc : Ecc) : s.scrub t ecc = scrubbedAs (s.scrubAdvance t row) t row ecc := by
  unfold State.scrub
  generalize s.nextScrubRow t = next at hNext
  subst hNext
  cases ecc with
  | clean => rfl
  | tagCopy => rfl
  | corrected w => rfl
  | uncorrectable w => rfl

theorem scrubRowRead_corrects {w : Nat} (ht : t < 64) (hNext : s.nextScrubRow t = some row) :
    ∃ s2, exec (.scrubRowRead t (.corrected w)) s = .next s2 ∧ (s2.tile t).writeBacks.contains (row, w) = true
      ∧ s2.entry (0x3440 + t) 4 = row ∧ s2.entry (0x3440 + t) 5 = w ∧ (s2.tile t).freeze = (s.tile t).freeze ∧ s2.tag t row = s.tag t row ∧ s2.mem = s.mem := by
  obtain ⟨v, hv⟩ : ∃ v, v = s.scrubAdvance t row := ⟨_, rfl⟩
  have hRead : Scrubbed t row s v := hv ▸ scrubAdvance_reads
  have hScrub : s.scrub t (.corrected w) = (v.correctedRow t row w).bump 0x3420 3 1 := by rw [scrub_reads hNext, ← hv]; rfl
  obtain ⟨_, _, _, _, hvTile⟩ := hRead.tile
  obtain ⟨_, _, hShape⟩ := hRead.shape
  have hTag := (hRead.rows t row).2
  obtain ⟨⟨_, _, hFixed⟩, ⟨l, hTile, hDue⟩, hRow, hWord⟩ := correctedRow_corrects (s := v) (row := row) w ht
  generalize v.correctedRow t row w = x at *
  obtain ⟨y, hy, hyTiles, hyMem, hyEntry⟩ : ∃ y, y = x.bump 0x3420 3 1 ∧ y.tile t = x.tile t ∧ y.mem = x.mem ∧ ∀ i, i < 256 → y.entry (0x3440 + t) i = x.entry (0x3440 + t) i :=
    ⟨_, rfl, rfl, rfl, fun i hi => Laws.entry_setEntry_index _ _ _ _ _ _ (by decide) hi (by omega)⟩
  refine ⟨y, ?_, ?_, (hyEntry 4 (by decide)).trans hRow, (hyEntry 5 (by decide)).trans hWord, ?_, ?_, ?_⟩
  · change execScrubRowRead t (.corrected w) s = _
    rw [execScrubRowRead, Laws.onTile_next ht, hScrub, ← hy]
  · rw [hyTiles, hTile]
    exact hDue
  · rw [hyTiles, hTile, hvTile]
  · rw [State.tag, hyTiles, hTile]
    exact hTag
  · rw [hyMem, hFixed, hShape]

theorem scrubRowRead_poisons {w : Nat} (ht : t < 64) (hNext : s.nextScrubRow t = some row) :
    ∃ s2, exec (.scrubRowRead t (.uncorrectable w)) s = .next s2 ∧ s2.tag t row = .poison
      ∧ s2.entry (0x3440 + t) 4 = row ∧ s2.entry (0x3440 + t) 5 = w ∧ (∀ u r, (u, r) ≠ (t, row) → s2.tag u r = s.tag u r) ∧ s2.mem = s.mem := by
  obtain ⟨v, hv⟩ : ∃ v, v = s.scrubAdvance t row := ⟨_, rfl⟩
  have hRead : Scrubbed t row s v := hv ▸ scrubAdvance_reads
  have hScrub : s.scrub t (.uncorrectable w)
      = ((v.uncorrectableRow t row w).bump 0x3420 4 1).raise 0xB0D0 0xFF MEM_UNCORRECTABLE (t * 65536 + row) w := by rw [scrub_reads hNext, ← hv]; rfl
  obtain ⟨_, _, hShape⟩ := hRead.shape
  have hTags (k r : Nat) := (hRead.rows k r).2
  obtain ⟨⟨_, _, hMarked⟩, hTag, hRow, hWord⟩ := uncorrectableRow_poisons (s := v) (row := row) w ht
  generalize v.uncorrectableRow t row w = x at *
  obtain ⟨y, hy, hyTile, hyMem, hyEntry⟩ : ∃ y, y = x.bump 0x3420 4 1 ∧ (∀ k, y.tile k = x.tile k) ∧ y.mem = x.mem ∧ ∀ i, i < 256 → y.entry (0x3440 + t) i = x.entry (0x3440 + t) i :=
    ⟨_, rfl, fun _ => rfl, rfl, fun i hi => Laws.entry_setEntry_index _ _ _ _ _ _ (by decide) hi (by omega)⟩
  rw [← hy] at hScrub
  have hFrame := (EventFrame.refl y).raise 0xB0D0 0xFF MEM_UNCORRECTABLE (t * 65536 + row) w
  have hEnd (k r : Nat) : (y.raise 0xB0D0 0xFF MEM_UNCORRECTABLE (t * 65536 + row) w).tag k r = if k = t ∧ r = row then .poison else s.tag k r := by
    rw [State.tag, hFrame.tile, hyTile, ← hTags]
    exact hTag k r
  refine ⟨_, ?_, (hEnd t row).trans (if_pos ⟨rfl, rfl⟩), ?_, ?_, fun k r hkr => (hEnd k r).trans (if_neg fun h => hkr (by rw [h.1, h.2])),
    hFrame.mem.trans (by rw [hyMem, hMarked, hShape])⟩
  · change execScrubRowRead t (.uncorrectable w) s = _
    rw [execScrubRowRead, Laws.onTile_next ht, hScrub]
  · rw [entry_raise (by decide) (by omega) (by omega) (by omega), hyEntry 4 (by decide), hRow]
  · rw [entry_raise (by decide) (by omega) (by omega) (by omega), hyEntry 5 (by decide), hWord]

theorem scrubRowRead_advances (ht : t < 64) (hNext : s.nextScrubRow t = some row) :
    ∃ s2, exec (.scrubRowRead t .clean) s = .next s2 ∧ (s2.tile t).scrubRow = (row + 1) % 3072
      ∧ (∀ u r, s2.rowData u r = s.rowData u r ∧ s2.tag u r = s.tag u r) ∧ s2.mem = s.mem := by
  have hRead : Scrubbed t row s (s.scrubAdvance t row) := scrubAdvance_reads
  obtain ⟨_, _, hShape⟩ := hRead.shape
  have hScrub : s.scrub t .clean = s.scrubAdvance t row := scrub_reads hNext .clean
  refine ⟨_, ?_, hRead.place, hRead.rows, by rw [hShape]⟩
  change execScrubRowRead t .clean s = _
  rw [execScrubRowRead, Laws.onTile_next ht, hScrub]

end Rows

/-- Settles O38: narrow accesses, the tag command, verify reads, write-backs and scrubbing, each by what it leaves of rows and tags. -/
theorem rowsAndNarrowView : Obligations.RowsAndNarrowView := by
  unfold Obligations.RowsAndNarrowView
  exact ⟨fun _ _ _ _ => narrowRead_answers, fun _ _ _ _ _ => narrowWrite_writes, fun _ _ _ _ _ => rowTagClear_clears, fun _ _ _ => rowVerifyRead_passes,
    fun _ _ _ _ _ => rowVerifyRead_fails, fun _ _ _ _ _ => rowVerifyRead_failsKey, fun _ _ _ _ => rowEccWriteBack_retires,
    fun _ _ _ ht hNext => ⟨scrubRowRead_advances ht hNext, fun _ => scrubRowRead_corrects ht hNext, fun _ => scrubRowRead_poisons ht hNext⟩⟩

end Sys2Proof.Proofs
end

section
/-! PROOFS. Requests of a memory stack, refresh, patrol and the stacks' modes (R277-R298). -/

namespace Sys2Proof.Proofs
open Sys2Proof.Machine

section Stacks

variable {s u : State} {k a n src ep : Nat}

/-! ### Requests of one granule -/

/-- A range within one granule is one part. -/
theorem granules_one (hn : 0 < n) (hFit : a % 256 + n ≤ 256) : granules a n = [(a, n)] := by
  have hCount : (a + n - 1) / 256 - a / 256 + 1 = 1 := by omega
  unfold granules
  rw [if_neg (by omega), hCount]
  simp only [List.range_one, List.map_cons, List.map_nil, Nat.add_zero]
  have hLow : max a (a / 256 * 256) = a := by omega
  have hHigh : min (a + n) ((a / 256 + 1) * 256) = a + n := by omega
  rw [hLow, hHigh, Nat.add_sub_cancel_left]

theorem requestInBlock_one {w : Option (List Byte)} (hn : 0 < n) (hFit : a % 256 + n ≤ 256) :
    requestInBlock { source := src, address := a, length := n, write := w, epoch := ep } = true := by
  simp only [requestInBlock, Bool.and_eq_true, decide_eq_true_eq]
  omega

/-- A stack that a request reaches (R298). -/
structure Touched (k : Nat) (s u : State) : Prop where
  shape : ∃ d q, u = { s with dict := d, sorters := q }
  entries : ∀ i l, l < 256 → i < 0x3040 ∨ 0x3048 ≤ i → u.entry i l = s.entry i l
  sorter : u.sorter k = { s.sorter k with lastRequest := s.now }

theorem touchStack_touches (hk : k < 8) : Touched k s (s.touchStack k) where
  shape := ((TouchFrame.refl s).touchStack hk).shape
  entries := ((TouchFrame.refl s).touchStack hk).entries
  sorter := by
    unfold State.touchStack
    dsimp only
    split
    · exact Laws.tab_get_put_same ..
    · exact Laws.tab_get_put_same ..

/-- Where an address lies rests on StackMode alone (R279). -/
theorem mapAddress_congr (h : u.entry 0x3010 1 = s.entry 0x3010 1) (a : Nat) : u.mapAddress a = s.mapAddress a := by
  have hLinear : u.stackLinear = s.stackLinear := by
    funext j
    unfold State.stackLinear
    rw [h]
  have hHashed : u.hashedStacks = s.hashedStacks := by
    unfold State.hashedStacks
    rw [hLinear]
  unfold State.mapAddress
  rw [hLinear, hHashed]

/-- A write changes memory and the marks of its words alone. -/
theorem memWrite_shape (a : Nat) (bs : List Byte) : ∃ m p e, s.memWrite a bs = { s with mem := m, wordPoison := p, wordEpoch := e } := by
  have hZero (l : List Nat) : ∀ s : State, ∃ m, l.foldl State.zeroPoisoned s = { s with mem := m } := by
    induction l with
    | nil => exact fun s => ⟨_, rfl⟩
    | cons w l ih =>
      intro s
      have hOne : ∃ m, s.zeroPoisoned w = { s with mem := m } := by
        unfold State.zeroPoisoned
        split
        · exact putBytes_shape _ _
        · exact ⟨_, rfl⟩
      obtain ⟨m, hm⟩ := hOne
      obtain ⟨m', hm'⟩ := ih (s.zeroPoisoned w)
      exact ⟨m', by rw [List.foldl_cons, hm', hm]⟩
  have hStamp (l : List Nat) : ∀ s : State, ∃ p e, l.foldl State.stampWord s = { s with wordPoison := p, wordEpoch := e } := by
    induction l with
    | nil => exact fun s => ⟨_, _, rfl⟩
    | cons w l ih =>
      intro s
      obtain ⟨p, e, h⟩ := ih (s.stampWord w)
      exact ⟨p, e, by rw [List.foldl_cons, h]; rfl⟩
  obtain ⟨m, hm⟩ := hZero (wordsOf a bs.length) s
  obtain ⟨m', hm'⟩ := putBytes_shape (s := { s with mem := m }) a bs
  obtain ⟨p, e, hp⟩ := hStamp (wordsOf a bs.length) { s with mem := m' }
  refine ⟨m', p, e, ?_⟩
  unfold State.memWrite
  dsimp only
  rw [hm, hm', hp]

/-- One granule enters an empty sorter, with the bytes that a read of it finds (R288). -/
theorem enterGranule_enters {id : Nat} {r : MemReq} (hEmpty : (s.sorter k).entries = []) :
    ∃ d q, s.enterGranule k id r (a, n) = { s with dict := d, sorters := q }
      ∧ ((s.enterGranule k id r (a, n)).sorter k).entries.map (fun e => (e.source, e.address, e.length, e.data))
        = [(r.source, a, n, if r.write.isSome then [] else s.memBytes a n)] := by
  unfold State.enterGranule
  dsimp only
  rw [hEmpty, List.any_nil, Bool.and_false, if_neg Bool.false_ne_true, List.nil_append]
  refine ⟨_, _, rfl, ?_⟩
  change (State.sorter (State.setSorter s k _) k).entries.map _ = _
  rw [State.setSorter, State.sorter, Laws.tab_get_put_same, List.map_cons, List.map_nil]

/-- A request of one granule once it has an entry, and once its bytes are written where it is a write. -/
def arrived (k a n : Nat) (r : MemReq) (s : State) : Option (List Byte) → State
  | none => s.enterGranule k (s.sorter k).nextOrder r (a, n)
  | some d => (s.enterGranule k (s.sorter k).nextOrder r (a, n)).memWrite a (sliceBytes d 0 n)

/-- A request of one granule that arrives at an empty sorter takes an entry; a write is in memory from then on (R285, R286, R288). -/
theorem arriveRequest_enters {w : Option (List Byte)} {r : MemReq} (hr : r = { source := src, address := a, length := n, write := w, epoch := ep })
    (hn : 0 < n) (hFit : a % 256 + n ≤ 256) (hMap : (s.mapAddress a).1 = k) (hEntries : (s.sorter k).entries = []) (hQueue : (s.sorter k).inputQueue = [])
    (hCapped : (s.sorter k).capped = []) (hImage : s.writesImage r = false) :
    s.arriveRequest k r = arrived k a n r s w := by
  have hParts : s.partsAt k r = [(a, n)] := by
    rw [State.partsAt, hr]
    dsimp only
    rw [granules_one hn hFit, List.filter_cons, if_pos (decide_eq_true hMap), List.filter_nil]
  have hCap : s.capAllows k (s.sorter k).capped r = true := by
    unfold State.capAllows
    rw [hParts, hCapped]
    simp [Sorter.held, hEntries]
  unfold State.arriveRequest State.placeRequest State.enterRequest
  dsimp only
  rw [hCap, hQueue, hEntries, hParts, hImage]
  subst hr
  cases w with
  | none => rfl
  | some d =>
    dsimp only
    rw [List.foldl_cons, List.foldl_nil, List.foldl_cons, List.foldl_nil, Nat.sub_self]
    rfl

section Requests

variable (hk : k < 8) (hn : 0 < n) (hFit : a % 256 + n ≤ 256) (hIn : inStack a n = true) (hMap : (s.mapAddress a).1 = k) (hFew : s.inFlight src < 48)
  (hEntries : (s.sorter k).entries = []) (hQueue : (s.sorter k).inputQueue = []) (hCapped : (s.sorter k).capped = [])
include hk hn hFit hIn hMap hFew hEntries hQueue hCapped

/-- A request that a controller takes reaches its stack and then arrives at its sorter. -/
theorem memRequest_arrives {w : Option (List Byte)} {r : MemReq} (hr : r = { source := src, address := a, length := n, write := w, epoch := ep })
    (hLate : s.lateMessage r = false) (hImage : s.writesImage r = false) :
    ∃ v, Touched k s v ∧ exec (.memRequest k r) s = .next (v.arriveRequest k r) ∧ v.arriveRequest k r = arrived k a n r v w := by
  have hTouched := touchStack_touches (s := s) hk
  have hBlock : requestInBlock r = true := by rw [hr]; exact requestInBlock_one hn hFit
  have hArrives : s.memRequest k r = (s.touchStack k).arriveRequest k r := by
    unfold State.memRequest
    rw [hLate, hBlock, hImage, show inStack r.address r.length = true by rw [hr]; exact hIn, show r.source = src by rw [hr], if_neg (by decide), if_neg (by decide),
      if_neg (by decide), if_neg (by omega)]
  obtain ⟨_, _, hShape⟩ := hTouched.shape
  refine ⟨_, hTouched, ?_, ?_⟩
  · change execMemRequest k r s = _
    rw [execMemRequest, Laws.onStack_next hk, hArrives]
  · exact arriveRequest_enters hr hn hFit ((congrArg Prod.fst (mapAddress_congr (hTouched.entries 0x3010 1 (by decide) (by decide)) a)).trans hMap)
      (by rw [hTouched.sorter]; exact hEntries) (by rw [hTouched.sorter]; exact hQueue) (by rw [hTouched.sorter]; exact hCapped)
      (by rw [← hImage, hShape]; rfl)

theorem memRequest_reads {r : MemReq} (hr : r = { source := src, address := a, length := n, write := none, epoch := ep }) (hLate : s.lateMessage r = false) :
    ∃ s2, exec (.memRequest k r) s = .next s2 ∧ s2.mem = s.mem ∧ s2.out = s.out
      ∧ (s2.sorter k).entries.map (fun e => (e.source, e.address, e.length, e.data)) = [(src, a, n, s.memBytes a n)] := by
  obtain ⟨v, hTouched, hExec, hArrives⟩ := memRequest_arrives hk hn hFit hIn hMap hFew hEntries hQueue hCapped hr hLate (by rw [hr]; rfl)
  obtain ⟨d, q, hEnters, hEntry⟩ := enterGranule_enters (s := v) (k := k) (a := a) (n := n) (id := (v.sorter k).nextOrder) (r := r) (by rw [hTouched.sorter]; exact hEntries)
  obtain ⟨d', q', hShape⟩ := hTouched.shape
  refine ⟨_, hExec, ?_⟩
  rw [hArrives, arrived]
  refine ⟨by rw [hEnters, hShape], by rw [hEnters, hShape], hEntry.trans ?_⟩
  rw [hShape, hr]
  rfl

theorem memRequest_writes {d : List Byte} {r : MemReq} (hr : r = { source := src, address := a, length := n, write := some d, epoch := ep })
    (hLate : s.lateMessage r = false) (hd : d.length = n) (hClean : s.rangePoisoned a n = false) (hPlain : s.inImage a n = false) :
    ∃ s2, exec (.memRequest k r) s = .next s2 ∧ s2.memBytes a n = d ∧ (∀ x, ¬(a ≤ x ∧ x < a + n) → s2.memByte x = s.memByte x) ∧ s2.tiles = s.tiles ∧ s2.out = s.out := by
  have hImage : s.writesImage r = false := by
    rw [hr, State.writesImage, Option.any_some]
    dsimp only
    rw [hd, Nat.max_self, hPlain]
  obtain ⟨v, hTouched, hExec, hArrives⟩ := memRequest_arrives hk hn hFit hIn hMap hFew hEntries hQueue hCapped hr hLate hImage
  obtain ⟨d', q, hEnters, -⟩ := enterGranule_enters (s := v) (k := k) (a := a) (n := n) (id := (v.sorter k).nextOrder) (r := r) (by rw [hTouched.sorter]; exact hEntries)
  obtain ⟨d'', q', hShape⟩ := hTouched.shape
  have hAll : sliceBytes d 0 n = d := by
    refine List.ext_getElem (by simp [sliceBytes, hd]) fun i h1 h2 => ?_
    simp [sliceBytes, List.getElem?_eq_getElem h2]
  refine ⟨_, hExec, ?_⟩
  rw [hArrives, arrived, hAll]
  obtain ⟨w, hw, hClean', hByte, hTiles, hOut⟩ : ∃ w, w = v.enterGranule k (v.sorter k).nextOrder r (a, n) ∧ w.rangePoisoned a d.length = false
      ∧ (∀ x, w.memByte x = s.memByte x) ∧ w.tiles = s.tiles ∧ w.out = s.out := by
    refine ⟨_, rfl, ?_⟩
    rw [hEnters, hShape, hd]
    exact ⟨hClean, fun _ => rfl, rfl, rfl⟩
  rw [← hw]
  obtain ⟨m, p, e, hWrite⟩ := memWrite_shape (s := w) a d
  refine ⟨by rw [← hd]; exact Laws.memBytes_memWrite _ _ hClean', fun x hx => ?_, by rw [hWrite]; exact hTiles, by rw [hWrite]; exact hOut⟩
  rw [Laws.memByte_memWrite _ _ _ hClean', hd, if_neg hx, hByte]

end Requests

theorem memRequest_refused {r : MemReq} (hk : k < 8) (hLate : s.lateMessage r = false) (hBlock : requestInBlock r = true)
    (hBad : inStack r.address r.length = false ∨ s.writesImage r = true) :
    exec (.memRequest k r) s = .next (s.emit (.memory r.source r.address ACCESS_PROTECT [])) := by
  have hRefused : (!inStack r.address r.length || s.writesImage r) = true := by
    rcases hBad with h | h
    · rw [h]; rfl
    · rw [h, Bool.or_true]
  change execMemRequest k r s = _
  rw [execMemRequest, Laws.onStack_next hk, State.memRequest, hLate, hBlock, if_neg (by decide), if_neg (by decide), if_pos hRefused, State.refuseRequest]

theorem memRequest_late {r : MemReq} (hk : k < 8) (hLate : s.lateMessage r = true) : exec (.memRequest k r) s = .next (s.bump 0xB190 5 1) := by
  change execMemRequest k r s = _
  rw [execMemRequest, Laws.onStack_next hk, State.memRequest, if_pos hLate]

/-! ### A bank's service and its refresh -/

theorem drainSorter_none (hQueue : (s.sorter k).inputQueue = []) (hCapped : (s.sorter k).capped = []) :
    ∃ q, s.drainSorter k = { s with sorters := q } ∧ ((s.drainSorter k).sorter k).entries = (s.sorter k).entries := by
  have hDrain : s.drainQueue k [] = s.setSorter k { s.sorter k with inputQueue := [] } := rfl
  have hSame : (s.setSorter k { s.sorter k with inputQueue := [] }).sorter k = { s.sorter k with inputQueue := [] } := Laws.tab_get_put_same ..
  unfold State.drainSorter
  dsimp only
  rw [hQueue, hDrain, hSame, hCapped]
  refine ⟨_, rfl, ?_⟩
  change (State.sorter (State.setSorter _ k { (s.setSorter k { s.sorter k with inputQueue := [] }).sorter k with capped := [] }) k).entries = _
  rw [State.setSorter, State.sorter, Laws.tab_get_put_same, hSame]

theorem bankService_serves {channel bank : Nat} {e : SorterEntry} (hk : k < 8) (hQueue : (s.sorter k).inputQueue = []) (hCapped : (s.sorter k).capped = [])
    (hNext : (s.sorter k).nextOf channel bank = some e) (hRead : e.write = none) (hClean : e.poisoned = false) (hFree : s.refreshing k channel bank = false) :
    ∃ s2, exec (.bankService k channel bank .clean) s = .next s2 ∧ s2.out = s.out ++ [.memory e.source e.address OK e.data]
      ∧ (∀ x ∈ (s2.sorter k).entries, x.order ≠ e.order) ∧ s2.mem = s.mem ∧ s2.tiles = s.tiles := by
  obtain ⟨v, hv, hvSorter, hvOut, hvMem, hvTiles⟩ : ∃ v, v = (s.setSorter k ((s.sorter k).serve e)).serveRead e .clean ∧ v.sorter k = (s.sorter k).serve e
      ∧ v.out = s.out ++ [.memory e.source e.address OK e.data] ∧ v.mem = s.mem ∧ v.tiles = s.tiles := by
    refine ⟨_, rfl, ?_, ?_, rfl, rfl⟩
    · exact Laws.tab_get_put_same ..
    · simp only [State.serveRead, State.applyEcc, hClean, Bool.false_eq_true, if_false, if_true]
      rfl
  have hServe : s.serveBank k channel bank .clean = v.drainSorter k := by
    unfold State.serveBank
    rw [hFree, hNext]
    dsimp only
    rw [hRead]
    dsimp only
    rw [← hv, if_neg Bool.false_ne_true]
  obtain ⟨q, hDrain, hLeft⟩ := drainSorter_none (s := v) (k := k) (by rw [hvSorter]; exact hQueue) (by rw [hvSorter]; exact hCapped)
  refine ⟨v.drainSorter k, ?_, by rw [hDrain]; exact hvOut, fun x hx => ?_, by rw [hDrain]; exact hvMem, by rw [hDrain]; exact hvTiles⟩
  · change execBankService k channel bank .clean s = _
    rw [execBankService, Laws.onStack_next hk, hServe]
  · rw [hLeft, hvSorter, Sorter.serve, List.mem_map] at hx
    obtain ⟨y, hy, rfl⟩ := hx
    rw [List.mem_filter, decide_eq_true_eq] at hy
    split
    · exact hy.2
    · exact hy.2

theorem bankRefresh_holds {channel bank : Nat} {ecc : Ecc} (hk : k < 8) :
    ∃ s2, exec (.bankRefresh k channel bank) s = .next s2 ∧ s2.mem = s.mem ∧ (s2.sorter k).entries = (s.sorter k).entries
      ∧ exec (.bankService k channel bank ecc) s2 = .next s2 := by
  obtain ⟨v, hv, hSorter, hNow⟩ : ∃ v, v = s.setSorter k { s.sorter k with refreshed := Tab.put (s.sorter k).refreshed (32 * channel + bank) s.now }
      ∧ v.sorter k = { s.sorter k with refreshed := Tab.put (s.sorter k).refreshed (32 * channel + bank) s.now } ∧ v.now = s.now := ⟨_, rfl, Laws.tab_get_put_same .., rfl⟩
  have hBusy : v.refreshing k channel bank = true := by
    rw [State.refreshing, hSorter]
    dsimp only
    rw [Laws.tab_get?_put_same, Option.any_some, hNow, decide_eq_true_eq]
    omega
  refine ⟨v, ?_, by rw [hv]; rfl, by rw [hSorter], ?_⟩
  · change execBankRefresh k channel bank s = _
    rw [execBankRefresh, Laws.onStack_next hk, hv]
  · change execBankService k channel bank ecc v = _
    rw [execBankService, Laws.onStack_next hk, State.serveBank, if_pos hBusy]

theorem stackEccWriteBack_writes {w : Nat} {rest : List Nat} (h : s.stackWriteBacks = w :: rest) :
    ∃ s2, exec .stackEccWriteBack s = .next s2 ∧ s2.stackWriteBacks = rest ∧ s2.mem = s.mem ∧ s2.wordPoison = s.wordPoison := by
  have hExec : exec .stackEccWriteBack s = .next (State.countWrite { s with stackWriteBacks := rest } (32 * w) 32) := by
    change execStackEccWriteBack s = _
    unfold execStackEccWriteBack
    rw [h]
  exact ⟨_, hExec, rfl, rfl, rfl⟩

/-! ### Patrol and self-refresh -/

theorem poisonWord_poisons (w : Nat) : (s.poisonWord w).wordPoisoned w = true ∧ ∃ p, s.poisonWord w = { s with wordPoison := p } := by
  unfold State.poisonWord State.wordPoisoned
  split
  · next h => exact ⟨by rw [h]; rfl, _, rfl⟩
  · exact ⟨by rw [List.contains_cons, beq_self_eq_true]; rfl, _, rfl⟩

theorem uncorrectableWord_poisons (w : Nat) : (s.uncorrectableWord w).mem = s.mem ∧ (s.uncorrectableWord w).wordPoisoned w = true := by
  obtain ⟨hPoisoned, p, hp⟩ := poisonWord_poisons (s := s) w
  unfold State.uncorrectableWord
  dsimp only
  obtain ⟨x, d, hx, hd⟩ : ∃ x d, x = ((s.poisonWord w).bump (0x3040 + (s.mapAddress (32 * w)).1) 9 1).setEntry (0x3040 + (s.mapAddress (32 * w)).1) 0x0A (32 * w)
      ∧ x = { s.poisonWord w with dict := d } := ⟨_, _, rfl, rfl⟩
  rw [← hx]
  have hFrame := (EventFrame.refl x).raise 0xB0D2 0xFF MEM_UNCORRECTABLE (32 * w) ((s.mapAddress (32 * w)).1 * 256 + (s.mapAddress (32 * w)).2.1)
  refine ⟨hFrame.mem.trans (by rw [hd, hp]), ?_⟩
  obtain ⟨_, _, _, _, _, _, _, e⟩ := hFrame
  rw [e, hd]
  exact hPoisoned

theorem patrolScrub_reads {channel : Nat} {ecc : Ecc} (hk : k < 8) (hAwake : s.entry (0x3040 + k) 1 = 0)
    (hFree : ((s.sorter k).entries.any fun e => e.channel = channel) = false)
    (hAt : s.granuleAddress k channel (Tab.get (s.sorter k).patrol 0 channel) = some a) :
    ∃ v : State, exec (.patrolScrub k channel ecc) s = .next (v.applyEcc a ecc) ∧ v.mem = s.mem ∧ v.wordPoison = s.wordPoison
      ∧ Tab.get (v.sorter k).patrol 0 channel = (Tab.get (s.sorter k).patrol 0 channel + 1) % 1572864 := by
  obtain ⟨i, hi⟩ : ∃ i, i = Tab.get (s.sorter k).patrol 0 channel := ⟨_, rfl⟩
  rw [← hi] at hAt
  obtain ⟨v, hv, hSorter, hMem, hPoison, hAddress⟩ : ∃ v, v = s.setSorter k { s.sorter k with patrol := Tab.put (s.sorter k).patrol channel ((i + 1) % 1572864) }
      ∧ v.sorter k = { s.sorter k with patrol := Tab.put (s.sorter k).patrol channel ((i + 1) % 1572864) } ∧ v.mem = s.mem ∧ v.wordPoison = s.wordPoison
      ∧ v.granuleAddress k channel i = s.granuleAddress k channel i := ⟨_, rfl, Laws.tab_get_put_same .., rfl, rfl, rfl⟩
  rw [hAt] at hAddress
  refine ⟨v, ?_, hMem, hPoison, ?_⟩
  · have hPatrol : s.patrol k channel ecc = v.applyEcc a ecc := by
      unfold State.patrol
      dsimp only
      rw [if_neg (by rw [hAwake, hFree]; simp), ← hi, ← hv, hAddress]
    change execPatrolScrub k channel ecc s = _
    rw [execPatrolScrub, Laws.onStack_next hk, hPatrol]
  · rw [hSorter, ← hi]
    exact Laws.tab_get_put_same ..

section Patrol

variable {channel : Nat} (hk : k < 8) (hAwake : s.entry (0x3040 + k) 1 = 0) (hFree : ((s.sorter k).entries.any fun e => e.channel = channel) = false)
  (hAt : s.granuleAddress k channel (Tab.get (s.sorter k).patrol 0 channel) = some a)
include hk hAwake hFree hAt

theorem patrolScrub_cleanRead : ∃ s2, exec (.patrolScrub k channel .clean) s = .next s2 ∧ s2.mem = s.mem ∧ s2.wordPoison = s.wordPoison
    ∧ Tab.get (s2.sorter k).patrol 0 channel = (Tab.get (s.sorter k).patrol 0 channel + 1) % 1572864 :=
  patrolScrub_reads hk hAwake hFree hAt

theorem patrolScrub_poisons {w : Nat} : ∃ s2, exec (.patrolScrub k channel (.uncorrectable w)) s = .next s2 ∧ s2.mem = s.mem ∧ s2.wordPoisoned (a / 32 + w) = true := by
  obtain ⟨v, hExec, hMem, -, -⟩ := patrolScrub_reads (ecc := .uncorrectable w) hk hAwake hFree hAt
  obtain ⟨hKept, hPoisoned⟩ := uncorrectableWord_poisons (s := v) (a / 32 + w)
  exact ⟨_, hExec, hKept.trans hMem, hPoisoned⟩

end Patrol

theorem selfRefreshEntry_enters (hk : k < 8) : exec (.selfRefreshEntry k) s = .next (if s.mayRefresh k then s.setEntry (0x3040 + k) 1 1 else s) :=
  Laws.onStack_next hk

theorem selfRefreshPatrolWake_wakes (hk : k < 8) (hAsleep : s.entry (0x3040 + k) 1 = 1)
    (hDue : (s.sorter k).patrolAt + 3600000000000 * (s.sorter k).patrolHours ≤ s.now) :
    ∃ s2, exec (.selfRefreshPatrolWake k) s = .next s2 ∧ (s2.sorter k).patrolAt = s.now ∧ (s2.sorter k).patrol = [] ∧ s2.entry (0x3040 + k) 1 = 0
      ∧ (s2.sorter k).passUntil = s.now + 15800000 ∧ s2.mayRefresh k = false ∧ s2.mem = s.mem ∧ s2.wordPoison = s.wordPoison := by
  obtain ⟨v, hv, hSorter, hNow, hEntry, hMem, hPoison⟩ : ∃ v, v = (s.setSorter k { s.sorter k with
        patrolAt := s.now, patrol := [], patrolHours := s.entry 0x3010 3, passUntil := s.now + 15800000 }).setEntry (0x3040 + k) 1 0
      ∧ v.sorter k = { s.sorter k with patrolAt := s.now, patrol := [], patrolHours := s.entry 0x3010 3, passUntil := s.now + 15800000 }
      ∧ v.now = s.now ∧ v.entry (0x3040 + k) 1 = 0 ∧ v.mem = s.mem ∧ v.wordPoison = s.wordPoison :=
    ⟨_, rfl, Laws.tab_get_put_same .., rfl, Laws.entry_setEntry_same .., rfl, rfl⟩
  refine ⟨v, ?_, by rw [hSorter], by rw [hSorter], hEntry, by rw [hSorter], ?_, hMem, hPoison⟩
  · change execSelfRefreshPatrolWake k s = _
    rw [execSelfRefreshPatrolWake, Laws.onStack_next hk]
    dsimp only
    rw [if_pos ⟨hAsleep, hDue⟩, hv]
  · have hPass : decide ((v.sorter k).passUntil ≤ v.now) = false := by
      rw [hSorter, hNow, decide_eq_false_iff_not]
      dsimp only
      omega
    rw [State.mayRefresh, hPass, Bool.and_false]

/-! ### StackMode -/

/-- A value in range for an entry that persists: it leaves for Fumarole, and takes effect (R33, R35). -/
theorem writeEntry_stored {ctx i v : Nat} {sub : Nat} {r : EntryRow} {op : State → Nat × State} (h : Safety.direct s ctx = true) (hRow : lookupEntry i sub = some r)
    (hContent : r.ty.isContent = false) (hAcc : r.acc = .rw ∨ r.acc = .rws) (hCls : r.cls ≠ .epoch)
    (hPlaces : isContextLocal i sub = false ∧ isFieldServed i = false ∧ tileOf i = none) (hIndex : i ∉ [0x9030, 0x1038, 0x9200, 0x9210])
    (hRange : s.rangeRefusal r i sub v = none) (hStopped : r.cls = .stopped → s.unitStopped i sub = true) :
    s.writeEntry ctx i sub v op = (op (s.storePersistent ctx i sub v)).2.record ctx i sub (op (s.storePersistent ctx i sub v)).1 := by
  obtain ⟨hServed, -⟩ := Laws.direct_parts h
  obtain ⟨hLocal, hField, hTile⟩ := hPlaces
  simp only [List.mem_cons, List.not_mem_nil, or_false, not_or] at hIndex
  obtain ⟨h1, h2, h3, h4⟩ := hIndex
  have hState := Laws.stateRefusal_served (sub := sub) true hServed h3 h4
  have hCross : crosses ctx i = false := by simp [crosses, hField]
  have hTake : State.takeWrite (slotWrite ctx i sub v) i sub v op s = op (s.storePersistent ctx i sub v) := if_neg (by rw [show (slotWrite ctx i sub v).ctx = ctx from rfl, hCross]; decide)
  rw [Laws.writeEntry_served hServed hRow (by rw [hTile]; rfl)]
  rw [Laws.decideWrite_value h hContent hAcc ⟨h1, h2⟩ hRange hState hLocal hCls hStopped, hTake]

theorem stackMode_row : ∃ r, lookupEntry 0x3010 1 = some r ∧ r.ty = .u8 ∧ r.acc = .rws ∧ r.cls = .stopped ∧ r.min = 0 ∧ r.max = 255 ∧ r.index = 0x3010 :=
  ⟨(lookupEntry 0x3010 1).get (by decide), by simp, by decide, by decide, by decide, by decide, by decide, by decide⟩

/-- Entries whose addresses pass a test are what a filtered table lists. -/
theorem tab_get?_filter {α : Type} {p : Nat → Bool} {x : Nat} (hx : p x = true) (m : Tab α) : Tab.get? (m.filter fun c => p c.1) x = Tab.get? m x := by
  induction m with
  | nil => rfl
  | cons c m ih =>
    rw [List.filter_cons]
    by_cases hc : c.1 = x
    · rw [if_pos (by rw [hc]; exact hx)]
      unfold Tab.get?
      rw [if_pos hc, if_pos hc]
    · have hSkip (l : Tab α) : Tab.get? (c :: l) x = Tab.get? l x := if_neg hc
      split
      · rw [hSkip, hSkip, ih]
      · rw [hSkip, ih]

/-- A byte of memory is what its list holds, or what its window reads as. -/
theorem memByte_of_lists {x : Nat} (hMem : Tab.get? u.mem x = Tab.get? s.mem x)
    (hWindow : Tab.get? u.memUndefined (x / stackWindow) = Tab.get? s.memUndefined (x / stackWindow)) : u.memByte x = s.memByte x := by
  unfold State.memByte State.unlistedByte Tab.get
  rw [hMem, hWindow]

/-- What StackMode leaves of memory: the bytes of windows that stay stack-linear (R281). -/
theorem applyStackMode_keeps (v : Nat) : (s.applyStackMode v).entry 0x3010 1 = v
    ∧ (∀ a, (bit v (a / stackWindow) = true ∧ bit (s.entry 0x3010 1) (a / stackWindow) = true ∨ v = s.entry 0x3010 1) → (s.applyStackMode v).memByte a = s.memByte a)
    ∧ (s.applyStackMode v).tiles = s.tiles ∧ (s.applyStackMode v).jobs = s.jobs ∧ (s.applyStackMode v).contexts = s.contexts := by
  unfold State.applyStackMode
  dsimp only
  split
  · next h => exact ⟨h.symm, fun _ _ => rfl, rfl, rfl, rfl⟩
  · next hNew =>
    refine ⟨Laws.entry_setEntry_same .., fun a ha => ?_, rfl, rfl, rfl⟩
    obtain ⟨hBit, hOld⟩ := ha.resolve_right hNew
    generalize hHit : ((List.range 8).filter fun j => !bit v j || bit v j ≠ bit (s.entry 0x3010 1) j) = hit
    have hOut : a / stackWindow ∉ hit := fun hIn => by
      rw [← hHit, List.mem_filter, hBit, hOld] at hIn
      exact absurd hIn.2 (by decide)
    have hUndefined : ∀ l : List Nat, a / stackWindow ∉ l → ∀ m : Tab Nat, Tab.get? (l.foldl (fun (m : Tab Nat) j => Tab.put m j s.freeCount) m) (a / stackWindow)
        = Tab.get? m (a / stackWindow) := by
      intro l
      induction l with
      | nil => exact fun _ _ => rfl
      | cons j l ih =>
        intro hl m
        rw [List.foldl_cons, ih (fun h => hl (List.mem_cons_of_mem _ h))]
        exact Laws.tab_get?_put_ne _ _ fun e => hl (by rw [e]; exact List.mem_cons_self)
    have hCell : Tab.get? (s.mem.filter fun c => !hit.contains (c.1 / stackWindow)) a = Tab.get? s.mem a :=
      tab_get?_filter (p := fun x => !hit.contains (x / stackWindow)) (by rw [List.contains_eq_mem, decide_eq_false hOut]; rfl) s.mem
    exact memByte_of_lists hCell (hUndefined hit hOut _)

theorem stackModeWrite_applies {ctx v : Nat} (h : Safety.direct s ctx = true) (hIdle : s.idle = true) (hv : v < 256) :
    ∃ s2, exec (.stackModeWrite ctx (BitVec.ofNat 64 v)) s = .next s2 ∧ s2.entry 0x3010 1 = v ∧ Safety.outcome s2 ctx 0x3010 1 OK
      ∧ (∀ a, (bit v (a / stackWindow) = true ∧ bit (s.entry 0x3010 1) (a / stackWindow) = true ∨ v = s.entry 0x3010 1) → s2.memByte a = s.memByte a)
      ∧ s2.tiles = s.tiles ∧ s2.jobs = s.jobs := by
  obtain ⟨hServed, -⟩ := Laws.direct_parts h
  obtain ⟨-, -, hCtx, -⟩ := Laws.served_parts hServed
  obtain ⟨r, hRow, hTy, hAcc, hCls, hMin, hMax, hIndex⟩ := stackMode_row
  have hU8 : EntryType.u8.max = 255 := rfl
  have hRange : s.rangeRefusal r 0x3010 1 v = none :=
    rangeRefusal_none (by rw [hTy, hU8]; omega) (by omega) (.inl (by rw [hIndex]; decide)) (by simp [State.valueRefusal])
  have hWord : (BitVec.ofNat 64 v).toNat = v := by rw [BitVec.toNat_ofNat, Nat.mod_eq_of_lt (by omega)]
  have hWrite : s.writeEntry ctx 0x3010 1 v (fun s => s.applyEntry ctx 0x3010 1 v) = ((s.storePersistent ctx 0x3010 1 v).applyStackMode v).record ctx 0x3010 1 OK :=
    writeEntry_stored h hRow (by rw [hTy]; rfl) (.inr hAcc) (by rw [hCls]; decide) (by decide) (by decide) hRange fun _ => hIdle
  obtain ⟨w, hw, hEntry, hMem, hUndefined, hTiles, hJobs⟩ : ∃ w, w = s.storePersistent ctx 0x3010 1 v ∧ w.entry 0x3010 1 = s.entry 0x3010 1 ∧ w.mem = s.mem
      ∧ w.memUndefined = s.memUndefined ∧ w.tiles = s.tiles ∧ w.jobs = s.jobs := by
    refine ⟨_, rfl, ?_⟩
    rw [storePersistent_eq]
    exact ⟨rfl, rfl, rfl, rfl, rfl⟩
  rw [← hw] at hWrite
  obtain ⟨hMode, hBytes, hTiles', hJobs', -⟩ := applyStackMode_keeps (s := w) v
  refine ⟨(w.applyStackMode v).record ctx 0x3010 1 OK, ?_, ?_⟩
  · change Host.Outcome.next (s.writeEntry ctx 0x3010 1 (BitVec.ofNat 64 v).toNat fun s => s.applyEntry ctx 0x3010 1 (BitVec.ofNat 64 v).toNat) = _
    rw [hWord, hWrite]
  · generalize w.applyStackMode v = x at *
    rw [Laws.record_eq hCtx _ (by decide) (by decide)]
    refine ⟨hMode, by simp [Safety.outcome], fun a ha => ?_, hTiles'.trans hTiles, hJobs'.trans hJobs⟩
    exact (hBytes a (by rw [hEntry]; exact ha)).trans (memByte_of_lists (by rw [hMem]) (by rw [hUndefined]))

end Stacks

/-- Settles O40: requests, bank service and refresh, patrol, self-refresh and StackMode. -/
theorem stacksServe : Obligations.StacksServe := by
  unfold Obligations.StacksServe
  exact ⟨fun _ _ _ _ _ _ hk hn hFit hIn hMap hLate hFew hEntries hQueue hCapped =>
      ⟨memRequest_reads hk hn hFit hIn hMap hFew hEntries hQueue hCapped rfl hLate,
        fun _ => memRequest_writes hk hn hFit hIn hMap hFew hEntries hQueue hCapped rfl hLate⟩,
    fun _ _ _ => memRequest_refused, fun _ _ _ => memRequest_late, fun _ _ _ _ _ => bankService_serves, fun _ _ _ _ _ => bankRefresh_holds,
    fun _ _ _ => stackEccWriteBack_writes, fun _ _ _ _ _ hk hAwake hFree hAt => ⟨patrolScrub_cleanRead hk hAwake hFree hAt, patrolScrub_poisons hk hAwake hFree hAt⟩,
    fun _ _ => selfRefreshEntry_enters, fun _ _ => selfRefreshPatrolWake_wakes, fun _ _ _ => stackModeWrite_applies⟩

end Sys2Proof.Proofs
end

section
/-! PROOFS. Links train, carry and retransmit, and the router forwards (R301, R303, R317, R324). -/

namespace Sys2Proof.Proofs
open Sys2Proof.Machine

section Links

variable {s u : State} {p l seq node versions v : Nat}

/-- `u` is `s` but for port p: its link state and its entries of 0x4040 + p. -/
structure OwnPort (p : Nat) (s u : State) : Prop where
  shape : ∃ d q, u = { s with dict := d, ports := q }
  entries : ∀ i k, k < 256 → i ≠ 0x4040 + p → u.entry i k = s.entry i k
  others : ∀ k, k ≠ p → u.port k = s.port k

namespace OwnPort

theorem mem (h : OwnPort p s u) : u.mem = s.mem := by obtain ⟨_, _, rfl⟩ := h.shape; rfl
theorem tiles (h : OwnPort p s u) : u.tiles = s.tiles := by obtain ⟨_, _, rfl⟩ := h.shape; rfl
theorem out (h : OwnPort p s u) : u.out = s.out := by obtain ⟨_, _, rfl⟩ := h.shape; rfl
theorem contexts (h : OwnPort p s u) : u.contexts = s.contexts := by obtain ⟨_, _, rfl⟩ := h.shape; rfl

/-- No other port's state changes. -/
theorem state (h : OwnPort p s u) {k : Nat} (hk : k ≠ p) : u.portState k = s.portState k := h.entries _ _ (by decide) (by omega)

theorem refl (s : State) : OwnPort p s s := ⟨⟨_, _, rfl⟩, fun _ _ _ _ => rfl, fun _ _ => rfl⟩

theorem trans {t : State} (h : OwnPort p s t) (h' : OwnPort p t u) : OwnPort p s u where
  shape := by
    obtain ⟨_, _, rfl⟩ := h.shape
    obtain ⟨_, _, rfl⟩ := h'.shape
    exact ⟨_, _, rfl⟩
  entries i k hk hi := (h'.entries i k hk hi).trans (h.entries i k hk hi)
  others k hk := (h'.others k hk).trans (h.others k hk)

theorem setEntry (h : OwnPort p s u) {k : Nat} (hk : k < 256) (x : Nat) : OwnPort p s (u.setEntry (0x4040 + p) k x) :=
  h.trans ⟨⟨_, _, rfl⟩, fun _ _ hl hi => Laws.entry_setEntry_index _ _ _ _ _ _ hk hl hi, fun _ _ => rfl⟩

theorem updPort (h : OwnPort p s u) (f : Port → Port) : OwnPort p s (u.updPort p f) :=
  h.trans ⟨⟨_, _, rfl⟩, fun _ _ _ _ => rfl, fun _ hk => Laws.port_setPort_ne _ _ _ _ hk⟩

end OwnPort

theorem port_updPort (f : Port → Port) : (s.updPort p f).port p = f (s.port p) := Laws.port_setPort_same ..

/-- A port that leaves UP has its new state, and no lane (R302). -/
theorem closePort_closes (state : Nat) : OwnPort p s (s.closePort p state) ∧ (s.closePort p state).portState p = state ∧ ((s.closePort p state).port p).lanes = [] := by
  unfold State.closePort
  dsimp only
  refine ⟨((((OwnPort.refl s).setEntry (by decide) _).setEntry (by decide) _).setEntry (by decide) _).updPort _, ?_, ?_⟩
  · change (((s.setEntry (0x4040 + p) 1 state).setEntry (0x4040 + p) 2 0).setEntry (0x4040 + p) 3 0xFFFF).entry (0x4040 + p) 1 = state
    rw [Laws.entry_setEntry_sub _ _ _ _ _ (by decide), Laws.entry_setEntry_sub _ _ _ _ _ (by decide), Laws.entry_setEntry_same]
  · rw [port_updPort]

theorem startTraining_starts : OwnPort p s (s.startTraining p) ∧ (s.startTraining p).portState p = portTraining ∧ ((s.startTraining p).port p).lanes = []
    ∧ ((s.startTraining p).port p).lastTrain = s.now := by
  obtain ⟨hFrame, hState, hLanes⟩ := closePort_closes (s := s) (p := p) portTraining
  refine ⟨hFrame.updPort _, hState, ?_, ?_⟩
  · rw [State.startTraining, port_updPort]
    exact hLanes
  · rw [State.startTraining, port_updPort]

/-! ### Training -/

theorem trainExchange_trains {tp : Bool} (hp : p < 16) (hEnabled : s.portEnabled p = true) (hState : s.portState p = portTraining) (hNode : node ≠ s.nodeId)
    (hv : s.commonVersion versions = some v) :
    ∃ s2, exec (.trainExchange p node versions tp) s = .next s2 ∧ s2.portState p = portUp ∧ s2.entry (0x4040 + p) 2 = v ∧ s2.entry (0x4040 + p) 3 = node
      ∧ s2.out = s.out ++ [.train p s.nodeId (s.offered.map fun v => 2 ^ v).sum (s.entry 0x4010 7 = p)]
      ∧ (s2.port p).lanes = [] ∧ (s2.port p).peerTimeParent = tp ∧ (∀ k, k ≠ p → s2.portState k = s.portState k ∧ s2.port k = s.port k) ∧ s2.mem = s.mem := by
  obtain ⟨x, hx, hOut, hMem, hEntry, hPort, hv'⟩ : ∃ x, x = s.sendTrain p
      ∧ x.out = s.out ++ [.train p s.nodeId (s.offered.map fun v => 2 ^ v).sum (s.entry 0x4010 7 = p)] ∧ x.mem = s.mem
      ∧ (∀ i k, x.entry i k = s.entry i k) ∧ (∀ k, x.port k = s.port k) ∧ x.commonVersion versions = some v := ⟨_, rfl, rfl, rfl, fun _ _ => rfl, fun _ => rfl, hv⟩
  obtain ⟨y, hy⟩ : ∃ y, y = ((x.setEntry (0x4040 + p) 1 portUp).setEntry (0x4040 + p) 2 v).setEntry (0x4040 + p) 3 node := ⟨_, rfl⟩
  have hFrame : OwnPort p x (y.updPort p fun z => { z with peerTimeParent := tp, lanes := [] }) := by
    rw [hy]
    exact ((((OwnPort.refl x).setEntry (by decide) _).setEntry (by decide) _).setEntry (by decide) _).updPort _
  have hTrain : s.train p node versions tp = y.updPort p fun z => { z with peerTimeParent := tp, lanes := [] } := by
    unfold State.train
    rw [if_neg (by rw [hEnabled, hState]; decide), ← hx]
    dsimp only
    rw [if_neg (fun h => hNode (h.trans (hEntry 0x4010 1))), hv', hy]
  refine ⟨_, ?_, ?_, ?_, ?_, hFrame.out.trans hOut, ?_, ?_, fun k hk => ⟨?_, (hFrame.others k hk).trans (hPort k)⟩, hFrame.mem.trans hMem⟩
  · change execTrainExchange p node versions tp s = _
    rw [execTrainExchange, Laws.onPort_next hp, hTrain]
  · change y.entry (0x4040 + p) 1 = _
    rw [hy, Laws.entry_setEntry_sub _ _ _ _ _ (by decide), Laws.entry_setEntry_sub _ _ _ _ _ (by decide), Laws.entry_setEntry_same]
  · change y.entry (0x4040 + p) 2 = _
    rw [hy, Laws.entry_setEntry_sub _ _ _ _ _ (by decide), Laws.entry_setEntry_same]
  · change y.entry (0x4040 + p) 3 = _
    rw [hy, Laws.entry_setEntry_same]
  · rw [port_updPort]
  · rw [port_updPort]
  · rw [hFrame.state hk, State.portState, hEntry]
    rfl

/-- A training that fails leaves the port DOWN with the cause (R303). -/
theorem trainFail_downs (hp : p < 16) (cause : Nat) : (s.trainFail p cause).portState p = portDown ∧ (s.trainFail p cause).entry (0x4040 + p) 4 = cause
    ∧ (∀ k, k < 16 → k ≠ p → (s.trainFail p cause).portState k = s.portState k) ∧ (s.trainFail p cause).mem = s.mem := by
  obtain ⟨hFrame, hState, -⟩ := closePort_closes (s := s) (p := p) portDown
  obtain ⟨y, hy⟩ : ∃ y, y = ((s.closePort p portDown).updPort p fun x => { x with lastTrain := s.now }).setEntry (0x4040 + p) 4 cause := ⟨_, rfl⟩
  have hOwn : OwnPort p s y := hy ▸ (hFrame.updPort _).setEntry (by decide) _
  have hFail : s.trainFail p cause = y.raise 0xB0E0 0xFF cause p cause := by rw [hy]; rfl
  rw [hFail]
  refine ⟨?_, ?_, fun k hk hkp => ?_, ((EventFrame.refl y).raise ..).mem.trans hOwn.mem⟩
  · rw [State.portState, entry_raise (by decide) (by omega) (by omega) (by omega), hy, Laws.entry_setEntry_sub _ _ _ _ _ (by decide)]
    exact hState
  · rw [entry_raise (by decide) (by omega) (by omega) (by omega), hy, Laws.entry_setEntry_same]
  · rw [State.portState, entry_raise (by decide) (by omega) (by omega) (by omega)]
    exact hOwn.state hkp

theorem trainExchange_fails {tp : Bool} (hp : p < 16) (hEnabled : s.portEnabled p = true) (hState : s.portState p = portTraining)
    (hBad : node = s.nodeId ∨ s.commonVersion versions = none) :
    ∃ s2, exec (.trainExchange p node versions tp) s = .next s2 ∧ s2.portState p = portDown
      ∧ s2.entry (0x4040 + p) 4 = (if node = s.nodeId then STATE_CONFLICT else FABRIC_VERSION)
      ∧ (∀ k, k < 16 → k ≠ p → s2.portState k = s.portState k) ∧ s2.mem = s.mem := by
  have hTrain : s.train p node versions tp = (s.sendTrain p).trainFail p (if node = s.nodeId then STATE_CONFLICT else FABRIC_VERSION) := by
    unfold State.train
    rw [if_neg (by rw [hEnabled, hState]; decide)]
    dsimp only
    by_cases hNode : node = s.nodeId
    · rw [if_pos (show node = (s.sendTrain p).nodeId from hNode), if_pos hNode]
    · have hNone : (s.sendTrain p).commonVersion versions = none := hBad.resolve_left hNode
      rw [if_neg (show ¬node = (s.sendTrain p).nodeId from hNode), if_neg hNode, hNone]
  obtain ⟨hDown, hCause, hOthers, hMem⟩ := trainFail_downs (s := s.sendTrain p) hp (if node = s.nodeId then STATE_CONFLICT else FABRIC_VERSION)
  refine ⟨_, ?_, hDown, hCause, hOthers, hMem⟩
  change execTrainExchange p node versions tp s = _
  rw [execTrainExchange, Laws.onPort_next hp, hTrain]

theorem portRetrain_retries (hp : p < 16) (hEnabled : s.portEnabled p = true) (hAwake : s.deepIdle = false) (hDown : s.portState p ≠ portUp)
    (hDue : (s.port p).lastTrain + 1000000 * s.entry 0x4010 5 ≤ s.now) :
    ∃ s2, exec (.portRetrain p) s = .next s2 ∧ s2.portState p = portTraining ∧ (s2.port p).lanes = [] ∧ (s2.port p).lastTrain = s.now
      ∧ (∀ k, k ≠ p → s2.portState k = s.portState k ∧ s2.port k = s.port k) ∧ s2.mem = s.mem := by
  obtain ⟨hFrame, hState, hLanes, hAt⟩ := startTraining_starts (s := s) (p := p)
  refine ⟨_, ?_, hState, hLanes, hAt, fun k hk => ⟨hFrame.state hk, hFrame.others k hk⟩, hFrame.mem⟩
  change execPortRetrain p s = _
  rw [execPortRetrain, Laws.onPort_next hp, if_pos ⟨hEnabled, by rw [hAwake]; rfl, hDown, hDue⟩]

/-! ### PortEnable -/

/-- What PortEnable makes of a port (R324, R359). -/
def enabledState (s : State) (v p : Nat) : Nat :=
  if bit v p then (if s.portState p = portDisabled ∧ s.deepIdle = false then portTraining else s.portState p) else portDisabled

/-- A write of PortEnable at one port. -/
def enablePort (v : Nat) (s : State) (p : Nat) : State :=
  if bit v p then (if s.portState p = portDisabled ∧ !s.deepIdle then s.startTraining p else s)
  else if s.portState p = portDisabled then s else s.closePort p portDisabled

theorem enablePort_enables : OwnPort p s (enablePort v s p) ∧ (enablePort v s p).portState p = enabledState s v p := by
  unfold enablePort enabledState
  split
  · split
    · next h =>
      obtain ⟨hFrame, hState, -⟩ := startTraining_starts (s := s) (p := p)
      exact ⟨hFrame, hState.trans (if_pos ⟨h.1, by simpa using h.2⟩).symm⟩
    · next h => exact ⟨.refl s, (if_neg fun hc => h ⟨hc.1, by rw [hc.2]; rfl⟩).symm⟩
  · split
    · next h => exact ⟨.refl s, h⟩
    · obtain ⟨hFrame, hState, -⟩ := closePort_closes (s := s) (p := p) portDisabled
      exact ⟨hFrame, hState⟩

/-- The first `n` ports have taken PortEnable; nothing else but ports has changed. -/
theorem enablePorts_enable (n : Nat) (hn : n ≤ 16) : (∃ d q, (List.range n).foldl (enablePort v) s = { s with dict := d, ports := q })
    ∧ (∀ i k, k < 256 → (i < 0x4040 ∨ 0x4050 ≤ i) → ((List.range n).foldl (enablePort v) s).entry i k = s.entry i k)
    ∧ (∀ p, p < n → ((List.range n).foldl (enablePort v) s).portState p = enabledState s v p)
    ∧ ∀ p, n ≤ p → ((List.range n).foldl (enablePort v) s).portState p = s.portState p := by
  induction n with
  | zero => exact ⟨⟨_, _, rfl⟩, fun _ _ _ _ => rfl, fun p hp => absurd hp (Nat.not_lt_zero p), fun _ _ => rfl⟩
  | succ n ih =>
    rw [List.range_succ, List.foldl_append, List.foldl_cons, List.foldl_nil]
    obtain ⟨⟨d, q, hShape⟩, hEntries, hDone, hLeft⟩ := ih (by omega)
    generalize (List.range n).foldl (enablePort v) s = x at *
    obtain ⟨hFrame, hState⟩ := enablePort_enables (s := x) (p := n) (v := v)
    obtain ⟨d', q', hShape'⟩ := hFrame.shape
    refine ⟨⟨d', q', by rw [hShape', hShape]⟩, fun i k hk hi => (hFrame.entries i k hk (by omega)).trans (hEntries i k hk hi), fun p hp => ?_,
      fun p hp => (hFrame.state (by omega)).trans (hLeft p (by omega))⟩
    by_cases hpn : p = n
    · rw [hpn, hState, enabledState, enabledState, hLeft n (Nat.le_refl n), State.deepIdle, hEntries 0xA040 1 (by decide) (by decide)]
      rfl
    · exact (hFrame.state hpn).trans (hDone p (by omega))

theorem portEnable_row : ∃ r, lookupEntry 0x4010 4 = some r ∧ r.ty = .u16 ∧ r.acc = .rw ∧ r.cls = .immediate ∧ r.min = 0 ∧ r.max = 65535 ∧ r.index = 0x4010 :=
  ⟨(lookupEntry 0x4010 4).get (by decide), by simp, by decide, by decide, by decide, by decide, by decide, by decide⟩

theorem portEnableWrite_enables {ctx : Nat} (h : Safety.direct s ctx = true) (hv : v < 65536) :
    ∃ s2, exec (.portEnableWrite ctx (BitVec.ofNat 64 v)) s = .next s2 ∧ s2.entry 0x4010 4 = v ∧ Safety.outcome s2 ctx 0x4010 4 OK
      ∧ (∀ p, p < 16 → s2.portState p = if bit v p then (if s.portState p = portDisabled ∧ s.deepIdle = false then portTraining else s.portState p) else portDisabled)
      ∧ s2.mem = s.mem ∧ s2.tiles = s.tiles := by
  obtain ⟨hServed, -⟩ := Laws.direct_parts h
  obtain ⟨-, -, hCtx, -⟩ := Laws.served_parts hServed
  obtain ⟨r, hRow, hTy, hAcc, hCls, hMin, hMax, hIndex⟩ := portEnable_row
  have hU16 : EntryType.u16.max = 65535 := rfl
  have hRange : s.rangeRefusal r 0x4010 4 v = none :=
    rangeRefusal_none (by rw [hTy, hU16]; omega) (by omega) (.inl (by rw [hIndex]; decide)) (by simp [State.valueRefusal])
  have hWord : (BitVec.ofNat 64 v).toNat = v := by rw [BitVec.toNat_ofNat, Nat.mod_eq_of_lt (by omega)]
  obtain ⟨w, hw, hEntry, hMem, hTiles⟩ : ∃ w, w = (s.storePersistent ctx 0x4010 4 v).setEntry 0x4010 4 v ∧ (∀ i k, k < 256 → i ≠ 0x4010 → w.entry i k = s.entry i k)
      ∧ w.mem = s.mem ∧ w.tiles = s.tiles := by
    refine ⟨_, rfl, ?_⟩
    rw [storePersistent_eq]
    exact ⟨fun i k hk hi => Laws.entry_setEntry_index _ _ _ _ _ _ (by decide) hk hi, rfl, rfl⟩
  have hSet : w.entry 0x4010 4 = v := hw ▸ Laws.entry_setEntry_same ..
  have hWrite : s.writeEntry ctx 0x4010 4 v (fun s => s.applyEntry ctx 0x4010 4 v) = ((List.range 16).foldl (enablePort v) w).record ctx 0x4010 4 OK := by
    rw [hw]
    exact writeEntry_stored h hRow (by rw [hTy]; rfl) (.inl hAcc) (by rw [hCls]; decide) (by decide) (by decide) hRange fun hc => by rw [hCls] at hc; cases hc
  obtain ⟨⟨_, _, hShape⟩, hEntries, hPorts, -⟩ := enablePorts_enable (s := w) (v := v) 16 (Nat.le_refl _)
  refine ⟨((List.range 16).foldl (enablePort v) w).record ctx 0x4010 4 OK, ?_, ?_⟩
  · change Host.Outcome.next (s.writeEntry ctx 0x4010 4 (BitVec.ofNat 64 v).toNat fun s => s.applyEntry ctx 0x4010 4 (BitVec.ofNat 64 v).toNat) = _
    rw [hWord, hWrite]
  · generalize (List.range 16).foldl (enablePort v) w = x at *
    rw [Laws.record_eq hCtx _ (by decide) (by decide)]
    refine ⟨(hEntries 0x4010 4 (by decide) (by decide)).trans hSet, by simp [Safety.outcome], fun p hp => (hPorts p hp).trans ?_, by rw [hShape]; exact hMem, by rw [hShape]; exact hTiles⟩
    rw [enabledState, State.portState, State.deepIdle, hEntry _ 1 (by decide) (by omega), hEntry 0xA040 1 (by decide) (by decide)]
    rfl

/-! ### Link lanes -/

theorem lane_setLane_same (x : LinkLane) : (s.setLane p l x).lane p l = x := by
  rw [State.lane, State.setLane, port_updPort]
  exact Laws.tab_get_put_same ..

theorem lane_setLane_ne {k : Nat} (x : LinkLane) (hk : k ≠ l) : (s.setLane p l x).lane p k = s.lane p k := by
  rw [State.lane, State.setLane, port_updPort]
  exact Laws.tab_get_put_ne _ _ _ hk

theorem frameReceive_accepts {ok : Bool} {f : Frame} (hp : p < 16) (hUp : s.portState p = portUp) (hOk : ok = true) (hSeq : seq = (s.lane p l).nextRx) :
    ∃ s2, exec (.frameReceive p l seq ok f) s = .next s2 ∧ (s2.lane p l).nextRx = seq + 1
      ∧ s2.out = s.out ++ [.linkAck p l seq] ∧ (∀ k, k ≠ l → s2.lane p k = s.lane p k) ∧ s2.mem = s.mem ∧ s2.dict = s.dict := by
  have hReceive : s.receive p l seq ok = (s.setLane p l { s.lane p l with nextRx := (s.lane p l).nextRx + 1 }).emit (.linkAck p l seq) := if_pos ⟨hUp, hOk, hSeq⟩
  refine ⟨(s.setLane p l { s.lane p l with nextRx := (s.lane p l).nextRx + 1 }).emit (.linkAck p l seq), ?_, ?_, rfl, fun k hk => lane_setLane_ne _ hk, rfl, rfl⟩
  · change execFrameReceive p l seq ok f s = _
    rw [execFrameReceive, Laws.onPort_next hp, hReceive]
  · change ((s.setLane p l { s.lane p l with nextRx := (s.lane p l).nextRx + 1 }).lane p l).nextRx = seq + 1
    rw [lane_setLane_same, hSeq]

theorem frameReceive_discards {ok : Bool} {f : Frame} (hp : p < 16) (hBad : ok = false ∨ seq ≠ (s.lane p l).nextRx) :
    exec (.frameReceive p l seq ok f) s = .next s := by
  have hReceive : s.receive p l seq ok = s := if_neg fun h => hBad.elim (fun hOk => by rw [hOk] at h; exact absurd h.2.1 (by decide)) (fun hSeq => hSeq h.2.2)
  change execFrameReceive p l seq ok f s = _
  rw [execFrameReceive, Laws.onPort_next hp, hReceive]

theorem frameAck_releases (hp : p < 16) (hSent : ((s.lane p l).unacked.any fun f => f.seq = seq) = true) :
    ∃ s2, exec (.frameAck p l seq) s = .next s2 ∧ (s2.lane p l).unacked = ((s.lane p l).unacked.filter fun f => seq < f.seq)
      ∧ (s2.lane p l).nextTx = (s.lane p l).nextTx ∧ s2.out = s.out ∧ s2.mem = s.mem ∧ s2.dict = s.dict := by
  refine ⟨s.setLane p l { s.lane p l with unacked := (s.lane p l).unacked.filter fun f => seq < f.seq }, ?_, by rw [lane_setLane_same], by rw [lane_setLane_same], rfl, rfl, rfl⟩
  change execFrameAck p l seq s = _
  rw [execFrameAck, Laws.onPort_next hp]
  exact congrArg _ (if_pos hSent)

/-- Frames sent again leave in their order. -/
theorem emitFrames_out (frames : List SentFrame) : ∀ s : State, frames.foldl (fun s g => s.emit (.fabric p g.frame)) s
    = { s with out := s.out ++ frames.map fun f => .fabric p f.frame } := by
  induction frames with
  | nil => exact fun s => by rw [List.map_nil, List.append_nil]; rfl
  | cons f frames ih =>
    intro s
    rw [List.foldl_cons, ih, List.map_cons, ← List.singleton_append, ← List.append_assoc]
    rfl

section Retransmit

variable {g : SentFrame} {rest : List SentFrame} (hp : p < 16) (hUnacked : (s.lane p l).unacked = g :: rest)
include hp hUnacked

theorem frameRetransmit_early (hEarly : s.now < g.sentAt + 1000) : exec (.frameRetransmit p l) s = .next s := by
  have hKeep : s.retransmit p l = s := by
    unfold State.retransmit
    dsimp only
    rw [hUnacked]
    exact if_pos (.inl hEarly)
  change execFrameRetransmit p l s = _
  rw [execFrameRetransmit, Laws.onPort_next hp, hKeep]

theorem frameRetransmit_resends (hUp : s.portState p = portUp) (hDue : g.sentAt + 1000 ≤ s.now) (hFew : g.fails < 8) :
    ∃ s2, exec (.frameRetransmit p l) s = .next s2 ∧ s2.out = s.out ++ (g :: rest).map (fun f => .fabric p f.frame)
      ∧ (s2.lane p l).unacked = (g :: rest).map (fun f => { f with sentAt := s.now, fails := f.fails + 1 }) ∧ s2.portState p = portUp ∧ s2.mem = s.mem := by
  obtain ⟨y, hy, hOut, hLane, hMem, hState⟩ : ∃ y, y = (s.setLane p l { s.lane p l with
        unacked := (g :: rest).map fun f => { f with sentAt := s.now, fails := f.fails + 1 } }).bump (0x4040 + p) 6 (g :: rest).length ∧ y.out = s.out
      ∧ y.lane p l = { s.lane p l with unacked := (g :: rest).map fun f => { f with sentAt := s.now, fails := f.fails + 1 } } ∧ y.mem = s.mem
      ∧ y.portState p = s.portState p :=
    ⟨_, rfl, rfl, lane_setLane_same _, rfl, Laws.entry_setEntry_sub _ _ _ _ _ (by decide)⟩
  have hResend : s.retransmit p l = { y with out := y.out ++ (g :: rest).map fun f => .fabric p f.frame } := by
    unfold State.retransmit
    dsimp only
    rw [hUnacked]
    dsimp only
    rw [if_neg (fun h => h.elim (fun he => by omega) (fun hn => hn hUp)), if_neg (by omega), ← hy, emitFrames_out]
  refine ⟨{ y with out := y.out ++ (g :: rest).map fun f => .fabric p f.frame }, ?_, congrArg (· ++ _) hOut, congrArg LinkLane.unacked hLane, hState.trans hUp, hMem⟩
  change execFrameRetransmit p l s = _
  rw [execFrameRetransmit, Laws.onPort_next hp, hResend]

theorem frameRetransmit_downs (hUp : s.portState p = portUp) (hDue : g.sentAt + 1000 ≤ s.now) (hMany : 8 ≤ g.fails) :
    ∃ s2, exec (.frameRetransmit p l) s = .next s2 ∧ s2.portState p = portDown ∧ (s2.lane p l).unacked = [] ∧ s2.mem = s.mem := by
  have hDown : s.retransmit p l = s.linkDown p FABRIC_UNREACHABLE := by
    unfold State.retransmit
    dsimp only
    rw [hUnacked]
    dsimp only
    rw [if_neg (fun h => h.elim (fun he => by omega) (fun hn => hn hUp)), if_pos hMany]
  obtain ⟨hFrame, hState, hLanes⟩ := closePort_closes (s := s) (p := p) portDown
  obtain ⟨y, hy, hyState, hyLanes, hyMem⟩ : ∃ y, y = ((s.closePort p portDown).bump (0x4040 + p) 9 1).updPort p (fun x => { x with lastTrain := s.now })
      ∧ y.portState p = portDown ∧ (y.port p).lanes = [] ∧ y.mem = s.mem := by
    refine ⟨_, rfl, ?_, ?_, hFrame.mem⟩
    · exact (Laws.entry_setEntry_sub _ _ _ _ _ (by decide)).trans hState
    · rw [port_updPort]
      exact hLanes
  have hRaised := (EventFrame.refl y).raise 0xB0E0 0xFF FABRIC_UNREACHABLE p FABRIC_UNREACHABLE
  refine ⟨y.raise 0xB0E0 0xFF FABRIC_UNREACHABLE p FABRIC_UNREACHABLE, ?_, ?_, ?_, hRaised.mem.trans hyMem⟩
  · change execFrameRetransmit p l s = _
    rw [execFrameRetransmit, Laws.onPort_next hp, hDown, hy]
    rfl
  · rw [State.portState, entry_raise (by decide) (by omega) (by omega) (by omega)]
    exact hyState
  · obtain ⟨_, _, _, _, _, _, _, e⟩ := hRaised
    rw [e]
    change (Tab.get (y.port p).lanes {} l).unacked = []
    rw [hyLanes]
    rfl

end Retransmit

/-! ### The router -/

theorem frameForward_sends {q : Nat} {f : Frame} (hp : p < 16) (hOther : f.target ≠ s.nodeId) (hHops : f.hops < 24) (hRoute : s.routePort f.target = some q) :
    ∃ s2, exec (.frameForward p f) s = .next s2 ∧ s2.out = s.out ++ [.fabric q { f with hops := f.hops + 1, version := s.entry (0x4040 + q) 2 }] ∧ s2.mem = s.mem
      ∧ s2.dict = s.dict := by
  have hForward : s.forward f = s.sendFrame q { f with hops := f.hops + 1, version := s.entry (0x4040 + q) 2 } := by
    unfold State.forward
    rw [if_neg (by omega), hRoute]
  refine ⟨s.sendFrame q { f with hops := f.hops + 1, version := s.entry (0x4040 + q) 2 }, ?_, rfl, rfl, rfl⟩
  change execFrameForward p f s = _
  rw [execFrameForward, Laws.onPort_next hp, if_neg hOther, hForward]

theorem frameForward_drops {f : Frame} (hp : p < 16) (hOther : f.target ≠ s.nodeId) (hBad : 24 ≤ f.hops ∨ s.routePort f.target = none) :
    exec (.frameForward p f) s = .next (s.bump 0x4038 7 1) := by
  have hForward : s.forward f = s.bump 0x4038 7 1 := by
    unfold State.forward
    by_cases hHops : 25 ≤ f.hops + 1
    · rw [if_pos hHops]
    · rw [if_neg hHops, hBad.resolve_left (by omega)]
  change execFrameForward p f s = _
  rw [execFrameForward, Laws.onPort_next hp, if_neg hOther, hForward]

end Links

/-- Settles O42: training, PortEnable, the link lanes' three commands, and the router. -/
theorem linksTrainAndCarry : Obligations.LinksTrainAndCarry := by
  unfold Obligations.LinksTrainAndCarry
  exact ⟨fun _ _ _ _ _ hp hEnabled hState => ⟨fun _ => trainExchange_trains hp hEnabled hState, trainExchange_fails hp hEnabled hState⟩,
    fun _ _ => portRetrain_retries, fun _ _ _ => portEnableWrite_enables,
    fun _ _ _ _ _ _ hp hUp => ⟨frameReceive_accepts hp hUp, frameReceive_discards hp⟩, fun _ _ _ _ => frameAck_releases,
    fun _ _ _ _ _ hp hUnacked hUp => ⟨frameRetransmit_early hp hUnacked, frameRetransmit_resends hp hUnacked hUp, frameRetransmit_downs hp hUnacked hUp⟩,
    fun _ _ _ _ hp hOther => ⟨frameForward_sends hp hOther, frameForward_drops hp hOther⟩⟩

end Sys2Proof.Proofs
end

section
/-! PROOFS. Remote operations at their target (R304, R307-R311, R318). -/

namespace Sys2Proof.Proofs
open Sys2Proof.Machine

section Target

variable {s t u : State} {f : Frame} {n status operand : Nat} {data : List Byte}

/-! ### What reaching the stacks leaves -/

/-- `u` is `s` but for the stacks that an access reaches: an entry that reaches changes is a subindex 1 that was 1 (R298). -/
structure Reached (s u : State) : Prop where
  shape : ∃ d q, u = { s with dict := d, sorters := q }
  entries : ∀ i k, k < 256 → k ≠ 1 ∨ s.entry i k ≠ 1 → u.entry i k = s.entry i k

namespace Reached

theorem refl (s : State) : Reached s s := ⟨⟨_, _, rfl⟩, fun _ _ _ _ => rfl⟩

theorem trans (h : Reached s t) (h' : Reached t u) : Reached s u where
  shape := by
    obtain ⟨_, _, rfl⟩ := h.shape
    obtain ⟨_, _, rfl⟩ := h'.shape
    exact ⟨_, _, rfl⟩
  entries i k hk hi := by
    have hFirst := h.entries i k hk hi
    exact (h'.entries i k hk (by rw [hFirst]; exact hi)).trans hFirst

theorem touchStack (k : Nat) : Reached s (s.touchStack k) := by
  unfold State.touchStack
  dsimp only
  split
  · next hAsleep =>
    refine ⟨⟨_, _, rfl⟩, fun i l hl hi => ?_⟩
    refine Laws.entry_setEntry_ne _ _ _ _ _ _ fun e => ?_
    obtain ⟨rfl, rfl⟩ := (Laws.entryKey_inj hl (by decide)).1 e
    exact hi.elim (fun h => h rfl) (fun h => h hAsleep)
  · exact ⟨⟨_, _, rfl⟩, fun _ _ _ _ => rfl⟩

theorem touchRange (a n : Nat) : Reached s (s.touchRange a n) := by
  have hFold : ∀ (l : List Nat) (s : State), Reached s (l.foldl State.touchStack s) := by
    intro l
    induction l with
    | nil => exact refl
    | cons k l ih => exact fun s => (touchStack k).trans (ih _)
  unfold State.touchRange
  split
  · exact refl s
  · exact hFold _ s

theorem mem (h : Reached s u) : u.mem = s.mem := by obtain ⟨_, _, rfl⟩ := h.shape; rfl
theorem tiles (h : Reached s u) : u.tiles = s.tiles := by obtain ⟨_, _, rfl⟩ := h.shape; rfl
theorem memByte (h : Reached s u) (x : Nat) : u.memByte x = s.memByte x := by obtain ⟨_, _, rfl⟩ := h.shape; rfl
theorem memBytes (h : Reached s u) (a n : Nat) : u.memBytes a n = s.memBytes a n := by obtain ⟨_, _, rfl⟩ := h.shape; rfl
theorem poisoned (h : Reached s u) (a n : Nat) : u.rangePoisoned a n = s.rangePoisoned a n := by obtain ⟨_, _, rfl⟩ := h.shape; rfl

end Reached

/-! ### A completion leaves for the source -/

/-- What a completion rests on: nothing has left yet, and the routes and the links that are UP are as they were. -/
structure Wired (s u : State) : Prop where
  out : u.out = s.out
  blobs : u.blobs = s.blobs
  links : ∀ p, p < 16 → (s.portState p = portUp → u.portState p = portUp) ∧ u.entry (0x4040 + p) 2 = s.entry (0x4040 + p) 2

theorem Wired.of_entries (hOut : u.out = s.out) (hBlobs : u.blobs = s.blobs) (h : ∀ i k, k < 256 → k ≠ 1 ∨ s.entry i k ≠ 1 → u.entry i k = s.entry i k) : Wired s u where
  out := hOut
  blobs := hBlobs
  links p _ := ⟨fun hUp => (h _ 1 (by decide) (.inr (by rw [show s.entry (0x4040 + p) 1 = 2 from hUp]; decide))).trans hUp, h _ 2 (by decide) (.inl (by decide))⟩

theorem Wired.route (h : Wired s u) {node p : Nat} (hRoute : s.routePort node = some p) : u.routePort node = some p ∧ u.entry (0x4040 + p) 2 = s.entry (0x4040 + p) 2 := by
  have hNode : u.route node = s.route node := by unfold State.route; rw [h.blobs]
  simp only [State.routePort] at hRoute ⊢
  rw [hNode]
  split at hRoute
  · next hUp =>
    obtain rfl := Option.some.inj hRoute
    obtain ⟨hState, hVersion⟩ := h.links _ hUp.1
    exact ⟨if_pos ⟨hUp.1, hState hUp.2⟩, hVersion⟩
  · cases hRoute

/-- A completion leaves through the port that leads to the source, at its version (R315). -/
theorem complete_leaves (h : Wired s u) {p : Nat} (hRoute : s.routePort f.source = some p) :
    (u.complete f status operand data).out = s.out ++ [.fabric p (Safety.completion s p f status operand data)] := by
  obtain ⟨hPort, hVersion⟩ := h.route hRoute
  unfold State.complete
  dsimp only
  rw [hPort]
  dsimp only
  rw [hVersion, ← h.out]
  rfl

theorem decideOp_answers (h : Wired s u) : Safety.answered s (u.decideOp f status operand data) f status operand data := by
  obtain ⟨v, hv, hFrame⟩ : ∃ v, v = (if status = OK then u.bump 0x4038 2 1 else u) ∧ Wired s v := by
    refine ⟨_, rfl, ?_⟩
    split
    · refine ⟨h.out, h.blobs, fun p hp => ?_⟩
      have hKeep (k : Nat) (hk : k < 256) : (u.bump 0x4038 2 1).entry (0x4040 + p) k = u.entry (0x4040 + p) k :=
        Laws.entry_setEntry_index _ _ _ _ _ _ (by decide) hk (by omega)
      rw [State.portState, State.portState, hKeep 1 (by decide), hKeep 2 (by decide)]
      exact h.links p hp
    · exact h
  have hDecide : u.decideOp f status operand data = (v.advanceTriple f).complete f status operand data := by rw [hv]; rfl
  have hSeq (w : State) : (w.complete f status operand data).seqExpected = w.seqExpected := by
    unfold State.complete
    dsimp only
    split
    · rfl
    · rfl
  rw [hDecide]
  refine ⟨?_, fun p hRoute => complete_leaves (u := v.advanceTriple f) ⟨hFrame.out, hFrame.blobs, hFrame.links⟩ hRoute⟩
  rw [State.expectedSeq, hSeq]
  exact Laws.tab_get_put_same ..

/-- A decided operation changes no byte. -/
theorem decideOp_memory : (u.decideOp f status operand data).mem = u.mem ∧ (u.decideOp f status operand data).tiles = u.tiles
    ∧ (∀ x, (u.decideOp f status operand data).memByte x = u.memByte x) ∧ ∀ a n, (u.decideOp f status operand data).memBytes a n = u.memBytes a n := by
  obtain ⟨_, _, _, _, e⟩ := ((WireFrame.refl u).decideOp f status operand data).shape
  rw [e]
  exact ⟨rfl, rfl, fun _ => rfl, fun _ _ => rfl⟩

/-! ### An operation in its turn -/

/-- The state in which an operation that arrives is performed: its triple has not failed. -/
def atTurn (s : State) (f : Frame) : State := { s with failedTriples := s.failedTriples.filter fun k => k ≠ frameTriple f }

theorem takeOp_acts {opcode : Nat} {ecc : Ecc} {act : State → State} (h : Safety.arrives s f opcode = true) : s.takeOp f opcode ecc act = act (atTurn s f) := by
  simp only [Safety.arrives, Safety.inOrder, Bool.and_eq_true, Bool.not_eq_true'] at h
  obtain ⟨⟨⟨⟨⟨hTakes, hHeld⟩, hBehind⟩, hReady⟩, hCrc⟩, hTriple⟩ := h
  simp only [State.takeOp, hTakes, hHeld, hBehind, State.decideArrived, hReady, hCrc, hTriple, Bool.not_true, Bool.false_eq_true, if_false, false_and, or_self]
  rfl

theorem landing_stack {a n : Nat} (hIn : inStack a n = true) (hn : 0 < n) : landing a = .stack := by
  have hTop : a + n ≤ visibleTop := by simpa [inStack] using hIn
  unfold landing
  rw [if_pos (by omega)]

/-- Bytes written by an operation that reaches them, and its completion (R309). -/
theorem written_answers (hr : Reached (atTurn s f) u) {a : Nat} {d : List Byte} (hClean : s.rangePoisoned a d.length = false) :
    Safety.stores s ((u.memWrite a d).decideOp f status operand data) a d ∧ Safety.answered s ((u.memWrite a d).decideOp f status operand data) f status operand data := by
  have hClean' : u.rangePoisoned a d.length = false := (hr.poisoned a d.length).trans hClean
  obtain ⟨-, -, hByte, hBytes⟩ := decideOp_memory (u := u.memWrite a d) (f := f) (status := status) (operand := operand) (data := data)
  obtain ⟨m, p, e, hWrite⟩ := memWrite_shape (s := u) a d
  refine ⟨⟨(hBytes a _).trans (Laws.memBytes_memWrite _ _ hClean'), fun x hx => ?_⟩, decideOp_answers ?_⟩
  · rw [hByte, Laws.memByte_memWrite _ _ _ hClean', if_neg hx, hr.memByte]
    rfl
  · obtain ⟨d', q, hShape⟩ := hr.shape
    refine .of_entries (by rw [hWrite, hShape]; rfl) (by rw [hWrite, hShape]; rfl) fun i k hk hi => ?_
    rw [hWrite]
    exact hr.entries i k hk hi

/-! ### PUT and GET -/

theorem fabricPut_stores (hn : n = f.payload.length) (h : Safety.arrives s f 1 = true) (hSome : 0 < n) (hTop : n ≤ 4096) (hLength : f.length = n)
    (hIn : inStack f.address n = true) (hPlain : s.inImage f.address n = false) (hGrant : s.granted f.source f.address n 1 = true)
    (hClean : s.rangePoisoned f.address n = false) :
    ∃ s2, exec (.fabricPut f) s = .next s2 ∧ Safety.stores s s2 f.address f.payload ∧ Safety.answered s s2 f OK 0 [] := by
  subst hn
  have hPerform : (atTurn s f).performPut f = (((atTurn s f).touchRange f.address f.payload.length).memWrite f.address f.payload).decideOp f OK 0 [] := by
    unfold State.performPut
    dsimp only
    rw [if_neg (by omega), landing_stack hIn hSome]
    dsimp only
    have hPlain' : (atTurn s f).inImage f.address f.payload.length = false := hPlain
    have hGrant' : (atTurn s f).granted f.source f.address f.payload.length 1 = true := hGrant
    rw [stackRange, hIn, hPlain', hGrant', if_neg (by decide), if_neg (by decide)]
  refine ⟨_, ?_, written_answers (Reached.touchRange f.address f.payload.length) hClean⟩
  change Host.Outcome.next (s.takeOp f 1 .clean fun s => s.performPut f) = _
  rw [takeOp_acts h, hPerform]

/-- A sound read of clean bytes ends OK (R293). -/
theorem readStatus_clean {a : Nat} (h : u.rangePoisoned a n = false) : u.readStatus a n .clean = OK := by simp [State.readStatus, h]

theorem fabricGet_returns (h : Safety.arrives s f 2 = true) (hSome : 0 < f.length) (hTop : f.length ≤ 4096) (hIn : inStack f.address f.length = true)
    (hGrant : s.granted f.source f.address f.length 0 = true) (hClean : s.rangePoisoned f.address f.length = false) :
    ∃ s2, exec (.fabricGet f .clean) s = .next s2 ∧ Safety.answered s s2 f OK 0 (s.memBytes f.address f.length) ∧ s2.mem = s.mem ∧ s2.tiles = s.tiles := by
  have hr := Reached.touchRange (s := atTurn s f) f.address f.length
  have hBytes : ((atTurn s f).touchRange f.address f.length).memBytes f.address f.length = s.memBytes f.address f.length := hr.memBytes _ _
  have hStatus : ((atTurn s f).touchRange f.address f.length).readStatus f.address f.length .clean = OK :=
     readStatus_clean ((hr.poisoned _ _).trans hClean)
  have hPerform : (atTurn s f).performGet f .clean = ((atTurn s f).touchRange f.address f.length).decideOp f OK 0 (s.memBytes f.address f.length) := by
    unfold State.performGet
    rw [if_neg (by omega), landing_stack hIn hSome]
    dsimp only
    rw [stackRange, hIn, show (atTurn s f).granted f.source f.address f.length 0 = true from hGrant, if_neg (by decide), State.stackGet, if_neg (by omega)]
    dsimp only
    rw [hStatus, hBytes]
    rfl
  obtain ⟨hMem, hTiles, -, -⟩ := decideOp_memory (u := (atTurn s f).touchRange f.address f.length) (f := f) (status := OK) (operand := 0)
    (data := s.memBytes f.address f.length)
  obtain ⟨_, _, hShape⟩ := hr.shape
  refine ⟨_, ?_, decideOp_answers (.of_entries (by rw [hShape]; rfl) (by rw [hShape]; rfl) hr.entries), hMem.trans hr.mem, hTiles.trans hr.tiles⟩
  change Host.Outcome.next (s.takeOp f 2 .clean fun s => s.performGet f .clean) = _
  rw [takeOp_acts h, hPerform]

/-! ### Atomics -/

theorem atomicAllowed_stack (h : s.atomicAllowed f n = true) : landing f.address = .stack := by
  unfold State.atomicAllowed at h
  split at h
  · assumption
  · cases h

/-- An atomic that is allowed acts on the bytes that it reads (R307, R309). -/
theorem atomic_acts {aligned : Bool} {act : State → List Byte → State} (hAligned : aligned = true) (hAllowed : s.atomicAllowed f n = true)
    (hClean : s.rangePoisoned f.address n = false) :
    (atTurn s f).atomic f n aligned .clean act = act ((atTurn s f).touchRange f.address n) (s.memBytes f.address n) := by
  have hr := Reached.touchRange (s := atTurn s f) f.address n
  have hStatus : ((atTurn s f).touchRange f.address n).readStatus f.address n .clean = OK := readStatus_clean ((hr.poisoned _ _).trans hClean)
  have hEcc (v : State) : v.applyEcc f.address .clean = v := rfl
  unfold State.atomic
  rw [atomicAllowed_stack hAllowed]
  dsimp only
  rw [hAligned, show (atTurn s f).atomicAllowed f n = true from hAllowed, if_neg (by decide), hStatus, if_pos rfl, hEcc, hr.memBytes]
  rfl

theorem leBytes_length (n x : Nat) : (leBytes n x).length = n := by
  induction n generalizing x with
  | zero => rfl
  | succ n ih => rw [leBytes, List.length_cons, ih]

/-- A number's bytes read back as its low bits. -/
theorem leNat_leBytes (n x : Nat) : leNat (leBytes n x) = x % 256 ^ n := by
  induction n generalizing x with
  | zero => rw [leBytes, leNat, Nat.pow_zero, Nat.mod_one]
  | succ n ih =>
    have hPow : 256 ^ (n + 1) = 256 * 256 ^ n := Nat.pow_succ'
    rw [leBytes, leNat, ih, BitVec.toNat_ofNat, hPow]
    exact Nat.mod_mul.symm

theorem memBytes_length (a n : Nat) : (s.memBytes a n).length = n := by rw [State.memBytes, List.length_map, List.length_range]

theorem addmod_adds {w : Nat} (hn : n = f.payload.length) (hw : w = f.operand % 65536) (h : Safety.arrives s f 3 = true) (hNine : n % 9 = 0) (hSome : 9 ≤ n)
    (hTop : n ≤ 4095) (hLength : f.length = n) (hWord : wordValid w 0 = true) (hAllowed : s.atomicAllowed f n = true) (hClean : s.rangePoisoned f.address n = false) :
    ∃ s2, exec (.addmod f .clean) s = .next s2 ∧ Safety.stores s s2 f.address (addElements (modulusOf w) (s.memBytes f.address n) f.payload)
      ∧ Safety.answered s s2 f OK 0 [] := by
  subst hn hw
  have hPerform : (atTurn s f).performAddmod f .clean = (((atTurn s f).touchRange f.address f.payload.length).memWrite f.address
      (addElements (modulusOf (f.operand % 65536)) (s.memBytes f.address f.payload.length) f.payload)).decideOp f OK 0 [] := by
    unfold State.performAddmod
    dsimp only
    rw [hWord, if_pos rfl, atomic_acts (by simp [hNine, hSome, hTop, hLength]) hAllowed hClean]
    rfl
  refine ⟨_, ?_, written_answers (Reached.touchRange f.address f.payload.length) ?_⟩
  · change Host.Outcome.next (s.takeOp f 3 .clean fun s => s.performAddmod f .clean) = _
    rw [takeOp_acts h, hPerform]
  · rw [addElements, leBytes_length, memBytes_length]
    exact hClean

theorem fetchadd_adds (h : Safety.arrives s f 4 = true) (hAligned : f.address % 8 = 0) (hAllowed : s.atomicAllowed f 8 = true)
    (hClean : s.rangePoisoned f.address 8 = false) :
    ∃ s2, exec (.fetchadd f .clean) s = .next s2 ∧ Safety.stores s s2 f.address (addWord (s.memBytes f.address 8) f.operand)
      ∧ leNat (s2.memBytes f.address 8) = (leNat (s.memBytes f.address 8) + f.operand) % 2 ^ 64
      ∧ Safety.answered s s2 f OK (leNat (s.memBytes f.address 8)) [] := by
  have hPerform : (atTurn s f).performFetchadd f .clean = (((atTurn s f).touchRange f.address 8).memWrite f.address
      (addWord (s.memBytes f.address 8) f.operand)).decideOp f OK (leNat (s.memBytes f.address 8)) [] := by
    unfold State.performFetchadd
    rw [atomic_acts (decide_eq_true hAligned) hAllowed hClean]
  have hLength : (addWord (s.memBytes f.address 8) f.operand).length = 8 := leBytes_length _ _
  obtain ⟨hStores, hAnswered⟩ := written_answers (status := OK) (operand := leNat (s.memBytes f.address 8)) (data := [])
    (Reached.touchRange (s := atTurn s f) f.address 8) (d := addWord (s.memBytes f.address 8) f.operand) (by rw [hLength]; exact hClean)
  refine ⟨_, ?_, hStores, ?_, hAnswered⟩
  · change Host.Outcome.next (s.takeOp f 4 .clean fun s => s.performFetchadd f .clean) = _
    rw [takeOp_acts h, hPerform]
  · have hRead := hStores.1
    rw [hLength] at hRead
    rw [hRead, addWord, leNat_leBytes, show 256 ^ 8 = 2 ^ 64 from rfl, Nat.mod_mod]

/-! ### SIGNAL -/

theorem creditMcast_shape (a source : Nat) : ∃ c, s.creditMcast a source = { s with mcastCredits := c } := by
  unfold State.creditMcast
  split
  · exact ⟨_, rfl⟩
  · exact ⟨_, rfl⟩

/-- A SIGNAL's increment is added to its counter, and the SIGNAL completes (R307, R311). -/
theorem signalAdd_adds {v : State} (hShape : ∃ q h, v = { s with failedTriples := q, heldFrames := h }) (hClean : s.rangePoisoned f.address 8 = false) :
    Safety.stores s (v.signalAdd f) f.address (addWord (s.memBytes f.address 8) f.operand) ∧ Safety.answered s (v.signalAdd f) f OK 0 []
      ∧ (v.signalAdd f).heldFrames = v.heldFrames := by
  have hr := Reached.touchRange (s := v) f.address 8
  obtain ⟨q, h, hv⟩ := hShape
  obtain ⟨d', q', hTouch⟩ := hr.shape
  have hBytes : (v.touchRange f.address 8).memBytes f.address 8 = s.memBytes f.address 8 := (hr.memBytes _ _).trans (by rw [hv]; rfl)
  have hCount : (v.touchRange f.address 8).addCounter f.address f.operand = (v.touchRange f.address 8).memWrite f.address (addWord (s.memBytes f.address 8) f.operand) := by
    rw [State.addCounter, hBytes, addWord]
  have hLength : (addWord (s.memBytes f.address 8) f.operand).length = 8 := leBytes_length _ _
  have hClean' : (v.touchRange f.address 8).rangePoisoned f.address (addWord (s.memBytes f.address 8) f.operand).length = false := by
    rw [hLength, hr.poisoned, hv]
    exact hClean
  obtain ⟨m, p, e, hWrite⟩ := memWrite_shape (s := v.touchRange f.address 8) f.address (addWord (s.memBytes f.address 8) f.operand)
  obtain ⟨c, hCredit⟩ := creditMcast_shape (s := (v.touchRange f.address 8).memWrite f.address (addWord (s.memBytes f.address 8) f.operand)) f.address f.source
  have hAdd : v.signalAdd f = (State.creditMcast ((v.touchRange f.address 8).memWrite f.address (addWord (s.memBytes f.address 8) f.operand)) f.address f.source).decideOp f
      OK 0 [] := by
    unfold State.signalAdd
    rw [show v.rangePoisoned f.address 8 = false by rw [hv]; exact hClean, if_neg Bool.false_ne_true, hCount]
  generalize hx : State.creditMcast ((v.touchRange f.address 8).memWrite f.address (addWord (s.memBytes f.address 8) f.operand)) f.address f.source = x at *
  obtain ⟨-, -, hByte, hBytes'⟩ := decideOp_memory (u := x) (f := f) (status := OK) (operand := 0) (data := [])
  have hxByte (y : Nat) : x.memByte y = ((v.touchRange f.address 8).memWrite f.address (addWord (s.memBytes f.address 8) f.operand)).memByte y := by rw [hCredit]; rfl
  have hxBytes (a n : Nat) : x.memBytes a n = ((v.touchRange f.address 8).memWrite f.address (addWord (s.memBytes f.address 8) f.operand)).memBytes a n := by
    rw [hCredit]; rfl
  rw [hAdd]
  refine ⟨⟨?_, fun y hy => ?_⟩, decideOp_answers (.of_entries ?_ ?_ fun i k hk hi => ?_), ?_⟩
  · rw [hBytes', hxBytes]
    exact Laws.memBytes_memWrite _ _ hClean'
  · rw [hByte, hxByte, Laws.memByte_memWrite _ _ _ hClean', if_neg hy, hr.memByte, hv]
    rfl
  · rw [hCredit, hWrite, hTouch, hv]
  · rw [hCredit, hWrite, hTouch, hv]
  · have hEntries : ∀ i k, v.entry i k = s.entry i k := fun i k => by rw [hv]; rfl
    rw [hCredit, hWrite]
    exact (hr.entries i k hk (by rw [hEntries]; exact hi)).trans (hEntries i k)
  · obtain ⟨_, _, _, _, hDecided⟩ := ((WireFrame.refl x).decideOp f OK 0 []).shape
    rw [hDecided]
    change x.heldFrames = _
    rw [hCredit, hWrite, hTouch]

theorem performSignal_holds (hAligned : f.address % 8 = 0) (hPayload : f.payload.length = 8) (hAllowed : s.atomicAllowed f 8 = true) :
    (atTurn s f).performSignal f = (atTurn s f).holdSignal f := by
  unfold State.performSignal
  rw [atomicAllowed_stack hAllowed]
  dsimp only
  rw [hAligned, hPayload, show (atTurn s f).atomicAllowed f 8 = true from hAllowed, if_neg (by decide)]

theorem fabricSignal_adds (h : Safety.arrives s f 5 = true) (hAligned : f.address % 8 = 0) (hPayload : f.payload.length = 8) (hAllowed : s.atomicAllowed f 8 = true)
    (hClean : s.rangePoisoned f.address 8 = false) (hCaught : s.signalReady f = true) :
    ∃ s2, exec (.fabricSignal f) s = .next s2 ∧ Safety.stores s s2 f.address (addWord (s.memBytes f.address 8) f.operand) ∧ Safety.answered s s2 f OK 0 [] := by
  obtain ⟨hStores, hAnswered, -⟩ := signalAdd_adds (s := s) (v := atTurn s f) (f := f) ⟨_, _, rfl⟩ hClean
  refine ⟨_, ?_, hStores, hAnswered⟩
  change Host.Outcome.next (s.takeOp f 5 .clean fun s => s.performSignal f) = _
  rw [takeOp_acts h, performSignal_holds hAligned hPayload hAllowed, State.holdSignal, if_pos (show (atTurn s f).signalReady f = true from hCaught)]

theorem fabricSignal_waits (h : Safety.arrives s f 5 = true) (hAligned : f.address % 8 = 0) (hPayload : f.payload.length = 8) (hAllowed : s.atomicAllowed f 8 = true)
    (hBehind : s.signalReady f = false) (hLanes : s.signalLost f = false) :
    ∃ s2, exec (.fabricSignal f) s = .next s2 ∧ s2.heldFrames = s.heldFrames ++ [f] ∧ s2.mem = s.mem ∧ s2.out = s.out ∧ s2.seqExpected = s.seqExpected := by
  have hTriple : s.failedTriples.contains (frameTriple f) = false := by
    simp only [Safety.arrives, Bool.and_eq_true, Bool.not_eq_true'] at h
    exact h.2
  have hKeep : (s.failedTriples.filter fun k => k ≠ frameTriple f) = s.failedTriples := by
    refine List.filter_eq_self.2 fun k hk => decide_eq_true fun e => ?_
    rw [List.contains_eq_mem, decide_eq_false_iff_not] at hTriple
    exact hTriple (e ▸ hk)
  have hTurn : atTurn s f = s := by rw [atTurn, hKeep]
  refine ⟨{ s with heldFrames := s.heldFrames ++ [f] }, ?_, rfl, rfl, rfl, rfl⟩
  change Host.Outcome.next (s.takeOp f 5 .clean fun s => s.performSignal f) = _
  rw [takeOp_acts h, performSignal_holds hAligned hPayload hAllowed, hTurn, State.holdSignal, hBehind, hLanes]
  rfl

theorem signalPerform_adds {source lane : Nat} (hFind : (s.heldFrames.find? fun g => g.source = source && g.vl = lane && s.signalReady g) = some f)
    (hClean : s.rangePoisoned f.address 8 = false) :
    ∃ s2, exec (.signalPerform source lane) s = .next s2 ∧ s2.heldFrames = s.heldFrames.erase f
      ∧ Safety.stores s s2 f.address (addWord (s.memBytes f.address 8) f.operand) ∧ Safety.answered s s2 f OK 0 [] := by
  obtain ⟨hStores, hAnswered, hHeld⟩ := signalAdd_adds (s := s) (v := { s with heldFrames := s.heldFrames.erase f }) (f := f) ⟨_, _, rfl⟩ hClean
  refine ⟨_, ?_, hHeld, hStores, hAnswered⟩
  change execSignalPerform source lane s = _
  unfold execSignalPerform
  rw [hFind]

/-! ### MCAST-PUT at a member -/

theorem mcastPut_stores {p : Nat} (hp : p < 16) (hn : n = f.payload.length) (hCode : f.opcode = 6) (hUp : s.portState p = portUp) (hSource : f.source ≠ s.nodeId)
    (hPower : s.hostPowered = true) (hReady : s.ready = true) (hCrc : f.crcOk = true) (hMember : s.entry (0x4300 + f.mcastGroup) 2 ≠ 0) (hSome : 0 < n)
    (hTop : n ≤ 4096) (hIn : inStack f.address n = true) (hPlain : s.inImage f.address n = false) (hGrant : s.granted f.source f.address n 1 = true)
    (hClean : s.rangePoisoned f.address n = false) (hAlone : s.groupPorts f.mcastGroup p = []) :
    ∃ s2, exec (.mcastPut p f) s = .next s2 ∧ Safety.stores s s2 f.address f.payload
      ∧ s2.out = s.out ++ [.fabric p { Safety.completion s p f OK 0 [] with source := s.nodeId }] := by
  subst hn
  have hr := (TouchFrame.refl s).touchRange hIn
  obtain ⟨x, hx⟩ : ∃ x, x = s.touchRange f.address f.payload.length := ⟨_, rfl⟩
  rw [← hx] at hr
  obtain ⟨m, q, e, hWrite⟩ := memWrite_shape (s := x) f.address f.payload
  obtain ⟨d, b, hShape⟩ := hr.shape
  obtain ⟨y, hy, hyOut, hyByte, hyBytes, hyEntries⟩ : ∃ y, y = (x.memWrite f.address f.payload).bump 0x4038 2 1 ∧ y.out = s.out
      ∧ (∀ z, y.memByte z = (x.memWrite f.address f.payload).memByte z) ∧ (∀ z n, y.memBytes z n = (x.memWrite f.address f.payload).memBytes z n)
      ∧ ∀ i k, k < 256 → 0x4040 ≤ i ∨ i = 0x4010 → y.entry i k = s.entry i k := by
    refine ⟨_, rfl, ?_, fun _ => rfl, fun _ _ => rfl, fun i k hk hi => ?_⟩
    · rw [hWrite, hShape]
      rfl
    · refine (Laws.entry_setEntry_index _ _ _ _ _ _ (by decide) hk (by omega)).trans ?_
      rw [hWrite]
      exact hr.entries i k hk (by omega)
  have hLocal : s.mcastLocal f = (OK, y) := by
    unfold State.mcastLocal
    dsimp only
    rw [if_neg hMember, hReady, landing_stack hIn hSome]
    dsimp only
    rw [stackRange, hIn, hPlain, hGrant, if_neg (by decide), if_neg (by simp only [Bool.not_true, Bool.false_eq_true, or_false]; omega), hy, hx]
  have hPorts : y.groupPorts f.mcastGroup p = [] := by
    rw [← hAlone, State.groupPorts, hyEntries _ 1 (by decide) (.inl (by omega))]
    rfl
  have hTake : s.takeMcast p f = y.mcastDone f p OK := by
    unfold State.takeMcast
    rw [if_neg (by rw [hCode, hUp, hPower]; simp [hSource]), hCrc, hLocal]
    dsimp only
    rw [hPorts]
    rfl
  have hDone : y.mcastDone f p OK = y.sendFrame p { Safety.completion s p f OK 0 [] with source := s.nodeId } := by
    have hState : y.portState p = portUp := (hyEntries _ 1 (by decide) (.inl (by omega))).trans hUp
    have hNode : y.nodeId = s.nodeId := hyEntries _ 1 (by decide) (.inr rfl)
    unfold State.mcastDone
    dsimp only
    rw [if_pos hState, hNode, hyEntries _ 2 (by decide) (.inl (by omega))]
    rfl
  have hClean' : x.rangePoisoned f.address f.payload.length = false := by rw [hShape]; exact hClean
  refine ⟨y.sendFrame p { Safety.completion s p f OK 0 [] with source := s.nodeId }, ?_, ⟨?_, fun z hz => ?_⟩, congrArg (· ++ _) hyOut⟩
  · change execMcastPut p f s = _
    rw [execMcastPut, Laws.onPort_next hp, hTake, hDone]
  · exact (hyBytes _ _).trans (Laws.memBytes_memWrite _ _ hClean')
  · refine (hyByte z).trans ?_
    rw [Laws.memByte_memWrite _ _ _ hClean', if_neg hz, hr.memByte]

end Target

/-- Settles O44: each operation by the bytes it stores and the completion that leaves. -/
theorem operationsLand : Obligations.OperationsLand := by
  unfold Obligations.OperationsLand
  exact ⟨fun _ _ _ => fabricPut_stores, fun _ _ => fabricGet_returns, fun _ _ _ _ => addmod_adds, fun _ _ => fetchadd_adds,
    fun _ _ h hAligned hPayload hAllowed hClean => ⟨fabricSignal_adds h hAligned hPayload hAllowed hClean, fabricSignal_waits h hAligned hPayload hAllowed⟩,
    fun _ _ _ _ => signalPerform_adds, fun _ _ _ _ => mcastPut_stores⟩

end Sys2Proof.Proofs
end

section
/-! PROOFS. Remote operations end, time out or are refused (R309-R312, R315, R316). -/

namespace Sys2Proof.Proofs
open Sys2Proof.Machine

section Ends

variable {s t u : State} {f : Frame} {r : RemoteOp} {tag j status : Nat}

/-- What the outcome of a key's error reaches (R179, R182, R184). -/
theorem keyOutcome_shape (j entry error : Nat) : ∃ d tl jb ti, s.keyOutcome j entry error = { s with dict := d, tiles := tl, jobs := jb, ticks := ti } := by
  obtain ⟨⟨d, hd⟩, -⟩ := keyErrorNoted_notes (s := s) j entry error
  cases hBind : ((s.job j).image).bind fun im => im.streams[entry]? with
  | none =>
    have hOut : s.keyOutcome j entry error = keyErrorNoted s j entry error := by
      have hNone (v : State) (hv : v.jobs = s.jobs) : (((v.job j).image).bind fun im => im.streams[entry]?) = none := by
        rw [State.job, hv]
        exact hBind
      unfold State.keyOutcome keyErrorNoted
      cases keyErrorCounter error with
      | none =>
        dsimp only
        rw [hNone ((s.setEntry (0x7080 + j) 3 error).setEntry (0x7080 + j) 4 entry) rfl]
      | some c =>
        dsimp only
        rw [hNone (((s.setEntry (0x7080 + j) 3 error).setEntry (0x7080 + j) 4 entry).bump 0x7020 c 1) rfl]
    exact ⟨d, s.tiles, s.jobs, s.ticks, by rw [hOut, hd]⟩
  | some e =>
    cases hIm : (s.job j).image with
    | none => rw [hIm] at hBind; cases hBind
    | some im =>
      rw [hIm, Option.bind_some] at hBind
      obtain ⟨v, hv, ⟨d', tl, hShape⟩, -⟩ := keyOutcome_ends (s := s) (error := error) hIm hBind
      obtain ⟨d'', tl', jb, ti, hAbort⟩ := abortJob_shape (s := v) (j := j) (code := error) (tile := 0xFF) (bundle := 0)
      exact ⟨d'', tl', jb, ti, by rw [hv, hAbort, hShape]⟩

/-! ### The end of an operation issues none -/

/-- From `s` to `u` no operation is issued and no byte changes; where none waits for its triple, no triple's next SEQ changes (R311, R316). -/
structure Fewer (s u : State) : Prop where
  mem : u.mem = s.mem
  tags : ∀ o ∈ u.remoteOps, ∃ o' ∈ s.remoteOps, o'.tag = o.tag
  quiet : (s.remoteOps.any fun o => o.waits) = false → (u.remoteOps.any fun o => o.waits) = false ∧ u.seqNext = s.seqNext

namespace Fewer

theorem refl (s : State) : Fewer s s := ⟨rfl, fun o h => ⟨o, h, rfl⟩, fun h => ⟨h, rfl⟩⟩

theorem trans (h : Fewer s t) (h' : Fewer t u) : Fewer s u where
  mem := h'.mem.trans h.mem
  tags o ho := by
    obtain ⟨o', ho', e⟩ := h'.tags o ho
    obtain ⟨o'', ho'', e'⟩ := h.tags o' ho'
    exact ⟨o'', ho'', e'.trans e⟩
  quiet hq := by
    obtain ⟨hq', hs⟩ := h.quiet hq
    obtain ⟨hq'', hs'⟩ := h'.quiet hq'
    exact ⟨hq'', hs'.trans hs⟩

/-- A step that leaves memory, the operations under way and the sequence numbers alone. -/
theorem of_same (hMem : u.mem = s.mem) (hOps : u.remoteOps = s.remoteOps) (hSeq : u.seqNext = s.seqNext) : Fewer s u :=
  ⟨hMem, fun o ho => ⟨o, hOps ▸ ho, rfl⟩, fun hq => ⟨by rw [hOps]; exact hq, hSeq⟩⟩

/-- Operations that are dropped. -/
theorem filter (p : RemoteOp → Bool) : Fewer s { s with remoteOps := s.remoteOps.filter p } :=
  ⟨rfl, fun o ho => ⟨o, List.mem_of_mem_filter ho, rfl⟩, fun hq => ⟨by
    rw [List.any_eq_false] at hq ⊢
    exact fun o ho => hq o (List.mem_of_mem_filter ho), rfl⟩⟩

/-- Operations that change, but for their tags and for whether they wait. -/
theorem map (g : RemoteOp → RemoteOp) (hTag : ∀ o, (g o).tag = o.tag) (hWaits : ∀ o, (g o).waits = true → o.waits = true) :
    Fewer s { s with remoteOps := s.remoteOps.map g } :=
  ⟨rfl, fun o ho => by
    obtain ⟨o', ho', rfl⟩ := List.mem_map.1 ho
    exact ⟨o', ho', (hTag o').symm⟩, fun hq => ⟨by
    rw [List.any_eq_false] at hq ⊢
    intro o ho
    obtain ⟨o', ho', rfl⟩ := List.mem_map.1 ho
    exact fun hw => hq o' ho' (hWaits o' hw), rfl⟩⟩

theorem findOp (h : Fewer s u) (hNone : s.findOp tag = none) : u.findOp tag = none := by
  unfold State.findOp at hNone ⊢
  rw [List.find?_eq_none] at hNone ⊢
  intro o ho
  obtain ⟨o', ho', e⟩ := h.tags o ho
  have := hNone o' ho'
  rw [e] at this
  exact this

theorem abortJob (j code tile bundle : Nat) : Fewer s (s.abortJob j code tile bundle) := by
  obtain ⟨_, _, _, _, e⟩ := abortJob_shape (s := s) (j := j) (code := code) (tile := tile) (bundle := bundle)
  exact of_same (by rw [e]) (by rw [e]) (by rw [e])

theorem faultTile (t : Nat) (x : FaultRecord) : Fewer s (s.faultTile t x) := by
  unfold State.faultTile
  split
  · exact refl s
  · exact (of_same rfl rfl rfl : Fewer s (s.updTile t fun y => { y with record := x })).trans (abortJob ..)

theorem failLop (t code : Nat) (o : LopInst) (target kind : Nat) : Fewer s (s.failLop t code o target kind) := by
  obtain ⟨tl, e⟩ : TilesOnly s (s.poisonUnfinished t o) := (TilesOnly.refl s).poisonRows ..
  exact (of_same (by rw [e]) (by rw [e]) (by rw [e]) : Fewer s (s.poisonUnfinished t o)).trans (faultTile ..)

theorem launchOp (o : RemoteOp) : (s.launchOp o).mem = s.mem ∧ (s.launchOp o).remoteOps = s.remoteOps := by
  unfold State.launchOp
  split
  · exact ⟨rfl, rfl⟩
  · exact ⟨rfl, rfl⟩

theorem releaseWaits (node vl : Nat) : Fewer s (s.releaseWaits node vl) := by
  have hStep (v : State) (o : RemoteOp) (h : v.mem = s.mem ∧ ∀ x ∈ v.remoteOps, ∃ y ∈ s.remoteOps, y.tag = x.tag) (w : State)
      (hw : w = { v with remoteOps := v.remoteOps.map fun (r : RemoteOp) =>
        if r.tag = o.tag then { r with waits := false, issuedAt := v.now, timeout := 1000 * v.entry 0x4010 2 } else r }) :
      (w.launchOp o).mem = s.mem ∧ ∀ x ∈ (w.launchOp o).remoteOps, ∃ y ∈ s.remoteOps, y.tag = x.tag := by
    obtain ⟨hMem, hOps⟩ := launchOp (s := w) o
    rw [hMem, hOps, hw]
    refine ⟨h.1, fun x hx => ?_⟩
    obtain ⟨y, hy, rfl⟩ := List.mem_map.1 hx
    obtain ⟨z, hz, e⟩ := h.2 y hy
    refine ⟨z, hz, e.trans ?_⟩
    split <;> rfl
  have hFold (l : List RemoteOp) : ∀ v : State, (v.mem = s.mem ∧ ∀ x ∈ v.remoteOps, ∃ y ∈ s.remoteOps, y.tag = x.tag) →
      (l.foldl (fun s o => if s.tripleFull node vl then s else State.launchOp { s with remoteOps := s.remoteOps.map fun (r : RemoteOp) =>
        if r.tag = o.tag then { r with waits := false, issuedAt := s.now, timeout := 1000 * s.entry 0x4010 2 } else r } o) v).mem = s.mem
      ∧ ∀ x ∈ (l.foldl (fun s o => if s.tripleFull node vl then s else State.launchOp { s with remoteOps := s.remoteOps.map fun (r : RemoteOp) =>
        if r.tag = o.tag then { r with waits := false, issuedAt := s.now, timeout := 1000 * s.entry 0x4010 2 } else r } o) v).remoteOps,
          ∃ y ∈ s.remoteOps, y.tag = x.tag := by
    induction l with
    | nil => exact fun v hv => hv
    | cons o l ih =>
      intro v hv
      rw [List.foldl_cons]
      refine ih _ ?_
      split
      · exact hv
      · exact hStep v o hv _ rfl
  obtain ⟨hMem, hTags⟩ := hFold (s.remoteOps.filter fun o => o.waits && o.target = node && o.vl = vl) s ⟨rfl, fun x hx => ⟨x, hx, rfl⟩⟩
  exact ⟨hMem, hTags, fun hq => by rw [releaseWaits_none hq]; exact ⟨hq, rfl⟩⟩

theorem foldl {α : Type} {g : State → α → State} (hg : ∀ u x, Fewer u (g u x)) (l : List α) : ∀ {u}, Fewer s u → Fewer s (l.foldl g u) := by
  induction l with
  | nil => exact fun h => h
  | cons x l ih => exact fun h => ih (h.trans (hg _ x))

theorem signalDone (t opId status : Nat) : Fewer s (s.signalDone t opId status) := by
  unfold State.signalDone
  dsimp only
  split
  · obtain ⟨v, hv, hFewer⟩ : ∃ v, v = (s.remoteOps.filter fun r => r.issuer = t && r.opId = opId).foldl (fun s r => s.releaseWaits r.target r.vl)
        { s with remoteOps := s.remoteOps.filter fun r => !(decide (r.issuer = t) && decide (r.opId = opId)) } ∧ Fewer s v :=
      ⟨_, rfl, foldl (fun _ _ => releaseWaits ..) _ (filter _)⟩
    rw [← hv]
    have hEnds : Fewer s (v.updTile t fun x => { x with signalsOut := x.signalsOut.erase opId }) := hFewer.trans (of_same rfl rfl rfl)
    split
    · exact hEnds
    · exact hEnds.trans (faultTile ..)
  · exact refl s

theorem keyOutcome (j entry error : Nat) : Fewer s (s.keyOutcome j entry error) := by
  obtain ⟨_, _, _, _, e⟩ := keyOutcome_shape (s := s) j entry error
  exact of_same (by rw [e]) (by rw [e]) (by rw [e])

theorem streamFail (k error : Nat) : Fewer s (s.streamFail k error) := by
  obtain ⟨c, hc, d, hd⟩ : ∃ c, (if (s.stream k).bound then s.endCheck (streamContext k) else s) = c ∧ ∃ d, c = { s with dict := d } := by
    refine ⟨_, rfl, ?_⟩
    split
    · exact (endCheck_entries _).1
    · exact ⟨_, rfl⟩
  obtain ⟨a, b, hDrop⟩ := dropCredits_shape (s := c.setStream k { s.stream k with state := 5, error := error }) (s.stream k)
  unfold State.streamFail
  dsimp only
  rw [hc, hDrop]
  exact (of_same (by rw [hd]; rfl) (by rw [hd]; rfl) (by rw [hd]; rfl)).trans (keyOutcome ..)

theorem endRun (c : CheckRun) (status : Nat) : Fewer s (s.endRun c status) := by
  have hOrphan : Fewer s (s.orphanOps fun r => r.issuer = issuerCheck) :=
    (filter fun r => !(r.waits && decide (r.issuer = issuerCheck))).trans (map (fun (r : RemoteOp) => if decide (r.issuer = issuerCheck) = true then { r with issuer := issuerNone } else r)
      (fun o => by split <;> rfl) fun o h => by split at h <;> exact h)
  generalize hv : s.orphanOps (fun r => r.issuer = issuerCheck) = v at hOrphan
  obtain ⟨⟨d, hd⟩, -⟩ := endCheck_entries (s := { v with checkRun := none }) c.context
  unfold State.endRun
  rw [hv, hd]
  exact hOrphan.trans (of_same rfl rfl rfl)

theorem endCheckOp (status : Nat) : Fewer s (s.endCheckOp status) := by
  unfold State.endCheckOp
  split
  · split
    · exact refl s
    · next c _ _ => exact (of_same rfl rfl rfl : Fewer s (s.foldPart c)).trans (endRun ..)
  · exact refl s

/-- An issuer that is neither the supervisor nor the conversion's tile issues nothing at an end. -/
theorem endIssuer (data : List Byte) (hIssuer : r.issuer ≠ issuerSupervisor) (hJob : 64 ≤ r.issuer ∨ r.job ≠ 0xFF) : Fewer s (s.endIssuer r status data) := by
  unfold State.endIssuer
  split
  · next hTile =>
    have hOwn : r.job ≠ 0xFF := hJob.resolve_left (by omega)
    unfold State.endTileOp
    rw [if_neg hOwn]
    split
    · exact signalDone ..
    · split
      · exact refl s
      · split
        · exact failLop ..
        · exact refl s
  · split
    · exact endCheckOp status
    · split
      · unfold State.endGeyserOp
        split
        · exact streamFail ..
        · exact refl s
      · exact refl s

theorem countFail (host : Bool) (code : Nat) : Fewer s (s.countFail host code) := by
  unfold State.countFail
  repeat' split
  all_goals exact of_same rfl rfl rfl

end Fewer

/-- The end of an operation frees its tag (R316). -/
theorem endOp_frees (data : List Byte) (hIssuer : r.issuer ≠ issuerSupervisor) (hJob : 64 ≤ r.issuer ∨ r.job ≠ 0xFF) :
    Fewer s (s.endOp r status data) ∧ (s.endOp r status data).findOp r.tag = none := by
  have hDrop : (s.dropOp r.tag).findOp r.tag = none := by
    unfold State.findOp
    rw [List.find?_eq_none]
    intro o ho
    rw [State.dropOp, List.mem_filter] at ho
    simpa using ho.2
  have hEnd : Fewer (s.dropOp r.tag) (s.endOp r status data) := by
    unfold State.endOp
    dsimp only
    have hLast := ((Fewer.refl (s.dropOp r.tag)).trans (Fewer.countFail r.host status)).trans (Fewer.endIssuer (r := r) (status := status) data hIssuer hJob)
    split
    · exact hLast
    · exact hLast.trans (Fewer.releaseWaits ..)
  exact ⟨(Fewer.filter fun o => o.tag ≠ r.tag).trans hEnd, hEnd.findOp hDrop⟩

theorem restartTriple_fewer : (s.restartTriple r).mem = s.mem ∧ ((s.remoteOps.any fun o => o.waits) = false → ((s.restartTriple r).remoteOps.any fun o => o.waits) = false)
    ∧ (s.restartTriple r).nextSeq r.target r.vl = 0 := by
  refine ⟨rfl, fun hq => ?_, Laws.tab_get_put_same ..⟩
  rw [List.any_eq_false] at hq ⊢
  intro o ho
  obtain ⟨o', ho', rfl⟩ := List.mem_map.1 ho
  intro hw
  refine hq o' ho' ?_
  split at hw <;> exact hw

section Completion

variable (hCode : f.opcode = 0x20) (hPower : s.hostPowered = true) (hOwn : s.mcastWaitOf f = none) (hTarget : f.target = s.nodeId)
include hCode hPower hOwn hTarget

theorem fabricCompletion_own : exec (.fabricCompletion f) s = .next (s.completeOwn f) := by
  change execFabricCompletion f s = _
  unfold execFabricCompletion
  rw [if_neg (by rw [hCode, hPower]; decide), hOwn]
  dsimp only
  rw [if_pos hTarget]

theorem fabricCompletion_late (hNone : s.findOp f.tag = none) : exec (.fabricCompletion f) s = .next (s.bump 0x4038 8 1) := by
  rw [fabricCompletion_own hCode hPower hOwn hTarget, State.completeOwn, hNone]

theorem fabricCompletion_ends (hFind : s.findOp f.tag = some r) (hHost : r.host = false) (hWaits : r.waits = false) (hNotMcast : r.opcode ≠ 6)
    (hSource : r.target = f.source) (hIssuer : r.issuer ≠ issuerSupervisor) (hJob : 64 ≤ r.issuer ∨ r.job ≠ 0xFF) (hTag : r.tag = f.tag) :
    ∃ s2, exec (.fabricCompletion f) s = .next s2 ∧ s2.findOp f.tag = none ∧ s2.mem = s.mem
      ∧ (f.crcOk = true → f.address % 65536 = FABRIC_CRC → r.stale = false → (s.remoteOps.any fun o => o.waits) = false → s2.nextSeq r.target r.vl = 0) := by
  obtain ⟨v, hv⟩ : ∃ v, v = (if f.crcOk ∧ frameStatus f = FABRIC_CRC ∧ !r.stale then s.restartTriple r else s) := ⟨_, rfl⟩
  have hEnd : s.completeOwn f = v.endOp r (frameStatus f) (if r.opcode = 4 then leBytes 8 f.operand else f.payload) := by
    unfold State.completeOwn
    rw [hFind]
    dsimp only
    rw [if_neg (by rw [hHost, hWaits]; simp [hNotMcast, hSource]), hv]
  obtain ⟨hFewer, hFree⟩ := endOp_frees (s := v) (r := r) (status := frameStatus f) (if r.opcode = 4 then leBytes 8 f.operand else f.payload) hIssuer hJob
  obtain ⟨hMem, hQuiet, hSeq⟩ := restartTriple_fewer (s := s) (r := r)
  refine ⟨_, by rw [fabricCompletion_own hCode hPower hOwn hTarget, hEnd], hTag ▸ hFree, hFewer.mem.trans ?_, fun hCrc hStatus hFresh hq => ?_⟩
  · rw [hv]
    split
    · exact hMem
    · rfl
  · have hRestart : v = s.restartTriple r := hv.trans (if_pos ⟨hCrc, by rw [frameStatus, if_pos hCrc, hStatus], by rw [hFresh]; rfl⟩)
    rw [hRestart] at hFewer ⊢
    rw [State.nextSeq, (hFewer.quiet (hQuiet hq)).2]
    exact hSeq

end Completion

/-! ### A completion that does not come -/

/-- What leaves as a triple gets room changes no byte, no job and no failure count (R311). -/
theorem releaseWaits_keeps (node vl : Nat) : (s.releaseWaits node vl).jobs = s.jobs ∧ (s.releaseWaits node vl).entry 0x4038 3 = s.entry 0x4038 3 := by
  have hLaunch (v : State) (o : RemoteOp) : (v.launchOp o).jobs = v.jobs ∧ (v.launchOp o).entry 0x4038 3 = v.entry 0x4038 3 := by
    unfold State.launchOp
    split
    · exact ⟨rfl, rfl⟩
    · exact ⟨rfl, Laws.entry_setEntry_sub _ _ _ _ _ (by decide)⟩
  unfold State.releaseWaits
  generalize s.remoteOps.filter _ = l
  induction l generalizing s with
  | nil => exact ⟨rfl, rfl⟩
  | cons o l ih =>
    rw [List.foldl_cons]
    split
    · exact ih
    · obtain ⟨hJobs, hCount⟩ := ih (s := State.launchOp { s with remoteOps := s.remoteOps.map fun (r : RemoteOp) =>
        if r.tag = o.tag then { r with waits := false, issuedAt := s.now, timeout := 1000 * s.entry 0x4010 2 } else r } o)
      obtain ⟨hJobs', hCount'⟩ := hLaunch { s with remoteOps := s.remoteOps.map fun (r : RemoteOp) =>
        if r.tag = o.tag then { r with waits := false, issuedAt := s.now, timeout := 1000 * s.entry 0x4010 2 } else r } o
      exact ⟨hJobs.trans hJobs', hCount.trans hCount'⟩

theorem completionTimeout_ends {o : LopInst} (hFind : s.findOp tag = some r) (hTag : r.tag = tag) (hHost : r.host = false) (hDue : s.timedOut r = true)
    (hTile : r.issuer < 64) (hJob : r.job ≠ 0xFF) (hCode : r.opcode ≠ 5) (hOp : (s.tile r.issuer).runningOp r.opId = some o)
    (hj : s.jobOfTile r.issuer = some j) (hRun : (s.job j).state = .running) :
    ∃ s2, exec (.completionTimeout tag) s = .next s2 ∧ s2.findOp tag = none ∧ (s2.job j).state = .draining ∧ (s2.job j).abortCode = FABRIC_TIMEOUT
      ∧ s2.entry 0x4038 3 = satAdd (2 ^ 32 - 1) (s.entry 0x4038 3) 1 ∧ s2.mem = s.mem := by
  obtain ⟨v, hv⟩ : ∃ v, v = { s with mcastWaits := s.mcastWaits.filter fun w => !(decide (w.fromPort = 255) && decide (w.tag = tag)) } := ⟨_, rfl⟩
  have hExec : exec (.completionTimeout tag) s = .next (v.endOp r FABRIC_TIMEOUT []) := by
    change execCompletionTimeout tag s = _
    unfold execCompletionTimeout
    rw [hFind]
    dsimp only
    rw [hDue, hHost, hv]
    rfl
  obtain ⟨hFewer, hFree⟩ := endOp_frees (s := v) (r := r) (status := FABRIC_TIMEOUT) [] (by
    rw [show issuerSupervisor = 65 from rfl]
    omega) (.inr hJob)
  obtain ⟨w, hw, hwTile, hwJobs, hwMem, hwCount⟩ : ∃ w, w = (v.dropOp r.tag).bump 0x4038 3 1 ∧ w.tile r.issuer = s.tile r.issuer ∧ w.jobs = s.jobs ∧ w.mem = s.mem
      ∧ w.entry 0x4038 3 = satAdd (2 ^ 32 - 1) (s.entry 0x4038 3) 1 := by
    refine ⟨_, rfl, by rw [hv]; rfl, by rw [hv]; rfl, by rw [hv]; rfl, ?_⟩
    rw [Laws.bump_eq, Laws.entry_setEntry_same, hv]
    rfl
  have hEnd : v.endOp r FABRIC_TIMEOUT [] = (w.failLop r.issuer FABRIC_TIMEOUT o 0 0).releaseWaits r.target r.vl := by
    have hCount : (v.dropOp r.tag).countFail false FABRIC_TIMEOUT = w := hw.symm
    have hTileEnd : w.endIssuer r FABRIC_TIMEOUT [] = w.failLop r.issuer FABRIC_TIMEOUT o 0 0 := by
      unfold State.endIssuer State.endTileOp
      rw [if_pos hTile, if_neg hJob, if_neg hCode, if_neg (by decide), hwTile, hOp]
    unfold State.endOp
    dsimp only
    rw [hHost, hCount, hTileEnd]
    rfl
  obtain ⟨x, hEnds, ⟨tl, hx⟩, -⟩ := failLop_shape (s := w) (t := r.issuer) (code := FABRIC_TIMEOUT) (target := 0) (kind := 0) (o := o) (j := j)
    ((jobOfTile_congr hwJobs).trans hj) (by rw [State.job, hwJobs]; exact hRun)
  obtain ⟨hState, -, hAbort, -⟩ := hEnds.ended
  obtain ⟨hJobs, hCount⟩ := releaseWaits_keeps (s := w.failLop r.issuer FABRIC_TIMEOUT o 0 0) r.target r.vl
  refine ⟨_, hExec, hTag ▸ hFree, ?_, ?_, ?_, hFewer.mem.trans (by rw [hv])⟩
  · rw [hEnd, State.job, hJobs]
    exact hState
  · rw [hEnd, State.job, hJobs]
    exact hAbort
  · rw [hEnd, hCount, hEnds.entries _ _ (by decide) (by decide), hx]
    exact hwCount

theorem completionTimeout_early (hFind : s.findOp tag = some r) (hEarly : s.timedOut r = false) : exec (.completionTimeout tag) s = .next s := by
  change execCompletionTimeout tag s = _
  unfold execCompletionTimeout
  rw [hFind]
  dsimp only
  rw [hEarly]
  rfl

theorem issuerFence_finishes {t : Nat} {o : LopInst} (ht : t < 64) (hDone : s.issuerBusy t = false)
    (hFind : ((s.tile t).running.find? fun o => o.op.code = lopFenceCode && (s.tile t).fenceDone o.id) = some o) :
    ∃ s2, exec (.issuerFence t) s = .next s2 ∧ (s2.tile t).runningOp o.id = none ∧ s2.mem = s.mem ∧ s2.jobs = s.jobs ∧ s2.dict = s.dict
      ∧ ∀ u, u ≠ t → s2.tile u = s.tile u := by
  refine ⟨s.updTile t fun x => x.retire o.id, ?_, ?_, rfl, rfl, rfl, fun u hu => Laws.tile_updTile_ne _ hu⟩
  · change execIssuerFence t s = _
    unfold execIssuerFence
    rw [if_neg (by rw [hDone]; simp; omega), hFind]
  · rw [Laws.tile_updTile_same, Tile.runningOp, Tile.retire, List.find?_eq_none]
    intro p hp
    rw [List.mem_filter] at hp
    simpa using hp.2

/-! ### Refusals at the target -/

theorem fabricPut_ungranted (h : Safety.arrives s f 1 = true) (hLength : f.length = f.payload.length) (hIn : inStack f.address f.payload.length = true)
    (hGrant : s.granted f.source f.address f.payload.length 1 = false) :
    ∃ s2, exec (.fabricPut f) s = .next s2 ∧ s2.mem = s.mem ∧ Safety.answered s s2 f ACCESS_PROTECT 0 []
      ∧ s2.entry 0x4038 6 = satAdd (2 ^ 32 - 1) (s.entry 0x4038 6) 1 := by
  have hSome : f.payload.length ≠ 0 := fun e => by
    rw [State.granted, decide_eq_true e, Bool.true_or] at hGrant
    cases hGrant
  have hPerform : (atTurn s f).performPut f = ((atTurn s f).bump 0x4038 6 1).decideOp f ACCESS_PROTECT 0 [] := by
    unfold State.performPut
    rw [landing_stack hIn (by omega)]
    dsimp only
    rw [show (atTurn s f).granted f.source f.address f.payload.length 1 = false from hGrant]
    split
    · rfl
    · split
      · rfl
      · rfl
  have hCount : (((atTurn s f).bump 0x4038 6 1).decideOp f ACCESS_PROTECT 0 []).entry 0x4038 6 = satAdd (2 ^ 32 - 1) (s.entry 0x4038 6) 1 := by
    have hBump : ((atTurn s f).bump 0x4038 6 1).entry 0x4038 6 = satAdd (2 ^ 32 - 1) (s.entry 0x4038 6) 1 := by
      rw [Laws.bump_eq, Laws.entry_setEntry_same]
      rfl
    generalize (atTurn s f).bump 0x4038 6 1 = x at hBump
    rw [State.decideOp, if_neg (by decide)]
    unfold State.complete
    dsimp only
    split
    · exact hBump
    · exact (Laws.entry_setEntry_sub _ _ _ _ _ (by decide)).trans hBump
  have hAnswered : Safety.answered s (((atTurn s f).bump 0x4038 6 1).decideOp f ACCESS_PROTECT 0 []) f ACCESS_PROTECT 0 [] :=
    decideOp_answers ⟨rfl, rfl, fun p hp => ⟨fun hUp => (Laws.entry_setEntry_index _ _ _ _ _ _ (by decide) (by decide) (by omega)).trans hUp,
      Laws.entry_setEntry_index _ _ _ _ _ _ (by decide) (by decide) (by omega)⟩⟩
  obtain ⟨hMem, -⟩ := decideOp_memory (u := (atTurn s f).bump 0x4038 6 1) (f := f) (status := ACCESS_PROTECT) (operand := 0) (data := [])
  refine ⟨_, ?_, hMem, hAnswered, hCount⟩
  change Host.Outcome.next (s.takeOp f 1 .clean fun s => s.performPut f) = _
  rw [takeOp_acts h, hPerform]

/-- A frame that leaves through a port changes that port's lanes and what has left, and no more (R301). -/
theorem complete_sent {p : Nat} (hRoute : s.routePort f.source = some p) :
    ∃ l, s.complete f status 0 [] = { s with ports := l, out := s.out ++ [.fabric p (Safety.completion s p f status 0 [])] } := by
  unfold State.complete
  rw [hRoute]
  exact ⟨_, rfl⟩

theorem dropLostSignals_none (h : s.heldFrames = []) : s.dropLostSignals = s := by
  unfold State.dropLostSignals
  rw [h]
  exact congrArg (fun l => ({ s with heldFrames := l } : State)) h.symm

/-- A count of the fabric's failures and the triples that have failed change nothing that a completion rests on. -/
theorem counted_wired (k : Nat) (l : List Nat) (hk : k < 256 := by decide) : Wired s { s.bump 0x4038 k 1 with failedTriples := l } :=
  ⟨rfl, rfl, fun p hp => ⟨fun hUp => (Laws.entry_setEntry_index _ _ _ _ _ _ hk (by decide) (by omega)).trans hUp,
    Laws.entry_setEntry_index _ _ _ _ _ _ hk (by decide) (by omega)⟩⟩

/-- A frame whose CRC fails completes with FABRIC_CRC, and its triple has failed (R315). -/
theorem failTriple_fails {p : Nat} (hHeld : s.heldFrames = []) (hRoute : s.routePort f.source = some p) :
    ∃ l, s.failTriple f = { s.bump 0x4038 4 1 with
      failedTriples := frameTriple f :: s.failedTriples.filter fun k => k ≠ frameTriple f
      ports := l
      out := s.out ++ [.fabric p (Safety.completion s p f FABRIC_CRC 0 [])] } := by
  obtain ⟨v, hv, hWired⟩ : ∃ v : State, v = { s.bump 0x4038 4 1 with failedTriples := frameTriple f :: s.failedTriples.filter fun k => k ≠ frameTriple f } ∧ Wired s v :=
    ⟨_, rfl, counted_wired _ _⟩
  obtain ⟨hPort, hVersion⟩ := hWired.route hRoute
  obtain ⟨l, hSent⟩ := complete_sent (status := FABRIC_CRC) hPort
  have hCompletion : Safety.completion v p f FABRIC_CRC 0 [] = Safety.completion s p f FABRIC_CRC 0 [] := by
    unfold Safety.completion
    rw [hVersion]
  refine ⟨l, ?_⟩
  unfold State.failTriple
  dsimp only
  rw [← hv, hSent, hCompletion, dropLostSignals_none (by rw [hv]; exact hHeld), hv]
  rfl

/-- A frame of a triple whose frame's CRC fails is answered FABRIC_CRC, and so is each later one until SEQ 0 (R315). -/
theorem fabricPut_corrupt {p : Nat} (h : Safety.inOrder s f 1 = true) (hReady : s.ready = true) (hGood : s.failedTriples.contains (frameTriple f) = false)
    (hCrc : f.crcOk = false) (hHeld : s.heldFrames = []) (hRoute : s.routePort f.source = some p) :
    ∃ s2, exec (.fabricPut f) s = .next s2 ∧ s2.mem = s.mem ∧ s2.failedTriples.contains (frameTriple f) = true
      ∧ s2.out = s.out ++ [.fabric p (Safety.completion s p f FABRIC_CRC 0 [])]
      ∧ ∀ g : Frame, g.source = f.source → g.vl = f.vl → g.target = s.nodeId → g.opcode = 1 → g.seq ≠ 0 →
          ∃ s3, exec (.fabricPut g) s2 = .next s3 ∧ s3.mem = s.mem ∧ s3.out = s2.out ++ [.fabric p (Safety.completion s p g FABRIC_CRC 0 [])] := by
  simp only [Safety.inOrder, Bool.and_eq_true, Bool.not_eq_true'] at h
  obtain ⟨⟨hTakes, hFree⟩, hBehind⟩ := h
  obtain ⟨l, hFail⟩ := failTriple_fails hHeld hRoute
  have hFirst : s.takeOp f 1 .clean (fun s => s.performPut f) = s.failTriple f := by
    rw [State.takeOp, hTakes, hFree, hBehind, State.decideArrived, hReady, hGood, hCrc]
    rfl
  have hEntry (i k : Nat) (hk : k < 256) (hi : i ≠ 0x4038) : (s.failTriple f).entry i k = s.entry i k := by
    rw [hFail]
    exact Laws.entry_setEntry_index _ _ _ _ _ _ (by decide) hk hi
  have hNode : (s.failTriple f).nodeId = s.nodeId := hEntry 0x4010 1 (by decide) (by decide)
  have hContains : (frameTriple f :: s.failedTriples.filter fun k => k ≠ frameTriple f).contains (frameTriple f) = true := by simp
  refine ⟨s.failTriple f, congrArg Host.Outcome.next hFirst, by rw [hFail]; rfl, by rw [hFail]; exact hContains, by rw [hFail], fun g hSource hLane hTarget hCode hSeq => ?_⟩
  have hTriple : frameTriple g = frameTriple f := by rw [frameTriple, frameTriple, hSource, hLane]
  obtain ⟨v, hv, hOut, hWired, hSame⟩ : ∃ v, v = s.failTriple f ∧ v.out = (s.failTriple f).out ∧ Wired { s with out := v.out } (v.bump 0x4038 4 1)
      ∧ v.takes g 1 = true ∧ v.tripleHeld (frameTriple g) = false ∧ (v.behind.any fun p => frameTriple p.1 = frameTriple g) = false
      ∧ v.ready = true ∧ v.failedTriples.contains (frameTriple g) = true ∧ v.mem = s.mem := by
    refine ⟨_, rfl, rfl, ?_, ?_, ?_, ?_, ?_, ?_, ?_⟩
    · rw [hFail]
      exact ⟨rfl, rfl, fun p hp => by
        obtain ⟨hUp, hVersion⟩ := (counted_wired (s := (s.bump 0x4038 4 1)) 4 []).links p hp
        obtain ⟨hUpFirst, hVersionFirst⟩ := (counted_wired (s := s) 4 []).links p hp
        exact ⟨fun h => hUp (hUpFirst h), hVersion.trans hVersionFirst⟩⟩
    · simp only [State.takes, Bool.and_eq_true, decide_eq_true_eq] at hTakes ⊢
      rw [hNode]
      obtain ⟨⟨⟨-, -⟩, hForeign⟩, hPower⟩ := hTakes
      exact ⟨⟨⟨hCode, hTarget⟩, hSource ▸ hForeign⟩, by rw [hFail]; exact hPower⟩
    · rw [hTriple, hFail]; exact hFree
    · rw [hTriple, hFail]; exact hBehind
    · rw [State.ready, hEntry 0x1100 1 (by decide) (by decide)]; exact hReady
    · rw [hTriple, hFail]; exact hContains
    · rw [hFail]; rfl
  obtain ⟨hTakesNext, hFreeNext, hBehindNext, hReadyNext, hFailed, hMem⟩ := hSame
  have hNext : v.takeOp g 1 .clean (fun s => s.performPut g) = (v.bump 0x4038 4 1).complete g FABRIC_CRC 0 [] := by
    rw [State.takeOp, hTakesNext, hFreeNext, hBehindNext, State.decideArrived, hReadyNext, hFailed]
    rw [if_neg (by decide), if_neg (by simp), if_neg (by decide), if_pos ⟨rfl, hSeq⟩]
  have hRouteNext : ({ s with out := v.out } : State).routePort g.source = some p := by rw [hSource]; exact hRoute
  rw [← hv]
  refine ⟨_, congrArg Host.Outcome.next hNext, ?_, complete_leaves hWired hRouteNext⟩
  obtain ⟨_, _, _, _, e⟩ := ((WireFrame.refl (v.bump 0x4038 4 1)).complete g FABRIC_CRC 0 []).shape
  rw [e]
  exact hMem

theorem fabricPut_held (hTakes : s.takes f 1 = true) (hHeld : s.tripleHeld (frameTriple f) = true) :
    exec (.fabricPut f) s = .next { s with behind := s.behind ++ [(f, .clean)] } := by
  change Host.Outcome.next (s.takeOp f 1 .clean fun s => s.performPut f) = _
  rw [State.takeOp, hTakes, if_neg (by decide), if_pos (.inl hHeld)]

end Ends

/-- Settles O45: an end frees the operation's tag and changes no byte, a late completion is counted, a timeout ends the job of the tile's transfer, and an operation
that is refused is answered and changes no byte. -/
theorem operationsEnd : Obligations.OperationsEnd := by
  unfold Obligations.OperationsEnd
  exact ⟨fun s f hCode hPower hOwn hTarget => ⟨fabricCompletion_late hCode hPower hOwn hTarget,
      fun r hFind hHost hWaits hOp hSource hIssuer hJob hTag => fabricCompletion_ends hCode hPower hOwn hTarget hFind hHost hWaits hOp hSource hIssuer hJob hTag⟩,
    fun s tag j r o hFind hTag hHost hDue hTile hJob hCode hOp hj hRun => completionTimeout_ends hFind hTag hHost hDue hTile hJob hCode hOp hj hRun,
    fun s tag r hFind hEarly => completionTimeout_early hFind hEarly,
    fun s t o ht hDone hFind => issuerFence_finishes ht hDone hFind,
    fun s f h hLength hIn hGrant => fabricPut_ungranted h hLength hIn hGrant,
    fun s f p h hReady hGood hCrc hHeld hRoute => fabricPut_corrupt h hReady hGood hCrc hHeld hRoute,
    fun s f hTakes hHeld => fabricPut_held hTakes hHeld⟩

end Sys2Proof.Proofs
end

section
/-! PROOFS. The host link trains, resets and reports ready (R325-R327, R422). -/

namespace Sys2Proof.Proofs
open Sys2Proof.Machine

section Plug

variable {s t u : State} {r : RemoteOp} {j x code : Nat} {im : Image}

/-! ### What the end of an operation leaves of PERST# and of the module's report -/

/-- PERST# is as it was, and so is whether the module has reported ready (R422). -/
def Plugged (s u : State) : Prop := u.hostLink.perst = s.hostLink.perst ∧ u.hostLink.readyReported = s.hostLink.readyReported

namespace Plugged

theorem refl (s : State) : Plugged s s := ⟨rfl, rfl⟩

theorem trans (h : Plugged s t) (h' : Plugged t u) : Plugged s u := ⟨h'.1.trans h.1, h'.2.trans h.2⟩

theorem of_same (h : u.hostLink = s.hostLink) : Plugged s u := ⟨by rw [h], by rw [h]⟩

theorem foldl {α : Type} {g : State → α → State} (hg : ∀ u x, Plugged u (g u x)) (l : List α) : ∀ s, Plugged s (l.foldl g s) := by
  induction l with
  | nil => exact refl
  | cons x l ih => exact fun s => (hg s x).trans (ih _)

theorem abortJob (j code tile bundle : Nat) : Plugged s (s.abortJob j code tile bundle) := by
  obtain ⟨_, _, _, _, e⟩ := abortJob_shape (s := s) (j := j) (code := code) (tile := tile) (bundle := bundle)
  exact of_same (by rw [e])

theorem faultTile (t : Nat) (x : FaultRecord) : Plugged s (s.faultTile t x) := by
  unfold State.faultTile
  split
  · exact refl s
  · exact (of_same rfl : Plugged s (s.updTile t fun y => { y with record := x })).trans (abortJob ..)

theorem failLop (t code : Nat) (o : LopInst) (target kind : Nat) : Plugged s (s.failLop t code o target kind) := by
  obtain ⟨tl, e⟩ : TilesOnly s (s.poisonUnfinished t o) := (TilesOnly.refl s).poisonRows ..
  exact (of_same (by rw [e]) : Plugged s (s.poisonUnfinished t o)).trans (faultTile ..)

theorem launchOp (o : RemoteOp) : Plugged s (s.launchOp o) := by
  unfold State.launchOp
  split
  · exact refl s
  · exact ⟨rfl, rfl⟩

theorem releaseWaits (node vl : Nat) : Plugged s (s.releaseWaits node vl) := by
  refine foldl (fun u o => ?_) _ s
  split
  · exact refl u
  · exact (of_same rfl : Plugged u { u with remoteOps := _ }).trans (launchOp o)

theorem signalDone (t opId status : Nat) : Plugged s (s.signalDone t opId status) := by
  unfold State.signalDone
  dsimp only
  split
  · obtain ⟨v, hv, hKeeps⟩ : ∃ v, v = (s.remoteOps.filter fun r => r.issuer = t && r.opId = opId).foldl (fun s r => s.releaseWaits r.target r.vl)
        { s with remoteOps := s.remoteOps.filter fun r => !(decide (r.issuer = t) && decide (r.opId = opId)) } ∧ Plugged s v :=
      ⟨_, rfl, trans (t := { s with remoteOps := s.remoteOps.filter fun r => !(decide (r.issuer = t) && decide (r.opId = opId)) }) (of_same rfl)
        (foldl (fun _ (r : RemoteOp) => releaseWaits r.target r.vl) _ _)⟩
    rw [← hv]
    have hEnds : Plugged s (v.updTile t fun x => { x with signalsOut := x.signalsOut.erase opId }) := hKeeps.trans (of_same rfl)
    split
    · exact hEnds
    · exact hEnds.trans (faultTile ..)
  · exact refl s

theorem memWrite (a : Nat) (d : List Byte) : Plugged s (s.memWrite a d) := by
  obtain ⟨_, _, _, e⟩ := memWrite_shape (s := s) a d
  exact of_same (by rw [e])

theorem convFail (c : Conversion) (code : Nat) : Plugged s (s.convFail c code) := by
  have hDest : Plugged s (s.undefineDestination c) := by
    unfold State.undefineDestination
    split
    · exact (of_same rfl : Plugged s s.useFree).trans (memWrite ..)
    · exact refl s
  refine hDest.trans ?_
  unfold State.convFail State.endConversion State.noteIdle
  split
  · exact ⟨rfl, rfl⟩
  · exact ⟨rfl, rfl⟩

theorem endTileOp (r : RemoteOp) (status : Nat) : Plugged s (s.endTileOp r status) := by
  unfold State.endTileOp
  split
  · split
    · split
      · exact convFail ..
      · exact refl s
    · exact refl s
  · split
    · exact signalDone ..
    · split
      · exact refl s
      · split
        · exact failLop ..
        · exact refl s

theorem endCheckOp (status : Nat) : Plugged s (s.endCheckOp status) := by
  unfold State.endCheckOp
  split
  · split
    · exact refl s
    · next c _ _ =>
      obtain ⟨⟨_, e⟩, -⟩ := endCheck_entries (s := { (s.foldPart c).orphanOps (fun r => r.issuer = issuerCheck) with checkRun := none }) c.context
      unfold State.endRun
      rw [e]
      exact of_same rfl
  · exact refl s

theorem keyOutcome (j entry error : Nat) : Plugged s (s.keyOutcome j entry error) := by
  obtain ⟨_, _, _, _, e⟩ := keyOutcome_shape (s := s) j entry error
  exact of_same (by rw [e])

theorem endGeyserOp (r : RemoteOp) (status : Nat) : Plugged s (s.endGeyserOp r status) := by
  unfold State.endGeyserOp
  split
  · unfold State.streamFail
    obtain ⟨c, hc, d, hd⟩ : ∃ c, (if (s.stream r.opId).bound then s.endCheck (streamContext r.opId) else s) = c ∧ ∃ d, c = { s with dict := d } := by
      refine ⟨_, rfl, ?_⟩
      split
      · exact (endCheck_entries _).1
      · exact ⟨_, rfl⟩
    obtain ⟨a, b, hDrop⟩ := dropCredits_shape (s := c.setStream r.opId { s.stream r.opId with state := 5, error := status }) (s.stream r.opId)
    dsimp only
    rw [hc, hDrop]
    exact (of_same (by rw [hd]; rfl)).trans (keyOutcome ..)
  · exact refl s

theorem sendHost (r : RemoteOp) : Plugged s (s.sendHost r) := by
  refine foldl (fun u i => ?_) _ s
  split
  · exact ⟨rfl, rfl⟩
  · unfold State.takeHostTag
    dsimp only
    split
    · exact ⟨rfl, rfl⟩
    · exact ⟨rfl, rfl⟩

theorem issueOp (node vl opcode address length operand : Nat) (data : List Byte) (issuer job opId : Nat) :
    Plugged s (s.issueOp node vl opcode address length operand data issuer job opId) := by
  unfold State.issueOp
  dsimp only
  split
  · exact (of_same rfl : Plugged s (State.bump { s with remoteOps := _, nextTag := _ } 0x5040 7 1)).trans (sendHost _)
  · split
    · exact refl s
    · split
      · exact ⟨rfl, rfl⟩
      · exact (of_same rfl : Plugged s { s with remoteOps := _, nextTag := _ }).trans (launchOp _)

theorem countFail (host : Bool) (code : Nat) : Plugged s (s.countFail host code) := by
  unfold State.countFail
  repeat' split
  all_goals exact ⟨rfl, rfl⟩

theorem poisonDescriptor (im : Image) (j x : Nat) : Plugged s (s.poisonDescriptor im j x) := by
  unfold State.poisonDescriptor
  dsimp only
  split
  · split
    · exact memWrite ..
    · exact refl s
  · split
    · exact (countFail ..).trans ⟨rfl, rfl⟩
    · exact issueOp ..

theorem markPoison (base len : Nat) : Plugged s (s.markPoison base len) := by
  unfold State.markPoison
  dsimp only
  repeat' split
  all_goals exact ⟨rfl, rfl⟩

theorem commitFails (j x code : Nat) : Plugged s (s.commitFails j x code) := by
  have hMark (v : State) (c : Prop) [Decidable c] (a n : Nat) : Plugged v (if c then v.markPoison a n else v) := by
    split
    · exact markPoison ..
    · exact refl v
  unfold State.commitFails
  dsimp only
  have hSet : Plugged s (s.setJob j { s.job j with
      commitFailed := if (s.job j).commitFailed = 0 then code else (s.job j).commitFailed
      commits := (s.job j).commits.filter fun c => decide (c.handle ≠ x) }) := ⟨rfl, rfl⟩
  generalize s.setJob j _ = v at hSet ⊢
  split
  · exact hSet
  · split
    · exact (hSet.trans (hMark v _ _ _)).trans (poisonDescriptor ..)
    · exact hSet.trans (hMark v _ _ _)

theorem refuseBinding (j x code : Nat) : Plugged s (s.refuseBinding j x code) := by
  have hNote (v : State) : Plugged v (v.noteLedgerError j code x) := by
    unfold State.noteLedgerError
    dsimp only
    repeat' split
    all_goals exact ⟨rfl, rfl⟩
  unfold State.refuseBinding
  exact (trans (t := s.updJob j fun y => { y with bindNext := none }) (of_same rfl) (hNote _)).trans (abortJob ..)

theorem endSupervisorOp (r : RemoteOp) (status : Nat) (data : List Byte) : Plugged s (s.endSupervisorOp r status data) := by
  unfold State.endSupervisorOp
  split
  · exact ⟨rfl, rfl⟩
  · split
    · exact refl s
    · dsimp only
      split
      · exact refl s
      · split
        · split
          · unfold State.bindBytes
            dsimp only
            split
            · exact refuseBinding ..
            · exact ⟨rfl, rfl⟩
          · exact refuseBinding ..
        · split
          · exact refl s
          · split
            · exact commitFails ..
            · unfold State.settleValid
              split
              · exact ⟨rfl, rfl⟩
              · exact refl s

theorem endOp (r : RemoteOp) (status : Nat) (data : List Byte) : Plugged s (s.endOp r status data) := by
  have hIssuer (v : State) : Plugged v (v.endIssuer r status data) := by
    unfold State.endIssuer
    split
    · exact endTileOp ..
    · split
      · exact endCheckOp status
      · split
        · exact endGeyserOp ..
        · split
          · exact endSupervisorOp ..
          · exact refl v
  have hLast := ((of_same rfl : Plugged s (s.dropOp r.tag)).trans (countFail r.host status)).trans (hIssuer _)
  unfold State.endOp
  dsimp only
  split
  · exact hLast
  · exact hLast.trans (releaseWaits ..)

theorem failHostOps (s : State) : Plugged s s.failHostOps := foldl (fun _ r => endOp r ..) _ s

end Plugged

/-! ### Function state at its reset values -/

/-- Without an operation to the host in flight, none fails (R327). -/
theorem failHostOps_none (h : (s.remoteOps.any fun r => r.host) = false) : s.failHostOps = s := by
  have hNone : (s.remoteOps.filter fun r => r.host) = [] := by
    rw [List.filter_eq_nil_iff]
    exact fun r hr => (List.any_eq_false.1 h) r hr
  rw [State.failHostOps, hNone]
  rfl

theorem resetBar0_context (s : State) : (s.resetBar0.context 0).groupState ≠ 1 ∧ (s.resetBar0.context 0).transfer = none := by
  unfold State.resetBar0 State.updContext
  rw [Laws.context_setContext_same]
  dsimp only
  split
  · exact ⟨(by decide : (4 : Nat) ≠ 1), rfl⟩
  · next hClosed => exact ⟨hClosed, rfl⟩

/-- What a reset of the function leaves (R327). -/
theorem functionReset_parts (s : State) : s.functionReset.hostLink = { perst := s.hostLink.perst, readyReported := s.hostLink.readyReported, aer := s.failHostOps.hostLink.aer }
    ∧ s.functionReset.contexts = s.failHostOps.resetBar0.contexts ∧ s.functionReset.mem = s.failHostOps.mem ∧ s.functionReset.tiles = s.failHostOps.tiles
    ∧ s.functionReset.jobs = s.failHostOps.jobs ∧ s.functionReset.restart = s.failHostOps.restart
    ∧ s.functionReset.dict = (((s.failHostOps.setEntry 0x5040 6 0).setEntry 0x5040 0x0B 0).setEntry 0x5040 0x0D 0).dict := by
  obtain ⟨hPerst, hReported⟩ := Plugged.failHostOps s
  unfold State.functionReset
  generalize s.failHostOps = v at hPerst hReported ⊢
  refine ⟨?_, rfl, rfl, rfl, rfl, rfl, rfl⟩
  rw [← hPerst, ← hReported]
  rfl

/-- A link that leaves UP changes its own entries only (Table 15-2). -/
theorem linkAway_shape (st : Nat) : ∃ d, s.linkAway st = { s with dict := d } := by
  have hFold (l : List Nat) : ∀ s : State, ∃ d, l.foldl (fun s i => s.setEntry 0x5040 (i + 1) (if i = 0 then st else 0)) s = { s with dict := d } := by
    induction l with
    | nil => exact fun s => ⟨_, rfl⟩
    | cons i l ih =>
      intro s
      obtain ⟨d, hd⟩ := ih (s.setEntry 0x5040 (i + 1) (if i = 0 then st else 0))
      exact ⟨d, hd⟩
  exact hFold _ s

theorem linkAway_entry {st k : Nat} (hk : 5 < k) (hSmall : k < 256) : (s.linkAway st).entry 0x5040 k = s.entry 0x5040 k := by
  have hStep (u : State) (i : Nat) (hi : i < 5) (v : Nat) : (u.setEntry 0x5040 (i + 1) v).entry 0x5040 k = u.entry 0x5040 k :=
    Laws.entry_setEntry_sub _ _ _ _ _ (by omega)
  unfold State.linkAway
  rw [show List.range 5 = [0, 1, 2, 3, 4] from rfl]
  simp only [List.foldl_cons, List.foldl_nil]
  rw [hStep _ 4 (by decide), hStep _ 3 (by decide), hStep _ 2 (by decide), hStep _ 1 (by decide), hStep _ 0 (by decide)]

theorem linkAway_state (st : Nat) : (s.linkAway st).entry 0x5040 1 = st := by
  unfold State.linkAway
  rw [show List.range 5 = [0, 1, 2, 3, 4] from rfl]
  simp only [List.foldl_cons, List.foldl_nil]
  rw [Laws.entry_setEntry_sub _ _ _ _ _ (by decide), Laws.entry_setEntry_sub _ _ _ _ _ (by decide), Laws.entry_setEntry_sub _ _ _ _ _ (by decide),
    Laws.entry_setEntry_sub _ _ _ _ _ (by decide), Laws.entry_setEntry_same]
  rfl

theorem functionReset_fresh (s : State) : Safety.functionFresh s s.functionReset := by
  obtain ⟨hLink, hContexts, hMem, hTiles, hJobs, -, hDict⟩ := functionReset_parts s
  have hContext : s.functionReset.context 0 = s.failHostOps.resetBar0.context 0 := by rw [State.context, hContexts]; rfl
  obtain ⟨hGroup, hTransfer⟩ := resetBar0_context s.failHostOps
  have hEntry (k : Nat) : s.functionReset.entry 0x5040 k = (((s.failHostOps.setEntry 0x5040 6 0).setEntry 0x5040 0x0B 0).setEntry 0x5040 0x0D 0).entry 0x5040 k := by
    rw [State.entry, hDict]
    rfl
  refine ⟨by rw [hLink], by rw [hContext]; exact hGroup, by rw [hContext]; exact hTransfer, ?_, ?_, ?_, fun hNone => ?_⟩
  · rw [hEntry, Laws.entry_setEntry_sub _ _ _ _ _ (by decide), Laws.entry_setEntry_sub _ _ _ _ _ (by decide), Laws.entry_setEntry_same]
  · rw [hEntry, Laws.entry_setEntry_sub _ _ _ _ _ (by decide), Laws.entry_setEntry_same]
  · rw [hEntry, Laws.entry_setEntry_same]
  · rw [hMem, hTiles, hJobs, failHostOps_none hNone]
    exact ⟨rfl, rfl, rfl⟩

theorem functionReset_state (h : (s.remoteOps.any fun r => r.host) = false) : s.functionReset.entry 0x5040 1 = s.entry 0x5040 1 := by
  obtain ⟨-, -, -, -, -, -, hDict⟩ := functionReset_parts s
  rw [State.entry, hDict, failHostOps_none h]
  exact ((Laws.entry_setEntry_sub _ _ _ _ _ (by decide)).trans (Laws.entry_setEntry_sub _ _ _ _ _ (by decide))).trans (Laws.entry_setEntry_sub _ _ _ _ _ (by decide))

/-! ### Resets -/

theorem hotReset_resets (hPower : s.hostPowered = true) : ∃ s2, exec .hotReset s = .next s2 ∧ Safety.functionFresh s s2 ∧ s2.entry 0x5040 1 = 1 := by
  obtain ⟨hLink, hGroup, hTransfer, hAtomic, hIde, hSpdm, hKeeps⟩ := functionReset_fresh s
  obtain ⟨d, hd⟩ := linkAway_shape (s := s.functionReset) 1
  refine ⟨_, by change execHotReset s = _; rw [execHotReset, if_pos hPower], ⟨?_, ?_, ?_, ?_, ?_, ?_, ?_⟩, linkAway_state 1⟩
  · rw [hd]; exact hLink
  · rw [hd]; exact hGroup
  · rw [hd]; exact hTransfer
  · exact (linkAway_entry (by decide) (by decide)).trans hAtomic
  · exact (linkAway_entry (by decide) (by decide)).trans hIde
  · exact (linkAway_entry (by decide) (by decide)).trans hSpdm
  · rw [hd]; exact hKeeps

theorem functionLevelReset_resets (hPower : s.hostPowered = true) : ∃ s2, exec .functionLevelReset s = .next s2 ∧ Safety.functionFresh s s2
    ∧ ((s.remoteOps.any fun r => r.host) = false → s2.entry 0x5040 1 = s.entry 0x5040 1) :=
  ⟨_, by change execFunctionLevelReset s = _; rw [execFunctionLevelReset, if_pos hPower], functionReset_fresh s, functionReset_state⟩

theorem perstAssert_resets (hPower : s.hostPowered = true) (hAction : s.entry 0x5010 3 = 0) :
    ∃ s2, exec .perstAssert s = .next s2 ∧ s2.hostLink.perst = true ∧ s2.hostLink.busMaster = false ∧ (s2.context 0).transfer = none := by
  obtain ⟨v, hv, hPerst⟩ : ∃ v : State, v = { s with hostLink := { s.hostLink with perst := true } } ∧ v.hostLink.perst = true := ⟨_, rfl, rfl⟩
  obtain ⟨hLink, -, hTransfer, -⟩ := functionReset_fresh v
  refine ⟨v.functionReset, ?_, by rw [hLink]; exact hPerst, by rw [hLink], hTransfer⟩
  change execPerstAssert s = _
  unfold execPerstAssert
  rw [← hv]
  dsimp only
  rw [show v.hostPowered = true by rw [hv]; exact hPower, show v.entry 0x5010 3 = 0 by rw [hv]; exact hAction]
  rfl

/-- A WARM restart leaves PERST# and the withdrawn report as they were (R422). -/
theorem beginRestart_warm_plugged {cause : Nat} : Plugged s (s.beginRestart kindWarm cause false 0) := by
  have hComplete (f : Frame) (u : State) : (u.complete f STATE_CONFLICT 0 []).hostLink = u.hostLink := by
    unfold State.complete
    dsimp only
    split <;> rfl
  have hRefuse (u : State) : u.refuseHeld.hostLink = u.hostLink := by
    unfold State.refuseHeld
    dsimp only
    refine (foldl_keeps (fun s => s.hostLink) (fun u t => foldl_keeps (fun s => s.hostLink) (fun u f => hComplete f u) _ u) tileNumbers _).trans ?_
    exact foldl_keeps (fun s => s.hostLink) (fun u f => hComplete f u) _ _
  have hLeave : s.leaveDeepIdle.hostLink = s.hostLink := by
    refine foldl_keeps (fun s => s.hostLink) (fun u p => ?_) (List.range 16) s
    dsimp only
    split <;> rfl
  have hClear (u : State) : Plugged u (u.clearHost kindWarm) := by
    have hDrop : u.dropCopy.hostLink = u.hostLink := by
      unfold State.dropCopy
      split <;> rfl
    exact ⟨by rw [← hDrop]; rfl, by rw [← hDrop]; rfl⟩
  have hCount (u : State) : Plugged u (u.countStart kindWarm) := ⟨rfl, rfl⟩
  have hKeeps : keepsStacks kindWarm = true := by decide
  have hSide : restartsField kindWarm = false := by decide
  have hPower : kindWarm ≠ kindHostPower := by decide
  have hAct : kindWarm ≠ kindActivate := by decide
  obtain ⟨a, ha, hLink⟩ : ∃ a, (if s.deepIdle = true then s.leaveDeepIdle else s) = a ∧ a.hostLink = s.hostLink := by
    refine ⟨_, rfl, ?_⟩
    split
    · exact hLeave
    · rfl
  simp only [State.beginRestart, hKeeps, hSide, hPower, hAct, true_and, if_true, if_false, Bool.false_eq_true, false_and]
  rw [ha]
  have hBegun := ((Plugged.of_same hLink).trans (Plugged.of_same (hRefuse a))).trans (hClear _)
  generalize a.refuseHeld.clearHost kindWarm = c at hBegun ⊢
  refine Plugged.trans ?_ (hCount _)
  exact ⟨hBegun.1, hBegun.2⟩

theorem perstAssert_restarts (hPower : s.hostPowered = true) (hAction : s.entry 0x5010 3 ≠ 0) (hRestart : s.restart = none)
    (hNone : (s.remoteOps.any fun r => r.host) = false) :
    ∃ s2, exec .perstAssert s = .next s2 ∧ s2.hostLink.perst = true ∧ s2.hostLink.readyReported = false
      ∧ s2.restart.map (fun r => (r.kind, r.cause)) = some (kindWarm, 0) ∧ s2.entry 0x1100 1 = 1 ∧ s2.mem = s.mem ∧ s2.jobs = [] := by
  obtain ⟨v, hv, hPerst⟩ : ∃ v : State, v = { s with hostLink := { s.hostLink with perst := true } } ∧ v.hostLink.perst = true := ⟨_, rfl, rfl⟩
  obtain ⟨hLink, -, hMem, -, -, hKept, -⟩ := functionReset_parts v
  rw [failHostOps_none (show (v.remoteOps.any fun r => r.host) = false by rw [hv]; exact hNone)] at hMem hKept
  obtain ⟨d, hd⟩ := linkAway_shape (s := v.functionReset) 0
  obtain ⟨w, hw, hwPerst, hwMem, hwRestart⟩ : ∃ w, w = ({ (v.functionReset.linkAway 0) with hostLink := { (v.functionReset.linkAway 0).hostLink with readyReported := false } }
      : State).emit (.hostReady false) ∧ (w.hostLink.perst = true ∧ w.hostLink.readyReported = false) ∧ w.mem = s.mem ∧ w.restart = none := by
    refine ⟨_, rfl, ?_, ?_, ?_⟩
    · rw [hd]
      exact ⟨(congrArg HostLink.perst hLink).trans hPerst, rfl⟩
    · rw [hd]
      exact hMem.trans (by rw [hv])
    · rw [hd]
      exact hKept.trans (by rw [hv]; exact hRestart)
  obtain ⟨hKind, hState, -⟩ := beginRestart_warm (s := w) (cause := 0) (downMs := 0)
  obtain ⟨hKeepsMem, hJobs, -⟩ := beginRestart_warm_keeps (s := w) (cause := 0) (downMs := 0)
  obtain ⟨hPerstKept, hReported⟩ := beginRestart_warm_plugged (s := w) (cause := 0)
  refine ⟨w.beginRestart kindWarm 0 false 0, ?_, hPerstKept.trans hwPerst.1, hReported.trans hwPerst.2, hKind, hState, hKeepsMem.trans hwMem, hJobs⟩
  change execPerstAssert s = _
  unfold execPerstAssert
  rw [← hv]
  dsimp only
  rw [show v.hostPowered = true by rw [hv]; exact hPower, if_neg (by decide), if_neg (by rw [hv]; exact hAction), ← hw, State.requestRestart, hwRestart]

theorem unpowered_resets (hPower : s.hostPowered = false) :
    exec .perstAssert s = .next { s with hostLink := { s.hostLink with perst := true } } ∧ exec .hotReset s = .next s ∧ exec .functionLevelReset s = .next s := by
  refine ⟨?_, ?_, ?_⟩
  · change execPerstAssert s = _
    unfold execPerstAssert
    dsimp only
    rw [hPower]
    rfl
  · change execHotReset s = _
    rw [execHotReset, if_neg (by rw [hPower]; decide)]
  · change execFunctionLevelReset s = _
    rw [execFunctionLevelReset, if_neg (by rw [hPower]; decide)]

theorem perstRelease_reports (hReady : s.ready = true) (hReported : s.hostLink.readyReported = false) :
    ∃ s2, exec .perstRelease s = .next s2 ∧ s2.hostLink.perst = false ∧ s2.hostLink.readyReported = true ∧ s2.out = s.out ++ [.hostReady true]
      ∧ s2.dict = s.dict ∧ s2.mem = s.mem := by
  obtain ⟨v, hv⟩ : ∃ v : State, v = { s with hostLink := { s.hostLink with perst := false } } := ⟨_, rfl⟩
  have hReport : v.reportReady = ({ v with hostLink := { v.hostLink with readyReported := true } } : State).emit (.hostReady true) := by
    unfold State.reportReady
    exact if_pos ⟨by rw [hv]; exact hReady, by rw [hv]; rfl, by rw [hv]; exact congrArg (fun b => !b) hReported⟩
  refine ⟨_, by change execPerstRelease s = _; rw [execPerstRelease, ← hv, hReport], ?_, rfl, ?_, ?_, ?_⟩
  · rw [hv]; rfl
  · rw [hv]; rfl
  · rw [hv]; rfl
  · rw [hv]; rfl

/-! ### The link trains -/

/-- What pending vectors that go out change: the messages, their holdoff and their count (R336). -/
structure VectorFrame (s u : State) : Prop where
  shape : ∃ d h o, u = { s with dict := d, hostLink := h, out := o }
  entries : ∀ i k, i ≠ 0x5030 → k < 256 → u.entry i k = s.entry i k
  masked : u.hostLink.functionMasked = s.hostLink.functionMasked

theorem VectorFrame.trans (h : VectorFrame s t) (h' : VectorFrame t u) : VectorFrame s u where
  shape := by
    obtain ⟨_, _, _, rfl⟩ := h.shape
    obtain ⟨_, _, _, rfl⟩ := h'.shape
    exact ⟨_, _, _, rfl⟩
  entries i k hi hk := (h'.entries i k hi hk).trans (h.entries i k hi hk)
  masked := h'.masked.trans h.masked

theorem sendVector_frame (v : Nat) : VectorFrame s (s.sendVector v) :=
  ⟨⟨_, _, _, rfl⟩, fun _ _ hi hk => Laws.entry_setEntry_index _ _ _ _ _ _ (by decide) hk hi, rfl⟩

theorem flushVectors_frame (s : State) : VectorFrame s s.flushVectors := by
  have hRefl (s : State) : VectorFrame s s := ⟨⟨_, _, _, rfl⟩, fun _ _ _ _ => rfl, rfl⟩
  have hFold (l : List Nat) : ∀ s : State, VectorFrame s (l.foldl (fun s v => if s.vectorOpen v then s.sendVector v else s) s) := by
    induction l with
    | nil => exact hRefl
    | cons v l ih =>
      intro s
      rw [List.foldl_cons]
      refine VectorFrame.trans ?_ (ih _)
      split
      · exact sendVector_frame v
      · exact hRefl s
  exact hFold _ s

theorem hostLinkUp_trains {speed width limit : Nat} {flit : Bool} (hReported : s.hostLink.readyReported = true) (hPerst : s.hostLink.perst = false)
    (hDown : s.entry 0x5040 1 ≠ 2) (hSlow : 1 ≤ speed) (hSpeed : speed ≤ s.entry 0x5010 1) (hWidth : width ∈ [16, 8, 4, 1])
    (hLimit : limit ∈ [768, 256] ∨ (limit = 4096 ∧ flit = true)) :
    ∃ s2, exec (.hostLinkUp speed width flit limit) s = .next s2 ∧ s2.entry 0x5040 1 = 2 ∧ s2.entry 0x5040 2 = speed ∧ s2.entry 0x5040 3 = width
      ∧ s2.entry 0x5040 4 = (if flit then 1 else 0) ∧ s2.entry 0x5040 5 = limit ∧ s2.mem = s.mem ∧ s2.tiles = s.tiles ∧ s2.jobs = s.jobs := by
  have hTags : [4096, 768, 256].contains limit = true ∧ (limit ≠ 4096 || flit) = true := by
    rcases hLimit with h | ⟨rfl, rfl⟩
    · rcases List.mem_cons.1 h with rfl | h
      · exact ⟨rfl, rfl⟩
      · obtain rfl := List.mem_singleton.1 h
        exact ⟨rfl, rfl⟩
    · exact ⟨rfl, rfl⟩
  obtain ⟨v, hv⟩ : ∃ v, v = ((((s.setEntry 0x5040 1 2).setEntry 0x5040 2 speed).setEntry 0x5040 3 width).setEntry 0x5040 4 (if flit then 1 else 0)).setEntry 0x5040 5 limit :=
    ⟨_, rfl⟩
  have hExec : exec (.hostLinkUp speed width flit limit) s = .next v.flushVectors := by
    change execHostLinkUp speed width flit limit s = _
    unfold execHostLinkUp
    rw [hReported, hPerst, decide_eq_true hDown, decide_eq_true hSlow, decide_eq_true hSpeed, List.contains_iff_mem.2 hWidth, hTags.1, hTags.2, hv]
    rfl
  obtain ⟨⟨_, _, _, hShape⟩, hEntries, -⟩ := flushVectors_frame v
  have hEntry (k : Nat) (hk : k < 256) := hEntries 0x5040 k (by decide) hk
  refine ⟨_, hExec, ?_, ?_, ?_, ?_, ?_, ?_, ?_, ?_⟩
  · rw [hEntry 1 (by decide), hv]
    rw [Laws.entry_setEntry_sub _ _ _ _ _ (by decide), Laws.entry_setEntry_sub _ _ _ _ _ (by decide), Laws.entry_setEntry_sub _ _ _ _ _ (by decide),
      Laws.entry_setEntry_sub _ _ _ _ _ (by decide), Laws.entry_setEntry_same]
  · rw [hEntry 2 (by decide), hv]
    rw [Laws.entry_setEntry_sub _ _ _ _ _ (by decide), Laws.entry_setEntry_sub _ _ _ _ _ (by decide), Laws.entry_setEntry_sub _ _ _ _ _ (by decide), Laws.entry_setEntry_same]
  · rw [hEntry 3 (by decide), hv]
    rw [Laws.entry_setEntry_sub _ _ _ _ _ (by decide), Laws.entry_setEntry_sub _ _ _ _ _ (by decide), Laws.entry_setEntry_same]
  · rw [hEntry 4 (by decide), hv]
    rw [Laws.entry_setEntry_sub _ _ _ _ _ (by decide), Laws.entry_setEntry_same]
  · rw [hEntry 5 (by decide), hv]
    rw [Laws.entry_setEntry_same]
  · rw [hShape, hv]; rfl
  · rw [hShape, hv]; rfl
  · rw [hShape, hv]; rfl

end Plug

/-- Settles O46: a module that has reported ready trains; each reset returns the function's state to its reset values, and PERST# withdraws the report and starts a
WARM restart where PerstAction says so. -/
theorem hostLinkResets : Obligations.HostLinkResets := by
  unfold Obligations.HostLinkResets
  exact ⟨fun s speed width limit flit hReported hPerst hDown hSlow hSpeed hWidth hLimit => hostLinkUp_trains hReported hPerst hDown hSlow hSpeed hWidth hLimit,
    fun s hPower => ⟨hotReset_resets hPower, functionLevelReset_resets hPower⟩,
    fun s hPower hAction => perstAssert_resets hPower hAction,
    fun s hPower hAction hRestart hNone => perstAssert_restarts hPower hAction hRestart hNone,
    fun s hPower => unpowered_resets hPower,
    fun s hReady hReported => perstRelease_reports hReady hReported⟩

end Sys2Proof.Proofs
end

section
/-! PROOFS. Configuration accesses, interrupts, DMA completions and BAR2 (R329-R334, R336-R338, R340). -/

namespace Sys2Proof.Proofs
open Sys2Proof.Machine

section Traffic

variable {s t u : State} {r : RemoteOp} {tag part j v : Nat} {st : HostStatus} {d : List Byte}

/-! ### Configuration space (R340) -/

theorem configAccess_retries (op : ConfigOp) (hPower : s.hostPowered = true) (hReady : s.ready = false) :
    exec (.configAccess op) s = .next (s.emit (.config true (if op = .readVendorId ∧ s.hostLink.rrsVisible then 1 else 0))) := by
  change execConfigAccess op s = _
  rw [execConfigAccess, if_neg (by rw [hPower]; decide), if_pos (by rw [hReady]; rfl)]

theorem configAccess_served (op : ConfigOp) (hPower : s.hostPowered = true) (hReady : s.ready = true) : exec (.configAccess op) s = .next (s.config op) := by
  change execConfigAccess op s = _
  rw [execConfigAccess, if_neg (by rw [hPower]; decide), if_neg (by rw [hReady]; decide)]

theorem writeCommand_takes (b a r : Bool) (hPower : s.hostPowered = true) (hReady : s.ready = true) :
    ∃ s2, exec (.configAccess (.writeCommand b a r)) s = .next s2 ∧ s2.hostLink = { s.hostLink with busMaster := b, atomicRequester := a, rrsVisible := r }
      ∧ s2.entry 0x5040 6 = (if a then 1 else 0) ∧ s2.out = s.out ++ [.config false 0] ∧ s2.mem = s.mem ∧ s2.tiles = s.tiles :=
  ⟨_, configAccess_served _ hPower hReady, rfl, Laws.entry_setEntry_same .., rfl, rfl, rfl⟩

theorem msixControl_takes (en m : Bool) (hPower : s.hostPowered = true) (hReady : s.ready = true) :
    ∃ s2, exec (.configAccess (.msixControl en m)) s = .next s2 ∧ s2.hostLink.functionMasked = (!en || m) ∧ s2.mem = s.mem ∧ s2.tiles = s.tiles := by
  obtain ⟨⟨_, _, _, hShape⟩, -, hMasked⟩ := flushVectors_frame { s with hostLink := { s.hostLink with functionMasked := !en || m } }
  refine ⟨_, configAccess_served _ hPower hReady, hMasked, ?_, ?_⟩
  · rw [State.config, hShape]; rfl
  · rw [State.config, hShape]; rfl

theorem deviceControl_takes (p r : Nat) (hPower : s.hostPowered = true) (hReady : s.ready = true) :
    exec (.configAccess (.deviceControl p r)) s = .next (({ s with hostLink := { s.hostLink with maxPayload := p, maxRead := r } }).emit (.config false 0))
    ∧ exec (.configAccess (.read r)) s = .next (s.emit (.config false (configValue r))) :=
  ⟨configAccess_served _ hPower hReady, configAccess_served _ hPower hReady⟩

/-! ### Interrupts and errors (R336-R338) -/

theorem holdoffEnd_sends (hPending : v ∈ s.hostLink.vectorPending) (hOpen : s.vectorOpen v = true) :
    ∃ s2, exec (.interruptHoldoffEnd v) s = .next s2 ∧ s2.out = s.out ++ [.msix v] ∧ s2.hostLink.vectorPending = s.hostLink.vectorPending.erase v
      ∧ Tab.get s2.hostLink.holdoffEnd 0 v = s.now + 1000 * s.entry 0x5030 2 ∧ s2.mem = s.mem ∧ s2.tiles = s.tiles := by
  refine ⟨s.sendVector v, ?_, rfl, rfl, Laws.tab_get_put_same .., rfl, rfl⟩
  change execInterruptHoldoffEnd v s = _
  rw [execInterruptHoldoffEnd, if_pos ⟨hPending, hOpen⟩]

theorem holdoffEnd_waits (hShut : s.vectorOpen v = false) : exec (.interruptHoldoffEnd v) s = .next s := by
  change execInterruptHoldoffEnd v s = _
  rw [execInterruptHoldoffEnd, if_neg (by rw [hShut]; simp)]

theorem unsupportedRequest_logs (s : State) : ∃ s2 s3, exec (.unsupportedRequest .outsideBarPosted) s = .next s2 ∧ exec (.unsupportedRequest .atomicOp) s = .next s3
    ∧ s2.hostLink.aer = s.hostLink.aer ++ [.unsupportedRequest] ∧ s2.out = s.out
    ∧ s3.hostLink.aer = s.hostLink.aer ++ [.unsupportedRequest, .advisoryNonFatal] ∧ s3.out = s.out ++ [.completionUr]
    ∧ s2.dict = s.dict ∧ s3.dict = s.dict ∧ s2.mem = s.mem ∧ s3.mem = s.mem :=
  ⟨_, _, rfl, rfl, rfl, rfl, List.append_assoc .., rfl, rfl, rfl, rfl, rfl⟩

/-- An event that is raised reaches the interrupt vectors of the host link and no more of it (R336). -/
theorem raise_link (e job code a b : Nat) : (s.raise e job code a b).hostLink.aer = s.hostLink.aer ∧ (s.raise e job code a b).hostLink.linkIde = s.hostLink.linkIde
    ∧ (s.raise e job code a b).hostLink.selectiveIde = s.hostLink.selectiveIde := by
  have hInterrupt (u : State) (k : Nat) : (u.interrupt k).hostLink.aer = u.hostLink.aer ∧ (u.interrupt k).hostLink.linkIde = u.hostLink.linkIde
      ∧ (u.interrupt k).hostLink.selectiveIde = u.hostLink.selectiveIde := by
    unfold State.interrupt
    dsimp only
    repeat' split
    all_goals exact ⟨rfl, rfl, rfl⟩
  have hLog (u : State) (x : LogEntry) : (u.logEvent x).hostLink = u.hostLink := by
    unfold State.logEvent
    split <;> rfl
  have hNotice (u : State) (x : LogEntry) : (u.notice x).hostLink = u.hostLink := by
    unfold State.notice State.gateSend
    split
    · rfl
    · dsimp only
      split <;> rfl
  unfold State.raise
  dsimp only
  split
  · exact ⟨rfl, rfl, rfl⟩
  · rw [(hInterrupt _ _).1, (hInterrupt _ _).2.1, (hInterrupt _ _).2.2, hNotice, hLog]
    exact ⟨rfl, rfl, rfl⟩

theorem ideCheckFailed_notes (sel : Bool) (hSecure : (if sel then s.hostLink.selectiveIde else s.hostLink.linkIde) = .secure) :
    ∃ s2, exec (.ideCheckFailed sel) s = .next s2 ∧ (if sel then s2.hostLink.selectiveIde else s2.hostLink.linkIde) = .insecure
      ∧ (if sel then s2.hostLink.linkIde = s.hostLink.linkIde else s2.hostLink.selectiveIde = s.hostLink.selectiveIde)
      ∧ s2.hostLink.aer = s.hostLink.aer ++ [.ideCheckFailed] ∧ s2.entry 0x5040 0x0C = satAdd (2 ^ 32 - 1) (s.entry 0x5040 0x0C) 1
      ∧ s2.mem = s.mem ∧ s2.tiles = s.tiles := by
  obtain ⟨h, hh, hStream, hOther, hAer⟩ : ∃ h : HostLink, h = (if sel then { s.hostLink with selectiveIde := .insecure } else { s.hostLink with linkIde := .insecure })
      ∧ (if sel then h.selectiveIde else h.linkIde) = .insecure
      ∧ (if sel then h.linkIde = s.hostLink.linkIde else h.selectiveIde = s.hostLink.selectiveIde) ∧ h.aer = s.hostLink.aer := by
    refine ⟨_, rfl, ?_⟩
    cases sel
    · exact ⟨rfl, rfl, rfl⟩
    · exact ⟨rfl, rfl, rfl⟩
  obtain ⟨v, hv, hLink, hCount, hMem, hTiles⟩ : ∃ v, v = (({ s with hostLink := { h with aer := h.aer ++ [AerError.ideCheckFailed] } } : State).noteIde).bump 0x5040 0x0C 1
      ∧ v.hostLink = { h with aer := h.aer ++ [AerError.ideCheckFailed] } ∧ v.entry 0x5040 0x0C = satAdd (2 ^ 32 - 1) (s.entry 0x5040 0x0C) 1
      ∧ v.mem = s.mem ∧ v.tiles = s.tiles := by
    refine ⟨_, rfl, rfl, ?_, rfl, rfl⟩
    rw [Laws.bump_eq, Laws.entry_setEntry_same, State.noteIde, Laws.entry_setEntry_sub _ _ _ _ _ (by decide)]
    rfl
  obtain ⟨hRaisedAer, hRaisedLink, hRaisedSel⟩ := raise_link (s := v) 0xB0F1 0xFF 0 (if sel then 1 else 0) 0
  have hEvent := (EventFrame.refl v).raise 0xB0F1 0xFF 0 (if sel then 1 else 0) 0
  refine ⟨v.raise 0xB0F1 0xFF 0 (if sel then 1 else 0) 0, ?_, ?_, ?_, ?_, ?_, hEvent.mem.trans hMem, hEvent.tiles.trans hTiles⟩
  · change execIdeCheckFailed sel s = _
    unfold execIdeCheckFailed
    dsimp only
    rw [if_neg (not_not.2 hSecure), hv, hh]
  · rw [hRaisedLink, hRaisedSel, hLink]
    exact hStream
  · rw [hRaisedLink, hRaisedSel, hLink]
    exact hOther
  · rw [hRaisedAer, hLink, ← hAer]
  · rw [entry_raise (by decide) (by decide) (by decide) (by decide)]
    exact hCount

/-! ### Operations to the host (R332-R334) -/

/-- An operation to the host that ends well, of an issuer that waits for no outcome, leaves the list and no more (R333). -/
theorem endOp_host (hHost : r.host = true) (hCode : r.opcode ≠ 5) (hIssuer : r.issuer ≠ issuerSupervisor) (data : List Byte) : s.endOp r OK data = s.dropOp r.tag := by
  have hEnd (v : State) : v.endIssuer r OK data = v := by
    have hTile : v.endTileOp r OK = v := by
      unfold State.endTileOp
      split
      · split
        · exact if_neg fun h => h.1 rfl
        · rfl
      · exact if_pos rfl
    have hCheck : v.endCheckOp OK = v := by
      unfold State.endCheckOp
      split
      · exact if_pos rfl
      · rfl
    have hGeyser : v.endGeyserOp r OK = v := if_neg fun h => h.1 rfl
    unfold State.endIssuer
    rw [hTile, hCheck, hGeyser, if_neg hIssuer]
    repeat' split
    all_goals rfl
  unfold State.endOp
  dsimp only
  rw [hHost, hEnd]
  rfl

theorem findOp_dropOp (s : State) (tag : Nat) : (s.dropOp tag).findOp tag = none := by
  unfold State.findOp
  rw [List.find?_eq_none]
  intro o ho
  rw [State.dropOp, List.mem_filter] at ho
  simpa using ho.2

theorem hostPutAck_ends (hFind : s.findOp tag = some r) (hTag : r.tag = tag) (hHost : r.host = true) (hCode : r.opcode = 1) (hIssuer : r.issuer ≠ issuerSupervisor) :
    ∃ s2, exec (.hostPutAck tag) s = .next s2 ∧ s2.findOp tag = none ∧ s2.hostLink.txQueue = (s.hostLink.txQueue.filter fun p => p.1 ≠ tag) ∧ s2.mem = s.mem
      ∧ s2.tiles = s.tiles ∧ s2.jobs = s.jobs := by
  refine ⟨(s.leaveTx tag).dropOp tag, ?_, findOp_dropOp .., rfl, rfl, rfl, rfl⟩
  change execHostPutAck tag s = _
  unfold execHostPutAck
  rw [hFind]
  dsimp only
  rw [if_pos ⟨hHost, hCode⟩, endOp_host hHost (by omega) hIssuer, hTag]

/-- Without a request that waits for a tag, a free tag stays free (R334). -/
theorem freeHostTag_free (h : s.hostLink.tagWaiters = []) (id : Nat × Nat) :
    s.freeHostTag id = { s with hostLink := { s.hostLink with tags := s.hostLink.tags.erase id, lateTags := s.hostLink.lateTags.erase id } } := by
  unfold State.freeHostTag
  dsimp only
  rw [h]

/-- A poisoned completion is logged first (Table 15-7). -/
def completionLogged (s : State) (st : HostStatus) : State := if st = .ep then s.logAer .poisonedTlp else s

theorem completionLogged_keeps (s : State) (st : HostStatus) : ∃ a, completionLogged s st = { s with hostLink := { s.hostLink with aer := a } } := by
  unfold completionLogged
  split
  · exact ⟨_, rfl⟩
  · exact ⟨_, rfl⟩

theorem hostCompletion_late (hLate : s.hostLink.lateTags.contains (tag, part) = true) (hWaiters : s.hostLink.tagWaiters = []) :
    ∃ s2, exec (.hostCompletion tag part st d) s = .next s2 ∧ s2.hostLink.tags = s.hostLink.tags.erase (tag, part)
      ∧ s2.hostLink.lateTags = s.hostLink.lateTags.erase (tag, part) ∧ s2.entry 0x4038 8 = satAdd (2 ^ 32 - 1) (s.entry 0x4038 8) 1
      ∧ s2.remoteOps = s.remoteOps ∧ s2.jobs = s.jobs ∧ s2.mem = s.mem := by
  obtain ⟨a, ha⟩ := completionLogged_keeps s st
  obtain ⟨v, hv⟩ : ∃ v, v = completionLogged s st := ⟨_, rfl⟩
  have hFree := freeHostTag_free (s := v) (by rw [hv, ha]; exact hWaiters) (tag, part)
  refine ⟨(v.freeHostTag (tag, part)).bump 0x4038 8 1, ?_, ?_, ?_, ?_, ?_, ?_, ?_⟩
  · change execHostCompletion tag part st d s = _
    unfold execHostCompletion
    dsimp only
    rw [show (if st = .ep then s.logAer .poisonedTlp else s) = v from hv.symm, if_pos (by rw [hv, ha]; exact hLate)]
  · rw [hFree, hv, ha]; rfl
  · rw [hFree, hv, ha]; rfl
  · rw [Laws.bump_eq, Laws.entry_setEntry_same, hFree, hv, ha]; rfl
  · rw [hFree, hv, ha]; rfl
  · rw [hFree, hv, ha]; rfl
  · rw [hFree, hv, ha]; rfl

theorem hostCompletion_unexpected (hLate : s.hostLink.lateTags.contains (tag, part) = false) (hTags : s.hostLink.tags.contains (tag, part) = false) (hSound : st ≠ .ep) :
    exec (.hostCompletion tag part st d) s = .next (s.logAer .unexpectedCompletion) := by
  change execHostCompletion tag part st d s = _
  unfold execHostCompletion
  dsimp only
  rw [if_neg hSound, hLate, hTags]
  rfl

theorem pcieTimeout_frees (hLate : s.hostLink.lateTags.contains (tag, part) = true) (hWaiters : s.hostLink.tagWaiters = []) :
    ∃ s2, exec (.pcieCompletionTimeout tag part) s = .next s2 ∧ s2.hostLink.tags = s.hostLink.tags.erase (tag, part)
      ∧ s2.hostLink.aer = s.hostLink.aer ++ [.completionTimeout] ∧ s2.dict = s.dict ∧ s2.mem = s.mem := by
  have hFree := freeHostTag_free (s := s.logAer .completionTimeout) hWaiters (tag, part)
  refine ⟨(s.logAer .completionTimeout).freeHostTag (tag, part), ?_, ?_, ?_, ?_, ?_⟩
  · change execPcieCompletionTimeout tag part s = _
    rw [execPcieCompletionTimeout, if_pos hLate]
  · rw [hFree]; rfl
  · rw [hFree]; rfl
  · rw [hFree]; rfl
  · rw [hFree]; rfl

/-- What a failing operation reaches (R228, R229). -/
theorem failLop_leaves (t code : Nat) (o : LopInst) (target kind : Nat) : ∃ d tl jb ti, s.failLop t code o target kind = { s with dict := d, tiles := tl, jobs := jb, ticks := ti } := by
  have hFault (v : State) (y : FaultRecord) : ∃ d tl jb ti, v.faultTile t y = { v with dict := d, tiles := tl, jobs := jb, ticks := ti } := by
    unfold State.faultTile
    split
    · exact ⟨_, _, _, _, rfl⟩
    · next j _ =>
      obtain ⟨d, tl, jb, ti, e⟩ := abortJob_shape (s := v.updTile t fun z => { z with record := y }) (j := j) (code := y.code) (tile := t) (bundle := y.bundle)
      exact ⟨d, tl, jb, ti, by rw [e]; rfl⟩
  obtain ⟨tl, hTiles⟩ : TilesOnly s (s.poisonUnfinished t o) := (TilesOnly.refl s).poisonRows ..
  unfold State.failLop State.faultLop
  obtain ⟨d, tl', jb, ti, e⟩ := hFault (s.poisonUnfinished t o) _
  exact ⟨d, tl', jb, ti, by rw [e, hTiles]⟩

section Completed

variable (hLate : s.hostLink.lateTags.contains (tag, part) = false) (hTags : s.hostLink.tags.contains (tag, part) = true) (hWaiters : s.hostLink.tagWaiters = [])
  (hFind : s.findOp tag = some r) (hTag : r.tag = tag) (hHost : r.host = true) (hCode : r.opcode = 2)
include hLate hTags hWaiters hFind hTag hHost hCode

/-- A completion that an operation awaits frees its tag and reaches the operation (R333). -/
theorem hostCompletion_awaited : ∃ v : State, (∃ h, v = { s with hostLink := h } ∧ h.tags = s.hostLink.tags.erase (tag, part))
    ∧ exec (.hostCompletion tag part st d) s = .next (
      if st ≠ .ok then (v.cutRequests tag).endOp r (hostError st) []
      else if r.pieces.length ≤ (Tab.put r.arrived part d).length then (v.leaveTx tag).endOp r OK ((Tab.put r.arrived part d).flatMap fun p => p.2)
      else v.keepData tag part d) := by
  obtain ⟨a, ha⟩ := completionLogged_keeps s st
  obtain ⟨x, hx⟩ : ∃ x, x = completionLogged s st := ⟨_, rfl⟩
  have hFree := freeHostTag_free (s := x) (by rw [hx, ha]; exact hWaiters) (tag, part)
  refine ⟨x.freeHostTag (tag, part), ⟨_, by rw [hFree, hx, ha], rfl⟩, ?_⟩
  change execHostCompletion tag part st d s = _
  unfold execHostCompletion
  dsimp only
  rw [show (if st = .ep then s.logAer .poisonedTlp else s) = x from hx.symm, show x.hostLink.lateTags.contains (tag, part) = false by rw [hx, ha]; exact hLate,
    show x.hostLink.tags.contains (tag, part) = true by rw [hx, ha]; exact hTags, show x.findOp tag = some r by rw [hx, ha]; exact hFind]
  dsimp only
  rw [if_neg (by decide), if_neg (by decide), if_pos ⟨hHost, by omega⟩, State.hostCompleted, hTag]

theorem hostCompletion_last (hIssuer : r.issuer < 64) (hOk : st = .ok) (hAll : r.pieces.length ≤ (Tab.put r.arrived part d).length) :
    ∃ s2, exec (.hostCompletion tag part st d) s = .next s2 ∧ s2.findOp tag = none
      ∧ s2.hostLink.tags = s.hostLink.tags.erase (tag, part) ∧ s2.mem = s.mem ∧ s2.jobs = s.jobs ∧ s2.tiles = s.tiles := by
  obtain ⟨v, ⟨h, hv, hErased⟩, hExec⟩ := hostCompletion_awaited (st := st) (d := d) hLate hTags hWaiters hFind hTag hHost hCode
  rw [if_neg (by simp [hOk]), if_pos hAll, endOp_host hHost (by omega) (by rw [show issuerSupervisor = 65 from rfl]; omega), hTag] at hExec
  refine ⟨_, hExec, findOp_dropOp .., ?_, ?_, ?_, ?_⟩
  · rw [hv]; exact hErased
  · rw [hv]; rfl
  · rw [hv]; rfl
  · rw [hv]; rfl

theorem hostCompletion_part (hOk : st = .ok) (hMore : (Tab.put r.arrived part d).length < r.pieces.length) :
    ∃ s2, exec (.hostCompletion tag part st d) s = .next s2 ∧ (s2.findOp tag).map (fun y => y.arrived) = some (Tab.put r.arrived part d)
      ∧ s2.hostLink.tags = s.hostLink.tags.erase (tag, part) ∧ s2.mem = s.mem ∧ s2.jobs = s.jobs ∧ s2.tiles = s.tiles := by
  obtain ⟨v, ⟨h, hv, hErased⟩, hExec⟩ := hostCompletion_awaited (st := st) (d := d) hLate hTags hWaiters hFind hTag hHost hCode
  rw [if_neg (by simp [hOk]), if_neg (by omega)] at hExec
  refine ⟨_, hExec, ?_, ?_, ?_, ?_, ?_⟩
  · have hSame : ((fun o : RemoteOp => decide (o.tag = tag)) ∘ fun (o : RemoteOp) => if o.tag = tag then { o with arrived := Tab.put o.arrived part d } else o)
        = fun o => decide (o.tag = tag) := by
      funext o
      rw [Function.comp_apply]
      split <;> rfl
    have hKept : (v.keepData tag part d).findOp tag = some { r with arrived := Tab.put r.arrived part d } := by
      unfold State.findOp State.keepData
      rw [List.find?_map, hSame, hv]
      rw [show List.find? (fun o => decide (o.tag = tag)) s.remoteOps = some r from hFind, Option.map_some, if_pos hTag]
    rw [hKept]
    rfl
  · rw [hv]; exact hErased
  · rw [hv]; rfl
  · rw [hv]; rfl
  · rw [hv]; rfl

theorem hostCompletion_fails {o : LopInst} (hIssuer : r.issuer < 64) (hJob : r.job ≠ 0xFF) (hOp : (s.tile r.issuer).runningOp r.opId = some o)
    (hj : s.jobOfTile r.issuer = some j) (hRun : (s.job j).state = .running) (hFail : st ≠ .ok) :
    ∃ s2, exec (.hostCompletion tag part st d) s = .next s2 ∧ s2.findOp tag = none
      ∧ s2.hostLink.tags = s.hostLink.tags.erase (tag, part) ∧ s2.mem = s.mem
      ∧ (s2.job j).state = .draining ∧ (s2.job j).abortCode = if st = .ep then MEM_UNCORRECTABLE else HOST_COMPLETION := by
  obtain ⟨v, ⟨h, hv, hErased⟩, hExec⟩ := hostCompletion_awaited (st := st) (d := d) hLate hTags hWaiters hFind hTag hHost hCode
  rw [if_pos hFail] at hExec
  have hCode' : hostError st = (if st = .ep then MEM_UNCORRECTABLE else HOST_COMPLETION) ∧ hostError st ≠ OK := by
    cases st with
    | ok => exact absurd rfl hFail
    | ur => exact ⟨rfl, by decide⟩
    | ca => exact ⟨rfl, by decide⟩
    | ep => exact ⟨rfl, by decide⟩
  obtain ⟨w, hw, ⟨dw, hShape⟩, hGone⟩ : ∃ w, w = ((v.cutRequests tag).dropOp tag).countFail true (hostError st)
      ∧ (∃ dw, w = { (v.cutRequests tag).dropOp tag with dict := dw }) ∧ w.findOp tag = none := by
    have hCount (y : State) (c : Nat) : ∃ dw, y.countFail true c = { y with dict := dw } := by
      unfold State.countFail
      repeat' split
      all_goals exact ⟨_, rfl⟩
    obtain ⟨dw, hdw⟩ := hCount ((v.cutRequests tag).dropOp tag) (hostError st)
    exact ⟨_, rfl, ⟨dw, hdw⟩, by rw [hdw]; exact findOp_dropOp ..⟩
  have hwJobs : w.jobs = s.jobs := by rw [hShape, hv]; rfl
  have hwTile : w.tile r.issuer = s.tile r.issuer := by rw [hShape, hv]; rfl
  have hEnd : (v.cutRequests tag).endOp r (hostError st) [] = w.failLop r.issuer (hostError st) o 0 0 := by
    unfold State.endOp
    dsimp only
    rw [hHost, hTag, ← hw, if_pos rfl]
    unfold State.endIssuer State.endTileOp
    rw [if_pos hIssuer, if_neg hJob, if_neg (by omega), if_neg hCode'.2, hwTile, hOp]
  obtain ⟨x, hAborted, ⟨tl, hx⟩, -⟩ := failLop_shape (s := w) (t := r.issuer) (code := hostError st) (target := 0) (kind := 0) (o := o) (j := j)
    ((jobOfTile_congr hwJobs).trans hj) (by rw [State.job, hwJobs]; exact hRun)
  obtain ⟨hState, -, hAbort, -⟩ := hAborted.ended
  have hOuter : (w.failLop r.issuer (hostError st) o 0 0).remoteOps = w.remoteOps ∧ (w.failLop r.issuer (hostError st) o 0 0).hostLink = w.hostLink := by
    obtain ⟨_, _, _, _, e⟩ := failLop_leaves (s := w) r.issuer (hostError st) o 0 0
    rw [e]
    exact ⟨rfl, rfl⟩
  rw [hEnd] at hExec
  refine ⟨_, hExec, ?_, ?_, ?_, hState, hAbort.trans hCode'.1⟩
  · rw [State.findOp, hOuter.1]
    exact hGone
  · rw [hOuter.2, hShape, hv]
    exact hErased
  · rw [hAborted.mem, hx, hShape, hv]
    rfl

end Completed

/-! ### BAR2 (R329-R331, R338) -/

section Aperture

variable {x n : Nat} {sec : Bool}

theorem bar2Read_refused (hPower : s.hostPowered = true) (hIde : s.ideRefuses sec = true) (hIn : x + n ≤ 0x1000000000) :
    exec (.bar2Read x n sec .clean) s = .next s.refuseInsecureRead := by
  change execBar2Read x n sec .clean s = _
  unfold execBar2Read State.bar2Read
  rw [if_pos hIn, hPower, hIde]
  rfl

theorem bar2Write_refused (hPower : s.hostPowered = true) (hIde : s.ideRefuses sec = true) (hIn : x + d.length ≤ 0x1000000000) :
    exec (.bar2Write x d sec) s = .next (s.bump 0x5040 0x0C 1) := by
  change execBar2Write x d sec s = _
  unfold execBar2Write State.bar2Write
  rw [if_pos hIn, hPower, hIde]
  rfl

variable (hPower : s.hostPowered = true) (hReady : s.ready = true) (hIde : s.ideRefuses sec = false)
include hPower hReady hIde

theorem bar2Read_shut (hIn : x + n ≤ 0x1000000000) (hShut : bit (s.entry 0x5020 2) 0 = false) :
    exec (.bar2Read x n sec .clean) s = .next ((s.bump 0x5020 3 1).emit (.bar2 (List.replicate n 0xFF) false false)) := by
  change execBar2Read x n sec .clean s = _
  unfold execBar2Read State.bar2Read
  rw [if_pos hIn, hPower, hIde, hReady, hShut]
  rfl

/-- A read that the aperture lets through answers with the bytes, or with a poisoned completion (R329, Table 15-4). -/
theorem bar2Read_answers (hIn : x + n ≤ 0x1000000000) (hOpen : bit (s.entry 0x5020 2) 0 = true) :
    ∃ s2, exec (.bar2Read x n sec .clean) s = .next s2
      ∧ s2.out = s.out ++ [if s.rangePoisoned (s.aperture x) n then .bar2 (List.replicate n 0xFF) true false else .bar2 (s.memBytes (s.aperture x) n) false false]
      ∧ s2.mem = s.mem ∧ s2.tiles = s.tiles ∧ s2.jobs = s.jobs := by
  have hr := Reached.touchRange (s := s) (s.aperture x) n
  obtain ⟨dt, q, hShape⟩ := hr.shape
  have hStatus : (s.touchRange (s.aperture x) n).readStatus (s.aperture x) n .clean = if s.rangePoisoned (s.aperture x) n then SLOT_POISON else OK := by
    rw [← hr.poisoned]
    rfl
  have hEcc (v : State) : v.applyEcc (s.aperture x) .clean = v := rfl
  have hExec : exec (.bar2Read x n sec .clean) s = .next ((s.touchRange (s.aperture x) n).emit
      (if s.rangePoisoned (s.aperture x) n then .bar2 (List.replicate n 0xFF) true false else .bar2 (s.memBytes (s.aperture x) n) false false)) := by
    change execBar2Read x n sec .clean s = _
    unfold execBar2Read State.bar2Read
    dsimp only
    rw [if_pos hIn, hPower, hIde, hReady, hOpen, hStatus, hEcc, hr.memBytes]
    cases s.rangePoisoned (s.aperture x) n with
    | true => rfl
    | false => rfl
  refine ⟨_, hExec, ?_, ?_, ?_, ?_⟩
  · rw [hShape]; rfl
  · rw [hShape]; rfl
  · rw [hShape]; rfl
  · rw [hShape]; rfl

theorem bar2Write_stores (hIn : x + d.length ≤ 0x1000000000) (hOpen : bit (s.entry 0x5020 2) 1 = true) (hPlain : s.inImage (s.aperture x) d.length = false)
    (hClean : s.rangePoisoned (s.aperture x) d.length = false) :
    ∃ s2, exec (.bar2Write x d sec) s = .next s2 ∧ Safety.stores s s2 (s.aperture x) d ∧ s2.tiles = s.tiles ∧ s2.jobs = s.jobs ∧ s2.out = s.out := by
  have hr := Reached.touchRange (s := s) (s.aperture x) d.length
  have hClean' := (hr.poisoned (s.aperture x) d.length).trans hClean
  obtain ⟨dt, q, hShape⟩ := hr.shape
  obtain ⟨_, _, _, hWrite⟩ := memWrite_shape (s := s.touchRange (s.aperture x) d.length) (s.aperture x) d
  refine ⟨(s.touchRange (s.aperture x) d.length).memWrite (s.aperture x) d, ?_, ⟨Laws.memBytes_memWrite _ _ hClean', fun y hy => ?_⟩, ?_, ?_, ?_⟩
  · change execBar2Write x d sec s = _
    unfold execBar2Write State.bar2Write
    dsimp only
    rw [if_pos hIn, hPower, hIde, hReady, hOpen, hPlain]
    rfl
  · rw [Laws.memByte_memWrite _ _ _ hClean', if_neg hy, hr.memByte]
  · rw [hWrite, hShape]
  · rw [hWrite, hShape]
  · rw [hWrite, hShape]

omit hReady in
theorem bar2Write_shut (hIn : x + d.length ≤ 0x1000000000) (hShut : bit (s.entry 0x5020 2) 1 = false ∨ s.inImage (s.aperture x) d.length = true) :
    exec (.bar2Write x d sec) s = .next (s.bump 0x5020 3 1) := by
  have hKept : (!s.ready) = true ∨ (!bit (s.entry 0x5020 2) 1) = true ∨ s.inImage (s.aperture x) d.length = true :=
    .inr (hShut.imp_left fun h => by rw [h]; rfl)
  change execBar2Write x d sec s = _
  unfold execBar2Write State.bar2Write
  dsimp only
  rw [if_pos hIn, if_pos hKept, hPower, hIde]
  rfl

end Aperture

end Traffic

/-- Settles O47: what each access to configuration space, each completion and each BAR2 request does, clause by clause. -/
theorem hostTraffic : Obligations.HostTraffic := by
  unfold Obligations.HostTraffic
  refine ⟨fun s op hPower hReady => configAccess_retries op hPower hReady, fun s b a r hPower hReady => writeCommand_takes b a r hPower hReady,
    fun s en m hPower hReady => msixControl_takes en m hPower hReady, fun s p r hPower hReady => deviceControl_takes p r hPower hReady,
    fun s v hPending hOpen => holdoffEnd_sends hPending hOpen, fun s v hShut => holdoffEnd_waits hShut, unsupportedRequest_logs,
    fun s sel hSecure => ideCheckFailed_notes sel hSecure, fun s tag r hFind hTag hHost hCode hIssuer => hostPutAck_ends hFind hTag hHost hCode hIssuer,
    fun s tag part st d hLate hWaiters => hostCompletion_late hLate hWaiters, ?_,
    fun s tag part st d hLate hTags hSound => hostCompletion_unexpected hLate hTags hSound, fun s tag part hLate hWaiters => pcieTimeout_frees hLate hWaiters,
    ?_, fun s x d sec hPower hReady hIde hIn => ⟨fun hOpen hPlain hClean => bar2Write_stores hPower hReady hIde hIn hOpen hPlain hClean,
      fun hShut => bar2Write_shut hPower hIde hIn hShut⟩,
    fun s x n d sec hPower hIde hRead hWrite => ⟨bar2Write_refused hPower hIde hWrite, bar2Read_refused hPower hIde hRead⟩⟩
  · intro s tag part j st d r o hLate hTags hWaiters hFind hTag hHost hCode hIssuer hJob hOp hj hRun
    exact ⟨fun hOk hAll => hostCompletion_last hLate hTags hWaiters hFind hTag hHost hCode hIssuer hOk hAll,
      fun hOk hMore => hostCompletion_part hLate hTags hWaiters hFind hTag hHost hCode hOk hMore,
      fun hFail => hostCompletion_fails hLate hTags hWaiters hFind hTag hHost hCode hIssuer hJob hOp hj hRun hFail⟩
  · intro s x n sec hPower hReady hIde hIn
    refine ⟨fun hOpen hClean => ?_, fun hOpen hBad => ?_, fun hShut => bar2Read_shut hPower hReady hIde hIn hShut⟩
    · obtain ⟨s2, hExec, hOut, hKeeps⟩ := bar2Read_answers hPower hReady hIde hIn hOpen
      exact ⟨s2, hExec, by rw [hOut, hClean]; rfl, hKeeps⟩
    · obtain ⟨s2, hExec, hOut, hKeeps⟩ := bar2Read_answers hPower hReady hIde hIn hOpen
      exact ⟨s2, hExec, by rw [hOut, hBad]; rfl, hKeeps⟩

end Sys2Proof.Proofs
end

section
/-! PROOFS. The SPDM responder and its sessions (R338, R339, R363, R364, R369). -/

namespace Sys2Proof.Proofs
open Sys2Proof.Machine

section Spdm

variable {s u : State} {name : String} {request body : List Byte} {id : Nat} {x : SpdmSession}

/-! ### A signature spends a leaf (R363, R364) -/

/-- A leaf that is left and that reads back is spent: its tree's next leaf is one on, and one signature is counted (R364). -/
theorem spendLeaf_spends (hTop : s.signExhausted = false) (hLeft : 0 < s.leavesLeft) (hBack : Config.leafReadback s.freeCount = OK) :
    ∃ q d r, s.spendLeaf = (OK, q, { s.useFree with
        dict := d
        hss := { s.hss with bottomNext := s.hss.bottomNext + 1, recent := r } })
      ∧ ({ s with dict := d } : State).entry 0x9000 7 = satAdd (2 ^ 64 - 1) (s.entry 0x9000 7) 1
      ∧ ∀ i k, i ≠ 0x9000 → k < 256 → ({ s with dict := d } : State).entry i k = s.entry i k := by
  have hTree : s.switchTree = s := if_pos hLeft
  obtain ⟨w, hw⟩ : ∃ w : State, w = ({ s.useFree with hss := { s.hss with bottomNext := s.hss.bottomNext + 1 } } : State).setEntry 0x9000 6 (s.entry 0x9000 6 - 1) := ⟨_, rfl⟩
  refine ⟨s.leaf, ((s.useFree.setEntry 0x9000 6 (s.useFree.entry 0x9000 6 - 1)).bump 0x9000 7 1).dict,
    (s.hss.recent.filter fun t => s.now < t + 1000000000) ++ [w.signAt], ?_, ?_, fun i k hi hk => ?_⟩
  · unfold State.spendLeaf
    rw [hTop, hTree]
    dsimp only
    rw [if_neg (by decide), if_neg (not_not.2 hBack), hw]
    rfl
  · change ((s.useFree.setEntry 0x9000 6 (s.useFree.entry 0x9000 6 - 1)).bump 0x9000 7 1).entry 0x9000 7 = _
    rw [Laws.bump_eq, Laws.entry_setEntry_same, Laws.entry_setEntry_sub _ _ _ _ _ (by decide)]
    rfl
  · change ((s.useFree.setEntry 0x9000 6 (s.useFree.entry 0x9000 6 - 1)).bump 0x9000 7 1).entry i k = _
    exact (Laws.entry_setEntry_index _ _ _ _ _ _ (by decide) hk hi).trans (Laws.entry_setEntry_index _ _ _ _ _ _ (by decide) hk hi)

/-- A signature changes neither memory nor a tile (R364). -/
theorem spendLeaf_keeps (s : State) : s.spendLeaf.2.2.mem = s.mem ∧ s.spendLeaf.2.2.tiles = s.tiles := by
  have hTree (v : State) : v.switchTree.mem = v.mem ∧ v.switchTree.tiles = v.tiles := by
    have hPrepare : v.prepareTree.mem = v.mem ∧ v.prepareTree.tiles = v.tiles := by
      unfold State.prepareTree
      split
      · exact ⟨rfl, rfl⟩
      · exact ⟨rfl, rfl⟩
    unfold State.switchTree
    split
    · exact ⟨rfl, rfl⟩
    · obtain ⟨hMem, hTiles⟩ := hPrepare
      generalize v.prepareTree = w at hMem hTiles
      have hEvent := (EventFrame.refl { w with hss := { w.hss with bottomNext := 0, prepared := false } }).raise 0xB0C3 0xFF 0 2
        ({ w with hss := { w.hss with bottomNext := 0, prepared := false } } : State).leavesLeft
      exact ⟨hEvent.mem.trans hMem, hEvent.tiles.trans hTiles⟩
  unfold State.spendLeaf
  split
  · exact ⟨rfl, rfl⟩
  · obtain ⟨hMem, hTiles⟩ := hTree s
    dsimp only
    generalize s.switchTree = w at hMem hTiles ⊢
    split
    · have hEvent (y : State) := (EventFrame.refl y).raise 0xB0C3 0xFF 0 1 y.leavesLeft
      exact ⟨(hEvent _).mem.trans hMem, (hEvent _).tiles.trans hTiles⟩
    · exact ⟨hMem, hTiles⟩

theorem signedResponse_busy (h : s.signBusy = true) : s.signedResponse name request body = s.respond "RESPONSE_NOT_READY" [] := if_pos h

theorem signedResponse_keeps : (s.signedResponse name request body).mem = s.mem ∧ (s.signedResponse name request body).tiles = s.tiles := by
  unfold State.signedResponse
  dsimp only
  split
  · exact ⟨rfl, rfl⟩
  · split
    · exact spendLeaf_keeps s
    · exact spendLeaf_keeps s

/-- What a response that is signed shows of itself and of the signing service (R363, R364, R369). -/
structure SignedFrame (s u : State) (name : String) : Prop where
  out : ∃ d, u.out = s.out ++ [.doe name d]
  bottom : u.hss.bottomNext = s.hss.bottomNext + 1
  top : u.hss.topNext = s.hss.topNext
  count : u.entry 0x9000 7 = satAdd (2 ^ 64 - 1) (s.entry 0x9000 7) 1
  entries : ∀ i k, i ≠ 0x9000 → k < 256 → u.entry i k = s.entry i k
  sessions : u.hostLink.sessions = s.hostLink.sessions

theorem signedResponse_signs (hFree : s.signBusy = false) (hTop : s.signExhausted = false) (hLeft : 0 < s.leavesLeft) (hBack : Config.leafReadback s.freeCount = OK) :
    SignedFrame s (s.signedResponse name request body) name := by
  obtain ⟨q, d, r, hSpend, hCount, hEntries⟩ := spendLeaf_spends hTop hLeft hBack
  unfold State.signedResponse
  rw [hFree, hSpend]
  exact ⟨⟨_, rfl⟩, rfl, rfl, hCount, hEntries, rfl⟩

theorem signedResponse_once : Safety.signsOnce s (s.signedResponse name request body) name := by
  refine ⟨fun hBusy => ?_, fun hFree hTop hLeft hBack => ?_⟩
  · rw [signedResponse_busy hBusy]
    exact ⟨rfl, rfl⟩
  · have h := signedResponse_signs (name := name) (request := request) (body := body) hFree hTop hLeft hBack
    exact ⟨h.bottom, h.top, h.count, h.out⟩

/-! ### Sessions are found by their number -/

/-- A session that changes but for its number is found as it has become. -/
theorem spdmSession_map {g : SpdmSession → SpdmSession} (hFind : s.spdmSession id = some x) (hId : ∀ y, (g y).id = y.id) {l : List SpdmSession}
    (hl : l = s.hostLink.sessions.map fun y => if y.id = id then g y else y) : (s.setSpdm l).spdmSession id = some (g x) := by
  have hSame : ((fun y : SpdmSession => decide (y.id = id)) ∘ fun y => if y.id = id then g y else y) = fun y => decide (y.id = id) := by
    funext y
    rw [Function.comp_apply]
    split
    · rw [hId]
    · rfl
  have hx : x.id = id := by simpa using List.find?_some hFind
  change List.find? _ l = _
  rw [hl, List.find?_map, hSame, show List.find? (fun y => decide (y.id = id)) s.hostLink.sessions = some x from hFind, Option.map_some, if_pos hx]

theorem spdmSession_filter {l : List SpdmSession} (hl : l = s.hostLink.sessions.filter fun y => y.id ≠ id) : (s.setSpdm l).spdmSession id = none := by
  change List.find? _ l = _
  rw [hl, List.find?_eq_none]
  intro y hy
  simpa using (List.mem_filter.1 hy).2

/-! ### The negotiation (R339) -/

section Served

variable (hReady : s.ready = true) (hUp : s.hostUp = true)
include hReady hUp

theorem doe_serves (f : State → State) : s.doe f = f s := by rw [State.doe, hReady, hUp]; rfl

theorem discovery_answers {index : Nat} (h : index < 3) :
    exec (.doeDiscovery index) s = .next (s.emit (.doe "DISCOVERY" [BitVec.ofNat 8 index, BitVec.ofNat 8 ((index + 1) % 3)])) := by
  change execDoeDiscovery index s = _
  rw [execDoeDiscovery, doe_serves hReady hUp, if_pos h]
  rfl

theorem getVersion_answers : ∃ s2, exec .getVersion s = .next s2 ∧ s2.out = s.out ++ [.doe "VERSION" [0x12, 0x13]] ∧ s2.hostLink.spdmVersion = true
    ∧ s2.hostLink.spdmAlgorithms = false ∧ s2.dict = s.dict ∧ s2.mem = s.mem :=
  ⟨_, congrArg Host.Outcome.next (doe_serves hReady hUp _), rfl, rfl, rfl, rfl, rfl⟩

theorem getCapabilities_answers (h : s.hostLink.spdmVersion = true) : ∃ s2, exec .getCapabilities s = .next s2 ∧ s2.out = s.out ++ [.doe "CAPABILITIES" [17]]
    ∧ s2.hostLink.spdmCapabilities = true ∧ s2.dict = s.dict ∧ s2.mem = s.mem :=
  ⟨_, congrArg Host.Outcome.next ((doe_serves hReady hUp _).trans (if_pos h)), rfl, rfl, rfl, rfl⟩

theorem getCapabilities_early (h : s.hostLink.spdmVersion = false) : exec .getCapabilities s = .next (s.emit (.doe "ERROR" [4])) := by
  change execGetCapabilities s = _
  rw [execGetCapabilities, doe_serves hReady hUp, if_neg (by rw [h]; decide)]
  rfl

theorem negotiateAlgorithms_answers (dhe aead : Bool) (h : s.hostLink.spdmCapabilities = true) : ∃ s2, exec (.negotiateAlgorithms true true dhe aead) s = .next s2
    ∧ s2.out = s.out ++ [.doe "ALGORITHMS" [1, 1, if dhe then 1 else 0, if aead then 1 else 0]] ∧ s2.hostLink.spdmAlgorithms = true ∧ s2.dict = s.dict :=
  ⟨_, congrArg Host.Outcome.next ((doe_serves hReady hUp _).trans ((if_neg (by rw [h]; decide)).trans (if_neg (by decide)))),
    rfl, rfl, rfl⟩

theorem negotiated_refused (h : s.hostLink.spdmAlgorithms = false) (f : State → State) : s.negotiated f = s.emit (.doe "ERROR" [4]) := by
  rw [State.negotiated, doe_serves hReady hUp, if_neg (by rw [h]; decide)]
  rfl

/-! ### Digests, certificates and signed responses (R369) -/

section Negotiated

variable (h : s.hostLink.spdmAlgorithms = true)
include h

theorem negotiated_serves (f : State → State) : s.negotiated f = f s := by rw [State.negotiated, doe_serves hReady hUp, if_pos h]

theorem getDigests_answers : ∃ s2, exec .getDigests s = .next s2 ∧ s2.out = s.out ++ [.doe "DIGESTS" ([1] ++ chainDigest)] ∧ s2.dict = s.dict ∧ s2.mem = s.mem :=
  ⟨_, congrArg Host.Outcome.next (negotiated_serves hReady hUp h _), rfl, rfl, rfl⟩

theorem getCertificate_answers {off n : Nat} {part : List Byte} (hOff : off ≤ spdmChain.length) (hPart : part = (spdmChain.drop off).take n) :
    ∃ s2, exec (.getCertificate 0 off n) s = .next s2
      ∧ s2.out = s.out ++ [.doe "CERTIFICATE" (leBytes 2 part.length ++ leBytes 2 (spdmChain.length - off - part.length) ++ part)] ∧ s2.dict = s.dict := by
  refine ⟨(s.transcribe [0x82]).respond "CERTIFICATE" (leBytes 2 part.length ++ leBytes 2 (spdmChain.length - off - part.length) ++ part), ?_, rfl, rfl⟩
  change execGetCertificate 0 off n s = _
  rw [execGetCertificate, negotiated_serves hReady hUp h, if_neg (by simp; omega), hPart]

theorem getMeasurements_answers {index : Nat} {nonce b : List Byte} (hBlocks : s.measurementBlocks index = some b) :
    ∃ s2, exec (.getMeasurements index false nonce) s = .next s2 ∧ s2.out = s.out ++ [.doe "MEASUREMENTS" b] ∧ s2.dict = s.dict ∧ s2.mem = s.mem := by
  refine ⟨(s.transcribe [0xE0, BitVec.ofNat 8 index]).respond "MEASUREMENTS" b, ?_, rfl, rfl, rfl⟩
  change execGetMeasurements index false nonce s = _
  rw [execGetMeasurements, negotiated_serves hReady hUp h, hBlocks]
  rfl

theorem challenge_signs (nonce : List Byte) : ∃ s2, exec (.challenge 0 nonce) s = .next s2 ∧ s2.mem = s.mem ∧ s2.tiles = s.tiles ∧ Safety.signsOnce s s2 "CHALLENGE_AUTH" := by
  obtain ⟨hMem, hTiles⟩ := signedResponse_keeps (s := s) (name := "CHALLENGE_AUTH") (request := [0x83] ++ nonce) (body := [0] ++ chainDigest ++ s.responderNonce)
  refine ⟨_, ?_, hMem, hTiles, signedResponse_once⟩
  change execChallenge 0 nonce s = _
  rw [execChallenge, negotiated_serves hReady hUp h, if_neg (by decide)]

theorem getMeasurements_signs {index : Nat} {nonce b : List Byte} (hBlocks : s.measurementBlocks index = some b) :
    ∃ s2, exec (.getMeasurements index true nonce) s = .next s2 ∧ s2.mem = s.mem ∧ s2.tiles = s.tiles ∧ Safety.signsOnce s s2 "MEASUREMENTS" := by
  obtain ⟨hMem, hTiles⟩ := signedResponse_keeps (s := s) (name := "MEASUREMENTS") (request := [0xE0, BitVec.ofNat 8 index] ++ nonce) (body := b ++ s.responderNonce)
  refine ⟨_, ?_, hMem, hTiles, signedResponse_once⟩
  change execGetMeasurements index true nonce s = _
  rw [execGetMeasurements, negotiated_serves hReady hUp h, hBlocks]
  rfl

/-! ### Sessions (R338, R339) -/

theorem keyExchange_opens (hRoom : s.hostLink.sessions.length < 2) (hNew : s.spdmSession id = none) :
    ∃ s2, exec (.keyExchange id) s = .next s2 ∧ s2.mem = s.mem ∧ s2.tiles = s.tiles ∧ Safety.signsOnce s s2 "KEY_EXCHANGE_RSP"
      ∧ (s.signBusy = true → s2.hostLink.sessions = s.hostLink.sessions)
      ∧ (s.signBusy = false → s.signExhausted = false → 0 < s.leavesLeft → Config.leafReadback s.freeCount = OK →
          s2.hostLink.sessions = s.hostLink.sessions ++ [{ id := id, secured := false, keyGeneration := 0 }]
            ∧ s2.entry 0x5040 0x0D = s.hostLink.sessions.length + 1) := by
  obtain ⟨v, hv⟩ : ∃ v, v = s.setSpdm (s.hostLink.sessions ++ [{ id := id, secured := false, keyGeneration := 0 }]) := ⟨_, rfl⟩
  obtain ⟨r, hr⟩ : ∃ r, r = v.signedResponse "KEY_EXCHANGE_RSP" ([0xE4] ++ leBytes 2 id) s.responderNonce := ⟨_, rfl⟩
  have hExec : exec (.keyExchange id) s = .next (if s.signBusy ∨ s.spendLeaf.1 ≠ OK then r.setSpdm s.hostLink.sessions else r) := by
    change execKeyExchange id s = _
    rw [execKeyExchange, negotiated_serves hReady hUp h, if_neg (by rw [hNew]; simp; omega), hr, hv]
  have hEntry (k : Nat) (hk : k < 256) : v.entry 0x9000 k = s.entry 0x9000 k := by
    rw [hv]
    exact Laws.entry_setEntry_index _ _ _ _ _ _ (by decide) hk (by decide)
  have hHss : v.hss = s.hss := by rw [hv]; rfl
  have hOut : v.out = s.out := by rw [hv]; rfl
  have hBusy : v.signBusy = s.signBusy := by
    unfold State.signBusy
    rw [hEntry 8 (by decide), hHss, hv]
    rfl
  have hTop : v.signExhausted = s.signExhausted := by unfold State.signExhausted State.leavesLeft; rw [hHss]
  have hLeft : v.leavesLeft = s.leavesLeft := by unfold State.leavesLeft; rw [hHss]
  have hCount : v.freeCount = s.freeCount := by rw [hv]; rfl
  obtain ⟨hMem, hTiles⟩ := signedResponse_keeps (s := v) (name := "KEY_EXCHANGE_RSP") (request := [0xE4] ++ leBytes 2 id) (body := s.responderNonce)
  rw [← hr] at hMem hTiles
  have hSigns (hFree : s.signBusy = false) (hTop' : s.signExhausted = false) (hLeft' : 0 < s.leavesLeft) (hBack : Config.leafReadback s.freeCount = OK) :
      SignedFrame v r "KEY_EXCHANGE_RSP" ∧ ¬(s.signBusy ∨ s.spendLeaf.1 ≠ OK) := by
    obtain ⟨q, d, r', hSpend, -⟩ := spendLeaf_spends hTop' hLeft' hBack
    refine ⟨?_, by rw [hFree, hSpend]; simp⟩
    rw [hr]
    exact signedResponse_signs (hBusy.trans hFree) (hTop.trans hTop') (hLeft ▸ hLeft') (hCount ▸ hBack)
  refine ⟨_, hExec, ?_, ?_, ⟨fun hB => ?_, fun hFree hTop' hLeft' hBack => ?_⟩, fun hB => ?_, fun hFree hTop' hLeft' hBack => ?_⟩
  · rw [show s.mem = v.mem by rw [hv]; rfl, ← hMem]
    split <;> rfl
  · rw [show s.tiles = v.tiles by rw [hv]; rfl, ← hTiles]
    split <;> rfl
  · rw [if_pos (.inl hB), hr, signedResponse_busy (hBusy.trans hB), ← hOut, ← hHss]
    exact ⟨rfl, rfl⟩
  · obtain ⟨hFrame, hKept⟩ := hSigns hFree hTop' hLeft' hBack
    rw [if_neg hKept, ← hHss, ← hOut, ← hEntry 7 (by decide)]
    exact ⟨hFrame.bottom, hFrame.top, hFrame.count, hFrame.out⟩
  · rw [if_pos (.inl hB)]
    rfl
  · obtain ⟨hFrame, hKept⟩ := hSigns hFree hTop' hLeft' hBack
    rw [if_neg hKept, hFrame.sessions, hFrame.entries 0x5040 0x0D (by decide) (by decide), hv]
    exact ⟨rfl, (Laws.entry_setEntry_same ..).trans List.length_append⟩

end Negotiated

theorem spdmFinish_ends (h : s.hostLink.spdmAlgorithms = true) (hFind : s.spdmSession id = some x) (hOpen : x.secured = false) :
    (∃ s2, exec (.spdmFinish id true) s = .next s2 ∧ (s2.spdmSession id).map (fun y => y.secured) = some true ∧ s2.out = s.out ++ [.doe "FINISH_RSP" []] ∧ s2.mem = s.mem)
    ∧ (∃ s2, exec (.spdmFinish id false) s = .next s2 ∧ s2.spdmSession id = none ∧ s2.mem = s.mem) := by
  have hExec (verified : Bool) : exec (.spdmFinish id verified) s = .next (if verified then
      (s.setSpdm (s.hostLink.sessions.map fun y => if y.id = id then { y with secured := true } else y)).respond "FINISH_RSP" []
      else (s.setSpdm (s.hostLink.sessions.filter fun y => y.id ≠ id)).respond "ERROR" [6]) := by
    change execSpdmFinish id verified s = _
    rw [execSpdmFinish, negotiated_serves hReady hUp h, hFind]
    dsimp only
    rw [if_neg (by rw [hOpen]; decide)]
  refine ⟨⟨_, hExec true, ?_, rfl, rfl⟩, ⟨_, hExec false, spdmSession_filter rfl, rfl⟩⟩
  exact congrArg (Option.map fun y => y.secured) (spdmSession_map (g := fun y => { y with secured := true }) hFind (fun _ => rfl) rfl)

section Secured

variable (hFind : s.spdmSession id = some x) (hSecured : x.secured = true)
include hFind hSecured

theorem inSession_serves (f : State → State) : s.inSession id f = f s := by
  rw [State.inSession, doe_serves hReady hUp, hFind, if_pos (by exact hSecured)]

theorem heartbeat_answers : exec (.heartbeat id) s = .next (s.emit (.doe "HEARTBEAT_ACK" [])) := by
  change execHeartbeat id s = _
  rw [execHeartbeat, inSession_serves hReady hUp hFind hSecured]
  rfl

theorem keyUpdate_updates : ∃ s2, exec (.keyUpdate id) s = .next s2 ∧ (s2.spdmSession id).map (fun y => y.keyGeneration) = some (x.keyGeneration + 1)
    ∧ s2.out = s.out ++ [.doe "KEY_UPDATE_ACK" []] ∧ s2.mem = s.mem := by
  refine ⟨_, congrArg Host.Outcome.next (inSession_serves hReady hUp hFind hSecured _), ?_, rfl, rfl⟩
  exact congrArg (Option.map fun y => y.keyGeneration)
    (spdmSession_map (g := fun y => { y with keyGeneration := y.keyGeneration + 1 }) hFind (fun _ => rfl) rfl)

theorem endSession_ends : ∃ s2, exec (.endSession id) s = .next s2 ∧ s2.spdmSession id = none ∧ s2.entry 0x5040 0x0D = s2.hostLink.sessions.length
    ∧ s2.out = s.out ++ [.doe "END_SESSION_ACK" []] ∧ s2.mem = s.mem :=
  ⟨_, congrArg Host.Outcome.next (inSession_serves hReady hUp hFind hSecured _), spdmSession_filter rfl,
    Laws.entry_setEntry_same .., rfl, rfl⟩

theorem vendorDefined_keys (sel : Bool) : ∃ s2, exec (.vendorDefinedRequest id sel) s = .next s2 ∧ s2.secureStream = true
    ∧ (if sel then s2.hostLink.selectiveIde else s2.hostLink.linkIde) = .secure ∧ s2.out = s.out ++ [.doe "VENDOR_DEFINED_RESPONSE" []] ∧ s2.mem = s.mem := by
  refine ⟨_, congrArg Host.Outcome.next (inSession_serves hReady hUp hFind hSecured _), ?_, ?_, rfl, rfl⟩
  · cases sel
    · rfl
    · exact Bool.or_true _
  · cases sel
    · rfl
    · rfl

end Secured

theorem heartbeat_unknown (hFind : s.spdmSession id = none) : exec (.heartbeat id) s = .next (s.emit (.doe "ERROR" [4])) := by
  change execHeartbeat id s = _
  rw [execHeartbeat, State.inSession, doe_serves hReady hUp, hFind]
  rfl

end Served

end Spdm

/-- Settles O48: the responder answers in its order, a signed response spends one leaf or waits at the rate limit, and a session is opened, secured, used and ended. -/
theorem spdmResponds : Obligations.SpdmResponds := by
  unfold Obligations.SpdmResponds
  refine ⟨fun s hReady hUp => ⟨fun index hIndex => discovery_answers hReady hUp hIndex, getVersion_answers hReady hUp, getCapabilities_answers hReady hUp,
      getCapabilities_early hReady hUp, negotiateAlgorithms_answers hReady hUp, fun h => ?_, fun h => ⟨getDigests_answers hReady hUp h,
        fun off n part hOff hPart => getCertificate_answers hReady hUp h hOff hPart, fun index nonce b hBlocks => getMeasurements_answers hReady hUp h hBlocks,
        challenge_signs hReady hUp h, fun index nonce b hBlocks => getMeasurements_signs hReady hUp h hBlocks⟩⟩,
    fun s id hReady hUp => ⟨fun h hRoom hNew => keyExchange_opens hReady hUp h hRoom hNew, fun x h hFind hOpen => spdmFinish_ends hReady hUp h hFind hOpen,
      fun x hFind hSecured => ⟨heartbeat_answers hReady hUp hFind hSecured, keyUpdate_updates hReady hUp hFind hSecured, endSession_ends hReady hUp hFind hSecured,
        vendorDefined_keys hReady hUp hFind hSecured⟩, heartbeat_unknown hReady hUp⟩⟩
  exact congrArg Host.Outcome.next (negotiated_refused hReady hUp h _)

end Sys2Proof.Proofs
end

section
/-! PROOFS. Binding copies good descriptors and ends the job at a bad one (R70, R71, R242, R253, R354). -/

namespace Sys2Proof.Proofs
open Sys2Proof.Machine

section Binding

variable {s t u : State} {j x a code : Nat} {im : Image} {d : Descriptor}

/-! ### What the decision of a phase leaves (R354, R355) -/

/-- From `s` to `u` no byte of memory changes, and of the jobs at most what is counted: a replay's moment and the ledger's hold. -/
structure Paced (s u : State) : Prop where
  mem : u.mem = s.mem
  jobs : ∀ k, ∃ a p, u.job k = { s.job k with trapAt := a, powerHeld := p }

namespace Paced

theorem of_same (hMem : u.mem = s.mem) (hJobs : u.jobs = s.jobs) : Paced s u :=
  ⟨hMem, fun k => ⟨_, _, by rw [State.job, hJobs]; rfl⟩⟩

theorem refl (s : State) : Paced s s := of_same rfl rfl

theorem trans (h : Paced s t) (h' : Paced t u) : Paced s u where
  mem := h'.mem.trans h.mem
  jobs k := by
    obtain ⟨_, _, e⟩ := h.jobs k
    obtain ⟨a, p, e'⟩ := h'.jobs k
    exact ⟨a, p, by rw [e', e]⟩

theorem foldl {α : Type} {g : State → α → State} (hg : ∀ u x, Paced u (g u x)) (l : List α) : ∀ s, Paced s (l.foldl g s) := by
  induction l with
  | nil => exact refl
  | cons x l ih => exact fun s => (hg s x).trans (ih _)

theorem of_settled (h : Settled s u) : Paced s u where
  mem := h.mem
  jobs k := by
    obtain ⟨a, e⟩ := h.jobs k
    exact ⟨a, _, e⟩

theorem hold (j : Nat) (p : Option Nat) : Paced s (s.updJob j fun x => { x with powerHeld := p }) where
  mem := rfl
  jobs k := by
    by_cases hk : k = j
    · subst hk
      exact ⟨_, _, Laws.job_setJob_same ..⟩
    · exact ⟨_, _, Laws.job_setJob_ne _ _ _ _ hk⟩

theorem updTile (t : Nat) (f : Tile → Tile) : Paced s (s.updTile t f) := ⟨rfl, fun _ => ⟨_, _, rfl⟩⟩

theorem setEntry (i k v : Nat) : Paced s (s.setEntry i k v) := ⟨rfl, fun _ => ⟨_, _, rfl⟩⟩

theorem wakeTile (t : Nat) : Paced s (s.wakeTile t) := by
  obtain ⟨_, _, e, -⟩ := wakeTile_shape (s := s) (t := t)
  exact of_same (by rw [e]) (by rw [e])

theorem settleWait (t : Nat) : Paced s (s.settleWait t) := of_settled ((Settled.refl s).settleWait t)

theorem stall (t e cause n : Nat) : Paced s (s.stall t e cause n) := of_settled ((Settled.refl s).stall t e cause n)

theorem resumeTile (t : Nat) : Paced s (s.resumeTile t) := by
  have hWait (v : State) : Paced v (v.endWait t) := (settleWait t).trans (updTile t _)
  exact ((wakeTile t).trans (hWait _)).trans (updTile t _)

theorem endHold (j : Nat) : Paced s (s.endHold j) := by
  unfold State.endHold
  split
  · exact refl s
  · refine trans (of_settled ((Settled.refl s).settleJob j)) ?_
    generalize s.settleJob j = v
    exact ((setEntry ..).trans (setEntry ..)).trans (hold j none)

theorem switchStop (t j x : Nat) : Paced s (s.switchStop t j x) := by
  unfold State.switchStop
  dsimp only
  refine trans (foldl (fun u e => ?_) _ _) (updTile ..)
  split
  · exact stall ..
  · exact refl u

theorem switchClock (j x : Nat) : Paced s (s.switchClock j x) := by
  unfold State.switchClock
  dsimp only
  split
  · exact refl s
  · refine trans (of_settled ((Settled.refl s).settleJob j)) ?_
    generalize s.settleJob j = v
    refine trans ?_ (foldl (fun u t => (setEntry (0xA0C0 + t) 2 x).trans (switchStop t j x)) _ _)
    exact ⟨rfl, fun _ => ⟨_, _, rfl⟩⟩

theorem admitPhase (j phase x : Nat) : Paced s (s.admitPhase j phase x) := by
  have hGrant (p : Int) : Paced s (s.grantPower p) := by
    unfold State.grantPower
    split
    · exact of_same rfl rfl
    · exact refl s
  unfold State.admitPhase
  dsimp only
  have hMove (v : State) : Paced v (v.movePoint j x) := (switchClock j x).trans (setEntry ..)
  refine trans ?_ (foldl (fun _ t => resumeTile t) _ _)
  refine trans ?_ (hMove _)
  exact ((hGrant _).trans (setEntry ..)).trans (endHold j)

theorem holdRequest (j phase : Nat) : Paced s (s.holdRequest j phase) := by
  unfold State.holdRequest
  dsimp only
  have hStart (v : State) (t : Nat) : Paced v ((v.startWait t causePower).updTile t fun x => { x with run := .held, holdCause := causePower }) :=
    ((settleWait t).trans (updTile ..)).trans (updTile ..)
  obtain ⟨v, hv, hWoken⟩ : ∃ v, v = (s.job j).group.foldl (fun s t => s.wakeTile t) s ∧ Paced s v := ⟨_, rfl, foldl (fun _ t => wakeTile t) _ _⟩
  rw [← hv]
  have hHeld := (hWoken.trans (hold j (some v.now))).trans (foldl hStart ((v.updJob j fun x => { x with powerHeld := some v.now }).job j).group _)
  generalize List.foldl _ _ _ = w at hHeld ⊢
  have hEvent (y : State) (hy : y.mem = w.mem ∧ y.jobs = w.jobs) : Paced w (y.raise 0xB090 j OK (reqDetail j phase) 0) := by
    have h := (EventFrame.refl y).raise 0xB090 j OK (reqDetail j phase) 0
    exact of_same (h.mem.trans hy.1) (h.jobs.trans hy.2)
  exact hHeld.trans (hEvent _ ⟨rfl, rfl⟩)

theorem requestPhase (j phase : Nat) : Paced s (s.requestPhase j phase) := by
  unfold State.requestPhase
  split
  · exact holdRequest j phase
  · split
    · exact admitPhase ..
    · exact holdRequest j phase

end Paced

/-! ### One descriptor -/

/-- A refusal's code is one of Table 3-8's (R70). -/
theorem bindRefusal_code (h : s.bindRefusal im x d = some code) : code = SLOT_POISON ∨ code = PARAM_MISMATCH := by
  unfold State.bindRefusal at h
  dsimp only at h
  split at h
  · exact .inl (Option.some.inj h).symm
  · split at h
    · exact .inr (Option.some.inj h).symm
    · split at h
      · cases h
      · exact .inr (Option.some.inj h).symm

/-- An error of Table 3-8 is recorded for the job with its handle. -/
theorem noteLedgerError_notes (hj : j < 16) (hCode : code = SLOT_POISON ∨ code = PARAM_MISMATCH) :
    (s.noteLedgerError j code x).entry (0x2200 + j) 6 = code ∧ (s.noteLedgerError j code x).entry (0x2200 + j) 7 = x
      ∧ ∃ d, s.noteLedgerError j code x = { s with dict := d } := by
  obtain ⟨v, hv, hSix, hSeven⟩ : ∃ v, v = (s.setEntry (0x2200 + j) 6 code).setEntry (0x2200 + j) 7 x ∧ v.entry (0x2200 + j) 6 = code ∧ v.entry (0x2200 + j) 7 = x :=
    ⟨_, rfl, (Laws.entry_setEntry_sub _ _ _ _ _ (by decide)).trans (Laws.entry_setEntry_same ..), Laws.entry_setEntry_same ..⟩
  have hNamed : ¬(code ≠ SLOT_POISON ∧ code ≠ LEDGER_ASH ∧ code ≠ PARAM_MISMATCH) := fun h => hCode.elim h.1 h.2.2
  unfold State.noteLedgerError
  rw [if_neg hNamed]
  dsimp only
  rw [← hv]
  have hCount (c k : Nat) (hc : c < 256) (hk : k < 256) : (v.bump 0x2300 c 1).entry (0x2200 + j) k = v.entry (0x2200 + j) k :=
    Laws.entry_setEntry_index _ _ _ _ _ _ hc hk (by omega)
  split
  · exact ⟨(hCount 2 6 (by decide) (by decide)).trans hSix, (hCount 2 7 (by decide) (by decide)).trans hSeven, _, by rw [hv]; rfl⟩
  · split
    · exact ⟨(hCount 4 6 (by decide) (by decide)).trans hSix, (hCount 4 7 (by decide) (by decide)).trans hSeven, _, by rw [hv]; rfl⟩
    · exact ⟨hSix, hSeven, _, by rw [hv]; rfl⟩

section Local

variable (hImage : (s.job j).image = some im) (hKind : (im.decl x).kind = 1) (hSelf : s.isSelf (nodeOf (im.decl x).descAddr) = true)
  (ha : a = localOf (im.decl x).descAddr) (hIn : inStack a 64 = true) (hClean : s.rangePoisoned a 64 = false)
include hKind hSelf ha hIn hClean

/-- A descriptor of this device is read at once (R71). -/
theorem bindOne_local : s.bindOne j x im = s.bindBytes j x im (s.memBytes a 64) := by
  unfold State.bindOne
  dsimp only
  rw [if_neg (by omega), if_pos hSelf, ← ha, hIn, hClean]
  rfl

include hImage

theorem descriptorBind_binds (hj : j < 16) (hRun : (s.job j).state = .running) (hNext : (s.job j).bindNext = some x) (hLast : im.handles.length = x + 1)
    (hTable : (s.job j).handles.length = x + 1) (hGood : s.bindRefusal im x (readDescriptor (s.memBytes a 64)) = none) :
    ∃ t, exec (.descriptorBind j) s = .next t ∧ (t.job j).bindNext = none ∧ (t.job j).state = .running ∧ t.mem = s.mem
      ∧ (t.job j).handles[x]? = some (im.boundHandle (s.set? (readDescriptor (s.memBytes a 64)).set) (readDescriptor (s.memBytes a 64))) := by
  obtain ⟨h, hh⟩ : ∃ h, h = im.boundHandle (s.set? (readDescriptor (s.memBytes a 64)).set) (readDescriptor (s.memBytes a 64)) := ⟨_, rfl⟩
  obtain ⟨v, hv, hvJob, hvMem⟩ : ∃ v, v = s.updJob j (fun y => { y with handles := y.handles.set x h, bindNext := some (x + 1) })
      ∧ v.job j = { s.job j with handles := (s.job j).handles.set x h, bindNext := some (x + 1) } ∧ v.mem = s.mem := ⟨_, rfl, Laws.job_setJob_same .., rfl⟩
  have hOne : s.bindOne j x im = v := by
    rw [bindOne_local hKind hSelf ha hIn hClean, State.bindBytes]
    rw [hGood, hv, hh]
  obtain ⟨w, hw, hwJob, hwMem⟩ : ∃ w, w = v.updJob j (fun y => { y with bindNext := none })
      ∧ w.job j = { s.job j with handles := (s.job j).handles.set x h, bindNext := none } ∧ w.mem = s.mem :=
    ⟨_, rfl, by rw [State.updJob, Laws.job_setJob_same, hvJob], hvMem⟩
  have hPaced := Paced.requestPhase (s := w) j 0
  obtain ⟨tr, p, hJob⟩ := hPaced.jobs j
  rw [hwJob] at hJob
  refine ⟨w.requestPhase j 0, ?_, by rw [hJob], by rw [hJob]; exact hRun, hPaced.mem.trans hwMem, ?_⟩
  · change execDescriptorBind j s = _
    rw [execDescriptorBind, Laws.onJob_next hj]
    rw [hImage]
    dsimp only
    rw [if_pos hRun, hLast, State.bindFrom, hNext]
    dsimp only
    rw [if_neg (by omega), hOne, hvJob, if_neg (by simp), State.bindFrom, hvJob]
    dsimp only
    rw [if_pos (by omega), hw]
  · rw [hJob, ← hh]
    dsimp only
    rw [List.getElem?_set_self (by omega)]

theorem descriptorBind_refuses (hj : j < 16) (hRun : (s.job j).state = .running) (hNext : (s.job j).bindNext = some x) (hMore : x < im.handles.length)
    (hBad : s.bindRefusal im x (readDescriptor (s.memBytes a 64)) = some code) :
    ∃ t, exec (.descriptorBind j) s = .next t ∧ (t.job j).bindNext = none ∧ (t.job j).state = .draining ∧ (t.job j).drain = .abort
      ∧ (t.job j).abortCode = code ∧ t.entry (0x2200 + j) 6 = code ∧ t.entry (0x2200 + j) 7 = x ∧ t.mem = s.mem ∧ Safety.tilesKeep s t := by
  obtain ⟨v, hv, hvJob⟩ : ∃ v, v = s.updJob j (fun y => { y with bindNext := none }) ∧ v.job j = { s.job j with bindNext := none } :=
    ⟨_, rfl, Laws.job_setJob_same ..⟩
  obtain ⟨hSix, hSeven, dn, hNoted⟩ := noteLedgerError_notes (s := v) (x := x) hj (bindRefusal_code hBad)
  have hNotedJob : (v.noteLedgerError j code x).job j = { s.job j with bindNext := none } := by rw [hNoted]; exact hvJob
  have hEnds := abortJob_running (s := v.noteLedgerError j code x) (j := j) code 0xFF 0 (by rw [hNotedJob]; exact hRun)
  obtain ⟨tr, hJob⟩ := hEnds.job
  rw [hNotedJob] at hJob
  have hOne : s.bindOne j x im = (v.noteLedgerError j code x).abortJob j code 0xFF 0 := by
    rw [bindOne_local hKind hSelf ha hIn hClean, State.bindBytes]
    rw [hBad, hv]
    rfl
  generalize (v.noteLedgerError j code x).abortJob j code 0xFF 0 = w at hEnds hJob hOne
  refine ⟨w, ?_, by rw [hJob], by rw [hJob], by rw [hJob], by rw [hJob], ?_, ?_, ?_, fun g => ?_⟩
  · change execDescriptorBind j s = _
    rw [execDescriptorBind, Laws.onJob_next hj]
    rw [hImage]
    dsimp only
    rw [if_pos hRun, State.bindFrom, hNext]
    dsimp only
    rw [if_neg (by omega), hOne, hJob, if_neg (by simp), State.bindFrom, hJob]
  · exact (hEnds.entries _ _ (by omega) (by decide)).trans hSix
  · exact (hEnds.entries _ _ (by omega) (by decide)).trans hSeven
  · rw [hEnds.mem, hNoted, hv]; rfl
  · obtain ⟨_, _, e⟩ := hEnds.tiles g
    rw [e, hNoted, hv]
    exact ⟨rfl, rfl, rfl, rfl, rfl, rfl, rfl, rfl, rfl, rfl⟩

end Local

end Binding

/-- Settles O20: the last good descriptor is copied into the handle table and ends binding; a bad one ends the job with its error, recorded with its handle. -/
theorem descriptorsBind : Obligations.DescriptorsBind := by
  unfold Obligations.DescriptorsBind
  exact ⟨fun s j x a im hj hRun hImage hNext hLast hTable hKind hSelf ha hIn hClean hGood =>
      descriptorBind_binds hImage hKind hSelf ha hIn hClean hj hRun hNext hLast hTable hGood,
    fun s j x a code im hj hRun hImage hNext hMore hKind hSelf ha hIn hClean hBad =>
      descriptorBind_refuses hImage hKind hSelf ha hIn hClean hj hRun hNext hMore hBad⟩

end Sys2Proof.Proofs
end

section
/-! PROOFS. How an aborted or stopped job ends (R255, R257, R395). -/

namespace Sys2Proof.Proofs
open Sys2Proof.Machine

section Endings

variable {s t u v : State} {j : Nat} {im : Image}

/-! ### What lies outside memory, the jobs and the tiles -/

/-- From `s` to `u` neither memory nor a job, a tile or a latch tick changes. -/
structure Shut (s u : State) : Prop where
  mem : u.mem = s.mem
  memUndefined : u.memUndefined = s.memUndefined
  ticks : u.ticks = s.ticks
  jobs : u.jobs = s.jobs
  tiles : u.tiles = s.tiles

namespace Shut

theorem refl (s : State) : Shut s s := ⟨rfl, rfl, rfl, rfl, rfl⟩

theorem trans (h : Shut s t) (h' : Shut t u) : Shut s u :=
  ⟨h'.mem.trans h.mem, h'.memUndefined.trans h.memUndefined, h'.ticks.trans h.ticks, h'.jobs.trans h.jobs, h'.tiles.trans h.tiles⟩

theorem event (h : EventFrame s u) : Shut s u := by
  obtain ⟨_, _, _, _, _, _, _, rfl⟩ := h
  exact ⟨rfl, rfl, rfl, rfl, rfl⟩

theorem foldl {α : Type} {g : State → α → State} (hg : ∀ u x, Shut u (g u x)) (l : List α) : ∀ s, Shut s (l.foldl g s) := by
  induction l with
  | nil => exact refl
  | cons x l ih => exact fun s => (hg s x).trans (ih _)

theorem discardGroup (g : PendingGroup) : Shut s (s.discardGroup g) := by
  have hEnd (f : Context → Context) : Shut s (s.endGroup g f) := by
    unfold State.endGroup
    split
    · exact ⟨rfl, rfl, rfl, rfl, rfl⟩
    · exact refl s
  exact (hEnd _).trans (event ((EventFrame.refl _).raise ..))

theorem discardOwn (j : Nat) : Shut s (s.discardOwn j) := by
  unfold State.discardOwn
  exact trans (t := { s with pendingGroups := s.pendingGroups.filter fun g => g.job ≠ j }) ⟨rfl, rfl, rfl, rfl, rfl⟩ (foldl (fun _ g => discardGroup g) _ _)

/-- A normal end without a group pending on the job applies none (R42). -/
theorem applyOwn (h : (s.pendingGroups.any fun g => g.job = j) = false) : Shut s (s.applyOwn j) := by
  have hNone : (s.pendingGroups.filter fun g => g.job = j) = [] := by
    rw [List.filter_eq_nil_iff]
    exact fun g hg => (List.any_eq_false.1 h) g hg
  unfold State.applyOwn
  rw [hNone]
  exact ⟨rfl, rfl, rfl, rfl, rfl⟩

theorem wipePkeOf (j : Nat) : Shut s (s.wipePkeOf j) := by
  unfold State.wipePkeOf State.wipePke
  dsimp only
  split
  · split
    · exact ⟨rfl, rfl, rfl, rfl, rfl⟩
    · exact ⟨rfl, rfl, rfl, rfl, rfl⟩
  · exact refl s

theorem endChecks (j : Nat) : Shut s (s.endChecks j) := foldl (fun _ n => event (endCheck_frame n)) _ s

theorem releaseStream (k state : Nat) : Shut s (s.releaseStream k state) :=
  trans (t := s.updStream k fun x => { x with state := state, bound := false }) ⟨rfl, rfl, rfl, rfl, rfl⟩ (event (endCheck_frame _))

theorem dropCredits (x : Stream) : Shut s (s.dropCredits x) := by
  obtain ⟨_, _, e⟩ := dropCredits_shape (s := s) x
  rw [e]
  exact ⟨rfl, rfl, rfl, rfl, rfl⟩

/-- The streams of a job that ended normally leave no row POISON (R185). -/
theorem cancelStreams (j : Nat) : Shut s (s.cancelStreams j true) := by
  unfold State.cancelStreams
  dsimp only
  have hWaits : Shut s { s with openWaits := s.openWaits.filter (fun w => w.job ≠ j), lateStreams := s.lateStreams.filter fun w => w.2.job ≠ j } :=
    ⟨rfl, rfl, rfl, rfl, rfl⟩
  refine hWaits.trans (foldl (fun u k => ?_) _ _)
  have hCount : Shut u (u.bump 0x7020 8 1) := ⟨rfl, rfl, rfl, rfl, rfl⟩
  split
  · exact refl u
  · split
    · exact releaseStream k 5
    · split
      · exact (hCount.trans (dropCredits _)).trans (releaseStream k 0)
      · exact (hCount.trans (dropCredits _)).trans (releaseStream k 0)

theorem markPoison (base len : Nat) : Shut s (s.markPoison base len) := by
  unfold State.markPoison
  dsimp only
  split
  · exact refl s
  · split
    · exact ⟨rfl, rfl, rfl, rfl, rfl⟩
    · exact ⟨rfl, rfl, rfl, rfl, rfl⟩

theorem memByte (h : Shut s u) (x : Nat) : u.memByte x = s.memByte x := by
  unfold State.memByte State.unlistedByte
  rw [h.mem, h.memUndefined]

end Shut

/-! ### The job enters HALTED -/

/-- Waits that are counted up to now set no latch tick. -/
theorem settleWait_ticks (t : Nat) : (s.settleWait t).ticks = s.ticks := by
  unfold State.settleWait State.stall
  dsimp only
  split
  · rfl
  · split
    · rfl
    · rfl

theorem settleJob_ticks (j : Nat) : (s.settleJob j).ticks = s.ticks := by
  have hReplay (v : State) : (v.countReplay j).ticks = v.ticks := by
    unfold State.countReplay
    dsimp only
    split
    · refine foldl_keeps (fun s => s.ticks) (fun u t => ?_) _ v
      unfold State.stall
      split <;> rfl
    · rfl
  exact (hReplay _).trans (foldl_keeps (fun s => s.ticks) (fun u t => settleWait_ticks t) _ s)

/-- The end of a job: HALTED with its status and Completion, while memory and what the tiles hold are as they were (R254, R255, R257). -/
structure JobHalted (s u : State) (j outcome status : Nat) : Prop where
  mem : u.mem = s.mem
  memUndefined : u.memUndefined = s.memUndefined
  ticks : u.ticks = s.ticks
  tiles : ∀ t, ∃ a f, u.tile t = { s.tile t with waitAt := a, frozen := f }
  state : (u.job j).state = .halted
  status : u.entry (0x6100 + j) 5 = status
  completion : u.entry (0x6100 + j) 7 = outcome
  fault : outcome = 2 → u.entry (0x6100 + j) 0x11 = (s.job j).abortTile ∧ u.entry (0x6100 + j) 0x12 = (s.job j).abortBundle

/-- A job as its end leaves it. -/
def endedJob (y : Job) : Job :=
  { y with state := .halted, drain := .none, journal := false, span := none, armed := false, trapPending := none, replayed := false, commits := [], powerHeld := none }

/-- The entries and the event of a job's end (Table 11-8, R255). -/
theorem jobEntries_halt {outcome status time tile bundle : Nat} (hj : j < 16) (hState : (s.job j).state = .halted) (hTile : tile = (t.job j).abortTile)
    (hBundle : bundle = (t.job j).abortBundle) (hMem : s.mem = t.mem) (hUndefined : s.memUndefined = t.memUndefined) (hTicks : s.ticks = t.ticks)
    (hTiles : ∀ k, ∃ a f, s.tile k = { t.tile k with waitAt := a, frozen := f })
    (hv : v = ((s.setEntry (0x6100 + j) 5 status).setEntry (0x6100 + j) 7 outcome).setEntry (0x6100 + j) 0x0A time) :
    JobHalted t (if outcome = 2 then ((v.setEntry (0x6100 + j) 0x11 tile).setEntry (0x6100 + j) 0x12 bundle).raise 0xB021 j status tile bundle else v) j outcome status := by
  have hStatus : v.entry (0x6100 + j) 5 = status := by
    rw [hv, Laws.entry_setEntry_sub _ _ _ _ _ (by decide), Laws.entry_setEntry_sub _ _ _ _ _ (by decide), Laws.entry_setEntry_same]
  have hOutcome : v.entry (0x6100 + j) 7 = outcome := by rw [hv, Laws.entry_setEntry_sub _ _ _ _ _ (by decide), Laws.entry_setEntry_same]
  have hShut : Shut s v := by rw [hv]; exact ⟨rfl, rfl, rfl, rfl, rfl⟩
  have hEnd {u : State} (h : Shut v u) (hEntry : u.entry (0x6100 + j) 5 = status ∧ u.entry (0x6100 + j) 7 = outcome)
      (hFault : outcome = 2 → u.entry (0x6100 + j) 0x11 = tile ∧ u.entry (0x6100 + j) 0x12 = bundle) : JobHalted t u j outcome status := by
    obtain ⟨hm, hun, hti, hjb, htl⟩ := hShut.trans h
    refine ⟨hm.trans hMem, hun.trans hUndefined, hti.trans hTicks, fun k => ?_, ?_, hEntry.1, hEntry.2, fun h => ?_⟩
    · rw [State.tile, htl]
      exact hTiles k
    · rw [State.job, hjb]
      exact hState
    · rw [← hTile, ← hBundle]
      exact hFault h
  split
  · obtain ⟨w, hw⟩ : ∃ w, w = (v.setEntry (0x6100 + j) 0x11 tile).setEntry (0x6100 + j) 0x12 bundle := ⟨_, rfl⟩
    have hKept (k : Nat) (hk : k < 256) : (w.raise 0xB021 j status tile bundle).entry (0x6100 + j) k = w.entry (0x6100 + j) k :=
      entry_raise hk (by omega) (by omega) (by omega)
    have hRaise := Shut.event ((EventFrame.refl w).raise 0xB021 j status tile bundle)
    have hSet : Shut v w := by rw [hw]; exact ⟨rfl, rfl, rfl, rfl, rfl⟩
    rw [← hw]
    refine hEnd (hSet.trans hRaise) ⟨?_, ?_⟩ fun _ => ⟨?_, ?_⟩
    · rw [hKept 5 (by decide), hw, Laws.entry_setEntry_sub _ _ _ _ _ (by decide), Laws.entry_setEntry_sub _ _ _ _ _ (by decide), hStatus]
    · rw [hKept 7 (by decide), hw, Laws.entry_setEntry_sub _ _ _ _ _ (by decide), Laws.entry_setEntry_sub _ _ _ _ _ (by decide), hOutcome]
    · rw [hKept 0x11 (by decide), hw, Laws.entry_setEntry_sub _ _ _ _ _ (by decide), Laws.entry_setEntry_same]
    · rw [hKept 0x12 (by decide), hw, Laws.entry_setEntry_same]
  · next hNot => exact hEnd (Shut.refl v) ⟨hStatus, hOutcome⟩ fun h => absurd h hNot

theorem endJob_halts {outcome status : Nat} (hj : j < 16) (hGroups : outcome = 1 → (s.pendingGroups.any fun g => g.job = j) = false) :
    JobHalted s (s.endJob j outcome status) j outcome status := by
  have hSettled := (Settled.refl s).settleJob j
  obtain ⟨_, _, _, _, hShape⟩ := hSettled.shape
  have hTicks := settleJob_ticks (s := s) j
  have hOwn : Shut (s.settleJob j) (if outcome = 1 then (s.settleJob j).applyOwn j else (s.settleJob j).discardOwn j) := by
    split
    · next h => exact Shut.applyOwn (by rw [hShape]; exact hGroups h)
    · exact Shut.discardOwn j
  have hUndefined : (s.settleJob j).memUndefined = s.memUndefined := by rw [hShape]
  unfold State.endJob
  dsimp only
  generalize s.settleJob j = a at hSettled hTicks hOwn hUndefined ⊢
  generalize (if outcome = 1 then a.applyOwn j else a.discardOwn j) = b at hOwn ⊢
  have hLeave (l : List (Nat × Barrier)) : Shut b (((({ b with barriers := l } : State).leaveLedger j).wipePkeOf j).endChecks j) :=
    have hLedger : Shut b (({ b with barriers := l } : State).leaveLedger j) := ⟨rfl, rfl, rfl, rfl, rfl⟩
    (hLedger.trans (Shut.wipePkeOf j)).trans (Shut.endChecks j)
  obtain ⟨l, hl⟩ : ∃ l, l = b.barriers.filter fun p => !bit (((s.job j).image.map fun im => im.cert.barrierMask).getD 0) p.1 := ⟨_, rfl⟩
  have hcShut := hLeave l
  rw [← hl]
  generalize ((({ b with barriers := l } : State).leaveLedger j).wipePkeOf j).endChecks j = c at hcShut ⊢
  have hAll := hOwn.trans hcShut
  refine jobEntries_halt (s := c.updJob j endedJob) hj (congrArg Job.state (Laws.job_setJob_same ..)) rfl rfl (hAll.mem.trans hSettled.mem) (hAll.memUndefined.trans hUndefined)
    (hAll.ticks.trans hTicks) (fun k => ?_) rfl
  obtain ⟨x, f, e⟩ := hSettled.tiles k
  exact ⟨x, f, by rw [← e]; exact congrArg (fun l => Tab.get l {} k) hAll.tiles⟩

theorem jobAbortCleanup_halts (hj : j < 16) (hImage : (s.job j).image = some im) (hState : (s.job j).state = .draining) (hDrain : (s.job j).drain = .abort)
    (hCleaned : (s.job j).cleaned = true) (hMarked : s.markingWaits im = false) (hFlight : (s.job j).inFlight = []) :
    ∃ t, exec (.jobAbortCleanup j) s = .next t ∧ (t.job j).state = .halted ∧ t.entry (0x6100 + j) 7 = 2 ∧ t.entry (0x6100 + j) 5 = (s.job j).abortCode
      ∧ t.entry (0x6100 + j) 0x11 = (s.job j).abortTile ∧ t.entry (0x6100 + j) 0x12 = (s.job j).abortBundle ∧ t.mem = s.mem ∧ Safety.tilesKeep s t := by
  have h := endJob_halts (s := s) (status := (s.job j).abortCode) hj (fun h : 2 = 1 => absurd h (by decide))
  obtain ⟨hTile, hBundle⟩ := h.fault rfl
  refine ⟨s.endJob j 2 (s.job j).abortCode, ?_, h.state, h.completion, h.status, hTile, hBundle, h.mem, fun g => ?_⟩
  · change execJobAbortCleanup j s = _
    rw [execJobAbortCleanup, Laws.onJob_next hj]
    unfold State.abortCleanup
    dsimp only
    rw [hImage]
    dsimp only
    rw [if_neg (by rw [hState, hDrain]; simp), hCleaned, if_pos rfl, if_neg (by rw [hMarked, hFlight]; simp)]
  · obtain ⟨_, _, e⟩ := h.tiles g
    rw [e]
    exact ⟨rfl, rfl, rfl, rfl, rfl, rfl, rfl, rfl, rfl, rfl⟩

/-! ### StopAfterBundle (R257) -/

/-- From `s` to `u` neither memory, nor a job or a latch tick changes, and each tile keeps its queue and its running operations or has none. -/
structure Stopping (s u : State) : Prop where
  mem : u.mem = s.mem
  ticks : u.ticks = s.ticks
  jobs : u.jobs = s.jobs
  works : ∀ k, ((u.tile k).queue = (s.tile k).queue ∧ (u.tile k).running = (s.tile k).running) ∨ ((u.tile k).queue = [] ∧ (u.tile k).running = [])

namespace Stopping

theorem of_same (hMem : u.mem = s.mem) (hTicks : u.ticks = s.ticks) (hJobs : u.jobs = s.jobs)
    (hWorks : ∀ k, (u.tile k).queue = (s.tile k).queue ∧ (u.tile k).running = (s.tile k).running) : Stopping s u := ⟨hMem, hTicks, hJobs, fun k => .inl (hWorks k)⟩

theorem refl (s : State) : Stopping s s := of_same rfl rfl rfl fun _ => ⟨rfl, rfl⟩

theorem trans (h : Stopping s t) (h' : Stopping t u) : Stopping s u where
  mem := h'.mem.trans h.mem
  ticks := h'.ticks.trans h.ticks
  jobs := h'.jobs.trans h.jobs
  works k := by
    rcases h'.works k with hSame | hNone
    · rw [hSame.1, hSame.2]
      exact h.works k
    · exact .inr hNone

/-- A tile without work has none later. -/
theorem idle (h : Stopping s u) {k : Nat} (hQueue : (s.tile k).queue = []) (hRunning : (s.tile k).running = []) : (u.tile k).queue = [] ∧ (u.tile k).running = [] := by
  rcases h.works k with hSame | hNone
  · exact ⟨hSame.1.trans hQueue, hSame.2.trans hRunning⟩
  · exact hNone

theorem shut (h : Shut s u) : Stopping s u :=
  of_same h.mem h.ticks h.jobs fun k => by
    have e : u.tile k = s.tile k := by rw [State.tile, h.tiles]; rfl
    rw [e]
    exact ⟨rfl, rfl⟩

theorem foldl {α : Type} {g : State → α → State} (hg : ∀ u x, Stopping u (g u x)) (l : List α) : ∀ s, Stopping s (l.foldl g s) := by
  induction l with
  | nil => exact refl
  | cons x l ih => exact fun s => (hg s x).trans (ih _)

theorem setTag (t r : Nat) (g : Tag) : Stopping s (s.setTag t r g) := by
  refine of_same rfl rfl rfl fun k => ?_
  unfold State.setTag
  by_cases hk : k = t
  · subst hk
    rw [Laws.tile_updTile_same]
    exact ⟨rfl, rfl⟩
  · rw [Laws.tile_updTile_ne _ hk]
    exact ⟨rfl, rfl⟩

theorem poisonRows (t first n : Nat) : Stopping s (s.poisonRows t first n) := foldl (fun _ i => setTag t (first + i) .poison) _ s

/-- What concerns one tile alone and leaves it without work. -/
theorem of_own {k : Nat} (h : OwnTile k s u) (hQueue : (u.tile k).queue = []) (hRunning : (u.tile k).running = []) : Stopping s u where
  mem := h.mem
  ticks := by obtain ⟨_, _, _, _, _, _, _, _, rfl⟩ := h.shape; rfl
  jobs := h.jobs
  works i := by
    by_cases hi : i = k
    · exact .inr (hi ▸ ⟨hQueue, hRunning⟩)
    · rw [h.others i hi]
      exact .inl ⟨rfl, rfl⟩

/-- The streams of a job that is cut short (R185). -/
theorem cancelStreams (j : Nat) : Stopping s (s.cancelStreams j false) := by
  unfold State.cancelStreams
  dsimp only
  have hWaits : Shut s { s with openWaits := s.openWaits.filter (fun w => w.job ≠ j), lateStreams := s.lateStreams.filter fun w => w.2.job ≠ j } :=
    ⟨rfl, rfl, rfl, rfl, rfl⟩
  refine (shut hWaits).trans (foldl (fun u k => ?_) _ _)
  have hEnd (v : State) (x : Stream) : Stopping v (((v.bump 0x7020 8 1).dropCredits x).releaseStream k 0) := by
    have hCount : Shut v (v.bump 0x7020 8 1) := ⟨rfl, rfl, rfl, rfl, rfl⟩
    exact shut ((hCount.trans (Shut.dropCredits x)).trans (Shut.releaseStream k 0))
  split
  · exact refl u
  · split
    · exact shut (Shut.releaseStream k 5)
    · split
      · exact trans (foldl (fun _ t => poisonRows t ..) _ _) (hEnd _ _)
      · exact hEnd _ _

end Stopping

/-- The report of a miss is the tile's alone, but for the moment of its event (R412). -/
theorem guaranteeMiss_tile {t : Nat} (row : Nat) : ∃ m, (s.guaranteeMiss t row).tile t = { s.tile t with missEventAt := m } := by
  have hReport (w : State) (m i j a b : Nat) (c : Prop) [Decidable c] (hw : w.tile t = s.tile t) : ∃ y,
      (if c then w.bump 0x8020 1 1 else ((w.bump i 0x0D 1).updTile t fun x => { x with missEventAt := some m }).raise 0xB020 j GUARANTEE_MISS a b).tile t
        = { s.tile t with missEventAt := y } := by
    split
    · exact ⟨_, hw⟩
    · rw [((EventFrame.refl _).raise ..).tile, Laws.tile_updTile_same, ← hw]
      exact ⟨_, rfl⟩
  unfold State.guaranteeMiss
  split
  · exact ⟨_, rfl⟩
  · dsimp only
    refine hReport _ _ _ _ _ _ _ ?_
    split <;> rfl

/-- Reported misses leave the rest of the tile alone (R412). -/
theorem reportMisses_tile {t : Nat} (still : List Nat) : ∃ m e, (s.reportMisses t still).tile t = { s.tile t with missAt := m, missEventAt := e } := by
  have hFold (l : List Nat) : ∀ s : State, ∃ e, (l.foldl (fun s r => s.guaranteeMiss t r) s).tile t = { s.tile t with missEventAt := e } := by
    induction l with
    | nil => exact fun s => ⟨_, rfl⟩
    | cons r l ih =>
      intro s
      obtain ⟨_, hHead⟩ := guaranteeMiss_tile (s := s) (t := t) r
      obtain ⟨e, hRest⟩ := ih (s.guaranteeMiss t r)
      exact ⟨e, by rw [List.foldl_cons, hRest, hHead]⟩
  unfold State.reportMisses
  rw [Laws.tile_updTile_same]
  obtain ⟨e, h⟩ := hFold _ s
  rw [h]
  exact ⟨_, e, rfl⟩

/-- A tile's part of the stop: its waits end, its operations are cancelled and its outputs are POISON (R257). -/
def stopTile (im : Image) (s : State) (t : Nat) : State := ((((s.wakeTile t).endWait t).cancelWaiting t).reportMisses t []).poisonOutputs im t

theorem stopTile_idles (im : Image) (t : Nat) : Stopping s (stopTile im s t) ∧ ((stopTile im s t).tile t).queue = [] ∧ ((stopTile im s t).tile t).running = [] := by
  obtain ⟨v, hv, hOwn, hQueue, hRunning⟩ : ∃ v, v = ((s.wakeTile t).endWait t).cancelWaiting t ∧ OwnTile t s v ∧ (v.tile t).queue = [] ∧ (v.tile t).running = [] := by
    have hRows (w : State) (a n : Nat) : OwnTile t w (w.poisonRows t a n) := OwnTile.foldl (fun u i => (OwnTile.refl u).updTile _) _ (.refl w)
    have hCancel (w : State) : OwnTile t w (w.cancelWaiting t) := by
      unfold State.cancelWaiting
      exact (OwnTile.foldl (fun u (o : LopInst) => hRows u o.rgnD.1 o.rgnD.2) _ (.refl w)).updTile _
    refine ⟨_, rfl, ?_, ?_, ?_⟩
    · exact (OwnTile.refl s).wakeTile.endWait.trans (hCancel _)
    · unfold State.cancelWaiting
      dsimp only
      rw [Laws.tile_updTile_same]
    · unfold State.cancelWaiting
      dsimp only
      rw [Laws.tile_updTile_same]
  have hMiss : OwnTile t v (v.reportMisses t []) ∧ ((v.reportMisses t []).tile t).queue = (v.tile t).queue ∧ ((v.reportMisses t []).tile t).running = (v.tile t).running := by
    obtain ⟨_, _, e⟩ := reportMisses_tile (s := v) (t := t) []
    rw [e]
    exact ⟨(OwnTile.refl v).reportMisses [], rfl, rfl⟩
  have hOutputs (w : State) : Stopping w (w.poisonOutputs im t) := Stopping.foldl (fun _ (g : Region) => Stopping.poisonRows t g.base g.size) _ w
  have hStopped := Stopping.of_own (hOwn.trans hMiss.1) (hMiss.2.1.trans hQueue) (hMiss.2.2.trans hRunning)
  unfold stopTile
  rw [← hv]
  exact ⟨hStopped.trans (hOutputs _), (hOutputs _).idle (hMiss.2.1.trans hQueue) (hMiss.2.2.trans hRunning)⟩

/-- The stop of a group leaves each of its tiles without work. -/
theorem stopGroup_idles (im : Image) (l : List Nat) : ∀ s : State, Stopping s (l.foldl (stopTile im) s)
    ∧ ∀ g ∈ l, ((l.foldl (stopTile im) s).tile g).queue = [] ∧ ((l.foldl (stopTile im) s).tile g).running = [] := by
  induction l with
  | nil => exact fun s => ⟨Stopping.refl s, fun g hg => absurd hg List.not_mem_nil⟩
  | cons t l ih =>
    intro s
    obtain ⟨hTile, hQueue, hRunning⟩ := stopTile_idles (s := s) im t
    obtain ⟨hRest, hIdle⟩ := ih (stopTile im s t)
    refine ⟨hTile.trans hRest, fun g hg => ?_⟩
    rcases List.mem_cons.1 hg with rfl | hg
    · exact hRest.idle hQueue hRunning
    · exact hIdle g hg

theorem stopJob_stops (hj : j < 16) : ((s.stopJob j im).job j).state = .halted ∧ (s.stopJob j im).entry (0x6100 + j) 7 = 3 ∧ (s.stopJob j im).mem = s.mem
    ∧ (s.entry 0x1100 1 ≠ 7 → (s.stopJob j im).ticks.map (fun k => k.source) = s.ticks.map (fun k => k.source) ++ [srcStop])
    ∧ ∀ g ∈ (s.job j).group, ((s.stopJob j im).tile g).queue = [] ∧ ((s.stopJob j im).tile g).running = [] := by
  obtain ⟨a, ha, haMem, haJobs, haTicks⟩ : ∃ a, a = s.addTick { time := s.fabricTime, source := srcStop, timed := false, job := j, origin := s.entry 0x4010 1 }
      ∧ a.mem = s.mem ∧ a.jobs = s.jobs ∧ (s.entry 0x1100 1 ≠ 7 → a.ticks.map (fun k => k.source) = s.ticks.map (fun k => k.source) ++ [srcStop]) := by
    refine ⟨_, rfl, ?_⟩
    unfold State.addTick
    split
    · next h => exact ⟨rfl, rfl, fun hNot => absurd h hNot⟩
    · exact ⟨rfl, rfl, fun _ => List.map_append⟩
  have haJob : a.job j = s.job j := by rw [State.job, haJobs]; rfl
  obtain ⟨hGroup, hIdle⟩ := stopGroup_idles im (a.job j).group a
  obtain ⟨b, hb, hMark⟩ : ∃ b, b = (((a.job j).group.foldl (stopTile im) a).outputRegions im j).foldl (fun s r => s.markPoison r.1 r.2)
      (((a.job j).group.foldl (stopTile im) a).cancelStreams j false) ∧ Stopping ((a.job j).group.foldl (stopTile im) a) b :=
    ⟨_, rfl, (Stopping.cancelStreams j).trans (Stopping.shut (Shut.foldl (fun _ (r : Nat × Nat) => Shut.markPoison r.1 r.2) _ _))⟩
  have hStop : s.stopJob j im = b.endJob j 3 OK := by
    rw [hb, ha]
    rfl
  have hAll := hGroup.trans hMark
  have hEnd := endJob_halts (s := b) (outcome := 3) (status := OK) hj fun h => absurd h (by decide)
  rw [hStop]
  refine ⟨hEnd.state, hEnd.completion, hEnd.mem.trans (hAll.mem.trans haMem), fun h => ?_, fun g hg => ?_⟩
  · rw [hEnd.ticks, hAll.ticks]
    exact haTicks h
  · obtain ⟨hQueue, hRunning⟩ := hIdle g (by rw [haJob]; exact hg)
    obtain ⟨hQueue', hRunning'⟩ := hMark.idle hQueue hRunning
    obtain ⟨_, _, e⟩ := hEnd.tiles g
    rw [e]
    exact ⟨hQueue', hRunning'⟩

theorem jobStopComplete_stops (hj : j < 16) (hImage : (s.job j).image = some im) (hRun : (s.job j).state = .running) (hRuns : (s.job j).runs = true)
    (hStop : s.entry (0x6120 + j) 1 ≠ 0) (hAll : ((s.job j).group.all fun g => (s.tile g).isStopped && (s.tile g).drained) = true) :
    exec (.jobStopComplete j) s = .next (s.stopJob j im) := by
  change execJobStopComplete j s = _
  rw [execJobStopComplete, Laws.onJob_next hj]
  dsimp only
  rw [hImage]
  dsimp only
  rw [if_pos ⟨hRuns, hRun, hStop, hAll⟩]

theorem stopSettleTimeout_stops (hj : j < 16) (hImage : (s.job j).image = some im) (hRun : (s.job j).state = .running) (hRuns : (s.job j).runs = true)
    (hStop : s.entry (0x6120 + j) 1 ≠ 0) (hAll : ((s.job j).group.all fun g => s.settled j g) = true) : exec (.stopSettleTimeout j) s = .next (s.stopJob j im) := by
  change execStopSettleTimeout j s = _
  rw [execStopSettleTimeout, Laws.onJob_next hj]
  dsimp only
  rw [hImage]
  dsimp only
  rw [if_pos ⟨hRuns, hRun, hStop, hAll⟩]

end Endings

/-- Settles O22: the clean-up's end is HALTED with Completion ABORTED, the stop's is HALTED with Completion STOPPED, behind its snapshot. -/
theorem jobsEnd : Obligations.JobsEnd := by
  unfold Obligations.JobsEnd
  refine ⟨fun s j im hj hImage hState hDrain hCleaned hMarked hFlight => jobAbortCleanup_halts hj hImage hState hDrain hCleaned hMarked hFlight,
    fun s j im hj hImage hRun hRuns hStop hAll => ?_, fun s j im hj hImage hRun hRuns hStop hAll hHeld => ?_⟩
  · obtain ⟨hState, hDone, hMem, hTicks, -⟩ := stopJob_stops (s := s) (im := im) hj
    exact ⟨_, jobStopComplete_stops hj hImage hRun hRuns hStop hAll, hState, hDone, hMem, hTicks⟩
  · obtain ⟨hState, hDone, hMem, -, hIdle⟩ := stopJob_stops (s := s) (im := im) hj
    exact ⟨_, stopSettleTimeout_stops hj hImage hRun hRuns hStop hAll, hState, hDone, hMem, hIdle⟩

end Sys2Proof.Proofs
end

section
/-! PROOFS. A commit writes the outputs' descriptors and raises the completion counter (R72, R254). -/

namespace Sys2Proof.Proofs
open Sys2Proof.Machine

section Commits

variable {s t u v : State} {j x a : Nat} {im : Image} {b : List Byte}

/-! ### A descriptor's bytes -/

/-- A descriptor is 64 bytes long (Table 3-4). -/
theorem bytes_length (d : Descriptor) : d.bytes.length = 64 := by
  unfold Descriptor.bytes
  simp only [List.length_append, leBytes_length]

/-- What a handle's descriptor says rests on the ledger's row of the handle alone. -/
theorem descriptorOf_updJob {f : Job → Job} (hf : (f (s.job j)).handles = (s.job j).handles) (valid poison : Bool) (crc : Nat) :
    (s.updJob j f).descriptorOf im j x valid poison crc = s.descriptorOf im j x valid poison crc := by
  have hHandle : ((s.updJob j f).job j).handle? x = (s.job j).handle? x := by
    rw [State.updJob, Laws.job_setJob_same, Job.handle?, hf]
    rfl
  unfold State.descriptorOf
  rw [hHandle]
  rfl

/-- Which images are read-only follows the jobs' images and whether they are admitted (R215). -/
theorem inImage_updJob {f : Job → Job} {n : Nat} (hImage : (f (s.job j)).image = (s.job j).image) (hBase : (f (s.job j)).imageBase = (s.job j).imageBase)
    (hReady : (f (s.job j)).state = .ready ↔ (s.job j).state = .ready) : (s.updJob j f).inImage a n = s.inImage a n := by
  unfold State.inImage
  congr 1
  funext k
  by_cases hk : k = j
  · subst hk
    rw [State.updJob, Laws.job_setJob_same]
    dsimp only
    rw [hImage, hBase, decide_eq_decide.2 (not_congr hReady)]
  · rw [State.updJob, Laws.job_setJob_ne _ _ _ _ hk]

/-- A descriptor of this device is written at once (R72). -/
theorem writeDescriptor_local {off : Nat} (hSelf : s.isSelf (nodeOf (im.decl x).descAddr) = true) (ha : a = localOf (im.decl x).descAddr)
    (hIn : inStack (a + off) b.length = true) (hPlain : s.inImage (a + off) b.length = false) : s.writeDescriptor im j x off b = s.memWrite (a + off) b := by
  unfold State.writeDescriptor
  dsimp only
  rw [if_pos hSelf, ← ha, hIn, hPlain]
  rfl

/-- Bytes written to clean words: they read back, and no other byte changes (R292). -/
theorem memWrite_stores {n : Nat} (hn : b.length = n) (hClean : s.rangePoisoned a n = false) :
    (s.memWrite a b).memBytes a n = b ∧ ∀ y, ¬(a ≤ y ∧ y < a + n) → (s.memWrite a b).memByte y = s.memByte y := by
  subst hn
  exact ⟨Laws.memBytes_memWrite _ _ hClean, fun y hy => by rw [Laws.memByte_memWrite _ _ _ hClean, if_neg hy]⟩

/-! ### The first write (R72, R254) -/

/-- The context of a BODY_CRC is SAVED; nothing else changes (R388). -/
theorem saveCommit_shape (im : Image) (j x : Nat) : (∃ d, s.saveCommit im j x = { s with dict := d }) ∧ ∀ i k, i < 0x7000 → k < 256 → (s.saveCommit im j x).entry i k = s.entry i k := by
  unfold State.saveCommit
  split
  · split
    · exact ⟨putCheck_shape .., fun i k hi hk => putCheck_other _ _ _ _ _ (by omega) hk⟩
    · exact ⟨⟨_, rfl⟩, fun _ _ _ _ => rfl⟩
  · exact ⟨⟨_, rfl⟩, fun _ _ _ _ => rfl⟩

/-- What a read that shows a body durable leaves: memory, the tiles, and the job's state (Table 1-5). -/
theorem bodyRead_keeps (im : Image) (x : Nat) (hDrain : (s.job j).drain = .commit) : (s.bodyRead im j x).mem = s.mem ∧ (s.bodyRead im j x).memUndefined = s.memUndefined
    ∧ (s.bodyRead im j x).tiles = s.tiles ∧ ((s.bodyRead im j x).job j).state = (s.job j).state ∧ ((s.bodyRead im j x).job j).drain = .commit := by
  have hFails (v : State) (code : Nat) (hv : Shut s v) : (v.commitFails j x code).mem = s.mem ∧ (v.commitFails j x code).memUndefined = s.memUndefined
      ∧ (v.commitFails j x code).tiles = s.tiles ∧ ((v.commitFails j x code).job j).state = (s.job j).state ∧ ((v.commitFails j x code).job j).drain = .commit := by
    have hvJob : v.job j = s.job j := by rw [State.job, hv.jobs]; rfl
    obtain ⟨y, hy, hyState, hyDrain⟩ : ∃ y : Job, y = { v.job j with
        commitFailed := if (v.job j).commitFailed = 0 then code else (v.job j).commitFailed
        commits := (v.job j).commits.filter fun c => decide (c.handle ≠ x) } ∧ y.state = (s.job j).state ∧ y.drain = .commit :=
      ⟨_, rfl, by rw [← hvJob], by rw [← hDrain, ← hvJob]⟩
    have hMark (w : State) (c : Prop) [Decidable c] (p n : Nat) : Shut w (if c then w.markPoison p n else w) := by
      split
      · exact Shut.markPoison p n
      · exact Shut.refl w
    have hEnd (w : State) (hw : Shut (v.setJob j y) w) : w.mem = s.mem ∧ w.memUndefined = s.memUndefined ∧ w.tiles = s.tiles ∧ (w.job j).state = (s.job j).state
        ∧ (w.job j).drain = .commit := by
      have hJob : w.job j = y := by rw [State.job, hw.jobs]; exact Laws.job_setJob_same ..
      exact ⟨hw.mem.trans hv.mem, hw.memUndefined.trans hv.memUndefined, hw.tiles.trans hv.tiles, by rw [hJob, hyState], by rw [hJob, hyDrain]⟩
    have hAbort : ¬((v.job j).drain = .abort) := by rw [hvJob, hDrain]; decide
    unfold State.commitFails
    dsimp only
    rw [← hy]
    split
    · exact hEnd _ (Shut.refl _)
    · rw [if_neg hAbort]
      exact hEnd _ (hMark _ _ _ _)
  unfold State.bodyRead
  dsimp only
  split
  · exact ⟨rfl, rfl, rfl, rfl, hDrain⟩
  · split
    · refine hFails _ _ ?_
      unfold State.countFail
      repeat' split
      all_goals exact ⟨rfl, rfl, rfl, rfl, rfl⟩
    · obtain ⟨_, _, _, _, _, _, _, e⟩ := ((IssueFrame.refl s).trans (IssueFrame.issueOp 0xFFFE 2 2 (localOf (((s.job j).handle? x).getD default).location) 0 0 [] issuerSupervisor j x)).shape
      rw [e]
      exact ⟨rfl, rfl, rfl, rfl, hDrain⟩

section Local

variable (hj : j < 16) (hImage : (s.job j).image = some im) (hSelf : s.isSelf (nodeOf (im.decl x).descAddr) = true) (ha : a = localOf (im.decl x).descAddr)
include hj hImage hSelf ha

theorem jobCommit_writes (hRun : (s.job j).state = .running) (hRuns : (s.job j).runs = true) (hStop : s.entry (0x6120 + j) 1 = 0)
    (hHalted : ((s.job j).group.all fun g => (s.tile g).hasHalted) = true) (hOne : im.outputHandles = [x]) (hIn : inStack a 64 = true)
    (hPlain : s.inImage a 64 = false) (hClean : s.rangePoisoned a 64 = false) (hGo : s.commitWaits im = false) :
    ∃ t crc, exec (.jobCommit j) s = .next t ∧ (t.job j).state = .draining ∧ (t.job j).drain = .commit
      ∧ t.memBytes a 64 = (s.descriptorOf im j x false false crc).bytes
      ∧ (∀ b, ¬(a ≤ b ∧ b < a + 64) → t.memByte b = s.memByte b) ∧ t.tiles = s.tiles := by
  obtain ⟨f, hf⟩ : ∃ f : Job → Job, f = fun y => { y with state := .draining, drain := .commit, drainedAt := s.now } := ⟨_, rfl⟩
  obtain ⟨g, hg⟩ : ∃ g : Job → Job, g = fun y => { y with commits := y.commits ++ [{ handle := x, validWritten := false }] } := ⟨_, rfl⟩
  obtain ⟨p, hp⟩ : ∃ p, p = (s.updJob j f).updJob j g := ⟨_, rfl⟩
  have hpJob : p.job j = g (f (s.job j)) := by rw [hp, State.updJob, Laws.job_setJob_same, State.updJob, Laws.job_setJob_same]
  have hpImage : p.inImage a 64 = s.inImage a 64 := by
    rw [hp, inImage_updJob (s := s.updJob j f) (by rw [hg]) (by rw [hg]) (by rw [hg]),
      inImage_updJob (by rw [hf]) (by rw [hf]) (by rw [hf, hRun]; simp)]
  have hpDesc (crc : Nat) : p.descriptorOf im j x false false crc = s.descriptorOf im j x false false crc := by
    rw [hp, descriptorOf_updJob (s := s.updJob j f) (by rw [hg]), descriptorOf_updJob (by rw [hf])]
  obtain ⟨q, hq, ⟨d, hShape⟩, hqSelf⟩ : ∃ q, q = (p.saveCommit im j x).useFree ∧ (∃ d, q = { p with dict := d, freeCount := p.freeCount + 1 })
      ∧ q.isSelf (nodeOf (im.decl x).descAddr) = true := by
    obtain ⟨⟨d, hd⟩, hEntry⟩ := saveCommit_shape (s := p) im j x
    refine ⟨_, rfl, ⟨d, by rw [hd]; rfl⟩, ?_⟩
    have hNode : (p.saveCommit im j x).useFree.entry 0x4010 1 = s.entry 0x4010 1 := by
      rw [show (p.saveCommit im j x).useFree.entry 0x4010 1 = (p.saveCommit im j x).entry 0x4010 1 from rfl, hEntry _ _ (by decide) (by decide), hp]
      rfl
    unfold State.isSelf at hSelf ⊢
    rw [hNode]
    exact hSelf
  obtain ⟨c, hc⟩ : ∃ c, c = (p.descriptorOf im j x false false (p.commitCrc im j x)).bytes := ⟨_, rfl⟩
  have hLength : c.length = 64 := by rw [hc, bytes_length]
  have hqImage : q.inImage a 64 = false := by rw [hShape]; exact hpImage.trans hPlain
  have hqClean : q.rangePoisoned a 64 = false := by rw [hShape, hp]; exact hClean
  have hWrite : q.writeDescriptor im j x 0 c = q.memWrite a c :=
    writeDescriptor_local (off := 0) hqSelf ha (by rw [hLength]; exact hIn) (by rw [hLength]; exact hqImage)
  obtain ⟨hBytes, hOther⟩ := memWrite_stores hLength hqClean
  obtain ⟨m, wp, we, hMem⟩ := memWrite_shape (s := q) a c
  have hwJob : (q.memWrite a c).job j = g (f (s.job j)) := by rw [hMem, hShape]; exact hpJob
  obtain ⟨hReadMem, hReadUndefined, hReadTiles, hReadState, hReadDrain⟩ := bodyRead_keeps (s := q.memWrite a c) (j := j) im x (by rw [hwJob, hg, hf])
  have hByte (y : Nat) : ((q.memWrite a c).bodyRead im j x).memByte y = (q.memWrite a c).memByte y := by
    unfold State.memByte State.unlistedByte
    rw [hReadMem, hReadUndefined]
  refine ⟨(q.memWrite a c).bodyRead im j x, p.commitCrc im j x, ?_, ?_, hReadDrain, ?_, fun y hy => ?_, ?_⟩
  · change execJobCommit j s = _
    rw [execJobCommit, Laws.onJob_next hj]
    dsimp only
    rw [hImage]
    dsimp only
    rw [if_pos ⟨hRun, hRuns, hStop, hHalted, by rw [hGo]; rfl⟩]
    unfold State.commit
    dsimp only
    rw [hOne, List.foldl_cons, List.foldl_nil]
    unfold State.firstWrite
    dsimp only
    rw [← hf, ← hg, ← hp, ← hc, ← hq, hWrite]
  · rw [hReadState, hwJob, hg, hf]
  · rw [memBytes_congr fun i _ => hByte (a + i), hBytes, hc, hpDesc]
  · rw [hByte, hOther y hy, hShape, hp]
    rfl
  · rw [hReadTiles, hMem, hShape, hp]
    rfl

theorem validWrite_writes (hDrain : (s.job j).drain = .commit) (hOpen : ((s.job j).commits.any fun c => c.handle = x && !c.validWritten) = true)
    (hFree : s.supervisorBusy j (some x) = false) (hIn : inStack a 8 = true) (hPlain : s.inImage a 8 = false) (hClean : s.rangePoisoned a 8 = false) :
    ∃ t, exec (.descriptorValidWrite j x) s = .next t ∧ x ∈ (t.job j).committed
      ∧ t.memBytes a 8 = (s.descriptorOf im j x true false 0).bytes.take 8
      ∧ (∀ b, ¬(a ≤ b ∧ b < a + 8) → t.memByte b = s.memByte b) ∧ t.tiles = s.tiles := by
  obtain ⟨f, hf⟩ : ∃ f : Job → Job, f = fun y => { y with commits := y.commits.map fun c => if c.handle = x then { c with validWritten := true } else c } := ⟨_, rfl⟩
  obtain ⟨p, hp⟩ : ∃ p, p = s.updJob j f := ⟨_, rfl⟩
  have hpJob : p.job j = f (s.job j) := by rw [hp, State.updJob, Laws.job_setJob_same]
  have hpImage : p.inImage a 8 = false := by rw [hp, inImage_updJob (by rw [hf]) (by rw [hf]) (by rw [hf]), hPlain]
  have hpDesc : p.descriptorOf im j x true false 0 = s.descriptorOf im j x true false 0 := by rw [hp, descriptorOf_updJob (by rw [hf])]
  obtain ⟨c, hc, hLength⟩ : ∃ c, c = (p.descriptorOf im j x true false 0).bytes.take 8 ∧ c.length = 8 := ⟨_, rfl, by rw [List.length_take, bytes_length]; rfl⟩
  have hpSelf : p.isSelf (nodeOf (im.decl x).descAddr) = true := by rw [hp]; exact hSelf
  have hWrite : p.writeDescriptor im j x 0 c = p.memWrite a c :=
    writeDescriptor_local (off := 0) hpSelf ha (by rw [hLength]; exact hIn) (by rw [hLength]; exact hpImage)
  obtain ⟨hBytes, hOther⟩ := memWrite_stores hLength (show p.rangePoisoned a 8 = false by rw [hp]; exact hClean)
  obtain ⟨m, wp, we, hMem⟩ := memWrite_shape (s := p) a c
  have hwJob : (p.memWrite a c).job j = f (s.job j) := by rw [hMem]; exact hpJob
  have hFlight : (f (s.job j)).inFlight.contains x = true := by
    obtain ⟨d, hd, hHandle⟩ := List.any_eq_true.1 hOpen
    rw [Bool.and_eq_true, decide_eq_true_eq] at hHandle
    rw [List.contains_iff_mem, hf, Job.inFlight, List.mem_map]
    refine ⟨{ d with validWritten := true }, List.mem_filter.2 ⟨List.mem_map.2 ⟨d, hd, if_pos hHandle.1⟩, rfl⟩, hHandle.1⟩
  have hSettle : (p.memWrite a c).settleValid j x = (p.memWrite a c).updJob j fun y =>
      { y with commits := y.commits.filter (fun c => c.handle ≠ x), committed := y.committed ++ [x] } := by
    unfold State.settleValid
    rw [hwJob, if_pos ⟨hFlight, by rw [hMem, hp]; exact congrArg (fun b => !b) hFree⟩]
  refine ⟨(p.memWrite a c).settleValid j x, ?_, ?_, ?_, fun y hy => ?_, ?_⟩
  · change execDescriptorValidWrite j x s = _
    rw [execDescriptorValidWrite, Laws.onJob_next hj]
    dsimp only
    rw [hImage]
    dsimp only
    rw [if_pos ⟨hDrain, hOpen, by rw [hFree]; rfl⟩]
    unfold State.validWrite
    dsimp only
    rw [← hf, ← hp, ← hc, hWrite]
  · rw [hSettle, State.updJob, Laws.job_setJob_same]
    exact List.mem_append_right _ List.mem_cons_self
  · rw [hSettle, ← hpDesc, ← hc]
    exact hBytes
  · rw [hSettle, show s.memByte y = p.memByte y by rw [hp]; rfl]
    exact hOther y hy
  · rw [hSettle, hMem, hp]
    rfl

end Local

/-! ### The completion counter (R235, R254) -/

/-- The streams of a job that ended normally leave the pending groups alone (R185). -/
theorem cancelStreams_groups (j : Nat) : (s.cancelStreams j true).pendingGroups = s.pendingGroups := by
  have hEnd (v : State) (n : Nat) : (v.endCheck n).pendingGroups = v.pendingGroups := (endCheck_frame n).pendingGroups
  have hDrop (v : State) (y : Stream) : (v.dropCredits y).pendingGroups = v.pendingGroups := by
    obtain ⟨_, _, e⟩ := dropCredits_shape (s := v) y
    rw [e]
  unfold State.cancelStreams
  dsimp only
  rw [foldl_keeps (fun s => s.pendingGroups) (fun v k => ?_) (List.range 16)]
  split
  · rfl
  · split
    · exact hEnd _ _
    · split
      · exact (hEnd _ _).trans (hDrop _ _)
      · exact (hEnd _ _).trans (hDrop _ _)

theorem completionSignal_raises (hj : j < 16) (hState : (s.job j).state = .draining) (hImage : (s.job j).image = some im) (hDrain : (s.job j).drain = .commit)
    (hDone : (s.job j).commits = []) (hFree : s.supervisorBusy j none = false) (hSound : (s.job j).commitFailed = 0)
    (hGroups : (s.pendingGroups.any fun g => g.job = j) = false) (hSome : im.cert.completionAddr ≠ 0) (hSelf : s.isSelf (nodeOf im.cert.completionAddr) = true)
    (ha : a = localOf im.cert.completionAddr) (hIn : inStack a 8 = true) (hAligned : a % 8 = 0) (hPlain : s.inImage a 8 = false) (hClean : s.rangePoisoned a 8 = false) :
    ∃ t, exec (.completionSignal j) s = .next t ∧ (t.job j).state = .halted ∧ t.entry (0x6100 + j) 7 = 1 ∧ t.entry (0x6100 + j) 5 = OK
      ∧ leNat (t.memBytes a 8) = (leNat (s.memBytes a 8) + im.cert.completionInc) % 2 ^ 64
      ∧ ∀ b, ¬(a ≤ b ∧ b < a + 8) → t.memByte b = s.memByte b := by
  obtain ⟨c, hc, hLength, hNat⟩ : ∃ c, c = leBytes 8 ((leNat (s.memBytes a 8) + im.cert.completionInc) % 2 ^ 64) ∧ c.length = 8
      ∧ leNat c = (leNat (s.memBytes a 8) + im.cert.completionInc) % 2 ^ 64 :=
    ⟨_, rfl, leBytes_length .., (leNat_leBytes ..).trans (Nat.mod_mod _ _)⟩
  have hSignal : s.signalCompletion j im.cert = s.memWrite a c := by
    unfold State.signalCompletion
    dsimp only
    rw [if_neg hSome, if_pos hSelf, ← ha, if_pos ⟨hIn, hAligned, by rw [hPlain]; rfl, by rw [hClean]; rfl⟩, hc]
  obtain ⟨hBytes, hOther⟩ := memWrite_stores hLength hClean
  obtain ⟨m, wp, we, hMem⟩ := memWrite_shape (s := s) a c
  have hCancel := Shut.cancelStreams (s := s.memWrite a c) j
  have hPending : ((s.memWrite a c).cancelStreams j true).pendingGroups = s.pendingGroups := (cancelStreams_groups j).trans (by rw [hMem])
  have hEnd := endJob_halts (s := (s.memWrite a c).cancelStreams j true) (outcome := 1) (status := OK) hj fun _ => by rw [hPending]; exact hGroups
  have hByte (y : Nat) : (((s.memWrite a c).cancelStreams j true).endJob j 1 OK).memByte y = (s.memWrite a c).memByte y := by
    rw [← hCancel.memByte y]
    unfold State.memByte State.unlistedByte
    rw [hEnd.mem, hEnd.memUndefined]
  refine ⟨((s.memWrite a c).cancelStreams j true).endJob j 1 OK, ?_, hEnd.state, hEnd.completion, hEnd.status, ?_, fun y hy => ?_⟩
  · change execCompletionSignal j s = _
    rw [execCompletionSignal, Laws.onJob_next hj]
    dsimp only
    rw [hImage]
    dsimp only
    rw [if_pos ⟨hState, hDrain, by rw [hDone]; rfl, by rw [hFree]; rfl⟩]
    unfold State.endCommit
    dsimp only
    rw [if_pos hSound, hSignal]
  · rw [memBytes_congr fun i _ => hByte (a + i), hBytes, hNat]
  · rw [hByte, hOther y hy]

end Commits

/-- Settles O21: the descriptor is written without VALID, then its first 8 bytes with it, then the counter is raised and the job is HALTED. -/
theorem commitWrites : Obligations.CommitWrites := by
  unfold Obligations.CommitWrites
  exact ⟨fun s j x a im hj hRun hImage hRuns hStop hHalted hOne hSelf ha hIn hPlain hClean hGo =>
      jobCommit_writes hj hImage hSelf ha hRun hRuns hStop hHalted hOne hIn hPlain hClean hGo,
    fun s j x a im hj hImage hDrain hOpen hFree hSelf ha hIn hPlain hClean => validWrite_writes hj hImage hSelf ha hDrain hOpen hFree hIn hPlain hClean,
    fun s j a im hj hState hImage hDrain hDone hFree hSound hGroups hSome hSelf ha hIn hAligned hPlain hClean =>
      completionSignal_raises hj hState hImage hDrain hDone hFree hSound hGroups hSome hSelf ha hIn hAligned hPlain hClean⟩

end Sys2Proof.Proofs
end

section
/-! PROOFS. JobControl in its legal states, and the tiles at START (R194, R247, R252, R253, R255, R392). -/

namespace Sys2Proof.Proofs
open Sys2Proof.Machine

section Control

variable {s t u v : State} {ctx j g : Nat} {im : Image}

/-! ### A command that is legal (R252) -/

/-- JobControl's row, for each of the 16 slots (Table 11-8). -/
theorem jobControl_row (hj : j < 16) : ∃ r, CommandRow (0x6100 + j) 1 r ∧ r.ty = .u8 ∧ r.min = 0 ∧ r.max = 255 ∧ r.cls = .immediate := by
  interval_cases j
  all_goals exact ⟨_, ⟨rfl, rfl, by decide, by decide, .inl rfl⟩, rfl, rfl, rfl, rfl⟩

theorem jobCommand_acts {c : Nat} (h : Safety.direct s ctx = true) (hj : j < 16) (hc : 1 ≤ c ∧ c ≤ 5) (hLegal : s.jobLegal j c = true) :
    s.jobCommand ctx j c = (s.jobAct j c).record ctx (0x6100 + j) 1 OK := by
  obtain ⟨hServed, -⟩ := Laws.direct_parts h
  obtain ⟨r, hRow, hTy, hMin, hMax, hCls⟩ := jobControl_row hj
  have hU8 : EntryType.u8.max = 0xFF := rfl
  have hValue : s.valueRefusal (0x6100 + j) 1 c = none := by
    unfold State.valueRefusal
    repeat rw [if_neg (by omega)]
  have hRange : s.rangeRefusal r (0x6100 + j) 1 c = none :=
    rangeRefusal_none (by rw [hTy, hU8]; omega) (by rw [hMin, hMax]; omega) (.inr (.inr (by omega))) hValue
  rw [State.jobCommand, Nat.min_eq_left (by omega), writeEntry_command h hRow hRange (Laws.stateRefusal_served true hServed (by omega) (by omega))
    (fun hc => by rw [hCls] at hc; cases hc), State.jobControlOp, if_pos hLegal]

/-- What a carried out command shows: its own effect, and OK in its context (R46). -/
theorem jobCommand_shows {c : Nat} (h : Safety.direct s ctx = true) (hj : j < 16) (hc : 1 ≤ c ∧ c ≤ 5) (hLegal : s.jobLegal j c = true) (hAct : s.jobAct j c = u) :
    ∃ d x, s.jobCommand ctx j c = { u with dict := d, contexts := x } ∧ Safety.outcome (s.jobCommand ctx j c) ctx (0x6100 + j) 1 OK
      ∧ ∀ i k, i < 0xB000 → k < 256 → (s.jobCommand ctx j c).entry i k = u.entry i k := by
  obtain ⟨hServed, -⟩ := Laws.direct_parts h
  obtain ⟨-, -, hCtx, -⟩ := Laws.served_parts hServed
  rw [jobCommand_acts h hj hc hLegal, hAct]
  exact ⟨_, _, record_eq OK, outcome_record hCtx ok_ne_waiting, fun i k hi hk => entry_record_low OK hi hk⟩

/-! ### LOAD and RELEASE -/

theorem jobLoad_queues (h : Safety.direct s ctx = true) (hj : j < 16) (hState : (s.job j).state = .ready) (hFree : (s.job j).checking = false) (hAwake : s.deepIdle = false) :
    ∃ t, exec (.jobLoad ctx j) s = .next t ∧ t.admitQueue = s.admitQueue ++ [j] ∧ (t.job j).checking = true ∧ t.entry (0x6100 + j) 5 = PENDING
      ∧ Safety.outcome t ctx (0x6100 + j) 1 OK ∧ t.mem = s.mem ∧ t.tiles = s.tiles ∧ ∀ k, k ≠ j → t.job k = s.job k := by
  have hLegal : s.jobLegal j 1 = true := by
    simp only [State.jobLegal, hState, hFree, hAwake]
    decide
  obtain ⟨d, x, hShape, hOutcome, hEntry⟩ := jobCommand_shows h hj (by decide) hLegal rfl
  obtain ⟨v, hv⟩ : ∃ v : State, v = { s with admitQueue := s.admitQueue ++ [j] } := ⟨_, rfl⟩
  have hLoad : s.jobAct j 1 = (v.updJob j fun x => { x with checking := true }).setEntry (0x6100 + j) 5 PENDING := by
    rw [hv]
    rfl
  rw [hLoad] at hShape hEntry
  refine ⟨s.jobCommand ctx j 1, rfl, ?_, ?_, ?_, hOutcome, ?_, ?_, fun k hk => ?_⟩
  · rw [hShape, hv]; rfl
  · rw [hShape]
    exact congrArg Job.checking (Laws.job_setJob_same ..)
  · rw [hEntry _ _ (by omega) (by decide), Laws.entry_setEntry_same]
  · rw [hShape, hv]; rfl
  · rw [hShape, hv]; rfl
  · rw [hShape]
    exact (Laws.job_setJob_ne _ _ _ _ hk).trans (by rw [hv]; rfl)

/-- The group's tiles leave the job, and no other tile changes (R392). -/
theorem freeTiles_frees (l : List Nat) : ∀ s : State, (∃ tl, s.freeTiles l = { s with tiles := tl })
    ∧ (∀ g ∈ l, ((s.freeTiles l).tile g).run = .idle ∧ ((s.freeTiles l).tile g).quenched = false)
    ∧ ∀ g, (s.tile g).run = .idle ∧ (s.tile g).quenched = false → ((s.freeTiles l).tile g).run = .idle ∧ ((s.freeTiles l).tile g).quenched = false := by
  induction l with
  | nil => exact fun s => ⟨⟨_, rfl⟩, fun g hg => absurd hg List.not_mem_nil, fun g hg => hg⟩
  | cons a l ih =>
    intro s
    obtain ⟨v, hv, hTile, hOther⟩ : ∃ v, v = s.updTile a (fun x => { x with quenched := false, run := .idle, stopped := false, barWait := .none })
        ∧ ((v.tile a).run = .idle ∧ (v.tile a).quenched = false) ∧ ∀ g, g ≠ a → v.tile g = s.tile g :=
      ⟨_, rfl, by rw [Laws.tile_updTile_same]; exact ⟨rfl, rfl⟩, fun g hg => Laws.tile_updTile_ne _ hg⟩
    obtain ⟨⟨tl, hShape⟩, hAll, hKeep⟩ := ih v
    have hCons : s.freeTiles (a :: l) = v.freeTiles l := by rw [hv]; rfl
    rw [hCons]
    refine ⟨⟨tl, by rw [hShape, hv]; rfl⟩, fun g hg => ?_, fun g hg => ?_⟩
    · rcases List.mem_cons.1 hg with rfl | hg
      · exact hKeep _ hTile
      · exact hAll g hg
    · refine hKeep g ?_
      by_cases hga : g = a
      · rw [hga]; exact hTile
      · rw [hOther g hga]; exact hg

theorem jobRelease_empties (h : Safety.direct s ctx = true) (hj : j < 16) (hState : (s.job j).state = .loaded ∨ (s.job j).state = .halted) :
    ∃ t, exec (.jobRelease ctx j) s = .next t ∧ t.job j = {} ∧ Safety.outcome t ctx (0x6100 + j) 1 OK ∧ t.mem = s.mem
      ∧ (∀ g ∈ (s.job j).group, (t.tile g).run = .idle ∧ (t.tile g).quenched = false) ∧ ∀ k, k ≠ j → t.job k = s.job k := by
  have hLegal : s.jobLegal j 4 = true := by
    simp only [State.jobLegal]
    rcases hState with h | h <;> rw [h] <;> decide
  obtain ⟨⟨tl, hTiles⟩, hFreed, -⟩ := freeTiles_frees (s.job j).group s
  obtain ⟨v, hv⟩ : ∃ v, v = (s.freeTiles (s.job j).group).setJob j {} := ⟨_, rfl⟩
  obtain ⟨q, hIdle⟩ : ∃ q, s.jobAct j 4 = { v with heat := q } := by
    change ∃ q, ((s.freeTiles (s.job j).group).setJob j {}).noteIdle = _
    rw [← hv]
    unfold State.noteIdle
    split
    · exact ⟨_, rfl⟩
    · exact ⟨_, rfl⟩
  obtain ⟨d, x, hShape, hOutcome, -⟩ := jobCommand_shows h hj (by decide) hLegal hIdle
  refine ⟨s.jobCommand ctx j 4, rfl, ?_, hOutcome, ?_, fun g hg => ?_, fun k hk => ?_⟩
  · rw [hShape, hv]
    exact Laws.job_setJob_same ..
  · rw [hShape, hv, hTiles]; rfl
  · have hTile : (s.jobCommand ctx j 4).tile g = (s.freeTiles (s.job j).group).tile g := by rw [hShape, hv]; rfl
    rw [hTile]
    exact hFreed g hg
  · rw [hShape, hv]
    exact (Laws.job_setJob_ne _ _ _ _ hk).trans (by rw [hTiles]; rfl)

/-! ### What START and REARM do to the group's tiles -/

/-- `u` is `s` but for its links, tiles and entries, and of those below 0x8000 only 0x4038 counts. -/
structure GroupFrame (s u : State) : Prop where
  shape : ∃ p o d q tl, u = { s with ports := p, out := o, dict := d, seqExpected := q, tiles := tl }
  entries : ∀ i k, i < 0x8000 → i ≠ 0x4038 → k < 256 → u.entry i k = s.entry i k

namespace GroupFrame

theorem refl (s : State) : GroupFrame s s := ⟨⟨_, _, _, _, _, rfl⟩, fun _ _ _ _ _ => rfl⟩

theorem trans (h : GroupFrame s t) (h' : GroupFrame t u) : GroupFrame s u where
  shape := by
    obtain ⟨_, _, _, _, _, rfl⟩ := h.shape
    obtain ⟨_, _, _, _, _, rfl⟩ := h'.shape
    exact ⟨_, _, _, _, _, rfl⟩
  entries i k hi h4 hk := (h'.entries i k hi h4 hk).trans (h.entries i k hi h4 hk)

theorem updTile (g : Nat) (f : Tile → Tile) : GroupFrame s (s.updTile g f) := ⟨⟨_, _, _, _, _, rfl⟩, fun _ _ _ _ _ => rfl⟩

theorem setEntry {i : Nat} (hi : 0x8000 ≤ i) (k x : Nat) (hk : k < 256 := by decide) : GroupFrame s (s.setEntry i k x) :=
  ⟨⟨_, _, _, _, _, rfl⟩, fun _ _ h _ hl => Laws.entry_setEntry_index _ _ _ _ _ _ hk hl (by omega)⟩

theorem settleLanded (g : Nat) : GroupFrame s (s.settleLanded g) := by
  have h := settleLanded_frame (s := s) g
  obtain ⟨_, _, _, _, e⟩ := h.shape
  exact (updTile g _).trans ⟨⟨_, _, _, _, _, e⟩, fun i k _ h4 hk => h.entries i k hk h4⟩

theorem foldl {g : State → Nat → State} (hg : ∀ u x, GroupFrame u (g u x)) (l : List Nat) : ∀ s, GroupFrame s (l.foldl g s) := by
  induction l with
  | nil => exact refl
  | cons x l ih => exact fun s => (hg s x).trans (ih _)

theorem jobs (h : GroupFrame s u) : u.jobs = s.jobs := by obtain ⟨_, _, _, _, _, rfl⟩ := h.shape; rfl
theorem mem (h : GroupFrame s u) : u.mem = s.mem := by obtain ⟨_, _, _, _, _, rfl⟩ := h.shape; rfl

end GroupFrame

/-- Settled window PUTs are the tile's own, and of it only the list of landed ones changes (R272). -/
theorem settleLanded_tile (g : Nat) : (∃ w, (s.settleLanded g).tile g = { s.tile g with windowLanded := w }) ∧ ∀ k, k ≠ g → (s.settleLanded g).tile k = s.tile k := by
  obtain ⟨_, _, _, _, e⟩ := (settleLanded_frame (s := s) g).shape
  obtain ⟨f, hf, hLanded⟩ : ∃ f : Tile → Tile, (∀ k, (s.settleLanded g).tile k = (s.updTile g f).tile k) ∧ ∀ y, ∃ w, f y = { y with windowLanded := w } :=
    ⟨_, fun k => by rw [e]; rfl, fun _ => ⟨_, rfl⟩⟩
  refine ⟨?_, fun k hk => (hf k).trans (Laws.tile_updTile_ne _ hk)⟩
  rw [hf, Laws.tile_updTile_same]
  exact hLanded _

/-! ### REARM -/

theorem loadTile_group (im : Image) (g : Nat) : GroupFrame s (s.loadTile im g) := by
  have hState : GroupFrame s (if s.tileState g = 4 then s.setEntry (0xA0C0 + g) 1 1 else s) := by
    split
    · exact GroupFrame.setEntry (by omega) 1 1
    · exact GroupFrame.refl s
  have hCounters (u : State) : GroupFrame u (u.resetEntries ((List.range 60).map fun i => (0x8100 + g, i + 1))) := by
    refine ⟨⟨_, _, _, _, _, rfl⟩, fun i k hi _ hk => entry_resetEntries_ne fun p hp => ?_⟩
    obtain ⟨n, hn, rfl⟩ := List.mem_map.1 hp
    rw [List.mem_range] at hn
    simp only [entryKey]
    omega
  unfold State.loadTile
  dsimp only
  exact ((((hState.trans (hCounters _)).trans (GroupFrame.updTile g _)).trans (GroupFrame.settleLanded g)).trans (GroupFrame.updTile g _))

/-- An entry that is reset reads its default (R258). -/
theorem entry_resetEntries_mem {i k : Nat} {keys : List (Nat × Nat)} (h : (i, k) ∈ keys) : (s.resetEntries keys).entry i k = entryDefault i k := by
  have hGone : ∀ (l : List (Nat × Nat)) (d : Tab Nat), (Tab.get? d (entryKey i k) = none ∨ (i, k) ∈ l) →
      Tab.get? (l.foldl (fun d p => Tab.erase d (entryKey p.1 p.2)) d) (entryKey i k) = none := by
    intro l
    induction l with
    | nil => exact fun d hd => hd.elim id fun hm => absurd hm List.not_mem_nil
    | cons p l ih =>
      intro d hd
      refine ih _ ?_
      by_cases hp : entryKey i k = entryKey p.1 p.2
      · exact .inl (by rw [hp]; exact Laws.tab_get?_erase_same ..)
      · rcases hd with hd | hd
        · exact .inl (by rw [Laws.tab_get?_erase_ne _ hp]; exact hd)
        · rcases List.mem_cons.1 hd with rfl | hd
          · exact absurd rfl hp
          · exact .inr hd
  change (Tab.get? _ (entryKey i k)).getD _ = _
  rw [State.resetEntries, hGone keys _ (.inr h)]
  rfl

/-- Completion reads none once a job is LOADED again (R258, Table 11-9). -/
theorem loadedEntries_completion (hj : j < 16) (base : Nat) (group : List Nat) : (loadedEntries s j im base group true).entry (0x6100 + j) 7 = 0 := by
  unfold loadedEntries
  rw [Laws.entry_setEntry_sub _ _ _ _ _ (by decide), Laws.entry_setEntry_index _ _ _ _ _ _ (by decide) (by decide) (by omega),
    Laws.entry_setEntry_index _ _ _ _ _ _ (by decide) (by decide) (by omega)]
  have hMem : (0x6100 + j, 7) ∈ jobEntries j true := by
    unfold jobEntries
    simp
    exact ⟨2, by decide, rfl⟩
  have hDefault : ∀ j < 16, entryDefault (0x6100 + j) 7 = 0 := by decide
  rw [entry_resetEntries_mem hMem, hDefault j hj]

theorem jobRearm_loads (h : Safety.direct s ctx = true) (hj : j < 16) (hState : (s.job j).state = .halted) (hImage : (s.job j).image = some im) :
    ∃ t, exec (.jobRearm ctx j) s = .next t ∧ (t.job j).state = .loaded ∧ (t.job j).image = some im ∧ (t.job j).group = (s.job j).group
      ∧ t.entry (0x6100 + j) 7 = 0 ∧ Safety.outcome t ctx (0x6100 + j) 1 OK ∧ t.mem = s.mem := by
  have hLegal : s.jobLegal j 5 = true := by
    simp only [State.jobLegal, hState]
    decide
  obtain ⟨⟨tl, hTiles⟩, -, -⟩ := freeTiles_frees (s.job j).group s
  obtain ⟨v, hv⟩ : ∃ v, v = s.freeTiles (s.job j).group := ⟨_, rfl⟩
  have hAct : s.jobAct j 5 = (s.job j).group.foldl (fun s t => s.loadTile im t) (loadedEntries v j im (s.job j).imageBase (s.job j).group true) := by
    change s.rearm j = _
    unfold State.rearm
    dsimp only
    rw [hImage, hv]
    rfl
  have hGroup := GroupFrame.foldl (fun u g => loadTile_group (s := u) im g) (s.job j).group (loadedEntries v j im (s.job j).imageBase (s.job j).group true)
  obtain ⟨hJob, -, hMem, -⟩ := loadedEntries_job (s := v) (j := j) im (s.job j).imageBase (s.job j).group true
  have hDone := loadedEntries_completion (s := v) (im := im) hj (s.job j).imageBase (s.job j).group
  obtain ⟨d, x, hShape, hOutcome, hEntry⟩ := jobCommand_shows h hj (by decide) hLegal hAct
  have hJobEnd : (s.jobCommand ctx j 5).job j = loadedJob v j im (s.job j).imageBase (s.job j).group := by
    rw [hShape, ← hJob]
    change Tab.get (List.foldl _ _ _ : State).jobs {} j = _
    rw [hGroup.jobs]
    rfl
  refine ⟨s.jobCommand ctx j 5, rfl, ?_, ?_, ?_, ?_, hOutcome, ?_⟩
  · rw [hJobEnd]; rfl
  · rw [hJobEnd]; rfl
  · rw [hJobEnd]; rfl
  · rw [hEntry _ _ (by omega) (by decide), hGroup.entries _ _ (by omega) (by omega) (by decide)]
    exact hDone
  · rw [hShape]
    exact hGroup.mem.trans (hMem.trans (by rw [hv, hTiles]))

/-! ### START (R194, R253) -/

/-- A tile's sequencer as R194 sets it for its rank in a job's group. -/
structure Armed (j : Nat) (group : List Nat) (g : Nat) (y : Tile) : Prop where
  sregs : y.sregs = [(1, BitVec.ofNat 64 (rankOf group g)), (2, BitVec.ofNat 64 group.length), (3, BitVec.ofNat 64 j)].foldl (fun r p => Tab.put r p.1 p.2) []
  vectors : y.vregs = [] ∧ y.ready = [] ∧ y.flight = []
  qregs : y.qregs = []
  control : y.loops = [] ∧ y.sched = 0

/-- What R194 says of the registers. -/
theorem Armed.registers {group : List Nat} {y : Tile} (h : Armed j group g y) : (∀ v i, Row.lane (y.vreg v) i = 0 ∧ y.readyAt v = 0) ∧ (∀ q, (y.qreg q).valid = false)
    ∧ y.sreg 1 = BitVec.ofNat 64 (rankOf group g) ∧ y.sreg 2 = BitVec.ofNat 64 group.length ∧ y.sreg 3 = BitVec.ofNat 64 j
    ∧ (∀ k, k ∉ [1, 2, 3] → y.sreg k = 0) ∧ y.loops = [] ∧ y.sched = 0 := by
  obtain ⟨hVregs, hReady, hFlight⟩ := h.vectors
  refine ⟨fun v i => ⟨?_, ?_⟩, fun q => ?_, ?_, ?_, ?_, fun k hk => ?_, h.control⟩
  · rw [Tile.vreg, hFlight, hVregs]
    rfl
  · rw [Tile.readyAt, hReady]
    rfl
  · rw [Tile.qreg, h.qregs]
    rfl
  · rw [Tile.sreg, h.sregs, if_neg (by decide)]
    rfl
  · rw [Tile.sreg, h.sregs, if_neg (by decide)]
    rfl
  · rw [Tile.sreg, h.sregs, if_neg (by decide)]
    rfl
  · simp only [List.mem_cons, List.not_mem_nil, or_false, not_or] at hk
    rw [Tile.sreg, h.sregs]
    split
    · rfl
    · simp only [List.foldl_cons, List.foldl_nil]
      rw [Laws.tab_get_put_ne _ _ _ hk.2.2, Laws.tab_get_put_ne _ _ _ hk.2.1, Laws.tab_get_put_ne _ _ _ hk.1]
      rfl

/-- START sets one tile of the group (R194). -/
def startTile (im : Image) (group : List Nat) (j : Nat) (s : State) (g : Nat) : State :=
  ((s.updTile g fun y => y.startOf im (rankOf group g) group.length j s.now).settleLanded g).setEntry (0xA0C0 + g) 2 im.cert.point

theorem startTile_arms (im : Image) (group : List Nat) (j g : Nat) : GroupFrame s (startTile im group j s g) ∧ Armed j group g ((startTile im group j s g).tile g)
    ∧ ∀ k, k ≠ g → (startTile im group j s g).tile k = s.tile k := by
  obtain ⟨v, hv, hTile, hOther⟩ : ∃ v, v = s.updTile g (fun y => y.startOf im (rankOf group g) group.length j s.now)
      ∧ v.tile g = (s.tile g).startOf im (rankOf group g) group.length j s.now ∧ ∀ k, k ≠ g → v.tile k = s.tile k :=
    ⟨_, rfl, Laws.tile_updTile_same .., fun k hk => Laws.tile_updTile_ne _ hk⟩
  have hFrame : GroupFrame s v := by rw [hv]; exact GroupFrame.updTile g _
  unfold startTile
  rw [← hv]
  refine ⟨(hFrame.trans (GroupFrame.settleLanded g)).trans (GroupFrame.setEntry (by omega) 2 _), ?_, fun k hk => ?_⟩
  · obtain ⟨⟨w, e⟩, -⟩ := settleLanded_tile (s := v) g
    rw [hTile] at e
    change Armed j group g ((v.settleLanded g).tile g)
    rw [e]
    exact ⟨rfl, ⟨rfl, rfl, rfl⟩, rfl, rfl, rfl⟩
  · exact ((settleLanded_tile (s := v) g).2 k hk).trans (hOther k hk)

theorem startGroup_arms (im : Image) (group : List Nat) (j : Nat) (l : List Nat) : ∀ s : State, GroupFrame s (l.foldl (startTile im group j) s)
    ∧ (∀ g, g ∈ l ∨ Armed j group g (s.tile g) → Armed j group g ((l.foldl (startTile im group j) s).tile g))
    ∧ ∀ g, g ∉ l → (l.foldl (startTile im group j) s).tile g = s.tile g := by
  induction l with
  | nil => exact fun s => ⟨GroupFrame.refl s, fun g hg => hg.resolve_left List.not_mem_nil, fun _ _ => rfl⟩
  | cons a l ih =>
    intro s
    obtain ⟨hFrame, hArmed, hOther⟩ := startTile_arms (s := s) im group j a
    obtain ⟨hFrames, hAll, hOthers⟩ := ih (startTile im group j s a)
    refine ⟨hFrame.trans hFrames, fun g hg => hAll g ?_, fun g hg => ?_⟩
    · by_cases hga : g = a
      · exact .inr (hga ▸ hArmed)
      · rw [hOther g hga]
        exact hg.imp_left fun h => (List.mem_cons.1 h).resolve_left hga
    · rw [List.mem_cons, not_or] at hg
      exact (hOthers g hg.2).trans (hOther g hg.1)

/-- START: the job runs, its descriptors bind next, and each tile of its group is set (R194, R253). -/
theorem start_starts (hImage : (s.job j).image = some im) : ((s.start j).job j).state = .running ∧ ((s.start j).job j).bindNext = some 0 ∧ ((s.start j).job j).journal = true
    ∧ ((s.start j).job j).startedAt = s.now ∧ (s.start j).mem = s.mem ∧ (∀ k, k ≠ j → (s.start j).job k = s.job k)
    ∧ (∀ g, g ∉ (s.job j).group → (s.start j).tile g = s.tile g) ∧ ∀ g ∈ (s.job j).group, Armed j (s.job j).group g ((s.start j).tile g) := by
  have hTouch : Reached s s.touchStacks := by
    have hFold (l : List Nat) : ∀ s : State, Reached s (l.foldl State.touchStack s) := by
      induction l with
      | nil => exact Reached.refl
      | cons k l ih => exact fun s => (Reached.touchStack k).trans (ih _)
    exact hFold _ s
  obtain ⟨dt, q, hTouched⟩ := hTouch.shape
  obtain ⟨y, v, hStart, hvState, hvNext, hvJournal, hvAt, hvJob, hvMem, hvOther, hvTiles⟩ : ∃ (y : Job) (v : State),
      s.start j = (s.job j).group.foldl (startTile im (s.job j).group j) v
      ∧ y.state = .running ∧ y.bindNext = some 0 ∧ y.journal = true ∧ y.startedAt = s.now ∧ v.job j = y ∧ v.mem = s.mem ∧ (∀ k, k ≠ j → v.job k = s.job k) ∧ v.tiles = s.tiles := by
    unfold State.start
    dsimp only
    rw [hImage]
    dsimp only
    rw [hTouched]
    exact ⟨_, _, rfl, rfl, rfl, rfl, rfl, Laws.job_setJob_same .., rfl, fun k hk => Laws.job_setJob_ne _ _ _ _ hk, rfl⟩
  obtain ⟨hFrame, hArmed, hOther⟩ := startGroup_arms im (s.job j).group j (s.job j).group v
  have hJob (k : Nat) : (s.start j).job k = v.job k := by rw [hStart, State.job, hFrame.jobs]; rfl
  have hTile (k : Nat) : v.tile k = s.tile k := by rw [State.tile, hvTiles]; rfl
  refine ⟨?_, ?_, ?_, ?_, ?_, fun k hk => ?_, fun g hg => ?_, fun g hg => ?_⟩
  · rw [hJob, hvJob, hvState]
  · rw [hJob, hvJob, hvNext]
  · rw [hJob, hvJob, hvJournal]
  · rw [hJob, hvJob, hvAt]
  · rw [hStart, hFrame.mem, hvMem]
  · rw [hJob, hvOther k hk]
  · rw [hStart, hOther g hg, hTile]
  · rw [hStart]
    exact hArmed g (.inl hg)

theorem jobStart_starts (h : Safety.direct s ctx = true) (hj : j < 16) (hState : (s.job j).state = .loaded) (hImage : (s.job j).image = some im) :
    ∃ t, exec (.jobStart ctx j) s = .next t ∧ (t.job j).state = .running ∧ (t.job j).bindNext = some 0 ∧ (t.job j).journal = true
      ∧ (t.job j).startedAt = s.now ∧ Safety.outcome t ctx (0x6100 + j) 1 OK ∧ t.mem = s.mem ∧ (∀ k, k ≠ j → t.job k = s.job k)
      ∧ (∀ g, g ∉ (s.job j).group → t.tile g = s.tile g) ∧ ∀ g ∈ (s.job j).group, Armed j (s.job j).group g (t.tile g) := by
  have hLegal : s.jobLegal j 2 = true := by
    simp only [State.jobLegal, hState]
    decide
  obtain ⟨hRun, hNext, hJournal, hAt, hMem, hJobs, hTiles, hArmed⟩ := start_starts (j := j) hImage
  obtain ⟨d, x, hShape, hOutcome, -⟩ := jobCommand_shows h hj (by decide) hLegal (u := s.start j) rfl
  refine ⟨s.jobCommand ctx j 2, rfl, ?_, ?_, ?_, ?_, hOutcome, ?_, fun k hk => ?_, fun g hg => ?_, fun g hg => ?_⟩
  · rw [hShape]; exact hRun
  · rw [hShape]; exact hNext
  · rw [hShape]; exact hJournal
  · rw [hShape]; exact hAt
  · rw [hShape]; exact hMem
  · rw [hShape]; exact hJobs k hk
  · rw [hShape]; exact hTiles g hg
  · rw [hShape]; exact hArmed g hg

/-! ### ABORT (R255, R392, R393) -/

/-- From `s` to `u` no job changes, nor whether a tile is quenched, runs or what its lease is; each tile keeps its work or has none; and under `c` no byte of memory changes. -/
structure Fading (c : Prop) (s u : State) : Prop where
  mem : c → u.mem = s.mem
  jobs : u.jobs = s.jobs
  held : ∀ k, (u.tile k).quenched = (s.tile k).quenched ∧ (u.tile k).run = (s.tile k).run ∧ (u.tile k).leaseEpoch = (s.tile k).leaseEpoch
  works : ∀ k, ((u.tile k).queue = (s.tile k).queue ∧ (u.tile k).running = (s.tile k).running) ∨ ((u.tile k).queue = [] ∧ (u.tile k).running = [])

namespace Fading

variable {c : Prop}

theorem of_tiles (hMem : c → u.mem = s.mem) (hJobs : u.jobs = s.jobs) (hTiles : u.tiles = s.tiles) : Fading c s u := by
  have hTile (k : Nat) : u.tile k = s.tile k := by rw [State.tile, hTiles]; rfl
  exact ⟨hMem, hJobs, fun k => by rw [hTile]; exact ⟨rfl, rfl, rfl⟩, fun k => .inl (by rw [hTile]; exact ⟨rfl, rfl⟩)⟩

theorem shut (h : Shut s u) : Fading c s u := of_tiles (fun _ => h.mem) h.jobs h.tiles

theorem refl (s : State) : Fading c s s := shut (Shut.refl s)

theorem trans (h : Fading c s t) (h' : Fading c t u) : Fading c s u where
  mem hc := (h'.mem hc).trans (h.mem hc)
  jobs := h'.jobs.trans h.jobs
  held k := by
    obtain ⟨hq, hr, hl⟩ := h.held k
    obtain ⟨hq', hr', hl'⟩ := h'.held k
    exact ⟨hq'.trans hq, hr'.trans hr, hl'.trans hl⟩
  works k := by
    rcases h'.works k with hSame | hNone
    · rw [hSame.1, hSame.2]
      exact h.works k
    · exact .inr hNone

theorem foldl {α : Type} {g : State → α → State} (hg : ∀ u x, Fading c u (g u x)) (l : List α) : ∀ s, Fading c s (l.foldl g s) := by
  induction l with
  | nil => exact refl
  | cons x l ih => exact fun s => (hg s x).trans (ih _)

/-- A tile without work has none later. -/
theorem idle (h : Fading c s u) {k : Nat} (hk : (s.tile k).queue = [] ∧ (s.tile k).running = []) : (u.tile k).queue = [] ∧ (u.tile k).running = [] := by
  rcases h.works k with hSame | hNone
  · exact ⟨hSame.1.trans hk.1, hSame.2.trans hk.2⟩
  · exact hNone

/-- A change of one tile that leaves what `Fading` speaks of, or takes the tile's work. -/
theorem updTile (g : Nat) {f : Tile → Tile} (hHeld : ∀ y, (f y).quenched = y.quenched ∧ (f y).run = y.run ∧ (f y).leaseEpoch = y.leaseEpoch)
    (hWorks : ∀ y, ((f y).queue = y.queue ∧ (f y).running = y.running) ∨ ((f y).queue = [] ∧ (f y).running = [])) : Fading c s (s.updTile g f) := by
  refine ⟨fun _ => rfl, rfl, fun k => ?_, fun k => ?_⟩
  · by_cases hk : k = g
    · subst hk
      rw [Laws.tile_updTile_same]
      exact hHeld _
    · rw [Laws.tile_updTile_ne _ hk]
      exact ⟨rfl, rfl, rfl⟩
  · by_cases hk : k = g
    · subst hk
      rw [Laws.tile_updTile_same]
      exact hWorks _
    · rw [Laws.tile_updTile_ne _ hk]
      exact .inl ⟨rfl, rfl⟩

theorem poisonRows (t first n : Nat) : Fading c s (s.poisonRows t first n) :=
  foldl (fun u i => by
    unfold State.setTag
    exact updTile t (fun _ => ⟨rfl, rfl, rfl⟩) fun _ => .inl ⟨rfl, rfl⟩) _ s

theorem abortRows (im : Image) (t : Nat) : Fading c s (s.abortRows im t) :=
  (foldl (fun _ (o : LopInst) => poisonRows t o.rgnD.1 o.rgnD.2) _ s).trans (foldl (fun _ (g : Region) => poisonRows t g.base g.size) _ _)

theorem cancelStreams (j : Nat) : Fading c s (s.cancelStreams j false) := by
  unfold State.cancelStreams
  dsimp only
  have hWaits : Shut s { s with openWaits := s.openWaits.filter (fun w => w.job ≠ j), lateStreams := s.lateStreams.filter fun w => w.2.job ≠ j } :=
    ⟨rfl, rfl, rfl, rfl, rfl⟩
  refine (shut hWaits).trans (foldl (fun u k => ?_) _ _)
  have hEnd (v : State) (x : Stream) : Fading c v (((v.bump 0x7020 8 1).dropCredits x).releaseStream k 0) := by
    have hCount : Shut v (v.bump 0x7020 8 1) := ⟨rfl, rfl, rfl, rfl, rfl⟩
    exact shut ((hCount.trans (Shut.dropCredits x)).trans (Shut.releaseStream k 0))
  split
  · exact refl u
  · split
    · exact shut (Shut.releaseStream k 5)
    · split
      · exact trans (foldl (fun _ t => poisonRows t ..) _ _) (hEnd _ _)
      · exact hEnd _ _

theorem revokeTile (t : Nat) : Fading c s (s.revokeTile t) ∧ ((s.revokeTile t).tile t).queue = [] ∧ ((s.revokeTile t).tile t).running = [] := by
  obtain ⟨v, hv, hFade, hNone⟩ : ∃ v, v = s.updTile t (fun x => { x with queue := [], running := [], scoreboard := [], signalsOut := [] }) ∧ Fading c s v
      ∧ (v.tile t).queue = [] ∧ (v.tile t).running = [] :=
    ⟨_, rfl, updTile t (fun _ => ⟨rfl, rfl, rfl⟩) fun _ => .inr ⟨rfl, rfl⟩, by rw [Laws.tile_updTile_same]; exact ⟨rfl, rfl⟩⟩
  unfold State.revokeTile
  dsimp only
  rw [← hv]
  exact ⟨hFade.trans ⟨fun _ => rfl, rfl, fun _ => ⟨rfl, rfl, rfl⟩, fun _ => .inl ⟨rfl, rfl⟩⟩, hNone⟩

/-- The leases of a group revoked: none of its tiles has work left (R393). -/
theorem revokeGroup (l : List Nat) : ∀ s : State, Fading c s (l.foldl (fun s t => s.revokeTile t) s)
    ∧ ∀ g ∈ l, ((l.foldl (fun s t => s.revokeTile t) s).tile g).queue = [] ∧ ((l.foldl (fun s t => s.revokeTile t) s).tile g).running = [] := by
  induction l with
  | nil => exact fun s => ⟨refl s, fun g hg => absurd hg List.not_mem_nil⟩
  | cons a l ih =>
    intro s
    obtain ⟨hTile, hNone⟩ := revokeTile (c := c) (s := s) a
    obtain ⟨hRest, hIdle⟩ := ih (s.revokeTile a)
    refine ⟨hTile.trans hRest, fun g hg => ?_⟩
    rcases List.mem_cons.1 hg with rfl | hg
    · exact hRest.idle hNone
    · exact hIdle g hg

/-- A poisoned descriptor reaches memory at most (R395). -/
theorem poisonDescriptor (hc : ¬c) (im : Image) (j x : Nat) : Fading c s (s.poisonDescriptor im j x) := by
  have hCount (host : Bool) (code : Nat) : Shut s (s.countFail host code) := by
    unfold State.countFail
    repeat' split
    all_goals exact ⟨rfl, rfl, rfl, rfl, rfl⟩
  unfold State.poisonDescriptor
  dsimp only
  split
  · split
    · obtain ⟨_, _, _, e⟩ := memWrite_shape (s := s) (localOf (im.decl x).descAddr) ((s.descriptorOf im j x false true 0).bytes.take 8)
      exact of_tiles (fun h => absurd h hc) (by rw [e]) (by rw [e])
    · exact refl s
  · split
    · exact shut ((hCount _ _).trans ⟨rfl, rfl, rfl, rfl, rfl⟩)
    · obtain ⟨_, _, _, _, _, _, _, e⟩ := (IssueFrame.issueOp (s := s) (nodeOf (im.decl x).descAddr) 2 1 (localOf (im.decl x).descAddr) 8 0
        ((s.descriptorOf im j x false true 0).bytes.take 8) issuerSupervisor 0xFF (poisonWrite + x)).shape
      exact of_tiles (fun _ => by rw [e]) (by rw [e]) (by rw [e])

end Fading

/-- A tile that is quenched stops, and its lease epoch has risen (R392). -/
def quenchedFrom (s u : State) (g : Nat) : Prop :=
  (u.tile g).quenched = true ∧ (u.tile g).run = .halted ∧ (u.tile g).leaseEpoch = (s.tile g).leaseEpoch + 1

theorem quench_quenches (hOpen : (s.tile g).quenched = false) : OwnTile g s (s.quench g) ∧ quenchedFrom s (s.quench g) g := by
  refine ⟨(OwnTile.refl s).quench, ?_⟩
  obtain ⟨_, _, -, hWake⟩ := wakeTile_shape (s := s) (t := g)
  obtain ⟨_, hWake⟩ := hWake g
  have hWait (v : State) : ((v.endWait g).tile g).leaseEpoch = (v.tile g).leaseEpoch := by
    obtain ⟨_, _, e⟩ := ((Settled.refl v).settleWait g).tiles g
    rw [State.endWait, Laws.tile_updTile_same, e]
  obtain ⟨_, _, hMiss⟩ := reportMisses_tile (s := (s.wakeTile g).endWait g) (t := g) []
  have hLease : ((((s.wakeTile g).endWait g).reportMisses g []).tile g).leaseEpoch = (s.tile g).leaseEpoch := by rw [hMiss, hWait, hWake]
  unfold quenchedFrom State.quench
  rw [if_neg (by rw [hOpen]; decide)]
  dsimp only
  generalize ((s.wakeTile g).endWait g).reportMisses g [] = v at hLease
  have hTile (f : Tile → Tile) : ((v.updTile g f).bump 0xB190 3 1).tile g = f (v.tile g) := Laws.tile_updTile_same ..
  rw [hTile]
  exact ⟨rfl, rfl, congrArg (fun n => n + 1) hLease⟩

/-- A tile's quenching and the marks on its rows: another tile is held as before, and so is this one where it was quenched already. -/
theorem quenchTile (im : Image) (a : Nat) : ((s.quench a).abortRows im a).mem = s.mem ∧ ((s.quench a).abortRows im a).jobs = s.jobs
    ∧ (∀ k, (s.tile k).quenched = true ∨ k ≠ a → (((s.quench a).abortRows im a).tile k).quenched = (s.tile k).quenched
        ∧ (((s.quench a).abortRows im a).tile k).run = (s.tile k).run ∧ (((s.quench a).abortRows im a).tile k).leaseEpoch = (s.tile k).leaseEpoch)
    ∧ ((s.tile a).quenched = false → quenchedFrom s ((s.quench a).abortRows im a) a) := by
  have hRows := Fading.abortRows (c := True) (s := s.quench a) im a
  have hOwn : OwnTile a s (s.quench a) := (OwnTile.refl s).quench
  refine ⟨(hRows.mem trivial).trans hOwn.mem, hRows.jobs.trans hOwn.jobs, fun k hk => ?_, fun hOpen => ?_⟩
  · have hSame : (s.quench a).tile k = s.tile k := by
      by_cases hka : k = a
      · subst hka
        rw [State.quench, if_pos (hk.resolve_right fun h => h rfl)]
      · exact hOwn.others k hka
    rw [← hSame]
    exact hRows.held k
  · obtain ⟨-, hq, hr, hl⟩ := quench_quenches hOpen
    obtain ⟨hq', hr', hl'⟩ := hRows.held a
    exact ⟨hq'.trans hq, hr'.trans hr, hl'.trans hl⟩

/-- The quenching of a group reaches each of its tiles once (R392). -/
theorem quenchGroup (im : Image) (l : List Nat) : ∀ s : State, (l.foldl (fun s t => (s.quench t).abortRows im t) s).mem = s.mem
    ∧ (l.foldl (fun s t => (s.quench t).abortRows im t) s).jobs = s.jobs
    ∧ (∀ k, (s.tile k).quenched = true ∨ k ∉ l → ((l.foldl (fun s t => (s.quench t).abortRows im t) s).tile k).quenched = (s.tile k).quenched
        ∧ ((l.foldl (fun s t => (s.quench t).abortRows im t) s).tile k).run = (s.tile k).run
        ∧ ((l.foldl (fun s t => (s.quench t).abortRows im t) s).tile k).leaseEpoch = (s.tile k).leaseEpoch)
    ∧ ∀ k ∈ l, (s.tile k).quenched = false → quenchedFrom s (l.foldl (fun s t => (s.quench t).abortRows im t) s) k := by
  induction l with
  | nil => exact fun s => ⟨rfl, rfl, fun _ _ => ⟨rfl, rfl, rfl⟩, fun k hk => absurd hk List.not_mem_nil⟩
  | cons a l ih =>
    intro s
    obtain ⟨hMem, hJobs, hHeld, hEnd⟩ := quenchTile (s := s) im a
    obtain ⟨hMems, hAll, hKeep, hEnds⟩ := ih ((s.quench a).abortRows im a)
    refine ⟨hMems.trans hMem, hAll.trans hJobs, fun k hk => ?_, fun k hk hOpen => ?_⟩
    · rw [List.mem_cons, not_or] at hk
      obtain ⟨hq, hr, hl⟩ := hHeld k (hk.imp_right And.left)
      obtain ⟨hq', hr', hl'⟩ := hKeep k (hk.imp (hq.trans ·) And.right)
      exact ⟨hq'.trans hq, hr'.trans hr, hl'.trans hl⟩
    · by_cases hka : k = a
      · subst hka
        obtain ⟨hq, hr, hl⟩ := hEnd hOpen
        obtain ⟨hq', hr', hl'⟩ := hKeep k (.inl hq)
        exact ⟨hq'.trans hq, hr'.trans hr, hl'.trans hl⟩
      · obtain ⟨hq, -, hl⟩ := hHeld k (.inr hka)
        obtain ⟨hq', hr', hl'⟩ := hEnds k ((List.mem_cons.1 hk).resolve_left hka) (hq.trans hOpen)
        exact ⟨hq', hr', hl'.trans (congrArg (fun n => n + 1) hl)⟩

/-- The clean-up of an aborted job quenches its tiles and takes their work; memory changes where an output's descriptor is poisoned (R255, R392, R395). -/
theorem cleanUp_cleans (im : Image) (hOpen : ∀ g ∈ (s.job j).group, (s.tile g).quenched = false) : (im.outputHandles = [] → (s.cleanUp j im).mem = s.mem)
    ∧ (s.cleanUp j im).job j = { s.job j with cleaned := true, bindNext := none }
    ∧ ∀ g ∈ (s.job j).group, quenchedFrom s (s.cleanUp j im) g ∧ ((s.cleanUp j im).tile g).queue = [] ∧ ((s.cleanUp j im).tile g).running = [] := by
  obtain ⟨v, hv, hvMem, hvJobs, hvTile⟩ : ∃ v, v = s.bump 0xB190 4 (s.jobLeases j im.cert.barrierMask) ∧ v.mem = s.mem ∧ v.jobs = s.jobs ∧ v.tile = s.tile :=
    ⟨_, rfl, rfl, rfl, rfl⟩
  obtain ⟨hMem, hJobs, -, hEnd⟩ := quenchGroup im (s.job j).group v
  generalize hw : (s.job j).group.foldl (fun s t => (s.quench t).abortRows im t) v = w at hMem hJobs hEnd
  have hStreams : Fading (im.outputHandles = []) w ((w.cancelStreams j false).wipePkeOf j) := (Fading.cancelStreams j).trans (Fading.shut (Shut.wipePkeOf j))
  obtain ⟨hRevoke, hIdle⟩ := Fading.revokeGroup (c := im.outputHandles = []) (s.job j).group ((w.cancelStreams j false).wipePkeOf j)
  generalize hx : (s.job j).group.foldl (fun s t => s.revokeTile t) ((w.cancelStreams j false).wipePkeOf j) = x at hRevoke hIdle
  have hOrphan (d : RemoteOp → Bool) : Fading (im.outputHandles = []) x (x.orphanOps d) := Fading.of_tiles (fun _ => rfl) rfl rfl
  have hMark (w : State) (r : Nat × Nat) : Fading (im.outputHandles = []) w (w.markPoison r.1 r.2) := Fading.shut (Shut.markPoison r.1 r.2)
  have hRest := (hOrphan fun r => r.job = j && !x.isValidWrite r).trans
    (Fading.foldl hMark ((x.orphanOps fun r => r.job = j && !x.isValidWrite r).outputRegions im j) _)
  generalize hy : ((x.orphanOps fun r => r.job = j && !x.isValidWrite r).outputRegions im j).foldl (fun s (r : Nat × Nat) => s.markPoison r.1 r.2)
    (x.orphanOps fun r => r.job = j && !x.isValidWrite r) = y at hRest
  have hPoison (kept : List Nat) : Fading (im.outputHandles = []) y
      ((im.outputHandles.filter fun x => !kept.contains x).foldl (fun s x => s.poisonDescriptor im j x) y) := by
    by_cases hNone : im.outputHandles = []
    · rw [hNone]
      exact Fading.refl y
    · exact Fading.foldl (fun _ x => Fading.poisonDescriptor hNone im j x) _ _
  obtain ⟨kept, hClean⟩ : ∃ kept : List Nat, s.cleanUp j im = (((im.outputHandles.filter fun x => !kept.contains x).foldl (fun s x => s.poisonDescriptor im j x) y).updJob j
      fun y => { y with cleaned := true, bindNext := none }) := by
    refine ⟨(y.job j).committed ++ (y.job j).inFlight, ?_⟩
    unfold State.cleanUp
    dsimp only
    rw [← hv, hw, hx, hy]
  have hFade := (hStreams.trans hRevoke).trans (hRest.trans (hPoison kept))
  have hLast := hRest.trans (hPoison kept)
  generalize (im.outputHandles.filter fun x => !kept.contains x).foldl (fun s x => s.poisonDescriptor im j x) y = z at hClean hFade hLast
  have hJob : z.job j = s.job j := by rw [State.job, hFade.jobs, hJobs, hvJobs]; rfl
  rw [hClean]
  refine ⟨fun hNone => ?_, ?_, fun g hg => ?_⟩
  · exact (hFade.mem hNone).trans (hMem.trans hvMem)
  · rw [← hJob]
    exact Laws.job_setJob_same ..
  · have hvOpen : (v.tile g).quenched = false := by rw [hvTile]; exact hOpen g hg
    obtain ⟨hq, hr, hl⟩ := hEnd g hg hvOpen
    obtain ⟨hq', hr', hl'⟩ := hFade.held g
    refine ⟨⟨hq'.trans hq, hr'.trans hr, ?_⟩, hLast.idle (hIdle g hg)⟩
    rw [← hvTile]
    exact hl'.trans hl

/-- What an aborted job shows: its tiles quenched and without work, and where nothing holds it back it has halted (R255, R392). -/
theorem abort_ends (hj : j < 16) (hState : (s.job j).state = .running) (hImage : (s.job j).image = some im) (hCleaned : (s.job j).cleaned = false)
    (hOpen : ∀ g ∈ (s.job j).group, (s.tile g).quenched = false) :
    ∃ t, (s.abortJob j OK 0xFF 0).abortCleanup j = t ∧ ((t.job j).state = .halted ∨ (t.job j).state = .draining)
      ∧ (∀ g ∈ (s.job j).group, quenchedFrom s t g ∧ (t.tile g).queue = [] ∧ (t.tile g).running = [])
      ∧ (im.regions = [] → (s.job j).commits = [] → (t.job j).state = .halted ∧ t.entry (0x6100 + j) 7 = 2) ∧ (im.outputHandles = [] → t.mem = s.mem) := by
  have hAbort := abortJob_running (s := s) OK 0xFF 0 hState
  generalize hu : s.abortJob j OK 0xFF 0 = u at hAbort
  obtain ⟨a, hJob⟩ := hAbort.job
  have hGroup : (u.job j).group = (s.job j).group := by rw [hJob]
  have hTile (g : Nat) : (u.tile g).quenched = (s.tile g).quenched ∧ (u.tile g).leaseEpoch = (s.tile g).leaseEpoch := by
    obtain ⟨_, _, e⟩ := hAbort.tiles g
    rw [e]
    exact ⟨rfl, rfl⟩
  obtain ⟨hMem, hClean, hEnd⟩ := cleanUp_cleans (s := u) (j := j) im (fun g hg => (hTile g).1.trans (hOpen g (hGroup ▸ hg)))
  have hTiles : ∀ g ∈ (s.job j).group, quenchedFrom s (u.cleanUp j im) g ∧ ((u.cleanUp j im).tile g).queue = [] ∧ ((u.cleanUp j im).tile g).running = [] := by
    intro g hg
    obtain ⟨⟨hq, hr, hl⟩, hIdle⟩ := hEnd g (by rw [hGroup]; exact hg)
    exact ⟨⟨hq, hr, hl.trans (congrArg (fun n => n + 1) (hTile g).2)⟩, hIdle⟩
  have hDraining : ((u.cleanUp j im).job j).state = .draining := by rw [hClean, hJob]
  have hStep : u.abortCleanup j = if (u.cleanUp j im).markingWaits im ∨ !((u.cleanUp j im).job j).inFlight.isEmpty then u.cleanUp j im else (u.cleanUp j im).endJob j 2 OK := by
    have hImage' : (u.job j).image = some im := by rw [hJob]; exact hImage
    have hGoes : ¬((u.job j).state ≠ .draining ∨ (u.job j).drain ≠ .abort) := by rw [hJob]; simp
    have hCleaned' : ¬(u.job j).cleaned = true := by rw [hJob, ← hCleaned]; simp [hCleaned]
    have hCode : (u.job j).abortCode = OK := by rw [hJob]
    unfold State.abortCleanup
    dsimp only
    rw [hImage']
    dsimp only
    rw [if_neg hGoes, if_neg hCleaned', hCode]
  refine ⟨u.abortCleanup j, rfl, ?_⟩
  rw [hStep]
  by_cases hHeld : (u.cleanUp j im).markingWaits im ∨ !((u.cleanUp j im).job j).inFlight.isEmpty
  · rw [if_pos hHeld]
    refine ⟨.inr hDraining, hTiles, fun hRegions hCommits => absurd hHeld ?_, fun hNone => (hMem hNone).trans hAbort.mem⟩
    have hWaits : (u.cleanUp j im).markingWaits im = false := by simp [State.markingWaits, Image.memRegions, hRegions]
    have hFlight : ((u.cleanUp j im).job j).inFlight = [] := by rw [hClean, hJob]; simp [Job.inFlight, hCommits]
    rw [hWaits, hFlight]
    decide
  · rw [if_neg hHeld]
    have hHalted := endJob_halts (s := u.cleanUp j im) (outcome := 2) (status := OK) hj (fun h => absurd h (by decide))
    refine ⟨.inl hHalted.state, fun g hg => ?_, fun _ _ => ⟨hHalted.state, hHalted.completion⟩, fun hNone => hHalted.mem.trans ((hMem hNone).trans hAbort.mem)⟩
    obtain ⟨_, _, e⟩ := hHalted.tiles g
    unfold quenchedFrom
    rw [e]
    exact hTiles g hg

theorem jobAbort_aborts (h : Safety.direct s ctx = true) (hj : j < 16) (hState : (s.job j).state = .running) (hImage : (s.job j).image = some im)
    (hCleaned : (s.job j).cleaned = false) (hOpen : ∀ g ∈ (s.job j).group, (s.tile g).quenched = false) :
    ∃ t, exec (.jobAbort ctx j) s = .next t ∧ ((t.job j).state = .halted ∨ (t.job j).state = .draining)
      ∧ (∀ g ∈ (s.job j).group, (t.tile g).quenched = true ∧ (t.tile g).run = .halted ∧ (t.tile g).queue = [] ∧ (t.tile g).running = []
          ∧ (t.tile g).leaseEpoch = (s.tile g).leaseEpoch + 1)
      ∧ (im.regions = [] → (s.job j).commits = [] → (t.job j).state = .halted ∧ t.entry (0x6100 + j) 7 = 2) ∧ (im.outputHandles = [] → t.mem = s.mem)
      ∧ Safety.outcome t ctx (0x6100 + j) 1 OK := by
  have hLegal : s.jobLegal j 3 = true := by
    simp [State.jobLegal, hState]
  obtain ⟨u, hu, hEnds, hTiles, hHalts, hMem⟩ := abort_ends hj hState hImage hCleaned hOpen
  obtain ⟨d, x, hShape, hOutcome, hEntry⟩ := jobCommand_shows h hj (by decide) hLegal (u := u) hu
  have hJob : (s.jobCommand ctx j 3).job j = u.job j := by rw [hShape]; rfl
  have hTile (g : Nat) : (s.jobCommand ctx j 3).tile g = u.tile g := by rw [hShape]; rfl
  refine ⟨s.jobCommand ctx j 3, rfl, ?_, fun g hg => ?_, fun hRegions hCommits => ?_, fun hNone => ?_, hOutcome⟩
  · rw [hJob]; exact hEnds
  · obtain ⟨⟨hq, hr, hl⟩, hQueue, hRunning⟩ := hTiles g hg
    rw [hTile]
    exact ⟨hq, hr, hQueue, hRunning, hl⟩
  · obtain ⟨hHalted, hCompletion⟩ := hHalts hRegions hCommits
    rw [hJob, hEntry _ _ (by omega) (by omega)]
    exact ⟨hHalted, hCompletion⟩
  · rw [hShape]; exact hMem hNone

end Control

/-- Settles O18: each command of JobControl in its legal states, and the tiles as START sets them. -/
theorem jobControls : Obligations.JobControls := by
  unfold Obligations.JobControls
  refine ⟨fun _ _ _ h hj hState hFree hIdle => jobLoad_queues h hj hState hFree hIdle, fun s ctx j im h hj hState hImage => ?_,
    fun _ _ _ _ h hj hState hImage hCleaned hOpen => jobAbort_aborts h hj hState hImage hCleaned hOpen,
    fun _ _ _ h hj hState => jobRelease_empties h hj hState, fun _ _ _ _ h hj hState hImage => jobRearm_loads h hj hState hImage,
    fun s ctx j im h hj hState hImage => ?_⟩
  · obtain ⟨t, hNext, hRun, hBind, hJournal, hAt, hOutcome, hMem, hJobs, hTiles, -⟩ := jobStart_starts h hj hState hImage
    exact ⟨t, hNext, hRun, hBind, hJournal, hAt, hOutcome, hMem, hJobs, hTiles⟩
  · obtain ⟨t, hNext, -, -, -, -, -, -, -, -, hArmed⟩ := jobStart_starts h hj hState hImage
    exact ⟨t, hNext, fun g hg => (hArmed g hg).registers⟩

end Sys2Proof.Proofs
end

section
/-! PROOFS. O51 fails: a slot's content written while the claiming context has a group open (R37, R382). -/

namespace Sys2Proof.Proofs

open Sys2Proof.Machine

/-- A module whose context 0 holds the claim and has a group open. -/
def claimedInGroup : State :=
  { (State.reset.setEntry 0x9200 1 0).updContext 0 (fun c => { c with groupState := 1 }) with pke := { claimContext := some 0 } }

/-- With a group open the slot is not written: STATE_CONFLICT. -/
theorem claimedInGroup_conflicts : exec (.pkeSlotWrite 0 0 []) claimedInGroup = .next (claimedInGroup.record 0 0x9210 1 STATE_CONFLICT) := rfl

/-- Refutes O51: the clause of the slot's content asks only for a served context; the claiming context with an open group is served, and its write gets STATE_CONFLICT. -/
theorem not_pkeServes : ¬ Obligations.PkeServes := by
  unfold Obligations.PkeServes
  rintro ⟨-, -, hSlot, -⟩
  obtain ⟨t, hNext, -, -, ⟨hStatus, -⟩, -⟩ := hSlot claimedInGroup 0 0 [] (by decide) rfl (by decide) (by decide) List.nodup_nil
  rw [claimedInGroup_conflicts] at hNext
  cases hNext
  exact absurd hStatus (by decide)

end Sys2Proof.Proofs
end

section
/-! PROOFS. The key-stream engine's reads and signals: what they leave alone (R177, R184, R190). -/

namespace Sys2Proof.Proofs

open Sys2Proof.Machine

section Reads

variable {s t u : State} {k : Nat}

@[simp] theorem stream_setStream_same (k : Nat) (x : Stream) : (s.setStream k x).stream k = x := Laws.tab_get_put_same ..

theorem stream_setStream_ne (x : Stream) {i : Nat} (h : i ≠ k) : (s.setStream k x).stream i = s.stream i := Laws.tab_get_put_ne _ _ _ h

/-- Whether an operation to the host starts rests on the entries and the enables of the link that no request changes (R332). -/
theorem issueStatus_of_link (hLink : ∃ a q w, u.hostLink = { s.hostLink with tags := a, txQueue := q, tagWaiters := w }) (hUp : u.entry 0x5040 1 = s.entry 0x5040 1)
    (hBlobs : u.blobs = s.blobs) (hEntries : ∀ i k, k < 256 → i ≠ 0x4038 → i ≠ 0x5040 → u.entry i k = s.entry i k) (node opcode address : Nat) :
    u.issueStatus node opcode address = s.issueStatus node opcode address := by
  obtain ⟨a, q, w, hLink⟩ := hLink
  have hHost : u.hostRefusal opcode address = s.hostRefusal opcode address := by
    unfold State.hostRefusal State.hostUp State.secureStream
    rw [hLink, hUp, hEntries 0x5010 2 (by decide) (by decide) (by decide)]
  have hNode : u.route node = s.route node := by unfold State.route; rw [hBlobs]
  have hRoute : u.routePort node = s.routePort node := by
    simp only [State.routePort, hNode]
    by_cases hp : s.route node < 16
    · have hState : u.portState (s.route node) = s.portState (s.route node) := hEntries _ 1 (by decide) (by omega) (by omega)
      rw [hState]
    · rw [if_neg fun h => hp h.1, if_neg fun h => hp h.1]
  unfold State.issueStatus State.routeRefusal
  rw [hHost, hRoute]

/-- The host link's tags and queues may change, its enables and its state do not. -/
def sameLink (s u : State) : Prop :=
  (∃ a q w, u.hostLink = { s.hostLink with tags := a, txQueue := q, tagWaiters := w }) ∧ u.entry 0x5040 1 = s.entry 0x5040 1

theorem sameLink_trans (h : sameLink s t) (h' : sameLink t u) : sameLink s u := by
  obtain ⟨⟨_, _, _, e⟩, hUp⟩ := h
  obtain ⟨⟨_, _, _, e'⟩, hUp'⟩ := h'
  exact ⟨⟨_, _, _, by rw [e', e]⟩, hUp'.trans hUp⟩

theorem sameLink_bump {i l : Nat} (n : Nat) (hl : l < 256) (h : (i, l) ≠ (0x5040, 1)) : sameLink s (s.bump i l n) :=
  ⟨⟨_, _, _, rfl⟩, Laws.entry_setEntry_ne _ _ _ _ _ _ fun e => h (by
    obtain ⟨h1, h2⟩ := (Laws.entryKey_inj (by decide) hl).1 e
    rw [h1, h2])⟩

theorem sameLink_sendHost (r : RemoteOp) : sameLink s (s.sendHost r) := by
  unfold State.sendHost
  generalize List.range r.pieces.length = l
  induction l generalizing s with
  | nil => exact ⟨⟨_, _, _, rfl⟩, rfl⟩
  | cons i l ih =>
    refine sameLink_trans ?_ ih
    split
    · exact ⟨⟨_, _, _, rfl⟩, rfl⟩
    · unfold State.takeHostTag
      dsimp only
      split
      · exact ⟨⟨_, _, _, rfl⟩, rfl⟩
      · exact sameLink_trans (t := { s with hostLink := { s.hostLink with tagWaiters := s.hostLink.tagWaiters ++ [(r.tag, i)] } })
          ⟨⟨_, _, _, rfl⟩, rfl⟩ (sameLink_bump 1 (by decide) (by decide))

theorem sameLink_launchOp (r : RemoteOp) : sameLink s (s.launchOp r) := by
  unfold State.launchOp
  split
  · exact ⟨⟨_, _, _, rfl⟩, rfl⟩
  · next p _ =>
    have hSeq (q : Tab Nat) : sameLink s { s with seqNext := q } := ⟨⟨_, _, _, rfl⟩, rfl⟩
    exact sameLink_trans (hSeq _) (sameLink_trans (sameLink_bump (i := 0x4038) (l := 1) 1 (by decide) (by decide)) ⟨⟨_, _, _, rfl⟩, rfl⟩)

theorem sameLink_issueOp (node vl opcode address length operand : Nat) (data : List Byte) (issuer job opId : Nat) :
    sameLink s (s.issueOp node vl opcode address length operand data issuer job opId) := by
  have hPlain (r : List RemoteOp) (n : Nat) : sameLink s { s with remoteOps := r, nextTag := n } := ⟨⟨_, _, _, rfl⟩, rfl⟩
  unfold State.issueOp
  dsimp only
  split
  · exact sameLink_trans (hPlain _ _) (sameLink_trans (sameLink_bump (i := 0x5040) (l := 7) 1 (by decide) (by decide)) (sameLink_sendHost _))
  · split
    · exact ⟨⟨_, _, _, rfl⟩, rfl⟩
    · split
      · exact hPlain _ _
      · exact sameLink_trans (hPlain _ _) (sameLink_launchOp _)

/-- What the reads and signals of stream slot `k` leave alone: a step from `s` to `u` issues operations, counts, and marks that the stream has asked. -/
structure Asks (k : Nat) (s u : State) : Prop where
  shape : ∃ d st r n h o p q, u = { s with dict := d, streams := st, remoteOps := r, nextTag := n, hostLink := h, out := o, ports := p, seqNext := q }
  entries : ∀ i l, i < 0x7000 → l < 256 → i ≠ 0x4038 → i ≠ 0x5040 → u.entry i l = s.entry i l
  status : ∀ node opcode address, u.issueStatus node opcode address = s.issueStatus node opcode address
  others : ∀ i, i ≠ k → u.stream i = s.stream i
  own : ∃ a b g, u.stream k = { s.stream k with asked := a, deferredWindow := b, signals := g }

namespace Asks

theorem refl (s : State) : Asks k s s :=
  ⟨⟨_, _, _, _, _, _, _, _, rfl⟩, fun _ _ _ _ _ _ => rfl, fun _ _ _ => rfl, fun _ _ => rfl, ⟨_, _, _, rfl⟩⟩

theorem trans (h : Asks k s t) (h' : Asks k t u) : Asks k s u where
  shape := by
    obtain ⟨_, _, _, _, _, _, _, _, rfl⟩ := h.shape
    obtain ⟨_, _, _, _, _, _, _, _, rfl⟩ := h'.shape
    exact ⟨_, _, _, _, _, _, _, _, rfl⟩
  entries i l hi hl h1 h2 := (h'.entries i l hi hl h1 h2).trans (h.entries i l hi hl h1 h2)
  status n o a := (h'.status n o a).trans (h.status n o a)
  others i hi := (h'.others i hi).trans (h.others i hi)
  own := by
    obtain ⟨_, _, _, e⟩ := h.own
    obtain ⟨_, _, _, e'⟩ := h'.own
    exact ⟨_, _, _, by rw [e', e]⟩

theorem mem (h : Asks k s u) : u.mem = s.mem := by obtain ⟨_, _, _, _, _, _, _, _, rfl⟩ := h.shape; rfl
theorem tiles (h : Asks k s u) : u.tiles = s.tiles := by obtain ⟨_, _, _, _, _, _, _, _, rfl⟩ := h.shape; rfl
theorem jobs (h : Asks k s u) : u.jobs = s.jobs := by obtain ⟨_, _, _, _, _, _, _, _, rfl⟩ := h.shape; rfl
theorem openWaits (h : Asks k s u) : u.openWaits = s.openWaits := by obtain ⟨_, _, _, _, _, _, _, _, rfl⟩ := h.shape; rfl

theorem foldl {α : Type} {f : State → α → State} (hf : ∀ u x, Asks k u (f u x)) (l : List α) : ∀ s, Asks k s (l.foldl f s) := by
  induction l with
  | nil => exact refl
  | cons x l ih => exact fun s => (hf s x).trans (ih _)

theorem issueOp (node vl opcode address length operand : Nat) (data : List Byte) (issuer job opId : Nat) :
    Asks k s (s.issueOp node vl opcode address length operand data issuer job opId) := by
  have hFrame := IssueFrame.issueOp (s := s) node vl opcode address length operand data issuer job opId
  obtain ⟨hLink, hUp⟩ := sameLink_issueOp (s := s) node vl opcode address length operand data issuer job opId
  obtain ⟨_, _, _, _, _, _, _, e⟩ := hFrame.shape
  have hStream (i : Nat) : (s.issueOp node vl opcode address length operand data issuer job opId).stream i = s.stream i := by rw [e]; rfl
  exact ⟨⟨_, _, _, _, _, _, _, _, e⟩, fun i l _ hl => hFrame.entries i l hl, issueStatus_of_link hLink hUp (by rw [e]) hFrame.entries, fun i _ => hStream i,
    _, _, _, hStream k⟩

/-- A counter of the engine's, or of its jobs, is raised (Table 8-10). -/
theorem bump {i l : Nat} (n : Nat) (hi : 0x7000 ≤ i) (hl : l < 256) : Asks k s (s.bump i l n) := by
  have hEntry (a b : Nat) (ha : a < 0x7000) (hb : b < 256) : (s.bump i l n).entry a b = s.entry a b :=
    Laws.entry_setEntry_index _ _ _ _ _ _ hl hb fun e => by omega
  exact ⟨⟨_, _, _, _, _, _, _, _, rfl⟩, fun a b ha hb _ _ => hEntry a b ha hb,
    issueStatus_congr rfl rfl (fun a b hb _ ha => hEntry a b (by omega) hb), fun _ _ => rfl, ⟨_, _, _, rfl⟩⟩

/-- The stream is marked, and keeps all else. -/
theorem mark (a b : Bool) (g : Nat) : Asks k s (s.setStream k { s.stream k with asked := a, deferredWindow := b, signals := g }) :=
  ⟨⟨_, _, _, _, _, _, _, _, rfl⟩, fun _ _ _ _ _ _ => rfl, issueStatus_congr rfl rfl fun _ _ _ _ _ => rfl, fun _ hi => stream_setStream_ne _ hi,
    _, _, _, stream_setStream_same ..⟩

theorem holdRate : Asks k s (s.holdRate k) := by
  unfold State.holdRate
  dsimp only
  split
  · exact refl s
  · exact (bump (i := 0x7080 + (s.stream k).job) (l := 5) 1 (by omega) (by decide)).trans (mark _ true _)

/-- An operation that cannot leave is counted (Table 14-6). -/
theorem countFail (code : Nat) : Asks k s (s.countFail false code) := by
  have hCount (l : Nat) (hl : l < 256) (h1 : l ≠ 1) : Asks k s (s.bump 0x4038 l 1) := by
    have hEntry (a b : Nat) (hb : b < 256) (ha : a ≠ 0x4038) : (s.bump 0x4038 l 1).entry a b = s.entry a b :=
      Laws.entry_setEntry_index _ _ _ _ _ _ hl hb fun e => ha e
    exact ⟨⟨_, _, _, _, _, _, _, _, rfl⟩, fun a b _ hb ha _ => hEntry a b hb ha,
      issueStatus_of_link ⟨_, _, _, rfl⟩ (hEntry 0x5040 1 (by decide) (by decide)) rfl fun a b hb ha _ => hEntry a b hb ha, fun _ _ => rfl, ⟨_, _, _, rfl⟩⟩
  unfold State.countFail
  split
  · rw [if_neg (by decide)]
    exact hCount 3 (by decide) (by decide)
  · split
    · exact hCount 4 (by decide) (by decide)
    · split
      · exact hCount 5 (by decide) (by decide)
      · rw [Bool.false_and, if_neg (by decide)]
        exact refl s

/-- A member's signal to another device (R190). -/
theorem memberSignal {e : StreamEntry} (h : s.isSelf (nodeOf (Config.mcastCounter e.mcastGroup)) = false) : Asks k s (s.memberSignal k e) := by
  unfold State.memberSignal
  dsimp only
  generalize hv : s.setStream k { s.stream k with signals := (s.stream k).signals + 1 } = v
  have hMark : Asks k s v := hv ▸ mark _ _ _
  have hSelf : v.isSelf (nodeOf (Config.mcastCounter e.mcastGroup)) = false := by rw [← hv]; exact h
  rw [hSelf, if_neg (by decide)]
  split
  · exact hMark.trans (countFail _)
  · exact hMark.trans (issueOp ..)

/-- The signals that a stream of `e` owes, where the owner of its group is another device (R190). -/
theorem sendSignals (h : ∀ ie, s.streamEntry (s.stream k) = some ie → ie.2.sourceKind = 3 → s.isSelf (nodeOf (Config.mcastCounter ie.2.mcastGroup)) = false) :
    Asks k s (s.sendSignals k) := by
  have hFold (e : StreamEntry) (l : List Nat) : ∀ v : State, v.isSelf (nodeOf (Config.mcastCounter e.mcastGroup)) = false →
      Asks k v (l.foldl (fun s _ => s.memberSignal k e) v) := by
    induction l with
    | nil => exact fun v _ => refl v
    | cons i l ih =>
      intro v hv
      have hStep := memberSignal (k := k) hv
      refine hStep.trans (ih _ ?_)
      rw [State.isSelf, hStep.entries 0x4010 1 (by decide) (by decide) (by decide) (by decide)]
      exact hv
  unfold State.sendSignals
  dsimp only
  cases hEntry : s.streamEntry (s.stream k) with
  | none => exact refl s
  | some ie =>
    dsimp only
    split
    · exact refl s
    · next hKind => exact hFold _ _ _ (h ie hEntry (not_not.1 hKind))

/-- The read of a stream's next piece, where its source can be read (R177, R184). -/
theorem readAhead (h : ∀ ie, s.streamEntry (s.stream k) = some ie → ie.2.sourceKind = 1 ∨ ie.2.sourceKind = 2 →
    s.issueStatus (nodeOf ie.2.source) 2 (localOf ie.2.source) = OK) : Asks k s (s.readAhead k) := by
  unfold State.readAhead
  dsimp only
  cases hEntry : s.streamEntry (s.stream k) with
  | none => exact refl s
  | some ie =>
    dsimp only
    split
    · exact refl s
    · next hReads =>
      have hKind : ie.2.sourceKind = 1 ∨ ie.2.sourceKind = 2 := by
        rw [not_or, not_and_or, not_not, not_not] at hReads
        exact hReads.1
      rw [State.meter]
      split
      · rw [if_neg (by simp), h ie hEntry hKind, if_neg (by decide)]
        exact (mark true _ _).trans (foldl (fun u i => issueOp ..) _ _)
      · exact holdRate

end Asks

/-- A stream's source is reached by the host link, the routes and the entries below Geyser's own (R184). -/
theorem sourceReach_keeps (hLink : u.hostLink = s.hostLink) (hBlobs : u.blobs = s.blobs) (hEntries : ∀ a b, a < 0x7000 → b < 256 → u.entry a b = s.entry a b)
    (e : StreamEntry) : Safety.sourceReach u e = Safety.sourceReach s e := by
  have hStatus := issueStatus_congr (u := u) (s := s) hLink hBlobs fun a b hb _ ha => hEntries a b (by omega) hb
  simp only [Safety.sourceReach, State.isSelf, hStatus, hEntries 0x4010 1 (by decide) (by decide)]

/-- Where Geyser's operations for a stream can leave, its signals and its reads change nothing but the stream's marks (R184, R190). -/
theorem reads_asks {e : StreamEntry} {im : Image} (h : s.streamEntry (s.stream k) = some (im, e)) (hReach : Safety.sourceReach s e = true) :
    Asks k s ((s.sendSignals k).readAhead k) ∧ Asks k s (s.readAhead k) := by
  have hParts : (e.sourceKind = 1 ∨ e.sourceKind = 2 → s.issueStatus (nodeOf e.source) 2 (localOf e.source) = OK)
      ∧ (e.sourceKind = 3 → s.isSelf (nodeOf (Config.mcastCounter e.mcastGroup)) = false) := by
    unfold Safety.sourceReach at hReach
    obtain ⟨hStatus, hOwner⟩ := Bool.and_eq_true_iff.1 hReach
    exact ⟨fun hKind => by rcases hKind with hKind | hKind <;> simpa [hKind] using hStatus, fun hKind => by simpa [hKind] using hOwner⟩
  obtain ⟨hStatus, hOwner⟩ := hParts
  have hSignals : Asks k s (s.sendSignals k) := Asks.sendSignals fun ie he => by
    rw [h, Option.some.injEq] at he
    rw [← he]
    exact hOwner
  refine ⟨hSignals.trans (Asks.readAhead fun ie he => ?_), Asks.readAhead fun ie he => ?_⟩
  · obtain ⟨_, _, _, hOwn⟩ := hSignals.own
    have hSame : (s.sendSignals k).streamEntry ((s.sendSignals k).stream k) = s.streamEntry (s.stream k) := by
      rw [hOwn]
      unfold State.streamEntry State.job
      rw [hSignals.jobs]
    rw [hSame, h, Option.some.injEq] at he
    rw [← he, hSignals.status]
    exact hStatus
  · rw [h, Option.some.injEq] at he
    rw [← he]
    exact hStatus

end Reads

end Sys2Proof.Proofs
end

section
/-! PROOFS. Key streams open, wait for a slot, are metered, and check their header (R177, R178, R181). -/

namespace Sys2Proof.Proofs

open Sys2Proof.Machine

section Opens

variable {s u : State} {k j entry t index sa : Nat} {im : Image} {e : StreamEntry} {out : Option Nat} {op : LongOp} {o : LopInst}

/-- The entry of a stream, from its job's image. -/
theorem streamEntry_of {x : Stream} (hImage : (s.job x.job).image = some im) (hAt : im.streams[x.entry]? = some e) : s.streamEntry x = some (im, e) := by
  unfold State.streamEntry
  rw [hImage, Option.bind_some, hAt]
  rfl

/-- Reading rights on a range rest on the regions and on the device's own node. -/
theorem sourceGranted_congr (h : u.entry 0x4010 1 = s.entry 0x4010 1) (im : Image) (e : StreamEntry) : u.sourceGranted im e = s.sourceGranted im e := by
  have hSelf : u.isSelf = s.isSelf := funext fun n => by unfold State.isSelf; rw [h]
  simp only [State.sourceGranted, State.regionGrants, State.reachable, hSelf, Bool.false_and]

/-- A stream as its open leaves it: in slot `k` for entry `entry` of job `j`, OPENING, nothing read (R177). -/
structure Opened (k j entry : Nat) (out : Option Nat) (s u : State) : Prop where
  mem : u.mem = s.mem
  tiles : u.tiles = s.tiles
  jobs : u.jobs = s.jobs
  openWaits : u.openWaits = s.openWaits
  others : ∀ i, i ≠ k → u.stream i = s.stream i
  state : (u.stream k).state = 1
  bound : (u.stream k).bound = true
  job : (u.stream k).job = j
  entry : (u.stream k).entry = entry
  out : (u.stream k).out = out
  bytesRead : (u.stream k).bytesRead = 0

/-- An open binds its slot, where its source is granted and can be reached (R177, R184). -/
theorem bindStream_opens (hImage : (s.job j).image = some im) (hAt : im.streams[entry]? = some e) (hGranted : s.sourceGranted im e = true)
    (hReach : Safety.sourceReach s e = true) : Opened k j entry out s (s.bindStream k j entry im e out) := by
  obtain ⟨l, hl⟩ : ∃ l, s.yieldSlot k = { s with lateStreams := l } := ⟨_, rfl⟩
  obtain ⟨x, hx, hState, hBound, hJob, hEntry, hOut, hBytes⟩ : ∃ x, ({ s with lateStreams := l } : State).newStream k j entry e out = x
      ∧ x.state = 1 ∧ x.bound = true ∧ x.job = j ∧ x.entry = entry ∧ x.out = out ∧ x.bytesRead = 0 := ⟨_, rfl, rfl, rfl, rfl, rfl, rfl, rfl⟩
  obtain ⟨v, hv, ⟨d, hd⟩, hEntries⟩ : ∃ v, (((({ s with lateStreams := l } : State).setStream k x).bindCheck (streamContext k) 0 j).bump 0x7020 1 1).bump (0x7080 + j) 2 1 = v
      ∧ (∃ d, v = { ({ s with lateStreams := l } : State).setStream k x with dict := d }) ∧ ∀ a b, a < 0x7000 → b < 256 → v.entry a b = s.entry a b := by
    obtain ⟨d, hd⟩ := putCheck_shape (s := ({ s with lateStreams := l } : State).setStream k x) (n := streamContext k) 1 0 (2 ^ 64 - 1) 0 j
    refine ⟨_, rfl, ?_, fun a b ha hb => ?_⟩
    · rw [State.bindCheck, hd]
      exact ⟨_, rfl⟩
    · rw [State.bump, Laws.entry_setEntry_index _ _ _ _ _ _ (by decide) hb (by omega), State.bump,
        Laws.entry_setEntry_index _ _ _ _ _ _ (by decide) hb (by omega), State.bindCheck, putCheck_other _ _ _ _ _ (by omega) hb]
      rfl
  have hStream : v.stream k = x := by rw [hd]; exact stream_setStream_same ..
  have hJobs : v.jobs = s.jobs := by rw [hd]; rfl
  have hSource : v.streamEntry (v.stream k) = some (im, e) := by
    rw [hStream]
    refine streamEntry_of ?_ (by rw [hEntry]; exact hAt)
    rw [hJob, State.job, hJobs]
    exact hImage
  have hvReach : Safety.sourceReach v e = true := (sourceReach_keeps (by rw [hd]; rfl) (by rw [hd]; rfl) hEntries e).trans hReach
  have hAsks := (reads_asks hSource hvReach).1
  have hBind : s.bindStream k j entry im e out = (v.sendSignals k).readAhead k := by
    unfold State.bindStream
    dsimp only
    rw [hl, hx, hv, sourceGranted_congr (hEntries 0x4010 1 (by decide) (by decide)), if_pos hGranted]
  rw [hBind]
  obtain ⟨_, _, _, hOwn⟩ := hAsks.own
  rw [hStream] at hOwn
  refine ⟨?_, ?_, ?_, ?_, fun i hi => ?_, ?_, ?_, ?_, ?_, ?_, ?_⟩
  · rw [hAsks.mem, hd]; rfl
  · rw [hAsks.tiles, hd]; rfl
  · rw [hAsks.jobs, hJobs]
  · rw [hAsks.openWaits, hd]; rfl
  · rw [hAsks.others i hi, hd]
    exact stream_setStream_ne _ hi
  all_goals rw [hOwn]
  exacts [hState, hBound, hJob, hEntry, hOut, hBytes]

theorem keystreamOpen_binds (h : Safety.lopReady s t index sa j im op o) (hCode : op.code = lopKeystream) (hAt : im.streams[bits op.tab 0 8]? = some e)
    (hOpened : (s.job j).opened.contains (bits op.tab 0 8) = false) (hWaits : s.openWaits = []) (hFree : s.freeStream = some k)
    (hGranted : s.sourceGranted im e = true) (hReach : Safety.sourceReach s e = true) :
    ∃ s2, exec (.keystreamOpen t index sa) s = .next s2 ∧ (s2.stream k).state = 1 ∧ (s2.stream k).bound = true ∧ (s2.stream k).job = j
      ∧ (s2.stream k).entry = bits op.tab 0 8 ∧ (s2.stream k).bytesRead = 0 ∧ (s2.job j).opened = (s.job j).opened ++ [bits op.tab 0 8]
      ∧ (∀ i, i ≠ k → s2.stream i = s.stream i) ∧ s2.openWaits = [] ∧ (s2.tile t).nextOp = (s.tile t).nextOp + 1 ∧ (s2.tile t).queue = (s.tile t).queue
      ∧ s2.mem = s.mem := by
  obtain ⟨v, hv⟩ : ∃ v, v = settledMisses s t := ⟨_, rfl⟩
  have hTile : v.tile t = s.tile t := hv ▸ settledMisses_tile h.1
  obtain ⟨hvDict, hvJobs, hvStreams, hvWaits, hvMem, hvLink, hvBlobs⟩ : v.dict = s.dict ∧ v.jobs = s.jobs ∧ v.streams = s.streams ∧ v.openWaits = s.openWaits
      ∧ v.mem = s.mem ∧ v.hostLink = s.hostLink ∧ v.blobs = s.blobs := by rw [hv]; exact ⟨rfl, rfl, rfl, rfl, rfl, rfl, rfl⟩
  have hStep : exec (.keystreamOpen t index sa) s = .next ((v.openStream t j im o).advance t) :=
    (show exec (.keystreamOpen t index sa) s = execKeystreamOpen t index sa s from rfl).trans
      (hv ▸ (Laws.onTile_next h.1.1).trans (congrArg Host.Outcome.next (issueLop_issues h hCode _)))
  obtain ⟨-, -, hImage, -, hInstance, -⟩ := h
  have hTab : bits o.op.tab 0 8 = bits op.tab 0 8 := by rw [hInstance]; rfl
  have hvJob : v.job j = s.job j := by rw [State.job, hvJobs]; rfl
  obtain ⟨w, hw, hwJob, hwShape⟩ : ∃ w, w = ((v.updJob j fun x => { x with opens := x.opens + 1 }).updTile t fun x => { x with nextOp := x.nextOp + 1 }).updJob j
        (fun x => { x with opened := if x.opened.contains (bits op.tab 0 8) then x.opened else x.opened ++ [bits op.tab 0 8]
                           keysMatched := x.keysMatched.filter (fun i => i ≠ bits op.tab 0 8), keyHeaders := Tab.erase x.keyHeaders (bits op.tab 0 8) })
      ∧ ((w.job j).image = (v.job j).image ∧ (w.job j).opened = if (v.job j).opened.contains (bits op.tab 0 8) then (v.job j).opened else (v.job j).opened ++ [bits op.tab 0 8])
      ∧ w.streams = v.streams ∧ w.openWaits = v.openWaits ∧ w.tile t = { v.tile t with nextOp := (v.tile t).nextOp + 1 } ∧ w.mem = v.mem ∧ w.dict = v.dict
      ∧ w.hostLink = v.hostLink ∧ w.blobs = v.blobs := by
    refine ⟨_, rfl, ?_, rfl, rfl, ?_, rfl, rfl, rfl, rfl⟩
    · have hOpens : ((v.updJob j fun x => { x with opens := x.opens + 1 }).updTile t fun x => { x with nextOp := x.nextOp + 1 }).job j
          = { v.job j with opens := (v.job j).opens + 1 } := Laws.job_setJob_same ..
      rw [State.updJob, Laws.job_setJob_same, hOpens]
      exact ⟨rfl, rfl⟩
    · have hUpd (x : State) (f : Job → Job) : (x.updJob j f).tile t = x.tile t := rfl
      rw [hUpd, Laws.tile_updTile_same, hUpd]
  obtain ⟨hwStreams, hwWaits, hwTile, hwMem, hwDict, hwLink, hwBlobs⟩ := hwShape
  have hwStream (i : Nat) : w.stream i = s.stream i := by rw [State.stream, hwStreams, hvStreams]; rfl
  have hwEntry (a b : Nat) : w.entry a b = s.entry a b := by rw [State.entry, hwDict, hvDict]; rfl
  have hwFree : w.freeStream = some k := by simp only [State.freeStream, hwStream]; exact hFree
  obtain ⟨out, hOpen⟩ : ∃ out, v.openStream t j im o = w.bindStream k j (bits op.tab 0 8) im e out := by
    refine ⟨((v.job j).openOuts[(v.job j).opens]?).getD none, ?_⟩
    unfold State.openStream
    dsimp only
    rw [hTab, hAt]
    dsimp only
    rw [← hw, hwWaits, hvWaits, hWaits, hwFree, hvJob, hOpened, if_neg (by simp)]
  have hwGranted : w.sourceGranted im e = true := (sourceGranted_congr (hwEntry _ _) im e).trans hGranted
  have hwReach : Safety.sourceReach w e = true :=
    (sourceReach_keeps (hwLink.trans hvLink) (hwBlobs.trans hvBlobs) (fun a b _ _ => hwEntry a b) e).trans hReach
  have hBound := bindStream_opens (k := k) (out := out) (hwJob.1.trans ((congrArg Job.image hvJob).trans hImage)) hAt hwGranted hwReach
  rw [hOpen] at hStep
  generalize w.bindStream k j (bits op.tab 0 8) im e out = u at hStep hBound
  have huTile : u.tile t = { s.tile t with nextOp := (s.tile t).nextOp + 1 } := by
    rw [State.tile, hBound.tiles]
    exact hwTile.trans (by rw [hTile])
  obtain ⟨_, _, _, hAdvance⟩ := advance_tile (s := u) (t := t)
  refine ⟨_, hStep, hBound.state, hBound.bound, hBound.job, hBound.entry, hBound.bytesRead, ?_, fun i hi => (hBound.others i hi).trans (hwStream i), ?_, ?_, ?_, ?_⟩
  · change (u.job j).opened = _
    rw [State.job, hBound.jobs]
    exact hwJob.2.trans (by rw [hvJob, hOpened]; rfl)
  · exact hBound.openWaits.trans (hwWaits.trans (hvWaits.trans hWaits))
  · rw [hAdvance, huTile]
    rfl
  · rw [hAdvance, huTile]
    rfl
  · exact hBound.mem.trans (hwMem.trans hvMem)

theorem streamSlotBind_binds {w : OpenWait} {rest : List OpenWait} (hWaits : s.openWaits = w :: rest) (hFree : s.freeStream = some k)
    (hImage : (s.job w.job).image = some im) (hAt : im.streams[w.entry]? = some e) (hGranted : s.sourceGranted im e = true) (hReach : Safety.sourceReach s e = true) :
    ∃ s2, exec .streamSlotBind s = .next s2 ∧ s2.openWaits = rest ∧ (s2.stream k).state = 1 ∧ (s2.stream k).bound = true ∧ (s2.stream k).job = w.job
      ∧ (s2.stream k).entry = w.entry ∧ (s2.stream k).out = w.out ∧ (s2.tile w.tile).runningOp w.opId = none ∧ (∀ i, i ≠ k → s2.stream i = s.stream i)
      ∧ s2.mem = s.mem := by
  obtain ⟨v, hv, hvImage, hvGranted, hvReach, hvWaits, hvTile, hvStream, hvMem⟩ : ∃ v, v = ({ s with openWaits := rest } : State).updTile w.tile (fun x => x.retire w.opId)
      ∧ (v.job w.job).image = some im ∧ v.sourceGranted im e = true ∧ Safety.sourceReach v e = true ∧ v.openWaits = rest
      ∧ v.tile w.tile = (s.tile w.tile).retire w.opId ∧ v.stream = s.stream ∧ v.mem = s.mem :=
    ⟨_, rfl, hImage, hGranted, hReach, rfl, Laws.tile_updTile_same .., rfl, rfl⟩
  have hBound := bindStream_opens (k := k) (out := w.out) hvImage hAt hvGranted hvReach
  have hStep : exec .streamSlotBind s = .next (v.bindStream k w.job w.entry im e w.out) := by
    change Host.Outcome.next s.slotBind = _
    unfold State.slotBind
    rw [hWaits, hFree]
    dsimp only
    rw [hImage]
    dsimp only
    rw [hAt, hv]
  refine ⟨_, hStep, hBound.openWaits.trans hvWaits, hBound.state, hBound.bound, hBound.job, hBound.entry, hBound.out, ?_,
    fun i hi => (hBound.others i hi).trans (congrFun hvStream i), hBound.mem.trans hvMem⟩
  have hTile : (v.bindStream k w.job w.entry im e w.out).tile w.tile = (s.tile w.tile).retire w.opId := by
    rw [State.tile, hBound.tiles]
    exact hvTile
  rw [hTile]
  refine List.find?_eq_none.2 fun o ho => ?_
  simpa using (List.mem_filter.1 ho).2

/-! ### Metering windows -/

/-- What the metering of streams leaves alone: the streams' metering and asking may change, and operations are issued. -/
structure Metered (s u : State) : Prop where
  shape : ∃ d st r n h o p q, u = { s with dict := d, streams := st, remoteOps := r, nextTag := n, hostLink := h, out := o, ports := p, seqNext := q }
  node : u.entry 0x4010 1 = s.entry 0x4010 1
  status : ∀ node opcode address, u.issueStatus node opcode address = s.issueStatus node opcode address
  streams : ∀ i, ∃ a b g w, u.stream i = { s.stream i with asked := a, deferredWindow := b, signals := g, windowBytes := w }

namespace Metered

variable {t : State}

theorem refl (s : State) : Metered s s := ⟨⟨_, _, _, _, _, _, _, _, rfl⟩, rfl, fun _ _ _ => rfl, fun _ => ⟨_, _, _, _, rfl⟩⟩

theorem trans (h : Metered s t) (h' : Metered t u) : Metered s u where
  shape := by
    obtain ⟨_, _, _, _, _, _, _, _, rfl⟩ := h.shape
    obtain ⟨_, _, _, _, _, _, _, _, rfl⟩ := h'.shape
    exact ⟨_, _, _, _, _, _, _, _, rfl⟩
  node := h'.node.trans h.node
  status n o a := (h'.status n o a).trans (h.status n o a)
  streams i := by
    obtain ⟨_, _, _, _, e⟩ := h.streams i
    obtain ⟨_, _, _, _, e'⟩ := h'.streams i
    exact ⟨_, _, _, _, by rw [e', e]⟩

theorem asks (h : Asks k s u) : Metered s u := by
  refine ⟨h.shape, h.entries _ _ (by decide) (by decide) (by decide) (by decide), h.status, fun i => ?_⟩
  by_cases hi : i = k
  · obtain ⟨_, _, _, e⟩ := h.own
    exact ⟨_, _, _, _, by rw [hi, e]⟩
  · exact ⟨_, _, _, _, h.others i hi⟩

theorem set (b : Bool) (w : Nat) : Metered s (s.setStream k { s.stream k with windowBytes := w, deferredWindow := b }) := by
  refine ⟨⟨_, _, _, _, _, _, _, _, rfl⟩, rfl, issueStatus_congr rfl rfl fun _ _ _ _ _ => rfl, fun i => ?_⟩
  by_cases hi : i = k
  · exact ⟨_, _, _, _, by rw [hi, stream_setStream_same]⟩
  · exact ⟨_, _, _, _, stream_setStream_ne _ hi⟩

theorem jobs (h : Metered s u) : u.jobs = s.jobs := by obtain ⟨_, _, _, _, _, _, _, _, rfl⟩ := h.shape; rfl

theorem streamEntry (h : Metered s u) (i : Nat) : u.streamEntry (u.stream i) = s.streamEntry (s.stream i) := by
  obtain ⟨_, _, _, _, e⟩ := h.streams i
  rw [e]
  unfold State.streamEntry State.job
  rw [h.jobs]

theorem sourceReach (h : Metered s u) (e : StreamEntry) : Safety.sourceReach u e = Safety.sourceReach s e := by
  simp only [Safety.sourceReach, State.isSelf, h.status, h.node]

end Metered

/-- One stream's windows have passed (R177): its bytes of the windows gone by are given back, and it may read again. -/
theorem nextWindows_gives (m i : Nat) (hReach : ∀ ie, s.streamEntry (s.stream i) = some ie → Safety.sourceReach s ie.2 = true) :
    Metered s (s.nextWindows m i) ∧ (∀ k, k ≠ i → (s.nextWindows m i).stream k = s.stream k)
      ∧ ∀ ie, s.streamEntry (s.stream i) = some ie → ((s.nextWindows m i).stream i).windowBytes = (s.stream i).windowBytes - m * ie.2.budget := by
  cases hEntry : s.streamEntry (s.stream i) with
  | none =>
    have hSame : s.nextWindows m i = s := by unfold State.nextWindows; dsimp only; rw [hEntry]
    rw [hSame]
    exact ⟨Metered.refl s, fun _ _ => rfl, fun ie h => by cases h⟩
  | some ie =>
    obtain ⟨im, e⟩ := ie
    obtain ⟨v, hv, hCount, hSame⟩ : ∃ v, (if (s.stream i).bound ∧ 0 < min m (((s.stream i).windowBytes - 1) / e.budget - 1)
        then s.bump (0x7080 + (s.stream i).job) 5 (min m (((s.stream i).windowBytes - 1) / e.budget - 1)) else s) = v ∧ Asks i s v ∧ v.stream = s.stream := by
      refine ⟨_, rfl, ?_, ?_⟩
      · split
        · exact Asks.bump _ (by omega) (by decide)
        · exact Asks.refl s
      · split <;> rfl
    obtain ⟨b, hb⟩ : ∃ b, b = decide (m ≤ ((s.stream i).windowBytes - 1) / e.budget - 1) := ⟨_, rfl⟩
    obtain ⟨w, hw, hSet⟩ : ∃ w, v.setStream i { s.stream i with windowBytes := (s.stream i).windowBytes - m * e.budget, deferredWindow := b } = w ∧ Metered v w :=
      ⟨_, rfl, hSame ▸ Metered.set b _⟩
    have hStep : s.nextWindows m i = w.readAhead i := by
      unfold State.nextWindows
      dsimp only
      rw [hEntry]
      dsimp only
      rw [hv, ← hb, hw]
    have hMetered := (Metered.asks hCount).trans hSet
    have hwEntry : w.streamEntry (w.stream i) = some (im, e) := (hMetered.streamEntry i).trans hEntry
    have hAsks := (reads_asks hwEntry ((hMetered.sourceReach e).trans (hReach _ hEntry))).2
    rw [hStep]
    refine ⟨hMetered.trans (Metered.asks hAsks), fun k hk => ?_, fun ie h => ?_⟩
    · rw [hAsks.others k hk, ← hw, stream_setStream_ne _ hk, hSame]
    · cases h
      obtain ⟨_, _, _, hOwn⟩ := hAsks.own
      rw [hOwn, ← hw, stream_setStream_same]

/-- The windows of a list of streams have passed. -/
theorem nextWindows_all (m : Nat) (l : List Nat) (hNodup : l.Nodup) : ∀ s : State,
    (∀ i ∈ l, ∀ ie, s.streamEntry (s.stream i) = some ie → Safety.sourceReach s ie.2 = true) →
    Metered s (l.foldl (fun t k => t.nextWindows m k) s) ∧ (∀ k, k ∉ l → (l.foldl (fun t k => t.nextWindows m k) s).stream k = s.stream k)
      ∧ ∀ k ∈ l, ∀ ie, s.streamEntry (s.stream k) = some ie →
        ((l.foldl (fun t k => t.nextWindows m k) s).stream k).windowBytes = (s.stream k).windowBytes - m * ie.2.budget := by
  induction l with
  | nil => exact fun s _ => ⟨Metered.refl s, fun _ _ => rfl, fun k hk => absurd hk List.not_mem_nil⟩
  | cons a l ih =>
    intro s hReach
    obtain ⟨hNot, hRest⟩ := List.nodup_cons.1 hNodup
    obtain ⟨hFirst, hOther, hOwn⟩ := nextWindows_gives m a (hReach a List.mem_cons_self)
    obtain ⟨hAll, hOthers, hOwns⟩ := ih hRest (s.nextWindows m a) fun i hi ie he => by
      rw [hFirst.streamEntry] at he
      exact (hFirst.sourceReach _).trans (hReach i (List.mem_cons_of_mem _ hi) ie he)
    refine ⟨hFirst.trans hAll, fun k hk => ?_, fun k hk ie he => ?_⟩
    · rw [List.mem_cons, not_or] at hk
      exact (hOthers k hk.2).trans (hOther k hk.1)
    · by_cases hka : k = a
      · subst hka
        exact (congrArg Machine.Stream.windowBytes (hOthers k hNot)).trans (hOwn ie he)
      · refine (hOwns k ((List.mem_cons.1 hk).resolve_left hka) ie ((hFirst.streamEntry k).trans he)).trans ?_
        rw [hOther k hka]

theorem rateWindow_gives {m : Nat} (hPassed : s.rateWindowAt < s.fabricTime / 1000) (hm : m = s.fabricTime / 1000 - s.rateWindowAt)
    (hReach : Safety.sourcesReach s = true) (hk : k < 16) (hEntry : s.streamEntry (s.stream k) = some (im, e)) :
    ∃ s2, exec .rateWindow s = .next s2 ∧ s2.rateWindowAt = s.fabricTime / 1000
      ∧ (s2.stream k).windowBytes = (s.stream k).windowBytes - m * e.budget ∧ (s2.stream k).state = (s.stream k).state
      ∧ (s2.stream k).bytesRead = (s.stream k).bytesRead ∧ s2.tiles = s.tiles ∧ s2.mem = s.mem ∧ s2.jobs = s.jobs := by
  obtain ⟨v, hv, hvStreams, hvEntry, hvAt, hvTiles, hvMem, hvJobs, hvReach⟩ : ∃ v, v = { s with rateWindowAt := s.fabricTime / 1000 } ∧ v.stream = s.stream
      ∧ v.streamEntry = s.streamEntry ∧ v.rateWindowAt = s.fabricTime / 1000 ∧ v.tiles = s.tiles ∧ v.mem = s.mem ∧ v.jobs = s.jobs
      ∧ Safety.sourceReach v = Safety.sourceReach s := ⟨{ s with rateWindowAt := s.fabricTime / 1000 }, rfl, rfl, rfl, rfl, rfl, rfl, rfl, rfl⟩
  obtain ⟨hMetered, -, hOwn⟩ := nextWindows_all m (List.range 16) List.nodup_range v fun i hi ie he => by
    have hAll := List.all_eq_true.1 hReach i hi
    rw [hvStreams, hvEntry] at he
    rw [he] at hAll
    rw [hvReach]
    exact hAll
  have hStep : exec .rateWindow s = .next ((List.range 16).foldl (fun t k => t.nextWindows m k) v) := by
    change execRateWindow s = _
    unfold execRateWindow
    rw [if_pos hPassed, hm, hv]
  have hBytes := hOwn k (List.mem_range.2 hk) (im, e) (by rw [hvStreams, hvEntry]; exact hEntry)
  generalize (List.range 16).foldl (fun t k => t.nextWindows m k) v = u at hMetered hStep hBytes
  obtain ⟨_, _, _, _, hSame⟩ := hMetered.streams k
  obtain ⟨_, _, _, _, _, _, _, _, hShape⟩ := hMetered.shape
  refine ⟨u, hStep, ?_, ?_, ?_, ?_, ?_, ?_, ?_⟩
  · rw [hShape]; exact hvAt
  · rw [hBytes, hvStreams]
  · rw [hSame, hvStreams]
  · rw [hSame, hvStreams]
  · rw [hShape]; exact hvTiles
  · rw [hShape]; exact hvMem
  · rw [hShape]; exact hvJobs

/-! ### The header (R178) -/

/-- The checks of a header rest neither on the streams nor on any entry but the formats that the device takes (Table 8-5). -/
theorem headerError_congr {d : Tab Nat} {st : Tab Machine.Stream} (hFormats : ({ s with dict := d, streams := st } : State).entry 0x1000 9 = s.entry 0x1000 9) (j : Nat)
    (im : Image) (h : KeyHeader) (e : StreamEntry) (out : Option Nat) :
    ({ s with dict := d, streams := st } : State).headerError j im h e out = s.headerError j im h e out := by
  have hForm : ({ s with dict := d, streams := st } : State).headerForm h = s.headerForm h := by
    unfold State.headerForm
    rw [hFormats]
  unfold State.headerError
  rw [hForm]
  rfl

/-- Wire bytes that stream `k` has read are counted and folded, and its RATE may hold it (R177, R388). -/
theorem readWire_reads (k n : Nat) (bytes : List Byte) : (∃ d st, s.readWire k n bytes = { s with dict := d, streams := st })
    ∧ (∀ a b, a < 0x7000 → b < 256 → (s.readWire k n bytes).entry a b = s.entry a b) ∧ (∀ i, i ≠ k → (s.readWire k n bytes).stream i = s.stream i)
    ∧ ∃ b, (s.readWire k n bytes).stream k = { s.stream k with
        bytesRead := (s.stream k).bytesRead + n, windowBytes := (s.stream k).windowBytes + n
        crc := crc64Run (s.stream k).crc bytes, waitSince := s.now, asked := false, deferredWindow := b } := by
  obtain ⟨v, hv, ⟨d, hd⟩, hEntries⟩ : ∃ v, ((s.bump 0x7020 2 n).bump (0x7080 + (s.stream k).job) 1 n).foldCheck (streamContext k) (crc64Run (s.stream k).crc bytes)
      ((s.stream k).bytesRead + n) = v ∧ (∃ d, v = { s with dict := d }) ∧ ∀ a b, a < 0x7000 → b < 256 → v.entry a b = s.entry a b := by
    refine ⟨_, rfl, ⟨_, rfl⟩, fun a b ha hb => ?_⟩
    rw [State.foldCheck, Laws.entry_setEntry_index _ _ _ _ _ _ (by decide) hb (by omega), Laws.entry_setEntry_index _ _ _ _ _ _ (by decide) hb (by omega),
      State.bump, Laws.entry_setEntry_index _ _ _ _ _ _ (by decide) hb (by omega), State.bump, Laws.entry_setEntry_index _ _ _ _ _ _ (by decide) hb (by omega)]
  have hNow : v.now = s.now := by rw [hd]
  obtain ⟨x, hx⟩ : ∃ x, x = { s.stream k with
      bytesRead := (s.stream k).bytesRead + n, windowBytes := (s.stream k).windowBytes + n, crc := crc64Run (s.stream k).crc bytes, waitSince := v.now, asked := false } :=
    ⟨_, rfl⟩
  dsimp only at hx
  obtain ⟨w, hw, ⟨st, hwShape⟩, hwOthers, hwOwn⟩ : ∃ w, v.setStream k x = w ∧ (∃ st, w = { s with dict := d, streams := st }) ∧ (∀ i, i ≠ k → w.stream i = s.stream i)
      ∧ w.stream k = x := by
    refine ⟨_, rfl, ⟨_, by rw [hd]; rfl⟩, fun i hi => (stream_setStream_ne _ hi).trans ?_, stream_setStream_same ..⟩
    rw [hd]
    rfl
  have hwEntries (a b : Nat) (ha : a < 0x7000) (hb : b < 256) : w.entry a b = s.entry a b := by rw [← hw]; exact hEntries a b ha hb
  have hHold : (∃ d st, w.holdRate k = { s with dict := d, streams := st }) ∧ (∀ a b, a < 0x7000 → b < 256 → (w.holdRate k).entry a b = s.entry a b)
      ∧ (∀ i, i ≠ k → (w.holdRate k).stream i = s.stream i) ∧ ∃ b, (w.holdRate k).stream k = { x with deferredWindow := b } := by
    unfold State.holdRate
    dsimp only
    rw [hwOwn]
    split
    · exact ⟨⟨_, _, hwShape⟩, hwEntries, hwOthers, _, hwOwn⟩
    · refine ⟨⟨_, _, by rw [hwShape]; rfl⟩, fun a b ha hb => ?_, fun i hi => (stream_setStream_ne _ hi).trans (hwOthers i hi), _, stream_setStream_same ..⟩
      exact (Laws.entry_setEntry_index _ _ _ _ _ _ (by decide) hb (by omega)).trans (hwEntries a b ha hb)
  have hStep : s.readWire k n bytes = w.holdRate k ∨ s.readWire k n bytes = w := by
    unfold State.readWire
    dsimp only
    rw [hv, ← hx, hw]
    split
    · split
      · exact .inl rfl
      · exact .inr rfl
    · exact .inr rfl
  rcases hStep with h | h
  · rw [h]
    rw [hx, hNow] at hHold
    exact hHold
  · rw [h]
    exact ⟨⟨_, _, hwShape⟩, hwEntries, hwOthers, _, by rw [hwOwn, hx, hNow]⟩

/-- A header as the first granule brings it: read, with its bytes counted, before its checks (R178). -/
theorem checkHeader_reads {granule : List Byte} {h : KeyHeader} (hEntry : s.streamEntry (s.stream k) = some (im, e)) (hState : (s.stream k).state = 1)
    (hKind : e.sourceKind ≠ 4) (hArrived : s.arrivedAt k e = true) (hPoison : s.sourcePoisoned e 0 (min 256 e.wireLength) = false)
    (hHeader : h = readHeader (s.sourceBytes e 0 256 granule)) : ∃ v d st b,
      v = { s with dict := d, streams := st } ∧ (∀ a b, a < 0x7000 → b < 256 → v.entry a b = s.entry a b) ∧ (∀ i, i ≠ k → v.stream i = s.stream i)
      ∧ v.stream k = { s.stream k with
          bytesRead := (s.stream k).bytesRead + (128 + if hasPrefix h.kind then 16 else 0), windowBytes := (s.stream k).windowBytes + (128 + if hasPrefix h.kind then 16 else 0)
          crc := crc64Run (s.stream k).crc ((s.sourceBytes e 0 256 granule).take (128 + if hasPrefix h.kind then 16 else 0)), waitSince := s.now, asked := false
          deferredWindow := b, slotHeader := (s.sourceBytes e 0 256 granule).take 128 }
      ∧ (∀ code, s.headerError (s.stream k).job im h e (s.stream k).out = some code → s.checkHeader k granule = v.streamFail k code)
      ∧ (s.headerError (s.stream k).job im h e (s.stream k).out = none → s.checkHeader k granule =
          ((v.updStream k fun x => { x with state := 2, header := some h }).updJob (s.stream k).job
            fun y => { y with keyHeaders := Tab.put y.keyHeaders (s.stream k).entry h }).readAhead k) := by
  obtain ⟨⟨d, st, hShape⟩, hEntries, hOthers, b, hOwn⟩ := readWire_reads (s := s) k (128 + if hasPrefix h.kind then 16 else 0)
    ((s.sourceBytes e 0 256 granule).take (128 + if hasPrefix h.kind then 16 else 0))
  generalize hw : s.readWire k (128 + if hasPrefix h.kind then 16 else 0) ((s.sourceBytes e 0 256 granule).take (128 + if hasPrefix h.kind then 16 else 0)) = w
    at hShape hEntries hOthers hOwn
  obtain ⟨v, hv, ⟨st', hvShape⟩, hvEntries, hvOthers, hvOwn⟩ : ∃ v, (w.updStream k fun x => { x with slotHeader := (s.sourceBytes e 0 256 granule).take 128 }) = v
      ∧ (∃ st', v = { s with dict := d, streams := st' }) ∧ (∀ a b, a < 0x7000 → b < 256 → v.entry a b = s.entry a b) ∧ (∀ i, i ≠ k → v.stream i = s.stream i)
      ∧ v.stream k = { w.stream k with slotHeader := (s.sourceBytes e 0 256 granule).take 128 } :=
    ⟨_, rfl, ⟨_, by rw [hShape]; rfl⟩, hEntries, fun i hi => (stream_setStream_ne _ hi).trans (hOthers i hi), stream_setStream_same ..⟩
  have hError : v.headerError (s.stream k).job im h e (s.stream k).out = s.headerError (s.stream k).job im h e (s.stream k).out := by
    have hFormats := hvEntries 0x1000 9 (by decide) (by decide)
    rw [hvShape] at hFormats ⊢
    exact headerError_congr hFormats _ im h e _
  have hWaits : ¬((s.stream k).state ≠ 1 ∨ e.sourceKind = 4) := by simp [hState, hKind]
  refine ⟨v, d, st', b, hvShape, hvEntries, hvOthers, by rw [hvOwn, hOwn], fun code hCode => ?_, fun hNone => ?_⟩
  · unfold State.checkHeader
    dsimp only
    rw [hEntry]
    dsimp only
    rw [if_neg hWaits, hArrived, if_neg (by simp), hPoison, if_neg (by simp), ← hHeader, hw, hv, hError, hCode]
  · unfold State.checkHeader
    dsimp only
    rw [hEntry]
    dsimp only
    rw [if_neg hWaits, hArrived, if_neg (by simp), hPoison, if_neg (by simp), ← hHeader, hw, hv, hError, hNone]

theorem keyHeaderCheck_checks {granule : List Byte} {h : KeyHeader} (hk : k < 16) (hEntry : s.streamEntry (s.stream k) = some (im, e))
    (hState : (s.stream k).state = 1) (hKind : e.sourceKind ≠ 4) (hArrived : s.arrivedAt k e = true) (hPoison : s.sourcePoisoned e 0 (min 256 e.wireLength) = false)
    (hHeader : h = readHeader (s.sourceBytes e 0 256 granule)) (hPasses : s.headerError (s.stream k).job im h e (s.stream k).out = none)
    (hReach : Safety.sourceReach s e = true) :
    ∃ s2, exec (.keyHeaderCheck k granule) s = .next s2 ∧ (s2.stream k).state = 2 ∧ (s2.stream k).header = some h
      ∧ (s2.stream k).slotHeader = (s.sourceBytes e 0 256 granule).take 128
      ∧ (s2.stream k).bytesRead = (s.stream k).bytesRead + (128 + if hasPrefix h.kind then 16 else 0)
      ∧ Tab.get? (s2.job (s.stream k).job).keyHeaders (s.stream k).entry = some h ∧ s2.tiles = s.tiles ∧ s2.mem = s.mem := by
  obtain ⟨v, d, st, b, hShape, hEntries, -, hOwn, -, hNext⟩ := checkHeader_reads hEntry hState hKind hArrived hPoison hHeader
  obtain ⟨w, hw, hwOwn, hwJob, hwShape, hwEntries⟩ : ∃ w, (v.updStream k fun x => { x with state := 2, header := some h }).updJob (s.stream k).job
        (fun y => { y with keyHeaders := Tab.put y.keyHeaders (s.stream k).entry h }) = w
      ∧ w.stream k = { v.stream k with state := 2, header := some h }
      ∧ w.job (s.stream k).job = { s.job (s.stream k).job with keyHeaders := Tab.put (s.job (s.stream k).job).keyHeaders (s.stream k).entry h }
      ∧ (w.tiles = s.tiles ∧ w.mem = s.mem ∧ w.hostLink = s.hostLink ∧ w.blobs = s.blobs) ∧ ∀ a b, a < 0x7000 → b < 256 → w.entry a b = s.entry a b := by
    refine ⟨_, rfl, stream_setStream_same .., ?_, ?_, hEntries⟩
    · rw [hShape]
      exact Laws.job_setJob_same ..
    · rw [hShape]
      exact ⟨rfl, rfl, rfl, rfl⟩
  obtain ⟨hTiles, hMem, hLink, hBlobs⟩ := hwShape
  have hwEntry : w.streamEntry (w.stream k) = some (im, e) := by
    have hParts : ((s.job (s.stream k).job).image.bind fun im => im.streams[(s.stream k).entry]?.map fun e => (im, e)) = some (im, e) := hEntry
    rw [hwOwn, hOwn]
    unfold State.streamEntry
    dsimp only
    rw [hwJob]
    exact hParts
  have hwReach : Safety.sourceReach w e = true := (sourceReach_keeps hLink hBlobs hwEntries e).trans hReach
  have hAsks := (reads_asks hwEntry hwReach).2
  obtain ⟨_, _, _, hAsksOwn⟩ := hAsks.own
  have hStep : exec (.keyHeaderCheck k granule) s = .next (w.readAhead k) :=
    (show exec (.keyHeaderCheck k granule) s = execKeyHeaderCheck k granule s from rfl).trans
      ((Laws.onStream_next hk).trans (congrArg Host.Outcome.next ((hNext hPasses).trans (by rw [hw]))))
  refine ⟨_, hStep, ?_, ?_, ?_, ?_, ?_, hAsks.tiles.trans hTiles, hAsks.mem.trans hMem⟩
  iterate 4 rw [hAsksOwn, hwOwn, hOwn]
  rw [State.job, hAsks.jobs]
  refine (congrArg (fun y : Job => Tab.get? y.keyHeaders (s.stream k).entry) hwJob).trans ?_
  exact Laws.tab_get?_put_same ..

theorem keyHeaderCheck_fails {granule : List Byte} {h : KeyHeader} {code : Nat} (hk : k < 16) (hEntry : s.streamEntry (s.stream k) = some (im, e))
    (hState : (s.stream k).state = 1) (hKind : e.sourceKind ≠ 4) (hArrived : s.arrivedAt k e = true) (hPoison : s.sourcePoisoned e 0 (min 256 e.wireLength) = false)
    (hHeader : h = readHeader (s.sourceBytes e 0 256 granule)) (hFails : s.headerError (s.stream k).job im h e (s.stream k).out = some code)
    (hRun : (s.job (s.stream k).job).state = .running) :
    ∃ s2, exec (.keyHeaderCheck k granule) s = .next s2 ∧ (s2.stream k).state = 5 ∧ (s2.stream k).error = code
      ∧ (s2.job (s.stream k).job).state = .draining ∧ (s2.job (s.stream k).job).abortCode = code ∧ s2.mem = s.mem := by
  obtain ⟨v, d, st, b, hShape, hEntries, -, hOwn, hFail, -⟩ := checkHeader_reads hEntry hState hKind hArrived hPoison hHeader
  have hJob : (v.stream k).job = (s.stream k).job := by rw [hOwn]
  have hvJob : v.job = s.job := by rw [hShape]; rfl
  have hvEntry : v.streamEntry (v.stream k) = some (im, e) := by
    have hParts : ((s.job (s.stream k).job).image.bind fun im => im.streams[(s.stream k).entry]?.map fun e => (im, e)) = some (im, e) := hEntry
    rw [hOwn]
    unfold State.streamEntry
    dsimp only
    rw [hvJob]
    exact hParts
  obtain ⟨w, hAbort, hEnd, hError, hMem, -, -⟩ := streamFail_ends (error := code) (by rw [hJob, hvJob]; exact hRun) hvEntry
  rw [hJob] at hAbort
  obtain ⟨hDraining, -, hCode, -⟩ := hAbort.ended
  have hvMem : v.mem = s.mem := by rw [hShape]
  exact ⟨_, (show exec (.keyHeaderCheck k granule) s = execKeyHeaderCheck k granule s from rfl).trans
    ((Laws.onStream_next hk).trans (congrArg Host.Outcome.next (hFail code hFails))), hEnd, hError, hDraining, hCode, (hAbort.mem.trans hMem).trans hvMem⟩

end Opens

/-- Settles O36: opens, metering windows and header checks, clause by clause. -/
theorem streamsOpen : Obligations.StreamsOpen := by
  unfold Obligations.StreamsOpen
  exact ⟨fun _ _ _ _ _ _ _ _ _ _ h hCode hAt hOpened hWaits hFree hGranted hReach => keystreamOpen_binds h hCode hAt hOpened hWaits hFree hGranted hReach,
    fun _ _ _ _ _ _ hWaits hFree hImage hAt hGranted hReach => streamSlotBind_binds hWaits hFree hImage hAt hGranted hReach,
    fun _ _ _ _ _ hPassed hm hReach hk hEntry => rateWindow_gives hPassed hm hReach hk hEntry,
    fun _ _ _ _ _ _ hk hEntry hState hKind hArrived hPoison hHeader hPasses hReach =>
      keyHeaderCheck_checks hk hEntry hState hKind hArrived hPoison hHeader hPasses hReach,
    fun _ _ _ _ _ _ _ hk hEntry hState hKind hArrived hPoison hHeader hFails hRun =>
      keyHeaderCheck_fails hk hEntry hState hKind hArrived hPoison hHeader hFails hRun⟩

end Sys2Proof.Proofs
end

section
/-! PROOFS. Rows of a key arrive, trailers are checked, windows are sent, and streams fail (R160, R179-R191). -/

namespace Sys2Proof.Proofs

open Sys2Proof.Machine

section Failing

variable {s t u : State} {k error : Nat} {im : Image} {e : StreamEntry}

/-- A row that is POISON stays so. -/
def keepsPoison (s u : State) : Prop := ∀ k r, s.tag k r = .poison → u.tag k r = .poison

theorem keepsPoison_foldl {α : Type} {f : State → α → State} (hf : ∀ u x, keepsPoison u (f u x)) (l : List α) : ∀ s, keepsPoison s (l.foldl f s) := by
  induction l with
  | nil => exact fun _ _ _ h => h
  | cons x l ih => exact fun s k r h => ih _ k r (hf s x k r h)

theorem keepsPoison_poisonConsumers (j entry : Nat) : keepsPoison s (s.poisonConsumers j entry) := by
  unfold State.poisonConsumers
  refine keepsPoison_foldl (fun u n => ?_) _ s
  unfold State.poisonGroupOp
  exact keepsPoison_foldl (fun v _ => keepsPoison_foldl (fun _ (r : Nat × Nat) _ _ h => poisonRows_keeps r.1 r.2 h) _ v) _ u

/-- The destination of an entry turns POISON in every tile of the group (R179). -/
theorem poisonDestination_marks (j : Nat) (e : StreamEntry) {g i : Nat} (hg : g ∈ (s.job j).group) (hi : i < e.destRows) :
    (s.poisonDestination j e).tag g (e.destRow + i) = .poison := by
  unfold State.poisonDestination
  generalize (s.job j).group = l at hg
  induction l generalizing s with
  | nil => cases hg
  | cons a l ih =>
    rcases List.mem_cons.1 hg with rfl | hg
    · exact keepsPoison_foldl (fun _ _ _ _ h => poisonRows_keeps _ _ h) l _ _ _ ((poisonRows_marks (s := s) (t := g) e.destRow e.destRows).2.2 i hi)
    · exact ih hg

/-- A stream's entry comes from its job's image. -/
theorem streamEntry_parts {x : Machine.Stream} (h : s.streamEntry x = some (im, e)) : (s.job x.job).image = some im ∧ im.streams[x.entry]? = some e := by
  unfold State.streamEntry at h
  obtain ⟨_, hImage, hMap⟩ := Option.bind_eq_some_iff.1 h
  obtain ⟨_, hAt, hPair⟩ := Option.map_eq_some_iff.1 hMap
  obtain ⟨rfl, rfl⟩ := Prod.mk.inj hPair
  exact ⟨hImage, hAt⟩

/-- A failing stream has its job's outcome, its slot marked before (R179). -/
theorem streamFail_outcome (k error : Nat) : ∃ v : State, s.streamFail k error = v.keyOutcome (s.stream k).job (s.stream k).entry error ∧ v.jobs = s.jobs := by
  obtain ⟨c, hc, hJobs⟩ : ∃ c, (if (s.stream k).bound then s.endCheck (streamContext k) else s) = c ∧ c.jobs = s.jobs := by
    refine ⟨_, rfl, ?_⟩
    split
    · exact (endCheck_frame _).jobs
    · rfl
  obtain ⟨a, b, hDrop⟩ := dropCredits_shape (s := c.setStream k { s.stream k with state := 5, error := error }) (s.stream k)
  refine ⟨{ c.setStream k { s.stream k with state := 5, error := error } with mcastCredits := a, mcastUsed := b }, ?_, hJobs⟩
  unfold State.streamFail
  dsimp only
  rw [hc, hDrop]

/-- A stream of a running job that fails leaves its destination POISON in every tile of the group (R179, R182). -/
theorem streamFail_poisons (error : Nat) (hRun : (s.job (s.stream k).job).state = .running) (hEntry : s.streamEntry (s.stream k) = some (im, e)) {g i : Nat}
    (hg : g ∈ (s.job (s.stream k).job).group) (hi : i < e.destRows) : (s.streamFail k error).tag g (e.destRow + i) = .poison := by
  obtain ⟨hImage, hAt⟩ := streamEntry_parts hEntry
  obtain ⟨v, hv, hJobs⟩ := streamFail_outcome (s := s) k error
  have hJob : v.job (s.stream k).job = s.job (s.stream k).job := by rw [State.job, hJobs]; rfl
  obtain ⟨⟨d, hd⟩, -⟩ := keyErrorNoted_notes (s := v) (s.stream k).job (s.stream k).entry error
  obtain ⟨w, hw, hwJob⟩ : ∃ w, keyErrorNoted v (s.stream k).job (s.stream k).entry error = w ∧ w.job (s.stream k).job = s.job (s.stream k).job :=
    ⟨_, rfl, by rw [hd]; exact hJob⟩
  rw [hv, keyOutcome_eq (by rw [hJob]; exact hImage) hAt, hw]
  obtain ⟨x, hx, hMark, hxJob⟩ : ∃ x, (if error = KEY_CRC then (w.poisonDestination (s.stream k).job e).poisonConsumers (s.stream k).job (s.stream k).entry
      else w.poisonDestination (s.stream k).job e) = x ∧ x.tag g (e.destRow + i) = .poison ∧ x.job (s.stream k).job = w.job (s.stream k).job := by
    have hMarks := poisonDestination_marks (s := w) (s.stream k).job e (by rw [hwJob]; exact hg) hi
    refine ⟨_, rfl, ?_, ?_⟩
    · split
      · exact keepsPoison_poisonConsumers _ _ _ _ hMarks
      · exact hMarks
    · split
      · obtain ⟨_, hOnly⟩ := ((TilesOnly.refl w).poisonDestination (s.stream k).job e).poisonConsumers (s.stream k).job (s.stream k).entry
        rw [hOnly]
        rfl
      · obtain ⟨_, hOnly⟩ := (TilesOnly.refl w).poisonDestination (s.stream k).job e
        rw [hOnly]
        rfl
  rw [hx]
  obtain ⟨_, _, hTile⟩ := (abortJob_running error 0xFF 0 (by rw [hxJob, hwJob]; exact hRun)).tiles g
  rw [State.tag, hTile]
  exact hMark

theorem streamReadFail_fails (hk : k < 16) (hEntry : s.streamEntry (s.stream k) = some (im, e)) (hBound : (s.stream k).bound = true)
    (hOpen : 1 ≤ (s.stream k).state) (hLeft : (s.stream k).state ≤ 3) (hError : error ∈ readErrors) (hRun : (s.job (s.stream k).job).state = .running) :
    ∃ s2, exec (.streamReadFail k error) s = .next s2 ∧ (s2.stream k).state = 5 ∧ (s2.stream k).error = error
      ∧ (s2.job (s.stream k).job).state = .draining ∧ (s2.job (s.stream k).job).abortCode = error ∧ s2.mem = s.mem
      ∧ ∀ t ∈ (s.job (s.stream k).job).group, ∀ i, i < e.destRows → s2.tag t (e.destRow + i) = .poison := by
  obtain ⟨v, hAbort, hState, hCode, hMem, -, -⟩ := streamFail_ends (error := error) hRun hEntry
  obtain ⟨hDraining, -, hAbortCode, -⟩ := hAbort.ended
  refine ⟨s.streamFail k error, ?_, hState, hCode, hDraining, hAbortCode, hAbort.mem.trans hMem, fun t ht i hi => streamFail_poisons error hRun hEntry ht hi⟩
  change execStreamReadFail k error s = _
  rw [execStreamReadFail, Laws.onStream_next hk, if_pos ⟨hBound, hOpen, hLeft, hError⟩]

theorem mcastTimeout_fails {kind : Nat} (hEntry : s.streamEntry (s.stream k) = some (im, e)) (hBound : (s.stream k).bound = true)
    (hState : (s.stream k).state ≠ 5) (hWaiting : s.mcastWaiting (s.stream k) e = true) (hLate : (s.stream k).waitSince + (s.stream k).creditTimeout < s.now)
    (hRun : (s.job (s.stream k).job).state = .running) (hKind : e.sourceKind = kind) :
    ∃ s2, s.mcastTimeout k kind = s2 ∧ (s2.stream k).state = 5 ∧ (s2.stream k).error = FABRIC_TIMEOUT
      ∧ (s2.job (s.stream k).job).state = .draining ∧ (s2.job (s.stream k).job).abortCode = FABRIC_TIMEOUT ∧ s2.mem = s.mem := by
  obtain ⟨v, hAbort, hEnd, hCode, hMem, -, -⟩ := streamFail_ends (error := FABRIC_TIMEOUT) hRun hEntry
  obtain ⟨hDraining, -, hAbortCode, -⟩ := hAbort.ended
  refine ⟨s.streamFail k FABRIC_TIMEOUT, ?_, hEnd, hCode, hDraining, hAbortCode, hAbort.mem.trans hMem⟩
  unfold State.mcastTimeout
  dsimp only
  rw [hEntry]
  dsimp only
  rw [if_pos ⟨hKind, hBound, hState, hWaiting, hLate⟩]

theorem mcastTimeouts_fail (hk : k < 16) (hEntry : s.streamEntry (s.stream k) = some (im, e)) (hBound : (s.stream k).bound = true)
    (hState : (s.stream k).state ≠ 5) (hWaiting : s.mcastWaiting (s.stream k) e = true) (hLate : (s.stream k).waitSince + (s.stream k).creditTimeout < s.now)
    (hRun : (s.job (s.stream k).job).state = .running) :
    (e.sourceKind = 4 → ∃ s2, exec (.mcastCreditTimeout k) s = .next s2 ∧ (s2.stream k).state = 5 ∧ (s2.stream k).error = FABRIC_TIMEOUT
      ∧ (s2.job (s.stream k).job).state = .draining ∧ (s2.job (s.stream k).job).abortCode = FABRIC_TIMEOUT ∧ s2.mem = s.mem)
    ∧ (e.sourceKind = 3 → ∃ s2, exec (.mcastIdleTimeout k) s = .next s2 ∧ (s2.stream k).state = 5 ∧ (s2.stream k).error = FABRIC_TIMEOUT
      ∧ (s2.job (s.stream k).job).state = .draining ∧ (s2.job (s.stream k).job).abortCode = FABRIC_TIMEOUT ∧ s2.mem = s.mem) := by
  refine ⟨fun hKind => ?_, fun hKind => ?_⟩
  · obtain ⟨s2, hStep, hEnd⟩ := mcastTimeout_fails hEntry hBound hState hWaiting hLate hRun hKind
    exact ⟨s2, (show exec (.mcastCreditTimeout k) s = execMcastCreditTimeout k s from rfl).trans ((Laws.onStream_next hk).trans (congrArg Host.Outcome.next hStep)), hEnd⟩
  · obtain ⟨s2, hStep, hEnd⟩ := mcastTimeout_fails hEntry hBound hState hWaiting hLate hRun hKind
    exact ⟨s2, (show exec (.mcastIdleTimeout k) s = execMcastIdleTimeout k s from rfl).trans ((Laws.onStream_next hk).trans (congrArg Host.Outcome.next hStep)), hEnd⟩

/-! ### Windows of a multicast (R190) -/

/-- The parts of a state that sending frames leaves alone. -/
def kept (s : State) : Tab Tile × Tab Machine.Stream × Tab Job × Tab Byte := (s.tiles, s.streams, s.jobs, s.mem)

theorem mcastSend_keeps (group address : Nat) (data : List Byte) (job slot : Nat) : kept (s.mcastSend group address data job slot) = kept s := by
  have hCopies (v : State) (f : Frame) (p status : Nat) : kept (v.sendCopies f p status) = kept v :=
    foldl_keeps (f := fun s p => s.sendFrame p { f with version := s.entry (0x4040 + p) 2 }) kept (fun _ _ => rfl) _ v
  exact hCopies _ _ _ _

theorem mcastWindowSend_sends {off : Nat} (hk : k < 16) (hEntry : s.streamEntry (s.stream k) = some (im, e)) (hKind : e.sourceKind = 4)
    (hBound : (s.stream k).bound = true) (hState : (s.stream k).state ≠ 5) (hOff : off = 512 * e.ringKib * (s.stream k).windowsSent) (hLeft : off < e.wireLength)
    (hPermitted : s.windowPermitted (s.stream k) e = true) (hRate : (s.stream k).windowBytes < e.budget)
    (hPoison : s.sourcePoisoned e off (min (512 * e.ringKib) (e.wireLength - off)) = false) :
    ∃ s2, exec (.mcastWindowSend k) s = .next s2 ∧ (s2.stream k).state = 3 ∧ (s2.stream k).windowsSent = (s.stream k).windowsSent + 1
      ∧ s2.tiles = s.tiles ∧ s2.mem = s.mem ∧ s2.jobs = s.jobs := by
  obtain ⟨body, hBody⟩ : ∃ body, body = (s.memBytes (localOf e.source + off) (min (512 * e.ringKib) (e.wireLength - off))).take (e.wireLength - 8 - off) := ⟨_, rfl⟩
  obtain ⟨⟨d, st, hShape⟩, -, -, b, hOwn⟩ := readWire_reads (s := s) k body.length body
  generalize hw : s.readWire k body.length body = w at hShape hOwn
  obtain ⟨v, hv, hvOwn, hvTiles, hvMem, hvJobs⟩ : ∃ v, (w.updStream k fun x => { x with state := 3, windowsSent := x.windowsSent + 1 }) = v
      ∧ v.stream k = { w.stream k with state := 3, windowsSent := (w.stream k).windowsSent + 1 } ∧ v.tiles = s.tiles ∧ v.mem = s.mem ∧ v.jobs = s.jobs :=
    ⟨_, rfl, stream_setStream_same .., by rw [hShape]; rfl, by rw [hShape]; rfl, by rw [hShape]; rfl⟩
  obtain ⟨u, hStep, hKept⟩ : ∃ u, s.sendWindow k = u ∧ kept u = kept v := by
    refine ⟨_, rfl, ?_⟩
    unfold State.sendWindow State.meter
    dsimp only
    rw [hEntry]
    dsimp only
    rw [← hOff, if_neg (by simp [hKind, hBound, hState, hPermitted, hLeft]), if_pos hRate, if_neg (by simp), hPoison, if_neg (by decide), ← hBody, hw, hv]
    exact foldl_keeps kept (fun u i => mcastSend_keeps ..) _ _
  simp only [kept, Prod.mk.injEq] at hKept
  obtain ⟨hTiles, hStreams, hJobs, hMem⟩ := hKept
  have huOwn : u.stream k = v.stream k := by rw [State.stream, hStreams]; rfl
  refine ⟨u, ?_, ?_, ?_, hTiles.trans hvTiles, hMem.trans hvMem, hJobs.trans hvJobs⟩
  · exact (show exec (.mcastWindowSend k) s = execMcastWindowSend k s from rfl).trans ((Laws.onStream_next hk).trans (congrArg Host.Outcome.next hStep))
  · rw [huOwn, hvOwn]
  · rw [huOwn, hvOwn, hOwn]

/-! ### The trailer (R182) -/

/-- Where a trailer stands complete, its bytes are counted, and it ends its stream by its value. -/
theorem checkTrailer_reads {trailer : Word} {got : Nat} (hEntry : s.streamEntry (s.stream k) = some (im, e)) (hBytes : (s.stream k).bytesRead + 8 = e.wireLength)
    (hState : (s.stream k).state = 3 ∨ (s.stream k).state = if e.sourceKind = 4 then 1 else 2) (hArrived : s.arrivedAt k e = true)
    (hPoison : s.sourcePoisoned e (s.stream k).bytesRead 8 = false)
    (hGot : got = leNat (s.sourceBytes e (s.stream k).bytesRead 8 (leBytes 8 trailer.toNat))) :
    ∃ v d, v = ({ s with dict := d } : State).updStream k (fun y => { y with bytesRead := y.bytesRead + 8 })
      ∧ (∀ a b, a < 0x7000 → b < 256 → v.entry a b = s.entry a b)
      ∧ (got ≠ crc64Value (s.stream k).crc → s.checkTrailer k trailer = v.streamFail k KEY_CRC)
      ∧ (got = crc64Value (s.stream k).crc → ∃ w, w = v.updJob (s.stream k).job (fun y => { y with keysMatched := (s.stream k).entry :: y.keysMatched })
          ∧ s.checkTrailer k trailer = (if e.sourceKind = 4 then w.useCredits e else w.sendSignals k).releaseStream k 4) := by
  obtain ⟨d, hd⟩ : ∃ d, (s.bump 0x7020 2 8).bump (0x7080 + (s.stream k).job) 1 8 = { s with dict := d } := ⟨_, rfl⟩
  have hGoes : ¬((!decide ((s.stream k).bytesRead + 8 = e.wireLength)) = true ∨ (!decide (e.sourceKind = 4)) = true ∧ (s.stream k).state ≠ 2 ∧ (s.stream k).state ≠ 3
      ∨ e.sourceKind = 4 ∧ (s.stream k).state ≠ 1 ∧ (s.stream k).state ≠ 3 ∨ (!s.arrivedAt k e) = true) := by
    rw [hArrived]
    by_cases hKind : e.sourceKind = 4
    · rw [if_pos hKind] at hState
      simp [hBytes, hKind]
      omega
    · rw [if_neg hKind] at hState
      simp [hBytes, hKind]
      omega
  refine ⟨_, d, rfl, fun a b ha hb => ?_, fun hFails => ?_, fun hMatches => ⟨_, rfl, ?_⟩⟩
  · change ({ s with dict := d } : State).entry a b = _
    rw [← hd, State.bump, Laws.entry_setEntry_index _ _ _ _ _ _ (by decide) hb (by omega), State.bump,
      Laws.entry_setEntry_index _ _ _ _ _ _ (by decide) hb (by omega)]
  · unfold State.checkTrailer
    dsimp only
    rw [hEntry]
    dsimp only
    rw [if_neg hGoes, hPoison, if_neg (by decide), ← hGot, if_neg hFails, hd]
  · unfold State.checkTrailer
    dsimp only
    rw [hEntry]
    dsimp only
    rw [if_neg hGoes, hPoison, if_neg (by decide), ← hGot, if_pos hMatches, hd]

/-- A slot released keeps its stream's bytes; no tile, job or byte of memory changes (R182). -/
theorem releaseStream_releases (k n : Nat) : (s.releaseStream k n).stream k = { s.stream k with state := n, bound := false } ∧ (s.releaseStream k n).tiles = s.tiles
    ∧ (s.releaseStream k n).mem = s.mem ∧ (s.releaseStream k n).jobs = s.jobs := by
  obtain ⟨⟨d, hd⟩, -⟩ := endCheck_entries (s := s.updStream k fun x => { x with state := n, bound := false }) (streamContext k)
  unfold State.releaseStream
  rw [hd]
  exact ⟨stream_setStream_same .., rfl, rfl, rfl⟩

/-- A matching trailer ends its stream DONE (R182). -/
theorem checkTrailer_matches {trailer : Word} {got : Nat} (hEntry : s.streamEntry (s.stream k) = some (im, e)) (hBytes : (s.stream k).bytesRead + 8 = e.wireLength)
    (hState : (s.stream k).state = 3 ∨ (s.stream k).state = if e.sourceKind = 4 then 1 else 2) (hArrived : s.arrivedAt k e = true)
    (hPoison : s.sourcePoisoned e (s.stream k).bytesRead 8 = false)
    (hGot : got = leNat (s.sourceBytes e (s.stream k).bytesRead 8 (leBytes 8 trailer.toNat))) (hMatch : got = crc64Value (s.stream k).crc)
    (hOwner : e.sourceKind = 3 → s.isSelf (nodeOf (Config.mcastCounter e.mcastGroup)) = false) :
    ∃ s2, s.checkTrailer k trailer = s2 ∧ (s2.stream k).state = 4 ∧ (s2.stream k).bound = false ∧ (s2.stream k).bytesRead = e.wireLength
      ∧ (s.stream k).entry ∈ (s2.job (s.stream k).job).keysMatched ∧ s2.tiles = s.tiles ∧ s2.mem = s.mem := by
  obtain ⟨v, d, hv, hEntries, -, hDone⟩ := checkTrailer_reads hEntry hBytes hState hArrived hPoison hGot
  obtain ⟨w, hw, hStep⟩ := hDone hMatch
  have hvOwn : v.stream k = { s.stream k with bytesRead := (s.stream k).bytesRead + 8 } := by rw [hv]; exact stream_setStream_same ..
  have hvJob : v.job = s.job := by rw [hv]; rfl
  have hwOwn : w.stream k = v.stream k := by rw [hw]; rfl
  have hwJob : w.job (s.stream k).job = { v.job (s.stream k).job with keysMatched := (s.stream k).entry :: (v.job (s.stream k).job).keysMatched } := by
    rw [hw]
    exact Laws.job_setJob_same ..
  have hwSame : w.tiles = s.tiles ∧ w.mem = s.mem ∧ w.entry = v.entry := by
    rw [hw, hv]
    exact ⟨rfl, rfl, rfl⟩
  obtain ⟨hwTiles, hwMem, hwEntry⟩ := hwSame
  obtain ⟨hImage, hAt⟩ := streamEntry_parts hEntry
  have hwStream : w.streamEntry (w.stream k) = some (im, e) := by
    rw [hwOwn, hvOwn]
    refine streamEntry_of ?_ hAt
    rw [hwJob, hvJob]
    exact hImage
  obtain ⟨x, hx, hxOwn, hxTiles, hxMem, hxJobs⟩ : ∃ x, (if e.sourceKind = 4 then w.useCredits e else w.sendSignals k) = x
      ∧ (x.stream k).bytesRead = (w.stream k).bytesRead ∧ x.tiles = w.tiles ∧ x.mem = w.mem ∧ x.jobs = w.jobs := by
    refine ⟨_, rfl, ?_⟩
    split
    · exact ⟨rfl, rfl, rfl, rfl⟩
    · have hAsks : Asks k w (w.sendSignals k) := Asks.sendSignals fun ie he hKind => by
        rw [hwStream, Option.some.injEq] at he
        rw [← he] at hKind ⊢
        unfold State.isSelf
        rw [hwEntry, hEntries 0x4010 1 (by decide) (by decide)]
        exact hOwner hKind
      obtain ⟨_, _, _, hOwn⟩ := hAsks.own
      exact ⟨by rw [hOwn], hAsks.tiles, hAsks.mem, hAsks.jobs⟩
  rw [hx] at hStep
  obtain ⟨hRelease, hTiles, hMem, hJobs⟩ := releaseStream_releases (s := x) k 4
  refine ⟨_, hStep, ?_, ?_, ?_, ?_, hTiles.trans (hxTiles.trans hwTiles), hMem.trans (hxMem.trans hwMem)⟩
  · rw [hRelease]
  · rw [hRelease]
  · rw [hRelease]
    dsimp only
    rw [hxOwn, hwOwn, hvOwn]
    exact hBytes
  · have hJob : (x.releaseStream k 4).job (s.stream k).job = w.job (s.stream k).job := by rw [State.job, hJobs, hxJobs]; rfl
    rw [hJob, hwJob]
    exact List.mem_cons_self

theorem keyTrailerCheck_ends {trailer : Word} {got : Nat} (hk : k < 16) (hEntry : s.streamEntry (s.stream k) = some (im, e))
    (hBytes : (s.stream k).bytesRead + 8 = e.wireLength) (hState : (s.stream k).state = 3 ∨ (s.stream k).state = if e.sourceKind = 4 then 1 else 2)
    (hArrived : s.arrivedAt k e = true) (hPoison : s.sourcePoisoned e (s.stream k).bytesRead 8 = false)
    (hGot : got = leNat (s.sourceBytes e (s.stream k).bytesRead 8 (leBytes 8 trailer.toNat))) :
    (got = crc64Value (s.stream k).crc → (e.sourceKind = 3 → s.isSelf (nodeOf (Config.mcastCounter e.mcastGroup)) = false) →
      ∃ s2, exec (.keyTrailerCheck k trailer) s = .next s2 ∧ (s2.stream k).state = 4 ∧ (s2.stream k).bound = false
        ∧ (s2.stream k).bytesRead = e.wireLength ∧ (s.stream k).entry ∈ (s2.job (s.stream k).job).keysMatched ∧ s2.tiles = s.tiles ∧ s2.mem = s.mem)
    ∧ (got ≠ crc64Value (s.stream k).crc → (s.job (s.stream k).job).state = .running →
      ∃ s2, exec (.keyTrailerCheck k trailer) s = .next s2 ∧ (s2.stream k).state = 5 ∧ (s2.stream k).error = KEY_CRC
        ∧ (s2.job (s.stream k).job).state = .draining ∧ (s2.job (s.stream k).job).abortCode = KEY_CRC ∧ s2.mem = s.mem
        ∧ ∀ t ∈ (s.job (s.stream k).job).group, ∀ i, i < e.destRows → s2.tag t (e.destRow + i) = .poison) := by
  have hExec : exec (.keyTrailerCheck k trailer) s = .next (s.checkTrailer k trailer) :=
    (show exec (.keyTrailerCheck k trailer) s = execKeyTrailerCheck k trailer s from rfl).trans (Laws.onStream_next hk)
  refine ⟨fun hMatch hOwner => ?_, fun hFails hRun => ?_⟩
  · obtain ⟨s2, hStep, hEnd⟩ := checkTrailer_matches hEntry hBytes hState hArrived hPoison hGot hMatch hOwner
    exact ⟨s2, hExec.trans (congrArg Host.Outcome.next hStep), hEnd⟩
  · obtain ⟨v, d, hv, -, hFail, -⟩ := checkTrailer_reads hEntry hBytes hState hArrived hPoison hGot
    have hvOwn : v.stream k = { s.stream k with bytesRead := (s.stream k).bytesRead + 8 } := by rw [hv]; exact stream_setStream_same ..
    have hvJob : v.job = s.job := by rw [hv]; rfl
    have hvMem : v.mem = s.mem := by rw [hv]; rfl
    obtain ⟨hImage, hAt⟩ := streamEntry_parts hEntry
    have hJob : (v.stream k).job = (s.stream k).job := by rw [hvOwn]
    have hvEntry : v.streamEntry (v.stream k) = some (im, e) := by
      rw [hvOwn]
      exact streamEntry_of (by rw [hvJob]; exact hImage) hAt
    have hvRun : (v.job (v.stream k).job).state = .running := by rw [hJob, hvJob]; exact hRun
    obtain ⟨w, hAbort, hEnd, hCode, hMem, -, -⟩ := streamFail_ends (error := KEY_CRC) hvRun hvEntry
    have hPoisons := fun g i => streamFail_poisons (g := g) (i := i) KEY_CRC hvRun hvEntry
    rw [hJob] at hAbort
    rw [hJob, hvJob] at hPoisons
    obtain ⟨hDraining, -, hAbortCode, -⟩ := hAbort.ended
    exact ⟨_, hExec.trans (congrArg Host.Outcome.next (hFail hFails)), hEnd, hCode, hDraining, hAbortCode, (hAbort.mem.trans hMem).trans hvMem,
      fun t ht i hi => hPoisons t i ht hi⟩

end Failing

end Sys2Proof.Proofs
end

section
/-! PROOFS. Key rows are written to the tiles that keep them (R160, R181, R187). -/

namespace Sys2Proof.Proofs

open Sys2Proof.Machine

section KeyRows

variable {s t u : State} {k : Nat} {im : Image} {e : StreamEntry}

/-- One key row written to a tile, and complete (R181). -/
def keyRow (d : Row) (s : State) (p : Nat × Nat) : State := ((s.wakeTile p.1).writeRow p.1 p.2 d).completeRow p.1 p.2

/-- From `s` to `u` the rows `ps`, each a tile and a row number, take the data `d`; beside entries of the tiles' own and the tiles nothing changes. -/
structure KeyRows (d : Row) (ps : List (Nat × Nat)) (s u : State) : Prop where
  shape : ∃ di tl, u = { s with dict := di, tiles := tl }
  entries : ∀ a b, a < 0x7000 → b < 256 → u.entry a b = s.entry a b
  written : ∀ p ∈ ps, ∀ l, l < 1024 → Row.lane (u.rowData p.1 p.2) l = Row.lane d l % 2 ^ 36
  rows : ∀ g r, (g, r) ∉ ps → u.rowData g r = s.rowData g r ∧ u.tag g r = s.tag g r
  tiles : ∀ g, (∀ p ∈ ps, p.1 ≠ g) → u.tile g = s.tile g

theorem wakeTile_entries (g : Nat) {a b : Nat} (ha : a < 0x7000) (hb : b < 256) : (s.wakeTile g).entry a b = s.entry a b := by
  unfold State.wakeTile
  dsimp only
  split
  · refine (Laws.entry_setEntry_index _ _ _ _ _ _ (by decide) hb (by omega)).trans ?_
    split
    · rfl
    · exact Laws.entry_setEntry_index _ _ _ _ _ _ (by decide) hb (by omega)
  · rfl

theorem keyRow_writes (d : Row) (p : Nat × Nat) : KeyRows d [p] s (keyRow d s p) := by
  obtain ⟨g, r⟩ := p
  obtain ⟨di, tl, hWake, hWakeTiles⟩ := wakeTile_shape (s := s) (t := g)
  have hOwn : OwnTile g s (s.wakeTile g) := (OwnTile.refl s).wakeTile
  have hFrame : RowsFrame g (s.wakeTile g) (keyRow d s (g, r)) := ((RowsFrame.refl _).writeRow r d).completeRow r
  obtain ⟨hSame, hNe⟩ := rowData_engineRow (s := s.wakeTile g) (t := g) r d
  obtain ⟨tl', hShape⟩ := hFrame.shape
  refine ⟨⟨di, tl', by rw [hShape, hWake]⟩, fun a b ha hb => ?_, fun p hp l hl => ?_, fun g' r' hOut => ?_, fun g' hOut => ?_⟩
  · rw [hShape]
    exact wakeTile_entries g ha hb
  · rw [List.mem_singleton.1 hp]
    exact (congrArg (fun w : Row => Row.lane w l) hSame).trans (lane_rowMap _ hl)
  · obtain ⟨hRow, hTag⟩ := wakeTile_rows (s := s) (t := g) g' r'
    by_cases hg : g' = g
    · subst hg
      have hr : r' ≠ r := fun h => hOut (List.mem_singleton.2 (by rw [h]))
      exact ⟨(hNe r' hr).trans hRow, ((completeRow_tags r).2 r' hr).trans ((tag_writeRow r d r').trans hTag)⟩
    · have hTile := hFrame.others g' hg
      exact ⟨(rowData_congr (by rw [hTile]) (by rw [hTile]) r').trans hRow, Eq.trans (by rw [State.tag, hTile]; rfl) hTag⟩
  · have hg : g' ≠ g := fun h => hOut _ (List.mem_singleton.2 rfl) h.symm
    exact (hFrame.others g' hg).trans (hOwn.others g' hg)

theorem keyRows_write (d : Row) (ps : List (Nat × Nat)) : ∀ s : State, KeyRows d ps s (ps.foldl (keyRow d) s) := by
  induction ps with
  | nil => exact fun s => ⟨⟨_, _, rfl⟩, fun _ _ _ _ => rfl, fun p hp => absurd hp List.not_mem_nil, fun _ _ _ => ⟨rfl, rfl⟩, fun _ _ => rfl⟩
  | cons p ps ih =>
    intro s
    have hFirst := keyRow_writes (s := s) d p
    have hRest := ih (keyRow d s p)
    obtain ⟨_, _, hShape⟩ := hFirst.shape
    obtain ⟨di, tl, hShapes⟩ := hRest.shape
    refine ⟨⟨di, tl, ?_⟩, fun a b ha hb => (hRest.entries a b ha hb).trans (hFirst.entries a b ha hb), fun q hq l hl => ?_, fun g r hOut => ?_, fun g hOut => ?_⟩
    · rw [List.foldl_cons, hShapes, hShape]
    · by_cases hIn : q ∈ ps
      · exact hRest.written q hIn l hl
      · have hqp : q = p := (List.mem_cons.1 hq).resolve_right hIn
        rw [List.foldl_cons, (hRest.rows q.1 q.2 hIn).1]
        exact hFirst.written q (List.mem_singleton.2 hqp) l hl
    · rw [List.mem_cons, not_or] at hOut
      obtain ⟨hRow, hTag⟩ := hFirst.rows g r (fun h => hOut.1 (List.mem_singleton.1 h))
      obtain ⟨hRow', hTag'⟩ := hRest.rows g r hOut.2
      exact ⟨hRow'.trans hRow, hTag'.trans hTag⟩
    · exact (hRest.tiles g fun q hq => hOut q (List.mem_cons_of_mem _ hq)).trans
        (hFirst.tiles g fun q hq => hOut q (by rw [List.mem_singleton.1 hq]; exact List.mem_cons_self))

/-- A stored row's bytes read and counted, before the row is written (R177, R181). -/
def storedRead (s : State) (k : Nat) (row : KeyRow) (ks : List (Nat × Nat)) (bs : List Byte) : State :=
  (if ks.isEmpty then s.readWire k row.wire (if row.wire = 0 then [] else bs.take row.wire)
    else (s.readWire k row.wire (if row.wire = 0 then [] else bs.take row.wire)).bump 0x7020 3 row.wire).updStream k
      fun x => { x with state := 3, storedRow := x.storedRow + 1 }

theorem storedRead_reads (row : KeyRow) (ks : List (Nat × Nat)) (bs : List Byte) : (∃ d st, storedRead s k row ks bs = { s with dict := d, streams := st })
    ∧ (∀ a b, a < 0x7000 → b < 256 → (storedRead s k row ks bs).entry a b = s.entry a b)
    ∧ ∃ w c at' b, (storedRead s k row ks bs).stream k = { s.stream k with
        state := 3, storedRow := (s.stream k).storedRow + 1, bytesRead := (s.stream k).bytesRead + row.wire, windowBytes := w, crc := c, waitSince := at', asked := false
        deferredWindow := b } := by
  obtain ⟨⟨d, st, hShape⟩, hEntries, -, b, hOwn⟩ := readWire_reads (s := s) k row.wire (if row.wire = 0 then [] else bs.take row.wire)
  unfold storedRead
  generalize s.readWire k row.wire (if row.wire = 0 then [] else bs.take row.wire) = w at hShape hEntries hOwn
  obtain ⟨x, hx, ⟨d', hxShape⟩, hxEntries⟩ : ∃ x, (if ks.isEmpty then w else w.bump 0x7020 3 row.wire) = x ∧ (∃ d', x = { w with dict := d' })
      ∧ ∀ a b, a < 0x7000 → b < 256 → x.entry a b = s.entry a b := by
    refine ⟨_, rfl, ?_⟩
    split
    · exact ⟨⟨_, rfl⟩, hEntries⟩
    · exact ⟨⟨_, rfl⟩, fun a b ha hb => (Laws.entry_setEntry_index _ _ _ _ _ _ (by decide) hb (by omega)).trans (hEntries a b ha hb)⟩
  have hxOwn : x.stream k = w.stream k := by rw [hxShape]; rfl
  rw [hx]
  refine ⟨⟨_, _, by rw [hxShape, hShape]; rfl⟩, hxEntries, (s.stream k).windowBytes + row.wire,
    crc64Run (s.stream k).crc (if row.wire = 0 then [] else bs.take row.wire), s.now, b, ?_⟩
  rw [State.updStream, stream_setStream_same, hxOwn, hOwn]

/-- A stored row that has arrived, whose stream's RATE allows it and whose rows are ready is written; then Geyser signals and reads on (R180, R181). -/
theorem writeStored_writes {data bs : List Byte} {h : KeyHeader} {row : KeyRow} {sets : ParamSet × ParamSet} {ks : List (Nat × Nat)} {r : Nat × Nat}
    (hEntry : s.streamEntry (s.stream k) = some (im, e)) (hHeader : (s.stream k).header = some h)
    (hNext : nextStored (s.streamRows h e) (s.stream k).storedRow = some row) (hSets : s.keySets h = some sets)
    (hState : (s.stream k).state = 2 ∨ (s.stream k).state = 3) (hArrived : row.wire = 0 ∨ s.arrivedAt k e = true)
    (hRate : e.sourceKind = 1 ∨ e.sourceKind = 2 ∨ (s.stream k).windowBytes < e.budget) (hr : r = rowRange h sets.2 (s.stream k) row)
    (hPoison : s.sourcePoisoned e r.1 r.2 = false) (hks : ks = s.keepers (s.stream k).job e h (s.stream k).storedRow)
    (hReady : ∀ p ∈ ks, s.ringReady p.1 e (s.tileShare (s.stream k).job p.1 h e) (s.keptStored (s.stream k).job p.1 h e (s.stream k).storedRow)
      (Tab.get (s.stream k).uniform 0 p.1) p.2 = true) (hBytes : bs = s.sourceBytes e r.1 r.2 data) :
    s.writeStored k data = ((((ks.map fun p => (p.1, e.ringRow p.2)).foldl (keyRow (storedRow h sets.2 row bs)) (storedRead s k row ks bs)).sendSignals k).readAhead k) := by
  have hReadyAll : (!ks.all fun p => s.ringReady p.1 e (s.tileShare (s.stream k).job p.1 h e) (s.keptStored (s.stream k).job p.1 h e (s.stream k).storedRow)
      (Tab.get (s.stream k).uniform 0 p.1) p.2) = false := by
    rw [Bool.not_eq_false', List.all_eq_true]
    exact hReady
  have hMeter : ¬(e.sourceKind ≠ 1 ∧ e.sourceKind ≠ 2 ∧ (!(s.meter k e).1) = true) := by
    unfold State.meter
    rcases hRate with h | h | h
    · simp [h]
    · simp [h]
    · simp [h]
  have hWaits : ¬(row.wire ≠ 0 ∧ (!s.arrivedAt k e) = true) := by
    rcases hArrived with h | h
    · simp [h]
    · simp [h]
  unfold State.writeStored
  dsimp only
  rw [hEntry, hHeader]
  dsimp only
  rw [hNext, hSets]
  dsimp only
  rw [if_neg (by rintro ⟨h2, h3⟩; exact hState.elim h2 h3), if_neg hWaits, if_neg hMeter, ← hr, hPoison, if_neg (by decide), ← hks, hReadyAll, if_neg (by decide),
    ← hBytes, List.foldl_map]
  rfl

theorem keyRowWrite_writes {data bs : List Byte} {h : KeyHeader} {row : KeyRow} {sets : ParamSet × ParamSet} {ks : List (Nat × Nat)}
    (hk : k < 16) (hEntry : s.streamEntry (s.stream k) = some (im, e)) (hReach : Safety.sourceReach s e = true)
    (hStep : s.writeStored k data =
      ((((ks.map fun p => (p.1, e.ringRow p.2)).foldl (keyRow (storedRow h sets.2 row bs)) (storedRead s k row ks bs)).sendSignals k).readAhead k)) :
    ∃ s2, exec (.keyRowWrite k data) s = .next s2 ∧ (s2.stream k).state = 3 ∧ (s2.stream k).storedRow = (s.stream k).storedRow + 1
      ∧ (s2.stream k).bytesRead = (s.stream k).bytesRead + row.wire ∧ s2.mem = s.mem
      ∧ (∀ p ∈ ks, ∀ l, l < 1024 → Row.lane (s2.rowData p.1 (e.ringRow p.2)) l = Row.lane (storedRow h sets.2 row bs) l % 2 ^ 36)
      ∧ ∀ u r, (∀ p ∈ ks, ¬(p.1 = u ∧ e.ringRow p.2 = r)) → s2.rowData u r = s.rowData u r ∧ s2.tag u r = s.tag u r := by
  obtain ⟨⟨d, st, hvShape⟩, hvEntries, _, _, _, _, hvOwn⟩ := storedRead_reads (s := s) (k := k) row ks bs
  generalize storedRead s k row ks bs = v at hStep hvShape hvEntries hvOwn
  obtain ⟨ps, hps⟩ : ∃ ps, ps = ks.map fun p => (p.1, e.ringRow p.2) := ⟨_, rfl⟩
  have hRows := keyRows_write (storedRow h sets.2 row bs) ps v
  rw [← hps] at hStep
  generalize ps.foldl (keyRow (storedRow h sets.2 row bs)) v = y at hStep hRows
  obtain ⟨di, tl, hyShape⟩ := hRows.shape
  have hyOwn : y.stream k = v.stream k := by rw [hyShape]; rfl
  obtain ⟨hJobs, hMem, hLink, hBlobs⟩ : y.jobs = s.jobs ∧ y.mem = s.mem ∧ y.hostLink = s.hostLink ∧ y.blobs = s.blobs := by
    rw [hyShape, hvShape]
    exact ⟨rfl, rfl, rfl, rfl⟩
  obtain ⟨hImage, hAt⟩ := streamEntry_parts hEntry
  have hyStream : y.streamEntry (y.stream k) = some (im, e) := by
    rw [hyOwn, hvOwn]
    exact streamEntry_of (by rw [State.job, hJobs]; exact hImage) hAt
  have hyReach := (sourceReach_keeps hLink hBlobs (fun a b ha hb => (hRows.entries a b ha hb).trans (hvEntries a b ha hb)) e).trans hReach
  have hAsks := (reads_asks hyStream hyReach).1
  obtain ⟨_, _, _, hAsksOwn⟩ := hAsks.own
  rw [hyOwn, hvOwn] at hAsksOwn
  refine ⟨_, (show exec (.keyRowWrite k data) s = execKeyRowWrite k data s from rfl).trans ((Laws.onStream_next hk).trans (congrArg Host.Outcome.next hStep)),
    by rw [hAsksOwn], by rw [hAsksOwn], by rw [hAsksOwn], hAsks.mem.trans hMem, fun p hp l hl => ?_, fun g n hOut => ?_⟩
  · rw [(rows_of_tiles hAsks.tiles _ _).1]
    exact hRows.written (p.1, e.ringRow p.2) (by rw [hps]; exact List.mem_map_of_mem hp) l hl
  · obtain ⟨hRow, hTag⟩ := rows_of_tiles hAsks.tiles g n
    obtain ⟨hRow', hTag'⟩ := hRows.rows g n fun hIn => by
      rw [hps, List.mem_map] at hIn
      obtain ⟨p, hp, he⟩ := hIn
      obtain ⟨h1, h2⟩ := Prod.mk.inj he
      exact hOut p hp ⟨h1, h2⟩
    obtain ⟨hRow'', hTag''⟩ := rows_of_tiles (s := s) (u := v) (by rw [hvShape]) g n
    exact ⟨hRow.trans (hRow'.trans hRow''), hTag.trans (hTag'.trans hTag'')⟩

/-- The count of uniform rows of each tile that a core's row went to (R187). -/
theorem tab_get_foldl_put (ts : List Nat) (n : Nat) : ∀ m : Tab Nat, (∀ u, u ∈ ts ∨ Tab.get m 0 u = n → Tab.get (ts.foldl (fun m u => Tab.put m u n) m) 0 u = n) := by
  induction ts with
  | nil => exact fun m u hu => hu.resolve_left List.not_mem_nil
  | cons a ts ih =>
    refine fun m u hu => ih (Tab.put m a n) u ?_
    by_cases hua : u = a
    · exact .inr (by rw [hua]; exact Laws.tab_get_put_same ..)
    · rw [Laws.tab_get_put_ne _ _ _ hua]
      exact hu.imp_left fun h => (List.mem_cons.1 h).resolve_left hua

/-- The stream of slot `k` once a uniform row has gone to the tiles `ts`, as tile `t` counts. -/
def uniformCounted (s : State) (k t : Nat) (ts : List Nat) : Machine.Stream :=
  { s.stream k with uniform := ts.foldl (fun m u => Tab.put m u (Tab.get (s.stream k).uniform 0 t + 1)) (s.stream k).uniform }

/-- A core's next uniform row goes to its targets, once each one's row is ready (R160, R187). -/
theorem writeUniform_writes {t i : Nat} {h : KeyHeader} {sets : ParamSet × ParamSet} {row : KeyRow} {ts : List Nat} (hLate : s.lateStreams = [])
    (hEntry : s.streamEntry (s.stream k) = some (im, e)) (hHeader : (s.stream k).header = some h) (hSets : s.keySets h = some sets)
    (hNext : s.nextUniform (s.stream k) h e t = some i) (hRow : row = (s.tileShare (s.stream k).job t h e).getD i default) (hState : (s.stream k).state ∈ [2, 3, 4])
    (hGroup : (s.job (s.stream k).job).group.contains t = true) (hts : ts = s.uniformTargets (s.stream k) h sets.1 row t) (hSome : ts ≠ [])
    (hReady : ∀ u ∈ ts, s.ringReady u e (s.tileShare (s.stream k).job u h e) (s.keptStored (s.stream k).job u h e (s.stream k).storedRow)
      (Tab.get (s.stream k).uniform 0 u) i = true) :
    s.writeUniform k t = ((ts.map fun u => (u, e.ringRow i)).foldl (keyRow (uniformRow h sets.1 sets.2 row)) (s.bump 0x7020 4 (4608 * ts.length))).setStream k
      (uniformCounted s k t ts) := by
  have hGoes : ¬((s.stream k).state < 2 ∨ 4 < (s.stream k).state ∨ (!(s.job (s.stream k).job).group.contains t) = true ∨ ts.isEmpty = true) := by
    rw [hGroup, List.isEmpty_iff]
    simp only [List.mem_cons, List.not_mem_nil, or_false] at hState
    simp [hSome]
    omega
  have hReadyAll : (!ts.all fun u => s.ringReady u e (s.tileShare (s.stream k).job u h e) (s.keptStored (s.stream k).job u h e (s.stream k).storedRow)
      (Tab.get (s.stream k).uniform 0 u) i) = false := by
    rw [Bool.not_eq_false', List.all_eq_true]
    exact hReady
  have hWrites : s.writeUniformOf (s.stream k) t = (uniformCounted s k t ts,
      (ts.map fun u => (u, e.ringRow i)).foldl (keyRow (uniformRow h sets.1 sets.2 row)) (s.bump 0x7020 4 (4608 * ts.length))) := by
    unfold State.writeUniformOf uniformCounted
    dsimp only
    rw [hEntry, hHeader]
    dsimp only
    rw [hNext, hSets]
    dsimp only
    rw [← hRow, ← hts, if_neg hGoes, hReadyAll, if_neg (by decide), List.foldl_map]
    rfl
  unfold State.writeUniform
  dsimp only
  rw [hLate, List.find?_nil]
  dsimp only
  rw [hWrites]

theorem uniformRowWrite_writes {t i : Nat} {d : Row} {ts : List Nat} (hk : k < 16)
    (hStep : s.writeUniform k t = ((ts.map fun u => (u, e.ringRow i)).foldl (keyRow d) (s.bump 0x7020 4 (4608 * ts.length))).setStream k (uniformCounted s k t ts)) :
    ∃ s2, exec (.uniformRowWrite k t) s = .next s2 ∧ (∀ u ∈ ts, Tab.get (s2.stream k).uniform 0 u = Tab.get (s.stream k).uniform 0 t + 1)
      ∧ (∀ u ∈ ts, ∀ l, l < 1024 → Row.lane (s2.rowData u (e.ringRow i)) l = Row.lane d l % 2 ^ 36)
      ∧ (∀ u r, ¬(u ∈ ts ∧ r = e.ringRow i) → s2.rowData u r = s.rowData u r ∧ s2.tag u r = s.tag u r) ∧ s2.mem = s.mem
      ∧ ∀ u, u ∉ ts → s2.tile u = s.tile u := by
  obtain ⟨v, hv, hvTiles, hvMem⟩ : ∃ v, v = s.bump 0x7020 4 (4608 * ts.length) ∧ v.tiles = s.tiles ∧ v.mem = s.mem := ⟨_, rfl, rfl, rfl⟩
  obtain ⟨ps, hps⟩ : ∃ ps, ps = ts.map fun u => (u, e.ringRow i) := ⟨_, rfl⟩
  have hIn (u r : Nat) : (u, r) ∈ ps ↔ u ∈ ts ∧ r = e.ringRow i := by
    rw [hps, List.mem_map]
    constructor
    · rintro ⟨a, ha, he⟩
      obtain ⟨rfl, rfl⟩ := Prod.mk.inj he
      exact ⟨ha, rfl⟩
    · rintro ⟨hu, rfl⟩
      exact ⟨u, hu, rfl⟩
  have hRows := keyRows_write d ps v
  rw [← hv, ← hps] at hStep
  generalize ps.foldl (keyRow d) v = y at hStep hRows
  obtain ⟨_, _, hyShape⟩ := hRows.shape
  refine ⟨_, (show exec (.uniformRowWrite k t) s = execUniformRowWrite k t s from rfl).trans ((Laws.onStream_next hk).trans (congrArg Host.Outcome.next hStep)),
    fun u hu => ?_, fun u hu l hl => ?_, fun u r hOut => ?_, ?_, fun u hu => ?_⟩
  · rw [stream_setStream_same]
    exact tab_get_foldl_put ts _ _ u (.inl hu)
  · exact hRows.written (u, e.ringRow i) ((hIn _ _).2 ⟨hu, rfl⟩) l hl
  · obtain ⟨hData, hTag⟩ := hRows.rows u r fun h => hOut ((hIn _ _).1 h)
    obtain ⟨hData', hTag'⟩ := rows_of_tiles (s := s) (u := v) hvTiles u r
    exact ⟨hData.trans hData', hTag.trans hTag'⟩
  · exact (show y.mem = v.mem by rw [hyShape]).trans hvMem
  · refine (hRows.tiles u fun p hp h => hu ?_).trans (by rw [State.tile, hvTiles]; rfl)
    exact h ▸ ((hIn p.1 p.2).1 hp).1

end KeyRows

/-- Settles O37: rows, trailers, windows and failures of a key's stream, clause by clause. -/
theorem streamsCarryOrFail : Obligations.StreamsCarryOrFail := by
  unfold Obligations.StreamsCarryOrFail
  exact ⟨fun _ _ _ _ _ _ _ _ _ _ _ hk hEntry hHeader hNext hSets hState hArrived hRate hr hPoison hReach hks hReady hBytes =>
      keyRowWrite_writes hk hEntry hReach (writeStored_writes hEntry hHeader hNext hSets hState hArrived hRate hr hPoison hks hReady hBytes),
    fun _ _ _ _ _ _ _ _ _ _ hk hLate hEntry hHeader hSets hNext hRow hState hGroup hts hSome hReady =>
      uniformRowWrite_writes hk (writeUniform_writes hLate hEntry hHeader hSets hNext hRow hState hGroup hts hSome hReady),
    fun _ _ _ _ _ _ hk hEntry hBytes hState hArrived hPoison hGot => keyTrailerCheck_ends hk hEntry hBytes hState hArrived hPoison hGot,
    fun _ _ _ _ _ hk hEntry hKind hBound hState hOff hLeft hPermitted hRate hPoison =>
      mcastWindowSend_sends hk hEntry hKind hBound hState hOff hLeft hPermitted hRate hPoison,
    fun _ _ _ _ _ hk hEntry hBound hOpen hLeft hError hRun => streamReadFail_fails hk hEntry hBound hOpen hLeft hError hRun,
    fun _ _ _ _ hk hEntry hBound hState hWaiting hLate hRun => mcastTimeouts_fail hk hEntry hBound hState hWaiting hLate hRun⟩

end Sys2Proof.Proofs
end

section
/-! PROOFS. Window PUTs and GETs that waited (R262-R264, R272). -/

namespace Sys2Proof.Proofs

open Sys2Proof.Machine

section Windows

variable {s u v : State} {t r x n X : Nat} {f : Frame} {d : List Byte}

theorem sliceBytes_all (d : List Byte) : sliceBytes d 0 d.length = d := by
  refine List.ext_getElem (by simp [sliceBytes]) fun i h1 h2 => ?_
  simp [sliceBytes, List.getElem?_eq_getElem h2]

/-- The rows that bytes within one row touch: that row (R262). -/
theorem rowsOf_one (hn : 0 < n) (hx : x = X % 4608) (hr : r = X / 4608) (hFits : x + n ≤ 4608) : rowsOf X n = [r] := by
  have hEnd : (X + n - 1) / 4608 = r := by omega
  rw [rowsOf, if_neg (by omega), hEnd, ← hr, Nat.sub_self]
  rfl

/-- The bytes of row `r` with `d` in place of those from byte `x` on. -/
def putBytesIn (s : State) (t r x : Nat) (d : List Byte) : List Byte := (s.rowImage t r).take x ++ d ++ (s.rowImage t r).drop (x + d.length)

/-- The words that `n` bytes from byte `x` on fill and that the coverage map of row `r` does not hold yet, added to it (R263). -/
def covered (s : State) (t r x n : Nat) : List Nat :=
  Tab.get (s.tile t).coverage [] r ++ ((List.range (n / 18)).map fun i => x / 18 + i).filter fun w => !(Tab.get (s.tile t).coverage [] r).contains w

/-- A PUT within one row: the row's bytes and its coverage map change, and the row is complete once every word is covered (R263). -/
theorem windowPut_puts (hn : 0 < d.length) (hx : x = X % 4608) (hr : r = X / 4608) (hFits : x + d.length ≤ 4608) :
    ∃ v, s.windowPut t X d = (if (covered s t r x d.length).length = 256 then v.completeRow t r else v) ∧ RowsFrame t s v
      ∧ (∀ l, l < 1024 → Row.lane (v.rowData t r) l = Row.lane (bytesRow (putBytesIn s t r x d)) l % 2 ^ 36)
      ∧ (∀ k, k ≠ r → v.rowData t k = s.rowData t k) ∧ (∀ k, v.tag t k = s.tag t k) ∧ (v.tile t).verifyDue = (s.tile t).verifyDue := by
  obtain ⟨words, hWords⟩ : ∃ words, words = (List.range (d.length / 18)).map fun i => x / 18 + i := ⟨_, rfl⟩
  obtain ⟨w, hw, hwTile, hwFrame⟩ : ∃ w, w = (s.setRow t r (bytesRow (putBytesIn s t r x d))).cancelWriteBack t r words.contains
      ∧ (w.tile t = { s.tile t with
          rows := Tab.put (s.tile t).rows r (rowMap fun l => Row.lane (bytesRow (putBytesIn s t r x d)) l % 2 ^ 36)
          writeBacks := (s.tile t).writeBacks.filter fun p => !(p.1 = r && words.contains p.2) }) ∧ RowsFrame t s w := by
    refine ⟨_, rfl, ?_, ((RowsFrame.refl s).setRow r _).cancelWriteBack r _⟩
    simp only [State.setRow, State.cancelWriteBack, Laws.tile_updTile_same]
  have hCovered : Tab.get (w.tile t).coverage [] r ++ words.filter (fun i => !(Tab.get (w.tile t).coverage [] r).contains i) = covered s t r x d.length := by
    rw [hwTile, hWords]
    rfl
  obtain ⟨v, hv, hvTile, hvFrame⟩ : ∃ v, v = (w.updTile t fun y => { y with coverage := Tab.put y.coverage r (covered s t r x d.length) })
      ∧ v.tile t = { w.tile t with coverage := Tab.put (w.tile t).coverage r (covered s t r x d.length) } ∧ RowsFrame t s v :=
    ⟨_, rfl, Laws.tile_updTile_same .., hwFrame.trans ⟨⟨_, rfl⟩, fun _ hk => Laws.tile_updTile_ne _ hk, ⟨_, _, _, _, _, Laws.tile_updTile_same _⟩⟩⟩
  have hStep : s.windowPut t X d = if (covered s t r x d.length).length = 256 then v.completeRow t r else v := by
    have hLow : max X (r * 4608) = X := by omega
    have hHigh : min (X + d.length) ((r + 1) * 4608) = X + d.length := by omega
    have hOff : X - r * 4608 = x := by omega
    have hEnd : X + d.length - r * 4608 = x + d.length := by omega
    rw [State.windowPut, rowsOf_one hn hx hr hFits, List.foldl_cons, List.foldl_nil]
    unfold State.windowPutRow
    dsimp only
    rw [hLow, hHigh, hOff, hEnd, Nat.sub_self, Nat.add_sub_cancel_left, sliceBytes_all, ← hWords,
      show (s.rowImage t r).take x ++ d ++ (s.rowImage t r).drop (x + d.length) = putBytesIn s t r x d from rfl, ← hw, hCovered, ← hv]
  have hRows : (v.tile t).rows = Tab.put (s.tile t).rows r (rowMap fun l => Row.lane (bytesRow (putBytesIn s t r x d)) l % 2 ^ 36) := by rw [hvTile, hwTile]
  obtain ⟨hSame, hNe⟩ := rowData_put hRows (by rw [hvTile, hwTile])
  have hTags : (v.tile t).tags = (s.tile t).tags := by rw [hvTile, hwTile]
  exact ⟨v, hStep, hvFrame, fun l hl => (congrArg (fun w : Row => Row.lane w l) hSame).trans (lane_rowMap _ hl), hNe,
    fun k => by rw [State.tag, hTags]; rfl, by rw [hvTile, hwTile]⟩

/-- The waiting PUT that is performed is out of the list; its tile is unchanged otherwise. -/
theorem dropPut_frame (f : Frame) : ∃ v, v = (s.updTile t fun y => { y with windowPuts := y.windowPuts.erase f })
    ∧ v.tile t = { s.tile t with windowPuts := (s.tile t).windowPuts.erase f } ∧ (∀ k, k ≠ t → v.tile k = s.tile k) ∧ ∃ tl, v = { s with tiles := tl } :=
  ⟨_, rfl, Laws.tile_updTile_same .., fun _ hk => Laws.tile_updTile_ne _ hk, _, rfl⟩

/-- What a PUT that waits within one EMPTY row leaves before it is answered: its bytes stand in the row, and its tile otherwise keeps its rows and tags (R263). -/
structure PutStands (t r x : Nat) (f : Frame) (s v : State) : Prop where
  shape : ∃ tl, v = { s with tiles := tl }
  others : ∀ k, k ≠ t → v.tile k = s.tile k
  windowPuts : (v.tile t).windowPuts = (s.tile t).windowPuts.erase f
  windowLanded : (v.tile t).windowLanded = (s.tile t).windowLanded
  verifyDue : (v.tile t).verifyDue = (s.tile t).verifyDue
  written : ∀ l, l < 1024 → Row.lane (v.rowData t r) l = Row.lane (bytesRow (putBytesIn s t r x f.payload)) l % 2 ^ 36
  rows : ∀ k, k ≠ r → v.rowData t k = s.rowData t k
  tags : ∀ k, v.tag t k = s.tag t k

/-- A PUT that waits within one EMPTY row is performed; it is answered at once, or waits for a verify read of its row (R263, R272). -/
theorem windowPutLand_puts (ht : t < 64) (hn : n = f.payload.length) (hSome : 0 < n) (hx : x = windowOffset f.address % 4608) (hr : r = windowOffset f.address / 4608)
    (hFits : x + n ≤ 4608)
    (hFirst : ((s.tile t).windowPuts.find? fun g => s.anyPoison t (frameRows g g.payload.length) || s.allTagged t (frameRows g g.payload.length) .empty) = some f)
    (hEmpty : s.tag t r = .empty) (hIdle : (s.tile t).running = []) :
    ∃ v w, PutStands t r x f s v ∧ w = (if (covered s t r x n).length = 256 then v.completeRow t r else v)
      ∧ exec (.windowPutLand t) s = .next (if (w.tile t).verifyDue.contains r then w.updTile t fun y => { y with windowLanded := y.windowLanded ++ [f] } else w.decideOp f OK 0 []) := by
  subst hn
  obtain ⟨p, hp, hpTile, hpOthers, tl, hpShape⟩ := dropPut_frame (s := s) (t := t) f
  obtain ⟨v, hPut, hFrame, hRow, hRows, hTags, hDue⟩ := windowPut_puts (s := p) (t := t) hSome hx hr hFits
  have hpRow (k : Nat) : p.rowData t k = s.rowData t k ∧ p.tag t k = s.tag t k :=
    ⟨rowData_congr (by rw [hpTile]) (by rw [hpTile]) k, by rw [State.tag, hpTile]; rfl⟩
  have hCovered : covered p t r x f.payload.length = covered s t r x f.payload.length := by
    unfold covered
    rw [hpTile]
  have hBytes : putBytesIn p t r x f.payload = putBytesIn s t r x f.payload := by
    unfold putBytesIn State.rowImage
    rw [(hpRow r).1]
  rw [hCovered] at hPut
  obtain ⟨w, hw⟩ : ∃ w, w = (if (covered s t r x f.payload.length).length = 256 then v.completeRow t r else v) := ⟨_, rfl⟩
  have hwFrame : RowsFrame t p w := by
    rw [hw]
    split
    · exact hFrame.completeRow r
    · exact hFrame
  have hRun : (w.tile t).running = [] := by
    obtain ⟨_, _, _, _, _, e⟩ := hwFrame.tile
    rw [e, hpTile]
    exact hIdle
  have hOne : frameRows f f.payload.length = [r] := rowsOf_one hSome hx hr hFits
  have hClean : p.anyPoison t [r] = false := by
    simp [State.anyPoison, (hpRow r).2, hEmpty]
  obtain ⟨_, _, _, _, _, hvTile⟩ := hFrame.tile
  obtain ⟨tl', hvShape⟩ := hFrame.shape
  refine ⟨v, w, ⟨⟨tl', by rw [hvShape, hpShape]⟩, fun k hk => (hFrame.others k hk).trans (hpOthers k hk), by rw [hvTile, hpTile], by rw [hvTile, hpTile],
    by rw [hDue, hpTile], fun l hl => by rw [hRow l hl, hBytes], fun k hk => (hRows k hk).trans (hpRow k).1, fun k => (hTags k).trans (hpRow k).2⟩, hw, ?_⟩
  change execWindowPutLand t s = _
  rw [execWindowPutLand, Laws.onTile_next ht, hFirst]
  dsimp only
  rw [← hp, State.landPut]
  dsimp only
  rw [hOne, hClean, if_neg (by decide), hPut, ← hw, feedTile_none hRun]
  simp only [List.any_cons, List.any_nil, Bool.or_false]

/-- A step that changes tiles alone leaves what a completion of an operation rests on. -/
theorem wired_of_tiles (h : ∃ tl, u = { s with tiles := tl }) : Wired s u := by
  obtain ⟨_, rfl⟩ := h
  exact Wired.of_entries rfl rfl fun _ _ _ _ => rfl

theorem windowPutLand_answers (ht : t < 64) (hn : n = f.payload.length) (hSome : 0 < n) (hx : x = windowOffset f.address % 4608) (hr : r = windowOffset f.address / 4608)
    (hFits : x + n ≤ 4608)
    (hFirst : ((s.tile t).windowPuts.find? fun g => s.anyPoison t (frameRows g g.payload.length) || s.allTagged t (frameRows g g.payload.length) .empty) = some f)
    (hEmpty : s.tag t r = .empty) (hIdle : (s.tile t).running = []) (hPlain : s.isProtectedRow t r = false) (hDue : (s.tile t).verifyDue.contains r = false) :
    ∃ s2, exec (.windowPutLand t) s = .next s2 ∧ (s2.tile t).windowPuts = (s.tile t).windowPuts.erase f ∧ Safety.answered s s2 f OK 0 []
      ∧ (∀ l, l < 1024 → Row.lane (s2.rowData t r) l
          = Row.lane (bytesRow ((s.rowImage t r).take x ++ f.payload ++ (s.rowImage t r).drop (x + n))) l % 2 ^ 36)
      ∧ (∀ u k, (u, k) ≠ (t, r) → s2.rowData u k = s.rowData u k ∧ s2.tag u k = s.tag u k) ∧ s2.mem = s.mem := by
  obtain ⟨v, w, hStands, hw, hStep⟩ := windowPutLand_puts ht hn hSome hx hr hFits hFirst hEmpty hIdle
  subst hn
  obtain ⟨tl, hShape⟩ := hStands.shape
  have hwTags : TagFrame t v w ∧ ∀ k, k ≠ r → w.tag t k = v.tag t k := by
    rw [hw]
    split
    · have hvPlain : v.isProtectedRow t r = false := by rw [hShape]; exact hPlain
      rw [State.completeRow, hvPlain, if_neg (by decide)]
      exact ⟨(TagFrame.refl v).setTag r _, fun k hk => by rw [tag_setTag, if_neg fun h => hk h.2]⟩
    · exact ⟨TagFrame.refl v, fun _ _ => rfl⟩
  obtain ⟨hTags, hTag⟩ := hwTags
  obtain ⟨_, _, hwTile⟩ := hTags.tile
  obtain ⟨tl', hwShape⟩ := hTags.shape
  have hwDue : (w.tile t).verifyDue.contains r = false := by
    rw [hwTile]
    exact (congrArg (fun l : List Nat => l.contains r) hStands.verifyDue).trans hDue
  rw [hwDue, if_neg (by decide)] at hStep
  obtain ⟨hMem, hTiles, -, -⟩ := decideOp_memory (u := w) (f := f) (status := OK) (operand := 0) (data := [])
  have hAnswer := decideOp_answers (s := s) (u := w) (f := f) (status := OK) (operand := 0) (data := []) (wired_of_tiles ⟨tl', by rw [hwShape, hShape]⟩)
  have hRows (g k : Nat) := rows_of_tiles hTiles g k
  have hwRow (k : Nat) : w.rowData t k = v.rowData t k := rowData_congr (by rw [hwTile]) (by rw [hwTile]) k
  refine ⟨_, hStep, ?_, hAnswer, fun l hl => ?_, fun g k hOut => ?_, ?_⟩
  · rw [State.tile, hTiles]
    change (w.tile t).windowPuts = _
    rw [hwTile]
    exact hStands.windowPuts
  · rw [(hRows t r).1, hwRow]
    exact hStands.written l hl
  · obtain ⟨hRow, hRowTag⟩ := hRows g k
    rw [hRow, hRowTag]
    by_cases hg : g = t
    · subst hg
      have hk : k ≠ r := fun h => hOut (by rw [h])
      exact ⟨(hwRow k).trans (hStands.rows k hk), (hTag k hk).trans (hStands.tags k)⟩
    · have hSame := (hTags.others g hg).trans (hStands.others g hg)
      exact ⟨rowData_congr (by rw [hSame]) (by rw [hSame]) k, by rw [State.tag, hSame]; rfl⟩
  · rw [hMem, hwShape, hShape]

theorem windowPutLand_waits (ht : t < 64) (hn : n = f.payload.length) (hSome : 0 < n) (hx : x = windowOffset f.address % 4608) (hr : r = windowOffset f.address / 4608)
    (hFits : x + n ≤ 4608)
    (hFirst : ((s.tile t).windowPuts.find? fun g => s.anyPoison t (frameRows g g.payload.length) || s.allTagged t (frameRows g g.payload.length) .empty) = some f)
    (hEmpty : s.tag t r = .empty) (hIdle : (s.tile t).running = []) (hProtected : s.isProtectedRow t r = true)
    (hFull : (((List.range (n / 18)).map fun i => x / 18 + i).filter fun w => !(Tab.get (s.tile t).coverage [] r).contains w).length
      + (Tab.get (s.tile t).coverage [] r).length = 256) :
    ∃ s2, exec (.windowPutLand t) s = .next s2 ∧ (s2.tile t).windowPuts = (s.tile t).windowPuts.erase f ∧ (s2.tile t).verifyDue.contains r = true
      ∧ (s2.tile t).windowLanded = (s.tile t).windowLanded ++ [f] ∧ s2.tag t r = .empty ∧ s2.out = s.out
      ∧ (∀ l, l < 1024 → Row.lane (s2.rowData t r) l
          = Row.lane (bytesRow ((s.rowImage t r).take x ++ f.payload ++ (s.rowImage t r).drop (x + n))) l % 2 ^ 36) ∧ s2.mem = s.mem := by
  obtain ⟨v, w, hStands, hw, hStep⟩ := windowPutLand_puts ht hn hSome hx hr hFits hFirst hEmpty hIdle
  have hCovered : (covered s t r x n).length = 256 := by
    rw [covered, List.length_append, Nat.add_comm]
    exact hFull
  subst hn
  obtain ⟨tl, hShape⟩ := hStands.shape
  have hvProtected : v.isProtectedRow t r = true := by rw [hShape]; exact hProtected
  rw [if_pos hCovered, State.completeRow, if_pos hvProtected] at hw
  obtain ⟨due, hDueAt⟩ : ∃ due, due = if (v.tile t).verifyDue.contains r then (v.tile t).verifyDue else (v.tile t).verifyDue ++ [r] := ⟨_, rfl⟩
  have hwTile : w.tile t = { v.tile t with verifyDue := due } := by
    rw [hw, Laws.tile_updTile_same, hDueAt]
  have hDue : due.contains r = true := by
    rw [hDueAt]
    split
    · next h => exact h
    · simp
  rw [show (w.tile t).verifyDue.contains r = true by rw [hwTile]; exact hDue, if_pos rfl] at hStep
  obtain ⟨y, hy, hyTile, hyOut, hyMem⟩ : ∃ y, (w.updTile t fun y => { y with windowLanded := y.windowLanded ++ [f] }) = y
      ∧ y.tile t = { w.tile t with windowLanded := (w.tile t).windowLanded ++ [f] } ∧ y.out = s.out ∧ y.mem = s.mem :=
    ⟨_, rfl, Laws.tile_updTile_same .., by rw [hw, hShape]; rfl, by rw [hw, hShape]; rfl⟩
  rw [hy] at hStep
  refine ⟨y, hStep, ?_, ?_, ?_, ?_, hyOut, fun l hl => ?_, hyMem⟩
  · rw [hyTile, hwTile]
    exact hStands.windowPuts
  · rw [hyTile, hwTile]
    exact hDue
  · rw [hyTile, hwTile]
    exact congrArg (fun l => l ++ [f]) hStands.windowLanded
  · refine Eq.trans ?_ ((hStands.tags r).trans hEmpty)
    rw [State.tag, hyTile, hwTile]
    rfl
  · have hRow : y.rowData t r = v.rowData t r := rowData_congr (by rw [hyTile, hwTile]) (by rw [hyTile, hwTile]) r
    rw [hRow]
    exact hStands.written l hl

/-! ### GETs (R264) -/

theorem windowGetServe_answers (ht : t < 64)
    (hFirst : ((s.tile t).windowGets.find? fun g => s.anyPoison t (frameRows g g.length) || s.allTagged t (frameRows g g.length) .full) = some f)
    (hClean : s.anyPoison t (frameRows f f.length) = false) :
    ∃ s2, exec (.windowGetServe t .clean) s = .next s2 ∧ (s2.tile t).windowGets = (s.tile t).windowGets.erase f
      ∧ Safety.answered s s2 f OK 0 (s.windowBytes t (windowOffset f.address) f.length)
      ∧ (∀ u k, s2.rowData u k = s.rowData u k ∧ s2.tag u k = s.tag u k) ∧ s2.mem = s.mem := by
  obtain ⟨v, hv, hvTile, hvOthers, hvShape⟩ : ∃ v, v = (s.updTile t fun y => { y with windowGets := y.windowGets.erase f })
      ∧ v.tile t = { s.tile t with windowGets := (s.tile t).windowGets.erase f } ∧ (∀ k, k ≠ t → v.tile k = s.tile k) ∧ ∃ tl, v = { s with tiles := tl } :=
    ⟨_, rfl, Laws.tile_updTile_same .., fun _ hk => Laws.tile_updTile_ne _ hk, _, rfl⟩
  have hRow (g k : Nat) : v.rowData g k = s.rowData g k ∧ v.tag g k = s.tag g k := by
    by_cases hg : g = t
    · subst hg
      exact ⟨rowData_congr (by rw [hvTile]) (by rw [hvTile]) k, by rw [State.tag, hvTile]; rfl⟩
    · exact ⟨rowData_congr (by rw [hvOthers g hg]) (by rw [hvOthers g hg]) k, by rw [State.tag, hvOthers g hg]; rfl⟩
  have hvClean : v.anyPoison t (frameRows f f.length) = false := by
    simp only [State.anyPoison, (hRow t _).2]
    exact hClean
  have hBytes : v.windowBytes t (windowOffset f.address) f.length = s.windowBytes t (windowOffset f.address) f.length := by
    simp only [State.windowBytes, State.rowImage, (hRow t _).1]
  have hStep : exec (.windowGetServe t .clean) s = .next (v.decideOp f OK 0 (s.windowBytes t (windowOffset f.address) f.length)) := by
    change execWindowGetServe t .clean s = _
    rw [execWindowGetServe, Laws.onTile_next ht, hFirst]
    dsimp only
    rw [← hv, State.serveGet]
    dsimp only
    rw [hvClean, if_neg (by decide), hBytes]
    rfl
  obtain ⟨hMem, hTiles, -, -⟩ := decideOp_memory (u := v) (f := f) (status := OK) (operand := 0) (data := s.windowBytes t (windowOffset f.address) f.length)
  refine ⟨_, hStep, ?_, decideOp_answers (wired_of_tiles hvShape), fun g k => ?_, ?_⟩
  · rw [State.tile, hTiles]
    change (v.tile t).windowGets = _
    rw [hvTile]
  · obtain ⟨h1, h2⟩ := rows_of_tiles hTiles g k
    exact ⟨h1.trans (hRow g k).1, h2.trans (hRow g k).2⟩
  · obtain ⟨_, e⟩ := hvShape
    rw [hMem, e]

end Windows

end Sys2Proof.Proofs
end

section
/-! PROOFS. A window PUT whose row is verified ends with the verify read (R272). -/

namespace Sys2Proof.Proofs

open Sys2Proof.Machine

section Verified

variable {s u v w : State} {t row : Nat} {f : Frame}

/-- What a failing row's job's end leaves: memory, what has left, the triples, poisoned rows, and the PUTs that wait for a verify read. -/
structure EndsOnly (s u : State) : Prop where
  mem : u.mem = s.mem
  out : u.out = s.out
  seqs : u.seqExpected = s.seqExpected
  poison : keepsPoison s u
  landed : ∀ k, (u.tile k).windowLanded = (s.tile k).windowLanded

namespace EndsOnly

theorem of_tiles (hMem : u.mem = s.mem) (hOut : u.out = s.out) (hSeqs : u.seqExpected = s.seqExpected) (hTiles : u.tiles = s.tiles) : EndsOnly s u := by
  have hTile (k : Nat) : u.tile k = s.tile k := by rw [State.tile, hTiles]; rfl
  exact ⟨hMem, hOut, hSeqs, fun k r h => by rw [State.tag, hTile]; exact h, fun k => by rw [hTile]⟩

theorem refl (s : State) : EndsOnly s s := of_tiles rfl rfl rfl rfl

theorem trans (h : EndsOnly s v) (h' : EndsOnly v u) : EndsOnly s u :=
  ⟨h'.mem.trans h.mem, h'.out.trans h.out, h'.seqs.trans h.seqs, fun k r hp => h'.poison k r (h.poison k r hp), fun k => (h'.landed k).trans (h.landed k)⟩

theorem foldl {α : Type} {g : State → α → State} (hg : ∀ u x, EndsOnly u (g u x)) (l : List α) : ∀ s, EndsOnly s (l.foldl g s) := by
  induction l with
  | nil => exact refl
  | cons x l ih => exact fun s => (hg s x).trans (ih _)

/-- A change of one tile that keeps its tags and the PUTs that wait. -/
theorem updTile (g : Nat) {c : Tile → Tile} (h : ∀ y, (c y).tags = y.tags ∧ (c y).windowLanded = y.windowLanded) : EndsOnly s (s.updTile g c) := by
  refine ⟨rfl, rfl, rfl, fun k r hp => ?_, fun k => ?_⟩
  · by_cases hk : k = g
    · subst hk
      rw [State.tag, Laws.tile_updTile_same, (h _).1]
      exact hp
    · rw [State.tag, Laws.tile_updTile_ne _ hk]
      exact hp
  · by_cases hk : k = g
    · subst hk
      rw [Laws.tile_updTile_same, (h _).2]
    · rw [Laws.tile_updTile_ne _ hk]

theorem poisonRows (g first n : Nat) : EndsOnly s (s.poisonRows g first n) := by
  refine foldl (g := fun u i => u.setTag g (first + i) .poison) (fun u i => ⟨rfl, rfl, rfl, fun k r hp => ?_, fun k => ?_⟩) _ s
  · rw [tag_setTag, hp, ite_self]
  · unfold State.setTag
    by_cases hk : k = g
    · subst hk
      rw [Laws.tile_updTile_same]
    · rw [Laws.tile_updTile_ne _ hk]

theorem poisonGroupOp (j n : Nat) : EndsOnly s (s.poisonGroupOp j n) :=
  foldl (fun u _ => foldl (fun _ (r : Nat × Nat) => poisonRows _ r.1 r.2) _ u) _ s

/-- The end of a job, in whatever state it is (R255). -/
theorem abortJob (j code tile bundle : Nat) : EndsOnly s (s.abortJob j code tile bundle) := by
  have hSettle : EndsOnly s (s.settleJob j) := by
    obtain ⟨_, _, _, _, e⟩ := ((Settled.refl s).settleJob j).shape
    have hTile := ((Settled.refl s).settleJob j).tiles
    refine ⟨by rw [e], by rw [e], by rw [e], fun k r hp => ?_, fun k => ?_⟩
    · obtain ⟨_, _, hk⟩ := hTile k
      rw [State.tag, hk]
      exact hp
    · obtain ⟨_, _, hk⟩ := hTile k
      rw [hk]
  have hTick (x : State) : EndsOnly x (x.faultTick j) := by
    unfold State.faultTick
    split
    · unfold State.addTick
      split
      · exact of_tiles rfl rfl rfl rfl
      · exact of_tiles rfl rfl rfl rfl
    · exact refl x
  unfold State.abortJob
  dsimp only
  split
  · have hJob (x : State) (c : Job → Job) : EndsOnly x (x.updJob j c) := of_tiles rfl rfl rfl rfl
    exact (hSettle.trans (hJob _ _)).trans (hTick _)
  · split
    · split
      · exact of_tiles rfl rfl rfl rfl
      · exact of_tiles rfl rfl rfl rfl
    · exact refl s

theorem keyOutcome (j entry error : Nat) : EndsOnly s (s.keyOutcome j entry error) := by
  have hDestination (x : State) (e : StreamEntry) : EndsOnly x (x.poisonDestination j e) := foldl (fun _ g => poisonRows g ..) _ x
  have hConsumers (x : State) : EndsOnly x (x.poisonConsumers j entry) := foldl (fun _ n => poisonGroupOp j n) _ x
  have hNoted (x : State) (e : StreamEntry) (hx : EndsOnly s x) :
      EndsOnly s (if error = KEY_CRC then (x.poisonDestination j e).poisonConsumers j entry else x.poisonDestination j e) := by
    split
    · exact (hx.trans (hDestination x e)).trans (hConsumers _)
    · exact hx.trans (hDestination x e)
  unfold State.keyOutcome
  dsimp only
  cases keyErrorCounter error with
  | none =>
    dsimp only
    have hx : EndsOnly s ((s.setEntry (0x7080 + j) 3 error).setEntry (0x7080 + j) 4 entry) := of_tiles rfl rfl rfl rfl
    generalize (s.setEntry (0x7080 + j) 3 error).setEntry (0x7080 + j) 4 entry = x at hx
    split
    · exact hx
    · exact (hNoted x _ hx).trans (abortJob ..)
  | some c =>
    dsimp only
    have hx : EndsOnly s (((s.setEntry (0x7080 + j) 3 error).setEntry (0x7080 + j) 4 entry).bump 0x7020 c 1) := of_tiles rfl rfl rfl rfl
    generalize ((s.setEntry (0x7080 + j) 3 error).setEntry (0x7080 + j) 4 entry).bump 0x7020 c 1 = x at hx
    split
    · exact hx
    · exact (hNoted x _ hx).trans (abortJob ..)

theorem streamFail (k error : Nat) : EndsOnly s (s.streamFail k error) := by
  have hEnd : EndsOnly s (if (s.stream k).bound then s.endCheck (streamContext k) else s) := by
    split
    · obtain ⟨⟨_, e⟩, -⟩ := endCheck_entries (s := s) (streamContext k)
      rw [e]
      exact of_tiles rfl rfl rfl rfl
    · exact refl s
  unfold State.streamFail
  dsimp only
  generalize (if (s.stream k).bound then s.endCheck (streamContext k) else s) = c at hEnd
  have hMark : EndsOnly c (c.setStream k { s.stream k with state := 5, error := error }) := of_tiles rfl rfl rfl rfl
  obtain ⟨a, b, hDrop⟩ := dropCredits_shape (s := c.setStream k { s.stream k with state := 5, error := error }) (s.stream k)
  have hCredits (x : State) : EndsOnly x { x with mcastCredits := a, mcastUsed := b } := of_tiles rfl rfl rfl rfl
  rw [hDrop]
  exact ((hEnd.trans hMark).trans (hCredits _)).trans (keyOutcome ..)

theorem faultTile (g : Nat) (r : FaultRecord) : EndsOnly s (s.faultTile g r) := by
  unfold State.faultTile
  split
  · exact refl s
  · have hRecord : EndsOnly s (s.updTile g fun x => { x with record := r }) := updTile g fun _ => ⟨rfl, rfl⟩
    exact hRecord.trans (abortJob ..)

theorem keyRowFail (j row : Nat) : EndsOnly s (s.keyRowFail j row) := by
  unfold State.keyRowFail
  split
  · exact streamFail ..
  · split
    · exact keyOutcome ..
    · exact abortJob ..

end EndsOnly

/-- The row awaits no verify read any more, and has the tag that the read gives it. -/
theorem verified_tile (g : Tag) (hOne : (s.tile t).verifyDue = [row]) : ∃ v, v = State.setTag (s.updTile t fun y => { y with verifyDue := y.verifyDue.erase row }) t row g
    ∧ (∃ tl, v = { s with tiles := tl }) ∧ (v.tile t).verifyDue = [] ∧ (v.tile t).running = (s.tile t).running ∧ (v.tile t).windowLanded = (s.tile t).windowLanded
    ∧ v.tag t row = g := by
  have hTile : (State.setTag (s.updTile t fun y => { y with verifyDue := y.verifyDue.erase row }) t row g).tile t
      = { s.tile t with verifyDue := (s.tile t).verifyDue.erase row, tags := Tab.put (s.tile t).tags row g, coverage := Tab.erase (s.tile t).coverage row } := by
    rw [State.setTag, Laws.tile_updTile_same, Laws.tile_updTile_same]
  refine ⟨_, rfl, ⟨_, rfl⟩, ?_, ?_, ?_, ?_⟩
  · rw [hTile, hOne]
    simp
  · rw [hTile]
  · rw [hTile]
  · rw [tag_setTag, if_pos ⟨rfl, rfl⟩]

theorem rowVerifyRead_settles (ht : t < 64) (hOne : (s.tile t).verifyDue = [row]) (hLanded : (s.tile t).windowLanded = [f]) (hIdle : (s.tile t).running = []) :
    ∃ s2, exec (.rowVerifyRead t row true) s = .next s2 ∧ s2.tag t row = .full ∧ (s2.tile t).windowLanded = [] ∧ Safety.answered s s2 f OK 0 [] ∧ s2.mem = s.mem := by
  obtain ⟨v, hv, ⟨tl, hShape⟩, hDue, hRun, hWaits, hTag⟩ := verified_tile .full hOne
  obtain ⟨w, hw, hwTile, hwShape⟩ : ∃ w, w = (v.updTile t fun y => { y with windowLanded := [] }) ∧ w.tile t = { v.tile t with windowLanded := [] }
      ∧ ∃ tl, w = { s with tiles := tl } := ⟨_, rfl, Laws.tile_updTile_same .., _, by rw [hShape]; rfl⟩
  have hSettle : v.settleLanded t = w.decideOp f OK 0 [] := by
    have hOut : ((frameRows f f.payload.length).any fun r => (v.tile t).verifyDue.contains r) = false := by rw [hDue]; simp
    rw [hw]
    unfold State.settleLanded State.updTile
    simp only [hWaits, hLanded, hOut, List.filter_cons, List.filter_nil, Bool.not_false, if_true, Bool.false_eq_true, if_false, List.foldl_cons, List.foldl_nil]
  have hStep : exec (.rowVerifyRead t row true) s = .next (w.decideOp f OK 0 []) := by
    change execRowVerifyRead t row true s = _
    rw [execRowVerifyRead, Laws.onTile_next ht, State.verifyRow, if_pos (by rw [hOne]; simp), if_pos rfl, ← hv, feedTile_none (hRun.trans hIdle), hSettle]
  obtain ⟨hMem, hTiles, -, -⟩ := decideOp_memory (u := w) (f := f) (status := OK) (operand := 0) (data := [])
  have hTile : (w.decideOp f OK 0 []).tile t = w.tile t := by rw [State.tile, hTiles]; rfl
  refine ⟨_, hStep, ?_, ?_, decideOp_answers (wired_of_tiles hwShape), ?_⟩
  · rw [State.tag, hTile, hwTile]
    exact hTag
  · rw [hTile, hwTile]
  · obtain ⟨_, e⟩ := hwShape
    rw [hMem, e]

theorem rowVerifyRead_refuses (ht : t < 64) (hOne : (s.tile t).verifyDue = [row]) (hLanded : (s.tile t).windowLanded = [f])
    (hHit : (frameRows f f.payload.length).contains row = true) (hIdle : (s.tile t).running = []) :
    ∃ s2, exec (.rowVerifyRead t row false) s = .next s2 ∧ s2.tag t row = .poison ∧ (s2.tile t).windowLanded = [] ∧ Safety.answered s s2 f DATA_CRC 0 []
      ∧ s2.mem = s.mem := by
  obtain ⟨v, hv, ⟨tl, hShape⟩, -, hRun, hWaits, hTag⟩ := verified_tile .poison hOne
  obtain ⟨w, hw, hwTile, hWired, hwMem⟩ : ∃ w, w = ((v.bump 0x3420 5 1).updTile t fun y => { y with windowLanded := [] })
      ∧ w.tile t = { v.tile t with windowLanded := [] } ∧ Wired s w ∧ w.mem = s.mem := by
    refine ⟨_, rfl, Laws.tile_updTile_same .., ⟨by rw [hShape]; rfl, by rw [hShape]; rfl, fun p hp => ?_⟩, by rw [hShape]; rfl⟩
    have hKeep (k : Nat) (hk : k < 256) : (v.bump 0x3420 5 1).entry (0x4040 + p) k = s.entry (0x4040 + p) k := by
      rw [hShape]
      exact Laws.entry_setEntry_index _ _ _ _ _ _ (by decide) hk (by omega)
    exact ⟨fun hUp => (hKeep 1 (by decide)).trans hUp, hKeep 2 (by decide)⟩
  have hFail : (v.bump 0x3420 5 1).failLanded t row = w.decideOp f DATA_CRC 0 [] := by
    have hLandedThere : ((v.bump 0x3420 5 1).tile t).windowLanded = [f] := hWaits.trans hLanded
    rw [hw]
    unfold State.failLanded State.updTile
    simp only [hLandedThere, hHit, List.filter_cons, List.filter_nil, Bool.not_true, if_true, Bool.false_eq_true, if_false, List.foldl_cons, List.foldl_nil]
  obtain ⟨x, hx, hxTile, hxAnswer, hxMem⟩ : ∃ x, x = w.decideOp f DATA_CRC 0 [] ∧ x.tile t = w.tile t ∧ Safety.answered s x f DATA_CRC 0 [] ∧ x.mem = s.mem := by
    obtain ⟨hMem, hTiles, -, -⟩ := decideOp_memory (u := w) (f := f) (status := DATA_CRC) (operand := 0) (data := [])
    exact ⟨_, rfl, by rw [State.tile, hTiles]; rfl, decideOp_answers hWired, hMem.trans hwMem⟩
  obtain ⟨y, hStep, hEnds⟩ : ∃ y, exec (.rowVerifyRead t row false) s = .next y ∧ EndsOnly x y := by
    have hExec : exec (.rowVerifyRead t row false) s = .next (State.verifyFail (s.updTile t fun y => { y with verifyDue := y.verifyDue.erase row }) t row) := by
      change execRowVerifyRead t row false s = _
      rw [execRowVerifyRead, Laws.onTile_next ht, State.verifyRow, if_pos (by rw [hOne]; simp), if_neg (by decide)]
    have hWriter : (x.tile t).writerOf row = none := by
      rw [Tile.writerOf, hxTile, hwTile, hRun, hIdle]
      rfl
    refine ⟨_, hExec, ?_⟩
    unfold State.verifyFail
    dsimp only
    rw [← hv, hFail, ← hx]
    split
    · exact EndsOnly.refl x
    · split
      · exact EndsOnly.keyRowFail ..
      · rw [hWriter]
        exact EndsOnly.faultTile ..
  obtain ⟨hSeq, hOut⟩ := hxAnswer
  refine ⟨y, hStep, hEnds.poison t row ?_, ?_, ⟨?_, fun p hp => hEnds.out.trans (hOut p hp)⟩, hEnds.mem.trans hxMem⟩
  · rw [State.tag, hxTile, hwTile]
    exact hTag
  · rw [hEnds.landed t, hxTile, hwTile]
  · rw [State.expectedSeq, hEnds.seqs]
    exact hSeq

end Verified

/-- Settles O39: PUTs that waited, the verify read that ends one, and GETs that waited, clause by clause. -/
theorem windowsServe : Obligations.WindowsServe := by
  unfold Obligations.WindowsServe
  exact ⟨fun _ _ _ _ _ _ ht hn hSome hx hr hFits hFirst hEmpty hIdle hPlain hDue => windowPutLand_answers ht hn hSome hx hr hFits hFirst hEmpty hIdle hPlain hDue,
    fun _ _ _ _ _ _ ht hn hSome hx hr hFits hFirst hEmpty hIdle hProtected hFull => windowPutLand_waits ht hn hSome hx hr hFits hFirst hEmpty hIdle hProtected hFull,
    fun _ _ _ _ ht hOne hLanded hHit hIdle => ⟨rowVerifyRead_settles ht hOne hLanded hIdle, rowVerifyRead_refuses ht hOne hLanded hHit hIdle⟩,
    fun _ _ _ ht hFirst hClean => windowGetServe_answers ht hFirst hClean⟩

end Sys2Proof.Proofs
end
